-- ==== Sys2Proof/Word.lean ====
section
/-!
DEFINITION. The word types of the hub: registers are 32-bit words (R7), memory is bytes.
-/

namespace Sys2Proof

/-- One byte of memory, flash or a bus payload. -/
abbrev Byte := BitVec 8

/-- One register (R7): a 32-bit word. -/
abbrev Word := BitVec 32

end Sys2Proof
end

