-- ==== Sys2Proof/Syntax.lean ====
section
/-!
DEFINITION. The commands of the hub, one constructor per row of spec/opcode_table.json.  The first operand of each, now, is
the DTIME (R17) in nanoseconds at which the command comes to the hub: the block has no clock of its own in this model
(assumption 1).  The other operands are what the world outside supplies: the source and value of a register write, data that
a host, a camera, a bus or a panel sends, and outcomes that only the analogue world decides.
-/

namespace Sys2Proof

/-- Who sends a register access (R487): host port p, the supervisor on its port, or JTAG. -/
inductive Src where
  | host (p : Fin 4)
  | sup
  | jtag
  deriving DecidableEq, Repr

/-- The response a read ends with: its data, an uncorrectable code word (R425), a parity error on chip (R233), an island-reset
response (R16) or an error of the host's link (R134). -/
inductive ReadRes where
  | ok | uncorrectable | parity | islandReset | hostError
  deriving DecidableEq, Repr

/-- The request classes of R224 and R225. -/
inductive MemClass where
  | deadline | guaranteed | besteffort
  deriving DecidableEq, Repr

/-- What a request to local DDR5 is beside its class: nothing more, a redo marked urgent (R225), speculative (R244, R449), or yellow
within class B (R393). -/
inductive ReadKind where
  | plain | urgent | speculative | yellow
  deriving DecidableEq, Repr

/-- The class and the kind of a read (R225, R434). -/
structure ReadClass where
  cls  : MemClass
  kind : ReadKind
  deriving DecidableEq, Repr

/-- What goes wrong in one beat of a block on its way from the device (R424): the data bits, the stored check bits and the
address bits of the fold word that differ from what was written. -/
structure BeatErr where
  beat  : Nat
  data  : Nat
  check : Nat
  fold  : Nat
  deriving DecidableEq, Repr

/-- The write a DRAM_WRITE_ACK acknowledges (R435): an entry of a sub-channel's write queue, or the oldest unacknowledged line
of an ingest channel (R464). -/
inductive Acked where
  | entry (c : Fin 8) (id : Nat)
  | line (c : Fin 24)
  | dma (c : Fin 32)
  deriving DecidableEq, Repr

/-- What the reads and computations of one scanned line meet (R212, R314, R316): corrected image reads, instances an image read of
which came back uncorrectable, pixels at which the two copies of the Bezel differ with the lowest instance involved, and the
64-byte blocks of the hold surface that read badly. -/
structure LineErrs where
  corr     : Nat
  bad      : List Nat
  diff     : Nat
  diffInst : Nat
  hold     : List Nat
  deriving DecidableEq, Repr

def LineErrs.none : LineErrs := ⟨0, [], 0, 0, []⟩

/-- A composed line of timeline t, and the 64-byte blocks of the hold surface and of a flattened run that were read badly for it. -/
structure ComposedLine where
  t   : Fin 16
  bad : List Nat
  deriving DecidableEq, Repr

/-- Link number `link` of the Promenade into an island (R15, R540). -/
structure IslandLink where
  isl  : Fin 108
  link : Nat
  deriving DecidableEq, Repr

/-- A write of a channel's control register, and whether the status write that its ABORT brings about fails (R364, R388). -/
structure AbortWrite where
  value   : Nat
  statBad : Bool
  deriving DecidableEq, Repr

/-- The end of a DMA channel's abort, and whether its status write fails. -/
structure AbortEnd where
  c       : Fin 32
  statBad : Bool
  deriving DecidableEq, Repr

/-- How the read of a descriptor or job came back, and whether the status write fails that a refusal of it brings about. -/
structure EntryRes where
  read    : ReadRes
  statBad : Bool
  deriving DecidableEq, Repr

/-- The blocks whose writes a controller reported as failed, and whether one of them failed before the first read that failed (R363). -/
structure WriteErrs where
  bad   : List Nat
  first : Bool
  deriving DecidableEq, Repr

/-- A request for a shaper queue (R405): its bytes, and whether the sub-channel it addresses has a free class B entry or it goes
through a host window (R406). -/
structure QReq where
  bytes : Nat
  room  : Bool
  deriving DecidableEq, Repr

/-- A frame received on a CAN bus (R469 to R471). -/
structure CanFrame where
  id   : Nat
  ext  : Bool
  fd   : Bool
  remote : Bool
  data : List Byte
  deriving DecidableEq, Repr

/-- What a CAN controller detects (R473). -/
inductive CanError where
  | bit | stuff | crc | form | protocolException
  deriving DecidableEq, Repr

/-- The JTAG instructions (R504). -/
inductive JtagOp where
  | bypass | idcode | samplePreload | extest | extestPulse | extestTrain
  deriving DecidableEq, Repr

/-- A PCIe configuration request to a host port (R452 to R458): a read, a write of Bus Master Enable or Memory Space Enable, of
MSI-X Enable or Function Mask, of a BAR, or of the resizable BAR2 size (log2 of its bytes). -/
inductive CfgReq where
  | read (offset : Nat)
  | busMaster (on : Bool)
  | memSpace (on : Bool)
  | msix (enable mask : Bool)
  | bar (k : Nat) (addr : Nat)
  | barSize (log2 : Nat)
  deriving DecidableEq, Repr

/-- A command to the hub. -/
inductive Instr where
  /-- PORST_N_RELEASE (R37): Release of PORST_N samples the straps and begins a cold start with slot selection and Locket reading. -/
  | porstNRelease (now : Nat) (bootsel : Nat) (compat : Bool)
  /-- PORST_N_ASSERT (R557): A PORST_N low pulse longer than 1 µs resets the whole hub, the always-on island included. -/
  | porstNAssert (now : Nat) (width : Nat)
  /-- PLL_LOCK (R558): PLLs lock after PWR_GOOD rises, and xSPI reading of the selected slot begins. -/
  | pllLock (now : Nat) (size0 size1 : Option Nat)
  /-- LOCKET_HEADER_READ (R70): The 4,096-byte header has been read and its magic, version, size and device ID are checked. -/
  | locketHeaderRead (now : Nat)
  /-- SECTION_TABLE_READ (R71): The section table has been read, its entries are checked, and signature verification starts. -/
  | sectionTableRead (now : Nat)
  /-- SIGNATURE_VERIFY_DONE (R76): ECDSA verification of the signed coverage ends and passes or abandons the slot. -/
  | signatureVerifyDone (now : Nat)
  /-- SECTION_END (R75): The last byte of a section arrives; its CRC, digest and content are checked and the section is used, which may reach first-frame readiness or the end of the second group. -/
  | sectionEnd (now : Nat)
  /-- FLASH_READ_FAIL (R92): A flash device fails to respond or a read fails, and the slot is abandoned at once with CHECK 0x01. -/
  | flashReadFail (now : Nat)
  /-- SLOT_SEARCH_RETRY (R47): 100 ms after every allowed slot has failed, the whole search is repeated once, or the no-image condition is entered. -/
  | slotSearchRetry (now : Nat)
  /-- RESTART (R49): A write of 1 to SY_BOOT_CTRL.RESTART in the no-image condition repeats the start sequence from slot selection. -/
  | restart (now : Nat) (src : Src) (value : Nat)
  /-- DDR5_IN_SERVICE (R442): The DDR5 restore or full training completes and DDR5 enters service. -/
  | ddr5InService (now : Nat) (eyeBad failed : List Nat)
  /-- HUB_READINESS (R43): All readiness conditions hold: READY is set, the ASSET copy begins and non-first-light timelines are powered. -/
  | hubReadiness (now : Nat)
  /-- ASSET_COPY_DONE (R89): The ASSET copy finishes and is checked, then ASSETS is set or the copy is repeated once, and ASSET_STATE is posted. -/
  | assetCopyDone (now : Nat)
  /-- WAKE_PIN (R60): A rising edge of WAKE held for 4 always-on cycles registers a wake event and leaves PARKED for WAKING. -/
  | wakePin (now : Nat) (cycles : Nat)
  /-- SUPERVISOR_WAKE_LINE (R482): SV_CS_N held low for at least 10 µs while PARKED registers a wake event. -/
  | supervisorWakeLine (now : Nat) (low : Nat)
  /-- WARMRST_N_ASSERT (R551): WARMRST_N asserted resets the non-spared islands in LIT, wakes in PARKED, and restarts in WAKING or during parking. -/
  | warmrstNAssert (now : Nat) (width : Nat)
  /-- WARMRST_N_RELEASE (R552): Release of WARMRST_N runs the recovery: re-read of STRUCT, DDR5 restore, journal recovery and relighting. -/
  | warmrstNRelease (now : Nat)
  /-- SUPPLY_LOSS (R562): A fall of PWR_GOOD lasting more than 1 µs drives the safety outputs low and acts as a PORST_N assertion. -/
  | supplyLoss (now : Nat) (low : Nat)
  /-- SUPPLY_LOSS_RESTART (R562): PWR_GOOD has been low for 10 ms after a supply loss, and the next cold start begins. -/
  | supplyLossRestart (now : Nat)
  /-- PARK_REQUEST (R53): A write of 1 to SY_PARK_CTRL.REQ requests parking, which starts at step 1 of R54 or is held until LIT is entered. -/
  | parkRequest (now : Nat) (src : Src) (value : Nat)
  /-- PARK_DRAIN_COMPLETE (R54): Every accepted commit, descriptor and job has completed, so the drain ends and the panels are taken down. -/
  | parkDrainComplete (now : Nat)
  /-- DRAIN_EXPIRY (R54): DRAIN_MS expires: commits still waiting end with REF_FENCE, running DMA and blit work aborts, and the panels are taken down. -/
  | drainExpiry (now : Nat)
  /-- PARK_PANELS_DOWN (R54): The panel power-down sequences have ended, and the snapshot, epochs and ASSET digest are stored. -/
  | parkPanelsDown (now : Nat)
  /-- PARK_SNAPSHOT_DONE (R54): Parking step 5 ends, and DDR5 enters partial-array self-refresh with the retention set. -/
  | parkSnapshotDone (now : Nat)
  /-- PARK_SELF_REFRESH_DONE (R446): Self-refresh entry completes, the switched islands power down, and PARKED is entered. -/
  | parkSelfRefreshDone (now : Nat)
  /-- LINE_START (R99): A timeline starts a line: line 0 increments TL_FRAME and takes writeback buffers, absent composed lines are replaced, and end-of-frame reports are posted. -/
  | lineStart (now : Nat) (t : Fin 16) (errs : LineErrs)
  /-- LATCH (R102): At the latch clock the Bezel snapshot is taken, presets apply, speculative work is confirmed or discarded, and the sealed pending bank begins its hand-over. -/
  | latch (now : Nat) (t : Fin 16)
  /-- HANDOVER_END (R291): Cycle 16 of the hand-over clears BUSY, takes a deferred seal, and records and posts LATCHED for the latched commits. -/
  | handoverEnd (now : Nat) (t : Fin 16)
  /-- RESEAT_GO (R105): A write of 1 to TL_RSEAT.GO copies the re-seat shadow and the slot assignment and starts the checks. -/
  | reseatGo (now : Nat) (src : Src) (t : Fin 16) (value : Nat)
  /-- RESEAT_CHECK_DONE (R106): The re-seat checks finish: the re-seat waits for the next latch or is refused, and STATUS and RESEAT are written and posted. -/
  | reseatCheckDone (now : Nat) (t : Fin 16)
  /-- GENLOCK_TIMEOUT (R108): No ingest frame start has arrived for two frame times, so LOCKED clears and GL_LOST is set. -/
  | genlockTimeout (now : Nat) (t : Fin 16)
  /-- HPD_ASSERT (R42): HPD or A-PHY link-up is noticed after T_PON, and link training starts once the second group has been loaded. -/
  | hpdAssert (now : Nat) (l : Fin 48)
  /-- HPD_LOSS (R116): HPD has been lost for more than 2 ms, so the link is down and retraining begins. -/
  | hpdLoss (now : Nat) (l : Fin 48) (low : Nat)
  /-- IRQ_HPD (R116): An IRQ_HPD triggers a status check, and a failed check takes the link down. -/
  | irqHpd (now : Nat) (l : Fin 48) (statusOk : Bool)
  /-- APHY_OUTPUT_LINK_DOWN (R116): An A-PHY output link reports link-down, and the link goes down and retrains. -/
  | aphyOutputLinkDown (now : Nat) (l : Fin 48)
  /-- LINK_TRAINING_DONE (R117): A training attempt succeeds or fails: video resumes at line 0, or the attempt is counted and LINK_STATE is posted. -/
  | linkTrainingDone (now : Nat) (l : Fin 48) (ok : Bool) (rate lanes : Nat) (fec : Bool) (maxLines : Option Nat) (sinkCrc : Bool)
  /-- LINK_RETRAIN_TIMER (R117): The back-off interval of a down link expires and another training attempt starts. -/
  | linkRetrainTimer (now : Nat) (l : Fin 48)
  /-- PANEL_TPOFF_DONE (R120): T_POFF has elapsed since PANEL_EN last went low, so PANEL_EN is raised (Up 1). -/
  | panelTpoffDone (now : Nat) (t : Fin 16)
  /-- PANEL_TPON_EXPIRY (R119): T_PON after PANEL_EN rose expires, and HPD or link-up indications are honoured from then on. -/
  | panelTponExpiry (now : Nat) (t : Fin 16)
  /-- BACKLIGHT_ON_EXPIRY (R119): T_BLON after the first line 0 of video expires and BL_PWM starts at TL_BL.DUTY. -/
  | backlightOnExpiry (now : Nat) (t : Fin 16)
  /-- PWM_PERIOD_END (R121): A PWM period ends, so a new DUTY takes effect or a pending down sequence begins with Down 1. -/
  | pwmPeriodEnd (now : Nat) (t : Fin 16)
  /-- BACKLIGHT_OFF_EXPIRY (R119): T_BLOFF after Down 1 expires: video stops and the link idles and then powers down. -/
  | backlightOffExpiry (now : Nat) (t : Fin 16)
  /-- PANEL_VOFF_EXPIRY (R119): T_VOFF after Down 2 expires: PANEL_EN goes low and its DTIME is recorded. -/
  | panelVoffExpiry (now : Nat) (t : Fin 16)
  /-- WB_FRAME_ACKED (R123): Every write of a writeback frame has been acknowledged, and WB_DONE is posted. -/
  | wbFrameAcked (now : Nat) (n : Fin 4)
  /-- FETCH_GROUP_ISSUE (R230): At its prefetch point a layer slot issues its next fetch group, with its deadline. -/
  | fetchGroupIssue (now : Nat) (sl : Fin 96)
  /-- FETCH_DATA_ARRIVAL (R250): Data of a fetch group arrives and is decoded; parity, uncorrectable or bad-tile data makes pixels lost and substituted. -/
  | fetchDataArrival (now : Nat) (sl : Fin 96) (group : Nat) (bad : List (Nat × ReadRes)) (host : List Byte)
  /-- FETCH_DEADLINE (R250): E(y) of a need line passes with group data missing, so the group is lost with cause LATE. -/
  | fetchDeadline (now : Nat) (sl : Fin 96)
  /-- RACE_TIDE_DEADLINE (R262): A racing group is still held at D − URGENT_NS, so the TIDE policy gives it up or splits to the completed buffer. -/
  | raceTideDeadline (now : Nat) (sl : Fin 96)
  /-- WATCH_REGION_COMPARE (R333): A region's CRC becomes final and is compared, and a safety mismatch sets a FAULT_N cause. -/
  | watchRegionCompare (now : Nat) (t : Fin 16) (r : Fin 32)
  /-- FLATTEN_START (R256): An eligible candidate run is flattened into a FACET48 surface at class B. -/
  | flattenStart (now : Nat) (t : Fin 16)
  /-- FLATTEN_COMPLETE (R257): A flattened surface completes, evicting others if needed, and comes into use at the next latch. -/
  | flattenComplete (now : Nat) (t : Fin 16) (lost : Bool)
  /-- SF_CREATE (R152): HP_SF_CMD with OP 1 checks the entry and binds the lowest free index as a new surface. -/
  | sfCreate (now : Nat) (p : Fin 4) (value : Nat)
  /-- SF_DESTROY (R154): HP_SF_CMD with OP 2 marks an owned surface RELEASING. -/
  | sfDestroy (now : Nat) (p : Fin 4) (value : Nat)
  /-- SF_READ (R151): HP_SF_CMD with OP 3 copies entry bytes 0–43 of a live, accessible handle into HP_SF_ARG. -/
  | sfRead (now : Nat) (p : Fin 4) (value : Nat)
  /-- SF_DESTROY_ALL (R154): HP_SF_CMD with OP 4 marks every surface the port owns RELEASING. -/
  | sfDestroyAll (now : Nat) (p : Fin 4) (value : Nat)
  /-- SURFACE_RETIRE (R157): Use of a surface has ended and its RETIRED event enters the owner's backlog, freeing the index when it is RELEASING. -/
  | surfaceRetire (now : Nat) (index : Fin 65536)
  /-- COMMIT_DOORBELL (R269): A write of HP_CR_DB is checked for epoch and position, and the ring reads the new entries, ignores the doorbell, or halts. -/
  | commitDoorbell (now : Nat) (src : Src) (p : Fin 4) (r : Fin 8) (value : Nat)
  /-- CR_ENABLE (R268): A write of 1 to HP_CR_CTRL.EN enables a granted commit ring with a valid LOG2 and clears any halt. -/
  | crEnable (now : Nat) (src : Src) (p : Fin 4) (r : Fin 8) (value : Nat)
  /-- COMMIT_ENTRY_READ (R270): A descriptor and its records arrive: SEQ and epoch are checked and validation steps 1 to 6 run. -/
  | commitEntryRead (now : Nat) (p : Fin 4) (r : Fin 8) (res : ReadRes) (host : List Byte) (badEntries : List Nat)
  /-- COMMIT_ACCEPT (R280): Both journal copies are acknowledged, the commit is accepted, and ACCEPT enters the backlog. -/
  | commitAccept (now : Nat) (p : Fin 4) (r : Fin 8) (copyFail : List Nat)
  /-- COMMIT_LEAVE_WAITING (R283): An accepted commit's predecessors, target, fences and NO_MERGE all allow its seal, so assembly of its bank image starts. -/
  | commitLeaveWaiting (now : Nat) (t : Fin 16)
  /-- NOT_BEFORE_TARGET (R284): DTIME reaches a NOT_BEFORE commit's TARGET, which allows its seal. -/
  | notBeforeTarget (now : Nat) (t : Fin 16)
  /-- COMMIT_SEAL (R290): The assembled image is written into the pending bank in one seal cycle, and the bank is sealed with its generation incremented. -/
  | commitSeal (now : Nat) (t : Fin 16)
  /-- FENCE_TIMEOUT (R286): A fence is still unmet FENCE_MS after acceptance, so the commit ends with REF_FENCE. -/
  | fenceTimeout (now : Nat) (t : Fin 16)
  /-- DIRECT_SEAL (R295): A write of 1 to PV_SEAL.SEAL validates and seals the pending bank as it stands, or is refused. -/
  | directSeal (now : Nat) (src : Src) (pv : Fin 8) (k : Fin 2) (value : Nat)
  /-- EV_ENABLE (R297): A write of 1 to HP_EV_CTRL.EN enables the event ring when LOG2 is valid. -/
  | evEnable (now : Nat) (src : Src) (p : Fin 4) (value : Nat)
  /-- EVENT_RECORD_WRITE (R297): The ring has room and the window can be written, so backlog records are written and then the write-back. -/
  | eventRecordWrite (now : Nat) (p : Fin 4)
  /-- MSIX_HOLDOFF_EXPIRY (R307): HOLDOFF_US since a vector's first unsignalled event passes, and a message is sent. -/
  | msixHoldoffExpiry (now : Nat) (p : Fin 4) (v : Fin 64)
  /-- HOST_LINK_DOWN (R304): A PCIe link-down is a port reset: the epoch increments, rings are disabled, and HOST_LINK is posted. -/
  | hostLinkDown (now : Nat) (p : Fin 4)
  /-- HOT_RESET (R304): A PCIe hot reset is a port reset with HOST_LINK CAUSE 2. -/
  | hotReset (now : Nat) (p : Fin 4)
  /-- FUNCTION_LEVEL_RESET (R458): A function-level reset is a port reset that also restores configuration space. -/
  | functionLevelReset (now : Nat) (p : Fin 4)
  /-- PERST_ASSERT (R561): A PERSTn_N assertion resets the host-port island as a link-down port reset. -/
  | perstAssert (now : Nat) (p : Fin 4)
  /-- HOST_LINK_UP (R458): The PCIe link comes up and HOST_LINK is posted, with DEGRADE set below the maximum. -/
  | hostLinkUp (now : Nat) (p : Fin 4) (speed width : Nat)
  /-- HOST_D3HOT (R457): The port enters D3hot or returns to D0, changing BAR decoding without a reset. -/
  | hostD3hot (now : Nat) (p : Fin 4) (enter : Bool)
  /-- POLICER_PACKET (R395): An inbound BAR2 write or read request is coloured by its policer and released or held red. -/
  | policerPacket (now : Nat) (p : Fin 4) (read : Bool) (offset len tc : Nat) (data : List Byte)
  /-- RED_PACKET_RELEASE (R397): At t_r the held red packet leaves yellow, and the packets behind it are coloured. -/
  | redPacketRelease (now : Nat) (k : Fin 8)
  /-- QUEUE_REQUEST (R405): A request reaches a shaper queue's head and is released green or yellow, or the queue is parked on the wheel. -/
  | queueRequest (now : Nat) (q : Fin 256) (req : QReq)
  /-- QUEUE_ELIGIBLE (R407): A queue's eligible time E arrives on the timing wheel and its head request is released. -/
  | queueEligible (now : Nat) (q : Fin 256)
  /-- QUEUE_RATE_WRITE (R409): A write of CA_Q_RATE resets the debt base, applies the new rate or pauses, and posts QUEUE_RATE. -/
  | queueRateWrite (now : Nat) (src : Src) (q : Fin 256) (value : Nat)
  /-- DRAM_READ (R434): A read enters a sub-channel controller and is served by forwarding from the write queue or scheduled by class and deadline. -/
  | dramRead (now : Nat) (hpa : Nat) (cls : ReadClass) (deadline : Nat)
  /-- DRAM_WRITE (R433): A write enters the write queue, merging into an entry or taking one with a fill read. -/
  | dramWrite (now : Nat) (hpa : Nat) (data : List Byte) (cls : MemClass) (deadline : Nat)
  /-- DRAM_READ_RETURN (R425): Read data returns from the device and the check code corrects it, reports it uncorrectable, or redirects to the mirror copy. -/
  | dramReadReturn (now : Nat) (c : Fin 8) (id : Nat) (errs0 errs1 : List BeatErr)
  /-- WRITE_CRC_ALERT (R428): The device raises a write-CRC alert, and the write is repeated or fails after four attempts. -/
  | writeCrcAlert (now : Nat) (c : Fin 8) (id : Nat)
  /-- DRAM_WRITE_ACK (R435): A write's alert window closes without an alert and the write is acknowledged to its requester. -/
  | dramWriteAck (now : Nat) (who : Acked)
  /-- WRITE_BATCH_START (R436): A write-queue condition, such as an entry that has waited 2 µs, starts a batch of queued writes. -/
  | writeBatchStart (now : Nat) (c : Fin 8)
  /-- ROW_IDLE_CLOSE (R437): A row left idle for 200 ns is closed. -/
  | rowIdleClose (now : Nat) (c : Fin 8) (rank bank : Nat)
  /-- REFRESH_TICK (R438): A refresh tick raises a rank's debt, and a paydown starts at debt 4. -/
  | refreshTick (now : Nat) (c : Fin 8) (rank : Fin 2)
  /-- MR4_POLL (R440): The 1 ms MR4 poll reads each rank's refresh-rate report and may change the refresh mode. -/
  | mr4Poll (now : Nat) (c : Fin 8) (rates : List Nat)
  /-- TEMP_CROSSING (R441): A crossing into or out of 2× mode changes the refresh interval, possibly starts a paydown, and posts DRAM_TEMP. -/
  | tempCrossing (now : Nat) (c : Fin 8) (temp : Int)
  /-- PATROL_SCRUB (R427): The patrol scrub reads each visible block once per HOURS at class B. -/
  | patrolScrub (now : Nat) (hpa : Nat) (errs0 errs1 : List BeatErr)
  /-- RETRAIN_STEP (R444): A background retraining step runs on one rank and marks the snapshot dirty when values change. -/
  | retrainStep (now : Nat) (c : Fin 8) (rank : Fin 2) (changed : Bool)
  /-- INGEST_FRAME_START (R463): A CSI-2 Frame Start makes the channel take a buffer, or drop the frame when none qualifies. -/
  | ingestFrameStart (now : Nat) (c : Fin 24) (num : Nat)
  /-- INGEST_LONG_PACKET (R464): A long packet is written as the next source line at class D, or is discarded. -/
  | ingestLongPacket (now : Nat) (c : Fin 24) (dt : Nat) (payload : List Byte) (crcOk : Bool)
  /-- INGEST_IGNORED_PACKET (R459): A Line Start, Line End, generic short packet or unsupported data type is ignored and sets IGNORED. -/
  | ingestIgnoredPacket (now : Nat) (c : Fin 24)
  /-- INGEST_FRAME_END (R465): A Frame End, or the next Frame Start, ends the frame, and a frame with fewer than H lines is short. -/
  | ingestFrameEnd (now : Nat) (c : Fin 24)
  /-- INGEST_FRAME_COMPLETE (R465): Every line of an ended frame is acknowledged: IG_FRAME_CNT increments and INGEST_FRAME is posted. -/
  | ingestFrameComplete (now : Nat) (c : Fin 24)
  /-- INGEST_LINK_DOWN (R467): An A-PHY ingest link-down ends the frame as short and starts retraining. -/
  | ingestLinkDown (now : Nat) (l : Fin 48)
  /-- CAN_FRAME_END (R473): A CAN frame becomes valid, is matched against the filters, stamped, and queued for the signal mapper. -/
  | canFrameEnd (now : Nat) (n : Fin 2) (frame : CanFrame)
  /-- CAN_BUS_JOIN (R470): After 11 consecutive recessive bits a controller joins the bus or resumes receiving. -/
  | canBusJoin (now : Nat) (n : Fin 2)
  /-- SIGNAL_GROUP_FRAME (R327): The mapper checks a delivered frame for length, CRC and alive counter, and evaluates its signals. -/
  | signalGroupFrame (now : Nat) (n : Fin 2)
  /-- SM_SV_SIG (R331): A supervisor write of SM_SV_SIG supplies a signal of a supervisor group from SM_SV_DATA. -/
  | smSvSig (now : Nat) (src : Src) (value : Nat)
  /-- SIGNAL_TIMEOUT (R330): A signal's TIMEOUT_MS passes without a new value, so it becomes stale and GROUP_STATE may be posted. -/
  | signalTimeout (now : Nat) (sig : Fin 512)
  /-- SINK_CRC_READ (R337): Every PERIOD frames the sink's test CRCs are read over AUX and compared with the hub's record. -/
  | sinkCrcRead (now : Nat) (t : Fin 16) (crcs : Option (List Nat)) (count : Nat)
  /-- SV_HB_EDGE (R481): An edge on SV_HB restarts the heartbeat timeout and ends a heartbeat loss. -/
  | svHbEdge (now : Nat)
  /-- HEARTBEAT_LOSS (R481): No heartbeat edge arrives for TIMEOUT_MS, so LOST and the FAULT_N cause HB are set. -/
  | heartbeatLoss (now : Nat)
  /-- WT_FAULT_CLEAR (R340): A supervisor W1C of WT_FAULT or WT_FTL clears cause bits, and FAULT_N is released when all are 0. -/
  | wtFaultClear (now : Nat) (src : Src) (which : Fin 2) (value : Nat)
  /-- HT_TICK (R360): A hub timer ticks at its period and offset, starting waiting DMA descriptors and blit jobs paced on it. -/
  | htTick (now : Nat) (n : Fin 16)
  /-- DMA_START (R355): DM_CTRL.START in STOPPED or HALTED starts a new chain epoch and reads the descriptor at DM_BASE. -/
  | dmaStart (now : Nat) (src : Src) (c : Fin 32) (value : Nat)
  /-- DMA_ABORT (R365): DM_CTRL.ABORT stops issuing reads and ends the running or waiting descriptor ABORTED. -/
  | dmaAbort (now : Nat) (src : Src) (c : Fin 32) (value : AbortWrite)
  /-- DMA_ABORT_COMPLETE (R365): The outstanding reads of an aborted channel have returned, and the channel enters STOPPED and posts DMA_STATE. -/
  | dmaAbortComplete (now : Nat) (c : AbortEnd)
  /-- DMA_DOORBELL (R356): DM_DB.RING sets PEND, and a parked channel re-reads its last link word. -/
  | dmaDoorbell (now : Nat) (src : Src) (c : Fin 32) (value : Nat)
  /-- DMA_DESCRIPTOR_READ (R352): A descriptor read returns: with OWN set it is accepted and checked, otherwise the channel parks. -/
  | dmaDescriptorRead (now : Nat) (c : Fin 32) (res : EntryRes) (host : List Byte)
  /-- DMA_LINK_READ (R355): A link word returns: END parks the channel, otherwise the next descriptor is read. -/
  | dmaLinkRead (now : Nat) (c : Fin 32) (res : ReadRes) (host : List Byte)
  /-- DMA_READ_RETURN (R363): Data of a DMA read returns and is staged for writing, or its bytes are marked not written on error. -/
  | dmaReadReturn (now : Nat) (c : Fin 32) (off : Nat) (res : ReadRes) (host : List Byte)
  /-- DMA_DONE (R361): A descriptor reaches DONE: its status is written back, DM_DONE_CNT may increment, DMA_DONE is posted, and the link word is read. -/
  | dmaDone (now : Nat) (c : Fin 32) (badWr : WriteErrs) (flushOk : Bool)
  /-- BLIT_ENABLE (R388): BL_CTRL.EN set enables a granted channel, or leaves HALTED for IDLE when cleared and then set. -/
  | blitEnable (now : Nat) (src : Src) (c : Fin 8) (value : Nat)
  /-- BLIT_DOORBELL (R373): A write of BL_DB is checked like a commit doorbell, and the channel reads the new jobs or halts on overrun. -/
  | blitDoorbell (now : Nat) (src : Src) (c : Fin 8) (value : Nat)
  /-- BLIT_ABORT (R389): BL_CTRL.ABORT ends the running or waiting job ABORTED and halts the channel. -/
  | blitAbort (now : Nat) (src : Src) (c : Fin 8) (value : AbortWrite)
  /-- BLIT_JOB_READ (R378): A job read at BL_CONS is accepted and checked, then starts, waits for its trigger, or is refused. -/
  | blitJobRead (now : Nat) (c : Fin 8) (res : EntryRes) (host : List Byte)
  /-- BLIT_DEAD_TIME_END (R381): DEAD_NS after the previous job ends, and a triggered job starts. -/
  | blitDeadTimeEnd (now : Nat) (c : Fin 8)
  /-- BLIT_BAND_SLOT (R386): On BL6 or BL7 a band slot starts and the next band is issued, or slips when the previous band is incomplete. -/
  | blitBandSlot (now : Nat) (c : Fin 8)
  /-- BLIT_ROW_COMPLETE (R385): A destination row is acknowledged, the watermark advances, and BLIT_WMARK may be posted. -/
  | blitRowComplete (now : Nat) (c : Fin 8) (badReads badWr : List Nat)
  /-- BLIT_DONE (R384): Every write of a job is acknowledged: the count increments, the status is written, BL_CONS advances and BLIT_DONE is posted. -/
  | blitDone (now : Nat) (c : Fin 8) (statusOk : Bool)
  /-- XS_READ (R475): XS_CMD with OP 1 reads flash bytes into XS_BUF. -/
  | xsRead (now : Nat) (src : Src) (value : Nat)
  /-- XS_PROGRAM (R500): XS_CMD with OP 2 programs a page when allowed, or is refused and entered in the ledger. -/
  | xsProgram (now : Nat) (src : Src) (value : Nat)
  /-- XS_ERASE (R500): XS_CMD with OP 3 erases a 4 KiB sector when allowed, or is refused and entered in the ledger. -/
  | xsErase (now : Nat) (src : Src) (value : Nat)
  /-- XS_COMMAND_DONE (R475): A flash command completes and XS_STAT.CODE reports done or a device error. -/
  | xsCommandDone (now : Nat) (devErr : Bool)
  /-- XS_COMMAND_TIMEOUT (R475): A program exceeds 5 ms or an erase exceeds 1 s, and the command ends with CODE 3. -/
  | xsCommandTimeout (now : Nat)
  /-- SV_NOP (R479): A supervisor frame with CMD NOP ends at the rising edge of SV_CS_N and runs nothing beyond its checks. -/
  | svNop (now : Nat) (frame : List Byte) (bits : Nat)
  /-- SV_READ (R479): A supervisor READ frame reads the register, returning its value in the next frame's MISO. -/
  | svRead (now : Nat) (frame : List Byte) (bits : Nat) (ready : Bool)
  /-- SV_WRITE (R479): A supervisor WRITE frame writes a register under the supervisor's rights. -/
  | svWrite (now : Nat) (frame : List Byte) (bits : Nat)
  /-- REGISTER_WRITE (R492): A register write without behaviour of its own is decided by the ordered checks and written under its field rules. -/
  | registerWrite (now : Nat) (src : Src) (addr value : Nat)
  /-- ACCESS_DENIED_FOLD_TIMER (R491): 1 ms after an ACCESS_DENIED with denials folded since, a further ACCESS_DENIED carries them. -/
  | accessDeniedFoldTimer (now : Nat) (p : Fin 4)
  /-- DTIME_LO_READ (R523): A read of SY_DTIME_LO returns DTIME bits [31:0] and captures bits [63:32] for that source. -/
  | dtimeLoRead (now : Nat) (src : Src)
  /-- PEAK_READ (R521): A read of DM_STAGE or DR_SC_WQ returns and resets its PEAK field. -/
  | peakRead (now : Nat) (src : Src) (addr : Nat)
  /-- SESSION_CHALLENGE (R497): GH_SES_CTRL with OP 1 checks the key and rights and draws a nonce. -/
  | sessionChallenge (now : Nat) (src : Src) (value : Nat)
  /-- SESSION_RESPOND (R497): GH_SES_CTRL with OP 2 submits the signature over the challenge for verification. -/
  | sessionRespond (now : Nat) (src : Src) (value : Nat)
  /-- SESSION_VERIFY_DONE (R497): Signature verification ends, and the session opens or a failure is recorded. -/
  | sessionVerifyDone (now : Nat)
  /-- SESSION_CLOSE (R501): GH_SES_CTRL with OP 3 closes the session, making a ledger entry and advancing the OTP counter if anything changed. -/
  | sessionClose (now : Nat) (src : Src) (value : Nat)
  /-- SESSION_IDLE_EXPIRY (R501): IDLE_S seconds pass without a supervisor frame, and the session closes. -/
  | sessionIdleExpiry (now : Nat)
  /-- GH_LOCK_HARD (R501): A write of GH_LOCK.HARD closes any session and refuses new ones until a start. -/
  | ghLockHard (now : Nat) (src : Src) (value : Nat)
  /-- IKH_PROGRAM (R502): GH_IKH_CTRL.PROGRAM programs the installer key hash into OTP, or is refused after installer lock. -/
  | ikhProgram (now : Nat) (src : Src) (value : Nat)
  /-- TOKEN_SUBMIT (R506): GH_TOK_CTRL.SUBMIT checks a consent token and opens its scope, or refuses it. -/
  | tokenSubmit (now : Nat) (src : Src) (value : Nat)
  /-- TOKEN_END (R506): GH_TOK_CTRL.END ends maker access and makes a MAKER_ACCESS_END entry. -/
  | tokenEnd (now : Nat) (src : Src) (value : Nat)
  /-- TOKEN_EXPIRY (R506): MINUTES of DTIME after acceptance, the consent scope closes. -/
  | tokenExpiry (now : Nat)
  /-- CFG_CRC_GO (R512): GH_CFG_CTRL.GO starts a CRC-32C run over the structural registers. -/
  | cfgCrcGo (now : Nat) (src : Src) (value : Nat)
  /-- CFG_CRC_DONE (R512): The configuration CRC run ends, GH_CFG_CRC holds the result, and GO clears. -/
  | cfgCrcDone (now : Nat)
  /-- LEDGER_ENTRY_PROGRAMMED (R509): A queued ledger entry is programmed to flash, after erasing its sector when its index is a multiple of 32. -/
  | ledgerEntryProgrammed (now : Nat) (devErr : Bool)
  /-- JTAG_INSTRUCTION (R504): A JTAG instruction runs BYPASS, IDCODE or SAMPLE/PRELOAD, or EXTEST only in the no-image condition. -/
  | jtagInstruction (now : Nat) (instr : JtagOp)
  /-- ISLAND_FAULT_DETECTED (R540): An island misses four beats, has a persistent link fault or uncorrectable control state, and its reset is asserted. -/
  | islandFaultDetected (now : Nat) (isl : Fin 108) (cause : Nat) (srFail : Bool)
  /-- PROMENADE_FLIT_REJECT (R15): A flit with bad parity or an out-of-order sequence number is not delivered and a link fault is reported. -/
  | promenadeFlitReject (now : Nat) (isl : IslandLink) (parityBad : Bool) (seq : Nat)
  /-- ISLAND_RELEASE (R542): After its out-of-service time a reset island is restored from the restore store and returns to service or fails. -/
  | islandRelease (now : Nat) (isl : Fin 108) (ok : Bool)
  /-- INGEST_LINK_UP (R467): An ingest lane's A-PHY link trains again after a link-down, so the channel leaves LINKDOWN and waits for its next Frame Start. -/
  | ingestLinkUp (now : Nat) (l : Fin 48) (gear : Nat)
  /-- CAN_ERROR_DETECTED (R469): A controller detects a receive error or, with FDEN = 0, a CAN FD frame (protocol exception), counts it in CN_ERR_CNT and stops receiving until 11 recessive bits. -/
  | canErrorDetected (now : Nat) (n : Fin 2) (kind : CanError)
  /-- PWR_GOOD_FALL (R563): PWR_GOOD falls after the hub has driven PWR_EN low at parking step 7, which lets PWR_EN rise again for a wake latched during parking. -/
  | pwrGoodFall (now : Nat)
  /-- PERST_RELEASE (R561): Release of PERSTn_N lets the host-port island start PCIe link training. -/
  | perstRelease (now : Nat) (p : Fin 4)
  /-- CONFIGURATION_REQUEST (R43): A PCIe configuration request reaches a host port and is answered with Retry Status before readiness, or otherwise changes configuration such as Bus Master Enable, MSI-X enable or the resizable BAR size. -/
  | configurationRequest (now : Nat) (p : Fin 4) (req : CfgReq)
  /-- OWED_COMMAND_PAID (R439): The four same-bank refreshes of one owed command complete, the rank's refresh debt falls by one, and a paydown ends when the debt reaches 1 or less. -/
  | owedCommandPaid (now : Nat) (c : Fin 8) (rank : Fin 2)
  /-- COMPOSED_LINE_ARRIVAL (R211): The Pavilion's blend pass ends and a composed line enters the finisher's line FIFO, where it counts as present or, when it comes too late, is discarded. -/
  | composedLineArrival (now : Nat) (t : ComposedLine)
  /-- MIGRATION_COMPLETE (R547): The bank images of the failed Pavilion's timelines have been written into the standby, aliasing is set, and ISLAND_STATE with STATE 2 and PARTNER is posted. -/
  | migrationComplete (now : Nat) (pv : Fin 8)
  /-- POSTED_WRITE_LANDS (R496): A posted (RWP) write is registered by its group in the destination island: it lands in the register or is discarded against a sealed bank, and the group's BUSY clears. -/
  | postedWriteLands (now : Nat) (group : Nat)
  /-- IKH_PROGRAM_DONE (R502): Programming and verification of the installer key hash in OTP complete within 50 ms, GH_STAT.LOCKED is set, and PROGRAM clears. -/
  | ikhProgramDone (now : Nat)
  deriving DecidableEq, Repr

/-- The DTIME (R17) at which a command comes to the hub. -/
def Instr.now : Instr → Nat
  | .porstNRelease now _ _ => now
  | .porstNAssert now _ => now
  | .pllLock now _ _ => now
  | .locketHeaderRead now => now
  | .sectionTableRead now => now
  | .signatureVerifyDone now => now
  | .sectionEnd now => now
  | .flashReadFail now => now
  | .slotSearchRetry now => now
  | .restart now _ _ => now
  | .ddr5InService now _ _ => now
  | .hubReadiness now => now
  | .assetCopyDone now => now
  | .wakePin now _ => now
  | .supervisorWakeLine now _ => now
  | .warmrstNAssert now _ => now
  | .warmrstNRelease now => now
  | .supplyLoss now _ => now
  | .supplyLossRestart now => now
  | .parkRequest now _ _ => now
  | .parkDrainComplete now => now
  | .drainExpiry now => now
  | .parkPanelsDown now => now
  | .parkSnapshotDone now => now
  | .parkSelfRefreshDone now => now
  | .lineStart now _ _ => now
  | .latch now _ => now
  | .handoverEnd now _ => now
  | .reseatGo now _ _ _ => now
  | .reseatCheckDone now _ => now
  | .genlockTimeout now _ => now
  | .hpdAssert now _ => now
  | .hpdLoss now _ _ => now
  | .irqHpd now _ _ => now
  | .aphyOutputLinkDown now _ => now
  | .linkTrainingDone now _ _ _ _ _ _ _ => now
  | .linkRetrainTimer now _ => now
  | .panelTpoffDone now _ => now
  | .panelTponExpiry now _ => now
  | .backlightOnExpiry now _ => now
  | .pwmPeriodEnd now _ => now
  | .backlightOffExpiry now _ => now
  | .panelVoffExpiry now _ => now
  | .wbFrameAcked now _ => now
  | .fetchGroupIssue now _ => now
  | .fetchDataArrival now _ _ _ _ => now
  | .fetchDeadline now _ => now
  | .raceTideDeadline now _ => now
  | .watchRegionCompare now _ _ => now
  | .flattenStart now _ => now
  | .flattenComplete now _ _ => now
  | .sfCreate now _ _ => now
  | .sfDestroy now _ _ => now
  | .sfRead now _ _ => now
  | .sfDestroyAll now _ _ => now
  | .surfaceRetire now _ => now
  | .commitDoorbell now _ _ _ _ => now
  | .crEnable now _ _ _ _ => now
  | .commitEntryRead now _ _ _ _ _ => now
  | .commitAccept now _ _ _ => now
  | .commitLeaveWaiting now _ => now
  | .notBeforeTarget now _ => now
  | .commitSeal now _ => now
  | .fenceTimeout now _ => now
  | .directSeal now _ _ _ _ => now
  | .evEnable now _ _ _ => now
  | .eventRecordWrite now _ => now
  | .msixHoldoffExpiry now _ _ => now
  | .hostLinkDown now _ => now
  | .hotReset now _ => now
  | .functionLevelReset now _ => now
  | .perstAssert now _ => now
  | .hostLinkUp now _ _ _ => now
  | .hostD3hot now _ _ => now
  | .policerPacket now _ _ _ _ _ _ => now
  | .redPacketRelease now _ => now
  | .queueRequest now _ _ => now
  | .queueEligible now _ => now
  | .queueRateWrite now _ _ _ => now
  | .dramRead now _ _ _ => now
  | .dramWrite now _ _ _ _ => now
  | .dramReadReturn now _ _ _ _ => now
  | .writeCrcAlert now _ _ => now
  | .dramWriteAck now _ => now
  | .writeBatchStart now _ => now
  | .rowIdleClose now _ _ _ => now
  | .refreshTick now _ _ => now
  | .mr4Poll now _ _ => now
  | .tempCrossing now _ _ => now
  | .patrolScrub now _ _ _ => now
  | .retrainStep now _ _ _ => now
  | .ingestFrameStart now _ _ => now
  | .ingestLongPacket now _ _ _ _ => now
  | .ingestIgnoredPacket now _ => now
  | .ingestFrameEnd now _ => now
  | .ingestFrameComplete now _ => now
  | .ingestLinkDown now _ => now
  | .canFrameEnd now _ _ => now
  | .canBusJoin now _ => now
  | .signalGroupFrame now _ => now
  | .smSvSig now _ _ => now
  | .signalTimeout now _ => now
  | .sinkCrcRead now _ _ _ => now
  | .svHbEdge now => now
  | .heartbeatLoss now => now
  | .wtFaultClear now _ _ _ => now
  | .htTick now _ => now
  | .dmaStart now _ _ _ => now
  | .dmaAbort now _ _ _ => now
  | .dmaAbortComplete now _ => now
  | .dmaDoorbell now _ _ _ => now
  | .dmaDescriptorRead now _ _ _ => now
  | .dmaLinkRead now _ _ _ => now
  | .dmaReadReturn now _ _ _ _ => now
  | .dmaDone now _ _ _ => now
  | .blitEnable now _ _ _ => now
  | .blitDoorbell now _ _ _ => now
  | .blitAbort now _ _ _ => now
  | .blitJobRead now _ _ _ => now
  | .blitDeadTimeEnd now _ => now
  | .blitBandSlot now _ => now
  | .blitRowComplete now _ _ _ => now
  | .blitDone now _ _ => now
  | .xsRead now _ _ => now
  | .xsProgram now _ _ => now
  | .xsErase now _ _ => now
  | .xsCommandDone now _ => now
  | .xsCommandTimeout now => now
  | .svNop now _ _ => now
  | .svRead now _ _ _ => now
  | .svWrite now _ _ => now
  | .registerWrite now _ _ _ => now
  | .accessDeniedFoldTimer now _ => now
  | .dtimeLoRead now _ => now
  | .peakRead now _ _ => now
  | .sessionChallenge now _ _ => now
  | .sessionRespond now _ _ => now
  | .sessionVerifyDone now => now
  | .sessionClose now _ _ => now
  | .sessionIdleExpiry now => now
  | .ghLockHard now _ _ => now
  | .ikhProgram now _ _ => now
  | .tokenSubmit now _ _ => now
  | .tokenEnd now _ _ => now
  | .tokenExpiry now => now
  | .cfgCrcGo now _ _ => now
  | .cfgCrcDone now => now
  | .ledgerEntryProgrammed now _ => now
  | .jtagInstruction now _ => now
  | .islandFaultDetected now _ _ _ => now
  | .promenadeFlitReject now _ _ _ => now
  | .islandRelease now _ _ => now
  | .ingestLinkUp now _ _ => now
  | .canErrorDetected now _ _ => now
  | .pwrGoodFall now => now
  | .perstRelease now _ => now
  | .configurationRequest now _ _ => now
  | .owedCommandPaid now _ _ => now
  | .composedLineArrival now _ => now
  | .migrationComplete now _ => now
  | .postedWriteLands now _ => now
  | .ikhProgramDone now => now

end Sys2Proof
end

