-- ==== Sys2Proof/Decode.lean ====
section
/-!
DEFINITION. The command that a word of the opcode table spells.  The table gives no row a field or a bit: a command comes as an
event of the hub, not as a coded word.
-/

namespace Sys2Proof

def decodeTableWord (_nbits _w : Nat) : Option Instr := none

end Sys2Proof
end

