-- ==== Sys2Proof/Config.lean ====
section
/-!
DEFINITION. What the spec leaves open or fuses into each part, as constants without a body: nothing in Lean can compute a
value of one, so no proof rests on a value (assumption 2).
-/

namespace Sys2Proof.Config

/-- What a byte of DDR5, Orangery or Bezel store reads as when its content was lost (R57 "undefined", R34, R543): the loss
counted e, the address a. -/
opaque lostByte (e a : Nat) : Byte

/-- The k-th draw from the entropy source (R497): a 32-byte nonce. -/
opaque nonce (k : Nat) : BitVec 256

/-- The device-unique ledger key that the maker fuses and no role can read (R507). -/
opaque ledgerKey : BitVec 256

/-- What the host-facing read of a surface's, journal's or engine's bytes gives where the spec says the bytes are undefined
(an aborted transfer's destination, R365, R389, R543): the k-th such value. -/
opaque freeByte (k : Nat) : Byte

/-- Whether the eye check of a restored sub-channel would pass is supplied with DDR5_IN_SERVICE; the trained values a training
or retraining step finds (R443) are the analogue world's: the k-th byte of them. -/
opaque trainedByte (k : Nat) : Byte

/-- The fused identifier of the part, GH_UID (chapter 16). -/
opaque uid : BitVec 128

/-- The 48-bit pixel word that the flattener encodes at a position of an edge tile outside the surface (R163, R183), by the count of the
free values drawn. -/
opaque edgeWord (k x y : Nat) : BitVec 48

/-- What the host holds at HPA a of a window for a row index entry that is read where no command's operand answers the read (R174): at a direct
seal and when a preset is applied. -/
opaque indexWord (a : Nat) : BitVec 32

/-- What a class C counter (R10) at register a, bit lo, holds after a count that would take it to v, past its largest value, where
the spec does not say that it saturates. -/
opaque counterPast (a lo v : Nat) : Nat

/-- The level at a DTIME of an internal observation point, which the maker's consent package describes and the spec does not (R524). -/
opaque observed (signal dtime : Nat) : Bool

end Sys2Proof.Config
end

