-- ==== Sys2Proof/Machine/Bits.lean ====
section
/-!
DEFINITION. Byte order, sign and bit-field helpers, and the one sparse table that registers, memories and per-unit state use.
Multi-byte fields are little-endian (R4) unless a big-endian reader is named.
-/

namespace Sys2Proof.Machine

/-! ### Bytes -/

/-- The low n bytes of v, least significant first (R4). -/
def leBytes : Nat → Nat → List Byte
  | 0, _ => []
  | n + 1, v => BitVec.ofNat 8 v :: leBytes n (v / 256)

/-- The number a little-endian byte list spells (R4). -/
def leNat : List Byte → Nat
  | [] => 0
  | b :: bs => b.toNat + 256 * leNat bs

/-- The number a big-endian byte list spells (SIGNER_KEY and SIGNATURE, R70). -/
def beNat (bs : List Byte) : Nat := bs.foldl (fun a b => a * 256 + b.toNat) 0

/-- The low n bytes of v, most significant first. -/
def beBytes (n v : Nat) : List Byte := (leBytes n v).reverse

/-- The n bytes of a list from position off, zero past its end. -/
def bytesAt (bs : List Byte) (off n : Nat) : List Byte :=
  (List.range n).map fun i => bs.getD (off + i) 0

/-- A little-endian field of n bytes at position off of a byte list. -/
def fieldAt (bs : List Byte) (off n : Nat) : Nat := leNat (bytesAt bs off n)

/-- Overwrite the bytes of a list from position off. -/
def putBytes (bs : List Byte) (off : Nat) (v : List Byte) : List Byte :=
  bs.take off ++ v ++ bs.drop (off + v.length)

def zeros (n : Nat) : List Byte := List.replicate n 0

/-! ### Signed readings of unsigned counts -/

/-- The two's-complement reading of an n-bit value. -/
def signed (n v : Nat) : Int :=
  let m := v % 2 ^ n
  if m < 2 ^ (n - 1) then (m : Int) else (m : Int) - (2 ^ n : Nat)

/-- The signed n-bit difference a − b (R269, R270, R273). -/
def sdiff (n a b : Nat) : Int := signed n (a % 2 ^ n + 2 ^ n - b % 2 ^ n)

/-- An integer stored in n bits, two's complement. -/
def toBits (n : Nat) (v : Int) : Nat := (v % (2 ^ n : Nat)).toNat

/-- A counter that stops at its largest value. -/
def satAdd (w a b : Nat) : Nat := min (a + b) (2 ^ w - 1)

def bit (v i : Nat) : Bool := v / 2 ^ i % 2 == 1

def b2n (b : Bool) : Nat := if b then 1 else 0

/-- Ceiling division. -/
def cdiv (a b : Nat) : Nat := (a + b - 1) / b

def clampInt (lo hi v : Int) : Int := max lo (min hi v)

/-! ### The sparse table

A table is a list of (key, value) pairs with rising keys and no pair that equals what an unlisted key reads as, so equal
tables are equal lists.  `d` gives what an unlisted key reads as. -/

abbrev Tbl (α : Type) := List (Nat × α)

section Tbl
variable {α : Type}

def tget (d : Nat → α) : Tbl α → Nat → α
  | [], k => d k
  | (j, v) :: t, k => if j = k then v else tget d t k

/-- Insert or replace in rising key order. -/
def tins : Tbl α → Nat → α → Tbl α
  | [], k, v => [(k, v)]
  | (j, w) :: t, k, v =>
    if k = j then (k, v) :: t
    else if k < j then (k, v) :: (j, w) :: t
    else (j, w) :: tins t k v

/-- Remove every pair of a key. -/
def tdel (m : Tbl α) (k : Nat) : Tbl α := m.filter fun p => p.1 ≠ k

/-- Write a key; writing what an unlisted key reads as removes it. -/
def tset [DecidableEq α] (d : Nat → α) (m : Tbl α) (k : Nat) (v : α) : Tbl α :=
  if v = d k then tdel m k else tins m k v

/-- The canonical form: rising keys, and no pair that an unlisted key would read as. -/
def twf [DecidableEq α] (d : Nat → α) : Tbl α → Bool
  | [] => true
  | [(j, v)] => decide (v ≠ d j)
  | (j, v) :: (k, w) :: t => decide (v ≠ d j) && decide (j < k) && twf d ((k, w) :: t)

end Tbl

/-- Set the element of a list at a position; unchanged past its end. -/
def lset {α : Type} (l : List α) (i : Nat) (v : α) : List α := l.set i v

/-- Update the element of a list at a position. -/
def lmod {α : Type} (l : List α) (i : Nat) (f : α → α) : List α :=
  match l[i]? with
  | some v => l.set i (f v)
  | none => l

/-! ### Sorting -/

/-- Insert x before the first entry that it may stand before. -/
def sortInsert {α : Type} (le : α → α → Bool) (x : α) : List α → List α
  | [] => [x]
  | y :: ys => if le x y then x :: y :: ys else y :: sortInsert le x ys

/-- A stable sort. -/
def sortBy {α : Type} (le : α → α → Bool) (l : List α) : List α := l.foldr (sortInsert le) []

end Sys2Proof.Machine
end

