-- ==== Sys2Proof/Machine/Crypto.lean ====
section
/-!
DEFINITION. The check codes and the cryptography the spec names: CRC-32C (R74), SHA-256 and ECDSA P-256 verification (R73),
HMAC-SHA-256 (R507), over byte lists and natural numbers.
-/

namespace Sys2Proof.Machine

/-! ### Cyclic redundancy checks -/

/-- One bit of a reflected CRC register. -/
def crcBitR (poly c : Nat) : Nat := if c % 2 = 1 then (c / 2) ^^^ poly else c / 2

def crcByteR (poly c : Nat) (b : Byte) : Nat :=
  (List.range 8).foldl (fun c _ => crcBitR poly c) (c ^^^ b.toNat)

/-- CRC-32C register update over bytes, without the initial value or the final exclusive-or. -/
def crc32cRun (c : Nat) (bs : List Byte) : Nat := bs.foldl (crcByteR 0x82F63B78) c

/-- CRC-32C (R74): reflected 0x1EDC6F41, initial value and final exclusive-or all ones. -/
def crc32c (bs : List Byte) : Nat := crc32cRun 0xFFFFFFFF bs ^^^ 0xFFFFFFFF

/-- One bit of an unreflected CRC register of width w. -/
def crcBitN (w poly c : Nat) : Nat :=
  if c / 2 ^ (w - 1) % 2 = 1 then (c * 2 % 2 ^ w) ^^^ poly else c * 2 % 2 ^ w

def crcByteN (w poly c : Nat) (b : Byte) : Nat :=
  (List.range 8).foldl (fun c _ => crcBitN w poly c) (c ^^^ (b.toNat * 2 ^ (w - 8)))

/-- An unreflected CRC of width w over bytes. -/
def crcN (w poly init xor : Nat) (bs : List Byte) : Nat := bs.foldl (crcByteN w poly) init ^^^ xor

/-! ### SHA-256

A digest in progress is its eight 32-bit words as one 256-bit number, first word highest. -/

/-- A word turned right by n, by way of the word written twice. -/
def turn (x n : Nat) : Nat := (x * 0x100000001) >>> n % 0x100000000

/-- The exclusive-or of a word's turns by the places named. -/
def turns (ns : List Nat) (x : Nat) : Nat := (ns.map (turn x)).foldl (· ^^^ ·) 0

/-- Word n, from the top, of a number of `len` words. -/
def wordOf (len packed n : Nat) : Nat := packed >>> (32 * (len - 1 - n)) % 0x100000000

/-- The 64 round words as one number, the first highest. -/
def roundWords : Nat :=
  0x428a2f9871374491b5c0fbcfe9b5dba53956c25b59f111f1923f82a4ab1c5ed5 <<< 1792 |||
  0xd807aa9812835b01243185be550c7dc372be5d7480deb1fe9bdc06a7c19bf174 <<< 1536 |||
  0xe49b69c1efbe47860fc19dc6240ca1cc2de92c6f4a7484aa5cb0a9dc76f988da <<< 1280 |||
  0x983e5152a831c66db00327c8bf597fc7c6e00bf3d5a7914706ca635114292967 <<< 1024 |||
  0x27b70a852e1b21384d2c6dfc53380d13650a7354766a0abb81c2c92e92722c85 <<< 768 |||
  0xa2bfe8a1a81a664bc24b8b70c76c51a3d192e819d6990624f40e3585106aa070 <<< 512 |||
  0x19a4c1161e376c082748774c34b0bcb5391c0cb34ed8aa4a5b9cca4f682e6ff3 <<< 256 |||
  0x748f82ee78a5636f84c878148cc7020890befffaa4506cebbef9a3f7c67178f2

/-- The word of a message that follows the words whose newest-first list is `past`. -/
def nextWord (past : List Nat) : Nat :=
  let old := past.getD 14 0
  let new := past.getD 1 0
  (past.getD 15 0 + past.getD 6 0 + (turns [7, 18] old ^^^ old >>> 3) + (turns [17, 19] new ^^^ new >>> 10)) % 0x100000000

/-- The 64 words of one block, newest first: sixteen of the block's own and 48 that follow. -/
def blockWords (block : List Byte) : List Nat :=
  (List.range 64).foldl (init := []) fun past t =>
    (if t < 16 then beNat (bytesAt block (4 * t) 4) else nextWord past) :: past

/-- One round. The working variables are two runs of words, each newest first, of which the last four count: `up` holds
A, B, C, D and `dn` E, F, G, H; a round puts one new word before each. -/
def mixWord (run : List Nat × List Nat) (k : Nat) : List Nat × List Nat :=
  match run with
  | (up, dn) =>
    let pick := dn.foldr (init := 0) fun w acc => acc * 0x100000000 + w
    let word (n : Nat) : Nat := pick >>> (32 * n) % 0x100000000
    let choose := word 2 ^^^ (word 0 &&& (word 1 ^^^ word 2))
    let most := up.getD 0 0 &&& up.getD 1 0 ||| up.getD 2 0 &&& (up.getD 0 0 ||| up.getD 1 0)
    let add := word 3 + k + choose + turns [6, 11, 25] (word 0)
    (((add + most + turns [2, 13, 22] (up.getD 0 0)) % 0x100000000) :: up.take 3,
      ((up.getD 3 0 + add) % 0x100000000) :: dn.take 3)

/-- A digest in progress after one more 64-byte block. -/
def takeBlock (digest : List Nat) (block : List Byte) : List Nat :=
  let words := (blockWords block).reverse.zipIdx.map fun wt => wt.1 + wordOf 64 roundWords wt.2
  let (up, dn) := words.foldl mixWord (digest.take 4, digest.drop 4)
  List.zipWith (fun was now => (was + now) % 0x100000000) digest (up ++ dn)

/-- A digest in progress after the first n blocks of a message. -/
def takeBlocks (n : Nat) (digest : List Nat) (bs : List Byte) : List Nat :=
  match n with
  | 0 => digest
  | n + 1 => takeBlocks n (takeBlock digest (bs.take 64)) (bs.drop 64)

/-- What a digest starts from. -/
def digestStart : List Nat :=
  (List.range 8).map (wordOf 8 0x6a09e667bb67ae853c6ef372a54ff53a510e527f9b05688c1f83d9ab5be0cd19)

/-- A message, its end mark and its length, to whole 64-byte blocks. -/
def padded (bs : List Byte) : List Byte :=
  bs ++ 0x80 :: zeros ((119 - bs.length % 64) % 64) ++ beBytes 8 (8 * bs.length)

/-- SHA-256, as its 32-byte output. -/
def sha256 (bs : List Byte) : List Byte :=
  ((takeBlocks ((padded bs).length / 64) digestStart (padded bs)).map (beBytes 4)).flatten

/-- HMAC-SHA-256 (R507). -/
def hmacSha256 (key msg : List Byte) : List Byte :=
  let k := key ++ zeros (64 - key.length)
  sha256 (k.map (· ^^^ 0x5C) ++ sha256 (k.map (· ^^^ 0x36) ++ msg))

/-! ### ECDSA over P-256 (FIPS 186-5) -/

def p256P : Nat := 0xFFFFFFFF00000001000000000000000000000000FFFFFFFFFFFFFFFFFFFFFFFF
def p256N : Nat := 0xFFFFFFFF00000000FFFFFFFFFFFFFFFFBCE6FAADA7179E84F3B9CAC2FC632551
def p256B : Nat := 0x5AC635D8AA3A93E7B3EBBD55769886BC651D06B0CC53B0F63BCE3C3E27D2604B
def p256Gx : Nat := 0x6B17D1F2E12C4247F8BCE6E563A440F277037D812DEB33A0F4A13945D898C296
def p256Gy : Nat := 0x4FE342E2FE1A7F9B8EE7EB4A7C0F9E162BCE33576B315ECECBB6406837BF51F5

/-- b^e mod m over the low n bits of e, most significant first. -/
def powMod (m b e : Nat) : Nat → Nat
  | 0 => 1 % m
  | n + 1 =>
    let r := powMod m b (e / 2) n
    let q := r * r % m
    if e % 2 = 1 then q * b % m else q

/-- The inverse modulo a prime, by Fermat. -/
def invMod (m a : Nat) : Nat := powMod m a (m - 2) 256

/-- A point of the curve; none is the point at infinity. -/
abbrev EcPoint := Option (Nat × Nat)

def ecOnCurve (x y : Nat) : Bool :=
  decide (x < p256P) && decide (y < p256P) &&
    decide (y * y % p256P = (x * x * x + (p256P - 3) * x + p256B) % p256P)

def ecAdd : EcPoint → EcPoint → EcPoint
  | none, q => q
  | p, none => p
  | some (x1, y1), some (x2, y2) =>
    if x1 = x2 ∧ (y1 + y2) % p256P = 0 then none
    else
      let l := if x1 = x2
        then (3 * x1 * x1 + (p256P - 3)) * invMod p256P (2 * y1 % p256P) % p256P
        else (y2 + p256P - y1) * invMod p256P ((x2 + p256P - x1) % p256P) % p256P
      let x3 := (l * l + 2 * p256P - x1 - x2) % p256P
      let y3 := (l * (x1 + p256P - x3) + p256P - y1) % p256P
      some (x3, y3)

def ecMul : Nat → Nat → EcPoint → EcPoint
  | 0, _, _ => none
  | n + 1, k, p =>
    let h := ecMul n (k / 2) p
    let d := ecAdd h h
    if k % 2 = 1 then ecAdd d p else d

/-- ECDSA P-256 verification of (r, s) over a 32-byte digest. -/
def ecdsaVerify (x y : Nat) (digest : List Byte) (r s : Nat) : Bool :=
  if r = 0 ∨ s = 0 ∨ p256N ≤ r ∨ p256N ≤ s ∨ ¬ ecOnCurve x y then false
  else
    let w := invMod p256N s
    let u1 := beNat digest * w % p256N
    let u2 := r * w % p256N
    match ecAdd (ecMul 256 u1 (some (p256Gx, p256Gy))) (ecMul 256 u2 (some (x, y))) with
    | none => false
    | some (vx, _) => decide (vx % p256N = r)

/-- Verification of a 64-byte signature by a 64-byte public key over the SHA-256 of a message (R73, R497, R505). -/
def ecdsaVerifyMsg (key sig msg : List Byte) : Bool :=
  ecdsaVerify (beNat (bytesAt key 0 32)) (beNat (bytesAt key 32 32)) (sha256 msg)
    (beNat (bytesAt sig 0 32)) (beNat (bytesAt sig 32 32))

end Sys2Proof.Machine
end

