-- ==== Sys2Proof/Machine/Formats.lean ====
section
/-!
DEFINITION. The hub address map (R127, R128), the pixel formats (R136 to R138), and the surface table entry with the checks
an entry must pass (R139 to R144, R147, R152).
-/

namespace Sys2Proof.Machine

/-! ### The address map (R127) -/

/-- The regions of the hub physical address space. -/
inductive Region where
  | ddr
  | window (p : Nat)
  | orangery
  | bezel
  | staging
  | reserved
  deriving DecidableEq, Repr

def hwBase (p : Nat) : Nat := 0x10000000000 + p * 0x8000000000
def orangeryBase : Nat := 0x3F000000000
def orangerySize : Nat := 0x4000000
def bezelBase : Nat := 0x3F004000000
def bezelSize : Nat := 0x800000
def stagingBase : Nat := 0x3F004800000
/-- The hub-reserved region is the lowest 64 MiB of local DDR5 (R128). -/
def hubReserved : Nat := 0x4000000

def regionOf (a : Nat) : Region :=
  if a < 0x8000000000 then .ddr
  else if a < 0x10000000000 then .reserved
  else if a < 0x30000000000 then .window ((a - 0x10000000000) / 0x8000000000)
  else if a < orangeryBase then .reserved
  else if a < bezelBase then .orangery
  else if a < stagingBase then .bezel
  else if a < 0x3F004A00000 then .staging
  else .reserved

/-- What the checks of an address need to know: the populated DDR5 capacity in bytes and each window's size in bytes
(0 when closed). -/
structure Space where
  cap   : Nat
  hw    : List Nat
  deriving DecidableEq, Repr

/-- A range [a, a + n) that lies in one region and in the populated or open part of it (R127, R134, R141). -/
def rangeOk (sp : Space) (a n : Nat) : Bool :=
  decide (0 < n) && decide (regionOf a = regionOf (a + n - 1)) &&
  match regionOf a with
  | .ddr => decide (a + n ≤ sp.cap)
  | .window p => decide (a - hwBase p + n ≤ sp.hw.getD p 0)
  | .orangery => true
  | .bezel => true
  | .staging => true
  | .reserved => false

def overlaps (a n b m : Nat) : Bool := decide (a < b + m) && decide (b < a + n)

/-- A write target is never in the hub-reserved region, the Orangery, the Bezel store or journal staging (R129). -/
def writeTargetOk (sp : Space) (a n : Nat) : Bool :=
  rangeOk sp a n &&
  match regionOf a with
  | .ddr => decide (hubReserved ≤ a)
  | .window _ => true
  | _ => false

/-! ### Formats (R136) -/

def fmtPacked (f : Nat) : Bool := (1 ≤ f && f ≤ 8) || f == 0x0A
def fmtYuvPacked (f : Nat) : Bool := f == 0x12 || f == 0x13
def fmtPlanar (f : Nat) : Bool := f == 0x10 || f == 0x11
def fmtFacet (f : Nat) : Bool := f == 0x20 || f == 0x21 || f == 0x2F
def fmtKnown (f : Nat) : Bool := fmtPacked f || f == 0x09 || fmtYuvPacked f || fmtPlanar f || fmtFacet f
def fmtYuv (f : Nat) : Bool := fmtYuvPacked f || fmtPlanar f

/-- Bytes per pixel of an uncompressed format (the Y plane of a planar one). -/
def fmtBpp (f : Nat) : Nat :=
  if f == 0x08 then 8
  else if f == 0x01 || f == 0x02 || f == 0x03 || f == 0x04 then 4
  else if f == 0x09 || f == 0x0A || f == 0x10 then 1
  else if f == 0x05 || f == 0x06 || f == 0x07 || f == 0x11 || fmtYuvPacked f then 2
  else 0

/-! ### The surface table entry (R144) -/

structure SurfEntry where
  base      : Nat
  aux0      : Nat
  aux1      : Nat
  pitch     : Nat
  auxPitch  : Nat
  width     : Nat
  height    : Nat
  format    : Nat
  residency : Nat
  generation : Nat
  owner     : Nat
  valid     : Bool
  releasing : Bool
  pub       : Bool
  deriving DecidableEq, Repr

/-- An index never used: no surface, generation 0 (R149). -/
def SurfEntry.unused : SurfEntry :=
  { base := 0, aux0 := 0, aux1 := 0, pitch := 0, auxPitch := 0, width := 0, height := 0, format := 0, residency := 0,
    generation := 0, owner := 0, valid := false, releasing := false, pub := false }

def tilesAcross (w : Nat) : Nat := cdiv w 8

/-- FOOTPRINT at BASE (R140). -/
def SurfEntry.footprint (e : SurfEntry) : Nat :=
  if e.format == 0x2F then tilesAcross e.width * tilesAcross e.height * 384
  else if fmtFacet e.format then tilesAcross e.width * tilesAcross e.height * 256
  else e.pitch * e.height

/-- AUX_FOOTPRINT at AUX0 (R140). -/
def SurfEntry.auxFootprint (e : SurfEntry) : Nat :=
  if fmtFacet e.format then tilesAcross e.width * tilesAcross e.height * 8
  else if fmtPlanar e.format then e.auxPitch * e.height / 2
  else if e.format == 0x09 then 1024
  else 0

/-- The bytes of the row index at AUX1 (R140). -/
def SurfEntry.rowIndexBytes (e : SurfEntry) : Nat :=
  if fmtFacet e.format then 4 * tilesAcross e.height else 0

/-- FLAGS as the word at offset 40. -/
def SurfEntry.flags (e : SurfEntry) : Nat := b2n e.valid + 2 * b2n e.releasing + 4 * b2n e.pub

/-- Bytes 0 to 43 of the entry: what CREATE takes and READ gives (R151). -/
def SurfEntry.bytes44 (e : SurfEntry) : List Byte :=
  leBytes 8 e.base ++ leBytes 8 e.aux0 ++ leBytes 8 e.aux1 ++ leBytes 4 e.pitch ++ leBytes 4 e.auxPitch ++
  leBytes 2 e.width ++ leBytes 2 e.height ++ leBytes 1 e.format ++ leBytes 1 e.residency ++ leBytes 1 e.generation ++
  leBytes 1 e.owner ++ leBytes 2 e.flags ++ leBytes 2 0

/-- The whole 64-byte entry, ENTRY_CRC included (R144). -/
def SurfEntry.bytes (e : SurfEntry) : List Byte :=
  let b := e.bytes44 ++ leBytes 4 e.footprint ++ leBytes 4 e.auxFootprint ++ zeros 8
  b ++ leBytes 4 (crc32c b)

/-- The entry that bytes 0 to 43 spell. -/
def SurfEntry.ofBytes (b : List Byte) : SurfEntry :=
  { base := fieldAt b 0 8, aux0 := fieldAt b 8 8, aux1 := fieldAt b 16 8, pitch := fieldAt b 24 4,
    auxPitch := fieldAt b 28 4, width := fieldAt b 32 2, height := fieldAt b 34 2, format := fieldAt b 36 1,
    residency := fieldAt b 37 1, generation := fieldAt b 38 1, owner := fieldAt b 39 1,
    valid := bit (fieldAt b 40 2) 0, releasing := bit (fieldAt b 40 2) 1, pub := bit (fieldAt b 40 2) 2 }

/-- Width and height within R139 for the format. -/
def SurfEntry.sizeOk (e : SurfEntry) : Bool :=
  let wlo := if fmtYuv e.format then 2 else 1
  let hlo := if fmtPlanar e.format then 2 else 1
  decide (wlo ≤ e.width) && decide (e.width ≤ 16384) && decide (hlo ≤ e.height) && decide (e.height ≤ 16384) &&
  (!fmtYuv e.format || e.width % 2 == 0) && (!fmtPlanar e.format || e.height % 2 == 0)

/-- BASE, AUX0 and AUX1 alignment of R139. -/
def SurfEntry.alignOk (e : SurfEntry) : Bool :=
  if fmtFacet e.format then e.base % 4096 == 0 && e.aux0 % 256 == 0 && e.aux1 % 256 == 0
  else e.base % 256 == 0 && (!(fmtPlanar e.format || e.format == 0x09) || e.aux0 % 256 == 0)

/-- PITCH and AUX_PITCH of R139. -/
def SurfEntry.pitchOk (e : SurfEntry) : Bool :=
  if fmtFacet e.format then e.pitch == 0 && e.auxPitch == 0
  else if fmtPlanar e.format then
    e.pitch % 128 == 0 && decide (e.width * fmtBpp e.format ≤ e.pitch) &&
    e.auxPitch % 128 == 0 && decide (e.width * fmtBpp e.format ≤ e.auxPitch)
  else e.pitch % 64 == 0 && decide (e.width * fmtBpp e.format ≤ e.pitch) && e.auxPitch == 0

/-- The planes of a surface: (address, bytes). -/
def SurfEntry.planes (e : SurfEntry) : List (Nat × Nat) :=
  (e.base, e.footprint) ::
  ((if fmtFacet e.format || fmtPlanar e.format || e.format == 0x09 then [(e.aux0, e.auxFootprint)] else []) ++
   (if fmtFacet e.format then [(e.aux1, e.rowIndexBytes)] else []))

def planesDisjoint : List (Nat × Nat) → Bool
  | [] => true
  | p :: ps => ps.all (fun q => !overlaps p.1 p.2 q.1 q.2) && planesDisjoint ps

/-- R141 and the unused-AUX rule of R139: every plane in one region, inside its populated part, outside the hub-reserved
region, the planes disjoint, and unused AUX0 and AUX1 zero. -/
def SurfEntry.addressOk (sp : Space) (e : SurfEntry) : Bool :=
  (fmtFacet e.format || e.aux1 == 0) &&
  (fmtFacet e.format || fmtPlanar e.format || e.format == 0x09 || e.aux0 == 0) &&
  e.planes.all (fun p => rangeOk sp p.1 p.2 && decide (regionOf p.1 = regionOf e.base) &&
    (match regionOf p.1 with | .ddr => decide (hubReserved ≤ p.1) | _ => true)) &&
  planesDisjoint e.planes

/-- RESIDENCY agrees with the region (R142). -/
def SurfEntry.residencyOk (e : SurfEntry) : Bool :=
  match regionOf e.base with
  | .window _ => e.residency == 1
  | _ => e.residency == 0

/-- The outcome codes of the surface commands (R152). -/
inductive SfCode where
  | done | badFormat | badSize | badAlign | badPitch | badAddress | badResidency | quota | full | stale | notOwner
  | badOp | reset | badField
  deriving DecidableEq, Repr

def SfCode.toNat : SfCode → Nat
  | .done => 0x00 | .badFormat => 0x01 | .badSize => 0x02 | .badAlign => 0x03 | .badPitch => 0x04
  | .badAddress => 0x05 | .badResidency => 0x06 | .quota => 0x07 | .full => 0x08 | .stale => 0x09
  | .notOwner => 0x0A | .badOp => 0x0B | .reset => 0x0C | .badField => 0x0D

/-- The checks a port's CREATE makes on its arguments before it counts indices, in the order of R152.  `bar2` is the port's
BAR2 range (base, bytes; no bytes when disabled). -/
def createCheck (sp : Space) (port : Nat) (bar2 : Nat × Nat) (args : List Byte) : SfCode :=
  let e := { SurfEntry.ofBytes args with owner := port, releasing := false, pub := false }
  let fl := fieldAt args 40 2
  if ¬ bit fl 0 ∨ 8 ≤ fl ∨ fieldAt args 42 2 ≠ 0 then .badField
  else if ¬ fmtKnown e.format ∨ e.format = 0x2F then .badFormat
  else if ¬ e.sizeOk then .badSize
  else if ¬ e.alignOk then .badAlign
  else if ¬ e.pitchOk then .badPitch
  else if ¬ e.addressOk sp then .badAddress
  else match regionOf e.base with
    | .ddr =>
      if e.planes.all (fun p => decide (bar2.1 ≤ p.1) && decide (p.1 + p.2 ≤ bar2.1 + bar2.2)) then
        if e.residencyOk then .done else .badResidency
      else .badAddress
    | .window q => if q = port then (if e.residencyOk then .done else .badResidency) else .badAddress
    | _ => .badAddress

/-- A Locket SURFACE or FIRST_SURFACE entry (R150), apart from the rule that no two records name one index. -/
def locketEntryOk (sp : Space) (handle : Nat) (b : List Byte) : Bool :=
  let e := SurfEntry.ofBytes b
  decide (handle < 0x1000000) && e.generation == handle / 65536 && e.valid && !e.releasing &&
  decide (fieldAt b 40 2 < 8) && fieldAt b 42 2 == 0 && decide (e.owner ≤ 5) &&
  fieldAt b 44 4 == 0 && fieldAt b 48 4 == 0 && fieldAt b 52 8 == 0 && fieldAt b 60 4 == 0 &&
  fmtKnown e.format && e.sizeOk && e.alignOk && e.pitchOk && e.addressOk sp && e.residencyOk &&
  (e.format != 0x2F || decide (regionOf e.base = .orangery)) &&
  (!e.pub || e.residency == 0) &&
  (match regionOf e.base with | .window p => e.owner == p | .ddr => true | .orangery => true | _ => false)

/-! ### Handles (R147) -/

def noHandle : Nat := 0xFFFFFFFF
def handleIndex (h : Nat) : Nat := h % 65536
def handleGen (h : Nat) : Nat := h / 65536
def mkHandle (i : Nat) (e : SurfEntry) : Nat := e.generation * 65536 + i

/-- A handle is live against the entry of its index (R147). -/
def handleLive (h : Nat) (e : SurfEntry) : Bool :=
  decide (h < 0x1000000) && e.valid && !e.releasing && handleGen h == e.generation

end Sys2Proof.Machine
end

