-- ==== Sys2Proof/Machine/Facet.lean ====
section
/-!
DEFINITION. Facet tiles (R162 to R184): the header, the five modes, the tile CRC, the causes that make a tile bad, and the
hub's own FACET48 encoder.
-/

namespace Sys2Proof.Machine

/-- Bytes of a pixel word of the format (R165). -/
def facetWordBytes (f : Nat) : Nat := if f == 0x2F then 6 else 4

/-- Channel widths B, G, R, A of the format, in the order of the DELTA stream (R165, R169). -/
def facetWidths (f : Nat) : List Nat :=
  if f == 0x2F then [12, 12, 12, 12] else if f == 0x21 then [10, 10, 10, 2] else [8, 8, 8, 8]

/-- The low bit of each channel B, G, R, A in the pixel word. -/
def facetLows (f : Nat) : List Nat :=
  if f == 0x2F then [0, 12, 24, 36] else if f == 0x21 then [0, 10, 20, 30] else [0, 8, 16, 24]

/-- Largest body of the format, the RAW body, in 16-byte units (R166). -/
def facetMaxBody (f : Nat) : Nat := if f == 0x2F then 24 else 16

/-- The fields of a tile header (R164). -/
structure TileHdr where
  crc    : Nat
  mode   : Nat
  size   : Nat
  offset : Nat
  deriving DecidableEq, Repr

def TileHdr.ofNat (v : Nat) : TileHdr :=
  { crc := v / 2 ^ 48 % 65536, mode := v / 2 ^ 44 % 16, size := v / 2 ^ 32 % 4096, offset := v % 2 ^ 32 }

def TileHdr.toNat (h : TileHdr) : Nat := h.crc * 2 ^ 48 + h.mode * 2 ^ 44 + h.size * 2 ^ 32 + h.offset

/-- Causes of a bad tile (R177); the lowest code is reported. -/
inductive TileCause where
  | mode | size | range | budget | data | overflow | crc
  deriving DecidableEq, Repr

def TileCause.code : TileCause → Nat
  | .mode => 1 | .size => 2 | .range => 3 | .budget => 4 | .data => 5 | .overflow => 6 | .crc => 7

/-- The body size a mode requires, where the header alone fixes it (R166); for DELTA the bounds. -/
def hdrSizeOk (f : Nat) (h : TileHdr) : Bool :=
  if h.mode = 0 then h.size == (if f == 0x2F then 1 else 0)
  else if h.mode = 1 then h.size == facetMaxBody f
  else if h.mode = 2 then decide (1 ≤ h.size) && decide (h.size ≤ facetMaxBody f)
  else if h.mode = 3 then h.size == (if f == 0x2F then 3 else 2)
  else h.size == (if f == 0x2F then 8 else 6)

/-- Causes 1 to 3, from the header alone (R177). -/
def hdrCause (f footprint : Nat) (h : TileHdr) : Option TileCause :=
  if 5 ≤ h.mode then some .mode
  else if ¬ hdrSizeOk f h then some .size
  else if h.size ≠ 0 ∧ footprint < (h.offset + h.size) * 16 then some .range
  else none

/-- The tile CRC over decoded words (R171, R172). -/
def tileCrc (f : Nat) (ws : List Nat) : Nat :=
  crcN 16 0x1021 0xFFFF 0 ((ws.map (leBytes (facetWordBytes f))).flatten)

/-- One pixel word of a DELTA tile: channels B, G, R, A from the stream at bit position pos; none on overflow (R169). -/
def deltaChannels (stream : Nat) : List (Nat × Nat × Nat × Nat) → Nat → Option Nat
  | [], _ => some 0
  | (base, w, n, lo) :: cs, pos =>
    let v := base + stream / 2 ^ pos % 2 ^ w
    if 2 ^ n ≤ v then none
    else match deltaChannels stream cs (pos + w) with
      | none => none
      | some r => some (v * 2 ^ lo + r)

/-- Decode a body (R167 to R170): the 64 pixel words, or the cause the body shows. -/
def decodeBody (f : Nat) (h : TileHdr) (body : List Byte) : TileCause ⊕ List Nat :=
  let wb := facetWordBytes f
  if h.mode = 0 then
    .inr (List.replicate 64 (if f == 0x2F then fieldAt body 0 6 else h.offset))
  else if h.mode = 1 then
    .inr ((List.range 64).map fun i => fieldAt body (i * wb) wb)
  else if h.mode = 2 then
    let descs := (List.range 4).map fun c => fieldAt body (2 * c) 2
    let ws := descs.map (· / 4096)
    let s := ws.foldl (· + ·) 0
    let ns := facetWidths f
    if (List.zipWith (fun w n => decide (n < w)) ws ns).any id ∨ h.size ≠ cdiv (8 + 8 * s) 16 then .inl .size
    else if (List.zipWith (fun d n => decide (2 ^ n ≤ d % 4096)) descs ns).any id then .inl .overflow
    else
      let stream := leNat (body.drop 8)
      let chans := (List.range 4).map fun c => (descs.getD c 0 % 4096, ws.getD c 0, ns.getD c 0, (facetLows f).getD c 0)
      let px := (List.range 64).map fun i => deltaChannels stream chans (i * s)
      if px.any (· == none) then .inl .overflow else .inr (px.map (·.getD 0))
  else
    let n := if h.mode = 3 then 4 else 16
    let bits := if h.mode = 3 then 2 else 4
    let idx := fieldAt body (n * wb) (8 * bits)
    .inr ((List.range 64).map fun i => fieldAt body (idx / 2 ^ (bits * i) % 2 ^ bits * wb) wb)

/-- Decode a tile whose header passed causes 1 to 4 and whose body arrived whole (R177). -/
def decodeTile (f : Nat) (h : TileHdr) (body : List Byte) : TileCause ⊕ List Nat :=
  match decodeBody f h body with
  | .inl c => .inl c
  | .inr ws => if tileCrc f ws = h.crc then .inr ws else .inl .crc

/-! ### The FACET48 encoder (R183) -/

def bitLen (n : Nat) : Nat := if n = 0 then 0 else Nat.log2 n + 1

/-- The distinct words of a tile, in order of first appearance. -/
def distinctWords (ws : List Nat) : List Nat :=
  (ws.foldl (fun acc w => if acc.contains w then acc else w :: acc) []).reverse

/-- Base and width of one channel of a tile (R183). -/
def deltaDesc (lo : Nat) (ws : List Nat) : Nat × Nat :=
  let cs := ws.map fun w => w / 2 ^ lo % 4096
  let mn := cs.foldl min 4095
  let mx := cs.foldl max 0
  (mn, bitLen (mx - mn))

def packBits : List (Nat × Nat) → Nat → Nat
  | [], _ => 0
  | (v, w) :: t, pos => v * 2 ^ pos + packBits t (pos + w)

/-- The palette of a tile, unused entries repeating entry 0 (R183). -/
def paletteOf (n : Nat) (ds : List Nat) : List Nat := (List.range n).map fun i => ds.getD i (ds.getD 0 0)

def padTo (n : Nat) (bs : List Byte) : List Byte := bs ++ zeros (n - bs.length)

/-- Encode one FACET48 tile: mode and body (R183). -/
def encodeTile (ws : List Nat) : Nat × List Byte :=
  let ds := distinctWords ws
  let descs := [0, 12, 24, 36].map fun lo => deltaDesc lo ws
  let s := (descs.map (·.2)).foldl (· + ·) 0
  let dsize := cdiv (8 + 8 * s) 16
  let indexed (n bits : Nat) : List Byte :=
    ((paletteOf n ds).map (leBytes 6)).flatten ++
      leBytes (8 * bits) (packBits (ws.map fun w => (ds.idxOf w, bits)) 0)
  let delta : List Byte :=
    padTo (16 * dsize) ((descs.map fun d => leBytes 2 (d.1 + d.2 * 4096)).flatten ++
      leBytes (8 * s) (packBits ((ws.map fun w =>
        (List.zip [0, 12, 24, 36] descs).map fun p => (w / 2 ^ p.1 % 4096 - p.2.1, p.2.2)).flatten) 0))
  if ds.length ≤ 1 then (0, padTo 16 (leBytes 6 (ws.getD 0 0)))
  else if ds.length ≤ 4 ∧ ¬ (s ≤ 47 ∧ dsize < 3) then (3, padTo 48 (indexed 4 2))
  else if ds.length ≤ 16 ∧ ¬ (s ≤ 47 ∧ dsize < 8) then (4, padTo 128 (indexed 16 4))
  else if s ≤ 47 ∧ dsize ≤ 24 then (2, delta)
  else (1, (ws.map (leBytes 6)).flatten)

/-- The header of an encoded tile whose body lies at a 16-byte unit offset. -/
def encodeHdr (ws : List Nat) (mode size off : Nat) : TileHdr :=
  { crc := tileCrc 0x2F ws, mode := mode, size := size, offset := off }

end Sys2Proof.Machine
end

