-- ==== Sys2Proof/Machine/Pixel.lean ====
section
/-!
DEFINITION. The pixel pipeline (R186 to R218): expansion to 12 bits, the colour matrices, scaling, mirroring, alpha, the blend
stack, the output LUT and dither.  Every operation is exact integer arithmetic (R187).
-/

namespace Sys2Proof.Machine

/-- One pixel: alpha and the three colour channels c0, c1, c2 (R, G, B, or Y, Cb, Cr before the layer matrix), unorm12. -/
structure Px where
  a : Nat
  r : Nat
  g : Nat
  b : Nat
  deriving DecidableEq, Repr

def Px.zero : Px := ⟨0, 0, 0, 0⟩

/-- Expansion of a w-bit channel to unorm12 (R190). -/
def expand (w x : Nat) : Nat :=
  if w = 12 then x
  else if w = 10 then x * 4 ||| x / 256
  else if w = 8 then x * 16 ||| x / 16
  else if w = 6 then x * 64 ||| x
  else if w = 5 then x * 128 ||| x * 4 ||| x / 8
  else if w = 4 then x * 0x111
  else if w = 2 then x * 0x555
  else x * 0xFFF

/-- Expansion of a binary16 channel (R137, R191): NaN, −0, negative values and −∞ give 0; +∞ and values above 1.0 give 4095;
a value from 0 to 1.0, a multiple of 2^−24, is scaled by 4095 and rounded half to even. -/
def expandF16 (h : Nat) : Nat :=
  let s := h / 32768 % 2
  let e := h / 1024 % 32
  let m := h % 1024
  if e = 31 ∧ m ≠ 0 then 0
  else if s = 1 then 0
  else if e = 31 then 4095
  else
    let q := if e = 0 then m else (1024 + m) * 2 ^ (e - 1)
    if 2 ^ 24 < q then 4095
    else
      let t := q * 4095
      let r := t / 2 ^ 24
      let rem := t % 2 ^ 24
      if 0x800000 < rem ∨ (rem = 0x800000 ∧ r % 2 = 1) then r + 1 else r

/-- A pixel word of a packed RGB format, expanded (R136, R190, R191). -/
def wordPx (f w : Nat) : Px :=
  let bits (lo n : Nat) := w / 2 ^ lo % 2 ^ n
  let e (lo n : Nat) := expand n (bits lo n)
  if f = 0x01 ∨ f = 0x20 then ⟨e 24 8, e 16 8, e 8 8, e 0 8⟩
  else if f = 0x02 then ⟨4095, e 16 8, e 8 8, e 0 8⟩
  else if f = 0x03 then ⟨e 24 8, e 0 8, e 8 8, e 16 8⟩
  else if f = 0x04 ∨ f = 0x21 then ⟨e 30 2, e 20 10, e 10 10, e 0 10⟩
  else if f = 0x05 then ⟨4095, e 11 5, e 5 6, e 0 5⟩
  else if f = 0x06 then ⟨e 12 4, e 8 4, e 4 4, e 0 4⟩
  else if f = 0x07 then ⟨e 15 1, e 10 5, e 5 5, e 0 5⟩
  else if f = 0x08 then ⟨expandF16 (bits 48 16), expandF16 (bits 0 16), expandF16 (bits 16 16), expandF16 (bits 32 16)⟩
  else if f = 0x0A then ⟨e 0 8, 4095, 4095, 4095⟩
  else if f = 0x2F then ⟨bits 36 12, bits 24 12, bits 12 12, bits 0 12⟩
  else Px.zero

/-! ### Matrices (R194, R214) -/

/-- A colour matrix: nine signed 16-bit coefficients by rows and three signed 14-bit offsets. -/
structure Matrix where
  m   : List Int
  off : List Int
  deriving DecidableEq, Repr

/-- The matrix that the six words of LY_CM or FN_OCM spell (R222). -/
def matrixOf (ws : List Nat) : Matrix :=
  let lo (k : Nat) := ws.getD k 0 % 65536
  let hi (k : Nat) := ws.getD k 0 / 65536 % 65536
  { m := ([lo 0, hi 0, lo 1, hi 1, lo 2, hi 2, lo 3, hi 3, lo 4]).map (signed 16)
    off := [signed 14 (lo 5 % 16384), signed 14 (hi 5 % 16384), signed 14 (hi 4 % 16384)] }

def clamp12 (v : Int) : Nat := (clampInt 0 4095 v).toNat

def matrixRow (mx : Matrix) (c : Nat) (p : Px) : Nat :=
  let k (i : Nat) := mx.m.getD (3 * c + i) 0
  let acc : Int := k 0 * p.r + k 1 * p.g + k 2 * p.b + mx.off.getD c 0 * 4096
  clamp12 ((acc + 2048) / 4096)

def applyMatrix (mx : Matrix) (p : Px) : Px := ⟨p.a, matrixRow mx 0 p, matrixRow mx 1 p, matrixRow mx 2 p⟩

/-! ### Scaling (R196 to R201) -/

/-- One coefficient bank: 64 phases of eight horizontal and of six vertical coefficients (R85). -/
structure CoefBank where
  h : List (List Int)
  v : List (List Int)
  deriving DecidableEq, Repr

/-- The default set, bilinear in both passes (R200). -/
def CoefBank.default : CoefBank :=
  { h := (List.range 64).map fun (ph : Nat) => [0, 0, 0, 1024 - 16 * ph, 16 * ph, 0, 0, 0]
    v := (List.range 64).map fun (ph : Nat) => [0, 0, 1024 - 16 * ph, 16 * ph, 0, 0] }

/-- The 1,792 coefficient bytes of a bank in COEF record order (R85, R221). -/
def CoefBank.bytes (c : CoefBank) : List Byte :=
  ((c.h ++ c.v).flatten.map fun (x : Int) => leBytes 2 (toBits 16 x)).flatten

def stepOf (s d : Nat) : Nat := s * 2 ^ 20 / d

/-- Source index and phase of output j of a pass (R197). -/
def passPos (s d j : Nat) : Int × Nat :=
  let st := stepOf s d
  let pos : Int := (st / 2 : Nat) - 0x80000 + j * st
  (pos / 2 ^ 20, (pos % 2 ^ 20).toNat / 2 ^ 14)

/-- The vertical coefficients of a tap count, edge taps folded inwards (R201). -/
def foldTaps (taps : Nat) (v : List Int) : List Int :=
  let k (i : Nat) := v.getD i 0
  if taps = 6 then [k 0, k 1, k 2, k 3, k 4, k 5]
  else if taps = 4 then [k 0 + k 1, k 2, k 3, k 4 + k 5]
  else [k 0 + k 1 + k 2, k 3 + k 4 + k 5]

/-- A filtered channel: the exact sum, rounded half up and clamped (R199). -/
def filterSum (cs : List (Int × Nat)) : Nat :=
  clamp12 ((cs.foldl (fun acc p => acc + p.1 * (p.2 : Int)) 0 + 512) / 1024)

def filterPx (cs : List (Int × Px)) : Px :=
  ⟨filterSum (cs.map fun p => (p.1, p.2.a)), filterSum (cs.map fun p => (p.1, p.2.r)),
   filterSum (cs.map fun p => (p.1, p.2.g)), filterSum (cs.map fun p => (p.1, p.2.b))⟩

def clampIdx (n : Nat) (i : Int) : Nat := (clampInt 0 ((n : Int) - 1) i).toNat

/-- Pixel j of a horizontally scaled line (R198, R199); bypassed when the sizes are equal. -/
def hscale (bank : CoefBank) (s d : Nat) (src : Nat → Px) (j : Nat) : Px :=
  if s = d then src j
  else
    let p := passPos s d j
    let co := bank.h.getD p.2 []
    filterPx ((List.range 8).map fun k => (co.getD k 0, src (clampIdx s (p.1 - 3 + k))))

/-- Number of vertical taps of a VTAPS code (R222). -/
def tapsOf (code : Nat) : Nat := if code = 0 then 6 else if code = 1 then 4 else 2

/-- The source lines an output line of the vertical pass reads, with their coefficients (R198). -/
def vtapLines (bank : CoefBank) (taps s d j : Nat) : List (Int × Nat) :=
  if s = d then [(1024, j)]
  else
    let p := passPos s d j
    let co := foldTaps taps (bank.v.getD p.2 [])
    (List.range taps).map fun k => (co.getD k 0, clampIdx s (p.1 - (taps / 2 - 1 : Nat) + k))

/-- Lines below the current source line that the vertical filter reads: W of R21. -/
def windowBelow (scaled : Bool) (taps : Nat) : Nat := if scaled then taps / 2 else 0

/-! ### Alpha and blending (R207 to R210) -/

def mul12 (x y : Nat) : Nat :=
  let t := x * y + 2048
  (t + t / 4096) / 4096

/-- mul12 of a timeline: R207, or the legacy product of R218. -/
def mul12L (legacy : Bool) (x y : Nat) : Nat := if legacy then x * y / 4096 else mul12 x y

/-- a′ and Cs of a covered pixel (R208). -/
def alphaPx (legacy : Bool) (amode g : Nat) (p : Px) : Px :=
  let mm := mul12L legacy
  if amode = 0 then
    let a := mm p.a g
    ⟨a, mm p.r a, mm p.g a, mm p.b a⟩
  else if amode = 1 then ⟨mm p.a g, mm p.r g, mm p.g g, mm p.b g⟩
  else ⟨g, mm p.r g, mm p.g g, mm p.b g⟩

/-- Blend a premultiplied source over a destination (R210). -/
def blendPx (legacy : Bool) (d s : Px) : Px :=
  let k := 4095 - s.a
  let mm := mul12L legacy
  ⟨s.a + mm d.a k, min 4095 (s.r + mm d.r k), min 4095 (s.g + mm d.g k), min 4095 (s.b + mm d.b k)⟩

/-! ### The finisher's last stages -/

/-- Interpolation of the output LUT (R215). -/
def lutVal (l : List Nat) (v : Nat) : Nat :=
  let i := v / 4
  let f := v % 4
  (l.getD i 0 * (4 - f) + l.getD (i + 1) 0 * f + 2) / 4

def m4 (y x : Nat) : Nat :=
  ([0, 8, 2, 10, 12, 4, 14, 6, 3, 11, 1, 9, 15, 7, 13, 5] : List Nat).getD (y % 4 * 4 + x % 4) 0

/-- The spatio-temporal offset of a frame (R216). -/
def ditherShift (mode frame : Nat) : Nat × Nat :=
  if mode ≠ 2 then (0, 0)
  else if frame % 4 = 0 then (0, 0) else if frame % 4 = 1 then (2, 2) else if frame % 4 = 2 then (2, 0) else (0, 2)

/-- Bits per channel of a DEPTH code (R125): 0 six, 1 eight, 2 ten; 3 is never in use. -/
def depthBits (code : Nat) : Nat := if code = 0 then 6 else if code = 1 then 8 else 10

def ditherThr (legacy : Bool) (mode d frame y x : Nat) : Nat :=
  let sh := ditherShift mode frame
  let m := m4 (y + sh.2) (x + sh.1)
  if mode = 0 then (if legacy then 0 else 2 ^ (11 - d))
  else if legacy then m * 2 ^ (12 - d) / 16
  else (2 * m + 1) * 2 ^ (12 - d) / 32

def ditherVal (legacy : Bool) (mode d frame y x v : Nat) : Nat :=
  min ((v + ditherThr legacy mode d frame y x) / 2 ^ (12 - d)) (2 ^ d - 1)

/-- Stages 11 to 13 of one pixel: the output matrix, the LUT and the dither (R214 to R216). -/
def finishPx (legacy : Bool) (ocm : Option Matrix) (lut : Option (List Nat × List Nat × List Nat))
    (dmode depth frame y x : Nat) (p : Px) : Px :=
  let p1 : Px := match ocm with
    | some mx => applyMatrix mx p
    | none => p
  let p2 : Px := match lut with
    | some (lr, lg, lb) => ⟨p1.a, lutVal lr p1.r, lutVal lg p1.g, lutVal lb p1.b⟩
    | none => p1
  let dv := ditherVal legacy dmode depth frame y x
  ⟨0, dv p2.r, dv p2.g, dv p2.b⟩

end Sys2Proof.Machine
end

