-- ==== Sys2Proof/Machine/Layer.lean ====
section
/-!
DEFINITION. One layer slot's configuration as its 22 banked words, its copied surface entry and its copied row budgets give it
(R222, R265, R146, R174); the fetch groups of a layer (R229); the per-slot checks of validation steps 3 to 5 (R205, R275).
-/

namespace Sys2Proof.Machine

/-- The decoded configuration of one layer slot in one bank. -/
structure LayerCfg where
  slot    : Nat
  en      : Bool
  tl      : Nat
  xform   : Nat
  handle  : Nat
  sx : Nat
  sy : Nat
  sw : Nat
  sh : Nat
  dx : Int
  dy : Int
  dw : Nat
  dh : Nat
  amode   : Nat
  z       : Nat
  galpha  : Nat
  hbank   : Nat
  vbank   : Nat
  vtaps   : Nat
  tapfall : Bool
  cmEn    : Bool
  chroma  : Bool
  cm      : List Nat
  vtapsEff : Nat
  subst   : Nat
  besteff : Bool
  race    : Bool
  raceSrc : Nat
  tide    : Bool
  quiet   : Bool
  substPx : Px
  entry   : SurfEntry
  budgets : List Nat
  deriving DecidableEq, Repr

/-- The fields of the banked words, word k at offset 4k (R222, R265). -/
def LayerCfg.ofWords (slot : Nat) (w : List Nat) (e : SurfEntry) (budgets : List Nat) : LayerCfg :=
  let f (k lo n : Nat) := w.getD k 0 / 2 ^ lo % 2 ^ n
  { slot := slot, en := f 0 0 1 == 1, tl := f 0 1 1, xform := f 0 4 2, handle := w.getD 1 0,
    sx := f 2 0 14, sy := f 2 16 14, sw := f 3 0 15, sh := f 3 16 15,
    dx := signed 16 (f 4 0 16), dy := signed 16 (f 4 16 16), dw := f 5 0 15, dh := f 5 16 15,
    amode := f 6 0 2, z := f 6 4 4, galpha := f 6 16 12,
    hbank := f 7 0 3, vbank := f 7 4 3, vtaps := f 7 8 2, tapfall := f 7 12 1 == 1,
    cmEn := f 8 0 1 == 1, chroma := f 8 1 1 == 1, cm := (List.range 6).map fun k => w.getD (9 + k) 0,
    vtapsEff := f 18 0 2,
    subst := f 19 0 2, besteff := f 19 2 1 == 1, race := f 19 3 1 == 1, raceSrc := f 19 4 5,
    tide := f 19 9 1 == 1, quiet := f 19 10 1 == 1,
    substPx := ⟨f 21 16 12, f 20 0 12, f 20 16 12, f 21 0 12⟩,
    entry := e, budgets := budgets }

def LayerCfg.hscaled (l : LayerCfg) : Bool := l.sw != l.dw
def LayerCfg.vscaled (l : LayerCfg) : Bool := l.sh != l.dh
def LayerCfg.taps (l : LayerCfg) : Nat := tapsOf l.vtapsEff
/-- W of R21: source lines below the current one that the vertical filter reads. -/
def LayerCfg.window (l : LayerCfg) : Nat := windowBelow l.vscaled l.taps
def LayerCfg.vflip (l : LayerCfg) : Bool := 2 ≤ l.xform
def LayerCfg.hflip (l : LayerCfg) : Bool := l.xform % 2 == 1

/-! ### Fetch groups (R229) -/

/-- A fetch group of a layer: a row of a packed surface or of a luma plane, a chroma row, the palette, or a Facet band. -/
inductive Group where
  | row (r : Nat)
  | chroma (r : Nat)
  | palette
  | band (ty : Nat)
  deriving DecidableEq, Repr

/-- The line of the scaled image that composed line y shows, when the layer covers y (R206, R209). -/
def LayerCfg.imageLine (l : LayerCfg) (vactive y : Nat) : Option Nat :=
  let v : Int := y - l.dy
  if y < vactive ∧ 0 ≤ v ∧ v < l.dh then
    some (if l.vflip then l.dh - 1 - v.toNat else v.toNat)
  else none

/-- Whether any column of the layer lies in the active area (R209). -/
def LayerCfg.anyColumn (l : LayerCfg) (hactive : Nat) : Bool :=
  decide (l.dx < hactive) && decide (0 < l.dx + l.dw)

/-- Source rows, relative to the surface, that an image line reads (R198). -/
def LayerCfg.rowsOf (l : LayerCfg) (j : Nat) : List Nat :=
  ((vtapLines CoefBank.default l.taps l.sh l.dh j).map fun p => l.sy + p.2).dedup

/-- Chroma rows that a luma row's chroma computation reads (R193). -/
def LayerCfg.chromaRows (l : LayerCfg) (r : Nat) : List Nat :=
  let c := r / 2
  let lo := l.sy / 2
  let hi := (l.sy + l.sh - 1) / 2
  if l.chroma then [c, max lo (min hi (if r % 2 = 1 then c + 1 else c - 1))].dedup else [c]

/-- The groups that composing line y reads. -/
def LayerCfg.groupsOf (l : LayerCfg) (hactive vactive y : Nat) : List Group :=
  match l.imageLine vactive y with
  | none => []
  | some j =>
    if ¬ l.anyColumn hactive then []
    else
      let rows := l.rowsOf j
      if fmtFacet l.entry.format then (rows.map fun r => Group.band (r / 8)).dedup
      else if fmtPlanar l.entry.format then
        rows.map Group.row ++ ((rows.map l.chromaRows).flatten.map Group.chroma).dedup
      else if l.entry.format = 0x09 then Group.palette :: rows.map Group.row
      else rows.map Group.row

/-- The groups whose need line is y: read for line y and not for the covered line before it.  The rows a layer reads move
in one direction without a gap, so a group read earlier than line y − 1 and again at y is read at y − 1 too. -/
def LayerCfg.newGroups (l : LayerCfg) (hactive vactive y : Nat) : List Group :=
  let g := l.groupsOf hactive vactive y
  if y = 0 then g
  else
    let p := l.groupsOf hactive vactive (y - 1)
    g.filter fun x => !p.contains x

def alignDown (n a : Nat) : Nat := a / n * n
def alignUp (n a : Nat) : Nat := cdiv a n * n

/-- First tile column and number of tile columns the source rectangle intersects (R175). -/
def LayerCfg.tileSpan (l : LayerCfg) : Nat × Nat :=
  (l.sx / 8, (l.sx + l.sw - 1) / 8 - l.sx / 8 + 1)

def LayerCfg.budgetOf (l : LayerCfg) (ty : Nat) : Nat := l.budgets.getD (ty - l.sy / 8) 0

/-- Start and bytes of a row's fetch, rounded out to 64 bytes (R229). -/
def rowSpan (base pitch r first bytes : Nat) : Nat × Nat :=
  let a := base + r * pitch + first
  (alignDown 64 a, alignUp 64 (a + bytes) - alignDown 64 a)

/-- Address and bytes of a group; a band's bytes are those admission charges (R175, R229). -/
def LayerCfg.groupSpan (l : LayerCfg) (g : Group) : Nat × Nat :=
  let e := l.entry
  match g with
  | .row r =>
    if fmtYuvPacked e.format then
      rowSpan e.base e.pitch r (l.sx / 2 * 4) (((l.sx + l.sw - 1) / 2 - l.sx / 2 + 1) * 4)
    else rowSpan e.base e.pitch r (l.sx * fmtBpp e.format) (l.sw * fmtBpp e.format)
  | .chroma r =>
    let bp := 2 * fmtBpp e.format
    rowSpan e.aux0 e.auxPitch r (l.sx / 2 * bp) (((l.sx + l.sw - 1) / 2 - l.sx / 2 + 1) * bp)
  | .palette => (e.aux0, 1024)
  | .band ty => (e.aux0 + (ty * tilesAcross e.width + l.tileSpan.1) * 8, l.budgetOf ty + 8 * l.tileSpan.2)

def LayerCfg.groupBytes (l : LayerCfg) (g : Group) : Nat := (l.groupSpan g).2

/-- Bytes of the groups whose need line is y. -/
def LayerCfg.needBytes (l : LayerCfg) (hactive vactive y : Nat) : Nat :=
  ((l.newGroups hactive vactive y).map l.groupBytes).foldl (· + ·) 0

/-! ### Validation steps 3 to 5 for one slot -/

/-- Whether a layer slot accepts the format (R138). -/
def layerFormatOk (e : SurfEntry) : Bool :=
  fmtKnown e.format && (e.format != 0x2F || decide (regionOf e.base = .orangery))

/-- Step 3, reported as REF_FORMAT: field ranges, R138, R142, R195, R196, AMODE, VTAPS and R252. -/
def LayerCfg.formatOk (l : LayerCfg) : Bool :=
  decide (1 ≤ l.sw) && decide (l.sw ≤ 16384) && decide (1 ≤ l.sh) && decide (l.sh ≤ 16384) &&
  decide (1 ≤ l.dw) && decide (l.dw ≤ 16384) && decide (1 ≤ l.dh) && decide (l.dh ≤ 16384) &&
  decide (-16384 ≤ l.dx) && decide (l.dx ≤ 8191) && decide (-16384 ≤ l.dy) && decide (l.dy ≤ 8191) &&
  decide (l.raceSrc ≤ 23) &&
  layerFormatOk l.entry && (l.entry.residency == 0 || l.besteff) &&
  (!fmtYuv l.entry.format || l.cmEn) && l.amode != 3 && l.vtaps != 3 &&
  decide (l.sw ≤ 8 * l.dw) && decide (l.sh ≤ 8 * l.dh) && decide (l.dw ≤ 16 * l.sw) && decide (l.dh ≤ 16 * l.sh) &&
  (decide (l.slot % 12 < 4) || (!l.hscaled && !l.vscaled)) &&
  decide (l.sx + l.sw ≤ l.entry.width) && decide (l.sy + l.sh ≤ l.entry.height)

/-- Step 3, reported as REF_ALIGN: odd source fields of a YCbCr layer (R275). -/
def LayerCfg.alignOk (l : LayerCfg) : Bool :=
  (!fmtYuv l.entry.format || (l.sx % 2 == 0 && l.sw % 2 == 0)) &&
  (!fmtPlanar l.entry.format || (l.sy % 2 == 0 && l.sh % 2 == 0))

/-- The tile rows the source rectangle intersects (R174). -/
def LayerCfg.tileRows (l : LayerCfg) : List Nat :=
  (List.range ((l.sy + l.sh - 1) / 8 - l.sy / 8 + 1)).map (· + l.sy / 8)

/-- A row-index entry meets R173. -/
def rowIndexOk (e : SurfEntry) (v : Nat) : Bool :=
  v % 16 == 0 && decide (v ≤ tilesAcross e.width * (if e.format == 0x2F then 384 else 256))

def tapLimit (taps : Nat) : Nat := if taps = 6 then 5120 else if taps = 4 then 7680 else 15360

/-- Step 4 for the line store (R202, R203): the VTAPS_EFF code and whether the taps were reduced, or none (REF_LINEBUF). -/
def LayerCfg.lineStore (l : LayerCfg) : Option (Nat × Bool) :=
  if ¬ l.vscaled ∨ l.dw ≤ tapLimit (tapsOf l.vtaps) then some (l.vtaps, false)
  else if ¬ l.tapfall ∨ 15360 < l.dw then none
  else some (if l.dw ≤ 5120 then 0 else if l.dw ≤ 7680 then 1 else 2, true)

/-- Step 4 for Facet bands (R175). -/
def LayerCfg.bandsOk (l : LayerCfg) : Bool :=
  !fmtFacet l.entry.format ||
    l.tileRows.all fun ty => decide (l.budgetOf ty + 8 * l.tileSpan.2 ≤ 65536)

/-- Step 5 (R204). -/
def LayerCfg.rateOk (khz : Nat) (l : LayerCfg) : Bool :=
  decide (khz * max l.sw l.dw * max l.sh l.dh ≤ 5000000 * l.dw * l.dh)

end Sys2Proof.Machine
end

