-- ==== Sys2Proof/Machine/Admit.lean ====
section
/-!
DEFINITION. The arithmetic of admission (R234 to R239): demand per line, window rates, the speculation reserves and the
acceptance test, in exact integers.
-/

namespace Sys2Proof.Machine

/-- The timing of a timeline that admission reads (R234, R237). -/
structure TlTiming where
  en       : Bool
  htotal   : Nat
  hactive  : Nat
  vtotal   : Nat
  vactive  : Nat
  khz      : Nat
  genlock  : Bool
  adaptive : Bool
  line     : Nat
  tail     : Nat
  deriving DecidableEq, Repr

/-- KHZA of R234. -/
def TlTiming.khza (t : TlTiming) : Nat := t.khz + if t.genlock then cdiv (t.khz * 2) 1000 else 0

/-- A timeline that scans: enabled, with a clock and a total. -/
def TlTiming.live (t : TlTiming) : Bool := t.en && decide (0 < t.htotal) && decide (0 < t.khz)

/-- Λ0 of R237. -/
def TlTiming.lam0 (t : TlTiming) : Nat := if t.adaptive then t.vtotal - t.tail else t.line

/-- SPEC_N of R237. -/
def TlTiming.specN (t : TlTiming) : Nat := t.lam0 + 32 - t.vtotal

/-- EARLY with speculation off (R237). -/
def TlTiming.early (t : TlTiming) : Nat := if t.adaptive then 0 else min 16 t.specN

/-- T_BLEND of a Pavilion from the HACTIVE of its enabled timelines (R228). -/
def tBlend (haA haB : Nat) : Nat := cdiv (4 * (cdiv haA 4 + cdiv haB 4 + 128)) 5

/-- B(y) or BO(y) over a frame (R234): the bytes of the groups with need line y of the enabled slots that are not best effort
and lie in the region asked for, plus the writeback bytes of each active line; blank lines hold 0. -/
def demandSeq (t : TlTiming) (ls : List LayerCfg) (orangery : Bool) (wb : Nat) : List Nat :=
  let use := ls.filter fun l => l.en && !l.besteff &&
    decide (regionOf l.entry.base = if orangery then Region.orangery else Region.ddr)
  (List.range t.vtotal).map fun y =>
    if y < t.vactive then
      (use.map fun l => l.needBytes t.hactive t.vactive y).foldl (· + ·) 0 + wb
    else 0

/-- Largest sum of 16 consecutive entries. -/
def maxWindow16 : List Nat → Nat
  | [] => 0
  | x :: xs => max (((x :: xs).take 16).foldl (· + ·) 0) (maxWindow16 xs)

/-- X of R235. -/
def rateSeq (t : TlTiming) (act new : List Nat) (spec : Bool) : List Nat :=
  let sn := if spec then t.specN else 0
  act.drop (t.vtotal - 15) ++
  (List.range t.vtotal).map (fun y => if y < sn then max (act.getD y 0) (new.getD y 0) else new.getD y 0) ++
  new.take 15

/-- TLRATE (R235). -/
def tlRate (t : TlTiming) (act new : List Nat) (spec : Bool) : Nat :=
  if t.live then cdiv (maxWindow16 (rateSeq t act new spec) * t.khza) (16 * t.htotal) else 0

/-- FRATE (R236). -/
def flatRate (t : TlTiming) : Nat :=
  if t.live then cdiv (784 * cdiv t.hactive 8 * t.khza) (16 * t.htotal) else 0

/-- HEAD of R237 from line b on; none is INFINITE. -/
def headFrom (t : TlTiming) (tb lat : Nat) (bs : List Nat) (lam : Nat) : Nat → Nat → Nat → Nat → Option Nat
  | 0, _, _, r => some r
  | m + 1, b, sum, r =>
    let sum := sum + bs.getD b 0
    let dt : Int := ((t.vtotal - lam + b) * t.htotal * 1000000 / t.khza : Nat) - tb - lat
    if dt ≤ 0 then none
    else headFrom t tb lat bs lam m (b + 1) sum (max r (cdiv (sum * 1000000) dt.toNat))

/-- HEAD of R237: the rate that fetches lines 0 to m − 1 after a latch at line lam; none is INFINITE. -/
def headRes (t : TlTiming) (tb lat : Nat) (bs : List Nat) (m lam : Nat) : Option Nat :=
  if t.live then headFrom t tb lat bs lam m 0 0 0 else some 0

/-- Sum of reserves where one may be INFINITE. -/
def addInf : Option Nat → Option Nat → Option Nat
  | some a, some b => some (a + b)
  | _, _ => none

def maxInf : Option Nat → Option Nat → Option Nat
  | some a, some b => some (max a b)
  | _, _ => none

/-- The figures of one timeline under one mode: TLRATE, ORATE, SPECRES and HEADRES, the largest over the state and its
presets (R235, R237). -/
structure TlFigures where
  rate  : Nat
  orate : Nat
  sres  : Option Nat
  hres  : Option Nat
  deriving DecidableEq, Repr

def figuresOf (t : TlTiming) (tb lat wb : Nat) (act : List LayerCfg) (variants : List (List LayerCfg)) (spec : Bool) :
    TlFigures :=
  let ab := demandSeq t act false wb
  let ao := demandSeq t act true 0
  variants.foldl (fun f ls =>
    let b := demandSeq t ls false wb
    let o := demandSeq t ls true 0
    { rate := max f.rate (tlRate t ab b spec)
      orate := max f.orate (tlRate t ao o spec)
      sres := maxInf f.sres (headRes t tb lat b t.specN t.lam0)
      hres := maxInf f.hres (headRes t tb lat b (t.specN - t.early) (t.lam0 - t.early)) })
    { rate := 0, orate := 0, sres := some 0, hres := some 0 }

/-- DRAM_CONFIG of the Locket (R79). -/
structure DramCfg where
  rate    : Nat
  ranks   : Nat
  width   : Nat
  density : Nat
  mask    : Nat
  deriving DecidableEq, Repr

def DramCfg.none : DramCfg := ⟨0, 0, 0, 0, 0⟩

/-- Sub-channels in service (R234). -/
def DramCfg.nsub (d : DramCfg) : Nat :=
  if d.mask = 0xFF then 8 else if d.mask = 0x0F then 4 else if d.mask = 0x03 then 2 else 0

/-- Refresh charge per command in ns (R234). -/
def DramCfg.trfc (d : DramCfg) : Nat := if d.density ≤ 16 then 60 else if d.density ≤ 32 then 80 else 110

/-- SVC of R239 (R20). -/
def DramCfg.svc (d : DramCfg) : Nat := 4000 * d.nsub * d.rate * 50 / 57

/-- The totals of an admission case (R239). -/
structure AdmTotals where
  svc  : Nat
  res  : Nat
  dem  : Nat
  odem : Nat
  inf  : Bool
  deriving DecidableEq, Repr

/-- The test of R239 over the enabled timelines' timings and stored or trial (TLRATE, ORATE, XRES). -/
def admTotals (d : DramCfg) (ts : List TlTiming) (figs : List (Nat × Nat × Option Nat)) (maintPm ing car : Nat)
    (flatEn : Bool) : AdmTotals :=
  let svc := d.svc
  let live := ts.filter (·.live)
  let wins := live.map fun t => 16 * t.htotal * 1000000 / t.khza
  let pay := match wins with
    | [] => 0
    | w :: ws => cdiv (svc * 4 * d.trfc) (ws.foldl min w)
  { svc := svc
    res := cdiv (svc * d.trfc) 1950 + pay + cdiv (svc * maintPm) 1000 + ing + car +
      (figs.map fun f => f.2.2.getD 0).foldl (· + ·) 0
    dem := (figs.map fun f => f.1).foldl (· + ·) 0
    odem := (figs.map fun f => f.2.1).foldl (· + ·) 0 +
      (if flatEn then (live.map flatRate).foldl (· + ·) 0 else 0)
    inf := figs.any fun f => f.2.2 == none }

/-- The shortfall of a case: none accepts, some n refuses with REF_BW (R239). -/
def AdmTotals.shortfall (a : AdmTotals) : Option Nat :=
  if a.inf then some 0xFFFFFFFF
  else if a.svc < a.res + a.dem then some (a.res + a.dem - a.svc)
  else if 409600000 < a.odem then some (a.odem - 409600000)
  else none

end Sys2Proof.Machine
end

