-- ==== Sys2Proof/Machine/RegMap.lean ====
section
/-!
DEFINITION. The register map of the hub (R517 to R537): one row per register with its address, its instances and array
steps, its structural mark (R520) and its fields (bits, access code R8, reset value, installer mark R9, concurrency class
R10), each field as the table of its subject chapter gives it; then the address of each register by its own name and the
place of each field.  BZ_I_P0, whose fields depend on KIND (R343), is one 16-bit field here; the bits that no field of the KIND takes read 0 (`State.p0Word`).  The MSI-X table and pending
array (R536) follow the layout of the PCI Express specification (PRESUMED, assumption 5).
-/

namespace Sys2Proof.Machine

/-- Access codes of R8. -/
inductive Access where
  | rw | ro | w1c | w1s | wo | rwp
  deriving DecidableEq, Repr

/-- Concurrency classes of R10. -/
inductive Cls where
  | a | b | c | d | e | f
  deriving DecidableEq, Repr

/-- The place of a field in its register: lowest bit and width. -/
structure Fld where
  lo : Nat
  w  : Nat
  deriving DecidableEq, Repr

/-- One field of a register: its place, access code, reset value, installer mark (I) and concurrency class. -/
structure FieldRow where
  name : String
  lo   : Nat
  w    : Nat
  acc  : Access
  rst  : Nat
  inst : Bool
  cls  : Cls
  deriving DecidableEq, Repr

/-- The banking of a register: none; two banks, the pending one at its offset and the active one 0x100 above (R528);
a re-seat shadow of a TL register (R527). -/
inductive Banking where
  | plain | banked | shadow
  deriving DecidableEq, Repr

/-- One register: the address of its first instance and element, the counts and steps of its instances and array elements
(outermost first), whether it is structural, its banking and its fields. -/
structure RegRow where
  name    : String
  base    : Nat
  dims    : List (Nat × Nat)
  struct  : Bool
  banking : Banking
  fields  : List FieldRow
  deriving DecidableEq, Repr

/-- The registers of the block at 0x0. -/
def syRows : List RegRow :=
  [⟨"SY_ID", 0x0, [], false, .plain,
     [⟨"DEVICE", 0, 16, .ro, 0x9680, false, .a⟩, ⟨"REV", 16, 8, .ro, 2, false, .a⟩]⟩] ++
  [⟨"SY_PSTATE", 0x4, [], false, .plain,
     [⟨"STATE", 0, 2, .ro, 2, false, .a⟩, ⟨"DEGRADED", 2, 1, .ro, 0, false, .a⟩, ⟨"FAULT", 3, 1, .ro, 1, false, .a⟩]⟩] ++
  [⟨"SY_DTIME_LO", 0x8, [], false, .plain,
     [⟨"DTIME", 0, 32, .ro, 0, false, .a⟩]⟩] ++
  [⟨"SY_DTIME_HI", 0xC, [], false, .plain,
     [⟨"DTIME", 0, 32, .ro, 0, false, .a⟩]⟩] ++
  [⟨"SY_BOOT_STAT", 0x100, [], false, .plain,
     [⟨"F0A", 0, 4, .ro, 0, false, .a⟩, ⟨"F0B", 4, 4, .ro, 0, false, .a⟩, ⟨"F1A", 8, 4, .ro, 0, false, .a⟩, ⟨"F1B", 12, 4, .ro, 0, false, .a⟩, ⟨"SEL", 16, 2, .ro, 0, false, .a⟩, ⟨"PASS2", 18, 1, .ro, 0, false, .a⟩, ⟨"NOIMAGE", 19, 1, .ro, 0, false, .a⟩, ⟨"BOOTSEL", 20, 2, .ro, 0, false, .a⟩, ⟨"COMPAT", 22, 1, .ro, 0, false, .a⟩, ⟨"WARM", 23, 1, .ro, 0, false, .a⟩, ⟨"FULLTRAIN", 24, 1, .ro, 0, false, .a⟩, ⟨"READY", 25, 1, .ro, 0, false, .a⟩, ⟨"ASSETS", 26, 1, .ro, 0, false, .a⟩]⟩] ++
  [⟨"SY_BOOT_CTRL", 0x104, [], false, .plain,
     [⟨"RESTART", 0, 1, .w1s, 0, true, .d⟩]⟩] ++
  [⟨"SY_PARK_CTRL", 0x108, [], true, .plain,
     [⟨"REQ", 0, 1, .w1s, 0, false, .d⟩, ⟨"PARKING", 1, 1, .ro, 0, false, .a⟩, ⟨"DRAIN_MS", 16, 16, .rw, 0x64, true, .a⟩]⟩] ++
  [⟨"SY_WAKE_STAT", 0x10C, [], false, .plain,
     [⟨"PIN", 0, 1, .w1c, 0, false, .b⟩, ⟨"SVWAKE", 1, 1, .w1c, 0, false, .b⟩, ⟨"WARMRST", 2, 1, .w1c, 0, false, .b⟩, ⟨"INPARK", 3, 1, .w1c, 0, false, .b⟩, ⟨"COLD", 4, 1, .w1c, 0, false, .b⟩]⟩] ++
  [⟨"SY_BOOT_MARK", 0x110, [(6, 0x4)], false, .plain,
     [⟨"TIME_US", 0, 32, .ro, 0, false, .a⟩]⟩] ++
  [⟨"SY_LOAD_FAIL", 0x128, [], false, .plain,
     [⟨"CHECK", 0, 8, .ro, 0, false, .a⟩, ⟨"WHERE", 8, 5, .ro, 0, false, .a⟩, ⟨"SLOT", 13, 2, .ro, 0, false, .a⟩, ⟨"VALID", 15, 1, .ro, 0, false, .a⟩]⟩] ++
  [⟨"SY_LOAD_OFFSET", 0x12C, [], false, .plain,
     [⟨"OFFSET", 0, 32, .ro, 0, false, .a⟩]⟩] ++
  [⟨"SY_IMAGE_SERIAL", 0x130, [], false, .plain,
     [⟨"SERIAL", 0, 32, .ro, 0, false, .a⟩]⟩]

/-- The registers of the block at 0x10000. -/
def ghRows : List RegRow :=
  [⟨"GH_STAT", 0x10000, [], false, .plain,
     [⟨"WO_REWRITE", 0, 1, .w1c, 0, false, .b⟩, ⟨"LOCK_VIOL", 1, 1, .w1c, 0, false, .b⟩, ⟨"LEDGER_FULL", 2, 1, .w1c, 0, false, .b⟩, ⟨"LOCKED", 3, 1, .ro, 0, false, .a⟩, ⟨"MAKER", 4, 1, .ro, 0, false, .a⟩]⟩] ++
  [⟨"GH_LOCK", 0x10008, [], false, .plain,
     [⟨"HARD", 0, 1, .w1s, 0, false, .d⟩]⟩] ++
  [⟨"GH_SV_DENY_CNT", 0x1000C, [], false, .plain,
     [⟨"COUNT", 0, 32, .rw, 0, false, .c⟩]⟩] ++
  [⟨"GH_UID", 0x10010, [(4, 0x4)], false, .plain,
     [⟨"UID", 0, 32, .ro, 0, false, .a⟩]⟩] ++
  [⟨"GH_OTP_CNT", 0x10020, [], false, .plain,
     [⟨"COUNT", 0, 32, .ro, 0, false, .a⟩]⟩] ++
  [⟨"GH_IKH_CTRL", 0x10024, [], false, .plain,
     [⟨"PROGRAM", 0, 1, .w1s, 0, false, .d⟩]⟩] ++
  [⟨"GH_IKH", 0x10040, [(8, 0x4)], false, .plain,
     [⟨"HASH", 0, 32, .wo, 0, false, .e⟩]⟩] ++
  [⟨"GH_CFG_CTRL", 0x10060, [], false, .plain,
     [⟨"GO", 0, 1, .w1s, 0, false, .d⟩]⟩] ++
  [⟨"GH_CFG_STAT", 0x10064, [], false, .plain,
     [⟨"BUSY", 0, 1, .ro, 0, false, .a⟩, ⟨"TORN", 1, 1, .w1c, 0, false, .b⟩]⟩] ++
  [⟨"GH_CFG_CRC", 0x10068, [], false, .plain,
     [⟨"CRC", 0, 32, .ro, 0, false, .a⟩]⟩] ++
  [⟨"GH_CFG_REF", 0x1006C, [], false, .plain,
     [⟨"CRC", 0, 32, .ro, 0, false, .a⟩]⟩] ++
  [⟨"GH_LED_STAT", 0x10080, [], false, .plain,
     [⟨"BROKEN", 0, 1, .ro, 0, false, .a⟩, ⟨"ROLLBACK", 1, 1, .ro, 0, false, .a⟩, ⟨"FLASH1", 2, 1, .ro, 0, false, .a⟩, ⟨"QUEUED", 8, 7, .ro, 0, false, .a⟩]⟩] ++
  [⟨"GH_LED_HEAD", 0x10084, [], false, .plain,
     [⟨"SEQ", 0, 32, .ro, 0, false, .a⟩]⟩] ++
  [⟨"GH_LED_DROP", 0x10088, [], false, .plain,
     [⟨"COUNT", 0, 32, .rw, 0, false, .c⟩]⟩] ++
  [⟨"GH_SES_CTRL", 0x10100, [], false, .plain,
     [⟨"OP", 0, 2, .rw, 0, false, .d⟩]⟩] ++
  [⟨"GH_SES_STAT", 0x10104, [], false, .plain,
     [⟨"STATE", 0, 2, .ro, 0, false, .a⟩, ⟨"RESULT", 4, 4, .ro, 0, false, .a⟩, ⟨"FAILS", 8, 8, .ro, 0, false, .a⟩, ⟨"RIGHTS", 16, 7, .ro, 0, false, .a⟩]⟩] ++
  [⟨"GH_SES_CFG", 0x10108, [], true, .plain,
     [⟨"IDLE_S", 0, 16, .rw, 0x3c, true, .a⟩]⟩] ++
  [⟨"GH_SES_RIGHTS", 0x1010C, [], false, .plain,
     [⟨"RIGHTS", 0, 7, .rw, 0, false, .a⟩]⟩] ++
  [⟨"GH_SES_KEY", 0x10140, [(16, 0x4)], false, .plain,
     [⟨"KEY", 0, 32, .rw, 0, false, .a⟩]⟩] ++
  [⟨"GH_SES_NONCE", 0x10180, [(8, 0x4)], false, .plain,
     [⟨"NONCE", 0, 32, .ro, 0, false, .a⟩]⟩] ++
  [⟨"GH_SES_SIG", 0x101C0, [(16, 0x4)], false, .plain,
     [⟨"SIG", 0, 32, .rw, 0, false, .a⟩]⟩] ++
  [⟨"GH_TOK_CTRL", 0x10200, [], false, .plain,
     [⟨"SUBMIT", 0, 1, .w1s, 0, false, .d⟩, ⟨"END", 1, 1, .w1s, 0, false, .d⟩]⟩] ++
  [⟨"GH_TOK_STAT", 0x10204, [], false, .plain,
     [⟨"SCOPE", 0, 2, .ro, 0, false, .a⟩, ⟨"RESULT", 4, 4, .ro, 0, false, .a⟩, ⟨"LEFT_S", 16, 16, .ro, 0, false, .a⟩]⟩] ++
  [⟨"GH_TOK_DATA", 0x10240, [(24, 0x4)], false, .plain,
     [⟨"DATA", 0, 32, .rw, 0, false, .a⟩]⟩]

/-- The registers of the block at 0x100000. -/
def tlRows : List RegRow :=
  [⟨"TL_CTRL", 0x100000, [(16, 0x1000)], true, .plain,
     [⟨"EN", 0, 1, .rwp, 0, true, .f⟩, ⟨"ADAPTIVE", 1, 1, .rwp, 0, true, .f⟩, ⟨"GENLOCK", 2, 1, .rwp, 0, true, .f⟩, ⟨"LEGACY_ARITH", 3, 1, .rwp, 0, true, .f⟩, ⟨"DEPTH", 4, 2, .rwp, 1, true, .f⟩]⟩] ++
  [⟨"TL_HTIME", 0x100004, [(16, 0x1000)], true, .plain,
     [⟨"HACTIVE", 0, 15, .rwp, 0, true, .f⟩, ⟨"HTOTAL", 16, 15, .rwp, 0, true, .f⟩]⟩] ++
  [⟨"TL_HSYNC", 0x100008, [(16, 0x1000)], true, .plain,
     [⟨"START", 0, 15, .rwp, 0, true, .f⟩, ⟨"WIDTH", 16, 14, .rwp, 0, true, .f⟩, ⟨"POL", 31, 1, .rwp, 0, true, .f⟩]⟩] ++
  [⟨"TL_VTIME", 0x10000C, [(16, 0x1000)], true, .plain,
     [⟨"VACTIVE", 0, 15, .rwp, 0, true, .f⟩, ⟨"VTOTAL", 16, 15, .rwp, 0, true, .f⟩]⟩] ++
  [⟨"TL_VSYNC", 0x100010, [(16, 0x1000)], true, .plain,
     [⟨"START", 0, 15, .rwp, 0, true, .f⟩, ⟨"WIDTH", 16, 8, .rwp, 0, true, .f⟩, ⟨"POL", 31, 1, .rwp, 0, true, .f⟩]⟩] ++
  [⟨"TL_PCLK", 0x100014, [(16, 0x1000)], true, .plain,
     [⟨"KHZ", 0, 22, .rwp, 0, true, .f⟩]⟩] ++
  [⟨"TL_LATCH", 0x100018, [(16, 0x1000)], true, .plain,
     [⟨"LINE", 0, 15, .rwp, 0, true, .f⟩, ⟨"EARLY", 16, 5, .ro, 0, false, .a⟩, ⟨"SPEC", 24, 1, .ro, 0, false, .a⟩]⟩] ++
  [⟨"TL_AS", 0x10001C, [(16, 0x1000)], true, .plain,
     [⟨"VTOTAL_MAX", 0, 15, .rwp, 0, true, .f⟩, ⟨"TAIL", 16, 7, .rwp, 0x10, true, .f⟩]⟩] ++
  [⟨"TL_GENLOCK", 0x100020, [(16, 0x1000)], true, .plain,
     [⟨"SRC", 0, 5, .rwp, 0, true, .f⟩, ⟨"OFFSET", 16, 15, .rwp, 0, true, .f⟩, ⟨"LOCKED", 31, 1, .ro, 0, false, .a⟩]⟩] ++
  [⟨"TL_OUT", 0x100024, [(16, 0x1000)], true, .plain,
     [⟨"MODE", 0, 2, .rwp, 0, true, .f⟩, ⟨"LINK0", 8, 6, .rwp, 0, true, .f⟩, ⟨"LINK1", 16, 6, .rwp, 0, true, .f⟩, ⟨"STREAM", 24, 2, .rwp, 0, true, .f⟩]⟩] ++
  [⟨"TL_PSEQ", 0x100028, [(16, 0x1000)], true, .plain,
     [⟨"T_PON", 0, 8, .rwp, 0xa, true, .f⟩, ⟨"T_BLON", 8, 8, .rwp, 0xa, true, .f⟩, ⟨"T_BLOFF", 16, 8, .rwp, 0x14, true, .f⟩, ⟨"T_VOFF", 24, 8, .rwp, 0xa, true, .f⟩]⟩] ++
  [⟨"TL_BL", 0x10002C, [(16, 0x1000)], true, .plain,
     [⟨"DUTY", 0, 16, .rwp, 0, false, .f⟩, ⟨"PWM_HZ", 16, 16, .rwp, 0xc8, true, .f⟩]⟩] ++
  [⟨"TL_RSEAT", 0x100030, [(16, 0x1000)], false, .plain,
     [⟨"GO", 0, 1, .w1s, 0, true, .d⟩, ⟨"BUSY", 1, 1, .ro, 0, false, .a⟩, ⟨"STATUS", 8, 4, .ro, 0, false, .a⟩]⟩] ++
  [⟨"TL_FRAME", 0x100034, [(16, 0x1000)], false, .plain,
     [⟨"FRAME", 0, 32, .ro, 0, false, .a⟩]⟩] ++
  [⟨"TL_POS", 0x100038, [(16, 0x1000)], false, .plain,
     [⟨"LINE", 0, 15, .ro, 0, false, .a⟩]⟩] ++
  [⟨"TL_STAT", 0x10003C, [(16, 0x1000)], false, .plain,
     [⟨"LINK_UP", 0, 1, .ro, 0, false, .a⟩, ⟨"LINKLOSS", 1, 1, .w1c, 0, false, .b⟩, ⟨"GL_LOST", 2, 1, .w1c, 0, false, .b⟩, ⟨"AS_CLAMP", 3, 1, .w1c, 0, false, .b⟩, ⟨"WR_LOST", 4, 1, .w1c, 0, false, .b⟩, ⟨"BUSY", 5, 1, .ro, 0, false, .a⟩, ⟨"RETRAIN_CNT", 16, 16, .rw, 0, false, .c⟩]⟩] ++
  [⟨"TL_POFF", 0x100040, [(16, 0x1000)], true, .plain,
     [⟨"T_POFF", 0, 12, .rwp, 0x1f4, true, .f⟩]⟩] ++
  [⟨"TL_HTIME_SH", 0x100804, [(16, 0x1000)], false, .shadow,
     [⟨"HACTIVE", 0, 15, .rwp, 0, true, .f⟩, ⟨"HTOTAL", 16, 15, .rwp, 0, true, .f⟩]⟩] ++
  [⟨"TL_HSYNC_SH", 0x100808, [(16, 0x1000)], false, .shadow,
     [⟨"START", 0, 15, .rwp, 0, true, .f⟩, ⟨"WIDTH", 16, 14, .rwp, 0, true, .f⟩, ⟨"POL", 31, 1, .rwp, 0, true, .f⟩]⟩] ++
  [⟨"TL_VTIME_SH", 0x10080C, [(16, 0x1000)], false, .shadow,
     [⟨"VACTIVE", 0, 15, .rwp, 0, true, .f⟩, ⟨"VTOTAL", 16, 15, .rwp, 0, true, .f⟩]⟩] ++
  [⟨"TL_VSYNC_SH", 0x100810, [(16, 0x1000)], false, .shadow,
     [⟨"START", 0, 15, .rwp, 0, true, .f⟩, ⟨"WIDTH", 16, 8, .rwp, 0, true, .f⟩, ⟨"POL", 31, 1, .rwp, 0, true, .f⟩]⟩] ++
  [⟨"TL_PCLK_SH", 0x100814, [(16, 0x1000)], false, .shadow,
     [⟨"KHZ", 0, 22, .rwp, 0, true, .f⟩]⟩] ++
  [⟨"TL_LATCH_SH", 0x100818, [(16, 0x1000)], false, .shadow,
     [⟨"LINE", 0, 15, .rwp, 0, true, .f⟩, ⟨"EARLY", 16, 5, .ro, 0, false, .a⟩, ⟨"SPEC", 24, 1, .ro, 0, false, .a⟩]⟩] ++
  [⟨"TL_AS_SH", 0x10081C, [(16, 0x1000)], false, .shadow,
     [⟨"VTOTAL_MAX", 0, 15, .rwp, 0, true, .f⟩, ⟨"TAIL", 16, 7, .rwp, 0x10, true, .f⟩]⟩] ++
  [⟨"TL_GENLOCK_SH", 0x100820, [(16, 0x1000)], false, .shadow,
     [⟨"SRC", 0, 5, .rwp, 0, true, .f⟩, ⟨"OFFSET", 16, 15, .rwp, 0, true, .f⟩, ⟨"LOCKED", 31, 1, .ro, 0, false, .a⟩]⟩] ++
  [⟨"TL_OUT_SH", 0x100824, [(16, 0x1000)], false, .shadow,
     [⟨"MODE", 0, 2, .rwp, 0, true, .f⟩, ⟨"LINK0", 8, 6, .rwp, 0, true, .f⟩, ⟨"LINK1", 16, 6, .rwp, 0, true, .f⟩, ⟨"STREAM", 24, 2, .rwp, 0, true, .f⟩]⟩]

/-- The registers of the block at 0x200000. -/
def pvRows : List RegRow :=
  [⟨"PV_BG_RG", 0x200010, [(8, 0x1000), (2, 0x8)], false, .banked,
     [⟨"R", 0, 12, .rwp, 0, false, .f⟩, ⟨"G", 16, 12, .rwp, 0, false, .f⟩]⟩] ++
  [⟨"PV_BG_B", 0x200014, [(8, 0x1000), (2, 0x8)], false, .banked,
     [⟨"B", 0, 12, .rwp, 0, false, .f⟩]⟩] ++
  [⟨"PV_GSTAT", 0x200200, [(8, 0x1000)], false, .plain,
     [⟨"BUSY0", 0, 1, .ro, 0, false, .a⟩, ⟨"BUSY1", 8, 1, .ro, 0, false, .a⟩, ⟨"WR_LOST0", 1, 1, .w1c, 0, false, .b⟩, ⟨"WR_LOST1", 9, 1, .w1c, 0, false, .b⟩, ⟨"SEALED_WR0", 2, 1, .w1c, 0, false, .b⟩, ⟨"SEALED_WR1", 10, 1, .w1c, 0, false, .b⟩, ⟨"SEALED0", 3, 1, .ro, 0, false, .a⟩, ⟨"SEALED1", 11, 1, .ro, 0, false, .a⟩]⟩] ++
  [⟨"PV_SEAL", 0x200204, [(8, 0x1000), (2, 0x4)], false, .plain,
     [⟨"SEAL", 0, 1, .w1s, 0, false, .d⟩, ⟨"CODE", 8, 8, .ro, 0, false, .a⟩, ⟨"GEN", 16, 16, .ro, 0, false, .a⟩]⟩] ++
  [⟨"PV_CBANK_CRC", 0x200240, [(8, 0x1000), (8, 0x4)], false, .plain,
     [⟨"CRC", 0, 32, .ro, 0, false, .a⟩]⟩]

/-- The registers of the block at 0x210000. -/
def lyRows : List RegRow :=
  [⟨"LY_CTRL", 0x210000, [(96, 0x400)], true, .banked,
     [⟨"EN", 0, 1, .rwp, 0, false, .f⟩, ⟨"TL", 1, 1, .rwp, 0, true, .f⟩, ⟨"XFORM", 4, 2, .rwp, 0, false, .f⟩]⟩] ++
  [⟨"LY_SURF", 0x210004, [(96, 0x400)], false, .banked,
     [⟨"HANDLE", 0, 32, .rwp, 0xffffffff, false, .f⟩]⟩] ++
  [⟨"LY_SRC_XY", 0x210008, [(96, 0x400)], false, .banked,
     [⟨"X", 0, 14, .rwp, 0, false, .f⟩, ⟨"Y", 16, 14, .rwp, 0, false, .f⟩]⟩] ++
  [⟨"LY_SRC_WH", 0x21000C, [(96, 0x400)], false, .banked,
     [⟨"W", 0, 15, .rwp, 0, false, .f⟩, ⟨"H", 16, 15, .rwp, 0, false, .f⟩]⟩] ++
  [⟨"LY_DST_XY", 0x210010, [(96, 0x400)], false, .banked,
     [⟨"X", 0, 16, .rwp, 0, false, .f⟩, ⟨"Y", 16, 16, .rwp, 0, false, .f⟩]⟩] ++
  [⟨"LY_DST_WH", 0x210014, [(96, 0x400)], false, .banked,
     [⟨"W", 0, 15, .rwp, 0, false, .f⟩, ⟨"H", 16, 15, .rwp, 0, false, .f⟩]⟩] ++
  [⟨"LY_BLEND", 0x210018, [(96, 0x400)], false, .banked,
     [⟨"AMODE", 0, 2, .rwp, 0, false, .f⟩, ⟨"Z", 4, 4, .rwp, 0, false, .f⟩, ⟨"GALPHA", 16, 12, .rwp, 0xfff, false, .f⟩]⟩] ++
  [⟨"LY_SCALE", 0x21001C, [(96, 0x400)], false, .banked,
     [⟨"HBANK", 0, 3, .rwp, 0, false, .f⟩, ⟨"VBANK", 4, 3, .rwp, 0, false, .f⟩, ⟨"VTAPS", 8, 2, .rwp, 0, false, .f⟩, ⟨"TAPFALL", 12, 1, .rwp, 0, false, .f⟩]⟩] ++
  [⟨"LY_CSC", 0x210020, [(96, 0x400)], false, .banked,
     [⟨"CM_EN", 0, 1, .rwp, 0, false, .f⟩, ⟨"CHROMA", 1, 1, .rwp, 0, false, .f⟩]⟩] ++
  [⟨"LY_CM0", 0x210024, [(96, 0x400)], false, .banked,
     [⟨"M00", 0, 16, .rwp, 0, false, .f⟩, ⟨"M01", 16, 16, .rwp, 0, false, .f⟩]⟩] ++
  [⟨"LY_CM1", 0x210028, [(96, 0x400)], false, .banked,
     [⟨"M02", 0, 16, .rwp, 0, false, .f⟩, ⟨"M10", 16, 16, .rwp, 0, false, .f⟩]⟩] ++
  [⟨"LY_CM2", 0x21002C, [(96, 0x400)], false, .banked,
     [⟨"M11", 0, 16, .rwp, 0, false, .f⟩, ⟨"M12", 16, 16, .rwp, 0, false, .f⟩]⟩] ++
  [⟨"LY_CM3", 0x210030, [(96, 0x400)], false, .banked,
     [⟨"M20", 0, 16, .rwp, 0, false, .f⟩, ⟨"M21", 16, 16, .rwp, 0, false, .f⟩]⟩] ++
  [⟨"LY_CM4", 0x210034, [(96, 0x400)], false, .banked,
     [⟨"M22", 0, 16, .rwp, 0, false, .f⟩, ⟨"OFF2", 16, 14, .rwp, 0, false, .f⟩]⟩] ++
  [⟨"LY_CM5", 0x210038, [(96, 0x400)], false, .banked,
     [⟨"OFF0", 0, 14, .rwp, 0, false, .f⟩, ⟨"OFF1", 16, 14, .rwp, 0, false, .f⟩]⟩] ++
  [⟨"LY_HSTEP", 0x210040, [(96, 0x400)], false, .banked,
     [⟨"STEP", 0, 32, .ro, 0, false, .a⟩]⟩] ++
  [⟨"LY_VSTEP", 0x210044, [(96, 0x400)], false, .banked,
     [⟨"STEP", 0, 32, .ro, 0, false, .a⟩]⟩] ++
  [⟨"LY_SSTAT", 0x210048, [(96, 0x400)], false, .banked,
     [⟨"VTAPS_EFF", 0, 2, .ro, 0, false, .a⟩, ⟨"HBYP", 4, 1, .ro, 0, false, .a⟩, ⟨"VBYP", 5, 1, .ro, 0, false, .a⟩]⟩] ++
  [⟨"LY_POLICY", 0x21004C, [(96, 0x400)], false, .banked,
     [⟨"SUBST", 0, 2, .rwp, 0, false, .f⟩, ⟨"BESTEFF", 2, 1, .rwp, 0, false, .f⟩, ⟨"RACE", 3, 1, .rwp, 0, false, .f⟩, ⟨"RACE_SRC", 4, 5, .rwp, 0, false, .f⟩, ⟨"TIDE", 9, 1, .rwp, 0, false, .f⟩, ⟨"QUIET", 10, 1, .rwp, 0, false, .f⟩]⟩] ++
  [⟨"LY_SUBST_RG", 0x210050, [(96, 0x400)], false, .banked,
     [⟨"R", 0, 12, .rwp, 0, false, .f⟩, ⟨"G", 16, 12, .rwp, 0, false, .f⟩]⟩] ++
  [⟨"LY_SUBST_BA", 0x210054, [(96, 0x400)], false, .banked,
     [⟨"B", 0, 12, .rwp, 0, false, .f⟩, ⟨"A", 16, 12, .rwp, 0, false, .f⟩]⟩] ++
  [⟨"LY_FCT_STAT", 0x2103C0, [(96, 0x400)], false, .plain,
     [⟨"BAD", 0, 1, .w1c, 0, false, .b⟩, ⟨"BUDGET", 1, 1, .w1c, 0, false, .b⟩, ⟨"UNDER", 2, 1, .w1c, 0, false, .b⟩, ⟨"CAUSE", 4, 4, .ro, 0, false, .a⟩]⟩] ++
  [⟨"LY_FCT_BADCNT", 0x2103C4, [(96, 0x400)], false, .plain,
     [⟨"COUNT", 0, 32, .rw, 0, false, .c⟩]⟩] ++
  [⟨"LY_FCT_BAND", 0x2103C8, [(96, 0x400)], false, .plain,
     [⟨"MAXBYTES", 0, 17, .ro, 0, false, .a⟩]⟩] ++
  [⟨"LY_LATE_STAT", 0x2103D0, [(96, 0x400)], false, .plain,
     [⟨"LATE", 0, 1, .w1c, 0, false, .b⟩, ⟨"BADDATA", 1, 1, .w1c, 0, false, .b⟩, ⟨"RACE", 2, 1, .w1c, 0, false, .b⟩, ⟨"TEAR", 3, 1, .w1c, 0, false, .b⟩, ⟨"CAUSE", 4, 4, .ro, 0, false, .a⟩]⟩] ++
  [⟨"LY_LATE_CNT", 0x2103D4, [(96, 0x400)], false, .plain,
     [⟨"COUNT", 0, 32, .rw, 0, false, .c⟩]⟩] ++
  [⟨"LY_RACE_STAT", 0x2103D8, [(96, 0x400)], false, .plain,
     [⟨"BUF", 0, 3, .ro, 0, false, .a⟩, ⟨"MINLEAD", 16, 16, .ro, 0, false, .a⟩]⟩] ++
  [⟨"LY_GSTAT", 0x2103E0, [(96, 0x400)], false, .plain,
     [⟨"BUSY", 0, 1, .ro, 0, false, .a⟩, ⟨"WR_LOST", 1, 1, .w1c, 0, false, .b⟩, ⟨"SEALED_WR", 2, 1, .w1c, 0, false, .b⟩]⟩]

/-- The registers of the block at 0x400000. -/
def fnRows : List RegRow :=
  [⟨"FN_CTRL", 0x400000, [(16, 0x1000)], true, .plain,
     [⟨"CM_EN", 0, 1, .rwp, 0, true, .f⟩, ⟨"LUT_EN", 1, 1, .ro, 0, false, .a⟩, ⟨"DITHER", 2, 2, .rwp, 0, true, .f⟩]⟩] ++
  [⟨"FN_HOLD", 0x400004, [(16, 0x1000)], true, .plain,
     [⟨"HANDLE", 0, 32, .rwp, 0xffffffff, true, .f⟩]⟩] ++
  [⟨"FN_FALLBACK_RG", 0x400008, [(16, 0x1000)], true, .plain,
     [⟨"R", 0, 12, .rwp, 0, true, .f⟩, ⟨"G", 16, 12, .rwp, 0, true, .f⟩]⟩] ++
  [⟨"FN_FALLBACK_B", 0x40000C, [(16, 0x1000)], true, .plain,
     [⟨"B", 0, 12, .rwp, 0, true, .f⟩]⟩] ++
  [⟨"FN_OCM0", 0x400010, [(16, 0x1000)], true, .plain,
     [⟨"M00", 0, 16, .rwp, 0, true, .f⟩, ⟨"M01", 16, 16, .rwp, 0, true, .f⟩]⟩] ++
  [⟨"FN_OCM1", 0x400014, [(16, 0x1000)], true, .plain,
     [⟨"M02", 0, 16, .rwp, 0, true, .f⟩, ⟨"M10", 16, 16, .rwp, 0, true, .f⟩]⟩] ++
  [⟨"FN_OCM2", 0x400018, [(16, 0x1000)], true, .plain,
     [⟨"M11", 0, 16, .rwp, 0, true, .f⟩, ⟨"M12", 16, 16, .rwp, 0, true, .f⟩]⟩] ++
  [⟨"FN_OCM3", 0x40001C, [(16, 0x1000)], true, .plain,
     [⟨"M20", 0, 16, .rwp, 0, true, .f⟩, ⟨"M21", 16, 16, .rwp, 0, true, .f⟩]⟩] ++
  [⟨"FN_OCM4", 0x400020, [(16, 0x1000)], true, .plain,
     [⟨"M22", 0, 16, .rwp, 0, true, .f⟩, ⟨"OFF2", 16, 14, .rwp, 0, true, .f⟩]⟩] ++
  [⟨"FN_OCM5", 0x400024, [(16, 0x1000)], true, .plain,
     [⟨"OFF0", 0, 14, .rwp, 0, true, .f⟩, ⟨"OFF1", 16, 14, .rwp, 0, true, .f⟩]⟩] ++
  [⟨"FN_LUT_CRC", 0x400030, [(16, 0x1000)], false, .plain,
     [⟨"CRC", 0, 32, .ro, 0, false, .a⟩]⟩] ++
  [⟨"FN_STAT", 0x400040, [(16, 0x1000)], false, .plain,
     [⟨"HOLDING", 0, 1, .ro, 0, false, .a⟩, ⟨"HELD", 1, 1, .w1c, 0, false, .b⟩, ⟨"BADHOLD", 2, 1, .w1c, 0, false, .b⟩]⟩] ++
  [⟨"FN_HELD_CNT", 0x400044, [(16, 0x1000)], false, .plain,
     [⟨"COUNT", 0, 32, .rw, 0, false, .c⟩]⟩] ++
  [⟨"FN_DSC", 0x4000C0, [(16, 0x1000)], true, .plain,
     [⟨"EN", 0, 1, .rwp, 0, true, .f⟩, ⟨"SLICES", 1, 3, .rwp, 0, true, .f⟩, ⟨"BPP_X16", 4, 10, .rwp, 0, true, .f⟩, ⟨"SLICE_H", 16, 14, .rwp, 0, true, .f⟩]⟩]

/-- The registers of the block at 0x410000. -/
def wbRows : List RegRow :=
  [⟨"WB_CTRL", 0x410000, [(4, 0x100)], false, .plain,
     [⟨"EN", 0, 1, .rw, 0, false, .a⟩, ⟨"TL", 1, 4, .rw, 0, false, .a⟩, ⟨"COUNT", 8, 2, .rw, 0, false, .a⟩, ⟨"FMT", 10, 1, .rw, 0, false, .a⟩]⟩] ++
  [⟨"WB_SURF", 0x410010, [(4, 0x100), (4, 0x4)], false, .plain,
     [⟨"HANDLE", 0, 32, .rw, 0, false, .a⟩]⟩] ++
  [⟨"WB_REL", 0x410020, [(4, 0x100)], false, .plain,
     [⟨"FREE", 0, 4, .w1s, 0, false, .d⟩]⟩] ++
  [⟨"WB_STAT", 0x410024, [(4, 0x100)], false, .plain,
     [⟨"LAST", 0, 2, .ro, 0, false, .a⟩, ⟨"SKIP_CNT", 16, 16, .rw, 0, false, .c⟩]⟩]

/-- The registers of the block at 0x440000. -/
def bzRows : List RegRow :=
  [⟨"BZ_PSEL", 0x440000, [(16, 0x4000)], true, .plain,
     [⟨"INDEX", 0, 4, .rwp, 0, false, .f⟩, ⟨"SRC", 4, 1, .rwp, 0, true, .f⟩, ⟨"STALE_PRESET", 8, 4, .rwp, 0, true, .f⟩, ⟨"SIGNAL", 16, 9, .rwp, 0, true, .f⟩]⟩] ++
  [⟨"BZ_STAT", 0x440004, [(16, 0x4000)], false, .plain,
     [⟨"CMP", 0, 1, .w1c, 0, false, .b⟩, ⟨"ECC", 1, 1, .w1c, 0, false, .b⟩, ⟨"PSTALE", 2, 1, .ro, 0, false, .a⟩, ⟨"CUR", 8, 4, .ro, 0, false, .a⟩, ⟨"CURVALID", 12, 1, .ro, 0, false, .a⟩]⟩] ++
  [⟨"BZ_CMP_CNT", 0x440008, [(16, 0x4000)], false, .plain,
     [⟨"COUNT", 0, 32, .rw, 0, false, .c⟩]⟩] ++
  [⟨"BZ_ECC_CNT", 0x44000C, [(16, 0x4000)], false, .plain,
     [⟨"CORR", 0, 16, .rw, 0, false, .c⟩, ⟨"UNCORR", 16, 16, .rw, 0, false, .c⟩]⟩] ++
  [⟨"BZ_DISP", 0x441000, [(16, 0x4000), (256, 0x4)], false, .plain,
     [⟨"CODE", 0, 24, .ro, 0, false, .a⟩, ⟨"STATE", 24, 2, .ro, 0, false, .a⟩, ⟨"STALE", 30, 1, .ro, 0, false, .a⟩, ⟨"SHOWN", 31, 1, .ro, 0, false, .a⟩]⟩] ++
  [⟨"BZ_I_CTRL", 0x442000, [(16, 0x4000), (256, 0x20)], true, .plain,
     [⟨"EN", 0, 1, .rwp, 0, true, .f⟩, ⟨"KIND", 1, 2, .rwp, 0, true, .f⟩, ⟨"STALE_MODE", 3, 1, .rwp, 0, true, .f⟩, ⟨"BLINK_HZ", 4, 3, .rwp, 0, true, .f⟩, ⟨"SIGNAL", 16, 9, .rwp, 0, true, .f⟩]⟩] ++
  [⟨"BZ_I_POS", 0x442004, [(16, 0x4000), (256, 0x20)], true, .plain,
     [⟨"X", 0, 16, .rwp, 0, true, .f⟩, ⟨"Y", 16, 16, .rwp, 0, true, .f⟩]⟩] ++
  [⟨"BZ_I_IMG", 0x442008, [(16, 0x4000), (256, 0x20)], true, .plain,
     [⟨"IMAGE", 0, 10, .rwp, 0, true, .f⟩]⟩] ++
  [⟨"BZ_I_COL_RG", 0x44200C, [(16, 0x4000), (256, 0x20)], true, .plain,
     [⟨"R", 0, 12, .rwp, 0, true, .f⟩, ⟨"G", 16, 12, .rwp, 0, true, .f⟩]⟩] ++
  [⟨"BZ_I_COL_B", 0x442010, [(16, 0x4000), (256, 0x20)], true, .plain,
     [⟨"B", 0, 12, .rwp, 0, true, .f⟩]⟩] ++
  [⟨"BZ_I_P0", 0x442014, [(16, 0x4000), (256, 0x20)], true, .plain,
     [⟨"P0", 0, 16, .rwp, 0, true, .f⟩]⟩] ++
  [⟨"BZ_I_P1", 0x442018, [(16, 0x4000), (256, 0x20)], true, .plain,
     [⟨"OFFS", 0, 32, .rwp, 0, true, .f⟩]⟩] ++
  [⟨"BZ_I_P2", 0x44201C, [(16, 0x4000), (256, 0x20)], true, .plain,
     [⟨"MULT", 0, 32, .rwp, 0, true, .f⟩]⟩]

/-- The registers of the block at 0x480000. -/
def wtRows : List RegRow :=
  [⟨"WT_CTRL", 0x480000, [(16, 0x400), (32, 0x20)], true, .plain,
     [⟨"EN", 0, 1, .rwp, 0, true, .f⟩, ⟨"MODE", 1, 2, .rwp, 0, true, .f⟩, ⟨"SAFETY", 3, 1, .rwp, 0, true, .f⟩, ⟨"FROZEN_N", 8, 8, .rwp, 0, true, .f⟩, ⟨"TABLE", 16, 10, .rwp, 0, true, .f⟩, ⟨"NKEY", 28, 3, .rwp, 0, true, .f⟩]⟩] ++
  [⟨"WT_XY", 0x480004, [(16, 0x400), (32, 0x20)], true, .plain,
     [⟨"X", 0, 13, .rwp, 0, true, .f⟩, ⟨"Y", 16, 13, .rwp, 0, true, .f⟩]⟩] ++
  [⟨"WT_WH", 0x480008, [(16, 0x400), (32, 0x20)], true, .plain,
     [⟨"W", 0, 14, .rwp, 0, true, .f⟩, ⟨"H", 16, 14, .rwp, 0, true, .f⟩]⟩] ++
  [⟨"WT_KEYS", 0x48000C, [(16, 0x400), (32, 0x20)], true, .plain,
     [⟨"KEYINST", 0, 32, .rwp, 0, true, .f⟩]⟩] ++
  [⟨"WT_LAST", 0x480010, [(16, 0x400), (32, 0x20)], false, .plain,
     [⟨"CRC", 0, 32, .ro, 0, false, .a⟩]⟩] ++
  [⟨"WT_LKEY", 0x480014, [(16, 0x400), (32, 0x20)], false, .plain,
     [⟨"KEY", 0, 32, .ro, 0, false, .a⟩]⟩] ++
  [⟨"WT_STAT", 0x480018, [(16, 0x400), (32, 0x20)], false, .plain,
     [⟨"MISMATCH", 0, 1, .ro, 0, false, .a⟩, ⟨"SEEN", 1, 1, .w1c, 0, false, .b⟩, ⟨"KIND", 4, 4, .ro, 0, false, .a⟩]⟩] ++
  [⟨"WT_MM_CNT", 0x48001C, [(16, 0x400), (32, 0x20)], false, .plain,
     [⟨"COUNT", 0, 32, .rw, 0, false, .c⟩]⟩] ++
  [⟨"WT_FAULT", 0x4C0000, [], false, .plain,
     [⟨"FAULT", 0, 1, .ro, 0, false, .a⟩, ⟨"STARTUP", 1, 1, .ro, 1, false, .a⟩, ⟨"WATCH", 8, 1, .w1c, 0, false, .b⟩, ⟨"LINK", 9, 1, .w1c, 0, false, .b⟩, ⟨"BEZEL", 10, 1, .w1c, 0, false, .b⟩, ⟨"SINK", 11, 1, .w1c, 0, false, .b⟩, ⟨"HB", 12, 1, .w1c, 0, false, .b⟩]⟩] ++
  [⟨"WT_FTL", 0x4C0004, [], false, .plain,
     [⟨"TL", 0, 16, .w1c, 0, false, .b⟩]⟩] ++
  [⟨"WT_FCTRL", 0x4C0008, [], true, .plain,
     [⟨"AUTOREL", 0, 1, .rw, 0, true, .a⟩]⟩] ++
  [⟨"WT_FCNT", 0x4C000C, [], false, .plain,
     [⟨"COUNT", 0, 32, .rw, 0, false, .c⟩]⟩] ++
  [⟨"WT_SINK_CTRL", 0x4C0100, [(16, 0x8)], true, .plain,
     [⟨"MODE", 0, 2, .rw, 0, true, .a⟩, ⟨"PERIOD", 8, 8, .rw, 4, true, .a⟩]⟩] ++
  [⟨"WT_SINK_STAT", 0x4C0104, [(16, 0x8)], false, .plain,
     [⟨"ACTIVE", 0, 1, .ro, 0, false, .a⟩, ⟨"MISMATCH", 1, 1, .w1c, 0, false, .b⟩, ⟨"CNT", 16, 16, .rw, 0, false, .c⟩]⟩]

/-- The registers of the block at 0x500000. -/
def adRows : List RegRow :=
  [⟨"AD_CFG", 0x500000, [], true, .plain,
     [⟨"LAT_NS", 0, 16, .rwp, 0x4b0, true, .f⟩, ⟨"URGENT_NS", 16, 16, .rwp, 0x7d0, true, .f⟩]⟩] ++
  [⟨"AD_CFG2", 0x500004, [], true, .plain,
     [⟨"MAINT_PM", 0, 8, .rwp, 0xa, true, .f⟩, ⟨"IG_LEAD", 8, 4, .rwp, 2, true, .f⟩, ⟨"SPEC_EN", 16, 1, .rwp, 1, true, .f⟩]⟩] ++
  [⟨"AD_SVC", 0x500008, [], false, .plain,
     [⟨"SVC", 0, 32, .ro, 0, false, .a⟩]⟩] ++
  [⟨"AD_RESV", 0x50000C, [], false, .plain,
     [⟨"RES", 0, 32, .ro, 0, false, .a⟩]⟩] ++
  [⟨"AD_DEM", 0x500010, [], false, .plain,
     [⟨"DEM", 0, 32, .ro, 0, false, .a⟩]⟩] ++
  [⟨"AD_ODEM", 0x500014, [], false, .plain,
     [⟨"ODEM", 0, 32, .ro, 0, false, .a⟩]⟩] ++
  [⟨"AD_LAST", 0x500018, [], false, .plain,
     [⟨"CODE", 0, 8, .ro, 0, false, .a⟩, ⟨"TL", 8, 4, .ro, 0, false, .a⟩, ⟨"VALID", 12, 1, .ro, 0, false, .a⟩, ⟨"BUSY", 13, 1, .ro, 0, false, .a⟩, ⟨"WR_LOST", 14, 1, .w1c, 0, false, .b⟩]⟩] ++
  [⟨"AD_SHORT", 0x50001C, [], false, .plain,
     [⟨"SHORT", 0, 32, .ro, 0, false, .a⟩]⟩] ++
  [⟨"AD_ACC_CNT", 0x500020, [], false, .plain,
     [⟨"COUNT", 0, 32, .rw, 0, false, .c⟩]⟩] ++
  [⟨"AD_REF_CNT", 0x500024, [], false, .plain,
     [⟨"COUNT", 0, 32, .rw, 0, false, .c⟩]⟩] ++
  [⟨"AD_TL_RATE", 0x500100, [(16, 0x20)], false, .plain,
     [⟨"RATE", 0, 32, .ro, 0, false, .a⟩]⟩] ++
  [⟨"AD_TL_RES", 0x500104, [(16, 0x20)], false, .plain,
     [⟨"RES", 0, 32, .ro, 0, false, .a⟩]⟩] ++
  [⟨"AD_TL_MODE", 0x500108, [(16, 0x20)], false, .plain,
     [⟨"SPEC_N", 0, 5, .ro, 0, false, .a⟩, ⟨"SPEC", 8, 1, .ro, 0, false, .a⟩, ⟨"PEND", 9, 1, .ro, 0, false, .a⟩, ⟨"PEND_SPEC", 10, 1, .ro, 0, false, .a⟩]⟩] ++
  [⟨"AD_SPEC_FRM", 0x50010C, [(16, 0x20)], false, .plain,
     [⟨"COUNT", 0, 32, .rw, 0, false, .c⟩]⟩] ++
  [⟨"AD_SPEC_HIT", 0x500110, [(16, 0x20)], false, .plain,
     [⟨"COUNT", 0, 32, .rw, 0, false, .c⟩]⟩] ++
  [⟨"AD_SPEC_MISS", 0x500114, [(16, 0x20)], false, .plain,
     [⟨"COUNT", 0, 32, .rw, 0, false, .c⟩]⟩] ++
  [⟨"AD_SPEC_REDO", 0x500118, [(16, 0x20)], false, .plain,
     [⟨"COUNT", 0, 32, .rw, 0, false, .c⟩]⟩] ++
  [⟨"AD_SPEC_BYTES", 0x50011C, [(16, 0x20)], false, .plain,
     [⟨"COUNT", 0, 32, .rw, 0, false, .c⟩]⟩] ++
  [⟨"OG_CTRL", 0x508000, [], true, .plain,
     [⟨"FLAT_EN", 0, 1, .rwp, 1, true, .f⟩, ⟨"FLAT_AGE", 8, 4, .rwp, 4, true, .f⟩]⟩] ++
  [⟨"OG_POOL", 0x508004, [], true, .plain,
     [⟨"BASE", 0, 10, .rwp, 0, true, .f⟩, ⟨"SIZE", 16, 11, .rwp, 0, true, .f⟩]⟩] ++
  [⟨"OG_USED", 0x508008, [], false, .plain,
     [⟨"BYTES", 0, 27, .ro, 0, false, .a⟩]⟩] ++
  [⟨"OG_FLAT", 0x50800C, [], false, .plain,
     [⟨"TL", 0, 16, .ro, 0, false, .a⟩]⟩] ++
  [⟨"OG_FLAT_CNT", 0x508010, [], false, .plain,
     [⟨"COUNT", 0, 32, .rw, 0, false, .c⟩]⟩] ++
  [⟨"OG_EVICT_CNT", 0x508014, [], false, .plain,
     [⟨"COUNT", 0, 32, .rw, 0, false, .c⟩]⟩] ++
  [⟨"OG_ABANDON_CNT", 0x508018, [], false, .plain,
     [⟨"COUNT", 0, 32, .rw, 0, false, .c⟩]⟩] ++
  [⟨"OG_SAVED", 0x50801C, [], false, .plain,
     [⟨"RATE", 0, 32, .ro, 0, false, .a⟩]⟩]

/-- The registers of the block at 0x600000. -/
def dmRows : List RegRow :=
  [⟨"DM_CTRL", 0x600000, [(32, 0x80)], false, .plain,
     [⟨"START", 0, 1, .w1s, 0, false, .d⟩, ⟨"ABORT", 1, 1, .w1s, 0, false, .d⟩]⟩] ++
  [⟨"DM_DB", 0x600004, [(32, 0x80)], false, .plain,
     [⟨"RING", 0, 1, .w1s, 0, false, .d⟩]⟩] ++
  [⟨"DM_BASE_LO", 0x600008, [(32, 0x80)], false, .plain,
     [⟨"BASE", 6, 26, .rw, 0, false, .a⟩]⟩] ++
  [⟨"DM_BASE_HI", 0x60000C, [(32, 0x80)], false, .plain,
     [⟨"BASE", 0, 10, .rw, 0, false, .a⟩]⟩] ++
  [⟨"DM_CFG", 0x600010, [(32, 0x80)], true, .plain,
     [⟨"ONERR", 0, 1, .rw, 0, false, .a⟩, ⟨"MAXRD", 8, 6, .rw, 4, false, .a⟩, ⟨"QUEUE", 16, 8, .rw, 0, true, .a⟩]⟩] ++
  [⟨"DM_STAT", 0x600014, [(32, 0x80)], false, .plain,
     [⟨"STATE", 0, 3, .ro, 0, false, .a⟩, ⟨"PEND", 3, 1, .ro, 0, false, .d⟩, ⟨"CAUSE", 4, 4, .ro, 0, false, .a⟩, ⟨"ERR", 8, 1, .w1c, 0, false, .b⟩, ⟨"CFG_IGN", 9, 1, .w1c, 0, false, .b⟩, ⟨"CHAINBRK", 10, 1, .w1c, 0, false, .b⟩, ⟨"CHAIN_EPOCH", 16, 16, .ro, 0, false, .a⟩]⟩] ++
  [⟨"DM_LAST_LO", 0x600018, [(32, 0x80)], false, .plain,
     [⟨"LAST_VALID", 0, 1, .ro, 0, false, .a⟩, ⟨"LAST", 6, 26, .ro, 0, false, .a⟩]⟩] ++
  [⟨"DM_LAST_HI", 0x60001C, [(32, 0x80)], false, .plain,
     [⟨"LAST", 0, 10, .ro, 0, false, .a⟩]⟩] ++
  [⟨"DM_CUR_LO", 0x600020, [(32, 0x80)], false, .plain,
     [⟨"CUR", 6, 26, .ro, 0, false, .a⟩]⟩] ++
  [⟨"DM_CUR_HI", 0x600024, [(32, 0x80)], false, .plain,
     [⟨"CUR", 0, 10, .ro, 0, false, .a⟩]⟩] ++
  [⟨"DM_DONE_CNT", 0x600028, [(32, 0x80)], false, .plain,
     [⟨"COUNT", 0, 32, .ro, 0, false, .a⟩]⟩] ++
  [⟨"DM_ERR_CNT", 0x60002C, [(32, 0x80)], false, .plain,
     [⟨"COUNT", 0, 32, .rw, 0, false, .c⟩]⟩] ++
  [⟨"DM_STAGE", 0x60E000, [], false, .plain,
     [⟨"INUSE", 0, 8, .ro, 0, false, .a⟩, ⟨"PEAK", 16, 8, .ro, 0, false, .a⟩]⟩] ++
  [⟨"HT_CTRL", 0x60F000, [(16, 0x10)], true, .plain,
     [⟨"EN", 0, 1, .rw, 0, true, .a⟩]⟩] ++
  [⟨"HT_PERIOD", 0x60F004, [(16, 0x10)], true, .plain,
     [⟨"PERIOD", 0, 32, .rw, 0xf4240, true, .a⟩]⟩] ++
  [⟨"HT_OFFSET", 0x60F008, [(16, 0x10)], true, .plain,
     [⟨"OFFSET", 0, 32, .rw, 0, true, .a⟩]⟩]

/-- The registers of the block at 0x700000. -/
def blRows : List RegRow :=
  [⟨"BL_CTRL", 0x700000, [(8, 0x80)], false, .plain,
     [⟨"EN", 0, 1, .rw, 0, false, .a⟩, ⟨"ABORT", 1, 1, .w1s, 0, false, .d⟩]⟩] ++
  [⟨"BL_DB", 0x700004, [(8, 0x80)], false, .plain,
     [⟨"PROD", 0, 16, .rw, 0, false, .a⟩, ⟨"EPOCH", 16, 16, .rw, 0, false, .a⟩]⟩] ++
  [⟨"BL_RING_LO", 0x700008, [(8, 0x80)], false, .plain,
     [⟨"BASE", 12, 20, .rw, 0, false, .a⟩]⟩] ++
  [⟨"BL_RING_HI", 0x70000C, [(8, 0x80)], false, .plain,
     [⟨"BASE", 0, 10, .rw, 0, false, .a⟩]⟩] ++
  [⟨"BL_CFG", 0x700010, [(8, 0x80)], true, .plain,
     [⟨"ONERR", 0, 1, .rw, 0, false, .a⟩, ⟨"LOG2", 8, 4, .rw, 4, false, .a⟩, ⟨"QUEUE", 16, 8, .rw, 0, true, .a⟩]⟩] ++
  [⟨"BL_PACE", 0x700014, [(8, 0x80)], false, .plain,
     [⟨"DEAD_NS", 0, 16, .rw, 0, false, .a⟩]⟩] ++
  [⟨"BL_ROWT", 0x700018, [(6, 0x80)], true, .plain,
     [⟨"ROW_NS", 0, 20, .rw, 0, true, .a⟩]⟩] ++
  [⟨"BL_ROWT", 0x700318, [(2, 0x80)], true, .plain,
     [⟨"ROW_NS", 0, 20, .rw, 0x3e8, true, .a⟩]⟩] ++
  [⟨"BL_STAT", 0x70001C, [(8, 0x80)], false, .plain,
     [⟨"STATE", 0, 3, .ro, 0, false, .a⟩, ⟨"CAUSE", 4, 4, .ro, 0, false, .a⟩, ⟨"ERR", 8, 1, .w1c, 0, false, .b⟩, ⟨"CFG_IGN", 9, 1, .w1c, 0, false, .b⟩, ⟨"SLIP", 10, 1, .w1c, 0, false, .b⟩, ⟨"STALE", 11, 1, .w1c, 0, false, .b⟩, ⟨"DROP_CNT", 16, 16, .rw, 0, false, .c⟩]⟩] ++
  [⟨"BL_CONS", 0x700020, [(8, 0x80)], false, .plain,
     [⟨"CONS", 0, 16, .ro, 0, false, .a⟩]⟩] ++
  [⟨"BL_DONE_CNT", 0x700024, [(8, 0x80)], false, .plain,
     [⟨"COUNT", 0, 32, .ro, 0, false, .a⟩]⟩] ++
  [⟨"BL_WMARK", 0x700028, [(8, 0x80)], false, .plain,
     [⟨"ROWS", 0, 16, .ro, 0, false, .a⟩, ⟨"EDGE_Y", 16, 16, .ro, 0, false, .a⟩]⟩] ++
  [⟨"BL_SLIP_CNT", 0x70002C, [(8, 0x80)], false, .plain,
     [⟨"COUNT", 0, 32, .rw, 0, false, .c⟩]⟩] ++
  [⟨"BL_ERR_CNT", 0x700030, [(8, 0x80)], false, .plain,
     [⟨"COUNT", 0, 32, .rw, 0, false, .c⟩]⟩]

/-- The registers of the block at 0x800000. -/
def caRows : List RegRow :=
  [⟨"CA_P_CTRL", 0x800000, [(8, 0x40)], true, .plain,
     [⟨"EN", 0, 1, .rwp, 0, true, .f⟩, ⟨"AWARE", 1, 1, .rwp, 0, true, .f⟩, ⟨"GUAR", 2, 1, .rwp, 0, true, .f⟩, ⟨"MIRROR", 3, 1, .rwp, 0, true, .f⟩, ⟨"HOLD_EV", 4, 1, .rwp, 0, true, .f⟩, ⟨"OVERHEAD", 8, 8, .rwp, 0, true, .f⟩]⟩] ++
  [⟨"CA_P_CIR", 0x800004, [(8, 0x40)], true, .plain,
     [⟨"CIR", 0, 32, .rwp, 0, true, .f⟩]⟩] ++
  [⟨"CA_P_PIR", 0x800008, [(8, 0x40)], true, .plain,
     [⟨"PIR", 0, 32, .rwp, 0, true, .f⟩]⟩] ++
  [⟨"CA_P_CBS", 0x80000C, [(8, 0x40)], true, .plain,
     [⟨"CBS", 0, 24, .rwp, 0, true, .f⟩]⟩] ++
  [⟨"CA_P_PBS", 0x800010, [(8, 0x40)], true, .plain,
     [⟨"PBS", 0, 24, .rwp, 0, true, .f⟩]⟩] ++
  [⟨"CA_P_PCMAP", 0x800014, [(8, 0x40)], true, .plain,
     [⟨"TC0", 0, 2, .rwp, 0, true, .f⟩, ⟨"TC1", 2, 2, .rwp, 0, true, .f⟩, ⟨"TC2", 4, 2, .rwp, 0, true, .f⟩, ⟨"TC3", 6, 2, .rwp, 0, true, .f⟩, ⟨"TC4", 8, 2, .rwp, 0, true, .f⟩, ⟨"TC5", 10, 2, .rwp, 0, true, .f⟩, ⟨"TC6", 12, 2, .rwp, 0, true, .f⟩, ⟨"TC7", 14, 2, .rwp, 0, true, .f⟩]⟩] ++
  [⟨"CA_P_STAT", 0x800018, [(8, 0x40)], false, .plain,
     [⟨"HOLDING", 0, 1, .ro, 0, false, .a⟩, ⟨"HELD", 1, 1, .w1c, 0, false, .b⟩]⟩] ++
  [⟨"CA_P_GCNT", 0x80001C, [(8, 0x40)], false, .plain,
     [⟨"COUNT", 0, 32, .rw, 0, false, .c⟩]⟩] ++
  [⟨"CA_P_YCNT", 0x800020, [(8, 0x40)], false, .plain,
     [⟨"COUNT", 0, 32, .rw, 0, false, .c⟩]⟩] ++
  [⟨"CA_P_RCNT", 0x800024, [(8, 0x40)], false, .plain,
     [⟨"COUNT", 0, 32, .rw, 0, false, .c⟩]⟩] ++
  [⟨"CA_P_TC", 0x800028, [(8, 0x40)], false, .plain,
     [⟨"TOKENS", 0, 32, .ro, 0, false, .a⟩]⟩] ++
  [⟨"CA_P_TP", 0x80002C, [(8, 0x40)], false, .plain,
     [⟨"TOKENS", 0, 32, .ro, 0, false, .a⟩]⟩] ++
  [⟨"CA_Q_CTRL", 0x801100, [(248, 0x20)], true, .plain,
     [⟨"EN", 0, 1, .rwp, 0, true, .f⟩, ⟨"GUAR", 1, 1, .rwp, 0, true, .f⟩, ⟨"MIRROR", 2, 1, .rwp, 0, true, .f⟩, ⟨"EXCESS", 3, 1, .rwp, 0, true, .f⟩]⟩] ++
  [⟨"CA_Q_CONTRACT", 0x801104, [(248, 0x20)], true, .plain,
     [⟨"CONTRACT", 0, 32, .rwp, 0, true, .f⟩]⟩] ++
  [⟨"CA_Q_RATE", 0x801108, [(248, 0x20)], false, .plain,
     [⟨"RATE", 0, 32, .rwp, 0, false, .f⟩]⟩] ++
  [⟨"CA_Q_LIM", 0x80110C, [(248, 0x20)], true, .plain,
     [⟨"BURST", 0, 16, .rwp, 0, true, .f⟩, ⟨"DEBT_MAX", 16, 16, .rwp, 0, true, .f⟩]⟩] ++
  [⟨"CA_Q_DEBT", 0x801110, [(248, 0x20)], false, .plain,
     [⟨"DEBT", 0, 32, .ro, 0, false, .a⟩]⟩] ++
  [⟨"CA_Q_WAIT", 0x801114, [(248, 0x20)], false, .plain,
     [⟨"NS", 0, 32, .ro, 0, false, .a⟩]⟩] ++
  [⟨"CA_Q_STAT", 0x801118, [(248, 0x20)], false, .plain,
     [⟨"PAUSED", 0, 1, .ro, 0, false, .a⟩, ⟨"WAITING", 1, 1, .ro, 0, false, .a⟩, ⟨"CLAMP", 2, 1, .w1c, 0, false, .b⟩, ⟨"DMAX", 3, 1, .w1c, 0, false, .b⟩]⟩] ++
  [⟨"CA_Q_CNT", 0x80111C, [(248, 0x20)], false, .plain,
     [⟨"COUNT", 0, 32, .rw, 0, false, .c⟩]⟩] ++
  [⟨"CA_STAT", 0x80F000, [], false, .plain,
     [⟨"BUSY", 0, 1, .ro, 0, false, .a⟩, ⟨"WR_LOST", 1, 1, .w1c, 0, false, .b⟩]⟩] ++
  [⟨"CA_WHEEL", 0x80F004, [], false, .plain,
     [⟨"SLOT", 0, 12, .ro, 0, false, .a⟩, ⟨"PARKED", 16, 9, .ro, 0, false, .a⟩]⟩]

/-- The registers of the block at 0x900000. -/
def drRows : List RegRow :=
  [⟨"DR_CFG", 0x900000, [], false, .plain,
     [⟨"RATE", 0, 13, .ro, 0, false, .a⟩, ⟨"RANKS", 13, 1, .ro, 0, false, .a⟩, ⟨"WIDTH", 14, 1, .ro, 0, false, .a⟩, ⟨"DENSITY", 16, 3, .ro, 0, false, .a⟩, ⟨"SUBCH_MASK", 24, 8, .ro, 0, false, .a⟩]⟩] ++
  [⟨"DR_CAP", 0x900004, [], false, .plain,
     [⟨"MIB", 0, 20, .ro, 0, false, .a⟩]⟩] ++
  [⟨"DR_HASH", 0x900010, [(9, 0x4)], true, .plain,
     [⟨"MASK", 0, 32, .wo, 0, true, .e⟩]⟩] ++
  [⟨"DR_MIR_BASE", 0x900048, [(7, 0x8)], true, .plain,
     [⟨"BASE", 0, 21, .wo, 0, true, .e⟩]⟩] ++
  [⟨"DR_MIR_SIZE", 0x90004C, [(7, 0x8)], true, .plain,
     [⟨"SIZE", 0, 19, .wo, 0, true, .e⟩]⟩] ++
  [⟨"DR_TEMP_CFG", 0x900080, [], true, .plain,
     [⟨"T2X", 0, 8, .rw, 0x55, true, .a⟩]⟩] ++
  [⟨"DR_TEMP_STAT", 0x900084, [], false, .plain,
     [⟨"T0", 0, 8, .ro, 0, false, .a⟩, ⟨"T1", 8, 8, .ro, 0, false, .a⟩, ⟨"T2", 16, 8, .ro, 0, false, .a⟩, ⟨"T3", 24, 8, .ro, 0, false, .a⟩]⟩] ++
  [⟨"DR_RETRAIN", 0x900088, [], true, .plain,
     [⟨"PERIOD_MS", 0, 16, .rw, 0x1f4, true, .a⟩, ⟨"EN", 16, 1, .rw, 1, true, .a⟩]⟩] ++
  [⟨"DR_SCRUB", 0x90008C, [], true, .plain,
     [⟨"HOURS", 0, 8, .rw, 0x18, true, .a⟩]⟩] ++
  [⟨"DR_FAIL", 0x900090, [], true, .plain,
     [⟨"THRESH", 0, 8, .rw, 0x10, true, .a⟩]⟩] ++
  [⟨"DR_STAT", 0x9000A0, [], false, .plain,
     [⟨"READY", 0, 1, .ro, 0, false, .a⟩, ⟨"SNAPDIRTY", 1, 1, .ro, 0, false, .a⟩, ⟨"FAILED", 2, 1, .ro, 0, false, .a⟩, ⟨"OVERTEMP", 3, 1, .w1c, 0, false, .b⟩]⟩] ++
  [⟨"DR_CE_CNT", 0x9000A4, [], false, .plain,
     [⟨"COUNT", 0, 32, .rw, 0, false, .c⟩]⟩] ++
  [⟨"DR_UE_CNT", 0x9000A8, [], false, .plain,
     [⟨"COUNT", 0, 32, .rw, 0, false, .c⟩]⟩] ++
  [⟨"DR_UE_ADDR_LO", 0x9000AC, [], false, .plain,
     [⟨"HPA", 6, 26, .ro, 0, false, .a⟩]⟩] ++
  [⟨"DR_UE_ADDR_HI", 0x9000B0, [], false, .plain,
     [⟨"HPA", 0, 10, .ro, 0, false, .a⟩]⟩] ++
  [⟨"DR_SC_STAT", 0x901000, [(8, 0x100)], false, .plain,
     [⟨"TRAINED", 0, 1, .ro, 0, false, .a⟩, ⟨"MODE2X", 1, 1, .ro, 0, false, .a⟩, ⟨"FAILED", 2, 2, .ro, 0, false, .a⟩, ⟨"DEBT0", 4, 3, .ro, 0, false, .a⟩, ⟨"DEBT1", 8, 3, .ro, 0, false, .a⟩, ⟨"PAYDOWN", 11, 1, .ro, 0, false, .a⟩, ⟨"BUSY", 12, 1, .ro, 0, false, .a⟩, ⟨"WR_LOST", 13, 1, .w1c, 0, false, .b⟩]⟩] ++
  [⟨"DR_SC_CE_CNT", 0x901004, [(8, 0x100)], false, .plain,
     [⟨"COUNT", 0, 32, .rw, 0, false, .c⟩]⟩] ++
  [⟨"DR_SC_UE_CNT", 0x901008, [(8, 0x100)], false, .plain,
     [⟨"COUNT", 0, 32, .rw, 0, false, .c⟩]⟩] ++
  [⟨"DR_SC_WRFAIL_CNT", 0x90100C, [(8, 0x100)], false, .plain,
     [⟨"COUNT", 0, 32, .rw, 0, false, .c⟩]⟩] ++
  [⟨"DR_SC_REF_CNT", 0x901010, [(8, 0x100)], false, .plain,
     [⟨"COUNT", 0, 32, .rw, 0, false, .c⟩]⟩] ++
  [⟨"DR_SC_PAY_CNT", 0x901014, [(8, 0x100)], false, .plain,
     [⟨"COUNT", 0, 32, .rw, 0, false, .c⟩]⟩] ++
  [⟨"DR_SC_WQ", 0x901018, [(8, 0x100)], false, .plain,
     [⟨"USED", 0, 7, .ro, 0, false, .a⟩, ⟨"PEAK", 16, 7, .ro, 0, false, .a⟩]⟩]

/-- The registers of the block at 0xA00000. -/
def hpRows : List RegRow :=
  [⟨"HP_LINK", 0xA00000, [(4, 0x10000)], false, .plain,
     [⟨"UP", 0, 1, .ro, 0, false, .a⟩, ⟨"SPEED", 1, 3, .ro, 0, false, .a⟩, ⟨"WIDTH", 4, 4, .ro, 0, false, .a⟩, ⟨"BME", 8, 1, .ro, 0, false, .a⟩, ⟨"D3", 9, 1, .ro, 0, false, .a⟩, ⟨"MSIX", 10, 1, .ro, 0, false, .a⟩]⟩] ++
  [⟨"HP_SUBSYS", 0xA00004, [(4, 0x10000)], true, .plain,
     [⟨"SVID", 0, 16, .rw, 0, true, .a⟩, ⟨"SSID", 16, 16, .rw, 0, true, .a⟩]⟩] ++
  [⟨"HP_RST_STAT", 0xA00008, [(4, 0x10000)], false, .plain,
     [⟨"LINKDOWN", 0, 1, .w1c, 0, false, .b⟩, ⟨"HOTRST", 1, 1, .w1c, 0, false, .b⟩, ⟨"FLR", 2, 1, .w1c, 0, false, .b⟩, ⟨"DEGRADE", 3, 1, .w1c, 0, false, .b⟩]⟩] ++
  [⟨"HP_RST_CNT", 0xA0000C, [(4, 0x10000)], false, .plain,
     [⟨"COUNT", 0, 32, .rw, 0, false, .c⟩]⟩] ++
  [⟨"HP_CFG", 0xA00010, [(4, 0x10000)], true, .plain,
     [⟨"MAXSPEED", 0, 3, .rw, 5, true, .a⟩, ⟨"ASPM_L1", 4, 1, .rw, 0, true, .a⟩]⟩] ++
  [⟨"HP_DENY_CNT", 0xA00030, [(4, 0x10000)], false, .plain,
     [⟨"COUNT", 0, 32, .rw, 0, false, .c⟩]⟩] ++
  [⟨"HP_DENY_ADDR", 0xA00034, [(4, 0x10000)], false, .plain,
     [⟨"OFFSET", 2, 24, .ro, 0, false, .a⟩]⟩] ++
  [⟨"HP_BAR2_BASE_LO", 0xA00300, [(4, 0x10000)], true, .plain,
     [⟨"BASE", 20, 12, .rw, 0, true, .a⟩]⟩] ++
  [⟨"HP_BAR2_BASE_HI", 0xA00304, [(4, 0x10000)], true, .plain,
     [⟨"BASE", 0, 7, .rw, 0, true, .a⟩]⟩] ++
  [⟨"HP_BAR2_SIZE", 0xA00308, [(4, 0x10000)], true, .plain,
     [⟨"LOG2", 0, 6, .rw, 0, true, .a⟩, ⟨"HOSTLOG2", 8, 6, .ro, 0, false, .a⟩]⟩] ++
  [⟨"HP_HW_BASE_LO", 0xA00310, [(4, 0x10000)], false, .plain,
     [⟨"BASE", 12, 20, .rw, 0, false, .a⟩]⟩] ++
  [⟨"HP_HW_BASE_HI", 0xA00314, [(4, 0x10000)], false, .plain,
     [⟨"BASE", 0, 32, .rw, 0, false, .a⟩]⟩] ++
  [⟨"HP_HW_SIZE", 0xA00318, [(4, 0x10000)], true, .plain,
     [⟨"LOG2", 0, 6, .rw, 0, true, .a⟩]⟩] ++
  [⟨"HP_HW_STAT", 0xA0031C, [(4, 0x10000)], false, .plain,
     [⟨"ERR", 0, 1, .w1c, 0, false, .b⟩, ⟨"ERR_CNT", 16, 16, .rw, 0, false, .c⟩]⟩] ++
  [⟨"HP_SF_ARG", 0xA00400, [(4, 0x10000), (11, 0x4)], false, .plain,
     [⟨"ARG", 0, 32, .rwp, 0, false, .f⟩]⟩] ++
  [⟨"HP_SF_CMD", 0xA00430, [(4, 0x10000)], false, .plain,
     [⟨"OP", 0, 3, .rwp, 0, false, .f⟩]⟩] ++
  [⟨"HP_SF_STAT", 0xA00434, [(4, 0x10000)], false, .plain,
     [⟨"BUSY", 0, 1, .ro, 0, false, .a⟩, ⟨"WR_LOST", 1, 1, .w1c, 0, false, .b⟩, ⟨"CODE", 8, 8, .ro, 0, false, .a⟩]⟩] ++
  [⟨"HP_SF_RESULT", 0xA00438, [(4, 0x10000)], false, .plain,
     [⟨"RESULT", 0, 32, .ro, 0, false, .a⟩]⟩] ++
  [⟨"HP_SF_QUOTA", 0xA0043C, [(4, 0x10000)], true, .plain,
     [⟨"MAX", 0, 17, .rw, 0, true, .a⟩]⟩] ++
  [⟨"HP_CR_CTRL", 0xA00500, [(4, 0x10000), (8, 0x20)], false, .plain,
     [⟨"EN", 0, 1, .rw, 0, false, .d⟩, ⟨"LOG2", 8, 4, .rw, 0, false, .a⟩]⟩] ++
  [⟨"HP_CR_BASE_LO", 0xA00504, [(4, 0x10000), (8, 0x20)], false, .plain,
     [⟨"BASE", 12, 20, .rw, 0, false, .a⟩]⟩] ++
  [⟨"HP_CR_BASE_HI", 0xA00508, [(4, 0x10000), (8, 0x20)], false, .plain,
     [⟨"BASE", 0, 7, .rw, 0, false, .a⟩]⟩] ++
  [⟨"HP_CR_DB", 0xA0050C, [(4, 0x10000), (8, 0x20)], false, .plain,
     [⟨"PROD", 0, 16, .rw, 0, false, .a⟩, ⟨"EPOCH", 16, 16, .rw, 0, false, .a⟩]⟩] ++
  [⟨"HP_CR_CONS", 0xA00510, [(4, 0x10000), (8, 0x20)], false, .plain,
     [⟨"CONS", 0, 16, .ro, 0, false, .a⟩]⟩] ++
  [⟨"HP_CR_NEXT_SEQ", 0xA00514, [(4, 0x10000), (8, 0x20)], false, .plain,
     [⟨"SEQ", 0, 32, .ro, 0, false, .a⟩]⟩] ++
  [⟨"HP_CR_STAT", 0xA00518, [(4, 0x10000), (8, 0x20)], false, .plain,
     [⟨"HALT", 0, 1, .ro, 0, false, .a⟩, ⟨"CAUSE", 1, 3, .ro, 0, false, .a⟩, ⟨"DUP", 4, 1, .w1c, 0, false, .b⟩, ⟨"STALE", 5, 1, .w1c, 0, false, .b⟩, ⟨"CFG_BAD", 6, 1, .w1c, 0, false, .b⟩, ⟨"DROP_CNT", 16, 16, .rw, 0, false, .c⟩]⟩] ++
  [⟨"HP_CR_CFG", 0xA0051C, [(4, 0x10000), (8, 0x20)], false, .plain,
     [⟨"FENCE_MS", 0, 16, .rw, 0, false, .a⟩]⟩] ++
  [⟨"HP_EV_CTRL", 0xA00600, [(4, 0x10000)], false, .plain,
     [⟨"EN", 0, 1, .rw, 0, false, .d⟩, ⟨"LOG2", 8, 5, .rw, 0, false, .a⟩]⟩] ++
  [⟨"HP_EV_BASE_LO", 0xA00604, [(4, 0x10000)], false, .plain,
     [⟨"BASE", 12, 20, .rw, 0, false, .a⟩]⟩] ++
  [⟨"HP_EV_BASE_HI", 0xA00608, [(4, 0x10000)], false, .plain,
     [⟨"BASE", 0, 7, .rw, 0, false, .a⟩]⟩] ++
  [⟨"HP_EV_WB_LO", 0xA0060C, [(4, 0x10000)], false, .plain,
     [⟨"WB", 3, 29, .rw, 0, false, .a⟩]⟩] ++
  [⟨"HP_EV_WB_HI", 0xA00610, [(4, 0x10000)], false, .plain,
     [⟨"WB", 0, 7, .rw, 0, false, .a⟩]⟩] ++
  [⟨"HP_EV_PROD", 0xA00614, [(4, 0x10000)], false, .plain,
     [⟨"PROD", 0, 32, .ro, 0, false, .a⟩]⟩] ++
  [⟨"HP_EV_CONS", 0xA00618, [(4, 0x10000)], false, .plain,
     [⟨"CONS", 0, 32, .rw, 0, false, .a⟩]⟩] ++
  [⟨"HP_EV_STAT", 0xA0061C, [(4, 0x10000)], false, .plain,
     [⟨"FULL", 0, 1, .ro, 0, false, .a⟩, ⟨"BACKLOG", 1, 1, .ro, 0, false, .a⟩, ⟨"CFG_BAD", 2, 1, .w1c, 0, false, .b⟩, ⟨"LOST_CNT", 16, 16, .rw, 0, false, .c⟩]⟩] ++
  [⟨"HP_EPOCH", 0xA00620, [(4, 0x10000)], false, .plain,
     [⟨"EPOCH", 0, 16, .ro, 0, false, .a⟩]⟩]

/-- The registers of the block at 0xB00000. -/
def igRows : List RegRow :=
  [⟨"IG_CTRL", 0xB00000, [(24, 0x80)], true, .plain,
     [⟨"EN", 0, 1, .rw, 0, true, .a⟩, ⟨"DT", 1, 2, .rw, 0, true, .a⟩, ⟨"MANUAL", 3, 1, .rw, 0, true, .a⟩, ⟨"COUNT", 4, 3, .rw, 0, true, .a⟩]⟩] ++
  [⟨"IG_SRC", 0xB00004, [(24, 0x80)], true, .plain,
     [⟨"LANE", 0, 6, .rw, 0, true, .a⟩, ⟨"VC", 8, 2, .rw, 0, true, .a⟩]⟩] ++
  [⟨"IG_SIZE", 0xB00008, [(24, 0x80)], true, .plain,
     [⟨"W", 0, 15, .rw, 0, true, .a⟩, ⟨"H", 16, 15, .rw, 0, true, .a⟩]⟩] ++
  [⟨"IG_LINE_NS", 0xB0000C, [(24, 0x80)], true, .plain,
     [⟨"LINE_NS", 0, 24, .rw, 0, true, .a⟩]⟩] ++
  [⟨"IG_LBYTES", 0xB00010, [(24, 0x80)], true, .plain,
     [⟨"LINE_BYTES", 0, 17, .rw, 0, true, .a⟩]⟩] ++
  [⟨"IG_BUF", 0xB00014, [(24, 0x80), (8, 0x4)], true, .plain,
     [⟨"HANDLE", 0, 32, .rw, 0xffffffff, true, .a⟩]⟩] ++
  [⟨"IG_REL", 0xB00034, [(24, 0x80)], false, .plain,
     [⟨"FREE", 0, 8, .w1s, 0, false, .d⟩]⟩] ++
  [⟨"IG_STAT", 0xB00038, [(24, 0x80)], false, .plain,
     [⟨"STATE", 0, 2, .ro, 0, false, .a⟩, ⟨"BUF", 4, 3, .ro, 0, false, .a⟩, ⟨"LAST", 8, 3, .ro, 0, false, .a⟩, ⟨"LASTVALID", 11, 1, .ro, 0, false, .a⟩, ⟨"SHORT", 16, 1, .w1c, 0, false, .b⟩, ⟨"ERR", 17, 1, .w1c, 0, false, .b⟩, ⟨"DROP", 18, 1, .w1c, 0, false, .b⟩, ⟨"FAST", 19, 1, .w1c, 0, false, .b⟩, ⟨"IGNORED", 20, 1, .w1c, 0, false, .b⟩]⟩] ++
  [⟨"IG_FRAME_CNT", 0xB0003C, [(24, 0x80)], false, .plain,
     [⟨"COUNT", 0, 32, .ro, 0, false, .a⟩]⟩] ++
  [⟨"IG_LINE_CNT", 0xB00040, [(24, 0x80)], false, .plain,
     [⟨"A", 0, 16, .ro, 0, false, .a⟩]⟩] ++
  [⟨"IG_DROP_CNT", 0xB00044, [(24, 0x80)], false, .plain,
     [⟨"COUNT", 0, 32, .rw, 0, false, .c⟩]⟩] ++
  [⟨"IG_ERR_CNT", 0xB00048, [(24, 0x80)], false, .plain,
     [⟨"COUNT", 0, 32, .rw, 0, false, .c⟩]⟩] ++
  [⟨"IG_FS_TIME", 0xB0004C, [(24, 0x80)], false, .plain,
     [⟨"TIME", 0, 32, .ro, 0, false, .a⟩]⟩] ++
  [⟨"IG_LANE", 0xB01000, [(48, 0x4)], true, .plain,
     [⟨"UP", 0, 1, .ro, 0, false, .a⟩, ⟨"GEAR", 1, 3, .ro, 0, false, .a⟩, ⟨"MAXGEAR", 4, 3, .rw, 5, true, .a⟩, ⟨"RETRY", 16, 16, .rw, 0, false, .c⟩]⟩]

/-- The registers of the block at 0xC00000. -/
def olRows : List RegRow :=
  [⟨"OL_QUAD", 0xC00000, [(12, 0x4)], true, .plain,
     [⟨"MODE", 0, 2, .rwp, 0, true, .f⟩]⟩] ++
  [⟨"OL_LINK", 0xC00100, [(48, 0x4)], true, .plain,
     [⟨"PROTO", 0, 3, .rwp, 0, true, .f⟩, ⟨"LANES", 4, 2, .rwp, 0, true, .f⟩, ⟨"MAXRATE", 8, 4, .rwp, 0, true, .f⟩, ⟨"SSC", 12, 1, .rwp, 0, true, .f⟩]⟩] ++
  [⟨"OL_LSTAT", 0xC00200, [(48, 0x4)], false, .plain,
     [⟨"UP", 0, 1, .ro, 0, false, .a⟩, ⟨"RATE", 8, 4, .ro, 0, false, .a⟩, ⟨"LANES", 12, 2, .ro, 0, false, .a⟩, ⟨"FEC", 14, 1, .ro, 0, false, .a⟩, ⟨"RETRY", 16, 16, .rw, 0, false, .c⟩]⟩]

/-- The registers of the block at 0xD00000. -/
def cnRows : List RegRow :=
  [⟨"CN_CTRL", 0xD00000, [(2, 0x100)], true, .plain,
     [⟨"EN", 0, 1, .rwp, 0, true, .f⟩, ⟨"MODE", 1, 1, .rwp, 0, true, .f⟩, ⟨"FDEN", 2, 1, .rwp, 0, true, .f⟩]⟩] ++
  [⟨"CN_NBT", 0xD00004, [(2, 0x100)], true, .plain,
     [⟨"BRP", 0, 8, .rwp, 0, true, .f⟩, ⟨"TSEG1", 8, 8, .rwp, 0, true, .f⟩, ⟨"TSEG2", 16, 7, .rwp, 0, true, .f⟩, ⟨"SJW", 24, 7, .rwp, 0, true, .f⟩]⟩] ++
  [⟨"CN_DBT", 0xD00008, [(2, 0x100)], true, .plain,
     [⟨"BRP", 0, 5, .rwp, 0, true, .f⟩, ⟨"TSEG1", 8, 5, .rwp, 0, true, .f⟩, ⟨"TSEG2", 16, 4, .rwp, 0, true, .f⟩, ⟨"SJW", 24, 4, .rwp, 0, true, .f⟩]⟩] ++
  [⟨"CN_STAT", 0xD0000C, [(2, 0x100)], false, .plain,
     [⟨"ONBUS", 0, 1, .ro, 0, false, .a⟩, ⟨"EPASS", 1, 1, .ro, 0, false, .a⟩, ⟨"REC", 8, 8, .ro, 0, false, .a⟩, ⟨"BUSY", 16, 1, .ro, 0, false, .a⟩, ⟨"WR_LOST", 17, 1, .w1c, 0, false, .b⟩, ⟨"OVF", 18, 1, .w1c, 0, false, .b⟩]⟩] ++
  [⟨"CN_RX_CNT", 0xD00010, [(2, 0x100)], false, .plain,
     [⟨"COUNT", 0, 32, .rw, 0, false, .c⟩]⟩] ++
  [⟨"CN_ERR_CNT", 0xD00014, [(2, 0x100)], false, .plain,
     [⟨"COUNT", 0, 32, .rw, 0, false, .c⟩]⟩] ++
  [⟨"CN_OVF_CNT", 0xD00018, [(2, 0x100)], false, .plain,
     [⟨"COUNT", 0, 32, .rw, 0, false, .c⟩]⟩] ++
  [⟨"CN_FLT_ID", 0xD00400, [(128, 0x8)], true, .plain,
     [⟨"ID", 0, 29, .rw, 0, true, .a⟩, ⟨"IDE", 29, 1, .rw, 0, true, .a⟩, ⟨"CTRL", 30, 1, .rw, 0, true, .a⟩, ⟨"EN", 31, 1, .rw, 0, true, .a⟩]⟩] ++
  [⟨"CN_FLT_MASK", 0xD00404, [(128, 0x8)], true, .plain,
     [⟨"MASK", 0, 29, .rw, 0, true, .a⟩]⟩] ++
  [⟨"XS_CMD", 0xD04000, [], false, .plain,
     [⟨"OP", 0, 3, .rwp, 0, false, .f⟩, ⟨"CS", 4, 1, .rwp, 0, false, .f⟩, ⟨"LEN", 8, 9, .rwp, 0, false, .f⟩]⟩] ++
  [⟨"XS_ADDR", 0xD04004, [], false, .plain,
     [⟨"ADDR", 0, 26, .rwp, 0, false, .f⟩]⟩] ++
  [⟨"XS_STAT", 0xD04008, [], false, .plain,
     [⟨"BUSY", 0, 1, .ro, 0, false, .a⟩, ⟨"WR_LOST", 1, 1, .w1c, 0, false, .b⟩, ⟨"CODE", 8, 4, .ro, 0, false, .a⟩, ⟨"FLASH1", 12, 1, .ro, 0, false, .a⟩]⟩] ++
  [⟨"XS_BUF", 0xD04100, [(64, 0x4)], false, .plain,
     [⟨"DATA", 0, 32, .rwp, 0, false, .f⟩]⟩] ++
  [⟨"SV_ERR_CNT", 0xD06000, [], false, .plain,
     [⟨"CRC", 0, 16, .rw, 0, false, .c⟩, ⟨"LEN", 16, 16, .rw, 0, false, .c⟩]⟩] ++
  [⟨"SV_HB_CFG", 0xD06004, [], true, .plain,
     [⟨"EN", 0, 1, .rw, 0, true, .a⟩, ⟨"TIMEOUT_MS", 16, 10, .rw, 0x64, true, .a⟩]⟩] ++
  [⟨"SV_HB_STAT", 0xD06008, [], false, .plain,
     [⟨"LOST", 0, 1, .ro, 0, false, .a⟩, ⟨"ARMED", 1, 1, .ro, 0, false, .a⟩, ⟨"HBCNT", 8, 8, .ro, 0, false, .a⟩]⟩] ++
  [⟨"SV_FRAME_CNT", 0xD0600C, [], false, .plain,
     [⟨"COUNT", 0, 32, .rw, 0, false, .c⟩]⟩] ++
  [⟨"SM_VAL", 0xD08000, [(512, 0x4)], false, .plain,
     [⟨"VALUE", 0, 32, .ro, 0, false, .a⟩]⟩] ++
  [⟨"SM_STALE", 0xD08800, [(16, 0x4)], false, .plain,
     [⟨"STALE", 0, 32, .ro, 0xffffffff, false, .a⟩]⟩] ++
  [⟨"SM_GERR", 0xD08900, [(128, 0x4)], false, .plain,
     [⟨"LEN_CNT", 0, 8, .rw, 0, false, .c⟩, ⟨"CRC_CNT", 8, 8, .rw, 0, false, .c⟩, ⟨"ALIVE_CNT", 16, 8, .rw, 0, false, .c⟩, ⟨"STALE", 31, 1, .ro, 1, false, .a⟩]⟩] ++
  [⟨"SM_RANGE_CNT", 0xD08C00, [], false, .plain,
     [⟨"COUNT", 0, 32, .rw, 0, false, .c⟩]⟩] ++
  [⟨"SM_SV_DATA", 0xD08C04, [], false, .plain,
     [⟨"DATA", 0, 32, .rwp, 0, false, .f⟩]⟩] ++
  [⟨"SM_SV_SIG", 0xD08C08, [], false, .plain,
     [⟨"SIGNAL", 0, 9, .rwp, 0, false, .f⟩]⟩] ++
  [⟨"SM_SV_STAT", 0xD08C0C, [], false, .plain,
     [⟨"BUSY", 0, 1, .ro, 0, false, .a⟩, ⟨"WR_LOST", 1, 1, .w1c, 0, false, .b⟩, ⟨"REJECT", 2, 1, .w1c, 0, false, .b⟩]⟩]

/-- The registers of the block at 0xE00000. -/
def dbRows : List RegRow :=
  [⟨"DB_CTRL", 0xE00000, [], false, .plain,
     [⟨"EN", 0, 1, .rw, 0, false, .d⟩]⟩] ++
  [⟨"DB_SEL", 0xE00100, [(16, 0x4)], false, .plain,
     [⟨"SIGNAL", 0, 16, .rw, 0, false, .a⟩]⟩]

/-- The registers of the block at 0xF00000. -/
def evRows : List RegRow :=
  [⟨"EV_MAP", 0xF00000, [(4, 0x1000), (12, 0x4)], false, .plain,
     [⟨"VECTOR", 0, 6, .rw, 0, false, .a⟩, ⟨"EN", 8, 1, .rw, 0, false, .a⟩]⟩] ++
  [⟨"EV_MOD", 0xF00100, [(4, 0x1000), (64, 0x4)], false, .plain,
     [⟨"HOLDOFF_US", 0, 10, .rw, 0, false, .a⟩, ⟨"COUNT", 16, 8, .rw, 1, false, .a⟩]⟩] ++
  [⟨"MSIX_ADDR_LO", 0xF00800, [(4, 0x1000), (64, 0x10)], false, .plain,
     [⟨"ADDR", 0, 32, .rw, 0, false, .a⟩]⟩] ++
  [⟨"MSIX_ADDR_HI", 0xF00804, [(4, 0x1000), (64, 0x10)], false, .plain,
     [⟨"ADDR", 0, 32, .rw, 0, false, .a⟩]⟩] ++
  [⟨"MSIX_DATA", 0xF00808, [(4, 0x1000), (64, 0x10)], false, .plain,
     [⟨"DATA", 0, 32, .rw, 0, false, .a⟩]⟩] ++
  [⟨"MSIX_CTRL", 0xF0080C, [(4, 0x1000), (64, 0x10)], false, .plain,
     [⟨"MASK", 0, 1, .rw, 1, false, .a⟩]⟩] ++
  [⟨"MSIX_PBA", 0xF00C00, [(4, 0x1000), (2, 0x4)], false, .plain,
     [⟨"PENDING", 0, 32, .ro, 0, false, .a⟩]⟩]

/-- The rows of the block an address lies in (R517). -/
def blockRows (a : Nat) : List RegRow :=
  if a < 0x10000 then syRows else
  if a < 0x100000 then ghRows else
  if a < 0x200000 then tlRows else
  if a < 0x210000 then pvRows else
  if a < 0x400000 then lyRows else
  if a < 0x410000 then fnRows else
  if a < 0x440000 then wbRows else
  if a < 0x480000 then bzRows else
  if a < 0x500000 then wtRows else
  if a < 0x600000 then adRows else
  if a < 0x700000 then dmRows else
  if a < 0x800000 then blRows else
  if a < 0x900000 then caRows else
  if a < 0xA00000 then drRows else
  if a < 0xB00000 then hpRows else
  if a < 0xC00000 then igRows else
  if a < 0xD00000 then olRows else
  if a < 0xE00000 then cnRows else
  if a < 0xF00000 then dbRows else
  if a < 0x1000000 then evRows else
  []

/-- Every register of the map. -/
def allRows : List RegRow :=
  syRows ++ ghRows ++ tlRows ++ pvRows ++ lyRows ++ fnRows ++ wbRows ++ bzRows ++ wtRows ++ adRows ++ dmRows ++ blRows ++ caRows ++ drRows ++ hpRows ++ igRows ++ olRows ++ cnRows ++ dbRows ++ evRows

/-- Whether an offset from a row's base is one of its instances and elements (R518). -/
def dimsCover : List (Nat × Nat) → Nat → Bool
  | [], off => off == 0
  | (n, st) :: ds, off => decide (off / st < n) && dimsCover ds (off % st)

def RegRow.covers (r : RegRow) (a : Nat) : Bool :=
  decide (r.base ≤ a) && dimsCover r.dims (a - r.base)

/-- The active-bank copy of a banked row lies 0x100 above (R528). -/
def RegRow.coversActive (r : RegRow) (a : Nat) : Bool :=
  r.banking == .banked && decide (0x100 ≤ a) && r.covers (a - 0x100)

/-- The row of an address; the active-bank address of a banked register has that register's row. -/
def rowAt (a : Nat) : Option RegRow :=
  (blockRows a).find? fun r => r.covers a || r.coversActive a

/-- Whether an address is the read-only view of an active bank (R528). -/
def isActiveView (a : Nat) : Bool :=
  (blockRows a).any fun r => r.coversActive a

def fieldsReset : List FieldRow → Nat
  | [] => 0
  | f :: fs => f.rst * 2 ^ f.lo + fieldsReset fs

/-- The reset word of an address: the reset values of its fields; 0 where no register lies (R493). -/
def resetWord (a : Nat) : Word :=
  match rowAt a with
  | some r => BitVec.ofNat 32 (fieldsReset r.fields)
  | none => 0

/-! ### Addresses -/

def SY_ID : Nat := 0x0
def SY_PSTATE : Nat := 0x4
def SY_DTIME_LO : Nat := 0x8
def SY_DTIME_HI : Nat := 0xC
def SY_BOOT_STAT : Nat := 0x100
def SY_BOOT_CTRL : Nat := 0x104
def SY_PARK_CTRL : Nat := 0x108
def SY_WAKE_STAT : Nat := 0x10C
def SY_BOOT_MARK (k : Nat) : Nat := 0x110 + k * 0x4
def SY_LOAD_FAIL : Nat := 0x128
def SY_LOAD_OFFSET : Nat := 0x12C
def SY_IMAGE_SERIAL : Nat := 0x130
def GH_STAT : Nat := 0x10000
def GH_LOCK : Nat := 0x10008
def GH_SV_DENY_CNT : Nat := 0x1000C
def GH_UID (k : Nat) : Nat := 0x10010 + k * 0x4
def GH_OTP_CNT : Nat := 0x10020
def GH_IKH_CTRL : Nat := 0x10024
def GH_IKH (k : Nat) : Nat := 0x10040 + k * 0x4
def GH_CFG_CTRL : Nat := 0x10060
def GH_CFG_STAT : Nat := 0x10064
def GH_CFG_CRC : Nat := 0x10068
def GH_CFG_REF : Nat := 0x1006C
def GH_LED_STAT : Nat := 0x10080
def GH_LED_HEAD : Nat := 0x10084
def GH_LED_DROP : Nat := 0x10088
def GH_SES_CTRL : Nat := 0x10100
def GH_SES_STAT : Nat := 0x10104
def GH_SES_CFG : Nat := 0x10108
def GH_SES_RIGHTS : Nat := 0x1010C
def GH_SES_KEY (k : Nat) : Nat := 0x10140 + k * 0x4
def GH_SES_NONCE (k : Nat) : Nat := 0x10180 + k * 0x4
def GH_SES_SIG (k : Nat) : Nat := 0x101C0 + k * 0x4
def GH_TOK_CTRL : Nat := 0x10200
def GH_TOK_STAT : Nat := 0x10204
def GH_TOK_DATA (k : Nat) : Nat := 0x10240 + k * 0x4
def TL_CTRL (t : Nat) : Nat := 0x100000 + t * 0x1000
def TL_HTIME (t : Nat) : Nat := 0x100004 + t * 0x1000
def TL_HSYNC (t : Nat) : Nat := 0x100008 + t * 0x1000
def TL_VTIME (t : Nat) : Nat := 0x10000C + t * 0x1000
def TL_VSYNC (t : Nat) : Nat := 0x100010 + t * 0x1000
def TL_PCLK (t : Nat) : Nat := 0x100014 + t * 0x1000
def TL_LATCH (t : Nat) : Nat := 0x100018 + t * 0x1000
def TL_AS (t : Nat) : Nat := 0x10001C + t * 0x1000
def TL_GENLOCK (t : Nat) : Nat := 0x100020 + t * 0x1000
def TL_OUT (t : Nat) : Nat := 0x100024 + t * 0x1000
def TL_PSEQ (t : Nat) : Nat := 0x100028 + t * 0x1000
def TL_BL (t : Nat) : Nat := 0x10002C + t * 0x1000
def TL_RSEAT (t : Nat) : Nat := 0x100030 + t * 0x1000
def TL_FRAME (t : Nat) : Nat := 0x100034 + t * 0x1000
def TL_POS (t : Nat) : Nat := 0x100038 + t * 0x1000
def TL_STAT (t : Nat) : Nat := 0x10003C + t * 0x1000
def TL_POFF (t : Nat) : Nat := 0x100040 + t * 0x1000
def TL_HTIME_SH (t : Nat) : Nat := 0x100804 + t * 0x1000
def TL_HSYNC_SH (t : Nat) : Nat := 0x100808 + t * 0x1000
def TL_VTIME_SH (t : Nat) : Nat := 0x10080C + t * 0x1000
def TL_VSYNC_SH (t : Nat) : Nat := 0x100810 + t * 0x1000
def TL_PCLK_SH (t : Nat) : Nat := 0x100814 + t * 0x1000
def TL_LATCH_SH (t : Nat) : Nat := 0x100818 + t * 0x1000
def TL_AS_SH (t : Nat) : Nat := 0x10081C + t * 0x1000
def TL_GENLOCK_SH (t : Nat) : Nat := 0x100820 + t * 0x1000
def TL_OUT_SH (t : Nat) : Nat := 0x100824 + t * 0x1000
def PV_BG_RG (p : Nat) (k : Nat) : Nat := 0x200010 + p * 0x1000 + k * 0x8
def PV_BG_B (p : Nat) (k : Nat) : Nat := 0x200014 + p * 0x1000 + k * 0x8
def PV_GSTAT (p : Nat) : Nat := 0x200200 + p * 0x1000
def PV_SEAL (p : Nat) (k : Nat) : Nat := 0x200204 + p * 0x1000 + k * 0x4
def PV_CBANK_CRC (p : Nat) (b : Nat) : Nat := 0x200240 + p * 0x1000 + b * 0x4
def LY_CTRL (s : Nat) : Nat := 0x210000 + s * 0x400
def LY_SURF (s : Nat) : Nat := 0x210004 + s * 0x400
def LY_SRC_XY (s : Nat) : Nat := 0x210008 + s * 0x400
def LY_SRC_WH (s : Nat) : Nat := 0x21000C + s * 0x400
def LY_DST_XY (s : Nat) : Nat := 0x210010 + s * 0x400
def LY_DST_WH (s : Nat) : Nat := 0x210014 + s * 0x400
def LY_BLEND (s : Nat) : Nat := 0x210018 + s * 0x400
def LY_SCALE (s : Nat) : Nat := 0x21001C + s * 0x400
def LY_CSC (s : Nat) : Nat := 0x210020 + s * 0x400
def LY_CM0 (s : Nat) : Nat := 0x210024 + s * 0x400
def LY_CM1 (s : Nat) : Nat := 0x210028 + s * 0x400
def LY_CM2 (s : Nat) : Nat := 0x21002C + s * 0x400
def LY_CM3 (s : Nat) : Nat := 0x210030 + s * 0x400
def LY_CM4 (s : Nat) : Nat := 0x210034 + s * 0x400
def LY_CM5 (s : Nat) : Nat := 0x210038 + s * 0x400
def LY_HSTEP (s : Nat) : Nat := 0x210040 + s * 0x400
def LY_VSTEP (s : Nat) : Nat := 0x210044 + s * 0x400
def LY_SSTAT (s : Nat) : Nat := 0x210048 + s * 0x400
def LY_POLICY (s : Nat) : Nat := 0x21004C + s * 0x400
def LY_SUBST_RG (s : Nat) : Nat := 0x210050 + s * 0x400
def LY_SUBST_BA (s : Nat) : Nat := 0x210054 + s * 0x400
def LY_FCT_STAT (s : Nat) : Nat := 0x2103C0 + s * 0x400
def LY_FCT_BADCNT (s : Nat) : Nat := 0x2103C4 + s * 0x400
def LY_FCT_BAND (s : Nat) : Nat := 0x2103C8 + s * 0x400
def LY_LATE_STAT (s : Nat) : Nat := 0x2103D0 + s * 0x400
def LY_LATE_CNT (s : Nat) : Nat := 0x2103D4 + s * 0x400
def LY_RACE_STAT (s : Nat) : Nat := 0x2103D8 + s * 0x400
def LY_GSTAT (s : Nat) : Nat := 0x2103E0 + s * 0x400
def FN_CTRL (t : Nat) : Nat := 0x400000 + t * 0x1000
def FN_HOLD (t : Nat) : Nat := 0x400004 + t * 0x1000
def FN_FALLBACK_RG (t : Nat) : Nat := 0x400008 + t * 0x1000
def FN_FALLBACK_B (t : Nat) : Nat := 0x40000C + t * 0x1000
def FN_OCM0 (t : Nat) : Nat := 0x400010 + t * 0x1000
def FN_OCM1 (t : Nat) : Nat := 0x400014 + t * 0x1000
def FN_OCM2 (t : Nat) : Nat := 0x400018 + t * 0x1000
def FN_OCM3 (t : Nat) : Nat := 0x40001C + t * 0x1000
def FN_OCM4 (t : Nat) : Nat := 0x400020 + t * 0x1000
def FN_OCM5 (t : Nat) : Nat := 0x400024 + t * 0x1000
def FN_LUT_CRC (t : Nat) : Nat := 0x400030 + t * 0x1000
def FN_STAT (t : Nat) : Nat := 0x400040 + t * 0x1000
def FN_HELD_CNT (t : Nat) : Nat := 0x400044 + t * 0x1000
def FN_DSC (t : Nat) : Nat := 0x4000C0 + t * 0x1000
def WB_CTRL (n : Nat) : Nat := 0x410000 + n * 0x100
def WB_SURF (n : Nat) (k : Nat) : Nat := 0x410010 + n * 0x100 + k * 0x4
def WB_REL (n : Nat) : Nat := 0x410020 + n * 0x100
def WB_STAT (n : Nat) : Nat := 0x410024 + n * 0x100
def BZ_PSEL (t : Nat) : Nat := 0x440000 + t * 0x4000
def BZ_STAT (t : Nat) : Nat := 0x440004 + t * 0x4000
def BZ_CMP_CNT (t : Nat) : Nat := 0x440008 + t * 0x4000
def BZ_ECC_CNT (t : Nat) : Nat := 0x44000C + t * 0x4000
def BZ_DISP (t : Nat) (i : Nat) : Nat := 0x441000 + t * 0x4000 + i * 0x4
def BZ_I_CTRL (t : Nat) (i : Nat) : Nat := 0x442000 + t * 0x4000 + i * 0x20
def BZ_I_POS (t : Nat) (i : Nat) : Nat := 0x442004 + t * 0x4000 + i * 0x20
def BZ_I_IMG (t : Nat) (i : Nat) : Nat := 0x442008 + t * 0x4000 + i * 0x20
def BZ_I_COL_RG (t : Nat) (i : Nat) : Nat := 0x44200C + t * 0x4000 + i * 0x20
def BZ_I_COL_B (t : Nat) (i : Nat) : Nat := 0x442010 + t * 0x4000 + i * 0x20
def BZ_I_P0 (t : Nat) (i : Nat) : Nat := 0x442014 + t * 0x4000 + i * 0x20
def BZ_I_P1 (t : Nat) (i : Nat) : Nat := 0x442018 + t * 0x4000 + i * 0x20
def BZ_I_P2 (t : Nat) (i : Nat) : Nat := 0x44201C + t * 0x4000 + i * 0x20
def WT_CTRL (t : Nat) (r : Nat) : Nat := 0x480000 + t * 0x400 + r * 0x20
def WT_XY (t : Nat) (r : Nat) : Nat := 0x480004 + t * 0x400 + r * 0x20
def WT_WH (t : Nat) (r : Nat) : Nat := 0x480008 + t * 0x400 + r * 0x20
def WT_KEYS (t : Nat) (r : Nat) : Nat := 0x48000C + t * 0x400 + r * 0x20
def WT_LAST (t : Nat) (r : Nat) : Nat := 0x480010 + t * 0x400 + r * 0x20
def WT_LKEY (t : Nat) (r : Nat) : Nat := 0x480014 + t * 0x400 + r * 0x20
def WT_STAT (t : Nat) (r : Nat) : Nat := 0x480018 + t * 0x400 + r * 0x20
def WT_MM_CNT (t : Nat) (r : Nat) : Nat := 0x48001C + t * 0x400 + r * 0x20
def WT_FAULT : Nat := 0x4C0000
def WT_FTL : Nat := 0x4C0004
def WT_FCTRL : Nat := 0x4C0008
def WT_FCNT : Nat := 0x4C000C
def WT_SINK_CTRL (t : Nat) : Nat := 0x4C0100 + t * 0x8
def WT_SINK_STAT (t : Nat) : Nat := 0x4C0104 + t * 0x8
def AD_CFG : Nat := 0x500000
def AD_CFG2 : Nat := 0x500004
def AD_SVC : Nat := 0x500008
def AD_RESV : Nat := 0x50000C
def AD_DEM : Nat := 0x500010
def AD_ODEM : Nat := 0x500014
def AD_LAST : Nat := 0x500018
def AD_SHORT : Nat := 0x50001C
def AD_ACC_CNT : Nat := 0x500020
def AD_REF_CNT : Nat := 0x500024
def AD_TL_RATE (t : Nat) : Nat := 0x500100 + t * 0x20
def AD_TL_RES (t : Nat) : Nat := 0x500104 + t * 0x20
def AD_TL_MODE (t : Nat) : Nat := 0x500108 + t * 0x20
def AD_SPEC_FRM (t : Nat) : Nat := 0x50010C + t * 0x20
def AD_SPEC_HIT (t : Nat) : Nat := 0x500110 + t * 0x20
def AD_SPEC_MISS (t : Nat) : Nat := 0x500114 + t * 0x20
def AD_SPEC_REDO (t : Nat) : Nat := 0x500118 + t * 0x20
def AD_SPEC_BYTES (t : Nat) : Nat := 0x50011C + t * 0x20
def OG_CTRL : Nat := 0x508000
def OG_POOL : Nat := 0x508004
def OG_USED : Nat := 0x508008
def OG_FLAT : Nat := 0x50800C
def OG_FLAT_CNT : Nat := 0x508010
def OG_EVICT_CNT : Nat := 0x508014
def OG_ABANDON_CNT : Nat := 0x508018
def OG_SAVED : Nat := 0x50801C
def DM_CTRL (c : Nat) : Nat := 0x600000 + c * 0x80
def DM_DB (c : Nat) : Nat := 0x600004 + c * 0x80
def DM_BASE_LO (c : Nat) : Nat := 0x600008 + c * 0x80
def DM_BASE_HI (c : Nat) : Nat := 0x60000C + c * 0x80
def DM_CFG (c : Nat) : Nat := 0x600010 + c * 0x80
def DM_STAT (c : Nat) : Nat := 0x600014 + c * 0x80
def DM_LAST_LO (c : Nat) : Nat := 0x600018 + c * 0x80
def DM_LAST_HI (c : Nat) : Nat := 0x60001C + c * 0x80
def DM_CUR_LO (c : Nat) : Nat := 0x600020 + c * 0x80
def DM_CUR_HI (c : Nat) : Nat := 0x600024 + c * 0x80
def DM_DONE_CNT (c : Nat) : Nat := 0x600028 + c * 0x80
def DM_ERR_CNT (c : Nat) : Nat := 0x60002C + c * 0x80
def DM_STAGE : Nat := 0x60E000
def HT_CTRL (n : Nat) : Nat := 0x60F000 + n * 0x10
def HT_PERIOD (n : Nat) : Nat := 0x60F004 + n * 0x10
def HT_OFFSET (n : Nat) : Nat := 0x60F008 + n * 0x10
def BL_CTRL (c : Nat) : Nat := 0x700000 + c * 0x80
def BL_DB (c : Nat) : Nat := 0x700004 + c * 0x80
def BL_RING_LO (c : Nat) : Nat := 0x700008 + c * 0x80
def BL_RING_HI (c : Nat) : Nat := 0x70000C + c * 0x80
def BL_CFG (c : Nat) : Nat := 0x700010 + c * 0x80
def BL_PACE (c : Nat) : Nat := 0x700014 + c * 0x80
def BL_ROWT (c : Nat) : Nat := 0x700018 + c * 0x80
def BL_STAT (c : Nat) : Nat := 0x70001C + c * 0x80
def BL_CONS (c : Nat) : Nat := 0x700020 + c * 0x80
def BL_DONE_CNT (c : Nat) : Nat := 0x700024 + c * 0x80
def BL_WMARK (c : Nat) : Nat := 0x700028 + c * 0x80
def BL_SLIP_CNT (c : Nat) : Nat := 0x70002C + c * 0x80
def BL_ERR_CNT (c : Nat) : Nat := 0x700030 + c * 0x80
def CA_P_CTRL (i : Nat) : Nat := 0x800000 + i * 0x40
def CA_P_CIR (i : Nat) : Nat := 0x800004 + i * 0x40
def CA_P_PIR (i : Nat) : Nat := 0x800008 + i * 0x40
def CA_P_CBS (i : Nat) : Nat := 0x80000C + i * 0x40
def CA_P_PBS (i : Nat) : Nat := 0x800010 + i * 0x40
def CA_P_PCMAP (i : Nat) : Nat := 0x800014 + i * 0x40
def CA_P_STAT (i : Nat) : Nat := 0x800018 + i * 0x40
def CA_P_GCNT (i : Nat) : Nat := 0x80001C + i * 0x40
def CA_P_YCNT (i : Nat) : Nat := 0x800020 + i * 0x40
def CA_P_RCNT (i : Nat) : Nat := 0x800024 + i * 0x40
def CA_P_TC (i : Nat) : Nat := 0x800028 + i * 0x40
def CA_P_TP (i : Nat) : Nat := 0x80002C + i * 0x40
def CA_Q_CTRL (q : Nat) : Nat := 0x801000 + q * 0x20
def CA_Q_CONTRACT (q : Nat) : Nat := 0x801004 + q * 0x20
def CA_Q_RATE (q : Nat) : Nat := 0x801008 + q * 0x20
def CA_Q_LIM (q : Nat) : Nat := 0x80100C + q * 0x20
def CA_Q_DEBT (q : Nat) : Nat := 0x801010 + q * 0x20
def CA_Q_WAIT (q : Nat) : Nat := 0x801014 + q * 0x20
def CA_Q_STAT (q : Nat) : Nat := 0x801018 + q * 0x20
def CA_Q_CNT (q : Nat) : Nat := 0x80101C + q * 0x20
def CA_STAT : Nat := 0x80F000
def CA_WHEEL : Nat := 0x80F004
def DR_CFG : Nat := 0x900000
def DR_CAP : Nat := 0x900004
def DR_HASH (i : Nat) : Nat := 0x900010 + i * 0x4
def DR_MIR_BASE (w : Nat) : Nat := 0x900040 + w * 0x8
def DR_MIR_SIZE (w : Nat) : Nat := 0x900044 + w * 0x8
def DR_TEMP_CFG : Nat := 0x900080
def DR_TEMP_STAT : Nat := 0x900084
def DR_RETRAIN : Nat := 0x900088
def DR_SCRUB : Nat := 0x90008C
def DR_FAIL : Nat := 0x900090
def DR_STAT : Nat := 0x9000A0
def DR_CE_CNT : Nat := 0x9000A4
def DR_UE_CNT : Nat := 0x9000A8
def DR_UE_ADDR_LO : Nat := 0x9000AC
def DR_UE_ADDR_HI : Nat := 0x9000B0
def DR_SC_STAT (c : Nat) : Nat := 0x901000 + c * 0x100
def DR_SC_CE_CNT (c : Nat) : Nat := 0x901004 + c * 0x100
def DR_SC_UE_CNT (c : Nat) : Nat := 0x901008 + c * 0x100
def DR_SC_WRFAIL_CNT (c : Nat) : Nat := 0x90100C + c * 0x100
def DR_SC_REF_CNT (c : Nat) : Nat := 0x901010 + c * 0x100
def DR_SC_PAY_CNT (c : Nat) : Nat := 0x901014 + c * 0x100
def DR_SC_WQ (c : Nat) : Nat := 0x901018 + c * 0x100
def HP_LINK (p : Nat) : Nat := 0xA00000 + p * 0x10000
def HP_SUBSYS (p : Nat) : Nat := 0xA00004 + p * 0x10000
def HP_RST_STAT (p : Nat) : Nat := 0xA00008 + p * 0x10000
def HP_RST_CNT (p : Nat) : Nat := 0xA0000C + p * 0x10000
def HP_CFG (p : Nat) : Nat := 0xA00010 + p * 0x10000
def HP_DENY_CNT (p : Nat) : Nat := 0xA00030 + p * 0x10000
def HP_DENY_ADDR (p : Nat) : Nat := 0xA00034 + p * 0x10000
def HP_BAR2_BASE_LO (p : Nat) : Nat := 0xA00300 + p * 0x10000
def HP_BAR2_BASE_HI (p : Nat) : Nat := 0xA00304 + p * 0x10000
def HP_BAR2_SIZE (p : Nat) : Nat := 0xA00308 + p * 0x10000
def HP_HW_BASE_LO (p : Nat) : Nat := 0xA00310 + p * 0x10000
def HP_HW_BASE_HI (p : Nat) : Nat := 0xA00314 + p * 0x10000
def HP_HW_SIZE (p : Nat) : Nat := 0xA00318 + p * 0x10000
def HP_HW_STAT (p : Nat) : Nat := 0xA0031C + p * 0x10000
def HP_SF_ARG (p : Nat) (k : Nat) : Nat := 0xA00400 + p * 0x10000 + k * 0x4
def HP_SF_CMD (p : Nat) : Nat := 0xA00430 + p * 0x10000
def HP_SF_STAT (p : Nat) : Nat := 0xA00434 + p * 0x10000
def HP_SF_RESULT (p : Nat) : Nat := 0xA00438 + p * 0x10000
def HP_SF_QUOTA (p : Nat) : Nat := 0xA0043C + p * 0x10000
def HP_CR_CTRL (p : Nat) (r : Nat) : Nat := 0xA00500 + p * 0x10000 + r * 0x20
def HP_CR_BASE_LO (p : Nat) (r : Nat) : Nat := 0xA00504 + p * 0x10000 + r * 0x20
def HP_CR_BASE_HI (p : Nat) (r : Nat) : Nat := 0xA00508 + p * 0x10000 + r * 0x20
def HP_CR_DB (p : Nat) (r : Nat) : Nat := 0xA0050C + p * 0x10000 + r * 0x20
def HP_CR_CONS (p : Nat) (r : Nat) : Nat := 0xA00510 + p * 0x10000 + r * 0x20
def HP_CR_NEXT_SEQ (p : Nat) (r : Nat) : Nat := 0xA00514 + p * 0x10000 + r * 0x20
def HP_CR_STAT (p : Nat) (r : Nat) : Nat := 0xA00518 + p * 0x10000 + r * 0x20
def HP_CR_CFG (p : Nat) (r : Nat) : Nat := 0xA0051C + p * 0x10000 + r * 0x20
def HP_EV_CTRL (p : Nat) : Nat := 0xA00600 + p * 0x10000
def HP_EV_BASE_LO (p : Nat) : Nat := 0xA00604 + p * 0x10000
def HP_EV_BASE_HI (p : Nat) : Nat := 0xA00608 + p * 0x10000
def HP_EV_WB_LO (p : Nat) : Nat := 0xA0060C + p * 0x10000
def HP_EV_WB_HI (p : Nat) : Nat := 0xA00610 + p * 0x10000
def HP_EV_PROD (p : Nat) : Nat := 0xA00614 + p * 0x10000
def HP_EV_CONS (p : Nat) : Nat := 0xA00618 + p * 0x10000
def HP_EV_STAT (p : Nat) : Nat := 0xA0061C + p * 0x10000
def HP_EPOCH (p : Nat) : Nat := 0xA00620 + p * 0x10000
def IG_CTRL (c : Nat) : Nat := 0xB00000 + c * 0x80
def IG_SRC (c : Nat) : Nat := 0xB00004 + c * 0x80
def IG_SIZE (c : Nat) : Nat := 0xB00008 + c * 0x80
def IG_LINE_NS (c : Nat) : Nat := 0xB0000C + c * 0x80
def IG_LBYTES (c : Nat) : Nat := 0xB00010 + c * 0x80
def IG_BUF (c : Nat) (k : Nat) : Nat := 0xB00014 + c * 0x80 + k * 0x4
def IG_REL (c : Nat) : Nat := 0xB00034 + c * 0x80
def IG_STAT (c : Nat) : Nat := 0xB00038 + c * 0x80
def IG_FRAME_CNT (c : Nat) : Nat := 0xB0003C + c * 0x80
def IG_LINE_CNT (c : Nat) : Nat := 0xB00040 + c * 0x80
def IG_DROP_CNT (c : Nat) : Nat := 0xB00044 + c * 0x80
def IG_ERR_CNT (c : Nat) : Nat := 0xB00048 + c * 0x80
def IG_FS_TIME (c : Nat) : Nat := 0xB0004C + c * 0x80
def IG_LANE (l : Nat) : Nat := 0xB01000 + l * 0x4
def OL_QUAD (q : Nat) : Nat := 0xC00000 + q * 0x4
def OL_LINK (l : Nat) : Nat := 0xC00100 + l * 0x4
def OL_LSTAT (l : Nat) : Nat := 0xC00200 + l * 0x4
def CN_CTRL (n : Nat) : Nat := 0xD00000 + n * 0x100
def CN_NBT (n : Nat) : Nat := 0xD00004 + n * 0x100
def CN_DBT (n : Nat) : Nat := 0xD00008 + n * 0x100
def CN_STAT (n : Nat) : Nat := 0xD0000C + n * 0x100
def CN_RX_CNT (n : Nat) : Nat := 0xD00010 + n * 0x100
def CN_ERR_CNT (n : Nat) : Nat := 0xD00014 + n * 0x100
def CN_OVF_CNT (n : Nat) : Nat := 0xD00018 + n * 0x100
def CN_FLT_ID (f : Nat) : Nat := 0xD00400 + f * 0x8
def CN_FLT_MASK (f : Nat) : Nat := 0xD00404 + f * 0x8
def XS_CMD : Nat := 0xD04000
def XS_ADDR : Nat := 0xD04004
def XS_STAT : Nat := 0xD04008
def XS_BUF (k : Nat) : Nat := 0xD04100 + k * 0x4
def SV_ERR_CNT : Nat := 0xD06000
def SV_HB_CFG : Nat := 0xD06004
def SV_HB_STAT : Nat := 0xD06008
def SV_FRAME_CNT : Nat := 0xD0600C
def SM_VAL (n : Nat) : Nat := 0xD08000 + n * 0x4
def SM_STALE (k : Nat) : Nat := 0xD08800 + k * 0x4
def SM_GERR (g : Nat) : Nat := 0xD08900 + g * 0x4
def SM_RANGE_CNT : Nat := 0xD08C00
def SM_SV_DATA : Nat := 0xD08C04
def SM_SV_SIG : Nat := 0xD08C08
def SM_SV_STAT : Nat := 0xD08C0C
def DB_CTRL : Nat := 0xE00000
def DB_SEL (k : Nat) : Nat := 0xE00100 + k * 0x4
def EV_MAP (p : Nat) (c : Nat) : Nat := 0xF00000 + p * 0x1000 + c * 0x4
def EV_MOD (p : Nat) (v : Nat) : Nat := 0xF00100 + p * 0x1000 + v * 0x4
def MSIX_ADDR_LO (p : Nat) (v : Nat) : Nat := 0xF00800 + p * 0x1000 + v * 0x10
def MSIX_ADDR_HI (p : Nat) (v : Nat) : Nat := 0xF00804 + p * 0x1000 + v * 0x10
def MSIX_DATA (p : Nat) (v : Nat) : Nat := 0xF00808 + p * 0x1000 + v * 0x10
def MSIX_CTRL (p : Nat) (v : Nat) : Nat := 0xF0080C + p * 0x1000 + v * 0x10
def MSIX_PBA (p : Nat) (k : Nat) : Nat := 0xF00C00 + p * 0x1000 + k * 0x4

/-! ### Fields -/

def SY_ID_DEVICE : Fld := ⟨0, 16⟩
def SY_ID_REV : Fld := ⟨16, 8⟩
def SY_PSTATE_STATE : Fld := ⟨0, 2⟩
def SY_PSTATE_DEGRADED : Fld := ⟨2, 1⟩
def SY_PSTATE_FAULT : Fld := ⟨3, 1⟩
def SY_DTIME_LO_DTIME : Fld := ⟨0, 32⟩
def SY_DTIME_HI_DTIME : Fld := ⟨0, 32⟩
def SY_BOOT_STAT_F0A : Fld := ⟨0, 4⟩
def SY_BOOT_STAT_F0B : Fld := ⟨4, 4⟩
def SY_BOOT_STAT_F1A : Fld := ⟨8, 4⟩
def SY_BOOT_STAT_F1B : Fld := ⟨12, 4⟩
def SY_BOOT_STAT_SEL : Fld := ⟨16, 2⟩
def SY_BOOT_STAT_PASS2 : Fld := ⟨18, 1⟩
def SY_BOOT_STAT_NOIMAGE : Fld := ⟨19, 1⟩
def SY_BOOT_STAT_BOOTSEL : Fld := ⟨20, 2⟩
def SY_BOOT_STAT_COMPAT : Fld := ⟨22, 1⟩
def SY_BOOT_STAT_WARM : Fld := ⟨23, 1⟩
def SY_BOOT_STAT_FULLTRAIN : Fld := ⟨24, 1⟩
def SY_BOOT_STAT_READY : Fld := ⟨25, 1⟩
def SY_BOOT_STAT_ASSETS : Fld := ⟨26, 1⟩
def SY_BOOT_CTRL_RESTART : Fld := ⟨0, 1⟩
def SY_PARK_CTRL_REQ : Fld := ⟨0, 1⟩
def SY_PARK_CTRL_PARKING : Fld := ⟨1, 1⟩
def SY_PARK_CTRL_DRAIN_MS : Fld := ⟨16, 16⟩
def SY_WAKE_STAT_PIN : Fld := ⟨0, 1⟩
def SY_WAKE_STAT_SVWAKE : Fld := ⟨1, 1⟩
def SY_WAKE_STAT_WARMRST : Fld := ⟨2, 1⟩
def SY_WAKE_STAT_INPARK : Fld := ⟨3, 1⟩
def SY_WAKE_STAT_COLD : Fld := ⟨4, 1⟩
def SY_BOOT_MARK_TIME_US : Fld := ⟨0, 32⟩
def SY_LOAD_FAIL_CHECK : Fld := ⟨0, 8⟩
def SY_LOAD_FAIL_WHERE : Fld := ⟨8, 5⟩
def SY_LOAD_FAIL_SLOT : Fld := ⟨13, 2⟩
def SY_LOAD_FAIL_VALID : Fld := ⟨15, 1⟩
def SY_LOAD_OFFSET_OFFSET : Fld := ⟨0, 32⟩
def SY_IMAGE_SERIAL_SERIAL : Fld := ⟨0, 32⟩
def GH_STAT_WO_REWRITE : Fld := ⟨0, 1⟩
def GH_STAT_LOCK_VIOL : Fld := ⟨1, 1⟩
def GH_STAT_LEDGER_FULL : Fld := ⟨2, 1⟩
def GH_STAT_LOCKED : Fld := ⟨3, 1⟩
def GH_STAT_MAKER : Fld := ⟨4, 1⟩
def GH_LOCK_HARD : Fld := ⟨0, 1⟩
def GH_SV_DENY_CNT_COUNT : Fld := ⟨0, 32⟩
def GH_UID_UID : Fld := ⟨0, 32⟩
def GH_OTP_CNT_COUNT : Fld := ⟨0, 32⟩
def GH_IKH_CTRL_PROGRAM : Fld := ⟨0, 1⟩
def GH_IKH_HASH : Fld := ⟨0, 32⟩
def GH_CFG_CTRL_GO : Fld := ⟨0, 1⟩
def GH_CFG_STAT_BUSY : Fld := ⟨0, 1⟩
def GH_CFG_STAT_TORN : Fld := ⟨1, 1⟩
def GH_CFG_CRC_CRC : Fld := ⟨0, 32⟩
def GH_CFG_REF_CRC : Fld := ⟨0, 32⟩
def GH_LED_STAT_BROKEN : Fld := ⟨0, 1⟩
def GH_LED_STAT_ROLLBACK : Fld := ⟨1, 1⟩
def GH_LED_STAT_FLASH1 : Fld := ⟨2, 1⟩
def GH_LED_STAT_QUEUED : Fld := ⟨8, 7⟩
def GH_LED_HEAD_SEQ : Fld := ⟨0, 32⟩
def GH_LED_DROP_COUNT : Fld := ⟨0, 32⟩
def GH_SES_CTRL_OP : Fld := ⟨0, 2⟩
def GH_SES_STAT_STATE : Fld := ⟨0, 2⟩
def GH_SES_STAT_RESULT : Fld := ⟨4, 4⟩
def GH_SES_STAT_FAILS : Fld := ⟨8, 8⟩
def GH_SES_STAT_RIGHTS : Fld := ⟨16, 7⟩
def GH_SES_CFG_IDLE_S : Fld := ⟨0, 16⟩
def GH_SES_RIGHTS_RIGHTS : Fld := ⟨0, 7⟩
def GH_SES_KEY_KEY : Fld := ⟨0, 32⟩
def GH_SES_NONCE_NONCE : Fld := ⟨0, 32⟩
def GH_SES_SIG_SIG : Fld := ⟨0, 32⟩
def GH_TOK_CTRL_SUBMIT : Fld := ⟨0, 1⟩
def GH_TOK_CTRL_END : Fld := ⟨1, 1⟩
def GH_TOK_STAT_SCOPE : Fld := ⟨0, 2⟩
def GH_TOK_STAT_RESULT : Fld := ⟨4, 4⟩
def GH_TOK_STAT_LEFT_S : Fld := ⟨16, 16⟩
def GH_TOK_DATA_DATA : Fld := ⟨0, 32⟩
def TL_CTRL_EN : Fld := ⟨0, 1⟩
def TL_CTRL_ADAPTIVE : Fld := ⟨1, 1⟩
def TL_CTRL_GENLOCK : Fld := ⟨2, 1⟩
def TL_CTRL_LEGACY_ARITH : Fld := ⟨3, 1⟩
def TL_CTRL_DEPTH : Fld := ⟨4, 2⟩
def TL_HTIME_HACTIVE : Fld := ⟨0, 15⟩
def TL_HTIME_HTOTAL : Fld := ⟨16, 15⟩
def TL_HSYNC_START : Fld := ⟨0, 15⟩
def TL_HSYNC_WIDTH : Fld := ⟨16, 14⟩
def TL_HSYNC_POL : Fld := ⟨31, 1⟩
def TL_VTIME_VACTIVE : Fld := ⟨0, 15⟩
def TL_VTIME_VTOTAL : Fld := ⟨16, 15⟩
def TL_VSYNC_START : Fld := ⟨0, 15⟩
def TL_VSYNC_WIDTH : Fld := ⟨16, 8⟩
def TL_VSYNC_POL : Fld := ⟨31, 1⟩
def TL_PCLK_KHZ : Fld := ⟨0, 22⟩
def TL_LATCH_LINE : Fld := ⟨0, 15⟩
def TL_LATCH_EARLY : Fld := ⟨16, 5⟩
def TL_LATCH_SPEC : Fld := ⟨24, 1⟩
def TL_AS_VTOTAL_MAX : Fld := ⟨0, 15⟩
def TL_AS_TAIL : Fld := ⟨16, 7⟩
def TL_GENLOCK_SRC : Fld := ⟨0, 5⟩
def TL_GENLOCK_OFFSET : Fld := ⟨16, 15⟩
def TL_GENLOCK_LOCKED : Fld := ⟨31, 1⟩
def TL_OUT_MODE : Fld := ⟨0, 2⟩
def TL_OUT_LINK0 : Fld := ⟨8, 6⟩
def TL_OUT_LINK1 : Fld := ⟨16, 6⟩
def TL_OUT_STREAM : Fld := ⟨24, 2⟩
def TL_PSEQ_T_PON : Fld := ⟨0, 8⟩
def TL_PSEQ_T_BLON : Fld := ⟨8, 8⟩
def TL_PSEQ_T_BLOFF : Fld := ⟨16, 8⟩
def TL_PSEQ_T_VOFF : Fld := ⟨24, 8⟩
def TL_BL_DUTY : Fld := ⟨0, 16⟩
def TL_BL_PWM_HZ : Fld := ⟨16, 16⟩
def TL_RSEAT_GO : Fld := ⟨0, 1⟩
def TL_RSEAT_BUSY : Fld := ⟨1, 1⟩
def TL_RSEAT_STATUS : Fld := ⟨8, 4⟩
def TL_FRAME_FRAME : Fld := ⟨0, 32⟩
def TL_POS_LINE : Fld := ⟨0, 15⟩
def TL_STAT_LINK_UP : Fld := ⟨0, 1⟩
def TL_STAT_LINKLOSS : Fld := ⟨1, 1⟩
def TL_STAT_GL_LOST : Fld := ⟨2, 1⟩
def TL_STAT_AS_CLAMP : Fld := ⟨3, 1⟩
def TL_STAT_WR_LOST : Fld := ⟨4, 1⟩
def TL_STAT_BUSY : Fld := ⟨5, 1⟩
def TL_STAT_RETRAIN_CNT : Fld := ⟨16, 16⟩
def TL_POFF_T_POFF : Fld := ⟨0, 12⟩
def PV_BG_RG_R : Fld := ⟨0, 12⟩
def PV_BG_RG_G : Fld := ⟨16, 12⟩
def PV_BG_B_B : Fld := ⟨0, 12⟩
def PV_GSTAT_BUSY0 : Fld := ⟨0, 1⟩
def PV_GSTAT_BUSY1 : Fld := ⟨8, 1⟩
def PV_GSTAT_WR_LOST0 : Fld := ⟨1, 1⟩
def PV_GSTAT_WR_LOST1 : Fld := ⟨9, 1⟩
def PV_GSTAT_SEALED_WR0 : Fld := ⟨2, 1⟩
def PV_GSTAT_SEALED_WR1 : Fld := ⟨10, 1⟩
def PV_GSTAT_SEALED0 : Fld := ⟨3, 1⟩
def PV_GSTAT_SEALED1 : Fld := ⟨11, 1⟩
def PV_SEAL_SEAL : Fld := ⟨0, 1⟩
def PV_SEAL_CODE : Fld := ⟨8, 8⟩
def PV_SEAL_GEN : Fld := ⟨16, 16⟩
def PV_CBANK_CRC_CRC : Fld := ⟨0, 32⟩
def LY_CTRL_EN : Fld := ⟨0, 1⟩
def LY_CTRL_TL : Fld := ⟨1, 1⟩
def LY_CTRL_XFORM : Fld := ⟨4, 2⟩
def LY_SURF_HANDLE : Fld := ⟨0, 32⟩
def LY_SRC_XY_X : Fld := ⟨0, 14⟩
def LY_SRC_XY_Y : Fld := ⟨16, 14⟩
def LY_SRC_WH_W : Fld := ⟨0, 15⟩
def LY_SRC_WH_H : Fld := ⟨16, 15⟩
def LY_DST_XY_X : Fld := ⟨0, 16⟩
def LY_DST_XY_Y : Fld := ⟨16, 16⟩
def LY_DST_WH_W : Fld := ⟨0, 15⟩
def LY_DST_WH_H : Fld := ⟨16, 15⟩
def LY_BLEND_AMODE : Fld := ⟨0, 2⟩
def LY_BLEND_Z : Fld := ⟨4, 4⟩
def LY_BLEND_GALPHA : Fld := ⟨16, 12⟩
def LY_SCALE_HBANK : Fld := ⟨0, 3⟩
def LY_SCALE_VBANK : Fld := ⟨4, 3⟩
def LY_SCALE_VTAPS : Fld := ⟨8, 2⟩
def LY_SCALE_TAPFALL : Fld := ⟨12, 1⟩
def LY_CSC_CM_EN : Fld := ⟨0, 1⟩
def LY_CSC_CHROMA : Fld := ⟨1, 1⟩
def LY_CM0_M00 : Fld := ⟨0, 16⟩
def LY_CM0_M01 : Fld := ⟨16, 16⟩
def LY_CM1_M02 : Fld := ⟨0, 16⟩
def LY_CM1_M10 : Fld := ⟨16, 16⟩
def LY_CM2_M11 : Fld := ⟨0, 16⟩
def LY_CM2_M12 : Fld := ⟨16, 16⟩
def LY_CM3_M20 : Fld := ⟨0, 16⟩
def LY_CM3_M21 : Fld := ⟨16, 16⟩
def LY_CM4_M22 : Fld := ⟨0, 16⟩
def LY_CM4_OFF2 : Fld := ⟨16, 14⟩
def LY_CM5_OFF0 : Fld := ⟨0, 14⟩
def LY_CM5_OFF1 : Fld := ⟨16, 14⟩
def LY_HSTEP_STEP : Fld := ⟨0, 32⟩
def LY_VSTEP_STEP : Fld := ⟨0, 32⟩
def LY_SSTAT_VTAPS_EFF : Fld := ⟨0, 2⟩
def LY_SSTAT_HBYP : Fld := ⟨4, 1⟩
def LY_SSTAT_VBYP : Fld := ⟨5, 1⟩
def LY_POLICY_SUBST : Fld := ⟨0, 2⟩
def LY_POLICY_BESTEFF : Fld := ⟨2, 1⟩
def LY_POLICY_RACE : Fld := ⟨3, 1⟩
def LY_POLICY_RACE_SRC : Fld := ⟨4, 5⟩
def LY_POLICY_TIDE : Fld := ⟨9, 1⟩
def LY_POLICY_QUIET : Fld := ⟨10, 1⟩
def LY_SUBST_RG_R : Fld := ⟨0, 12⟩
def LY_SUBST_RG_G : Fld := ⟨16, 12⟩
def LY_SUBST_BA_B : Fld := ⟨0, 12⟩
def LY_SUBST_BA_A : Fld := ⟨16, 12⟩
def LY_FCT_STAT_BAD : Fld := ⟨0, 1⟩
def LY_FCT_STAT_BUDGET : Fld := ⟨1, 1⟩
def LY_FCT_STAT_UNDER : Fld := ⟨2, 1⟩
def LY_FCT_STAT_CAUSE : Fld := ⟨4, 4⟩
def LY_FCT_BADCNT_COUNT : Fld := ⟨0, 32⟩
def LY_FCT_BAND_MAXBYTES : Fld := ⟨0, 17⟩
def LY_LATE_STAT_LATE : Fld := ⟨0, 1⟩
def LY_LATE_STAT_BADDATA : Fld := ⟨1, 1⟩
def LY_LATE_STAT_RACE : Fld := ⟨2, 1⟩
def LY_LATE_STAT_TEAR : Fld := ⟨3, 1⟩
def LY_LATE_STAT_CAUSE : Fld := ⟨4, 4⟩
def LY_LATE_CNT_COUNT : Fld := ⟨0, 32⟩
def LY_RACE_STAT_BUF : Fld := ⟨0, 3⟩
def LY_RACE_STAT_MINLEAD : Fld := ⟨16, 16⟩
def LY_GSTAT_BUSY : Fld := ⟨0, 1⟩
def LY_GSTAT_WR_LOST : Fld := ⟨1, 1⟩
def LY_GSTAT_SEALED_WR : Fld := ⟨2, 1⟩
def FN_CTRL_CM_EN : Fld := ⟨0, 1⟩
def FN_CTRL_LUT_EN : Fld := ⟨1, 1⟩
def FN_CTRL_DITHER : Fld := ⟨2, 2⟩
def FN_HOLD_HANDLE : Fld := ⟨0, 32⟩
def FN_FALLBACK_RG_R : Fld := ⟨0, 12⟩
def FN_FALLBACK_RG_G : Fld := ⟨16, 12⟩
def FN_FALLBACK_B_B : Fld := ⟨0, 12⟩
def FN_OCM0_M00 : Fld := ⟨0, 16⟩
def FN_OCM0_M01 : Fld := ⟨16, 16⟩
def FN_OCM1_M02 : Fld := ⟨0, 16⟩
def FN_OCM1_M10 : Fld := ⟨16, 16⟩
def FN_OCM2_M11 : Fld := ⟨0, 16⟩
def FN_OCM2_M12 : Fld := ⟨16, 16⟩
def FN_OCM3_M20 : Fld := ⟨0, 16⟩
def FN_OCM3_M21 : Fld := ⟨16, 16⟩
def FN_OCM4_M22 : Fld := ⟨0, 16⟩
def FN_OCM4_OFF2 : Fld := ⟨16, 14⟩
def FN_OCM5_OFF0 : Fld := ⟨0, 14⟩
def FN_OCM5_OFF1 : Fld := ⟨16, 14⟩
def FN_LUT_CRC_CRC : Fld := ⟨0, 32⟩
def FN_STAT_HOLDING : Fld := ⟨0, 1⟩
def FN_STAT_HELD : Fld := ⟨1, 1⟩
def FN_STAT_BADHOLD : Fld := ⟨2, 1⟩
def FN_HELD_CNT_COUNT : Fld := ⟨0, 32⟩
def FN_DSC_EN : Fld := ⟨0, 1⟩
def FN_DSC_SLICES : Fld := ⟨1, 3⟩
def FN_DSC_BPP_X16 : Fld := ⟨4, 10⟩
def FN_DSC_SLICE_H : Fld := ⟨16, 14⟩
def WB_CTRL_EN : Fld := ⟨0, 1⟩
def WB_CTRL_TL : Fld := ⟨1, 4⟩
def WB_CTRL_COUNT : Fld := ⟨8, 2⟩
def WB_CTRL_FMT : Fld := ⟨10, 1⟩
def WB_SURF_HANDLE : Fld := ⟨0, 32⟩
def WB_REL_FREE : Fld := ⟨0, 4⟩
def WB_STAT_LAST : Fld := ⟨0, 2⟩
def WB_STAT_SKIP_CNT : Fld := ⟨16, 16⟩
def BZ_PSEL_INDEX : Fld := ⟨0, 4⟩
def BZ_PSEL_SRC : Fld := ⟨4, 1⟩
def BZ_PSEL_STALE_PRESET : Fld := ⟨8, 4⟩
def BZ_PSEL_SIGNAL : Fld := ⟨16, 9⟩
def BZ_STAT_CMP : Fld := ⟨0, 1⟩
def BZ_STAT_ECC : Fld := ⟨1, 1⟩
def BZ_STAT_PSTALE : Fld := ⟨2, 1⟩
def BZ_STAT_CUR : Fld := ⟨8, 4⟩
def BZ_STAT_CURVALID : Fld := ⟨12, 1⟩
def BZ_CMP_CNT_COUNT : Fld := ⟨0, 32⟩
def BZ_ECC_CNT_CORR : Fld := ⟨0, 16⟩
def BZ_ECC_CNT_UNCORR : Fld := ⟨16, 16⟩
def BZ_DISP_CODE : Fld := ⟨0, 24⟩
def BZ_DISP_STATE : Fld := ⟨24, 2⟩
def BZ_DISP_STALE : Fld := ⟨30, 1⟩
def BZ_DISP_SHOWN : Fld := ⟨31, 1⟩
def BZ_I_CTRL_EN : Fld := ⟨0, 1⟩
def BZ_I_CTRL_KIND : Fld := ⟨1, 2⟩
def BZ_I_CTRL_STALE_MODE : Fld := ⟨3, 1⟩
def BZ_I_CTRL_BLINK_HZ : Fld := ⟨4, 3⟩
def BZ_I_CTRL_SIGNAL : Fld := ⟨16, 9⟩
def BZ_I_POS_X : Fld := ⟨0, 16⟩
def BZ_I_POS_Y : Fld := ⟨16, 16⟩
def BZ_I_IMG_IMAGE : Fld := ⟨0, 10⟩
def BZ_I_COL_RG_R : Fld := ⟨0, 12⟩
def BZ_I_COL_RG_G : Fld := ⟨16, 12⟩
def BZ_I_COL_B_B : Fld := ⟨0, 12⟩
def BZ_I_P0_P0 : Fld := ⟨0, 16⟩
def BZ_I_P1_OFFS : Fld := ⟨0, 32⟩
def BZ_I_P2_MULT : Fld := ⟨0, 32⟩
def WT_CTRL_EN : Fld := ⟨0, 1⟩
def WT_CTRL_MODE : Fld := ⟨1, 2⟩
def WT_CTRL_SAFETY : Fld := ⟨3, 1⟩
def WT_CTRL_FROZEN_N : Fld := ⟨8, 8⟩
def WT_CTRL_TABLE : Fld := ⟨16, 10⟩
def WT_CTRL_NKEY : Fld := ⟨28, 3⟩
def WT_XY_X : Fld := ⟨0, 13⟩
def WT_XY_Y : Fld := ⟨16, 13⟩
def WT_WH_W : Fld := ⟨0, 14⟩
def WT_WH_H : Fld := ⟨16, 14⟩
def WT_KEYS_KEYINST : Fld := ⟨0, 32⟩
def WT_LAST_CRC : Fld := ⟨0, 32⟩
def WT_LKEY_KEY : Fld := ⟨0, 32⟩
def WT_STAT_MISMATCH : Fld := ⟨0, 1⟩
def WT_STAT_SEEN : Fld := ⟨1, 1⟩
def WT_STAT_KIND : Fld := ⟨4, 4⟩
def WT_MM_CNT_COUNT : Fld := ⟨0, 32⟩
def WT_FAULT_FAULT : Fld := ⟨0, 1⟩
def WT_FAULT_STARTUP : Fld := ⟨1, 1⟩
def WT_FAULT_WATCH : Fld := ⟨8, 1⟩
def WT_FAULT_LINK : Fld := ⟨9, 1⟩
def WT_FAULT_BEZEL : Fld := ⟨10, 1⟩
def WT_FAULT_SINK : Fld := ⟨11, 1⟩
def WT_FAULT_HB : Fld := ⟨12, 1⟩
def WT_FTL_TL : Fld := ⟨0, 16⟩
def WT_FCTRL_AUTOREL : Fld := ⟨0, 1⟩
def WT_FCNT_COUNT : Fld := ⟨0, 32⟩
def WT_SINK_CTRL_MODE : Fld := ⟨0, 2⟩
def WT_SINK_CTRL_PERIOD : Fld := ⟨8, 8⟩
def WT_SINK_STAT_ACTIVE : Fld := ⟨0, 1⟩
def WT_SINK_STAT_MISMATCH : Fld := ⟨1, 1⟩
def WT_SINK_STAT_CNT : Fld := ⟨16, 16⟩
def AD_CFG_LAT_NS : Fld := ⟨0, 16⟩
def AD_CFG_URGENT_NS : Fld := ⟨16, 16⟩
def AD_CFG2_MAINT_PM : Fld := ⟨0, 8⟩
def AD_CFG2_IG_LEAD : Fld := ⟨8, 4⟩
def AD_CFG2_SPEC_EN : Fld := ⟨16, 1⟩
def AD_SVC_SVC : Fld := ⟨0, 32⟩
def AD_RESV_RES : Fld := ⟨0, 32⟩
def AD_DEM_DEM : Fld := ⟨0, 32⟩
def AD_ODEM_ODEM : Fld := ⟨0, 32⟩
def AD_LAST_CODE : Fld := ⟨0, 8⟩
def AD_LAST_TL : Fld := ⟨8, 4⟩
def AD_LAST_VALID : Fld := ⟨12, 1⟩
def AD_LAST_BUSY : Fld := ⟨13, 1⟩
def AD_LAST_WR_LOST : Fld := ⟨14, 1⟩
def AD_SHORT_SHORT : Fld := ⟨0, 32⟩
def AD_ACC_CNT_COUNT : Fld := ⟨0, 32⟩
def AD_REF_CNT_COUNT : Fld := ⟨0, 32⟩
def AD_TL_RATE_RATE : Fld := ⟨0, 32⟩
def AD_TL_RES_RES : Fld := ⟨0, 32⟩
def AD_TL_MODE_SPEC_N : Fld := ⟨0, 5⟩
def AD_TL_MODE_SPEC : Fld := ⟨8, 1⟩
def AD_TL_MODE_PEND : Fld := ⟨9, 1⟩
def AD_TL_MODE_PEND_SPEC : Fld := ⟨10, 1⟩
def AD_SPEC_FRM_COUNT : Fld := ⟨0, 32⟩
def AD_SPEC_HIT_COUNT : Fld := ⟨0, 32⟩
def AD_SPEC_MISS_COUNT : Fld := ⟨0, 32⟩
def AD_SPEC_REDO_COUNT : Fld := ⟨0, 32⟩
def AD_SPEC_BYTES_COUNT : Fld := ⟨0, 32⟩
def OG_CTRL_FLAT_EN : Fld := ⟨0, 1⟩
def OG_CTRL_FLAT_AGE : Fld := ⟨8, 4⟩
def OG_POOL_BASE : Fld := ⟨0, 10⟩
def OG_POOL_SIZE : Fld := ⟨16, 11⟩
def OG_USED_BYTES : Fld := ⟨0, 27⟩
def OG_FLAT_TL : Fld := ⟨0, 16⟩
def OG_FLAT_CNT_COUNT : Fld := ⟨0, 32⟩
def OG_EVICT_CNT_COUNT : Fld := ⟨0, 32⟩
def OG_ABANDON_CNT_COUNT : Fld := ⟨0, 32⟩
def OG_SAVED_RATE : Fld := ⟨0, 32⟩
def DM_CTRL_START : Fld := ⟨0, 1⟩
def DM_CTRL_ABORT : Fld := ⟨1, 1⟩
def DM_DB_RING : Fld := ⟨0, 1⟩
def DM_BASE_LO_BASE : Fld := ⟨6, 26⟩
def DM_BASE_HI_BASE : Fld := ⟨0, 10⟩
def DM_CFG_ONERR : Fld := ⟨0, 1⟩
def DM_CFG_MAXRD : Fld := ⟨8, 6⟩
def DM_CFG_QUEUE : Fld := ⟨16, 8⟩
def DM_STAT_STATE : Fld := ⟨0, 3⟩
def DM_STAT_PEND : Fld := ⟨3, 1⟩
def DM_STAT_CAUSE : Fld := ⟨4, 4⟩
def DM_STAT_ERR : Fld := ⟨8, 1⟩
def DM_STAT_CFG_IGN : Fld := ⟨9, 1⟩
def DM_STAT_CHAINBRK : Fld := ⟨10, 1⟩
def DM_STAT_CHAIN_EPOCH : Fld := ⟨16, 16⟩
def DM_LAST_LO_LAST_VALID : Fld := ⟨0, 1⟩
def DM_LAST_LO_LAST : Fld := ⟨6, 26⟩
def DM_LAST_HI_LAST : Fld := ⟨0, 10⟩
def DM_CUR_LO_CUR : Fld := ⟨6, 26⟩
def DM_CUR_HI_CUR : Fld := ⟨0, 10⟩
def DM_DONE_CNT_COUNT : Fld := ⟨0, 32⟩
def DM_ERR_CNT_COUNT : Fld := ⟨0, 32⟩
def DM_STAGE_INUSE : Fld := ⟨0, 8⟩
def DM_STAGE_PEAK : Fld := ⟨16, 8⟩
def HT_CTRL_EN : Fld := ⟨0, 1⟩
def HT_PERIOD_PERIOD : Fld := ⟨0, 32⟩
def HT_OFFSET_OFFSET : Fld := ⟨0, 32⟩
def BL_CTRL_EN : Fld := ⟨0, 1⟩
def BL_CTRL_ABORT : Fld := ⟨1, 1⟩
def BL_DB_PROD : Fld := ⟨0, 16⟩
def BL_DB_EPOCH : Fld := ⟨16, 16⟩
def BL_RING_LO_BASE : Fld := ⟨12, 20⟩
def BL_RING_HI_BASE : Fld := ⟨0, 10⟩
def BL_CFG_ONERR : Fld := ⟨0, 1⟩
def BL_CFG_LOG2 : Fld := ⟨8, 4⟩
def BL_CFG_QUEUE : Fld := ⟨16, 8⟩
def BL_PACE_DEAD_NS : Fld := ⟨0, 16⟩
def BL_ROWT_ROW_NS : Fld := ⟨0, 20⟩
def BL_STAT_STATE : Fld := ⟨0, 3⟩
def BL_STAT_CAUSE : Fld := ⟨4, 4⟩
def BL_STAT_ERR : Fld := ⟨8, 1⟩
def BL_STAT_CFG_IGN : Fld := ⟨9, 1⟩
def BL_STAT_SLIP : Fld := ⟨10, 1⟩
def BL_STAT_STALE : Fld := ⟨11, 1⟩
def BL_STAT_DROP_CNT : Fld := ⟨16, 16⟩
def BL_CONS_CONS : Fld := ⟨0, 16⟩
def BL_DONE_CNT_COUNT : Fld := ⟨0, 32⟩
def BL_WMARK_ROWS : Fld := ⟨0, 16⟩
def BL_WMARK_EDGE_Y : Fld := ⟨16, 16⟩
def BL_SLIP_CNT_COUNT : Fld := ⟨0, 32⟩
def BL_ERR_CNT_COUNT : Fld := ⟨0, 32⟩
def CA_P_CTRL_EN : Fld := ⟨0, 1⟩
def CA_P_CTRL_AWARE : Fld := ⟨1, 1⟩
def CA_P_CTRL_GUAR : Fld := ⟨2, 1⟩
def CA_P_CTRL_MIRROR : Fld := ⟨3, 1⟩
def CA_P_CTRL_HOLD_EV : Fld := ⟨4, 1⟩
def CA_P_CTRL_OVERHEAD : Fld := ⟨8, 8⟩
def CA_P_CIR_CIR : Fld := ⟨0, 32⟩
def CA_P_PIR_PIR : Fld := ⟨0, 32⟩
def CA_P_CBS_CBS : Fld := ⟨0, 24⟩
def CA_P_PBS_PBS : Fld := ⟨0, 24⟩
def CA_P_PCMAP_TC0 : Fld := ⟨0, 2⟩
def CA_P_PCMAP_TC1 : Fld := ⟨2, 2⟩
def CA_P_PCMAP_TC2 : Fld := ⟨4, 2⟩
def CA_P_PCMAP_TC3 : Fld := ⟨6, 2⟩
def CA_P_PCMAP_TC4 : Fld := ⟨8, 2⟩
def CA_P_PCMAP_TC5 : Fld := ⟨10, 2⟩
def CA_P_PCMAP_TC6 : Fld := ⟨12, 2⟩
def CA_P_PCMAP_TC7 : Fld := ⟨14, 2⟩
def CA_P_STAT_HOLDING : Fld := ⟨0, 1⟩
def CA_P_STAT_HELD : Fld := ⟨1, 1⟩
def CA_P_GCNT_COUNT : Fld := ⟨0, 32⟩
def CA_P_YCNT_COUNT : Fld := ⟨0, 32⟩
def CA_P_RCNT_COUNT : Fld := ⟨0, 32⟩
def CA_P_TC_TOKENS : Fld := ⟨0, 32⟩
def CA_P_TP_TOKENS : Fld := ⟨0, 32⟩
def CA_Q_CTRL_EN : Fld := ⟨0, 1⟩
def CA_Q_CTRL_GUAR : Fld := ⟨1, 1⟩
def CA_Q_CTRL_MIRROR : Fld := ⟨2, 1⟩
def CA_Q_CTRL_EXCESS : Fld := ⟨3, 1⟩
def CA_Q_CONTRACT_CONTRACT : Fld := ⟨0, 32⟩
def CA_Q_RATE_RATE : Fld := ⟨0, 32⟩
def CA_Q_LIM_BURST : Fld := ⟨0, 16⟩
def CA_Q_LIM_DEBT_MAX : Fld := ⟨16, 16⟩
def CA_Q_DEBT_DEBT : Fld := ⟨0, 32⟩
def CA_Q_WAIT_NS : Fld := ⟨0, 32⟩
def CA_Q_STAT_PAUSED : Fld := ⟨0, 1⟩
def CA_Q_STAT_WAITING : Fld := ⟨1, 1⟩
def CA_Q_STAT_CLAMP : Fld := ⟨2, 1⟩
def CA_Q_STAT_DMAX : Fld := ⟨3, 1⟩
def CA_Q_CNT_COUNT : Fld := ⟨0, 32⟩
def CA_STAT_BUSY : Fld := ⟨0, 1⟩
def CA_STAT_WR_LOST : Fld := ⟨1, 1⟩
def CA_WHEEL_SLOT : Fld := ⟨0, 12⟩
def CA_WHEEL_PARKED : Fld := ⟨16, 9⟩
def DR_CFG_RATE : Fld := ⟨0, 13⟩
def DR_CFG_RANKS : Fld := ⟨13, 1⟩
def DR_CFG_WIDTH : Fld := ⟨14, 1⟩
def DR_CFG_DENSITY : Fld := ⟨16, 3⟩
def DR_CFG_SUBCH_MASK : Fld := ⟨24, 8⟩
def DR_CAP_MIB : Fld := ⟨0, 20⟩
def DR_HASH_MASK : Fld := ⟨0, 32⟩
def DR_MIR_BASE_BASE : Fld := ⟨0, 21⟩
def DR_MIR_SIZE_SIZE : Fld := ⟨0, 19⟩
def DR_TEMP_CFG_T2X : Fld := ⟨0, 8⟩
def DR_TEMP_STAT_T0 : Fld := ⟨0, 8⟩
def DR_TEMP_STAT_T1 : Fld := ⟨8, 8⟩
def DR_TEMP_STAT_T2 : Fld := ⟨16, 8⟩
def DR_TEMP_STAT_T3 : Fld := ⟨24, 8⟩
def DR_RETRAIN_PERIOD_MS : Fld := ⟨0, 16⟩
def DR_RETRAIN_EN : Fld := ⟨16, 1⟩
def DR_SCRUB_HOURS : Fld := ⟨0, 8⟩
def DR_FAIL_THRESH : Fld := ⟨0, 8⟩
def DR_STAT_READY : Fld := ⟨0, 1⟩
def DR_STAT_SNAPDIRTY : Fld := ⟨1, 1⟩
def DR_STAT_FAILED : Fld := ⟨2, 1⟩
def DR_STAT_OVERTEMP : Fld := ⟨3, 1⟩
def DR_CE_CNT_COUNT : Fld := ⟨0, 32⟩
def DR_UE_CNT_COUNT : Fld := ⟨0, 32⟩
def DR_UE_ADDR_LO_HPA : Fld := ⟨6, 26⟩
def DR_UE_ADDR_HI_HPA : Fld := ⟨0, 10⟩
def DR_SC_STAT_TRAINED : Fld := ⟨0, 1⟩
def DR_SC_STAT_MODE2X : Fld := ⟨1, 1⟩
def DR_SC_STAT_FAILED : Fld := ⟨2, 2⟩
def DR_SC_STAT_DEBT0 : Fld := ⟨4, 3⟩
def DR_SC_STAT_DEBT1 : Fld := ⟨8, 3⟩
def DR_SC_STAT_PAYDOWN : Fld := ⟨11, 1⟩
def DR_SC_STAT_BUSY : Fld := ⟨12, 1⟩
def DR_SC_STAT_WR_LOST : Fld := ⟨13, 1⟩
def DR_SC_CE_CNT_COUNT : Fld := ⟨0, 32⟩
def DR_SC_UE_CNT_COUNT : Fld := ⟨0, 32⟩
def DR_SC_WRFAIL_CNT_COUNT : Fld := ⟨0, 32⟩
def DR_SC_REF_CNT_COUNT : Fld := ⟨0, 32⟩
def DR_SC_PAY_CNT_COUNT : Fld := ⟨0, 32⟩
def DR_SC_WQ_USED : Fld := ⟨0, 7⟩
def DR_SC_WQ_PEAK : Fld := ⟨16, 7⟩
def HP_LINK_UP : Fld := ⟨0, 1⟩
def HP_LINK_SPEED : Fld := ⟨1, 3⟩
def HP_LINK_WIDTH : Fld := ⟨4, 4⟩
def HP_LINK_BME : Fld := ⟨8, 1⟩
def HP_LINK_D3 : Fld := ⟨9, 1⟩
def HP_LINK_MSIX : Fld := ⟨10, 1⟩
def HP_SUBSYS_SVID : Fld := ⟨0, 16⟩
def HP_SUBSYS_SSID : Fld := ⟨16, 16⟩
def HP_RST_STAT_LINKDOWN : Fld := ⟨0, 1⟩
def HP_RST_STAT_HOTRST : Fld := ⟨1, 1⟩
def HP_RST_STAT_FLR : Fld := ⟨2, 1⟩
def HP_RST_STAT_DEGRADE : Fld := ⟨3, 1⟩
def HP_RST_CNT_COUNT : Fld := ⟨0, 32⟩
def HP_CFG_MAXSPEED : Fld := ⟨0, 3⟩
def HP_CFG_ASPM_L1 : Fld := ⟨4, 1⟩
def HP_DENY_CNT_COUNT : Fld := ⟨0, 32⟩
def HP_DENY_ADDR_OFFSET : Fld := ⟨2, 24⟩
def HP_BAR2_BASE_LO_BASE : Fld := ⟨20, 12⟩
def HP_BAR2_BASE_HI_BASE : Fld := ⟨0, 7⟩
def HP_BAR2_SIZE_LOG2 : Fld := ⟨0, 6⟩
def HP_BAR2_SIZE_HOSTLOG2 : Fld := ⟨8, 6⟩
def HP_HW_BASE_LO_BASE : Fld := ⟨12, 20⟩
def HP_HW_BASE_HI_BASE : Fld := ⟨0, 32⟩
def HP_HW_SIZE_LOG2 : Fld := ⟨0, 6⟩
def HP_HW_STAT_ERR : Fld := ⟨0, 1⟩
def HP_HW_STAT_ERR_CNT : Fld := ⟨16, 16⟩
def HP_SF_ARG_ARG : Fld := ⟨0, 32⟩
def HP_SF_CMD_OP : Fld := ⟨0, 3⟩
def HP_SF_STAT_BUSY : Fld := ⟨0, 1⟩
def HP_SF_STAT_WR_LOST : Fld := ⟨1, 1⟩
def HP_SF_STAT_CODE : Fld := ⟨8, 8⟩
def HP_SF_RESULT_RESULT : Fld := ⟨0, 32⟩
def HP_SF_QUOTA_MAX : Fld := ⟨0, 17⟩
def HP_CR_CTRL_EN : Fld := ⟨0, 1⟩
def HP_CR_CTRL_LOG2 : Fld := ⟨8, 4⟩
def HP_CR_BASE_LO_BASE : Fld := ⟨12, 20⟩
def HP_CR_BASE_HI_BASE : Fld := ⟨0, 7⟩
def HP_CR_DB_PROD : Fld := ⟨0, 16⟩
def HP_CR_DB_EPOCH : Fld := ⟨16, 16⟩
def HP_CR_CONS_CONS : Fld := ⟨0, 16⟩
def HP_CR_NEXT_SEQ_SEQ : Fld := ⟨0, 32⟩
def HP_CR_STAT_HALT : Fld := ⟨0, 1⟩
def HP_CR_STAT_CAUSE : Fld := ⟨1, 3⟩
def HP_CR_STAT_DUP : Fld := ⟨4, 1⟩
def HP_CR_STAT_STALE : Fld := ⟨5, 1⟩
def HP_CR_STAT_CFG_BAD : Fld := ⟨6, 1⟩
def HP_CR_STAT_DROP_CNT : Fld := ⟨16, 16⟩
def HP_CR_CFG_FENCE_MS : Fld := ⟨0, 16⟩
def HP_EV_CTRL_EN : Fld := ⟨0, 1⟩
def HP_EV_CTRL_LOG2 : Fld := ⟨8, 5⟩
def HP_EV_BASE_LO_BASE : Fld := ⟨12, 20⟩
def HP_EV_BASE_HI_BASE : Fld := ⟨0, 7⟩
def HP_EV_WB_LO_WB : Fld := ⟨3, 29⟩
def HP_EV_WB_HI_WB : Fld := ⟨0, 7⟩
def HP_EV_PROD_PROD : Fld := ⟨0, 32⟩
def HP_EV_CONS_CONS : Fld := ⟨0, 32⟩
def HP_EV_STAT_FULL : Fld := ⟨0, 1⟩
def HP_EV_STAT_BACKLOG : Fld := ⟨1, 1⟩
def HP_EV_STAT_CFG_BAD : Fld := ⟨2, 1⟩
def HP_EV_STAT_LOST_CNT : Fld := ⟨16, 16⟩
def HP_EPOCH_EPOCH : Fld := ⟨0, 16⟩
def IG_CTRL_EN : Fld := ⟨0, 1⟩
def IG_CTRL_DT : Fld := ⟨1, 2⟩
def IG_CTRL_MANUAL : Fld := ⟨3, 1⟩
def IG_CTRL_COUNT : Fld := ⟨4, 3⟩
def IG_SRC_LANE : Fld := ⟨0, 6⟩
def IG_SRC_VC : Fld := ⟨8, 2⟩
def IG_SIZE_W : Fld := ⟨0, 15⟩
def IG_SIZE_H : Fld := ⟨16, 15⟩
def IG_LINE_NS_LINE_NS : Fld := ⟨0, 24⟩
def IG_LBYTES_LINE_BYTES : Fld := ⟨0, 17⟩
def IG_BUF_HANDLE : Fld := ⟨0, 32⟩
def IG_REL_FREE : Fld := ⟨0, 8⟩
def IG_STAT_STATE : Fld := ⟨0, 2⟩
def IG_STAT_BUF : Fld := ⟨4, 3⟩
def IG_STAT_LAST : Fld := ⟨8, 3⟩
def IG_STAT_LASTVALID : Fld := ⟨11, 1⟩
def IG_STAT_SHORT : Fld := ⟨16, 1⟩
def IG_STAT_ERR : Fld := ⟨17, 1⟩
def IG_STAT_DROP : Fld := ⟨18, 1⟩
def IG_STAT_FAST : Fld := ⟨19, 1⟩
def IG_STAT_IGNORED : Fld := ⟨20, 1⟩
def IG_FRAME_CNT_COUNT : Fld := ⟨0, 32⟩
def IG_LINE_CNT_A : Fld := ⟨0, 16⟩
def IG_DROP_CNT_COUNT : Fld := ⟨0, 32⟩
def IG_ERR_CNT_COUNT : Fld := ⟨0, 32⟩
def IG_FS_TIME_TIME : Fld := ⟨0, 32⟩
def IG_LANE_UP : Fld := ⟨0, 1⟩
def IG_LANE_GEAR : Fld := ⟨1, 3⟩
def IG_LANE_MAXGEAR : Fld := ⟨4, 3⟩
def IG_LANE_RETRY : Fld := ⟨16, 16⟩
def OL_QUAD_MODE : Fld := ⟨0, 2⟩
def OL_LINK_PROTO : Fld := ⟨0, 3⟩
def OL_LINK_LANES : Fld := ⟨4, 2⟩
def OL_LINK_MAXRATE : Fld := ⟨8, 4⟩
def OL_LINK_SSC : Fld := ⟨12, 1⟩
def OL_LSTAT_UP : Fld := ⟨0, 1⟩
def OL_LSTAT_RATE : Fld := ⟨8, 4⟩
def OL_LSTAT_LANES : Fld := ⟨12, 2⟩
def OL_LSTAT_FEC : Fld := ⟨14, 1⟩
def OL_LSTAT_RETRY : Fld := ⟨16, 16⟩
def CN_CTRL_EN : Fld := ⟨0, 1⟩
def CN_CTRL_MODE : Fld := ⟨1, 1⟩
def CN_CTRL_FDEN : Fld := ⟨2, 1⟩
def CN_NBT_BRP : Fld := ⟨0, 8⟩
def CN_NBT_TSEG1 : Fld := ⟨8, 8⟩
def CN_NBT_TSEG2 : Fld := ⟨16, 7⟩
def CN_NBT_SJW : Fld := ⟨24, 7⟩
def CN_DBT_BRP : Fld := ⟨0, 5⟩
def CN_DBT_TSEG1 : Fld := ⟨8, 5⟩
def CN_DBT_TSEG2 : Fld := ⟨16, 4⟩
def CN_DBT_SJW : Fld := ⟨24, 4⟩
def CN_STAT_ONBUS : Fld := ⟨0, 1⟩
def CN_STAT_EPASS : Fld := ⟨1, 1⟩
def CN_STAT_REC : Fld := ⟨8, 8⟩
def CN_STAT_BUSY : Fld := ⟨16, 1⟩
def CN_STAT_WR_LOST : Fld := ⟨17, 1⟩
def CN_STAT_OVF : Fld := ⟨18, 1⟩
def CN_RX_CNT_COUNT : Fld := ⟨0, 32⟩
def CN_ERR_CNT_COUNT : Fld := ⟨0, 32⟩
def CN_OVF_CNT_COUNT : Fld := ⟨0, 32⟩
def CN_FLT_ID_ID : Fld := ⟨0, 29⟩
def CN_FLT_ID_IDE : Fld := ⟨29, 1⟩
def CN_FLT_ID_CTRL : Fld := ⟨30, 1⟩
def CN_FLT_ID_EN : Fld := ⟨31, 1⟩
def CN_FLT_MASK_MASK : Fld := ⟨0, 29⟩
def XS_CMD_OP : Fld := ⟨0, 3⟩
def XS_CMD_CS : Fld := ⟨4, 1⟩
def XS_CMD_LEN : Fld := ⟨8, 9⟩
def XS_ADDR_ADDR : Fld := ⟨0, 26⟩
def XS_STAT_BUSY : Fld := ⟨0, 1⟩
def XS_STAT_WR_LOST : Fld := ⟨1, 1⟩
def XS_STAT_CODE : Fld := ⟨8, 4⟩
def XS_STAT_FLASH1 : Fld := ⟨12, 1⟩
def XS_BUF_DATA : Fld := ⟨0, 32⟩
def SV_ERR_CNT_CRC : Fld := ⟨0, 16⟩
def SV_ERR_CNT_LEN : Fld := ⟨16, 16⟩
def SV_HB_CFG_EN : Fld := ⟨0, 1⟩
def SV_HB_CFG_TIMEOUT_MS : Fld := ⟨16, 10⟩
def SV_HB_STAT_LOST : Fld := ⟨0, 1⟩
def SV_HB_STAT_ARMED : Fld := ⟨1, 1⟩
def SV_HB_STAT_HBCNT : Fld := ⟨8, 8⟩
def SV_FRAME_CNT_COUNT : Fld := ⟨0, 32⟩
def SM_VAL_VALUE : Fld := ⟨0, 32⟩
def SM_STALE_STALE : Fld := ⟨0, 32⟩
def SM_GERR_LEN_CNT : Fld := ⟨0, 8⟩
def SM_GERR_CRC_CNT : Fld := ⟨8, 8⟩
def SM_GERR_ALIVE_CNT : Fld := ⟨16, 8⟩
def SM_GERR_STALE : Fld := ⟨31, 1⟩
def SM_RANGE_CNT_COUNT : Fld := ⟨0, 32⟩
def SM_SV_DATA_DATA : Fld := ⟨0, 32⟩
def SM_SV_SIG_SIGNAL : Fld := ⟨0, 9⟩
def SM_SV_STAT_BUSY : Fld := ⟨0, 1⟩
def SM_SV_STAT_WR_LOST : Fld := ⟨1, 1⟩
def SM_SV_STAT_REJECT : Fld := ⟨2, 1⟩
def DB_CTRL_EN : Fld := ⟨0, 1⟩
def DB_SEL_SIGNAL : Fld := ⟨0, 16⟩
def EV_MAP_VECTOR : Fld := ⟨0, 6⟩
def EV_MAP_EN : Fld := ⟨8, 1⟩
def EV_MOD_HOLDOFF_US : Fld := ⟨0, 10⟩
def EV_MOD_COUNT : Fld := ⟨16, 8⟩
def MSIX_ADDR_LO_ADDR : Fld := ⟨0, 32⟩
def MSIX_ADDR_HI_ADDR : Fld := ⟨0, 32⟩
def MSIX_DATA_DATA : Fld := ⟨0, 32⟩
def MSIX_CTRL_MASK : Fld := ⟨0, 1⟩
def MSIX_PBA_PENDING : Fld := ⟨0, 32⟩
def BZ_I_P0_STATE_MAP : Fld := ⟨0, 8⟩
def BZ_I_P0_STALE_STATE : Fld := ⟨8, 2⟩
def BZ_I_P0_STALE_FRAME : Fld := ⟨0, 12⟩
def BZ_I_P0_NDIG : Fld := ⟨0, 3⟩
def BZ_I_P0_ZPAD : Fld := ⟨3, 1⟩
def BZ_I_P0_SIGNED : Fld := ⟨4, 1⟩
def BZ_I_P0_GAP : Fld := ⟨8, 8⟩

end Sys2Proof.Machine
end

