-- ==== Sys2Proof/Machine/State.lean ====
section
/-!
DEFINITION. The state of the hub as plain data: its registers, memories, flash and OTP, the queues and counters of every
unit, what the boot image set, and the commands that wait.  Per-instance records stand in sparse tables keyed by instance
number; an instance a table does not list is at its reset record.
-/

namespace Sys2Proof.Machine

/-! ### Events (R297 to R307) -/

/-- One event record as it enters a backlog (R298): SOURCE is class × 256 + instance, the payload is 16 bytes. -/
structure Event where
  source  : Nat
  seq     : Nat
  type    : Nat
  flags   : Nat
  epoch   : Nat
  dtime   : Nat
  payload : List Byte
  deriving DecidableEq, Repr

/-- What a host port sends to its host, newest first in the port's outbox: posted memory writes, MSI-X messages, the
memory reads it issues, the completions of the host's reads, and Configuration Request
Retry Status (R43). -/
inductive HostMsg where
  | write (addr : Nat) (bytes : List Byte)
  | msix (vector addr data : Nat)
  | read (addr len : Nat)
  | completion (bytes : List Byte) (poisoned : Bool)
  | retry
  deriving DecidableEq, Repr

/-- The event side of one host port: its backlog, oldest first, the backlog entries reserved for work under way (R301), the
events lost since the last EV_LOST, the sources of the records written that no write-back covers yet (R306), newest first, and what it has
sent to the host. -/
structure PortEv where
  backlog  : List Event
  reserved : Nat
  lost     : Nat
  uncov    : List Nat
  outbox   : List HostMsg
  deriving DecidableEq, Repr

def PortEv.reset : PortEv := ⟨[], 0, 0, [], []⟩

/-- One MSI-X vector: unsignalled events written for it, and the DTIME of the first of them (R307). -/
structure VecState where
  count : Nat
  since : Nat
  deriving DecidableEq, Repr

/-! ### Commits (R267 to R296) -/

/-- A commit descriptor (R272). -/
structure Desc where
  seq     : Nat
  epoch   : Nat
  tl      : Nat
  nrec    : Nat
  flags   : Nat
  tkind   : Nat
  nfence  : Nat
  tag     : Nat
  target  : Nat
  records : Nat
  crc     : Nat
  fences  : List (List Byte)
  deriving DecidableEq, Repr

/-- One commit record (R274): its bytes, and the fields read from them. -/
structure CRec where
  type  : Nat
  slot  : Nat
  rsvd  : Nat
  mask  : Nat
  value : List Nat
  deriving DecidableEq, Repr

/-- The state of an accepted commit (R283). -/
inductive CState where
  | waiting | assembled | sealed
  deriving DecidableEq, Repr

/-- An accepted commit, as its journal record holds it (R281): neither latched nor ended yet.  `ents` and `buds` are the
surface-entry copies and row budgets made at validation, by slot; `taps` the VTAPS_EFF codes by slot; `unit` and `units` its place
in the journal area of its timeline; `mode` the speculation
mode decided at its admission (R249). -/
structure Commit where
  order   : Nat
  ring    : Nat
  desc    : Desc
  recs    : List CRec
  state   : CState
  status  : Nat
  at_     : Nat
  unit    : Nat
  units   : Nat
  missed  : Bool
  targetOk : Bool
  ents    : List (Nat × SurfEntry)
  buds    : List (Nat × List Nat)
  taps    : List (Nat × Nat)
  mode    : Bool
  deriving DecidableEq, Repr

/-- One layer slot of a bank: its 22 banked words, its entry copy (R146) and its row budgets (R174). -/
structure SlotImg where
  slot  : Nat
  words : List Nat
  entry : SurfEntry
  buds  : List Nat
  deriving DecidableEq, Repr

/-- A bank image of a timeline (R288): the two background words and its layer slots. -/
structure BankImage where
  rg    : Nat
  b     : Nat
  slots : List SlotImg
  deriving DecidableEq, Repr

/-- The hand-over of a timeline while it runs (R291): the orders of the commits it latches, the frame its latch opens, whether
it applied a preset, and whether a commit's or a direct seal was deferred to its end. -/
structure Handover where
  orders : List Nat
  frame  : Nat
  preset : Bool
  commit : Bool
  direct : Bool
  deriving DecidableEq, Repr

/-- The pending bank as a seal found it: whether it was sealed and its image; the commit that the seal sealed, none for a direct seal, and the image
sealed.  A latch registered in the clock of the seal hands over what stood before it (R291, R308). -/
structure SealUndo where
  was   : Bool
  bank  : BankImage
  order : Option Nat
  image : BankImage
  deriving DecidableEq, Repr

/-- The commit side of one timeline: accepted commits in order, the next acceptance count, the image under assembly, the
hand-over under way, the frame opened by the last latch, whether a sealed NO_MERGE commit holds later ones (R293), the DTIME of
the last seal and what that seal replaced, whether anything has latched since the start (R44), and the next
unit of its journal area (R279). -/
structure TlCommits where
  live     : List Commit
  order    : Nat
  image    : Option (Nat × BankImage)
  handover : Option Handover
  opened   : Nat
  noMerge  : Bool
  sealAt   : Nat
  undo     : Option SealUndo
  any      : Bool
  tail     : Nat
  deriving DecidableEq, Repr

def TlCommits.reset : TlCommits := ⟨[], 0, none, none, 0, false, 0, none, false, 0⟩

/-- What admission will store when a case is accepted (R240, R249). -/
structure AdmResult where
  tl    : Nat
  mode  : Bool
  rate  : Nat
  orate : Nat
  res   : Nat
  tot   : AdmTotals
  deriving DecidableEq, Repr

/-- A commit that has passed validation steps 1 to 6 and waits for its journal copies (R280). -/
structure Candidate where
  port   : Nat
  ring   : Nat
  desc   : Desc
  recs   : List CRec
  status : Nat
  ents   : List (Nat × SurfEntry)
  buds   : List (Nat × List Nat)
  taps   : List (Nat × Nat)
  deriving DecidableEq, Repr

/-- Admission state of one timeline that no register shows: the modes decided by accepted cases that await their latches, by acceptance
order (R249). -/
structure AdmTl where
  pend  : List (Nat × Bool)
  deriving DecidableEq, Repr

def AdmTl.reset : AdmTl := ⟨[]⟩

/-! ### Fetch, composition and flattening (R228 to R263) -/

/-- A fetch group a slot has issued and whose data has not arrived: whether it is for the next frame, its need line and deadline,
the bank generation it is tagged with while speculative (R243), the entry it reads and its surface index, none for a surface the
table does not hold. -/
structure Issued where
  group    : Group
  next     : Bool
  need     : Nat
  deadline : Nat
  spec     : Option Nat
  entry    : SurfEntry
  index    : Option Nat
  deriving DecidableEq, Repr

/-- A decoded tile of a Facet band: its pixel words, or the cause that made it bad (R177). -/
structure TileGot where
  tx    : Nat
  ty    : Nat
  words : List Nat
  cause : Option TileCause
  deriving DecidableEq, Repr

/-- A fetch group whose data is in the slot's buffer: its bytes, which begin `skew` bytes before the first byte of the group; the
offsets of its 64-byte blocks that arrived bad, with their causes (R253); the tiles of a band, and whether its bodies total less than its
budget (R180). -/
structure Arrived where
  group : Group
  next  : Bool
  need  : Nat
  spec  : Option Nat
  skew  : Nat
  data  : List Byte
  bad   : List (Nat × Nat)
  tiles : List TileGot
  under : Bool
  deriving DecidableEq, Repr

/-- A group lost for its frame, with its cause (R250, R253). -/
structure LostGroup where
  group : Group
  next  : Bool
  need  : Nat
  spec  : Option Nat
  cause : Nat
  deriving DecidableEq, Repr

/-- What a racing slot reads in a frame (R262): the buffer chosen, whether it was the one being written, after a SPLIT switch the
completed buffer that it reads from then on, the groups given up under WHOLE, and the TIDE reports (STATE, row) that wait for speculative
work to be confirmed (R244). -/
structure RaceUse where
  buf   : Nat
  live  : Bool
  split : Option Nat
  gaveUp : List Group
  owed  : List (Nat × Nat)
  deriving DecidableEq, Repr

/-- Figures of a slot's frame: affected lines and the first cause (R253), bad tiles and their first cause (R178), the largest
band. -/
structure SlotFigs where
  late      : Nat
  lateCause : Nat
  badTiles  : Nat
  badCause  : Nat
  band      : Nat
  deriving DecidableEq, Repr

def SlotFigs.zero : SlotFigs := ⟨0, 0, 0, 0, 0⟩

/-- The fetch side of one layer slot: groups issued, arrived and lost for the present and the next frame; groups given up whose data is still
outstanding (R156, R250); the groups to be fetched again after discarded speculation, which are urgent (R247); the figures of both frames;
the racing buffers of both frames and the least lead seen in each (R262). -/
structure SlotFetch where
  issued   : List Issued
  gone     : List Issued
  redo     : List Group
  got      : List Arrived
  lost     : List LostGroup
  figs     : SlotFigs
  figsNext : SlotFigs
  race     : Option RaceUse
  raceNext : Option RaceUse
  minLead  : Nat
  minNext  : Nat
  deriving DecidableEq, Repr

def SlotFetch.reset : SlotFetch :=
  { issued := [], gone := [], redo := [], got := [], lost := [], figs := SlotFigs.zero, figsNext := SlotFigs.zero, race := none, raceNext := none,
    minLead := 0xFFFF, minNext := 0xFFFF }

/-- What is left of a slot's fetch side when its work is dropped: the groups whose data is still outstanding (R156). -/
def SlotFetch.cleared (f : SlotFetch) : SlotFetch := { SlotFetch.reset with gone := f.gone ++ f.issued }

/-- A composed line in a finisher's line FIFO (R103): whether it belongs to the next frame, its tag while it is speculative (R242),
and whether its speculative work met a fault (R246). -/
structure FifoLine where
  next  : Bool
  y     : Nat
  px    : List Px
  spec  : Option Nat
  fault : Bool
  deriving DecidableEq, Repr

/-- A flattened surface of a timeline's bottom run (R255 to R258): its slots, where it lies in the Orangery, its bytes and
saving; `inUse` from the latch that brings it into use, `ending` when it ends at the next latch, with the reason (R259). -/
structure FlatRun where
  slots  : List Nat
  off    : Nat
  bytes  : Nat
  aux0   : Nat
  entry  : SurfEntry
  buds   : List Nat
  saving : Nat
  inUse  : Bool
  ending : Option Nat
  deriving DecidableEq, Repr

/-- A flattening attempt under way: the run's slots (R256). -/
structure FlatJob where
  slots : List Nat
  ok    : Bool
  deriving DecidableEq, Repr

/-! ### Scan timelines (R98 to R123) -/

/-- The panel power sequence of a timeline (R119). -/
inductive PanelPhase where
  | off        -- PANEL_EN low, no request
  | waitPoff   -- up requested, waiting for T_POFF (Up 1)
  | ponWait    -- PANEL_EN high, T_PON running (before Up 2)
  | ready      -- indications honoured, link not yet showing video (Up 2, Up 3)
  | blWait     -- video shown, T_BLON running
  | lit        -- BL_PWM running (Up 4)
  | pwmEnd     -- down requested, waiting for the end of the PWM period
  | blOff      -- Down 1 done, T_BLOFF running
  | vOff       -- Down 2 done, T_VOFF running
  deriving DecidableEq, Repr

/-- The panel of one timeline: phase, the DTIME its running time started, whether an up sequence is wanted after the down
sequence, the duty in force, and the always-on record of when PANEL_EN last went low (R120). -/
structure Panel where
  phase   : PanelPhase
  since   : Nat
  upAfter : Bool
  duty    : Nat
  lowAt   : Option Nat
  deriving DecidableEq, Repr

def Panel.reset : Panel := ⟨.off, 0, false, 0, none⟩

/-- A re-seat (R105, R106): when GO was written, the copied shadow words by register address, the copied slot assignment, and whether its
checks have passed and whether a latch has taken it. -/
structure Reseat where
  at_    : Nat
  words  : List (Nat × Word)
  slots  : List (Nat × Nat)
  passed : Bool
  taken  : Bool
  deriving DecidableEq, Repr

/-- What a Bezel fault report of a frame gathers (R314, R316): the lowest instance, the first line, and the count. -/
structure BzFault where
  inst  : Nat
  line  : Nat
  count : Nat
  deriving DecidableEq, Repr

/-- The scan of one timeline: whether it has started, the DTIMEs at which its present frame and line started, the extension lines
of the present frame (R109), whether the latch of the next frame has been taken and when the last one was, the next line its Pavilion composes (of which frame,
and its number), the lines of that frame that are composed again (R246), its line FIFO, the pixels it emits and whether they replace an absent line; genlock's good frames, trim in ppm and
last ingest frame start; the re-seat under way; the panel; whether first light has been shown (R45); whether every safety region matched
in the last whole frame (R46); the frame's Bezel faults of KIND 1 and 2; for flattening, how many latches each slot and the background have stayed unchanged, the attempt under way and the flattened
run. -/
structure Scan where
  started   : Bool
  frameAt   : Nat
  lineAt    : Nat
  ext       : Nat
  latched   : Bool
  latchAt   : Option Nat
  compNext  : Bool
  compY     : Nat
  redo      : List Nat
  fifo      : List FifoLine
  out       : List Px
  replaced  : Bool
  goodGl    : Nat
  trim      : Int
  lastIg    : Option Nat
  reseat    : Option Reseat
  panel     : Panel
  lit       : Bool
  safeOk    : Bool
  bzCmp     : Option BzFault
  bzEcc     : Option BzFault
  flatAge   : List (Nat × Nat)
  bgAge     : Nat
  flatJob   : Option FlatJob
  flat      : Option FlatRun
  deriving DecidableEq, Repr

def Scan.reset : Scan :=
  { started := false, frameAt := 0, lineAt := 0, ext := 0, latched := false, latchAt := none, compNext := false, compY := 0, redo := [], fifo := [], out := [],
    replaced := false, goodGl := 0, trim := 0, lastIg := none, reseat := none, panel := Panel.reset, lit := false, safeOk := false, bzCmp := none,
    bzEcc := none, flatAge := [], bgAge := 0, flatJob := none, flat := none }

/-- One output link: whether its sink has been noticed, whether it is training, its failed retries since it went down, when the next
attempt is due, whether a failed attempt of this series was reported, the outcome of its first attempt since enable (R116, R117),
when it came up, whether it carries video, the sink's longest frame in lines (R110) and whether the sink has a test CRC (R337). -/
structure OutLink where
  sink     : Bool
  training : Bool
  retries  : Nat
  retryAt  : Option Nat
  reported : Bool
  tried    : Option Bool
  upAt     : Nat
  video    : Bool
  sinkMax  : Option Nat
  sinkCrc  : Bool
  deriving DecidableEq, Repr

def OutLink.reset : OutLink := ⟨false, false, 0, none, false, none, 0, false, none, false⟩

/-- A frame of a writeback port whose writes are not all acknowledged: the timeline captured, its buffer and surface, whether it turned
incomplete, and whether a re-seat made it so (R123). -/
structure WbFrame where
  tl    : Nat
  buf   : Nat
  index : Nat
  entry : SurfEntry
  lines : Nat
  short : Bool
  resized : Bool
  deriving DecidableEq, Repr

/-- One writeback port: the frame being written, the ended frames that wait for acknowledgements, oldest first, whether the timeline
stopped or changed its size in the frame, and the last buffer taken. -/
structure WbPort where
  cur    : Option WbFrame
  await  : List WbFrame
  last   : Option Nat
  deriving DecidableEq, Repr

def WbPort.reset : WbPort := ⟨none, [], none⟩

/-! ### Bezel, signals and watch regions (R312 to R340) -/

/-- A Bezel image (R315). -/
structure BzImage where
  space  : Nat
  format : Nat
  width  : Nat
  height : Nat
  frames : Nat
  pitch  : Nat
  offset : Nat
  deriving DecidableEq, Repr

/-- A signal group (R325). -/
structure SigGroup where
  source  : Nat
  filter  : Nat
  alive   : Bool
  crc     : Bool
  canId   : Nat
  dlcMin  : Nat
  crcByte : Nat
  aliveBit : Nat
  dataId  : Nat
  timeout : Nat
  tol     : Nat
  deriving DecidableEq, Repr

/-- A signal definition (R326). -/
structure SigDef where
  group    : Nat
  motorola : Bool
  isSigned : Bool
  start    : Nat
  len      : Nat
  shift    : Nat
  mul      : Int
  add      : Int
  min      : Int
  max      : Int
  deriving DecidableEq, Repr

/-- A signal's values, newest first: (stamp, value) pairs.  Older ones are kept because a snapshot reads the value as it
stood 256 ns before the latch (R319). -/
abbrev SigHistory := List (Nat × Int)

/-- Per group: the alive counter of the last accepted frame, none before the first or after the group went stale; invalid
frames since the last GROUP_STATE; the stamp of the last valid arrival (R327, R342). -/
structure GroupState where
  alive   : Option Nat
  invalid : Nat
  lastOk  : Nat
  deriving DecidableEq, Repr

def GroupState.reset : GroupState := ⟨none, 0, 0⟩

/-- What one Bezel instance shows in the frame (R320 to R323): per copy, the frame of each position, none where nothing is
shown there. -/
structure BzShown where
  code   : Nat
  frames : List Nat
  shown  : Bool
  deriving DecidableEq, Repr

/-- One watch region while its frame runs and between frames: the running CRC, the rows taken and whether it was compared in
the frame; the previous frame's CRC, how many frames it has stayed equal, the mismatched frames in a row, whether its last frame
matched and the kind of a mismatch, none before its first frame (R333 to R336). -/
structure WatchState where
  crc    : Nat
  rows   : Nat
  done   : Bool
  prev   : Option Nat
  same   : Nat
  bad    : Nat
  state  : Option Nat
  deriving DecidableEq, Repr

def WatchState.reset : WatchState := ⟨0xFFFFFFFF, 0, false, none, 0, 0, none⟩

/-- The sink CRC of a timeline: the running component CRCs of each link's part of the frame, the hub's records by count, the count
of the frame in progress, the differing reads in a row and the frames since the last read (R337). -/
structure SinkState where
  run     : List Nat
  records : List (Nat × List Nat)
  count   : Nat
  differ  : Nat
  frames  : Nat
  deriving DecidableEq, Repr

def SinkState.reset : SinkState := ⟨[], [], 0, 0, 0⟩



/-! ### What the Locket sets (R65 to R97) -/

/-- DRAM_CONFIG (R79). -/
structure DramConf where
  rate    : Nat
  ranks   : Nat
  width   : Nat
  density : Nat
  mask    : Nat
  crc     : Nat
  deriving DecidableEq, Repr

/-- TIMELINE_ROLE (R79). -/
structure Role where
  tl    : Nat
  first : Bool
  cont  : Bool
  hold  : Nat
  deriving DecidableEq, Repr

/-- GRANT (R79): instances first to first + count − 1 of a class, to a port (4 the supervisor). -/
structure Grant where
  port  : Nat
  cls   : Nat
  first : Nat
  count : Nat
  write : Bool
  read  : Bool
  park  : Bool
  deriving DecidableEq, Repr

/-- The ASSET section of the running image and its copy (R89). -/
structure Asset where
  base   : Nat
  off    : Nat
  len    : Nat
  crc    : Nat
  digest : List Byte
  deriving DecidableEq, Repr

/-- PUBKEY (R88). -/
structure PubKey where
  use    : Nat
  rights : Nat
  key    : List Byte
  deriving DecidableEq, Repr

/-- PRESET (R87). -/
structure Preset where
  tl    : Nat
  index : Nat
  pairs : List (Nat × Nat)
  deriving DecidableEq, Repr

/-- The content of the slot being loaded or running that no register holds. -/
structure Locket where
  slot      : Nat
  digest    : List Byte
  dram      : Option DramConf
  roles     : List Role
  standby   : List (Nat × Nat)
  grants    : List Grant
  surfaces  : List (Nat × SurfEntry)
  firsts    : List (Nat × SurfEntry)
  retention : List (Nat × Nat)
  assetBase : Option Nat
  asset     : Option Asset
  parkSig   : Option (Nat × Int)
  pinned    : List (Nat × Nat)
  images    : Tbl (Option BzImage)
  groups    : Tbl (Option SigGroup)
  signals   : Tbl (Option SigDef)
  tables    : Tbl (List (Nat × Nat))
  coefs     : Tbl CoefBank
  luts      : Tbl (Option (List Nat × List Nat × List Nat))
  presets   : List Preset
  keys      : List PubKey
  signer    : List Byte
  deriving DecidableEq, Repr

def Locket.reset : Locket :=
  { slot := 0, digest := [], dram := none, roles := [], standby := [], grants := [], surfaces := [], firsts := [], retention := [],
    assetBase := none, asset := none, parkSig := none, pinned := [], images := [], groups := [], signals := [], tables := [],
    coefs := [], luts := [], presets := [], keys := [], signer := [] }

/-! ### Starting, parking and power (R23 to R64, R551 to R563) -/

/-- The power states of R23. -/
inductive PState where
  | off | parked | waking | lit
  deriving DecidableEq, Repr

/-- Where a start stands: no start under way; PWR_EN raised, PLLs not locked; the header, the table, then section k of the table
being read; waiting to repeat the search (R47); the no-image condition (R48); the second group read (R37). -/
inductive BootPhase where
  | idle | pll | header | table | sect (k : Nat) | retry | noImage | loaded
  deriving DecidableEq, Repr

/-- A check failure: outcome code, CHECK code, WHERE and slot offset (R91). -/
structure LoadFail where
  outcome : Nat
  check   : Nat
  place   : Nat
  offset  : Nat
  deriving DecidableEq, Repr

/-- The start sequence (R37 to R47): the flash devices that respond, the slots still to try with their pass, whether this is the repeat of
the search, the slot being read and its pass, whether its signature has verified, how many of its sections have been used, a failure that
waits for gaps not yet read (R92), whether STRUCT is applied, when the start began, when the search failed, first-frame readiness, the
number of the ASSET copy under way (0 none), the cause of the start (R28), and whether a recovery from WARMRST_N is under way (R552). -/
structure Boot where
  phase    : BootPhase
  devs     : List Nat
  todo     : List (Nat × Bool)
  repeat_  : Bool
  slot     : Nat
  pass2    : Bool
  sigOk    : Bool
  used     : Nat
  held     : Option LoadFail
  applied  : Bool
  startAt  : Nat
  waitFrom : Nat
  firstDone : Bool
  assetTry : Nat
  cause    : Nat
  recover  : Bool
  deriving DecidableEq, Repr

def Boot.reset : Boot :=
  { phase := .idle, devs := [], todo := [], repeat_ := false, slot := 0, pass2 := false, sigOk := false, used := 0, held := none,
    applied := false, startAt := 0, waitFrom := 0, firstDone := false, assetTry := 0, cause := 0, recover := false }

/-- The parking sequence (R53 to R55): the step of R54 under way (0 none), when the drain ends, the cause of a request held
until LIT and when it came, whether a wake event was latched meanwhile (R25), and the DTIME of the last wake event (R26). -/
structure Park where
  step     : Nat
  drainEnd : Nat
  held     : Option Nat
  heldAt   : Nat
  wake     : Bool
  wakeAt   : Option Nat
  deriving DecidableEq, Repr

def Park.reset : Park := ⟨0, 0, none, 0, false, none⟩

/-- Pins and power (R557 to R562): PORST_N and WARMRST_N low and when WARMRST_N went low last, PWR_EN and PWR_GOOD high, the sampled straps, when PWR_EN fell,
when supply was lost, PERSTn_N low by port, the always-on FAULT_N hold (PARKED, supply loss), and BL_PWM and PANEL_EN. -/
structure Power where
  state    : PState
  porst    : Bool
  warm     : Bool
  warmAt   : Option Nat
  pwrEn    : Bool
  pwrGood  : Bool
  bootsel  : Nat
  compat   : Bool
  enFellAt : Nat
  lostAt   : Option Nat
  wakeWait : Bool
  perst    : List Nat
  hold     : Bool
  startup  : Bool
  faultWas : Bool
  panelEn  : List Nat
  blPwm    : List Nat
  epochs   : List Nat
  assetDig : Option (List Byte)
  degraded : Bool
  sr       : Bool
  deriving DecidableEq, Repr

def Power.reset : Power :=
  { state := .off, porst := true, warm := false, warmAt := none, pwrEn := false, pwrGood := false, bootsel := 0, compat := false, enFellAt := 0,
    lostAt := none, wakeWait := false, perst := [], hold := true, startup := true, faultWas := true, panelEn := [], blPwm := [],
    epochs := [0, 0, 0, 0], assetDig := none, degraded := false, sr := false }

/-- What holds DEGRADED (R24): timelines with a watch-region safety mismatch and with a Bezel mismatch; the other causes are
computed.  And the timelines that raised each FAULT_N cause (its bit number, the timeline, whether its condition has been present in the
timeline's present frame), until it has been absent for a whole frame (R340). -/
structure Degrade where
  watch : List Nat
  bezel : List Nat
  raised : List (Nat × Nat × Bool)
  deriving DecidableEq, Repr

/-- An island held in reset: when, and why (R540, R541). -/
structure IslandDown where
  isl   : Nat
  since : Nat
  cause : Nat
  deriving DecidableEq, Repr

/-- The islands (R540 to R549): those in reset, those failed, the times of recent resets; by Promenade link (`flitKey`) the replays
seen and the sequence number expected; migrations (failed Pavilion, standby) under way and in force. -/
structure Islands where
  down    : List IslandDown
  failed  : List Nat
  history : List (Nat × Nat)
  replays : Tbl Nat
  expect  : Tbl Nat
  moving  : List (Nat × Nat)
  standFor : List (Nat × Nat)
  deriving DecidableEq, Repr

def Islands.reset : Islands := ⟨[], [], [], [], [], [], []⟩

/-! ### The Gatehouse (R487 to R512) -/

/-- A ledger entry before its LINK is made (R507). -/
structure Ledger where
  seq    : Nat
  dtime  : Nat
  otp    : Nat
  role   : Nat
  source : Nat
  action : Nat
  target : Nat
  count  : Nat
  old    : List Byte
  new    : List Byte
  result : Nat
  deriving DecidableEq, Repr

/-- An installer session (R497 to R501): when the nonce was drawn and whether it is unused, the challenge as signed, when a
response was submitted, whether anything was changed, the last supervisor frame, when the last failure was, and the rights, key
and signature as they were presented. -/
structure Session where
  nonceAt  : Nat
  fresh    : Bool
  verify   : Option Nat
  changed  : Bool
  lastAt   : Nat
  failAt   : Nat
  rights   : Nat
  key      : List Byte
  sig      : List Byte
  deriving DecidableEq, Repr

def Session.reset : Session :=
  { nonceAt := 0, fresh := false, verify := none, changed := false, lastAt := 0, failAt := 0, rights := 0, key := [], sig := [] }

/-- What a part keeps in OTP (R502, R506): the installer key hash and the monotonic counter. -/
structure Otp where
  ikh   : Option (List Byte)
  count : Nat
  deriving DecidableEq, Repr

/-- The Gatehouse: the session, the scope of a consent token and its end (R506), the ledger queue with the next SEQ, the LINK
of the last entry programmed, the key-hash programming (R502), the running configuration CRC (R512), and the write-once fields already written (register address, bit; R494). -/
structure Gate where
  session : Session
  scope   : Nat
  scopeEnd : Nat
  queue   : List Ledger
  nextSeq : Nat
  link    : List Byte
  ikhBusy : Bool
  cfgRun  : Bool
  cfgEnd  : Option Nat
  once    : List (Nat × Nat)
  deriving DecidableEq, Repr

def Gate.reset : Gate :=
  { session := Session.reset, scope := 0, scopeEnd := 0, queue := [], nextSeq := 0, link := [], ikhBusy := false, cfgRun := false,
    cfgEnd := none, once := [] }

/-- What a park request changed beside the parking sequence, kept for a wake event of the same always-on cycle, which discards the
request (R26): when it was registered, the Gatehouse and OTP before it, and the words of their registers. -/
structure ParkUndo where
  at_   : Nat
  gate  : Gate
  otp   : Otp
  words : List (Nat × Word)
  deriving DecidableEq, Repr

/-- Denials of one host port (R491): the DTIME of its last ACCESS_DENIED, and the denials folded since with the last one's
offset, value and reason. -/
structure Denial where
  last   : Option Nat
  folded : Nat
  offset : Nat
  value  : Nat
  reason : Nat
  deriving DecidableEq, Repr

def Denial.reset : Denial := ⟨none, 0, 0, 0, 0⟩

/-- A posted write in flight (R10, R496). -/
structure Posted where
  src   : Src
  addr  : Nat
  value : Nat
  deriving DecidableEq, Repr

/-! ### Links (R452 to R482) -/

/-- A PCIe port (R452 to R458): its link trained and answering configuration requests normally, in D3hot, Bus Master Enable,
Memory Space Enable, MSI-X enabled and function-masked, the BAR bases and BAR2's size (log2), whether its LTSSM has been
released to train, whether AER has logged an uncorrectable non-fatal error (R132) and an Unsupported Request (R455), and the
DTIME of its last port reset (R308). -/
structure Port where
  mse    : Bool
  mmask  : Bool
  bar0   : Nat
  bar2   : Nat
  barLog2 : Option Nat
  ready  : Bool
  aer    : Bool
  ur     : Bool
  rstAt  : Option Nat
  deriving DecidableEq, Repr

def Port.reset : Port := ⟨false, false, 0, 0, none, false, false, false, none⟩

/-- A frame an ingest channel receives or has received (R463 to R465): its buffer with the surface's index and entry, the frame
number, its start, the channel's configuration as taken at the Frame Start (IG_CTRL, IG_SRC, IG_SIZE and IG_LINE_NS), the lines begun, those written and not
yet acknowledged, oldest first, how many were written and acknowledged, the first line not written, the chroma of an even DT 1 line that
waits for its odd one, and whether it is ERRORED and has ended. -/
structure IgFrame where
  buf     : Nat
  index   : Nat
  entry   : SurfEntry
  num     : Nat
  fs      : Nat
  ctrl    : Nat
  src     : Nat
  size    : Nat
  ns      : Nat
  lines   : Nat
  open_   : List Nat
  written : Nat
  acked   : Nat
  gap     : Option Nat
  chroma  : List Nat
  errored : Bool
  ended   : Bool
  deriving DecidableEq, Repr

/-- An ingest channel beside its registers: the frame it receives, until it is complete or the next begins; frames that ended with
every line written but not acknowledged, oldest first; the buffer it last took; the last line start (R466); the frame number and the DTIME of
the last Frame Start. -/
structure Ingest where
  cur    : Option IgFrame
  await  : List IgFrame
  taken  : Option Nat
  lineAt : Option Nat
  lastFs : Nat × Nat
  deriving DecidableEq, Repr

def Ingest.reset : Ingest := ⟨none, [], none, none, (0, 0)⟩

/-- An ingest lane's retraining (R467): retries since it went down, and when the next attempt is due. -/
structure Lane where
  retries : Nat
  retryAt : Option Nat
  deriving DecidableEq, Repr

def Lane.reset : Lane := ⟨0, none⟩

/-- A frame delivered to the signal mapper (R473). -/
structure Delivered where
  filter : Nat
  stamp  : Nat
  frame  : CanFrame
  deriving DecidableEq, Repr

/-- A CAN controller (R469 to R473): waiting for 11 recessive bits after an error, allowed on the bus, and its queue. -/
structure Can where
  allowed : Bool
  waiting : Bool
  queue   : List Delivered
  deriving DecidableEq, Repr

def Can.reset : Can := ⟨false, false, []⟩

/-- An xSPI command in progress (R475). -/
structure XsJob where
  op   : Nat
  cs   : Nat
  len  : Nat
  addr : Nat
  data : List Byte
  at_  : Nat
  deriving DecidableEq, Repr

/-- The supervisor port (R476 to R481): bytes 0 to 10 of the last frame run, the response the next frame carries (RSTAT, SEQ,
DATA), the bytes of MISO in the last frame, the DATA of the last frame run (R480), the later of arming and the last heartbeat edge, when a lost heartbeat
returned (R481), and the level of SV_HB, which no rule gives at reset (assumption 15). -/
structure SvPort where
  last   : Option (List Byte)
  miso   : List Byte
  rstat  : Nat
  seq    : Nat
  data   : Nat
  ldata  : Nat
  hbFrom : Nat
  hbEnd  : Nat
  hb     : Bool
  deriving DecidableEq, Repr

def SvPort.reset : SvPort := ⟨none, [], 0x0F, 0, 0, 0, 0, 0, false⟩

/-! ### DMA and blit (R346 to R392) -/

/-- A unit's outstanding read of its own control data. -/
inductive Want where
  | none | entry | link
  deriving DecidableEq, Repr

/-- A status write-back that waits for the release of the DMA/blit island, or for the port's link (R543): the work's address and
its bytes as they will stand, and the job count of a blit. -/
structure PendStat where
  addr  : Nat
  bytes : List Byte
  count : Nat
  deriving DecidableEq, Repr

/-- The accepted descriptor of a DMA channel (R352): its address and bytes; the transfer offset of the next read, the offsets of
the reads that hold a block, the data returned and not yet written (none where its read failed), the offset below which every byte is
written or marked, the marked pieces (offset, length), the CODE of the first failure, the running CRC, whether it waits for its
trigger, the DETAIL with which it is being aborted, whether local DDR5 has acknowledged its writes, and of the flushing read of FENCE
whether it could be sent, none before it is due (R361). -/
structure DmaRun where
  addr    : Nat
  desc    : List Byte
  next    : Nat
  out     : List Nat
  got     : List (Nat × Option (List Byte))
  written : Nat
  marked  : List (Nat × Nat)
  firstErr : Option Nat
  crc     : Nat
  waiting : Bool
  aborting : Option Nat
  acked   : Bool
  flush   : Option Bool
  deriving DecidableEq, Repr

/-- A DMA channel beside its registers: its outstanding control read and when it was issued, whether the descriptor read waits until its
event can be reserved (R362), its accepted descriptor, the running CRC at the end of the previous descriptor of the chain (R358), and a
status write-back that waits. -/
structure DmaCh where
  want  : Want
  wantAt : Nat
  stalled : Bool
  run   : Option DmaRun
  chain : Option Nat
  pendStat : Option PendStat
  deriving DecidableEq, Repr

def DmaCh.reset : DmaCh := ⟨.none, 0, false, none, none, none⟩

/-- The accepted job of a blit channel (R377): its address, bytes and job count; its surfaces as accepted with their indices;
whether it waits, and whether its trigger has occurred; when it started; the steps done (a step is a row of a plane, a band for a
quarter turn); the destination rows complete, counted from the starting edge; the destination pixels left unwritten (plane, row,
column), the first failure's CODE; the next band and the end of the running band's slot (R386). -/
structure BlitRun where
  addr    : Nat
  job     : List Byte
  count   : Nat
  src     : SurfEntry
  dst     : SurfEntry
  srcIdx  : Option Nat
  dstIdx  : Nat
  waiting : Bool
  trigd   : Bool
  started : Option Nat
  steps   : Nat
  unwr    : List (Nat × Nat)
  firstErr : Option Nat
  band    : Nat
  slotEnd : Nat
  slipped : Bool
  deriving DecidableEq, Repr

/-- A blit channel beside its registers: an outstanding job read, whether an overrun halts it when its job has ended (R373), the accepted
job, the producer count of the last good doorbell, the end of its previous job, and a status write-back that waits. -/
structure BlitCh where
  reading : Bool
  overrun : Bool
  run     : Option BlitRun
  prod    : Nat
  lastEnd : Option Nat
  pendStat : Option PendStat
  deriving DecidableEq, Repr

def BlitCh.reset : BlitCh := ⟨false, false, none, 0, none, none⟩

/-! ### The Carousel (R393 to R417) -/

/-- A packet held by a policer or waiting behind one (R397). -/
structure Packet where
  len  : Nat
  tc   : Nat
  addr : Nat
  data : List Byte
  rd   : Nat
  deriving DecidableEq, Repr

/-- A policer (R395): both buckets in micro-bytes, the DTIME of the previous evaluation, the packets held in arrival order, and
when holding began; the bytes its 64-byte counters have not yet shown. -/
structure Policer where
  tc    : Nat
  tp    : Nat
  t     : Nat
  held  : List Packet
  since : Nat
  gRem  : Nat
  yRem  : Nat
  deriving DecidableEq, Repr

def Policer.reset : Policer := ⟨0, 0, 0, [], 0, 0, 0⟩

/-- A request that waits in a shaper queue: its bytes and room (R406), and for a read of a DMA channel the channel, the transfer offset and
the HPA it reads (R348). -/
structure QWait where
  req  : QReq
  read : Option (Nat × Nat × Nat)
  deriving DecidableEq, Repr

/-- A shaper queue (R405): its debt in micro-bytes, the DTIME it was set, the waiting requests and the eligible time while
parked on the wheel; the releases it has made, newest first. -/
structure ShapeQ where
  d    : Nat
  t0   : Nat
  reqs : List QWait
  elig : Option Nat
  out  : List (Nat × Bool)
  rem  : Nat
  deriving DecidableEq, Repr

def ShapeQ.reset : ShapeQ := ⟨0, 0, [], none, [], 0⟩

/-! ### DDR5 (R418 to R451) -/

/-- An entry of a write queue (R433): the block, which of its 64 bytes the writes gave, whether it is complete, its class and
deadline, when it came, the attempts made, and which copies are acknowledged. -/
structure WqEntry where
  id       : Nat
  hpa      : Nat
  given    : List Nat
  complete : Bool
  cls      : MemClass
  deadline : Nat
  at_      : Nat
  attempts : Nat
  issued   : Bool
  deriving DecidableEq, Repr

/-- A request that a unit has issued to local DDR5 or the Orangery (R224): what it reads or writes, its class, its deadline (0 where the
class has none), and what it is beside its class (R225, R247, R393). -/
structure MemReq where
  write    : Bool
  addr     : Nat
  len      : Nat
  cls      : MemClass
  deadline : Nat
  kind     : ReadKind
  deriving DecidableEq, Repr

/-- A read a sub-channel holds (R434): waiting for the fill of an entry, or for the device. -/
structure RdEntry where
  id       : Nat
  hpa      : Nat
  cls      : MemClass
  deadline : Nat
  at_      : Nat
  fill     : Option Nat
  waits    : Bool
  kind     : ReadKind
  deriving DecidableEq, Repr

/-- How a read ended: its id, and whether its block was good (R426). -/
structure RdDone where
  id   : Nat
  good : Bool
  deriving DecidableEq, Repr

/-- A sub-channel controller beside its registers: its write queue and reads, the next id, whether a batch runs (R436), the open
rows (rank, bank, row, last use; R437), per rank the last tick, whether a paydown runs on it, the last MR4 report (R440),
the uncorrectable reads of the last ms by rank (R432), the reports made in the last ms (R449), finished reads, failed
writes, the blocks whose writes were acknowledged to their requesters (R431), and the writes that wait in the Promenade for an entry
(R433); the rank that retrains next, and when the last retraining step was (R444). -/
structure SubCh where
  wq     : List WqEntry
  reads  : List RdEntry
  next   : Nat
  batch  : Bool
  rows   : List (Nat × Nat × Nat × Nat)
  tick   : List Nat
  pay    : List Bool
  back1x : Bool
  mr4    : List Nat
  ues    : List (Nat × Nat)
  posted : List (Nat × Nat)
  done   : List RdDone
  failedWr : List Nat
  acked  : List Nat
  waits  : List (Nat × List Byte × MemClass × Nat)
  nextRank : Nat
  trainAt : Nat
  deriving DecidableEq, Repr

def SubCh.reset : SubCh :=
  { wq := [], reads := [], next := 0, batch := false, rows := [], tick := [0, 0], pay := [false, false], back1x := false,
    mr4 := [], ues := [], posted := [], done := [], failedWr := [], acked := [], waits := [], nextRank := 0, trainAt := 0 }

/-- A commit ring beside its registers (R269, R270): the producer count of the last accepted doorbell, that of a doorbell kept while the
ring does not run, and the commit that waits for its journal copies (R280). -/
structure Ring where
  prod : Nat
  kept : Option Nat
  cand : Option Candidate
  deriving DecidableEq, Repr

def Ring.reset : Ring := ⟨0, none, none⟩

/-! ### The hub -/

structure State where
  /-- The commands that wait, first in, first out. -/
  pending : List Instr
  /-- Device time in nanoseconds (R17). -/
  dtime : Nat
  /-- How many free values the model has drawn (the model's own field; no statement rests on it). -/
  free : Nat
  /-- Every register of the map by address; an unlisted one is at its reset value (R519). -/
  regs : Tbl Word
  /-- The values in force of registers a timeline takes at its latch (R217, R317). -/
  inUse : Tbl Word
  /-- Local DDR5, Orangery and Bezel store by HPA (R127). -/
  mem : Tbl Byte
  /-- The losses of memory content, newest first: each with the ranges that kept their content (R57, R34). -/
  losses : List (List (Nat × Nat))
  /-- Blocks of DDR5 written with poison (R433). -/
  poison : List Nat
  flash0 : Tbl Byte
  flash1 : Tbl Byte
  otp    : Otp
  power  : Power
  boot   : Boot
  park   : Park
  undo   : Option ParkUndo
  degr   : Degrade
  isl    : Islands
  locket : Locket
  gate   : Gate
  denial : Tbl Denial
  posted : Tbl (Option Posted)
  capture : Tbl Nat
  sv     : SvPort
  xs     : Option XsJob
  surf   : Tbl SurfEntry
  used   : List (Nat × Nat)
  ents   : Tbl SurfEntry
  buds   : Tbl (List Nat)
  seqs   : Tbl Nat
  ev     : Tbl PortEv
  vec    : Tbl VecState
  ports  : Tbl Port
  rings  : Tbl Ring
  /-- The validator's turns (R277): the port that comes next, and by port the ring that comes next. -/
  valPort : Nat
  valRing : Tbl Nat
  tlc    : Tbl TlCommits
  adm    : Tbl AdmTl
  scan   : Tbl Scan
  link   : Tbl OutLink
  wb     : Tbl WbPort
  fetch  : Tbl SlotFetch
  preset : Tbl (Option Nat)
  sigs   : Tbl SigHistory
  groups : Tbl GroupState
  bz     : Tbl BzShown
  watch  : Tbl WatchState
  sink   : Tbl SinkState
  dma    : Tbl DmaCh
  blit   : Tbl BlitCh
  pol    : Tbl Policer
  shq    : Tbl ShapeQ
  dram   : Tbl SubCh
  /-- The requests that units have issued to local DDR5 and the Orangery, newest first (R224). -/
  reqs   : List MemReq
  /-- The reads through host windows (HPA, length) that were sent and have not returned (R134). -/
  flying : List (Nat × Nat)
  /-- The trigger occurrences (kind, unit, argument) of the instant in the first component (R359, R381). -/
  trigs  : Nat × List (Nat × Nat × Nat)
  trained : List Byte
  ig     : Tbl Ingest
  lane   : Tbl Lane
  can    : Tbl Can
  /-- The words that acceptance filter registers held before the writes of the instant in the first component (R472). -/
  flts   : Nat × List (Nat × Nat)
  /-- Doorbells of a host port that wait for its earlier posted writes (R133). -/
  bells  : List Posted
  /-- BAR0 reads of a host port (port, address) that wait for its earlier posted writes (R399). -/
  hostReads : List (Nat × Nat)
  /-- The DMA channel that took the last stage block (R347). -/
  dmaLast : Nat
  /-- The value the last register read of each source returned (0 to 3 host ports, 4 the supervisor, 5 JTAG). -/
  lastRead : Tbl Nat
  jtag   : JtagOp
  deriving DecidableEq, Repr

/-- The hub while PORST_N is asserted and nothing has run (assumption 3 names every value the spec does not give). -/
def State.reset : State :=
  { pending := [], dtime := 0, free := 0, regs := [], inUse := [], mem := [], losses := [], poison := [], flash0 := [],
    flash1 := [], otp := ⟨none, 0⟩, power := Power.reset, boot := Boot.reset, park := Park.reset, undo := none, degr := ⟨[], [], []⟩,
    isl := Islands.reset, locket := Locket.reset, gate := Gate.reset, denial := [], posted := [], capture := [],
    sv := SvPort.reset, xs := none, surf := [], used := [], ents := [], buds := [], seqs := [], ev := [],
    vec := [], ports := [], rings := [], valPort := 0, valRing := [], tlc := [], adm := [], scan := [], link := [], wb := [], fetch := [], preset := [],
    sigs := [], groups := [], bz := [], watch := [], sink := [], dma := [], blit := [], pol := [], shq := [], dram := [], reqs := [], flying := [], trigs := (0, []),
    trained := [], ig := [], lane := [], can := [], flts := (0, []), bells := [], hostReads := [], dmaLast := 0, lastRead := [], jtag := .idcode }

/-- The reasons a step may stop with a fault.  There is none: the spec gives every command an effect, and an access to an
address that does not exist is answered on the bus (R134, R493), so no constructor raises anything. -/
inductive Fault where
  deriving DecidableEq, Repr

/-- The reasons a step may be refused. -/
inductive Refusal where
  /-- Raised by the dispatcher for a command whose meaning is not written; safe, since nothing is claimed of it. -/
  | notModelled (mnemonic : String)
  deriving DecidableEq, Repr

end Sys2Proof.Machine
end

