-- ==== Sys2Proof/Machine/Ops.lean ====
section
/-!
DEFINITION. The named operations over the state that every meaning shares: register fields, memory, flash, events, power
state and FAULT_N, the ledger, who is granted what, and the views of registers as configuration.
-/

namespace Sys2Proof.Machine

/-! ### Registers (R7, R8) -/

/-- A word with the field f replaced by the low bits of v. -/
def putField (w : Word) (f : Fld) (v : Nat) : Word :=
  BitVec.ofNat 32 (w.toNat - w.toNat / 2 ^ f.lo % 2 ^ f.w * 2 ^ f.lo + v % 2 ^ f.w * 2 ^ f.lo)

def getField (w : Word) (f : Fld) : Nat := w.toNat / 2 ^ f.lo % 2 ^ f.w

/-- The word of a register. -/
def State.rd (s : State) (a : Nat) : Word := tget resetWord s.regs a

def State.wr (s : State) (a : Nat) (w : Word) : State := { s with regs := tset resetWord s.regs a w }

def State.rdN (s : State) (a : Nat) : Nat := (s.rd a).toNat

def State.wrN (s : State) (a v : Nat) : State := s.wr a (BitVec.ofNat 32 v)

def State.get (s : State) (a : Nat) (f : Fld) : Nat := getField (s.rd a) f

def State.put (s : State) (a : Nat) (f : Fld) (v : Nat) : State := s.wr a (putField (s.rd a) f v)

def State.on (s : State) (a : Nat) (f : Fld) : Bool := s.get a f != 0

/-- A counter of class C (R10) counts n more; what it holds once its field cannot hold the count is free (assumption 9). -/
def State.bump (s : State) (a : Nat) (f : Fld) (n : Nat) : State :=
  s.put a f (if s.get a f + n < 2 ^ f.w then s.get a f + n else Config.counterPast a f.lo (s.get a f + n))

/-- A count the spec takes modulo 2 to the power of its width (R269, R273, R297, R304). -/
def State.bumpMod (s : State) (a : Nat) (f : Fld) (n : Nat) : State := s.put a f (s.get a f + n)

/-- A counter that stops at its largest value. -/
def State.bumpSat (s : State) (a : Nat) (f : Fld) (n : Nat) : State := s.put a f (satAdd f.w (s.get a f) n)

/-- The value in force of a register that a timeline takes at its latch (R217, R317). -/
def State.rdUse (s : State) (a : Nat) : Word := tget resetWord s.inUse a

def State.wrUse (s : State) (a : Nat) (w : Word) : State := { s with inUse := tset resetWord s.inUse a w }

def State.getUse (s : State) (a : Nat) (f : Fld) : Nat := getField (s.rdUse a) f

/-- The word of a 64-bit value held in a low and a high register, each field at its place. -/
def State.rd64 (s : State) (lo hi : Nat) : Nat := s.rdN lo + s.rdN hi * 2 ^ 32

def State.tick (s : State) (now : Nat) : State := { s with dtime := max s.dtime now }

/-! ### Per-unit records -/

/-- The record of unit i in the table denial; an unlisted unit is at its reset record. -/
def State.denialAt (s : State) (i : Nat) : Denial := tget (fun _ => Denial.reset) s.denial i

def State.setDenialAt (s : State) (i : Nat) (v : Denial) : State :=
  { s with denial := tset (fun _ => Denial.reset) s.denial i v }

/-- The record of unit i in the table posted; an unlisted unit is at its reset record. -/
def State.postedAt (s : State) (i : Nat) : Option Posted := tget (fun _ => none) s.posted i

def State.setPostedAt (s : State) (i : Nat) (v : Option Posted) : State :=
  { s with posted := tset (fun _ => none) s.posted i v }

/-- The record of unit i in the table capture; an unlisted unit is at its reset record. -/
def State.captureAt (s : State) (i : Nat) : Nat := tget (fun _ => 0) s.capture i

def State.setCaptureAt (s : State) (i : Nat) (v : Nat) : State :=
  { s with capture := tset (fun _ => 0) s.capture i v }

/-- The record of unit i in the table surf; an unlisted unit is at its reset record. -/
def State.surfAt (s : State) (i : Nat) : SurfEntry := tget (fun _ => SurfEntry.unused) s.surf i

def State.setSurfAt (s : State) (i : Nat) (v : SurfEntry) : State :=
  { s with surf := tset (fun _ => SurfEntry.unused) s.surf i v }

/-- The record of unit i in the table ents; an unlisted unit is at its reset record. -/
def State.entAt (s : State) (i : Nat) : SurfEntry := tget (fun _ => SurfEntry.unused) s.ents i

def State.setEntAt (s : State) (i : Nat) (v : SurfEntry) : State :=
  { s with ents := tset (fun _ => SurfEntry.unused) s.ents i v }

/-- The record of unit i in the table buds; an unlisted unit is at its reset record. -/
def State.budAt (s : State) (i : Nat) : List Nat := tget (fun _ => []) s.buds i

def State.setBudAt (s : State) (i : Nat) (v : List Nat) : State :=
  { s with buds := tset (fun _ => []) s.buds i v }

/-- The record of unit i in the table seqs; an unlisted unit is at its reset record. -/
def State.seqAt (s : State) (i : Nat) : Nat := tget (fun _ => 0) s.seqs i

def State.setSeqAt (s : State) (i : Nat) (v : Nat) : State :=
  { s with seqs := tset (fun _ => 0) s.seqs i v }

/-- The record of unit i in the table ev; an unlisted unit is at its reset record. -/
def State.evAt (s : State) (i : Nat) : PortEv := tget (fun _ => PortEv.reset) s.ev i

def State.setEvAt (s : State) (i : Nat) (v : PortEv) : State :=
  { s with ev := tset (fun _ => PortEv.reset) s.ev i v }

/-- The record of unit i in the table vec; an unlisted unit is at its reset record. -/
def State.vecAt (s : State) (i : Nat) : VecState := tget (fun _ => ⟨0, 0⟩) s.vec i

def State.setVecAt (s : State) (i : Nat) (v : VecState) : State :=
  { s with vec := tset (fun _ => ⟨0, 0⟩) s.vec i v }

/-- The record of unit i in the table ports; an unlisted unit is at its reset record. -/
def State.portAt (s : State) (i : Nat) : Port := tget (fun _ => Port.reset) s.ports i

def State.setPortAt (s : State) (i : Nat) (v : Port) : State :=
  { s with ports := tset (fun _ => Port.reset) s.ports i v }

/-- The record of unit i in the table rings; an unlisted unit is at its reset record. -/
def State.ringAt (s : State) (i : Nat) : Ring := tget (fun _ => Ring.reset) s.rings i

def State.setRingAt (s : State) (i : Nat) (v : Ring) : State :=
  { s with rings := tset (fun _ => Ring.reset) s.rings i v }

/-- The record of unit i in the table valRing; an unlisted unit is at its reset record. -/
def State.valRingAt (s : State) (i : Nat) : Nat := tget (fun _ => 0) s.valRing i

def State.setValRingAt (s : State) (i : Nat) (v : Nat) : State :=
  { s with valRing := tset (fun _ => 0) s.valRing i v }

/-- The record of unit i in the table tlc; an unlisted unit is at its reset record. -/
def State.tlcAt (s : State) (i : Nat) : TlCommits := tget (fun _ => TlCommits.reset) s.tlc i

def State.setTlcAt (s : State) (i : Nat) (v : TlCommits) : State :=
  { s with tlc := tset (fun _ => TlCommits.reset) s.tlc i v }

/-- The record of unit i in the table adm; an unlisted unit is at its reset record. -/
def State.admAt (s : State) (i : Nat) : AdmTl := tget (fun _ => AdmTl.reset) s.adm i

def State.setAdmAt (s : State) (i : Nat) (v : AdmTl) : State :=
  { s with adm := tset (fun _ => AdmTl.reset) s.adm i v }

/-- The record of unit i in the table scan; an unlisted unit is at its reset record. -/
def State.scanAt (s : State) (i : Nat) : Scan := tget (fun _ => Scan.reset) s.scan i

def State.setScanAt (s : State) (i : Nat) (v : Scan) : State :=
  { s with scan := tset (fun _ => Scan.reset) s.scan i v }

/-- The record of unit i in the table link; an unlisted unit is at its reset record. -/
def State.linkAt (s : State) (i : Nat) : OutLink := tget (fun _ => OutLink.reset) s.link i

def State.setLinkAt (s : State) (i : Nat) (v : OutLink) : State :=
  { s with link := tset (fun _ => OutLink.reset) s.link i v }

/-- The record of unit i in the table wb; an unlisted unit is at its reset record. -/
def State.wbAt (s : State) (i : Nat) : WbPort := tget (fun _ => WbPort.reset) s.wb i

def State.setWbAt (s : State) (i : Nat) (v : WbPort) : State :=
  { s with wb := tset (fun _ => WbPort.reset) s.wb i v }

/-- The record of unit i in the table fetch; an unlisted unit is at its reset record. -/
def State.fetchAt (s : State) (i : Nat) : SlotFetch := tget (fun _ => SlotFetch.reset) s.fetch i

def State.setFetchAt (s : State) (i : Nat) (v : SlotFetch) : State :=
  { s with fetch := tset (fun _ => SlotFetch.reset) s.fetch i v }

/-- The record of unit i in the table preset; an unlisted unit is at its reset record. -/
def State.presetAt (s : State) (i : Nat) : Option Nat := tget (fun _ => none) s.preset i

def State.setPresetAt (s : State) (i : Nat) (v : Option Nat) : State :=
  { s with preset := tset (fun _ => none) s.preset i v }

/-- The record of unit i in the table sigs; an unlisted unit is at its reset record. -/
def State.sigAt (s : State) (i : Nat) : SigHistory := tget (fun _ => []) s.sigs i

def State.setSigAt (s : State) (i : Nat) (v : SigHistory) : State :=
  { s with sigs := tset (fun _ => []) s.sigs i v }

/-- The record of unit i in the table groups; an unlisted unit is at its reset record. -/
def State.groupAt (s : State) (i : Nat) : GroupState := tget (fun _ => GroupState.reset) s.groups i

def State.setGroupAt (s : State) (i : Nat) (v : GroupState) : State :=
  { s with groups := tset (fun _ => GroupState.reset) s.groups i v }

/-- The record of unit i in the table bz; an unlisted unit is at its reset record. -/
def State.bzAt (s : State) (i : Nat) : BzShown := tget (fun _ => ⟨0, [], false⟩) s.bz i

def State.setBzAt (s : State) (i : Nat) (v : BzShown) : State :=
  { s with bz := tset (fun _ => ⟨0, [], false⟩) s.bz i v }

/-- The record of unit i in the table watch; an unlisted unit is at its reset record. -/
def State.watchAt (s : State) (i : Nat) : WatchState := tget (fun _ => WatchState.reset) s.watch i

def State.setWatchAt (s : State) (i : Nat) (v : WatchState) : State :=
  { s with watch := tset (fun _ => WatchState.reset) s.watch i v }

/-- The record of unit i in the table sink; an unlisted unit is at its reset record. -/
def State.sinkAt (s : State) (i : Nat) : SinkState := tget (fun _ => SinkState.reset) s.sink i

def State.setSinkAt (s : State) (i : Nat) (v : SinkState) : State :=
  { s with sink := tset (fun _ => SinkState.reset) s.sink i v }

/-- The record of unit i in the table dma; an unlisted unit is at its reset record. -/
def State.dmaAt (s : State) (i : Nat) : DmaCh := tget (fun _ => DmaCh.reset) s.dma i

def State.setDmaAt (s : State) (i : Nat) (v : DmaCh) : State :=
  { s with dma := tset (fun _ => DmaCh.reset) s.dma i v }

/-- The record of unit i in the table blit; an unlisted unit is at its reset record. -/
def State.blitAt (s : State) (i : Nat) : BlitCh := tget (fun _ => BlitCh.reset) s.blit i

def State.setBlitAt (s : State) (i : Nat) (v : BlitCh) : State :=
  { s with blit := tset (fun _ => BlitCh.reset) s.blit i v }

/-- The record of unit i in the table pol; an unlisted unit is at its reset record. -/
def State.polAt (s : State) (i : Nat) : Policer := tget (fun _ => Policer.reset) s.pol i

def State.setPolAt (s : State) (i : Nat) (v : Policer) : State :=
  { s with pol := tset (fun _ => Policer.reset) s.pol i v }

/-- The record of unit i in the table shq; an unlisted unit is at its reset record. -/
def State.shqAt (s : State) (i : Nat) : ShapeQ := tget (fun _ => ShapeQ.reset) s.shq i

def State.setShqAt (s : State) (i : Nat) (v : ShapeQ) : State :=
  { s with shq := tset (fun _ => ShapeQ.reset) s.shq i v }

/-- The record of unit i in the table dram; an unlisted unit is at its reset record. -/
def State.dramAt (s : State) (i : Nat) : SubCh := tget (fun _ => SubCh.reset) s.dram i

def State.setDramAt (s : State) (i : Nat) (v : SubCh) : State :=
  { s with dram := tset (fun _ => SubCh.reset) s.dram i v }

/-- The record of unit i in the table ig; an unlisted unit is at its reset record. -/
def State.igAt (s : State) (i : Nat) : Ingest := tget (fun _ => Ingest.reset) s.ig i

def State.setIgAt (s : State) (i : Nat) (v : Ingest) : State :=
  { s with ig := tset (fun _ => Ingest.reset) s.ig i v }

/-- The record of unit i in the table lastRead; an unlisted unit is at its reset record. -/
def State.lastReadAt (s : State) (i : Nat) : Nat := tget (fun _ => 0) s.lastRead i

def State.setLastReadAt (s : State) (i : Nat) (v : Nat) : State :=
  { s with lastRead := tset (fun _ => 0) s.lastRead i v }

/-- The record of unit i in the table lane; an unlisted unit is at its reset record. -/
def State.laneAt (s : State) (i : Nat) : Lane := tget (fun _ => Lane.reset) s.lane i

def State.setLaneAt (s : State) (i : Nat) (v : Lane) : State :=
  { s with lane := tset (fun _ => Lane.reset) s.lane i v }

/-- The record of unit i in the table can; an unlisted unit is at its reset record. -/
def State.canAt (s : State) (i : Nat) : Can := tget (fun _ => Can.reset) s.can i

def State.setCanAt (s : State) (i : Nat) (v : Can) : State :=
  { s with can := tset (fun _ => Can.reset) s.can i v }

/-! ### Memory (R127) -/

def keptIn (keep : List (Nat × Nat)) (a : Nat) : Bool := keep.any fun r => decide (r.1 ≤ a) && decide (a < r.1 + r.2)

/-- The number of the newest loss that took byte a, counted from 1; 0 when no loss took it. -/
def lossOf : List (List (Nat × Nat)) → Nat → Nat
  | [], _ => 0
  | k :: ks, a => if keptIn k a then lossOf ks a else ks.length + 1

/-- What an unlisted byte reads as: 0 before any loss (assumption 4), an undefined byte after one (R57). -/
def memDefault (losses : List (List (Nat × Nat))) (a : Nat) : Byte :=
  if lossOf losses a = 0 then 0 else Config.lostByte (lossOf losses a) a

def State.rdByte (s : State) (a : Nat) : Byte := tget (memDefault s.losses) s.mem a

def State.wrByte (s : State) (a : Nat) (b : Byte) : State := { s with mem := tset (memDefault s.losses) s.mem a b }

def State.rdBytes (s : State) (a n : Nat) : List Byte := (List.range n).map fun i => s.rdByte (a + i)

def State.wrBytes (s : State) (a : Nat) : List Byte → State
  | [] => s
  | b :: bs => (s.wrByte a b).wrBytes (a + 1) bs

/-- The content of all memory outside the kept ranges is lost, and with it what was known bad there. -/
def State.lose (s : State) (keep : List (Nat × Nat)) : State :=
  { s with losses := keep :: s.losses, mem := s.mem.filter (fun c => keptIn keep c.1), poison := s.poison.filter (keptIn keep) }

def ddrAll : List (Nat × Nat) := [(0, 0x8000000000)]
def onChipAll : List (Nat × Nat) := [(orangeryBase, orangerySize), (bezelBase, bezelSize)]

/-! ### Flash (R65) -/

def flashErased (_ : Nat) : Byte := 0xFF

def State.rdFlash (s : State) (dev a : Nat) : Byte := tget flashErased (if dev = 0 then s.flash0 else s.flash1) a

def State.wrFlash (s : State) (dev a : Nat) (b : Byte) : State :=
  if dev = 0 then { s with flash0 := tset flashErased s.flash0 a b } else { s with flash1 := tset flashErased s.flash1 a b }

def State.rdFlashN (s : State) (dev a n : Nat) : List Byte := (List.range n).map fun i => s.rdFlash dev (a + i)

/-- Programming clears bits and never sets one (NOR flash, chapter 2). -/
def State.progFlash (s : State) (dev a : Nat) : List Byte → State
  | [] => s
  | b :: bs => (s.wrFlash dev a (s.rdFlash dev a &&& b)).progFlash dev (a + 1) bs

/-- Erase n bytes. -/
def State.eraseFlash (s : State) (dev a : Nat) : Nat → State
  | 0 => s
  | n + 1 => (s.wrFlash dev a 0xFF).eraseFlash dev (a + 1) n

/-! ### Grants (R79, R489) -/

def Grant.covers (g : Grant) (cls i : Nat) : Bool := g.cls == cls && decide (g.first ≤ i) && decide (i < g.first + g.count)

def State.grantedW (s : State) (port cls i : Nat) : Bool :=
  s.locket.grants.any fun g => g.port == port && g.covers cls i && g.write

def State.grantedR (s : State) (port cls i : Nat) : Bool :=
  s.locket.grants.any fun g => g.port == port && g.covers cls i && (g.read || g.write)

/-- The port granted WRITE on an instance (4 the supervisor). -/
def State.ownerOf (s : State) (cls i : Nat) : Option Nat :=
  (s.locket.grants.find? fun g => g.covers cls i && g.write).map (·.port)

def State.parkGrant (s : State) (port : Nat) : Bool := s.locket.grants.any fun g => g.port == port && g.cls == 0 && g.park

/-! ### Host windows (R134) -/

/-- The byte offset in HWp that HP_CR_BASE, HP_EV_BASE and their like name. -/
def State.hwSize (s : State) (p : Nat) : Nat :=
  let l := s.get (HP_HW_SIZE p) HP_HW_SIZE_LOG2
  if l = 0 then 0 else 2 ^ l

def State.linkUp (s : State) (p : Nat) : Bool := s.on (HP_LINK p) HP_LINK_UP

/-- Whether n bytes at offset o of HWp can be sent. -/
def State.hwOk (s : State) (p o n : Nat) : Bool :=
  decide (o + n ≤ s.hwSize p) && s.linkUp p && s.on (HP_LINK p) HP_LINK_BME && !s.on (HP_LINK p) HP_LINK_D3

/-- A window access that could not be sent (R134). -/
def State.hwError (s : State) (p : Nat) : State :=
  (s.put (HP_HW_STAT p) HP_HW_STAT_ERR 1).bump (HP_HW_STAT p) HP_HW_STAT_ERR_CNT 1

def State.hwHost (s : State) (p o : Nat) : Nat :=
  s.get (HP_HW_BASE_LO p) HP_HW_BASE_LO_BASE * 4096 + s.rdN (HP_HW_BASE_HI p) * 2 ^ 32 + o

def State.toHost (s : State) (p : Nat) (m : HostMsg) : State :=
  let e := s.evAt p
  s.setEvAt p { e with outbox := m :: e.outbox }

/-- A posted write through HWp: sent, or an error. -/
def State.hwWrite (s : State) (p o : Nat) (bs : List Byte) : Option State :=
  if s.hwOk p o bs.length then some (s.toHost p (.write (s.hwHost p o) bs)) else none

/-! ### Events (R297 to R303) -/

def evBacklog : Nat := 1024

/-- Put a record into a port's backlog, with the port's epoch (R302). -/
def State.enqueue (s : State) (p : Nat) (e : Event) : State :=
  let q := s.evAt p
  s.setEvAt p { q with backlog := q.backlog ++ [{ e with epoch := s.get (HP_EPOCH p) HP_EPOCH_EPOCH }] }

def State.evFree (s : State) (p : Nat) : Bool :=
  decide ((s.evAt p).backlog.length + (s.evAt p).reserved < evBacklog)

/-- Number the next event of a source (R300). -/
def State.nextSeq (s : State) (source : Nat) : State := s.setSeqAt source ((s.seqAt source + 1) % 65536)

def State.mkEvent (s : State) (source type flags : Nat) (payload : List Byte) : Event :=
  { source := source, seq := s.seqAt source, type := type, flags := flags, epoch := 0, dtime := s.dtime, payload := payload }

/-- When an entry is free after drops, EV_LOST goes first (R301). -/
def State.postLost (s : State) (p : Nat) : State :=
  if decide (0 < (s.evAt p).lost) && s.evFree p && s.on (HP_EV_CTRL p) HP_EV_CTRL_EN then
    let src := 6 * 256 + p
    let e := s.mkEvent src 0x6F 0 (leBytes 4 (s.evAt p).lost)
    let s := s.setEvAt p { s.evAt p with lost := 0 }
    (s.enqueue p e).nextSeq src
  else s

/-- Offer an unreserved event to one port: its backlog takes it, or drops and counts it; a disabled ring takes nothing (R299,
R301). -/
def State.offer (s : State) (e : Event) (p : Nat) : State :=
  if !s.on (HP_EV_CTRL p) HP_EV_CTRL_EN then s
  else if s.evFree p then s.enqueue p e
  else
    let q := s.evAt p
    (s.setEvAt p { q with lost := q.lost + 1 }).bump (HP_EV_STAT p) HP_EV_STAT_LOST_CNT 1

/-- Post an event to some ports (R299); what they lost before is reported first. -/
def State.postTo (s : State) (ps : List Nat) (source type flags : Nat) (payload : List Byte) : State :=
  let s := ps.foldl State.postLost s
  let e := s.mkEvent source type flags payload
  (ps.foldl (fun s p => s.offer e p) s).nextSeq source

def allPorts : List Nat := [0, 1, 2, 3]

/-- Post an event of an instance: to every port granted WRITE or READ on it (R299). -/
def State.post (s : State) (cls inst type flags : Nat) (payload : List Byte) : State :=
  s.postTo (allPorts.filter fun p => s.grantedR p cls inst) (cls * 256 + inst) type flags payload

/-- Post a system event, or an event that goes to every open ring (R299, R449). -/
def State.postAll (s : State) (cls inst type : Nat) (payload : List Byte) : State :=
  s.postTo allPorts (cls * 256 + inst) type 0 payload

/-- Post an event of a host port to its own ring (R299). -/
def State.postOwn (s : State) (p cls inst type : Nat) (payload : List Byte) : State :=
  s.postTo [p] (cls * 256 + inst) type 0 payload

/-- Reserve a backlog entry in each port (R301); none when one has no free entry. -/
def State.reserve (s : State) : List Nat → Option State
  | [] => some s
  | p :: ps =>
    if s.evFree p then
      let q := s.evAt p
      (s.setEvAt p { q with reserved := q.reserved + 1 }).reserve ps
    else none

def State.unreserve (s : State) (ps : List Nat) : State :=
  ps.foldl (fun s p => let q := s.evAt p; s.setEvAt p { q with reserved := q.reserved - 1 }) s

/-- Give up reservations: what the ports lost before is reported now that an entry is free (R301). -/
def State.release (s : State) (ps : List Nat) : State := ps.foldl State.postLost (s.unreserve ps)

/-- Post an event for which an entry of each port is reserved: it is never dropped and waits even behind a disabled ring
(R301). -/
def State.postReserved (s : State) (ps : List Nat) (source type flags : Nat) (payload : List Byte) : State :=
  let e := s.mkEvent source type flags payload
  (ps.foldl (fun s p => s.enqueue p e) (s.unreserve ps)).nextSeq source

/-- The ports that receive an instance's events (R299). -/
def State.readersOf (s : State) (cls inst : Nat) : List Nat := allPorts.filter fun p => s.grantedR p cls inst

/-! ### Islands (R541) and the Pavilion that serves a timeline (R11, R548) -/

def islPixel (t : Nat) : Nat := 48 + t
def islQuad (q : Nat) : Nat := 64 + q
def islPav (p : Nat) : Nat := 76 + p
def islSub (k : Nat) : Nat := 84 + k
def islPhy (n : Nat) : Nat := 92 + n
def islHost (p : Nat) : Nat := 96 + p
def islFabric : Nat := 100
def islDma : Nat := 101
def islCarousel : Nat := 102
def islGate : Nat := 104
def islXspi : Nat := 105
def islCan (n : Nat) : Nat := 106 + n

def State.islUp (s : State) (i : Nat) : Bool := !(s.isl.down.any fun d => d.isl == i) && !s.isl.failed.contains i

/-- The Pavilion that a Pavilion number names: its standby after a migration (R548). -/
def State.pvName (s : State) (p : Nat) : Nat :=
  match s.isl.standFor.find? fun x => x.1 == p with
  | some x => x.2
  | none => p

/-- The Pavilion whose number names Pavilion q's registers: the failed one that it stands for. -/
def State.pvHome (s : State) (q : Nat) : Nat :=
  match s.isl.standFor.find? fun x => x.2 == q with
  | some x => x.1
  | none => q

def State.slotName (s : State) (sl : Nat) : Nat := 12 * s.pvName (sl / 12) + sl % 12

/-- The register address an access names (R548). -/
def State.aliasAddr (s : State) (a : Nat) : Nat :=
  if 0x200000 ≤ a ∧ a < 0x208000 then 0x200000 + s.pvName ((a - 0x200000) / 0x1000) * 0x1000 + a % 0x1000
  else if 0x210000 ≤ a ∧ a < 0x210000 + 96 * 0x400 then 0x210000 + s.slotName ((a - 0x210000) / 0x400) * 0x400 + a % 0x400
  else a

/-- The address of the active bank of a banked register (R528). -/
def activeOf (a : Nat) : Nat := a + 0x100

/-! ### Power state, DEGRADED and FAULT_N (R23 to R28, R338 to R340) -/

def PState.code : PState → Nat
  | .off => 0 | .parked => 1 | .waking => 2 | .lit => 3

/-- The causes of R24. -/
def State.degradedNow (s : State) : Bool :=
  !s.isl.moving.isEmpty || !s.isl.standFor.isEmpty || s.on DR_STAT DR_STAT_FAILED || !s.isl.down.isEmpty ||
  !s.isl.failed.isEmpty || !s.degr.watch.isEmpty || !s.degr.bezel.isEmpty

def State.postPstate (s : State) (old new cause : Nat) : State :=
  s.postAll 0 0 0x01 ([BitVec.ofNat 8 old, BitVec.ofNat 8 new, BitVec.ofNat 8 (b2n s.power.degraded), 0] ++ leBytes 4 cause ++ zeros 8)

/-- Enter or leave DEGRADED when its causes say so; only in LIT (R24, R28). -/
def State.syncDegraded (s : State) : State :=
  let d := decide (s.power.state = .lit) && s.degradedNow
  if d = s.power.degraded then s
  else
    let s := { s with power := { s.power with degraded := d } }
    if s.power.state = .lit then s.postPstate 3 3 (if d then 4 else 5) else s

def faultCauses : List Fld := [WT_FAULT_WATCH, WT_FAULT_LINK, WT_FAULT_BEZEL, WT_FAULT_SINK, WT_FAULT_HB]

/-- Whether FAULT_N is low (R338, R48, R54). -/
def State.faultLow (s : State) : Bool :=
  s.power.hold || decide (s.boot.phase = .noImage) || !s.islUp islGate || s.on WT_FAULT WT_FAULT_STARTUP || faultCauses.any fun f => s.on WT_FAULT f

/-- Each change of FAULT_N posts FAULT_PIN (R338); an assertion is counted. -/
def State.syncFault (s : State) : State :=
  let f := s.faultLow
  if (f == s.power.faultWas) = true then s
  else
    let s := { s with power := { s.power with faultWas := f } }
    let s := s.put WT_FAULT WT_FAULT_FAULT (b2n f)
    let s := if f then s.bump WT_FCNT ⟨0, 32⟩ 1 else s
    s.post 9 0xFF 0x94 0 ([0, BitVec.ofNat 8 (b2n f)] ++ leBytes 2 (s.rdN WT_FAULT) ++ leBytes 4 0 ++ leBytes 4 (s.rdN WT_FTL) ++ leBytes 4 0)

/-- Raise a cause of FAULT_N for a timeline (R338), whose condition is present in the timeline's present frame (R340).  A cause that no
timeline raises is kept under number 16. -/
def State.raiseFault (s : State) (f : Fld) (tl : Option Nat) : State :=
  let s := s.put WT_FAULT f 1
  let k := tl.getD 16
  let s := { s with degr := { s.degr with raised := (f.lo, k, true) :: s.degr.raised.filter fun x => !(x.1 == f.lo && x.2.1 == k) } }
  let s := match tl with
    | some t => s.put WT_FTL ⟨t, 1⟩ 1
    | none => s
  s.syncFault

/-! ### The ledger queue (R507 to R510) -/

def ledgerDepth : Nat := 64

def hash16 (bs : List Byte) : List Byte := (sha256 bs).take 16

def foldable (action : Nat) : Bool := action == 0x11 || action == 0x12 || action == 0x22

/-- Queue an entry; none when the queue is full (R509). -/
def State.ledgerAdd (s : State) (role source action target : Nat) (old new : List Byte) (result : Nat) : Option State :=
  if s.gate.queue.length < ledgerDepth then
    let e : Ledger := { seq := s.gate.nextSeq, dtime := s.dtime, otp := s.otp.count, role := role, source := source, action := action,
                        target := target, count := 1, old := old, new := new, result := result }
    let s := { s with gate := { s.gate with queue := s.gate.queue ++ [e], nextSeq := (s.gate.nextSeq + 1) % 2 ^ 32 } }
    some ((s.wrN GH_LED_HEAD e.seq).put GH_LED_STAT GH_LED_STAT_QUEUED s.gate.queue.length)
  else none

/-- Whether an entry of the queue takes a repetition (R510): the same source, target and kind, at most 100 ms old. -/
def State.foldsWith (s : State) (source action target : Nat) (e : Ledger) : Bool :=
  e.action == action && e.source == source && e.target == target && decide (s.dtime ≤ e.dtime + 100000000)

/-- Enter a refused attempt (R510): folded into a queued entry of its kind, or a new entry, or counted in GH_LED_DROP. -/
def State.ledgerRefusal (s : State) (role source action target : Nat) (old new : List Byte) : State :=
  if foldable action && s.gate.queue.any (s.foldsWith source action target) then
    let q := s.gate.queue.map fun e => if s.foldsWith source action target e then { e with count := e.count + 1 } else e
    { s with gate := { s.gate with queue := q } }
  else
    match s.ledgerAdd role source action target old new 1 with
    | some s => s
    | none => s.bump GH_LED_DROP GH_LED_DROP_COUNT 1

/-- Enter an act that was done; the queue is never full for it unless the caller checked (R509). -/
def State.ledgerDone (s : State) (role source action target : Nat) (old new : List Byte) : State :=
  match s.ledgerAdd role source action target old new 0 with
  | some s => s
  | none => s.bump GH_LED_DROP GH_LED_DROP_COUNT 1

def roleOperator : Nat := 0
def roleInstaller : Nat := 1
def roleMaker : Nat := 2
def roleHub : Nat := 3

def srcCode : Src → Nat
  | .host p => p.val
  | .sup => 4
  | .jtag => 5

/-! ### Free values -/

/-- Draw the next free byte. -/
def State.drawFree (s : State) : Byte × State := (Config.freeByte s.free, { s with free := s.free + 1 })

end Sys2Proof.Machine
end

