-- ==== Sys2Proof/Machine/Access.lean ====
section
/-!
DEFINITION. How a register access is decided (R487 to R496): who may write what, the locked and write-once fields, posted groups
and sealed banks, and what a read returns (R489, R493, R521).
-/

namespace Sys2Proof.Machine

/-! ### Instances (R517, R518) -/

def inRange (lo hi a : Nat) : Bool := decide (lo ≤ a) && decide (a < hi)

/-- The grant class and instance that an address belongs to (R79, R489); none for the registers no class names. -/
def grantOf (a : Nat) : Option (Nat × Nat) :=
  if inRange 0x100000 0x110000 a then some (1, (a - 0x100000) / 0x1000)
  else if inRange 0x200010 0x208000 a && decide (a % 0x1000 < 0x200) then some (1, 2 * ((a - 0x200000) / 0x1000) + (a - 0x10) / 8 % 2)
  else if inRange 0x200000 0x208000 a && inRange 0x204 0x20C (a % 0x1000) then
    some (1, 2 * ((a - 0x200000) / 0x1000) + (a - 0x204) / 4 % 2)
  else if inRange 0x210000 (0x210000 + 96 * 0x400) a then some (12, (a - 0x210000) / 0x400)
  else if inRange 0x400000 0x410000 a then some (1, (a - 0x400000) / 0x1000)
  else if inRange 0x440000 0x480000 a then some (9, (a - 0x440000) / 0x4000)
  else if inRange 0x480000 0x484000 a then some (9, (a - 0x480000) / 0x400)
  else if inRange 0x600000 0x601000 a then some (3, (a - 0x600000) / 0x80)
  else if inRange 0x700000 0x700400 a then some (4, (a - 0x700000) / 0x80)
  else if inRange 0x801100 0x803000 a then some (13, (a - 0x801000) / 0x20)
  else if inRange 0xB00000 0xB00C00 a then some (5, (a - 0xB00000) / 0x80)
  else none

/-- The host port whose HP or EV block an address lies in. -/
def portBlock (a : Nat) : Option Nat :=
  if inRange 0xA00000 0xA40000 a then some ((a - 0xA00000) / 0x10000)
  else if inRange 0xF00000 0xF04000 a then some ((a - 0xF00000) / 0x1000)
  else none

/-- The registers that their chapters reserve to the supervisor (R490, R500). -/
def supervisorOnly (a : Nat) : Bool :=
  inRange 0x440000 0x480000 a && a % 0x4000 == 0 || a == SM_SV_DATA || a == SM_SV_SIG || a == WT_FAULT || a == WT_FTL ||
  a == GH_LOCK || inRange 0x10100 0x102A0 a || inRange XS_CMD 0xD04200 a

/-- The timeline of a writeback port, which belongs to the host granted WRITE on it (R123). -/
def State.wbTl (s : State) (n : Nat) : Nat := s.get (WB_CTRL n) WB_CTRL_TL

def State.locked (s : State) : Bool := s.on GH_STAT GH_STAT_LOCKED

/-- Whether the scope b of R505 is open: by a consent token that has not expired (R514), or freely before installer lock (R503). -/
def State.scopeOpen (s : State) (b : Nat) : Bool := bit s.gate.scope b && decide (s.dtime < s.gate.scopeEnd) || !s.locked

/-! ### Who may write (R489, R490) -/

/-- The address at the Pavilion whose registers a standby's address now names (R548). -/
def State.homeAddr (s : State) (a : Nat) : Nat :=
  if 0x200000 ≤ a ∧ a < 0x208000 then 0x200000 + s.pvHome ((a - 0x200000) / 0x1000) * 0x1000 + a % 0x1000
  else if 0x210000 ≤ a ∧ a < 0x210000 + 96 * 0x400 then
    let sl := (a - 0x210000) / 0x400
    0x210000 + (12 * s.pvHome (sl / 12) + sl % 12) * 0x400 + a % 0x400
  else a

/-- The reason a host port's write is denied (R491), none when R489 allows it. -/
def State.hostDeny (s : State) (p addr : Nat) : Option Nat :=
  let a := s.homeAddr addr
  match portBlock a with
  | some q => if q = p then none else some 2
  | none =>
    if supervisorOnly a then some 3
    else if a == SY_PARK_CTRL then (if s.parkGrant p then none else some 1)
    else if inRange 0x410000 0x410400 a then
      (if s.grantedW p 1 (s.wbTl ((a - 0x410000) / 0x100)) then none else some 1)
    else if inRange 0x200200 0x208000 a && a % 0x1000 == 0x200 then
      (if s.grantedW p 1 (2 * ((a - 0x200000) / 0x1000)) || s.grantedW p 1 (2 * ((a - 0x200000) / 0x1000) + 1) then none else some 1)
    else if inRange 0xE00000 0xF00000 a then (if s.scopeOpen 0 then none else some 3)
    else if inRange 0x801000 0x803000 a && a % 0x20 != 8 then some 1
    else
      match grantOf a with
      | some (c, i) => if s.grantedW p c i then none else some 1
      | none => some 1

def State.sessionOpen (s : State) : Bool := s.get GH_SES_STAT GH_SES_STAT_STATE == 2
/-- The bit of R499 that opens the fields marked (I) of an address; none when no right opens them. -/
def rightOf (a : Nat) : Option Nat :=
  if inRange 0x100000 0x200000 a || inRange 0x400000 0x410000 a || inRange 0xC00000 0xD00000 a then some 0
  else if inRange 0x200000 0x400000 a || inRange 0x500000 0x600000 a then some 1
  else if inRange 0xA00000 0xC00000 a || inRange 0xD00000 0xD04000 a then some 2
  else if inRange 0x800000 0x900000 a || inRange 0x700000 0x800000 a || inRange 0x600000 0x601000 a then some 3
  else if inRange 0x440000 0x500000 a || inRange 0xD08000 0xD09000 a || a == SV_HB_CFG then some 4
  else if decide (a < 0x10000) || inRange 0x60F000 0x610000 a || inRange 0x900000 0xA00000 a then some 5
  else none

/-- The island a register lies in (R160, R309, R310, R369, R484 to R486, R542); none for those of the always-on island, which no
island reset reaches. -/
def islandOf (a : Nat) : Option Nat :=
  if inRange 0x10000 0x20000 a then some islGate
  else if inRange 0x100000 0x110000 a then some (islPixel ((a - 0x100000) / 0x1000))
  else if inRange 0x200000 0x208000 a then some (islPav ((a - 0x200000) / 0x1000))
  else if inRange 0x210000 (0x210000 + 96 * 0x400) a then some (islPav ((a - 0x210000) / 0x3000))
  else if inRange 0x400000 0x410000 a then some (islPixel ((a - 0x400000) / 0x1000))
  else if inRange 0x440000 0x480000 a then some (islPixel ((a - 0x440000) / 0x4000))
  else if inRange 0x480000 0x484000 a then some (islPixel ((a - 0x480000) / 0x400))
  else if inRange 0x500000 0x600000 a || inRange 0x800000 0x900000 a then some islCarousel
  else if inRange 0x600000 0x800000 a then some islDma
  else if inRange 0x900000 0x901000 a then some islGate
  else if inRange 0x901000 0x901800 a then some (islSub ((a - 0x901000) / 0x100))
  else if inRange 0xA00000 0xA40000 a then
    (if inRange 0x400 0x440 (a % 0x10000) then some islCarousel else some (islHost ((a - 0xA00000) / 0x10000)))
  else if inRange 0xF00000 0xF04000 a then some (islHost ((a - 0xF00000) / 0x1000))
  else if inRange 0xB00000 0xC00000 a || inRange 0xD00400 0xD00800 a || inRange 0xD06000 0xD09000 a ||
      inRange 0xE00000 0xF00000 a || inRange 0x4C0000 0x4D0000 a then
    some islGate
  else if inRange 0xC00000 0xC00030 a then some (islQuad ((a - 0xC00000) / 4))
  else if inRange 0xC00100 0xC00200 a then some (islQuad ((a - 0xC00100) / 16))
  else if inRange 0xD00000 0xD00200 a then some (islCan ((a - 0xD00000) / 0x100))
  else if inRange 0xD04000 0xD05000 a then some islXspi
  else none

/-- Whether an access can be delivered to the island of a register (R16). -/
def State.delivers (s : State) (a : Nat) : Bool :=
  match islandOf a with
  | some i => s.islUp i
  | none => true

/-- Whether the supervisor port answers: from PLL lock onwards, in every state but PARKED (R476). -/
def State.svUp (s : State) : Bool :=
  (decide (s.power.state = .waking) || decide (s.power.state = .lit)) && !decide (s.boot.phase = .idle) && !decide (s.boot.phase = .pll)

/-- Whether an access of a source can come in: a host's through BAR0 of a port that is up, in D0 and decodes memory (R455, R457),
the supervisor's and JTAG's while the Gatehouse runs. -/
def State.srcUp (s : State) (src : Src) : Bool :=
  match src with
  | .host p => s.linkUp p.val && (s.portAt p.val).mse && !s.on (HP_LINK p.val) HP_LINK_D3 && s.islUp (islHost p.val)
  | .sup => s.svUp
  | .jtag => s.svUp

/-- A BAR0 write that is not one aligned DW is discarded, and the port logs it as an Unsupported Request (R455). -/
def State.logUr (s : State) (src : Src) (a : Nat) : State :=
  match src with
  | .host p => if s.srcUp src && a % 4 != 0 then s.setPortAt p.val { s.portAt p.val with ur := true } else s
  | _ => s

/-- Whether a write is a commit doorbell of a port registered in the same clock as the port's reset: it is taken after the reset (R304,
R308). -/
def State.sameClock (s : State) (src : Src) (a : Nat) : Bool :=
  match src with
  | .host p => (s.portAt p.val).rstAt == some s.dtime && (List.range 8).any fun r => a == HP_CR_DB p.val r
  | _ => false

/-- Whether a source holds the installer right for the fields marked (I) of an address (R487, R495, R499): by a session, or, before
installer lock, for SY_BOOT_CTRL.RESTART. -/
def State.installerFor (s : State) (src : Src) (a : Nat) : Bool :=
  decide (src = .sup) &&
  (s.sessionOpen && (match rightOf a with
     | some b => bit (s.get GH_SES_STAT GH_SES_STAT_RIGHTS) b
     | none => false) ||
   !s.locked && (a == SY_BOOT_CTRL))

/-- The right to one field marked (I): a class E field has it by Locket alone (R488, R499). -/
def State.fieldRight (s : State) (src : Src) (a : Nat) (f : FieldRow) : Bool := s.installerFor src a && f.cls != .e

/-- The role of an access (R487).  The supervisor before installer lock is the maker (assumption 115). -/
def State.roleOf (s : State) (src : Src) : Nat :=
  match src with
  | .host _ => roleOperator
  | .sup => if s.sessionOpen then roleInstaller else if s.locked then roleOperator else roleMaker
  | .jtag => roleMaker

/-- A unit that the Locket gives to a host port alone (R490). -/
def State.hostOwned (s : State) (a : Nat) : Bool :=
  match portBlock a with
  | some _ => true
  | none =>
    if inRange 0x410000 0x410400 a then allPorts.any fun p => s.grantedW p 1 (s.wbTl ((a - 0x410000) / 0x100))
    else
      match grantOf a with
      | some (c, i) => (c == 3 || c == 4 || c == 13) && allPorts.any fun p => s.grantedW p c i
      | none => false

/-- Whether a register has a field marked (I) that a session may open. -/
def opensTo (a : Nat) : Bool :=
  match rowAt a with
  | some r => r.fields.any fun f => f.inst && f.cls != .e
  | none => false

/-- Whether the supervisor may write an address: all that R490 leaves it as operator, and of a unit that a host port has alone the
registers with fields that an open session opens.  The key hash is the installer's (R488, R502). -/
def State.supMay (s : State) (a : Nat) : Bool :=
  if inRange 0xE00000 0xF00000 a then s.scopeOpen 0
  else if inRange (GH_IKH 0) (GH_IKH 8) a then !s.locked || s.sessionOpen
  else !s.hostOwned a || s.installerFor .sup a && opensTo a

/-- The reason a write is denied, none when it is allowed.  JTAG, the maker, reaches the token registers (R505) and, with the scope open,
the test multiplexer (R503, R524). -/
def State.deny (s : State) (src : Src) (a : Nat) : Option Nat :=
  match src with
  | .host p => s.hostDeny p a
  | .sup => if s.supMay a then none else some 1
  | .jtag => if inRange GH_TOK_CTRL 0x102A0 a || (inRange 0xE00000 0xF00000 a && s.scopeOpen 0) then none else some 1

/-! ### Denials (R491) -/

def denyPayload (offset value reason count : Nat) : List Byte :=
  leBytes 4 offset ++ leBytes 4 value ++ [BitVec.ofNat 8 reason, 0, 0, 0] ++ leBytes 4 (min count 0xFFFFFFFF)

def State.postDenied (s : State) (p offset value reason count : Nat) : State :=
  let s := s.postOwn p 6 p 0x62 (denyPayload offset value reason count)
  s.setDenialAt p { last := some s.dtime, folded := 0, offset := 0, value := 0, reason := 0 }

/-- A write the port may not make: counted, and reported at once or folded (R491). -/
def State.hostDenied (s : State) (p a value reason : Nat) : State :=
  let s := s.bump (HP_DENY_CNT p) HP_DENY_CNT_COUNT 1
  let s := s.put (HP_DENY_ADDR p) HP_DENY_ADDR_OFFSET (a / 4)
  let d := s.denialAt p
  match d.last with
  | none => s.postDenied p a value reason 1
  | some t =>
    if t + 1000000 ≤ s.dtime then s.postDenied p a value reason (d.folded + 1)
    else s.setDenialAt p { d with folded := d.folded + 1, offset := a, value := value, reason := reason }

/-- A refused write of any source: RSTAT DENIED and GH_SV_DENY_CNT for the supervisor (R491). -/
def State.refuseWrite (s : State) (src : Src) (a value reason : Nat) : State :=
  match src with
  | .host p => s.hostDenied p a value reason
  | .sup => s.bump GH_SV_DENY_CNT GH_SV_DENY_CNT_COUNT 1
  | .jtag => s

/-! ### Posted groups (R10, R496) -/

/-- The posted groups: 0 to 15 a timeline's pixel-clock island, 16 + t the background bank of timeline t in its Pavilion,
64 + s a layer slot, 160 admission, 161 + p the surface commands of a port, 170 the Carousel, 171 + n a CAN controller, 173
the flash controller, 174 the signal mapper, 176 + q an output quad, 190 + k a DDR5 sub-channel. -/
def groupAddr (a : Nat) : Nat :=
  if inRange 0x100000 0x110000 a then (a - 0x100000) / 0x1000
  else if inRange 0x200000 0x208000 a then 16 + 2 * ((a - 0x200000) / 0x1000) + (a - 0x10) / 8 % 2
  else if inRange 0x210000 0x400000 a then 64 + (a - 0x210000) / 0x400
  else if inRange 0x400000 0x410000 a then (a - 0x400000) / 0x1000
  else if inRange 0x440000 0x480000 a then (a - 0x440000) / 0x4000
  else if inRange 0x480000 0x484000 a then (a - 0x480000) / 0x400
  else if inRange 0x500000 0x600000 a then 160
  else if inRange 0xA00000 0xA40000 a then 161 + (a - 0xA00000) / 0x10000
  else if inRange 0x800000 0x900000 a then 170
  else if inRange 0xD00000 0xD00400 a then 171 + (a - 0xD00000) / 0x100
  else if inRange 0xD04000 0xD06000 a then 173
  else if inRange 0xD08000 0xD09000 a then 174
  else if inRange 0xC00000 0xC00030 a then 176 + (a - 0xC00000) / 4
  else if inRange 0xC00100 0xC00200 a then 176 + (a - 0xC00100) / 4 / 4
  else 190 + (a - 0x901000) / 0x100

/-- The blocks whose writable fields are all posted, whatever their access code: layer slots (R185, R222, R265) but their group
status, finishers (R223), Bezel and watch regions (R343, R344), admission and Orangery (R264, R266), policers and queues (R415, R416),
sub-channels (R451), CAN controllers (R485) and the flash controller (R486). -/
def postedBlock (b : Nat) : Bool :=
  inRange 0x210000 0x400000 b && b != 0x2103E0 || inRange 0x400000 0x410000 b || inRange 0x440000 0x484000 b || inRange 0x500000 0x600000 b ||
  inRange 0x800000 0x803000 b || inRange 0x901000 0x901800 b || inRange 0xD00000 0xD00200 b || inRange 0xD04000 0xD06000 b

/-- Whether a register is posted: it has a posted field, or a writable one in a block that is posted whole. -/
def RegRow.posted (r : RegRow) : Bool :=
  r.fields.any (fun f => f.acc == .rwp) || postedBlock r.base && r.fields.any (fun f => f.acc != .ro)

/-- The BUSY and WR_LOST bits of a posted group; an output quad shows neither. -/
def groupBits (g : Nat) : Option (Nat × Fld × Fld) :=
  if g < 16 then some (TL_STAT g, TL_STAT_BUSY, TL_STAT_WR_LOST)
  else if g < 64 then some (PV_GSTAT ((g - 16) / 2), ⟨8 * (g % 2), 1⟩, ⟨8 * (g % 2) + 1, 1⟩)
  else if g < 160 then some (LY_GSTAT (g - 64), LY_GSTAT_BUSY, LY_GSTAT_WR_LOST)
  else if g = 160 then some (AD_LAST, AD_LAST_BUSY, AD_LAST_WR_LOST)
  else if g < 170 then some (HP_SF_STAT (g - 161), HP_SF_STAT_BUSY, HP_SF_STAT_WR_LOST)
  else if g = 170 then some (CA_STAT, CA_STAT_BUSY, CA_STAT_WR_LOST)
  else if g < 173 then some (CN_STAT (g - 171), CN_STAT_BUSY, CN_STAT_WR_LOST)
  else if g = 173 then some (XS_STAT, XS_STAT_BUSY, XS_STAT_WR_LOST)
  else if g = 174 then some (SM_SV_STAT, SM_SV_STAT_BUSY, SM_SV_STAT_WR_LOST)
  else if g < 190 then none
  else some (DR_SC_STAT (g - 190), DR_SC_STAT_BUSY, DR_SC_STAT_WR_LOST)

def State.groupBusy (s : State) (g : Nat) : Bool :=
  (s.postedAt g).isSome ||
  match groupBits g with
  | some (a, b, _) => s.on a b
  | none => false

def State.setBusy (s : State) (g : Nat) (v : Bool) : State :=
  match groupBits g with
  | some (a, b, _) => s.put a b (b2n v)
  | none => s

def State.setLost (s : State) (g : Nat) : State :=
  match groupBits g with
  | some (a, _, l) => s.put a l 1
  | none => s

/-- A posted write is registered by its source island: BUSY is set until it lands. -/
def State.postWrite (s : State) (src : Src) (a : Nat) (w : Word) : State :=
  (s.setPostedAt (groupAddr a) (some ⟨src, a, w.toNat⟩)).setBusy (groupAddr a) true

/-! ### Sealed banks (R289) -/

/-- The timeline that a banked register's bank belongs to: the background of PV_BG, the assigned timeline of a layer slot. -/
def State.bankTl (s : State) (a : Nat) : Nat :=
  if a < 0x210000 then 2 * s.pvHome ((a - 0x200000) / 0x1000) + (a - 0x10) / 8 % 2
  else 2 * s.pvHome ((a - 0x210000) / 0x400 / 12) + s.get (activeOf (LY_CTRL ((a - 0x210000) / 0x400))) LY_CTRL_TL

/-- SEALED of a timeline's pending bank (R290). -/
def State.sealed (s : State) (t : Nat) : Bool := s.on (PV_GSTAT (s.pvName (t / 2))) ⟨8 * (t % 2) + 3, 1⟩

def State.setSealed (s : State) (t : Nat) (v : Bool) : State := s.put (PV_GSTAT (s.pvName (t / 2))) ⟨8 * (t % 2) + 3, 1⟩ (b2n v)

def State.setSealedWr (s : State) (a : Nat) : State :=
  if a < 0x210000 then s.put (PV_GSTAT ((a - 0x200000) / 0x1000)) ⟨8 * ((a - 0x10) / 8 % 2) + 2, 1⟩ 1
  else s.put (LY_GSTAT ((a - 0x210000) / 0x400)) LY_GSTAT_SEALED_WR 1

/-! ### Field by field (R492, checks 3 and 4) -/

def FieldRow.fld (f : FieldRow) : Fld := ⟨f.lo, f.w⟩

/-- What checks 3 and 4 leave of a write: the word to be written, and the state with what they recorded. -/
structure Filtered where
  s      : State
  word   : Word
  denied : Bool
  opened : Bool

/-- Write-once and locked fields of one word: each is ignored where its rule says so (R494, R495).  In a unit that a host port has
alone, a session opens the fields marked (I) and no other (R490, R499). -/
def filterField (src : Src) (a : Nat) (value : Nat) (acc : Filtered) (f : FieldRow) : Filtered :=
  let s := acc.s
  let cur := s.get a f.fld
  let new := getField (BitVec.ofNat 32 value) f.fld
  let keep : Word := putField acc.word f.fld cur
  if f.acc == .ro || (decide (src = .sup) && s.hostOwned a && !f.inst) then { acc with word := keep }
  else if f.cls == .e && s.gate.once.contains (a, f.lo) then
    let s := s.put GH_STAT GH_STAT_WO_REWRITE 1
    let s := if f.inst then
        s.ledgerRefusal (s.roleOf src) (srcCode src) 0x12 a (leBytes 4 (s.rdN a)) (leBytes 4 value)
      else s
    { acc with s := s, word := keep }
  else if f.inst && !s.fieldRight src a f then
    if f.acc == .w1s && new == 0 then { acc with word := keep }
    else if cur == new then { acc with word := keep }
    else
      let s := s.put GH_STAT GH_STAT_LOCK_VIOL 1
      let s := s.ledgerRefusal (s.roleOf src) (srcCode src) 0x11 a (leBytes 4 (s.rdN a)) (leBytes 4 value)
      { acc with s := s, word := keep, denied := true }
  else if f.inst && cur != new then { acc with opened := true }
  else acc

def filterWord (s : State) (src : Src) (a value : Nat) (r : RegRow) : Filtered :=
  r.fields.foldl (filterField src a value) ⟨s, BitVec.ofNat 32 value, false, false⟩

/-- The PV_GSTAT fields of the other timeline are not a host's (R489). -/
def State.maskForeign (s : State) (src : Src) (addr value : Nat) : Nat :=
  let a := s.homeAddr addr
  match src with
  | .host p =>
    if inRange 0x200200 0x208000 a && a % 0x1000 == 0x200 then
      let t := 2 * ((a - 0x200000) / 0x1000)
      (if s.grantedW p 1 t then value % 256 else 0) + (if s.grantedW p 1 (t + 1) then value / 256 % 256 * 256 else 0)
    else value
  | _ => value

/-! ### The re-seat shadow (R105) -/

/-- The timeline registers that have a re-seat shadow. -/
def shadowed (a : Nat) : Bool := inRange 0x100000 0x110000 a && inRange 4 0x28 (a % 0x1000)

def shadowOf (a : Nat) : Nat := a + 0x800

def State.tlOn (s : State) (t : Nat) : Bool := s.on (TL_CTRL t) TL_CTRL_EN

/-- Whether a write to a timeline's register lands in its re-seat shadow. -/
def State.toShadow (s : State) (a : Nat) : Bool :=
  let t := (a - 0x100000) / 0x1000
  shadowed a && a != TL_GENLOCK t && s.tlOn t

/-- The word of a write that lands in the re-seat shadow keeps the shadow's own fields marked (I) where its writer lacks the right. -/
def State.seatKeep (s : State) (src : Src) (a : Nat) (w : Word) (r : RegRow) : Word :=
  if s.toShadow a then
    r.fields.foldl (fun w f => if f.inst && !s.fieldRight src a f then putField w f.fld (s.get (shadowOf a) f.fld) else w) w
  else w

/-! ### The word after a write (R8) -/

/-- The value of a register after a write of w, field by field under its access code. -/
def landField (old w : Word) (cur : Word) (f : FieldRow) : Word :=
  let o := getField old f.fld
  let n := getField w f.fld
  match f.acc with
  | .rw | .rwp | .wo => putField cur f.fld n
  | .ro => cur
  | .w1c => putField cur f.fld (o - (o &&& n))
  | .w1s => putField cur f.fld (o ||| n)

def landWord (old w : Word) (r : RegRow) : Word := r.fields.foldl (landField old w) old

/-- Mark the class E fields of a register as written (R494). -/
def State.markOnce (s : State) (a : Nat) (r : RegRow) : State :=
  let new := (r.fields.filter fun f => f.cls == .e && !s.gate.once.contains (a, f.lo)).map fun f => (a, f.lo)
  { s with gate := { s.gate with once := new ++ s.gate.once } }

/-- RSTAT codes of R480. -/
inductive RStat where
  | ok | denied | lost
  deriving DecidableEq, Repr

def RStat.code : RStat → Nat
  | .ok => 0x00
  | .denied => 0x04
  | .lost => 0x07

/-- The checks before a write (R492 checks 1 to 5): the outcome that ends it, or the filtered word to be written.  `adm` runs the
admission of R233 for an installer's change and answers false when the change is not applied. -/
def decideWrite (adm : State → Nat → Word → State × Bool) (s : State) (src : Src) (a value : Nat) :
    (State × RStat) ⊕ (State × Word × RegRow) :=
  match rowAt a with
  | none => .inl (s.logUr src a, .ok)
  | some r =>
    if isActiveView a || a % 4 != 0 || !(s.srcUp src || s.sameClock src a) then .inl (s.logUr src a, .ok)
    else
      match s.deny src a with
      | some reason => .inl (s.refuseWrite src a value reason, .denied)
      | none =>
        let f := filterWord s src a (s.maskForeign src a value) r
        let s1 := match f.denied, src with
          | true, .host p => f.s.hostDenied p a value 4
          | _, _ => f.s
        let w := s1.seatKeep src a f.word r
        if !s1.delivers a then .inl (s1, .ok)
        else if r.posted && s1.groupBusy (groupAddr a) then .inl (s1.setLost (groupAddr a), .lost)
        else if f.opened then
          if s1.gate.queue.length < ledgerDepth then
            match adm s1 a w with
            | (s2, false) => .inl (s2, .ok)
            | (s2, true) =>
              let s2 := s2.ledgerDone roleInstaller (srcCode src) 0x10 a (leBytes 4 (s.rdN a)) (leBytes 4 w.toNat)
              .inr ({ s2 with gate := { s2.gate with session := { s2.gate.session with changed := true } } }, w, r)
          else .inl ((s1.put GH_STAT GH_STAT_LEDGER_FULL 1).refuseWrite src a value 1, .denied)
        else .inr (s1, w, r)

/-- The bits of a register that the configuration CRC takes: fields marked (I) or of class E (R512). -/
def structMask (w : Word) (r : RegRow) : Word :=
  r.fields.foldl (fun acc f => if f.inst || f.cls == .e then putField acc f.fld (getField w f.fld) else acc) 0

/-- A configuration CRC run is torn by a change of a structural field while it runs, or in the cycle of its end (R512, R514). -/
def State.tear (s : State) (changed : Bool) : State :=
  if (s.gate.cfgRun || s.gate.cfgEnd == some s.dtime) && changed then s.put GH_CFG_STAT GH_CFG_STAT_TORN 1 else s

/-- Whether a word would change a structural field of a register. -/
def State.structMoves (s : State) (a : Nat) (w : Word) : Bool :=
  match rowAt a with
  | some r => r.struct && structMask w r != structMask (s.rd a) r
  | none => false

/-- A register takes a word; a configuration CRC run is torn where a structural field changes (DEDUCED, assumption 142: a write that leaves
every structural field as it is writes none, as R495 has it of locked fields). -/
def State.wrHub (s : State) (a : Nat) (w : Word) : State := (s.tear (s.structMoves a w)).wr a w

/-- The write itself (R492 check 7), with the class E marks. -/
def State.landWrite (s : State) (a : Nat) (w : Word) (r : RegRow) : State :=
  let s := s.markOnce a r
  s.wrHub a (landWord (s.rd a) w r)

/-! ### Reading (R489, R493, R521) -/

def absentSub (s : State) (a : Nat) : Bool :=
  inRange 0x901000 0x901800 a && !bit (s.get DR_CFG DR_CFG_SUBCH_MASK) ((a - 0x901000) / 0x100)

/-- Whether a source may read an address (R489). -/
def State.mayRead (s : State) (src : Src) (a : Nat) : Bool :=
  (!inRange 0xE00000 0xF00000 a || s.scopeOpen 0) &&
  match src with
  | .host p =>
    !inRange 0x10100 0x102A0 a &&
    (match portBlock a with
     | some q => q == p
     | none => true)
  | .sup => true
  | .jtag => inRange 0x10200 0x102A0 a || inRange 0xE00000 0xF00000 a

/-- The admission hook of writes that no admission input depends on. -/
def noAdm (s : State) (_ : Nat) (_ : Word) : State × Bool := (s, true)

/-- A write of a register with behaviour of its own: the checks of R492, then its effect. -/
def State.guarded (s : State) (src : Src) (a value : Nat) (eff : State → Word → State) : State × RStat :=
  match decideWrite noAdm s src (s.aliasAddr a) value with
  | .inl r => r
  | .inr (s, w, _) => (eff s w, .ok)

end Sys2Proof.Machine
end

