-- ==== Sys2Proof/Machine/Gatehouse.lean ====
section
/-!
DEFINITION. The Gatehouse: installer sessions, the key hash, consent tokens, the ledger and its flash areas, the configuration
CRC, denial folding and JTAG (R487 to R512).
-/

namespace Sys2Proof.Machine

/-- What each meaning answers: the state after the command, the device time having reached the command's. -/
abbrev Out := Host.Outcome State Fault Refusal

/-- Run an effect when its condition holds; a command that is not due changes nothing but the time (assumption 1). -/
def State.when (s : State) (c : Bool) (f : State → State) : State := if c then f s else s

def wordsBytes (s : State) (base n : Nat) : List Byte := (List.range n).flatMap fun k => leBytes 4 (s.rdN (base + 4 * k))

def State.putWords (s : State) (base : Nat) (bs : List Byte) : State :=
  (List.range (bs.length / 4)).foldl (fun s k => s.wrN (base + 4 * k) (fieldAt bs (4 * k) 4)) s

/-! ### The configuration CRC (R520, R512) -/

/-- The addresses of a row's instances and elements (R518). -/
def dimsAddrs : List (Nat × Nat) → Nat → List Nat
  | [], a => [a]
  | (n, st) :: ds, a => (List.range n).flatMap fun i => dimsAddrs ds (a + i * st)

/-- BZ_I_P0 as its instance's KIND names its fields: the other bits are reserved and read 0 (R343, assumption 18). -/
def State.p0Word (s : State) (a : Nat) : Word :=
  let kind := s.get (a - 0x14) BZ_I_CTRL_KIND
  s.rd a &&& (if kind = 1 then 0x3FF else if kind = 2 then 0xFFF else if kind = 3 then 0xFF1F else 0)

/-- A register as it stands, without what the hub computes when it is read. -/
def State.shown (s : State) (a : Nat) : Word :=
  if 0x442000 ≤ a ∧ a < 0x480000 ∧ 0x2000 ≤ a % 0x4000 ∧ a % 0x20 = 0x14 then s.p0Word a else s.rd a

/-- The value in force of a structural register: a banked register's active bank; 0 where the unit is absent (R520). -/
def State.structWord (s : State) (a : Nat) (r : RegRow) : Word :=
  if absentSub s a then 0
  else structMask (s.shown (if r.banking == .banked then activeOf a else a)) r

def leAddr (x y : Nat × RegRow) : Bool := decide (x.1 ≤ y.1)

/-- Every instance of every structural register, in increasing address. -/
def structAddrs : List (Nat × RegRow) :=
  sortBy leAddr ((allRows.filter (·.struct)).flatMap fun r => (dimsAddrs r.dims r.base).map fun a => (a, r))

def State.cfgCrc (s : State) : Nat := crc32c (structAddrs.flatMap fun x => leBytes 4 (s.structWord x.1 x.2).toNat)

/-! ### Sessions (R497 to R501) -/

def State.sesState (s : State) (st result : Nat) : State :=
  (s.put GH_SES_STAT GH_SES_STAT_STATE st).put GH_SES_STAT GH_SES_STAT_RESULT result

/-- A failure: counted, reported and entered (R498). -/
def State.sesFail (s : State) (result : Nat) : State :=
  let s := (s.sesState 0 result).bumpSat GH_SES_STAT GH_SES_STAT_FAILS 1
  let s := { s with gate := { s.gate with session := { s.gate.session with fresh := false, verify := none, failAt := s.dtime } } }
  s.ledgerRefusal roleInstaller 4 0x03 0 [] []

/-- A request refused before a check is made: by HARD or by the lockout (R498, R501). -/
def State.sesRefuse (s : State) (result : Nat) : State :=
  (s.put GH_SES_STAT GH_SES_STAT_RESULT result).ledgerRefusal roleInstaller 4 0x03 0 [] []

/-- After n failures in a row OP = 1 is refused for min(2^(n − 1), 4,096) s. -/
def lockoutNs (n : Nat) : Nat := if n = 0 then 0 else min (2 ^ (n - 1)) 4096 * 1000000000

/-- Close a session (R501). -/
def State.sesClose (s : State) : State :=
  if s.sessionOpen then
    let ch := s.gate.session.changed
    let s := s.ledgerDone roleInstaller 4 0x02 0 [] []
    let s := (s.put GH_SES_STAT GH_SES_STAT_STATE 0).put GH_SES_STAT GH_SES_STAT_RIGHTS 0
    let s := { s with gate := { s.gate with session := { Session.reset with failAt := s.gate.session.failAt } } }
    if ch then
      let s := { s with otp := { s.otp with count := (s.otp.count + 1) % 2 ^ 32 } }
      let s := s.wrN GH_OTP_CNT s.otp.count
      s.wrN GH_CFG_REF s.cfgCrc
    else s
  else
    let s := s.put GH_SES_STAT GH_SES_STAT_STATE 0
    { s with gate := { s.gate with session := { s.gate.session with fresh := false, verify := none } } }

/-- The rights a key carries: every bit for the OTP installer key, the RIGHTS of a KEYS session key (R497, R499). -/
def State.keyRights (s : State) (key : List Byte) : Option Nat :=
  if s.otp.ikh = some (sha256 key) then some 0x7F
  else (s.locket.keys.find? fun k => k.use == 1 && k.key == key).map (·.rights)

/-- OP = 1 (R497 steps 1 and 2). -/
def State.sesChallenge (s : State) : State :=
  if s.sessionOpen then s
  else if s.on GH_LOCK GH_LOCK_HARD then s.sesRefuse 6
  else if s.dtime < s.gate.session.failAt + lockoutNs (s.get GH_SES_STAT GH_SES_STAT_FAILS) then s.sesRefuse 5
  else
    let key := wordsBytes s (GH_SES_KEY 0) 16
    let rights := s.rdN GH_SES_RIGHTS
    match s.keyRights key with
    | none => s.sesFail 1
    | some r =>
      if rights &&& r != rights then s.sesFail 2
      else
        let nonce := leBytes 32 (Config.nonce s.free).toNat
        let s := { s with free := s.free + 1 }
        let s := s.putWords (GH_SES_NONCE 0) nonce
        let s := s.put GH_SES_STAT GH_SES_STAT_STATE 1
        let ses := { s.gate.session with nonceAt := s.dtime, fresh := true, verify := none, changed := false, rights := rights, key := key }
        { s with gate := { s.gate with session := ses } }

/-- OP = 2 (R497 step 3, R498); under HARD it is refused (R514). -/
def State.sesRespond (s : State) : State :=
  if s.on GH_LOCK GH_LOCK_HARD then s.sesRefuse 6
  else if s.get GH_SES_STAT GH_SES_STAT_STATE != 1 || !s.gate.session.fresh then s
  else if s.gate.session.nonceAt + 10000000000 < s.dtime then s.sesFail 4
  else
    let ses := { s.gate.session with fresh := false, verify := some s.dtime, sig := wordsBytes s (GH_SES_SIG 0) 16 }
    { s with gate := { s.gate with session := ses } }

/-- The 64-byte challenge message (R497). -/
def State.challenge (s : State) : List Byte :=
  [0x41, 0x5A, 0x39, 0x36, 0x53, 0x45, 0x53, 0x53] ++ wordsBytes s (GH_SES_NONCE 0) 8 ++ wordsBytes s (GH_UID 0) 4 ++
    leBytes 4 s.gate.session.rights ++ leBytes 4 s.otp.count

/-- The verification ends (R497 step 4). -/
def State.sesVerify (s : State) : State :=
  if ecdsaVerifyMsg s.gate.session.key s.gate.session.sig s.challenge then
    match s.ledgerAdd roleInstaller 4 0x01 0 [] [] 0 with
    | none => (s.put GH_STAT GH_STAT_LEDGER_FULL 1).sesClose
    | some s =>
      let s := ((s.sesState 2 0).put GH_SES_STAT GH_SES_STAT_RIGHTS s.gate.session.rights).put GH_SES_STAT GH_SES_STAT_FAILS 0
      { s with gate := { s.gate with session := { s.gate.session with verify := none, changed := false, lastAt := s.dtime } } }
  else s.sesFail 3

def execSessionChallenge (now : Nat) (src : Src) (value : Nat) (s : State) : Out :=
  .next ((s.tick now).guarded src GH_SES_CTRL value fun s _ => if value % 4 = 1 then s.sesChallenge else s).1

def execSessionRespond (now : Nat) (src : Src) (value : Nat) (s : State) : Out :=
  .next ((s.tick now).guarded src GH_SES_CTRL value fun s _ => if value % 4 = 2 then s.sesRespond else s).1

def execSessionClose (now : Nat) (src : Src) (value : Nat) (s : State) : Out :=
  .next ((s.tick now).guarded src GH_SES_CTRL value fun s _ => if value % 4 = 3 then s.sesClose else s).1

/-- Every write of GH_SES_CTRL, whichever OP it carries. -/
def State.sesCtrl (s : State) (w : Word) : State :=
  match w.toNat % 4 with
  | 1 => s.sesChallenge
  | 2 => s.sesRespond
  | 3 => s.sesClose
  | _ => s

def execSessionVerifyDone (now : Nat) (s : State) : Out :=
  .next ((s.tick now).when s.gate.session.verify.isSome State.sesVerify)

def State.idleDue (s : State) : Bool :=
  s.sessionOpen && decide (s.gate.session.lastAt + s.get GH_SES_CFG GH_SES_CFG_IDLE_S * 1000000000 ≤ s.dtime)

def execSessionIdleExpiry (now : Nat) (s : State) : Out :=
  .next ((s.tick now).when (s.tick now).idleDue State.sesClose)

/-- HARD closes the session; an OP = 2 registered in the same cycle is refused after it (R501, R514). -/
def State.lockHard (s : State) (w : Word) : State :=
  if getField w GH_LOCK_HARD = 1 then
    let late := s.gate.session.verify == some s.dtime
    let s := (s.put GH_LOCK GH_LOCK_HARD 1).sesClose
    if late then s.sesRefuse 6 else s
  else s

def execGhLockHard (now : Nat) (src : Src) (value : Nat) (s : State) : Out :=
  .next ((s.tick now).guarded src GH_LOCK value State.lockHard).1

/-! ### The installer key hash (R502) -/

def State.ikhProgram (s : State) (w : Word) : State :=
  if getField w GH_IKH_CTRL_PROGRAM = 1 then
    if decide (s.boot.phase = .noImage) && s.otp.ikh.isNone then
      let s := s.put GH_IKH_CTRL GH_IKH_CTRL_PROGRAM 1
      { s with gate := { s.gate with ikhBusy := true } }
    else (s.put GH_STAT GH_STAT_WO_REWRITE 1).ledgerRefusal roleInstaller 4 0x31 (GH_IKH 0) [] (wordsBytes s (GH_IKH 0) 8)
  else s

def execIkhProgram (now : Nat) (src : Src) (value : Nat) (s : State) : Out :=
  .next ((s.tick now).guarded src GH_IKH_CTRL value State.ikhProgram).1

def State.ikhDone (s : State) : State :=
  let hash := wordsBytes s (GH_IKH 0) 8
  let s := { s with otp := { s.otp with ikh := some hash, count := (s.otp.count + 1) % 2 ^ 32 } }
  let s := { s with gate := { s.gate with ikhBusy := false } }
  let s := ((s.put GH_STAT GH_STAT_LOCKED 1).put GH_IKH_CTRL GH_IKH_CTRL_PROGRAM 0).wrN GH_OTP_CNT s.otp.count
  s.ledgerDone roleInstaller 4 0x30 (GH_IKH 0) [] hash

def execIkhProgramDone (now : Nat) (s : State) : Out :=
  .next ((s.tick now).when s.gate.ikhBusy State.ikhDone)

/-! ### Maker access and consent (R503 to R506) -/

/-- The keys a token may be signed with: the OTP installer key, as the running image's header or GH_SES_KEY presents it, and
the consent-token keys of KEYS. -/
def State.tokenKeys (s : State) : List (List Byte) :=
  ([s.locket.signer, wordsBytes s (GH_SES_KEY 0) 16].filter fun k => s.otp.ikh = some (sha256 k)) ++
    (s.locket.keys.filter fun k => k.use == 2).map (·.key)

/-- The result of a token's checks (R506): 0 accepted, or the RESULT code. -/
def State.tokenResult (s : State) (tok : List Byte) : Nat :=
  let msg := tok.take 32
  let scope := fieldAt tok 24 4
  if !(s.tokenKeys.any fun k => ecdsaVerifyMsg k (tok.drop 32) msg) || fieldAt tok 0 4 != 0x54534E43 then 1
  else if bytesAt tok 4 16 != wordsBytes s (GH_UID 0) 4 then 2
  else if fieldAt tok 20 4 != s.otp.count then 3
  else if scope = 0 ∨ 4 ≤ scope ∨ fieldAt tok 28 4 = 0 ∨ 1440 < fieldAt tok 28 4 then 4
  else if bit scope 1 && !decide (s.boot.phase = .noImage) then 5
  else 0

def State.tokenSubmit (s : State) (src : Src) (w : Word) : State :=
  if getField w GH_TOK_CTRL_SUBMIT = 1 then
    let tok := wordsBytes s (GH_TOK_DATA 0) 24
    let r := s.tokenResult tok
    let s := s.put GH_TOK_STAT GH_TOK_STAT_RESULT r
    if r != 0 then s.ledgerRefusal roleMaker (srcCode src) 0x41 0 [] tok
    else
      let s := { s with otp := { s.otp with count := (s.otp.count + 1) % 2 ^ 32 } }
      let s := s.wrN GH_OTP_CNT s.otp.count
      let s := s.ledgerDone roleMaker (srcCode src) 0x40 0 [] tok
      let s := { s with gate := { s.gate with scope := fieldAt tok 24 4, scopeEnd := s.dtime + fieldAt tok 28 4 * 60000000000 } }
      (s.put GH_TOK_STAT GH_TOK_STAT_SCOPE s.gate.scope).put GH_STAT GH_STAT_MAKER 1
  else s

/-- Maker access ends (R506, R524). -/
def State.makerEnd (s : State) : State :=
  if s.gate.scope = 0 then s
  else
    let s := { s with gate := { s.gate with scope := 0 } }
    let s := ((s.put GH_TOK_STAT GH_TOK_STAT_SCOPE 0).put GH_STAT GH_STAT_MAKER 0).put DB_CTRL DB_CTRL_EN 0
    s.ledgerDone roleMaker 6 0x42 0 [] []

def State.tokenCtrl (s : State) (src : Src) (w : Word) : State :=
  let s := s.tokenSubmit src w
  if getField w GH_TOK_CTRL_END = 1 then s.makerEnd else s

def execTokenSubmit (now : Nat) (src : Src) (value : Nat) (s : State) : Out :=
  .next ((s.tick now).guarded src GH_TOK_CTRL value fun s w => s.tokenCtrl src w).1

def execTokenEnd (now : Nat) (src : Src) (value : Nat) (s : State) : Out :=
  .next ((s.tick now).guarded src GH_TOK_CTRL value fun s w => if getField w GH_TOK_CTRL_SUBMIT = 0 then s.tokenCtrl src w else s).1

def execTokenExpiry (now : Nat) (s : State) : Out :=
  .next ((s.tick now).when (s.gate.scope != 0 && decide (s.gate.scopeEnd ≤ (s.tick now).dtime)) State.makerEnd)

/-! ### The configuration CRC's run (R512) -/

def State.cfgGo (s : State) (w : Word) : State :=
  if getField w GH_CFG_CTRL_GO = 1 then
    let s := (s.put GH_CFG_CTRL GH_CFG_CTRL_GO 1).put GH_CFG_STAT GH_CFG_STAT_BUSY 1
    { s with gate := { s.gate with cfgRun := true } }
  else s

def execCfgCrcGo (now : Nat) (src : Src) (value : Nat) (s : State) : Out :=
  .next ((s.tick now).guarded src GH_CFG_CTRL value State.cfgGo).1

def State.cfgDone (s : State) : State :=
  let s := { s with gate := { s.gate with cfgRun := false, cfgEnd := some s.dtime } }
  ((s.wrN GH_CFG_CRC s.cfgCrc).put GH_CFG_STAT GH_CFG_STAT_BUSY 0).put GH_CFG_CTRL GH_CFG_CTRL_GO 0

def execCfgCrcDone (now : Nat) (s : State) : Out :=
  .next ((s.tick now).when s.gate.cfgRun State.cfgDone)

/-! ### The ledger in flash (R507, R509, R511) -/

def ledgerBase : Nat := 0x3F80000
def ledgerAt (seq : Nat) : Nat := ledgerBase + seq % 4096 * 128

/-- Bytes 0 to 95 of an entry (R507). -/
def Ledger.body (e : Ledger) : List Byte :=
  leBytes 4 0x5247444C ++ leBytes 4 e.seq ++ leBytes 8 e.dtime ++ leBytes 4 e.otp ++
  [BitVec.ofNat 8 e.role, BitVec.ofNat 8 e.source] ++ leBytes 2 e.action ++ leBytes 4 e.target ++ leBytes 4 e.count ++
  hash16 e.old ++ hash16 e.new ++ [BitVec.ofNat 8 e.result] ++ zeros 31

def ledgerKeyBytes : List Byte := leBytes 32 Config.ledgerKey.toNat

def linkOf (prev body : List Byte) : List Byte := hmacSha256 ledgerKeyBytes (prev ++ body)

/-- Write one entry's 128 bytes to a device, erasing its sector first when its index is a multiple of 32 (R509). -/
def State.ledgerWrite (s : State) (dev seq : Nat) (bs : List Byte) : State :=
  let s := if seq % 32 = 0 then s.eraseFlash dev (ledgerAt seq / 4096 * 4096) 4096 else s
  s.progFlash dev (ledgerAt seq) bs

def State.ledgerProgram (s : State) : State :=
  match s.gate.queue with
  | [] => s
  | e :: rest =>
    let body := e.body
    let link := linkOf s.gate.link body
    let s := s.ledgerWrite 0 e.seq (body ++ link)
    let s := if s.on GH_LED_STAT GH_LED_STAT_FLASH1 then s.ledgerWrite 1 e.seq (body ++ link) else s
    let s := { s with gate := { s.gate with queue := rest, link := link } }
    s.put GH_LED_STAT GH_LED_STAT_QUEUED rest.length

/-- An entry whose device reports an error stays at the head of the queue. -/
def execLedgerEntryProgrammed (now : Nat) (devErr : Bool) (s : State) : Out :=
  .next ((s.tick now).when (!devErr && s.islUp islXspi && !s.gate.queue.isEmpty && s.xs.isNone) State.ledgerProgram)

/-- The entries of a device's ledger area, oldest first: those with the magic, by SEQ. -/
def State.ledgerRead (s : State) (dev : Nat) : List (List Byte) :=
  let all := ((List.range 4096).map fun i => s.rdFlashN dev (ledgerBase + 128 * i) 128).filter fun b => fieldAt b 0 4 == 0x5247444C
  sortBy (fun x y => decide (fieldAt x 4 4 ≤ fieldAt y 4 4)) all

/-- Follow a chain from its oldest entry: the last verified entry, and the SEQ of the first break (R511). -/
def chainCheck : List (List Byte) → Option (List Byte) → Option (List Byte) × Option Nat
  | [], last => (last, none)
  | b :: bs, none => chainCheck bs (some b)
  | b :: bs, some p =>
    if fieldAt b 4 4 == (fieldAt p 4 4 + 1) % 2 ^ 32 && bytesAt b 96 32 == linkOf (bytesAt p 96 32) (b.take 96) then
      chainCheck bs (some b)
    else (some p, some (fieldAt b 4 4))

/-- Copy the verified entries, those up to `head`, that one device lacks from the other. -/
def State.ledgerCopy (s : State) (from_ to_ head : Nat) : State :=
  let have_ := (s.ledgerRead to_).map fun b => fieldAt b 4 4
  ((s.ledgerRead from_).filter fun b => !have_.contains (fieldAt b 4 4) && decide (fieldAt b 4 4 ≤ head)).foldl
    (fun s b => s.ledgerWrite to_ (fieldAt b 4 4) b) s

/-- GH_LED_HEAD and QUEUED show the queue, whose newest entry is the newest of the ledger; without one `seq` is. -/
def State.ledgerShow (s : State) (seq : Nat) : State :=
  let head := match s.gate.queue.getLast? with
    | some e => e.seq
    | none => seq
  (s.wrN GH_LED_HEAD head).put GH_LED_STAT GH_LED_STAT_QUEUED s.gate.queue.length

/-- The check of the ledgers at each start (R511). -/
def State.ledgerStart (s : State) : State :=
  let c0 := chainCheck (s.ledgerRead 0) none
  let c1 := if s.on GH_LED_STAT GH_LED_STAT_FLASH1 then chainCheck (s.ledgerRead 1) none else (none, none)
  let head (c : Option (List Byte) × Option Nat) : Nat := match c.1 with
    | some b => fieldAt b 4 4 + 1
    | none => 0
  let use1 := decide (head c0 < head c1)
  let c := if use1 then c1 else c0
  let fail := (c.2.orElse fun _ => c0.2).orElse fun _ => c1.2
  let s := if s.on GH_LED_STAT GH_LED_STAT_FLASH1 then (if use1 then s.ledgerCopy 1 0 (head c - 1) else s.ledgerCopy 0 1 (head c - 1)) else s
  match c.1 with
  | none => s.ledgerShow 0
  | some b =>
    let seq := fieldAt b 4 4
    let link := bytesAt b 96 32
    let s := if s.gate.queue.isEmpty then { s with gate := { s.gate with nextSeq := (seq + 1) % 2 ^ 32, link := link } } else s
    let s := s.ledgerShow seq
    let back := decide (fieldAt b 16 4 < s.otp.count)
    let s := (s.put GH_LED_STAT GH_LED_STAT_BROKEN (b2n fail.isSome)).put GH_LED_STAT GH_LED_STAT_ROLLBACK (b2n back)
    if fail.isSome || back then s.ledgerDone roleHub 6 0x51 (fail.getD seq) [] [] else s

/-! ### Denials folded (R491) -/

def State.foldDue (s : State) (p : Nat) : Bool :=
  let d := s.denialAt p
  decide (0 < d.folded) &&
  match d.last with
  | some t => decide (t + 1000000 ≤ s.dtime)
  | none => false

def State.foldPost (s : State) (p : Nat) : State :=
  let d := s.denialAt p
  s.postDenied p d.offset d.value d.reason d.folded

def execAccessDeniedFoldTimer (now : Nat) (p : Fin 4) (s : State) : Out :=
  .next ((s.tick now).when ((s.tick now).foldDue p.val) fun s => s.foldPost p.val)

/-! ### JTAG (R504) -/

/-- EXTEST and its IEEE 1149.6 forms are offered only in the no-image condition; an instruction not offered selects BYPASS. -/
def State.jtagSelect (s : State) (i : JtagOp) : JtagOp :=
  match i with
  | .bypass => .bypass
  | .idcode => .idcode
  | .samplePreload => .samplePreload
  | .extest => if s.boot.phase = .noImage then .extest else .bypass
  | .extestPulse => if s.boot.phase = .noImage then .extestPulse else .bypass
  | .extestTrain => if s.boot.phase = .noImage then .extestTrain else .bypass

def execJtagInstruction (now : Nat) (instr : JtagOp) (s : State) : Out :=
  .next { s.tick now with jtag := s.jtagSelect instr }

end Sys2Proof.Machine
end

