-- ==== Sys2Proof/Machine/Memory.lean ====
section
/-!
DEFINITION. Local DDR5 as every unit reaches it: its geometry and hashing (R419 to R422), mirrored windows (R429, R430), poisoned
blocks (R433), the class and deadline that a request carries (R224, R225), and the requests that an island in reset does not take (R16).
-/

namespace Sys2Proof.Machine

/-! ### Geometry (R419 to R422) -/

def log2n (n : Nat) : Nat := if n ≤ 1 then 0 else Nat.log2 n

def maskSubs (m : Nat) : List Nat := (List.range 8).filter fun k => bit m k

def rowsOfDensity (d : Nat) : Nat :=
  if d = 16 then 65536 else if d = 24 then 98304 else if d = 32 then 131072 else if d = 48 then 196608 else 262144

def DramConf.nsub (c : DramConf) : Nat := (maskSubs c.mask).length
def DramConf.g (c : DramConf) : Nat := if c.width = 8 then 3 else 2
def DramConf.h (c : DramConf) : Nat := log2n c.nsub + c.g + 2 + (c.ranks - 1)
def DramConf.banks (c : DramConf) : Nat := if c.width = 8 then 32 else 16
def DramConf.phys (c : DramConf) : Nat := c.nsub * c.ranks * c.banks * rowsOfDensity c.density * 4096

/-- The mirrored windows in order (R429): base and size in bytes. -/
def State.windows (s : State) : List (Nat × Nat) :=
  (0, 0x4000000) :: (List.range 7).map fun i =>
    (s.get (DR_MIR_BASE (i + 1)) DR_MIR_BASE_BASE * 0x200000, s.get (DR_MIR_SIZE (i + 1)) DR_MIR_SIZE_SIZE * 0x200000)

def State.mirTot (s : State) : Nat := (s.windows.map (·.2)).foldl (· + ·) 0

/-- CAP (R419). -/
def State.dramCap (s : State) : Nat :=
  match s.locket.dram with
  | some c => c.phys - s.mirTot
  | none => 0

def State.mirrored (s : State) (a : Nat) : Bool := s.windows.any fun w => decide (w.1 ≤ a) && decide (a < w.1 + w.2)

def parityOf (n : Nat) : Nat := ((List.range 42).map fun i => n / 2 ^ i % 2).foldl (· + ·) 0 % 2

/-- M_i of R422. -/
def hashMask (reg h i : Nat) : Nat :=
  if reg = 0 then
    ((List.range 42).filter fun b => decide (12 + i ≤ b) && (b - (12 + i)) % h == 0).foldl (fun acc b => acc + 2 ^ b) 0
  else reg * 1024

/-- Where a block lies (R421): logical sub-channel, bank group and bank as one index, rank, row and column block. -/
structure DramLoc where
  sub  : Nat
  bank : Nat
  rank : Nat
  row  : Nat
  col  : Nat
  deriving DecidableEq, Repr

def State.dramLoc (s : State) (c : DramConf) (a : Nat) : DramLoc :=
  let hb := (List.range c.h).foldl (fun acc i => acc + parityOf (a &&& hashMask (s.rdN (DR_HASH i)) c.h i) * 2 ^ i) 0
  let ns := log2n c.nsub
  { sub := hb % 2 ^ ns, bank := hb / 2 ^ ns % 2 ^ (c.g + 2), rank := hb / 2 ^ (ns + c.g + 2) % 2, row := a / 2 ^ (12 + c.h),
    col := a / 64 % 64 }

/-- The offset of a block in the concatenation of the windows (R430). -/
def windowOffset : List (Nat × Nat) → Nat → Nat → Nat
  | [], _, _ => 0
  | w :: ws, a, acc => if w.1 ≤ a ∧ a < w.1 + w.2 then acc + (a - w.1) else windowOffset ws a (acc + w.2)

/-- Where copy 1 of a mirrored block lies (R430). -/
def State.copy1Loc (s : State) (c : DramConf) (a : Nat) : DramLoc :=
  let l := s.dramLoc c a
  let m := s.mirTot / 2 ^ (12 + c.h)
  { l with sub := l.sub ^^^ (c.nsub / 2), row := rowsOfDensity c.density - m + windowOffset s.windows a 0 / 2 ^ (12 + c.h) }

/-- The physical number of a logical sub-channel (R420). -/
def DramConf.physOf (c : DramConf) (i : Nat) : Nat := (maskSubs c.mask).getD i 0

/-! ### Poison (R433) -/

def blockOf (a : Nat) : Nat := a / 64 * 64

/-- Whether any 64-byte block of a range is poisoned (R433). -/
def State.poisoned (s : State) (a n : Nat) : Bool := s.poison.any fun b => decide (b < a + n) && decide (a < b + 64)

/-- A write makes the blocks it covers whole good again. -/
def State.clearPoison (s : State) (a n : Nat) : State :=
  { s with poison := s.poison.filter fun b => !(decide (a ≤ b) && decide (b + 64 ≤ a + n)) }

/-- The surface entry as a read of the table gives it: one whose copies both failed counts as invalid (R145). -/
def State.entryAt (s : State) (i : Nat) : SurfEntry := if s.poisoned (64 * i) 64 then SurfEntry.unused else s.surfAt i

/-! ### Delivery (R16) -/

def State.rankFailed (s : State) (k r : Nat) : Bool := bit (s.get (DR_SC_STAT k) DR_SC_STAT_FAILED) r

/-- The sub-channel that serves a read of a block: copy 0's, or copy 1's once copy 0's rank has failed (R432). -/
def State.servingSub (s : State) (c : DramConf) (a : Nat) : Nat :=
  let l0 := s.dramLoc c a
  if s.mirrored a && s.rankFailed (c.physOf l0.sub) l0.rank then c.physOf (s.copy1Loc c a).sub else c.physOf l0.sub

/-- Whether the controller of a block takes requests. -/
def State.ddrServes (s : State) (a : Nat) : Bool :=
  match s.locket.dram with
  | some c => s.islUp (islSub (s.servingSub c a))
  | none => true

def State.subsUp (s : State) : Bool := (List.range 8).all fun k => s.islUp (islSub k)

/-- Whether every block of a range of local DDR5 is served; other memory always is. -/
def State.serves (s : State) (a n : Nat) : Bool :=
  s.subsUp || regionOf a != .ddr || (List.range (n / 64 + 2)).all fun i => decide (a + n ≤ blockOf a + 64 * i) || s.ddrServes (blockOf a + 64 * i)

/-- Whether a write queue has an entry that a class may take (R433). -/
def SubCh.room (c : SubCh) (cls : MemClass) : Bool :=
  if cls = .deadline then decide (c.wq.length < 64) else decide (c.wq.length < 48)

/-- Whether the controller of an address has a free class B entry (R406). -/
def State.ddrRoom (s : State) (a : Nat) : Bool :=
  match s.locket.dram with
  | some c => (s.dramAt (s.servingSub c a)).room .besteffort
  | none => true

/-! ### Requests (R224, R225) -/

/-- A request leaves its unit for local DDR5 or the Orangery; none leaves for a host window here. -/
def State.request (s : State) (write : Bool) (a n : Nat) (cls : MemClass) (deadline : Nat) (kind : ReadKind) : State :=
  match regionOf a with
  | .window _ => s
  | _ => { s with reqs := ⟨write, a, n, cls, deadline, kind⟩ :: s.reqs }

/-- Whether a read's data is good: every block is served and none is poisoned. -/
def State.memGood (s : State) (a n : Nat) : Bool := s.serves a n && !s.poisoned a n

/-- The write of one block or of a part: lost where its controller is held in reset; a part of a poisoned block leaves the block bad, and
the write fails (R433). -/
def State.putBlock (s : State) (a : Nat) (bs : List Byte) : State × Bool :=
  if !s.ddrServes a then (s, false)
  else ((s.wrBytes a bs).clearPoison a bs.length, bs.length == 64 || !s.poison.contains (blockOf a))

def State.putBlocks (s : State) : Nat → Nat → List Byte → State × Bool
  | 0, _, _ => (s, true)
  | n + 1, a, bs =>
    if bs.isEmpty then (s, true)
    else
      let m := 64 - a % 64
      let r := s.putBlock a (bs.take m)
      let q := r.1.putBlocks n (a + m) (bs.drop m)
      (q.1, r.2 && q.2)

/-- A unit's write of any length; false when some block of it failed. -/
def State.memWrite (s : State) (a : Nat) (bs : List Byte) : State × Bool :=
  if s.subsUp && s.poison.isEmpty || regionOf a != .ddr then (s.wrBytes a bs, true) else s.putBlocks (bs.length + 1) a bs

/-! ### Accesses of the hub's units by HPA (R134) -/

/-- The window and offset of an HPA, none outside the windows. -/
def windowOf (a : Nat) : Option (Nat × Nat) :=
  match regionOf a with
  | .window p => some (p, a - hwBase p)
  | _ => none

/-- A read is issued: through a window it leaves as a PCIe memory read, or is never sent and sets ERR (R134). -/
def State.busIssue (s : State) (a n : Nat) (cls : MemClass) (deadline : Nat) (kind : ReadKind) : State :=
  match windowOf a with
  | some (p, o) =>
    if s.hwOk p o n then { s.toHost p (.read (s.hwHost p o) n) with flying := (a, n) :: s.flying } else s.hwError p
  | none => s.request false a n cls deadline kind

/-- A read just issued is taken back: nothing of it leaves the hub (R366). -/
def State.busRetract (s : State) (a n : Nat) : State :=
  match windowOf a with
  | some (p, o) =>
    let e := s.evAt p
    if s.flying.contains (a, n) then
      { s.setEvAt p { e with outbox := e.outbox.erase (.read (s.hwHost p o) n) } with flying := s.flying.erase (a, n) }
    else s
  | none => s

/-- A read returns: its bytes, or none where it failed (R134, R363).  Window data is what the host answered to a read that was sent and whose
link has stayed up; data of local DDR5 is what memory holds, unless the device's answer was uncorrectable, the block is poisoned or its
controller is held in reset. -/
def State.busRead (s : State) (a n : Nat) (res : ReadRes) (host : List Byte) : State × Option (List Byte) :=
  match windowOf a with
  | some _ =>
    if s.flying.contains (a, n) then
      ({ s with flying := s.flying.erase (a, n) }, if res = .ok then some (bytesAt host 0 n) else none)
    else (s, none)
  | none => (s, if decide (res = .ok) && s.memGood a n then some (s.rdBytes a n) else none)

/-- The completions of a port's window reads fail when its link goes (R539, R542). -/
def State.dropFlying (s : State) (p : Nat) : State :=
  { s with flying := s.flying.filter fun x => (windowOf x.1).map (·.1) != some p }

/-- Posted writes of at most 512 bytes that cross no 4 KiB boundary (R361); none when one could not be sent. -/
def State.winWrite (s : State) (p o : Nat) (bs : List Byte) : Nat → Option State
  | 0 => some s
  | n + 1 =>
    if bs.isEmpty then some s
    else
      let m := min 512 (4096 - o % 4096)
      match s.hwWrite p o (bs.take m) with
      | some s => s.winWrite p (o + m) (bs.drop m) n
      | none => none

/-- A write of a unit: false when it could not be sent, with the error noted, or failed. -/
def State.busWrite (s : State) (a : Nat) (bs : List Byte) (cls : MemClass) (deadline : Nat) (kind : ReadKind) : State × Bool :=
  match windowOf a with
  | some (p, o) =>
    match s.winWrite p o bs (bs.length + 1) with
    | some s => (s, true)
    | none => (s.hwError p, false)
  | none => (s.request true a bs.length cls deadline kind).memWrite a bs

end Sys2Proof.Machine
end

