-- ==== Sys2Proof/Machine/Carousel.lean ====
section
/-!
DEFINITION. The Carousel (R393 to R417): the policers of inbound BAR2 traffic and the shaper queues, with debt, eligibility and
rate changes.  Buckets and debts count micro-bytes.
-/

namespace Sys2Proof.Machine

def micro : Nat := 1000000

/-! ### Policers (R394 to R400) -/

/-- L of a packet (R394): the bytes of the DWs it touches, plus OVERHEAD. -/
def State.packetL (s : State) (k : Nat) (pkt : Packet) : Nat :=
  4 * cdiv (pkt.addr % 4 + pkt.len) 4 + s.get (CA_P_CTRL k) CA_P_CTRL_OVERHEAD

/-- The mapping of BAR2 in force (R130, R131): the HPA of offset o, none outside the size the host enabled. -/
def State.bar2Hpa (s : State) (p o : Nat) : Option Nat :=
  let l := s.getUse (HP_BAR2_SIZE p) HP_BAR2_SIZE_LOG2
  let h := match (s.portAt p).barLog2 with
    | some h => min h l
    | none => l
  if l = 0 ∨ 2 ^ h ≤ o then none
  else some (getField (s.rdUse (HP_BAR2_BASE_LO p)) HP_BAR2_BASE_LO_BASE * 2 ^ 20 +
             getField (s.rdUse (HP_BAR2_BASE_HI p)) HP_BAR2_BASE_HI_BASE * 2 ^ 32 + o)

/-- Count bytes in 64-byte units, keeping what does not fill one. -/
def State.polCount (s : State) (k : Nat) (green : Bool) (l : Nat) : State :=
  let p := s.polAt k
  if green then
    (s.setPolAt k { p with gRem := (p.gRem + l) % 64 }).bump (CA_P_GCNT k) CA_P_GCNT_COUNT ((p.gRem + l) / 64)
  else
    (s.setPolAt k { p with yRem := (p.yRem + l) % 64 }).bump (CA_P_YCNT k) CA_P_YCNT_COUNT ((p.yRem + l) / 64)

/-- The class and kind of a released request: green of a guaranteed contract at class G, the rest at class B, yellow after green (R393). -/
def colourClass (guar green : Bool) : MemClass × ReadKind :=
  if guar && green then (.guaranteed, .plain) else (.besteffort, if green then .plain else .yellow)

/-- The port completes a read of BAR2: data whose DDR5 read is uncorrectable goes poisoned, and AER logs it (R132). -/
def State.bar2Answer (s : State) (p a n : Nat) : State :=
  let bad := !s.memGood a n
  let s := s.toHost p (.completion (s.rdBytes a n) bad)
  if bad then s.setPortAt p { s.portAt p with aer := true } else s

/-- A packet leaves the Carousel: a write reaches DDR5 (R399), a read returns what stands there (R132). -/
def State.polRelease (s : State) (k : Nat) (pkt : Packet) (green : Bool) : State :=
  let s := s.polCount k green (s.packetL k pkt)
  let c := colourClass (s.on (CA_P_CTRL k) CA_P_CTRL_GUAR) green
  if k % 2 = 0 then ((s.request true pkt.addr pkt.data.length c.1 0 c.2).memWrite pkt.addr pkt.data).1
  else (s.request false pkt.addr pkt.rd c.1 0 c.2).bar2Answer (k / 2) pkt.addr pkt.rd

def State.polTokens (s : State) (k : Nat) : State :=
  let p := s.polAt k
  (s.wrN (CA_P_TC k) (min (p.tc / micro) 0xFFFFFFFF)).wrN (CA_P_TP k) (min (p.tp / micro) 0xFFFFFFFF)

/-- Both buckets at DTIME t (R395). -/
def State.polRefill (s : State) (k t : Nat) : Nat × Nat :=
  let p := s.polAt k
  (min (s.rdN (CA_P_CBS k) * micro) (p.tc + (t - p.t) * s.rdN (CA_P_CIR k)),
   min (s.rdN (CA_P_PBS k) * micro) (p.tp + (t - p.t) * s.rdN (CA_P_PIR k)))

def State.preColour (s : State) (k tc : Nat) : Nat :=
  if s.on (CA_P_CTRL k) CA_P_CTRL_AWARE then s.get (CA_P_PCMAP k) ⟨2 * (tc % 8), 2⟩ else 0

def State.holdEvent (s : State) (k state value : Nat) : State :=
  if s.on (CA_P_CTRL k) CA_P_CTRL_HOLD_EV then
    s.postOwn (k / 2) 10 k 0xA0 ([BitVec.ofNat 8 state, 0, 0, 0] ++ leBytes 4 (min value 0xFFFFFFFF) ++ zeros 8)
  else s

/-- Colour one packet at t: release it green or yellow, or hold it (R395, R397); answers whether it was released. -/
def State.polColour (s : State) (k t : Nat) (pkt : Packet) : State × Bool :=
  if !s.on (CA_P_CTRL k) CA_P_CTRL_EN then (s.polRelease k pkt false, true)
  else
    let lu := s.packetL k pkt * micro
    let (tc, tp) := s.polRefill k t
    let pre := s.preColour k pkt.tc
    let p := s.polAt k
    if pre = 2 ∨ tp < lu then
      let began := !s.on (CA_P_STAT k) CA_P_STAT_HOLDING
      let s := s.setPolAt k { p with tc := tc, tp := tp, t := t, since := if began then t else p.since }
      let s := (s.put (CA_P_STAT k) CA_P_STAT_HOLDING 1).put (CA_P_STAT k) CA_P_STAT_HELD 1
      let s := (s.bump (CA_P_RCNT k) CA_P_RCNT_COUNT 1).polTokens k
      (if began then s.holdEvent k 1 (s.packetL k pkt) else s, false)
    else if pre = 1 ∨ tc < lu then
      (((s.setPolAt k { p with tc := tc, tp := tp - lu, t := t }).polTokens k).polRelease k pkt false, true)
    else
      (((s.setPolAt k { p with tc := tc - lu, tp := tp - lu, t := t }).polTokens k).polRelease k pkt true, true)

/-- Colour waiting packets in order until one is held (R396). -/
def State.polDrain (s : State) (k t : Nat) : List Packet → State
  | [] => s.setPolAt k { s.polAt k with held := [] }
  | pkt :: rest =>
    let (s, out) := s.polColour k t pkt
    if out then s.polDrain k t rest else s.setPolAt k { s.polAt k with held := pkt :: rest }


/-- The release time of the held packet (R397); a policer that is off holds nothing (R395). -/
def State.polReleaseAt (s : State) (k : Nat) : Option Nat :=
  let p := s.polAt k
  match p.held with
  | [] => none
  | pkt :: _ =>
    if !s.on (CA_P_CTRL k) CA_P_CTRL_EN then some s.dtime else
    let pir := s.rdN (CA_P_PIR k)
    let lu := s.packetL k pkt * micro
    if pir = 0 ∧ p.tp < lu then none else some (p.t + cdiv (lu - p.tp) pir)

/-- Release the held packet at its t_r, then colour the packets behind it at t_r. -/
def State.polUnhold (s : State) (k tr : Nat) : State :=
  let p := s.polAt k
  match p.held with
  | [] => s
  | pkt :: rest =>
    let lu := s.packetL k pkt * micro
    let tp := p.tp + (tr - p.t) * s.rdN (CA_P_PIR k) - lu
    let p' := if s.on (CA_P_CTRL k) CA_P_CTRL_EN then { p with tp := min tp (s.rdN (CA_P_PBS k) * micro), t := tr, held := rest }
      else { p with held := rest }
    let s := s.setPolAt k p'
    let s := (s.polRelease k pkt false).polTokens k
    let s := s.polDrain k tr rest
    if (s.polAt k).held.isEmpty then
      (s.put (CA_P_STAT k) CA_P_STAT_HOLDING 0).holdEvent k 0 (tr - p.since)
    else s

/-- Held packets whose release time has come are released, each at its own time (R396, R397): at most n of them. -/
def State.polDueN (k : Nat) : Nat → State → State
  | 0, s => s
  | n + 1, s =>
    match s.polReleaseAt k with
    | some tr => if tr ≤ s.dtime then (s.polUnhold k tr).polDueN k n else s
    | none => s

/-- The packets of a policer that are due; a Carousel island in reset releases none. -/
def State.polDue (s : State) (k : Nat) : State := s.when (s.islUp islCarousel) fun s => s.polDueN k (s.polAt k).held.length

/-- A packet arrives at policer k (R396); a held packet whose time has come goes first (R413). -/
def State.polArrive (s : State) (k : Nat) (pkt : Packet) : State :=
  let s := s.polDue k
  let p := s.polAt k
  if p.held.isEmpty then s.polDrain k s.dtime [pkt] else s.setPolAt k { p with held := p.held ++ [pkt] }

/-- A port reset (R400): held read requests are discarded, held writes stay. -/
def State.polPortReset (s : State) (p : Nat) : State :=
  let k := 2 * p + 1
  (s.setPolAt k { s.polAt k with held := [] }).put (CA_P_STAT k) CA_P_STAT_HOLDING 0

/-- Every bucket full, every debt 0 and every rate at its contract: at a start and at a reset of the island (R395, R412, R416). -/
def State.carouselStart (s : State) : State :=
  let s := (List.range 8).foldl (fun s k =>
    (s.setPolAt k { s.polAt k with tc := s.rdN (CA_P_CBS k) * micro, tp := s.rdN (CA_P_PBS k) * micro, t := s.dtime }).polTokens k) s
  (List.range 248).foldl (fun s i =>
    let q := i + 8
    (s.setShqAt q { s.shqAt q with d := 0, t0 := s.dtime, elig := none }).wrN (CA_Q_RATE q) (s.rdN (CA_Q_CONTRACT q))) s

/-! ### Shaper queues (R405 to R411) -/

def State.qRate (s : State) (q : Nat) : Nat := s.rdN (CA_Q_RATE q)

/-- D(t) (R405). -/
def State.qDebt (s : State) (q t : Nat) : Nat := (s.shqAt q).d - (t - (s.shqAt q).t0) * s.qRate q

def State.qBurst (s : State) (q : Nat) : Nat := s.get (CA_Q_LIM q) CA_Q_LIM_BURST * micro
def State.qMax (s : State) (q : Nat) : Nat := s.get (CA_Q_LIM q) CA_Q_LIM_DEBT_MAX * 64 * micro

/-- E of a queue whose debt exceeds its burst at t (R405). -/
def State.qElig (s : State) (q t : Nat) : Nat := t + cdiv (s.qDebt q t - s.qBurst q) (s.qRate q)

/-- Release the head request at t: it is charged (R404, R405), and a channel's read goes on to memory or its window in the class of its
colour (R393). -/
def State.qRelease (s : State) (q t : Nat) (green : Bool) (w : QWait) (rest : List QWait) : State :=
  let h := s.shqAt q
  let n := w.req.bytes
  let d := s.qDebt q t + n * micro
  let s := s.setShqAt q { h with d := d, t0 := t, reqs := rest, elig := none, out := (n, green) :: h.out, rem := (h.rem + n) % 64 }
  let s := (s.put (CA_Q_STAT q) CA_Q_STAT_WAITING 0).bump (CA_Q_CNT q) CA_Q_CNT_COUNT ((h.rem + n) / 64)
  let c := colourClass (s.on (CA_Q_CTRL q) CA_Q_CTRL_GUAR) green
  match w.read with
  | some (_, _, a) => s.busIssue a n c.1 0 c.2
  | none => s

/-- Whether a request may be released yellow as far as its target goes (R406). -/
def State.qRoom (s : State) (w : QWait) : Bool :=
  match w.read with
  | some (_, _, a) => (windowOf a).isSome || s.ddrRoom a
  | none => w.req.room

def State.qPark (s : State) (q : Nat) (e : Option Nat) : State :=
  (s.setShqAt q { s.shqAt q with elig := e }).put (CA_Q_STAT q) CA_Q_STAT_WAITING (b2n e.isSome)

/-- Serve the requests of a queue at t: green, else yellow, else onto the wheel (R405, R406). -/
def State.qServe (s : State) (q t : Nat) : List QWait → State
  | [] => s.qPark q none
  | w :: rest =>
    if !s.on (CA_Q_CTRL q) CA_Q_CTRL_EN || s.qRate q == 0 then s.qPark q none
    else if s.qDebt q t ≤ s.qBurst q then (s.qRelease q t true w rest).qServe q t rest
    else if s.on (CA_Q_CTRL q) CA_Q_CTRL_EXCESS && decide (s.qDebt q t + w.req.bytes * micro ≤ s.qMax q) && s.qRoom w then
      (s.qRelease q t false w rest).qServe q t rest
    else
      let s := if s.on (CA_Q_CTRL q) CA_Q_CTRL_EXCESS && decide (s.qMax q < s.qDebt q t + w.req.bytes * micro) then
          s.put (CA_Q_STAT q) CA_Q_STAT_DMAX 1 else s
      s.qPark q (some (s.qElig q t))

/-- A request comes to a queue: it is served at once when it is the head (R405). -/
def State.qEnter (s : State) (q : Nat) (w : QWait) : State :=
  let h := s.shqAt q
  let s := s.setShqAt q { h with reqs := h.reqs ++ [w] }
  if h.reqs.isEmpty && s.islUp islCarousel then s.qServe q s.dtime [w] else s

def execQueueRequest (now : Nat) (q : Fin 256) (req : QReq) (s : State) : Out :=
  .next ((s.tick now).when (decide (8 ≤ q.val) && (s.tick now).islUp islCarousel) fun s => s.qEnter q.val ⟨req, none⟩)

/-- A channel's reads that still wait in its queue are withdrawn (R365). -/
def State.qWithdraw (s : State) (q c : Nat) : State :=
  let h := s.shqAt q
  let keep := h.reqs.filter fun w => w.read.map (·.1) != some c
  if keep.length = h.reqs.length then s
  else
    let s := s.setShqAt q { h with reqs := keep }
    if s.islUp islCarousel then s.qServe q s.dtime keep else s

/-- Whether channel c's read at a transfer offset still waits in queue q. -/
def State.qHolds (s : State) (q c off : Nat) : Bool :=
  (s.shqAt q).reqs.any fun w => w.read.map (fun r => (r.1, r.2.1)) == some (c, off)

/-- The wheel releases queue q at exactly E once the present time has reached it (R407). -/
def State.qDue (s : State) (q : Nat) : State :=
  match (s.shqAt q).elig with
  | some e => if e ≤ s.dtime then (s.qPark q none).qServe q e (s.shqAt q).reqs else s
  | none => s

/-- The queues on the wheel whose E comes no later than e, in the order of their release (R408). -/
def State.wheelOrder (s : State) (q e : Nat) : List Nat :=
  let on := (List.range 256).filterMap fun i => ((s.shqAt i).elig.filter fun x => decide (x < e ∨ x = e ∧ i ≤ q)).map fun x => (x, i)
  (sortBy (fun x y => decide (x.1 ≤ y.1)) on).map (·.2)

/-- Queue q has reached its E: the queues with an earlier one are released before it. -/
def execQueueEligible (now : Nat) (q : Fin 256) (s : State) : Out :=
  let s := s.tick now
  .next (match (s.shqAt q.val).elig with
    | some e => if e ≤ s.dtime then (s.wheelOrder q.val e).foldl State.qDue s else s
    | none => s)

def State.qReaders (s : State) (q : Nat) : List Nat := allPorts.filter fun p => s.grantedR p 13 q || s.grantedR p 10 q

/-- A new rate lands at the present time (R409, R410), after a release that counts by then (R413). -/
def State.qSetRate (s : State) (q rate : Nat) : State :=
  let s := s.qDue q
  let d := s.qDebt q s.dtime
  let s := s.setShqAt q { s.shqAt q with d := d, t0 := s.dtime, elig := none }
  let s := (s.wrN (CA_Q_RATE q) rate).put (CA_Q_STAT q) CA_Q_STAT_PAUSED (b2n (rate == 0))
  let s := s.postTo (s.qReaders q) (10 * 256 + q) 0xA1 0
    ([BitVec.ofNat 8 (b2n (rate == 0)), 0, 0, 0] ++ leBytes 4 rate ++ leBytes 4 (min (d / micro) 0xFFFFFFFF) ++ zeros 4)
  s.qServe q s.dtime (s.shqAt q).reqs

/-- A write of CA_Q_RATE: clamped to the contract (R409). -/
def State.qRateWrite (s : State) (q : Nat) (w : Word) : State :=
  let c := s.rdN (CA_Q_CONTRACT q)
  let s := if c < w.toNat then s.put (CA_Q_STAT q) CA_Q_STAT_CLAMP 1 else s
  s.qSetRate q (min w.toNat c)

def execQueueRateWrite (now : Nat) (src : Src) (q : Fin 256) (value : Nat) (s : State) : Out :=
  .next ((s.tick now).guarded src (CA_Q_RATE q.val) value fun s w => s.qRateWrite q.val w).1

/-- An installer change of a queue's contract, limits or flags has landed (R411). -/
def State.qContractLanded (s : State) (q : Nat) : State :=
  let c := s.rdN (CA_Q_CONTRACT q)
  if c < s.qRate q then s.qSetRate q c
  else
    let s := s.qDue q
    let s := s.setShqAt q { s.shqAt q with d := s.qDebt q s.dtime, t0 := s.dtime }
    s.qServe q s.dtime (s.shqAt q).reqs

/-! ### The hub's own requests (R402) -/

/-- n bytes of the hub's own traffic enter queue 8 to 13, when it is in use.  DESIGN CHOICE (assumption 137): the queue charges them as any
request, and the model does not delay what they do. -/
def State.hubCharge (s : State) (q n : Nat) : State := if s.on (CA_Q_CTRL q) CA_Q_CTRL_EN && decide (0 < n) then s.qEnter q ⟨⟨n, true⟩, none⟩ else s

/-- A request that goes through a port's window passes the queue of that port. -/
def State.hostCharge (s : State) (a n : Nat) : State :=
  match windowOf a with
  | some (p, o) => if s.hwOk p o n then s.hubCharge (10 + p) n else s
  | none => s

/-- A unit's read of its own control data. -/
def State.unitIssue (s : State) (a n : Nat) (cls : MemClass) : State := (s.busIssue a n cls 0 .plain).hostCharge a n

/-- A unit's write of a status. -/
def State.unitWrite (s : State) (a : Nat) (bs : List Byte) : State × Bool :=
  let x := s.busWrite a bs .besteffort 0 .plain
  (x.1.hostCharge a bs.length, x.2)

/-- A write of the hub's own records, on the hub queue (R224). -/
def State.hubWrite (s : State) (a : Nat) (bs : List Byte) : State :=
  if bs.isEmpty then s else ((s.request true a bs.length .guaranteed 0 .plain).memWrite a bs).1.hubCharge 8 bs.length

end Sys2Proof.Machine
end

