-- ==== Sys2Proof/Machine/Dram.lean ====
section
/-!
DEFINITION. The DDR5 controller (R418 to R451): geometry and hashing, the check code, mirrors, write queues and forwarding,
refresh and temperature, scrubbing and retraining.  Memory content stands in State.mem from the moment a write reaches a
controller, as forwarding shows it (R434); the queues hold what is not yet acknowledged.
-/

namespace Sys2Proof.Machine

/-! ### The check code (R424, R425) -/

def weight8 (n : Nat) : Nat := ((List.range 8).map fun i => n / 2 ^ i % 2).foldl (· + ·) 0

/-- The check column list: odd weight 3 or more, by weight and then value. -/
def checkCols : List Nat :=
  (List.range 256).filter (fun v => weight8 v == 3) ++ (List.range 256).filter (fun v => weight8 v == 5) ++
    (List.range 256).filter (fun v => weight8 v == 7)

def dataCols : List Nat := checkCols.take 32
def foldCols : List Nat := (checkCols.drop 32).take 40

/-- The XOR of the columns of the set bits. -/
def xorCols (cols : List Nat) (v : Nat) : Nat :=
  ((cols.zip (List.range cols.length)).filter fun x => bit v x.2).foldl (fun acc x => acc ^^^ x.1) 0

/-- The stored check byte of a beat: data bits and the 40-bit fold word of its HPA and beat number. -/
def checkByte (data fold : Nat) : Nat := xorCols dataCols data ^^^ xorCols foldCols fold

def foldWord (hpa beat : Nat) : Nat := hpa / 64 * 16 + beat

/-- The syndrome that errors in one beat give; a poisoned block's check bytes are inverted (R433). -/
def syndromeOf (poisoned : Bool) (e : BeatErr) : Nat :=
  xorCols dataCols e.data ^^^ e.check ^^^ xorCols foldCols e.fold ^^^ (if poisoned then 0xFF else 0)

/-- KIND of a syndrome: 0 good, 1 and 2 corrected, 3 to 5 uncorrectable (R425). -/
def syndromeKind (s : Nat) : Nat :=
  if s = 0 then 0
  else if dataCols.contains s then 1
  else if weight8 s = 1 then 2
  else if foldCols.contains s then 3
  else if s = 0xFF then 4
  else 5

/-- What a read of one block finds: good or corrected, or the kind and syndrome of its first failing beat. -/
inductive BlockRead where
  | good
  | corrected
  | bad (kind syndrome : Nat)
  deriving DecidableEq, Repr

def blockRead (poisoned : Bool) (errs : List BeatErr) : BlockRead :=
  let syn := (List.range 16).map fun b =>
    let e := (errs.find? fun e => e.beat == b).getD ⟨b, 0, 0, 0⟩
    syndromeOf poisoned e
  match syn.find? fun s => decide (3 ≤ syndromeKind s) with
  | some s => .bad (syndromeKind s) s
  | none => if syn.all (· == 0) then .good else .corrected

/-! ### Reports and rank failure (R426, R432, R449) -/

def dramPayload (hpa kind copy detail value : Nat) : List Byte :=
  leBytes 8 hpa ++ [BitVec.ofNat 8 kind, BitVec.ofNat 8 copy] ++ leBytes 2 detail ++ leBytes 4 value

def State.rankFail (s : State) (k r : Nat) : State :=
  if s.rankFailed k r then s
  else
    let s := s.put (DR_SC_STAT k) ⟨DR_SC_STAT_FAILED.lo + r, 1⟩ 1
    let s := s.put DR_STAT DR_STAT_FAILED 1
    (s.postAll 7 k 0x73 (dramPayload 0 1 0xFF r (s.rdN (DR_SC_UE_CNT k)))).syncDegraded

/-- Whether a report on a block may be posted: once per block per ms (R449). -/
def State.mayReport (s : State) (k hpa : Nat) : Bool :=
  (s.dramAt k).posted.all fun x => x.1 != hpa || decide (x.2 + 1000000 ≤ s.dtime)

def State.noteReport (s : State) (k hpa : Nat) : State :=
  let c := s.dramAt k
  s.setDramAt k { c with posted := (hpa, s.dtime) :: c.posted.filter fun x => decide (s.dtime < x.2 + 1000000) }

/-- A rank has returned an uncorrectable read: enough of them within one ms fail it (R432). -/
def State.rankUe (s : State) (k rank : Nat) : State :=
  let c := s.dramAt k
  let recent := (rank, s.dtime) :: c.ues.filter fun x => decide (s.dtime < x.2 + 1000000)
  let s := s.setDramAt k { c with ues := recent }
  if s.get DR_FAIL DR_FAIL_THRESH ≤ (recent.filter fun x => x.1 == rank).length then s.rankFail k rank else s

/-- A read that ends uncorrectable for its requester: counted and reported (R426). -/
def State.dramUe (s : State) (k hpa kind syn copy : Nat) : State :=
  let s := (s.bump DR_UE_CNT DR_UE_CNT_COUNT 1).bump (DR_SC_UE_CNT k) DR_SC_UE_CNT_COUNT 1
  let s := (s.wrN DR_UE_ADDR_LO (hpa / 64 * 64 % 2 ^ 32)).wrN DR_UE_ADDR_HI (hpa / 2 ^ 32)
  if s.mayReport k hpa then (s.postAll 7 k 0x70 (dramPayload hpa kind copy syn (s.rdN (DR_SC_UE_CNT k)))).noteReport k hpa else s

/-! ### The write queue and forwarding (R433 to R436) -/

def State.wqShow (s : State) (k : Nat) : State :=
  let n := (s.dramAt k).wq.length
  let s := s.put (DR_SC_WQ k) DR_SC_WQ_USED n
  s.put (DR_SC_WQ k) DR_SC_WQ_PEAK (max (s.get (DR_SC_WQ k) DR_SC_WQ_PEAK) n)

def SubCh.entryOf (c : SubCh) (blk : Nat) : Option WqEntry := c.wq.find? fun e => e.hpa == blk

/-- Reads that waited for an entry are answered from it once it is complete (R434), uncorrectable when its block is poisoned. -/
def SubCh.wake (c : SubCh) (hpa : Nat) (good : Bool) : SubCh :=
  let ready := c.reads.filter fun r => r.waits && r.hpa == hpa
  { c with reads := c.reads.filter (fun r => !(r.waits && r.hpa == hpa)),
           done := (ready.map fun r => RdDone.mk r.id good) ++ c.done }

/-- A write of bytes inside one block enters the queue of sub-channel k.  A block whose bytes are all given is good. -/
def State.wqEnter (s : State) (k hpa : Nat) (bs : List Byte) (cls : MemClass) (deadline : Nat) : State :=
  let c := s.dramAt k
  let blk := blockOf hpa
  let gave := (List.range bs.length).map fun i => hpa - blk + i
  let s := (s.wrBytes hpa bs).clearPoison hpa bs.length
  match c.entryOf blk with
  | some e =>
    let given := (e.given ++ gave).eraseDups
    let full := e.complete || given.length == 64
    let e' := { e with given := given, complete := full }
    let c := { c with wq := c.wq.map fun x => if x.id == e.id then e' else x }
    (s.setDramAt k (if full then c.wake blk (!s.poison.contains blk) else c)).wqShow k
  | none =>
    let full := gave.length == 64
    let e : WqEntry := { id := c.next, hpa := blk, given := gave, complete := full, cls := cls, deadline := deadline, at_ := s.dtime,
                         attempts := 0, issued := false }
    let fill : List RdEntry :=
      if full then [] else [{ id := c.next + 1, hpa := blk, cls := cls, deadline := deadline, at_ := s.dtime, fill := some c.next,
                              waits := false, kind := .plain }]
    (s.setDramAt k { c with wq := c.wq ++ [e], reads := c.reads ++ fill, next := c.next + 2 }).wqShow k

/-- Whether a write may enter: it merges or finds an entry its class may take, and no earlier write of its block waits. -/
def SubCh.mayEnter (c : SubCh) (blk : Nat) (cls : MemClass) (earlier : List (Nat × List Byte × MemClass × Nat)) : Bool :=
  (earlier.all fun w => blockOf w.1 != blk) && (c.room cls || (c.entryOf blk).isSome)

/-- A write enters, merges, or waits in the Promenade for a free entry. -/
def State.wqOffer (s : State) (k hpa : Nat) (bs : List Byte) (cls : MemClass) (deadline : Nat) : State :=
  let c := s.dramAt k
  if c.mayEnter (blockOf hpa) cls c.waits then s.wqEnter k hpa bs cls deadline
  else s.setDramAt k { c with waits := c.waits ++ [(hpa, bs, cls, deadline)] }

/-- Writes that waited enter while entries are free; `kept` are the earlier ones that still wait. -/
def State.wqRefill (s : State) (k : Nat) (kept : List (Nat × List Byte × MemClass × Nat)) :
    List (Nat × List Byte × MemClass × Nat) → State
  | [] => s.setDramAt k { s.dramAt k with waits := kept }
  | w :: ws =>
    if (s.dramAt k).mayEnter (blockOf w.1) w.2.2.1 kept then (s.wqEnter k w.1 w.2.1 w.2.2.1 w.2.2.2).wqRefill k kept ws
    else s.wqRefill k (kept ++ [w]) ws

/-- The sub-channels that write a block: for a mirrored block those of both copies, but none for a copy in a failed rank (R431, R432). -/
def State.writeSubs (s : State) (c : DramConf) (a : Nat) : List Nat :=
  let l0 := s.dramLoc c a
  let l1 := s.copy1Loc c a
  if s.mirrored a then
    ([(c.physOf l0.sub, l0.rank), (c.physOf l1.sub, l1.rank)].filter fun x => !s.rankFailed x.1 x.2).map (·.1)
  else [c.physOf l0.sub]

/-- A write inside one block reaches its controllers; one in reset does not take it (R16). -/
def State.dramWrite (s : State) (c : DramConf) (hpa : Nat) (bs : List Byte) (cls : MemClass) (deadline : Nat) : State :=
  ((s.writeSubs c hpa).filter fun k => s.islUp (islSub k)).foldl (fun s k => s.wqOffer k hpa bs cls deadline) s

/-! ### What a read finds (R425, R426, R431, R432) -/

/-- Write a whole block back in sub-channel k, unless a write to it is queued there (R426, R431). -/
def State.writeBack (s : State) (k hpa : Nat) (cls : MemClass) (deadline : Nat) : State :=
  if ((s.dramAt k).entryOf (blockOf hpa)).isSome || !s.islUp (islSub k) then s
  else s.wqOffer k (blockOf hpa) (s.rdBytes (blockOf hpa) 64) cls deadline

/-- A corrected read: counted, and the block is written back at class B (R426). -/
def State.dramCe (s : State) (k hpa : Nat) : State :=
  ((s.bump DR_CE_CNT DR_CE_CNT_COUNT 1).bump (DR_SC_CE_CNT k) DR_SC_CE_CNT_COUNT 1).writeBack k hpa .besteffort 0

/-- Copy 0 is rewritten from copy 1 at the class of the read (R431; the class is the model's choice, assumption 120), unless its rank has
failed (R448). -/
def State.dramRepair (s : State) (k rank hpa : Nat) (cls : MemClass) (deadline : Nat) : State :=
  if s.rankFailed k rank then s
  else
    let s := if s.mayReport k hpa then (s.postAll 7 k 0x74 (dramPayload hpa 0 0 0 0)).noteReport k hpa else s
    s.writeBack k hpa cls deadline

/-- The read of the one copy that is asked for. -/
def State.checkCopy (s : State) (hpa k rank copy : Nat) (r : BlockRead) : State × Bool :=
  match r with
  | .good => (s, true)
  | .corrected => (s.dramCe k hpa, true)
  | .bad kind syn => ((s.dramUe k hpa kind syn copy).rankUe k rank, false)

/-- Read one block under R425, R426, R431 and R432: whether its data is good, with everything the read reports. -/
def State.dramCheck (s : State) (c : DramConf) (hpa : Nat) (cls : MemClass) (deadline : Nat) (errs0 errs1 : List BeatErr) : State × Bool :=
  let l0 := s.dramLoc c hpa
  let k0 := c.physOf l0.sub
  let p := s.poison.contains (blockOf hpa)
  if !s.mirrored hpa then s.checkCopy hpa k0 l0.rank 0xFF (blockRead p errs0)
  else
    let l1 := s.copy1Loc c hpa
    let k1 := c.physOf l1.sub
    if s.rankFailed k0 l0.rank then s.checkCopy hpa k1 l1.rank 1 (blockRead p errs1)
    else if s.rankFailed k1 l1.rank then s.checkCopy hpa k0 l0.rank 0 (blockRead p errs0)
    else
      match blockRead p errs0 with
      | .bad kind syn =>
        let s := s.rankUe k0 l0.rank
        (match blockRead p errs1 with
         | .bad _ _ => ((s.dramUe k0 hpa kind syn 0).rankUe k1 l1.rank, false)
         | .corrected => ((s.dramCe k1 hpa).dramRepair k0 l0.rank hpa cls deadline, true)
         | .good => (s.dramRepair k0 l0.rank hpa cls deadline, true))
      | r => s.checkCopy hpa k0 l0.rank 0 r

/-! ### The order of service (R225, R437) -/

def State.urgentNs (s : State) : Nat := s.get AD_CFG AD_CFG_URGENT_NS

/-- The level of R225 that a request has now; 2 is refresh paydown, and a class G request is eligible when it leaves the Carousel (R404). -/
def State.levelOf (s : State) (cls : MemClass) (deadline : Nat) (urgent : Bool) : Nat :=
  match cls with
  | .deadline => if urgent || decide (deadline ≤ s.dtime + s.urgentNs) then 1 else 4
  | .guaranteed => 3
  | .besteffort => 5

def State.rdLevel (s : State) (r : RdEntry) : Nat := s.levelOf r.cls r.deadline (r.kind = .urgent)

/-- Within a level the earliest deadline comes first, yellow after the rest of class B (R393), and the oldest where neither decides. -/
def RdEntry.before (x y : RdEntry) : Bool :=
  if x.cls = .deadline ∧ x.deadline ≠ y.deadline then decide (x.deadline < y.deadline)
  else if (x.kind = .yellow) ≠ (y.kind = .yellow) then decide (y.kind = .yellow)
  else decide (x.at_ < y.at_)

/-- Whether r may be issued ahead of x, which comes before it: it hits an open row and lies within 500 ns of x (R437). -/
def RdEntry.near (r x : RdEntry) : Bool :=
  if r.cls = .deadline then decide (r.deadline ≤ x.deadline + 500) else decide (r.at_ ≤ x.at_ + 500)

def State.rowOpen (s : State) (k : Nat) (l : DramLoc) : Bool :=
  (s.dramAt k).rows.any fun r => r.1 == l.rank && r.2.1 == l.bank && r.2.2.1 == l.row

/-- Whether the order within a level lets sub-channel k have served read r: each read of its level that came no later and goes before it
leaves it its slot.  Between levels bank timing may give a slot to either (R437), so they do not bind here (assumption 120). -/
def State.mayServe (s : State) (c : DramConf) (k : Nat) (r : RdEntry) : Bool :=
  (s.dramAt k).reads.all fun x =>
    x.waits || x.id == r.id || s.rdLevel x != s.rdLevel r || decide (r.at_ < x.at_) || !x.before r ||
    s.rowOpen k (s.dramLoc c r.hpa) && r.near x

/-- Whether a read of level 1 waits, which ends a batch (R436). -/
def State.urgentWaits (s : State) (k : Nat) : Bool := (s.dramAt k).reads.any fun r => !r.waits && s.rdLevel r == 1

/-! ### Reads and writes enter (R433, R434) -/

def State.dramReady (s : State) : Bool := s.on DR_STAT DR_STAT_READY

/-- Whether the controllers accept requests: in service, and not in self-refresh (R446). -/
def State.ddrTakes (s : State) : Bool := s.dramReady && !s.power.sr

def execDramWrite (now : Nat) (hpa : Nat) (data : List Byte) (cls : MemClass) (deadline : Nat) (s : State) : Out :=
  let s := s.tick now
  .next (match s.locket.dram with
    | some c => if s.ddrTakes && decide (hpa + data.length ≤ s.dramCap) then s.dramWrite c hpa data cls deadline else s
    | none => s)

/-- A read enters sub-channel k: a complete entry answers it, an incomplete one makes it wait (R434). -/
def State.readEnter (s : State) (k blk : Nat) (cls : MemClass) (deadline : Nat) (kind : ReadKind) : State :=
  let d := s.dramAt k
  let r : RdEntry := { id := d.next, hpa := blk, cls := cls, deadline := deadline, at_ := s.dtime, fill := none, waits := false, kind := kind }
  let s := match d.entryOf blk with
    | some e =>
      if e.complete then s.setDramAt k { d with next := d.next + 1, done := ⟨d.next, !s.poison.contains blk⟩ :: d.done }
      else s.setDramAt k { d with next := d.next + 1, reads := d.reads ++ [{ r with waits := true }] }
    | none => s.setDramAt k { d with next := d.next + 1, reads := d.reads ++ [r] }
  if s.urgentWaits k then s.setDramAt k { s.dramAt k with batch := false } else s

/-- A controller in reset takes no read (R16). -/
def execDramRead (now : Nat) (hpa : Nat) (cls : ReadClass) (deadline : Nat) (s : State) : Out :=
  let s := s.tick now
  .next (match s.locket.dram with
    | none => s
    | some c => s.when (s.ddrTakes && decide (hpa < s.dramCap) && s.ddrServes hpa) fun s =>
        s.readEnter (s.servingSub c hpa) (blockOf hpa) cls.cls deadline cls.kind)

/-- The row of an access stays open until it has been idle for 200 ns (R437). -/
def State.openRow (s : State) (k : Nat) (l : DramLoc) : State :=
  let c := s.dramAt k
  s.setDramAt k { c with rows := (l.rank, l.bank, l.row, s.dtime) :: c.rows.filter fun r => !(r.1 == l.rank && r.2.1 == l.bank) }

/-- A fill read has returned: the entry is complete.  When it was uncorrectable and bytes were still missing, the block is poisoned and its
write fails (R433). -/
def State.fillDone (s : State) (k id : Nat) (good : Bool) : State :=
  let c := s.dramAt k
  match c.wq.find? fun e => e.id == id with
  | none => s
  | some e =>
    let ok := good || e.complete
    let wq := c.wq.map fun x => if x.id == id then { x with complete := true } else x
    let c := ({ c with wq := wq }).wake e.hpa ok
    if ok then s.setDramAt k c
    else { s.setDramAt k { c with failedWr := id :: c.failedWr } with poison := e.hpa :: s.poison.filter (· != e.hpa) }

/-- A speculative read leaves no trace but its data (R244). -/
def execDramReadReturn (now : Nat) (c : Fin 8) (id : Nat) (errs0 errs1 : List BeatErr) (s : State) : Out :=
  let s := s.tick now
  .next (match s.locket.dram, (s.dramAt c.val).reads.find? fun r => r.id == id && !r.waits with
    | some conf, some r =>
      s.when (s.mayServe conf c.val r) fun s =>
        let s := s.openRow c.val (s.dramLoc conf r.hpa)
        let x := s.dramCheck conf r.hpa r.cls r.deadline errs0 errs1
        let s := if r.kind = .speculative then s else x.1
        let d := s.dramAt c.val
        let s := s.setDramAt c.val { d with reads := d.reads.filter fun y => y.id != id }
        match r.fill with
        | some e => s.fillDone c.val e x.2
        | none => let d := s.dramAt c.val; s.setDramAt c.val { d with done := ⟨id, x.2⟩ :: d.done }
    | _, _ => s)

def clsOrder : MemClass → Nat
  | .deadline => 0 | .guaranteed => 1 | .besteffort => 2

/-- The order in which a batch writes entries (R436). -/
def wqBefore (x y : WqEntry) : Bool :=
  if clsOrder x.cls != clsOrder y.cls then decide (clsOrder x.cls < clsOrder y.cls)
  else if x.cls = .deadline && x.deadline != y.deadline then decide (x.deadline < y.deadline)
  else decide (x.at_ ≤ y.at_)

/-- Whether an entry by itself starts a batch. -/
def State.wqPressing (s : State) (e : WqEntry) : Bool :=
  decide (e.at_ + 2000 ≤ s.dtime) || (decide (e.cls = .deadline) && decide (e.deadline ≤ s.dtime + s.urgentNs))

/-- The conditions of R436. -/
def State.batchDue (s : State) (k : Nat) : Bool :=
  let c := s.dramAt k
  !c.wq.isEmpty && (decide (48 ≤ c.wq.length) || c.wq.any s.wqPressing || (c.reads.filter fun r => !r.waits).isEmpty)

/-- A batch issues entries in its order until 16 remain, the pressing ones in any case; while a read of level 1 waits it issues no more
than those of level 1 themselves.  Its entries count as issued at its start (assumption 120), each a first attempt (R428). -/
def State.batchStart (s : State) (k : Nat) : State :=
  let c := s.dramAt k
  let order := sortBy wqBefore (c.wq.filter fun e => e.complete && !e.issued)
  let first := order.filter fun e => s.levelOf e.cls e.deadline false == 1
  let ids := (if s.urgentWaits k then first else order.take (max 1 (c.wq.length - 16)) ++ order.filter s.wqPressing).map (·.id)
  s.setDramAt k { c with batch := !s.urgentWaits k, wq := c.wq.map fun e =>
                    if ids.contains e.id then { e with issued := true, attempts := 1 } else e }

def execWriteBatchStart (now : Nat) (c : Fin 8) (s : State) : Out :=
  .next ((s.tick now).when ((s.tick now).batchDue c.val) fun s => s.batchStart c.val)

/-- Replace bytes by undefined ones (R428, R539). -/
def State.wrFree (s : State) (a : Nat) : Nat → State
  | 0 => s
  | n + 1 => let (b, s) := s.drawFree; (s.wrByte a b).wrFree (a + 1) n

/-- Remove an entry: writes that waited may enter. -/
def State.wqDrop (s : State) (k id : Nat) : State :=
  let c := s.dramAt k
  let wq := c.wq.filter fun e => e.id != id
  let s := s.setDramAt k { c with wq := wq, batch := c.batch && decide (16 < wq.length) }
  (s.wqRefill k [] (s.dramAt k).waits).wqShow k

/-- The copy of a block that sub-channel k holds: 0 or 1 in a mirrored window, 0xFF otherwise (R449). -/
def State.copyOf (s : State) (k hpa : Nat) : Nat :=
  match s.locket.dram with
  | some c => if s.mirrored hpa then b2n (k != c.physOf (s.dramLoc c hpa).sub) else 0xFF
  | none => 0xFF

/-- A failed write leaves the block of its copy undefined; that of copy 1 is not seen while reads take copy 0 (R428, R431). -/
def State.writeLost (s : State) (k hpa : Nat) : State :=
  match s.locket.dram with
  | some c => if s.mirrored hpa && s.servingSub c hpa != k then s else s.wrFree hpa 64
  | none => s.wrFree hpa 64

def execWriteCrcAlert (now : Nat) (c : Fin 8) (id : Nat) (s : State) : Out :=
  let s := s.tick now
  let k := c.val
  .next (match (s.dramAt k).wq.find? fun e => e.id == id && e.issued with
    | none => s
    | some e =>
      if e.attempts < 4 then
        let d := s.dramAt k
        s.setDramAt k { d with wq := d.wq.map fun x => if x.id == id then { x with attempts := x.attempts + 1 } else x }
      else
        let s := s.bump (DR_SC_WRFAIL_CNT k) DR_SC_WRFAIL_CNT_COUNT 1
        let s := s.postAll 7 k 0x71 (dramPayload e.hpa 0 (s.copyOf k e.hpa) 4 (s.rdN (DR_SC_WRFAIL_CNT k)))
        let s := s.writeLost k e.hpa
        let d := s.dramAt k
        (s.setDramAt k { d with failedWr := id :: d.failedWr }).wqDrop k id)

/-- The acknowledgement of an entry (R435).  Its requester has it once no other copy's entry is left (R431). -/
def State.wqAck (s : State) (k id : Nat) : State :=
  match s.locket.dram, (s.dramAt k).wq.find? fun e => e.id == id && e.issued && e.complete with
  | some c, some e =>
    let s := (s.openRow k (s.dramLoc c e.hpa)).wqDrop k id
    if ((List.range 8).any fun j => ((s.dramAt j).entryOf e.hpa).isSome) || (s.dramAt k).failedWr.contains id then s
    else s.setDramAt k { s.dramAt k with acked := e.hpa :: (s.dramAt k).acked }
  | _, _ => s

def execRowIdleClose (now : Nat) (c : Fin 8) (rank bank : Nat) (s : State) : Out :=
  let s := s.tick now
  let d := s.dramAt c.val
  .next (s.setDramAt c.val { d with rows := d.rows.filter fun r =>
    !(r.1 == rank && r.2.1 == bank && decide (r.2.2.2 + 200 ≤ s.dtime)) })

/-! ### Refresh and temperature (R438 to R441) -/

def debtFld (r : Nat) : Fld := if r = 0 then DR_SC_STAT_DEBT0 else DR_SC_STAT_DEBT1

def State.debt (s : State) (k r : Nat) : Nat := s.get (DR_SC_STAT k) (debtFld r)

def State.interval (s : State) (k : Nat) : Nat := if s.on (DR_SC_STAT k) DR_SC_STAT_MODE2X then 1950 else 3900

def State.subOn (s : State) (k : Nat) : Bool :=
  s.on (DR_SC_STAT k) DR_SC_STAT_TRAINED && !s.power.sr && s.islUp (islSub k) && s.islUp (islPhy (k / 2))

def State.rankOn (s : State) (k r : Nat) : Bool :=
  s.subOn k && match s.locket.dram with
  | some c => decide (r < c.ranks)
  | none => false

/-- Start a paydown on a rank (R439). -/
def State.payStart (s : State) (k r : Nat) : State :=
  let c := s.dramAt k
  if c.pay.getD r false then s
  else
    let s := s.setDramAt k { c with pay := c.pay.set r true }
    (s.put (DR_SC_STAT k) DR_SC_STAT_PAYDOWN 1).bump (DR_SC_PAY_CNT k) DR_SC_PAY_CNT_COUNT 1

def State.tickDue (s : State) (k r : Nat) : Bool :=
  s.rankOn k r && decide ((s.dramAt k).tick.getD r 0 + s.interval k ≤ s.dtime)

def State.refreshTick (s : State) (k r : Nat) : State :=
  let c := s.dramAt k
  let s := s.setDramAt k { c with tick := c.tick.set r s.dtime }
  let d := min 4 (s.debt k r + 1)
  let s := s.put (DR_SC_STAT k) (debtFld r) d
  if d = 4 then s.payStart k r else s

def execRefreshTick (now : Nat) (c : Fin 8) (rank : Fin 2) (s : State) : Out :=
  .next ((s.tick now).when ((s.tick now).tickDue c.val rank.val) fun s => s.refreshTick c.val rank.val)

def State.tempOf (s : State) (k : Nat) : Int := signed 8 (s.rdN DR_TEMP_STAT / 2 ^ (8 * (k / 2)) % 256)

def State.postTemp (s : State) (k kind : Nat) : State :=
  s.postAll 7 k 0x72 (dramPayload 0 kind 0xFF (s.debt k 0 + 16 * s.debt k 1) (toBits 32 (s.tempOf k)))

def State.enter2x (s : State) (k : Nat) : State :=
  let s := s.put (DR_SC_STAT k) DR_SC_STAT_MODE2X 1
  let s := s.postTemp k 1
  [0, 1].foldl (fun s r => if 2 ≤ s.debt k r then s.payStart k r else s) s

def State.leave2x (s : State) (k : Nat) : State := (s.put (DR_SC_STAT k) DR_SC_STAT_MODE2X 0).postTemp k 0

def State.hotNow (s : State) (k : Nat) : Bool :=
  (s.dramAt k).mr4.any (fun r => decide (2 ≤ r)) || decide ((s.get DR_TEMP_CFG DR_TEMP_CFG_T2X : Int) ≤ s.tempOf k)

def State.coolNow (s : State) (k : Nat) : Bool :=
  (s.dramAt k).mr4.all (fun r => decide (r < 2)) && decide (s.tempOf k ≤ (s.get DR_TEMP_CFG DR_TEMP_CFG_T2X : Int) - 3)

/-- A tick that falls at the instant of a crossing is counted first, in the old mode (R448). -/
def State.tickFirst (s : State) (k : Nat) : State := [0, 1].foldl (fun s r => if s.tickDue k r then s.refreshTick k r else s) s

/-- Enter or leave 2× mode as the reports say (R440, R441). -/
def State.tempEval (s : State) (k : Nat) : State :=
  let crosses := if s.on (DR_SC_STAT k) DR_SC_STAT_MODE2X then s.coolNow k else s.hotNow k
  let s := if crosses then s.tickFirst k else s
  let c := s.dramAt k
  if s.on (DR_SC_STAT k) DR_SC_STAT_MODE2X then
    if s.coolNow k then
      if s.on (DR_SC_STAT k) DR_SC_STAT_PAYDOWN then s.setDramAt k { c with back1x := true } else s.leave2x k
    else s.setDramAt k { c with back1x := false }
  else if s.hotNow k then s.enter2x k
  else s

def State.owedPaid (s : State) (k r : Nat) : State :=
  let d := s.debt k r - 1
  let s := (s.put (DR_SC_STAT k) (debtFld r) d).bump (DR_SC_REF_CNT k) DR_SC_REF_CNT_COUNT 1
  let c := s.dramAt k
  if c.pay.getD r false && decide (d ≤ 1) then
    let s := s.setDramAt k { c with pay := c.pay.set r false }
    if (s.dramAt k).pay.any id then s
    else
      let s := s.put (DR_SC_STAT k) DR_SC_STAT_PAYDOWN 0
      if c.back1x then (s.setDramAt k { s.dramAt k with back1x := false }).leave2x k else s
  else s

def execOwedCommandPaid (now : Nat) (c : Fin 8) (rank : Fin 2) (s : State) : Out :=
  .next ((s.tick now).when (s.rankOn c.val rank.val && decide (1 ≤ s.debt c.val rank.val)) fun s => s.owedPaid c.val rank.val)

/-- The reported refresh rate of each rank: 1 for 1×, 2 for 2×, more above (R440). -/
def execMr4Poll (now : Nat) (c : Fin 8) (rates : List Nat) (s : State) : Out :=
  .next ((s.tick now).when (s.subOn c.val) fun s =>
    let s := s.setDramAt c.val { s.dramAt c.val with mr4 := rates }
    let s := if rates.any fun r => decide (2 < r) then (s.put DR_STAT DR_STAT_OVERTEMP 1).postTemp c.val 2 else s
    s.tempEval c.val)

/-- A PHY sensor reading of the sub-channel's channel; both its sub-channels follow it. -/
def execTempCrossing (now : Nat) (c : Fin 8) (temp : Int) (s : State) : Out :=
  let s := s.tick now
  let ch := c.val / 2
  let s := s.put DR_TEMP_STAT ⟨8 * ch, 8⟩ (toBits 8 temp)
  .next ([2 * ch, 2 * ch + 1].foldl (fun s k => if s.subOn k then s.tempEval k else s) s)

/-! ### Scrub and retraining (R427, R443, R444) -/

def execPatrolScrub (now : Nat) (hpa : Nat) (errs0 errs1 : List BeatErr) (s : State) : Out :=
  let s := s.tick now
  .next (match s.locket.dram with
    | some c => s.when (s.ddrTakes && s.on DR_SCRUB DR_SCRUB_HOURS && decide (hpa < s.dramCap) && s.ddrServes hpa) fun s =>
        (s.dramCheck c (blockOf hpa) .besteffort 0 errs0 errs1).1
    | none => s)

/-- n bytes of trained values that a training step found. -/
def State.drawTrained (s : State) : Nat → List Byte × State
  | 0 => ([], s)
  | n + 1 =>
    let b := Config.trainedByte s.free
    let (bs, s) := { s with free := s.free + 1 }.drawTrained n
    (b :: bs, s)

/-- A rank record (R443): trained values with its reserved bytes zero. -/
def State.rankRecord (s : State) : List Byte × State :=
  let (a, s) := s.drawTrained 31
  let (b, s) := s.drawTrained 20
  let (c, s) := s.drawTrained 320
  (a ++ zeros 1 ++ b ++ zeros 12 ++ c ++ zeros 128, s)

/-- Record a training step of rank r of physical sub-channel k in the retained body (R443, R444). -/
def State.trainRank (s : State) (c : DramConf) (k r : Nat) : State :=
  let i := ((maskSubs c.mask).idxOf k)
  let (rec_, s) := s.rankRecord
  let body := if s.trained.length = c.nsub * 1056 then s.trained else zeros (c.nsub * 1056)
  let hdr := [BitVec.ofNat 8 k, BitVec.ofNat 8 c.ranks] ++ leBytes 2 c.rate ++ [BitVec.ofNat 8 (toBits 8 (s.tempOf k))] ++ zeros 3 ++
    leBytes 8 s.dtime ++ zeros 16
  { s with trained := putBytes (putBytes body (i * 1056) hdr) (i * 1056 + 32 + 512 * r) rec_ }

/-- Whether rank r of sub-channel k is retrained now: its turn, one period after the last step (R444); parking step 6 abandons the step
(R448). -/
def State.retrainDue (s : State) (k r : Nat) : Bool :=
  s.rankOn k r && s.on DR_RETRAIN DR_RETRAIN_EN && (s.dramAt k).nextRank == r && s.park.step != 6 &&
  decide ((s.dramAt k).trainAt + s.get DR_RETRAIN DR_RETRAIN_PERIOD_MS * 1000000 ≤ s.dtime)

def execRetrainStep (now : Nat) (c : Fin 8) (rank : Fin 2) (changed : Bool) (s : State) : Out :=
  let s := s.tick now
  .next (match s.locket.dram with
    | some conf => s.when (s.retrainDue c.val rank.val) fun s =>
        let s := s.setDramAt c.val { s.dramAt c.val with nextRank := (rank.val + 1) % conf.ranks, trainAt := s.dtime }
        if changed then (s.trainRank conf c.val rank.val).put DR_STAT DR_STAT_SNAPDIRTY 1 else s
    | none => s)

end Sys2Proof.Machine
end

