-- ==== Sys2Proof/Machine/Engines.lean ====
section
/-!
DEFINITION. What the DMA and blit engines share: the reach of their owners (R346), doorbells that wait (R133, R301), the use of surfaces (R156), and the start of work at
its trigger (R359, R381).
-/

namespace Sys2Proof.Machine

/-! ### Reach (R346) -/

/-- The ASSET copy in local DDR5 (R89): base and bytes. -/
def State.assetCopy (s : State) : Nat × Nat :=
  match s.locket.asset with
  | some a => (a.base, a.len)
  | none => (0, 0)

def within (r : Nat × Nat) (a n : Nat) : Bool := decide (r.1 ≤ a) && decide (a + n ≤ r.1 + r.2)

/-- The BAR2 range in force of a port (R130, R131): no bytes when disabled. -/
def State.bar2Range (s : State) (p : Nat) : Nat × Nat :=
  let l := s.getUse (HP_BAR2_SIZE p) HP_BAR2_SIZE_LOG2
  (getField (s.rdUse (HP_BAR2_BASE_LO p)) HP_BAR2_BASE_LO_BASE * 2 ^ 20 +
   getField (s.rdUse (HP_BAR2_BASE_HI p)) HP_BAR2_BASE_HI_BASE * 2 ^ 32, if l = 0 then 0 else 2 ^ l)

/-- What a range is reached for. -/
inductive Reach where
  | source | dest | control
  deriving DecidableEq, Repr

def State.space (s : State) : Space := { cap := s.dramCap, hw := [s.hwSize 0, s.hwSize 1, s.hwSize 2, s.hwSize 3] }

/-- Whether n bytes at a lie in the reach of a unit's owner (4 the supervisor). -/
def State.reaches (s : State) (owner : Nat) (k : Reach) (a n : Nat) : Bool :=
  rangeOk s.space a n &&
  match regionOf a with
  | .window p => p == owner
  | .ddr =>
    decide (hubReserved ≤ a) &&
    if owner = 4 then (k != .dest || !overlaps a n s.assetCopy.1 s.assetCopy.2)
    else within (s.bar2Range owner) a n || (k == .source && within s.assetCopy a n)
  | _ => false

/-! ### Doorbells (R133, R301) -/

/-- Whether writes that a source posted earlier still wait in its policer. -/
def State.writesWait (s : State) (src : Src) : Bool :=
  match src with
  | .host p => !(s.polAt (2 * p.val)).held.isEmpty
  | _ => false

/-- The port whose doorbell an access is: that of the commit ring it rings, or its source. -/
def bellPort (src : Src) (addr : Nat) : Option Nat :=
  if 0xA00000 ≤ addr then some ((addr - 0xA00000) / 0x10000)
  else match src with
    | .host p => some p.val
    | _ => none

/-- Whether a doorbell waits: behind earlier writes of its source (R133), while no entry of its port's backlog can be reserved (R301), or
behind a doorbell of the same source that waits. -/
def State.bellWaits (s : State) (src : Src) (addr : Nat) : Bool :=
  s.writesWait src || s.bells.any (fun b => b.src == src) ||
  match bellPort src addr with
  | some p => !s.evFree p
  | none => false

/-- Act on a doorbell, or keep it. -/
def State.bell (s : State) (src : Src) (addr value : Nat) (eff : State → State) : State :=
  if s.bellWaits src addr then { s with bells := s.bells ++ [⟨src, addr, value⟩] } else eff s

/-! ### Use of surfaces (R156, R157) -/

/-- A surface comes into use: it will retire when its use ends. -/
def State.markUse (s : State) (i : Nat) : State :=
  if s.used.any fun u => u.1 == i then s else { s with used := (i, 0) :: s.used }

/-- A fetch of a surface's bytes completes (LAST_FETCH, R159). -/
def State.markFetch (s : State) (i : Nat) : State :=
  { s with used := (i, s.dtime) :: s.used.filter fun u => u.1 != i }

/-- Whether SY_BOOT_STAT.ASSETS holds back a surface (R89). -/
def State.assetHeld (s : State) (e : SurfEntry) : Bool :=
  !s.on SY_BOOT_STAT SY_BOOT_STAT_ASSETS && e.planes.any fun p => overlaps p.1 p.2 s.assetCopy.1 s.assetCopy.2

/-- The port granted a DMA or blit channel, none when it belongs to nobody. -/
def State.engUp (s : State) : Bool := s.islUp islDma

/-! ### DMA transfers (R349, R361) -/

def descSrc (d : List Byte) : Nat := fieldAt d 0 8 % 2 ^ 42
def descDst (d : List Byte) : Nat := fieldAt d 8 8 % 2 ^ 42
def descRow (d : List Byte) : Nat := fieldAt d 16 4
def descRows (d : List Byte) : Nat := fieldAt d 20 2
def descSrcPitch (d : List Byte) : Nat := fieldAt d 24 4
def descDstPitch (d : List Byte) : Nat := fieldAt d 28 4
def descTotal (d : List Byte) : Nat := descRow d * descRows d
def descFlag (d : List Byte) (i : Nat) : Bool := bit (fieldAt d 32 2) i
def descKind (d : List Byte) : Nat := fieldAt d 34 2 % 16
def descUnit (d : List Byte) : Nat := fieldAt d 34 2 / 16 % 256
def descArg (d : List Byte) : Nat := fieldAt d 22 2

/-- Source and destination HPA of transfer offset k. -/
def descSrcAt (d : List Byte) (k : Nat) : Nat := descSrc d + k / descRow d * descSrcPitch d + k % descRow d
def descDstAt (d : List Byte) (k : Nat) : Nat := descDst d + k / descRow d * descDstPitch d + k % descRow d

/-- The read at transfer offset k crosses no row, no 4 KiB source boundary and no 4 KiB of length. -/
def descReadLen (d : List Byte) (k : Nat) : Nat :=
  min (descRow d - k % descRow d) (4096 - descSrcAt d k % 4096)

/-! ### Issue of reads (R347, R361) -/

def DmaRun.stage (r : DmaRun) : Nat := r.out.length + r.got.length

def DmaRun.ready (r : DmaRun) : Bool := !r.waiting && r.aborting.isNone && decide (r.next < descTotal r.desc)

def State.stageUse (s : State) : Nat :=
  (s.dma.map fun c => match c.2.run with
    | some r => r.stage
    | none => 0).foldl (· + ·) 0

/-- DM_STAGE follows the blocks held, with the most held since its last read (R370). -/
def State.showStage (s : State) : State :=
  let n := s.stageUse
  let s := s.put DM_STAGE DM_STAGE_INUSE n
  if s.get DM_STAGE DM_STAGE_PEAK < n then s.put DM_STAGE DM_STAGE_PEAK n else s

def State.maxRd (s : State) (c : Nat) : Nat := min 32 (max 1 (s.get (DM_CFG c) DM_CFG_MAXRD))

/-- Whether channel c has a read ready and may take a block. -/
def State.mayIssue (s : State) (c : Nat) : Bool :=
  match (s.dmaAt c).run with
  | some r => r.ready && decide (r.stage < s.maxRd c)
  | none => false

def State.dmQueue (s : State) (c : Nat) : Nat := s.get (DM_CFG c) DM_CFG_QUEUE

/-- The class of a channel's requests under the contract of its queue (R348). -/
def State.dmClass (s : State) (c : Nat) : MemClass :=
  if decide (8 ≤ s.dmQueue c) && s.on (CA_Q_CTRL (s.dmQueue c)) CA_Q_CTRL_GUAR then .guaranteed else .besteffort

/-- A read takes a block and passes the channel's shaper queue (R348).  Queues 0 to 7 name policers and shape no channel (R402), so a channel
that names one is not shaped (assumption 122). -/
def State.issueRead (s : State) (c : Nat) : State :=
  let ch := s.dmaAt c
  match ch.run with
  | none => s
  | some r =>
    let n := descReadLen r.desc r.next
    let a := descSrcAt r.desc r.next
    let s := s.setDmaAt c { ch with run := some { r with next := r.next + n, out := r.out ++ [r.next] } }
    let s := { s with dmaLast := c }
    if s.dmQueue c < 8 then s.busIssue a n .besteffort 0 .plain
    else s.qEnter (s.dmQueue c) ⟨⟨n, true⟩, some (c, r.next, a)⟩

/-- Free blocks go to channels with reads ready, round robin from the channel after the last one served (R347). -/
def State.issueReads (s : State) : Nat → State
  | 0 => s.showStage
  | n + 1 =>
    match if s.stageUse < 128 then
        ((List.range 32).map fun i => (s.dmaLast + 1 + i) % 32).find? fun c => s.mayIssue c
      else none with
    | some c => (s.issueRead c).issueReads n
    | none => s.showStage

/-- Start a DMA channel's accepted descriptor. -/
def State.dmaBegin (s : State) (c : Nat) : State :=
  let ch := s.dmaAt c
  match ch.run with
  | some r =>
    ((s.setDmaAt c { ch with run := some { r with waiting := false } }).put (DM_STAT c) DM_STAT_STATE 1).issueReads 129
  | none => s

/-! ### Start of a blit job (R381, R386) -/

def jobOp (j : List Byte) : Nat := fieldAt j 0 1
def jobXform (j : List Byte) : Nat := fieldAt j 1 1
def jobFlag (j : List Byte) (i : Nat) : Bool := bit (fieldAt j 2 2) i
def jobW (j : List Byte) : Nat := fieldAt j 20 2
def jobH (j : List Byte) : Nat := fieldAt j 22 2
def jobKind (j : List Byte) : Nat := fieldAt j 32 2 % 16
def jobUnit (j : List Byte) : Nat := fieldAt j 32 2 / 16 % 256
def jobArg (j : List Byte) : Nat := fieldAt j 34 2
def jobTurned (j : List Byte) : Bool := decide (4 ≤ jobXform j)

/-- Width and height of the destination rectangle (R375). -/
def jobDw (j : List Byte) : Nat := if jobTurned j then jobH j else jobW j
def jobDh (j : List Byte) : Nat := if jobTurned j then jobW j else jobH j

/-- Band height (R383, R386). -/
def jobBand (j : List Byte) : Nat := if jobTurned j then 16 else 1

/-! ### Fields of a job (R374) -/

def jobSrc (j : List Byte) : Nat := fieldAt j 4 4
def jobDst (j : List Byte) : Nat := fieldAt j 8 4
def jobSx (j : List Byte) : Nat := fieldAt j 12 2
def jobSy (j : List Byte) : Nat := fieldAt j 14 2
def jobDx (j : List Byte) : Nat := fieldAt j 16 2
def jobDy (j : List Byte) : Nat := fieldAt j 18 2
def jobStep (j : List Byte) : Nat := fieldAt j 36 2
def jobTag (j : List Byte) : Nat := fieldAt j 40 4
def jobFill (j : List Byte) : Bool := jobOp j == 2

/-! ### Planes of a job (R375) -/

/-- One plane of a copy or fill, in units: a unit is a pixel, a YUYV or UYVY pair, or a Cb, Cr pair.  Bases and pitches, bytes
per unit, rectangle corners and source size. -/
structure Plane where
  sb : Nat
  sp : Nat
  db : Nat
  dp : Nat
  u  : Nat
  sx : Nat
  sy : Nat
  dx : Nat
  dy : Nat
  w  : Nat
  h  : Nat
  deriving DecidableEq, Repr

def jobPlanes (j : List Byte) (src dst : SurfEntry) : List Plane :=
  let f := dst.format
  if fmtYuvPacked f then
    [⟨src.base, src.pitch, dst.base, dst.pitch, 4, jobSx j / 2, jobSy j, jobDx j / 2, jobDy j, jobW j / 2, jobH j⟩]
  else if fmtPlanar f then
    [⟨src.base, src.pitch, dst.base, dst.pitch, fmtBpp f, jobSx j, jobSy j, jobDx j, jobDy j, jobW j, jobH j⟩,
     ⟨src.aux0, src.auxPitch, dst.aux0, dst.auxPitch, 2 * fmtBpp f, jobSx j / 2, jobSy j / 2, jobDx j / 2, jobDy j / 2, jobW j / 2,
      jobH j / 2⟩]
  else [⟨src.base, src.pitch, dst.base, dst.pitch, fmtBpp f, jobSx j, jobSy j, jobDx j, jobDy j, jobW j, jobH j⟩]

def Plane.srcAt (p : Plane) (i j : Nat) : Nat := p.sb + (p.sy + j) * p.sp + (p.sx + i) * p.u
def Plane.dstAt (p : Plane) (u v : Nat) : Nat := p.db + (p.dy + v) * p.dp + (p.dx + u) * p.u

/-- Width and height of the plane's destination rectangle. -/
def Plane.dw (p : Plane) (x : Nat) : Nat := if 4 ≤ x then p.h else p.w
def Plane.dh (p : Plane) (x : Nat) : Nat := if 4 ≤ x then p.w else p.h

/-- The bytes of the rows of the source and of the destination rectangle (R380). -/
def Plane.srcRows (p : Plane) : List (Nat × Nat) := (List.range p.h).map fun j => (p.srcAt 0 j, p.w * p.u)
def Plane.dstRows (p : Plane) (x : Nat) : List (Nat × Nat) := (List.range (p.dh x)).map fun v => (p.dstAt 0 v, p.dw x * p.u)

/-- Whether the rectangles of a COPY overlap (R380). -/
def jobOverlaps (j : List Byte) (src dst : SurfEntry) : Bool :=
  let ps := jobPlanes j src dst
  !jobFill j && (ps.flatMap Plane.srcRows).any fun a =>
    (ps.flatMap fun p => p.dstRows (jobXform j)).any fun b => overlaps a.1 a.2 b.1 b.2

/-- Whether destination rows are made from the top (R382, R383). -/
def BlitRun.topDown (r : BlitRun) (c : Nat) : Bool :=
  let j := r.job
  if c < 6 then !(!jobTurned j && jobXform j == 0 && decide (jobSy j < jobDy j) && jobOverlaps j r.src r.dst)
  else
    let y := jobFlag j 2
    if !jobTurned j && (jobXform j == 2 || jobXform j == 3) then y else !y

/-- Whether destination pixels of a row run from the right: XDIR orders source pixels, which HMIRROR and TURN180 reverse. -/
def BlitRun.rightFirst (r : BlitRun) (c : Nat) : Bool :=
  let j := r.job
  if c < 6 then
    !jobFill j && jobXform j == 0 && jobOverlaps j r.src r.dst && decide (jobSx j < jobDx j) &&
      decide (jobDy j < jobSy j + jobH j) && decide (jobSy j < jobDy j + jobH j)
  else jobFlag j 1 != (jobXform j == 1 || jobXform j == 3)

/-- Steps of a plane: its bands (R383). -/
def Plane.steps (p : Plane) (j : List Byte) : Nat := cdiv (p.dh (jobXform j)) (jobBand j)

def BlitRun.planes (r : BlitRun) : List Plane := jobPlanes r.job r.src r.dst

def BlitRun.total (r : BlitRun) : Nat := (r.planes.map fun p => p.steps r.job).foldl (· + ·) 0

/-- The plane and the step within it that step n of the job is. -/
def stepPlane (j : List Byte) : List Plane → Nat → Nat → Option (Nat × Plane × Nat)
  | [], _, _ => none
  | p :: ps, k, n => if n < p.steps j then some (k, p, n) else stepPlane j ps (k + 1) (n - p.steps j)

/-- Source address and bytes of the reads that step n of a job makes; none for a FILL. -/
def BlitRun.reads (r : BlitRun) (c n : Nat) : Option (Nat × Nat) :=
  if jobFill r.job then none
  else
    (stepPlane r.job r.planes 0 n).map fun x =>
      let p := x.2.1
      let rows := min (jobBand r.job) (p.dh (jobXform r.job) - x.2.2 * jobBand r.job)
      (p.srcAt 0 (if r.topDown c then min x.2.2 (p.h - 1) else p.h - 1 - min x.2.2 (p.h - 1)), rows * p.dw (jobXform r.job) * p.u)

def State.blQueue (s : State) (c : Nat) : Nat := s.get (BL_CFG c) BL_CFG_QUEUE

/-- The reads of step n of a job pass the channel's shaper queue, charged once and as one request (R386; the size of the request is the
model's choice, assumption 122).  In a queue blit channel c stands as reader 32 + c. -/
def State.blitAsk (s : State) (c n : Nat) : State :=
  match (s.blitAt c).run.bind fun r => r.reads c n with
  | none => s
  | some (a, m) =>
    if s.blQueue c < 8 then s.busIssue a m .besteffort 0 .plain
    else s.qEnter (s.blQueue c) ⟨⟨m, true⟩, some (32 + c, n, a)⟩

def State.slotNs (s : State) (c : Nat) (j : List Byte) : Nat := jobBand j * s.get (BL_ROWT c) BL_ROWT_ROW_NS

def State.blitBegin (s : State) (c : Nat) : State :=
  let ch := s.blitAt c
  match ch.run with
  | some r =>
    let r := { r with waiting := false, started := some s.dtime, slotEnd := s.dtime + s.slotNs c r.job }
    ((s.setBlitAt c { ch with run := some r }).put (BL_STAT c) BL_STAT_STATE 3).blitAsk c 0
  | none => s

/-- Whether the dead time after the previous job has passed (R381). -/
def State.deadOver (s : State) (c : Nat) : Bool :=
  match (s.blitAt c).lastEnd with
  | some t => decide (t + s.get (BL_PACE c) BL_PACE_DEAD_NS ≤ s.dtime)
  | none => true

/-- The trigger of a blit job has occurred: it starts, or starts when the dead time ends. -/
def State.blitTrigger (s : State) (c : Nat) : State :=
  let ch := s.blitAt c
  match ch.run with
  | some r =>
    let s := s.setBlitAt c { ch with run := some { r with trigd := true } }
    if s.deadOver c then s.blitBegin c else s
  | none => s

/-! ### Triggers (R359, R381) -/

/-- Whether a trigger has occurred at the present instant. -/
def State.trigNow (s : State) (kind unit arg : Nat) : Bool := s.trigs.1 == s.dtime && s.trigs.2.contains (kind, unit, arg)

/-- An occurrence of trigger (kind, unit, arg): each waiting descriptor and job that names it starts, and what is accepted later in the same
instant starts too (R359). -/
def State.trigger (s : State) (kind unit arg : Nat) : State :=
  let s := { s with trigs := (s.dtime, (kind, unit, arg) :: if s.trigs.1 = s.dtime then s.trigs.2 else []) }
  if s.engUp then
    let s := (List.range 32).foldl (fun s c => match (s.dmaAt c).run with
      | some r => if r.waiting && descKind r.desc == kind && descUnit r.desc == unit && descArg r.desc == arg then s.dmaBegin c else s
      | none => s) s
    (List.range 8).foldl (fun s c => match (s.blitAt c).run with
      | some r => if r.waiting && !r.trigd && jobKind r.job == kind && jobUnit r.job == unit && jobArg r.job == arg then s.blitTrigger c else s
      | none => s) s
  else s

/-- KIND, UNIT and TRIG_ARG within R359 and R381, and the grant of a unit with one (checks 6 and 9). -/
def State.triggerOk (s : State) (owner kind unit arg : Nat) (self4 self5 : Option Nat) : Bool :=
  match kind with
  | 0 => unit == 0 && arg == 0
  | 1 => decide (unit < 16) && arg == 0
  | 2 => decide (unit < 16) && decide (arg < s.get (TL_VTIME unit) TL_VTIME_VTOTAL) && s.grantedR owner 1 unit
  | 3 => decide (unit < 24) && arg == 0 && s.grantedR owner 5 unit
  | 4 => decide (unit < 32) && arg == 0 && self4 != some unit && s.grantedR owner 3 unit
  | 5 => decide (unit < 8) && arg == 0 && self5 != some unit && s.grantedR owner 4 unit
  | _ => false

/-- A tick of hub timer n at the present time (R360). -/
def State.timerTicks (s : State) (n : Nat) : Bool :=
  s.on (HT_CTRL n) HT_CTRL_EN && decide (s.rdN (HT_OFFSET n) ≤ s.dtime) && decide (0 < s.rdN (HT_PERIOD n)) &&
  (s.dtime - s.rdN (HT_OFFSET n)) % s.rdN (HT_PERIOD n) == 0

def execHtTick (now : Nat) (n : Fin 16) (s : State) : Out :=
  .next ((s.tick now).when ((s.tick now).timerTicks n.val) fun s => s.trigger 1 n.val 0)

end Sys2Proof.Machine
end

