-- ==== Sys2Proof/Machine/Dma.lean ====
section
/-!
DEFINITION. The DMA engine (R346 to R370): chains of descriptors, acceptance and its checks, the movement of data, completion,
errors, aborts and parking.
-/

namespace Sys2Proof.Machine

/-! ### Addresses of a channel -/

def State.dmaCur (s : State) (c : Nat) : Nat := s.get (DM_CUR_LO c) DM_CUR_LO_CUR * 64 + s.get (DM_CUR_HI c) DM_CUR_HI_CUR * 2 ^ 32
def State.dmaLastAt (s : State) (c : Nat) : Nat := s.get (DM_LAST_LO c) DM_LAST_LO_LAST * 64 + s.get (DM_LAST_HI c) DM_LAST_HI_LAST * 2 ^ 32
def State.dmaBase (s : State) (c : Nat) : Nat := s.get (DM_BASE_LO c) DM_BASE_LO_BASE * 64 + s.get (DM_BASE_HI c) DM_BASE_HI_BASE * 2 ^ 32
def State.lastValid (s : State) (c : Nat) : Bool := s.on (DM_LAST_LO c) DM_LAST_LO_LAST_VALID

def State.setCur (s : State) (c a : Nat) : State :=
  (s.put (DM_CUR_LO c) DM_CUR_LO_CUR (a / 64)).put (DM_CUR_HI c) DM_CUR_HI_CUR (a / 2 ^ 32)

def State.setLast (s : State) (c a : Nat) : State :=
  ((s.put (DM_LAST_LO c) DM_LAST_LO_LAST (a / 64)).put (DM_LAST_HI c) DM_LAST_HI_LAST (a / 2 ^ 32)).put (DM_LAST_LO c) DM_LAST_LO_LAST_VALID 1

def State.dmState (s : State) (c : Nat) : Nat := s.get (DM_STAT c) DM_STAT_STATE
def State.setDmState (s : State) (c st : Nat) : State := s.put (DM_STAT c) DM_STAT_STATE st

/-- The owner of a channel (R346), none when no GRANT names it. -/
def State.dmaOwner (s : State) (c : Nat) : Option Nat := s.ownerOf 3 c

/-! ### Events (R368) -/

def State.dmaPayload (s : State) (c desc code detail residue : Nat) : List Byte :=
  leBytes 8 desc ++ leBytes 2 (s.get (DM_STAT c) DM_STAT_CHAIN_EPOCH) ++ [BitVec.ofNat 8 code, BitVec.ofNat 8 detail] ++ leBytes 4 residue

/-- Entry to STOPPED (0) or HALTED (4) with its CAUSE: DMA_STATE is posted. -/
def State.dmaStop (s : State) (c st cause : Nat) : State :=
  let s := (s.setDmState c st).put (DM_STAT c) DM_STAT_CAUSE cause
  s.post 3 c 0x31 0 (s.dmaPayload c (if s.lastValid c then s.dmaLastAt c else s.dmaBase c) st cause 0)

/-! ### The loop of R355 -/

def State.setWant (s : State) (c : Nat) (w : Want) : State := s.setDmaAt c { s.dmaAt c with want := w }

/-- Whether every port that receives a channel's events can reserve one (R362). -/
def State.canReserve (s : State) (cls inst : Nat) : Bool := (s.readersOf cls inst).all s.evFree

/-- Issue a control read of a channel. -/
def State.dmaAsk (s : State) (c : Nat) (w : Want) (a n : Nat) : State :=
  (s.setDmaAt c { s.dmaAt c with want := w, wantAt := s.dtime, stalled := false }).unitIssue a n (s.dmClass c)

/-- Read the descriptor at CUR: one out of the owner's reach is never read (R346, R364), and none is read while its event cannot be
reserved (R362). -/
def State.readDesc (s : State) (c : Nat) : State :=
  match s.dmaOwner c with
  | none => s
  | some owner =>
    if !s.reaches owner .control (s.dmaCur c) 64 then (s.setWant c .none).dmaStop c 4 2
    else if s.canReserve 3 c then s.dmaAsk c .entry (s.dmaCur c) 64
    else s.setDmaAt c { s.dmaAt c with want := .none, stalled := true }

/-- Read the link word of LAST, or the descriptor at CUR when there is no LAST. -/
def State.readNext (s : State) (c : Nat) : State :=
  if s.lastValid c then s.dmaAsk c .link (s.dmaLastAt c + 40) 8 else s.readDesc c

/-- Channels that waited for an entry of the backlog read their descriptors once it can be reserved. -/
def State.dmaResume (s : State) : State :=
  (List.range 32).foldl (fun s c => if (s.dmaAt c).stalled && s.canReserve 3 c then s.readDesc c else s) s

/-- The start of a re-read clears PEND (R356). -/
def State.dmaReread (s : State) (c : Nat) : State := (s.put (DM_STAT c) DM_STAT_PEND 0).readNext c

/-- Enter PARKED; a doorbell already pending makes the channel re-read at once, unless the hub is parking (R356, R367). -/
def State.dmaPark (s : State) (c : Nat) : State :=
  let s := (s.setWant c .none).setDmState c 3
  if s.on (DM_STAT c) DM_STAT_PEND && s.park.step == 0 then s.dmaReread c else s

/-- Whether a channel reads its next link word or descriptor, or waits to. -/
def DmaCh.seeking (ch : DmaCh) : Bool := ch.want != .none || ch.stalled

/-- START taken (R355).  Until its first descriptor is accepted DM_STAT.STATE keeps its value, and a further START is ignored
(assumption 121). -/
def State.dmaStart (s : State) (c : Nat) : State :=
  let st := s.dmState c
  if (st == 0 || st == 4) && !(s.dmaAt c).seeking && (s.dmaOwner c).isSome && s.engUp then
    let s := s.bumpMod (DM_STAT c) DM_STAT_CHAIN_EPOCH 1
    let s := (s.put (DM_STAT c) DM_STAT_PEND 0).put (DM_LAST_LO c) DM_LAST_LO_LAST_VALID 0
    let s := s.setCur c (s.dmaBase c)
    let s := s.setDmaAt c { s.dmaAt c with chain := none }
    s.readDesc c
  else s

/-! ### Marked bytes (R363) -/

def markedLen (m : List (Nat × Nat)) : Nat := (m.map (·.2)).foldl (· + ·) 0
def markedLeast (m : List (Nat × Nat)) : Nat := (m.map (·.1)).foldl min (2 ^ 32)

/-- Mark the bytes h (offset, length): the pieces it meets or touches become one. -/
def markAdd (m : List (Nat × Nat)) (h : Nat × Nat) : List (Nat × Nat) :=
  let meets (x : Nat × Nat) : Bool := decide (x.1 ≤ h.1 + h.2) && decide (h.1 ≤ x.1 + x.2)
  let hit := h :: m.filter meets
  let lo := (hit.map (·.1)).foldl min h.1
  let hi := (hit.map fun x => x.1 + x.2).foldl max 0
  (lo, hi - lo) :: m.filter fun x => !meets x

/-! ### Acceptance (R352, R353) -/

def spanOf (base pitch rows row : Nat) : Nat × Nat := (base, (rows - 1) * pitch + row)

/-- The refusing check of a descriptor, none when it passes (R353). -/
def State.descRefusal (s : State) (c owner : Nat) (d : List Byte) : Option Nat :=
  let rb := descRow d
  let n := descRows d
  let nowr := descFlag d 5
  let trig := fieldAt d 34 2
  let link := fieldAt d 40 8
  let rowIn (k : Reach) (base pitch : Nat) := (List.range n).all fun i => s.reaches owner k (base + i * pitch) rb
  if rb = 0 ∨ 16777216 < rb ∨ n = 0 ∨ 2 ^ 32 ≤ descTotal d then some 1
  else if 64 ≤ fieldAt d 32 2 ∨ 4096 ≤ trig ∨ 2 ^ 42 ≤ fieldAt d 0 8 ∨ (nowr = false ∧ 2 ^ 42 ≤ fieldAt d 8 8) ∨ 2 ^ 42 ≤ link ∨
      link / 2 % 32 ≠ 0 ∨ ((descFlag d 3 || descFlag d 4) && !descFlag d 2) = true then some 2
  else if (decide (1 < n) && !nowr && decide (descDstPitch d < rb)) = true then some 3
  else if (!rowIn .source (descSrc d) (descSrcPitch d) || (!nowr && !rowIn .dest (descDst d) (descDstPitch d))) = true then some 4
  else if (!nowr && overlaps (descSrc d) (spanOf (descSrc d) (descSrcPitch d) n rb).2 (descDst d)
      (spanOf (descDst d) (descDstPitch d) n rb).2) = true then some 5
  else if s.triggerOk owner (descKind d) (descUnit d) (descArg d) (some c) none then none
  else some 6

/-- The bytes of a descriptor after its status write-back (R349, R361). -/
def descStatus (d : List Byte) (code detail errOff residue crcOut : Nat) : List Byte :=
  putBytes (putBytes (putBytes (putBytes d 36 (leBytes 4 errOff)) 52 (leBytes 4 crcOut)) 56 (leBytes 4 residue)) 60
    (leBytes 4 (code + 256 * detail))

/-- Write a status back: ERR_OFF, then CRC_OUT and RESIDUE, then STATUS with OWN = 0. -/
def State.dmaStatus (s : State) (a : Nat) (d : List Byte) : State × Bool :=
  let (s, ok1) := s.unitWrite (a + 36) (bytesAt d 36 4)
  let (s, ok2) := s.unitWrite (a + 52) (bytesAt d 52 8)
  let (s, ok3) := s.unitWrite (a + 60) (bytesAt d 60 4)
  (s, ok1 && ok2 && ok3)

/-- The reserved event of a descriptor or job is used, or released (R362, R384). -/
def State.settleEvent (s : State) (cls inst type : Nat) (use : Bool) (payload : List Byte) : State :=
  let ps := s.readersOf cls inst
  if use then s.postReserved ps (cls * 256 + inst) type 0 payload else s.release ps

/-- A descriptor ends: status, LAST, count, event; then the channel goes on, halts or stops (R355, R361 to R365).  `stop` is the
CAUSE with which an abort or parking stops it. -/
def State.dmaEnd (s : State) (c code detail errOff residue crcOut : Nat) (statusBad : Bool) (stop : Option Nat) : State :=
  let ch := s.dmaAt c
  match ch.run with
  | none => s
  | some r =>
    let chain := if descFlag r.desc 2 && decide (code ≤ 1) then some r.crc else none
    let s := s.setDmaAt c { ch with run := none, chain := chain, want := .none, stalled := false }
    let s := (s.qWithdraw (s.dmQueue c) c).issueReads 129
    let s := if code = 0 then s else (s.put (DM_STAT c) DM_STAT_ERR 1).bump (DM_ERR_CNT c) DM_ERR_CNT_COUNT 1
    let cont := s.on (DM_CFG c) DM_CFG_ONERR
    let (s, sent) := s.dmaStatus r.addr (descStatus r.desc code detail errOff residue crcOut)
    let ok := sent && !statusBad
    let counted := ok && (decide (code = 0) || (cont && decide (code ≠ 4)))
    let s := if counted then s.bumpMod (DM_DONE_CNT c) DM_DONE_CNT_COUNT 1 else s
    let s := s.setLast c r.addr
    let s := s.settleEvent 3 c 0x30 (descFlag r.desc 0 || decide (code ≠ 0)) (s.dmaPayload c r.addr code detail residue)
    let s := if counted then s.trigger 4 c 0 else s
    match stop with
    | some cause => if ok then s.dmaStop c 0 cause else s.dmaStop c 4 2
    | none =>
      if !ok then s.dmaStop c 4 2
      else if decide (code ≠ 0) && !cont then s.dmaStop c 4 1
      else s.readNext c

/-- The CRC a transfer starts from (R358). -/
def State.dmaCrcStart (s : State) (c : Nat) (d : List Byte) : State × Nat :=
  if descFlag d 2 && descFlag d 3 then
    match (s.dmaAt c).chain with
    | some r => (s, r)
    | none => (s.put (DM_STAT c) DM_STAT_CHAINBRK 1, 0xFFFFFFFF)
  else (s, 0xFFFFFFFF)

/-- Accept a descriptor: refuse it, start it, or let it wait for its trigger (R352, R353, R359).  `statBad`: the DDR5 controller reports
the write of its status as failed (R364). -/
def State.dmaAccept (s : State) (c owner : Nat) (d : List Byte) (statBad : Bool) : State :=
  let r : DmaRun := { addr := s.dmaCur c, desc := d, next := 0, out := [], got := [], written := 0, marked := [], firstErr := none,
                      crc := 0xFFFFFFFF, waiting := decide (descKind d ≠ 0), aborting := none, acked := false, flush := none }
  match s.descRefusal c owner d with
  | some detail =>
    (s.setDmaAt c { s.dmaAt c with want := .none, run := some r }).dmaEnd c 5 detail 0 (if detail = 1 then 0 else descTotal d) 0 statBad none
  | none =>
    let (s, crc) := s.dmaCrcStart c d
    let s := s.setDmaAt c { s.dmaAt c with want := .none, run := some { r with crc := crc } }
    if descKind d = 0 || s.trigNow (descKind d) (descUnit d) (descArg d) then s.dmaBegin c else s.setDmState c 2

/-- The channel stops with CAUSE 2: it cannot read a descriptor or link word (R364). -/
def State.dmaDescErr (s : State) (c : Nat) : State := (s.setWant c .none).dmaStop c 4 2

/-- A descriptor read returns (R352, R362, R364); while the hub parks it is not accepted (R367). -/
def State.dmaDesc (s : State) (c : Nat) (res : ReadRes) (host : List Byte) (statBad : Bool) : State :=
  match s.dmaOwner c, s.busRead (s.dmaCur c) 64 res host with
  | none, _ => s
  | some _, (s, none) => s.dmaDescErr c
  | some owner, (s, some d) =>
    if bit (fieldAt d 60 4) 31 then
      if s.park.step ≠ 0 then s.setWant c .none
      else
        match s.reserve (s.readersOf 3 c) with
        | some s => s.dmaAccept c owner d statBad
        | none => s.setDmaAt c { s.dmaAt c with want := .none, stalled := true }
    else s.dmaPark c

/-- What comes back of a channel's outstanding reads goes unused. -/
def State.dmaForget (s : State) (c : Nat) : State :=
  match (s.dmaAt c).run with
  | some r => { s with flying := r.out.foldl (fun l k => l.erase (descSrcAt r.desc k, descReadLen r.desc k)) s.flying }
  | none => s

/-- End an accepted descriptor ABORTED and stop its channel; the hub clears ABORT (R365). -/
def State.dmaKill (s : State) (c detail cause : Nat) (statBad : Bool) : State :=
  let s := (s.dmaForget c).put (DM_CTRL c) DM_CTRL_ABORT 0
  match (s.dmaAt c).run with
  | none => (s.setDmaAt c { s.dmaAt c with want := .none, stalled := false }).dmaStop c 0 cause
  | some r =>
    let residue := descTotal r.desc - (r.written - markedLen r.marked)
    s.dmaEnd c 4 detail (if r.marked.isEmpty then 0 else markedLeast r.marked) residue 0 statBad (some cause)

/-- Whether ABORT waits for a control read through a host window, which has now returned. -/
def State.abortWaits (s : State) (c : Nat) : Bool := s.on (DM_CTRL c) DM_CTRL_ABORT && (s.dmaAt c).run.isNone

def execDmaDescriptorRead (now : Nat) (c : Fin 32) (res : EntryRes) (host : List Byte) (s : State) : Out :=
  .next ((s.tick now).when (decide ((s.dmaAt c.val).want = .entry) && s.engUp) fun s =>
    if s.abortWaits c.val then (s.busRead (s.dmaCur c.val) 64 res.read host).1.dmaKill c.val 1 3 res.statBad else s.dmaDesc c.val res.read host res.statBad)

/-- A link word returns (R355, R364). -/
def State.dmaLink (s : State) (c : Nat) (res : ReadRes) (host : List Byte) : State :=
  match s.busRead (s.dmaLastAt c + 40) 8 res host with
  | (s, none) => s.dmaDescErr c
  | (s, some w) => if bit (leNat w) 0 then s.dmaPark c else (s.setCur c (leNat w % 2 ^ 42 / 64 * 64)).readDesc c

def execDmaLinkRead (now : Nat) (c : Fin 32) (res : ReadRes) (host : List Byte) (s : State) : Out :=
  .next ((s.tick now).when (decide ((s.dmaAt c.val).want = .link) && s.engUp) fun s =>
    if s.abortWaits c.val then (s.busRead (s.dmaLastAt c.val + 40) 8 res host).1.dmaKill c.val 1 3 false else s.dmaLink c.val res host)

/-! ### Data (R361, R363) -/

/-- Write what has come in transfer order: each piece goes to its destination, or is marked (R363). -/
def State.dmaDrain (s : State) (c : Nat) : Nat → State
  | 0 => s
  | n + 1 =>
    let ch := s.dmaAt c
    match ch.run with
    | none => s
    | some r =>
      match r.got.find? fun g => g.1 == r.written with
      | none => s
      | some (off, got) =>
        let len := descReadLen r.desc off
        let rest := r.got.filter fun g => g.1 != off
        match got with
        | none =>
          let r := { r with got := rest, written := off + len, marked := markAdd r.marked (off, len) }
          (s.setDmaAt c { ch with run := some r }).dmaDrain c n
        | some bs =>
          let r := { r with got := rest, written := off + len, crc := if descFlag r.desc 2 then crc32cRun r.crc bs else r.crc }
          if descFlag r.desc 5 then (s.setDmaAt c { ch with run := some r }).dmaDrain c n
          else
            let (s, ok) := s.busWrite (descDstAt r.desc off) bs (s.dmClass c) 0 .plain
            let r := if ok then r else { r with marked := markAdd r.marked (off, len), firstErr := some (r.firstErr.getD 3) }
            (s.setDmaAt c { ch with run := some r }).dmaDrain c n

/-- Every byte is written or marked, and no read is outstanding. -/
def DmaRun.moved (r : DmaRun) : Bool := !r.waiting && r.out.isEmpty && r.written == descTotal r.desc

/-- Whether a descriptor's writes go to a host window. -/
def toWindow (d : List Byte) : Bool := !descFlag d 5 && (windowOf (descDst d)).isSome

/-- After the last write of a FENCE descriptor into a host window, the port issues the flushing read of the last 4-byte unit written
(R361). -/
def State.dmaFlushRead (s : State) (c : Nat) : State :=
  let ch := s.dmaAt c
  match ch.run with
  | none => s
  | some r =>
    if r.moved && descFlag r.desc 1 && toWindow r.desc && r.flush.isNone && r.aborting.isNone then
      let a := (descDstAt r.desc (descTotal r.desc - 1)) / 4 * 4
      let s := s.unitIssue a 4 .besteffort
      s.setDmaAt c { ch with run := some { r with flush := some (s.flying.contains (a, 4)) } }
    else s

/-- Data of a read that has left its queue returns: it frees a block when its bytes have been written (R347). -/
def State.dmaReturn (s : State) (c off : Nat) (res : ReadRes) (host : List Byte) : State :=
  let ch := s.dmaAt c
  match ch.run with
  | none => s
  | some r =>
    if !r.out.contains off || s.qHolds (s.dmQueue c) c off then s
    else
      let (s, got) := s.busRead (descSrcAt r.desc off) (descReadLen r.desc off) res host
      if r.aborting.isSome then (s.setDmaAt c { ch with run := some { r with out := r.out.filter fun x => x != off } }).issueReads 129
      else
        let err := if got.isNone then some (r.firstErr.getD 2) else r.firstErr
        let r := { r with out := r.out.filter (fun x => x != off), got := (off, got) :: r.got, firstErr := err }
        (((s.setDmaAt c { ch with run := some r }).dmaDrain c 129).dmaFlushRead c).issueReads 129

def execDmaReadReturn (now : Nat) (c : Fin 32) (off : Nat) (res : ReadRes) (host : List Byte) (s : State) : Out :=
  .next ((s.tick now).when s.engUp fun s => s.dmaReturn c.val off res host)

/-- The DDR5 controller has acknowledged every write that a descriptor has made so far (R361). -/
def State.dmaAcked (s : State) (c : Nat) : State :=
  let ch := s.dmaAt c
  match ch.run with
  | some r => if r.moved || r.aborting.isSome then s.setDmaAt c { ch with run := some { r with acked := true } } else s
  | none => s

/-! ### Completion (R361 to R364) -/


/-- The pieces of a transfer whose destination meets a failing 64-byte block (R428). -/
def dmaHits (d : List Byte) (bad : List Nat) : Nat → Nat → List (Nat × Nat)
  | 0, _ => []
  | n + 1, k =>
    if k < descTotal d then
      let a := descDstAt d k
      let m := min (64 - a % 64) (descRow d - k % descRow d)
      let rest := dmaHits d bad n (k + m)
      if bad.contains (a / 64 * 64) then (k, m) :: rest else rest
    else []

/-- DONE: the CODE and what the status reports (R361, R363).  `badWr` names the 64-byte destination blocks whose write the
controller reported as failed, `wrFirst` whether one of them failed before the first read that failed, `flushOk` whether the flushing read
of FENCE came back good. -/
def State.dmaDone (s : State) (c : Nat) (badWr : List Nat) (wrFirst flushOk : Bool) : State :=
  match (s.dmaAt c).run with
  | none => s
  | some r =>
    let d := r.desc
    let s := if r.flush = some true then { s with flying := s.flying.erase ((descDstAt d (descTotal d - 1)) / 4 * 4, 4) } else s
    let hits := if badWr.isEmpty || descFlag d 5 then [] else dmaHits d badWr (descTotal d) 0
    let marked := hits.foldl markAdd r.marked
    let code := if wrFirst && !hits.isEmpty then 3 else r.firstErr.getD 3
    let flushBad := descFlag d 1 && toWindow d && !(flushOk && r.flush == some true)
    let crcOut := if descFlag d 2 then r.crc ^^^ 0xFFFFFFFF else 0
    let statusBad := badWr.contains ((r.addr + 60) / 64 * 64)
    if !marked.isEmpty then s.dmaEnd c code 0 (markedLeast marked) (markedLen marked) 0 statusBad none
    else if flushBad then s.dmaEnd c 3 0 0 (descTotal d) 0 statusBad none
    else if descFlag d 4 && crcOut != fieldAt d 48 4 then s.dmaEnd c 1 0 0 0 crcOut statusBad none
    else s.dmaEnd c 0 0 0 0 crcOut statusBad none

/-- Whether FENCE still waits: for the controller's acknowledgements, or for the flushing read to be issued (R361). -/
def DmaRun.fenced (r : DmaRun) : Bool :=
  descFlag r.desc 1 && !descFlag r.desc 5 && (if toWindow r.desc then r.flush.isNone else !r.acked)

def State.dmaDoneDue (s : State) (c : Nat) : Bool :=
  s.engUp && match (s.dmaAt c).run with
  | some r => r.moved && r.aborting.isNone && !r.fenced
  | none => false

def execDmaDone (now : Nat) (c : Fin 32) (badWr : WriteErrs) (flushOk : Bool) (s : State) : Out :=
  .next ((s.tick now).when (s.dmaDoneDue c.val) fun s => s.dmaDone c.val badWr.bad badWr.first flushOk)

/-! ### Abort and parking (R365 to R367) -/

/-- Whether an aborted descriptor still waits: for reads through a window, or with FENCE for the acknowledgement of what it wrote to local
DDR5 (R365). -/
def DmaRun.abortHeld (r : DmaRun) : Bool :=
  (r.out.any fun k => (windowOf (descSrcAt r.desc k)).isSome) ||
  descFlag r.desc 1 && !descFlag r.desc 5 && !toWindow r.desc && decide (0 < r.written) && !r.acked

/-- A control read issued in this very instant is not made: the abort stops the channel before it (R366). -/
def State.dmaTakeBack (s : State) (c : Nat) : State :=
  let ch := s.dmaAt c
  if ch.wantAt = s.dtime then
    match ch.want with
    | .link => (s.busRetract (s.dmaLastAt c + 40) 8).setWant c .none
    | .entry => (s.busRetract (s.dmaCur c) 64).setWant c .none
    | .none => s
  else s

/-- ABORT (R365): a running descriptor waits for its reads, and a control read through a window is waited for too; everything else stops
at once. -/
def State.dmaAbort (s : State) (c detail cause : Nat) (statBad : Bool) : State :=
  if (s.dmState c = 0 ∨ s.dmState c = 4) ∧ (s.dmaAt c).seeking = false then s
  else
    let s := s.dmaTakeBack c
    let ch := s.dmaAt c
    match ch.run with
    | some r =>
      let r := { r with out := r.out.filter fun k => !s.qHolds (s.dmQueue c) c k, got := [], aborting := some detail }
      let s := (s.qWithdraw (s.dmQueue c) c).setDmaAt c { s.dmaAt c with run := some r }
      if r.waiting || r.out.isEmpty && !r.abortHeld then s.dmaKill c detail cause statBad
      else (s.put (DM_CTRL c) DM_CTRL_ABORT 1).issueReads 129
    | none =>
      let at_ := if ch.want = .link then s.dmaLastAt c + 40 else s.dmaCur c
      if ch.want ≠ .none ∧ (windowOf at_).isSome = true then s.put (DM_CTRL c) DM_CTRL_ABORT 1 else s.dmaKill c detail cause statBad

def State.abortDue (s : State) (c : Nat) : Bool :=
  match (s.dmaAt c).run with
  | some r => r.aborting.isSome && !r.abortHeld
  | none => false

def State.abortFinish (s : State) (c : Nat) (statBad : Bool) : State :=
  match (s.dmaAt c).run with
  | some r =>
    let detail := r.aborting.getD 1
    s.dmaKill c detail (if detail = 2 then 4 else 3) statBad
  | none => s

def execDmaAbortComplete (now : Nat) (c : AbortEnd) (s : State) : Out :=
  .next ((s.tick now).when (s.abortDue c.c.val) fun s => s.abortFinish c.c.val c.statBad)

/-- A write of DM_CTRL: START and ABORT together are ABORT alone (R365). -/
def State.dmCtrl (s : State) (c : Nat) (w : Word) (statBad : Bool) : State :=
  if getField w DM_CTRL_ABORT = 1 then s.dmaAbort c 1 3 statBad
  else if getField w DM_CTRL_START = 1 then s.dmaStart c
  else s

def execDmaStart (now : Nat) (src : Src) (c : Fin 32) (value : Nat) (s : State) : Out :=
  .next ((s.tick now).guarded src (DM_CTRL c.val) value fun s w => s.dmCtrl c.val w false).1

def execDmaAbort (now : Nat) (src : Src) (c : Fin 32) (value : AbortWrite) (s : State) : Out :=
  .next ((s.tick now).guarded src (DM_CTRL c.val) value.value fun s w => s.dmCtrl c.val w value.statBad).1

/-- A doorbell (R356): PEND is set, and a parked channel re-reads. -/
def State.dmRing (s : State) (c : Nat) : State :=
  let s := s.put (DM_STAT c) DM_STAT_PEND 1
  if s.dmState c = 3 ∧ (s.dmaAt c).seeking = false ∧ s.park.step = 0 ∧ s.engUp = true then s.dmaReread c else s

def State.dmDb (s : State) (src : Src) (c : Nat) (w : Word) : State :=
  if getField w DM_DB_RING = 1 then s.bell src (DM_DB c) w.toNat fun s => s.dmRing c else s

def execDmaDoorbell (now : Nat) (src : Src) (c : Fin 32) (value : Nat) (s : State) : Out :=
  .next ((s.tick now).guarded src (DM_DB c.val) value fun s w => s.dmDb src c.val w).1

/-- Parking step 3: running and waiting descriptors end ABORTED with DETAIL 2 and their channels stop (R367). -/
def State.dmaParkAll (s : State) : State :=
  (List.range 32).foldl (fun s c =>
    if s.dmState c = 1 ∨ s.dmState c = 2 then s.dmaKill c 2 4 false
    else s.setDmaAt c { s.dmaAt c with want := .none, stalled := false }) s

/-- Reset of the DMA/blit island (R543): accepted descriptors end ABORTED with DETAIL 3, their status and event waiting. -/
def State.dmaIslandReset (s : State) : State :=
  (List.range 32).foldl (fun s c =>
    let ch := s.dmaAt c
    match ch.run with
    | some r =>
      let p : PendStat := { addr := r.addr, bytes := descStatus r.desc 4 3 0 (descTotal r.desc) 0, count := 0 }
      let s := (s.setDmaAt c { ch with run := none, chain := none, pendStat := some p, stalled := false }).qWithdraw (s.dmQueue c) c
      let s := (s.dmaForget c).put (DM_CTRL c) DM_CTRL_ABORT 0
      let s := (s.put (DM_STAT c) DM_STAT_ERR 1).bump (DM_ERR_CNT c) DM_ERR_CNT_COUNT 1
      let s := s.setLast c r.addr
      s.dmaStop c 4 5
    | none => s) s

/-- Channels whose control read the reset cut off issue it again after the release (R16, R542). -/
def State.dmaAgain (s : State) : State :=
  (List.range 32).foldl (fun s c =>
    match (s.dmaAt c).want with
    | .entry => s.readDesc c
    | .link => s.readNext c
    | .none => s) { s with flying := (List.range 32).foldl (fun l c =>
      (l.erase (s.dmaCur c, 64)).erase (s.dmaLastAt c + 40, 8)) s.flying }

/-- The write-backs of R543 whose port is ready are made, with their reserved events. -/
def State.dmaFlush (s : State) : State :=
  (List.range 32).foldl (fun s c =>
    let ch := s.dmaAt c
    match ch.pendStat with
    | none => s
    | some p =>
      match s.dmaStatus p.addr p.bytes with
      | (s', true) =>
        (s'.setDmaAt c { ch with pendStat := none }).settleEvent 3 c 0x30 true
          (s'.dmaPayload c p.addr 4 3 (fieldAt p.bytes 56 4))
      | (_, false) => s) s

end Sys2Proof.Machine
end

