-- ==== Sys2Proof/Machine/Blit.lean ====
section
/-!
DEFINITION. The blit engine (R371 to R392): job rings and doorbells, acceptance and its checks, the movement of pixels in each
channel's order, watermarks, the fixed row schedule of BL6 and BL7, completion, errors, aborts and parking.
-/

namespace Sys2Proof.Machine

/-! ### The ring (R372, R373) -/

def State.blState (s : State) (c : Nat) : Nat := s.get (BL_STAT c) BL_STAT_STATE
def State.setBlState (s : State) (c st : Nat) : State := s.put (BL_STAT c) BL_STAT_STATE st
def State.blCons (s : State) (c : Nat) : Nat := s.get (BL_CONS c) BL_CONS_CONS
def State.blitOwner (s : State) (c : Nat) : Option Nat := s.ownerOf 4 c
def State.blLog2 (s : State) (c : Nat) : Nat := s.get (BL_CFG c) BL_CFG_LOG2
def State.blBase (s : State) (c : Nat) : Nat := s.get (BL_RING_LO c) BL_RING_LO_BASE * 4096 + s.get (BL_RING_HI c) BL_RING_HI_BASE * 2 ^ 32

/-- The HPA of the job at BL_CONS. -/
def State.jobAddr (s : State) (c : Nat) : Nat := s.blBase c + s.blCons c % 2 ^ s.blLog2 c * 64

/-- Payload of the channel's events (R391). -/
def State.blitPayload (s : State) (c count code detail tag unwritten : Nat) : List Byte :=
  leBytes 2 count ++ [BitVec.ofNat 8 code, BitVec.ofNat 8 detail] ++ leBytes 2 (s.get (BL_WMARK c) BL_WMARK_ROWS) ++
    leBytes 2 (s.get (BL_WMARK c) BL_WMARK_EDGE_Y) ++ leBytes 4 tag ++ leBytes 4 unwritten

/-- Entry to HALTED: BLIT_STATE is posted, with the count, TAG and UNWRITTEN of the job at which the channel halts; with none, the count of
the next job. -/
def State.blitHalt (s : State) (c cause : Nat) (job : Option (Nat × Nat × Nat)) : State :=
  let s := { s.setBlitAt c { s.blitAt c with reading := false, overrun := false } with flying := s.flying.erase (s.jobAddr c, 64) }
  let s := (s.setBlState c 4).put (BL_STAT c) BL_STAT_CAUSE cause
  let x := job.getD (s.blCons c, 0, 0)
  s.post 4 c 0x3A 0 (s.blitPayload c x.1 4 cause x.2.1 x.2.2)

/-- Whether the job at BL_CONS may be read: the ring stands as R372 says and within the owner's reach. -/
def State.blitRingOk (s : State) (c owner : Nat) : Bool :=
  let l := s.blLog2 c
  s.reaches owner .control (s.jobAddr c) 64 && decide (4 ≤ l) && decide (l ≤ 10) && s.blBase c % (64 * 2 ^ l) == 0

def State.blitOverrun (s : State) (c prod : Nat) : Bool := decide (2 ^ s.blLog2 c < (prod + 65536 - s.blCons c) % 65536)

/-- An idle channel reads its next job when its event can be reserved (R377), or halts on an overrun (R269, R373) or at a job that it cannot
read (R388). -/
def State.blitNext (s : State) (c : Nat) : State :=
  let ch := s.blitAt c
  match s.blitOwner c with
  | none => s
  | some owner =>
    if s.blState c == 1 && !ch.reading && s.park.step == 0 && ch.prod != s.blCons c then
      if s.blitOverrun c ch.prod then s.blitHalt c 5 none
      else if !s.blitRingOk c owner then s.blitHalt c 2 none
      else if s.canReserve 4 c then (s.setBlitAt c { ch with reading := true }).unitIssue (s.jobAddr c) 64 .besteffort
      else s
    else s

/-- Channels that waited for an entry of a backlog go on once one can be reserved (R362, R377). -/
def State.engResume (s : State) : State := if s.engUp then (List.range 8).foldl State.blitNext s.dmaResume else s

/-- A doorbell (R269, R373).  An overrun halts the channel, but an accepted job ends first, since a halted channel has none (R388;
assumption 123).  While the hub parks a doorbell is only held (R390). -/
def State.blitRing (s : State) (c : Nat) (w : Word) : State :=
  let prod := getField w BL_DB_PROD
  match s.blitOwner c with
  | none => s
  | some owner =>
    if owner < 4 ∧ getField w BL_DB_EPOCH ≠ s.get (HP_EPOCH owner) HP_EPOCH_EPOCH then
      (s.put (BL_STAT c) BL_STAT_STALE 1).bump (BL_STAT c) BL_STAT_DROP_CNT 1
    else
      let ch := s.blitAt c
      if sdiff 16 prod ch.prod < 0 then s
      else if s.park.step == 0 && s.blitOverrun c prod && (s.blState c == 1 || s.blState c == 2 || s.blState c == 3) then
        if ch.run.isSome then s.setBlitAt c { ch with overrun := true } else s.blitHalt c 5 none
      else (s.setBlitAt c { ch with prod := prod }).blitNext c

/-- A write of BL_DB: the register takes the value, the doorbell waits for earlier writes (R133). -/
def State.blDb (s : State) (src : Src) (c : Nat) (w : Word) : State :=
  (s.wr (BL_DB c) w).bell src (BL_DB c) w.toNat fun s => s.blitRing c w

def execBlitDoorbell (now : Nat) (src : Src) (c : Fin 8) (value : Nat) (s : State) : Out :=
  .next ((s.tick now).guarded src (BL_DB c.val) value fun s w => s.blDb src c.val w).1

/-! ### Transforms (R375) -/

/-- Where the unit at (i, j) of the source rectangle goes (R375). -/
def Plane.target (p : Plane) (x i j : Nat) : Nat × Nat :=
  match x with
  | 0 => (i, j)
  | 1 => (p.w - 1 - i, j)
  | 2 => (i, p.h - 1 - j)
  | 3 => (p.w - 1 - i, p.h - 1 - j)
  | 4 => (p.h - 1 - j, i)
  | _ => (j, p.w - 1 - i)

/-- The source unit that the destination unit (u, v) takes: the inverse of the table of R375. -/
def Plane.origin (p : Plane) (x u v : Nat) : Nat × Nat :=
  match x with
  | 0 => (u, v)
  | 1 => (p.w - 1 - u, v)
  | 2 => (u, p.h - 1 - v)
  | 3 => (p.w - 1 - u, p.h - 1 - v)
  | 4 => (v, p.h - 1 - u)
  | _ => (p.w - 1 - v, u)

def sameSurface (a b : SurfEntry) : Bool :=
  a.base == b.base && a.aux0 == b.aux0 && a.pitch == b.pitch && a.auxPitch == b.auxPitch && a.format == b.format

/-! ### Acceptance (R377, R378) -/

/-- Bytes of FILL that the format uses (R374, R376). -/
def fillBytes (f : Nat) : Nat := if fmtYuvPacked f then 4 else fmtBpp f

/-- Whether the format allows the operation (R376). -/
def blitFormatOk (f op x : Nat) : Bool :=
  if fmtPacked f || f == 0x09 then true
  else if fmtYuvPacked f then op == 2 || decide (x ≤ 3)
  else if fmtPlanar f then op == 1 && (x == 0 || x == 4 || x == 5)
  else false

def jobFlagsOk (c : Nat) (j : List Byte) (dst : SurfEntry) (dstLive : Bool) : Bool :=
  (jobOp j == 1 || jobOp j == 2) && decide (jobXform j ≤ 5) && decide (fieldAt j 2 2 < 16) && decide (fieldAt j 32 2 < 4096) &&
  fieldAt j 38 2 == 0 && fieldAt j 44 4 == 0 &&
  (if jobFill j then
     jobXform j == 0 && jobSrc j == noHandle && jobSx j == 0 && jobSy j == 0 &&
     (!dstLive || decide (fieldAt j 24 8 < 2 ^ (8 * fillBytes dst.format)) || fillBytes dst.format == 0)
   else fieldAt j 24 8 == 0) &&
  (decide (6 ≤ c) || (!jobFlag j 1 && !jobFlag j 2)) &&
  (if jobFlag j 3 then decide (1 ≤ jobStep j) && decide (jobStep j ≤ 16384) else jobStep j == 0)

def jobGeometryOk (j : List Byte) (src dst : SurfEntry) : Bool :=
  decide (1 ≤ jobW j) && decide (jobW j ≤ 16384) && decide (1 ≤ jobH j) && decide (jobH j ≤ 16384) &&
  (jobFill j || (decide (jobSx j + jobW j ≤ src.width) && decide (jobSy j + jobH j ≤ src.height))) &&
  decide (jobDx j + jobDw j ≤ dst.width) && decide (jobDy j + jobDh j ≤ dst.height)

/-- R379. -/
def jobAlignOk (j : List Byte) (src dst : SurfEntry) : Bool :=
  let f := dst.format
  let ev (n : Nat) := n % 2 == 0
  src.base % 64 == 0 && src.aux0 % 64 == 0 && dst.base % 64 == 0 && dst.aux0 % 64 == 0 &&
  (!fmtYuvPacked f || (ev (jobSx j) && ev (jobDx j) && ev (jobW j))) &&
  (!fmtPlanar f || (ev (jobSx j) && ev (jobSy j) && ev (jobDx j) && ev (jobDy j) && ev (jobW j) && ev (jobH j))) &&
  (!jobTurned j || ([jobSx j, jobSy j, jobDx j, jobDy j, jobW j, jobH j].all fun n => n % 16 == 0))

/-- The refusing check of a job, none when it passes (R378). -/
def State.jobRefusal (s : State) (c owner : Nat) (j : List Byte) : Option Nat :=
  let dst := s.entryAt (handleIndex (jobDst j))
  let src := if jobFill j then dst else s.entryAt (handleIndex (jobSrc j))
  let ac := s.assetCopy
  let inAsset (e : SurfEntry) := e.planes.any fun p => overlaps p.1 p.2 ac.1 ac.2
  if !jobFlagsOk c j dst (handleLive (jobDst j) dst) then some 1
  else if !handleLive (jobDst j) dst || (!jobFill j && (!handleLive (jobSrc j) src || s.assetHeld src)) then some 2
  else if (decide (owner < 4) && (dst.owner != owner || (!jobFill j && src.owner != owner && !src.pub))) || inAsset dst then some 3
  else if !(dst.residency == 0 && decide (regionOf dst.base = .ddr) && src.residency == 0 && decide (regionOf src.base = .ddr) &&
      src.format == dst.format && blitFormatOk dst.format (jobOp j) (jobXform j)) then some 4
  else if !jobGeometryOk j src dst then some 5
  else if !jobAlignOk j src dst then some 6
  else if jobXform j != 0 && jobOverlaps j src dst then some 7
  else if decide (c < 6) && jobXform j == 0 && jobOverlaps j src dst && !sameSurface src dst then some 8
  else if s.triggerOk owner (jobKind j) (jobUnit j) (jobArg j) none (some c) then none
  else some 9

/-! ### Completion (R384, R387) -/

/-- Destination row of the n-th complete row counted from the starting edge. -/
def BlitRun.edgeOf (r : BlitRun) (down : Bool) (n : Nat) : Nat :=
  if down then jobDy r.job + n - 1 else jobDy r.job + jobDh r.job - n

/-- Destination rows whole in every plane after the steps done (R385). -/
def BlitRun.rowsWhole (r : BlitRun) : Nat :=
  let b := jobBand r.job
  match r.planes with
  | [_] => min (r.steps * b) (jobDh r.job)
  | l :: _ => min ((r.steps - l.steps r.job) * b * 2) (jobDh r.job)
  | [] => 0

def BlitRun.unwritten (r : BlitRun) (rows : Nat) : Nat :=
  jobDw r.job * (jobDh r.job - rows) + r.unwr.length

/-- ERR_ROW: the least destination row with a pixel left unwritten by a failure. -/
def BlitRun.errRow (r : BlitRun) : Nat := (r.unwr.map fun p => jobDy r.job + p.2).foldl min 0xFFFFFFFF

def jobStatus (j : List Byte) (code detail rows errRow unwritten : Nat) : List Byte :=
  putBytes j 48 (leBytes 4 rows ++ leBytes 4 errRow ++ leBytes 4 unwritten ++ leBytes 4 (code + 256 * detail))

def State.blitStatus (s : State) (a : Nat) (j : List Byte) : State × Bool :=
  let (s, ok1) := s.unitWrite (a + 48) (bytesAt j 48 12)
  let (s, ok2) := s.unitWrite (a + 60) (bytesAt j 60 4)
  (s, ok1 && ok2)

/-- The state of a channel with no job: IDLE, or OFF when EN was cleared meanwhile. -/
def State.blitRest (s : State) (c : Nat) : State := s.setBlState c (if s.on (BL_CTRL c) BL_CTRL_EN then 1 else 0)

/-- A job ends (R384): count, status, BL_CONS, event; then the next job, or HALTED. -/
def State.blitEnd (s : State) (c code detail rows errRow unwritten : Nat) (statusOk : Bool) (stop : Option Nat) : State :=
  let ch := s.blitAt c
  match ch.run with
  | none => s
  | some r =>
    let s := (s.setBlitAt c { ch with run := none, lastEnd := some s.dtime, reading := false }).qWithdraw (s.blQueue c) (32 + c)
    let cont := s.on (BL_CFG c) BL_CFG_ONERR
    let counted := decide (code = 0) || (cont && decide (code ≠ 4))
    let s := if code = 0 then s else (s.put (BL_STAT c) BL_STAT_ERR 1).bump (BL_ERR_CNT c) BL_ERR_CNT_COUNT 1
    let s := if counted then s.bumpMod (BL_DONE_CNT c) BL_DONE_CNT_COUNT 1 else s
    let (s, sent) := s.blitStatus r.addr (jobStatus r.job code detail rows errRow unwritten)
    let s := s.bumpMod (BL_CONS c) BL_CONS_CONS 1
    let s := s.settleEvent 4 c 0x38 (jobFlag r.job 0 || decide (code ≠ 0))
      (s.blitPayload c r.count code detail (jobTag r.job) unwritten)
    let s := if counted then s.trigger 5 c 0 else s
    let job := some (r.count, jobTag r.job, unwritten)
    if !(sent && statusOk) then s.blitHalt c 2 job
    else
      match stop with
      | some cause => s.blitHalt c cause job
      | none =>
        if decide (code ≠ 0) && !cont then s.blitHalt c 1 job
        else if ch.overrun then s.blitHalt c 5 none
        else (s.blitRest c).blitNext c

/-- Two undefined bytes: EDGE_Y while no row is complete. -/
def State.drawHalf (s : State) : Nat × State :=
  let (a, s) := s.drawFree
  let (b, s) := s.drawFree
  (leNat [a, b], s)

def State.blitAccept (s : State) (c owner : Nat) (j : List Byte) (statBad : Bool) : State :=
  let dst := s.entryAt (handleIndex (jobDst j))
  let src := if jobFill j then dst else s.entryAt (handleIndex (jobSrc j))
  let refusal := s.jobRefusal c owner j
  let r : BlitRun :=
    { addr := s.jobAddr c, job := j, count := s.blCons c, src := src, dst := dst,
      srcIdx := if jobFill j then none else some (handleIndex (jobSrc j)), dstIdx := handleIndex (jobDst j),
      waiting := true, trigd := jobKind j == 0, started := none, steps := 0, unwr := [], firstErr := none, band := 0, slotEnd := 0,
      slipped := false }
  let s := s.setBlitAt c { s.blitAt c with reading := false, run := some r }
  let (edge, s) := s.drawHalf
  let s := (s.put (BL_WMARK c) BL_WMARK_ROWS 0).put (BL_WMARK c) BL_WMARK_EDGE_Y edge
  match refusal with
  | some detail => s.blitEnd c 5 detail 0 0xFFFFFFFF (jobDw j * jobDh j) (!statBad) none
  | none =>
    let s := (match r.srcIdx with
      | some i => s.markUse i
      | none => s).markUse r.dstIdx
    let s := s.setBlState c 2
    if jobKind j = 0 || s.trigNow (jobKind j) (jobUnit j) (jobArg j) then s.blitTrigger c else s

/-- A job read returns (R377, R388).  `statBad`: the DDR5 controller reports the write of a refused job's status as failed. -/
def State.blitJob (s : State) (c : Nat) (res : ReadRes) (host : List Byte) (statBad : Bool) : State :=
  match s.blitOwner c, s.busRead (s.jobAddr c) 64 res host with
  | none, _ => s
  | some _, (s, none) => s.blitHalt c 2 none
  | some owner, (s, some j) =>
    match s.reserve (s.readersOf 4 c) with
    | some s => s.blitAccept c owner j statBad
    | none => s.setBlitAt c { s.blitAt c with reading := false }

def execBlitJobRead (now : Nat) (c : Fin 8) (res : EntryRes) (host : List Byte) (s : State) : Out :=
  .next ((s.tick now).when ((s.blitAt c.val).reading && s.park.step == 0 && s.engUp) fun s => s.blitJob c.val res.read host res.statBad)

/-- A triggered job starts when the dead time ends (R381). -/
def State.deadDue (s : State) (c : Nat) : Bool :=
  s.engUp && s.deadOver c && match (s.blitAt c).run with
  | some r => r.waiting && r.trigd
  | none => false

def execBlitDeadTimeEnd (now : Nat) (c : Fin 8) (s : State) : Out :=
  .next ((s.tick now).when ((s.tick now).deadDue c.val) fun s => s.blitBegin c.val)

/-! ### Pixels (R375, R382, R383, R387) -/

/-- The Y samples of a pair change places under HMIRROR and TURN180. -/
def swapPair (f : Nat) (b : List Byte) : List Byte :=
  if f = 0x12 then [b.getD 2 0, b.getD 1 0, b.getD 0 0, b.getD 3 0] else [b.getD 0 0, b.getD 3 0, b.getD 2 0, b.getD 1 0]

def moveBytes (f x : Nat) (b : List Byte) : List Byte := if fmtYuvPacked f && (x == 1 || x == 3) then swapPair f b else b

/-- The destination pixels (column, row of the rectangle) that unit (u, v) of plane k holds. -/
def unitPixels (f k u v : Nat) : List (Nat × Nat) :=
  if k = 1 then [(2 * u, 2 * v), (2 * u + 1, 2 * v), (2 * u, 2 * v + 1), (2 * u + 1, 2 * v + 1)]
  else if fmtYuvPacked f then [(2 * u, v), (2 * u + 1, v)]
  else [(u, v)]

def blocksHit (bad : List Nat) (a n : Nat) : Bool := bad.any fun b => overlaps b 64 a n

/-- The pixels of a unit are left unwritten by a failure of a CODE (R387). -/
def BlitRun.miss (r : BlitRun) (f k v code u : Nat) : BlitRun :=
  { r with
    firstErr := some (r.firstErr.getD code)
    unwr := (unitPixels f k u v).foldl (fun l x => if l.contains x then l else x :: l) r.unwr }

/-- Move one unit: read its source, write its destination (R383), or leave its pixels unwritten (R387). -/
def State.moveUnit (s : State) (badRd badWr : List Nat) (k : Nat) (p : Plane) (v : Nat) (acc : BlitRun) (u : Nat) : State × BlitRun :=
  let j := acc.job
  let f := acc.dst.format
  let at_ := p.dstAt u v
  let o := p.origin (jobXform j) u v
  let from_ := p.srcAt o.1 o.2
  if !jobFill j && (blocksHit badRd from_ p.u || !s.memGood from_ p.u) then (s, acc.miss f k v 2 u)
  else if blocksHit badWr at_ p.u then (s.wrFree at_ p.u, acc.miss f k v 3 u)
  else if !s.serves at_ p.u then (s, acc.miss f k v 3 u)
  else
    let bs := if jobFill j then bytesAt j 24 p.u else moveBytes f (jobXform j) (s.rdBytes from_ p.u)
    (s.wrBytes at_ bs, acc)

/-- The poisoned blocks that a row has written to: one that the row covers whole is good again, a part of one leaves it bad and that part's
write fails (R433). -/
def State.rowPoison (s : State) (k : Nat) (p : Plane) (acc : BlitRun) (v : Nat) : State × BlitRun :=
  let f := acc.dst.format
  let a := p.dstAt 0 v
  let us := List.range (p.dw (jobXform acc.job))
  let n := us.length * p.u
  let hit (b u : Nat) : Bool := overlaps b 64 (p.dstAt u v) p.u
  let whole (b : Nat) : Bool := decide (a ≤ b) && decide (b + 64 ≤ a + n) &&
    us.all fun u => !hit b u || (unitPixels f k u v).all fun x => !acc.unwr.contains x
  let part := s.poison.filter fun b => overlaps b 64 a n && !whole b
  let acc := (us.filter fun u => part.any fun b => hit b u).foldl (fun r u => r.miss f k v 3 u) acc
  ({ s with poison := s.poison.filter fun b => !whole b }, acc)

/-- One destination row of a plane, unit by unit. -/
def State.moveRow (s : State) (badRd badWr : List Nat) (k : Nat) (p : Plane) (right : Bool) (acc : BlitRun) (v : Nat) : State × BlitRun :=
  let us := List.range (p.dw (jobXform acc.job))
  let x := (if right then us.reverse else us).foldl (fun x u => x.1.moveUnit badRd badWr k p v x.2 u) (s, acc)
  if x.1.poison.isEmpty then x else x.1.rowPoison k p x.2 v

/-- Step n of a plane: the rows of its band. -/
def State.moveBand (s : State) (badRd badWr : List Nat) (k : Nat) (p : Plane) (down right : Bool) (acc : BlitRun) (n : Nat) : State × BlitRun :=
  let b := jobBand acc.job
  let dh := p.dh (jobXform acc.job)
  let rows := ((List.range b).map (· + n * b)).filter fun v => decide (v < dh)
  (rows.map fun v => if down then v else dh - 1 - v).foldl (fun x v => x.1.moveRow badRd badWr k p right x.2 v) (s, acc)

/-! ### Watermarks (R385) -/

/-- ROWS reaches `n` rows one after the other, with a BLIT_WMARK at each multiple of WM_STEP but the final value. -/
def State.wmAdvance (s : State) (c : Nat) (r : BlitRun) (down : Bool) : Nat → State
  | 0 => s
  | n + 1 =>
    let rows := s.get (BL_WMARK c) BL_WMARK_ROWS + 1
    let s := (s.put (BL_WMARK c) BL_WMARK_ROWS rows).put (BL_WMARK c) BL_WMARK_EDGE_Y (r.edgeOf down rows)
    let s := if jobFlag r.job 3 && rows % jobStep r.job == 0 && decide (rows < jobDh r.job) then
        s.post 4 c 0x39 0 (s.blitPayload c r.count 0 0 (jobTag r.job) r.unwr.length)
      else s
    s.wmAdvance c r down n

def State.wmShow (s : State) (c : Nat) (r : BlitRun) : State :=
  s.wmAdvance c r (r.topDown c) (r.rowsWhole - s.get (BL_WMARK c) BL_WMARK_ROWS)

/-- The running band has not completed at its slot end: it slips (R386). -/
def State.bandSlip (s : State) (c : Nat) (r : BlitRun) : State :=
  ((s.setBlitAt c { s.blitAt c with run := some { r with slipped := true } }).put (BL_STAT c) BL_STAT_SLIP 1).bump (BL_SLIP_CNT c)
    BL_SLIP_CNT_COUNT 1

/-- On BL6 and BL7 a band whose slot end has passed before it completed has slipped, whether or not its slot end was seen. -/
def State.bandLate (s : State) (c : Nat) : State :=
  match (s.blitAt c).run with
  | some r => if decide (6 ≤ c) && !r.slipped && decide (r.slotEnd < s.dtime) then s.bandSlip c r else s
  | none => s

/-- A step completes: its pixels are moved; on BL0 to BL5 the next step is asked for and the watermark follows at once, on BL6 and BL7 at the
slot end, or at once after a slip (R386). -/
def State.blitStep (s : State) (c : Nat) (badRd badWr : List Nat) : State :=
  let s := s.bandLate c
  let ch := s.blitAt c
  match ch.run with
  | none => s
  | some r =>
    match stepPlane r.job r.planes 0 r.steps with
    | none => s
    | some (k, p, n) =>
      let (s, r) := s.moveBand badRd badWr k p (r.topDown c) (r.rightFirst c) r n
      let r := { r with steps := r.steps + 1 }
      if c < 6 then ((s.setBlitAt c { ch with run := some r }).wmShow c r).blitAsk c r.steps
      else if r.slipped then
        let more := decide (r.steps < r.total)
        let r := { r with slipped := false, band := r.band + 1, slotEnd := s.dtime + if more then s.slotNs c r.job else 0 }
        ((s.setBlitAt c { ch with run := some r }).wmShow c r).blitAsk c r.band
      else s.setBlitAt c { ch with run := some r }

/-- A step may complete when the job runs, its reads have left their queue and, on BL6 and BL7, its band has been issued. -/
def State.stepDue (s : State) (c : Nat) : Bool :=
  s.engUp && match (s.blitAt c).run with
  | some r => !r.waiting && decide (r.steps < r.total) && (decide (c < 6) || decide (r.steps ≤ r.band)) &&
      !s.qHolds (s.blQueue c) (32 + c) r.steps
  | none => false

def execBlitRowComplete (now : Nat) (c : Fin 8) (badReads badWr : List Nat) (s : State) : Out :=
  .next ((s.tick now).when (s.stepDue c.val) fun s => s.blitStep c.val badReads badWr)

/-- A slot end on BL6 or BL7 (R386): the next band is issued, or this band has slipped. -/
def State.bandSlot (s : State) (c : Nat) : State :=
  let ch := s.blitAt c
  match ch.run with
  | none => s
  | some r =>
    if r.band < r.steps then
      let r := { r with band := r.band + 1, slotEnd := r.slotEnd + if r.steps < r.total then s.slotNs c r.job else 0 }
      ((s.setBlitAt c { ch with run := some r }).wmShow c r).blitAsk c r.band
    else s.bandSlip c r

def State.slotDue (s : State) (c : Nat) : Bool :=
  s.engUp && decide (6 ≤ c) && match (s.blitAt c).run with
  | some r => !r.waiting && !r.slipped && decide (r.slotEnd ≤ s.dtime) && decide (r.band < r.total)
  | none => false

def execBlitBandSlot (now : Nat) (c : Fin 8) (s : State) : Out :=
  .next ((s.tick now).when ((s.tick now).slotDue c.val) fun s => s.bandSlot c.val)

/-- DONE (R384, R387). -/
def State.blitDone (s : State) (c : Nat) (statusOk : Bool) : State :=
  match (s.blitAt c).run with
  | none => s
  | some r =>
    let s := s.wmShow c r
    let rows := s.get (BL_WMARK c) BL_WMARK_ROWS
    s.blitEnd c (r.firstErr.getD 0) 0 rows r.errRow r.unwr.length statusOk none

def State.blitDoneDue (s : State) (c : Nat) : Bool :=
  s.engUp && match (s.blitAt c).run with
  | some r => !r.waiting && r.steps == r.total && (decide (c < 6) || decide (r.slotEnd ≤ s.dtime))
  | none => false

def execBlitDone (now : Nat) (c : Fin 8) (statusOk : Bool) (s : State) : Out :=
  .next ((s.tick now).when ((s.tick now).blitDoneDue c.val) fun s => s.blitDone c.val statusOk)

/-! ### Enable, abort, parking, island reset (R388 to R390, R543) -/

/-- The pixels beyond ROWS_DONE become undefined (R389). -/
def State.blurRows (s : State) (r : BlitRun) (down : Bool) (rows : Nat) : State :=
  if r.waiting then s
  else
    r.planes.foldl (fun s p =>
      let x := jobXform r.job
      let dh := p.dh x
      let keep := if r.planes.length = 2 && dh != jobDh r.job then rows / 2 else rows
      ((List.range dh).filter fun v => decide (keep ≤ if down then v else dh - 1 - v)).foldl
        (fun s v => s.wrFree (p.dstAt 0 v) (p.dw x * p.u)) s) s

def State.blitKill (s : State) (c detail cause : Nat) (statBad : Bool) : State :=
  match (s.blitAt c).run with
  | none => s.blitHalt c cause none
  | some r =>
    let down := r.topDown c
    let rows := s.get (BL_WMARK c) BL_WMARK_ROWS
    let s := s.blurRows r down rows
    let first := if down then jobDy r.job + rows else jobDy r.job
    let lost := r.unwr.filter fun p => decide ((if down then p.2 else jobDh r.job - 1 - p.2) < rows)
    let errRow := if rows < jobDh r.job then min first r.errRow else r.errRow
    s.blitEnd c 4 detail rows errRow (jobDw r.job * (jobDh r.job - rows) + lost.length) (!statBad) (some cause)

/-- ABORT (R389): nothing happens in OFF and HALTED. -/
def State.blitAbort (s : State) (c : Nat) (statBad : Bool) : State :=
  if s.blState c = 0 ∨ s.blState c = 4 then s else s.blitKill c 1 3 statBad

/-- EN (R371, R388): 1 after 0 takes a granted channel to IDLE; 0 takes a channel without a job to OFF. -/
def State.blitEnable (s : State) (c : Nat) (en : Bool) : State :=
  let was := s.on (BL_CTRL c) BL_CTRL_EN
  let st := s.blState c
  let s := s.put (BL_CTRL c) BL_CTRL_EN (b2n en)
  if en && !was && st == 0 && (s.blitOwner c).isSome then (s.setBlState c 1).blitNext c
  else if !en && (st == 1 || st == 4) then (s.setBlitAt c { s.blitAt c with reading := false }).setBlState c 0
  else s

def State.blCtrl (s : State) (c : Nat) (w : Word) (statBad : Bool) : State :=
  let s := s.blitEnable c (getField w BL_CTRL_EN == 1)
  if getField w BL_CTRL_ABORT = 1 then s.blitAbort c statBad else s

def execBlitEnable (now : Nat) (src : Src) (c : Fin 8) (value : Nat) (s : State) : Out :=
  .next ((s.tick now).guarded src (BL_CTRL c.val) value fun s w => s.blCtrl c.val w false).1

def execBlitAbort (now : Nat) (src : Src) (c : Fin 8) (value : AbortWrite) (s : State) : Out :=
  .next ((s.tick now).guarded src (BL_CTRL c.val) value.value fun s w => s.blCtrl c.val w value.statBad).1

/-- Parking step 3 (R390). -/
def State.blitParkAll (s : State) : State :=
  (List.range 8).foldl (fun s c => if (s.blitAt c).run.isSome then s.blitKill c 2 4 false else s) s

/-- Reset of the DMA/blit island (R543). -/
def State.blitIslandReset (s : State) : State :=
  (List.range 8).foldl (fun s c =>
    let ch := s.blitAt c
    match ch.run with
    | some r =>
      let whole := jobDw r.job * jobDh r.job
      let s := s.blurRows r (r.topDown c) 0
      let p : PendStat := { addr := r.addr, bytes := jobStatus r.job 4 3 0 (jobDy r.job) whole, count := r.count }
      let s := s.setBlitAt c { ch with run := none, reading := false, lastEnd := some s.dtime, pendStat := some p }
      let s := s.qWithdraw (s.blQueue c) (32 + c)
      let s := (s.put (BL_STAT c) BL_STAT_ERR 1).bump (BL_ERR_CNT c) BL_ERR_CNT_COUNT 1
      (s.bumpMod (BL_CONS c) BL_CONS_CONS 1).blitHalt c 6 (some (r.count, jobTag r.job, whole))
    | none => s) s

/-- Channels whose job read the reset cut off read the job again after the release (R16, R542). -/
def State.blitAgain (s : State) : State :=
  (List.range 8).foldl (fun s c =>
    if (s.blitAt c).reading then
      ({ s.setBlitAt c { s.blitAt c with reading := false } with flying := s.flying.erase (s.jobAddr c, 64) }).blitNext c
    else s) s

def State.blitFlush (s : State) : State :=
  (List.range 8).foldl (fun s c =>
    let ch := s.blitAt c
    match ch.pendStat with
    | none => s
    | some p =>
      match s.blitStatus p.addr p.bytes with
      | (s', true) =>
        (s'.setBlitAt c { ch with pendStat := none }).settleEvent 4 c 0x38 true
          (s'.blitPayload c p.count 4 3 (jobTag p.bytes) (fieldAt p.bytes 56 4))
      | (_, false) => s) s

end Sys2Proof.Machine
end

