-- ==== Sys2Proof/Machine/HostPort.lean ====
section
/-!
DEFINITION. The host ports: event rings and MSI-X (R297 to R307), link state, configuration space and port resets (R304, R452 to
R458, R561).
-/

namespace Sys2Proof.Machine

/-! ### Event records (R297, R298, R513) -/

/-- The bytes of a record: 32, or the 16 of version 1 under COMPAT. -/
def Event.bytes (e : Event) (compat : Bool) : List Byte :=
  let head := leBytes 2 e.source ++ leBytes 2 e.seq ++ [BitVec.ofNat 8 e.type, BitVec.ofNat 8 e.flags] ++ leBytes 2 e.epoch
  if compat then head ++ leBytes 4 (e.dtime / 2 ^ 10) ++ bytesAt e.payload 0 4
  else head ++ leBytes 8 e.dtime ++ bytesAt e.payload 0 16

def State.evRecord (s : State) : Nat := if s.power.compat then 16 else 32

def State.evLog2 (s : State) (p : Nat) : Nat := s.get (HP_EV_CTRL p) HP_EV_CTRL_LOG2

def State.evBase (s : State) (p : Nat) : Nat :=
  s.get (HP_EV_BASE_LO p) HP_EV_BASE_LO_BASE * 4096 + s.get (HP_EV_BASE_HI p) HP_EV_BASE_HI_BASE * 2 ^ 32

def State.evWb (s : State) (p : Nat) : Nat :=
  s.get (HP_EV_WB_LO p) HP_EV_WB_LO_WB * 8 + s.get (HP_EV_WB_HI p) HP_EV_WB_HI_WB * 2 ^ 32

/-- Records written and not yet consumed. -/
def State.evUsed (s : State) (p : Nat) : Nat := (s.rdN (HP_EV_PROD p) + 2 ^ 32 - s.rdN (HP_EV_CONS p)) % 2 ^ 32

/-- Write records from the head of the backlog while the ring has room and the window takes them.  A record that cannot be sent stays at
the head; it sets ERR, and nothing is counted. -/
def State.evWrite (s : State) (p : Nat) : Nat → State
  | 0 => s
  | n + 1 =>
    match (s.evAt p).backlog with
    | [] => s
    | e :: rest =>
      if s.evUsed p < 2 ^ s.evLog2 p then
        match s.hwWrite p (s.evBase p + s.rdN (HP_EV_PROD p) % 2 ^ s.evLog2 p * s.evRecord) (e.bytes s.power.compat) with
        | none => s.put (HP_HW_STAT p) HP_HW_STAT_ERR 1
        | some s =>
          let s := s.hubCharge (10 + p) s.evRecord
          let q := s.evAt p
          let s := (s.setEvAt p { q with backlog := rest, uncov := e.source :: q.uncov }).bumpMod (HP_EV_PROD p) HP_EV_PROD_PROD 1
          s.evWrite p n
      else s

/-! ### MSI-X (R306, R307) -/

def vecKey (p v : Nat) : Nat := 64 * p + v

def State.vecMasked (s : State) (p v : Nat) : Bool := s.on (MSIX_CTRL p v) MSIX_CTRL_MASK || (s.portAt p).mmask

def State.msixOn (s : State) (p : Nat) : Bool :=
  s.linkUp p && s.on (HP_LINK p) HP_LINK_MSIX && s.on (HP_LINK p) HP_LINK_BME && !s.on (HP_LINK p) HP_LINK_D3

def pendFld (v : Nat) : Fld := ⟨v % 32, 1⟩

/-- Send the message of a vector, or set its pending bit while it is masked; sending clears the count (R307). -/
def State.vecSend (s : State) (p v : Nat) : State :=
  if s.msixOn p then
    let s := s.setVecAt (vecKey p v) ⟨0, 0⟩
    if s.vecMasked p v then s.put (MSIX_PBA p (v / 32)) (pendFld v) 1
    else s.toHost p (.msix v (s.rdN (MSIX_ADDR_LO p v) + s.rdN (MSIX_ADDR_HI p v) * 2 ^ 32) (s.rdN (MSIX_DATA p v)))
  else s

/-- An event of a source written to the ring signals its class's vector. -/
def State.vecEvent (s : State) (p source : Nat) : State :=
  let c := source / 256 % 16
  if s.on (EV_MAP p c) EV_MAP_EN then
    let v := s.get (EV_MAP p c) EV_MAP_VECTOR
    let x := s.vecAt (vecKey p v)
    let n := x.count + 1
    let s := s.setVecAt (vecKey p v) ⟨n, if x.count = 0 then s.dtime else x.since⟩
    if max 1 (s.get (EV_MOD p v) EV_MOD_COUNT) ≤ n ∨ s.get (EV_MOD p v) EV_MOD_HOLDOFF_US = 0 then s.vecSend p v else s
  else s

/-- Pending vectors that are no longer masked are sent. -/
def State.msixUnmask (s : State) (p : Nat) : State :=
  (List.range 64).foldl (fun s v =>
    if s.on (MSIX_PBA p (v / 32)) (pendFld v) && !s.vecMasked p v && s.msixOn p then
      (s.put (MSIX_PBA p (v / 32)) (pendFld v) 0).vecSend p v
    else s) s

def State.holdoffDue (s : State) (p v : Nat) : Bool :=
  let x := s.vecAt (vecKey p v)
  decide (0 < x.count) && decide (x.since + s.get (EV_MOD p v) EV_MOD_HOLDOFF_US * 1000 ≤ s.dtime)

def execMsixHoldoffExpiry (now : Nat) (p : Fin 4) (v : Fin 64) (s : State) : Out :=
  .next ((s.tick now).when ((s.tick now).holdoffDue p.val v.val) fun s => s.vecSend p.val v.val)

/-- The write-back of 8 bytes after records, and then the messages of every record that it covers (R306); one that cannot be sent covers
none. -/
def State.evCover (s : State) (p : Nat) : State :=
  let wb := leBytes 4 (s.rdN (HP_EV_PROD p)) ++ leBytes 2 (s.get (HP_EPOCH p) HP_EPOCH_EPOCH) ++ zeros 2
  match s.hwWrite p (s.evWb p) wb with
  | some s =>
    let q := s.evAt p
    q.uncov.reverse.foldl (fun s src => s.vecEvent p src) ((s.setEvAt p { q with uncov := [] }).hubCharge (10 + p) 8)
  | none => s.hwError p

/-- Records, then the write-back and the messages (R297, R306); freed entries let EV_LOST and work that waited for one go on (R301,
R362). -/
def State.evFlush (s : State) (p : Nat) : State :=
  let n := (s.evAt p).backlog.length
  let s := s.evWrite p n
  if (s.evAt p).backlog.length < n then ((s.evCover p).postLost p).engResume else s

def State.evReady (s : State) (p : Nat) : Bool :=
  s.on (HP_EV_CTRL p) HP_EV_CTRL_EN && !(s.evAt p).backlog.isEmpty && s.islUp (islHost p)

/-- A write of HP_EV_CTRL (R297, R309): LOG2 holds while EN is 1; EN takes effect only with LOG2 from 6 to 16. -/
def State.evCtrl (s : State) (p : Nat) (w : Word) : State :=
  let en := getField w HP_EV_CTRL_EN == 1
  let s := if s.on (HP_EV_CTRL p) HP_EV_CTRL_EN then s else s.put (HP_EV_CTRL p) HP_EV_CTRL_LOG2 (getField w HP_EV_CTRL_LOG2)
  let l := s.evLog2 p
  if en && (decide (l < 6) || decide (16 < l)) then
    (s.put (HP_EV_CTRL p) HP_EV_CTRL_EN 0).put (HP_EV_STAT p) HP_EV_STAT_CFG_BAD 1
  else s.put (HP_EV_CTRL p) HP_EV_CTRL_EN (b2n en)

def execEvEnable (now : Nat) (src : Src) (p : Fin 4) (value : Nat) (s : State) : Out :=
  .next ((s.tick now).guarded src (HP_EV_CTRL p.val) value fun s w => s.evCtrl p.val w).1

/-! ### Port resets (R304, R458) -/

/-- HOST_LINK (R458). -/
def State.postHostLink (s : State) (p state cause speed width : Nat) : State :=
  s.postOwn p 6 p 0x61 ([state, cause, speed, width].map (fun n => BitVec.ofNat 8 n) ++ leBytes 2 (s.get (HP_EPOCH p) HP_EPOCH_EPOCH) ++ zeros 10)

/-- Configuration space at its defaults: no Bus Master Enable, no memory space, no MSI-X, BARs unset, BAR2 at its largest size. -/
def State.cfgDefaults (s : State) (p : Nat) : State :=
  let q := s.portAt p
  let s := s.setPortAt p { q with mse := false, mmask := false, bar0 := 0, bar2 := 0, barLog2 := none }
  let s := (s.put (HP_LINK p) HP_LINK_BME 0).put (HP_LINK p) HP_LINK_MSIX 0
  let s := s.put (HP_LINK p) HP_LINK_D3 0
  s.put (HP_BAR2_SIZE p) HP_BAR2_SIZE_HOSTLOG2 (s.getUse (HP_BAR2_SIZE p) HP_BAR2_SIZE_LOG2)

/-- The BAR2 mapping that the installer set comes into force (R131). -/
def State.bar2Latch (s : State) (p : Nat) : State :=
  [HP_BAR2_BASE_LO p, HP_BAR2_BASE_HI p, HP_BAR2_SIZE p].foldl (fun s a => s.wrUse a (s.rd a)) s

/-- A ring is disabled; no descriptor read of it is under way between commands (R304). -/
def State.ringDrop (s : State) (p r : Nat) : State := s.put (HP_CR_CTRL p r) HP_CR_CTRL_EN 0

def rstBit (cause : Nat) : Fld :=
  if cause = 1 then HP_RST_STAT_LINKDOWN else if cause = 2 then HP_RST_STAT_HOTRST else HP_RST_STAT_FLR

/-- The MSI-X table and pending bits as the PCI Express Base Specification resets them: every vector masked, the rest 0 (R310). -/
def State.msixDefaults (s : State) (p : Nat) : State :=
  let s := (List.range 64).foldl (fun s v =>
    (((s.wrN (MSIX_ADDR_LO p v) 0).wrN (MSIX_ADDR_HI p v) 0).wrN (MSIX_DATA p v) 0).put (MSIX_CTRL p v) MSIX_CTRL_MASK 1) s
  (s.wrN (MSIX_PBA p 0) 0).wrN (MSIX_PBA p 1) 0

/-- Reads of the port under way are over: window reads whose completions are lost, and its own register reads that waited. -/
def State.portDrop (s : State) (p : Nat) : State :=
  let s := s.dropFlying p
  { s with hostReads := s.hostReads.filter fun r => r.1 != p }

/-- A port reset (R304): 1 link-down, 2 hot reset, 3 function-level reset.  Only a link-down takes the data link down
(assumption 114). -/
def State.portReset (s : State) (p cause : Nat) : State :=
  let s := s.bumpMod (HP_EPOCH p) HP_EPOCH_EPOCH 1
  let s := (s.put (HP_RST_STAT p) (rstBit cause) 1).bump (HP_RST_CNT p) HP_RST_CNT_COUNT 1
  let s := if cause ≠ 1 then s else
    ((s.put (HP_LINK p) HP_LINK_UP 0).put (HP_LINK p) HP_LINK_SPEED 0).put (HP_LINK p) HP_LINK_WIDTH 0
  let s := s.postHostLink p 0 cause 0 0
  let s := (List.range 8).foldl (fun s r => s.ringDrop p r) s
  let s := s.put (HP_EV_CTRL p) HP_EV_CTRL_EN 0
  let s := (((s.bar2Latch p).cfgDefaults p).msixDefaults p).portDrop p
  (s.setPortAt p { s.portAt p with rstAt := some s.dtime }).polPortReset p

/-- Whether the port runs: its island is up, PERSTn_N high and the hub awake. -/
def State.portUp (s : State) (p : Nat) : Bool :=
  s.islUp (islHost p) && !s.power.perst.contains p && s.boot.applied && (decide (s.power.state = .waking) || decide (s.power.state = .lit))

def execHostLinkDown (now : Nat) (p : Fin 4) (s : State) : Out :=
  .next ((s.tick now).when (s.portUp p.val && s.linkUp p.val) fun s => s.portReset p.val 1)

def execHotReset (now : Nat) (p : Fin 4) (s : State) : Out :=
  .next ((s.tick now).when (s.portUp p.val && s.linkUp p.val) fun s => s.portReset p.val 2)

def execFunctionLevelReset (now : Nat) (p : Fin 4) (s : State) : Out :=
  .next ((s.tick now).when (s.portUp p.val && s.linkUp p.val) fun s => s.portReset p.val 3)

/-- The link comes up at a speed and width that the port negotiated, at most MAXSPEED (R452, R458). -/
def State.hostLinkUp (s : State) (p speed width : Nat) : State :=
  let top := s.get (HP_CFG p) HP_CFG_MAXSPEED
  let sp := min speed top
  let low := decide (sp < top) || decide (width < 8)
  let s := ((s.put (HP_LINK p) HP_LINK_UP 1).put (HP_LINK p) HP_LINK_SPEED sp).put (HP_LINK p) HP_LINK_WIDTH width
  let s := if low then s.put (HP_RST_STAT p) HP_RST_STAT_DEGRADE 1 else s
  s.postHostLink p 1 (if low then 4 else 0) sp width

def execHostLinkUp (now : Nat) (p : Fin 4) (speed width : Nat) (s : State) : Out :=
  .next ((s.tick now).when (s.portUp p.val && !s.linkUp p.val && decide (1 ≤ speed) && decide (speed ≤ 5) && [1, 2, 4, 8].contains width)
    fun s => s.hostLinkUp p.val speed width)

def execHostD3hot (now : Nat) (p : Fin 4) (enter : Bool) (s : State) : Out :=
  .next ((s.tick now).when (s.portUp p.val && s.linkUp p.val) fun s => s.put (HP_LINK p.val) HP_LINK_D3 (b2n enter))

/-! ### Configuration requests (R43, R452 to R454) -/

/-- The dwords of the Type 0 header that the spec gives; the rest of configuration space is open. -/
def State.cfgRead (s : State) (p o : Nat) : List Byte × State :=
  let q := s.portAt p
  let l := match q.barLog2 with
    | some l => l
    | none => s.getUse (HP_BAR2_SIZE p) HP_BAR2_SIZE_LOG2
  if o = 0 then (leBytes 2 0x1F6C ++ leBytes 2 0x9680, s)
  else if o = 8 then ([0x02, 0x00, 0x80, 0x03], s)
  else if o = 0x10 then (leBytes 4 (q.bar0 + 4), s)
  else if o = 0x14 then (leBytes 4 (q.bar0 / 2 ^ 32), s)
  else if o = 0x18 then (leBytes 4 (if l = 0 then 0 else q.bar2 / 2 ^ l * 2 ^ l + 12), s)
  else if o = 0x1C then (leBytes 4 (if l = 0 then 0 else q.bar2 / 2 ^ l * 2 ^ l / 2 ^ 32), s)
  else if o = 0x20 ∨ o = 0x24 ∨ o = 0x30 then (zeros 4, s)
  else if o = 0x2C then (leBytes 4 (s.rdN (HP_SUBSYS p)), s)
  else
    let (a, s) := s.drawHalf
    let (b, s) := s.drawHalf
    (leBytes 2 a ++ leBytes 2 b, s)

/-- What a configuration request does after readiness. -/
def State.cfgReq (s : State) (p : Nat) (req : CfgReq) : State :=
  let q := s.portAt p
  match req with
  | .read o => let (bs, s) := s.cfgRead p o; s.toHost p (.completion bs false)
  | .busMaster on =>
    let s := s.put (HP_LINK p) HP_LINK_BME (b2n on)
    if on && s.engUp then s.dmaFlush.blitFlush.msixUnmask p else s
  | .memSpace on => s.setPortAt p { q with mse := on }
  | .msix enable mask => ((s.setPortAt p { q with mmask := mask }).put (HP_LINK p) HP_LINK_MSIX (b2n enable)).msixUnmask p
  | .bar k addr =>
    if k = 0 then s.setPortAt p { q with bar0 := addr / 2 ^ 26 * 2 ^ 26 }
    else if k = 2 then s.setPortAt p { q with bar2 := addr }
    else s
  | .barSize l =>
    let top := s.getUse (HP_BAR2_SIZE p) HP_BAR2_SIZE_LOG2
    if 20 ≤ l ∧ l ≤ top then (s.setPortAt p { q with barLog2 := some l }).put (HP_BAR2_SIZE p) HP_BAR2_SIZE_HOSTLOG2 l else s

/-- Before hub readiness every request is answered with Retry Status (R43). -/
def execConfigurationRequest (now : Nat) (p : Fin 4) (req : CfgReq) (s : State) : Out :=
  .next ((s.tick now).when (s.portUp p.val && s.linkUp p.val) fun s =>
    if s.on SY_BOOT_STAT SY_BOOT_STAT_READY then s.cfgReq p.val req else s.toHost p.val .retry)

end Sys2Proof.Machine
end

