-- ==== Sys2Proof/Machine/Flash.lean ====
section
/-!
DEFINITION. The boot flash bus (R65 to R67, R475, R500): XS commands, who may start them, and their ends.
-/

namespace Sys2Proof.Machine

/-- Base and bytes of a slot's image area on its device (R65): slot A or B. -/
def slotArea (slot : Nat) : Nat × Nat := if slot % 2 = 0 then (0, 0x1FFF000) else (0x2000000, 0x1EFF000)

/-- The areas that the hub alone writes: both snapshots and the ledger (R65, R500). -/
def hubArea : Nat × Nat := (0x3F00000, 0x100000)

/-- The bytes a command reaches: a program its bytes, an erase its sector. -/
def xsSpan (op addr len : Nat) : Nat × Nat := if op = 3 then (addr / 4096 * 4096, 4096) else (addr, len)

/-- Whether the arguments are good (R475): a known OP, a device that is present, 1 to 256 bytes, a program within one page. -/
def State.xsArgsOk (s : State) (op cs len addr : Nat) : Bool :=
  decide (1 ≤ op) && decide (op ≤ 3) && (cs == 0 || s.on XS_STAT XS_STAT_FLASH1) &&
  (op == 3 || (decide (1 ≤ len) && decide (len ≤ 256))) && (op != 2 || decide (addr % 256 + len ≤ 256)) &&
  (op != 1 || decide (addr + len ≤ 0x4000000))

/-- Whether the supervisor may start a program or an erase (R500): an open session with IMAGE, or no installer lock yet. -/
def State.xsRight (s : State) : Bool := !s.locked || (s.sessionOpen && bit (s.get GH_SES_STAT GH_SES_STAT_RIGHTS) 6)

/-- Refused under R67 or R500: while WAKING or parking, in the area the hub runs from, or in the hub's own areas. -/
def State.xsRefused (s : State) (op cs addr len : Nat) : Bool :=
  let sp := xsSpan op addr len
  let noImage := decide (s.boot.phase = .noImage)
  let busy := (decide (s.power.state = .waking) || s.park.step != 0) && !noImage
  let run := slotArea s.locket.slot
  op != 1 &&
  (busy || overlaps sp.1 sp.2 hubArea.1 hubArea.2 ||
   (decide (s.boot.phase = .loaded) && cs == s.locket.slot / 2 && overlaps sp.1 sp.2 run.1 run.2))

/-- The role of an XS program or erase (R487): the installer's session, or before installer lock a provisioning act. -/
def State.xsRole (s : State) : Nat := if s.sessionOpen || !s.locked then roleInstaller else roleOperator

/-- End a command at once with a CODE. -/
def State.xsCode (s : State) (code : Nat) : State := (s.put XS_STAT XS_STAT_CODE code).put XS_STAT XS_STAT_BUSY 0

def State.xsBegin (s : State) (op cs len addr : Nat) (data : List Byte) : State :=
  { s.put XS_STAT XS_STAT_BUSY 1 with xs := some { op := op, cs := cs, len := len, addr := addr, data := data, at_ := s.dtime } }

/-- A write of XS_CMD that may be made: bad arguments, a refusal of R67, or the start of the command, with the ledger entry that a
program or erase needs first (R509). -/
def State.xsCmd (s : State) (w : Word) : State × RStat :=
  let op := getField w XS_CMD_OP
  let cs := getField w XS_CMD_CS
  let len := getField w XS_CMD_LEN
  let s := s.wr XS_CMD w
  let addr := s.rdN XS_ADDR
  let data := (wordsBytes s (XS_BUF 0) 64).take len
  if !s.xsArgsOk op cs len addr then (s.xsCode 4, .ok)
  else if s.xsRefused op cs addr len then
    let s := (s.put GH_STAT GH_STAT_LOCK_VIOL 1).ledgerRefusal s.xsRole 4 0x22 addr [] (if op = 2 then data else [])
    (s.xsCode 1, .ok)
  else if op = 1 then (s.xsBegin op cs len addr [], .ok)
  else
    let old := if op = 2 then s.rdFlashN cs addr len else []
    match s.ledgerAdd s.xsRole 4 (if op = 2 then 0x20 else 0x21) addr old (if op = 2 then data else []) 0 with
    | none => ((s.put GH_STAT GH_STAT_LEDGER_FULL 1).bump GH_SV_DENY_CNT GH_SV_DENY_CNT_COUNT 1, .denied)
    | some s =>
      let ch := s.gate.session.changed || s.sessionOpen
      let s := { s with gate := { s.gate with session := { s.gate.session with changed := ch } } }
      (s.xsBegin op cs len addr data, .ok)

/-- A write of XS_CMD (R500): the supervisor's program or erase without the right is denied and entered; the rest follows the
ordinary checks. -/
def State.xsWrite (s : State) (src : Src) (value : Nat) : State × RStat :=
  let op := getField (BitVec.ofNat 32 value) XS_CMD_OP
  if src = .sup ∧ s.svUp = true ∧ (op = 2 ∨ op = 3) ∧ s.xsRight = false then
    let s := s.bump GH_SV_DENY_CNT GH_SV_DENY_CNT_COUNT 1
    let len := getField (BitVec.ofNat 32 value) XS_CMD_LEN
    (s.ledgerRefusal s.xsRole 4 0x22 (s.rdN XS_ADDR) [] (if op = 2 then (wordsBytes s (XS_BUF 0) 64).take len else []), .denied)
  else
    match decideWrite noAdm s src XS_CMD value with
    | .inl r => r
    | .inr (s, w, _) => s.xsCmd w

def execXsRead (now : Nat) (src : Src) (value : Nat) (s : State) : Out := .next ((s.tick now).xsWrite src value).1
def execXsProgram (now : Nat) (src : Src) (value : Nat) (s : State) : Out := .next ((s.tick now).xsWrite src value).1
def execXsErase (now : Nat) (src : Src) (value : Nat) (s : State) : Out := .next ((s.tick now).xsWrite src value).1

/-- n bytes of a device whose command failed read as anything. -/
def State.freeFlash (s : State) (dev a : Nat) : Nat → State
  | 0 => s
  | n + 1 => let (b, s) := s.drawFree; (s.wrFlash dev a b).freeFlash dev (a + 1) n

/-- n bytes of anything. -/
def State.drawBytes (s : State) : Nat → List Byte × State
  | 0 => ([], s)
  | n + 1 =>
    let x := s.drawFree
    let r := x.2.drawBytes n
    (x.1 :: r.1, r.2)

/-- The bytes that a read brings into the buffer: what stands in the device, or anything after a device error. -/
def State.xsReadBytes (s : State) (j : XsJob) (devErr : Bool) : List Byte × State :=
  if devErr then s.drawBytes j.len else (s.rdFlashN j.cs j.addr j.len, s)

/-- What a finished command leaves (R475). -/
def State.xsDone (s : State) (devErr : Bool) : State :=
  match s.xs with
  | none => s
  | some j =>
    let sp := xsSpan j.op j.addr j.len
    let s := { s with xs := none }
    let s := if j.op = 1 then
        let r := s.xsReadBytes j devErr
        r.2.putWords (XS_BUF 0) (r.1 ++ (wordsBytes s (XS_BUF 0) 64).drop j.len)
      else if devErr then s.freeFlash j.cs sp.1 sp.2
      else if j.op = 2 then s.progFlash j.cs j.addr j.data
      else s.eraseFlash j.cs sp.1 4096
    s.xsCode (if devErr then 2 else 0)

def execXsCommandDone (now : Nat) (devErr : Bool) (s : State) : Out :=
  .next ((s.tick now).when (s.xs.isSome && s.islUp islXspi) fun s => s.xsDone devErr)

/-- 5 ms for a program, 1 s for an erase (R475). -/
def State.xsLate (s : State) : Bool :=
  match s.xs with
  | some j => (j.op == 2 && decide (j.at_ + 5000000 < s.dtime)) || (j.op == 3 && decide (j.at_ + 1000000000 < s.dtime))
  | none => false

def State.xsTimeout (s : State) : State :=
  match s.xs with
  | none => s
  | some j => let sp := xsSpan j.op j.addr j.len; (({ s with xs := none }).freeFlash j.cs sp.1 sp.2).xsCode 3

def execXsCommandTimeout (now : Nat) (s : State) : Out := .next ((s.tick now).when (s.tick now).xsLate State.xsTimeout)

end Sys2Proof.Machine
end

