-- ==== Sys2Proof/Machine/Power.lean ====
section
/-!
DEFINITION. Power states and their pins (R23 to R29, R53, R54, R60, R557 to R563): what PORST_N, loss of supply and PARKED leave
of the state, wake events, park requests and the beginning of a start.
-/

namespace Sys2Proof.Machine

/-! ### What loss of power leaves -/

/-- Flash content under a program or erase that loses power reads as anything. -/
def State.xsCut (s : State) : State :=
  match s.xs with
  | some j => if j.op = 1 then s else let sp := xsSpan j.op j.addr j.len; s.freeFlash j.cs sp.1 sp.2
  | none => s

/-- Every island but the always-on island without power: of those only what lies in flash, OTP and DRAM remains.  The always-on
island keeps the ledger queue (R509), the count of failed sessions (R498), the times at which each PANEL_EN went low (R120) and the
wake causes (R60); a consent scope stands until the next start ends it (R506). -/
def State.depower (s : State) : State :=
  let s := s.xsCut
  let s' : State := { State.reset with
    pending := s.pending, dtime := s.dtime, free := s.free, mem := s.mem, losses := s.losses, poison := s.poison, flash0 := s.flash0,
    flash1 := s.flash1, otp := s.otp, power := s.power, park := s.park, lastRead := s.lastRead, bells := [],
    sv := { SvPort.reset with hb := s.sv.hb },
    gate := { Gate.reset with
      queue := s.gate.queue, nextSeq := s.gate.nextSeq, link := s.gate.link, scope := s.gate.scope, scopeEnd := s.gate.scopeEnd
      session := { Session.reset with failAt := s.gate.session.failAt } } }
  let s' := (List.range 16).foldl (fun a t => a.setScanAt t { Scan.reset with panel := { Panel.reset with lowAt := (s.scanAt t).panel.lowAt } }) s'
  (s'.wr SY_WAKE_STAT (s.rd SY_WAKE_STAT)).put GH_SES_STAT GH_SES_STAT_FAILS (s.get GH_SES_STAT GH_SES_STAT_FAILS)

/-- PORST_N asserted (R557, R562): the whole hub is reset and no memory content is kept. -/
def State.porst (s : State) : State :=
  let s := s.xsCut
  { State.reset with
    pending := s.pending, dtime := s.dtime, free := s.free, losses := [] :: s.losses, flash0 := s.flash0, flash1 := s.flash1, otp := s.otp,
    lastRead := s.lastRead, sv := { SvPort.reset with hb := s.sv.hb } }

/-! ### Beginning of a start (R37, R61) -/

/-- The always-on clock cycle of a DTIME: 38.4 MHz (R60). -/
def aonCycle (t : Nat) : Nat := t * 384 / 10000

/-- What every start begins with, whatever began it (R501, R506, assumption 116): maker access ends, and GH_LOCK.HARD clears. -/
def State.freshStart (s : State) : State := s.makerEnd.put GH_LOCK GH_LOCK_HARD 0

/-- The hub enters WAKING and waits for its PLLs: `old` is the state it leaves, `cause` as in R28. -/
def State.beginStart (s : State) (old cause : Nat) (warm : Bool) : State :=
  let s := s.freshStart
  let s := { s with
    boot := { Boot.reset with phase := .pll, startAt := s.dtime, cause := cause },
    park := { Park.reset with wakeAt := s.park.wakeAt },
    power := { s.power with state := .waking, porst := false, hold := false, startup := true, faultWas := true, degraded := false } }
  let s := ((s.wrN SY_BOOT_STAT 0).put SY_BOOT_STAT SY_BOOT_STAT_BOOTSEL s.power.bootsel).put SY_BOOT_STAT SY_BOOT_STAT_COMPAT (b2n s.power.compat)
  let s := s.put SY_BOOT_STAT SY_BOOT_STAT_WARM (b2n warm)
  (s.put WT_FAULT WT_FAULT_FAULT 1).postPstate old 2 cause

/-- Milestone n of R39 and R62, in µs after the beginning of the start. -/
def State.mark (s : State) (n : Nat) : State :=
  if s.rdN (SY_BOOT_MARK n) = 0 then s.wrN (SY_BOOT_MARK n) ((s.dtime - s.boot.startAt) / 1000) else s

/-- A cold start: PWR_EN rises (R558). -/
def State.coldStart (s : State) : State :=
  let s := { s with dtime := 0, power := { s.power with pwrEn := true, lostAt := none } }
  (s.put SY_WAKE_STAT SY_WAKE_STAT_COLD 1).beginStart 0 0 false

/-- PORST_N is released: the straps are sampled and DTIME counts from 0 (R17, R29, R37). -/
def execPorstNRelease (now : Nat) (bootsel : Nat) (compat : Bool) (s : State) : Out :=
  .next ((s.tick now).when s.power.porst fun s =>
    ({ s with power := { s.power with bootsel := bootsel % 4, compat := compat } }).coldStart)

/-- A PORST_N low of more than 1 µs (R557). -/
def execPorstNAssert (now : Nat) (width : Nat) (s : State) : Out := .next ((s.tick now).when (decide (1000 < width)) State.porst)

/-! ### Loss of supply (R562) -/

def State.supplied (s : State) : Bool := decide (s.power.state = .lit) || decide (s.power.state = .waking)

def State.supplyLoss (s : State) (low : Nat) : State :=
  let p := s.power
  let s := s.porst
  { s with power := { s.power with porst := false, bootsel := p.bootsel, compat := p.compat, lostAt := some (s.dtime - low) } }

def execSupplyLoss (now : Nat) (low : Nat) (s : State) : Out :=
  .next ((s.tick now).when (s.supplied && s.power.pwrGood && decide (1000 < low)) fun s => s.supplyLoss low)

def State.lossOver (s : State) : Bool :=
  match s.power.lostAt with
  | some t => decide (t + 10000000 ≤ s.dtime)
  | none => false

def execSupplyLossRestart (now : Nat) (s : State) : Out := .next ((s.tick now).when (s.tick now).lossOver State.coldStart)

/-! ### Wake events (R25, R26, R60, R482) -/

/-- PARKED is left for WAKING: PWR_EN rises at once, or when PWR_GOOD has fallen (R563); each port's epoch starts from its stored
value plus 1 (R59). -/
def State.wakeUp (s : State) : State :=
  let s := { s with power := { s.power with pwrEn := !s.power.pwrGood, wakeWait := s.power.pwrGood } }
  let s := allPorts.foldl (fun s p => s.put (HP_EPOCH p) HP_EPOCH_EPOCH (s.power.epochs.getD p 0 + 1)) s
  s.beginStart 1 1 true

/-- The PARK_NOTICE of a discarded request leaves the backlogs that still hold it, and its number is free again. -/
def State.noticeBack (s : State) (at_ : Nat) : State :=
  let notice (e : Event) : Bool := e.source == 0 && e.type == 2 && e.dtime == at_
  let s := allPorts.foldl (fun s p => let q := s.evAt p; s.setEvAt p { q with backlog := q.backlog.filter fun e => !notice e }) s
  s.setSeqAt 0 ((s.seqAt 0 + 65535) % 65536)

/-- A park request held since the present always-on cycle is discarded (R26, R563). -/
def State.heldUndo (s : State) : State :=
  if s.park.held.isSome && aonCycle s.park.heldAt == aonCycle s.dtime then
    ({ s with park := { s.park with held := none } }).put SY_PARK_CTRL SY_PARK_CTRL_REQ 0
  else s

/-- A wake event discards a park request registered in its own always-on cycle: the hub stays in its present state (R26). -/
def State.parkUndo (s : State) : State :=
  let s := s.heldUndo
  match s.undo with
  | some u =>
    if s.park.step ≠ 0 ∧ aonCycle u.at_ = aonCycle s.dtime then
      let s := { s with undo := none, park := { Park.reset with wakeAt := s.park.wakeAt }, gate := u.gate, otp := u.otp }
      let s := u.words.foldl (fun s x => s.wr x.1 x.2) s
      ((s.noticeBack u.at_).put SY_PARK_CTRL SY_PARK_CTRL_PARKING 0).put SY_PARK_CTRL SY_PARK_CTRL_REQ 0
    else s
  | none => s

/-- A wake event, with its bit of SY_WAKE_STAT. -/
def State.wakeEvent (s : State) (f : Fld) : State :=
  let s := s.parkUndo
  let s := { s with park := { s.park with wakeAt := some s.dtime } }
  if s.power.state = .parked then (s.put SY_WAKE_STAT f 1).wakeUp
  else if s.park.step ≠ 0 then
    ({ s with park := { s.park with wake := true } }).put SY_WAKE_STAT f 1 |>.put SY_WAKE_STAT SY_WAKE_STAT_INPARK 1
  else s

def execWakePin (now : Nat) (cycles : Nat) (s : State) : Out :=
  .next ((s.tick now).when (decide (4 ≤ cycles)) fun s => s.wakeEvent SY_WAKE_STAT_PIN)

def execSupervisorWakeLine (now : Nat) (low : Nat) (s : State) : Out :=
  .next ((s.tick now).when (decide (10000 ≤ low) && decide (s.power.state = .parked)) fun s => s.wakeEvent SY_WAKE_STAT_SVWAKE)

/-- PWR_GOOD falls after parking: a wake that waits for it raises PWR_EN (R563). -/
def execPwrGoodFall (now : Nat) (s : State) : Out :=
  .next ((s.tick now).when (!s.power.pwrEn && s.power.pwrGood) fun s =>
    { s with power := { s.power with pwrGood := false, pwrEn := s.power.wakeWait, wakeWait := false } })

/-! ### Parking (R53, R54) -/

/-- PARKED is entered (step 7): the switched islands lose power and FAULT_N is held low; a wake latched meanwhile leaves it at
once (R25), and that exit, not the event, is the instant its start counts from (assumption 117).  `keep` is what memory keeps. -/
def State.enterParked (s : State) (keep : List (Nat × Nat)) : State :=
  let s := (s.lose keep).depower
  let wake := s.park.wake
  let s := { s with
    power := { s.power with state := .parked, hold := true, faultWas := true, degraded := false, pwrEn := false, enFellAt := s.dtime,
                            panelEn := [], blPwm := [] },
    park := { Park.reset with wakeAt := s.park.wakeAt } }
  if wake then s.wakeUp else s

/-- Whether a wake event was registered in the present always-on cycle (R26). -/
def State.wokeNow (s : State) : Bool :=
  match s.park.wakeAt with
  | some t => aonCycle t == aonCycle s.dtime
  | none => false

/-- Whether WARMRST_N was asserted in the present always-on cycle (R563). -/
def State.warmNow (s : State) : Bool :=
  match s.power.warmAt with
  | some t => aonCycle t == aonCycle s.dtime
  | none => false

/-- The registers that the end of a session writes. -/
def sessionWords : List Nat := [GH_SES_STAT, GH_OTP_CNT, GH_CFG_REF, GH_LED_HEAD, GH_LED_STAT, GH_LED_DROP]

/-- Step 1 of R54: PARK_NOTICE, the end of an installer session (R501), and no new work.  The parking goes on at the step named:
without an image there is no drain (R49). -/
def State.parkBegin (s : State) (cause step : Nat) : State :=
  let e := s.dtime + s.get SY_PARK_CTRL SY_PARK_CTRL_DRAIN_MS * 1000000
  let s := { s with undo := some ⟨s.dtime, s.gate, s.otp, sessionWords.map fun a => (a, s.rd a)⟩ }
  let s := s.postAll 0 0 0x02 ([BitVec.ofNat 8 cause, 0, 0, 0] ++ leBytes 8 e ++ zeros 4)
  let s := s.sesClose
  let s := { s with park := { s.park with step := step, drainEnd := e, held := none } }
  (s.put SY_PARK_CTRL SY_PARK_CTRL_PARKING 1).put SY_PARK_CTRL SY_PARK_CTRL_REQ 0

/-- A park request of a cause of R56: acted on in LIT, held in WAKING, carried out without drain or retention in the no-image condition
(R49), whose panels are already going down (R48).  A request held before that condition stays held (assumption 118). -/
def State.parkRequest (s : State) (cause : Nat) : State :=
  if s.wokeNow || s.warmNow then s.put SY_PARK_CTRL SY_PARK_CTRL_REQ 0
  else
    match s.power.state with
    | .lit => if s.park.step = 0 then s.parkBegin cause 2 else s
    | .waking =>
      if s.boot.phase = .noImage then (if s.park.step = 0 then s.parkBegin cause 4 else s)
      else if s.park.held.isSome then s else { s with park := { s.park with held := some cause, heldAt := s.dtime } }
    | _ => s

/-- A write of SY_PARK_CTRL, landed.  REQ written while parking is under way has no effect (R53); it reads 1 until PARKED
(assumption 119). -/
def State.parkCtrl (s : State) (w : Word) : State :=
  let s := s.put SY_PARK_CTRL SY_PARK_CTRL_DRAIN_MS (getField w SY_PARK_CTRL_DRAIN_MS)
  if getField w SY_PARK_CTRL_REQ = 1 then (s.put SY_PARK_CTRL SY_PARK_CTRL_REQ 1).parkRequest 1 else s

def execParkRequest (now : Nat) (src : Src) (value : Nat) (s : State) : Out :=
  .next ((s.tick now).guarded src SY_PARK_CTRL value fun s w => s.parkCtrl w).1

end Sys2Proof.Machine
end

