-- ==== Sys2Proof/Machine/Can.lean ====
section
/-!
DEFINITION. The CAN FD controllers (R469 to R473) and the signal mapper (R325 to R331).
-/

namespace Sys2Proof.Machine

/-! ### The controllers -/

/-- Payload lengths of classical CAN and CAN FD (ISO 11898-1). -/
def canLenOk (f : CanFrame) : Bool :=
  if f.remote then f.data.isEmpty && !f.fd
  else if f.fd then decide (f.data.length ≤ 8) || [12, 16, 20, 24, 32, 48, 64].contains f.data.length
  else decide (f.data.length ≤ 8)

def canFrameOk (f : CanFrame) : Bool := canLenOk f && decide (f.id < 2 ^ (if f.ext then 29 else 11))

def State.canOn (s : State) (n : Nat) : Bool := s.islUp (islCan n) && s.on (CN_CTRL n) CN_CTRL_EN && s.on (CN_STAT n) CN_STAT_ONBUS

/-- A filter register as frames see it: a write takes effect after the frames of its own instant (R472). -/
def State.fltWord (s : State) (a : Nat) : Word :=
  match if s.flts.1 = s.dtime then s.flts.2.find? fun x => x.1 == a else none with
  | some x => BitVec.ofNat 32 x.2
  | none => s.rd a

/-- A filter register is about to be written: what it holds still matches the frames of this instant. -/
def State.fltKeep (s : State) (a : Nat) : State :=
  let old := if s.flts.1 = s.dtime then s.flts.2 else []
  { s with flts := (s.dtime, if old.any fun x => x.1 == a then old else (a, s.rdN a) :: old) }

/-- Whether filter f takes a frame of controller n (R472). -/
def State.fltMatch (s : State) (n : Nat) (fr : CanFrame) (f : Nat) : Bool :=
  let m := if fr.ext then 2 ^ 29 else 2 ^ 11
  let id := s.fltWord (CN_FLT_ID f)
  getField id CN_FLT_ID_EN == 1 && getField id CN_FLT_ID_CTRL == n && getField id CN_FLT_ID_IDE == b2n fr.ext &&
  ((fr.id ^^^ getField id CN_FLT_ID_ID) &&& getField (s.fltWord (CN_FLT_MASK f)) CN_FLT_MASK_MASK) % m == 0

def State.setRec (s : State) (n v : Nat) : State :=
  (s.put (CN_STAT n) CN_STAT_REC v).put (CN_STAT n) CN_STAT_EPASS (b2n (decide (128 ≤ v)))

/-- A receive error: one more, saturating (R473's register; the count's steps are those of ISO 11898-1, assumption 6). -/
def State.recUp (s : State) (n : Nat) : State := s.setRec n (min 255 (s.get (CN_STAT n) CN_STAT_REC + 1))

/-- A frame received without error lowers the count by one; from above 127 it falls to some value from 119 to 127. -/
def State.recDown (s : State) (n : Nat) : State :=
  let v := s.get (CN_STAT n) CN_STAT_REC
  if v = 0 then s
  else if v ≤ 127 then s.setRec n (v - 1)
  else let (b, s) := s.drawFree; s.setRec n (119 + b.toNat % 9)

/-- An error, or a CAN FD frame where none is accepted: the controller stops until 11 recessive bits (R469). -/
def State.canError (s : State) (n : Nat) (kind : CanError) : State :=
  let s := s.bump (CN_ERR_CNT n) CN_ERR_CNT_COUNT 1
  let s := s.setCanAt n { s.canAt n with waiting := true }
  if kind = .protocolException then s else s.recUp n

def execCanErrorDetected (now : Nat) (n : Fin 2) (kind : CanError) (s : State) : Out :=
  .next ((s.tick now).when (s.canOn n.val && !(s.canAt n.val).waiting) fun s => s.canError n.val kind)

def canDepth : Nat := 64

/-- A frame is valid: dropped, or queued for the mapper under its lowest filter (R469, R472, R473). -/
def State.canFrame (s : State) (n : Nat) (fr : CanFrame) : State :=
  if fr.fd && !s.on (CN_CTRL n) CN_CTRL_FDEN then s.canError n .protocolException
  else
    let s := s.recDown n
    if fr.remote then s
    else
      match (List.range 128).find? (s.fltMatch n fr) with
      | none => s
      | some f =>
        let c := s.canAt n
        if c.queue.length < canDepth then
          (s.setCanAt n { c with queue := c.queue ++ [⟨f, s.dtime, fr⟩] }).bump (CN_RX_CNT n) CN_RX_CNT_COUNT 1
        else (s.bump (CN_OVF_CNT n) CN_OVF_CNT_COUNT 1).put (CN_STAT n) CN_STAT_OVF 1

def execCanFrameEnd (now : Nat) (n : Fin 2) (frame : CanFrame) (s : State) : Out :=
  .next ((s.tick now).when (s.canOn n.val && !(s.canAt n.val).waiting && canFrameOk frame) fun s => s.canFrame n.val frame)

/-- Eleven recessive bits: the controller joins, or receives again (R470). -/
def State.canJoin (s : State) (n : Nat) : State :=
  (s.put (CN_STAT n) CN_STAT_ONBUS 1).setCanAt n { s.canAt n with waiting := false }

def execCanBusJoin (now : Nat) (n : Fin 2) (s : State) : Out :=
  .next ((s.tick now).when ((s.canAt n.val).allowed && s.on (CN_CTRL n.val) CN_CTRL_EN && s.islUp (islCan n.val)) fun s => s.canJoin n.val)

/-- A landed write of CN_CTRL: a controller no longer in use leaves the bus. -/
def State.canCtrl (s : State) (n : Nat) : State :=
  if s.on (CN_CTRL n) CN_CTRL_EN then s
  else (s.put (CN_STAT n) CN_STAT_ONBUS 0).setCanAt n { s.canAt n with waiting := false }

/-! ### The group CRC (R328) -/

def crc8Byte (poly crc : Nat) (b : Byte) : Nat :=
  (List.range 8).foldl (fun c _ => if 128 ≤ c then (c * 2 % 256) ^^^ poly else c * 2 % 256) (crc ^^^ b.toNat)

def groupCrc (dataId : Nat) (payload : List Byte) (skip : Nat) : Nat :=
  ((leBytes 2 dataId ++ payload.take skip ++ payload.drop (skip + 1)).foldl (crc8Byte 0x1D) 0xFF) ^^^ 0xFF

/-! ### Fields (R326) -/

def payBit (d : List Byte) (k : Nat) : Nat := (d.getD (k / 8) 0).toNat / 2 ^ (k % 8) % 2

/-- An Intel field: least significant bit first. -/
def intelField (d : List Byte) (start : Nat) : Nat → Nat
  | 0 => 0
  | n + 1 => payBit d start + 2 * intelField d (start + 1) n

/-- A Motorola field: most significant bit first, at the next lower bit, and after bit 0 of a byte at bit 7 of the next. -/
def motorolaField (d : List Byte) : Nat → Nat → Nat → Nat
  | _, acc, 0 => acc
  | k, acc, n + 1 => motorolaField d (if k % 8 = 0 then k + 15 else k - 1) (2 * acc + payBit d k) n

/-- The value of a raw field (R329). -/
def sigValue (g : SigDef) (raw : Nat) : Int :=
  let r : Int := if g.isSigned then signed g.len raw else (raw % 2 ^ g.len : Nat)
  let rnd : Int := if g.shift = 0 then 0 else 2 ^ (g.shift - 1)
  (r * g.mul + rnd) / 2 ^ g.shift + g.add

/-! ### Values and freshness (R329, R330) -/

def State.sigDef (s : State) (i : Nat) : Option SigDef := tget (fun _ => none) s.locket.signals i
def State.sigGroup (s : State) (g : Nat) : Option SigGroup := tget (fun _ => none) s.locket.groups g

/-- The freshness limit of a signal in ns. -/
def State.sigLimit (s : State) (i : Nat) : Nat :=
  match s.sigDef i with
  | some d => match s.sigGroup d.group with
    | some g => g.timeout * 1000000
    | none => 0
  | none => 0

/-- The value a snapshot at instant u sees: the newest stamped earlier than u, when fresh at u (R319, R330). -/
def State.sigSeen (s : State) (i u : Nat) : Option Int :=
  match (s.sigAt i).find? fun p => decide (p.1 < u) with
  | some (t, v) => if u ≤ t + s.sigLimit i then some v else none
  | none => none

/-- Whether signal i is fresh now (R330). -/
def State.sigFresh (s : State) (i : Nat) : Bool :=
  match s.sigAt i with
  | (t, _) :: _ => decide (s.dtime ≤ t + s.sigLimit i)
  | [] => false

/-- Values older than the newest that a snapshot 256 ns back can see are dropped. -/
def trimHist (u : Nat) : SigHistory → SigHistory
  | [] => []
  | p :: ps => if p.1 < u then [p] else p :: trimHist u ps

def State.sigStale (s : State) (i : Nat) : Bool := s.on (SM_STALE (i / 32)) ⟨i % 32, 1⟩
def State.setSigStale (s : State) (i : Nat) (v : Bool) : State := s.put (SM_STALE (i / 32)) ⟨i % 32, 1⟩ (b2n v)

def State.groupSignals (s : State) (g : Nat) : List Nat :=
  (s.locket.signals.filter fun x => match x.2 with
    | some d => d.group == g
    | none => false).map (·.1)

/-- SM_GERR.STALE follows the group's signals; each change posts GROUP_STATE, and a group going stale forgets its counter (R327,
R330). -/
def State.syncGroup (s : State) (g : Nat) : State :=
  let st := (s.groupSignals g).all s.sigStale
  if st = s.on (SM_GERR g) SM_GERR_STALE then s
  else
    let x := s.groupAt g
    let s := s.put (SM_GERR g) SM_GERR_STALE (b2n st)
    let s := s.setGroupAt g { x with invalid := 0, alive := if st then none else x.alive }
    s.post 9 (16 + g) 0x93 0 ([BitVec.ofNat 8 g, BitVec.ofNat 8 (b2n (!st))] ++ leBytes 2 (min x.invalid 65535) ++ zeros 4 ++
      leBytes 4 x.lastOk ++ zeros 4)

/-- A value of signal i stamped t: out of range it is only counted (R329). -/
def State.sigPut (s : State) (i t raw : Nat) : State :=
  match s.sigDef i with
  | none => s
  | some d =>
    let v := sigValue d raw
    if d.min ≤ v ∧ v ≤ d.max then
      let s := s.setSigAt i ((t, v) :: trimHist (s.dtime - 256) (s.sigAt i))
      (s.wrN (SM_VAL i) (toBits 32 v)).setSigStale i (!s.sigFresh i)
    else s.bump SM_RANGE_CNT SM_RANGE_CNT_COUNT 1

/-- Whether a valid arrival for the park signal changed it from another fresh value to its park value (R53). -/
def State.parkEdge (before after : State) : Bool :=
  match after.locket.parkSig with
  | none => false
  | some (i, v) =>
    match before.sigAt i, after.sigAt i with
    | (_, old) :: _, (_, new) :: _ => before.sigFresh i && decide (old ≠ v) && decide (new = v)
    | _, _ => false

/-- Evaluate signals of a group: `raw` gives the field of each (R327, R329), with the park signal's request (R53). -/
def State.arrive (s : State) (g t : Nat) (is : List Nat) (raw : SigDef → Nat) : State :=
  let s' := s.setGroupAt g { s.groupAt g with lastOk := t }
  let s' := is.foldl (fun a i => match a.sigDef i with
    | some d => a.sigPut i t (raw d)
    | none => a) s'
  let s' := s'.syncGroup g
  if s.parkEdge s' then s'.parkRequest 2 else s'

/-! ### Frames (R327) -/

/-- The group a frame of controller n feeds (R472). -/
def State.groupOf (s : State) (n : Nat) (fr : CanFrame) : Option (Nat × SigGroup) :=
  s.locket.groups.findSome? fun x => match x.2 with
    | some g => if g.source == n && g.canId == fr.id + (if fr.ext then 2 ^ 31 else 0) then some (x.1, g) else none
    | none => none

def State.badFrame (s : State) (g : Nat) (f : Fld) : State :=
  (s.bumpSat (SM_GERR g) f 1).setGroupAt g { s.groupAt g with invalid := (s.groupAt g).invalid + 1 }

/-- Steps 1 to 3 of R327, and a valid frame.  DESIGN CHOICE (assumption 136): where CRC_BYTE or ALIVE_BIT lies past the end of a payload, the bits
there are 0. -/
def State.mapFrame (s : State) (d : Delivered) (g : Nat) (grp : SigGroup) : State :=
  let p := d.frame.data
  let c := intelField p grp.aliveBit 4
  if p.length < grp.dlcMin then s.badFrame g SM_GERR_LEN_CNT
  else if grp.crc && (p.getD grp.crcByte 0).toNat != groupCrc grp.dataId p grp.crcByte then s.badFrame g SM_GERR_CRC_CNT
  else
    let bad := grp.alive && match (s.groupAt g).alive with
      | some c0 => let k := (c + 16 - c0) % 16; decide (k < 1) || decide (grp.tol < k)
      | none => false
    let s := if grp.alive then s.setGroupAt g { s.groupAt g with alive := some c } else s
    if bad then s.badFrame g SM_GERR_ALIVE_CNT
    else s.arrive g d.stamp (s.groupSignals g) fun x =>
      if x.motorola then motorolaField p x.start 0 x.len else intelField p x.start x.len

def State.mapNext (s : State) (n : Nat) : State :=
  let c := s.canAt n
  match c.queue with
  | [] => s
  | d :: q =>
    let s := s.setCanAt n { c with queue := q }
    match s.groupOf n d.frame with
    | some (g, grp) => s.mapFrame d g grp
    | none => s

def execSignalGroupFrame (now : Nat) (n : Fin 2) (s : State) : Out :=
  .next ((s.tick now).when (s.islUp islGate && s.islUp (islCan n.val)) fun s => s.mapNext n.val)

/-! ### The supervisor's signals (R331) and staleness (R330) -/

/-- The group of a signal that the supervisor supplies; none for any other signal. -/
def State.svGroup (s : State) (i : Nat) : Option Nat :=
  match s.sigDef i with
  | none => none
  | some d =>
    match s.sigGroup d.group with
    | some g => if g.source = 2 then some d.group else none
    | none => none

/-- A write of SM_SV_SIG lands: an arrival, or a write that is discarded. -/
def State.svSig (s : State) (w : Word) : State :=
  let i := getField w SM_SV_SIG_SIGNAL
  match s.svGroup i with
  | none => s.put SM_SV_STAT SM_SV_STAT_REJECT 1
  | some g => (s.put SM_SV_SIG SM_SV_SIG_SIGNAL i).arrive g s.dtime [i] fun x => s.rdN SM_SV_DATA % 2 ^ x.len

/-- The write is posted (R345): it lands with its group, as POSTED_WRITE_LANDS says. -/
def execSmSvSig (now : Nat) (src : Src) (value : Nat) (s : State) : Out :=
  .next (match decideWrite noAdm (s.tick now) src SM_SV_SIG value with
    | .inl x => x.1
    | .inr (u, w, _) => u.postWrite src SM_SV_SIG w)

/-- A signal whose limit has passed goes stale. -/
def State.sigTimeout (s : State) (i : Nat) : State :=
  if !s.sigStale i && !s.sigFresh i then
    let s := s.setSigStale i true
    match s.sigDef i with
    | some d => s.syncGroup d.group
    | none => s
  else s

def execSignalTimeout (now : Nat) (sig : Fin 512) (s : State) : Out :=
  .next ((s.tick now).when (s.islUp islGate) fun s => s.sigTimeout sig.val)

end Sys2Proof.Machine
end

