-- ==== Sys2Proof/Machine/Timeline.lean ====
section
/-!
DEFINITION. Scan timelines as their registers give them (R98 to R103, R109 to R115, R228, R231): timing, limits, line times,
link payloads, the configuration of layer slots and their blend order.
-/

namespace Sys2Proof.Machine

/-! ### Timing (R98, R234) -/

/-- The timing that a reading g of the registers gives timeline t; a latch line of 0 is VACTIVE (R125). -/
def timingBy (g : Nat → Word) (t : Nat) : TlTiming :=
  let f (a : Nat) (x : Fld) : Nat := getField (g a) x
  let va := f (TL_VTIME t) TL_VTIME_VACTIVE
  let ln := f (TL_LATCH t) TL_LATCH_LINE
  { en := f (TL_CTRL t) TL_CTRL_EN == 1
    htotal := f (TL_HTIME t) TL_HTIME_HTOTAL
    hactive := f (TL_HTIME t) TL_HTIME_HACTIVE
    vtotal := f (TL_VTIME t) TL_VTIME_VTOTAL
    vactive := va
    khz := f (TL_PCLK t) TL_PCLK_KHZ
    genlock := f (TL_CTRL t) TL_CTRL_GENLOCK == 1
    adaptive := f (TL_CTRL t) TL_CTRL_ADAPTIVE == 1
    line := if ln = 0 then va else ln
    tail := f (TL_AS t) TL_AS_TAIL }

def State.timing (s : State) (t : Nat) : TlTiming := timingBy s.rd t

/-- A reading of the registers with some words replaced. -/
def State.rdWith (s : State) (ws : List (Nat × Word)) (a : Nat) : Word :=
  match ws.find? fun w => w.1 == a with
  | some w => w.2
  | none => s.rd a

/-- The registers as they will stand at the next line 0: those of a re-seat that a latch has taken (R106). -/
def State.rdNext (s : State) (t : Nat) (a : Nat) : Word :=
  match (s.scanAt t).reseat with
  | some r => if r.taken then s.rdWith r.words a else s.rd a
  | none => s.rd a

/-- The timing of the present or of the next frame. -/
def State.timingFor (s : State) (t : Nat) (next : Bool) : TlTiming := timingBy (if next then s.rdNext t else s.rd) t

def State.hactive (s : State) (t : Nat) : Nat := s.get (TL_HTIME t) TL_HTIME_HACTIVE
def State.vactive (s : State) (t : Nat) : Nat := s.get (TL_VTIME t) TL_VTIME_VACTIVE
def State.vtotal (s : State) (t : Nat) : Nat := s.get (TL_VTIME t) TL_VTIME_VTOTAL
def State.pos (s : State) (t : Nat) : Nat := s.get (TL_POS t) TL_POS_LINE
def State.frameOf (s : State) (t : Nat) : Nat := s.rdN (TL_FRAME t)

/-- Bits per channel of a timeline (R125). -/
def State.depth (s : State) (t : Nat) : Nat := depthBits (s.get (TL_CTRL t) TL_CTRL_DEPTH)

/-- Whether a timeline uses legacy arithmetic (R217, R218). -/
def State.legacyOf (s : State) (t : Nat) : Bool := s.power.compat || bit (s.rdUse (TL_CTRL t)).toNat TL_CTRL_LEGACY_ARITH.lo

/-- The limits of R98 on one timeline, with R108's exclusion and R115. -/
def limitsBy (g : Nat → Word) (t : Nat) : Bool :=
  let tm := timingBy g t
  let f (a : Nat) (x : Fld) : Nat := getField (g a) x
  let split := f (TL_OUT t) TL_OUT_MODE == 3
  let hs := f (TL_HSYNC t) TL_HSYNC_START
  let hw := f (TL_HSYNC t) TL_HSYNC_WIDTH
  let vs := f (TL_VSYNC t) TL_VSYNC_START
  let vw := f (TL_VSYNC t) TL_VSYNC_WIDTH
  let dsc := f (FN_DSC t) FN_DSC_EN == 1
  let slices := f (FN_DSC t) FN_DSC_SLICES + 1
  let sliceH := f (FN_DSC t) FN_DSC_SLICE_H
  let bpp := f (FN_DSC t) FN_DSC_BPP_X16
  let depth := f (TL_CTRL t) TL_CTRL_DEPTH
  decide (64 ≤ tm.hactive) && decide (tm.hactive ≤ 8192) && tm.hactive % (if split then 4 else 2) == 0 &&
  decide (tm.hactive + 32 ≤ tm.htotal) && decide (tm.htotal ≤ 16384) && (!split || tm.htotal % 2 == 0) &&
  decide (tm.hactive ≤ hs) && decide (1 ≤ hw) && decide (hs + hw ≤ tm.htotal) && (!split || (hs % 2 == 0 && hw % 2 == 0)) &&
  decide (16 ≤ tm.vactive) && decide (tm.vactive ≤ 8192) &&
  decide (tm.vactive + 2 ≤ tm.vtotal) && decide (tm.vtotal ≤ 16384) &&
  (!tm.adaptive || (decide (tm.vactive + tm.tail + 1 ≤ tm.vtotal) && decide (4 ≤ tm.tail) && decide (tm.tail ≤ 64))) &&
  decide (tm.vactive ≤ vs) && decide (1 ≤ vw) && decide (vs + vw ≤ tm.vtotal) &&
  decide (tm.vactive ≤ tm.line) && decide (tm.line ≤ tm.vtotal - 1) &&
  decide (25000 ≤ tm.khz) && decide (tm.khz ≤ 2400000) && decide (depth ≤ 2) && (!dsc || decide (1 ≤ depth)) &&
  !(tm.genlock && tm.adaptive) &&
  (!dsc ||
    (tm.hactive % slices == 0 && decide (tm.khz ≤ 600000 * slices) && decide (8 ≤ sliceH) && tm.vactive % sliceH == 0 &&
     (!split || slices % 2 == 0) && decide (96 ≤ bpp) && decide (bpp < 48 * depthBits depth)))

/-- The sum of pixel clocks of enabled timelines (R98). -/
def clocksBy (g : Nat → Word) : Bool :=
  decide (((List.range 16).map fun t => if (timingBy g t).en then (timingBy g t).khz else 0).foldl (· + ·) 0 ≤ 16000000)

/-! ### Link payload (R114, R568) -/

/-- Lanes of a LANES code. -/
def lanesOf (code : Nat) : Nat := if code = 0 then 1 else if code = 1 then 2 else 4

/-- Lane rate in kb/s of a rate code and whether it is coded 128b/132b (R126). -/
def laneRate (code : Nat) : Nat × Bool :=
  if code < 8 then (([1620, 2160, 2430, 2700, 3240, 4320, 5400, 8100] : List Nat).getD code 0 * 1000, false)
  else if code = 8 then (10000000, true) else if code = 9 then (13500000, true) else if code = 10 then (20000000, true) else (0, false)

/-- Net rate in kb/s of an A-PHY gear under an adaptation layer (R568). -/
def aphyRate (proto gear : Nat) : Nat :=
  let i := if gear = 0 then 5 else gear - 1
  ((if proto = 3 then [1600, 3200, 6400, 9600, 12800] else [1560, 3120, 6240, 9360, 12480] : List Nat).getD i 0) * 1000

/-- Usable payload of a link as an exact fraction (numerator, denominator) in kb/s (R114). -/
def payloadOf (proto lanes rate : Nat) : Nat × Nat :=
  if proto = 3 ∨ proto = 4 then (aphyRate proto rate * 99, 100)
  else
    let r := laneRate rate
    if r.2 then (lanesOf lanes * r.1 * 128 * 99, 132 * 100) else (lanesOf lanes * r.1 * 8 * 99, 10 * 100)

/-- The stream rate of a timeline in kb/s as a fraction; a split half carries half of it. -/
def streamBy (g : Nat → Word) (t : Nat) : Nat × Nat :=
  let khz := (timingBy g t).khz
  let half := if getField (g (TL_OUT t)) TL_OUT_MODE = 3 then 2 else 1
  if getField (g (FN_DSC t)) FN_DSC_EN = 1 then (khz * getField (g (FN_DSC t)) FN_DSC_BPP_X16, 16 * half)
  else (khz * 3 * depthBits (getField (g (TL_CTRL t)) TL_CTRL_DEPTH), half)

/-- The links that a timeline's TL_OUT routes it to (R112). -/
def linksBy (g : Nat → Word) (t : Nat) : List Nat :=
  let m := getField (g (TL_OUT t)) TL_OUT_MODE
  let l0 := getField (g (TL_OUT t)) TL_OUT_LINK0
  if m = 0 then [] else if m = 3 then [l0, getField (g (TL_OUT t)) TL_OUT_LINK1] else [l0]

def State.linksOf (s : State) (t : Nat) : List Nat := linksBy s.rd t

/-- The timelines that a reading of the registers routes to link l. -/
def usersBy (g : Nat → Word) (l : Nat) : List Nat :=
  (List.range 16).filter fun t => (timingBy g t).en && (linksBy g t).contains l

/-- Whether link l carries its streams at a rate and lane count (R114). -/
def carriesBy (g : Nat → Word) (l rate lanes : Nat) : Bool :=
  let proto := getField (g (OL_LINK l)) OL_LINK_PROTO
  let pay := payloadOf proto lanes rate
  let us := usersBy g l
  if us.any fun t => getField (g (TL_OUT t)) TL_OUT_MODE == 2 then
    decide ((us.map fun t =>
      let st := streamBy g t
      if pay.1 = 0 then 64 else cdiv (64 * st.1 * pay.2) (st.2 * pay.1)).foldl (· + ·) 0 ≤ 63)
  else us.all fun t => let st := streamBy g t; decide (st.1 * pay.2 ≤ pay.1 * st.2)

/-- R114 at each link's largest rate and lanes. -/
def payloadsBy (g : Nat → Word) : Bool :=
  (List.range 48).all fun l =>
    carriesBy g l (getField (g (OL_LINK l)) OL_LINK_MAXRATE) (getField (g (OL_LINK l)) OL_LINK_LANES)

/-! ### Lines and their times (R228, R231) -/

/-- n line times of a timing in ns, genlock trim included, rounded down. -/
def State.linesNs (s : State) (t : Nat) (tm : TlTiming) (n : Nat) : Nat :=
  let d := (tm.khz : Int) * (1000000 + (s.scanAt t).trim)
  if d ≤ 0 then 0 else n * tm.htotal * 1000000000000 / d.toNat

/-- Lines from the start of the present line to the next line 0; an extension still running is taken to end at the next line
boundary (R231). -/
def State.toLine0 (s : State) (t : Nat) : Nat :=
  let x := s.scanAt t
  let tm := s.timing t
  if tm.adaptive && !x.latched then max (tm.vtotal - tm.tail) (s.pos t + 1) + tm.tail - s.pos t
  else tm.vtotal + x.ext - s.pos t

/-- Whether an enabled timeline has what its first frame needs; its slots fetch and its Pavilion composes before line 0 (R42, R230). -/
def State.armed (s : State) (t : Nat) : Bool := s.tlOn t && s.boot.applied && s.boot.firstDone && s.park.step == 0

/-- The predicted DTIME at which line y of the present or the next frame starts; line 0 of a first frame is taken to come two lines
from now (R42). -/
def State.lineTime (s : State) (t : Nat) (next : Bool) (y : Nat) : Nat :=
  let x := s.scanAt t
  let old := s.timing t
  let new := s.timingFor t true
  if !x.started then s.dtime + s.linesNs t old (2 + y)
  else if next then
    if new = old then x.lineAt + s.linesNs t old (s.toLine0 t + y)
    else x.lineAt + s.linesNs t old (s.toLine0 t) + s.linesNs t new y
  else if s.pos t ≤ y then x.lineAt + s.linesNs t old (y - s.pos t)
  else x.lineAt

/-- T_BLEND of the Pavilion of a timeline (R228). -/
def blendBy (g : Nat → Word) (t : Nat) : Nat :=
  let w (k : Nat) := if (timingBy g k).en then (timingBy g k).hactive else 0
  tBlend (w (t / 2 * 2)) (w (t / 2 * 2 + 1))

/-- E(y) (R228). -/
def State.blendEntry (s : State) (t : Nat) (next : Bool) (y : Nat) : Nat := s.lineTime t next y - blendBy s.rd t

def State.latNs (s : State) : Nat := s.get AD_CFG AD_CFG_LAT_NS

/-- Lines of a frame known so far, extension lines included. -/
def State.frameLines (s : State) (t : Nat) : Nat := s.vtotal t + (s.scanAt t).ext

/-- The line at whose start the latch of the next frame is due (R102, R109). -/
def State.latchLine (s : State) (t : Nat) : Nat :=
  let tm := s.timing t
  if tm.adaptive then tm.vtotal - tm.tail - 1 + (s.scanAt t).ext else tm.line - s.get (TL_LATCH t) TL_LATCH_EARLY

/-! ### Banks (R188, R288) -/

def bankAddr (st k : Nat) (active : Bool) : Nat := 0x210000 + st * 0x400 + 4 * k + (if active then 0x100 else 0)

/-- The storage index of a slot's entry copy and row budgets in one bank (R146, R174). -/
def bankKey (st : Nat) (active : Bool) : Nat := 2 * st + b2n active

/-- The 22 banked words of a stored slot. -/
def State.bankWords (s : State) (st : Nat) (active : Bool) : List Nat := (List.range 22).map fun k => s.rdN (bankAddr st k active)

/-- Slot sl in its active or pending bank; after a migration its standby stores it (R548). -/
def State.layer (s : State) (active : Bool) (sl : Nat) : LayerCfg :=
  let st := s.slotName sl
  LayerCfg.ofWords sl (s.bankWords st active) (s.entAt (bankKey st active)) (s.budAt (bankKey st active))

def slotsOfPav (t : Nat) : List Nat := (List.range 12).map fun k => 12 * (t / 2) + k

/-- The timeline that a slot serves by its active assignment (R189). -/
def State.slotTl (s : State) (sl : Nat) : Nat := 2 * (sl / 12) + s.get (activeOf (LY_CTRL (s.slotName sl))) LY_CTRL_TL

/-- The slots assigned to timeline t in its active bank. -/
def State.slotsOf (s : State) (t : Nat) : List Nat := (slotsOfPav t).filter fun sl => s.slotTl sl == t

/-- The enabled layers of timeline t in one bank. -/
def State.layersIn (s : State) (active : Bool) (t : Nat) : List LayerCfg := ((s.slotsOf t).map (s.layer active)).filter (·.en)

def blendLe (a b : LayerCfg) : Bool := decide (a.z < b.z) || (a.z == b.z && decide (a.slot ≤ b.slot))

/-- The blend order of R210. -/
def blendOrder (ls : List LayerCfg) : List LayerCfg := sortBy blendLe ls

/-- The stored Pavilion of a timeline, and the addresses of its background in one bank. -/
def State.bgAddrs (s : State) (t : Nat) (active : Bool) : Nat × Nat :=
  let p := s.pvName (t / 2)
  if active then (activeOf (PV_BG_RG p (t % 2)), activeOf (PV_BG_B p (t % 2))) else (PV_BG_RG p (t % 2), PV_BG_B p (t % 2))

/-- The background pixel (R210). -/
def State.bgPx (s : State) (t : Nat) (active : Bool) : Px :=
  let a := s.bgAddrs t active
  ⟨4095, s.get a.1 PV_BG_RG_R, s.get a.1 PV_BG_RG_G, s.get a.2 PV_BG_B_B⟩

/-- Which bank a timeline's work for the present or the next frame uses: the pending bank while the next frame is not latched
and the bank is sealed (R242). -/
def State.bankFor (s : State) (t : Nat) (next : Bool) : Bool := !(next && !(s.scanAt t).latched && s.sealed t)

/-- The bank generation (R243). -/
def State.bankGen (s : State) (t : Nat) : Nat := s.get (PV_SEAL (s.pvName (t / 2)) (t % 2)) PV_SEAL_GEN

/-- The tag of work for the next frame before its latch; none for confirmed work (R242, R243). -/
def State.specTag (s : State) (t : Nat) (next : Bool) : Option Nat := if next && !(s.scanAt t).latched then some (s.bankGen t) else none

def State.specOn (s : State) (t : Nat) : Bool := s.on (TL_LATCH t) TL_LATCH_SPEC

/-- Payload of timeline events (R124). -/
def State.tlPayload (s : State) (t unit st detail : Nat) : List Byte :=
  [BitVec.ofNat 8 unit, BitVec.ofNat 8 st] ++ leBytes 2 detail ++ leBytes 4 (s.frameOf t) ++ zeros 8

def State.postTl (s : State) (t type unit st detail : Nat) : State := s.post 1 t type 0 (s.tlPayload t unit st detail)

end Sys2Proof.Machine
end

