-- ==== Sys2Proof/Machine/Bezel.lean ====
section
/-!
DEFINITION. The Bezel (R312 to R324): what each instance shows from the snapshot taken at a latch, the pixels it draws, and the
selection and application of layout presets.
-/

namespace Sys2Proof.Machine

/-! ### Instances (R317 to R323) -/

def bzKey (t i : Nat) : Nat := 256 * t + i

/-- A field of an instance register as in force this frame (R317). -/
def State.bzF (s : State) (a : Nat) (f : Fld) : Nat := s.getUse a f

def State.bzImage (s : State) (t i : Nat) : Option BzImage :=
  tget (fun _ => none) s.locket.images (s.bzF (BZ_I_IMG t i) BZ_I_IMG_IMAGE)

/-- What an instance shows: its code, TELLTALE state, the frames of its positions, whether its signal is stale, and whether it draws
anything. -/
structure BzLook where
  code   : Nat
  st     : Nat
  frames : List Nat
  stale  : Bool
  shown  : Bool
  deriving DecidableEq, Repr

def BzLook.word (l : BzLook) : Nat := l.code % 2 ^ 24 + l.st % 4 * 2 ^ 24 + b2n l.stale * 2 ^ 30 + b2n l.shown * 2 ^ 31

def BzLook.kept (l : BzLook) : BzShown := ⟨l.code, l.frames, l.shown⟩

/-- Whether a blinking TELLTALE is in phase A at the DTIME d of line 0 (R320). -/
def phaseA (hz d : Nat) : Bool := let p := 1000000000 / hz; decide (2 * (d % p) < p)

/-- Whether a TELLTALE in state st shows frame 0 (R320). -/
def tellShows (hz d st : Nat) : Bool :=
  if st = 0 then false
  else if st = 1 ∨ hz < 1 ∨ 4 < hz then true
  else if st = 2 then phaseA hz d
  else !phaseA hz d

/-- The digits of m, least significant first, at least one (R322). -/
def digitsOf : Nat → Nat → List Nat
  | 0, _ => []
  | k + 1, m => m % 10 :: (if m / 10 = 0 then [] else digitsOf k (m / 10))

/-- The frame of each of n positions for value v (R322). -/
def digitFrames (n : Nat) (zpad isSigned : Bool) (v : Int) : List Nat :=
  let neg := decide (v < 0)
  let m := v.natAbs
  if (neg && !isSigned) || decide (10 ^ (n - b2n neg) ≤ m) then List.replicate n 11
  else
    let ds := (digitsOf n m).reverse
    let pad := n - ds.length
    let f := List.replicate pad (if zpad then 0 else 10) ++ ds
    if neg then f.set (if zpad then 0 else pad - 1) 11 else f

def packCodes : List Nat → Nat
  | [] => 0
  | f :: fs => f + 16 * packCodes fs

/-- What instance i shows under a snapshot taken at instant u, for a frame whose line 0 is predicted at d (R319 to R323). -/
def State.bzLook (s : State) (t i u d : Nat) : BzLook :=
  let c := BZ_I_CTRL t i
  if !(s.bzF c BZ_I_CTRL_EN == 1) then ⟨0, 0, [], false, false⟩
  else
    let v := s.sigSeen (s.bzF c BZ_I_CTRL_SIGNAL) u
    let stale := v.isNone
    let x := v.getD 0
    let fixed := s.bzF c BZ_I_CTRL_STALE_MODE == 1
    let kind := s.bzF c BZ_I_CTRL_KIND
    let p0 (f : Fld) : Nat := s.bzF (BZ_I_P0 t i) f
    let n := p0 BZ_I_P0_NDIG
    let blank := if kind = 1 then 0 else if kind = 2 then 0xFFF else 2 ^ (4 * n) - 1
    match s.bzImage t i with
    | none => ⟨blank, 0, [], stale, false⟩
    | some im =>
      if stale && !fixed then ⟨blank, 0, [], true, false⟩
      else if kind = 1 then
        let st := if stale then p0 BZ_I_P0_STALE_STATE else p0 BZ_I_P0_STATE_MAP / 2 ^ (2 * (x % 4).toNat) % 4
        let sh := tellShows (s.bzF c BZ_I_CTRL_BLINK_HZ) d st
        ⟨b2n sh, st, if sh then [0] else [], stale, sh⟩
      else if kind = 2 then
        let f := if stale then min (p0 BZ_I_P0_STALE_FRAME) (im.frames - 1)
          else (clampInt 0 ((im.frames : Int) - 1)
            ((x - signed 32 (s.bzF (BZ_I_P1 t i) BZ_I_P1_OFFS)) * s.bzF (BZ_I_P2 t i) BZ_I_P2_MULT / 65536)).toNat
        ⟨f, 0, [f], stale, true⟩
      else if kind = 3 then
        let fs := if stale then List.replicate n 11 else digitFrames n (p0 BZ_I_P0_ZPAD == 1) (p0 BZ_I_P0_SIGNED == 1) x
        ⟨packCodes fs, 0, fs, stale, decide (0 < n)⟩
      else ⟨blank, 0, [], stale, false⟩

def bezelInstances : List Nat := List.range 256

/-- Decide what every instance shows in the frame about to open, and show it in BZ_DISP (R319). -/
def State.bzDecide (s : State) (t u d : Nat) : State :=
  bezelInstances.foldl (fun s i =>
    let l := s.bzLook t i u d
    (s.setBzAt (bzKey t i) l.kept).wrN (BZ_DISP t i) l.word) s

/-- Whether some displayed state or code would differ from the frame in display (R109, R319). -/
def State.bzDiffers (s : State) (t u d : Nat) : Bool :=
  bezelInstances.any fun i =>
    let l := s.bzLook t i u d
    l.code % 2 ^ 24 != s.get (BZ_DISP t i) BZ_DISP_CODE || l.st != s.get (BZ_DISP t i) BZ_DISP_STATE

/-! ### Pixels (R312, R316, R318) -/

/-- Pixel (u, v) of frame k of an image: alpha and premultiplied colour. -/
def State.imagePx (s : State) (legacy : Bool) (im : BzImage) (col : Px) (k u v : Nat) : Px :=
  let base := if im.space = 0 then bezelBase else orangeryBase
  let a := base + im.offset + (k * im.height + v) * im.pitch
  if im.format = 0x01 then wordPx 0x01 (leNat (s.rdBytes (a + 4 * u) 4))
  else
    let al := expand 8 (s.rdByte (a + u)).toNat
    ⟨al, mul12L legacy col.r al, mul12L legacy col.g al, mul12L legacy col.b al⟩

/-- The pixel an instance contributes at (x, y), none where it covers nothing or shows nothing. -/
def State.bzInstPx (s : State) (legacy : Bool) (t i x y : Nat) : Option Px :=
  let sh := s.bzAt (bzKey t i)
  match s.bzImage t i with
  | none => none
  | some im =>
    let kind := s.bzF (BZ_I_CTRL t i) BZ_I_CTRL_KIND
    let u : Int := x - signed 16 (s.bzF (BZ_I_POS t i) BZ_I_POS_X)
    let v : Int := y - signed 16 (s.bzF (BZ_I_POS t i) BZ_I_POS_Y)
    let w := im.width + (if kind = 3 then s.bzF (BZ_I_P0 t i) BZ_I_P0_GAP else 0)
    let j := u.toNat / w
    let k := u.toNat % w
    if decide (0 ≤ u) && decide (0 ≤ v) && decide (v < im.height) && decide (k < im.width) && decide (j < sh.frames.length) && sh.shown then
      some (s.imagePx legacy im ⟨0, s.bzF (BZ_I_COL_RG t i) BZ_I_COL_RG_R, s.bzF (BZ_I_COL_RG t i) BZ_I_COL_RG_G,
        s.bzF (BZ_I_COL_B t i) BZ_I_COL_B_B⟩ (sh.frames.getD j 0) k v.toNat)
    else none

/-- The instances that show something this frame. -/
def State.bzLive (s : State) (t : Nat) : List Nat := bezelInstances.filter fun i => (s.bzAt (bzKey t i)).shown

/-- The Bezel plane at (x, y) (R312); none where no instance draws. -/
def State.bzPx (s : State) (legacy : Bool) (t : Nat) (live : List Nat) (x y : Nat) : Option Px :=
  live.foldl (fun p i => match s.bzInstPx legacy t i x y with
    | some q => some (blendPx legacy (p.getD Px.zero) q)
    | none => p) none

/-- The Bezel plane over a merged pixel; one that no instance covers is left unchanged (R213). -/
def overBezel (legacy : Bool) (merged : Px) : Option Px → Px
  | some bz => blendPx legacy merged (alphaPx legacy 1 4095 bz)
  | none => merged

/-! ### Presets (R104, R324) -/

def State.presetOf (s : State) (t k : Nat) : Option Preset := s.locket.presets.find? fun p => p.tl == t && p.index == k

/-- The selection at a snapshot instant: the preset index, none when nothing was ever selected, and the KIND of the PRESET event. -/
def State.presetPick (s : State) (t u : Nat) : Option Nat × Nat :=
  let r := BZ_PSEL t
  if s.get r BZ_PSEL_SRC = 0 then (some (s.get r BZ_PSEL_INDEX), 0)
  else
    match s.sigSeen (s.get r BZ_PSEL_SIGNAL) u with
    | none => (some (s.get r BZ_PSEL_STALE_PRESET), 2)
    | some v =>
      if 0 ≤ v ∧ v ≤ 15 ∧ (s.presetOf t v.toNat).isSome then (some v.toNat, 1) else (s.presetAt t, 1)

/-- The preset that a latch with snapshot instant u applies (R324). -/
def State.presetDue (s : State) (t u : Nat) : Option (Preset × Nat) :=
  let (sel, kind) := s.presetPick t u
  match sel with
  | none => none
  | some k =>
    if s.on (BZ_STAT t) BZ_STAT_CURVALID && s.get (BZ_STAT t) BZ_STAT_CUR == k then none
    else (s.presetOf t k).map fun p => (p, kind)

/-- The slots a preset's pairs touch. -/
def Preset.slots (p : Preset) : List Nat := ((p.pairs.filter fun x => inRange 0x210000 0x400000 x.1).map fun x => (x.1 - 0x210000) / 0x400).dedup

end Sys2Proof.Machine
end

