-- ==== Sys2Proof/Machine/Compose.lean ====
section
/-!
DEFINITION. Composition (R186 to R215, R250, R251): a layer's pixels from the fetch groups that arrived, with what is lost
substituted; the blend of a line; hold surfaces, the merge, and the finisher's output line.
-/

namespace Sys2Proof.Machine

/-! ### What a slot has of a frame -/

/-- A pixel of a layer on its way: good, of a bad Facet tile, or of a lost group (R250). -/
inductive SrcPx where
  | good (p : Px)
  | badTile
  | lost
  deriving DecidableEq, Repr

def SrcPx.isGood : SrcPx → Bool
  | .good _ => true
  | _ => false

def SrcPx.map (f : Px → Px) : SrcPx → SrcPx
  | .good p => .good (f p)
  | x => x

def SrcPx.px : SrcPx → Px
  | .good p => p
  | _ => Px.zero

/-- The result of a computation over some pixels: good when each is, lost when a lost group took one (R250). -/
def gather (xs : List SrcPx) (f : List Px → Px) : SrcPx :=
  if xs.all SrcPx.isGood then .good (f (xs.map SrcPx.px))
  else if xs.any (· == .lost) then .lost
  else .badTile

/-- The groups of one frame that a slot holds. -/
def heldFor (got : List Arrived) (next : Bool) : List Arrived := got.filter fun a => a.next == next

def findGroup (got : List Arrived) (g : Group) : Option Arrived := got.find? fun a => a.group == g

/-- n bytes at offset o of a group, none when they lie in a bad block (R250). -/
def Arrived.bytes (a : Arrived) (o n : Nat) : Option (List Byte) :=
  let p := a.skew + o
  if a.bad.any fun b => overlaps b.1 64 p n then none else some (bytesAt a.data p n)

/-! ### Source pixels: stages 1 and 2 (R190 to R193) -/

/-- The word of L8 index x in a palette. -/
def palettePx (got : List Arrived) (x : Nat) : SrcPx :=
  match findGroup got .palette with
  | some a => match a.bytes (4 * x) 4 with
    | some b => if a.bad.isEmpty then .good (wordPx 0x01 (leNat b)) else .lost
    | none => .lost
  | none => .lost

/-- A luma or other sample of w bytes, expanded from its top bits: 8 bits, or P010's bits 15 to 6 (R190). -/
def sampleOf (f : Nat) (b : List Byte) : Nat := if f = 0x11 then expand 10 (leNat b / 64 % 1024) else expand 8 (leNat b % 256)

/-- The Cb (k = 0) or Cr (k = 1) sample of chroma row r, column i of a planar layer. -/
def planarChroma (l : LayerCfg) (got : List Arrived) (k r i : Nat) : Option Nat :=
  let w := fmtBpp l.entry.format
  match findGroup got (.chroma r) with
  | some a => (a.bytes ((i - l.sx / 2) * 2 * w + k * w) w).map (sampleOf l.entry.format)
  | none => none

/-- The Cb or Cr sample of pair i of a YUYV or UYVY row. -/
def packedChroma (l : LayerCfg) (got : List Arrived) (k row i : Nat) : Option Nat :=
  let o := if l.entry.format = 0x12 then 1 + 2 * k else 2 * k
  match findGroup got (.row row) with
  | some a => (a.bytes ((i - l.sx / 2) * 4 + o) 1).map (sampleOf 0x12)
  | none => none

def map2 (f : Nat → Nat → Nat) : Option Nat → Option Nat → Option Nat
  | some a, some b => some (f a b)
  | _, _ => none

/-- The chroma of pixel (x, y) (R193). -/
def chromaOf (l : LayerCfg) (got : List Arrived) (k x y : Nat) : Option Nat :=
  let colHi := (l.sx + l.sw - 1) / 2
  let rowLo := l.sy / 2
  let rowHi := (l.sy + l.sh - 1) / 2
  let cv (i : Nat) : Option Nat :=
    if fmtPlanar l.entry.format then
      let r := y / 2
      if l.chroma then
        let r2 := max rowLo (min rowHi (if y % 2 = 1 then r + 1 else r - 1))
        map2 (fun a b => (3 * a + b + 2) / 4) (planarChroma l got k r i) (planarChroma l got k r2 i)
      else planarChroma l got k r i
    else packedChroma l got k y i
  let i := x / 2
  if l.chroma && x % 2 == 1 then map2 (fun a b => (a + b + 1) / 2) (cv i) (cv (min colHi (i + 1))) else cv i

/-- The luma of pixel (x, y) of a YCbCr layer. -/
def lumaOf (l : LayerCfg) (got : List Arrived) (x y : Nat) : Option Nat :=
  match findGroup got (.row y) with
  | none => none
  | some a =>
    if fmtPlanar l.entry.format then
      let w := fmtBpp l.entry.format
      (a.bytes ((x - l.sx) * w) w).map (sampleOf l.entry.format)
    else
      let o := if l.entry.format = 0x12 then 0 else 1
      (a.bytes ((x / 2 - l.sx / 2) * 4 + 2 * (x % 2) + o) 1).map (sampleOf 0x12)

/-- Pixel (x, y) of the surface, expanded to 12 bits. -/
def srcRaw (l : LayerCfg) (got : List Arrived) (x y : Nat) : SrcPx :=
  let f := l.entry.format
  if fmtFacet f then
    match findGroup got (.band (y / 8)) with
    | none => .lost
    | some a => match a.tiles.find? fun t => t.tx == x / 8 with
      | some t => if t.cause.isSome then .badTile else .good (wordPx f (t.words.getD (y % 8 * 8 + x % 8) 0))
      | none => .lost
  else if fmtYuv f then
    match lumaOf l got x y, chromaOf l got 0 x y, chromaOf l got 1 x y with
    | some c0, some c1, some c2 => .good ⟨4095, c0, c1, c2⟩
    | _, _, _ => .lost
  else
    match findGroup got (.row y) with
    | none => .lost
    | some a => match a.bytes ((x - l.sx) * fmtBpp f) (fmtBpp f) with
      | none => .lost
      | some b => if f = 0x09 then palettePx got (leNat b) else .good (wordPx f (leNat b))

/-- The rows before row y in the order in which the slot decodes the layer, nearest first (R251). -/
def earlierRows (l : LayerCfg) (y : Nat) : List Nat :=
  if l.vflip then (List.range (l.sy + l.sh - 1 - y)).map fun k => y + 1 + k
  else (List.range (y - l.sy)).map fun k => y - 1 - k

/-- A source pixel before stage 3: a lost one is replaced under LINE_REPEAT where an earlier row has it good (R251). -/
def srcKept (l : LayerCfg) (got : List Arrived) (x y : Nat) : SrcPx :=
  let p := srcRaw l got x y
  if p.isGood || l.subst != 3 then p
  else match (earlierRows l y).find? fun r => (srcRaw l got x r).isGood with
    | some r => srcRaw l got x r
    | none => p

/-- Stage 3 (R194). -/
def srcPx (l : LayerCfg) (got : List Arrived) (x y : Nat) : SrcPx :=
  if l.cmEn then (srcKept l got x y).map (applyMatrix (matrixOf l.cm)) else srcKept l got x y

/-! ### Stages 4 to 6 (R196 to R206) -/

/-- Pixel j of source row y after the horizontal pass. -/
def hPx (bank : CoefBank) (l : LayerCfg) (got : List Arrived) (y j : Nat) : SrcPx :=
  if l.sw = l.dw then srcPx l got (l.sx + j) y
  else
    let p := passPos l.sw l.dw j
    let co := bank.h.getD p.2 []
    gather ((List.range 8).map fun k => srcPx l got (l.sx + clampIdx l.sw (p.1 - 3 + k)) y)
      fun xs => filterPx (List.zip co xs)

/-- Pixel (j, v) of the scaled image. -/
def vPx (hb vb : CoefBank) (l : LayerCfg) (got : List Arrived) (j v : Nat) : SrcPx :=
  if l.sh = l.dh then hPx hb l got (l.sy + v) j
  else
    let taps := vtapLines vb l.taps l.sh l.dh v
    gather (taps.map fun p => hPx hb l got (l.sy + p.2) j) fun xs => filterPx (List.zip (taps.map (·.1)) xs)

/-- Whether computing pixel (j, v) reads a source pixel that was lost other than in a bad tile, replaced or not (R253). -/
def readsLost (hb vb : CoefBank) (l : LayerCfg) (got : List Arrived) (j v : Nat) : Bool :=
  vPx hb vb { l with subst := 0 } got j v == .lost

/-! ### One layer of a line (R206 to R209, R251) -/

/-- What a layer gives an output pixel to the blend: nothing, or a pixel at stage 7 with whether it is a substitute. -/
inductive LayerPx where
  | none
  | px (p : Px)
  deriving DecidableEq, Repr

/-- The coefficient bank of a Pavilion (R200). -/
def State.coefBank (s : State) (p b : Nat) : CoefBank := tget (fun _ => CoefBank.default) s.locket.coefs (8 * p + b)

/-- A layer's pixel at (x, y): the scaled image through the transform, substituted where lost.  `hold` is the hold-surface pixel. -/
def layerPx (hb vb : CoefBank) (l : LayerCfg) (got : List Arrived) (hold : Option Px) (j : Nat) (u : Nat) : LayerPx :=
  match vPx hb vb l got (if l.hflip then l.dw - 1 - u else u) j with
  | .good p => .px p
  | _ =>
    if l.subst = 1 then match hold with
      | some h => .px { h with a := 4095 }
      | none => .none
    else if l.subst = 2 then .px l.substPx
    else .none

/-- The column of the layer image at output column x, when the layer covers it. -/
def LayerCfg.column (l : LayerCfg) (x : Nat) : Option Nat :=
  let u : Int := x - l.dx
  if 0 ≤ u ∧ u < l.dw then some u.toNat else none

/-! ### Hold surfaces (R211, R212) -/

/-- Whether n bytes at a lie in one of some 64-byte blocks. -/
def inBlocks (bad : List Nat) (a n : Nat) : Bool := bad.any fun b => overlaps (b / 64 * 64) 64 a n

/-- A tile of a Facet surface read from memory as it stands: its words, none when it is bad (R177).  `bad` lists the blocks whose read
failed. -/
def State.tileAt (s : State) (bad : List Nat) (e : SurfEntry) (tx ty : Nat) : Option (List Nat) :=
  let ha := e.aux0 + (ty * tilesAcross e.width + tx) * 8
  let h := TileHdr.ofNat (leNat (s.rdBytes ha 8))
  if inBlocks bad ha 8 || (hdrCause e.format e.footprint h).isSome || inBlocks bad (e.base + h.offset * 16) (h.size * 16) then none
  else match decodeTile e.format h (s.rdBytes (e.base + h.offset * 16) (h.size * 16)) with
    | .inr ws => some ws
    | .inl _ => none

/-- Pixel (x, y) of a surface in the Orangery, stages 1 and 2; none when its tile or its block is bad. -/
def State.surfPx (s : State) (bad : List Nat) (e : SurfEntry) (x y : Nat) : Option Px :=
  if fmtFacet e.format then (s.tileAt bad e (x / 8) (y / 8)).map fun ws => wordPx e.format (ws.getD (y % 8 * 8 + x % 8) 0)
  else
    let w := fmtBpp e.format
    let a := e.base + y * e.pitch + x * w
    if inBlocks bad a w then none else some (wordPx e.format (leNat (s.rdBytes a w)))

/-- The entry that FN_HOLD in force names: of a first-frame surface, or of the surface table (R83, R211). -/
def State.holdEntry (s : State) (t : Nat) : Option SurfEntry :=
  let h := (s.rdUse (FN_HOLD t)).toNat
  let e := match s.locket.firsts.find? fun x => x.1 == h with
    | some x => x.2
    | none => s.surfAt (handleIndex h)
  if h ≠ noHandle ∧ handleLive h e then some e else none

def State.fallbackPx (s : State) (t : Nat) : Px :=
  ⟨4095, s.getUse (FN_FALLBACK_RG t) FN_FALLBACK_RG_R, s.getUse (FN_FALLBACK_RG t) FN_FALLBACK_RG_G,
    s.getUse (FN_FALLBACK_B t) FN_FALLBACK_B_B⟩

/-- The hold pixel at an output position; none without a hold surface.  One of a bad tile or block is FN_FALLBACK's (R212). -/
def State.holdPx (s : State) (bad : List Nat) (t x y : Nat) : Option Px :=
  (s.holdEntry t).map fun e => { (s.surfPx bad e x y).getD (s.fallbackPx t) with a := 4095 }

/-- Whether the hold pixel at a position is bad. -/
def State.holdMissed (s : State) (bad : List Nat) (t x y : Nat) : Bool := (s.holdEntry t).any fun e => (s.surfPx bad e x y).isNone

/-- A line that replaces an absent one, and whether a pixel of it came from a bad tile or block (R211, R212). -/
def State.heldLine (s : State) (t w y : Nat) (bad : List Nat) : List Px × Bool :=
  match s.holdEntry t with
  | none => (List.replicate w (s.fallbackPx t), false)
  | some e => ((List.range w).map fun x => { (s.surfPx bad e x y).getD (s.fallbackPx t) with a := 4095 },
      (List.range w).any fun x => (s.surfPx bad e x y).isNone)

/-! ### A composed line (R210, R219, R257) -/

/-- The run in use that a line of the present or next frame starts from. -/
def State.flatFor (s : State) (t : Nat) (next : Bool) : Option FlatRun :=
  match (s.scanAt t).flat with
  | some r => if r.inUse && !(next && r.ending.isSome) then some r else none
  | none => none

/-- The layers that a line of the present or the next frame blends: those of the bank in use above the flattened run. -/
def State.lineLayers (s : State) (t : Nat) (next : Bool) : List LayerCfg :=
  let ls := blendOrder (s.layersIn (s.bankFor t next) t)
  match s.flatFor t next with
  | some r => ls.filter fun l => !r.slots.contains l.slot
  | none => ls

/-- How many tiles of tile row ty of a flattened run, from the left, its row budget lets the decoder read (R180). -/
def State.runTiles (s : State) (r : FlatRun) (ty : Nat) : Nat :=
  let n := tilesAcross r.entry.width
  ((List.range n).foldl (fun (a : Nat × Nat) tx =>
    let total := a.1 + (TileHdr.ofNat (leNat (s.rdBytes (r.entry.aux0 + (ty * n + tx) * 8) 8))).size * 16
    (total, if a.2 = tx ∧ total ≤ r.buds.getD ty 0 then tx + 1 else a.2)) (0, 0)).2

/-- Pixel (x, y) of a flattened run, none where its tile is bad (R177, R184): the decoder and its checks are those of any Facet surface. -/
def State.runPx (s : State) (bad : List Nat) (r : FlatRun) (tiles x y : Nat) : Option Px :=
  if x / 8 < tiles then s.surfPx bad r.entry x y else none

/-- The bottom slot of a flattened run as its bank stands. -/
def State.runLayer (s : State) (t : Nat) (next : Bool) (r : FlatRun) : LayerCfg := s.layer (s.bankFor t next) (r.slots.headD 0)

/-- What stands for a bad pixel of a flattened run, over PV_BG.  DESIGN CHOICE (assumption 131): the policy is that of the run's bottom slot, which
covers the whole line; the rows of LINE_REPEAT are those of the flattened surface. -/
def State.runSubst (s : State) (t : Nat) (next : Bool) (bad : List Nat) (r : FlatRun) (x y : Nat) : Px :=
  let l := s.runLayer t next r
  let bg := s.bgPx t (s.bankFor t next)
  if l.subst = 1 then (s.holdPx bad t x y).getD bg
  else if l.subst = 2 then blendPx (s.legacyOf t) bg (alphaPx (s.legacyOf t) l.amode l.galpha l.substPx)
  else if l.subst = 3 then ((List.range y).findSome? fun k => s.runPx bad r (s.runTiles r ((y - 1 - k) / 8)) x (y - 1 - k)).getD bg
  else bg

/-- The pixels a line starts from: the background's, or the flattened run's (R219). -/
def State.startLine (s : State) (t : Nat) (next : Bool) (w y : Nat) (bad : List Nat) : List Px :=
  match s.flatFor t next with
  | some r =>
    let n := s.runTiles r (y / 8)
    (List.range w).map fun x => (s.runPx bad r n x y).getD (s.runSubst t next bad r x y)
  | none => List.replicate w (s.bgPx t (s.bankFor t next))

/-- Whether line y of a flattened run has a bad pixel, and whether a bad pixel of the hold surface stood for one. -/
def State.runBad (s : State) (t : Nat) (next : Bool) (w y : Nat) (bad : List Nat) : Bool × Bool :=
  match s.flatFor t next with
  | some r =>
    let n := s.runTiles r (y / 8)
    let xs := (List.range w).filter fun x => (s.runPx bad r n x y).isNone
    (!xs.isEmpty, (s.runLayer t next r).subst == 1 && xs.any fun x => s.holdMissed bad t x y)
  | none => (false, false)

/-- One layer over a line. -/
def State.blendLayer (s : State) (legacy : Bool) (t : Nat) (next : Bool) (y : Nat) (tm : TlTiming) (bad : List Nat) (line : List Px)
    (l : LayerCfg) : List Px :=
  let p := s.pvName (t / 2)
  let hb := s.coefBank p l.hbank
  let vb := s.coefBank p l.vbank
  let got := heldFor (s.fetchAt l.slot).got next
  match l.imageLine tm.vactive y with
  | none => line
  | some j => line.mapIdx fun x d => match l.column x with
    | none => d
    | some u => match layerPx hb vb l got (s.holdPx bad t x y) j u with
      | .px q => blendPx legacy d (alphaPx legacy l.amode l.galpha q)
      | .none => d

/-- Composed line y of the present or the next frame; `bad` lists the 64-byte blocks of the hold surface and of a flattened run whose read
failed. -/
def State.composeLine (s : State) (t : Nat) (next : Bool) (y : Nat) (bad : List Nat) : List Px :=
  let tm := s.timingFor t next
  (s.lineLayers t next).foldl (s.blendLayer (s.legacyOf t) t next y tm bad) (s.startLine t next tm.hactive y bad)

/-- Whether a bad pixel of the hold surface stands for a pixel of a layer on line y (R212, R251). -/
def State.lineHoldBad (s : State) (t : Nat) (next : Bool) (y : Nat) (bad : List Nat) (l : LayerCfg) : Bool :=
  let tm := s.timingFor t next
  let p := s.pvName (t / 2)
  l.subst == 1 && match l.imageLine tm.vactive y with
  | none => false
  | some j => (List.range tm.hactive).any fun x => s.holdMissed bad t x y && match l.column x with
    | none => false
    | some u => !(vPx (s.coefBank p l.hbank) (s.coefBank p l.vbank) l (heldFor (s.fetchAt l.slot).got next)
        (if l.hflip then l.dw - 1 - u else u) j).isGood

/-- Whether line y of a layer reads a pixel lost to a cause other than a bad tile (R253). -/
def State.lineLate (s : State) (t : Nat) (next : Bool) (y : Nat) (l : LayerCfg) : Bool :=
  let tm := s.timingFor t next
  let p := s.pvName (t / 2)
  let got := heldFor (s.fetchAt l.slot).got next
  match l.imageLine tm.vactive y with
  | none => false
  | some j => (List.range tm.hactive).any fun x => match l.column x with
    | none => false
    | some u => readsLost (s.coefBank p l.hbank) (s.coefBank p l.vbank) l got (if l.hflip then l.dw - 1 - u else u) j

/-- Whether line y of a layer reads anything bad at all (R246). -/
def State.lineFaulty (s : State) (t : Nat) (next : Bool) (y : Nat) (l : LayerCfg) : Bool :=
  let tm := s.timingFor t next
  let f := s.fetchAt l.slot
  let gs := l.groupsOf tm.hactive tm.vactive y
  f.lost.any (fun x => x.next == next && gs.contains x.group) ||
    f.got.any (fun a => a.next == next && gs.contains a.group && (!a.bad.isEmpty || a.tiles.any fun q => q.cause.isSome))

/-- Whether every group that composing line y needs has arrived or is lost. -/
def State.lineReady (s : State) (t : Nat) (next : Bool) (y : Nat) : Bool :=
  let tm := s.timingFor t next
  (s.lineLayers t next).all fun l =>
    let f := s.fetchAt l.slot
    (l.groupsOf tm.hactive tm.vactive y).all fun g =>
      f.got.any (fun a => a.next == next && a.group == g) || f.lost.any (fun x => x.next == next && x.group == g)

/-! ### The finisher's output (R186 stages 9 to 13) -/

def State.ocmOf (s : State) (t : Nat) : Option Matrix :=
  if s.getUse (FN_CTRL t) FN_CTRL_CM_EN = 1 then some (matrixOf ((List.range 6).map fun k => (s.rdUse (FN_OCM0 t + 4 * k)).toNat)) else none

def State.lutOf (s : State) (t : Nat) : Option (List Nat × List Nat × List Nat) :=
  if s.getUse (FN_CTRL t) FN_CTRL_LUT_EN = 1 then tget (fun _ => none) s.locket.luts t else none

/-- Stage 13 output of a merged line y of the present frame; the instances of `bad` are transparent on it (R316). -/
def State.finishLine (s : State) (t y : Nat) (merged : List Px) (bad : List Nat) : List Px :=
  let legacy := s.legacyOf t
  let live := (s.bzLive t).filter fun i => !bad.contains i
  let ocm := s.ocmOf t
  let lut := s.lutOf t
  merged.mapIdx fun x p =>
    finishPx legacy ocm lut (s.getUse (FN_CTRL t) FN_CTRL_DITHER) (s.depth t) (s.frameOf t) y x (overBezel legacy p (s.bzPx legacy t live x y))

end Sys2Proof.Machine
end

