-- ==== Sys2Proof/Machine/Fetch.lean ====
section
/-!
DEFINITION. Fetching (R176 to R181, R229 to R231, R242, R244, R250 to R253, R260 to R262): the issue of fetch groups at their prefetch
points, their data, deadlines, and racing a camera.
-/

namespace Sys2Proof.Machine

/-! ### The groups of a frame (R229) -/

/-- The fetch groups of a layer in a frame, in need order, each with its need line. -/
def LayerCfg.frameGroups (l : LayerCfg) (tm : TlTiming) : List (Nat × Group) :=
  (List.range tm.vactive).flatMap fun y => (l.newGroups tm.hactive tm.vactive y).map fun g => (y, g)

/-- Whether a slot has issued, received, lost or given up a group of a frame. -/
def SlotFetch.knows (f : SlotFetch) (next : Bool) (g : Group) : Bool :=
  f.issued.any (fun i => i.next == next && i.group == g) || f.got.any (fun a => a.next == next && a.group == g) ||
    f.lost.any (fun x => x.next == next && x.group == g) ||
    (if next then f.raceNext else f.race).any fun u => u.gaveUp.contains g

/-- Whether slot sl fetches for a frame: its layer is enabled in the bank in use and lies in no flattened run in use (R257). -/
def State.fetches (s : State) (sl : Nat) (next : Bool) : Bool :=
  let t := s.slotTl sl
  (s.layer (s.bankFor t next) sl).en && !(match s.flatFor t next with
    | some r => r.slots.contains sl
    | none => false)

/-- Whether lines of a frame are still to be composed. -/
def State.composing (s : State) (t : Nat) (next : Bool) : Bool :=
  let x := s.scanAt t
  if x.compNext = next then !x.redo.isEmpty || decide (x.compY < (s.timingFor t next).vactive) else next

/-- The next group of a slot for a frame, with its need line; a frame whose lines are composed needs no more. -/
def State.nextGroup (s : State) (sl : Nat) (next : Bool) : Option (Nat × Group) :=
  let t := s.slotTl sl
  if s.fetches sl next && s.composing t next then
    ((s.layer (s.bankFor t next) sl).frameGroups (s.timingFor t next)).find? fun x => !(s.fetchAt sl).knows next x.2
  else none

/-- Whether the prefetch point of need line y, the start of scan line y − 32, is reached (R230). -/
def State.prefetch (s : State) (t : Nat) (next : Bool) (y : Nat) : Bool :=
  if next then decide (s.toLine0 t + y ≤ 32) else decide (y ≤ s.pos t + 32)

/-- The present frame's next group, then the next frame's: for a frame not latched yet only while speculation is on, and never
through a host window (R242, R244). -/
def State.groupToIssue (s : State) (sl : Nat) : Option (Bool × Nat × Group) :=
  let t := s.slotTl sl
  let x := s.scanAt t
  match s.nextGroup sl false with
  | some g => if s.prefetch t false g.1 then some (false, g) else none
  | none =>
    let l := s.layer (s.bankFor t true) sl
    if x.latched || (s.specOn t && !l.besteff && (windowOf l.entry.base).isNone) then
      match s.nextGroup sl true with
      | some g => if s.prefetch t true g.1 then some (true, g) else none
      | none => none
    else none

/-! ### Racing (R260 to R262) -/

def igLead (s : State) : Nat := s.get AD_CFG2 AD_CFG2_IG_LEAD

/-- Acknowledged lines of a channel's current frame. -/
def State.igLines (s : State) (c : Nat) : Nat := s.get (IG_LINE_CNT c) IG_LINE_CNT_A

/-- The buffer a channel writes. -/
def State.igWriting (s : State) (c : Nat) : Option Nat := (s.igAt c).cur.map (·.buf)

/-- The surface index and entry of buffer k of a channel's ring. -/
def State.igBuffer (s : State) (c k : Nat) : Nat × SurfEntry :=
  let i := handleIndex (s.rdN (IG_BUF c k))
  (i, s.entryAt i)

/-- The buffer that a racing layer reads: of the one that its commit named, the copy made then (R146); of any other, the table's entry. -/
def State.raceBuffer (s : State) (l : LayerCfg) (k : Nat) : Nat × SurfEntry :=
  if s.rdN (IG_BUF l.raceSrc k) = l.handle then (handleIndex l.handle, l.entry) else s.igBuffer l.raceSrc k

/-- The source row r of R261 that a group waits for, as lines of the camera count it.  DESIGN CHOICE (assumption 130): of a chroma group and of a
band, the last row that the group holds. -/
def Group.cameraRow : Group → Nat
  | .row r => r
  | .chroma r => 2 * r + 1
  | .palette => 0
  | .band ty => 8 * ty + 7

/-- The choice a racing slot makes for a frame (R262). -/
def State.raceChoice (s : State) (l : LayerCfg) : RaceUse :=
  match s.igWriting l.raceSrc with
  | some b =>
    if 1 + l.window + igLead s ≤ s.igLines l.raceSrc then ⟨b, true, none, [], []⟩
    else ⟨s.get (IG_STAT l.raceSrc) IG_STAT_LAST, false, none, [], []⟩
  | none => ⟨s.get (IG_STAT l.raceSrc) IG_STAT_LAST, false, none, [], []⟩

/-- Whether a choice still reads the buffer being written. -/
def State.raceLive (s : State) (l : LayerCfg) (u : RaceUse) : Bool :=
  u.live && u.split.isNone && decide (s.igWriting l.raceSrc = some u.buf)

/-- Whether R261 holds a group back. -/
def State.raceHeld (s : State) (l : LayerCfg) (u : RaceUse) (g : Group) : Bool :=
  s.raceLive l u && decide (s.igLines l.raceSrc < g.cameraRow + 1 + l.window + igLead s)

def SlotFetch.raceFor (f : SlotFetch) (next : Bool) : Option RaceUse := if next then f.raceNext else f.race

def SlotFetch.setRace (f : SlotFetch) (next : Bool) (u : RaceUse) : SlotFetch :=
  if next then { f with raceNext := some u } else { f with race := some u }

/-! ### Issue and loss (R230, R250, R253) -/

def SlotFetch.figsFor (f : SlotFetch) (next : Bool) : SlotFigs := if next then f.figsNext else f.figs

def SlotFetch.modFigs (f : SlotFetch) (next : Bool) (g : SlotFigs → SlotFigs) : SlotFetch :=
  if next then { f with figsNext := g f.figsNext } else { f with figs := g f.figs }

/-- The entry and surface index a slot's layer reads; FIRST surfaces have none in the table (R83). -/
def State.layerSurface (s : State) (l : LayerCfg) : SurfEntry × Option Nat :=
  if s.locket.firsts.any fun x => x.1 == l.handle then (l.entry, none) else (l.entry, some (handleIndex l.handle))

/-- A confirmed group is lost: the bit of its cause; a speculative fault is held silently (R244, R253). -/
def State.noteLoss (s : State) (sl : Nat) (next : Bool) (spec : Option Nat) (cause : Nat) : State :=
  if spec.isSome then s
  else
    let s := s.setFetchAt sl ((s.fetchAt sl).modFigs next fun g => { g with lateCause := if g.lateCause = 0 then cause else g.lateCause })
    let r := LY_LATE_STAT (s.slotName sl)
    let b := if cause = 1 then LY_LATE_STAT_LATE else if cause = 6 then LY_LATE_STAT_RACE else LY_LATE_STAT_BADDATA
    (s.put r b 1).put r LY_LATE_STAT_CAUSE cause

/-- A group is lost for its frame; data of it that is outstanding will be discarded (R250). -/
def State.loseGroup (s : State) (sl : Nat) (next : Bool) (need : Nat) (g : Group) (spec : Option Nat) (cause : Nat) : State :=
  let f := s.fetchAt sl
  let mine (i : Issued) : Bool := i.next == next && i.group == g
  let s := s.setFetchAt sl { f with
    issued := f.issued.filter fun i => !mine i
    gone := f.gone ++ f.issued.filter mine
    lost := f.lost ++ [⟨g, next, need, spec, cause⟩] }
  s.noteLoss sl next spec cause

/-- The class of a layer's fetches: those through a host window are best effort (R224, R252). -/
def fetchClass (e : SurfEntry) : MemClass := if (windowOf e.base).isSome then .besteffort else .deadline

/-- A group leaves for the memory with its class and deadline (R224, R230); the redo of discarded speculation is urgent (R247).  One that cannot
be sent through its window is lost (R134, R252). -/
def State.groupIssue (s : State) (sl : Nat) (next : Bool) (y : Nat) (g : Group) (e : SurfEntry) (idx : Option Nat) : State :=
  let t := s.slotTl sl
  let l := { s.layer (s.bankFor t next) sl with entry := e }
  let spec := s.specTag t next
  let sp := l.groupSpan g
  let f := s.fetchAt sl
  let d := s.blendEntry t next y - s.latNs
  let rec_ : Issued := { group := g, next := next, need := y, deadline := d, spec := spec, entry := e, index := idx }
  let kind : ReadKind := if spec.isSome then .speculative else if f.redo.contains g then .urgent else .plain
  let s := s.setFetchAt sl { f with issued := f.issued ++ [rec_] }
  let s := if spec.isSome then s.bump (AD_SPEC_BYTES t) AD_SPEC_BYTES_COUNT (cdiv sp.2 64) else s
  let sent := match windowOf sp.1 with
    | some (p, o) => s.hwOk p o sp.2
    | none => true
  let s := s.busIssue sp.1 sp.2 (fetchClass e) d kind
  if !sent then (s.setFetchAt sl f).loseGroup sl next y g spec 4
  else if fetchClass e = .besteffort then s.hostCharge sp.1 sp.2
  else s

/-- A racing slot's report (R262): STATE 1 is a tear. -/
def State.postTide (s : State) (t sl st row : Nat) : State :=
  (if st = 1 then s.put (LY_LATE_STAT (s.slotName sl)) LY_LATE_STAT_TEAR 1 else s).postTl t 0x46 sl st row

/-- A report of a racing slot: while its work is speculative it is owed, and made when the work is confirmed (R244). -/
def State.reportTide (s : State) (t sl : Nat) (next : Bool) (u : RaceUse) (st row : Nat) : State × RaceUse :=
  if (s.specTag t next).isSome then
    let u := { u with owed := u.owed ++ [(st, row)] }
    (s.setFetchAt sl ((s.fetchAt sl).setRace next u), u)
  else (s.postTide t sl st row, u)

/-- The racing slot's choice for the frame is made with its first group; a WHOLE frame that starts on the completed buffer is
reported (R262). -/
def State.raceStart (s : State) (sl : Nat) (next : Bool) (l : LayerCfg) (g : Group) : State × RaceUse :=
  let f := s.fetchAt sl
  match f.raceFor next with
  | some u => (s, u)
  | none =>
    let t := s.slotTl sl
    let u := s.raceChoice l
    let s := s.setFetchAt sl (f.setRace next u)
    let s := if (s.specTag t next).isSome then s else s.put (LY_RACE_STAT (s.slotName sl)) LY_RACE_STAT_BUF u.buf
    if !u.live && !l.tide then s.reportTide t sl next u 0 g.cameraRow else (s, u)

/-- The least lead of a frame (R262). -/
def SlotFetch.seenLead (f : SlotFetch) (next : Bool) (lead : Nat) : SlotFetch :=
  if next then { f with minNext := min f.minNext lead } else { f with minLead := min f.minLead lead }

/-- The next group of a slot is issued at its prefetch point; a racing slot's only while its camera leads (R230, R261). -/
def State.issueNext (s : State) (sl : Nat) : State :=
  match s.groupToIssue sl with
  | none => s
  | some (next, y, g) =>
    let t := s.slotTl sl
    let l := s.layer (s.bankFor t next) sl
    if l.race then
      let (s, u) := s.raceStart sl next l g
      if s.raceHeld l u g then s
      else
        let f := s.fetchAt sl
        let lead := s.igLines l.raceSrc - g.cameraRow - 1
        let s := if s.raceLive l u then s.setFetchAt sl (f.seenLead next lead) else s
        let b := s.raceBuffer l (u.split.getD u.buf)
        s.groupIssue sl next y g b.2 (some b.1)
    else
      let b := s.layerSurface l
      s.groupIssue sl next y g b.1 b.2

/-- Whether the fetch side of a slot can work: its timeline scans or is about to, and its Pavilion is up. -/
def State.slotUp (s : State) (sl : Nat) : Bool :=
  ((s.scanAt (s.slotTl sl)).started || s.armed (s.slotTl sl)) && s.islUp (islPav (s.pvName (sl / 12)))

def execFetchGroupIssue (now : Nat) (sl : Fin 96) (s : State) : Out :=
  .next ((s.tick now).when (s.slotUp sl.val) fun s => s.issueNext sl.val)

/-! ### Arrival of rows (R250) -/

/-- The cause that a read result gives a block (R253). -/
def readCause : ReadRes → Nat
  | .ok => 0
  | .uncorrectable => 2
  | .parity => 3
  | .hostError => 4
  | .islandReset => 1

/-- The 64-byte blocks of a range that came back bad, with their causes: those the command names and the poisoned ones. -/
def State.badBlocks (s : State) (bad : List (Nat × ReadRes)) (a n : Nat) : List (Nat × Nat) :=
  ((bad.filter fun b => b.2 != .ok && overlaps (blockOf b.1) 64 a n).map fun b => (blockOf b.1, readCause b.2)) ++
    ((s.poison.filter fun b => overlaps b 64 a n).map fun b => (b, 2))

/-- The bytes of a range as the memory or the host gives them. -/
def State.fetched (s : State) (a n : Nat) (host : List Byte) : List Byte :=
  if (windowOf a).isSome then bytesAt host 0 n else s.rdBytes a n

/-- A row, chroma row or palette arrives. -/
def State.rowArrives (s : State) (sl : Nat) (i : Issued) (bad : List (Nat × ReadRes)) (host : List Byte) : State :=
  let t := s.slotTl sl
  let l := { s.layer (s.bankFor t i.next) sl with entry := i.entry }
  let sp := l.groupSpan i.group
  let bb := s.badBlocks bad sp.1 sp.2
  let f := s.fetchAt sl
  if bb.any fun b => b.2 == 4 then s.loseGroup sl i.next i.need i.group i.spec 4
  else
    let first := match i.group with
      | .row r => i.entry.base + r * i.entry.pitch + (if fmtYuvPacked i.entry.format then l.sx / 2 * 4 else l.sx * fmtBpp i.entry.format)
      | .chroma r => i.entry.aux0 + r * i.entry.auxPitch + l.sx / 2 * (2 * fmtBpp i.entry.format)
      | _ => sp.1
    let a : Arrived := { group := i.group, next := i.next, need := i.need, spec := i.spec, skew := first - sp.1, data := s.fetched sp.1 sp.2 host,
                         bad := bb.map fun b => (b.1 - sp.1, b.2), tiles := [], under := false }
    let s := s.setFetchAt sl { f with got := f.got ++ [a] }
    match bb with
    | [] => s
    | b :: _ => s.noteLoss sl i.next i.spec (if i.group = .palette then 5 else b.2)

/-! ### Arrival of bands (R176, R177, R180) -/

/-- A band being decoded, tile by tile from the left: the body bytes so far and those fetched, whether the budget is exceeded, the bytes the host
still gives, and the tiles done. -/
structure BandRun where
  total : Nat
  taken : Nat
  spent : Bool
  host  : List Byte
  tiles : List TileGot

/-- One tile of a band (R177, R180). -/
def State.bandTile (s : State) (e : SurfEntry) (budget ty : Nat) (bad : List (Nat × ReadRes)) (win : Bool) (hdrs : List Byte) (tx0 : Nat)
    (r : BandRun) (tx : Nat) : BandRun :=
  let ha := e.aux0 + (ty * tilesAcross e.width + tx) * 8
  let put (c : Option TileCause) (ws : List Nat) (r : BandRun) : BandRun := { r with tiles := r.tiles ++ [⟨tx, ty, ws, c⟩] }
  if !(s.badBlocks bad ha 8).isEmpty then put (some .data) [] r
  else
    let h := TileHdr.ofNat (fieldAt hdrs (8 * (tx - tx0)) 8)
    let total := r.total + h.size * 16
    let spent := r.spent || decide (budget < total)
    let r := { r with total := total, spent := spent }
    match hdrCause e.format e.footprint h with
    | some c => put (some c) [] r
    | none =>
      if spent then put (some .budget) [] r
      else
        let ba := e.base + h.offset * 16
        let n := h.size * 16
        let body := if win then bytesAt r.host 0 n else s.rdBytes ba n
        let r := { r with taken := r.taken + n, host := if win then r.host.drop n else r.host }
        if decide (0 < n) && !(s.badBlocks bad ba n).isEmpty then put (some .data) [] r
        else match decodeTile e.format h body with
          | .inl c => put (some c) [] r
          | .inr ws => put none ws r

/-- A band arrives; its bad tiles are counted and shown when it is confirmed (R178 to R180). -/
def State.bandArrives (s : State) (sl ty : Nat) (i : Issued) (bad : List (Nat × ReadRes)) (host : List Byte) : State :=
  let t := s.slotTl sl
  let l := { s.layer (s.bankFor t i.next) sl with entry := i.entry }
  let span := l.tileSpan
  let win := windowOf i.entry.aux0
  let ha := i.entry.aux0 + (ty * tilesAcross i.entry.width + span.1) * 8
  let hdrs := s.fetched ha (8 * span.2) host
  let budget := l.budgetOf ty
  let r := ((List.range span.2).map (· + span.1)).foldl (s.bandTile i.entry budget ty bad win.isSome hdrs span.1)
    { total := 0, taken := 0, spent := false, host := host.drop (8 * span.2), tiles := [] }
  let badTiles := r.tiles.filter fun q => q.cause.isSome
  let f := s.fetchAt sl
  let bytes := 8 * span.2 + r.taken
  let a : Arrived := { group := i.group, next := i.next, need := i.need, spec := i.spec, skew := 0, data := [], bad := [], tiles := r.tiles, under := decide (r.total < budget) }
  let s := s.setFetchAt sl ({ f with got := f.got ++ [a] }.modFigs i.next fun g => { g with band := max g.band bytes })
  if i.spec.isSome then s
  else
    let reg := LY_FCT_STAT (s.slotName sl)
    let s := if a.under then s.put reg LY_FCT_STAT_UNDER 1 else s
    match badTiles, badTiles.getLast? with
    | q :: _, some z =>
      let first := (q.cause.map TileCause.code).getD 0
      let s := s.setFetchAt sl ((s.fetchAt sl).modFigs i.next fun g =>
        { g with badTiles := g.badTiles + badTiles.length, badCause := if g.badCause = 0 then first else g.badCause })
      let s := (s.put reg LY_FCT_STAT_BAD 1).put reg LY_FCT_STAT_CAUSE ((z.cause.map TileCause.code).getD 0)
      if badTiles.any fun q => q.cause == some .budget then s.put reg LY_FCT_STAT_BUDGET 1 else s
    | _, _ => s

/-- A fetch has completed (R158, R159). -/
def State.fetchDone (s : State) (i : Issued) : State :=
  match i.index with
  | some x => s.markFetch x
  | none => s

/-- Whether the read of a group through a host window failed: the host's answer says so, or its port's link has gone since (R134, R252). -/
def State.windowFailed (s : State) (i : Issued) (sp : Nat × Nat) (bad : List (Nat × ReadRes)) : Bool :=
  (windowOf i.entry.base).isSome && (!s.flying.contains sp || bad.any fun b => b.2 == ReadRes.hostError)

/-- The data of a group that was given up is discarded; its surface is no longer read (R158, R250). -/
def State.goneArrives (s : State) (sl k : Nat) : State :=
  let f := s.fetchAt sl
  match f.gone[k]? with
  | some i => (s.setFetchAt sl { f with gone := f.gone.eraseIdx k }).fetchDone i
  | none => s

/-- Data of an issued group arrives (R250): after E(y) it is discarded with its group lost.  An island-reset response brings no data and ends
the read.  Indices past the issued groups name those given up. -/
def State.dataArrives (s : State) (sl k : Nat) (bad : List (Nat × ReadRes)) (host : List Byte) : State :=
  let f := s.fetchAt sl
  match f.issued[k]? with
  | none => s.goneArrives sl (k - f.issued.length)
  | some i =>
    let sp := ({ s.layer (s.bankFor (s.slotTl sl) i.next) sl with entry := i.entry } : LayerCfg).groupSpan i.group
    let fails := s.windowFailed i sp bad
    let s := { s with flying := s.flying.erase sp }
    if bad.any (fun b => b.2 == .islandReset) || !s.serves sp.1 sp.2 then
      s.setFetchAt sl { f with issued := f.issued.set k { i with index := none } }
    else
      let s := s.fetchDone i
      let freed := s.setFetchAt sl { f with issued := f.issued.eraseIdx k }
      if s.blendEntry (s.slotTl sl) i.next i.need < s.dtime then freed.loseGroup sl i.next i.need i.group i.spec 1
      else if fails then
        let s := match windowOf i.entry.base with
          | some (p, _) => freed.hwError p
          | none => freed
        s.loseGroup sl i.next i.need i.group i.spec 4
      else match i.group with
        | .band ty => freed.bandArrives sl ty i bad host
        | _ => freed.rowArrives sl i bad host

def execFetchDataArrival (now : Nat) (sl : Fin 96) (group : Nat) (bad : List (Nat × ReadRes)) (host : List Byte) (s : State) : Out :=
  .next ((s.tick now).when (s.slotUp sl.val) fun s => s.dataArrives sl.val group bad host)

/-! ### Deadlines (R250, R262) -/

/-- The groups of a confirmed frame that are still missing at E(y). -/
def State.missed (s : State) (sl : Nat) (next : Bool) : List (Nat × Group) :=
  let t := s.slotTl sl
  let f := s.fetchAt sl
  if s.fetches sl next && s.composing t next && (next == (s.scanAt t).latched) then
    ((s.layer (s.bankFor t next) sl).frameGroups (s.timingFor t next)).filter fun x =>
      decide (s.blendEntry t next x.1 ≤ s.dtime) &&
        !(f.got.any (fun a => a.next == next && a.group == x.2) || f.lost.any fun z => z.next == next && z.group == x.2)
  else []

/-- The cause with which a missing group is lost: 6 when it was given up or R261 held it back, else 1. -/
def State.missCause (s : State) (sl : Nat) (next : Bool) (g : Group) : Nat :=
  let l := s.layer (s.bankFor (s.slotTl sl) next) sl
  let f := s.fetchAt sl
  match l.race, f.raceFor next with
  | true, some u =>
    if u.gaveUp.contains g || (s.raceHeld l u g && !(f.issued.any fun i => i.next == next && i.group == g)) then 6 else 1
  | _, _ => 1

def State.deadlinePass (s : State) (sl : Nat) (next : Bool) : State :=
  (s.missed sl next).foldl (fun s x => s.loseGroup sl next x.1 x.2 none (s.missCause sl next x.2)) s

def execFetchDeadline (now : Nat) (sl : Fin 96) (s : State) : Out :=
  .next ((s.tick now).when (s.slotUp sl.val) fun s => (s.deadlinePass sl.val false).deadlinePass sl.val true)

/-- A racing group still held at D − URGENT_NS (R262): under SPLIT it and the later groups come from the completed buffer; under WHOLE it is given
up. -/
def State.tide (s : State) (sl : Nat) : State :=
  match s.groupToIssue sl with
  | none => s
  | some (next, y, g) =>
    let t := s.slotTl sl
    let l := s.layer (s.bankFor t next) sl
    let f := s.fetchAt sl
    match l.race, f.raceFor next with
    | true, some u =>
      if s.raceHeld l u g && decide (s.blendEntry t next y ≤ s.dtime + s.latNs + s.urgentNs) then
        if l.tide then
          let b := s.get (IG_STAT l.raceSrc) IG_STAT_LAST
          let u := { u with split := some b }
          let s := s.setFetchAt sl (f.setRace next u)
          let s := if (s.specTag t next).isSome then s else s.put (LY_RACE_STAT (s.slotName sl)) LY_RACE_STAT_BUF b
          (s.reportTide t sl next u 1 g.cameraRow).1
        else s.setFetchAt sl (f.setRace next { u with gaveUp := g :: u.gaveUp })
      else s
    | _, _ => s

def execRaceTideDeadline (now : Nat) (sl : Fin 96) (s : State) : Out :=
  .next ((s.tick now).when (s.slotUp sl.val) fun s => s.tide sl.val)

/-! ### The end of a frame (R178, R253) -/

/-- The reports of a slot's frame, and the next frame's work becomes the present one's. -/
def State.slotFrameEnd (s : State) (t sl : Nat) : State :=
  let f := s.fetchAt sl
  let g := f.figs
  let st := s.slotName sl
  let s := if g.lateCause = 0 then s
    else
      let s := s.bump (LY_LATE_CNT st) LY_LATE_CNT_COUNT g.late
      if (s.layer true sl).quiet && g.lateCause == 1 then s else s.postTl t 0x45 sl g.lateCause (min g.late 65535)
  let s := if g.badTiles = 0 then s
    else (s.bump (LY_FCT_BADCNT st) LY_FCT_BADCNT_COUNT g.badTiles).postTl t 0x44 sl g.badCause (min g.badTiles 65535)
  let s := s.put (LY_FCT_BAND st) LY_FCT_BAND_MAXBYTES g.band
  let s := if f.minLead = 0xFFFF then s else s.put (LY_RACE_STAT st) LY_RACE_STAT_MINLEAD f.minLead
  s.setFetchAt sl { f with
    issued := (f.issued.filter (·.next)).map fun i => { i with next := false }
    gone := f.gone ++ f.issued.filter (!·.next)
    got := (f.got.filter (·.next)).map fun a => { a with next := false }
    lost := (f.lost.filter (·.next)).map fun x => { x with next := false }
    figs := f.figsNext, figsNext := SlotFigs.zero, race := f.raceNext, raceNext := none, minLead := f.minNext, minNext := 0xFFFF }

end Sys2Proof.Machine
end

