-- ==== Sys2Proof/Machine/Banks.lean ====
section
/-!
DEFINITION. Bank images (R288, R290), what commits and presets make of them, the checks of validation steps 2 to 5 on slots (R205,
R263, R275), and admission over the state (R233 to R241, R249).
-/

namespace Sys2Proof.Machine

/-! ### Bank images -/

def SlotImg.layer (x : SlotImg) : LayerCfg := LayerCfg.ofWords x.slot x.words x.entry x.buds

/-- The bank of timeline t as it stands (R288). -/
def State.readBank (s : State) (t : Nat) (active : Bool) : BankImage :=
  let a := s.bgAddrs t active
  { rg := s.rdN a.1, b := s.rdN a.2,
    slots := (s.slotsOf t).map fun sl =>
      let st := s.slotName sl
      ⟨sl, s.bankWords st active, s.entAt (bankKey st active), s.budAt (bankKey st active)⟩ }

def State.writeWords (s : State) (st : Nat) (active : Bool) : Nat → List Nat → State
  | _, [] => s
  | k, w :: ws => (s.wrN (bankAddr st k active) w).writeWords st active (k + 1) ws

/-- Write a whole bank (R290, R291). -/
def State.writeBank (s : State) (t : Nat) (active : Bool) (img : BankImage) : State :=
  let a := s.bgAddrs t active
  img.slots.foldl (fun s x =>
    let st := s.slotName x.slot
    ((s.writeWords st active 0 x.words).setEntAt (bankKey st active) x.entry).setBudAt (bankKey st active) x.buds)
    ((s.wrN a.1 img.rg).wrN a.2 img.b)

def BankImage.mod (img : BankImage) (sl : Nat) (f : SlotImg → SlotImg) : BankImage :=
  { img with slots := img.slots.map fun x => if x.slot = sl then f x else x }

def BankImage.slot (img : BankImage) (sl : Nat) : Option SlotImg := img.slots.find? fun x => x.slot == sl

/-- The words that a record's mask sets over a base (R274). -/
def maskedWords (base value : List Nat) (mask : Nat) : List Nat :=
  base.mapIdx fun k w => if bit mask k then value.getD k 0 else w

/-- LY_HSTEP, LY_VSTEP and LY_SSTAT as validation writes them (R197, R203). -/
def stepWords (ws : List Nat) (taps : Nat) : List Nat :=
  let l := LayerCfg.ofWords 0 ws SurfEntry.unused []
  ((ws.set 16 (stepOf l.sw l.dw)).set 17 (stepOf l.sh l.dh)).set 18 (taps + 16 * b2n (!l.hscaled) + 32 * b2n (!l.vscaled))

/-- One record over a bank, with the copies and tap counts of its commit's validation. -/
def BankImage.applyRec (ents : List (Nat × SurfEntry)) (buds : List (Nat × List Nat)) (taps : List (Nat × Nat)) (img : BankImage) (r : CRec) :
    BankImage :=
  if r.type = 2 then
    { img with rg := if bit r.mask 0 then r.value.getD 0 0 else img.rg, b := if bit r.mask 1 then r.value.getD 1 0 else img.b }
  else img.mod r.slot fun x =>
    let ws := maskedWords x.words r.value r.mask
    { x with
      words := match taps.find? fun y => y.1 == r.slot with
        | some y => stepWords ws y.2
        | none => ws
      entry := match ents.find? fun y => y.1 == r.slot with
        | some y => y.2
        | none => x.entry
      buds := match buds.find? fun y => y.1 == r.slot with
        | some y => y.2
        | none => x.buds }

def BankImage.applyCommit (img : BankImage) (c : Commit) : BankImage := c.recs.foldl (BankImage.applyRec c.ents c.buds c.taps) img

/-- The projected state of a timeline (R275). -/
def State.projected (s : State) (t : Nat) : BankImage := (s.tlcAt t).live.foldl BankImage.applyCommit (s.readBank t true)

/-! ### Row indices (R174) -/

/-- The row index entries of a Facet layer's tile rows as a read gives them, none where the read fails: of a host window the bytes that the
host answers, or values that nothing constrains where no command brings an answer. -/
def State.readIndex (s : State) (l : LayerCfg) (answer : Option (List Byte)) : Option (List Nat) :=
  let a := l.entry.aux1 + 4 * l.tileRows.headD 0
  let n := l.tileRows.length
  match windowOf a with
  | some (p, o) =>
    if s.hwOk p o (4 * n) then
      some ((List.range n).map fun k => match answer with
        | some bs => fieldAt bs (4 * k) 4
        | none => (Config.indexWord (a + 4 * k)).toNat)
    else none
  | none => if s.memGood a (4 * n) then some ((List.range n).map fun k => leNat (s.rdBytes (a + 4 * k) 4)) else none

/-- The row budgets of a Facet layer: the row index entries of its tile rows, none when the read fails or one breaks R173. -/
def State.readBudgets (s : State) (l : LayerCfg) (answer : Option (List Byte)) : Option (List Nat) :=
  if fmtFacet l.entry.format then
    match s.readIndex l answer with
    | some b => if b.all (rowIndexOk l.entry) then some b else none
    | none => none
  else some []

/-! ### Presets on images (R104, R235) -/

/-- A preset's pairs over one slot.  The slot keeps the entry and row budgets copied for it (R146, R174) where the pairs move neither its
surface nor its tile rows; where they do, the copies are made when the preset is applied.  DESIGN CHOICE (assumption 128). -/
def State.presetSlot (s : State) (p : Preset) (x : SlotImg) : SlotImg :=
  let ps := p.pairs.filter fun q => inRange (0x210000 + x.slot * 0x400) (0x210000 + x.slot * 0x400 + 0x100) q.1
  if ps.isEmpty then x
  else
    let ws := ps.foldl (fun ws q => ws.set ((q.1 - 0x210000) % 0x400 / 4) q.2) x.words
    let e := if ws.getD 1 0 = x.words.getD 1 0 then x.entry else s.entryAt (handleIndex (ws.getD 1 0))
    let l := LayerCfg.ofWords x.slot ws e []
    let same := ws.getD 1 0 == x.words.getD 1 0 && l.tileRows == (LayerCfg.ofWords x.slot x.words e []).tileRows
    let taps := match l.lineStore with
      | some y => y.1
      | none => l.vtaps
    { x with words := stepWords ws taps, entry := e, buds := if same then x.buds else (s.readBudgets l none).getD [] }

def State.presetOn (s : State) (img : BankImage) (p : Preset) : BankImage := { img with slots := img.slots.map (s.presetSlot p) }

def State.presetsOf (s : State) (t : Nat) : List Preset := s.locket.presets.filter fun p => p.tl == t

/-- The enabled layers of an image. -/
def BankImage.layers (img : BankImage) : List LayerCfg := (img.slots.map SlotImg.layer).filter (·.en)

/-- The state alone and with each preset applied (R235). -/
def State.variants (s : State) (t : Nat) (img : BankImage) : List (List LayerCfg) :=
  img.layers :: (s.presetsOf t).map fun p => (s.presetOn img p).layers

/-! ### Admission over the state (R234, R238 to R241) -/

def State.dramCfg (s : State) : DramCfg :=
  match s.locket.dram with
  | some d => ⟨d.rate, d.ranks, d.width, d.density, d.mask⟩
  | none => DramCfg.none

/-- Whether any byte of a surface lies in a mirrored window. -/
def State.entryMirrored (s : State) (e : SurfEntry) : Bool :=
  e.planes.any fun p => s.windows.any fun w => overlaps p.1 p.2 w.1 w.2

/-- The sum of ING (R234) under a reading of the registers. -/
def State.ingRate (s : State) (g : Nat → Word) : Nat :=
  ((List.range 24).map fun c =>
    if getField (g (IG_CTRL c)) IG_CTRL_EN = 1 then
      let ns := getField (g (IG_LINE_NS c)) IG_LINE_NS_LINE_NS
      let bufs := (List.range (getField (g (IG_CTRL c)) IG_CTRL_COUNT + 1)).map fun k => s.surfAt (handleIndex (g (IG_BUF c k)).toNat)
      (if ns = 0 then 0 else cdiv (getField (g (IG_LBYTES c)) IG_LBYTES_LINE_BYTES * 1000000) ns) * (if bufs.any s.entryMirrored then 2 else 1)
    else 0).foldl (· + ·) 0

/-- The sum of CAR (R234, R403). -/
def carRate (g : Nat → Word) : Nat :=
  ((List.range 248).map fun k =>
    let c := g (CA_Q_CTRL (k + 8))
    if getField c CA_Q_CTRL_EN = 1 ∧ getField c CA_Q_CTRL_GUAR = 1 then
      (g (CA_Q_CONTRACT (k + 8))).toNat * (if getField c CA_Q_CTRL_MIRROR = 1 then 2 else 1)
    else 0).foldl (· + ·) 0 +
  ((List.range 8).map fun i =>
    let c := g (CA_P_CTRL i)
    if getField c CA_P_CTRL_EN = 1 ∧ getField c CA_P_CTRL_GUAR = 1 then
      (g (CA_P_CIR i)).toNat * (if getField c CA_P_CTRL_MIRROR = 1 then 2 else 1)
    else 0).foldl (· + ·) 0

/-- Writeback bytes per active line of a timeline (R122, R229). -/
def State.wbBytes (s : State) (g : Nat → Word) (t : Nat) : Nat :=
  ((List.range 4).map fun n =>
    if s.on (WB_CTRL n) WB_CTRL_EN && s.wbTl n == t then
      let bufs := (List.range (s.get (WB_CTRL n) WB_CTRL_COUNT + 1)).map fun k => s.surfAt (handleIndex (s.rdN (WB_SURF n k)))
      (timingBy g t).hactive * 4 * (if bufs.any s.entryMirrored then 2 else 1)
    else 0).foldl (· + ·) 0

/-- The figures of timeline t's projected state under a reading of the registers (R235, R237, R275). -/
def State.projFigures (s : State) (g : Nat → Word) (t : Nat) : TlFigures :=
  figuresOf (timingBy g t) (blendBy g t) (getField (g AD_CFG) AD_CFG_LAT_NS) (s.wbBytes g t) (s.readBank t true).layers
    (s.variants t (s.projected t)) (s.specOn t)

/-- What a timeline that a case leaves alone counts with: the TLRATE and reserve it has stored (R240), and the ORATE of its projected state,
which no register stores (R239). -/
def State.stored (s : State) (g : Nat → Word) (t : Nat) : Nat × Nat × Option Nat :=
  (s.rdN (AD_TL_RATE t), (s.projFigures g t).orate, some (s.rdN (AD_TL_RES t)))

/-- The totals of a case: trial figures for some timelines, stored ones for the rest (R239). -/
def State.caseTotals (s : State) (g : Nat → Word) (trial : List (Nat × (Nat × Nat × Option Nat))) : AdmTotals :=
  let ts := (List.range 16).filter fun t => (timingBy g t).live
  admTotals s.dramCfg (ts.map (timingBy g)) (ts.map fun t => match trial.find? fun x => x.1 == t with
      | some x => x.2
      | none => s.stored g t)
    (getField (g AD_CFG2) AD_CFG2_MAINT_PM) (s.ingRate g) (carRate g) (getField (g OG_CTRL) OG_CTRL_FLAT_EN == 1)

/-- The figures of timeline t in one mode; while a mode other than the one in force is decided and awaits its latch, its reserve is
the sum of both modes', and no less than the one stored (R237, R249). -/
def State.trialFigs (s : State) (g : Nat → Word) (t : Nat) (act : List LayerCfg) (vars : List (List LayerCfg)) (spec load : Bool) :
    Nat × Nat × Option Nat :=
  let f := figuresOf (timingBy g t) (blendBy g t) (getField (g AD_CFG) AD_CFG_LAT_NS) (s.wbBytes g t) act vars spec
  let mixed := !load && (spec != s.specOn t || (s.admAt t).pend.any fun p => p.2 != s.specOn t)
  (f.rate, f.orate, if mixed then maxInf (addInf f.sres f.hres) (some (s.rdN (AD_TL_RES t))) else if spec then f.sres else f.hres)

/-- Decide a timeline's mode: speculation off must pass, and speculation on is chosen when it passes too (R238).  The other case is
the shortfall. -/
def State.decideMode (s : State) (g : Nat → Word) (t : Nat) (act : List LayerCfg) (vars : List (List LayerCfg)) (load : Bool) : AdmResult ⊕ Nat :=
  let try_ (spec : Bool) : AdmResult × Option Nat :=
    let f := s.trialFigs g t act vars spec load
    let tot := s.caseTotals g [(t, f)]
    (⟨t, spec, f.1, f.2.1, f.2.2.getD 0, tot⟩, tot.shortfall)
  let off := try_ false
  match off.2 with
  | some n => .inr n
  | none =>
    if decide (0 < (timingBy g t).specN) && getField (g AD_CFG2) AD_CFG2_SPEC_EN == 1 then
      let on := try_ true
      if on.2.isNone then .inl on.1 else .inl off.1
    else .inl off.1

/-- AD_LAST, AD_SHORT and the counters of a case (R240). -/
def State.caseDone (s : State) (t code short : Nat) : State :=
  let s := ((s.put AD_LAST AD_LAST_CODE code).put AD_LAST AD_LAST_TL t).put AD_LAST AD_LAST_VALID 1
  if code = 0x14 then (s.wrN AD_SHORT (min short 0xFFFFFFFF)).bump AD_REF_CNT AD_REF_CNT_COUNT 1 else s.bump AD_ACC_CNT AD_ACC_CNT_COUNT 1

def sat32 (n : Nat) : Nat := min n 0xFFFFFFFF

def State.showTotals (s : State) (a : AdmTotals) : State :=
  (((s.wrN AD_SVC (sat32 a.svc)).wrN AD_RESV (sat32 a.res)).wrN AD_DEM (sat32 a.dem)).wrN AD_ODEM (sat32 a.odem)

/-- PEND and PEND_SPEC (R249, R264). -/
def State.showPend (s : State) (t : Nat) : State :=
  let p := (s.admAt t).pend
  (s.put (AD_TL_MODE t) AD_TL_MODE_PEND (b2n (p.any fun x => x.2 != s.specOn t))).put (AD_TL_MODE t) AD_TL_MODE_PEND_SPEC
    (b2n (match p.getLast? with
      | some x => x.2
      | none => false))

/-- The figures of an accepted case are stored; a commit's mode, by its acceptance count, awaits its latch (R240, R249). -/
def State.storeCase (s : State) (r : AdmResult) (order : Option Nat) : State :=
  let a := s.admAt r.tl
  let s := match order with
    | some n => s.setAdmAt r.tl { pend := a.pend ++ [(n, r.mode)] }
    | none => s
  let s := ((s.wrN (AD_TL_RATE r.tl) (sat32 r.rate)).wrN (AD_TL_RES r.tl) (sat32 r.res)).showTotals r.tot
  s.showPend r.tl

/-- Speculation and EARLY of a mode come into force (R237, R249). -/
def State.setMode (s : State) (g : Nat → Word) (t : Nat) (spec : Bool) : State :=
  let tm := timingBy g t
  let s := (s.put (TL_LATCH t) TL_LATCH_SPEC (b2n spec)).put (TL_LATCH t) TL_LATCH_EARLY (if spec then 0 else tm.early)
  (s.put (AD_TL_MODE t) AD_TL_MODE_SPEC (b2n spec)).put (AD_TL_MODE t) AD_TL_MODE_SPEC_N tm.specN

/-- The reserve of the mode in force on the active state is stored (R237, R249). -/
def State.storeReserve (s : State) (g : Nat → Word) (t : Nat) : State :=
  let img := s.readBank t true
  let f := figuresOf (timingBy g t) (blendBy g t) s.latNs (s.wbBytes g t) img.layers (s.variants t img) (s.specOn t)
  s.wrN (AD_TL_RES t) (sat32 ((if s.specOn t then f.sres else f.hres).getD 0))

/-- The modes decided under an order will never take effect: PEND is shown again, and with no mode left to await its latch the reserve is
that of the mode in force. -/
def State.modeGone (s : State) (t order : Nat) : State :=
  let a := s.admAt t
  let rest := a.pend.filter fun x => x.1 != order
  if rest = a.pend then s
  else
    let s := s.setAdmAt t { pend := rest }
    (if rest.isEmpty then s.storeReserve (s.rdNext t) t else s).showPend t

/-- The orders under which the mode that a direct seal's admission decided, and the mode that a re-seat's decided, await their latch (R249,
R295, R106); no acceptance count reaches them. -/
def directOrder : Nat := 2 ^ 32

def seatOrder : Nat := 2 ^ 32 + 1

/-- What each latch does to the stored figures (R241, R249): the modes of the commits handed over take effect in turn, TLRATE is
lowered where it can be, and the reserve of the mode in force is stored when no mode awaits its latch any more. -/
def State.latchFigures (s : State) (t : Nat) (orders : List Nat) : State :=
  let a := s.admAt t
  let mine := a.pend.filter fun p => orders.contains p.1
  let rest := a.pend.filter fun p => !orders.contains p.1
  let g := s.rdNext t
  let s := match mine.getLast? with
    | some p => (s.setAdmAt t { pend := rest }).setMode g t p.2
    | none => s
  let img := s.readBank t true
  let act := img.layers
  let f := figuresOf (timingBy g t) (blendBy g t) s.latNs (s.wbBytes g t) act (s.variants t img) (s.specOn t)
  let s := if f.rate < s.rdN (AD_TL_RATE t) then s.wrN (AD_TL_RATE t) f.rate else s
  (if !mine.isEmpty && rest.isEmpty then s.storeReserve g t else s).showPend t

/-- Whether an installer's change of an address is an input of admission (R233, R234). -/
def admInput (a : Nat) : Bool :=
  a == AD_CFG || a == AD_CFG2 || a == OG_CTRL || inRange 0x100000 0x110000 a && a % 0x1000 == 0 ||
  inRange 0xB00000 0xB00C00 a || inRange 0x800000 0x803000 a

/-- The timeline whose registers an address names, 0 where it names none. -/
def changeTl (a : Nat) : Nat := if inRange 0x100000 0x110000 a then (a - 0x100000) / 0x1000 else 0

/-- Whether an installer's change leaves the limits that the spec sets a running timeline: those of R98, and PWM_HZ of 100 to 50,000 Hz (R121).
DESIGN CHOICE (assumption 129): such a change is not applied. -/
def State.changeLegal (s : State) (g : Nat → Word) (a : Nat) : Bool :=
  let fits (t : Nat) : Bool := !(s.tlOn t) || getField (g (TL_CTRL t)) TL_CTRL_EN == 0 || (limitsBy g t && clocksBy g)
  if inRange 0x100000 0x110000 a then
    let t := changeTl a
    if a = TL_BL t then decide (100 ≤ getField (g a) TL_BL_PWM_HZ) && decide (getField (g a) TL_BL_PWM_HZ ≤ 50000) else fits t
  else if inRange 0x400000 0x410000 a then fits ((a - 0x400000) / 0x1000)
  else true

/-- The admission of an installer's change (R233): the trial registers give every total, and the figures of every enabled timeline are made
again where the change can move them.  False: the change is not applied; one that fails its case is reported as R240 says. -/
def State.admChange (s : State) (a : Nat) (w : Word) : State × Bool :=
  let g := s.rdWith [(a, w)]
  if !s.changeLegal g a then (s, false)
  else if !admInput a then (s, true)
  else
    let moved := a == AD_CFG || a == AD_CFG2 || inRange 0x100000 0x110000 a
    let ts := if moved then (List.range 16).filter fun t => (timingBy g t).live else []
    let figs := ts.map fun t =>
      let img := s.projected t
      (t, s.trialFigs g t (s.layersIn true t) (s.variants t img) (s.specOn t) false)
    let tot := s.caseTotals g figs
    match tot.shortfall with
    | some n => (s.caseDone (changeTl a) 0x14 n, false)
    | none =>
      let s := figs.foldl (fun s x => s.storeCase ⟨x.1, s.specOn x.1, x.2.1, x.2.2.1, x.2.2.2.getD 0, tot⟩ none) s
      ((s.showTotals tot).caseDone (changeTl a) 0 0, true)

/-! ### Slots at validation (R275) -/

/-- A refusal: code, failing step, failing slot (0xFF none), VALUE. -/
structure Refuse where
  code  : Nat
  step  : Nat
  slot  : Nat
  value : Nat
  deriving DecidableEq, Repr

def firstSome {α β : Type} (f : α → Option β) : List α → Option β
  | [] => none
  | x :: xs => match f x with
    | some y => some y
    | none => firstSome f xs

/-- A slot under validation: its candidate configuration, whether its handle is named by this case, and what the host answers to the read of
its row index in a window. -/
structure Examined where
  img   : SlotImg
  named : Bool
  index : Option (List Byte)

/-- The bytes of a slot's row index that lie in a host window. -/
def SlotImg.windowIndex (x : SlotImg) : Nat :=
  let l := x.layer
  if fmtFacet l.entry.format && (windowOf l.entry.aux1).isSome then 4 * l.tileRows.length else 0

/-- The host's answers are given out to the slots in their order. -/
def giveIndex : List Examined → List Byte → List Examined
  | [], _ => []
  | x :: xs, h => { x with index := some (bytesAt h 0 x.img.windowIndex) } :: giveIndex xs (h.drop x.img.windowIndex)

/-- Step 2 for one slot (R147, R148, R89); "none" names no handle.  `owner` is the port, none for the supervisor, who may name any surface. -/
def State.handleCheck (s : State) (owner : Option Nat) (bad : List Nat) (x : Examined) : Option Refuse :=
  let h := x.img.words.getD 1 0
  let e := s.entryAt (handleIndex h)
  if !x.named || h == noHandle then none
  else if !handleLive h e || bad.contains (handleIndex h) || s.assetHeld e then some ⟨0x16, 2, x.img.slot, 0⟩
  else match owner with
    | some p => if e.owner == p || e.pub then none else some ⟨0x10, 2, x.img.slot, 0⟩
    | none => none

/-- The ring a racing layer names holds its surface and has its geometry and at least three buffers (R260). -/
def State.raceOk (s : State) (l : LayerCfg) : Bool :=
  !l.race ||
    (let n := s.get (IG_CTRL l.raceSrc) IG_CTRL_COUNT + 1
     let e := (s.igBuffer l.raceSrc 0).2
     decide (3 ≤ n) && ((List.range n).any fun k => s.rdN (IG_BUF l.raceSrc k) == l.handle) &&
       l.entry.format == e.format && l.entry.width == e.width && l.entry.height == e.height && l.entry.pitch == e.pitch &&
       l.entry.auxPitch == e.auxPitch)

/-- Step 3 for one slot, with the row budgets it copies (R174, R205, R252, R260). -/
def State.formatCheck (s : State) (bad : List Nat) (x : Examined) : Option Refuse ⊕ SlotImg :=
  let l := x.img.layer
  let no (c : Nat) : Option Refuse ⊕ SlotImg := .inl (some ⟨c, 3, l.slot, 0⟩)
  if !l.formatOk || !s.raceOk l then no 0x11
  else if fmtFacet l.entry.format && bad.contains (65536 + handleIndex l.handle) then no 0x11
  else match s.readBudgets l x.index with
    | none => no 0x11
    | some b => if l.alignOk then .inr { x.img with buds := b } else no 0x12

/-- Step 4 for one slot: its VTAPS_EFF code, and whether taps were reduced. -/
def lineCheck (l : LayerCfg) : Option Refuse ⊕ (Nat × Bool) :=
  match l.lineStore with
  | some v => if l.bandsOk then .inr v else .inl (some ⟨0x13, 4, l.slot, 0⟩)
  | none => .inl (some ⟨0x13, 4, l.slot, 0⟩)

/-- Step 5 for one slot (R204, R263). -/
def State.rateCheck (s : State) (t : Nat) (l : LayerCfg) : Option Refuse :=
  let tm := s.timing t
  let k := if tm.genlock ∧ s.get (TL_GENLOCK t) TL_GENLOCK_SRC = l.raceSrc then tm.khz else tm.khza
  let race := l.race && decide (l.dh * tm.htotal * 1000000 < l.sh * s.get (IG_LINE_NS l.raceSrc) IG_LINE_NS_LINE_NS * k)
  if l.rateOk tm.khz && !race then none else some ⟨0x15, 5, l.slot, 0⟩

/-- What steps 2 to 5 leave: the slots with their copies and effective taps, and whether any taps were reduced. -/
structure Checked where
  slots   : List SlotImg
  taps    : List (Nat × Nat)
  reduced : Bool

/-- Steps 3 to 5 over slots in increasing index; `pre` runs before step 3's slots. -/
def State.slotChecks (s : State) (t : Nat) (bad : List Nat) (xs : List Examined) : Refuse ⊕ Checked :=
  let f := xs.map (s.formatCheck bad)
  match firstSome (fun r => match r with
      | Sum.inl (some e) => some e
      | _ => none) f with
  | some e => .inl e
  | none =>
    let imgs := f.filterMap fun r => match r with
      | Sum.inr i => some i
      | _ => none
    let ls := imgs.map fun i => (i.slot, lineCheck i.layer)
    match firstSome (fun r => match r.2 with
        | Sum.inl (some e) => some e
        | _ => none) ls with
    | some e => .inl e
    | none =>
      let taps := ls.filterMap fun r => match r.2 with
        | Sum.inr v => some (r.1, v)
        | _ => none
      match firstSome (fun (i : SlotImg) => s.rateCheck t i.layer) imgs with
      | some e => .inl e
      | none => .inr { slots := imgs, taps := taps.map fun x => (x.1, x.2.1), reduced := taps.any fun x => x.2.2 }

/-- The slots that presets enable over a candidate, in increasing index (R275). -/
def State.presetSlots (s : State) (t : Nat) (cand : BankImage) : List SlotImg :=
  (s.presetsOf t).flatMap fun p =>
    cand.slots.filterMap fun x =>
      let y := s.presetSlot p x
      if y.layer.en && (p.slots.contains x.slot && !x.layer.en) then some y else none

/-- Whether one of a timeline's presets enables a slot. -/
def State.presetEnables (s : State) (t : Nat) (x : SlotImg) : Bool :=
  !x.layer.en && (s.presetsOf t).any fun p => p.slots.contains x.slot && (s.presetSlot p x).layer.en

/-- Whether an image shows the surface and the tile rows of another. -/
def SlotImg.sameRows (x y : SlotImg) : Bool := x.slot == y.slot && x.words.getD 1 0 == y.words.getD 1 0 && x.layer.tileRows == y.layer.tileRows

/-- A candidate with the row budgets and effective taps that the checks made for it. -/
def BankImage.withChecked (img : BankImage) (c : Checked) : BankImage :=
  { img with slots := img.slots.map fun x =>
    let x := match c.slots.find? fun i => i.sameRows x with
      | some i => { x with buds := i.buds }
      | none => x
    match c.taps.find? fun y => y.1 == x.slot with
    | some y => if x.layer.en then { x with words := stepWords x.words y.2 } else x
    | none => x }

end Sys2Proof.Machine
end

