-- ==== Sys2Proof/Machine/Links.lean ====
section
/-!
DEFINITION. Output links, panels and backlights (R116 to R121), and the entry into LIT (R45).
-/

namespace Sys2Proof.Machine

def State.scanMod (s : State) (t : Nat) (f : Scan → Scan) : State := s.setScanAt t (f (s.scanAt t))
def State.linkMod (s : State) (l : Nat) (f : OutLink → OutLink) : State := s.setLinkAt l (f (s.linkAt l))
def State.panelMod (s : State) (t : Nat) (f : Panel → Panel) : State := s.scanMod t fun x => { x with panel := f x.panel }

/-! ### Roles and the entry into LIT (R45, R79) -/

def State.firstLights (s : State) : List Nat := (s.locket.roles.filter (·.first)).map (·.tl)
def State.isFirst (s : State) (t : Nat) : Bool := s.firstLights.contains t
def State.ready (s : State) : Bool := s.on SY_BOOT_STAT SY_BOOT_STAT_READY
def State.enabledTls (s : State) : List Nat := (List.range 16).filter s.tlOn

/-- The outcome of a timeline's first training attempt, over all its links: none while one is to come. -/
def State.triedOf (s : State) (t : Nat) : Option Bool :=
  let ls := s.linksOf t
  if ls.isEmpty || ls.any fun l => (s.linkAt l).tried.isNone then none else some (ls.all fun l => (s.linkAt l).tried == some true)

/-- A held park request becomes due at the entry into LIT, where heartbeat monitoring is armed (R53, R481). -/
def State.enterLit (s : State) : State :=
  let s := { s with power := { s.power with state := .lit } }
  let s := { s with power := { s.power with degraded := s.degradedNow } }
  let s := s.postPstate 2 3 s.boot.cause
  let s := { s with sv := { s.sv with hbFrom := s.dtime } }
  let s := s.put SV_HB_STAT SV_HB_STAT_ARMED (s.get SV_HB_CFG SV_HB_CFG_EN)
  match s.park.held with
  | some c => s.parkBegin c 2
  | none => s

/-- WAKING is left when every first-light timeline has shown first light or has failed its first training attempt; without one, at
hub readiness (R45). -/
def State.checkLit (s : State) : State :=
  let fs := s.firstLights
  if decide (s.power.state = .waking) && s.boot.applied && (!s.boot.recover || s.ready) &&
      (if fs.isEmpty then s.ready else fs.all fun t => (s.scanAt t).lit || s.triedOf t == some false) then s.enterLit
  else s

/-! ### Link state (R113, R116) -/

def State.linkIsUp (s : State) (l : Nat) : Bool := s.on (OL_LSTAT l) OL_LSTAT_UP
def State.usersOf (s : State) (l : Nat) : List Nat := (List.range 16).filter fun t => (s.linksOf t).contains l && (s.tlOn t || (s.scanAt t).started)

/-- Every routed link of a timeline is up (R113). -/
def State.allUp (s : State) (t : Nat) : Bool := !(s.linksOf t).isEmpty && (s.linksOf t).all s.linkIsUp

/-- A routed link of a timeline is down, as R118 counts it. -/
def State.linkDown (s : State) (t : Nat) : Bool := (s.linksOf t).any fun l => !s.linkIsUp l

def State.showUp (s : State) (t : Nat) : State := s.put (TL_STAT t) TL_STAT_LINK_UP (b2n (s.allUp t))

/-- LINK_STATE to every timeline of a link (R124). -/
def State.postLink (s : State) (l st detail : Nat) : State := (s.usersOf l).foldl (fun s t => s.postTl t 0x40 l st detail) s

/-- Past Up 2: sink indications of the timeline's links are honoured (R119). -/
def Panel.honours (p : Panel) : Bool := p.phase == .ready || p.phase == .blWait || p.phase == .lit

/-- A training attempt starts, and is counted (R116). -/
def State.trainGo (s : State) (l : Nat) : State :=
  let s := s.linkMod l fun k => { k with training := true, retryAt := none }
  let s := s.bump (OL_LSTAT l) OL_LSTAT_RETRY 1
  (s.usersOf l).foldl (fun s t => s.bump (TL_STAT t) TL_STAT_RETRAIN_CNT 1) s

/-- The first attempt of a link starts once its sink has been noticed and the second group is loaded (R42). -/
def State.trainFirst (s : State) (l : Nat) : State :=
  let k := s.linkAt l
  if k.sink && !k.training && k.tried.isNone && decide (s.boot.phase = .loaded) && !(s.usersOf l).isEmpty then s.trainGo l else s

def State.quadUp (s : State) (l : Nat) : Bool := s.islUp (islQuad (l / 4))

def execHpdAssert (now : Nat) (l : Fin 48) (s : State) : Out :=
  .next ((s.tick now).when (s.quadUp l.val && !(s.linkAt l.val).sink && (s.usersOf l.val).any fun t => (s.scanAt t).panel.honours) fun s =>
    (s.linkMod l.val fun k => { k with sink := true }).trainFirst l.val)

/-- Whether an enabled timeline uses a link, which is retrained only then (R117). -/
def State.wanted (s : State) (l : Nat) : Bool := (s.usersOf l).any s.tlOn

/-- A link that was up goes down and is retrained at once (R116, R117). -/
def State.linkLost (s : State) (l cause : Nat) : State :=
  let s := s.put (OL_LSTAT l) OL_LSTAT_UP 0
  let s := s.linkMod l fun k => { k with video := false, retries := 0, reported := false, retryAt := none }
  let s := (s.usersOf l).foldl (fun s t => ((s.put (TL_STAT t) TL_STAT_LINKLOSS 1).put (TL_STAT t) TL_STAT_LINK_UP 0).put (WT_SINK_STAT t) WT_SINK_STAT_ACTIVE 0) s
  let s := s.postLink l 0 cause
  if s.wanted l then s.trainGo l else s

def State.isAphy (s : State) (l : Nat) : Bool := decide (3 ≤ s.get (OL_LINK l) OL_LINK_PROTO)

/-- HPD lost for more than 2 ms. -/
def execHpdLoss (now : Nat) (l : Fin 48) (low : Nat) (s : State) : Out :=
  .next ((s.tick now).when (s.linkIsUp l.val && !s.isAphy l.val && decide (2000000 < low)) fun s => s.linkLost l.val 1)

def execIrqHpd (now : Nat) (l : Fin 48) (statusOk : Bool) (s : State) : Out :=
  .next ((s.tick now).when (s.linkIsUp l.val && !s.isAphy l.val && !statusOk) fun s => s.linkLost l.val 4)

def execAphyOutputLinkDown (now : Nat) (l : Fin 48) (s : State) : Out :=
  .next ((s.tick now).when (s.linkIsUp l.val && s.isAphy l.val) fun s => s.linkLost l.val 3)

/-! ### Training (R42, R110, R114, R117) -/

/-- The wait before retry n of a series, n from 0: 10 ms doubling to 640 ms. -/
def retryWait (n : Nat) : Nat := min (10 * 2 ^ min n 6) 640 * 1000000

/-- A failed attempt: reported once in its series, and retried. -/
def State.trainFailed (s : State) (l cause : Nat) : State :=
  let k := s.linkAt l
  let s := if k.reported then s else s.postLink l 0 cause
  s.linkMod l fun k => { k with reported := true, retries := k.retries + 1, retryAt := some (s.dtime + retryWait k.retries) }

/-- Whether a timeline's sink CRC is used (R337): SST or split DisplayPort or eDP, no DSC, and a sink on each link that has it. -/
def State.sinkActive (s : State) (t : Nat) : Bool :=
  let m := s.get (TL_OUT t) TL_OUT_MODE
  s.get (WT_SINK_CTRL t) WT_SINK_CTRL_MODE != 0 && (m == 1 || m == 3) && !s.on (FN_DSC t) FN_DSC_EN && s.allUp t &&
  (s.linksOf t).all fun l => (s.linkAt l).sinkCrc && (let p := s.get (OL_LINK l) OL_LINK_PROTO; p == 1 || p == 2)

/-- The sink's refresh range against VTOTAL_MAX (R110). -/
def State.asClamp (s : State) (t : Nat) (maxLines : Option Nat) : State :=
  match maxLines with
  | some m => if s.on (TL_CTRL t) TL_CTRL_ADAPTIVE && decide (m < s.get (TL_AS t) TL_AS_VTOTAL_MAX) then s.put (TL_STAT t) TL_STAT_AS_CLAMP 1 else s
  | none => s

/-- AS_CLAMP where a change of the timeline's registers takes its frames past what the sinks of its links can take. -/
def State.asShow (s : State) (t : Nat) : State :=
  (s.linksOf t).foldl (fun s l => if s.linkIsUp l then s.asClamp t (s.linkAt l).sinkMax else s) s

def State.linkTrained (s : State) (l rate lanes : Nat) (fec : Bool) (maxLines : Option Nat) (sinkCrc : Bool) : State :=
  let dsc := (s.usersOf l).any fun t => s.on (FN_DSC t) FN_DSC_EN
  let fec := fec || (dsc && s.get (OL_LINK l) OL_LINK_PROTO == 1 && decide (rate < 8))
  let s := ((s.put (OL_LSTAT l) OL_LSTAT_UP 1).put (OL_LSTAT l) OL_LSTAT_RATE rate).put (OL_LSTAT l) OL_LSTAT_LANES lanes
  let s := s.put (OL_LSTAT l) OL_LSTAT_FEC (b2n fec)
  let s := s.linkMod l fun k => { k with retries := 0, reported := false, upAt := s.dtime, sinkMax := maxLines, sinkCrc := sinkCrc }
  let s := s.postLink l 1 (rate + lanes * 256)
  (s.usersOf l).foldl (fun s t =>
    let s := (s.showUp t).asClamp t maxLines
    let s := s.put (WT_SINK_STAT t) WT_SINK_STAT_ACTIVE (b2n (s.sinkActive t))
    s.setSinkAt t SinkState.reset) s

/-- An attempt ends.  A rate, lane count or payload (R114) the link may not have fails it. -/
def State.trainEnd (s : State) (l : Nat) (ok : Bool) (rate lanes : Nat) (fec : Bool) (maxLines : Option Nat) (sinkCrc : Bool) : State :=
  let lanes := min lanes (s.get (OL_LINK l) OL_LINK_LANES)
  let rate := min rate (s.get (OL_LINK l) OL_LINK_MAXRATE)
  let good := ok && carriesBy s.rd l rate lanes
  let s := s.linkMod l fun k => { k with training := false, tried := if k.tried.isNone then some good else k.tried }
  let s := if good then s.linkTrained l rate lanes fec maxLines sinkCrc else s.trainFailed l (if ok then 5 else 2)
  s.checkLit

def execLinkTrainingDone (now : Nat) (l : Fin 48) (ok : Bool) (rate lanes : Nat) (fec : Bool) (maxLines : Option Nat) (sinkCrc : Bool)
    (s : State) : Out :=
  .next ((s.tick now).when (s.quadUp l.val && (s.linkAt l.val).training) fun s => s.trainEnd l.val ok rate lanes fec maxLines sinkCrc)

def State.retryDue (s : State) (l : Nat) : Bool :=
  !s.linkIsUp l && !(s.linkAt l).training && s.wanted l && s.quadUp l &&
  match (s.linkAt l).retryAt with
  | some t => decide (t ≤ s.dtime)
  | none => false

def execLinkRetrainTimer (now : Nat) (l : Fin 48) (s : State) : Out :=
  .next ((s.tick now).when ((s.tick now).retryDue l.val) fun s => s.trainGo l.val)

/-! ### Panels (R119 to R121) -/

def msNs (n : Nat) : Nat := n * 1000000

def State.setPanelEn (s : State) (t : Nat) (on : Bool) : State :=
  { s with power := { s.power with panelEn := if on then t :: s.power.panelEn.filter (· != t) else s.power.panelEn.filter (· != t) } }

def State.setBlPwm (s : State) (t : Nat) (on : Bool) : State :=
  { s with power := { s.power with blPwm := if on then t :: s.power.blPwm.filter (· != t) else s.power.blPwm.filter (· != t) } }

/-- A request to bring a panel up; one that comes in a down sequence waits for its end. -/
def State.panelUp (s : State) (t : Nat) : State :=
  s.panelMod t fun p => match p.phase with
    | .off => { p with phase := .waitPoff, upAfter := false }
    | .pwmEnd | .blOff | .vOff => { p with upAfter := true }
    | _ => p

def State.poffOver (s : State) (t : Nat) : Bool :=
  match (s.scanAt t).panel.lowAt with
  | some a => decide (a + msNs (s.get (TL_POFF t) TL_POFF_T_POFF) ≤ s.dtime)
  | none => true

def State.pixelUp (s : State) (t : Nat) : Bool := s.islUp (islPixel t)

def execPanelTpoffDone (now : Nat) (t : Fin 16) (s : State) : Out :=
  .next ((s.tick now).when (s.pixelUp t.val && (s.scanAt t.val).panel.phase == .waitPoff && (s.tick now).poffOver t.val) fun s =>
    (s.setPanelEn t.val true).panelMod t.val fun p => { p with phase := .ponWait, since := s.dtime })

/-- Whether n ms have passed in a phase of a panel. -/
def State.phaseOver (s : State) (t : Nat) (ph : PanelPhase) (n : Nat) : Bool :=
  s.pixelUp t && (s.scanAt t).panel.phase == ph && decide ((s.scanAt t).panel.since + msNs n ≤ s.dtime)

def execPanelTponExpiry (now : Nat) (t : Fin 16) (s : State) : Out :=
  .next ((s.tick now).when ((s.tick now).phaseOver t.val .ponWait (s.get (TL_PSEQ t.val) TL_PSEQ_T_PON)) fun s =>
    s.panelMod t.val fun p => { p with phase := .ready, since := s.dtime })

/-- BL_PWM starts at TL_BL.DUTY (Up 4). -/
def execBacklightOnExpiry (now : Nat) (t : Fin 16) (s : State) : Out :=
  .next ((s.tick now).when ((s.tick now).phaseOver t.val .blWait (s.get (TL_PSEQ t.val) TL_PSEQ_T_BLON)) fun s =>
    (s.setBlPwm t.val true).panelMod t.val fun p => { p with phase := .lit, since := s.dtime, duty := s.get (TL_BL t.val) TL_BL_DUTY })

/-- The PWM period in ns. -/
def State.pwmNs (s : State) (t : Nat) : Nat :=
  let hz := s.get (TL_BL t) TL_BL_PWM_HZ
  if hz = 0 then 0 else 1000000000 / hz

def State.pwmOver (s : State) (t : Nat) : Bool :=
  let p := (s.scanAt t).panel
  s.pixelUp t && (p.phase == .lit || p.phase == .pwmEnd) && decide (p.since + s.pwmNs t ≤ s.dtime)

/-- The end of a PWM period: the duty written comes into force, or Down 1 (R121, R119). -/
def State.pwmEnd (s : State) (t : Nat) : State :=
  if (s.scanAt t).panel.phase = .pwmEnd then
    (s.setBlPwm t false).panelMod t fun p => { p with phase := .blOff, since := s.dtime, duty := 0 }
  else s.panelMod t fun p => { p with since := s.dtime, duty := s.get (TL_BL t) TL_BL_DUTY }

def execPwmPeriodEnd (now : Nat) (t : Fin 16) (s : State) : Out :=
  .next ((s.tick now).when ((s.tick now).pwmOver t.val) fun s => s.pwmEnd t.val)

/-- OG_USED, OG_FLAT and OG_SAVED follow the flattened surfaces held (R266). -/
def State.ogSync (s : State) : State :=
  let held := (List.range 16).filterMap fun t => (s.scanAt t).flat.map fun r => (t, r)
  let live := held.filter fun x => x.2.inUse
  let s := s.put OG_USED OG_USED_BYTES ((held.map fun x => x.2.bytes).foldl (· + ·) 0)
  let s := s.put OG_FLAT OG_FLAT_TL ((live.map fun x => 2 ^ x.1).foldl (· + ·) 0)
  s.wrN OG_SAVED (min ((live.map fun x => x.2.saving).foldl (· + ·) 0) 0xFFFFFFFF)

/-- Whether a timeline needs its links: it scans, or it is enabled and neither goes down nor parks. -/
def State.needsLink (s : State) (t : Nat) : Bool := (s.scanAt t).started || s.tlOn t && s.park.step == 0

/-- A link of a timeline that goes off powers down unless another timeline needs it (R112, R116). -/
def State.linkOff (s : State) (t l : Nat) : State :=
  if (s.usersOf l).any fun u => u != t && s.needsLink u then s
  else
    let s := if s.linkIsUp l then s.postTl t 0x40 l 0 6 else s
    (s.put (OL_LSTAT l) OL_LSTAT_UP 0).setLinkAt l OutLink.reset

/-- A re-seat still pending when its timeline stops is over: no latch of this enable can take it (R106; assumption 124). -/
def State.reseatOver (s : State) (t : Nat) : State :=
  if (s.scanAt t).reseat.any fun r => !r.taken then
    (((s.put (TL_RSEAT t) TL_RSEAT_STATUS 0).put (TL_RSEAT t) TL_RSEAT_BUSY 0).postTl t 0x42 0 0 0).modeGone t seatOrder
  else s

/-- The frame a writeback port is writing turns incomplete; its writes so far end it (R123). -/
def State.wbCut (s : State) (n : Nat) : State :=
  let w := s.wbAt n
  match w.cur with
  | some f => s.setWbAt n { w with cur := none, await := w.await ++ [{ f with short := true }] }
  | none => s

/-- Down 2: video off, the links power down, and the timeline stops.  What its slots fetched and composed goes with it. -/
def State.videoOff (s : State) (t : Nat) : State :=
  let s := ((s.linksOf t).foldl (fun s l => s.linkOff t l) s).reseatOver t
  let s := (s.slotsOf t).foldl (fun s sl => s.setFetchAt sl (s.fetchAt sl).cleared) s
  let s := s.scanMod t fun x => { Scan.reset with panel := x.panel }
  let s := (List.range 4).foldl (fun s n => if (s.wbAt n).cur.any fun f => f.tl == t then s.wbCut n else s) s
  let s := s.setSinkAt t SinkState.reset
  let s := s.put (WT_SINK_STAT t) WT_SINK_STAT_ACTIVE 0
  (s.put (TL_STAT t) TL_STAT_LINK_UP 0).ogSync

/-- A request to take a panel down: from the point the up sequence has reached (R119). -/
def State.panelDown (s : State) (t : Nat) : State :=
  match (s.scanAt t).panel.phase with
  | .off | .waitPoff => (s.videoOff t).panelMod t fun p => { p with phase := .off, upAfter := false }
  | .ponWait | .ready | .blWait => (s.videoOff t).panelMod t fun p => { p with phase := .vOff, since := s.dtime, upAfter := false }
  | .lit => s.panelMod t fun p => { p with phase := .pwmEnd, upAfter := false }
  | .pwmEnd | .blOff | .vOff => s.panelMod t fun p => { p with upAfter := false }

def execBacklightOffExpiry (now : Nat) (t : Fin 16) (s : State) : Out :=
  .next ((s.tick now).when ((s.tick now).phaseOver t.val .blOff (s.get (TL_PSEQ t.val) TL_PSEQ_T_BLOFF)) fun s =>
    (s.videoOff t.val).panelMod t.val fun p => { p with phase := .vOff, since := s.dtime })

/-- Down 3: PANEL_EN low, its DTIME kept; an up request that waited starts from Up 1 (R119, R120). -/
def State.panelLow (s : State) (t : Nat) : State :=
  (s.setPanelEn t false).panelMod t fun p =>
    { p with phase := if p.upAfter then .waitPoff else .off, upAfter := false, lowAt := some s.dtime }

def execPanelVoffExpiry (now : Nat) (t : Fin 16) (s : State) : Out :=
  .next ((s.tick now).when ((s.tick now).phaseOver t.val .vOff (s.get (TL_PSEQ t.val) TL_PSEQ_T_VOFF)) fun s => s.panelLow t.val)

end Sys2Proof.Machine
end

