-- ==== Sys2Proof/Machine/Watch.lean ====
section
/-!
DEFINITION. Watch regions (R332 to R337), the sink's test CRC, the release of FAULT_N (R46, R340), and Bezel faults (R314, R316).
-/

namespace Sys2Proof.Machine

/-! ### Registers in force for a frame (R217, R317, R332) -/

/-- The registers that a timeline takes at its latch: the finisher's, TL_CTRL for LEGACY_ARITH, the Bezel instances', the watch
regions'. -/
def useAddrs (t : Nat) : List Nat :=
  [FN_CTRL t, FN_HOLD t, FN_FALLBACK_RG t, FN_FALLBACK_B t, TL_CTRL t] ++ (List.range 6).map (fun k => FN_OCM0 t + 4 * k) ++
  bezelInstances.flatMap (fun i => (List.range 8).map fun k => BZ_I_CTRL t i + 4 * k) ++
  (List.range 32).flatMap (fun r => (List.range 4).map fun k => WT_CTRL t r + 4 * k)

/-- Where the value for the next frame stands, once its latch has taken it. -/
def useNextKey (a : Nat) : Nat := a + 2 ^ 26

/-- The values in force become those of the next frame. -/
def State.useNext (s : State) (t : Nat) : State :=
  (useAddrs t).foldl (fun s a => s.wrUse a (s.rdUse (useNextKey a))) s

def bzNextKey (t i : Nat) : Nat := 4096 + bzKey t i

/-- What the instances show, and BZ_DISP with it, becomes what they show in the next frame. -/
def State.bzNext (s : State) (t : Nat) : State :=
  bezelInstances.foldl (fun s i =>
    (s.setBzAt (bzKey t i) (s.bzAt (bzNextKey t i))).wr (BZ_DISP t i) (s.rdUse (useNextKey (BZ_DISP t i)))) s

/-! ### Regions (R332, R333) -/

def wtKey (t r : Nat) : Nat := 32 * t + r
def State.wtF (s : State) (a : Nat) (f : Fld) : Nat := s.getUse a f
def State.wtOn (s : State) (t r : Nat) : Bool := s.wtF (WT_CTRL t r) WT_CTRL_EN == 1
def State.wtSafe (s : State) (t r : Nat) : Bool := s.wtOn t r && s.wtF (WT_CTRL t r) WT_CTRL_SAFETY == 1
def State.regions (s : State) (t : Nat) : List Nat := (List.range 32).filter (s.wtOn t)
def State.safeRegions (s : State) (t : Nat) : List Nat := (List.range 32).filter (s.wtSafe t)

/-- The bytes a pixel gives to a region's CRC. -/
def watchBytes (d : Nat) (p : Px) : List Byte := leBytes (cdiv (3 * d) 8) (p.r * 2 ^ (2 * d) + p.g * 2 ^ d + p.b)

/-- Line y of the output enters the regions that cover it. -/
def State.watchLine (s : State) (t y : Nat) (out : List Px) : State :=
  let d := s.depth t
  (s.regions t).foldl (fun s r =>
    let w := s.watchAt (wtKey t r)
    let y0 := s.wtF (WT_XY t r) WT_XY_Y
    if y0 ≤ y ∧ y < y0 + s.wtF (WT_WH t r) WT_WH_H then
      let px := (out.drop (s.wtF (WT_XY t r) WT_XY_X)).take (s.wtF (WT_WH t r) WT_WH_W)
      s.setWatchAt (wtKey t r) { w with crc := crc32cRun w.crc (px.flatMap (watchBytes d)), rows := w.rows + 1 }
    else s) s

/-! ### Verdicts (R334 to R336) -/

/-- Width of an instance's displayed code (R323). -/
def State.codeWidth (s : State) (t i : Nat) : Nat :=
  let k := s.bzF (BZ_I_CTRL t i) BZ_I_CTRL_KIND
  if k = 1 then 1 else if k = 2 then 12 else if k = 3 then 4 * s.bzF (BZ_I_P0 t i) BZ_I_P0_NDIG else 0

/-- The key of a region: its key instances' codes, instance 0 lowest. -/
def State.watchKey (s : State) (t r : Nat) : Nat :=
  let insts := (List.range (s.wtF (WT_CTRL t r) WT_CTRL_NKEY)).map fun k => (s.rdUse (WT_KEYS t r)).toNat / 2 ^ (8 * k) % 256
  (insts.foldr (fun i acc => (s.bzAt (bzKey t i)).code % 2 ^ s.codeWidth t i + acc * 2 ^ s.codeWidth t i) 0) % 2 ^ 32

/-- The kind of mismatch that a region's own check finds, 0 for a match. -/
def State.watchCheck (s : State) (t r crc key same : Nat) : Nat :=
  let m := s.wtF (WT_CTRL t r) WT_CTRL_MODE
  if m = 1 then
    match (tget (fun _ => []) s.locket.tables (s.wtF (WT_CTRL t r) WT_CTRL_TABLE)).find? fun e => e.1 == key with
    | none => 2
    | some e => if e.2 = crc then 0 else 1
  else if m = 2 then (if s.wtF (WT_CTRL t r) WT_CTRL_FROZEN_N + 1 ≤ same then 3 else 0)
  else 0

/-- Events of class 9 (R342). -/
def State.postBz (s : State) (t type unit kind detail value key : Nat) : State :=
  s.post 9 t type 0 ([BitVec.ofNat 8 unit, BitVec.ofNat 8 kind] ++ leBytes 2 detail ++ leBytes 4 (s.frameOf t) ++ leBytes 4 value ++ leBytes 4 key)

def State.degrWatch (s : State) (t : Nat) (on : Bool) : State :=
  ({ s with degr := { s.degr with watch := if on then t :: s.degr.watch.filter (· != t) else s.degr.watch.filter (· != t) } }).syncDegraded

def State.degrBezel (s : State) (t : Nat) (on : Bool) : State :=
  ({ s with degr := { s.degr with bezel := if on then t :: s.degr.bezel.filter (· != t) else s.degr.bezel.filter (· != t) } }).syncDegraded

/-- The outcome of a region's frame: `own` is what its own check found; a down link of its timeline makes a safety region mismatch
as kind 5 (R118). -/
def State.watchOutcome (s : State) (t r own : Nat) : State :=
  let safe := s.wtSafe t r
  let down := safe && s.linkDown t
  let kind := if down then 5 else own
  let w := s.watchAt (wtKey t r)
  let crc := s.rdN (WT_LAST t r)
  let key := s.rdN (WT_LKEY t r)
  let s := s.put (WT_STAT t r) WT_STAT_MISMATCH (b2n (kind != 0))
  if kind = 0 then
    let s := if decide (0 < w.bad) then s.postBz t 0x91 r 0 (min w.bad 65535) crc key else s
    s.setWatchAt (wtKey t r) { w with bad := 0, state := some 0 }
  else
    let s := ((s.put (WT_STAT t r) WT_STAT_SEEN 1).put (WT_STAT t r) WT_STAT_KIND kind).bump (WT_MM_CNT t r) WT_MM_CNT_COUNT 1
    let s := if w.bad = 0 then s.postBz t 0x90 r kind 0 crc key else s
    let s := s.setWatchAt (wtKey t r) { w with bad := w.bad + 1, state := some kind }
    if safe then
      let s := if own = 0 then s else s.raiseFault WT_FAULT_WATCH (some t)
      let s := if down then s.raiseFault WT_FAULT_LINK (some t) else s
      s.degrWatch t true
    else s

/-- A region whose last pixel has left stage 13 is compared. -/
def State.watchCompare (s : State) (t r : Nat) : State :=
  let w := s.watchAt (wtKey t r)
  let crc := w.crc ^^^ 0xFFFFFFFF
  let key := s.watchKey t r
  let same := if w.prev = some crc then w.same + 1 else 1
  let s := s.setWatchAt (wtKey t r) { w with done := true, prev := some crc, same := same }
  ((s.wrN (WT_LAST t r) crc).wrN (WT_LKEY t r) key).watchOutcome t r (s.watchCheck t r crc key same)

def State.watchFull (s : State) (t r : Nat) : Bool :=
  let w := s.watchAt (wtKey t r)
  s.wtOn t r && !w.done && decide (0 < w.rows) && w.rows == s.wtF (WT_WH t r) WT_WH_H

/-- n pixel clocks of a timeline in ns. -/
def State.pixNs (s : State) (t n : Nat) : Nat :=
  let k := s.get (TL_PCLK t) TL_PCLK_KHZ
  if k = 0 then 0 else n * 1000000 / k

/-- Whether the region's last pixel has left stage 13. -/
def State.watchDue (s : State) (t r : Nat) : Bool :=
  s.watchFull t r && s.pixelUp t &&
  decide ((s.scanAt t).lineAt + s.pixNs t (s.wtF (WT_XY t r) WT_XY_X + s.wtF (WT_WH t r) WT_WH_W) ≤ s.dtime)

def execWatchRegionCompare (now : Nat) (t : Fin 16) (r : Fin 32) (s : State) : Out :=
  .next ((s.tick now).when ((s.tick now).watchDue t.val r.val) fun s => s.watchCompare t.val r.val)

/-- At the end of a frame: a region complete but not yet compared is compared, an incomplete one is NOTRUN, and every region
starts afresh (R336). -/
def State.watchFrameEnd (s : State) (t : Nat) : State :=
  let s := (s.regions t).foldl (fun s r =>
    if (s.watchAt (wtKey t r)).done then s
    else if s.watchFull t r then s.watchCompare t r
    else s.watchOutcome t r 4) s
  (List.range 32).foldl (fun s r =>
    let w := s.watchAt (wtKey t r)
    s.setWatchAt (wtKey t r) (if s.wtOn t r then { w with crc := 0xFFFFFFFF, rows := 0, done := false } else WatchState.reset)) s

/-- The finisher is held in reset for good: the regions that its last frame did not complete are NOTRUN (R336, R542). -/
def State.watchFailed (s : State) (t : Nat) : State :=
  if (s.scanAt t).started then
    (s.regions t).foldl (fun s r => if (s.watchAt (wtKey t r)).done then s else s.watchOutcome t r 4) s
  else s

/-! ### The release of FAULT_N (R46, R340) -/

/-- R46 at this instant: over the lit first-light timelines, or without a first-light timeline over the enabled ones after hub
readiness; a timeline without safety region counts as matched. -/
def State.startupOver (s : State) : Bool :=
  let good (t : Nat) : Bool := (s.safeRegions t).isEmpty || (s.scanAt t).safeOk
  let fs := s.firstLights
  if fs.isEmpty then s.ready && s.enabledTls.all good
  else let lit := fs.filter fun t => (s.scanAt t).lit; !lit.isEmpty && lit.all good

def State.checkStartup (s : State) : State :=
  if s.on WT_FAULT WT_FAULT_STARTUP && s.startupOver then
    ({ s.put WT_FAULT WT_FAULT_STARTUP 0 with power := { s.power with startup := false } }).syncFault
  else s

/-- Whether the condition of a cause is present in the frame of a timeline that runs (R340). -/
def State.causePresent (s : State) (f : Fld) : Bool :=
  if f = WT_FAULT_HB then s.on SV_HB_STAT SV_HB_STAT_LOST
  else (List.range 16).any fun t => (s.scanAt t).started &&
    if f = WT_FAULT_WATCH then (s.safeRegions t).any fun r => match (s.watchAt (wtKey t r)).state with
      | some k => k != 0 && k != 5
      | none => false
    else if f = WT_FAULT_LINK then !(s.safeRegions t).isEmpty && s.linkDown t
    else if f = WT_FAULT_BEZEL then !(s.safeRegions t).isEmpty && ((s.scanAt t).bzCmp.isSome || (s.scanAt t).bzEcc.isSome)
    else decide (2 ≤ (s.sinkAt t).differ) && s.get (WT_SINK_CTRL t) WT_SINK_CTRL_MODE == 2

/-- The supervisor's W1C: a cause whose condition persists stays set (R340). -/
def State.faultClear (s : State) (v : Nat) : State :=
  let s := faultCauses.foldl (fun s f => if bit v f.lo && !s.causePresent f then s.put WT_FAULT f 0 else s) s
  s.syncFault

/-- AUTOREL at the end of a frame of timeline t: a cause absent for one whole frame on every timeline that raised it is cleared.  HB,
which no timeline raises, is absent for the frame when the heartbeat was back before it began. -/
def State.autoRel (s : State) (t : Nat) : State :=
  let keep (x : Nat × Nat × Bool) : Bool :=
    if x.2.1 = t then x.2.2
    else if x.2.1 = 16 then s.on SV_HB_STAT SV_HB_STAT_LOST || decide ((s.scanAt t).frameAt < s.sv.hbEnd)
    else true
  let rest := (s.degr.raised.filter keep).map fun x => if x.2.1 = t then (x.1, x.2.1, false) else x
  let s := { s with degr := { s.degr with raised := rest } }
  if s.on WT_FCTRL WT_FCTRL_AUTOREL then
    (faultCauses.foldl (fun s f => if rest.any fun x => x.1 == f.lo then s else s.put WT_FAULT f 0) s).syncFault
  else s

/-! ### Bezel faults (R314, R316) -/

def BzFault.add (o : Option BzFault) (inst line n : Nat) : Option BzFault :=
  match o with
  | some f => some { f with inst := min f.inst inst, count := f.count + n }
  | none => some ⟨inst, line, n⟩

def State.raiseBezel (s : State) (t : Nat) : State :=
  if (s.safeRegions t).isEmpty then s else s.raiseFault WT_FAULT_BEZEL (some t)

/-- Whether an instance draws pixels on line y. -/
def State.bzOnLine (s : State) (t i y : Nat) : Bool :=
  (s.bzAt (bzKey t i)).shown &&
  match s.bzImage t i with
  | some im => let v : Int := y - signed 16 (s.bzF (BZ_I_POS t i) BZ_I_POS_Y); decide (0 ≤ v) && decide (v < im.height)
  | none => false

/-- The Bezel errors of line y: corrected reads, instances made transparent, and pixels at which the copies differ. -/
def State.bzErrs (s : State) (t y : Nat) (e : LineErrs) : State :=
  let s := s.bump (BZ_ECC_CNT t) BZ_ECC_CNT_CORR e.corr
  let bad := (e.bad.filter fun i => s.bzOnLine t i y).dedup
  let s := if bad.isEmpty then s
    else
      let s := (s.bump (BZ_ECC_CNT t) BZ_ECC_CNT_UNCORR bad.length).put (BZ_STAT t) BZ_STAT_ECC 1
      (s.scanMod t fun x => { x with bzEcc := BzFault.add x.bzEcc (bad.foldl min 255) y bad.length }).raiseBezel t
  if e.diff = 0 then s
  else
    let s := s.put (BZ_STAT t) BZ_STAT_CMP 1
    let s := if (s.scanAt t).bzCmp.isNone then s.bump (BZ_CMP_CNT t) BZ_CMP_CNT_COUNT 1 else s
    ((s.scanMod t fun x => { x with bzCmp := BzFault.add x.bzCmp e.diffInst y e.diff }).raiseBezel t).degrBezel t true

/-- The Bezel fault reports of a frame; DEGRADED ends with the first whole frame without a difference. -/
def State.bzFrameEnd (s : State) (t : Nat) : State :=
  let x := s.scanAt t
  let s := match x.bzCmp with
    | some f => s.postBz t 0x92 f.inst 1 f.line (min f.count 0xFFFFFFFF) 0
    | none => if s.degr.bezel.contains t then s.degrBezel t false else s
  let s := match x.bzEcc with
    | some f => s.postBz t 0x92 f.inst 2 f.line (min f.count 0xFFFFFFFF) 0
    | none => s
  s.scanMod t fun x => { x with bzCmp := none, bzEcc := none }

/-! ### The sink's test CRC (R337) -/

/-- One 16-bit component CRC of DisplayPort over a component left-justified in 16 bits (assumption 7). -/
def testCrc (d : Nat) (c v : Nat) : Nat := (beBytes 2 (v * 2 ^ (16 - d))).foldl (crcByteN 16 0x8005) c

/-- The output pixels that each link of a timeline carries (R112). -/
def State.linkParts (s : State) (t : Nat) (out : List Px) : List (List Px) :=
  match s.linksOf t with
  | [] => []
  | [_] => [out]
  | _ => [out.take (out.length / 2), out.drop (out.length / 2)]

def State.sinkLine (s : State) (t : Nat) (out : List Px) : State :=
  if s.on (WT_SINK_STAT t) WT_SINK_STAT_ACTIVE then
    let k := s.sinkAt t
    let d := s.depth t
    let run := (s.linkParts t out).mapIdx fun i ps =>
      [ps.foldl (fun c p => testCrc d c p.r) (k.run.getD (3 * i) 0), ps.foldl (fun c p => testCrc d c p.g) (k.run.getD (3 * i + 1) 0),
       ps.foldl (fun c p => testCrc d c p.b) (k.run.getD (3 * i + 2) 0)]
    s.setSinkAt t { k with run := run.flatten }
  else s

/-- A frame's component CRCs are kept for 16 frames against the sink's count. -/
def State.sinkFrameEnd (s : State) (t : Nat) : State :=
  if s.on (WT_SINK_STAT t) WT_SINK_STAT_ACTIVE then
    let k := s.sinkAt t
    s.setSinkAt t { k with run := [], records := (k.count, k.run) :: k.records.filter (fun r => r.1 != k.count), count := (k.count + 1) % 16,
                           frames := k.frames + 1 }
  else s

def State.sinkDue (s : State) (t : Nat) : Bool :=
  s.on (WT_SINK_STAT t) WT_SINK_STAT_ACTIVE && decide (s.get (WT_SINK_CTRL t) WT_SINK_CTRL_PERIOD ≤ (s.sinkAt t).frames)

/-- A read of the sink's CRCs and count; a second differing read in a row is a SINK mismatch (UNIT 0xFF: no region). -/
def State.sinkRead (s : State) (t : Nat) (crcs : Option (List Nat)) (count : Nat) : State :=
  let k := { s.sinkAt t with frames := 0 }
  match crcs, k.records.find? fun r => r.1 == count % 16 with
  | some cs, some r =>
    let val := cs.getD 0 0 + cs.getD 1 0 * 65536
    if cs = r.2 then
      let s := if decide (2 ≤ k.differ) then s.postBz t 0x91 0xFF 0 (min k.differ 65535) val (cs.getD 2 0) else s
      s.setSinkAt t { k with differ := 0 }
    else
      let s := (s.bump (WT_SINK_STAT t) WT_SINK_STAT_CNT 1).setSinkAt t { k with differ := k.differ + 1 }
      if k.differ = 0 then s
      else
        let s := s.put (WT_SINK_STAT t) WT_SINK_STAT_MISMATCH 1
        let s := if k.differ = 1 then s.postBz t 0x90 0xFF 6 0 val (cs.getD 2 0) else s
        if s.get (WT_SINK_CTRL t) WT_SINK_CTRL_MODE = 2 then s.raiseFault WT_FAULT_SINK (some t) else s
  | _, _ => s.setSinkAt t k

def execSinkCrcRead (now : Nat) (t : Fin 16) (crcs : Option (List Nat)) (count : Nat) (s : State) : Out :=
  .next ((s.tick now).when (s.sinkDue t.val) fun s => s.sinkRead t.val crcs count)

/-- Conditions that persist set their causes again at the end of a frame; then AUTOREL and the end of STARTUP (R46, R340). -/
def State.faultFrameEnd (s : State) (t : Nat) : State :=
  let s := if s.on SV_HB_STAT SV_HB_STAT_LOST then s.raiseFault WT_FAULT_HB none else s
  let s := if decide (2 ≤ (s.sinkAt t).differ) && s.get (WT_SINK_CTRL t) WT_SINK_CTRL_MODE == 2 then s.raiseFault WT_FAULT_SINK (some t) else s
  let ok := (s.safeRegions t).all fun r => (s.watchAt (wtKey t r)).state == some 0
  let s := s.scanMod t fun x => { x with safeOk := ok }
  let s := if ok && s.degr.watch.contains t then s.degrWatch t false else s
  (s.autoRel t).checkStartup

end Sys2Proof.Machine
end

