-- ==== Sys2Proof/Machine/Scan.lean ====
section
/-!
DEFINITION. The scan of a timeline line by line (R99 to R103, R109, R113, R122, R123, R211, R212): composed lines into the line FIFO,
the lines a finisher emits, writeback, and what line 0 does.
-/

namespace Sys2Proof.Machine

/-! ### When a timeline runs (R42, R44, R49) -/

/-- Whether the first line 0 of a timeline may come: of none that breaks R98; of a first-light timeline after its first training attempt, or after the second
group when it has no output; of another at hub readiness. -/
def State.mayRun (s : State) (t : Nat) : Bool :=
  s.armed t && limitsBy s.rd t && clocksBy s.rd &&
  if s.isFirst t then (if (s.linksOf t).isEmpty then decide (s.boot.phase = .loaded) else (s.triedOf t).isSome) else s.ready

/-! ### Composed lines (R103, R211, R242) -/

/-- The next line to compose: one that is composed again (R246), or the one after the last; after the last line of the present frame comes
line 0 of the next. -/
def State.compAt (s : State) (t : Nat) : Bool × Nat :=
  let x := s.scanAt t
  match x.redo with
  | y :: _ => (x.compNext, y)
  | [] => if !x.compNext && decide (s.vactive t ≤ x.compY) then (true, 0) else (x.compNext, x.compY)

/-- Whether line y may be composed now: of the present frame before its successor's latch, of the next frame after it, or
speculatively. -/
def State.compDue (s : State) (t : Nat) (next : Bool) (y : Nat) : Bool :=
  let x := s.scanAt t
  decide (y < (s.timingFor t next).vactive) && (x.started || s.armed t) && s.pixelUp t && s.islUp (islPav (s.pvName (t / 2))) &&
  !(s.isl.moving.any fun m => m.1 == t / 2) && (!x.redo.isEmpty || decide (x.fifo.length < 16)) &&
  if next then x.started && (x.latched || (s.specOn t && decide (y < (s.timing t).specN))) else !x.latched

/-- A line enters the line FIFO in its place, after the lines of the frame that precede it. -/
def fifoPut (fs : List FifoLine) (l : FifoLine) : List FifoLine :=
  let before (k : FifoLine) : Bool := if k.next = l.next then decide (k.y < l.y) else !k.next
  fs.takeWhile before ++ l :: fs.dropWhile before

/-- A composed line enters the line FIFO; `bad` lists the blocks of the hold surface and of a flattened run whose read failed.  What is
bad on a speculative line is held silently (R246). -/
def State.lineComposed (s : State) (t : Nat) (next : Bool) (y : Nat) (bad : List Nat) : State :=
  let u := if next && (s.scanAt t).latched then s.useNext t else s
  let tag := s.specTag t next
  let ls := s.lineLayers t next
  let run := u.runBad t next (s.timingFor t next).hactive y bad
  let hold := run.2 || ls.any (u.lineHoldBad t next y bad)
  let line : FifoLine := ⟨next, y, u.composeLine t next y bad, tag, ls.any (s.lineFaulty t next y) || run.1 || hold⟩
  let s' := if tag.isSome then s
    else
      let s' := ls.foldl (fun a l => if s.lineLate t next y l then a.setFetchAt l.slot ((a.fetchAt l.slot).modFigs next fun g => { g with late := g.late + 1 }) else a) s
      let s' := if hold then s'.put (FN_STAT t) FN_STAT_BADHOLD 1 else s'
      if run.1 then s'.scanMod t fun x => { x with flat := x.flat.map fun r => { r with ending := some 3 } } else s'
  s'.scanMod t fun x => match x.redo with
    | _ :: ys => { x with fifo := fifoPut x.fifo line, redo := ys }
    | [] => { x with fifo := fifoPut x.fifo line, compNext := next, compY := y + 1 }

/-- The next line of a timeline is composed as soon as what it reads has come or is lost. -/
def State.composeNext (s : State) (t : Nat) (bad : List Nat) : State :=
  let p := s.compAt t
  if s.compDue t p.1 p.2 && s.lineReady t p.1 p.2 then s.lineComposed t p.1 p.2 bad else s

def execComposedLineArrival (now : Nat) (t : ComposedLine) (s : State) : Out := .next ((s.tick now).composeNext t.t.val t.bad)

/-! ### Writeback (R122, R123) -/

def wbPorts : List Nat := [0, 1, 2, 3]

/-- Whether a writeback buffer is what R122 asks for. -/
def State.wbFits (s : State) (n h : Nat) : Bool :=
  let e := s.entryAt (handleIndex h)
  let t := s.wbTl n
  handleLive h e && e.residency == 0 && decide (regionOf e.base = .ddr) && e.width == s.hactive t && e.height == s.vactive t &&
  e.format == (if s.on (WB_CTRL n) WB_CTRL_FMT then 0x04 else 0x01)

/-- The next free buffer after the last one taken.  DESIGN CHOICE (assumption 125): a buffer whose surface is not what R122 asks for counts
as not free. -/
def State.wbNext (s : State) (n : Nat) : Option Nat :=
  let c := s.get (WB_CTRL n) WB_CTRL_COUNT + 1
  let from_ := match (s.wbAt n).last with
    | some k => k + 1
    | none => 0
  ((List.range c).map fun i => (from_ + i) % c).find? fun k => bit (s.get (WB_REL n) WB_REL_FREE) k && s.wbFits n (s.rdN (WB_SURF n k))

def clearBit (v k : Nat) : Nat := if bit v k then v - 2 ^ k else v

/-- Line 0: a port takes a buffer, or skips the frame. -/
def State.wbTake (s : State) (t n : Nat) : State :=
  if s.on (WB_CTRL n) WB_CTRL_EN && s.wbTl n == t then
    match s.wbNext n with
    | none => (s.bump (WB_STAT n) WB_STAT_SKIP_CNT 1).postTl t 0x43 n 0 1
    | some k =>
      let i := handleIndex (s.rdN (WB_SURF n k))
      let s := s.put (WB_REL n) WB_REL_FREE (clearBit (s.get (WB_REL n) WB_REL_FREE) k)
      (s.setWbAt n { s.wbAt n with cur := some ⟨t, k, i, s.entryAt i, 0, false, false⟩, last := some k }).markUse i
  else s

/-- A pixel as writeback stores it: each channel out << (w − DEPTH), alpha all ones. -/
def wbPixel (fmt10 : Bool) (d : Nat) (p : Px) : List Byte :=
  let w := if fmt10 then 10 else 8
  let c (v : Nat) : Nat := v * 2 ^ (w - d)
  leBytes 4 (c p.b + c p.g * 2 ^ w + c p.r * 2 ^ (2 * w) + (2 ^ (32 - 3 * w) - 1) * 2 ^ (3 * w))

/-- The deadline of the line that starts now: its end and four line times more, less the allowance of AD_LAT (R232). -/
def State.wbDeadline (s : State) (t : Nat) : Nat := s.dtime + s.linesNs t (s.timing t) 5 - s.latNs

def State.wbLine (s : State) (t y : Nat) (out : List Px) : State :=
  wbPorts.foldl (fun s n =>
    match (s.wbAt n).cur with
    | some f =>
      if f.tl = t then
        let px := out.flatMap (wbPixel (f.entry.format == 0x04) (s.depth t))
        let s := (s.busWrite (f.entry.base + y * f.entry.pitch) px .deadline (s.wbDeadline t) .plain).1
        s.setWbAt n { s.wbAt n with cur := some { f with lines := f.lines + 1 } }
      else s
    | none => s) s

/-- The end of a frame: a captured frame waits for its acknowledgements. -/
def State.wbEnd (s : State) (t : Nat) : State :=
  wbPorts.foldl (fun s n =>
    let w := s.wbAt n
    match w.cur with
    | some f =>
      if f.tl = t then s.setWbAt n { w with cur := none, await := w.await ++ [{ f with short := f.short || decide (f.lines < s.vactive t) }] }
      else s
    | none => s) s

/-- The frame captured when a re-seat comes in, the last of those that wait, is incomplete. -/
def resizeLast : List WbFrame → List WbFrame
  | [] => []
  | [f] => [{ f with short := true, resized := true }]
  | f :: fs => f :: resizeLast fs

/-- A re-seat changed HACTIVE or VACTIVE: the frame being captured is incomplete (assumption 73). -/
def State.wbResize (s : State) (t : Nat) : State :=
  wbPorts.foldl (fun s n =>
    let w := s.wbAt n
    if w.await.getLast?.any fun f => f.tl == t then s.setWbAt n { w with await := resizeLast w.await } else s) s

/-- WB_DONE; after a re-seat's incomplete frame the hub clears EN. -/
def State.wbDone (s : State) (n : Nat) (f : WbFrame) : State :=
  let s := (s.put (WB_STAT n) WB_STAT_LAST f.buf).postTl f.tl 0x43 n f.buf (if f.short then 2 else 0)
  if f.resized then (s.put (WB_CTRL n) WB_CTRL_EN 0).wbCut n else s

def execWbFrameAcked (now : Nat) (n : Fin 4) (s : State) : Out :=
  let s := s.tick now
  .next (match (s.wbAt n.val).await with
    | f :: rest => (s.setWbAt n.val { s.wbAt n.val with await := rest }).wbDone n.val f
    | [] => s)

/-! ### Emitting a line (R211 to R216) -/

/-- The line the finisher starts from: the composed line at the head of its FIFO, or a replacement, and whether hold pixels were
bad.  Until something latches on it, a timeline that is not a first-light timeline shows its hold surface when it has one (R44). -/
def State.mergedLine (s : State) (t y : Nat) (hold : List Nat) : List Px × Bool × Bool :=
  if !s.isFirst t && !(s.tlcAt t).any && (s.holdEntry t).isSome then let h := s.heldLine t (s.hactive t) y hold; (h.1, false, h.2)
  else match (s.scanAt t).fifo.find? fun l => !l.next && l.y == y with
  | some l => (l.px, false, false)
  | none => let h := s.heldLine t (s.hactive t) y hold; (h.1, true, h.2)

/-- A replaced line is counted; one composed too late is discarded. -/
def State.countHeld (s : State) (t : Nat) (replaced bad : Bool) : State :=
  let s := s.put (FN_STAT t) FN_STAT_HOLDING (b2n replaced)
  let s := if replaced then (s.bump (FN_HELD_CNT t) FN_HELD_CNT_COUNT 1).put (FN_STAT t) FN_STAT_HELD 1 else s
  if bad then s.put (FN_STAT t) FN_STAT_BADHOLD 1 else s

/-- Active line y leaves the finisher.  While its pixel-clock island is in reset it is FN_FALLBACK, and neither the watch regions nor
the sink's CRC see it. -/
def State.emitLine (s : State) (t y : Nat) (e : LineErrs) : State :=
  if s.pixelUp t then
    let m := s.mergedLine t y e.hold
    let out := s.finishLine t y m.1 (e.bad.filter fun i => s.bzOnLine t i y)
    let s := s.scanMod t fun x => { x with
      fifo := x.fifo.filter fun l => l.next || decide (y < l.y)
      redo := if x.compNext then x.redo else x.redo.filter fun k => decide (y < k)
      compY := if x.compNext then x.compY else max x.compY (y + 1)
      out := out, replaced := m.2.1 }
    ((((s.countHeld t m.2.1 m.2.2).bzErrs t y e).watchLine t y out).wbLine t y out).sinkLine t out
  else
    let out := s.finishLine t y (List.replicate (s.hactive t) (s.fallbackPx t)) []
    ((s.scanMod t fun x => { x with out := out, replaced := true, compY := if x.compNext then x.compY else max x.compY (y + 1) }).countHeld t true
      false).wbLine t y out

/-- Line p of the present frame starts. -/
def State.beginLine (s : State) (t p : Nat) (e : LineErrs) : State :=
  let s := (s.put (TL_POS t) TL_POS_LINE p).scanMod t fun x => { x with lineAt := s.dtime }
  let s := if p < s.vactive t then s.emitLine t p e
    else (s.put (FN_STAT t) FN_STAT_HOLDING 0).scanMod t fun x => { x with out := [], replaced := false }
  s.trigger 2 t p

/-! ### Line 0 -/

/-- The registers as they stand put in force, as a latch now would take them. -/
def State.useLanded (s : State) (t : Nat) : State := (useAddrs t).foldl (fun s a => s.wrUse a (s.rd a)) s

/-- Links that came up before this line 0 carry video from it; the first video starts T_BLON (R113, R117, R119). -/
def State.videoLine0 (s : State) (t : Nat) : State :=
  let s := (s.linksOf t).foldl (fun s l =>
    if s.linkIsUp l && decide ((s.linkAt l).upAt < s.dtime) then s.linkMod l fun k => { k with video := true } else s) s
  let ls := s.linksOf t
  let shows := !ls.isEmpty && ls.all fun l => (s.linkAt l).video
  let s := if shows then s.panelMod t fun p => if p.phase = .ready then { p with phase := .blWait, since := s.dtime } else p else s
  if (shows || ls.isEmpty) && !(s.scanAt t).lit then
    let s := s.scanMod t fun x => { x with lit := true }
    let fs := s.firstLights
    let s := if !fs.isEmpty && fs.contains t && fs.all fun u => (s.scanAt u).lit then s.mark 5 else s
    s.checkLit.checkStartup
  else s

/-- The words of a re-seat that a latch has taken come into use (R106). -/
def State.reseatWords (s : State) (t : Nat) : State :=
  match (s.scanAt t).reseat with
  | some r =>
    if r.taken then
      let ha := s.hactive t
      let va := s.vactive t
      let s := s.tear true
      let s := r.words.foldl (fun s w =>
        s.wrHub w.1 (if w.1 = TL_LATCH t then putField (s.rd w.1) TL_LATCH_LINE (getField w.2 TL_LATCH_LINE) else w.2)) s
      let s := s.scanMod t fun x => { x with reseat := none }
      let s := s.asShow t
      if ha = s.hactive t ∧ va = s.vactive t then s else s.wbResize t
    else s
  | none => s

/-- The reports of the frame that ends. -/
def State.frameEnd (s : State) (t : Nat) : State :=
  let s := (s.slotsOf t).foldl (fun s sl => s.slotFrameEnd t sl) s
  ((((s.watchFrameEnd t).bzFrameEnd t).sinkFrameEnd t).faultFrameEnd t).wbEnd t

/-- What the latch took comes into force, and the next frame's lines become the present frame's. -/
def State.frameSwap (s : State) (t : Nat) : State :=
  let s := if (s.scanAt t).latched then (s.useNext t).bzNext t else s
  let s := s.scanMod t fun x => { x with
    frameAt := s.dtime, ext := 0, latched := false, compNext := false, compY := if x.compNext then x.compY else 0, redo := if x.compNext then x.redo else [],
    fifo := (x.fifo.filter (·.next)).map fun l => { l with next := false } }
  s.reseatWords t

/-- What every line 0 does. -/
def State.lineZero (s : State) (t : Nat) (e : LineErrs) : State :=
  let s := wbPorts.foldl (fun s n => s.wbTake t n) (s.videoLine0 t)
  s.beginLine t 0 e

/-- The first line 0 of a timeline: TL_FRAME is 0, and the registers as they stand are in force (R101, R319).  It runs with no preset, and
its first latch applies the preset then selected (R324). -/
def State.firstLine (s : State) (t : Nat) (e : LineErrs) : State :=
  let s := s.useLanded t
  let s := s.bzDecide t (s.dtime - 256) s.dtime
  let s := s.scanMod t fun x => { x with started := true, frameAt := s.dtime, ext := 0, latched := false }
  ((s.put (BZ_STAT t) BZ_STAT_CURVALID 0).wrN (TL_FRAME t) 0).lineZero t e

/-- Every later line 0. -/
def State.frameStart (s : State) (t : Nat) (e : LineErrs) : State :=
  let s := (s.frameEnd t).frameSwap t
  (s.wrN (TL_FRAME t) (s.frameOf t + 1)).lineZero t e

/-! ### When lines and latches come (R102, R109) -/

/-- The longest frame of an Adaptive-Sync timeline: VTOTAL_MAX, or what its sinks can take (R110). -/
def State.frameMax (s : State) (t : Nat) : Nat :=
  (s.linksOf t).foldl (fun m l => match (s.linkAt l).sinkMax with
    | some k => min m k
    | none => m) (s.get (TL_AS t) TL_AS_VTOTAL_MAX)

/-- Whether the extension ends at this line boundary (R109). -/
def State.extEnds (s : State) (t : Nat) : Bool :=
  let u := s.dtime - 256
  (s.sealed t && decide ((s.tlcAt t).sealAt + s.pixNs t 1 ≤ s.dtime)) ||
  (s.useLanded t).bzDiffers t u (s.lineTime t true 0) || (s.presetDue t u).isSome ||
  decide (s.frameMax t ≤ s.pos t + 1 + s.get (TL_AS t) TL_AS_TAIL)

/-- Whether the present line has run its time. -/
def State.lineOver (s : State) (t : Nat) : Bool := decide ((s.scanAt t).lineAt + s.linesNs t (s.timing t) 1 ≤ s.dtime)

/-- Whether the latch of the next frame is to be taken now. -/
def State.latchDue (s : State) (t : Nat) : Bool :=
  let x := s.scanAt t
  x.started && !x.latched &&
  if (s.timing t).adaptive then decide (s.latchLine t ≤ s.pos t) && s.lineOver t && s.extEnds t else decide (s.latchLine t ≤ s.pos t)

/-- Whether a timeline starts a line now. -/
def State.lineDue (s : State) (t : Nat) : Bool :=
  !s.isl.failed.contains (islPixel t) &&
  if (s.scanAt t).started then s.lineOver t && !s.latchDue t else s.mayRun t && s.pixelUp t

/-- The next line: one more of the frame, a line of the extension, or line 0 of the next frame. -/
def State.lineStart (s : State) (t : Nat) (e : LineErrs) : State :=
  let x := s.scanAt t
  if !x.started then s.firstLine t e
  else if (s.timing t).adaptive && !x.latched && decide (s.latchLine t ≤ s.pos t) then
    (s.scanMod t fun x => { x with ext := x.ext + 1 }).beginLine t (s.pos t + 1) e
  else if s.pos t + 1 < s.frameLines t then s.beginLine t (s.pos t + 1) e
  else s.frameStart t e

def execLineStart (now : Nat) (t : Fin 16) (errs : LineErrs) (s : State) : Out :=
  .next ((s.tick now).when ((s.tick now).lineDue t.val) fun s => s.lineStart t.val errs)

end Sys2Proof.Machine
end

