-- ==== Sys2Proof/Machine/Latch.lean ====
section
/-!
DEFINITION. The latch (R102 to R106, R109, R217, R241 to R249, R255 to R259, R291, R319, R324): the registers and banks of the next frame,
the Bezel's decision, presets, speculative work, and flattened runs.
-/

namespace Sys2Proof.Machine

/-! ### Banks under hand-over (R291) -/

/-- The posted groups of a timeline's bank. -/
def State.bankGroups (s : State) (t : Nat) : List Nat :=
  (16 + 2 * s.pvName (t / 2) + t % 2) :: (s.slotsOf t).map fun sl => 64 + s.slotName sl

def State.bankBusy (s : State) (t : Nat) : State := (s.bankGroups t).foldl (fun s g => s.setBusy g true) s

/-- BUSY of a bank's groups after a hand-over: a posted write still in flight keeps its own. -/
def State.bankFree (s : State) (t : Nat) : State := (s.bankGroups t).foldl (fun s g => s.setBusy g (s.postedAt g).isSome) s

def State.pavUp (s : State) (t : Nat) : Bool := s.islUp (islPav (s.pvName (t / 2))) && !(s.isl.moving.any fun m => m.1 == t / 2)

/-- The bank generation increments (R243). -/
def State.genUp (s : State) (t : Nat) : State := s.bumpMod (PV_SEAL (s.pvName (t / 2)) (t % 2)) PV_SEAL_GEN 1

/-- The orders of the accepted commits in the sealed bank. -/
def State.sealedOrders (s : State) (t : Nat) : List Nat := ((s.tlcAt t).live.filter fun c => c.state == .sealed).map (·.order)

/-- The image of an assembled commit, made again where a preset has changed its base (R292). -/
def State.rebuildImage (s : State) (t : Nat) : State :=
  let q := s.tlcAt t
  match q.image with
  | some (n, _) =>
    match q.live.find? fun c => c.order == n with
    | some c => s.setTlcAt t { q with image := some (n, (s.readBank t (!s.sealed t)).applyCommit c) }
    | none => s
  | none => s

/-- The banks at a latch: a sealed pending bank is handed over, and a preset's pairs go over it; without a hand-over they go into the
active bank alone (R104, R291). -/
def State.latchBanks (s : State) (t : Nat) (p : Option Preset) : State :=
  let lay (img : BankImage) : BankImage := match p with
    | some p => s.presetOn img p
    | none => img
  if s.sealed t then
    let img := lay (s.readBank t false)
    let s' := (((s.writeBank t true img).writeBank t false img).setSealed t false).bankBusy t
    let q := s'.tlcAt t
    s'.setTlcAt t { q with handover := some ⟨s.sealedOrders t, (s.frameOf t + 1) % 2 ^ 32, p.isSome, false, false⟩, any := true }
  else if p.isSome then (s.writeBank t true (lay (s.readBank t true))).rebuildImage t
  else s

/-! ### Presets and the Bezel (R319, R324) -/

/-- A preset's pairs outside the banks land for the frame that the latch opens. -/
def State.presetRegs (s : State) (p : Preset) : State :=
  (p.pairs.filter fun x => !inRange 0x210000 0x400000 x.1).foldl
    (fun s x => (s.wrHub x.1 (BitVec.ofNat 32 x.2)).wrUse (useNextKey x.1) (BitVec.ofNat 32 x.2)) s

/-- Events of class 9 about the frame that a latch opens (R342). -/
def State.postPreset (s : State) (t index kind : Nat) : State :=
  s.post 9 t 0x95 0 ([BitVec.ofNat 8 index, BitVec.ofNat 8 kind] ++ leBytes 2 0 ++ leBytes 4 (s.frameOf t + 1) ++ zeros 8)

/-- The selection at a latch is noted, and the preset due is applied; it tears a configuration CRC run (R520). -/
def State.latchPreset (s : State) (t : Nat) (pick : Option Nat × Nat) (due : Option (Preset × Nat)) : State :=
  let s := (s.setPresetAt t pick.1).put (BZ_STAT t) BZ_STAT_PSTALE (b2n (pick.2 == 2))
  match due with
  | some (p, kind) =>
    let s := ((s.presetRegs p).tear true).genUp t
    ((s.put (BZ_STAT t) BZ_STAT_CUR p.index).put (BZ_STAT t) BZ_STAT_CURVALID 1).postPreset t p.index kind
  | none => s

/-- What each instance shows in the frame that the latch opens. -/
def State.latchBezel (s : State) (t u d : Nat) : State :=
  let n := s.useNext t
  bezelInstances.foldl (fun s i =>
    let l := n.bzLook t i u d
    (s.setBzAt (bzNextKey t i) l.kept).wrUse (useNextKey (BZ_DISP t i)) (BitVec.ofNat 32 l.word)) s

/-! ### Speculative work at the latch (R246, R247) -/

/-- The tags of the speculative work of the next frame. -/
def State.specTags (s : State) (t : Nat) : List Nat :=
  ((s.slotsOf t).flatMap fun sl =>
    let f := s.fetchAt sl
    (f.issued.filterMap (·.spec)) ++ f.got.filterMap (·.spec) ++ f.lost.filterMap (·.spec)) ++ (s.scanAt t).fifo.filterMap (·.spec)

/-- A slot's speculative work is discarded; what it had fetched, or was fetching, is fetched again as urgent (R247). -/
def SlotFetch.dropNext (f : SlotFetch) : SlotFetch :=
  { f with issued := f.issued.filter fun i => !i.next, gone := f.gone ++ f.issued.filter (·.next), got := f.got.filter fun a => !a.next,
           lost := f.lost.filter fun x => !x.next,
           redo := (f.issued.filter (·.next)).map (·.group) ++ (f.got.filter (·.next)).map (·.group) ++ (f.lost.filter (·.next)).map (·.group),
           figsNext := SlotFigs.zero, raceNext := none, minNext := 0xFFFF }

/-- What of a slot's speculative work is confirmed: fetches outstanding and data without a fault. -/
def SlotFetch.confirm (f : SlotFetch) : SlotFetch :=
  { f with
    issued := f.issued.map fun i => { i with spec := none }
    got := (f.got.filter fun a => a.spec.isNone || (a.bad.isEmpty && !a.tiles.any fun q => q.cause.isSome)).map fun a => { a with spec := none }
    lost := f.lost.filter fun x => x.spec.isNone }

def State.specDiscard (s : State) (t : Nat) : State :=
  let n := ((s.scanAt t).fifo.filter (·.next)).length
  let s := (s.slotsOf t).foldl (fun s sl => s.setFetchAt sl (s.fetchAt sl).dropNext) s
  let s := s.scanMod t fun x => { x with fifo := x.fifo.filter fun l => !l.next, compY := 0, redo := [] }
  (s.bump (AD_SPEC_MISS t) AD_SPEC_MISS_COUNT 1).bump (AD_SPEC_REDO t) AD_SPEC_REDO_COUNT n

/-- What confirmed work of a slot shows that was held back while it was speculative: bands under their budgets, the buffer a racing slot
reads, and its reports (R180, R244, R262). -/
def State.confirmSlot (s : State) (t sl : Nat) : State :=
  let f := (s.fetchAt sl).confirm
  let st := s.slotName sl
  let s := if f.got.any fun a => a.next && a.under then s.put (LY_FCT_STAT st) LY_FCT_STAT_UNDER 1 else s
  match f.raceNext with
  | some u =>
    let s := (s.setFetchAt sl (f.setRace true { u with owed := [] })).put (LY_RACE_STAT st) LY_RACE_STAT_BUF (u.split.getD u.buf)
    u.owed.foldl (fun s o => s.postTide t sl o.1 o.2) s
  | none => s.setFetchAt sl f

/-- Every speculative line without a fault is confirmed; the others are composed again as confirmed work (R246, R247). -/
def State.specConfirm (s : State) (t : Nat) : State :=
  let ls := (s.scanAt t).fifo.filter (·.next)
  let good := (ls.filter fun l => !l.fault).map fun l => { l with spec := none }
  let s := (s.slotsOf t).foldl (State.confirmSlot · t ·) s
  let s := s.scanMod t fun x =>
    { x with fifo := (x.fifo.filter fun l => !l.next) ++ good, redo := (ls.filter (·.fault)).map (·.y) }
  (s.bump (AD_SPEC_HIT t) AD_SPEC_HIT_COUNT 1).bump (AD_SPEC_REDO t) AD_SPEC_REDO_COUNT (ls.length - good.length)

/-- Composition goes on with the next frame; `gen` is the generation latched, `anew` whether arithmetic or timing changed with this
latch, which no speculative work can outlast. -/
def State.latchSpec (s : State) (t gen : Nat) (anew : Bool) : State :=
  let tags := s.specTags t
  let x := s.scanAt t
  let from_ := if x.compNext then x.compY else 0
  let s := s.scanMod t fun x => { x with compNext := true, compY := from_, redo := [] }
  let s := (s.slotsOf t).foldl (fun s sl => let f := s.fetchAt sl; if f.redo.isEmpty then s else s.setFetchAt sl { f with redo := [] }) s
  if tags.isEmpty then s
  else
    let s := s.bump (AD_SPEC_FRM t) AD_SPEC_FRM_COUNT 1
    if !anew && tags.all (· == gen) then s.specConfirm t else s.specDiscard t

/-! ### A re-seat at the latch (R106, R108) -/

/-- Slots move to the timeline that a re-seat assigns them. -/
def State.reseatSlots (s : State) (ss : List (Nat × Nat)) : State :=
  ss.foldl (fun s x =>
    let st := s.slotName x.1
    if s.slotTl x.1 = 2 * (x.1 / 12) + x.2 then s
    else
      let s := s.slotFrameEnd (s.slotTl x.1) x.1
      let s := s.setFetchAt x.1 (s.fetchAt x.1).cleared
      let s := (s.put (activeOf (LY_CTRL st)) LY_CTRL_TL x.2).put (LY_CTRL st) LY_CTRL_TL x.2
      let g := 64 + st
      s.setBusy g ((s.postedAt g).isSome || (s.tlcAt (2 * (x.1 / 12) + x.2)).handover.isSome)) s

/-- A re-seat that has passed is taken, unless its GO came in this very clock (R107): its words wait for line 0.  It tears a
configuration CRC run (R520). -/
def State.reseatTake (s : State) (t : Nat) : State :=
  match (s.scanAt t).reseat with
  | some r =>
    if r.passed && !r.taken && decide (r.at_ < s.dtime) then
      let s := s.scanMod t fun x => { x with reseat := some { r with taken := true } }
      let s := (s.reseatSlots r.slots).tear true
      let s := ((s.put (TL_RSEAT t) TL_RSEAT_STATUS 1).put (TL_RSEAT t) TL_RSEAT_BUSY 0).postTl t 0x42 0 1 0
      if s.rdNext t (TL_PCLK t) = s.rd (TL_PCLK t) then s
      else (s.put (TL_GENLOCK t) TL_GENLOCK_LOCKED 0).scanMod t fun x => { x with goodGl := 0 }
    else s
  | none => s

/-! ### Flattened runs at the latch (R255 to R259) -/

/-- Whether a slot's bank changed between two images. -/
def slotChanged (a b : BankImage) (sl : Nat) : Bool := a.slot sl != b.slot sl

def ageOf (ages : List (Nat × Nat)) (sl : Nat) : Nat :=
  match ages.find? fun x => x.1 == sl with
  | some x => x.2
  | none => 0

/-- The ages after a latch: a slot that changed or lost a group in the frame starts again. -/
def State.latchAges (s : State) (t : Nat) (before after : BankImage) : State :=
  let old := (s.scanAt t).flatAge
  let next (sl : Nat) : Nat :=
    let g := (s.fetchAt sl).figs
    if slotChanged before after sl || g.lateCause != 0 || g.badTiles != 0 then 0 else min 15 (ageOf old sl + 1)
  let bg := if before.rg = after.rg ∧ before.b = after.b then min 15 ((s.scanAt t).bgAge + 1) else 0
  s.scanMod t fun x => { x with flatAge := (s.slotsOf t).map fun sl => (sl, next sl), bgAge := bg }

/-- Why a run may not go on past this latch: none, or the DETAIL of its end. -/
def flatReason (slots : List Nat) (before after : BankImage) (anew : Bool) (ending : Option Nat) : Option Nat :=
  if anew then some 4
  else if slots.any (slotChanged before after) || before.rg != after.rg || before.b != after.b then some 1
  else ending

def State.postFlat (s : State) (t n st reason : Nat) : State := s.postTl t 0x47 n st reason

/-- A run ends, comes into use or is dropped, and an attempt whose run changed is abandoned. -/
def State.latchFlat (s : State) (t : Nat) (before after : BankImage) (anew : Bool) : State :=
  let s := s.latchAges t before after
  let x := s.scanAt t
  let s := match x.flatJob with
    | some j =>
      if (flatReason j.slots before after anew none).isSome then
        (s.scanMod t fun x => { x with flatJob := none }).bump OG_ABANDON_CNT OG_ABANDON_CNT_COUNT 1
      else s
    | none => s
  let s := match x.flat with
    | some r =>
      match flatReason r.slots before after anew r.ending with
      | some why =>
        let s := s.scanMod t fun x => { x with flat := none }
        if r.inUse then s.postFlat t r.slots.length 0 why else s
      | none =>
        if r.inUse then s
        else ((s.scanMod t fun x => { x with flat := some { r with inUse := true } }).bump OG_FLAT_CNT OG_FLAT_CNT_COUNT 1).postFlat t r.slots.length
          1 0
    | none => s
  s.ogSync

/-! ### The latch -/

/-- The registers that a timeline takes at its latch, as they have landed. -/
def State.latchRegs (s : State) (t : Nat) : State := (useAddrs t).foldl (fun s a => s.wrUse (useNextKey a) (s.rd a)) s

/-- The surfaces of the active bank and the hold surface come into use. -/
def State.latchUse (s : State) (t : Nat) : State :=
  let hs := ((s.readBank t true).layers.map (·.handle)) ++ [s.rdN (FN_HOLD t)]
  (hs.filter fun h => h != noHandle && !(s.locket.firsts.any fun x => x.1 == h) && handleLive h (s.surfAt (handleIndex h))).foldl
    (fun s h => s.markUse (handleIndex h)) s

def State.latch (s : State) (t : Nat) : State :=
  let u := s.dtime - 256
  let d := s.lineTime t true 0
  let pick := s.presetPick t u
  let due := if s.pavUp t then s.presetDue t u else none
  let legacy := s.get (TL_CTRL t) TL_CTRL_LEGACY_ARITH != s.getUse (TL_CTRL t) TL_CTRL_LEGACY_ARITH
  let before := s.readBank t true
  let reseat := match (s.scanAt t).reseat with
    | some r => r.passed && !r.taken && decide (r.at_ < s.dtime)
    | none => false
  let orders := (if s.sealed t && s.pavUp t then directOrder :: s.sealedOrders t else []) ++ if reseat then [seatOrder] else []
  let opened := (s.frameOf t + 1) % 2 ^ 32
  let s := s.latchRegs t
  let s := if s.pavUp t then s.latchBanks t (due.map (·.1)) else s
  let s := s.latchPreset t pick due
  let after := s.readBank t true
  let s := (s.latchBezel t u d).latchSpec t (s.bankGen t) (legacy || reseat || due.isSome)
  let s := (s.reseatTake t).latchFigures t orders
  let s := (s.latchFlat t before after (legacy || reseat)).latchUse t
  let s := s.setTlcAt t { s.tlcAt t with opened := opened }
  s.scanMod t fun x => { x with latched := true, latchAt := some s.dtime }

end Sys2Proof.Machine
end

