-- ==== Sys2Proof/Machine/Reseat.lean ====
section
/-!
DEFINITION. The live re-seat (R104 to R107, R212, R332) and the loss of genlock (R108).
-/

namespace Sys2Proof.Machine

/-! ### GO (R105, R107) -/

/-- The registers that a re-seat replaces. -/
def seatAddrs (t : Nat) : List Nat := [TL_HTIME t, TL_HSYNC t, TL_VTIME t, TL_VSYNC t, TL_PCLK t, TL_LATCH t, TL_AS t, TL_OUT t]

/-- The word a re-seat would write: the shadow's, of TL_LATCH its LINE alone. -/
def State.seatWord (s : State) (t a : Nat) : Word :=
  if a = TL_LATCH t then putField (s.rd a) TL_LATCH_LINE (s.get (shadowOf a) TL_LATCH_LINE) else s.rd (shadowOf a)

/-- The pending slot assignment of a timeline's Pavilion. -/
def State.pendingSlots (s : State) (t : Nat) : List (Nat × Nat) :=
  (slotsOfPav t).map fun sl => (sl, s.get (LY_CTRL (s.slotName sl)) LY_CTRL_TL)

def State.reseatGo (s : State) (t : Nat) (w : Word) : State :=
  if getField w TL_RSEAT_GO = 1 ∧ s.tlOn t then
    if s.on (TL_RSEAT t) TL_RSEAT_BUSY then (s.put (TL_RSEAT t) TL_RSEAT_STATUS 7).postTl t 0x42 0 7 0
    else
      let r : Reseat := ⟨s.dtime, (seatAddrs t).map fun a => (a, s.seatWord t a), s.pendingSlots t, false, false⟩
      (s.put (TL_RSEAT t) TL_RSEAT_BUSY 1).scanMod t fun x => { x with reseat := some r }
  else s

def execReseatGo (now : Nat) (src : Src) (t : Fin 16) (value : Nat) (s : State) : Out :=
  .next ((s.tick now).guarded src (TL_RSEAT t.val) value fun s w => s.reseatGo t.val w).1

/-! ### The checks (R106) -/

/-- Enabled watch regions lie in the active area. -/
def State.regionsFit (s : State) (t ha va : Nat) : Bool :=
  (List.range 32).all fun r =>
    !s.on (WT_CTRL t r) WT_CTRL_EN ||
      (decide (s.get (WT_XY t r) WT_XY_X + s.get (WT_WH t r) WT_WH_W ≤ ha) && decide (s.get (WT_XY t r) WT_XY_Y + s.get (WT_WH t r) WT_WH_H ≤ va))

/-- A new size needs a hold surface of that size (R212). -/
def State.holdFits (s : State) (t ha va : Nat) : Bool :=
  let h := s.rdN (FN_HOLD t)
  let e := match s.locket.firsts.find? fun x => x.1 == h with
    | some x => x.2
    | none => s.surfAt (handleIndex h)
  h != noHandle && handleLive h e && decide (regionOf e.base = .orangery) && e.width == ha && e.height == va &&
  ([0x01, 0x02, 0x04, 0x20, 0x21, 0x2F] : List Nat).contains e.format

def clockMoved (old new : Nat) : Bool := decide (125 * old < 1000 * (max old new - min old new))

/-- The state with slots assigned as a re-seat would assign them. -/
def State.assigned (s : State) (ss : List (Nat × Nat)) : State :=
  ss.foldl (fun s x => s.put (activeOf (LY_CTRL (s.slotName x.1))) LY_CTRL_TL x.2) s

/-- The other timeline of a Pavilion. -/
def sibling (t : Nat) : Nat := if t % 2 = 0 then t + 1 else t - 1

/-- The STATUS that the checks of a re-seat end with: 1, with its admission's result and the sibling's figures, or the refusal with a
shortfall.  DESIGN CHOICE (assumption 126): of several checks that fail, the first in the order limits, pixel clock, routing, payload,
admission is reported. -/
def State.reseatCheck (s : State) (t : Nat) (r : Reseat) : (AdmResult × AdmResult) ⊕ (Nat × Nat) :=
  let g := s.rdWith r.words
  let ha := (timingBy g t).hactive
  let va := (timingBy g t).vactive
  let resized := ha != s.hactive t || va != s.vactive t
  if !limitsBy g t || !clocksBy g || !s.regionsFit t ha va || (resized && !s.holdFits t ha va) then .inr (2, 0)
  else if clockMoved (s.timing t).khz (timingBy g t).khz then .inr (5, 0)
  else if linksBy g t != s.linksOf t then .inr (6, 0)
  else if !((linksBy g t).all fun l => carriesBy g l (s.get (OL_LINK l) OL_LINK_MAXRATE) (s.get (OL_LINK l) OL_LINK_LANES)) then .inr (4, 0)
  else
    let b := s.assigned r.slots
    let u := sibling t
    let f := b.trialFigs g u (b.readBank u true).layers (b.variants u (b.projected u)) (b.specOn u) false
    let sib : AdmResult := ⟨u, b.specOn u, f.1, f.2.1, f.2.2.getD 0, b.caseTotals g [(u, f)]⟩
    match (b.storeCase sib none).decideMode g t (b.readBank t true).layers (b.variants t (b.projected t)) false with
    | .inl a => .inl (a, sib)
    | .inr n => .inr (3, n)

/-- The checks end: the re-seat waits for the next latch, or is refused. -/
def State.reseatDone (s : State) (t : Nat) (r : Reseat) : State :=
  match s.reseatCheck t r with
  | .inl (a, sib) =>
    (((s.storeCase sib none).storeCase a (some seatOrder)).caseDone t 0 0).scanMod t fun x => { x with reseat := some { r with passed := true } }
  | .inr (code, n) =>
    let s := if code = 3 then s.caseDone t 0x14 n else s
    let s := s.scanMod t fun x => { x with reseat := none }
    ((s.put (TL_RSEAT t) TL_RSEAT_STATUS code).put (TL_RSEAT t) TL_RSEAT_BUSY 0).postTl t 0x42 0 code 0

def execReseatCheckDone (now : Nat) (t : Fin 16) (s : State) : Out :=
  let s := s.tick now
  .next (match (s.scanAt t.val).reseat with
    | some r => if r.passed then s else s.reseatDone t.val r
    | none => s)

/-! ### Genlock (R108) -/

/-- GENLOCK_STATE, with the trim in ppm. -/
def State.postGl (s : State) (t st : Nat) : State :=
  s.postTl t 0x41 (s.get (TL_GENLOCK t) TL_GENLOCK_SRC) st ((s.scanAt t).trim % 65536).toNat

/-- Genlock is lost. -/
def State.glLost (s : State) (t : Nat) : State :=
  (((s.put (TL_GENLOCK t) TL_GENLOCK_LOCKED 0).put (TL_STAT t) TL_STAT_GL_LOST 1).scanMod t fun x => { x with goodGl := 0 }).postGl t 0

def State.glSilent (s : State) (t : Nat) : Bool :=
  s.on (TL_CTRL t) TL_CTRL_GENLOCK && s.on (TL_GENLOCK t) TL_GENLOCK_LOCKED &&
  match (s.scanAt t).lastIg with
  | some a => decide (a + s.linesNs t (s.timing t) (2 * s.vtotal t) ≤ s.dtime)
  | none => true

def execGenlockTimeout (now : Nat) (t : Fin 16) (s : State) : Out :=
  .next ((s.tick now).when ((s.tick now).glSilent t.val) fun s => s.glLost t.val)

end Sys2Proof.Machine
end

