-- ==== Sys2Proof/Machine/Surfaces.lean ====
section
/-!
DEFINITION. Surface commands (R151 to R155) and the retirement of surfaces (R156 to R159).
-/

namespace Sys2Proof.Machine

/-! ### The surface table (R144, R145) -/

/-- An entry is written: entry i lies at HPA i × 64 of the hub-reserved region. -/
def State.storeSurf (s : State) (i : Nat) (e : SurfEntry) : State := (s.setSurfAt i e).hubWrite (64 * i) e.bytes

/-- Entries of the surface table are read (R145, R224, R402). -/
def State.tableReads (s : State) (is : List Nat) : State :=
  is.foldl (fun s i => (s.request false (64 * i) 64 .guaranteed 0 .plain).hubCharge 8 64) s

/-! ### Use (R156) -/

/-- Whether a handle names index i as its entry stands. -/
def namesIndex (i : Nat) (e : SurfEntry) (h : Nat) : Bool := h != noHandle && handleIndex h == i && handleGen h == e.generation

/-- The handles that banks and hold surfaces name. -/
def State.namedHandles (s : State) : List Nat :=
  ((List.range 96).flatMap fun st => [s.rdN (bankAddr st 1 false), s.rdN (bankAddr st 1 true)]) ++
  (List.range 16).flatMap fun t => [s.rdN (FN_HOLD t), (s.rdUse (FN_HOLD t)).toNat, (s.rdUse (useNextKey (FN_HOLD t))).toNat]

/-- The handles that records name: those of an accepted commit, and of one that has been validated. -/
def recHandles (rs : List CRec) : List Nat := (rs.filter fun r => r.type == 1 && bit r.mask 1).map fun r => r.value.getD 1 0

def Commit.handles (c : Commit) : List Nat := recHandles c.recs

def Candidate.handles (c : Candidate) : List Nat := recHandles c.recs

def State.surfInUse (s : State) (i : Nat) : Bool :=
  let e := s.surfAt i
  s.namedHandles.any (namesIndex i e) ||
  s.tlc.any (fun q => q.2.live.any fun c => c.handles.any (namesIndex i e)) ||
  s.blit.any (fun c => match c.2.run with
    | some r => r.srcIdx == some i || r.dstIdx == i
    | none => false) ||
  s.wb.any (fun w => (match w.2.cur with
    | some f => f.index == i
    | none => false) || w.2.await.any fun f => f.index == i) ||
  s.fetch.any (fun f => (f.2.issued ++ f.2.gone).any fun x => x.index == some i) ||
  s.rings.any fun q => match q.2.cand with
    | some c => c.handles.any (namesIndex i e)
    | none => false

/-! ### Retirement (R157, R159) -/

/-- Whether a surface's use has ended and its owner can be told. -/
def State.retireDue (s : State) (i : Nat) : Bool :=
  let e := s.surfAt i
  e.valid && (e.releasing || s.used.any fun u => u.1 == i) && !s.surfInUse i && (decide (4 ≤ e.owner) || s.evFree e.owner)

def State.lastFetch (s : State) (i : Nat) : Nat :=
  match s.used.find? fun u => u.1 == i with
  | some u => u.2
  | none => 0

def State.retire (s : State) (i : Nat) : State :=
  let e := s.surfAt i
  let last := s.lastFetch i
  let s := { s with used := s.used.filter fun u => u.1 != i }
  let s := if e.owner < 4 then
      let src := 6 * 256 + e.owner
      let ev := s.mkEvent src 0x60 0 (leBytes 4 (mkHandle i e) ++ [BitVec.ofNat 8 (b2n e.releasing), 0, 0, 0] ++ leBytes 8 last)
      (s.enqueue e.owner ev).nextSeq src
    else s
  if e.releasing then s.storeSurf i { SurfEntry.unused with generation := (e.generation + 1) % 256 } else s

/-- EV_LOST goes before the surface's own event when events were dropped (R301). -/
def State.retireNow (s : State) (i : Nat) : State :=
  let e := s.surfAt i
  let s := if e.owner < 4 then s.postLost e.owner else s
  if s.retireDue i then s.retire i else s

def execSurfaceRetire (now : Nat) (index : Fin 65536) (s : State) : Out :=
  .next ((s.tick now).when (s.retireDue index.val) fun s => s.retireNow index.val)

/-! ### The surface commands (R151, R152, R154) -/

/-- The argument bytes of a port. -/
def State.sfArgs (s : State) (p : Nat) : List Byte := (List.range 11).flatMap fun k => leBytes 4 (s.rdN (HP_SF_ARG p k))

/-- A command ends with its outcome and result. -/
def State.sfEnd (s : State) (p : Nat) (code : SfCode) (result : Nat) : State :=
  (s.put (HP_SF_STAT p) HP_SF_STAT_CODE code.toNat).wrN (HP_SF_RESULT p) (if code = .done then result else 0)

/-- The indices in use, and those that a port holds. -/
def State.bound (s : State) : List Nat := (s.surf.filter fun x => x.2.valid).map (·.1)
def State.heldBy (s : State) (p : Nat) : List Nat := (s.surf.filter fun x => x.2.valid && x.2.owner == p).map (·.1)

/-- The lowest free index: at most as many indices lie before it as are bound. -/
def State.lowestFree (s : State) : Option Nat :=
  let b := s.bound
  (List.range (min (b.length + 1) 65536)).find? fun i => !b.contains i

def State.sfMake (s : State) (p : Nat) : State :=
  let args := s.sfArgs p
  let c := createCheck s.space p (s.bar2Range p) args
  if c ≠ .done then s.sfEnd p c 0
  else if s.get (HP_SF_QUOTA p) HP_SF_QUOTA_MAX ≤ (s.heldBy p).length then s.sfEnd p .quota 0
  else match s.lowestFree with
    | none => s.sfEnd p .full 0
    | some i =>
      let e := { SurfEntry.ofBytes args with owner := p, generation := (s.surfAt i).generation, releasing := false, pub := false }
      (s.storeSurf i e).sfEnd p .done (mkHandle i e)

def State.sfDrop (s : State) (p : Nat) : State :=
  let h := s.rdN (HP_SF_ARG p 0)
  let s := s.tableReads [handleIndex h]
  let e := s.entryAt (handleIndex h)
  if !handleLive h e then s.sfEnd p .stale 0
  else if e.owner ≠ p then s.sfEnd p .notOwner 0
  else (s.storeSurf (handleIndex h) { e with releasing := true }).sfEnd p .done h

def State.sfShow (s : State) (p : Nat) : State :=
  let h := s.rdN (HP_SF_ARG p 0)
  let s := s.tableReads [handleIndex h]
  let e := s.entryAt (handleIndex h)
  if !handleLive h e then s.sfEnd p .stale 0
  else if e.owner ≠ p ∧ !e.pub then s.sfEnd p .notOwner 0
  else
    let bs := e.bytes44
    ((List.range 11).foldl (fun s k => s.wrN (HP_SF_ARG p k) (fieldAt bs (4 * k) 4)) s).sfEnd p .done h

def State.sfDropAll (s : State) (p : Nat) : State :=
  let is := (s.heldBy p).filter fun i => (s.entryAt i).valid && !(s.surfAt i).releasing
  (is.foldl (fun s i => s.storeSurf i { s.surfAt i with releasing := true }) s).sfEnd p .done is.length

/-- A write of HP_SF_CMD, landed. -/
def State.sfCmd (s : State) (p : Nat) (w : Word) : State :=
  let op := getField w HP_SF_CMD_OP
  let s := s.wr (HP_SF_CMD p) w
  if op = 1 then s.sfMake p
  else if op = 2 then s.sfDrop p
  else if op = 3 then s.sfShow p
  else if op = 4 then s.sfDropAll p
  else s.sfEnd p .badOp 0

/-- A surface command of a port: a write of HP_SF_CMD with that OP. -/
def State.sfWrite (s : State) (p : Fin 4) (op value : Nat) : State :=
  s.when (getField (BitVec.ofNat 32 value) HP_SF_CMD_OP == op) fun s => (s.guarded (.host p) (HP_SF_CMD p.val) value fun s w => s.sfCmd p.val w).1

def execSfCreate (now : Nat) (p : Fin 4) (value : Nat) (s : State) : Out := .next ((s.tick now).sfWrite p 1 value)

def execSfDestroy (now : Nat) (p : Fin 4) (value : Nat) (s : State) : Out := .next ((s.tick now).sfWrite p 2 value)

def execSfRead (now : Nat) (p : Fin 4) (value : Nat) (s : State) : Out := .next ((s.tick now).sfWrite p 3 value)

def execSfDestroyAll (now : Nat) (p : Fin 4) (value : Nat) (s : State) : Out := .next ((s.tick now).sfWrite p 4 value)

end Sys2Proof.Machine
end

