-- ==== Sys2Proof/Machine/Validate.lean ====
section
/-!
DEFINITION. Commit descriptors and records (R272 to R274), and validation steps 1 to 6 (R275, R276, R295).
-/

namespace Sys2Proof.Machine

/-! ### Descriptors and records -/

def Desc.ofBytes (b : List Byte) : Desc :=
  { seq := fieldAt b 0 4, epoch := fieldAt b 4 2, tl := fieldAt b 6 1, nrec := fieldAt b 7 1, flags := fieldAt b 8 2, tkind := fieldAt b 10 1,
    nfence := fieldAt b 11 1, tag := fieldAt b 12 4, target := fieldAt b 16 8, records := fieldAt b 24 4, crc := fieldAt b 28 4,
    fences := (List.range 4).map fun i => bytesAt b (32 + 8 * i) 8 }

def CRec.ofBytes (b : List Byte) : CRec :=
  { type := fieldAt b 0 1, slot := fieldAt b 1 1, rsvd := fieldAt b 2 2, mask := fieldAt b 4 4,
    value := (List.range 22).map fun k => fieldAt b (8 + 4 * k) 4 }

def recordsOf (n : Nat) (b : List Byte) : List CRec := (List.range n).map fun i => CRec.ofBytes (bytesAt b (96 * i) 96)

def Desc.noMerge (d : Desc) : Bool := bit d.flags 0

/-- The fences in use, with their indices. -/
def Desc.used (d : Desc) : List (Nat × List Byte) := (List.range (min d.nfence 4)).map fun i => (i, d.fences.getD i [])

def fenceKind (f : List Byte) : Nat := fieldAt f 0 1
def fenceUnit (f : List Byte) : Nat := fieldAt f 1 1
def fenceValue (f : List Byte) : Nat := fieldAt f 4 4

/-- Class and number of units of a fence kind (R273). -/
def fenceClass (kind : Nat) : Option (Nat × Nat) :=
  if kind = 1 then some (5, 24) else if kind = 2 then some (3, 32) else if kind = 3 then some (4, 8) else none

/-- The order in which records are checked: BACKGROUND, then layer slots in increasing index. -/
def recOrder (rs : List CRec) : List CRec :=
  (rs.filter fun r => r.type == 2) ++ sortBy (fun a b => decide (a.slot ≤ b.slot)) (rs.filter fun r => r.type != 2)

/-! ### Fields of banked words (R222, R265) -/

def rowFields (a : Nat) : List FieldRow :=
  match rowAt a with
  | some r => r.fields
  | none => []

def fieldMask (fs : List FieldRow) : Nat := (fs.map fun f => (2 ^ f.w - 1) * 2 ^ f.lo).foldl (· + ·) 0

/-- The fields marked (I) and all fields of banked word k. -/
def instMask (k : Nat) : Nat := fieldMask ((rowFields (0x210000 + 4 * k)).filter (·.inst))
def wordMask (k : Nat) : Nat := fieldMask (rowFields (0x210000 + 4 * k))
def bgMask (k : Nat) : Nat := fieldMask (rowFields (0x200010 + 4 * k))

/-! ### Step 1: grants -/

def State.recGrant (s : State) (p t : Nat) (r : CRec) : Option Refuse :=
  if r.type != 1 then none
  else
    let same := (List.range 22).all fun k =>
      !bit r.mask k || (r.value.getD k 0 &&& instMask k) == (s.rdN (bankAddr (s.slotName r.slot) k true) &&& instMask k)
    if s.grantedW p 12 r.slot && r.slot / 12 == t / 2 && s.slotTl r.slot == t && same then none else some ⟨0x10, 1, r.slot, 0⟩

def State.stepGrant (s : State) (p : Nat) (d : Desc) (rs : List CRec) : Option Refuse :=
  if !(decide (d.tl < 16) && s.grantedW p 1 d.tl) then some ⟨0x10, 1, 0xFF, 0⟩
  else if d.used.any fun f => match fenceClass (fenceKind f.2) with
      | some c => !s.grantedR p c.1 (fenceUnit f.2)
      | none => false then some ⟨0x10, 1, 0xFF, 0⟩
  else firstSome (s.recGrant p d.tl) (recOrder rs)

/-! ### Step 3: descriptor, fences and records -/

def descFormat (d : Desc) (raw recs : List Byte) : Bool :=
  decide (1 ≤ d.nrec) && decide (d.nrec ≤ 13) && decide (d.flags < 4) && decide (d.tkind ≤ 2) && decide (d.nfence ≤ 4) &&
  (d.tkind != 0 || d.target == 0) && (d.tkind != 1 || decide (d.target < 2 ^ 32)) &&
  d.crc == (if bit d.flags 1 then crc32c (raw.take 28 ++ recs) else 0) &&
  (List.range 4).all fun i => decide (i < d.nfence) || leNat (d.fences.getD i []) == 0

def fenceFormat (f : Nat × List Byte) : Option Refuse :=
  match fenceClass (fenceKind f.2) with
  | some c => if fenceUnit f.2 < c.2 ∧ fieldAt f.2 2 2 = 0 then none else some ⟨0x17, 3, 0xFF, f.1⟩
  | none => some ⟨0x17, 3, 0xFF, f.1⟩

/-- TYPE, SLOT, MASK and reserved bits of a record; `on` whether its slot's candidate EN is 1. -/
def recFormat (rs : List CRec) (on : Nat → Bool) (r : CRec) : Option Refuse :=
  let twice := 1 < (rs.filter fun q => q.type == r.type && q.slot == r.slot).length
  if r.type = 2 then
    if twice ∨ r.slot ≠ 0 ∨ r.rsvd ≠ 0 ∨ 4 ≤ r.mask ∨ (List.range 2).any fun k => bit r.mask k && (r.value.getD k 0 &&& bgMask k) != r.value.getD k 0 then
      some ⟨0x11, 3, 0xFF, 0⟩
    else none
  else if r.type ≠ 1 ∨ twice ∨ r.rsvd ≠ 0 ∨ 2 ^ 22 ≤ r.mask ∨ r.mask / 2 ^ 15 % 16 ≠ 0 then some ⟨0x11, 3, r.slot, 0⟩
  else if on r.slot ∧ (List.range 22).any fun k => bit r.mask k && (r.value.getD k 0 &&& wordMask k) != r.value.getD k 0 then some ⟨0x11, 3, r.slot, 0⟩
  else none

/-! ### Candidates (R275) -/

/-- A record's masked words over an image; a slot whose handle this commit names takes that surface's entry, which is checked and copied only
where the slot is examined. -/
def State.candRec (s : State) (img : BankImage) (r : CRec) : BankImage :=
  if r.type = 2 then
    { img with rg := if bit r.mask 0 then r.value.getD 0 0 else img.rg, b := if bit r.mask 1 then r.value.getD 1 0 else img.b }
  else img.mod r.slot fun x =>
    let ws := maskedWords x.words r.value r.mask
    let named := bit r.mask 1 || x.words.getD 0 0 % 2 == 0
    { x with words := ws, entry := if named then s.entryAt (handleIndex (ws.getD 1 0)) else x.entry }

def slotOn (img : BankImage) (sl : Nat) : Bool :=
  match img.slot sl with
  | some x => x.layer.en
  | none => false

/-- The written slots whose candidate EN is 1, in increasing index: one that the commit enables is checked in full. -/
def written (before cand : BankImage) (rs : List CRec) : List Examined :=
  (recOrder rs).filterMap fun r =>
    if r.type = 1 then
      match cand.slot r.slot with
      | some x => if x.layer.en then some ⟨x, bit r.mask 1 || !slotOn before r.slot, none⟩ else none
      | none => none
    else none

/-- The written slots that only a preset enables, with whether their handle is named. -/
def State.writtenPreset (s : State) (t : Nat) (cand : BankImage) (rs : List CRec) : List Examined :=
  (recOrder rs).filterMap fun r =>
    if r.type = 1 then
      match cand.slot r.slot with
      | some x => if s.presetEnables t x then some ⟨x, bit r.mask 1, none⟩ else none
      | none => none
    else none

def exLe (a b : Examined) : Bool := a.img.slot ≤ b.img.slot

/-- The slots that steps 3 to 5 examine: those given and those that presets enable. -/
def State.wideSlots (s : State) (t : Nat) (cand : BankImage) (xs : List Examined) : List Examined :=
  sortBy exLe (xs ++ (s.presetSlots t cand).map fun i => Examined.mk i false none)

/-- Steps 3 to 5 over the examined slots, after the failures `pre` of records. -/
def State.wideChecks (s : State) (t : Nat) (bad : List Nat) (all : List Examined) (pre : Option Refuse) : Refuse ⊕ Checked :=
  let f := firstSome (fun x => match s.formatCheck bad x with
    | Sum.inl (some e) => some e
    | _ => none) all
  match pre, f with
  | some a, some b => .inl (if a.slot ≤ b.slot ∨ a.slot = 0xFF then a else b)
  | some a, none => .inl a
  | none, _ => s.slotChecks t bad all

/-- Step 6 on a candidate. -/
def State.stepAdmit (s : State) (t : Nat) (cand : BankImage) : AdmResult ⊕ Nat :=
  s.decideMode s.rd t (s.readBank t true).layers (s.variants t cand) false

/-- A candidate's accept code (R240): taps reduced, or a flattened run of the timeline in use and left unchanged. -/
def State.acceptCode (s : State) (t : Nat) (before cand : BankImage) (reduced : Bool) : Nat :=
  if reduced then 2
  else match (s.scanAt t).flat with
    | some r => if r.inUse && !(r.slots.any (slotChanged before cand)) && before.rg == cand.rg && before.b == cand.b then 1 else 0
    | none => 0

/-- What steps 1 to 3 make of a descriptor: the candidate state, the written slots, those that only presets enable, and every slot that steps 3 to
5 examine. -/
structure Scope where
  cand    : BankImage
  written : List Examined
  preset  : List Examined
  all     : List Examined

def State.scopeOf (s : State) (d : Desc) (rs : List CRec) : Scope :=
  let before := s.projected d.tl
  let cand := (recOrder rs).foldl s.candRec before
  let xs := written before cand rs
  { cand := cand, written := xs, preset := s.writtenPreset d.tl cand rs, all := s.wideSlots d.tl cand xs }

/-- Steps 1 and 2, and the descriptor and the fences of step 3. -/
def State.firstSteps (s : State) (p : Nat) (bad : List Nat) (raw recs : List Byte) (d : Desc) (rs : List CRec) (x : Scope) : Option Refuse :=
  match s.stepGrant p d rs with
  | some e => some e
  | none =>
    match firstSome (s.handleCheck (some p) bad) (sortBy exLe (x.written ++ x.preset)) with
    | some e => some e
    | none => if !descFormat d raw recs then some ⟨0x11, 3, 0xFF, 0⟩ else firstSome fenceFormat d.used

def Desc.recs (d : Desc) (recs : List Byte) : List CRec := recordsOf (if 1 ≤ d.nrec ∧ d.nrec ≤ 13 then d.nrec else 0) recs

/-- The row indices in host windows that step 3 of a commit reads, as (HPA, bytes); none are read where an earlier check fails. -/
def State.indexReads (s : State) (p : Nat) (bad : List Nat) (raw recs : List Byte) : List (Nat × Nat) :=
  let d := Desc.ofBytes raw
  let rs := d.recs recs
  let x := s.scopeOf d rs
  if (s.firstSteps p bad raw recs d rs x).isSome then []
  else (x.all.filter fun e => e.img.windowIndex != 0).map fun e => (e.img.layer.entry.aux1 + 4 * e.img.layer.tileRows.headD 0, e.img.windowIndex)

/-- What validation leaves: a refusal, or the candidate for the journal; `idx` is what the host answers to the reads of row indices. -/
def State.validate (s : State) (p r : Nat) (bad : List Nat) (raw recs idx : List Byte) : Refuse ⊕ Candidate :=
  let d := Desc.ofBytes raw
  let rs := d.recs recs
  let t := d.tl
  let x := s.scopeOf d rs
  match s.firstSteps p bad raw recs d rs x with
  | some e => .inl e
  | none =>
    match s.wideChecks t bad (giveIndex x.all idx) (firstSome (recFormat rs (slotOn x.cand)) (recOrder rs)) with
    | .inl e => .inl e
    | .inr c =>
      let cand := x.cand.withChecked c
      match s.stepAdmit t cand with
      | .inr n => .inl ⟨0x14, 6, 0xFF, n⟩
      | .inl _ =>
        let mine := (x.written ++ x.preset).filterMap fun e => (cand.slot e.img.slot).map fun i => (i, e.named)
        .inr { port := p, ring := r, desc := d, recs := rs, status := s.acceptCode t (s.projected t) cand c.reduced,
               ents := (mine.filter (·.2)).map fun m => (m.1.slot, m.1.entry),
               buds := (mine.filter fun m => fmtFacet m.1.entry.format).map fun m => (m.1.slot, m.1.buds),
               taps := c.taps.filter fun y => x.written.any fun e => e.img.slot == y.1 }

/-! ### The direct register path (R295) -/

/-- The pending bank as a candidate: every slot enabled in it, or by a preset, is examined with the entry its handle names. -/
def State.directCand (s : State) (t : Nat) : BankImage :=
  let img := s.readBank t false
  { img with slots := img.slots.map fun x =>
      if x.layer.en || s.presetEnables t x then
        let h := x.words.getD 1 0
        { x with entry := match s.locket.firsts.find? fun f => f.1 == h with
            | some f => f.2
            | none => s.entryAt (handleIndex h) }
      else x }

/-- Steps 2 to 6 on a pending bank: the refusal, or the bank with its copies and the admission's result. -/
def State.directCheck (s : State) (t : Nat) (owner : Option Nat) : Refuse ⊕ (BankImage × Nat × AdmResult) :=
  let cand := s.directCand t
  let look (f : SlotImg → Bool) : List Examined :=
    (cand.slots.filter f).map fun x => Examined.mk x (!(s.locket.firsts.any fun f => f.1 == x.words.getD 1 0)) none
  match firstSome (s.handleCheck owner []) (look fun x => x.layer.en || s.presetEnables t x) with
  | some e => .inl e
  | none =>
    match s.wideChecks t [] (s.wideSlots t cand (look fun x => x.layer.en)) none with
    | .inl e => .inl e
    | .inr c =>
      let img := cand.withChecked c
      match s.stepAdmit t img with
      | .inr n => .inl ⟨0x14, 6, 0xFF, n⟩
      | .inl a => .inr (img, s.acceptCode t (s.readBank t true) img c.reduced, a)

end Sys2Proof.Machine
end

