-- ==== Sys2Proof/Machine/Rings.lean ====
section
/-!
DEFINITION. Commit rings (R267 to R271, R277), the journal (R279 to R281), and what becomes of an accepted commit (R283 to R296).
-/

namespace Sys2Proof.Machine

/-! ### The journal (R279 to R281) -/

def Desc.bytes (d : Desc) : List Byte :=
  leBytes 4 d.seq ++ leBytes 2 d.epoch ++ [BitVec.ofNat 8 d.tl, BitVec.ofNat 8 d.nrec] ++ leBytes 2 d.flags ++
  [BitVec.ofNat 8 d.tkind, BitVec.ofNat 8 d.nfence] ++ leBytes 4 d.tag ++ leBytes 8 d.target ++ leBytes 4 d.records ++ leBytes 4 d.crc ++
  d.fences.flatten

def CRec.bytes (r : CRec) : List Byte :=
  [BitVec.ofNat 8 r.type, BitVec.ofNat 8 r.slot] ++ leBytes 2 r.rsvd ++ leBytes 4 r.mask ++ r.value.flatMap (leBytes 4)

def journalBase (t : Nat) : Nat := 0x400000 + t * 0x200000
def journalBytes : Nat := 0x200000

/-- What follows the descriptor and the records: entry copies and row budgets. -/
def journalTail (ents : List (Nat × SurfEntry)) (buds : List (Nat × List Nat)) : List Byte :=
  (ents.flatMap fun x => x.2.bytes) ++ buds.flatMap fun x => x.2.flatMap (leBytes 4)

def journalUnits (c : Candidate) : Nat := cdiv (128 + 96 * c.recs.length + (journalTail c.ents c.buds).length) 256

/-- A journal record with its STATE and FRAME. -/
def Commit.journal (c : Commit) (st frame : Nat) : List Byte :=
  let rest := c.desc.bytes ++ c.recs.flatMap CRec.bytes ++ journalTail c.ents c.buds
  let head := [0x4A, 0x52, 0x4E, 0x4C] ++ leBytes 2 c.units ++ [BitVec.ofNat 8 st, BitVec.ofNat 8 c.ring] ++ leBytes 4 c.desc.seq ++
    leBytes 4 c.order ++ leBytes 8 c.at_ ++ leBytes 4 frame ++ [BitVec.ofNat 8 c.status] ++ zeros 31
  head ++ leBytes 4 (crc32c (head ++ zeros 4 ++ rest)) ++ rest

/-- A record is written, around the end of the area where it reaches it. -/
def State.journalWrite (s : State) (t : Nat) (c : Commit) (st frame : Nat) : State :=
  let bs := c.journal st frame
  let n := journalBytes - c.unit * 256
  (s.hubWrite (journalBase t + c.unit * 256) (bs.take n)).hubWrite (journalBase t) (bs.drop n)

/-- The units of a timeline's area from its oldest record that still holds space up to the next record: what lies between them is free only
when all of it is, since the log is circular (R279). -/
def State.journalUsed (s : State) (t : Nat) : Nat :=
  let q := s.tlcAt t
  match q.live with
  | [] => 0
  | c :: _ => if q.tail = c.unit then 8192 else (q.tail + 8192 - c.unit) % 8192

/-! ### Ring events (R303) -/

def ringPayload (cseq status tl step slot value tag : Nat) : List Byte :=
  leBytes 4 cseq ++ [BitVec.ofNat 8 status, BitVec.ofNat 8 tl, BitVec.ofNat 8 step, BitVec.ofNat 8 slot] ++ leBytes 4 value ++ leBytes 4 tag

/-- An event of a commit, for which its port's backlog holds an entry. -/
def State.postCommit (s : State) (ring type flags : Nat) (d : Desc) (status step slot value : Nat) : State :=
  s.postReserved [ring / 8] (2 * 256 + ring) type flags (ringPayload d.seq status d.tl step slot value d.tag)

/-! ### Rings and doorbells (R267 to R269, R271) -/

def State.ringOn (s : State) (p r : Nat) : Bool := s.on (HP_CR_CTRL p r) HP_CR_CTRL_EN && !s.on (HP_CR_STAT p r) HP_CR_STAT_HALT

def State.ringCons (s : State) (p r : Nat) : Nat := s.get (HP_CR_CONS p r) HP_CR_CONS_CONS

def State.ringMod (s : State) (p r : Nat) (f : Ring → Ring) : State := s.setRingAt (8 * p + r) (f (s.ringAt (8 * p + r)))

def State.ringHalt (s : State) (p r cause : Nat) : State :=
  let s := (s.put (HP_CR_STAT p r) HP_CR_STAT_HALT 1).put (HP_CR_STAT p r) HP_CR_STAT_CAUSE cause
  s.postOwn p 2 (8 * p + r) 0x24 (ringPayload (s.rdN (HP_CR_NEXT_SEQ p r)) 0 0 0 0xFF cause 0)

/-- A producer count on a ring that runs. -/
def State.ringProd (s : State) (p r prod : Nat) : State :=
  let q := s.ringAt (8 * p + r)
  if sdiff 16 prod q.prod < 0 then s
  else if 2 ^ s.get (HP_CR_CTRL p r) HP_CR_CTRL_LOG2 < (prod + 2 ^ 16 - s.ringCons p r) % 2 ^ 16 then s.ringHalt p r 1
  else s.ringMod p r fun q => { q with prod := prod }

/-- A doorbell that acts (R269); one that is dropped or ignored is not taken (R309). -/
def State.ringBell (s : State) (p r : Nat) (w : Word) : State :=
  let prod := getField w HP_CR_DB_PROD
  if getField w HP_CR_DB_EPOCH ≠ s.get (HP_EPOCH p) HP_EPOCH_EPOCH then
    (s.bump (HP_CR_STAT p r) HP_CR_STAT_DROP_CNT 1).put (HP_CR_STAT p r) HP_CR_STAT_STALE 1
  else if s.ringOn p r && decide (sdiff 16 prod (s.ringAt (8 * p + r)).prod < 0) then s
  else
    let s := s.wr (HP_CR_DB p r) w
    if s.ringOn p r then s.ringProd p r prod else s.ringMod p r fun q => { q with kept := some prod }

def State.crDb (s : State) (src : Src) (p r : Nat) (w : Word) : State := s.bell src (HP_CR_DB p r) w.toNat fun s => s.ringBell p r w

def execCommitDoorbell (now : Nat) (src : Src) (p : Fin 4) (r : Fin 8) (value : Nat) (s : State) : Out :=
  .next ((s.tick now).guarded src (HP_CR_DB p.val r.val) value fun s w => s.crDb src p.val r.val w).1

/-- A ring that starts to run acts on the doorbell kept. -/
def State.ringStart (s : State) (p r : Nat) : State :=
  let s := ((s.put (HP_CR_CTRL p r) HP_CR_CTRL_EN 1).put (HP_CR_STAT p r) HP_CR_STAT_HALT 0).put (HP_CR_STAT p r) HP_CR_STAT_CAUSE 0
  match (s.ringAt (8 * p + r)).kept with
  | some prod => (s.ringMod p r fun q => { q with kept := none }).ringProd p r prod
  | none => s

/-- A write of HP_CR_CTRL. -/
def State.crCtrl (s : State) (src : Src) (p r : Nat) (w : Word) : State :=
  let en := getField w HP_CR_CTRL_EN == 1
  let was := s.on (HP_CR_CTRL p r) HP_CR_CTRL_EN
  if en && !s.grantedW p 2 (8 * p + r) then s.refuseWrite src (HP_CR_CTRL p r) w.toNat 1
  else
    let s := if was then s else s.put (HP_CR_CTRL p r) HP_CR_CTRL_LOG2 (getField w HP_CR_CTRL_LOG2)
    let l := s.get (HP_CR_CTRL p r) HP_CR_CTRL_LOG2
    if !en then s.put (HP_CR_CTRL p r) HP_CR_CTRL_EN 0
    else if was then s
    else if l < 4 ∨ 12 < l then s.put (HP_CR_STAT p r) HP_CR_STAT_CFG_BAD 1
    else s.ringStart p r

def execCrEnable (now : Nat) (src : Src) (p : Fin 4) (r : Fin 8) (value : Nat) (s : State) : Out :=
  .next ((s.tick now).guarded src (HP_CR_CTRL p.val r.val) value fun s w => s.crCtrl src p.val r.val w).1

/-! ### The validator's turns (R277, R301) -/

/-- A ring with an entry to read whose port can reserve an event and has no surface command under way (R152). -/
def State.ringWork (s : State) (p r : Nat) : Bool :=
  s.ringOn p r && (s.ringAt (8 * p + r)).prod != s.ringCons p r && s.islUp (islHost p) && s.evFree p && !s.on (HP_SF_STAT p) HP_SF_STAT_BUSY

def State.validatorFree (s : State) : Bool :=
  s.islUp islCarousel && s.park.step == 0 && !s.rings.any fun q => q.2.cand.isSome

/-- The ring whose turn it is: ports in round robin, and within a port its rings. -/
def State.validatorTurn (s : State) : Option (Nat × Nat) :=
  firstSome (fun i =>
    let p := (s.valPort + i) % 4
    (((List.range 8).map fun k => (s.valRingAt p + k) % 8).find? fun r => s.ringWork p r).map fun r => (p, r)) [0, 1, 2, 3]

/-- One entry was taken: the next turn is the next port's, and there the next ring's. -/
def State.turnTaken (s : State) (p r : Nat) : State := { s with valPort := (p + 1) % 4 }.setValRingAt p ((r + 1) % 8)

/-! ### Reading an entry (R268, R270, R271) -/

def State.ringAdvance (s : State) (p r : Nat) : State := s.bumpMod (HP_CR_CONS p r) HP_CR_CONS_CONS 1

/-- The entry was validated: both counts advance. -/
def State.ringDone (s : State) (p r : Nat) : State :=
  ((s.ringAdvance p r).bumpMod (HP_CR_NEXT_SEQ p r) HP_CR_NEXT_SEQ_SEQ 1).ringMod p r fun q => { q with cand := none }

/-- An entry dropped without an event. -/
def State.entryDrop (s : State) (p r : Nat) (f : Fld) : State :=
  (((s.release [p]).ringAdvance p r).bump (HP_CR_STAT p r) HP_CR_STAT_DROP_CNT 1).put (HP_CR_STAT p r) f 1

def State.refuseEntry (s : State) (p r : Nat) (d : Desc) (e : Refuse) : State :=
  (s.postCommit (8 * p + r) 0x21 0 d e.code e.step e.slot e.value).ringDone p r

/-- The indices that a commit's records name. -/
def namedIndices (rs : List CRec) : List Nat := (recHandles rs).map handleIndex

/-- Table entries both copies of which failed their check are reported (R145); KIND and the syndrome are the spec's to leave open. -/
def State.tableErrors (s : State) (bad : List Nat) (rs : List CRec) : State :=
  match s.locket.dram with
  | none => s
  | some c => ((namedIndices rs).filter fun i => bad.contains i || s.poisoned (64 * i) 64).foldl (fun s i =>
      let (k, s) := s.drawHalf
      let (syn, s) := s.drawHalf
      let l := s.dramLoc c (64 * i)
      s.dramUe (c.physOf l.sub) (64 * i) (3 + k % 3) (syn % 256) 0) s

/-- Steps 1 to 6 on an entry that has its turn; `idx` is what the host answers to the reads of row indices in its window. -/
def State.entryValidate (s : State) (p r : Nat) (bad : List Nat) (raw recs idx : List Byte) : State :=
  let d := Desc.ofBytes raw
  let rs := d.recs recs
  let s := (s.tableReads (namedIndices rs)).tableErrors bad rs
  let s := (s.indexReads p bad raw recs).foldl (fun s x => ((s.busIssue x.1 x.2 .guaranteed 0 .plain).busRead x.1 x.2 .ok []).1) s
  match s.validate p r bad raw recs idx with
  | .inl e => (if e.step = 6 then s.caseDone d.tl 0x14 e.value else s).refuseEntry p r d e
  | .inr c => s.ringMod p r fun q => { q with cand := some c }

/-- The records of an entry, after its descriptor. -/
def State.recordsRead (s : State) (p r : Nat) (res : ReadRes) (host : List Byte) (bad : List Nat) (raw : List Byte) : State :=
  let d := Desc.ofBytes raw
  let n := if 1 ≤ d.nrec ∧ d.nrec ≤ 13 then 96 * d.nrec else 0
  if s.hwSize p < d.records * 128 + n then (s.release [p]).ringHalt p r 4
  else
    let a := hwBase p + d.records * 128
    let (s, got) := (s.unitIssue a n .besteffort).busRead a n res (host.drop 64)
    match got with
    | none => (s.release [p]).ringHalt p r 3
    | some recs => s.entryValidate p r bad raw recs (host.drop (64 + n))

/-- A descriptor has been read: its epoch and its sequence number come first. -/
def State.entryRead (s : State) (p r : Nat) (res : ReadRes) (host : List Byte) (bad : List Nat) : State :=
  match s.reserve [p] with
  | none => s
  | some s =>
    let k := s.ringCons p r % 2 ^ s.get (HP_CR_CTRL p r) HP_CR_CTRL_LOG2
    let a := hwBase p + (s.get (HP_CR_BASE_LO p r) HP_CR_BASE_LO_BASE * 4096 + s.get (HP_CR_BASE_HI p r) HP_CR_BASE_HI_BASE * 2 ^ 32) + 64 * k
    let (s, got) := ((s.turnTaken p r).unitIssue a 64 .besteffort).busRead a 64 res host
    match got with
    | none => (s.release [p]).ringHalt p r 3
    | some raw =>
      let d := Desc.ofBytes raw
      let next := s.rdN (HP_CR_NEXT_SEQ p r)
      if d.epoch ≠ s.get (HP_EPOCH p) HP_EPOCH_EPOCH then s.entryDrop p r HP_CR_STAT_STALE
      else if sdiff 32 d.seq next < 0 then s.entryDrop p r HP_CR_STAT_DUP
      else if d.seq ≠ next then (s.release [p]).ringHalt p r 2
      else s.recordsRead p r res host bad raw

def execCommitEntryRead (now : Nat) (p : Fin 4) (r : Fin 8) (res : ReadRes) (host : List Byte) (badEntries : List Nat) (s : State) : Out :=
  .next ((s.tick now).when (s.validatorFree && s.validatorTurn == some (p.val, r.val)) fun s => s.entryRead p.val r.val res host badEntries)

/-! ### Acceptance (R280, R283, R284) -/

/-- Whether the latch that opens the frame of a FRAME target has passed. -/
def targetPast (d : Desc) (opened : Nat) : Bool := d.tkind == 1 && decide (sdiff 32 d.target opened ≤ 0)

/-- The candidate state of a commit that waits for its journal copies. -/
def State.candImage (s : State) (c : Candidate) : BankImage := c.recs.foldl (BankImage.applyRec c.ents c.buds c.taps) (s.projected c.desc.tl)

/-- A commit is accepted with the figures of its case, which the caller has made (R240, R280). -/
def State.commitAccept (s : State) (p r : Nat) (c : Candidate) (adm : AdmResult) : State :=
  let t := c.desc.tl
  let q := s.tlcAt t
  let past := targetPast c.desc q.opened
  let m : Commit :=
    { order := q.order, ring := 8 * p + r, desc := c.desc, recs := c.recs, state := .waiting, status := c.status, at_ := s.dtime,
      unit := q.tail, units := journalUnits c, missed := past, targetOk := past || c.desc.tkind == 0, ents := c.ents, buds := c.buds,
      taps := c.taps, mode := adm.mode }
  let s := s.setTlcAt t { q with live := q.live ++ [m], order := (q.order + 1) % 2 ^ 32, tail := (q.tail + m.units) % 8192 }
  let s := (((s.journalWrite t m 1 0).storeCase adm (some m.order)).caseDone t c.status 0)
  let s := (m.handles.filter fun h => h != noHandle).foldl (fun s h => s.markUse (handleIndex h)) s
  let s := (s.postCommit (8 * p + r) 0x20 0 c.desc c.status 0 0xFF m.order).ringDone p r
  (s.reserve [p]).getD s

/-- Step 7: the journal copies are written, or one fails, or the area has no room.  Cases run one at a time and each sees the result of every
earlier one (R233): the commit's figures are those of its acceptance, and one that an earlier case has left no room for is refused as step 6
refuses it. -/
def State.stepSeven (s : State) (p r : Nat) (c : Candidate) (fails : Bool) : State :=
  if fails ∨ 8192 < s.journalUsed c.desc.tl + journalUnits c then s.refuseEntry p r c.desc ⟨0x18, 7, 0xFF, 0⟩
  else match s.stepAdmit c.desc.tl (s.candImage c) with
    | .inl a => s.commitAccept p r c a
    | .inr n => (s.caseDone c.desc.tl 0x14 n).refuseEntry p r c.desc ⟨0x14, 6, 0xFF, n⟩

def execCommitAccept (now : Nat) (p : Fin 4) (r : Fin 8) (copyFail : List Nat) (s : State) : Out :=
  let s := s.tick now
  .next (match (s.ringAt (8 * p.val + r.val)).cand with
    | some c => s.when (s.islUp islCarousel && s.evFree p.val && s.park.step == 0) fun s => s.stepSeven p.val r.val c !copyFail.isEmpty
    | none => s)

/-! ### Leaving WAITING (R283, R284, R286, R293) -/

/-- The count a fence watches. -/
def State.fenceCount (s : State) (f : List Byte) : Nat :=
  let u := fenceUnit f
  match fenceKind f with
  | 1 => s.rdN (IG_FRAME_CNT u)
  | 2 => s.rdN (DM_DONE_CNT u)
  | _ => s.rdN (BL_DONE_CNT u)

def State.fenceMet (s : State) (f : List Byte) : Bool := decide (0 ≤ sdiff 32 (s.fenceCount f) (fenceValue f))

/-- Whether a commit's target allows its seal; while the hub parks every target is "as soon as possible" (R54). -/
def State.targetAllows (s : State) (t : Nat) (c : Commit) : Bool :=
  c.targetOk || s.park.step != 0 ||
  (if c.desc.tkind = 2 then decide (c.desc.target ≤ s.dtime)
   else decide (0 ≤ sdiff 32 (s.tlcAt t).opened (c.desc.target + 2 ^ 32 - 1)) && (s.tlcAt t).handover.isNone)

/-- The commit next to leave WAITING: the earliest that is not sealed, with no image under assembly. -/
def State.nextWaiting (s : State) (t : Nat) : Option Commit :=
  let q := s.tlcAt t
  match q.live.find? fun c => c.state != .sealed with
  | some c => if c.state == .waiting && q.image.isNone && !q.noMerge then some c else none
  | none => none

def State.mayLeave (s : State) (t : Nat) (c : Commit) : Bool :=
  s.targetAllows t c && (c.desc.used.all fun f => s.fenceMet f.2) && s.islUp islCarousel &&
  (!c.desc.noMerge || (!s.sealed t && (s.tlcAt t).handover.isNone))

def TlCommits.setState (q : TlCommits) (order : Nat) (st : CState) : TlCommits :=
  { q with live := q.live.map fun c => if c.order = order then { c with state := st } else c }

/-- The image is assembled on the sealed pending bank, or on the active bank (R290). -/
def State.leave (s : State) (t : Nat) : State :=
  match s.nextWaiting t with
  | some c =>
    if s.mayLeave t c then
      let img := (s.readBank t (!s.sealed t)).applyCommit c
      s.setTlcAt t { (s.tlcAt t).setState c.order .assembled with image := some (c.order, img) }
    else s
  | none => s

def execCommitLeaveWaiting (now : Nat) (t : Fin 16) (s : State) : Out := .next ((s.tick now).leave t.val)

/-- NOT_BEFORE targets that DTIME has reached allow the seal from now on. -/
def State.targetsReached (s : State) (t : Nat) : State :=
  let q := s.tlcAt t
  s.setTlcAt t { q with live := q.live.map fun c =>
    if c.desc.tkind = 2 ∧ c.desc.target ≤ s.dtime then { c with targetOk := true } else c }

def execNotBeforeTarget (now : Nat) (t : Fin 16) (s : State) : Out := .next (((s.tick now).targetsReached t.val).leave t.val)

/-! ### The seal (R290 to R293) -/

/-- The pending bank takes an image and is sealed, for a commit or directly. -/
def State.sealBank (s : State) (t : Nat) (order : Option Nat) (img : BankImage) : State :=
  let u : SealUndo := ⟨s.sealed t, s.readBank t false, order, img⟩
  let s := ((s.writeBank t false img).setSealed t true).genUp t
  s.setTlcAt t { s.tlcAt t with sealAt := s.dtime, undo := some u }

/-- A seal cycle. -/
def State.sealImage (s : State) (t order : Nat) (img : BankImage) : State :=
  let s := s.sealBank t (some order) img
  let q := s.tlcAt t
  match q.live.find? fun c => c.order == order with
  | some c => (s.journalWrite t c 2 0).setTlcAt t { q.setState order .sealed with image := none, noMerge := c.desc.noMerge }
  | none => s.setTlcAt t { q with image := none }

/-- An assembled image is sealed, or its seal is deferred to the end of the hand-over. -/
def State.commitSeal (s : State) (t : Nat) : State :=
  let q := s.tlcAt t
  match q.image with
  | some (n, img) =>
    match q.handover with
    | some h => s.setTlcAt t { q with handover := some { h with commit := true } }
    | none => s.sealImage t n img
  | none => s

def execCommitSeal (now : Nat) (t : Fin 16) (s : State) : Out :=
  .next ((s.tick now).when (s.pavUp t.val && s.islUp islCarousel) fun s => s.commitSeal t.val)

/-! ### The latch clock (R291, R308) -/

/-- The seal of this very clock is taken back: the latch finds the pending bank as the seal found it. -/
def State.sealBack (s : State) (t : Nat) (u : SealUndo) : State :=
  let r := PV_SEAL (s.pvName (t / 2)) (t % 2)
  let s := ((s.writeBank t false u.bank).setSealed t u.was).put r PV_SEAL_GEN ((s.get r PV_SEAL_GEN + 2 ^ PV_SEAL_GEN.w - 1) % 2 ^ PV_SEAL_GEN.w)
  let q := s.tlcAt t
  match u.order, q.live.find? fun c => some c.order == u.order with
  | some n, some c => (s.journalWrite t c 1 0).setTlcAt t { q.setState n .assembled with image := some (n, u.image), noMerge := false }
  | _, _ => s

/-- The seal taken back is deferred to cycle 16, where it belongs to the next latch. -/
def State.sealLater (s : State) (t : Nat) (u : SealUndo) : State :=
  let q := s.tlcAt t
  match q.handover with
  | some h => s.setTlcAt t { q with handover := some { h with commit := h.commit || u.order.isSome, direct := h.direct || u.order.isNone } }
  | none => match u.order with
    | some _ => s.commitSeal t
    | none => s.sealBank t none u.image

/-- The latch, with a seal cycle that falls in its clock after it. -/
def State.latchClock (s : State) (t : Nat) : State :=
  let q := s.tlcAt t
  match q.undo with
  | some u => if s.sealed t && q.sealAt == s.dtime then ((s.sealBack t u).latch t).sealLater t u else s.latch t
  | none => s.latch t

/-- The words in force of the slots' LY_CTRL, the banked registers with a structural field (R520). -/
def State.slotCtrls (s : State) : List Word := (List.range 96).map fun sl => s.rd (activeOf (LY_CTRL sl))

def execLatch (now : Nat) (t : Fin 16) (s : State) : Out :=
  .next ((s.tick now).when ((s.tick now).latchDue t.val) fun s =>
    let u := s.latchClock t.val
    u.tear (u.slotCtrls.map (getField · LY_CTRL_TL) != s.slotCtrls.map (getField · LY_CTRL_TL)))

/-! ### Ends (R286, R287) -/

/-- An accepted commit ends without being applied: VALUE 0 a fence timeout, with the fence in SLOT; 1 parking. -/
def State.commitEnd (s : State) (t : Nat) (c : Commit) (value slot : Nat) : State :=
  let s := s.journalWrite t c 4 0
  let q := s.tlcAt t
  let s := s.setTlcAt t { q with live := q.live.filter fun x => x.order != c.order }
  (s.modeGone t c.order).postCommit c.ring 0x23 0 c.desc 0x17 0 slot value

def State.unmet (s : State) (c : Commit) : Option Nat := (c.desc.used.find? fun f => !s.fenceMet f.2).map (·.1)

/-- Whether the fences of a waiting commit have run out of time. -/
def State.fenceOver (s : State) (c : Commit) : Bool :=
  let ms := s.get (HP_CR_CFG (c.ring / 8) (c.ring % 8)) HP_CR_CFG_FENCE_MS
  c.state == .waiting && ms != 0 && decide (c.at_ + ms * 1000000 ≤ s.dtime) && (s.unmet c).isSome

def State.fenceTimeout (s : State) (t : Nat) : State :=
  if s.islUp islCarousel then
    match (s.tlcAt t).live.find? s.fenceOver with
    | some c => s.commitEnd t c 0 ((s.unmet c).getD 0xFF)
    | none => s
  else s

def execFenceTimeout (now : Nat) (t : Fin 16) (s : State) : Out := .next ((s.tick now).fenceTimeout t.val)

/-! ### The end of a hand-over (R284, R285, R291 to R294) -/

/-- MISSED: its frame had passed at acceptance, or an earlier latch should have opened it. -/
def Commit.late (c : Commit) (frame : Nat) : Bool := c.missed || (c.desc.tkind == 1 && decide (0 < sdiff 32 frame c.desc.target))

def State.commitLatched (s : State) (t frame : Nat) (merged : Bool) (c : Commit) : State :=
  (s.journalWrite t c 3 frame).postCommit c.ring 0x22 (b2n (c.late frame) + 2 * b2n merged) c.desc c.status 0 0xFF frame

def State.handoverEnd (s : State) (t : Nat) : State :=
  let q := s.tlcAt t
  match q.handover with
  | none => s
  | some h =>
    let mine := q.live.filter fun c => h.orders.contains c.order
    let s := (s.bankFree t).setTlcAt t { q with live := q.live.filter fun c => !h.orders.contains c.order, handover := none, noMerge := false }
    let s := mine.foldl (fun s c => s.commitLatched t h.frame (decide (2 ≤ mine.length)) c) s
    let s := if h.preset then s.rebuildImage t else s
    let s := if h.direct then s.sealBank t none (s.readBank t false) else s
    if h.commit then s.commitSeal t else s

def execHandoverEnd (now : Nat) (t : Fin 16) (s : State) : Out := .next ((s.tick now).handoverEnd t.val)

/-! ### Direct seals (R295, R296) -/

def sealOwner : Src → Option Nat
  | .host p => some p.val
  | _ => none

/-- The outcome of a direct seal is written. -/
def State.sealCode (s : State) (t code : Nat) : State :=
  (s.put (PV_SEAL (s.pvName (t / 2)) (t % 2)) PV_SEAL_CODE code).put (PV_SEAL (s.pvName (t / 2)) (t % 2)) PV_SEAL_SEAL 0

/-- The modes that earlier direct seals decided and that no latch has taken give way to the new one. -/
def State.dropDirect (s : State) (t : Nat) : State :=
  let a := s.admAt t
  s.setAdmAt t { pend := a.pend.filter fun x => x.1 != directOrder }

def State.directSeal (s : State) (src : Src) (t : Nat) : State :=
  let q := s.tlcAt t
  if !q.live.isEmpty then s.sealCode t 0x18
  else match s.directCheck t (sealOwner src) with
    | .inl e => (if e.step = 6 then s.caseDone t 0x14 e.value else s).sealCode t e.code
    | .inr (img, code, a) =>
      let s := (((s.dropDirect t).storeCase a (some directOrder)).caseDone t code 0).sealCode t code
      match q.handover with
      | some h => s.setTlcAt t { q with handover := some { h with direct := true } }
      | none => s.sealBank t none img

/-- A write of PV_SEAL. -/
def State.sealWrite (s : State) (src : Src) (t : Nat) (w : Word) : State := if getField w PV_SEAL_SEAL = 1 then s.directSeal src t else s

def execDirectSeal (now : Nat) (src : Src) (pv : Fin 8) (k : Fin 2) (value : Nat) (s : State) : Out :=
  .next ((s.tick now).guarded src (PV_SEAL pv.val k.val) value fun s w => s.sealWrite src (2 * pv.val + k.val) w).1

/-! ### Doorbells that waited (R133, R301, R397) -/

/-- A doorbell that waited acts now. -/
def State.bellAct (s : State) (b : Posted) : State :=
  let w := BitVec.ofNat 32 b.value
  let p := (b.addr - 0xA00000) / 0x10000
  if 0xA00000 ≤ b.addr then s.crDb b.src p ((b.addr - HP_CR_DB p 0) / 0x20) w
  else if b.addr < 0x601000 then s.dmDb b.src ((b.addr - 0x600000) / 0x80) w
  else s.blDb b.src ((b.addr - 0x700000) / 0x80) w

/-- The doorbells that nothing holds any more act in their order; the others go on waiting. -/
def State.bellsRun (s : State) : State := s.bells.foldl State.bellAct { s with bells := [] }

end Sys2Proof.Machine
end

