-- ==== Sys2Proof/Machine/Flatten.lean ====
section
/-!
DEFINITION. Flattening static layer runs into the Orangery's pool (R183, R184, R254 to R259).
-/

namespace Sys2Proof.Machine

/-! ### The candidate run (R255) -/

def State.flatAgeMin (s : State) : Nat := s.get OG_CTRL OG_CTRL_FLAT_AGE

/-- Whether a layer may stand in a run. -/
def State.flatFits (s : State) (t : Nat) (l : LayerCfg) : Bool :=
  !l.besteff && !l.race && decide (s.flatAgeMin ≤ ageOf (s.scanAt t).flatAge l.slot)

/-- The longest prefix of the enabled layers, in blend order, that may be flattened. -/
def State.flatRunOf (s : State) (t : Nat) : List LayerCfg :=
  if s.flatAgeMin ≤ (s.scanAt t).bgAge then (blendOrder (s.layersIn true t)).takeWhile (s.flatFits t) else []

def readsDdr (l : LayerCfg) : Bool := decide (regionOf l.entry.base = .ddr)

def State.flatEligible (s : State) (t : Nat) : Bool :=
  let x := s.scanAt t
  s.on OG_CTRL OG_CTRL_FLAT_EN && x.started && x.flat.isNone && x.flatJob.isNone && s.pavUp t && s.islUp islCarousel &&
  (s.flatRunOf t).any readsDdr

/-- The reads of a layer's frame for flattening, at class B (R224, R256). -/
def State.flatReads (s : State) (t : Nat) (l : LayerCfg) : State :=
  (l.frameGroups (s.timing t)).foldl (fun s x => (s.request false (l.groupSpan x.2).1 (l.groupSpan x.2).2 .besteffort 0 .plain).hubCharge 9 (l.groupSpan x.2).2) s

def State.flatStart (s : State) (t : Nat) : State :=
  let slots := (s.flatRunOf t).map (·.slot)
  let s := (s.flatRunOf t).foldl (State.flatReads · t ·) s
  s.scanMod t fun x => { x with flatJob := some ⟨slots, true⟩ }

def execFlattenStart (now : Nat) (t : Fin 16) (s : State) : Out :=
  .next ((s.tick now).when ((s.tick now).flatEligible t.val) fun s => s.flatStart t.val)

/-! ### The composed frame (R256) -/

/-- A slot with every group of its frame as memory holds it. -/
def State.fetchWhole (s : State) (t : Nat) (l : LayerCfg) : State :=
  let b := s.layerSurface l
  (l.frameGroups (s.timing t)).foldl (fun s x =>
    let i : Issued := { group := x.2, next := false, need := x.1, deadline := 0, spec := none, entry := b.1, index := b.2 }
    match x.2 with
    | .band ty => s.bandArrives l.slot ty i [] []
    | _ => s.rowArrives l.slot i [] []) (s.setFetchAt l.slot (s.fetchAt l.slot).cleared)

/-- Whether a read of a slot met anything bad. -/
def SlotFetch.anyBad (f : SlotFetch) : Bool :=
  !f.lost.isEmpty || f.got.any fun a => !a.bad.isEmpty || a.tiles.any fun q => q.cause.isSome

/-- Line y of the run alone, from PV_BG upwards, in all four channels. -/
def State.flatLine (s : State) (t : Nat) (ls : List LayerCfg) (y : Nat) : List Px :=
  ls.foldl (s.blendLayer (s.legacyOf t) t false y (s.timing t) []) (List.replicate (s.hactive t) (s.bgPx t true))

def pxWord (p : Px) : Nat := p.a * 2 ^ 36 + p.r * 2 ^ 24 + p.g * 2 ^ 12 + p.b

/-- The words of tile (tx, ty); positions outside the surface hold what the spec leaves open. -/
def tileWords (k w h : Nat) (lines : List (List Nat)) (tx ty : Nat) : List Nat :=
  (List.range 64).map fun i =>
    let x := 8 * tx + i % 8
    let y := 8 * ty + i / 8
    if x < w ∧ y < h then (lines.getD y []).getD x 0 else (Config.edgeWord k x y).toNat

/-! ### The encoded surface (R183) -/

/-- A surface being packed: the bodies so far, the headers, and the bytes of each tile row's bodies. -/
structure Packed where
  body : List Byte
  hdrs : List Byte
  rows : List Nat

def Packed.tile (p : Packed) (ws : List Nat) : Packed :=
  let e := encodeTile ws
  let h := encodeHdr ws e.1 (e.2.length / 16) (p.body.length / 16)
  { p with body := p.body ++ e.2, hdrs := p.hdrs ++ leBytes 8 h.toNat }

def packRow (p : Packed) (tiles : List (List Nat)) : Packed :=
  let q := tiles.foldl Packed.tile p
  { q with rows := p.rows ++ [q.body.length - p.body.length] }

def packSurface (k w h : Nat) (lines : List (List Nat)) : Packed :=
  (List.range (tilesAcross h)).foldl (fun p ty => packRow p ((List.range (tilesAcross w)).map fun tx => tileWords k w h lines tx ty)) ⟨[], [], []⟩

/-- Where the header plane and the row index lie after BASE, and the bytes that the surface spans: each at the first place that R139 allows
(assumption 78). -/
def Packed.auxAt (p : Packed) : Nat := alignUp 256 p.body.length
def Packed.indexAt (p : Packed) : Nat := alignUp 256 (p.auxAt + p.hdrs.length)
def Packed.size (p : Packed) : Nat := p.indexAt + 4 * p.rows.length

/-- No band breaks R175. -/
def Packed.bandsOk (p : Packed) (w : Nat) : Bool := p.rows.all fun b => decide (b + 8 * tilesAcross w ≤ 65536)

/-! ### Room in the pool (R254, R258) -/

def State.poolBase (s : State) : Nat := s.get OG_POOL OG_POOL_BASE * 65536
def State.poolSize (s : State) : Nat := s.get OG_POOL OG_POOL_SIZE * 65536

/-- A surface begins at a multiple of 4,096 bytes (R139). -/
def poolRoom (n : Nat) : Nat := alignUp 4096 n

/-- The timelines' flattened surfaces. -/
def State.flatRuns (s : State) : List (Nat × FlatRun) := (List.range 16).filterMap fun t => (s.scanAt t).flat.map fun r => (t, r)

/-- The lowest pool offset with n free bytes among some surfaces. -/
def State.poolFind (s : State) (rs : List FlatRun) (n : Nat) : Option Nat :=
  let free (o : Nat) : Bool :=
    decide (s.poolBase ≤ o) && decide (o + n ≤ s.poolBase + s.poolSize) && !rs.any fun r => overlaps o n r.off r.bytes
  (sortBy (fun x y => decide (x ≤ y)) (s.poolBase :: rs.map fun r => r.off + poolRoom r.bytes)).find? free

/-- Eviction order: increasing saving, the higher timeline first (R258). -/
def evictLe (a b : Nat × FlatRun) : Bool := decide (a.2.saving < b.2.saving) || (a.2.saving == b.2.saving && decide (b.1 ≤ a.1))

/-- The surfaces to evict so that n bytes fit, none when even the whole pool would not take them. -/
def State.evictPlan (s : State) (stay : List (Nat × FlatRun)) (n : Nat) : List (Nat × FlatRun) → List (Nat × FlatRun) → Option (List (Nat × FlatRun))
  | done, [] => if (s.poolFind (stay.filter (fun x => !done.any fun y => y.1 == x.1) |>.map (·.2)) n).isSome then some done else none
  | done, v :: vs =>
    if (s.poolFind (stay.filter (fun x => !done.any fun y => y.1 == x.1) |>.map (·.2)) n).isSome then some done
    else s.evictPlan stay n (done ++ [v]) vs

/-- An evicted surface: one in use ends at the next latch, another goes at once. -/
def State.evict (s : State) (t : Nat) : State :=
  let s := s.bump OG_EVICT_CNT OG_EVICT_CNT_COUNT 1
  s.scanMod t fun x => { x with flat := match x.flat with
    | some r => if r.inUse then some { r with ending := some 2 } else none
    | none => none }

/-! ### Completion (R256 to R258) -/

def State.flatAbandon (s : State) (t : Nat) : State :=
  (s.scanMod t fun x => { x with flatJob := none }).bump OG_ABANDON_CNT OG_ABANDON_CNT_COUNT 1

/-- The surface is written into the pool at offset o, and comes into use at the next latch. -/
def State.flatPlace (s : State) (t o saving : Nat) (slots : List Nat) (p : Packed) : State :=
  let base := orangeryBase + o
  let aux0 := base + p.auxAt
  let aux1 := base + p.indexAt
  let e := { SurfEntry.unused with
    base := base, aux0 := aux0, aux1 := aux1, width := s.hactive t, height := s.vactive t, format := 0x2F, valid := true }
  let r : FlatRun := { slots := slots, off := o, bytes := p.size, aux0 := aux0, entry := e, buds := p.rows, saving := saving, inUse := false,
                       ending := none }
  let s := [(base, p.body), (aux0, p.hdrs), (aux1, p.rows.flatMap (leBytes 4))].foldl
    (fun s w => ((s.request true w.1 w.2.length .besteffort 0 .plain).wrBytes w.1 w.2).hubCharge 9 w.2.length) s
  (s.scanMod t fun x => { x with flat := some r, flatJob := none }).ogSync

/-- Room is found, made, or waited for: while an evicted run is still shown, and while eviction would cost as much as it saves.  A surface that
even the whole pool would not take is given up (R256, R258). -/
def State.flatFit (s : State) (t saving : Nat) (slots : List Nat) (p : Packed) : State :=
  let n := p.size
  let all := s.flatRuns
  match s.poolFind (all.map (·.2)) n with
  | some o => s.flatPlace t o saving slots p
  | none =>
    let stay := all.filter fun x => x.2.ending != some 2
    match s.evictPlan stay n [] (sortBy evictLe stay) with
    | none => s.flatAbandon t
    | some vs =>
      if vs.isEmpty then s
      else if (vs.map fun v => v.2.saving).foldl (· + ·) 0 < saving then
        let s := (vs.foldl (fun s v => s.evict v.1) s).ogSync
        match s.poolFind (s.flatRuns.map (·.2)) n with
        | some o => s.flatPlace t o saving slots p
        | none => s
      else s

/-- The run's frame, composed from memory and encoded; none where a read met anything bad. -/
def State.flatPacked (s : State) (t : Nat) (slots : List Nat) : Option Packed :=
  let ls := (blendOrder (s.layersIn true t)).filter fun l => slots.contains l.slot
  let scratch := ls.foldl (fun a l => a.fetchWhole t l) s
  if ls.any fun l => (scratch.fetchAt l.slot).anyBad then none
  else
    let lines := (List.range (s.vactive t)).map fun y => (scratch.flatLine t ls y).map pxWord
    some (packSurface s.free (s.hactive t) (s.vactive t) lines)

/-- DDR5 bytes per second that the run's layers cost while they are fetched (R258). -/
def State.flatSaving (s : State) (t : Nat) (slots : List Nat) : Nat :=
  let ls := (blendOrder (s.layersIn true t)).filter fun l => slots.contains l.slot
  (figuresOf (s.timing t) 0 0 0 ls [ls] false).rate

/-- An attempt whose reads were all good: the surface is placed, or a band breaks R175. -/
def State.flatFinish (s : State) (t : Nat) (slots : List Nat) : State :=
  match s.flatPacked t slots with
  | none => s.flatAbandon t
  | some p =>
    let u := { s with free := s.free + 1 }
    if p.bandsOk (s.hactive t) then u.flatFit t (s.flatSaving t slots) slots p else u.flatAbandon t

/-- An attempt ends; `lost` when a read of it met a lost group. -/
def execFlattenComplete (now : Nat) (t : Fin 16) (lost : Bool) (s : State) : Out :=
  let s := s.tick now
  .next (match (s.scanAt t.val).flatJob with
    | some j => s.when (s.pavUp t.val && s.islUp islCarousel) fun s => if lost then s.flatAbandon t.val else s.flatFinish t.val j.slots
    | none => s)

/-- A change of OG_POOL evicts every flattened surface outside the new pool (R266). -/
def State.poolMoved (s : State) : State :=
  let out := s.flatRuns.filter fun x => !(decide (s.poolBase ≤ x.2.off) && decide (x.2.off + x.2.bytes ≤ s.poolBase + s.poolSize)) &&
    x.2.ending != some 2
  (out.foldl (fun s x => s.evict x.1) s).ogSync

end Sys2Proof.Machine
end

