-- ==== Sys2Proof/Machine/Ingest.lean ====
section
/-!
DEFINITION. Camera ingest (R459 to R468): frames, lines and their formats, completion, lanes; genlock at frame starts (R108); the
acknowledgement of writes (R435).
-/

namespace Sys2Proof.Machine

def State.igMod (s : State) (c : Nat) (f : Ingest → Ingest) : State := s.setIgAt c (f (s.igAt c))

/-- The configuration that a frame took at its start (R484). -/
def IgFrame.w (f : IgFrame) : Nat := getField (BitVec.ofNat 32 f.size) IG_SIZE_W
def IgFrame.h (f : IgFrame) : Nat := getField (BitVec.ofNat 32 f.size) IG_SIZE_H
def IgFrame.dt (f : IgFrame) : Nat := getField (BitVec.ofNat 32 f.ctrl) IG_CTRL_DT
def IgFrame.lane (f : IgFrame) : Nat := getField (BitVec.ofNat 32 f.src) IG_SRC_LANE
def IgFrame.lineNs (f : IgFrame) : Nat := getField (BitVec.ofNat 32 f.ns) IG_LINE_NS_LINE_NS
def IgFrame.manual (f : IgFrame) : Bool := getField (BitVec.ofNat 32 f.ctrl) IG_CTRL_MANUAL == 1

/-! ### Events (R468) -/

def State.postIg (s : State) (c buf st lines num fs : Nat) : State :=
  s.post 5 c 0x50 0 ([BitVec.ofNat 8 buf, BitVec.ofNat 8 st] ++ leBytes 2 lines ++ leBytes 2 num ++ zeros 2 ++ leBytes 8 fs)

/-! ### The end of a frame (R465) -/

/-- A frame that ended with fewer lines: never counted, and its buffer free again in MANUAL mode. -/
def State.igShort (s : State) (c : Nat) (f : IgFrame) : State :=
  let s := s.put (IG_STAT c) IG_STAT_SHORT 1
  let s := if f.manual then s.put (IG_REL c) ⟨f.buf, 1⟩ 1 else s
  s.postIg c f.buf 1 f.written f.num f.fs

/-- The frame that the channel receives ends: short, or to be completed when its writes are acknowledged. -/
def State.igEnd (s : State) (c : Nat) : State :=
  match (s.igAt c).cur with
  | some f =>
    if f.ended then s
    else
      let s := s.put (IG_STAT c) IG_STAT_STATE 1
      if f.written < f.h then (s.igMod c fun q => { q with cur := none }).igShort c f
      else s.igMod c fun q => { q with cur := some { f with ended := true } }
  | none => s

def IgFrame.whole (f : IgFrame) : Bool := f.ended && f.open_.isEmpty

/-- Completion: counted, the most recently completed buffer, DMA trigger KIND 3, and the event. -/
def State.igComplete (s : State) (c : Nat) (f : IgFrame) : State :=
  let s := (s.bumpMod (IG_FRAME_CNT c) IG_FRAME_CNT_COUNT 1).put (IG_STAT c) IG_STAT_LAST f.buf
  let s := s.put (IG_STAT c) IG_STAT_LASTVALID 1
  (s.postIg c f.buf (if f.errored then 3 else 0) f.written f.num f.fs).trigger 3 c 0

def State.igDone (s : State) (c : Nat) : State :=
  let q := s.igAt c
  match q.await with
  | f :: rest => if f.whole then (s.setIgAt c { q with await := rest }).igComplete c f else s
  | [] => match q.cur with
    | some f => if f.whole then (s.setIgAt c { q with cur := none }).igComplete c f else s
    | none => s

def State.igUp (s : State) : Bool := s.islUp islGate && s.boot.applied

def execIngestFrameComplete (now : Nat) (c : Fin 24) (s : State) : Out := .next ((s.tick now).when s.igUp fun s => s.igDone c.val)

def execIngestFrameEnd (now : Nat) (c : Fin 24) (s : State) : Out := .next ((s.tick now).when s.igUp fun s => s.igEnd c.val)

/-! ### Genlock (R108) -/

/-- How far a timeline's line 0 runs ahead of its place, in ns, at a frame start of its camera. -/
def State.glError (s : State) (t : Nat) : Int :=
  let tm := s.timing t
  let frame : Int := s.linesNs t tm tm.vtotal
  let e : Int := ((s.dtime - (s.scanAt t).frameAt : Nat) + (s.linesNs t tm (s.get (TL_GENLOCK t) TL_GENLOCK_OFFSET) : Nat) : Int) % frame
  if frame < 2 * e then e - frame else e

/-- The largest step of the trim, in ppm, that a phase error asks for: what one frame needs to take it back, at most 100. -/
def State.glStep (s : State) (t : Nat) (e : Int) : Nat := min 100 (cdiv (e.natAbs * 1000000) (s.linesNs t (s.timing t) (s.vtotal t)))

/-- The trim after one frame: a step against the phase error, slower where line 0 runs ahead, by at most what takes the error back within
a frame; no step without an error.  The spec leaves the size of the step open (assumption 79). -/
def State.glTrim (s : State) (t : Nat) : State :=
  let e := s.glError t
  let m := s.glStep t e
  if m = 0 then s
  else
    let (k, s) := s.drawHalf
    let d : Int := (k % m + 1 : Nat)
    s.scanMod t fun x => { x with trim := clampInt (-2000) 2000 (if 0 < e then x.trim - d else x.trim + d) }

/-- A frame start of the camera that a timeline is locked to. -/
def State.glFrame (s : State) (t : Nat) : State :=
  let e := s.glError t
  let line : Int := s.linesNs t (s.timing t) 1
  let near := decide (-line ≤ e) && decide (e ≤ line)
  let far := decide (e < -8 * line) || decide (8 * line < e)
  let good := if near then (s.scanAt t).goodGl + 1 else 0
  let s := (s.glTrim t).scanMod t fun x => { x with goodGl := good, lastIg := some s.dtime }
  let locked := s.on (TL_GENLOCK t) TL_GENLOCK_LOCKED
  if locked && far then s.glLost t
  else if !locked && decide (4 ≤ good) then (s.put (TL_GENLOCK t) TL_GENLOCK_LOCKED 1).postGl t 1
  else s

def State.glFollows (s : State) (c t : Nat) : Bool :=
  (s.scanAt t).started && s.on (TL_CTRL t) TL_CTRL_GENLOCK && s.get (TL_GENLOCK t) TL_GENLOCK_SRC == c

/-! ### Frame Start (R463) -/

/-- Whether a racing slot reads buffer k of channel c in its frame. -/
def State.racingUses (s : State) (c k : Nat) : Bool :=
  (List.range 96).any fun sl =>
    let l := s.layer true sl
    let f := s.fetchAt sl
    l.en && l.race && l.raceSrc == c && [f.race, f.raceNext].any fun u => match u with
      | some u => u.buf == k || u.split == some k
      | none => false

/-- Whether a surface is what R462 asks of a buffer of channel c. -/
def State.bufferOk (s : State) (c : Nat) (e : SurfEntry) : Bool :=
  let dt := s.get (IG_CTRL c) IG_CTRL_DT
  e.residency == 0 && decide (regionOf e.base = .ddr) && e.pub && e.format == (if dt = 0 then 0x13 else if dt = 1 then 0x11 else 0x02) &&
  e.width == s.get (IG_SIZE c) IG_SIZE_W && e.height == s.get (IG_SIZE c) IG_SIZE_H

/-- Whether buffer k of a channel's ring names a live surface that R462 allows; no other memory is ever written (R129).  DESIGN CHOICE
(assumption 127): one that does not is passed over. -/
def State.bufferFits (s : State) (c k : Nat) : Bool :=
  let b := s.igBuffer c k
  handleLive (s.rdN (IG_BUF c k)) b.2 && s.bufferOk c b.2

/-- The buffer taken, in ring order after the last one. -/
def State.igPick (s : State) (c : Nat) : Option Nat :=
  let n := s.get (IG_CTRL c) IG_CTRL_COUNT + 1
  let from_ := match (s.igAt c).taken with
    | some k => k + 1
    | none => 0
  ((List.range n).map fun i => (from_ + i) % n).find? fun k =>
    !(s.on (IG_STAT c) IG_STAT_LASTVALID && s.get (IG_STAT c) IG_STAT_LAST == k) && !s.racingUses c k &&
    (!s.on (IG_CTRL c) IG_CTRL_MANUAL || bit (s.get (IG_REL c) IG_REL_FREE) k) && s.bufferFits c k

/-- The previous frame ends, or is left to its acknowledgements. -/
def State.igNext (s : State) (c : Nat) : State :=
  let s := s.igEnd c
  s.igMod c fun q => match q.cur with
    | some f => { q with cur := none, await := q.await ++ [f] }
    | none => q

def State.igTake (s : State) (c num : Nat) : State :=
  match s.igPick c with
  | none => ((s.bump (IG_DROP_CNT c) IG_DROP_CNT_COUNT 1).put (IG_STAT c) IG_STAT_DROP 1).postIg c 0xFF 2 0 num s.dtime
  | some k =>
    let b := s.igBuffer c k
    let f : IgFrame :=
      { buf := k, index := b.1, entry := b.2, num := num, fs := s.dtime, ctrl := s.rdN (IG_CTRL c), src := s.rdN (IG_SRC c),
        size := s.rdN (IG_SIZE c), ns := s.rdN (IG_LINE_NS c), lines := 0, open_ := [], written := 0, acked := 0, gap := none, chroma := [],
        errored := false, ended := false }
    let s := if s.on (IG_CTRL c) IG_CTRL_MANUAL then s.put (IG_REL c) ⟨k, 1⟩ 0 else s
    let s := ((s.put (IG_STAT c) IG_STAT_STATE 2).put (IG_STAT c) IG_STAT_BUF k).put (IG_LINE_CNT c) IG_LINE_CNT_A 0
    s.igMod c fun q => { q with cur := some f, taken := some k }

def State.igStart (s : State) (c num : Nat) : State :=
  let s := s.igNext c
  if s.on (IG_CTRL c) IG_CTRL_EN then
    let s := (s.put (IG_FS_TIME c) IG_FS_TIME_TIME s.dtime).igMod c fun q => { q with lastFs := (num, s.dtime) }
    let s := (s.put (IG_STAT c) IG_STAT_STATE 1).igTake c num
    ((List.range 16).filter (s.glFollows c)).foldl State.glFrame s
  else s.put (IG_STAT c) IG_STAT_STATE 0

/-- The frame that a channel is receiving, with the configuration it took. -/
def State.igLive (s : State) (c : Nat) : Option IgFrame := (s.igAt c).cur.filter fun f => !f.ended

/-- The lane whose packets a channel takes: its frame's until the next Frame Start. -/
def State.laneOf (s : State) (c : Nat) : Nat :=
  match s.igLive c with
  | some f => f.lane
  | none => s.get (IG_SRC c) IG_SRC_LANE

def State.laneUp (s : State) (c : Nat) : Bool := s.on (IG_LANE (s.laneOf c)) IG_LANE_UP

def execIngestFrameStart (now : Nat) (c : Fin 24) (num : Nat) (s : State) : Out :=
  .next ((s.tick now).when (s.igUp && s.on (IG_LANE (s.get (IG_SRC c.val) IG_SRC_LANE)) IG_LANE_UP) fun s => s.igStart c.val (num % 65536))

/-! ### Lines (R461, R464, R466) -/

def igType (dt : Nat) : Nat := if dt = 0 then 0x1E else if dt = 1 then 0x1F else 0x24

/-- Received bytes of a line of w pixels. -/
def igBytes (dt w : Nat) : Nat := if dt = 0 then 2 * w else if dt = 1 then 5 * w / 2 else 3 * w

/-- The four 10-bit samples of a pixel pair: four bytes of high bits, then their low bits (CSI-2). -/
def tenBits (b : List Byte) : List Nat := (List.range 4).map fun k => (b.getD k 0).toNat * 4 + (b.getD 4 0).toNat / 4 ^ k % 4

def groupsOf {α : Type} (n : Nat) : Nat → List α → List (List α)
  | 0, _ => []
  | k + 1, l => l.take n :: groupsOf n k (l.drop n)

/-- The stored bytes of a line that fills its row whole: UYVY as received, or XRGB8888. -/
def igRow (dt w : Nat) (b : List Byte) : List Byte :=
  if dt = 0 then b else (groupsOf 3 w b).flatMap fun p => p ++ [0xFF]

/-- Luma and chroma samples of a 10-bit YUV422 line, in the order U Y V Y. -/
def igLuma (w : Nat) (b : List Byte) : List Nat :=
  (groupsOf 5 (w / 2) b).flatMap fun g => let q := tenBits g; [q.getD 1 0, q.getD 3 0]
def igChroma (w : Nat) (b : List Byte) : List Nat :=
  (groupsOf 5 (w / 2) b).flatMap fun g => let q := tenBits g; [q.getD 0 0, q.getD 2 0]

def p010 (v : Nat) : List Byte := leBytes 2 (v * 64)

/-- The deadline of a line of a frame whose last byte arrives now (R232). -/
def State.igDeadline (s : State) (f : IgFrame) : Nat := s.dtime + f.lineNs - s.latNs

/-- Line k of a frame is written with deadline d; the chroma of lines 2r and 2r + 1 with line 2r + 1. -/
def State.igWrite (s : State) (f : IgFrame) (k : Nat) (b : List Byte) (d : Nat) : State × List Nat :=
  if f.dt = 1 then
    let s := (s.busWrite (f.entry.base + k * f.entry.pitch) ((igLuma f.w b).flatMap p010) .deadline d .plain).1
    let ch := igChroma f.w b
    if k % 2 = 0 then (s, ch)
    else if f.chroma.isEmpty then (s, [])
    else
      let c := (List.zipWith (fun x y => (x + y + 1) / 2) f.chroma ch).flatMap p010
      ((s.busWrite (f.entry.aux0 + k / 2 * f.entry.auxPitch) c .deadline d .plain).1, [])
  else ((s.busWrite (f.entry.base + k * f.entry.pitch) (igRow f.dt f.w b) .deadline d .plain).1, [])

def State.igError (s : State) (c : Nat) : State := (s.bump (IG_ERR_CNT c) IG_ERR_CNT_COUNT 1).put (IG_STAT c) IG_STAT_ERR 1

/-- A line start too early for LINE_NS. -/
def State.igPace (s : State) (c : Nat) : State :=
  let ns := match s.igLive c with
    | some f => f.lineNs
    | none => s.get (IG_LINE_NS c) IG_LINE_NS_LINE_NS
  let s := match (s.igAt c).lineAt with
    | some a => if s.dtime < a + ns then s.put (IG_STAT c) IG_STAT_FAST 1 else s
    | none => s
  s.igMod c fun q => { q with lineAt := some s.dtime }

/-- The next source line of the frame. -/
def State.igLine (s : State) (c : Nat) (f : IgFrame) (b : List Byte) (crcOk : Bool) : State :=
  let k := f.lines
  let f := { f with lines := k + 1 }
  if b.length ≠ igBytes f.dt f.w ∨ f.h ≤ k then
    let g := if f.gap.isNone ∧ k < f.h then some k else f.gap
    (s.igMod c fun q => { q with cur := some { f with gap := g, chroma := [] } }).igError c
  else
    let r := s.igWrite f k b (s.igDeadline f)
    let s := r.1.igMod c fun q => { q with
      cur := some { f with open_ := f.open_ ++ [k], written := f.written + 1, chroma := r.2, errored := f.errored || !crcOk } }
    if crcOk then s else s.igError c

def State.igPacket (s : State) (c dt : Nat) (b : List Byte) (crcOk : Bool) : State :=
  match (s.igAt c).cur with
  | some f =>
    if dt ≠ igType f.dt then s.put (IG_STAT c) IG_STAT_IGNORED 1
    else if f.ended then s
    else (s.igPace c).igLine c f b crcOk
  | none => if dt = igType (s.get (IG_CTRL c) IG_CTRL_DT) then s.igPace c else s.put (IG_STAT c) IG_STAT_IGNORED 1

/-- Whether a channel takes packets: one that is enabled, or whose frame began while it was. -/
def State.igOn (s : State) (c : Nat) : Bool := s.igUp && s.laneUp c && (s.on (IG_CTRL c) IG_CTRL_EN || (s.igLive c).isSome)

def execIngestLongPacket (now : Nat) (c : Fin 24) (dt : Nat) (payload : List Byte) (crcOk : Bool) (s : State) : Out :=
  .next ((s.tick now).when (s.igOn c.val) fun s => s.igPacket c.val dt payload crcOk)

def execIngestIgnoredPacket (now : Nat) (c : Fin 24) (s : State) : Out :=
  .next ((s.tick now).when (s.igOn c.val) fun s => s.put (IG_STAT c.val) IG_STAT_IGNORED 1)

/-! ### Acknowledgements (R435, R464) -/

/-- The leading lines of a frame, without a gap, whose writes are acknowledged. -/
def IgFrame.leading (f : IgFrame) : Nat :=
  let n := match f.open_ with
    | k :: _ => k
    | [] => f.lines
  match f.gap with
  | some g => min g n
  | none => n

def IgFrame.ack (f : IgFrame) : IgFrame := { f with open_ := f.open_.drop 1, acked := f.acked + 1 }

/-- The first frame of a list with an unacknowledged line has its oldest acknowledged. -/
def ackFirst : List IgFrame → Option (List IgFrame)
  | [] => none
  | f :: fs => if f.open_.isEmpty then (ackFirst fs).map (f :: ·) else some (f.ack :: fs)

def State.igAck (s : State) (c : Nat) : State :=
  let q := s.igAt c
  match ackFirst q.await with
  | some fs => s.setIgAt c { q with await := fs }
  | none => match q.cur with
    | some f =>
      if f.open_.isEmpty then s
      else (s.setIgAt c { q with cur := some f.ack }).put (IG_LINE_CNT c) IG_LINE_CNT_A f.ack.leading
    | none => s

def execDramWriteAck (now : Nat) (who : Acked) (s : State) : Out :=
  let s := s.tick now
  .next (match who with
    | .entry c id => s.wqAck c.val id
    | .line c => s.when s.igUp fun s => s.igAck c.val
    | .dma c => s.when s.engUp fun s => s.dmaAcked c.val)

/-! ### Lanes (R467) -/

/-- Attempts made n ns after a lane went down: at once, then after 10 ms, 20 ms and on, doubling to 640 ms (R117). -/
def attemptsBy (n : Nat) : Nat :=
  let ms := n / 1000000
  if ms < 630 then Nat.log2 (ms / 10 + 1) + 1 else 7 + (ms - 630) / 640

/-- The attempts since the lane went down that its register does not count yet. -/
def State.laneSync (s : State) (l : Nat) : State :=
  let k := s.laneAt l
  match k.retryAt with
  | some a =>
    let n := attemptsBy (s.dtime - a)
    (s.bump (IG_LANE l) IG_LANE_RETRY (n - k.retries)).setLaneAt l { k with retries := n }
  | none => s

def State.laneChannels (s : State) (l : Nat) : List Nat :=
  (List.range 24).filter fun c => s.laneOf c == l && (s.on (IG_CTRL c) IG_CTRL_EN || (s.igAt c).cur.isSome)

/-- A channel whose lane went down: its frame ends short. -/
def State.igDown (s : State) (c : Nat) : State :=
  let n := match (s.igAt c).cur with
    | some f => if f.ended then 0 else f.written
    | none => 0
  let fs := (s.igAt c).lastFs
  (((s.igEnd c).put (IG_STAT c) IG_STAT_STATE 3).postIg c 0xFF 4 n fs.1 fs.2)

/-- A lane goes down: its channels' frames are short, and it is retrained at once. -/
def State.laneDown (s : State) (l : Nat) : State :=
  let s := (s.put (IG_LANE l) IG_LANE_UP 0).setLaneAt l ⟨0, some s.dtime⟩
  ((s.laneChannels l).foldl State.igDown s).laneSync l

def execIngestLinkDown (now : Nat) (l : Fin 48) (s : State) : Out :=
  .next ((s.tick now).when (s.igUp && s.on (IG_LANE l.val) IG_LANE_UP) fun s => s.laneDown l.val)

/-- A lane links: its channels await a Frame Start. -/
def State.laneLink (s : State) (l gear : Nat) : State :=
  let s := match (s.laneAt l).retryAt with
    | some _ => s.laneSync l
    | none => s.bump (IG_LANE l) IG_LANE_RETRY 1
  let s := ((s.put (IG_LANE l) IG_LANE_UP 1).put (IG_LANE l) IG_LANE_GEAR gear).setLaneAt l Lane.reset
  (s.laneChannels l).foldl (fun s c => if s.get (IG_STAT c) IG_STAT_STATE = 3 then s.put (IG_STAT c) IG_STAT_STATE 1 else s) s

def execIngestLinkUp (now : Nat) (l : Fin 48) (gear : Nat) (s : State) : Out :=
  .next ((s.tick now).when (s.igUp && s.islUp l.val && !s.on (IG_LANE l.val) IG_LANE_UP && decide (1 ≤ gear) && decide (gear ≤ s.get (IG_LANE l.val) IG_LANE_MAXGEAR))
    fun s => s.laneLink l.val gear)

end Sys2Proof.Machine
end

