-- ==== Sys2Proof/Machine/Faultpin.lean ====
section
/-!
DEFINITION. The supervisor's heartbeat (R481), and the clearing of FAULT_N causes (R340).
-/

namespace Sys2Proof.Machine

/-! ### The heartbeat (R481) -/

/-- An edge of SV_HB: counted, and the end of a loss. -/
def State.hbEdge (s : State) : State :=
  let lost := s.on SV_HB_STAT SV_HB_STAT_LOST
  let s := (s.bumpMod SV_HB_STAT SV_HB_STAT_HBCNT 1).put SV_HB_STAT SV_HB_STAT_LOST 0
  { s with sv := { s.sv with hbFrom := s.dtime, hbEnd := if lost then s.dtime else s.sv.hbEnd } }

/-- The level of SV_HB changes; with SV_HB_CFG.EN the edge is counted. -/
def execSvHbEdge (now : Nat) (s : State) : Out :=
  let s := s.tick now
  .next (({ s with sv := { s.sv with hb := !s.sv.hb } }).when (s.on SV_HB_CFG SV_HB_CFG_EN && s.boot.applied) State.hbEdge)

def State.hbOver (s : State) : Bool :=
  s.on SV_HB_CFG SV_HB_CFG_EN && s.on SV_HB_STAT SV_HB_STAT_ARMED && !s.on SV_HB_STAT SV_HB_STAT_LOST &&
  decide (s.sv.hbFrom + s.get SV_HB_CFG SV_HB_CFG_TIMEOUT_MS * 1000000 ≤ s.dtime)

def execHeartbeatLoss (now : Nat) (s : State) : Out :=
  .next ((s.tick now).when (s.tick now).hbOver fun s => (s.put SV_HB_STAT SV_HB_STAT_LOST 1).raiseFault WT_FAULT_HB none)

/-! ### The DBG pins (R524) -/

/-- A 64 ns pulse that began at a DTIME. -/
def pulseHigh (s : State) (at_ : Nat) : Bool := decide (at_ ≤ s.dtime ∧ s.dtime < at_ + 64)

/-- The level of what a SIGNAL code of DB_SEL names. -/
def State.dbgSignal (s : State) (sig : Nat) : Bool :=
  if sig = 0x0000 then false
  else if sig = 0x0001 then true
  else if inRange 0x0010 0x0020 sig then
    let x := s.scanAt (sig - 0x0010)
    x.started && pulseHigh s x.frameAt
  else if inRange 0x0020 0x0030 sig then
    match (s.scanAt (sig - 0x0020)).latchAt with
    | some t => pulseHigh s t
    | none => false
  else if sig = 0x0030 then !s.faultLow
  else if sig = 0x0031 then s.sv.hb
  else Config.observed sig s.dtime

/-- The level of pin DBG[k]: low while DB_CTRL.EN is 0. -/
def State.dbgPin (s : State) (k : Nat) : Bool := s.on DB_CTRL DB_CTRL_EN && s.dbgSignal (s.get (DB_SEL k) DB_SEL_SIGNAL)

/-! ### WT_FAULT and WT_FTL (R340) -/

/-- What a cleared cause leaves: nothing waits for its release any more. -/
def State.dropCleared (s : State) : State :=
  let live (x : Nat × Nat × Bool) : Bool := faultCauses.any fun f => f.lo == x.1 && s.on WT_FAULT f
  { s with degr := { s.degr with raised := s.degr.raised.filter live } }

/-- A write of 1s to WT_FAULT, where a cause whose condition is present stays, or to WT_FTL. -/
def State.faultWrite (s : State) (a : Nat) (w : Word) : State :=
  let s := if a = WT_FAULT then s.faultClear w.toNat else match rowAt a with
    | some r => s.wr a (landWord (s.rd a) w r)
    | none => s
  s.dropCleared.syncFault

def execWtFaultClear (now : Nat) (src : Src) (which : Fin 2) (value : Nat) (s : State) : Out :=
  let a := if which.val = 0 then WT_FAULT else WT_FTL
  .next ((s.tick now).guarded src a value fun s w => s.faultWrite a w).1

end Sys2Proof.Machine
end

