-- ==== Sys2Proof/Machine/Locket.lean ====
section
/-!
DEFINITION. The Locket image as it lies in flash (R65 to R78): header, section table and records, with the checks of rows 2 to 14
of R91.
-/

namespace Sys2Proof.Machine

/-! ### Slots (R30, R65) -/

/-- The device of slot k: 0 F0A, 1 F0B, 2 F1A, 3 F1B. -/
def slotDev (k : Nat) : Nat := k / 2

def slotWordAt (k : Nat) : Nat := if k % 2 = 0 then 0x1FFF000 else 0x3EFF000

/-- n bytes at offset o of slot k. -/
def State.slotBytes (s : State) (k o n : Nat) : List Byte := s.rdFlashN (slotDev k) ((slotArea k).1 + o) n

def State.locketHdr (s : State) (k : Nat) : List Byte := s.slotBytes k 0 4096
def State.locketTab (s : State) (k : Nat) : List Byte := s.slotBytes k 0x1000 512

/-- The first byte of [a, a + n) that is not zero. -/
def nonZero (bs : List Byte) (a n : Nat) : Option Nat := ((List.range n).map (a + ·)).find? fun i => bs.getD i 0 != 0

def allZero (bs : List Byte) (a n : Nat) : Bool := (nonZero bs a n).isNone

/-! ### Header (R70, rows 2 to 4) -/

def magicOf (v : Nat) : List Byte := if v = 2 then [0x4C, 0x4B, 0x54, 0x32] else [0x4C, 0x4B, 0x54, 0x33]

/-- The format version that the magic of a header names (R33, R94); none where it is not acceptable. -/
def hdrVersion (compat : Bool) (h : List Byte) : Option Nat :=
  if h.take 4 = magicOf 3 then some 3 else if compat ∧ h.take 4 = magicOf 2 then some 2 else none

def hdrFail (compat : Bool) (h : List Byte) : Option LoadFail :=
  let no (check o : Nat) : Option LoadFail := some ⟨3, check, 16, o⟩
  match hdrVersion compat h with
  | none => no 0x02 0
  | some v =>
    if fieldAt h 4 2 ≠ v then no 0x03 4
    else if fieldAt h 6 2 ≠ 4096 then no 0x04 6
    else if !(fieldAt h 8 2 == 0x9680 || (v == 2 && fieldAt h 8 2 == 0x7420)) then no 0x04 8
    else if !allZero h 0x14 4 then no 0x04 0x14
    else if !allZero h 0x40 192 then no 0x04 0x40
    else if !allZero h 0x340 3008 then no 0x04 0x340
    else none

/-! ### Section table (R71, rows 5 to 8) -/

/-- A used entry of the section table. -/
structure SecEnt where
  index : Nat
  type  : Nat
  off   : Nat
  len   : Nat
  crc   : Nat
  recs  : Nat
  deriving DecidableEq, Repr

def secAt (t : List Byte) (k : Nat) : SecEnt :=
  ⟨k, fieldAt t (32 * k) 2, fieldAt t (32 * k + 4) 4, fieldAt t (32 * k + 8) 4, fieldAt t (32 * k + 12) 4, fieldAt t (32 * k + 16) 4⟩

def secCount (h : List Byte) : Nat := fieldAt h 10 2

def secEnts (h t : List Byte) : List SecEnt := (List.range (min (secCount h) 16)).map (secAt t)

/-- The largest LENGTH of a section (R72); ASSET takes the rest of the slot. -/
def secMax (type : Nat) : Nat :=
  ([0, 0x400000, 0x2000000, 0xC00000, 0x100000, 0x100000, 0x100000, 0x100000, 0x400000, 0x1000, 0x2000000] : List Nat).getD type 0

/-- Row 5 for entry k. -/
def entFail (v : Nat) (h t : List Byte) (k : Nat) : Option LoadFail :=
  let no (place o : Nat) : Option LoadFail := some ⟨6, 0x10, place, o⟩
  let e := secAt t k
  if secCount h ≤ k then
    if !allZero t (32 * k) 32 then no 17 (0x1000 + 32 * k)
    else if !allZero h (0x100 + 32 * k) 32 then no 16 (0x100 + 32 * k)
    else none
  else if e.type = 0 ∨ 10 < e.type ∨ (v = 2 ∧ (e.type = 8 ∨ e.type = 9)) ∨ (List.range k).any (fun j => (secAt t j).type == e.type) then
    no 17 (0x1000 + 32 * k)
  else if fieldAt t (32 * k + 2) 2 ≠ 1 then no 17 (0x1000 + 32 * k + 2)
  else if !allZero t (32 * k + 20) 12 then no 17 (0x1000 + 32 * k + 20)
  else none

/-- Row 6 but for the gaps: alignment, order and overlap (R68); `prev` is the type and the end of the section before. -/
def orderFail : List SecEnt → Nat × Nat → Option LoadFail
  | [], _ => none
  | e :: es, prev =>
    if e.off % 256 ≠ 0 ∨ e.type ≤ prev.1 ∨ e.off < prev.2 then some ⟨6, 0x11, 17, 0x1000 + 32 * e.index + 4⟩
    else orderFail es (e.type, e.off + e.len)

def tabFail (v limit : Nat) (h t : List Byte) : Option LoadFail :=
  let es := secEnts h t
  let last := match es.getLast? with
    | some e => e.off + e.len
    | none => 0
  if secCount h = 0 ∨ 16 < secCount h then some ⟨6, 0x10, 16, 10⟩
  else match (List.range 16).findSome? (entFail v h t) with
    | some f => some f
    | none =>
      if !es.any (fun e => e.type == 1) then some ⟨6, 0x10, 17, 0x1000⟩
      else match orderFail es (0, 0x1200) with
        | some f => some f
        | none =>
          match es.find? (fun e => decide (limit < e.off + e.len)) with
          | some e => some ⟨6, 0x12, 17, 0x1000 + 32 * e.index + 8⟩
          | none =>
            if fieldAt h 12 4 ≠ last then some ⟨6, 0x12, 16, 12⟩
            else match es.find? (fun e => decide (e.len < 8) || e.len % 8 != 0 || decide (secMax e.type < e.len)) with
              | some e => some ⟨6, 0x13, 17, 0x1000 + 32 * e.index + 8⟩
              | none => none

/-! ### Reading the slot being loaded -/

def State.entsOf (s : State) (k : Nat) : List SecEnt := secEnts (s.locketHdr k) (s.locketTab k)

/-- The sections read in a start, in order: all but ASSET. -/
def State.readSecs (s : State) (k : Nat) : List SecEnt := (s.entsOf k).filter fun e => e.type != 10

def State.secBytes (s : State) (k : Nat) (e : SecEnt) : List Byte := s.slotBytes k e.off e.len

def State.hasSec (s : State) (k type : Nat) : Bool := (s.entsOf k).any fun e => e.type == type

/-- The gap before the n-th section: its first offset and its bytes (R68). -/
def gapOf (es : List SecEnt) (n : Nat) : Nat × Nat :=
  let from_ := if n = 0 then 0x1200 else match es[n - 1]? with
    | some e => e.off + e.len
    | none => 0
  match es[n]? with
  | some e => (from_, e.off - from_)
  | none => (0, 0)

/-- Row 6 for the gap before the n-th section. -/
def State.gapFail (s : State) (k n : Nat) : Option LoadFail :=
  let es := s.entsOf k
  let g := gapOf es n
  match nonZero (s.slotBytes k g.1 g.2) 0 g.2, es[n]? with
  | some i, some e => some ⟨6, 0x11, e.index, g.1 + i⟩
  | _, _ => none

/-- The gaps that the reading of the n-th section brings, as the sections that follow them: with the last section that a start reads, the hub
reads on through the gap before ASSET.  DEDUCED (assumption 36). -/
def State.gapsOf (s : State) (k n : Nat) : List Nat := if (s.readSecs k).length = n + 1 then [n, n + 1] else [n]

/-- Whether a gap is still to be read when n sections have been read. -/
def State.gapsFrom (s : State) (k n : Nat) : Bool :=
  let es := s.entsOf k
  decide (n < (s.readSecs k).length) && (List.range es.length).any fun i => decide (n ≤ i) && decide (0 < (gapOf es i).2)

/-- Row 13 for ASSET, whose content has no records (R71). -/
def State.assetFail (s : State) (k : Nat) : Option LoadFail :=
  match (s.entsOf k).find? fun e => e.type == 10 && e.recs != 0 with
  | some e => some ⟨6, 0x40, e.index, 0x1000 + 32 * e.index + 16⟩
  | none => none

/-! ### Signature (R73, rows 9 and 10) -/

/-- The signed coverage. -/
def signedPart (h t : List Byte) : List Byte := h.take 0xF00 ++ t

def signerKey (h : List Byte) : List Byte := bytesAt h 0x300 64

/-- A 64-byte key that is a point of the curve. -/
def keyOnCurve (key : List Byte) : Bool := ecOnCurve (beNat (bytesAt key 0 32)) (beNat (bytesAt key 32 32))

def State.sigFail (s : State) (k : Nat) : Option LoadFail :=
  let h := s.locketHdr k
  if s.otp.ikh ≠ some (sha256 (signerKey h)) ∨ !keyOnCurve (signerKey h) then some ⟨4, 0x20, 16, 0x300⟩
  else if !ecdsaVerifyMsg (signerKey h) (bytesAt h 0xF00 64) (signedPart h (s.locketTab k)) then some ⟨4, 0x21, 16, 0xF00⟩
  else none

/-! ### Sections and records (R74 to R78, rows 11 to 14) -/

/-- Rows 11 and 12. -/
def State.secFail (s : State) (k : Nat) (e : SecEnt) : Option LoadFail :=
  let b := s.secBytes k e
  if crc32c b ≠ e.crc then some ⟨5, 0x30, e.index, 0x1000 + 32 * e.index + 12⟩
  else if sha256 b ≠ bytesAt (s.locketHdr k) (0x100 + 32 * e.index) 32 then some ⟨4, 0x31, e.index, 0x100 + 32 * e.index⟩
  else none

/-- A record: its type, whether it is SKIPPABLE, its body and its slot offset. -/
structure Rec where
  type : Nat
  skip : Bool
  body : List Byte
  at_  : Nat
  deriving DecidableEq, Repr

/-- The records of a section before END (R77), or the offset at which the framing breaks; `n` bounds their number. -/
def records (at_ : Nat) (b : List Byte) : Nat → Nat ⊕ List Rec
  | 0 => .inl at_
  | n + 1 =>
    let type := fieldAt b 0 2
    let flags := fieldAt b 2 2
    let len := fieldAt b 4 4
    if b.length < 8 then .inl at_
    else if type = 0xFFFF then
      if flags ≠ 0 ∨ len ≠ 8 then .inl at_
      else match nonZero b 8 (b.length - 8) with
        | some i => .inl (at_ + i)
        | none => .inr []
    else if 1 < flags ∨ len < 8 ∨ len % 8 ≠ 0 ∨ b.length < len then .inl at_
    else match records (at_ + len) (b.drop len) n with
      | .inl a => .inl a
      | .inr rs => .inr (⟨type, flags == 1, bytesAt b 8 (len - 8), at_⟩ :: rs)

/-- The largest known record number of each section (R79 to R88). -/
def knownRecs (type : Nat) : Nat := ([0, 9, 3, 3, 2, 2, 1, 1, 1, 1] : List Nat).getD type 0

def Rec.known (stype : Nat) (r : Rec) : Bool := r.type / 256 == stype && decide (1 ≤ r.type % 256) && decide (r.type % 256 ≤ knownRecs stype)

/-- Row 14: an unknown record is skipped only in its section's own range and with SKIPPABLE (R78, R94). -/
def Rec.refused (v stype : Nat) (r : Rec) : Bool :=
  (v == 2 && (r.type == 0x0104 || r.type == 0x0107 || r.type == 0x0109)) ||
  (!r.known stype && !(r.type / 256 == stype && decide (1 ≤ r.type % 256) && decide (r.type % 256 ≤ 0xFE) && r.skip))

/-- A section's records, or where row 13 fails: its framing, its END or its RECORDS count. -/
def framing (e : SecEnt) (b : List Byte) : LoadFail ⊕ List Rec :=
  match records e.off b (b.length / 8 + 1) with
  | .inl a => .inl ⟨6, 0x40, e.index, a⟩
  | .inr rs => if rs.length ≠ e.recs then .inl ⟨6, 0x40, e.index, 0x1000 + 32 * e.index + 16⟩ else .inr rs

end Sys2Proof.Machine
end

