-- ==== Sys2Proof/Machine/LocketLoad.lean ====
section
/-!
DEFINITION. The records of a Locket image (R79 to R88, R315, R317, R325, R326, R332): what each sets, and the checks that one
record alone must pass (rows 15 to 18 and 22 of R91).  A check that fails is noted with its CHECK code and the slot offset of its record.
-/

namespace Sys2Proof.Machine

/-- A section being used: the state so far, and the checks that failed. -/
structure Ld where
  s   : State
  bad : List (Nat × Nat)

def Ld.no (l : Ld) (check at_ : Nat) : Ld := { l with bad := (check, at_) :: l.bad }
def Ld.need (l : Ld) (ok : Bool) (check at_ : Nat) : Ld := if ok then l else l.no check at_
def Ld.map (l : Ld) (f : State → State) : Ld := { l with s := f l.s }
def Ld.setLocket (l : Ld) (f : Locket → Locket) : Ld := { l with s := { l.s with locket := f l.s.locket } }

def chkFraming : Nat := 0x40
def chkUnknown : Nat := 0x41
def chkTarget : Nat := 0x42
def chkValue : Nat := 0x43
def chkOccur : Nat := 0x44
def chkCross : Nat := 0x45
def chkPlan : Nat := 0x46
def chkSums : Nat := 0x47
def chkAdmit : Nat := 0x48
def chkCapacity : Nat := 0x49

/-- A record whose body holds n bytes, the rest of its LENGTH zero (R77). -/
def Ld.body (l : Ld) (r : Rec) (n : Nat) (f : Ld → Ld) : Ld :=
  if r.body.length < n ∨ !allZero r.body n (r.body.length - n) then l.no chkFraming r.at_ else f l

/-- A record whose chapter gives its LENGTH: a body of exactly n bytes. -/
def Ld.exact (l : Ld) (r : Rec) (n : Nat) (f : Ld → Ld) : Ld := if r.body.length ≠ n then l.no chkFraming r.at_ else f l

/-- The (offset, value) pairs of a body. -/
def pairsOf (b : List Byte) (from_ n : Nat) : List (Nat × Nat) :=
  (List.range n).map fun i => (fieldAt b (from_ + 8 * i) 4, fieldAt b (from_ + 8 * i + 4) 4)

/-! ### Register pairs (R80, R83, R87) -/

/-- A field that a pair may set: of STRUCT only class A, class E and installer fields. -/
def FieldRow.settable (free : Bool) (f : FieldRow) : Bool := f.acc != .ro && (free || f.cls == .a || f.cls == .e || f.inst)

/-- Every other bit of a pair's value is zero or at its reset value (R80). -/
def pairFits (free : Bool) (r : RegRow) (v : Nat) : Bool :=
  r.fields.all (fun f => f.settable free || (let x := v / 2 ^ f.lo % 2 ^ f.w; x == 0 || x == f.rst)) &&
  (r.fields.map fun f => v / 2 ^ f.lo % 2 ^ f.w * 2 ^ f.lo).foldl (· + ·) 0 == v

/-- A register's word with the fields a pair sets. -/
def pairWord (free : Bool) (old : Word) (v : Nat) (r : RegRow) : Word :=
  r.fields.foldl (fun w f =>
    if f.settable free && (f.acc == .rw || f.acc == .rwp || f.acc == .wo) then putField w f.fld (v / 2 ^ f.lo) else w) old

/-- A pair is written: into both banks of a banked register, and into the re-seat shadow of a timeline's. -/
def State.loadPair (s : State) (free : Bool) (a v : Nat) : State :=
  match rowAt a with
  | none => s
  | some r =>
    let w := pairWord free (s.rd a) v r
    let s := (s.markOnce a r).wr a w
    if r.banking == .banked then s.wr (activeOf a) w else if shadowed a then s.wr (shadowOf a) w else s

/-- The limits that fields of single registers have in their chapters: first instance, field, least and greatest value. -/
def fieldLimits : List (Nat × Fld × Nat × Nat) :=
  [(SY_PARK_CTRL, SY_PARK_CTRL_DRAIN_MS, 1, 65535), (TL_CTRL 0, TL_CTRL_DEPTH, 0, 2), (TL_AS 0, TL_AS_TAIL, 4, 64),
   (TL_GENLOCK 0, TL_GENLOCK_SRC, 0, 23), (TL_BL 0, TL_BL_PWM_HZ, 100, 50000), (FN_CTRL 0, FN_CTRL_DITHER, 0, 2),
   (HP_SF_QUOTA 0, HP_SF_QUOTA_MAX, 0, 65536), (HP_CFG 0, HP_CFG_MAXSPEED, 1, 5)] ++
  [(AD_CFG, AD_CFG_LAT_NS, 200, 10000), (AD_CFG, AD_CFG_URGENT_NS, 500, 20000), (AD_CFG2, AD_CFG2_MAINT_PM, 0, 200),
   (OG_CTRL, OG_CTRL_FLAT_AGE, 1, 15), (OG_POOL, OG_POOL_SIZE, 0, 1024), (WT_SINK_CTRL 0, WT_SINK_CTRL_MODE, 0, 2),
   (WT_SINK_CTRL 0, WT_SINK_CTRL_PERIOD, 1, 255), (SV_HB_CFG, SV_HB_CFG_TIMEOUT_MS, 1, 1000)] ++
  [(GH_SES_CFG, GH_SES_CFG_IDLE_S, 10, 3600), (DR_TEMP_CFG, DR_TEMP_CFG_T2X, 60, 95), (DR_RETRAIN, DR_RETRAIN_PERIOD_MS, 10, 65535),
   (DR_FAIL, DR_FAIL_THRESH, 1, 255), (IG_SRC 0, IG_SRC_LANE, 0, 47), (IG_LANE 0, IG_LANE_MAXGEAR, 1, 5),
   (BL_ROWT 0, BL_ROWT_ROW_NS, 100, 1000000), (BL_ROWT 6, BL_ROWT_ROW_NS, 100, 1000000), (HP_BAR2_SIZE 0, HP_BAR2_SIZE_LOG2, 0, 39), (HP_HW_SIZE 0, HP_HW_SIZE_LOG2, 0, 39)]

def inLimits (r : RegRow) (v : Nat) : Bool :=
  fieldLimits.all fun x => r.base != x.1 || (let n := v / 2 ^ x.2.1.lo % 2 ^ x.2.1.w; decide (x.2.2.1 ≤ n) && decide (n ≤ x.2.2.2))

/-- A pair of STRUCT, or of FIRST for the timelines that `free` allows. -/
def Ld.pair (l : Ld) (free : Option (Nat → Bool)) (at_ : Nat) (p : Nat × Nat) : Ld :=
  match rowAt p.1 with
  | none => l.no chkTarget at_
  | some r =>
    let allowed := match free with
      | none => r.struct
      | some f => f p.1
    let twice := r.fields.any fun f => f.cls == .e && l.s.gate.once.contains (p.1, f.lo)
    if !allowed ∨ isActiveView p.1 ∨ p.1 % 4 ≠ 0 ∨ r.banking = .shadow ∨ twice ∨ !pairFits free.isSome r p.2 then l.no chkTarget at_
    else (l.need (inLimits r p.2) chkValue at_).map fun s => s.loadPair free.isSome p.1 p.2

/-- The registers of a first-light timeline and of the slots assigned to it that FIRST_REGSET may name (R83). -/
def State.firstTarget (s : State) (a : Nat) : Bool :=
  if inRange 0x100000 0x110000 a then s.isFirst ((a - 0x100000) / 0x1000)
  else if inRange 0x400000 0x410000 a then s.isFirst ((a - 0x400000) / 0x1000)
  else if inRange 0x210000 0x400000 a then s.isFirst (s.slotTl ((a - 0x210000) / 0x400))
  else false

/-! ### STRUCT (R79, R81) -/

/-- How many instances a GRANT CLASS has, none where no class has the code. -/
def classSize (c : Nat) : Option Nat :=
  ([(0, 1), (1, 16), (2, 32), (3, 32), (4, 8), (5, 24), (9, 256), (10, 256), (12, 96), (13, 256)] : List (Nat × Nat)).lookup c

def Ld.dram (l : Ld) (r : Rec) : Ld :=
  l.body r 16 fun l =>
    let b := r.body
    let d : DramConf := ⟨fieldAt b 0 2, fieldAt b 2 1, fieldAt b 3 1, fieldAt b 4 1, fieldAt b 5 1, 0⟩
    let ok := d.rate % 400 == 0 && decide (4800 ≤ d.rate) && decide (d.rate ≤ 8000) && (d.ranks == 1 || d.ranks == 2) &&
      (d.width == 8 || d.width == 16) && ([16, 24, 32, 48, 64] : List Nat).contains d.density &&
      ([0x03, 0x0F, 0xFF] : List Nat).contains d.mask && allZero b 6 10
    (((l.need ok chkValue r.at_).need l.s.locket.dram.isNone chkOccur r.at_).setLocket fun k =>
      { k with dram := if ok then some { d with crc := crc32c (b.take 16) } else k.dram })

def Ld.role (l : Ld) (v : Nat) (r : Rec) : Ld :=
  l.body r 8 fun l =>
    let b := r.body
    let t := fieldAt b 0 1
    let fl := fieldAt b 1 1
    let x : Role := ⟨t, bit fl 0, bit fl 1, fieldAt b 4 4⟩
    let ok := decide (t < if v = 2 then 8 else 16) && decide (fl < if v = 2 then 2 else 4) && allZero b 2 2
    let l := (l.need ok chkValue r.at_).need (!l.s.locket.roles.any fun y => y.tl == t) chkOccur r.at_
    let l := l.need (!((x.first || x.cont) && x.hold == noHandle)) chkCross r.at_
    l.setLocket fun k => { k with roles := k.roles ++ [x] }

def Ld.standby (l : Ld) (r : Rec) : Ld :=
  l.body r 8 fun l =>
    let b := r.body
    let p := fieldAt b 0 1
    let q := fieldAt b 1 1
    let l := l.need (decide (p < 8) && decide (q < 8) && allZero b 2 6) chkValue r.at_
    let l := l.need (!l.s.locket.standby.any fun x => x.1 == p) chkOccur r.at_
    l.setLocket fun k => { k with standby := k.standby ++ [(p, q)] }

/-- WRITE on a timeline, slot, DMA channel, blit channel or commit ring goes to one port (R81). -/
def oneWriter (gs : List Grant) (g : Grant) : Bool :=
  !(g.write && ([1, 2, 3, 4, 12] : List Nat).contains g.cls) ||
  gs.all fun h => !(h.write && h.cls == g.cls && h.port != g.port && overlaps h.first h.count g.first g.count)

def Ld.grant (l : Ld) (r : Rec) : Ld :=
  l.body r 8 fun l =>
    let b := r.body
    let w := fieldAt b 6 2
    let g : Grant := ⟨fieldAt b 0 1, fieldAt b 1 1, fieldAt b 2 2, fieldAt b 4 2, bit w 0, bit w 1, bit w 2⟩
    let fits := match classSize g.cls with
      | some n => decide (g.first + g.count ≤ n)
      | none => false
    let l := l.need (decide (g.port ≤ 4) && fits && decide (w < 8)) chkValue r.at_
    let l := l.need (oneWriter l.s.locket.grants g) chkCross r.at_
    l.setLocket fun k => { k with grants := k.grants ++ [g] }

/-- A Locket entry as the table holds it. -/
def locketEntry (b : List Byte) : SurfEntry := SurfEntry.ofBytes b

/-- SURFACE and FIRST_SURFACE (R79, R83, R150).  Their address checks need DRAM_CONFIG and the window sizes, so they are made when all
of STRUCT stands. -/
def Ld.surface (l : Ld) (first : Bool) (r : Rec) : Ld :=
  l.body r 72 fun l =>
    let h := fieldAt r.body 0 4
    let b := bytesAt r.body 8 64
    let e := locketEntry b
    let og (a : Nat) : Bool := decide (regionOf a = .orangery)
    let onChip := !first || (og e.base && (!fmtFacet e.format || (og e.aux0 && og e.aux1)))
    let taken := (l.s.locket.surfaces ++ l.s.locket.firsts).any fun x => handleIndex x.1 == handleIndex h
    let l := l.need (allZero r.body 4 4 && locketEntryOk l.s.space h b && onChip && !taken) chkValue r.at_
    l.setLocket fun k => if first then { k with firsts := k.firsts ++ [(h, e)] } else { k with surfaces := k.surfaces ++ [(h, e)] }

def Ld.retention (l : Ld) (seen : Bool) (r : Rec) : Ld :=
  let n := fieldAt r.body 0 4
  l.body r (8 + 16 * n) fun l =>
    let rs := (List.range n).map fun i => (fieldAt r.body (8 + 16 * i) 8, fieldAt r.body (16 + 16 * i) 8)
    let l := l.need (decide (n ≤ 16) && allZero r.body 4 4 && rs.all fun x => x.1 % 4096 == 0 && x.2 % 4096 == 0) chkValue r.at_
    (l.need (!seen) chkOccur r.at_).setLocket fun k => { k with retention := rs }

def Ld.assetBase (l : Ld) (r : Rec) : Ld :=
  l.body r 8 fun l =>
    let a := fieldAt r.body 0 8
    let l := l.need (a % 4096 == 0 && decide (regionOf a = .ddr)) chkValue r.at_
    (l.need l.s.locket.assetBase.isNone chkOccur r.at_).setLocket fun k => { k with assetBase := some a }

def Ld.parkSignal (l : Ld) (r : Rec) : Ld :=
  l.body r 8 fun l =>
    let n := fieldAt r.body 0 2
    let l := l.need (decide (n < 512) && allZero r.body 2 2) chkValue r.at_
    (l.need l.s.locket.parkSig.isNone chkOccur r.at_).setLocket fun k => { k with parkSig := some (n, signed 32 (fieldAt r.body 4 4)) }

/-- One record of STRUCT, but for the surfaces; `rs` are the records before it. -/
def Ld.struct (v : Nat) (l : Ld) (r : Rec) (before : List Rec) : Ld :=
  let dup := before.any fun x => x.type == r.type
  if r.type = 0x0101 then (pairsOf r.body 0 (r.body.length / 8)).foldl (fun l p => l.pair none r.at_ p) l
  else if r.type = 0x0102 then l.dram r
  else if r.type = 0x0103 then l.role v r
  else if r.type = 0x0104 then l.standby r
  else if r.type = 0x0105 then l.grant r
  else if r.type = 0x0107 then l.retention dup r
  else if r.type = 0x0108 then l.assetBase r
  else if r.type = 0x0109 then l.parkSignal r
  else l

/-! ### Store data (R83, R84) -/

/-- ORANGERY_DATA or BEZEL_STORE_DATA: its range and its bytes. -/
def dataOf (r : Rec) : Nat × List Byte := (fieldAt r.body 0 4, r.body.drop 8)

def Ld.data (l : Ld) (base size : Nat) (r : Rec) (before : List Rec) : Ld :=
  let d := dataOf r
  let clash := (before.filter fun x => x.type == r.type).any fun x => overlaps (dataOf x).1 (dataOf x).2.length d.1 d.2.length
  if r.body.length < 8 then l.no chkFraming r.at_
  else
    let fits := decide (d.1 + d.2.length ≤ size)
    let l := (l.need (d.1 % 256 == 0 && allZero r.body 4 4) chkValue r.at_).need (!clash) chkCross r.at_
    (l.need fits chkCapacity r.at_).map fun s => if fits then s.wrBytes (base + d.1) d.2 else s

def Ld.first (l : Ld) (r : Rec) (before : List Rec) : Ld :=
  if r.type = 0x0201 then
    (l.data orangeryBase orangerySize r before).setLocket fun k => { k with pinned := k.pinned ++ [((dataOf r).1, (dataOf r).2.length)] }
  else if r.type = 0x0202 then l.surface true r
  else (pairsOf r.body 0 (r.body.length / 8)).foldl (fun l p => l.pair (some l.s.firstTarget) r.at_ p) l

/-! ### BEZEL (R315, R317) -/

/-- The image that the body of a BEZEL_IMAGE record gives (R315). -/
def imageOf (b : List Byte) : BzImage :=
  ⟨fieldAt b 2 1, fieldAt b 3 1, fieldAt b 4 2, fieldAt b 6 2, fieldAt b 8 2, fieldAt b 12 4, fieldAt b 16 4⟩

def Ld.image (l : Ld) (r : Rec) : Ld :=
  l.exact r 24 fun l =>
    let b := r.body
    let n := fieldAt b 0 2
    let im := imageOf b
    let bpp := if im.format = 0x0A then 1 else 4
    let ok := decide (n < 1024) && decide (im.space ≤ 1) && (im.format == 0x01 || im.format == 0x0A) && decide (1 ≤ im.width) &&
      decide (im.width ≤ 2048) && decide (1 ≤ im.height) && decide (im.height ≤ 2048) && decide (1 ≤ im.frames) && decide (im.frames ≤ 4096) &&
      im.pitch % 64 == 0 && decide (im.width * bpp ≤ im.pitch) && im.offset % 256 == 0 && allZero b 10 2 && allZero b 20 4
    let l := (l.need ok chkValue r.at_).need (tget (fun _ => none) l.s.locket.images n).isNone chkOccur r.at_
    l.setLocket fun k => { k with images := tset (fun _ => none) k.images n (some im) }

/-- A record that gives the words of consecutive registers of an instance of a timeline (R317, R332). -/
def Ld.words (l : Ld) (count top : Nat) (addr : Nat → Nat → Nat) (r : Rec) (before : List Rec) : Ld :=
  l.exact r (8 + 4 * count) fun l =>
    let t := fieldAt r.body 0 1
    let i := fieldAt r.body 1 1
    let ws := (List.range count).map fun k => (addr t i + 4 * k, fieldAt r.body (8 + 4 * k) 4)
    let fits (p : Nat × Nat) : Bool := match rowAt p.1 with
      | some x => pairFits true x p.2
      | none => false
    let l := l.need (decide (t < 16) && decide (i < top) && allZero r.body 2 6 && ws.all fits) chkValue r.at_
    let l := l.need (!before.any fun x => x.type == r.type && x.body.take 2 == r.body.take 2) chkOccur r.at_
    l.map fun s => ws.foldl (fun s p => s.loadPair true p.1 p.2) s

def Ld.bezel (l : Ld) (r : Rec) (before : List Rec) : Ld :=
  if r.type = 0x0301 then l.data bezelBase bezelSize r before
  else if r.type = 0x0302 then l.image r
  else l.words 8 256 BZ_I_CTRL r before

/-! ### SIGMAP (R325, R326, R472) -/

/-- Whether the group's acceptance filter is enabled, belongs to its controller and matches its identifier. -/
def State.filterFits (s : State) (g : SigGroup) : Bool :=
  let id := s.rdN (CN_FLT_ID g.filter)
  let ext := bit g.canId 31
  s.on (CN_FLT_ID g.filter) CN_FLT_ID_EN && s.get (CN_FLT_ID g.filter) CN_FLT_ID_CTRL == g.source && bit id CN_FLT_ID_IDE.lo == ext &&
    ((s.get (CN_FLT_ID g.filter) CN_FLT_ID_ID ^^^ g.canId) &&& s.get (CN_FLT_MASK g.filter) CN_FLT_MASK_MASK) % 2 ^ (if ext then 29 else 11) == 0

def Ld.group (l : Ld) (r : Rec) : Ld :=
  l.exact r 24 fun l =>
    let b := r.body
    let n := fieldAt b 0 1
    let fl := fieldAt b 3 1
    let g : SigGroup := ⟨fieldAt b 1 1, fieldAt b 2 1, bit fl 0, bit fl 1, fieldAt b 4 4, fieldAt b 8 1, fieldAt b 9 1, fieldAt b 10 2, fieldAt b 12 2,
      fieldAt b 14 2, fieldAt b 16 1⟩
    let can := decide (g.source < 2)
    let ok := decide (n < 128) && decide (g.source ≤ 2) && decide (fl < 4) && decide (1 ≤ g.dlcMin) && decide (g.dlcMin ≤ 64) &&
      decide (1 ≤ g.timeout) && decide (1 ≤ g.tol) && decide (g.tol ≤ 14) && allZero b 17 7 &&
      (if can then
        decide (g.filter < 128) && decide (g.canId % 2 ^ 31 < 2 ^ (if bit g.canId 31 then 29 else 11))
       else fl == 0 && g.filter == 0 && g.canId == 0)
    let same := l.s.locket.groups.any fun x => match x.2 with
      | some h => h.source == g.source && h.canId == g.canId
      | none => false
    let l := (l.need ok chkValue r.at_).need (tget (fun _ => none) l.s.locket.groups n).isNone chkOccur r.at_
    let l := l.need (!can || (!same && l.s.filterFits g)) chkCross r.at_
    l.setLocket fun k => { k with groups := tset (fun _ => none) k.groups n (some g) }

/-- The payload bits of a field (R326). -/
def sigBits (d : SigDef) : List Nat :=
  if d.motorola then (List.range d.len).map fun i =>
    let p := d.start / 8 * 8 + (7 - d.start % 8) + i
    p / 8 * 8 + (7 - p % 8)
  else (List.range d.len).map (d.start + ·)

/-- A signal's field within the first DLC_MIN bytes of its CAN group, clear of CRC_BYTE and the alive counter (R326). -/
def sigFits (g : SigGroup) (d : SigDef) : Bool :=
  decide (2 ≤ g.source) ||
  (sigBits d).all fun b => decide (b < 8 * g.dlcMin) && !(g.crc && b / 8 == g.crcByte) && !(g.alive && decide (g.aliveBit ≤ b) && decide (b < g.aliveBit + 4))

/-- The signal that the body of a SIG_DEF record gives (R326). -/
def sigDefOf (b : List Byte) : SigDef :=
  let fl := fieldAt b 3 1
  let s32 (o : Nat) : Int := signed 32 (fieldAt b o 4)
  ⟨fieldAt b 2 1, bit fl 0, bit fl 1, fieldAt b 4 2, fieldAt b 6 1, fieldAt b 7 1, s32 8, s32 12, s32 16, s32 20⟩

def Ld.signal (l : Ld) (r : Rec) : Ld :=
  l.exact r 24 fun l =>
    let b := r.body
    let n := fieldAt b 0 2
    let fl := fieldAt b 3 1
    let d := sigDefOf b
    let ok := decide (n < 512) && decide (d.group < 128) && decide (fl < 4) && decide (1 ≤ d.len) && decide (d.len ≤ 32) && decide (d.shift ≤ 31)
    let l := (l.need ok chkValue r.at_).need (tget (fun _ => none) l.s.locket.signals n).isNone chkOccur r.at_
    l.setLocket fun k => { k with signals := tset (fun _ => none) k.signals n (some d) }

def Ld.sigmap (l : Ld) (r : Rec) : Ld := if r.type = 0x0401 then l.group r else l.signal r

/-! ### WATCH (R332) -/

/-- The entries of all tables. -/
def Locket.tableSize (k : Locket) : Nat := (k.tables.map fun x => x.2.length).foldl (· + ·) 0

def rising : List Nat → Bool
  | a :: b :: l => decide (a < b) && rising (b :: l)
  | _ => true

def Ld.table (l : Ld) (r : Rec) : Ld :=
  let n := fieldAt r.body 4 4
  l.body r (8 + 8 * n) fun l =>
    let k := fieldAt r.body 0 2
    let es := pairsOf r.body 8 n
    let l := l.need (decide (k < 1024) && allZero r.body 2 2 && decide (1 ≤ n) && decide (n ≤ 4096) && rising (es.map (·.1))) chkValue r.at_
    let l := l.need (tget (fun _ => []) l.s.locket.tables k).isEmpty chkOccur r.at_
    let l := l.setLocket fun x => { x with tables := tset (fun _ => []) x.tables k es }
    l.need (decide (l.s.locket.tableSize ≤ 65536)) chkCapacity r.at_

def Ld.watch (l : Ld) (r : Rec) (before : List Rec) : Ld := if r.type = 0x0501 then l.words 4 32 WT_CTRL r before else l.table r

/-! ### COEF and LUT (R85, R86) -/

/-- COEF_BANK.  DESIGN CHOICE (assumption 133): a bank loaded twice is refused under row 17, which has the occurrence rules. -/
def Ld.coef (l : Ld) (r : Rec) (before : List Rec) : Ld :=
  l.exact r 1800 fun l =>
    let b := r.body
    let c (o : Nat) : Int := signed 16 (fieldAt b o 2)
    let bank : CoefBank :=
      { h := (List.range 64).map fun p => (List.range 8).map fun i => c (8 + 16 * p + 2 * i)
        v := (List.range 64).map fun p => (List.range 6).map fun i => c (1032 + 12 * p + 2 * i) }
    let p := fieldAt b 0 1
    let k := fieldAt b 1 1
    let inR (x : Int) : Bool := decide (-2048 ≤ x) && decide (x ≤ 2047)
    let l := l.need (decide (p < 8) && decide (k < 8) && allZero b 2 6 && (bank.h ++ bank.v).flatten.all inR) chkValue r.at_
    let l := l.need (!before.any fun x => x.body.take 2 == b.take 2) chkOccur r.at_
    let l := l.need ((bank.h ++ bank.v).all fun row => row.sum == 1024) chkSums r.at_
    l.setLocket fun x => { x with coefs := tset (fun _ => CoefBank.default) x.coefs (8 * p + k) bank }

/-- OUT_LUT; FN_CTRL.LUT_EN shows that the image holds it (R215).  DESIGN CHOICE (assumption 134): a second record of a timeline is refused under
row 17. -/
def Ld.lut (l : Ld) (r : Rec) : Ld :=
  if r.body.length ≠ 6160 ∨ !allZero r.body 6158 2 then l.no chkFraming r.at_
  else
    let b := r.body
    let t := fieldAt b 0 1
    let chan (c : Nat) : List Nat := (List.range 1025).map fun i => fieldAt b (8 + 2 * (1025 * c + i)) 2
    let l := l.need (decide (t < 16) && allZero b 1 7) chkValue r.at_
    let l := l.need (tget (fun _ => none) l.s.locket.luts t).isNone chkOccur r.at_
    let l := l.need ((chan 0 ++ chan 1 ++ chan 2).all fun v => decide (v ≤ 4095)) chkSums r.at_
    (l.setLocket fun x => { x with luts := tset (fun _ => none) x.luts t (some (chan 0, chan 1, chan 2)) }).map fun s =>
      s.put (FN_CTRL t) FN_CTRL_LUT_EN 1

/-! ### PRESET and KEYS (R87, R88) -/

/-- What a preset of timeline t may name (R87). -/
def State.presetTarget (s : State) (t a : Nat) : Bool :=
  if inRange 0x440000 0x480000 a then (a - 0x440000) / 0x4000 == t && decide (0x2000 ≤ a % 0x4000)
  else if inRange 0x480000 0x484000 a then (a - 0x480000) / 0x400 == t && decide (a % 0x20 < 0x10)
  else if inRange 0x210000 0x400000 a then
    s.slotTl ((a - 0x210000) / 0x400) == t &&
    match rowAt a with
    | some r => r.banking == .banked && r.fields.any fun f => f.acc != .ro
    | none => false
  else false

def presetPair (p : Nat × Nat) : Nat × Nat :=
  match rowAt p.1 with
  | some r => (p.1, (pairWord true 0 p.2 r).toNat)
  | none => p

def Ld.preset (l : Ld) (r : Rec) : Ld :=
  let n := fieldAt r.body 4 4
  l.body r (8 + 8 * n) fun l =>
    let t := fieldAt r.body 0 1
    let i := fieldAt r.body 1 1
    let ps := pairsOf r.body 8 n
    let l := l.need (decide (t < 16) && decide (i < 16) && allZero r.body 2 2) chkValue r.at_
    let l := l.need (!l.s.locket.presets.any fun x => x.tl == t && x.index == i) chkOccur r.at_
    let l := l.need (ps.all fun p => p.1 % 4 == 0 && (rowAt p.1).isSome && !isActiveView p.1 && l.s.presetTarget t p.1) chkTarget r.at_
    l.setLocket fun k => { k with presets := k.presets ++ [⟨t, i, ps.map presetPair⟩] }

def Ld.key (l : Ld) (r : Rec) : Ld :=
  l.exact r 72 fun l =>
    let b := r.body
    let k : PubKey := ⟨fieldAt b 0 1, fieldAt b 4 4, bytesAt b 8 64⟩
    let l := l.need ((k.use == 1 || k.use == 2) && allZero b 1 3 && decide (k.rights < 128) && (k.use == 1 || k.rights == 0) && keyOnCurve k.key)
      chkValue r.at_
    let l := l.need (decide (l.s.locket.keys.length < 8)) chkOccur r.at_
    l.setLocket fun x => { x with keys := x.keys ++ [k] }

/-- One known record of a section of a type. -/
def Ld.record (v type : Nat) (l : Ld) (r : Rec) (before : List Rec) : Ld :=
  match type with
  | 1 => l.struct v r before
  | 2 => l.first r before
  | 3 => l.bezel r before
  | 4 => l.sigmap r
  | 5 => l.watch r before
  | 6 => l.coef r before
  | 7 => l.lut r
  | 8 => l.preset r
  | _ => l.key r

/-- The records of a section in order; `done` are those before, newest first. -/
def Ld.all (v type : Nat) (l : Ld) : List Rec → List Rec → Ld
  | [], _ => l
  | r :: rs, done => (l.record v type r done).all v type rs (r :: done)

end Sys2Proof.Machine
end

