-- ==== Sys2Proof/Machine/LocketCheck.lean ====
section
/-!
DEFINITION. The content checks of a Locket section that relate its records to one another and to earlier sections (R81, R82, R41, and
the load checks of the subject chapters).  A rule that one record does not show is reported at the section's first byte
(assumption 20).
-/

namespace Sys2Proof.Machine

/-- Note every check that fails. -/
def Ld.checks (l : Ld) (at_ : Nat) : List (Nat × Bool) → Ld
  | [] => l
  | c :: cs => (l.need c.2 c.1 at_).checks at_ cs

/-! ### DRAM, windows and ranges (R81, R131, R423, R429) -/

/-- R423 for DR_HASH[i]. -/
def hashOk (reg h i : Nat) : Bool :=
  if h ≤ i then reg == 0
  else
    let m := hashMask reg h i
    (List.range h).all fun j => bit m (12 + j) == (i == j)

/-- The mirrored windows neither overlap nor reach CAP (R429). -/
def windowsOk (cap : Nat) : List (Nat × Nat) → Bool
  | [] => true
  | w :: ws => (w.2 == 0 || (decide (w.1 + w.2 ≤ cap) && !ws.any fun x => overlaps w.1 w.2 x.1 x.2)) && windowsOk cap ws

/-- A BAR2 or window size: 0, or lo to 39 with a base that is a multiple of it. -/
def sizeOk (lo l base : Nat) : Bool := l == 0 || (decide (lo ≤ l) && decide (l ≤ 39) && base % 2 ^ l == 0)

/-- The BAR2 range that the registers of a port set. -/
def State.bar2Set (s : State) (p : Nat) : Nat × Nat :=
  let l := s.get (HP_BAR2_SIZE p) HP_BAR2_SIZE_LOG2
  (s.get (HP_BAR2_BASE_LO p) HP_BAR2_BASE_LO_BASE * 2 ^ 20 + s.get (HP_BAR2_BASE_HI p) HP_BAR2_BASE_HI_BASE * 2 ^ 32, if l = 0 then 0 else 2 ^ l)

/-- The bytes of ASSET's copy as the section table and ASSET_BASE give them. -/
def State.assetSpan (s : State) (k : Nat) : Nat × Nat :=
  (s.locket.assetBase.getD 0, match (s.entsOf k).find? fun e => e.type == 10 with
    | some e => e.len
    | none => 0)

/-- The BAR2 ranges of R131. -/
def State.bar2Ok (s : State) (k : Nat) : Bool :=
  let rs := allPorts.map s.bar2Set
  let a := s.assetSpan k
  (List.range 4).all fun p =>
    let r := rs.getD p (0, 0)
    r.2 == 0 || (decide (hubReserved ≤ r.1) && decide (r.1 + r.2 ≤ s.dramCap) && !overlaps r.1 r.2 a.1 a.2 &&
      (List.range p).all fun q => let x := rs.getD q (0, 0); x.2 == 0 || !overlaps r.1 r.2 x.1 x.2)

/-- R423, R429, R57, R81 and R131 over STRUCT. -/
def State.memChecks (s : State) (k : Nat) : List (Nat × Bool) :=
  match s.locket.dram with
  | none => [(chkOccur, false)]
  | some c =>
    let a := s.assetSpan k
    [(chkValue, (List.range 9).all fun i => hashOk (s.rdN (DR_HASH i)) c.h i), (chkValue, decide (4 * s.mirTot ≤ c.phys)),
     (chkCross, windowsOk s.dramCap s.windows),
     (chkOccur, s.hasSec k 10 == s.locket.assetBase.isSome),
     (chkCross, s.locket.retention.all fun r => decide (r.1 + r.2 ≤ s.dramCap)),
     (chkCross, a.2 == 0 || (decide (hubReserved ≤ a.1) && decide (a.1 + a.2 ≤ s.dramCap))),
     (chkValue, allPorts.all fun p => sizeOk 20 (s.get (HP_BAR2_SIZE p) HP_BAR2_SIZE_LOG2) (s.bar2Set p).1),
     (chkValue, allPorts.all fun p => sizeOk 12 (s.get (HP_HW_SIZE p) HP_HW_SIZE_LOG2) 0),
     (chkCross, s.bar2Ok k)]

/-! ### Standby Pavilions (R81) -/

/-- Whether an address is a PV register of Pavilion q or an LY register of its slots. -/
def ofPav (q a : Nat) : Bool :=
  inRange (0x200000 + q * 0x1000) (0x201000 + q * 0x1000) a || inRange (0x210000 + 12 * q * 0x400) (0x210000 + 12 * (q + 1) * 0x400) a

/-- A standby Pavilion is the standby of one only, has none itself, and is not used. -/
def State.standbyOk (s : State) : Bool :=
  let l := s.locket.standby
  (l.map (·.2)).Nodup &&
  l.all fun x =>
    !l.any (fun y => y.1 == x.2) && !s.locket.grants.any (fun g => g.cls == 12 && overlaps g.first g.count (12 * x.2) 12) &&
    !s.regs.any (fun r => ofPav x.2 r.1) &&
    !s.locket.presets.any (fun p => p.pairs.any fun q => ofPav x.2 q.1 && BitVec.ofNat 32 q.2 != resetWord q.1)

/-! ### Timelines and links (R98, R111, R112, R114) -/

/-- The lanes a link drives in its quad, with PROTO 1 or 2 (DPX) or an A-PHY protocol. -/
def linkLanes (g : Nat → Word) (l : Nat) : List Nat :=
  let proto := getField (g (OL_LINK l)) OL_LINK_PROTO
  let n := if proto = 1 ∨ proto = 2 then lanesOf (getField (g (OL_LINK l)) OL_LINK_LANES) else if proto = 0 then 0 else 1
  (List.range n).map (l + ·)

/-- The rate codes of R126 that a protocol has. -/
def rateOk (proto code : Nat) : Bool :=
  if proto = 1 then ([0, 3, 6, 7, 8, 9, 10] : List Nat).contains code else if proto = 2 then decide (code ≤ 7) else decide (1 ≤ code) && decide (code ≤ 5)

/-- R111 and the codes of R126 for link l: the quad's MODE is 1 for DPX, 2 for APHY. -/
def linkOk (g : Nat → Word) (l : Nat) : Bool :=
  let proto := getField (g (OL_LINK l)) OL_LINK_PROTO
  let mode := getField (g (OL_QUAD (l / 4))) OL_QUAD_MODE
  let code := getField (g (OL_LINK l)) OL_LINK_LANES
  if proto = 0 then true
  else if 4 < proto ∨ !rateOk proto (getField (g (OL_LINK l)) OL_LINK_MAXRATE) then false
  else if proto = 1 ∨ proto = 2 then mode == 1 && decide (code ≤ 2) && l % 4 % lanesOf code == 0
  else mode == 2

/-- R111: links of a quad share no lane. -/
def linksDisjoint (g : Nat → Word) : Bool :=
  (List.range 12).all fun q => ((List.range 4).flatMap fun i => linkLanes g (4 * q + i)).Nodup

/-- R110 and R112 for an enabled timeline. -/
def routeOk (g : Nat → Word) (t : Nat) : Bool :=
  let m := getField (g (TL_OUT t)) TL_OUT_MODE
  let f (l : Nat) (x : Fld) : Nat := getField (g (OL_LINK l)) x
  let l0 := getField (g (TL_OUT t)) TL_OUT_LINK0
  let l1 := getField (g (TL_OUT t)) TL_OUT_LINK1
  let alone (l : Nat) : Bool := usersBy g l == [t]
  let video (l : Nat) : Bool := decide (l < 48) && f l OL_LINK_PROTO != 0
  let stream (u : Nat) : Nat := getField (g (TL_OUT u)) TL_OUT_STREAM
  let adaptive := (timingBy g t).adaptive
  (!adaptive || m == 0 || decide (f l0 OL_LINK_PROTO < 3)) &&
  (if m = 0 then true
   else if m = 1 then video l0 && alone l0
   else if m = 2 then
     video l0 && f l0 OL_LINK_PROTO == 1 &&
     (usersBy g l0).all fun u => getField (g (TL_OUT u)) TL_OUT_MODE == 2 && (u == t || stream u != stream t)
   else
     video l0 && video l1 && l0 != l1 && alone l0 && alone l1 &&
     f l0 OL_LINK_PROTO == f l1 OL_LINK_PROTO && f l0 OL_LINK_LANES == f l1 OL_LINK_LANES && f l0 OL_LINK_MAXRATE == f l1 OL_LINK_MAXRATE)

def State.timelineChecks (s : State) : List (Nat × Bool) :=
  let on := s.enabledTls
  [(chkValue, on.all (limitsBy s.rd)), (chkValue, clocksBy s.rd), (chkValue, payloadsBy s.rd),
   (chkValue, (List.range 48).all (linkOk s.rd)), (chkValue, linksDisjoint s.rd), (chkValue, on.all (routeOk s.rd))]

/-! ### Carousel, ingest, CAN, hub timers (R401, R402, R460 to R462, R466, R471, R360) -/

/-- R401 for policer i. -/
def policerOk (g : Nat → Word) (i : Nat) : Bool :=
  let c := g (CA_P_CTRL i)
  let cir := getField (g (CA_P_CIR i)) CA_P_CIR_CIR
  let pir := getField (g (CA_P_PIR i)) CA_P_PIR_PIR
  let cbs := getField (g (CA_P_CBS i)) CA_P_CBS_CBS
  let pbs := getField (g (CA_P_PBS i)) CA_P_PBS_PBS
  getField c CA_P_CTRL_EN == 0 ||
    (decide (cir ≤ pir) && decide (1 ≤ pir) && decide (cbs ≤ pbs) &&
     decide ((if i % 2 = 0 then 512 else 4096) + getField c CA_P_CTRL_OVERHEAD ≤ pbs))

def pcmapOk (w : Word) : Bool := (List.range 8).all fun n => getField w ⟨2 * n, 2⟩ != 3

/-- The mirror rule of R401 for the write policer of port p. -/
def State.mirrorOk (s : State) (p : Nat) : Bool :=
  let c := s.rd (CA_P_CTRL (2 * p))
  let r := s.bar2Set p
  !(getField c CA_P_CTRL_EN == 1 && getField c CA_P_CTRL_GUAR == 1 && getField c CA_P_CTRL_MIRROR == 0) ||
    !s.windows.any fun w => w.2 != 0 && r.2 != 0 && overlaps r.1 r.2 w.1 w.2

/-- R402 for the fixed queues. -/
def queuesOk (g : Nat → Word) : Bool :=
  let c := g (CA_Q_CTRL 8)
  getField c CA_Q_CTRL_GUAR == 1 && getField c CA_Q_CTRL_MIRROR == 1 && decide (1 ≤ (g (CA_Q_CONTRACT 8)).toNat) &&
  decide (16384 ≤ getField (g (CA_Q_LIM 8)) CA_Q_LIM_BURST) &&
  ([9, 10, 11, 12, 13] : List Nat).all fun q => getField (g (CA_Q_CTRL q)) CA_Q_CTRL_GUAR == 0

/-- A channel granted to a port names an assignable queue granted to that port (R402). -/
def State.channelQueueOk (s : State) (cls c queue : Nat) : Bool :=
  match s.ownerOf cls c with
  | some p => decide (3 < p) || (decide (14 ≤ queue) && s.grantedW p 13 queue)
  | none => true

def ingestOn (g : Nat → Word) (c : Nat) : Bool := getField (g (IG_CTRL c)) IG_CTRL_EN == 1

/-- R461: data type, size and line bytes. -/
def ingestFieldsOk (g : Nat → Word) (c : Nat) : Bool :=
  let dt := getField (g (IG_CTRL c)) IG_CTRL_DT
  let w := getField (g (IG_SIZE c)) IG_SIZE_W
  let h := getField (g (IG_SIZE c)) IG_SIZE_H
  decide (dt ≤ 2) && w % 2 == 0 && h % 2 == 0 && decide (2 ≤ w) && decide (w ≤ 16384) && decide (2 ≤ h) && decide (h ≤ 16384) &&
  getField (g (IG_LBYTES c)) IG_LBYTES_LINE_BYTES == (dt + 2) * w && decide (0 < getField (g (IG_LINE_NS c)) IG_LINE_NS_LINE_NS)

/-- R462 for the buffers of channel c. -/
def State.buffersOk (s : State) (c : Nat) : Bool :=
  (List.range (s.get (IG_CTRL c) IG_CTRL_COUNT + 1)).all fun k =>
    match s.locket.surfaces.find? fun x => x.1 == s.rdN (IG_BUF c k) with
    | some x => s.bufferOk c x.2
    | none => false

/-- The sum of ING, undoubled (R466). -/
def ingestSum (g : Nat → Word) : Nat :=
  ((List.range 24).map fun c =>
    let ns := getField (g (IG_LINE_NS c)) IG_LINE_NS_LINE_NS
    if ingestOn g c ∧ 0 < ns then cdiv (getField (g (IG_LBYTES c)) IG_LBYTES_LINE_BYTES * 1000000) ns else 0).foldl (· + ·) 0

def ingestSource (g : Nat → Word) (c : Nat) : Nat × Nat := (getField (g (IG_SRC c)) IG_SRC_LANE, getField (g (IG_SRC c)) IG_SRC_VC)

/-- R471 for controller n. -/
def canTimingOk (g : Nat → Word) (n : Nat) : Bool :=
  let f (a : Nat) (x : Fld) : Nat := getField (g a) x
  f (CN_CTRL n) CN_CTRL_EN == 0 ||
    (f (CN_NBT n) CN_NBT_TSEG1 != 0 && decide (f (CN_NBT n) CN_NBT_SJW ≤ f (CN_NBT n) CN_NBT_TSEG2) &&
     decide (f (CN_DBT n) CN_DBT_SJW ≤ f (CN_DBT n) CN_DBT_TSEG2))

/-- R360 for timer n, enabled or not. -/
def timerOk (g : Nat → Word) (n : Nat) : Bool :=
  decide (1000 ≤ (g (HT_PERIOD n)).toNat) && decide ((g (HT_OFFSET n)).toNat < (g (HT_PERIOD n)).toNat)

def State.unitChecks (s : State) : List (Nat × Bool) :=
  let ig := (List.range 24).filter (ingestOn s.rd)
  [(chkValue, (List.range 8).all fun i => policerOk s.rd i && pcmapOk (s.rd (CA_P_PCMAP i))), (chkCross, allPorts.all s.mirrorOk),
   (chkValue, queuesOk s.rd),
   (chkCross, (List.range 32).all fun c => s.channelQueueOk 3 c (s.get (DM_CFG c) DM_CFG_QUEUE) && s.channelQueueOk 4 c (s.get (BL_CFG c) BL_CFG_QUEUE)),
   (chkValue, ig.all (ingestFieldsOk s.rd)), (chkCross, ig.all s.buffersOk),
   (chkCross, (ig.map (ingestSource s.rd)).Nodup),
   (chkValue, decide (ingestSum s.rd ≤ 48000000)), (chkValue, canTimingOk s.rd 0 && canTimingOk s.rd 1),
   (chkValue, (List.range 16).all (timerOk s.rd))]

/-! ### Which sections an image carries (R72) -/

def State.presenceChecks (s : State) (k : Nat) : List (Nat × Bool) :=
  let roles := s.locket.roles
  [(chkOccur, s.hasSec k 2 || !roles.any fun r => r.first || r.hold != noHandle)]

/-! ### Load-time admission (R82, R238) -/

/-- Decide each timeline's mode in increasing index; none when a timeline has no admissible state. -/
def State.loadModes (s : State) : List Nat → Option State
  | [] => some s
  | t :: ts =>
    if (s.timing t).live then
      match s.decideMode s.rd t [] [[]] true with
      | .inl r => ((s.storeCase r none).setMode s.rd t r.mode).loadModes ts
      | .inr _ => none
    else s.loadModes ts

def State.loadAdmit (s : State) : Option State :=
  let a := s.caseTotals s.rd []
  if a.shortfall.isSome then none else (s.showTotals a).loadModes (List.range 16)

/-! ### What a section's end sets -/

/-- The in-force view of the registers that timelines latch (R79, R217), of those that have not begun to scan: after STRUCT, FIRST, BEZEL, WATCH
and LUT. -/
def State.allLanded (s : State) : State := ((List.range 16).filter fun t => !(s.scanAt t).started).foldl State.useLanded s

def State.holdsSet (s : State) : State :=
  s.locket.roles.foldl (fun s r => if r.hold = noHandle then s else s.wrN (FN_HOLD r.tl) r.hold) s

/-- The configuration that DRAM_CONFIG shows (R455 of the register map: DR_CFG, DR_CAP). -/
def State.dramShown (s : State) : State :=
  match s.locket.dram with
  | none => s
  | some c =>
    let s := ((s.put DR_CFG DR_CFG_RATE c.rate).put DR_CFG DR_CFG_RANKS (c.ranks - 1)).put DR_CFG DR_CFG_WIDTH (b2n (c.width == 16))
    let code := ([16, 24, 32, 48, 64] : List Nat).idxOf c.density
    ((s.put DR_CFG DR_CFG_DENSITY code).put DR_CFG DR_CFG_SUBCH_MASK c.mask).put DR_CAP DR_CAP_MIB (s.dramCap / 2 ^ 20)

/-- The ingest channels enabled in STRUCT show state 1 (R463). -/
def State.ingestShown (s : State) : State :=
  (List.range 24).foldl (fun s c => if ingestOn s.rd c then s.put (IG_STAT c) IG_STAT_STATE 1 else s) s

/-- Admission with the Locket's entries, which enter the table only at hub readiness. -/
def State.admitLoad (s : State) : Option State :=
  let t := (s.locket.surfaces ++ s.locket.firsts).foldl (fun s x => s.setSurfAt (handleIndex x.1) x.2) s
  t.loadAdmit.map fun r => { r with surf := s.surf }

/-- After STRUCT's records: the surfaces, its checks, then load-time admission, then what its registers start. -/
def Ld.endStruct (l : Ld) (k at_ : Nat) (surfaces : List Rec) : Ld :=
  let l := surfaces.foldl (fun l r => l.surface false r) (l.map fun s => s.holdsSet.allLanded)
  let s := l.s
  let l := l.checks at_ (s.memChecks k ++ [(chkCross, s.standbyOk)] ++ s.unitChecks ++ s.timelineChecks ++ s.presenceChecks k)
  match s.admitLoad with
  | some s => { l with s := (allPorts.foldl (fun s p => (s.bar2Latch p).cfgDefaults p) s.dramShown.ingestShown.carouselStart) }
  | none => l.no chkAdmit at_

/-! ### FIRST (R41, R83, R212) -/

/-- The entry that a FIRST_SURFACE record gives a handle. -/
def State.firstEntry (s : State) (h : Nat) : Option SurfEntry := (s.locket.firsts.find? fun x => x.1 == h).map (·.2)

/-- R212 for the surface that FN_HOLD of a timeline names; one that a role names and no record defines is R81's to report. -/
def State.holdOk (s : State) (t : Nat) : Bool :=
  let h := s.rdN (FN_HOLD t)
  h == noHandle ||
  match ((s.locket.firsts ++ s.locket.surfaces).find? fun x => x.1 == h).map (·.2) with
  | some e =>
    decide (regionOf e.base = .orangery) && e.width == s.hactive t && e.height == s.vactive t &&
    ([0x01, 0x02, 0x04, 0x20, 0x21, 0x2F] : List Nat).contains e.format
  | none => s.locket.roles.any fun r => r.tl == t && r.hold == h

/-- A slot of a first-light timeline with the entry its handle names and its row budgets. -/
def State.firstSlot (s : State) (sl : Nat) : SlotImg :=
  let ws := s.bankWords (s.slotName sl) true
  let e := (s.firstEntry (ws.getD 1 0)).getD SurfEntry.unused
  let l := LayerCfg.ofWords sl ws e []
  let taps := match l.lineStore with
    | some y => y.1
    | none => l.vtaps
  ⟨sl, stepWords ws taps, e, (s.readBudgets (LayerCfg.ofWords sl (stepWords ws taps) e []) none).getD []⟩

/-- The slots of a first-light timeline whose layer FIRST enables.  DESIGN CHOICE (assumption 135): R41 is checked of these alone; the handle of a
disabled slot is not. -/
def State.firstLayers (s : State) (t : Nat) : List SlotImg := ((s.slotsOf t).map s.firstSlot).filter fun x => x.layer.en

/-- Handles, line store, rates (R41, CHECK 0x46) and formats of a FIRST plan. -/
def State.planChecks (s : State) (t : Nat) : List (Nat × Bool) :=
  let xs := s.firstLayers t
  let ls := xs.map SlotImg.layer
  [(chkPlan, xs.all fun x => (s.firstEntry (x.words.getD 1 0)).isSome && decide (regionOf x.entry.base = .orangery)),
   (chkPlan, ls.all fun l => l.lineStore.isSome && l.bandsOk && (s.rateCheck t l).isNone),
   (chkValue, ls.all fun l => l.formatOk && s.raceOk l && l.alignOk && (s.readBudgets l none).isSome)]

/-- The plan's slots stand in both banks (R83). -/
def State.planSet (s : State) (t : Nat) : State :=
  let img (active : Bool) : BankImage := { s.readBank t active with slots := (s.slotsOf t).map s.firstSlot }
  (s.writeBank t true (img true)).writeBank t false (img true)

/-- R161 and R254. -/
def State.capacityChecks (s : State) : List (Nat × Bool) :=
  let quota := (allPorts.map fun p => s.get (HP_SF_QUOTA p) HP_SF_QUOTA_MAX).foldl (· + ·) 0
  let base := s.get OG_POOL OG_POOL_BASE * 65536
  let size := s.get OG_POOL OG_POOL_SIZE * 65536
  [(chkValue, decide (quota + s.locket.surfaces.length + s.locket.firsts.length ≤ 65536)),
   (chkCapacity, decide (base + size ≤ orangerySize) && !s.locket.pinned.any fun r => overlaps r.1 r.2 base size)]

/-- The checks that stand when STRUCT and FIRST, if present, are both used. -/
def Ld.endFirst (l : Ld) (at_ : Nat) : Ld :=
  let l := l.map State.allLanded
  let s := l.s
  let holds := s.locket.roles.filter fun r => r.hold != noHandle
  let l := l.checks at_ ([(chkCross, holds.all fun r => (s.firstEntry r.hold).isSome), (chkValue, (List.range 16).all s.holdOk), (chkCross, s.standbyOk)] ++ s.timelineChecks ++
    (s.firstLights.flatMap s.planChecks) ++ s.capacityChecks)
  l.map fun s => s.firstLights.foldl State.planSet s

/-! ### BEZEL, WATCH and presets (R313, R315 to R323, R332 to R335) -/

/-- The registers with a preset's pairs applied, the last of a register in force. -/
def withPreset (g : Nat → Word) (p : Option Preset) (a : Nat) : Word :=
  match p with
  | none => g a
  | some p => match p.pairs.reverse.find? fun x => x.1 == a with
    | some x => BitVec.ofNat 32 x.2
    | none => g a

/-- Whether [a, a + n) lies wholly in the union of some ranges; `k` bounds the number of pieces. -/
def coveredBy (rs : List (Nat × Nat)) (a n : Nat) : Nat → Bool
  | 0 => n == 0
  | k + 1 =>
    if n = 0 then true
    else match rs.find? fun r => decide (r.1 ≤ a) && decide (a < r.1 + r.2) with
      | some r => let d := r.1 + r.2 - a; decide (n ≤ d) || coveredBy rs (a + d) (n - d) k
      | none => false

/-- The bytes of a BEZEL_IMAGE record lie in loaded ranges (R315). -/
def State.imageLoaded (s : State) (store : List (Nat × Nat)) (im : BzImage) : Bool :=
  let rs := if im.space = 0 then store else s.locket.pinned
  coveredBy rs im.offset (im.pitch * im.height * im.frames) (rs.length + 1)

/-- The image of an instance under a reading of the registers. -/
def imageBy (k : Locket) (g : Nat → Word) (t i : Nat) : Option BzImage :=
  tget (fun _ => none) k.images (getField (g (BZ_I_IMG t i)) BZ_I_IMG_IMAGE)

def bzOnBy (g : Nat → Word) (t i : Nat) : Bool := getField (g (BZ_I_CTRL t i)) BZ_I_CTRL_EN == 1

/-- The values of an enabled instance (R318, R320 to R323). -/
def instanceOk (k : Locket) (g : Nat → Word) (t i : Nat) : Bool :=
  let c := g (BZ_I_CTRL t i)
  let kind := getField c BZ_I_CTRL_KIND
  let hz := getField c BZ_I_CTRL_BLINK_HZ
  let p0 := g (BZ_I_P0 t i)
  let n := getField p0 BZ_I_P0_NDIG
  let frames := match imageBy k g t i with
    | some im => im.frames
    | none => 0
  let at13 (x : Nat) : Bool := let v := signed 16 x; decide (-8192 ≤ v) && decide (v ≤ 8191)
  at13 (getField (g (BZ_I_POS t i)) BZ_I_POS_X) && at13 (getField (g (BZ_I_POS t i)) BZ_I_POS_Y) &&
  (if kind = 1 then decide (1 ≤ hz) && decide (hz ≤ 4)
   else if kind = 2 then getField c BZ_I_CTRL_STALE_MODE == 0 || (imageBy k g t i).isNone || decide (getField p0 BZ_I_P0_STALE_FRAME < frames)
   else if kind = 3 then decide (1 ≤ n) && decide (n ≤ 6) && ((imageBy k g t i).isNone || frames == 12)
   else false)

/-- The lines an instance covers: first line and line count, clipped to the active area; none when no column is active. -/
def coversBy (k : Locket) (g : Nat → Word) (ha va t i : Nat) : Nat × Nat :=
  match imageBy k g t i with
  | none => (0, 0)
  | some im =>
    let x := signed 16 (getField (g (BZ_I_POS t i)) BZ_I_POS_X)
    let y := signed 16 (getField (g (BZ_I_POS t i)) BZ_I_POS_Y)
    let n := getField (g (BZ_I_P0 t i)) BZ_I_P0_NDIG
    let w := if getField (g (BZ_I_CTRL t i)) BZ_I_CTRL_KIND = 3 then n * im.width + (n - 1) * getField (g (BZ_I_P0 t i)) BZ_I_P0_GAP else im.width
    let y0 := (max 0 y).toNat
    let y1 := (min (va : Int) (y + im.height)).toNat
    if x < ha ∧ 0 < x + w then (y0, y1 - y0) else (0, 0)

/-- R313: at most 48 enabled instances on a line.  The count is largest at some instance's first line. -/
def lineLoadOk (spans : List (Nat × Nat)) : Bool :=
  spans.all fun a => a.2 == 0 || decide ((spans.filter fun b => decide (b.1 ≤ a.1) && decide (a.1 < b.1 + b.2)).length ≤ 48)

/-- The Bezel limits of timeline t under a reading of the registers. -/
def State.bezelChecks (s : State) (t : Nat) (g : Nat → Word) : List (Nat × Bool) :=
  let on := bezelInstances.filter (bzOnBy g t)
  [(chkValue, on.all (instanceOk s.locket g t)), (chkCross, on.all fun i => (imageBy s.locket g t i).isSome),
   (chkValue, lineLoadOk (on.map (coversBy s.locket g (s.hactive t) (s.vactive t) t)))]

/-- The code width of an instance under a reading of the registers (R323). -/
def codeWidthBy (g : Nat → Word) (t i : Nat) : Nat :=
  let k := getField (g (BZ_I_CTRL t i)) BZ_I_CTRL_KIND
  if k = 1 then 1 else if k = 2 then 12 else if k = 3 then 4 * getField (g (BZ_I_P0 t i)) BZ_I_P0_NDIG else 0

/-- An enabled watch region (R332, R334, R335). -/
def State.regionChecks (s : State) (g : Nat → Word) (t r : Nat) : List (Nat × Bool) :=
  let c := g (WT_CTRL t r)
  let mode := getField c WT_CTRL_MODE
  let nkey := getField c WT_CTRL_NKEY
  let w := getField (g (WT_WH t r)) WT_WH_W
  let h := getField (g (WT_WH t r)) WT_WH_H
  let keys := (List.range nkey).map fun k => (g (WT_KEYS t r)).toNat / 2 ^ (8 * k) % 256
  let expect := mode == 1
  [(chkValue, (mode == 1 || mode == 2) && (mode == 1 || decide (1 ≤ getField c WT_CTRL_FROZEN_N)) && decide (nkey ≤ 4)),
   (chkValue, decide (1 ≤ w) && decide (1 ≤ h) && decide (getField (g (WT_XY t r)) WT_XY_X + w ≤ s.hactive t) &&
     decide (getField (g (WT_XY t r)) WT_XY_Y + h ≤ s.vactive t)),
   (chkCross, !expect || !(tget (fun _ => []) s.locket.tables (getField c WT_CTRL_TABLE)).isEmpty),
   (chkCross, !expect || keys.all (bzOnBy g t)),
   (chkValue, !expect || decide ((keys.map (codeWidthBy g t)).foldl (· + ·) 0 ≤ 32))]

def State.watchChecks (s : State) (t : Nat) (g : Nat → Word) : List (Nat × Bool) :=
  ((List.range 32).filter fun r => getField (g (WT_CTRL t r)) WT_CTRL_EN == 1).flatMap (s.regionChecks g t)

/-- The checks of BEZEL's and WATCH's chapters for every timeline; each preset with them when PRESET is used. -/
def State.finisherChecks (s : State) (bezel watch presets : Bool) : List (Nat × Bool) :=
  (List.range 16).flatMap fun t =>
    let gs := if presets then (s.presetsOf t).map fun p => withPreset s.rd (some p) else [s.rd]
    gs.flatMap fun g => (if bezel then s.bezelChecks t g else []) ++ (if watch then s.watchChecks t g else [])

/-- R72: an enabled Bezel instance needs BEZEL and an enabled region needs WATCH; STRUCT and presets can enable them. -/
def State.finisherPresence (s : State) (k : Nat) (g : Nat → Word) : List (Nat × Bool) :=
  let ts := List.range 16
  [(chkOccur, s.hasSec k 3 || !ts.any fun t => bezelInstances.any (bzOnBy g t)),
   (chkOccur, s.hasSec k 5 || !ts.any fun t => (List.range 32).any fun r => getField (g (WT_CTRL t r)) WT_CTRL_EN == 1)]

/-- A SIG_DEF record against the group it names (R326). -/
def Ld.signalPlace (l : Ld) (r : Rec) : Ld :=
  match l.s.sigGroup (sigDefOf r.body).group with
  | some g => l.need (sigFits g (sigDefOf r.body)) chkValue r.at_
  | none => l.no chkCross r.at_

/-- R85: every bank loaded for a Pavilion that has a standby is loaded with identical content for the standby. -/
def State.standbyBanksOk (s : State) (rs : List Rec) : Bool :=
  s.locket.standby.all fun x => rs.all fun r => fieldAt r.body 0 1 != x.1 ||
    rs.any fun q => fieldAt q.body 0 1 == x.2 && fieldAt q.body 1 1 == fieldAt r.body 1 1 && q.body.drop 8 == r.body.drop 8

/-- The Bezel store ranges of a BEZEL section. -/
def storeRanges (rs : List Rec) : List (Nat × Nat) :=
  (rs.filter fun r => r.type == 0x0301).map fun r => ((dataOf r).1, (dataOf r).2.length)

/-! ### A section's content (rows 13 to 22) -/

/-- The records of a section used, with the checks at its end. -/
def State.useRecords (s : State) (k v : Nat) (e : SecEnt) (rs : List Rec) : Ld :=
  let l : Ld := ⟨s, []⟩
  let at_ := e.off
  match e.type with
  | 1 =>
    let l := (l.all v 1 (rs.filter fun r => r.type != 0x0106) []).endStruct k at_ (rs.filter fun r => r.type == 0x0106)
    if s.hasSec k 2 then l else (l.endFirst at_).checks at_ (l.s.finisherPresence k l.s.rd)
  | 2 => let l := (l.all v 2 rs []).endFirst at_
    l.checks at_ (l.s.finisherPresence k l.s.rd)
  | 3 => let l := (l.all v 3 rs []).map State.allLanded
    let l := (rs.filter fun r => r.type == 0x0302).foldl (fun l r => l.need (l.s.imageLoaded (storeRanges rs) (imageOf r.body)) chkCross r.at_) l
    l.checks at_ (l.s.finisherChecks true false false)
  | 4 => (rs.filter fun r => r.type == 0x0402).foldl Ld.signalPlace (l.all v 4 rs [])
  | 5 => let l := (l.all v 5 rs []).map State.allLanded
    l.checks at_ (l.s.finisherChecks false true false)
  | 6 => let l := l.all v 6 rs []
    l.checks at_ [(chkSums, l.s.standbyBanksOk rs)]
  | 7 => (l.all v 7 rs []).map State.allLanded
  | 8 => let l := l.all v 8 rs []
    l.checks at_ ((chkCross, l.s.standbyOk) :: l.s.finisherChecks true true true ++
      l.s.locket.presets.flatMap fun p => l.s.finisherPresence k (withPreset l.s.rd (some p)))
  | _ => l.all v 9 rs []

/-- The lowest row, then the lowest offset. -/
def firstBad (bad : List (Nat × Nat)) : Option (Nat × Nat) :=
  bad.foldl (fun acc x => match acc with
    | none => some x
    | some y => if x.1 < y.1 ∨ (x.1 = y.1 ∧ x.2 < y.2) then some x else some y) none

/-- Use section e of slot k: rows 11 to 22 in order (R92), or the state with its content. -/
def State.useSection (s : State) (k : Nat) (e : SecEnt) : LoadFail ⊕ State :=
  let v := fieldAt (s.locketHdr k) 4 2
  match s.secFail k e with
  | some f => .inl f
  | none => match framing e (s.secBytes k e) with
    | .inl f => .inl f
    | .inr rs =>
      let l := s.useRecords k v e (rs.filter (Rec.known e.type))
      let l := (rs.filter (Rec.refused v e.type)).foldl (fun l r => l.no chkUnknown r.at_) l
      match firstBad l.bad with
      | some x => .inl ⟨6, x.1, e.index, x.2⟩
      | none => .inr l.s

end Sys2Proof.Machine
end

