-- ==== Sys2Proof/Machine/Boot.lean ====
section
/-!
DEFINITION. The start from PLL lock to the last section of the second group (R30 to R43, R47 to R49, R65, R66, R91, R92): the slot search,
reading and using a slot, abandoning it, and the no-image condition.
-/

namespace Sys2Proof.Machine

/-! ### Slots and outcomes (R30, R32, R36) -/

def slotFld (k : Nat) : Fld :=
  if k = 0 then SY_BOOT_STAT_F0A else if k = 1 then SY_BOOT_STAT_F0B else if k = 2 then SY_BOOT_STAT_F1A else SY_BOOT_STAT_F1B

def State.outcome (s : State) (k code : Nat) : State := s.put SY_BOOT_STAT (slotFld k) code

/-- The slots that BOOTSEL allows, in order. -/
def slotOrder (bootsel : Nat) : List Nat :=
  if bootsel = 0 then [0, 1, 2, 3] else if bootsel = 1 then [0, 2] else if bootsel = 2 then [1, 3] else []

def State.slotWord (s : State) (k : Nat) : Nat := leNat (s.rdFlashN (slotDev k) (slotWordAt k) 4)

/-- Whether the first pass leaves a slot to the second; a slot of a device that does not respond is tried in the first
(assumption 21). -/
def State.secondPass (s : State) (k : Nat) : Bool :=
  s.power.bootsel == 0 && s.boot.devs.contains (slotDev k) && s.slotWord k != 0xFFFFFFFF

/-! ### What an abandoned slot leaves (R34, R93) -/

/-- Registers of the always-on, Gatehouse, xSPI and supervisor blocks, the FAULT_N registers and the port epochs, which no load writes. -/
def keptBlock (a : Nat) : Bool :=
  decide (a < 0x20000) || inRange WT_FAULT (WT_FCNT + 4) a || inRange XS_CMD (SM_VAL 0) a || (allPorts.map HP_EPOCH).contains a

def isStruct (a : Nat) : Bool := match rowAt a with
  | some r => r.struct
  | none => false

/-- A panel whose image is abandoned: a request that waits is dropped, PANEL_EN that is high stays so (R35). -/
def Panel.abandoned (p : Panel) : Panel := { p with phase := if p.phase = .waitPoff then .off else p.phase, upAfter := false }

/-- Nothing of a load stays: structural registers and all that followed from them, the signals, and what FIRST and BEZEL wrote.
Local DDR5 keeps its content, blocks written with poison among it. -/
def State.dropLoad (s : State) : State :=
  if s.boot.applied then
    let s := s.lose ddrAll
    let panels := (List.range 16).map fun t => (t, (s.scanAt t).panel)
    let park := s.rd SY_PARK_CTRL
    let s := { s with
      regs := s.regs.filter fun x => keptBlock x.1 && !isStruct x.1
      inUse := [], locket := Locket.reset, surf := [], used := [], ents := [], buds := [], ev := [], vec := [], ports := [], rings := [],
      tlc := [], adm := [], scan := [], wb := [], fetch := [], preset := [], bz := [], watch := [], sink := [], dma := [], blit := [],
      pol := [], shq := [], dram := [], trained := [], ig := [], can := [], sigs := [], groups := []
      gate := { s.gate with once := s.gate.once.filter fun x => !isStruct x.1 }
      boot := { s.boot with applied := false, firstDone := false } }
    let s := panels.foldl (fun s p => s.setScanAt p.1 { Scan.reset with panel := p.2.abandoned }) s
    let s := ([1, 2, 3, 4] : List Nat).foldl (fun s n => s.wrN (SY_BOOT_MARK n) 0) s
    let s := (s.put SY_PARK_CTRL SY_PARK_CTRL_PARKING (getField park SY_PARK_CTRL_PARKING)).put SY_PARK_CTRL SY_PARK_CTRL_REQ (getField park SY_PARK_CTRL_REQ)
    s.wrN SY_IMAGE_SERIAL 0
  else s

/-- SY_BOOT_STAT's outcome, SY_LOAD_FAIL and SY_LOAD_OFFSET of a slot (R36, R93). -/
def State.noteFail (s : State) (k : Nat) (f : LoadFail) : State :=
  let s := (s.outcome k f.outcome).wrN SY_LOAD_OFFSET f.offset
  let s := (s.put SY_LOAD_FAIL SY_LOAD_FAIL_CHECK f.check).put SY_LOAD_FAIL SY_LOAD_FAIL_WHERE f.place
  (s.put SY_LOAD_FAIL SY_LOAD_FAIL_SLOT k).put SY_LOAD_FAIL SY_LOAD_FAIL_VALID 1

/-- Row 1 of R91. -/
def noDevice (place offset : Nat) : LoadFail := ⟨2, 0x01, place, offset⟩

/-! ### The search (R30, R32, R47, R48) -/

/-- The no-image condition: every PANEL_EN low through its power-down sequence, FAULT_N low (R48). -/
def State.noImage (s : State) : State :=
  let s := { s with boot := { s.boot with phase := .noImage } }
  let s := (s.put SY_BOOT_STAT SY_BOOT_STAT_NOIMAGE 1).wrN SY_IMAGE_SERIAL 0
  ((List.range 16).foldl State.panelDown s).syncFault

/-- Every allowed slot has failed: wait to repeat, or no image (R47). -/
def State.searchOver (s : State) : State :=
  if s.boot.repeat_ ∨ s.power.bootsel = 3 then s.noImage
  else { s with boot := { s.boot with phase := .retry, waitFrom := s.dtime } }

/-- Begin to read the next slot; a slot whose device does not respond fails at once. -/
def State.tryNext (s : State) : List (Nat × Bool) → State
  | [] => ({ s with boot := { s.boot with todo := [] } }).searchOver
  | (k, p2) :: rest =>
    if s.boot.devs.contains (slotDev k) then
      let b := s.boot
      { s with boot := { b with phase := .header, todo := rest, slot := k, pass2 := p2, sigOk := false, used := 0, held := none } }
    else (s.noteFail k (noDevice 16 0)).tryNext rest

/-- Slot selection: excluded slots and slots without a device are recorded, then the slots are tried in order. -/
def State.search (s : State) (again : Bool) : State :=
  let order := slotOrder s.power.bootsel
  let s := s.put SY_BOOT_CTRL SY_BOOT_CTRL_RESTART 0
  let s := (List.range 4).foldl (fun s k =>
    if !order.contains k then s.outcome k 8 else if !s.boot.devs.contains (slotDev k) then s.outcome k 2 else s) s
  let tries := (order.filter fun k => !s.secondPass k).map (fun k => (k, false)) ++ (order.filter s.secondPass).map fun k => (k, true)
  ({ s with boot := { s.boot with repeat_ := again } }).tryNext tries

/-- The slot being read is abandoned (R34, R92). -/
def State.abandon (s : State) (f : LoadFail) : State :=
  let s := (s.noteFail s.boot.slot f).dropLoad
  s.tryNext s.boot.todo

/-- A failure of the signature or of a section's content: it waits for the gaps that come first in the order of R92. -/
def State.failAfterGaps (s : State) (n : Nat) (f : LoadFail) : State :=
  if s.gapsFrom s.boot.slot n then { s with boot := { s.boot with held := some f } } else s.abandon f

/-! ### The training snapshot (R40, R95, R96) -/

/-- A valid snapshot copy. -/
structure Snap where
  seq  : Nat
  cfg  : Nat
  body : List Byte

def snapBase (copy : Nat) : Nat := 0x3F00000 + copy * 0x40000

def State.snapAt (s : State) (dev copy : Nat) : Option Snap :=
  let h := s.rdFlashN dev (snapBase copy) 64
  let n := fieldAt h 12 4
  let body := s.rdFlashN dev (snapBase copy + 64) n
  if h.take 4 = [0x54, 0x53, 0x4E, 0x50] ∧ fieldAt h 4 2 = 1 ∧ fieldAt h 60 4 = crc32c (h.take 60) ∧ 1 ≤ n ∧ n ≤ 262080 ∧
      fieldAt h 20 4 = crc32c body then some ⟨fieldAt h 8 4, fieldAt h 16 4, body⟩
  else none

/-- The number of the newer valid copy; with equal SEQUENCE copy 0. -/
def State.newerSnap (s : State) (dev : Nat) : Option (Nat × Snap) :=
  match s.snapAt dev 0, s.snapAt dev 1 with
  | some a, some b => if 0 < sdiff 32 b.seq a.seq then some (1, b) else some (0, a)
  | some a, none => some (0, a)
  | none, some b => some (1, b)
  | none, none => none

/-- The snapshot body that bring-up restores: the newer valid copy's, when it belongs to this DRAM configuration. -/
def State.snapBody (s : State) : Option (List Byte) :=
  match s.newerSnap (slotDev s.locket.slot), s.locket.dram with
  | some x, some c => if x.2.cfg = c.crc ∧ x.2.body.length = c.nsub * 1056 then some x.2.body else none
  | _, _ => none

/-! ### Using sections (R37, R38, R42, R43) -/

/-- The ASSET section of a slot, for the copy after hub readiness. -/
def State.assetOf (s : State) (k : Nat) : Option Asset :=
  match (s.entsOf k).find? fun e => e.type == 10 with
  | some e => some ⟨s.locket.assetBase.getD 0, e.off, e.len, e.crc, bytesAt (s.locketHdr k) (0x100 + 32 * e.index) 32⟩
  | none => none

/-- STRUCT is applied: the panels of first-light timelines are asked for and DDR5 bring-up begins. -/
def State.structApplied (s : State) (k : Nat) : State :=
  let s := { s with boot := { s.boot with applied := true }, locket := { s.locket with slot := k, asset := s.assetOf k } }
  let s := s.mark 1
  let s := s.put SY_BOOT_STAT SY_BOOT_STAT_FULLTRAIN (b2n s.snapBody.isNone)
  s.firstLights.foldl State.panelUp s

/-- First-frame readiness when FIRST and BEZEL, where present, have been used. -/
def State.checkFirst (s : State) : State :=
  let early := ((s.readSecs s.boot.slot).filter fun e => decide (e.type ≤ 3)).length
  if s.boot.firstDone ∨ s.boot.used < early then s else ({ s with boot := { s.boot with firstDone := true } }).mark 2

/-- The end of the second group: the slot has loaded completely; panels of a slot abandoned before that this image does not light go
down (R35), CN0 and CN1 may join the bus, and links whose sinks are ready train (R42). -/
def State.loadDone (s : State) : State :=
  let k := s.boot.slot
  let h := s.locketHdr k
  let s := ((s.outcome k 1).put SY_BOOT_STAT SY_BOOT_STAT_SEL k).put SY_BOOT_STAT SY_BOOT_STAT_PASS2 (b2n s.boot.pass2)
  let s := (s.boot.todo.filter (·.2)).foldl (fun s x => s.outcome x.1 7) s
  let s := s.wrN SY_IMAGE_SERIAL (fieldAt h 16 4)
  let s := { s with boot := { s.boot with phase := .loaded, todo := [] }, locket := { s.locket with digest := sha256 h, signer := signerKey h } }
  let s := ([0, 1] : List Nat).foldl (fun s n => s.setCanAt n { s.canAt n with allowed := true }) s
  let s := ((List.range 16).filter fun t => !s.isFirst t && (s.scanAt t).panel.phase != .off).foldl State.panelDown s
  ((List.range 48).foldl State.trainFirst s).checkLit

/-- Use the sections read so far, `n` of them, in order; `left` bounds how many are still to use. -/
def State.useRead (s : State) (n : Nat) : Nat → State
  | 0 => s
  | left + 1 =>
    let k := s.boot.slot
    match (s.readSecs k)[s.boot.used]? with
    | none => s
    | some e =>
      if n ≤ s.boot.used then s
      else match s.useSection k e with
        | .inl f => s.failAfterGaps n f
        | .inr s =>
          let s := { s with boot := { s.boot with used := s.boot.used + 1 } }
          let s := if e.type = 1 then s.structApplied k else s
          s.checkFirst.useRead n left

/-- Sections read and used so far; the slot has loaded when all are. -/
def State.advance (s : State) (n : Nat) : State :=
  let all := (s.readSecs s.boot.slot).length
  let s := if s.boot.sigOk && s.boot.held.isNone then s.useRead n all else s
  match s.boot.phase with
  | .sect _ =>
    if s.boot.held.isNone && s.boot.sigOk && decide (s.boot.used = all) then
      match s.assetFail s.boot.slot with
      | some f => s.failAfterGaps n f
      | none => s.loadDone
    else s
  | _ => s

/-! ### The commands -/

/-- Registers that show what is fused or kept in OTP (R502, R506). -/
def State.fusedShown (s : State) : State :=
  let s := s.putWords (GH_UID 0) (leBytes 16 Config.uid.toNat)
  (s.put GH_STAT GH_STAT_LOCKED (b2n s.otp.ikh.isSome)).wrN GH_OTP_CNT s.otp.count

/-- PLLs locked: xSPI reading begins (R37, R558).  `size0` and `size1` are the bytes that the devices declare, none where no device
responds; a device of less than 64 MiB counts as none (R66). -/
def State.pllLocked (s : State) (size0 size1 : Option Nat) : State :=
  let fit (z : Option Nat) : Bool := match z with
    | some n => decide (0x4000000 ≤ n)
    | none => false
  let devs := (if fit size0 then [0] else []) ++ (if fit size1 then [1] else [])
  let s := { s with power := { s.power with pwrEn := true, pwrGood := true, wakeWait := false }, boot := { s.boot with devs := devs } }
  let s := (s.fusedShown.mark 0).put GH_LED_STAT GH_LED_STAT_FLASH1 (b2n (fit size1))
  let s := s.put XS_STAT XS_STAT_FLASH1 (b2n (fit size1))
  s.ledgerStart.search false

/-- PWR_EN is high, or its wait for PWR_GOOD to fall has lasted 10 ms (R563). -/
def State.pllMay (s : State) : Bool :=
  decide (s.boot.phase = .pll) && !s.power.warm && (s.power.pwrEn || (s.power.wakeWait && decide (s.power.enFellAt + 10000000 ≤ s.dtime)))

def execPllLock (now : Nat) (size0 size1 : Option Nat) (s : State) : Out :=
  .next ((s.tick now).when (s.tick now).pllMay fun s => s.pllLocked size0 size1)

/-- Rows 2 to 4 (R70, R91). -/
def State.headerRead (s : State) : State :=
  match hdrFail s.power.compat (s.locketHdr s.boot.slot) with
  | some f => s.abandon f
  | none => { s with boot := { s.boot with phase := .table } }

def execLocketHeaderRead (now : Nat) (s : State) : Out := .next ((s.tick now).when (decide (s.boot.phase = .header) && !s.power.warm) State.headerRead)

/-- Rows 5 to 8 (R71, R91); signature verification starts. -/
def State.tableRead (s : State) : State :=
  let k := s.boot.slot
  let h := s.locketHdr k
  match tabFail (fieldAt h 4 2) (slotArea k).2 h (s.locketTab k) with
  | some f => s.abandon f
  | none => { s with boot := { s.boot with phase := .sect 0 } }

def execSectionTableRead (now : Nat) (s : State) : Out := .next ((s.tick now).when (decide (s.boot.phase = .table)) State.tableRead)

/-- How many sections have been read; none outside the reading of sections. -/
def State.sectionsRead (s : State) : Option Nat :=
  match s.boot.phase with
  | .sect n => some n
  | _ => none

/-- Rows 9 and 10 (R73, R76). -/
def State.sigDone (s : State) (n : Nat) : State :=
  match s.sigFail s.boot.slot with
  | some f => s.failAfterGaps n f
  | none => ({ s with boot := { s.boot with sigOk := true } }).advance n

def execSignatureVerifyDone (now : Nat) (s : State) : Out :=
  let s := s.tick now
  .next (match s.sectionsRead with
    | some n => s.when (!s.boot.sigOk && s.boot.held.isNone) fun s => s.sigDone n
    | none => s)

/-- The n-th section, with the gap before it, has been read (R75, R92). -/
def State.sectionEnd (s : State) (n : Nat) : State :=
  let k := s.boot.slot
  match (s.gapsOf k n).findSome? (s.gapFail k) with
  | some f => s.abandon f
  | none =>
    let s := { s with boot := { s.boot with phase := .sect (n + 1) } }
    match s.boot.held with
    | some f => if s.gapsFrom k (n + 1) then s else s.abandon f
    | none => s.advance (n + 1)

def execSectionEnd (now : Nat) (s : State) : Out :=
  let s := s.tick now
  .next (match s.sectionsRead with
    | some n => s.when (decide (n < (s.readSecs s.boot.slot).length)) fun s => s.sectionEnd n
    | none => s)

/-- The repeat of the search after 100 ms (R47). -/
def execSlotSearchRetry (now : Nat) (s : State) : Out :=
  .next ((s.tick now).when (decide (s.boot.phase = .retry) && !s.power.warm && decide (s.boot.waitFrom + 100000000 ≤ (s.tick now).dtime)) fun s => s.search true)

/-- A landed write of SY_BOOT_CTRL: RESTART acts in the no-image condition only (R49), and not in its parking (assumption 118). -/
def State.bootCtrl (s : State) (w : Word) : State :=
  if getField w SY_BOOT_CTRL_RESTART = 1 ∧ s.boot.phase = .noImage ∧ s.park.step = 0 then
    let b := s.boot
    let s := s.freshStart
    let s := { s with boot := { Boot.reset with devs := b.devs, startAt := b.startAt, cause := b.cause } }
    let s := s.put SY_BOOT_STAT SY_BOOT_STAT_NOIMAGE 0
    ((List.range 4).foldl (fun s k => s.outcome k 0) s).ledgerStart.search false
  else s

def execRestart (now : Nat) (src : Src) (value : Nat) (s : State) : Out :=
  .next ((s.tick now).guarded src SY_BOOT_CTRL value fun s w => s.bootCtrl w).1

end Sys2Proof.Machine
end

