-- ==== Sys2Proof/Machine/Start.lean ====
section
/-!
DEFINITION. The start from DDR5 bring-up to the ASSET copy (R40, R43, R44, R58, R81, R89, R90, R442, R508, R512), and failed flash
reads (R91 row 1, R92).
-/

namespace Sys2Proof.Machine

/-! ### DDR5 enters service (R40, R442) -/

/-- Sub-channel k enters service: its queue empty, its debts 0, its refresh intervals from now. -/
def State.subServe (s : State) (k : Nat) : State :=
  let s := s.setDramAt k { SubCh.reset with tick := [s.dtime, s.dtime], trainAt := s.dtime, posted := (s.dramAt k).posted }
  ((s.put (DR_SC_STAT k) DR_SC_STAT_TRAINED 1).put (DR_SC_STAT k) DR_SC_STAT_DEBT0 0).put (DR_SC_STAT k) DR_SC_STAT_DEBT1 0

/-- Full training of sub-channel k; the trained values are new, so the retained copy is to be written at parking (assumption 22). -/
def State.trainFully (s : State) (c : DramConf) (k : Nat) (failed : List Nat) : State :=
  let s := (List.range c.ranks).foldl (fun s r => s.trainRank c k r) s
  let s := (s.put DR_STAT DR_STAT_SNAPDIRTY 1).put SY_BOOT_STAT SY_BOOT_STAT_FULLTRAIN 1
  ((List.range c.ranks).filter fun r => failed.contains (2 * k + r)).foldl (fun s r => s.rankFail k r) s

/-- Bring-up has ended.  `eyeBad` are the sub-channels whose restored values failed the eye check; `failed` holds 2k + r for each
rank r of sub-channel k that failed full training.  The recovery from WARMRST_N restores the retained values (R552). -/
def State.ddrServe (s : State) (c : DramConf) (eyeBad failed : List Nat) : State :=
  let body := if s.boot.recover then (if s.trained.length = c.nsub * 1056 then some s.trained else none) else s.snapBody
  let s := { s with trained := body.getD (zeros (c.nsub * 1056)) }
  let ks := maskSubs c.mask
  let s := ks.foldl State.subServe s
  let full := if body.isNone then ks else ks.filter fun k => eyeBad.contains k
  let s := full.foldl (fun s k => s.trainFully c k failed) s
  ({ s with power := { s.power with sr := false } }.put DR_STAT DR_STAT_READY 1).mark 3

def execDdr5InService (now : Nat) (eyeBad failed : List Nat) (s : State) : Out :=
  let s := s.tick now
  .next (match s.locket.dram with
    | some c => s.when (s.boot.applied && !s.power.warm && !s.dramReady) fun s => s.ddrServe c eyeBad failed
    | none => s)

/-! ### Hub readiness (R43, R44) -/

/-- The serial and the header hash of the last IMAGE_CHANGE entry, in the queue or in the ledger of flash 0 (R508). -/
def State.lastImage (s : State) : Option (Nat × List Byte) :=
  match (s.gate.queue.filter fun e => e.action == 0x50).getLast? with
  | some e => some (e.target, hash16 e.new)
  | none => ((s.ledgerRead 0).filter fun b => fieldAt b 22 2 == 0x50).getLast?.map fun b => (fieldAt b 24 4, bytesAt b 48 16)

/-- The IMAGE_CHANGE entry of an image other than the last one's. -/
def State.noteImage (s : State) : State :=
  let h := s.locketHdr s.locket.slot
  let serial := s.rdN SY_IMAGE_SERIAL
  if s.lastImage = some (serial, hash16 h) then s else s.ledgerDone roleHub 6 0x50 serial [] h

/-- The surface table is built from the Locket's entries (R81, R83); surfaces that timelines show already come into use. -/
def State.buildTable (s : State) : State :=
  let s := (s.locket.surfaces ++ s.locket.firsts).foldl (fun s x => s.storeSurf (handleIndex x.1) x.2) s
  let s := { s with locket := { s.locket with firsts := [] } }
  ((List.range 16).filter fun t => (s.scanAt t).started).foldl State.latchUse s

def State.postAsset (s : State) (result : Nat) : State :=
  s.postAll 0 0 0x03 ([BitVec.ofNat 8 result, 0, 0, 0] ++ leBytes 4 s.assetCopy.2 ++ zeros 8)

/-- The ASSET copy begins, or is skipped where parking kept an equal one (R43, R58). -/
def State.assetBegin (s : State) : State :=
  match s.locket.asset with
  | none => s
  | some a =>
    if s.on SY_BOOT_STAT SY_BOOT_STAT_WARM && s.power.assetDig == some a.digest then (s.put SY_BOOT_STAT SY_BOOT_STAT_ASSETS 1).postAsset 1
    else { s with boot := { s.boot with assetTry := 1 } }

def State.readyMay (s : State) : Bool := decide (s.boot.phase = .loaded) && !s.power.warm && s.boot.firstDone && s.dramReady && !s.ready

/-- Every host port answers configuration requests normally. -/
def State.portsReady (s : State) : State := allPorts.foldl (fun s p => s.setPortAt p { s.portAt p with ready := true }) s

def State.hubReady (s : State) : State :=
  let s := (s.buildTable.portsReady.put SY_BOOT_STAT SY_BOOT_STAT_READY 1).mark 4
  let s := (s.enabledTls.filter fun t => !s.isFirst t).foldl State.panelUp s
  let s := s.noteImage
  let s := s.wrN GH_CFG_REF s.cfgCrc
  s.assetBegin.checkLit.checkStartup

/-! ### The ASSET copy (R89, R90) -/

/-- A copy that failed is repeated once. -/
def State.assetFailed (s : State) : State :=
  if s.boot.assetTry = 1 then { s with boot := { s.boot with assetTry := 2 } }
  else ({ s with boot := { s.boot with assetTry := 0 } }).postAsset 2

/-- The copy stands in DDR5 and is checked. -/
def State.assetDone (s : State) (a : Asset) : State :=
  let b := s.slotBytes s.locket.slot a.off a.len
  let s := ((s.request true a.base a.len .besteffort 0 .plain).memWrite a.base b).1.hubCharge 9 a.len
  if crc32c b = a.crc ∧ sha256 b = a.digest then
    (({ s with boot := { s.boot with assetTry := 0 } }).put SY_BOOT_STAT SY_BOOT_STAT_ASSETS 1).postAsset 0
  else s.assetFailed

def execAssetCopyDone (now : Nat) (s : State) : Out :=
  let s := s.tick now
  .next (match s.locket.asset with
    | some a => s.when (decide (s.boot.assetTry ≠ 0) && s.dramReady && s.ready) fun s => s.assetDone a
    | none => s)

/-! ### A flash read that fails (R91, R92) -/

/-- Row 1 of R91 abandons the slot at once; a read of ASSET that fails is a failed copy (assumption 23). -/
def State.flashFail (s : State) : State :=
  match s.boot.phase with
  | .header => s.abandon (noDevice 16 0)
  | .table => s.abandon (noDevice 17 0x1000)
  | .sect n =>
    match (s.readSecs s.boot.slot)[n]? with
    | some e => s.abandon (noDevice e.index e.off)
    | none => s
  | .loaded => if s.boot.assetTry = 0 then s else s.assetFailed
  | _ => s

def execFlashReadFail (now : Nat) (s : State) : Out := .next ((s.tick now).when (!s.power.warm) State.flashFail)

end Sys2Proof.Machine
end

