-- ==== Sys2Proof/Machine/Park.lean ====
section
/-!
DEFINITION. The parking sequence from its drain to PARKED (R54, R55, R57, R95, R96, R444 to R446).
-/

namespace Sys2Proof.Machine

/-! ### Steps 2 and 3: the drain -/

/-- Every accepted commit has latched or ended, and no descriptor or job is accepted any more. -/
def State.drained (s : State) : Bool :=
  s.tlc.all (fun q => q.2.live.isEmpty && q.2.handover.isNone) && s.dma.all (fun c => c.2.run.isNone) && s.blit.all fun c => c.2.run.isNone

/-- Step 4: every timeline goes down by its panel sequence. -/
def State.parkPanels (s : State) : State :=
  (List.range 16).foldl State.panelDown { s with park := { s.park with step := 4 } }

def execParkDrainComplete (now : Nat) (s : State) : Out :=
  .next ((s.tick now).when (decide (s.park.step = 2) && s.drained) State.parkPanels)

/-- Step 3: commits still WAITING end with REF_FENCE (R287), running descriptors and jobs abort. -/
def State.drainEnd (s : State) : State :=
  let s := (List.range 16).foldl (fun s t =>
    ((s.tlcAt t).live.filter fun c => c.state == .waiting).foldl (fun s c => s.commitEnd t c 1 0xFF) s) s
  s.dmaParkAll.blitParkAll.parkPanels

/-- DRAIN_MS has passed; a drain that is complete at that instant has won (R55). -/
def execDrainExpiry (now : Nat) (s : State) : Out :=
  .next ((s.tick now).when (decide (s.park.step = 2) && decide (s.park.drainEnd ≤ (s.tick now).dtime)) fun s =>
    if s.drained then s.parkPanels else s.drainEnd)

/-! ### Step 5: the snapshot, the epochs and the ASSET digest -/

/-- The header of a snapshot copy of a body (R95). -/
def snapHeader (seq cfg : Nat) (body : List Byte) : List Byte :=
  let h := [0x54, 0x53, 0x4E, 0x50] ++ leBytes 2 1 ++ zeros 2 ++ leBytes 4 seq ++ leBytes 4 body.length ++ leBytes 4 cfg ++ leBytes 4 (crc32c body) ++
    zeros 36
  h ++ leBytes 4 (crc32c h)

/-- The copy that a new snapshot overwrites and its SEQUENCE: an invalid copy, or the older one (R96).  DESIGN CHOICE (assumption 132): with no
valid copy, copy 0 and SEQUENCE 1. -/
def State.snapTarget (s : State) (dev : Nat) : Nat × Nat :=
  match s.newerSnap dev with
  | none => (0, 1)
  | some x => (1 - x.1, (x.2.seq + 1) % 2 ^ 32)

/-- The write of the retained values when retraining has changed them (R444): the copy is erased and its body programmed.  Until the header
follows, the copy is invalid (R96). -/
def State.snapBegin (s : State) : State :=
  if s.on DR_STAT DR_STAT_SNAPDIRTY then
    let dev := slotDev s.locket.slot
    let a := snapBase (s.snapTarget dev).1
    (s.eraseFlash dev a 0x40000).progFlash dev (a + 64) s.trained
  else s

/-- The header is programmed last, and the write is done. -/
def State.snapEnd (s : State) : State :=
  match s.locket.dram with
  | some c =>
    if s.on DR_STAT DR_STAT_SNAPDIRTY then
      let dev := slotDev s.locket.slot
      let x := s.snapTarget dev
      (s.progFlash dev (snapBase x.1) (snapHeader x.2 c.crc s.trained)).put DR_STAT DR_STAT_SNAPDIRTY 0
    else s
  | none => s

def State.parkStore (s : State) : State :=
  let s := s.snapBegin
  let dig := if s.on SY_BOOT_STAT SY_BOOT_STAT_ASSETS then s.locket.asset.map (·.digest) else none
  { s with
    power := { s.power with epochs := allPorts.map fun p => s.get (HP_EPOCH p) HP_EPOCH_EPOCH, assetDig := dig },
    park := { s.park with step := 5 } }

def State.panelsOff (s : State) : Bool := (List.range 16).all fun t => (s.scanAt t).panel.phase == .off

def execParkPanelsDown (now : Nat) (s : State) : Out :=
  .next ((s.tick now).when (decide (s.park.step = 4) && s.panelsOff) State.parkStore)

/-! ### Step 6: self-refresh (R446) -/

/-- Every queue entry is written and acknowledged, every debt paid. -/
def State.subRest (s : State) (k : Nat) : State :=
  let d := s.dramAt k
  let s := s.setDramAt k { d with wq := d.wq.map fun e => { e with issued := true, complete := true } }
  let s := (d.wq.map (·.id)).foldl (fun s i => s.wqAck k i) s
  let s := (s.put (DR_SC_STAT k) DR_SC_STAT_DEBT0 0).put (DR_SC_STAT k) DR_SC_STAT_DEBT1 0
  let s := (s.put (DR_SC_STAT k) DR_SC_STAT_PAYDOWN 0).setDramAt k { s.dramAt k with rows := [], batch := false, pay := [false, false], waits := [] }
  s.wqShow k

def State.restAll (s : State) : State :=
  match s.locket.dram with
  | some c => { (maskSubs c.mask).foldl State.subRest s with power := { s.power with sr := true } }
  | none => { s with power := { s.power with sr := false } }

def execParkSnapshotDone (now : Nat) (s : State) : Out :=
  .next ((s.tick now).when (decide (s.park.step = 5)) fun s => let s := s.snapEnd.restAll; { s with park := { s.park with step := 6 } })

/-! ### Step 7: PARKED (R57, R445) -/

/-- The segments of local DDR5 that a retention range or the ASSET copy meets. -/
def State.keptSegments (s : State) : List (Nat × Nat) :=
  match s.locket.dram with
  | none => []
  | some c =>
    let seg := c.phys / 8
    let rs := s.locket.retention ++ [s.assetCopy]
    ((List.range 8).filter fun n => rs.any fun r => r.2 != 0 && overlaps r.1 r.2 (n * seg) seg).map fun n =>
      (n * seg, min ((n + 1) * seg) s.dramCap - n * seg)

def execParkSelfRefreshDone (now : Nat) (s : State) : Out :=
  .next ((s.tick now).when (decide (s.park.step = 6)) fun s => s.enterParked s.keptSegments)

end Sys2Proof.Machine
end

