-- ==== Sys2Proof/Machine/Islands.lean ====
section
/-!
DEFINITION. Islands that fail, are reset and come back (R13, R15, R16, R540 to R549, R554), Pavilion migration, and PERSTn_N (R561).
-/

namespace Sys2Proof.Machine

/-! ### Events and counts (R540 to R542) -/

/-- ISLAND_STATE. -/
def State.postIsland (s : State) (i st cause partner us exposed : Nat) : State :=
  s.postAll 0 0 0x04 ([i, st, cause, partner].map (BitVec.ofNat 8) ++ leBytes 4 (min us 0xFFFFFFFF) ++ leBytes 8 exposed)

def noPartner : Nat := 0xFF

/-- The shortest time out of service, in µs. -/
def islandUs (i : Nat) : Nat :=
  if i < 76 then 10 else if i < 84 then 0 else if i < 92 then 100 else if i < 96 then 1000 else if i < 100 then 0
  else if i = islFabric then 2 else if i = islDma then 20 else if i = islCarousel then 500 else if i = islGate then 50 else 10

/-- How often island i was reset in the last second. -/
def State.recentResets (s : State) (i : Nat) : Nat :=
  (s.isl.history.filter fun h => h.1 == i && decide (s.dtime < h.2 + 1000000000)).length

/-- The in-service standby of Pavilion p (R79, R546). -/
def State.standbyOf (s : State) (p : Nat) : Option Nat :=
  match s.locket.standby.find? fun x => x.1 == p with
  | some x =>
    if s.islUp (islPav x.2) && !s.isl.standFor.any (fun y => y.1 == p || y.2 == x.2) && !s.isl.moving.any fun y => y.2 == x.2 then some x.2
    else none
  | none => none

/-! ### What the reset of an island keeps (R520, R542) -/

/-- Registers that are not structural and that the reset of their island keeps: the Retained column of R542, and for a Pavilion its
banks, which the bank images bring back (R545). -/
def retained (i a : Nat) : Bool :=
  if i < 76 then decide (48 ≤ i) && (a == TL_FRAME (i - 48) || a == TL_POS (i - 48))
  else if i < 84 then inRange 0x200000 0x208000 a && decide (a % 0x1000 < 0x200) || inRange 0x210000 0x400000 a && decide (a % 0x400 < 0x200)
  else if i < 96 then false
  else if i < 100 then
    let p := i - 96
    a == HP_EPOCH p || a == HP_EV_PROD p || (List.range 8).any fun r => a == HP_CR_CONS p r || a == HP_CR_NEXT_SEQ p r
  else if i = islDma then
    (List.range 32).any (fun c => [DM_BASE_LO c, DM_BASE_HI c, DM_STAT c, DM_LAST_LO c, DM_LAST_HI c, DM_CUR_LO c, DM_CUR_HI c, DM_DONE_CNT c].contains a) ||
    (List.range 8).any fun c => [BL_CTRL c, BL_DB c, BL_RING_LO c, BL_RING_HI c, BL_STAT c, BL_CONS c, BL_DONE_CNT c].contains a
  else if i = islGate then
    a == GH_LED_STAT || a == GH_LED_HEAD || a == GH_LOCK || a == SV_HB_STAT || inRange (SM_VAL 0) (SM_STALE 16) a ||
    inRange 0x900000 0x901000 a && a != DR_CE_CNT && a != DR_UE_CNT ||
    (List.range 24).any fun c => a == IG_FRAME_CNT c
  else false

/-- The island that a source's register accesses come from. -/
def srcIsland (src : Src) : Nat :=
  match src with
  | .host p => islHost p.val
  | .sup => islGate
  | .jtag => islGate

/-- Posted writes that island i had issued are dropped on their way (R16). -/
def State.dropIssued (s : State) (i : Nat) : State :=
  let gone := s.posted.filter fun x => match x.2 with
    | some w => srcIsland w.src == i
    | none => false
  gone.foldl (fun s x => (s.setPostedAt x.1 none).setBusy x.1 false) s

/-- The registers of an island at their reset values, but those kept and the structural ones, which the restore store brings back; the
posted writes on their way to it or from it are dropped (R16).  Class E fields that are not structural may be written once more. -/
def State.clearIsland (s : State) (i : Nat) : State :=
  let s := s.dropIssued i
  { s with
    regs := s.regs.filter fun x => islandOf x.1 != some i || isStruct x.1 || retained i x.1
    posted := s.posted.filter fun x => match x.2 with
      | some w => islandOf w.addr != some i
      | none => true
    gate := { s.gate with once := s.gate.once.filter fun x => islandOf x.1 != some i || isStruct x.1 } }

/-! ### The reset of each kind of island (R542 to R546) -/

/-- Pixel clock: the line FIFO, the Bezel's and watch regions' working state and the status go; the timing core and the panel's pins
stay. -/
def State.pixelReset (s : State) (t : Nat) : State :=
  let s := ((if (s.scanAt t).reseat.isSome then s.modeGone t seatOrder else s).clearIsland (islPixel t)).put (TL_GENLOCK t) TL_GENLOCK_LOCKED 0
  let s := { s with
    bz := s.bz.filter fun x => x.1 / 256 % 16 != t
    watch := s.watch.filter fun x => x.1 / 32 != t }
  (s.setSinkAt t SinkState.reset).scanMod t fun x =>
    { x with fifo := [], redo := [], goodGl := 0, trim := 0, lastIg := none, reseat := none, safeOk := false, bzCmp := none, bzEcc := none }

/-- The fetched and composed work of the timelines of a Pavilion goes; with a standby their line FIFOs are discarded too (R546). -/
def State.workDrop (s : State) (fifos : Bool) (t : Nat) : State :=
  let s := (s.slotsOf t).foldl (fun s sl => s.setFetchAt sl (s.fetchAt sl).cleared) s
  s.scanMod t fun x => { x with fifo := if fifos then [] else x.fifo.filter fun l => !l.next, redo := [], flatJob := none }

/-- An unsealed pending bank is lost: the bank image brings it back equal to the active bank (R545). -/
def State.pendingLost (s : State) (t : Nat) : State := if s.sealed t then s else s.writeBank t false (s.readBank t true)

/-- Pavilion q, for the timelines it serves. -/
def State.pavReset (s : State) (q : Nat) (fifos : Bool) : State :=
  let ts := [2 * s.pvHome q, 2 * s.pvHome q + 1]
  let sealed := ts.filter s.sealed
  let s := ts.foldl (fun s t => (s.pendingLost t).workDrop fifos t) s
  sealed.foldl (fun s t => s.setSealed t true) (s.clearIsland (islPav q))

/-- Sub-channel controller: every entry not acknowledged leaves undefined bytes, every read is lost, debts and mode are forgotten; ranks
that failed stay failed. -/
def State.subReset (s : State) (k : Nat) : State :=
  let d := s.dramAt k
  let failed := s.get (DR_SC_STAT k) DR_SC_STAT_FAILED
  let s := d.wq.foldl (fun s e => e.given.foldl (fun s o => s.wrFree (e.hpa + o) 1) s) s
  let s := (s.clearIsland (islSub k)).put (DR_SC_STAT k) DR_SC_STAT_FAILED failed
  s.setDramAt k { SubCh.reset with next := d.next, posted := d.posted, done := d.done, acked := d.acked, waits := d.waits, failedWr := d.wq.map (·.id) ++ d.failedWr }

/-- DRAM PHY: with self-refresh entered nothing is lost; a failed entry fails the ranks of both sub-channels (R432). -/
def State.phyReset (s : State) (n : Nat) (srFail : Bool) : State :=
  match s.locket.dram with
  | some c =>
    if srFail then
      ((maskSubs c.mask).filter fun k => k / 2 == n).foldl (fun s k => (List.range c.ranks).foldl (fun s r => s.rankFail k r) s) s
    else s
  | none => s

/-- Host port: a link-down port reset; posted writes not yet released are lost (R539). -/
def State.hostReset (s : State) (p : Nat) : State :=
  let s := s.clearIsland (islHost p)
  let s := (s.setPolAt (2 * p) { s.polAt (2 * p) with held := [] }).put (CA_P_STAT (2 * p)) CA_P_STAT_HOLDING 0
  { s with bells := s.bells.filter (fun b => srcCode b.src != p), vec := s.vec.filter fun x => x.1 / 64 != p }.portReset p 1

def State.dmaReset (s : State) : State := (s.clearIsland islDma).dmaIslandReset.blitIslandReset

/-- Carousel/admission: buckets, debts and validation under way; an interrupted surface command ends with RESET (R544).  Packets held before
it stay held. -/
def State.carouselReset (s : State) : State :=
  let cut := allPorts.filter fun p => match s.postedAt (161 + p) with
    | some w => w.addr == HP_SF_CMD p
    | none => false
  let s := (s.rings.filter fun x => x.2.cand.isSome).foldl (fun s x => s.release [x.1 / 8]) s
  let s := s.clearIsland islCarousel
  let s := cut.foldl (fun s p => s.put (HP_SF_STAT p) HP_SF_STAT_CODE 0x0C) s
  let s := (List.range 8).foldl (fun s k => (s.put (CA_P_STAT k) CA_P_STAT_HOLDING (b2n (!(s.polAt k).held.isEmpty))).setPolAt k { Policer.reset with held := (s.polAt k).held, since := (s.polAt k).since }) s
  { s with
    rings := (s.rings.map fun x => (x.1, { x.2 with cand := none })).filter fun x => x.2 != Ring.reset
    adm := (s.adm.map fun x => (x.1, { x.2 with pend := x.2.pend.filter fun m => decide (directOrder ≤ m.1) })).filter fun x => x.2 != AdmTl.reset
    shq := (s.shq.map fun x => (x.1, { x.2 with d := 0, elig := none })).filter fun x => x.2 != ShapeQ.reset }

/-- An ingest channel in the middle of a frame: the frame is short (R465). -/
def State.igCut (s : State) (c : Nat) : State :=
  match (s.igAt c).cur with
  | some f => if f.ended then s else (s.igMod c fun q => { q with cur := none }).igShort c f
  | none => s

/-- Gatehouse/management: the session closes, ingest frames are short, and a supervisor frame, an XS command and a CRC run are lost. -/
def State.gateReset (s : State) : State :=
  let fails := s.get GH_SES_STAT GH_SES_STAT_FAILS
  let s := s.sesClose.makerEnd
  let s := (List.range 24).foldl State.igCut s
  let s := s.xsTimeout
  let s := { s with
    sv := { SvPort.reset with hbFrom := s.sv.hbFrom, hbEnd := s.sv.hbEnd, hb := s.sv.hb }
    gate := { s.gate with ikhBusy := false, cfgRun := false }
    degr := { s.degr with raised := [] } }
  let s := (s.clearIsland islGate).put GH_SES_STAT GH_SES_STAT_FAILS fails
  (s.locket.groups.map (·.1)).foldl (fun s g => s.put (SM_GERR g) SM_GERR_STALE (b2n ((s.groupSignals g).all s.sigStale))) s

def State.xspiReset (s : State) : State :=
  let cut := s.xs.isSome
  let s := s.xsTimeout.clearIsland islXspi
  if cut then s.xsCode 3 else s

def State.canReset (s : State) (n : Nat) : State :=
  (s.setCanAt n { Can.reset with allowed := (s.canAt n).allowed }).clearIsland (islCan n)

/-- The reset of island i, whatever its kind; `fifos` and `srFail` matter to a Pavilion and to a DRAM PHY. -/
def State.resetIsland (s : State) (i : Nat) (fifos srFail : Bool) : State :=
  if i < 48 then (if s.on (IG_LANE i) IG_LANE_UP && s.igUp then s.laneDown i else s)
  else if i < 64 then s.pixelReset (i - 48)
  else if i < 76 then s
  else if i < 84 then s.pavReset (i - 76) fifos
  else if i < 92 then s.subReset (i - 84)
  else if i < 96 then s.phyReset (i - 92) srFail
  else if i < 100 then s.hostReset (i - 96)
  else if i = islDma then s.dmaReset
  else if i = islCarousel then s.carouselReset
  else if i = islGate then s.gateReset
  else if i = islXspi then s.xspiReset
  else if i = 106 ∨ i = 107 then s.canReset (i - 106)
  else s

/-! ### Detection (R15, R540, R546, R554) -/

def State.islMod (s : State) (f : Islands → Islands) : State := { s with isl := f s.isl }

/-- Whether the switched islands have power and their clocks. -/
def State.islandsRun (s : State) : Bool := s.svUp && !s.power.warm

/-- The DTIME from which writes may be lost, of a sub-channel controller reset at a DTIME (R541). -/
def exposedFrom (i at_ : Nat) : Nat := if 84 ≤ i ∧ i < 92 then at_ - 4000 else 0

/-- Island i has failed: it stays held in reset until the next start, with the effects of its reset (R542). -/
def State.islandFail (s : State) (i cause partner : Nat) : State :=
  let since := match s.isl.down.find? fun d => d.isl == i with
    | some d => d.since
    | none => s.dtime
  let s := if 48 ≤ i ∧ i < 64 then s.watchFailed (i - 48) else s
  (s.islMod fun x => { x with down := x.down.filter (fun d => d.isl != i), failed := i :: x.failed }).postIsland i 2 cause partner 0
    (exposedFrom i since)

/-- The failure of a standby abandons the migration onto it: the Pavilion it was for has failed (R554). -/
def State.abandonMove (s : State) (q : Nat) : State :=
  match s.isl.moving.find? fun m => m.2 == q with
  | some m =>
    let cause := match s.isl.down.find? fun d => d.isl == islPav m.1 with
      | some d => d.cause
      | none => 5
    (s.islMod fun x => { x with moving := x.moving.filter fun y => y != m }).islandFail (islPav m.1) cause noPartner
  | none => s

/-- How many resets within one second make an island fail (R542, R549). -/
def resetLimit (i : Nat) : Nat := if 76 ≤ i ∧ i < 84 then 3 else 4

def State.islandFault (s : State) (i cause : Nat) (srFail : Bool) : State :=
  let n := s.recentResets i + 1
  let stand := if 76 ≤ i ∧ i < 84 then s.standbyOf (i - 76) else none
  let s := if 76 ≤ i ∧ i < 84 then s.abandonMove (i - 76) else s
  let s := s.resetIsland i stand.isSome srFail
  let s := s.islMod fun x => { x with
    down := ⟨i, s.dtime, cause⟩ :: x.down
    history := (i, s.dtime) :: x.history.filter fun h => decide (s.dtime < h.2 + 1000000000)
    replays := x.replays.filter (fun y => y.1 % 108 != i), expect := x.expect.filter fun y => y.1 % 108 != i }
  let s := match stand with
    | some q => (s.islMod fun x => { x with moving := (i - 76, q) :: x.moving }).postIsland i 0 cause noPartner 0 0
    | none => if resetLimit i ≤ n then s.islandFail i 5 noPartner else s.postIsland i 0 cause noPartner 0 (exposedFrom i s.dtime)
  s.syncDegraded.syncFault

/-- The number of link k into island i. -/
def flitKey (i k : Nat) : Nat := i + 108 * k

/-- A link fault is one once the first flit and three replays of it have been rejected on one of the island's links. -/
def State.faultDue (s : State) (i cause : Nat) : Bool :=
  s.islandsRun && s.islUp i && i != 103 &&
  (cause == 1 || cause == 3 || cause == 2 && s.isl.replays.any fun x => x.1 % 108 == i && decide (4 ≤ x.2))

def execIslandFaultDetected (now : Nat) (isl : Fin 108) (cause : Nat) (srFail : Bool) (s : State) : Out :=
  .next ((s.tick now).when (s.faultDue isl.val cause) fun s => s.islandFault isl.val cause srFail)

/-- A flit on link k of island i with bad parity or out of order is not delivered and is replayed; a good one ends the replays.
DESIGN CHOICE (assumption 84): the number a link expects begins at 0, again after a fault of its island, goes up by one a good flit and
counts modulo 256. -/
def State.flit (s : State) (i k : Nat) (parityBad : Bool) (seq : Nat) : State :=
  let key := flitKey i k
  if parityBad ∨ seq ≠ tget (fun _ => 0) s.isl.expect key then
    s.islMod fun x => { x with replays := tset (fun _ => 0) x.replays key (tget (fun _ => 0) x.replays key + 1) }
  else s.islMod fun x => { x with
    expect := tset (fun _ => 0) x.expect key ((seq + 1) % 256), replays := tset (fun _ => 0) x.replays key 0 }

def execPromenadeFlitReject (now : Nat) (isl : IslandLink) (parityBad : Bool) (seq : Nat) (s : State) : Out :=
  .next ((s.tick now).when (s.islandsRun && s.islUp isl.isl.val) fun s => s.flit isl.isl.val isl.link parityBad seq)

/-! ### Release (R542 to R544, R549) -/

/-- A timeline composes again from the next frame whose prefetch point is still to come. -/
def State.composeAgain (s : State) (t : Nat) : State :=
  let late := decide (s.toLine0 t ≤ 32)
  s.scanMod t fun x => if x.started then { x with compNext := true, compY := if late then s.vactive t else 0 } else x

/-- The admission figures from the active banks and the accepted commits in order (R239, R544). -/
def State.rebuildAdmission (s : State) : State :=
  let ts := (List.range 16).filter fun t => (timingBy s.rd t).live
  let s := ts.foldl (fun s t => s.setAdmAt t { pend := ((s.tlcAt t).live.map fun c => (c.order, c.mode)) ++ (s.admAt t).pend }) s
  let figs := ts.map fun t =>
    let img := s.projected t
    (t, s.trialFigs s.rd t (s.layersIn true t) (s.variants t img) (s.specOn t) false)
  let tot := s.caseTotals s.rd figs
  let s := figs.foldl (fun s x => s.storeCase ⟨x.1, s.specOn x.1, x.2.1, x.2.2.1, x.2.2.2.getD 0, tot⟩ none) s
  (ts.foldl (fun s t => s.setMode s.rd t (s.specOn t)) (s.showTotals tot)).ogSync

def State.carouselBack (s : State) : State :=
  let s := s.carouselStart.rebuildAdmission
  ((s.shq.map (·.1)).foldl (fun s q => s.qServe q s.dtime (s.shqAt q).reqs) s).bellsRun

def State.igBack (s : State) (c : Nat) : State :=
  s.put (IG_STAT c) IG_STAT_STATE (if s.on (IG_CTRL c) IG_CTRL_EN then (if s.laneUp c then 1 else 3) else 0)

def State.gateBack (s : State) : State :=
  let s := s.fusedShown.put WT_FAULT WT_FAULT_STARTUP (b2n s.power.startup)
  let s := s.put WT_FAULT WT_FAULT_FAULT (b2n s.power.faultWas)
  let s := (List.range 24).foldl State.igBack s
  (List.range 16).foldl (fun s t => s.put (WT_SINK_STAT t) WT_SINK_STAT_ACTIVE (b2n (s.sinkActive t))) s

/-- FN_CTRL.LUT_EN shows whether the image holds an OUT_LUT of the timeline (R215). -/
def State.showLut (s : State) (t : Nat) : State := s.put (FN_CTRL t) FN_CTRL_LUT_EN (b2n (tget (fun _ => none) s.locket.luts t).isSome)

/-- What the release of island i brings back. -/
def State.islandBack (s : State) (i : Nat) : State :=
  if i < 48 then s
  else if i < 64 then ((s.showUp (i - 48)).useLanded (i - 48)).showLut (i - 48)
  else if i < 76 then s
  else if i < 84 then [2 * s.pvHome (i - 76), 2 * s.pvHome (i - 76) + 1].foldl State.composeAgain s
  else if i < 92 then (if s.dramReady then s.subServe (i - 84) else s)
  else if i < 100 then s
  else if i = islDma then s.dmaFlush.blitFlush.dmaAgain.blitAgain
  else if i = islCarousel then s.carouselBack
  else if i = islGate then s.gateBack
  else if i = islXspi then s.put XS_STAT XS_STAT_FLASH1 (s.get GH_LED_STAT GH_LED_STAT_FLASH1)
  else s

def State.downOf (s : State) (i : Nat) : Option IslandDown := s.isl.down.find? fun d => d.isl == i

def State.islandRelease (s : State) (d : IslandDown) (ok : Bool) : State :=
  let s := if ok then
      let s := (s.islMod fun x => { x with down := x.down.filter fun y => y.isl != d.isl }).islandBack d.isl
      s.postIsland d.isl 1 d.cause noPartner ((s.dtime - d.since) / 1000) (exposedFrom d.isl d.since)
    else s.islandFail d.isl 4 noPartner
  s.syncDegraded.syncFault

/-- An island leaves reset when its time is over; `ok` says whether the check against the restore store passed.  A Pavilion that
migrates stays down. -/
def execIslandRelease (now : Nat) (isl : Fin 108) (ok : Bool) (s : State) : Out :=
  let s := s.tick now
  .next (match s.downOf isl.val with
    | some d =>
      s.when (s.islandsRun && d.cause != 0 && decide (d.since + islandUs isl.val * 1000 ≤ s.dtime) && !s.isl.moving.any fun m => islPav m.1 == isl.val) fun s =>
        s.islandRelease d ok
    | none => s)

/-! ### Migration (R547, R548) -/

/-- The bank words, entry copies and budgets of Pavilion p go to Pavilion q, slot by slot. -/
def State.copyBanks (s : State) (p q : Nat) : State :=
  let s := (List.range 12).foldl (fun s n =>
    [false, true].foldl (fun s active =>
      let from_ := 12 * p + n
      let dst := 12 * q + n
      ((s.writeWords dst active 0 (s.bankWords from_ active)).setEntAt (bankKey dst active) (s.entAt (bankKey from_ active))).setBudAt
        (bankKey dst active) (s.budAt (bankKey from_ active))) s) s
  let at_ (v a : Nat) : Nat := 0x200000 + v * 0x1000 + a
  ((List.range 128).map (4 * ·)).foldl (fun s a => s.wr (at_ q a) (s.rd (at_ p a))) s

def State.migrate (s : State) (p q : Nat) : State :=
  let cause := match s.downOf (islPav p) with
    | some d => d.cause
    | none => 1
  let sealed := [2 * p, 2 * p + 1].filter s.sealed
  let s := s.copyBanks p q
  let s := s.islMod fun x => { x with moving := x.moving.filter (fun m => m != (p, q)), standFor := (p, q) :: x.standFor }
  let s := sealed.foldl (fun s t => s.setSealed t true) s
  let s := s.islandFail (islPav p) cause q
  ([2 * p, 2 * p + 1].foldl State.composeAgain s).syncDegraded

def execMigrationComplete (now : Nat) (pv : Fin 8) (s : State) : Out :=
  let s := s.tick now
  .next (match s.isl.moving.find? fun m => m.1 == pv.val with
    | some m => s.when (s.islandsRun && s.islUp (islPav m.2)) fun s => s.migrate m.1 m.2
    | none => s)

/-! ### PERSTn_N (R561) -/

/-- The assertion resets the port's island, which keeps its retained state; it is not the reset of a faulty island, and posts no
ISLAND_STATE. -/
def execPerstAssert (now : Nat) (p : Fin 4) (s : State) : Out :=
  .next ((s.tick now).when (!s.power.perst.contains p.val) fun s =>
    let s := { s with power := { s.power with perst := p.val :: s.power.perst } }
    if s.islandsRun && s.islUp (islHost p.val) then s.hostReset p.val else s)

def execPerstRelease (now : Nat) (p : Fin 4) (s : State) : Out :=
  .next ((s.tick now).when (s.power.perst.contains p.val) fun s =>
    { s with power := { s.power with perst := s.power.perst.filter (· != p.val) } })

end Sys2Proof.Machine
end

