-- ==== Sys2Proof/Machine/Recover.lean ====
section
/-!
DEFINITION. Hub readiness (R43), and WARMRST_N: its assertion in each power state (R27, R60, R63, R447, R501, R551) and the recovery
(R282, R552, R553).
-/

namespace Sys2Proof.Machine

/-! ### WARMRST_N in WAKING (R63) -/

/-- The start sequence begins again at slot selection; without PLL lock it still waits for that. -/
def State.startAgain (s : State) : State :=
  let s := s.sesClose.dropLoad.freshStart
  let boot := { Boot.reset with phase := s.boot.phase, devs := s.boot.devs, startAt := s.boot.startAt, cause := s.boot.cause }
  let s : State := { s with
    boot := boot, capture := [], isl := Islands.reset, link := [], posted := [], lane := [], degr := ⟨[], [], []⟩,
    power := { s.power with startup := true, degraded := false }
    park := { Park.reset with held := s.park.held, heldAt := s.park.heldAt, wakeAt := s.park.wakeAt } }
  let s := s.put SY_PARK_CTRL SY_PARK_CTRL_PARKING 0
  let warm := s.get SY_BOOT_STAT SY_BOOT_STAT_WARM
  let s := (s.wrN SY_BOOT_STAT 0).put SY_BOOT_STAT SY_BOOT_STAT_BOOTSEL s.power.bootsel
  let s := (s.put SY_BOOT_STAT SY_BOOT_STAT_COMPAT (b2n s.power.compat)).put SY_BOOT_STAT SY_BOOT_STAT_WARM warm
  let s := ([1, 2, 3, 4, 5] : List Nat).foldl (fun s n => s.wrN (SY_BOOT_MARK n) 0) s
  let s := s.put WT_FAULT WT_FAULT_STARTUP 1
  if s.boot.phase = .pll then s else s.ledgerStart.search false

/-- Local DDR5 goes into self-refresh when it is in service; a DDR5 that neither serves nor refreshes itself loses its content. -/
def State.warmWaking (s : State) : State :=
  let s := if s.dramReady then s.restAll
    else if s.power.sr then s
    else { (s.lose onChipAll) with power := { s.power with assetDig := none } }
  (allPorts.foldl (fun s p => s.bumpMod (HP_EPOCH p) HP_EPOCH_EPOCH 1) s).startAgain.syncFault

/-! ### WARMRST_N in LIT (R447, R551, R553) -/

def State.contTls (s : State) : List Nat := (s.locket.roles.filter (·.cont)).map (·.tl)

/-- The islands that WARMRST_N resets in LIT. -/
def State.warmIslands (s : State) : List Nat :=
  let cs := s.contTls
  let quads := (cs.flatMap s.linksOf).map fun l => l / 4
  (List.range 108).filter fun i =>
    if inRange 48 64 i then !cs.contains (i - 48)
    else if inRange 64 76 i then !quads.contains (i - 64)
    else i != islFabric && i != 103 && i != islGate && i != islCan 0 && i != islCan 1

/-- Complete entries are written and acknowledged; an entry still incomplete is not carried, so its bytes are undefined. -/
def State.warmQueue (s : State) (k : Nat) : State :=
  let d := s.dramAt k
  let s := (d.wq.filter fun e => !e.complete).foldl (fun s e => e.given.foldl (fun s o => s.wrFree (e.hpa + o) 1) s) s
  s.setDramAt k { d with wq := d.wq.filter (·.complete), waits := [] }

def State.warmDram (s : State) : State :=
  let s := if s.dramReady then ((List.range 8).foldl State.warmQueue s).restAll else s
  let s := (List.range 8).foldl State.subReset s
  s.put DR_STAT DR_STAT_READY 0

/-- A timeline that does not keep its timing: it stops, with PANEL_EN and BL_PWM held, and its links go down. -/
def State.warmStop (s : State) (t : Nat) : State :=
  let s := (s.linksOf t).foldl (fun s l => (s.put (OL_LSTAT l) OL_LSTAT_UP 0).setLinkAt l { OutLink.reset with sink := (s.linkAt l).sink }) s
  let s := (List.range 4).foldl (fun s n => if (s.wbAt n).cur.any fun f => f.tl == t then s.wbCut n else s) s
  let s := (s.pixelReset t).scanMod t fun x => { Scan.reset with panel := x.panel }
  ((s.wrN (TL_FRAME t) 0).wrN (TL_POS t) 0).put (WT_SINK_STAT t) WT_SINK_STAT_ACTIVE 0

/-- Commits that wait, and those whose sealing or hand-over was cut, are applied again from the journal in their order (R282); a sealed
bank stands in its bank image. -/
def TlCommits.again (q : TlCommits) : TlCommits :=
  let cut := match q.handover with
    | some h => h.orders
    | none => []
  { q with
    live := q.live.map fun c => if c.state = .sealed ∧ !cut.contains c.order then c else { c with state := .waiting }
    image := none, handover := none, noMerge := q.noMerge && q.handover.isNone, undo := none }

def State.warmLit (s : State) : State :=
  let s := s.sesClose
  let s := (s.put SY_PARK_CTRL SY_PARK_CTRL_PARKING 0).put SY_PARK_CTRL SY_PARK_CTRL_REQ 0
  let is := s.warmIslands
  let stopped := (List.range 16).filter fun t => is.contains (islPixel t)
  let s := { s with power := { s.power with state := .waking, degraded := false }, park := { Park.reset with wakeAt := s.park.wakeAt } }
  let s := s.postPstate 3 2 3
  let s := (List.range 48).foldl (fun s l => s.resetIsland l true false) s
  let s := (List.range 8).foldl (fun s p => s.pavReset p true) s
  let s := stopped.foldl State.warmStop s
  let s := s.warmDram.dmaReset.carouselReset.xspiReset
  let s := allPorts.foldl State.hostReset s
  let s : State := { s with
    tlc := (s.tlc.map fun x => (x.1, x.2.again)).filter fun x => x.2 != TlCommits.reset
    ports := (s.ports.map fun x => (x.1, { x.2 with ready := false })).filter fun x => x.2 != Port.reset
    degr := { s.degr with watch := s.degr.watch.filter s.contTls.contains, bezel := s.degr.bezel.filter s.contTls.contains }
    boot := { s.boot with phase := .loaded, recover := true, cause := 3 } }
  let s := s.islMod fun x => { x with down := (is.filter fun i => !x.failed.contains i).map fun i => ⟨i, s.dtime, 0⟩, moving := [] }
  (s.put SY_BOOT_STAT SY_BOOT_STAT_READY 0).syncFault

/-- WARMRST_N asserted for more than its glitch filter's 1 µs (R60, R63, R551).  In PARKED it is a wake event.  A park request of the same
always-on cycle is discarded (R563). -/
def State.warmrst (s : State) : State :=
  match s.power.state with
  | .off => s
  | .parked => s.wakeEvent SY_WAKE_STAT_WARMRST
  | .waking => ({ s.heldUndo with power := { s.power with warm := true, warmAt := some s.dtime } } : State).warmWaking
  | .lit => ({ s with power := { s.power with warm := true, warmAt := some s.dtime } } : State).warmLit

def execWarmrstNAssert (now : Nat) (width : Nat) (s : State) : Out :=
  .next ((s.tick now).when (decide (1000 < width) && !s.power.warm) State.warmrst)

/-! ### The recovery (R552) -/

/-- The first failure of the running slot, read again: header, table, signature, STRUCT and the second group. -/
def State.runningFail (s : State) : Option LoadFail :=
  let k := s.locket.slot
  let h := s.locketHdr k
  match hdrFail s.power.compat h with
  | some f => some f
  | none => match tabFail (fieldAt h 4 2) (slotArea k).2 h (s.locketTab k) with
    | some f => some f
    | none => match s.sigFail k with
      | some f => some f
      | none => ((s.readSecs k).filter fun e => e.type == 1 || decide (4 ≤ e.type)).findSome? fun e => s.secFail k e

/-- The register pairs of the running slot's STRUCT. -/
def State.structPairs (s : State) : List (Nat × Nat) :=
  let k := s.locket.slot
  match (s.readSecs k).find? fun e => e.type == 1 with
  | some e => match framing e (s.secBytes k e) with
    | .inr rs => (rs.filter fun r => r.type == 0x0101).flatMap fun r => pairsOf r.body 0 (r.body.length / 8)
    | .inl _ => []
  | none => []

/-- A pair of STRUCT goes to a register of a reset island; the banks come from their images. -/
def State.pairAgain (s : State) (p : Nat × Nat) : State :=
  match islandOf p.1, rowAt p.1 with
  | some i, some r => if !s.islUp i && r.banking == .plain then s.loadPair false p.1 p.2 else s
  | _, _ => s

/-- The reset islands leave reset but for the Pavilions, which wait for their bank images; links whose sinks were noticed train. -/
def State.recoverStart (s : State) : State :=
  let s := s.structPairs.foldl State.pairAgain s
  let s := s.islMod fun x => { x with down := x.down.filter fun d => inRange 76 84 d.isl }
  let s := s.put XS_STAT XS_STAT_FLASH1 (s.get GH_LED_STAT GH_LED_STAT_FLASH1)
  (List.range 48).foldl State.trainFirst s

/-- The release of WARMRST_N: the running slot is verified again, or the slot search runs in full. -/
def State.warmRelease (s : State) : State :=
  let s := { s with power := { s.power with warm := false } }
  if s.boot.recover then
    match s.runningFail with
    | some f => (s.noteFail s.locket.slot f).startAgain.syncFault
    | none => s.recoverStart
  else s

def execWarmrstNRelease (now : Nat) (s : State) : Out := .next ((s.tick now).when s.power.warm State.warmRelease)

/-! ### Hub readiness -/

/-- Hub readiness in the recovery: the surface table is kept, the bank images are in the Pavilions, the journal goes on, and continuity
timelines are composed again. -/
def State.recoverReady (s : State) : State :=
  let s := s.portsReady.put SY_BOOT_STAT SY_BOOT_STAT_READY 1
  let s := { s with boot := { s.boot with recover := false, assetTry := min s.boot.assetTry 1 } }
  let s := s.islMod fun x => { x with down := x.down.filter fun d => d.cause != 0 }
  let s := s.carouselBack.dmaFlush.blitFlush
  let s := (List.range 16).foldl State.composeAgain s
  let s := s.enabledTls.foldl State.panelUp s
  (s.wrN GH_CFG_REF s.cfgCrc).checkLit.checkStartup

def execHubReadiness (now : Nat) (s : State) : Out :=
  .next ((s.tick now).when s.readyMay fun s => if s.boot.recover then s.recoverReady else s.hubReady)

end Sys2Proof.Machine
end

