-- ==== Sys2Proof/Machine/RegWrite.lean ====
section
/-!
DEFINITION. Register writes as a whole: the effect of a write on the register it lands in, posted writes and sealed banks (R10, R105, R123,
R289, R291, R369, R392, R492, R496), and register reads with what they compute or reset (R489, R493, R521,
R523).
-/

namespace Sys2Proof.Machine

/-! ### Reads (R489, R493, R521, R523) -/

/-- The words of the coefficient bank and output LUT of R221 and R226, as their CRC registers show them. -/
def State.lutCrc (s : State) (t : Nat) : Nat :=
  if s.on (FN_CTRL t) FN_CTRL_LUT_EN then
    let ident := (List.range 1025).map fun i => min (4 * i) 4095
    let l := (tget (fun _ => none) s.locket.luts t).getD (ident, ident, ident)
    crc32c ((l.1 ++ l.2.1 ++ l.2.2).flatMap (leBytes 2))
  else 0

/-- The seconds of maker access left (R506). -/
def State.leftS (s : State) : Nat := if s.gate.scope = 0 then 0 else min 65535 ((s.gate.scopeEnd - s.dtime) / 1000000000)

def State.queueWait (s : State) (q : Nat) : Nat :=
  match (s.shqAt q).elig with
  | some e => min (e - s.dtime) 0xFFFFFFFF
  | none => 0

/-- Queues parked on the wheel (R407). -/
def State.parkedQueues (s : State) : Nat := (s.shq.filter fun x => x.2.elig.isSome).length

/-- The word of a register as it stands, where the hub computes it when it is read. -/
def State.liveWord (s : State) (src : Src) (a : Nat) : Word :=
  let q := (a - 0x801000) / 0x20
  let p := (a - 0xA00000) / 0x10000
  let v := (a - 0x200000) / 0x1000
  let t := (a - 0x400000) / 0x1000
  if a = SY_PSTATE then BitVec.ofNat 32 (s.power.state.code + 4 * b2n s.power.degraded + 8 * b2n s.faultLow)
  else if a = SY_DTIME_LO then BitVec.ofNat 32 s.dtime
  else if a = SY_DTIME_HI then BitVec.ofNat 32 (s.captureAt (srcCode src))
  else if a = GH_TOK_STAT then putField (s.rd a) GH_TOK_STAT_LEFT_S s.leftS
  else if a = CA_WHEEL then putField (BitVec.ofNat 32 (s.dtime / 32 % 4096)) CA_WHEEL_PARKED s.parkedQueues
  else if inRange 0x801000 0x803000 a && a == CA_Q_DEBT q then BitVec.ofNat 32 (min (s.qDebt q s.dtime / micro) 0xFFFFFFFF)
  else if inRange 0x801000 0x803000 a && a == CA_Q_WAIT q then BitVec.ofNat 32 (s.queueWait q)
  else if inRange 0xA00000 0xA40000 a && a == HP_EV_STAT p then
    putField (putField (s.rd a) HP_EV_STAT_FULL (b2n (decide (2 ^ s.evLog2 p ≤ s.evUsed p)))) HP_EV_STAT_BACKLOG
      (b2n (!(s.evAt p).backlog.isEmpty))
  else if inRange 0x200000 0x208000 a && inRange 0x240 0x260 (a % 0x1000) then
    BitVec.ofNat 32 (crc32c (s.coefBank v ((a % 0x1000 - 0x240) / 4)).bytes)
  else if inRange 0x400000 0x410000 a && a == FN_LUT_CRC t then BitVec.ofNat 32 (s.lutCrc t)
  else if inRange 0xB01000 0xB010C0 a then (s.laneSync ((a - 0xB01000) / 4)).rd a
  else if inRange 0x700000 0x700300 a && a % 0x80 == 0x18 then 0
  else s.shown a

/-- What a read changes: the capture of SY_DTIME_HI, and the PEAK fields, which begin again at the present count. -/
def State.readEffect (s : State) (src : Src) (a : Nat) : State :=
  if a = SY_DTIME_LO then s.setCaptureAt (srcCode src) (s.dtime / 2 ^ 32 % 2 ^ 32)
  else if a = DM_STAGE then s.put a DM_STAGE_PEAK (s.get a DM_STAGE_INUSE)
  else if inRange 0x901000 0x901800 a && a % 0x100 == 0x18 then s.put a DR_SC_WQ_PEAK (s.get a DR_SC_WQ_USED)
  else s

/-- A register read of a source: the word it returns, and the state after it.  What a read of an island in reset returns is open. -/
def State.regRead (s : State) (src : Src) (addr : Nat) : Word × State :=
  let a := s.aliasAddr addr
  match rowAt a with
  | none => (0, s)
  | some _ =>
    if a % 4 ≠ 0 ∨ s.mayRead src (s.homeAddr a) = false ∨ absentSub s a = true then (0, s)
    else if s.delivers a then (s.liveWord src a, s.readEffect src a)
    else
      let (x, s) := s.drawHalf
      let (y, s) := s.drawHalf
      (BitVec.ofNat 32 (x + 65536 * y), s)

/-- A read's answer reaches its source: a host port sends its completion. -/
def State.answer (s : State) (src : Src) (w : Word) : State :=
  let s := { s with lastRead := tset (fun _ => 0) s.lastRead (srcCode src) w.toNat }
  match src with
  | .host p => s.toHost p.val (.completion (leBytes 4 w.toNat) false)
  | _ => s

/-- A register read: a host port's waits behind the posted writes that the port sent before it (R399). -/
def State.readNow (s : State) (src : Src) (a : Nat) : State :=
  s.when (s.srcUp src) fun s =>
    match src, s.writesWait src with
    | .host p, true => { s with hostReads := s.hostReads ++ [(p.val, a)] }
    | _, _ => let x := s.regRead src a; x.2.answer src x.1

/-- The reads that waited and whose port holds no earlier write any more complete in their order. -/
def State.readsRun (s : State) : State :=
  let waits (r : Nat × Nat) : Bool := s.writesWait (.host (Fin.ofNat 4 r.1))
  let due := s.hostReads.filter fun r => !waits r
  due.foldl (fun s r => let x := s.regRead (.host (Fin.ofNat 4 r.1)) r.2; x.2.answer (.host (Fin.ofNat 4 r.1)) x.1)
    { s with hostReads := s.hostReads.filter waits }

/-- From s to x policer k has let go of a packet that it held, while n arrived: doorbells (R133) and reads (R399) behind it follow. -/
def State.polFreed (s : State) (k n : Nat) (x : State) : State :=
  if (s.polAt k).held ≠ [] ∧ (x.polAt k).held.length < (s.polAt k).held.length + n then x.bellsRun.readsRun else x

/-! ### Where a landed write acts, block by block -/

/-- The system and Gatehouse registers. -/
def State.landGate (s : State) (src : Src) (a : Nat) (w : Word) (r : RegRow) : State :=
  if a = SY_PARK_CTRL then s.parkCtrl w
  else if a = SY_BOOT_CTRL then s.bootCtrl w
  else if a = GH_SES_CTRL then s.sesCtrl w
  else if a = GH_LOCK then s.lockHard w
  else if a = GH_IKH_CTRL then s.ikhProgram w
  else if a = GH_CFG_CTRL then s.cfgGo w
  else if a = GH_TOK_CTRL then s.tokenCtrl src w
  else s.landWrite a w r

/-- The timeline of a finisher or timeline register. -/
def tlOfAddr (a : Nat) : Nat :=
  if a < 0x400000 then (a - 0x100000) / 0x1000 else if a < 0x440000 then (a - 0x400000) / 0x1000
  else if a < 0x480000 then (a - 0x440000) / 0x4000 else (a - 0x480000) / 0x400

/-- A register that a timeline takes at its latch is in force at once while the timeline has not started (R319). -/
def State.useSoon (s : State) (a : Nat) : State :=
  let t := tlOfAddr a
  if !(s.scanAt t).started && (useAddrs t).contains a then s.wrUse a (s.rd a) else s

/-- TL_CTRL.EN brings the panel up or down (R119); at an enable no re-seat has been made (R106). -/
def State.enMoved (s : State) (t : Nat) (was : Bool) : State :=
  if s.tlOn t && !was then (s.put (TL_RSEAT t) TL_RSEAT_STATUS 0).panelUp t else if !s.tlOn t && was then s.panelDown t else s

/-- A timeline register: while the timeline is enabled, timing and routing land in the re-seat shadow alone (R105). -/
def State.landTl (s : State) (a : Nat) (w : Word) (r : RegRow) : State :=
  let t := tlOfAddr a
  if a = TL_RSEAT t then s.reseatGo t w
  else if s.toShadow a then
    s.wr (shadowOf a) (landWord (s.rd (shadowOf a)) w r)
  else
    let was := s.tlOn t
    let s := s.landWrite a w r
    let s := if shadowed a then s.wr (shadowOf a) (s.rd a) else s
    if a = TL_CTRL t then ((s.useSoon a).enMoved t was).asShow t else if a = TL_AS t then s.asShow t else s

/-- Pavilion and layer-slot registers: a surface named in a pending bank comes into use (R156). -/
def State.landPav (s : State) (src : Src) (a : Nat) (w : Word) (r : RegRow) : State :=
  let p := (a - 0x200000) / 0x1000
  if a = PV_SEAL p 0 ∨ a = PV_SEAL p 1 then s.sealWrite src (2 * s.pvHome p + (a - PV_SEAL p 0) / 4) w
  else
    let s := s.landWrite a w r
    let h := s.rdN a
    let e := s.surfAt (handleIndex h)
    if a = LY_SURF ((a - 0x210000) / 0x400) && e.valid && namesIndex (handleIndex h) e h then s.markUse (handleIndex h) else s

/-- WB_CTRL (R122, R123): DEPTH 10 with FMT 0 is refused, and clearing EN leaves the frame incomplete. -/
def State.wbCtrl (s : State) (n : Nat) (w : Word) (r : RegRow) : State :=
  let was := s.on (WB_CTRL n) WB_CTRL_EN
  let on := getField w WB_CTRL_EN == 1
  let s := if on && s.depth (getField w WB_CTRL_TL) == 10 && getField w WB_CTRL_FMT == 0 then s.put (WB_CTRL n) WB_CTRL_EN 0
    else s.landWrite (WB_CTRL n) w r
  if was && !s.on (WB_CTRL n) WB_CTRL_EN then s.wbCut n else s

/-- Finisher, writeback, Bezel and watch registers. -/
def State.landFin (s : State) (a : Nat) (w : Word) (r : RegRow) : State :=
  if a = WT_FAULT ∨ a = WT_FTL then s.faultWrite a w
  else if inRange 0x410000 0x410400 a then
    let n := (a - 0x410000) / 0x100
    if a = WB_CTRL n then s.wbCtrl n w r else s.landWrite a w r
  else
    let s := s.landWrite a w r
    if inRange 0x4C0000 0x4D0000 a then
      let t := (a - WT_SINK_CTRL 0) / 8
      if a = WT_SINK_CTRL t then s.put (WT_SINK_STAT t) WT_SINK_STAT_ACTIVE (b2n (s.sinkActive t)) else s
    else s.useSoon a

/-- DMA and blit registers: configuration waits for a channel at rest (R369, R392). -/
def State.landEng (s : State) (src : Src) (a : Nat) (w : Word) (r : RegRow) : State :=
  if a < 0x601000 then
    let c := (a - 0x600000) / 0x80
    if a = DM_CTRL c then s.dmCtrl c w false
    else if a = DM_DB c then s.dmDb src c w
    else if [DM_BASE_LO c, DM_BASE_HI c, DM_CFG c].contains a && [1, 2, 3].contains (s.dmState c) then s.put (DM_STAT c) DM_STAT_CFG_IGN 1
    else s.landWrite a w r
  else if 0x700000 ≤ a then
    let c := (a - 0x700000) / 0x80
    if a = BL_CTRL c then s.blCtrl c w false
    else if a = BL_DB c then s.blDb src c w
    else if a = BL_ROWT c ∧ c < 6 then s
    else if [BL_RING_LO c, BL_RING_HI c, BL_CFG c].contains a && [2, 3].contains (s.blState c) then s.put (BL_STAT c) BL_STAT_CFG_IGN 1
    else s.landWrite a w r
  else s.landWrite a w r

/-- Carousel registers (R395, R409, R411) and DDR5 registers. -/
def State.landMem (s : State) (a : Nat) (w : Word) (r : RegRow) : State :=
  let q := (a - 0x801000) / 0x20
  let k := (a - 0x800000) / 0x40
  if inRange 0x801000 0x803000 a then
    if a = CA_Q_RATE q then s.qRateWrite q w
    else if a = CA_Q_CTRL q ∨ a = CA_Q_CONTRACT q ∨ a = CA_Q_LIM q then (s.landWrite a w r).qContractLanded q
    else s.landWrite a w r
  else if inRange 0x800000 0x800200 a then s.polFreed k 0 (((s.polDue k).landWrite a w r).polDue k)
  else s.landWrite a w r

/-- Host port, MSI-X, ingest, CAN and supervisor registers. -/
def State.landPort (s : State) (src : Src) (a : Nat) (w : Word) (r : RegRow) : State :=
  let p := (a - 0xA00000) / 0x10000
  let k := (a - HP_CR_CTRL p 0) / 0x20
  let c := (a - 0xB00000) / 0x80
  let n := (a - 0xD00000) / 0x100
  let e := (a - 0xF00000) / 0x1000
  if inRange 0xA00000 0xA40000 a then
    if a = HP_EV_CTRL p then s.evCtrl p w
    else if a = HP_SF_CMD p then s.sfCmd p w
    else if k < 8 ∧ a = HP_CR_CTRL p k then s.crCtrl src p k w
    else if k < 8 ∧ a = HP_CR_DB p k then s.crDb src p k w
    else s.landWrite a w r
  else if inRange 0xB00000 0xB00C00 a then
    if a = IG_CTRL c then
      let was := s.on a IG_CTRL_EN
      let s := s.landWrite a w r
      if was != s.on a IG_CTRL_EN && (s.igAt c).cur.isNone then s.igBack c else s
    else s.landWrite a w r
  else if inRange 0xD00400 0xD00800 a then (s.fltKeep a).landWrite a w r
  else if inRange 0xD00000 0xD00200 a && a == CN_CTRL n then (s.landWrite a w r).canCtrl n
  else if a = SM_SV_SIG then s.svSig w
  else if inRange 0xF00000 0xF04000 a && decide (0x800 ≤ a % 0x1000) then (s.landWrite a w r).msixUnmask e
  else s.landWrite a w r

/-- The effect of a write that passed every check, in the register it reaches. -/
def State.landed (s : State) (src : Src) (a : Nat) (w : Word) (r : RegRow) : State :=
  if a < 0x100000 then s.landGate src a w r
  else if a < 0x200000 then s.landTl a w r
  else if a < 0x400000 then s.landPav src a w r
  else if a < 0x500000 then s.landFin a w r
  else if a < 0x600000 then
    let s := s.landWrite a w r
    if a = OG_POOL then s.poolMoved else s
  else if a < 0x800000 then s.landEng src a w r
  else if a < 0xA00000 then s.landMem a w r
  else s.landPort src a w r

/-! ### The write (R492, R496) -/

/-- A register write of any source, with the answer its source gets.  XS_CMD has checks of its own (R500). -/
def State.regWrite (s : State) (src : Src) (addr value : Nat) : State × RStat :=
  let a := s.aliasAddr addr
  if a = XS_CMD then s.xsWrite src value
  else
    match decideWrite State.admChange s src a value with
    | .inl r => r
    | .inr (s, w, r) => if r.posted then (s.postWrite src a w, .ok) else (s.landed src a w r, .ok)

def execRegisterWrite (now : Nat) (src : Src) (addr value : Nat) (s : State) : Out := .next ((s.tick now).regWrite src addr value).1

/-- A posted write that reaches a bank: discarded during a hand-over or against a sealed bank. -/
def State.bankLands (s : State) (g : Nat) (p : Posted) (r : RegRow) : State :=
  let t := s.bankTl p.addr
  if (s.tlcAt t).handover.isSome then s.setLost g
  else if s.sealed t then (s.setBusy g false).setSealedWr p.addr
  else (s.setBusy g false).landed p.src p.addr (BitVec.ofNat 32 p.value) r

def State.postedLands (s : State) (g : Nat) (p : Posted) : State :=
  let s := s.setPostedAt g none
  match rowAt p.addr with
  | none => s.setBusy g false
  | some r =>
    if r.banking = .banked then s.bankLands g p r
    else (s.setBusy g false).landed p.src p.addr (BitVec.ofNat 32 p.value) r

def execPostedWriteLands (now : Nat) (group : Nat) (s : State) : Out :=
  let s := s.tick now
  .next (match s.postedAt group with
    | some p => s.when (s.delivers p.addr) fun s => s.postedLands group p
    | none => s)

/-! ### Commands of the policers, the backlog and the reads -/

/-- A request through BAR2 (R394): offset, length and traffic class of its packet. -/
def execPolicerPacket (now : Nat) (p : Fin 4) (read : Bool) (offset len tc : Nat) (data : List Byte) (s : State) : Out :=
  let s := s.tick now
  let k := 2 * p.val + b2n read
  .next (match s.bar2Hpa p.val offset with
    | none => s
    | some hpa =>
      if s.linkUp p.val && (s.portAt p.val).mse && !s.on (HP_LINK p.val) HP_LINK_D3 && s.islUp islCarousel then
        s.polFreed k 1 (s.polArrive k
          { len := if read then len else data.length, tc := tc, addr := hpa, data := if read then [] else data, rd := if read then len else 0 })
      else s)

/-- A held packet is released at its release time, and the packets behind it are coloured then (R396, R397); doorbells and reads that
waited for it follow (R133, R399). -/
def execRedPacketRelease (now : Nat) (i : Fin 8) (s : State) : Out := .next ((s.tick now).polDue i.val).bellsRun.readsRun

/-- Records leave the backlog; doorbells that waited for an entry act (R301). -/
def execEventRecordWrite (now : Nat) (p : Fin 4) (s : State) : Out :=
  .next ((s.tick now).when (s.evReady p.val) fun s => (s.evFlush p.val).bellsRun)

def execDtimeLoRead (now : Nat) (src : Src) (s : State) : Out := .next ((s.tick now).readNow src SY_DTIME_LO)

/-- Whether an address is one of the registers whose PEAK a read resets. -/
def peakAddr (a : Nat) : Bool := a == DM_STAGE || (List.range 8).any fun k => a == DR_SC_WQ k

def execPeakRead (now : Nat) (src : Src) (addr : Nat) (s : State) : Out :=
  .next ((s.tick now).when (peakAddr addr) fun s => s.readNow src addr)

end Sys2Proof.Machine
end

