-- ==== Sys2Proof/Machine/SvFrames.lean ====
section
/-!
DEFINITION. The supervisor port's frames (R476 to R480).
-/

namespace Sys2Proof.Machine

/-- The CRC-8 of R328. -/
def crc8 (bs : List Byte) : Nat := bs.foldl (crc8Byte 0x1D) 0xFF ^^^ 0xFF

/-- The MISO frame: the response to the frame before, and what the hub shows at the first SCK edge (R478). -/
def State.misoFrame (s : State) : List Byte :=
  let st := s.power.state.code + 4 * b2n s.power.degraded + 8 * b2n s.faultLow
  let b := [BitVec.ofNat 8 s.sv.rstat, BitVec.ofNat 8 s.sv.seq] ++ leBytes 4 s.sv.data ++ leBytes 2 (s.rdN WT_FAULT) ++
    [BitVec.ofNat 8 st, BitVec.ofNat 8 (s.get SV_HB_STAT SV_HB_STAT_HBCNT), 0]
  b ++ [BitVec.ofNat 8 (crc8 b)]

/-- The check that a frame fails (R480): its RSTAT, none when the frame may run. -/
def svFail (frame : List Byte) (bits : Nat) : Option Nat :=
  let cmd := fieldAt frame 0 1
  let addr := fieldAt frame 2 4
  if bits ≠ 96 ∨ frame.length ≠ 12 then some 2
  else if fieldAt frame 11 1 ≠ crc8 (frame.take 11) then some 1
  else if 2 < cmd ∨ addr % 4 ≠ 0 ∨ 2 ^ 26 ≤ addr ∨ (cmd ≠ 2 ∧ fieldAt frame 6 4 ≠ 0) then some 3
  else none

/-- The response that the next frame carries. -/
def State.respond (s : State) (rstat seq data : Nat) : State := { s with sv := { s.sv with rstat := rstat, seq := seq, data := data } }

/-- The result that a REPEAT of the frame just run gives again (R480). -/
def State.svResult (s : State) (data : Nat) : State := { s with sv := { s.sv with ldata := data } }

/-- A good frame is counted, kept for the REPEAT check, and counts as activity of the session (R480, R501). -/
def State.svRun (s : State) (frame : List Byte) : State :=
  let s := { s with sv := { s.sv with last := some (frame.take 11) }, gate := { s.gate with session := { s.gate.session with lastAt := s.dtime } } }
  s.bump SV_FRAME_CNT SV_FRAME_CNT_COUNT 1

/-- A frame that failed a check is counted by its kind. -/
def State.svBad (s : State) (rstat : Nat) : State :=
  if rstat = 1 then s.bump SV_ERR_CNT SV_ERR_CNT_CRC 1 else if rstat = 2 then s.bump SV_ERR_CNT SV_ERR_CNT_LEN 1 else s

/-- A supervisor frame whose command, when known, is `cmd`: it is checked, recognised when repeated, and run; `eff` answers RSTAT and
DATA. -/
def State.svFrame (s : State) (cmd : Nat) (frame : List Byte) (bits : Nat) (eff : State → State × Nat × Nat) : State :=
  if !s.svUp || !s.islUp islGate then s
  else
    let seq := fieldAt frame 1 1
    let s := { s with sv := { s.sv with miso := s.misoFrame } }
    match svFail frame bits with
    | some r => (s.svBad r).respond r seq 0
    | none =>
      if fieldAt frame 0 1 ≠ cmd then s
      else if s.sv.last = some (frame.take 11) then
        ({ s with gate := { s.gate with session := { s.gate.session with lastAt := s.dtime } } }).respond 6 seq s.sv.ldata
      else
        let x := eff (s.svRun frame)
        (x.1.svResult x.2.2).respond x.2.1 seq x.2.2

def execSvNop (now : Nat) (frame : List Byte) (bits : Nat) (s : State) : Out :=
  .next ((s.tick now).svFrame 0 frame bits fun s => (s, 0, 0))

/-- A READ whose value is not ready in time is not repeated (R479). -/
def execSvRead (now : Nat) (frame : List Byte) (bits : Nat) (ready : Bool) (s : State) : Out :=
  .next ((s.tick now).svFrame 1 frame bits fun s =>
    let x := s.regRead .sup (fieldAt frame 2 4)
    (x.2.answer .sup x.1, if ready then 0 else 5, if ready then x.1.toNat else 0))

def execSvWrite (now : Nat) (frame : List Byte) (bits : Nat) (s : State) : Out :=
  .next ((s.tick now).svFrame 2 frame bits fun s =>
    let x := s.regWrite .sup (fieldAt frame 2 4) (fieldAt frame 6 4)
    (x.1, x.2.code, 0))

end Sys2Proof.Machine
end

