-- ==== Sys2Proof/Machine/Families.lean ====
section
/-!
DEFINITION. Every family of meanings in one import, for the dispatcher.
-/
end

