-- ==== Sys2Proof/Machine/Dispatch.lean ====
section
/-!
DEFINITION. One arm per command.
-/

namespace Sys2Proof.Machine

def exec (i : Instr) (s : State) : Host.Outcome State Fault Refusal :=
  match i with
  | .porstNRelease now bootsel compat => Sys2Proof.Machine.execPorstNRelease now bootsel compat s
  | .porstNAssert now width => Sys2Proof.Machine.execPorstNAssert now width s
  | .pllLock now size0 size1 => Sys2Proof.Machine.execPllLock now size0 size1 s
  | .locketHeaderRead now => Sys2Proof.Machine.execLocketHeaderRead now s
  | .sectionTableRead now => Sys2Proof.Machine.execSectionTableRead now s
  | .signatureVerifyDone now => Sys2Proof.Machine.execSignatureVerifyDone now s
  | .sectionEnd now => Sys2Proof.Machine.execSectionEnd now s
  | .flashReadFail now => Sys2Proof.Machine.execFlashReadFail now s
  | .slotSearchRetry now => Sys2Proof.Machine.execSlotSearchRetry now s
  | .restart now src value => Sys2Proof.Machine.execRestart now src value s
  | .ddr5InService now eyeBad failed => Sys2Proof.Machine.execDdr5InService now eyeBad failed s
  | .hubReadiness now => Sys2Proof.Machine.execHubReadiness now s
  | .assetCopyDone now => Sys2Proof.Machine.execAssetCopyDone now s
  | .wakePin now cycles => Sys2Proof.Machine.execWakePin now cycles s
  | .supervisorWakeLine now low => Sys2Proof.Machine.execSupervisorWakeLine now low s
  | .warmrstNAssert now width => Sys2Proof.Machine.execWarmrstNAssert now width s
  | .warmrstNRelease now => Sys2Proof.Machine.execWarmrstNRelease now s
  | .supplyLoss now low => Sys2Proof.Machine.execSupplyLoss now low s
  | .supplyLossRestart now => Sys2Proof.Machine.execSupplyLossRestart now s
  | .parkRequest now src value => Sys2Proof.Machine.execParkRequest now src value s
  | .parkDrainComplete now => Sys2Proof.Machine.execParkDrainComplete now s
  | .drainExpiry now => Sys2Proof.Machine.execDrainExpiry now s
  | .parkPanelsDown now => Sys2Proof.Machine.execParkPanelsDown now s
  | .parkSnapshotDone now => Sys2Proof.Machine.execParkSnapshotDone now s
  | .parkSelfRefreshDone now => Sys2Proof.Machine.execParkSelfRefreshDone now s
  | .lineStart now t errs => Sys2Proof.Machine.execLineStart now t errs s
  | .latch now t => Sys2Proof.Machine.execLatch now t s
  | .handoverEnd now t => Sys2Proof.Machine.execHandoverEnd now t s
  | .reseatGo now src t value => Sys2Proof.Machine.execReseatGo now src t value s
  | .reseatCheckDone now t => Sys2Proof.Machine.execReseatCheckDone now t s
  | .genlockTimeout now t => Sys2Proof.Machine.execGenlockTimeout now t s
  | .hpdAssert now l => Sys2Proof.Machine.execHpdAssert now l s
  | .hpdLoss now l low => Sys2Proof.Machine.execHpdLoss now l low s
  | .irqHpd now l statusOk => Sys2Proof.Machine.execIrqHpd now l statusOk s
  | .aphyOutputLinkDown now l => Sys2Proof.Machine.execAphyOutputLinkDown now l s
  | .linkTrainingDone now l ok rate lanes fec maxLines sinkCrc => Sys2Proof.Machine.execLinkTrainingDone now l ok rate lanes fec maxLines sinkCrc s
  | .linkRetrainTimer now l => Sys2Proof.Machine.execLinkRetrainTimer now l s
  | .panelTpoffDone now t => Sys2Proof.Machine.execPanelTpoffDone now t s
  | .panelTponExpiry now t => Sys2Proof.Machine.execPanelTponExpiry now t s
  | .backlightOnExpiry now t => Sys2Proof.Machine.execBacklightOnExpiry now t s
  | .pwmPeriodEnd now t => Sys2Proof.Machine.execPwmPeriodEnd now t s
  | .backlightOffExpiry now t => Sys2Proof.Machine.execBacklightOffExpiry now t s
  | .panelVoffExpiry now t => Sys2Proof.Machine.execPanelVoffExpiry now t s
  | .wbFrameAcked now n => Sys2Proof.Machine.execWbFrameAcked now n s
  | .fetchGroupIssue now sl => Sys2Proof.Machine.execFetchGroupIssue now sl s
  | .fetchDataArrival now sl group bad host => Sys2Proof.Machine.execFetchDataArrival now sl group bad host s
  | .fetchDeadline now sl => Sys2Proof.Machine.execFetchDeadline now sl s
  | .raceTideDeadline now sl => Sys2Proof.Machine.execRaceTideDeadline now sl s
  | .watchRegionCompare now t r => Sys2Proof.Machine.execWatchRegionCompare now t r s
  | .flattenStart now t => Sys2Proof.Machine.execFlattenStart now t s
  | .flattenComplete now t lost => Sys2Proof.Machine.execFlattenComplete now t lost s
  | .sfCreate now p value => Sys2Proof.Machine.execSfCreate now p value s
  | .sfDestroy now p value => Sys2Proof.Machine.execSfDestroy now p value s
  | .sfRead now p value => Sys2Proof.Machine.execSfRead now p value s
  | .sfDestroyAll now p value => Sys2Proof.Machine.execSfDestroyAll now p value s
  | .surfaceRetire now index => Sys2Proof.Machine.execSurfaceRetire now index s
  | .commitDoorbell now src p r value => Sys2Proof.Machine.execCommitDoorbell now src p r value s
  | .crEnable now src p r value => Sys2Proof.Machine.execCrEnable now src p r value s
  | .commitEntryRead now p r res host badEntries => Sys2Proof.Machine.execCommitEntryRead now p r res host badEntries s
  | .commitAccept now p r copyFail => Sys2Proof.Machine.execCommitAccept now p r copyFail s
  | .commitLeaveWaiting now t => Sys2Proof.Machine.execCommitLeaveWaiting now t s
  | .notBeforeTarget now t => Sys2Proof.Machine.execNotBeforeTarget now t s
  | .commitSeal now t => Sys2Proof.Machine.execCommitSeal now t s
  | .fenceTimeout now t => Sys2Proof.Machine.execFenceTimeout now t s
  | .directSeal now src pv k value => Sys2Proof.Machine.execDirectSeal now src pv k value s
  | .evEnable now src p value => Sys2Proof.Machine.execEvEnable now src p value s
  | .eventRecordWrite now p => Sys2Proof.Machine.execEventRecordWrite now p s
  | .msixHoldoffExpiry now p v => Sys2Proof.Machine.execMsixHoldoffExpiry now p v s
  | .hostLinkDown now p => Sys2Proof.Machine.execHostLinkDown now p s
  | .hotReset now p => Sys2Proof.Machine.execHotReset now p s
  | .functionLevelReset now p => Sys2Proof.Machine.execFunctionLevelReset now p s
  | .perstAssert now p => Sys2Proof.Machine.execPerstAssert now p s
  | .hostLinkUp now p speed width => Sys2Proof.Machine.execHostLinkUp now p speed width s
  | .hostD3hot now p enter => Sys2Proof.Machine.execHostD3hot now p enter s
  | .policerPacket now p read offset len tc data => Sys2Proof.Machine.execPolicerPacket now p read offset len tc data s
  | .redPacketRelease now k => Sys2Proof.Machine.execRedPacketRelease now k s
  | .queueRequest now q req => Sys2Proof.Machine.execQueueRequest now q req s
  | .queueEligible now q => Sys2Proof.Machine.execQueueEligible now q s
  | .queueRateWrite now src q value => Sys2Proof.Machine.execQueueRateWrite now src q value s
  | .dramRead now hpa cls deadline => Sys2Proof.Machine.execDramRead now hpa cls deadline s
  | .dramWrite now hpa data cls deadline => Sys2Proof.Machine.execDramWrite now hpa data cls deadline s
  | .dramReadReturn now c id errs0 errs1 => Sys2Proof.Machine.execDramReadReturn now c id errs0 errs1 s
  | .writeCrcAlert now c id => Sys2Proof.Machine.execWriteCrcAlert now c id s
  | .dramWriteAck now who => Sys2Proof.Machine.execDramWriteAck now who s
  | .writeBatchStart now c => Sys2Proof.Machine.execWriteBatchStart now c s
  | .rowIdleClose now c rank bank => Sys2Proof.Machine.execRowIdleClose now c rank bank s
  | .refreshTick now c rank => Sys2Proof.Machine.execRefreshTick now c rank s
  | .mr4Poll now c rates => Sys2Proof.Machine.execMr4Poll now c rates s
  | .tempCrossing now c temp => Sys2Proof.Machine.execTempCrossing now c temp s
  | .patrolScrub now hpa errs0 errs1 => Sys2Proof.Machine.execPatrolScrub now hpa errs0 errs1 s
  | .retrainStep now c rank changed => Sys2Proof.Machine.execRetrainStep now c rank changed s
  | .ingestFrameStart now c num => Sys2Proof.Machine.execIngestFrameStart now c num s
  | .ingestLongPacket now c dt payload crcOk => Sys2Proof.Machine.execIngestLongPacket now c dt payload crcOk s
  | .ingestIgnoredPacket now c => Sys2Proof.Machine.execIngestIgnoredPacket now c s
  | .ingestFrameEnd now c => Sys2Proof.Machine.execIngestFrameEnd now c s
  | .ingestFrameComplete now c => Sys2Proof.Machine.execIngestFrameComplete now c s
  | .ingestLinkDown now l => Sys2Proof.Machine.execIngestLinkDown now l s
  | .canFrameEnd now n frame => Sys2Proof.Machine.execCanFrameEnd now n frame s
  | .canBusJoin now n => Sys2Proof.Machine.execCanBusJoin now n s
  | .signalGroupFrame now n => Sys2Proof.Machine.execSignalGroupFrame now n s
  | .smSvSig now src value => Sys2Proof.Machine.execSmSvSig now src value s
  | .signalTimeout now sig => Sys2Proof.Machine.execSignalTimeout now sig s
  | .sinkCrcRead now t crcs count => Sys2Proof.Machine.execSinkCrcRead now t crcs count s
  | .svHbEdge now => Sys2Proof.Machine.execSvHbEdge now s
  | .heartbeatLoss now => Sys2Proof.Machine.execHeartbeatLoss now s
  | .wtFaultClear now src which value => Sys2Proof.Machine.execWtFaultClear now src which value s
  | .htTick now n => Sys2Proof.Machine.execHtTick now n s
  | .dmaStart now src c value => Sys2Proof.Machine.execDmaStart now src c value s
  | .dmaAbort now src c value => Sys2Proof.Machine.execDmaAbort now src c value s
  | .dmaAbortComplete now c => Sys2Proof.Machine.execDmaAbortComplete now c s
  | .dmaDoorbell now src c value => Sys2Proof.Machine.execDmaDoorbell now src c value s
  | .dmaDescriptorRead now c res host => Sys2Proof.Machine.execDmaDescriptorRead now c res host s
  | .dmaLinkRead now c res host => Sys2Proof.Machine.execDmaLinkRead now c res host s
  | .dmaReadReturn now c off res host => Sys2Proof.Machine.execDmaReadReturn now c off res host s
  | .dmaDone now c badWr flushOk => Sys2Proof.Machine.execDmaDone now c badWr flushOk s
  | .blitEnable now src c value => Sys2Proof.Machine.execBlitEnable now src c value s
  | .blitDoorbell now src c value => Sys2Proof.Machine.execBlitDoorbell now src c value s
  | .blitAbort now src c value => Sys2Proof.Machine.execBlitAbort now src c value s
  | .blitJobRead now c res host => Sys2Proof.Machine.execBlitJobRead now c res host s
  | .blitDeadTimeEnd now c => Sys2Proof.Machine.execBlitDeadTimeEnd now c s
  | .blitBandSlot now c => Sys2Proof.Machine.execBlitBandSlot now c s
  | .blitRowComplete now c badReads badWr => Sys2Proof.Machine.execBlitRowComplete now c badReads badWr s
  | .blitDone now c statusOk => Sys2Proof.Machine.execBlitDone now c statusOk s
  | .xsRead now src value => Sys2Proof.Machine.execXsRead now src value s
  | .xsProgram now src value => Sys2Proof.Machine.execXsProgram now src value s
  | .xsErase now src value => Sys2Proof.Machine.execXsErase now src value s
  | .xsCommandDone now devErr => Sys2Proof.Machine.execXsCommandDone now devErr s
  | .xsCommandTimeout now => Sys2Proof.Machine.execXsCommandTimeout now s
  | .svNop now frame bits => Sys2Proof.Machine.execSvNop now frame bits s
  | .svRead now frame bits ready => Sys2Proof.Machine.execSvRead now frame bits ready s
  | .svWrite now frame bits => Sys2Proof.Machine.execSvWrite now frame bits s
  | .registerWrite now src addr value => Sys2Proof.Machine.execRegisterWrite now src addr value s
  | .accessDeniedFoldTimer now p => Sys2Proof.Machine.execAccessDeniedFoldTimer now p s
  | .dtimeLoRead now src => Sys2Proof.Machine.execDtimeLoRead now src s
  | .peakRead now src addr => Sys2Proof.Machine.execPeakRead now src addr s
  | .sessionChallenge now src value => Sys2Proof.Machine.execSessionChallenge now src value s
  | .sessionRespond now src value => Sys2Proof.Machine.execSessionRespond now src value s
  | .sessionVerifyDone now => Sys2Proof.Machine.execSessionVerifyDone now s
  | .sessionClose now src value => Sys2Proof.Machine.execSessionClose now src value s
  | .sessionIdleExpiry now => Sys2Proof.Machine.execSessionIdleExpiry now s
  | .ghLockHard now src value => Sys2Proof.Machine.execGhLockHard now src value s
  | .ikhProgram now src value => Sys2Proof.Machine.execIkhProgram now src value s
  | .tokenSubmit now src value => Sys2Proof.Machine.execTokenSubmit now src value s
  | .tokenEnd now src value => Sys2Proof.Machine.execTokenEnd now src value s
  | .tokenExpiry now => Sys2Proof.Machine.execTokenExpiry now s
  | .cfgCrcGo now src value => Sys2Proof.Machine.execCfgCrcGo now src value s
  | .cfgCrcDone now => Sys2Proof.Machine.execCfgCrcDone now s
  | .ledgerEntryProgrammed now devErr => Sys2Proof.Machine.execLedgerEntryProgrammed now devErr s
  | .jtagInstruction now instr => Sys2Proof.Machine.execJtagInstruction now instr s
  | .islandFaultDetected now isl cause srFail => Sys2Proof.Machine.execIslandFaultDetected now isl cause srFail s
  | .promenadeFlitReject now isl parityBad seq => Sys2Proof.Machine.execPromenadeFlitReject now isl parityBad seq s
  | .islandRelease now isl ok => Sys2Proof.Machine.execIslandRelease now isl ok s
  | .ingestLinkUp now l gear => Sys2Proof.Machine.execIngestLinkUp now l gear s
  | .canErrorDetected now n kind => Sys2Proof.Machine.execCanErrorDetected now n kind s
  | .pwrGoodFall now => Sys2Proof.Machine.execPwrGoodFall now s
  | .perstRelease now p => Sys2Proof.Machine.execPerstRelease now p s
  | .configurationRequest now p req => Sys2Proof.Machine.execConfigurationRequest now p req s
  | .owedCommandPaid now c rank => Sys2Proof.Machine.execOwedCommandPaid now c rank s
  | .composedLineArrival now t => Sys2Proof.Machine.execComposedLineArrival now t s
  | .migrationComplete now pv => Sys2Proof.Machine.execMigrationComplete now pv s
  | .postedWriteLands now group => Sys2Proof.Machine.execPostedWriteLands now group s
  | .ikhProgramDone now => Sys2Proof.Machine.execIkhProgramDone now s

end Sys2Proof.Machine
end

