-- ==== Sys2Proof/Safety.lean ====
section
/-!
DEFINITION. The terms the claims use: the canonical form of memory, a register write that passes its checks, and what a command leaves
alone.
-/

namespace Sys2Proof.Machine

/-- The memory is in its canonical form: addresses strictly rising, and no byte listed that an unlisted one reads as. -/
def Memory.wf (losses : List (List (Nat × Nat))) (m : Tbl Byte) : Bool := twf (memDefault losses) m

/-- A register write that passes every check of R492: the state the checks leave, and the word that is to be written. -/
def State.admits (s : State) (src : Src) (a v : Nat) : Option (State × Word) :=
  match decideWrite noAdm s src (s.aliasAddr a) v with
  | .inr (t, w, _) => some (t, w)
  | .inl _ => none

/-- Every byte of local memory reads as before. -/
def State.memSame (s t : State) : Prop := ∀ a, t.rdByte a = s.rdByte a

/-- What only the Gatehouse and the flash controller write: both flash devices and OTP. -/
def State.storeSame (s t : State) : Prop := t.flash0 = s.flash0 ∧ t.flash1 = s.flash1 ∧ t.otp = s.otp

/-- Registers that posting an event may count a lost event in (R301). -/
def lostCounter (a : Nat) : Bool := allPorts.any fun p => a == HP_EV_STAT p

/-- Every register but those named, and the counters of lost events, reads as before. -/
def State.regsSame (s t : State) (but : List Nat) : Prop := ∀ a, lostCounter a = false → a ∉ but → t.rd a = s.rd a

/-- What the end of maker access writes (R506, R524). -/
def makerWords : List Nat := [GH_TOK_STAT, GH_STAT, DB_CTRL, GH_LED_HEAD, GH_LED_STAT, GH_LED_DROP]

/-- What the hub's own traffic counts in its queues (R402). -/
def hubQueueWords : List Nat := ([8, 9, 10, 11, 12, 13] : List Nat).flatMap fun q => [CA_Q_STAT q, CA_Q_CNT q]

/-- What the charges of every shaper queue count (R402 to R405). -/
def queueWords : List Nat := (List.range 256).flatMap fun q => [CA_Q_STAT q, CA_Q_CNT q]

/-- What a unit's reads and writes of its own control data may change: charges on the hub's queues, and window errors (R134). -/
def controlWords : List Nat := hubQueueWords ++ allPorts.map HP_HW_STAT

/-- What the engines' traffic may change: charges on any queue, and window errors. -/
def trafficWords : List Nat := queueWords ++ allPorts.map HP_HW_STAT

/-- The 64 bytes of a descriptor or job at `a` lie in memory that takes a status write. -/
def State.takesStatus (s : State) (a : Nat) : Prop :=
  (∀ b, a ≤ b → b < a + 64 → windowOf b = none) ∧ s.subsUp = true ∧ s.poisoned a 64 = false

/-- A quiet command: memory, flash and OTP stay, and of the registers only those named change. -/
def State.quiet (s t : State) (but : List Nat) : Prop := s.memSame t ∧ s.storeSame t ∧ s.regsSame t but

end Sys2Proof.Machine
end

