-- ==== Sys2Proof/WellFormed.lean ====
section
/-!
DEFINITION. Well-formed commands: each operand is a value that the interface it comes through can carry.
-/

namespace Sys2Proof

/-- A register's value (R7). -/
def word (v : Nat) : Bool := decide (v < 2 ^ 32)

/-- The two sizes of a flash device (R65). -/
def flashSizeOk (n : Nat) : Bool := decide (0 < n) && decide (n < 2 ^ 32)

/-- Sub-channel numbers, none twice. -/
def subs (l : List Nat) : Bool := (l.all fun c => decide (c < 8)) && decide l.Nodup

/-- An address below the top of local memory (R127). -/
def hpaOk (a : Nat) : Bool := decide (a < 2 ^ 39)

/-- Errors of a beat fit its data, check and fold bits (R424). -/
def BeatErr.wf (e : BeatErr) : Bool := decide (e.beat < 16) && decide (e.data < 2 ^ 32) && decide (e.check < 2 ^ 8) && decide (e.fold < 2 ^ 40)

def LineErrs.wf (e : LineErrs) : Bool := decide (e.bad.Nodup) && (decide (e.diff = 0) || decide (e.diffInst < 512))

/-- A CAN frame as ISO 11898-1 allows it (R469): identifier by format, data by protocol; only a Classical frame is a remote frame. -/
def CanFrame.wf (f : CanFrame) : Bool :=
  decide (f.id < if f.ext then 2 ^ 29 else 2 ^ 11) &&
  (if f.fd then !f.remote && [0, 1, 2, 3, 4, 5, 6, 7, 8, 12, 16, 20, 24, 32, 48, 64].contains f.data.length
   else decide (f.data.length ≤ 8) && (!f.remote || f.data.isEmpty))

def CfgReq.wf : CfgReq → Bool
  | .read offset => decide (offset < 4096)
  | .busMaster _ | .memSpace _ | .msix _ _ => true
  | .bar k addr => [0, 2].contains k && decide (addr < 2 ^ 64)
  | .barSize log2 => decide (log2 < 64)

/-- A supervisor frame (R476): one byte for each eight clocks. -/
def frameOk (frame : List Byte) (bits : Nat) : Bool := decide (frame.length = bits / 8)

/-- The operands of a command beside its time. -/
def Instr.operandsOk : Instr → Bool
  | .porstNRelease _ bootsel _ => decide (bootsel < 4)
  | .porstNAssert _ _ => true
  | .pllLock _ size0 size1 => size0.all flashSizeOk && size1.all flashSizeOk
  | .locketHeaderRead _ => true
  | .sectionTableRead _ => true
  | .signatureVerifyDone _ => true
  | .sectionEnd _ => true
  | .flashReadFail _ => true
  | .slotSearchRetry _ => true
  | .restart _ _ value => word value
  | .ddr5InService _ eyeBad failed => subs eyeBad && subs failed
  | .hubReadiness _ => true
  | .assetCopyDone _ => true
  | .wakePin _ _ => true
  | .supervisorWakeLine _ _ => true
  | .warmrstNAssert _ _ => true
  | .warmrstNRelease _ => true
  | .supplyLoss _ _ => true
  | .supplyLossRestart _ => true
  | .parkRequest _ _ value => word value
  | .parkDrainComplete _ => true
  | .drainExpiry _ => true
  | .parkPanelsDown _ => true
  | .parkSnapshotDone _ => true
  | .parkSelfRefreshDone _ => true
  | .lineStart _ _ errs => errs.wf
  | .latch _ _ => true
  | .handoverEnd _ _ => true
  | .reseatGo _ _ _ value => word value
  | .reseatCheckDone _ _ => true
  | .genlockTimeout _ _ => true
  | .hpdAssert _ _ => true
  | .hpdLoss _ _ _ => true
  | .irqHpd _ _ _ => true
  | .aphyOutputLinkDown _ _ => true
  | .linkTrainingDone _ _ _ rate lanes _ _ _ => decide (rate < 256) && decide (lanes ≤ 4)
  | .linkRetrainTimer _ _ => true
  | .panelTpoffDone _ _ => true
  | .panelTponExpiry _ _ => true
  | .backlightOnExpiry _ _ => true
  | .pwmPeriodEnd _ _ => true
  | .backlightOffExpiry _ _ => true
  | .panelVoffExpiry _ _ => true
  | .wbFrameAcked _ _ => true
  | .fetchGroupIssue _ _ => true
  | .fetchDataArrival _ _ _ bad _ => bad.all fun x => decide (x.1 % 64 = 0)
  | .fetchDeadline _ _ => true
  | .raceTideDeadline _ _ => true
  | .watchRegionCompare _ _ _ => true
  | .flattenStart _ _ => true
  | .flattenComplete _ _ _ => true
  | .sfCreate _ _ value => word value
  | .sfDestroy _ _ value => word value
  | .sfRead _ _ value => word value
  | .sfDestroyAll _ _ value => word value
  | .surfaceRetire _ _ => true
  | .commitDoorbell _ _ _ _ value => word value
  | .crEnable _ _ _ _ value => word value
  | .commitEntryRead _ _ _ _ _ badEntries => badEntries.all fun i => decide (i < 65536)
  | .commitAccept _ _ _ copyFail => copyFail.all fun k => decide (k < 2)
  | .commitLeaveWaiting _ _ => true
  | .notBeforeTarget _ _ => true
  | .commitSeal _ _ => true
  | .fenceTimeout _ _ => true
  | .directSeal _ _ _ _ value => word value
  | .evEnable _ _ _ value => word value
  | .eventRecordWrite _ _ => true
  | .msixHoldoffExpiry _ _ _ => true
  | .hostLinkDown _ _ => true
  | .hotReset _ _ => true
  | .functionLevelReset _ _ => true
  | .perstAssert _ _ => true
  | .hostLinkUp _ _ speed width => decide (1 ≤ speed) && decide (speed ≤ 5) && [1, 2, 4, 8].contains width
  | .hostD3hot _ _ _ => true
  | .policerPacket _ _ read _ len tc data => decide (tc < 8) && (if read then decide (0 < len) && data.isEmpty else decide (data.length = len) && decide (0 < len) && decide (len ≤ 512))
  | .redPacketRelease _ _ => true
  | .queueRequest _ _ req => decide (0 < req.bytes)
  | .queueEligible _ _ => true
  | .queueRateWrite _ _ _ value => word value
  | .dramRead _ hpa _ _ => hpaOk hpa
  | .dramWrite _ hpa data _ _ => hpaOk hpa && decide (0 < data.length) && decide (hpa % 64 + data.length ≤ 64)
  | .dramReadReturn _ _ _ errs0 errs1 => errs0.all BeatErr.wf && errs1.all BeatErr.wf
  | .writeCrcAlert _ _ _ => true
  | .dramWriteAck _ _ => true
  | .writeBatchStart _ _ => true
  | .rowIdleClose _ _ rank bank => decide (rank < 2) && decide (bank < 32)
  | .refreshTick _ _ _ => true
  | .mr4Poll _ _ rates => decide (rates.length ≤ 2) && rates.all fun r => decide (r < 8)
  | .tempCrossing _ _ temp => decide (-128 ≤ temp) && decide (temp ≤ 127)
  | .patrolScrub _ hpa errs0 errs1 => hpaOk hpa && errs0.all BeatErr.wf && errs1.all BeatErr.wf
  | .retrainStep _ _ _ _ => true
  | .ingestFrameStart _ _ num => decide (num < 65536)
  | .ingestLongPacket _ _ dt payload _ => decide (dt < 64) && decide (payload.length < 65536)
  | .ingestIgnoredPacket _ _ => true
  | .ingestFrameEnd _ _ => true
  | .ingestFrameComplete _ _ => true
  | .ingestLinkDown _ _ => true
  | .canFrameEnd _ _ frame => frame.wf
  | .canBusJoin _ _ => true
  | .signalGroupFrame _ _ => true
  | .smSvSig _ _ value => word value
  | .signalTimeout _ _ => true
  | .sinkCrcRead _ _ crcs count => decide (count < 16) && (crcs.all fun l => l.all fun x => decide (x < 65536))
  | .svHbEdge _ => true
  | .heartbeatLoss _ => true
  | .wtFaultClear _ _ _ value => word value
  | .htTick _ _ => true
  | .dmaStart _ _ _ value => word value
  | .dmaAbort _ _ _ value => word value.value
  | .dmaAbortComplete _ _ => true
  | .dmaDoorbell _ _ _ value => word value
  | .dmaDescriptorRead _ _ _ _ => true
  | .dmaLinkRead _ _ _ _ => true
  | .dmaReadReturn _ _ _ _ _ => true
  | .dmaDone _ _ _ _ => true
  | .blitEnable _ _ _ value => word value
  | .blitDoorbell _ _ _ value => word value
  | .blitAbort _ _ _ value => word value.value
  | .blitJobRead _ _ _ _ => true
  | .blitDeadTimeEnd _ _ => true
  | .blitBandSlot _ _ => true
  | .blitRowComplete _ _ _ _ => true
  | .blitDone _ _ _ => true
  | .xsRead _ _ value => word value
  | .xsProgram _ _ value => word value
  | .xsErase _ _ value => word value
  | .xsCommandDone _ _ => true
  | .xsCommandTimeout _ => true
  | .svNop _ frame bits => frameOk frame bits
  | .svRead _ frame bits _ => frameOk frame bits
  | .svWrite _ frame bits => frameOk frame bits
  | .registerWrite _ _ addr value => decide (addr < 2 ^ 26) && word value
  | .accessDeniedFoldTimer _ _ => true
  | .dtimeLoRead _ _ => true
  | .peakRead _ _ addr => decide (addr < 2 ^ 26)
  | .sessionChallenge _ _ value => word value
  | .sessionRespond _ _ value => word value
  | .sessionVerifyDone _ => true
  | .sessionClose _ _ value => word value
  | .sessionIdleExpiry _ => true
  | .ghLockHard _ _ value => word value
  | .ikhProgram _ _ value => word value
  | .tokenSubmit _ _ value => word value
  | .tokenEnd _ _ value => word value
  | .tokenExpiry _ => true
  | .cfgCrcGo _ _ value => word value
  | .cfgCrcDone _ => true
  | .ledgerEntryProgrammed _ _ => true
  | .jtagInstruction _ _ => true
  | .islandFaultDetected _ _ cause _ => decide (cause < 256)
  | .promenadeFlitReject _ _ _ seq => decide (seq < 256)
  | .islandRelease _ _ _ => true
  | .ingestLinkUp _ _ gear => decide (gear < 8)
  | .canErrorDetected _ _ _ => true
  | .pwrGoodFall _ => true
  | .perstRelease _ _ => true
  | .configurationRequest _ _ req => req.wf
  | .owedCommandPaid _ _ _ => true
  | .composedLineArrival _ _ => true
  | .migrationComplete _ _ => true
  | .postedWriteLands _ group => decide (group < 2 ^ 26)
  | .ikhProgramDone _ => true

/-- A well-formed command: DTIME is a 64-bit count (R17). -/
def Instr.wf (i : Instr) : Bool := decide (i.now < 2 ^ 64) && i.operandsOk

end Sys2Proof
end

