-- ==== Sys2Proof/Certificates/Slice0/Obligations.lean ====
section
/-!
DEFINITION. The statements about the model, each a closed proposition.
-/

open Sys2Proof Sys2Proof.Machine

/-- The step rule of a block: the front command runs on the state with the rest of the queue.  On an empty queue the hub idles, which is the
model's choice (assumption 8). -/
def Obligations.StepRunsTheFrontCommand : Prop :=
  (∀ (c : Instr) (rest : List Instr) (s : State), s.pending = c :: rest → step s = exec c { s with pending := rest }) ∧
  (∀ s : State, s.pending = [] → step s = .next s)

/-- R519, R23, R338, R556: the hub while PORST_N is asserted. -/
def Obligations.ResetState : Prop :=
  State.reset.pending = [] ∧ State.reset.dtime = 0 ∧ State.reset.power.state = .off ∧ State.reset.power.porst = true ∧
  State.reset.power.pwrEn = false ∧ (∀ a, State.reset.rd a = resetWord a) ∧ State.reset.faultLow = true ∧
  State.reset.power.panelEn = [] ∧ State.reset.power.blPwm = [] ∧ (∀ i, State.reset.islUp i = true)

/-- R17, R29, R37, R557, R558, R562, R563. -/
def Obligations.PowerPinsComplete : Prop :=
  ∀ (s : State) (now : Nat),
    (∀ (bootsel : Nat) (compat : Bool), bootsel < 4 → s.power.porst = true →
      ∃ t, exec (.porstNRelease now bootsel compat) s = .next t ∧ t.dtime = 0 ∧ t.power.state = .waking ∧ t.power.porst = false ∧
        t.power.bootsel = bootsel ∧ t.power.compat = compat ∧ t.power.pwrEn = true ∧ t.boot.phase = .pll ∧
        t.get SY_BOOT_STAT SY_BOOT_STAT_BOOTSEL = bootsel ∧ t.get SY_BOOT_STAT SY_BOOT_STAT_COMPAT = b2n compat ∧
        t.get SY_BOOT_STAT SY_BOOT_STAT_WARM = 0 ∧ t.get SY_WAKE_STAT SY_WAKE_STAT_COLD = 1 ∧
        s.quiet t ([SY_BOOT_STAT, SY_WAKE_STAT, WT_FAULT, GH_LOCK] ++ makerWords) ∧
        (s.gate.scope = 0 → s.quiet t [SY_BOOT_STAT, SY_WAKE_STAT, WT_FAULT, GH_LOCK])) ∧
    (∀ width : Nat, 1000 < width →
      ∃ t, exec (.porstNAssert now width) s = .next t ∧ (∀ a, t.rd a = resetWord a) ∧ t.power = Power.reset ∧ t.faultLow = true ∧
        t.otp = s.otp ∧ t.pending = s.pending ∧ (s.xs = none → s.storeSame t)) ∧
    (∀ low : Nat, s.supplied = true → s.power.pwrGood = true → 1000 < low →
      ∃ t, exec (.supplyLoss now low) s = .next t ∧ t.power.state = .off ∧ t.faultLow = true ∧ t.power.panelEn = [] ∧ t.power.blPwm = [] ∧
        (∀ a, t.rd a = resetWord a) ∧ t.power.bootsel = s.power.bootsel ∧ t.power.compat = s.power.compat ∧
        t.power.lostAt = some (max s.dtime now - low) ∧ t.otp = s.otp ∧ (s.xs = none → s.storeSame t)) ∧
    (∀ l : Nat, s.power.lostAt = some l → l + 10000000 ≤ max s.dtime now →
      ∃ t, exec (.supplyLossRestart now) s = .next t ∧ t.dtime = 0 ∧ t.power.state = .waking ∧ t.power.pwrEn = true ∧
        t.power.lostAt = none ∧ t.power.bootsel = s.power.bootsel ∧ t.power.compat = s.power.compat ∧ t.boot.phase = .pll ∧
        s.quiet t ([SY_BOOT_STAT, SY_WAKE_STAT, WT_FAULT, GH_LOCK] ++ makerWords) ∧
        (s.gate.scope = 0 → s.quiet t [SY_BOOT_STAT, SY_WAKE_STAT, WT_FAULT, GH_LOCK])) ∧
    (s.power.pwrEn = false → s.power.pwrGood = true →
      exec (.pwrGoodFall now) s = .next { s.tick now with
        power := { s.power with pwrGood := false, pwrEn := s.power.wakeWait, wakeWait := false } })

/-- R25, R26, R27, R60, R61, R63, R482, R551, R552. -/
def Obligations.WakeAndWarmResetComplete : Prop :=
  ∀ (s : State) (now : Nat),
    (∀ cycles : Nat, 4 ≤ cycles → s.power.state = .parked →
      ∃ t, exec (.wakePin now cycles) s = .next t ∧ t.power.state = .waking ∧ t.get SY_WAKE_STAT SY_WAKE_STAT_PIN = 1 ∧
        t.get SY_BOOT_STAT SY_BOOT_STAT_WARM = 1 ∧ t.power.pwrEn = !s.power.pwrGood ∧ t.power.wakeWait = s.power.pwrGood ∧
        t.boot.phase = .pll ∧ t.power.bootsel = s.power.bootsel) ∧
    (∀ cycles : Nat, 4 ≤ cycles → s.power.state = .lit → s.park.step ≠ 0 → s.park.held = none →
      ((∀ u, s.undo = some u → aonCycle u.at_ ≠ aonCycle (max s.dtime now)) →
        ∃ t, exec (.wakePin now cycles) s = .next t ∧ t.power = s.power ∧ t.park.wake = true ∧ t.park.step = s.park.step ∧
          t.get SY_WAKE_STAT SY_WAKE_STAT_PIN = 1 ∧ t.get SY_WAKE_STAT SY_WAKE_STAT_INPARK = 1 ∧ s.quiet t [SY_WAKE_STAT]) ∧
      (∀ u, s.undo = some u → aonCycle u.at_ = aonCycle (max s.dtime now) →
        ∃ t, exec (.wakePin now cycles) s = .next t ∧ t.power = s.power ∧ t.park.step = 0 ∧ t.park.wake = false ∧
          t.get SY_PARK_CTRL SY_PARK_CTRL_PARKING = 0 ∧ t.get SY_PARK_CTRL SY_PARK_CTRL_REQ = 0 ∧ t.gate = u.gate ∧ t.otp = u.otp ∧
          s.memSame t)) ∧
    (∀ low : Nat, 10000 ≤ low → s.power.state = .parked →
      ∃ t, exec (.supervisorWakeLine now low) s = .next t ∧ t.power.state = .waking ∧ t.get SY_WAKE_STAT SY_WAKE_STAT_SVWAKE = 1 ∧
        t.get SY_BOOT_STAT SY_BOOT_STAT_WARM = 1 ∧ t.boot.phase = .pll) ∧
    (∀ width : Nat, 1000 < width → s.power.warm = false → s.power.state = .parked →
      ∃ t, exec (.warmrstNAssert now width) s = .next t ∧ t.power.state = .waking ∧ t.get SY_WAKE_STAT SY_WAKE_STAT_WARMRST = 1) ∧
    (∀ width : Nat, 1000 < width → s.power.warm = false → s.power.state = .lit →
      ∃ t, exec (.warmrstNAssert now width) s = .next t ∧ t.power.warm = true ∧ t.power.state = .waking ∧
        t.boot.recover = true ∧ t.park.step = 0 ∧ t.get SY_BOOT_STAT SY_BOOT_STAT_READY = 0) ∧
    (∀ width : Nat, 1000 < width → s.power.warm = false → s.power.state = .waking →
      ∃ t, exec (.warmrstNAssert now width) s = .next t ∧ t.power.warm = true ∧ t.power.state = .waking ∧ t.boot.applied = false ∧
        t.power.bootsel = s.power.bootsel ∧ t.power.compat = s.power.compat) ∧
    (s.power.warm = true →
      let x : State := { s.tick now with power := { s.power with warm := false } }
      (s.boot.recover = false → exec (.warmrstNRelease now) s = .next x) ∧
      (s.boot.recover = true → x.runningFail = none →
        ∃ t, exec (.warmrstNRelease now) s = .next t ∧ t.power = x.power ∧ t.boot = s.boot ∧
          (∀ i, (i < 76 ∨ 84 ≤ i) → s.isl.failed.contains i = false → t.islUp i = true) ∧
          (∀ i, 76 ≤ i → i < 84 → t.islUp i = s.islUp i) ∧ s.memSame t ∧ s.storeSame t) ∧
      (∀ f, s.boot.recover = true → x.runningFail = some f →
        ∃ t, exec (.warmrstNRelease now) s = .next t ∧ t.power.warm = false ∧ t.boot.recover = false ∧ t.boot.applied = false ∧
          t.power.bootsel = s.power.bootsel))

/-- R30, R36, R37, R47 to R49, R91 row 1, R92, R93, R558. -/
def Obligations.SlotSearchCompletes : Prop :=
  ∀ (s : State) (now : Nat),
    (∀ (n : Nat) (size1 : Option Nat), s.boot.phase = .pll → s.power.warm = false → s.power.pwrEn = true → s.power.bootsel < 3 → 0x4000000 ≤ n →
      ∃ t, exec (.pllLock now (some n) size1) s = .next t ∧ t.boot.phase = .header ∧ t.boot.devs.contains (slotDev t.boot.slot) = true ∧
        t.power.pwrGood = true ∧ t.power.pwrEn = true ∧ t.boot.repeat_ = false) ∧
    (∀ size0 size1 : Option Nat, s.boot.phase = .pll → s.power.warm = false → s.power.pwrEn = true → s.power.bootsel = 3 →
      ∃ t, exec (.pllLock now size0 size1) s = .next t ∧ t.boot.phase = .noImage ∧ t.get SY_BOOT_STAT SY_BOOT_STAT_NOIMAGE = 1 ∧
        t.faultLow = true ∧ t.power.state = s.power.state) ∧
    (s.boot.phase = .retry → s.power.warm = false → s.power.bootsel < 3 → s.boot.devs.contains 0 = true →
      s.boot.waitFrom + 100000000 ≤ max s.dtime now →
      ∃ t, exec (.slotSearchRetry now) s = .next t ∧ t.boot.phase = .header ∧ t.boot.repeat_ = true ∧
        t.boot.devs.contains (slotDev t.boot.slot) = true) ∧
    (∀ (src : Src) (value : Nat) (u : State) (w : Word), (s.tick now).admits src SY_BOOT_CTRL value = some (u, w) →
      getField w SY_BOOT_CTRL_RESTART = 1 → u.boot.phase = .noImage →
      (u.park.step = 0 → u.power.bootsel < 3 → u.boot.devs.contains 0 = true →
        ∃ t, exec (.restart now src value) s = .next t ∧ t.boot.phase = .header ∧ t.get SY_BOOT_STAT SY_BOOT_STAT_NOIMAGE = 0 ∧
          t.boot.repeat_ = false) ∧
      (u.park.step ≠ 0 → exec (.restart now src value) s = .next u)) ∧
    (s.power.warm = false → s.boot.phase = .header → s.boot.todo = [] → s.boot.repeat_ = false → s.power.bootsel < 3 → s.boot.slot < 4 →
      ∃ t, exec (.flashReadFail now) s = .next t ∧ t.boot.phase = .retry ∧ t.boot.waitFrom = max s.dtime now ∧
        t.get SY_BOOT_STAT (slotFld s.boot.slot) = 2 ∧ t.get SY_LOAD_FAIL SY_LOAD_FAIL_CHECK = 1 ∧
        t.get SY_LOAD_FAIL SY_LOAD_FAIL_WHERE = 16 ∧ t.get SY_LOAD_FAIL SY_LOAD_FAIL_SLOT = s.boot.slot ∧ t.boot.applied = false)

/-- R70, R71, R73, R75, R76, R91, R92. -/
def Obligations.ImageReadingCompletes : Prop :=
  ∀ (s : State) (now : Nat),
    (s.boot.phase = .header → s.power.warm = false → hdrFail s.power.compat (s.locketHdr s.boot.slot) = none →
      exec (.locketHeaderRead now) s = .next { s.tick now with boot := { s.boot with phase := .table } }) ∧
    (∀ f : LoadFail, s.boot.phase = .header → s.power.warm = false → hdrFail s.power.compat (s.locketHdr s.boot.slot) = some f →
      s.boot.todo = [] → s.boot.repeat_ = false → s.power.bootsel < 3 → s.boot.slot < 4 →
      ∃ t, exec (.locketHeaderRead now) s = .next t ∧ t.boot.phase = .retry ∧
        t.get SY_BOOT_STAT (slotFld s.boot.slot) = f.outcome % 16 ∧ t.get SY_LOAD_FAIL SY_LOAD_FAIL_CHECK = f.check % 256 ∧
        t.boot.applied = false) ∧
    (s.boot.phase = .table →
      tabFail (fieldAt (s.locketHdr s.boot.slot) 4 2) (slotArea s.boot.slot).2 (s.locketHdr s.boot.slot) (s.locketTab s.boot.slot) = none →
      exec (.sectionTableRead now) s = .next { s.tick now with boot := { s.boot with phase := .sect 0 } }) ∧
    (∀ n : Nat, s.boot.phase = .sect n → s.boot.sigOk = false → s.boot.held = none → (s.tick now).sigFail s.boot.slot = none →
      exec (.signatureVerifyDone now) s = .next (({ s.tick now with boot := { s.boot with sigOk := true } } : State).advance n)) ∧
    (s.boot.phase = .sect 0 → s.boot.sigOk = false → s.boot.held = none → (s.tick now).sigFail s.boot.slot = none → s.boot.used = 0 →
      0 < ((s.tick now).readSecs s.boot.slot).length →
      exec (.signatureVerifyDone now) s = .next { s.tick now with boot := { s.boot with sigOk := true } }) ∧
    (∀ n : Nat, s.boot.phase = .sect n → n < ((s.tick now).readSecs s.boot.slot).length → ((s.tick now).gapsOf s.boot.slot n).findSome? ((s.tick now).gapFail s.boot.slot) = none →
      s.boot.held = none →
      exec (.sectionEnd now) s = .next (({ s.tick now with boot := { s.boot with phase := .sect (n + 1) } } : State).advance (n + 1))) ∧
    (∀ n : Nat, s.boot.phase = .sect n → n < ((s.tick now).readSecs s.boot.slot).length → ((s.tick now).gapsOf s.boot.slot n).findSome? ((s.tick now).gapFail s.boot.slot) = none →
      s.boot.held = none → s.boot.sigOk = false →
      exec (.sectionEnd now) s = .next { s.tick now with boot := { s.boot with phase := .sect (n + 1) } })

/-- R40, R43, R89, R90, R442, R552. -/
def Obligations.BringUpCompletes : Prop :=
  ∀ (s : State) (now : Nat),
    (∀ (c : DramConf) (eyeBad failed : List Nat), s.locket.dram = some c → s.boot.applied = true → s.power.warm = false → s.dramReady = false →
      ∃ t, exec (.ddr5InService now eyeBad failed) s = .next t ∧ t.get DR_STAT DR_STAT_READY = 1 ∧ t.power.sr = false) ∧
    (s.readyMay = true →
      ∃ t, exec (.hubReadiness now) s = .next t ∧ t.get SY_BOOT_STAT SY_BOOT_STAT_READY = 1 ∧ t.boot.recover = false ∧
        ∀ p ∈ allPorts, (t.portAt p).ready = true) ∧
    (∀ a : Asset, s.locket.asset = some a → s.boot.assetTry ≠ 0 → s.dramReady = true → s.ready = true → s.subsUp = true →
      crc32c (s.slotBytes s.locket.slot a.off a.len) = a.crc → sha256 (s.slotBytes s.locket.slot a.off a.len) = a.digest →
      ∃ t, exec (.assetCopyDone now) s = .next t ∧ t.get SY_BOOT_STAT SY_BOOT_STAT_ASSETS = 1 ∧ t.boot.assetTry = 0 ∧
        (∀ i, i < a.len → t.rdByte (a.base + i) = (s.slotBytes s.locket.slot a.off a.len).getD i 0) ∧
        (∀ b, b < a.base ∨ a.base + a.len ≤ b → t.rdByte b = s.rdByte b) ∧ s.storeSame t ∧ s.regsSame t (SY_BOOT_STAT :: hubQueueWords)) ∧
    (∀ a : Asset, s.locket.asset = some a → s.boot.assetTry = 1 → s.dramReady = true → s.ready = true →
      crc32c (s.slotBytes s.locket.slot a.off a.len) ≠ a.crc →
      ∃ t, exec (.assetCopyDone now) s = .next t ∧ t.boot.assetTry = 2 ∧ t.get SY_BOOT_STAT SY_BOOT_STAT_ASSETS = s.get SY_BOOT_STAT SY_BOOT_STAT_ASSETS)

/-- R25, R26, R53, R54, R55, R57, R446. -/
def Obligations.ParkingCompletes : Prop :=
  ∀ (s : State) (now : Nat),
    (∀ (src : Src) (value : Nat) (u : State) (w : Word), (s.tick now).admits src SY_PARK_CTRL value = some (u, w) →
      getField w SY_PARK_CTRL_REQ = 1 →
      ((u.wokeNow || u.warmNow) = false → u.power.state = .lit → u.park.step = 0 →
        ∃ t, exec (.parkRequest now src value) s = .next t ∧ t.park.step = 2 ∧ t.power.state = .lit ∧
          t.park.drainEnd = u.dtime + getField w SY_PARK_CTRL_DRAIN_MS * 1000000 ∧ t.get SY_PARK_CTRL SY_PARK_CTRL_PARKING = 1 ∧
          t.get SY_PARK_CTRL SY_PARK_CTRL_REQ = 0 ∧ u.memSame t) ∧
      ((u.wokeNow || u.warmNow) = true →
        ∃ t, exec (.parkRequest now src value) s = .next t ∧ t.park = u.park ∧ t.power = u.power ∧ t.get SY_PARK_CTRL SY_PARK_CTRL_REQ = 0 ∧
          u.quiet t [SY_PARK_CTRL]) ∧
      ((u.wokeNow || u.warmNow) = false → u.power.state = .waking → u.boot.phase = .noImage → u.park.step = 0 →
        ∃ t, exec (.parkRequest now src value) s = .next t ∧ t.park.step = 4 ∧ t.power = u.power ∧
          t.get SY_PARK_CTRL SY_PARK_CTRL_PARKING = 1 ∧ u.memSame t) ∧
      ((u.wokeNow || u.warmNow) = false → u.power.state = .waking → u.boot.phase ≠ .noImage → u.park.held = none →
        ∃ t, exec (.parkRequest now src value) s = .next t ∧ t.park.held = some 1 ∧ t.power = u.power ∧ u.quiet t [SY_PARK_CTRL])) ∧
    (s.park.step = 2 → s.drained = true → ∃ t, exec (.parkDrainComplete now) s = .next t ∧ t.park.step = 4 ∧ s.memSame t) ∧
    (s.park.step = 2 → s.park.drainEnd ≤ max s.dtime now → ∃ t, exec (.drainExpiry now) s = .next t ∧ t.park.step = 4) ∧
    (s.park.step = 4 → s.panelsOff = true →
      ∃ t, exec (.parkPanelsDown now) s = .next t ∧ t.park.step = 5 ∧
        t.power.epochs = allPorts.map (fun p => s.get (HP_EPOCH p) HP_EPOCH_EPOCH) ∧ s.memSame t) ∧
    (s.park.step = 5 → ∃ t, exec (.parkSnapshotDone now) s = .next t ∧ t.park.step = 6 ∧ (s.locket.dram.isSome = true → t.power.sr = true)) ∧
    (s.park.step = 6 → s.park.wake = false →
      ∃ t, exec (.parkSelfRefreshDone now) s = .next t ∧ t.power.state = .parked ∧ t.power.pwrEn = false ∧ t.faultLow = true ∧
        t.power.panelEn = [] ∧ t.park.step = 0 ∧ ∀ a, keptIn s.keptSegments a = true → t.rdByte a = s.rdByte a) ∧
    (s.park.step = 6 → s.park.wake = true →
      ∃ t, exec (.parkSelfRefreshDone now) s = .next t ∧ t.power.state = .waking ∧ t.boot.phase = .pll ∧
        ∀ a, keptIn s.keptSegments a = true → t.rdByte a = s.rdByte a)

/-- R119, R120, R121. -/
def Obligations.PanelSequenceCompletes : Prop :=
  ∀ (s : State) (now : Nat) (t : Fin 16),
    (s.pixelUp t.val = true → (s.scanAt t.val).panel.phase = .waitPoff → (s.tick now).poffOver t.val = true →
      exec (.panelTpoffDone now t) s = .next (((s.tick now).setPanelEn t.val true).setScanAt t.val
        { s.scanAt t.val with panel := { (s.scanAt t.val).panel with phase := .ponWait, since := max s.dtime now } })) ∧
    (s.pixelUp t.val = true → (s.scanAt t.val).panel.phase = .ponWait →
      (s.scanAt t.val).panel.since + s.get (TL_PSEQ t.val) TL_PSEQ_T_PON * 1000000 ≤ max s.dtime now →
      exec (.panelTponExpiry now t) s = .next ((s.tick now).setScanAt t.val
        { s.scanAt t.val with panel := { (s.scanAt t.val).panel with phase := .ready, since := max s.dtime now } })) ∧
    (s.pixelUp t.val = true → (s.scanAt t.val).panel.phase = .blWait →
      (s.scanAt t.val).panel.since + s.get (TL_PSEQ t.val) TL_PSEQ_T_BLON * 1000000 ≤ max s.dtime now →
      exec (.backlightOnExpiry now t) s = .next (((s.tick now).setBlPwm t.val true).setScanAt t.val
        { s.scanAt t.val with panel := { (s.scanAt t.val).panel with
            phase := .lit, since := max s.dtime now, duty := s.get (TL_BL t.val) TL_BL_DUTY } })) ∧
    (s.pixelUp t.val = true → (s.scanAt t.val).panel.phase = .lit → (s.tick now).pwmOver t.val = true →
      exec (.pwmPeriodEnd now t) s = .next ((s.tick now).setScanAt t.val
        { s.scanAt t.val with panel := { (s.scanAt t.val).panel with since := max s.dtime now, duty := s.get (TL_BL t.val) TL_BL_DUTY } })) ∧
    (s.pixelUp t.val = true → (s.scanAt t.val).panel.phase = .pwmEnd → (s.tick now).pwmOver t.val = true →
      exec (.pwmPeriodEnd now t) s = .next (((s.tick now).setBlPwm t.val false).setScanAt t.val
        { s.scanAt t.val with panel := { (s.scanAt t.val).panel with phase := .blOff, since := max s.dtime now, duty := 0 } })) ∧
    (s.pixelUp t.val = true → (s.scanAt t.val).panel.phase = .blOff →
      (s.scanAt t.val).panel.since + s.get (TL_PSEQ t.val) TL_PSEQ_T_BLOFF * 1000000 ≤ max s.dtime now →
      ∃ u, exec (.backlightOffExpiry now t) s = .next u ∧ (u.scanAt t.val).panel.phase = .vOff ∧ (u.scanAt t.val).started = false ∧
        u.get (TL_STAT t.val) TL_STAT_LINK_UP = 0 ∧ s.memSame u) ∧
    (s.pixelUp t.val = true → (s.scanAt t.val).panel.phase = .vOff →
      (s.scanAt t.val).panel.since + s.get (TL_PSEQ t.val) TL_PSEQ_T_VOFF * 1000000 ≤ max s.dtime now →
      exec (.panelVoffExpiry now t) s = .next (((s.tick now).setPanelEn t.val false).setScanAt t.val
        { s.scanAt t.val with panel := { (s.scanAt t.val).panel with
            phase := if (s.scanAt t.val).panel.upAfter then .waitPoff else .off, upAfter := false, lowAt := some (max s.dtime now) } }))

/-- R42, R114, R116, R117. -/
def Obligations.OutputLinksComplete : Prop :=
  ∀ (s : State) (now : Nat) (l : Fin 48),
    (s.quadUp l.val = true → (s.linkAt l.val).sink = false → ((s.usersOf l.val).any fun t => (s.scanAt t).panel.honours) = true →
      ∃ t, exec (.hpdAssert now l) s = .next t ∧ (t.linkAt l.val).sink = true ∧ t.linkIsUp l.val = s.linkIsUp l.val ∧ s.memSame t ∧
        s.storeSame t) ∧
    (∀ low : Nat, s.linkIsUp l.val = true → s.isAphy l.val = false → 2000000 < low →
      ∃ t, exec (.hpdLoss now l low) s = .next t ∧ t.linkIsUp l.val = false ∧ (s.wanted l.val = true → (t.linkAt l.val).training = true) ∧
        (∀ k ∈ s.usersOf l.val, t.get (TL_STAT k) TL_STAT_LINKLOSS = 1 ∧ t.get (TL_STAT k) TL_STAT_LINK_UP = 0) ∧ s.memSame t ∧
        s.storeSame t) ∧
    (s.linkIsUp l.val = true → s.isAphy l.val = false →
      ∃ t, exec (.irqHpd now l false) s = .next t ∧ t.linkIsUp l.val = false ∧ (s.wanted l.val = true → (t.linkAt l.val).training = true) ∧
        (∀ k ∈ s.usersOf l.val, t.get (TL_STAT k) TL_STAT_LINKLOSS = 1 ∧ t.get (TL_STAT k) TL_STAT_LINK_UP = 0) ∧ s.memSame t ∧
        s.storeSame t) ∧
    (s.linkIsUp l.val = true → s.isAphy l.val = true →
      ∃ t, exec (.aphyOutputLinkDown now l) s = .next t ∧ t.linkIsUp l.val = false ∧ (s.wanted l.val = true → (t.linkAt l.val).training = true) ∧
        (∀ k ∈ s.usersOf l.val, t.get (TL_STAT k) TL_STAT_LINKLOSS = 1 ∧ t.get (TL_STAT k) TL_STAT_LINK_UP = 0) ∧ s.memSame t ∧
        s.storeSame t) ∧
    (∀ (rate lanes : Nat) (fec : Bool) (maxLines : Option Nat) (sinkCrc : Bool), s.quadUp l.val = true → (s.linkAt l.val).training = true →
      carriesBy s.rd l.val (min rate (s.get (OL_LINK l.val) OL_LINK_MAXRATE)) (min lanes (s.get (OL_LINK l.val) OL_LINK_LANES)) = true →
      ∃ t, exec (.linkTrainingDone now l true rate lanes fec maxLines sinkCrc) s = .next t ∧ t.linkIsUp l.val = true ∧
        (t.linkAt l.val).training = false ∧
        t.get (OL_LSTAT l.val) OL_LSTAT_RATE = min rate (s.get (OL_LINK l.val) OL_LINK_MAXRATE) % 16 ∧
        t.get (OL_LSTAT l.val) OL_LSTAT_LANES = min lanes (s.get (OL_LINK l.val) OL_LINK_LANES) % 4) ∧
    (∀ (rate lanes : Nat) (fec : Bool) (maxLines : Option Nat) (sinkCrc : Bool), s.quadUp l.val = true → (s.linkAt l.val).training = true →
      ∃ t, exec (.linkTrainingDone now l false rate lanes fec maxLines sinkCrc) s = .next t ∧ t.linkIsUp l.val = s.linkIsUp l.val ∧
        (t.linkAt l.val).training = false ∧ (t.linkAt l.val).retries = (s.linkAt l.val).retries + 1 ∧
        (t.linkAt l.val).retryAt = some (max s.dtime now + min (10 * 2 ^ min (s.linkAt l.val).retries 6) 640 * 1000000)) ∧
    ((s.tick now).retryDue l.val = true →
      ∃ t, exec (.linkRetrainTimer now l) s = .next t ∧ (t.linkAt l.val).training = true ∧ (t.linkAt l.val).retryAt = none ∧
        (s.get (OL_LSTAT l.val) OL_LSTAT_RETRY + 1 < 65536 → t.get (OL_LSTAT l.val) OL_LSTAT_RETRY = s.get (OL_LSTAT l.val) OL_LSTAT_RETRY + 1) ∧ s.memSame t ∧ s.storeSame t)

/-- R99, R101 to R103, R211, R284, R291, R308. -/
def Obligations.TimelineScanCompletes : Prop :=
  ∀ (s : State) (now : Nat) (tl : Fin 16),
    (∀ errs : LineErrs, (s.tick now).lineDue tl.val = true → (s.scanAt tl.val).started = false →
      ∃ t, exec (.lineStart now tl errs) s = .next t ∧ (t.scanAt tl.val).started = true ∧ t.rdN (TL_FRAME tl.val) = 0 ∧
        t.get (TL_POS tl.val) TL_POS_LINE = 0) ∧
    (∀ errs : LineErrs, (s.tick now).lineDue tl.val = true → (s.scanAt tl.val).started = true → (s.timing tl.val).adaptive = false →
      s.pos tl.val + 1 < s.frameLines tl.val → s.pos tl.val + 1 < 32768 →
      ∃ t, exec (.lineStart now tl errs) s = .next t ∧ t.get (TL_POS tl.val) TL_POS_LINE = s.pos tl.val + 1 ∧
        t.rdN (TL_FRAME tl.val) = s.rdN (TL_FRAME tl.val) ∧ (t.scanAt tl.val).started = true) ∧
    (∀ errs : LineErrs, (s.tick now).lineDue tl.val = true → (s.scanAt tl.val).started = true → (s.timing tl.val).adaptive = false →
      s.frameLines tl.val ≤ s.pos tl.val + 1 → (s.scanAt tl.val).reseat = none →
      ∃ t, exec (.lineStart now tl errs) s = .next t ∧ t.get (TL_POS tl.val) TL_POS_LINE = 0 ∧
        t.rdN (TL_FRAME tl.val) = (s.rdN (TL_FRAME tl.val) + 1) % 2 ^ 32 ∧ (t.scanAt tl.val).latched = false) ∧
    ((s.tick now).latchDue tl.val = true →
      ∃ t, exec (.latch now tl) s = .next t ∧ (t.scanAt tl.val).latched = true ∧
        (t.tlcAt tl.val).opened = (s.rdN (TL_FRAME tl.val) + 1) % 2 ^ 32 ∧
        (s.sealed tl.val = true → s.pavUp tl.val = true → (∀ u, (s.tlcAt tl.val).undo = some u → (s.tlcAt tl.val).sealAt ≠ max s.dtime now) →
          (t.tlcAt tl.val).any = true ∧
          ((s.tick now).presetDue tl.val (max s.dtime now - 256) = none → t.sealed tl.val = false) ∧
          ∃ h, (t.tlcAt tl.val).handover = some h ∧ h.orders = s.sealedOrders tl.val ∧
            h.frame = (s.rdN (TL_FRAME tl.val) + 1) % 2 ^ 32)) ∧
    (∀ h : Handover, (s.tlcAt tl.val).handover = some h → h.direct = false → h.commit = false →
      ∃ t, exec (.handoverEnd now tl) s = .next t ∧ (t.tlcAt tl.val).handover = none ∧
        (t.tlcAt tl.val).live = (s.tlcAt tl.val).live.filter fun c => !h.orders.contains c.order) ∧
    (∀ bad : List Nat, (s.tick now).compDue tl.val (s.compAt tl.val).1 (s.compAt tl.val).2 = true →
      (s.tick now).lineReady tl.val (s.compAt tl.val).1 (s.compAt tl.val).2 = true →
      ∃ t line, exec (.composedLineArrival now ⟨tl, bad⟩) s = .next t ∧ line.next = (s.compAt tl.val).1 ∧ line.y = (s.compAt tl.val).2 ∧
        (t.scanAt tl.val).fifo = fifoPut (s.scanAt tl.val).fifo line ∧
        ((s.scanAt tl.val).redo = [] → (t.scanAt tl.val).compNext = (s.compAt tl.val).1 ∧ (t.scanAt tl.val).compY = (s.compAt tl.val).2 + 1) ∧
        (∀ y ys, (s.scanAt tl.val).redo = y :: ys → (t.scanAt tl.val).redo = ys) ∧ s.quiet t [FN_STAT tl.val])

/-- R105, R106, R107, R108. -/
def Obligations.ReseatAndGenlockComplete : Prop :=
  ∀ (s : State) (now : Nat) (tl : Fin 16),
    (∀ (src : Src) (value : Nat) (u : State) (w : Word), (s.tick now).admits src (TL_RSEAT tl.val) value = some (u, w) →
      getField w TL_RSEAT_GO = 1 → u.tlOn tl.val = true →
      (u.on (TL_RSEAT tl.val) TL_RSEAT_BUSY = false →
        ∃ t, exec (.reseatGo now src tl value) s = .next t ∧ t.get (TL_RSEAT tl.val) TL_RSEAT_BUSY = 1 ∧
          (∃ r, (t.scanAt tl.val).reseat = some r ∧ r.passed = false ∧ r.words = (seatAddrs tl.val).map (fun a => (a, u.seatWord tl.val a)) ∧
            r.slots = u.pendingSlots tl.val) ∧ u.quiet t [TL_RSEAT tl.val]) ∧
      (u.on (TL_RSEAT tl.val) TL_RSEAT_BUSY = true →
        ∃ t, exec (.reseatGo now src tl value) s = .next t ∧ t.get (TL_RSEAT tl.val) TL_RSEAT_STATUS = 7 ∧
          t.get (TL_RSEAT tl.val) TL_RSEAT_BUSY = u.get (TL_RSEAT tl.val) TL_RSEAT_BUSY ∧ t.scanAt tl.val = u.scanAt tl.val ∧
          u.quiet t [TL_RSEAT tl.val])) ∧
    (∀ r : Reseat, (s.scanAt tl.val).reseat = some r → r.passed = false →
      (∀ x, (s.tick now).reseatCheck tl.val r = .inl x →
        ∃ t, exec (.reseatCheckDone now tl) s = .next t ∧
          t.get (TL_RSEAT tl.val) TL_RSEAT_BUSY = s.get (TL_RSEAT tl.val) TL_RSEAT_BUSY ∧
          ∃ q, (t.scanAt tl.val).reseat = some q ∧ q.passed = true ∧ q.words = r.words ∧ q.slots = r.slots) ∧
      (∀ code n, (s.tick now).reseatCheck tl.val r = .inr (code, n) →
        ∃ t, exec (.reseatCheckDone now tl) s = .next t ∧ t.get (TL_RSEAT tl.val) TL_RSEAT_BUSY = 0 ∧
          t.get (TL_RSEAT tl.val) TL_RSEAT_STATUS = code % 16 ∧ (t.scanAt tl.val).reseat = none)) ∧
    ((s.tick now).glSilent tl.val = true →
      ∃ t, exec (.genlockTimeout now tl) s = .next t ∧ t.get (TL_GENLOCK tl.val) TL_GENLOCK_LOCKED = 0 ∧
        t.get (TL_STAT tl.val) TL_STAT_GL_LOST = 1 ∧ (t.scanAt tl.val).goodGl = 0 ∧ s.quiet t [TL_GENLOCK tl.val, TL_STAT tl.val])

/-- R123, R333, R335, R337. -/
def Obligations.CaptureAndWatchComplete : Prop :=
  ∀ (s : State) (now : Nat),
    (∀ (n : Fin 4) (f : WbFrame) (rest : List WbFrame), (s.wbAt n.val).await = f :: rest →
      ∃ t, exec (.wbFrameAcked now n) s = .next t ∧ t.get (WB_STAT n.val) WB_STAT_LAST = f.buf % 4 ∧
        (f.resized = false → (t.wbAt n.val).await = rest ∧ s.quiet t [WB_STAT n.val]) ∧
        (f.resized = true → t.on (WB_CTRL n.val) WB_CTRL_EN = false ∧ (t.wbAt n.val).cur = none ∧
          (s.wbAt n.val).cur.toList.length + rest.length = (t.wbAt n.val).await.length ∧ s.quiet t [WB_STAT n.val, WB_CTRL n.val])) ∧
    (∀ (tl : Fin 16) (r : Fin 32), (s.tick now).watchDue tl.val r.val = true →
      ∃ t, exec (.watchRegionCompare now tl r) s = .next t ∧ (t.watchAt (wtKey tl.val r.val)).done = true ∧
        t.rdN (WT_LAST tl.val r.val) = ((s.watchAt (wtKey tl.val r.val)).crc ^^^ 0xFFFFFFFF) % 2 ^ 32 ∧
        t.rdN (WT_LKEY tl.val r.val) = s.watchKey tl.val r.val ∧ s.memSame t ∧ s.storeSame t) ∧
    (∀ (tl : Fin 16) (cs : List Nat) (count : Nat) (x : Nat × List Nat), s.sinkDue tl.val = true →
      (s.sinkAt tl.val).records.find? (fun r => r.1 == count % 16) = some x → cs = x.2 →
      ∃ t, exec (.sinkCrcRead now tl (some cs) count) s = .next t ∧ (t.sinkAt tl.val).differ = 0 ∧ (t.sinkAt tl.val).frames = 0 ∧
        s.quiet t []) ∧
    (∀ (tl : Fin 16) (cs : List Nat) (count : Nat) (x : Nat × List Nat), s.sinkDue tl.val = true →
      (s.sinkAt tl.val).records.find? (fun r => r.1 == count % 16) = some x → cs ≠ x.2 → 1 ≤ (s.sinkAt tl.val).differ →
      ∃ t, exec (.sinkCrcRead now tl (some cs) count) s = .next t ∧ (t.sinkAt tl.val).differ = (s.sinkAt tl.val).differ + 1 ∧
        t.get (WT_SINK_STAT tl.val) WT_SINK_STAT_MISMATCH = 1 ∧
        (s.get (WT_SINK_CTRL tl.val) WT_SINK_CTRL_MODE = 2 → t.on WT_FAULT WT_FAULT_SINK = true))

/-- R16, R134, R230, R242, R250, R253, R261, R262. -/
def Obligations.FetchCompletes : Prop :=
  ∀ (s : State) (now : Nat) (sl : Fin 96),
    let x := s.tick now
    let st := s.slotName sl.val
    x.slotUp sl.val = true →
    (∀ (next : Bool) (y : Nat) (g : Group), x.groupToIssue sl.val = some (next, y, g) →
      let tl := x.slotTl sl.val
      let l := x.layer (x.bankFor tl next) sl.val
      let sp := ({ l with entry := (x.layerSurface l).1 } : LayerCfg).groupSpan g
      let made (t : State) : Prop := ∃ i, (t.fetchAt sl.val).issued = (s.fetchAt sl.val).issued ++ [i] ∧
        i.group = g ∧ i.next = next ∧ i.need = y ∧ i.deadline = x.blendEntry tl next y - x.latNs ∧ i.spec = x.specTag tl next
      (l.race = false → windowOf sp.1 = none → windowOf l.entry.base = none →
        ∃ t, exec (.fetchGroupIssue now sl) s = .next t ∧ made t ∧ s.quiet t [AD_SPEC_BYTES tl]) ∧
      (∀ p o, l.race = false → windowOf sp.1 = some (p, o) → x.hwOk p o sp.2 = true →
        ∃ t, exec (.fetchGroupIssue now sl) s = .next t ∧ made t ∧ s.quiet t (AD_SPEC_BYTES tl :: hubQueueWords)) ∧
      (∀ p o, l.race = false → windowOf sp.1 = some (p, o) → x.hwOk p o sp.2 = false →
        ∃ t, exec (.fetchGroupIssue now sl) s = .next t ∧ (t.fetchAt sl.val).issued = (s.fetchAt sl.val).issued ∧
          (t.fetchAt sl.val).lost = (s.fetchAt sl.val).lost ++ [⟨g, next, y, x.specTag tl next, 4⟩] ∧
          t.get (HP_HW_STAT p) HP_HW_STAT_ERR = 1 ∧ s.quiet t [AD_SPEC_BYTES tl, HP_HW_STAT p, LY_LATE_STAT st]) ∧
      (∀ u : RaceUse, l.race = true → (s.fetchAt sl.val).raceFor next = some u → x.raceHeld l u g = true →
        exec (.fetchGroupIssue now sl) s = .next x)) ∧
    (∀ (k : Nat) (i : Issued) (host : List Byte), (s.fetchAt sl.val).issued[k]? = some i →
      let sp := ({ x.layer (x.bankFor (x.slotTl sl.val) i.next) sl.val with entry := i.entry } : LayerCfg).groupSpan i.group
      ((∀ ty, i.group ≠ .band ty) → x.dtime ≤ x.blendEntry (x.slotTl sl.val) i.next i.need → s.poison = [] →
        (windowOf i.entry.base = none ∨ s.flying.contains sp = true) → x.serves sp.1 sp.2 = true →
        ∃ t a, exec (.fetchDataArrival now sl k [] host) s = .next t ∧
          (t.fetchAt sl.val).issued = (s.fetchAt sl.val).issued.eraseIdx k ∧ (t.fetchAt sl.val).got = (s.fetchAt sl.val).got ++ [a] ∧
          a.group = i.group ∧ a.next = i.next ∧ a.need = i.need ∧ a.bad = [] ∧ a.data = x.fetched sp.1 sp.2 host ∧ s.quiet t []) ∧
      (∀ bad : List (Nat × ReadRes), (bad.any fun b => b.2 == .islandReset) = false → x.serves sp.1 sp.2 = true →
        x.blendEntry (x.slotTl sl.val) i.next i.need < x.dtime →
        ∃ t, exec (.fetchDataArrival now sl k bad host) s = .next t ∧
          (t.fetchAt sl.val).lost = (s.fetchAt sl.val).lost ++ [⟨i.group, i.next, i.need, i.spec, 1⟩] ∧
          (t.fetchAt sl.val).got = (s.fetchAt sl.val).got ∧
          (i.spec = none → t.get (LY_LATE_STAT st) LY_LATE_STAT_LATE = 1 ∧ t.get (LY_LATE_STAT st) LY_LATE_STAT_CAUSE = 1) ∧
          s.quiet t [LY_LATE_STAT st]) ∧
      (∀ bad : List (Nat × ReadRes), (bad.any fun b => b.2 == .islandReset) = true →
        ∃ t, exec (.fetchDataArrival now sl k bad host) s = .next t ∧
          (t.fetchAt sl.val).issued = (s.fetchAt sl.val).issued.set k { i with index := none } ∧
          (t.fetchAt sl.val).got = (s.fetchAt sl.val).got ∧ s.quiet t [])) ∧
    (x.missed sl.val false = [] → x.missed sl.val true = [] → exec (.fetchDeadline now sl) s = .next x) ∧
    (∃ t, exec (.fetchDeadline now sl) s = .next t ∧ (t.fetchAt sl.val).got = (s.fetchAt sl.val).got ∧
      (∀ next, ∀ m ∈ x.missed sl.val next, ∃ z ∈ (t.fetchAt sl.val).lost, z.group = m.2 ∧ z.next = next ∧ z.need = m.1) ∧
      s.quiet t [LY_LATE_STAT st]) ∧
    (∀ (next : Bool) (y : Nat) (g : Group) (u : RaceUse), x.groupToIssue sl.val = some (next, y, g) →
      (s.fetchAt sl.val).raceFor next = some u →
      let l := x.layer (x.bankFor (x.slotTl sl.val) next) sl.val
      l.race = true → x.raceHeld l u g = true →
      x.blendEntry (x.slotTl sl.val) next y ≤ x.dtime + x.latNs + x.urgentNs →
      (l.tide = true →
        ∃ t v, exec (.raceTideDeadline now sl) s = .next t ∧ (t.fetchAt sl.val).raceFor next = some v ∧ v.buf = u.buf ∧
          v.split = some (s.get (IG_STAT l.raceSrc) IG_STAT_LAST) ∧
          (x.specTag (x.slotTl sl.val) next = none → t.get (LY_LATE_STAT st) LY_LATE_STAT_TEAR = 1 ∧
            t.get (LY_RACE_STAT st) LY_RACE_STAT_BUF = s.get (IG_STAT l.raceSrc) IG_STAT_LAST % 8) ∧
          s.quiet t [LY_LATE_STAT st, LY_RACE_STAT st]) ∧
      (l.tide = false →
        ∃ t, exec (.raceTideDeadline now sl) s = .next t ∧
          (t.fetchAt sl.val).raceFor next = some { u with gaveUp := g :: u.gaveUp } ∧ s.quiet t []))

/-- R254, R256, R257. -/
def Obligations.FlatteningCompletes : Prop :=
  ∀ (s : State) (now : Nat) (tl : Fin 16),
    ((s.tick now).flatEligible tl.val = true →
      ∃ t, exec (.flattenStart now tl) s = .next t ∧
        (t.scanAt tl.val).flatJob = some ⟨((s.tick now).flatRunOf tl.val).map (·.slot), true⟩ ∧ s.quiet t [CA_Q_STAT 9, CA_Q_CNT 9]) ∧
    (∀ j : FlatJob, (s.scanAt tl.val).flatJob = some j → s.pavUp tl.val = true → s.islUp islCarousel = true →
      (∀ (p : Packed) (o : Nat), (s.tick now).flatPacked tl.val j.slots = some p → p.bandsOk (s.hactive tl.val) = true →
        s.poolFind (s.flatRuns.map (·.2)) p.size = some o →
        ∃ t r, exec (.flattenComplete now tl false) s = .next t ∧ (t.scanAt tl.val).flatJob = none ∧ (t.scanAt tl.val).flat = some r ∧
          r.slots = j.slots ∧ r.off = o ∧ r.bytes = p.size ∧ r.inUse = false ∧
          (∀ a, a < orangeryBase + o ∨ orangeryBase + o + p.size ≤ a → t.rdByte a = s.rdByte a) ∧
          s.storeSame t ∧ s.regsSame t [OG_USED, OG_FLAT, OG_SAVED, CA_Q_STAT 9, CA_Q_CNT 9]) ∧
      (∀ (p : Packed) (v : Nat × FlatRun) (vs : List (Nat × FlatRun)), (s.tick now).flatPacked tl.val j.slots = some p →
        p.bandsOk (s.hactive tl.val) = true → s.poolFind (s.flatRuns.map (·.2)) p.size = none →
        (let stay := s.flatRuns.filter fun x => x.2.ending != some 2; s.evictPlan stay p.size [] (sortBy evictLe stay) = some (v :: vs)) →
        (s.tick now).flatSaving tl.val j.slots ≤ ((v :: vs).map fun x => x.2.saving).foldl (· + ·) 0 →
        exec (.flattenComplete now tl false) s = .next { s.tick now with free := s.free + 1 }) ∧
      (∃ t, exec (.flattenComplete now tl true) s = .next t ∧ (t.scanAt tl.val).flatJob = none ∧
        (t.scanAt tl.val).flat = (s.scanAt tl.val).flat ∧
        (s.get OG_ABANDON_CNT OG_ABANDON_CNT_COUNT + 1 < 2 ^ OG_ABANDON_CNT_COUNT.w → t.get OG_ABANDON_CNT OG_ABANDON_CNT_COUNT = s.get OG_ABANDON_CNT OG_ABANDON_CNT_COUNT + 1) ∧
        s.quiet t [OG_ABANDON_CNT]))

/-- R145, R151, R152, R154, R156, R157, R159. -/
def Obligations.SurfaceCommandsComplete : Prop :=
  (∀ (s : State) (now : Nat) (p : Fin 4) (value : Nat) (u : State) (w : Word),
    (s.tick now).admits (.host p) (HP_SF_CMD p.val) value = some (u, w) →
    let v := u.wr (HP_SF_CMD p.val) w
    let h := v.rdN (HP_SF_ARG p.val 0)
    let e := v.entryAt (handleIndex h)
    let but := [HP_SF_CMD p.val, HP_SF_STAT p.val, HP_SF_RESULT p.val, CA_Q_STAT 8, CA_Q_CNT 8]
    (∀ i : Nat, getField (BitVec.ofNat 32 value) HP_SF_CMD_OP = 1 → getField w HP_SF_CMD_OP = 1 →
      createCheck v.space p.val (v.bar2Range p.val) (v.sfArgs p.val) = .done →
      (v.heldBy p.val).length < v.get (HP_SF_QUOTA p.val) HP_SF_QUOTA_MAX → v.lowestFree = some i →
      ∃ t, exec (.sfCreate now p value) s = .next t ∧
        t.surfAt i = { SurfEntry.ofBytes (v.sfArgs p.val) with
          owner := p.val, generation := (u.surfAt i).generation, releasing := false, pub := false } ∧
        t.get (HP_SF_STAT p.val) HP_SF_STAT_CODE = 0 ∧ t.rdN (HP_SF_RESULT p.val) = mkHandle i (t.surfAt i) % 2 ^ 32 ∧
        (∀ j, j ≠ i → t.surfAt j = u.surfAt j) ∧ (∀ a, a < 64 * i ∨ 64 * i + 64 ≤ a → t.rdByte a = u.rdByte a) ∧
        u.storeSame t ∧ u.regsSame t but) ∧
    (getField (BitVec.ofNat 32 value) HP_SF_CMD_OP = 2 → getField w HP_SF_CMD_OP = 2 → handleLive h e = true → e.owner = p.val →
      ∃ t, exec (.sfDestroy now p value) s = .next t ∧ t.surfAt (handleIndex h) = { e with releasing := true } ∧
        t.get (HP_SF_STAT p.val) HP_SF_STAT_CODE = 0 ∧ t.rdN (HP_SF_RESULT p.val) = h ∧
        (∀ j, j ≠ handleIndex h → t.surfAt j = u.surfAt j) ∧
        (∀ a, a < 64 * handleIndex h ∨ 64 * handleIndex h + 64 ≤ a → t.rdByte a = u.rdByte a) ∧ u.storeSame t ∧ u.regsSame t but) ∧
    (getField (BitVec.ofNat 32 value) HP_SF_CMD_OP = 3 → getField w HP_SF_CMD_OP = 3 → handleLive h e = true →
      e.owner = p.val ∨ e.pub = true →
      ∃ t, exec (.sfRead now p value) s = .next t ∧
        (∀ k, k < 11 → t.rdN (HP_SF_ARG p.val k) = fieldAt e.bytes44 (4 * k) 4) ∧ t.get (HP_SF_STAT p.val) HP_SF_STAT_CODE = 0 ∧
        t.rdN (HP_SF_RESULT p.val) = h ∧ (∀ j, t.surfAt j = u.surfAt j) ∧
        u.quiet t (but ++ (List.range 11).map (HP_SF_ARG p.val))) ∧
    (getField (BitVec.ofNat 32 value) HP_SF_CMD_OP = 4 → getField w HP_SF_CMD_OP = 4 →
      ∃ t, exec (.sfDestroyAll now p value) s = .next t ∧
        (∀ i ∈ u.heldBy p.val, (u.entryAt i).valid = true → t.surfAt i = { u.surfAt i with releasing := true }) ∧
        (∀ i, i ∉ u.heldBy p.val ∨ (u.entryAt i).valid = false → t.surfAt i = u.surfAt i) ∧ t.get (HP_SF_STAT p.val) HP_SF_STAT_CODE = 0 ∧
        t.rdN (HP_SF_RESULT p.val) = ((u.heldBy p.val).filter fun i => (u.entryAt i).valid && !(u.surfAt i).releasing).length % 2 ^ 32 ∧
        u.storeSame t ∧ u.regsSame t but)) ∧
  (∀ (s : State) (now : Nat) (i : Fin 65536), (s.tick now).retireDue i.val = true → (s.surfAt i.val).releasing = true →
    4 ≤ (s.surfAt i.val).owner ∨ (s.evAt (s.surfAt i.val).owner).lost = 0 →
    ∃ t, exec (.surfaceRetire now i) s = .next t ∧
      t.surfAt i.val = { SurfEntry.unused with generation := ((s.surfAt i.val).generation + 1) % 256 } ∧
      (∀ j, j ≠ i.val → t.surfAt j = s.surfAt j) ∧ (∀ a, a < 64 * i.val ∨ 64 * i.val + 64 ≤ a → t.rdByte a = s.rdByte a) ∧
      s.storeSame t ∧ s.regsSame t [CA_Q_STAT 8, CA_Q_CNT 8])

/-- R267 to R271, R277, R279 to R281, R283. -/
def Obligations.CommitRingsComplete : Prop :=
  ∀ (s : State) (now : Nat) (p : Fin 4) (r : Fin 8),
    let k := 8 * p.val + r.val
    (∀ (src : Src) (value : Nat) (u : State) (w : Word), (s.tick now).admits src (HP_CR_DB p.val r.val) value = some (u, w) →
      let prod := getField w HP_CR_DB_PROD
      (u.bellWaits src (HP_CR_DB p.val r.val) = true →
        exec (.commitDoorbell now src p r value) s =
          .next { u with bells := u.bells ++ [⟨src, HP_CR_DB p.val r.val, w.toNat⟩] }) ∧
      (u.bellWaits src (HP_CR_DB p.val r.val) = false →
      (getField w HP_CR_DB_EPOCH ≠ u.get (HP_EPOCH p.val) HP_EPOCH_EPOCH →
        ∃ t, exec (.commitDoorbell now src p r value) s = .next t ∧ t.get (HP_CR_STAT p.val r.val) HP_CR_STAT_STALE = 1 ∧
          (u.get (HP_CR_STAT p.val r.val) HP_CR_STAT_DROP_CNT + 1 < 65536 → t.get (HP_CR_STAT p.val r.val) HP_CR_STAT_DROP_CNT = u.get (HP_CR_STAT p.val r.val) HP_CR_STAT_DROP_CNT + 1) ∧
          t.ringAt k = u.ringAt k ∧ u.quiet t [HP_CR_STAT p.val r.val]) ∧
      (getField w HP_CR_DB_EPOCH = u.get (HP_EPOCH p.val) HP_EPOCH_EPOCH → u.ringOn p.val r.val = true →
        sdiff 16 prod (u.ringAt k).prod < 0 → exec (.commitDoorbell now src p r value) s = .next u) ∧
      (getField w HP_CR_DB_EPOCH = u.get (HP_EPOCH p.val) HP_EPOCH_EPOCH → u.ringOn p.val r.val = true →
        0 ≤ sdiff 16 prod (u.ringAt k).prod →
        2 ^ u.get (HP_CR_CTRL p.val r.val) HP_CR_CTRL_LOG2 < (prod + 2 ^ 16 - u.ringCons p.val r.val) % 2 ^ 16 →
        ∃ t, exec (.commitDoorbell now src p r value) s = .next t ∧ t.get (HP_CR_STAT p.val r.val) HP_CR_STAT_HALT = 1 ∧
          t.get (HP_CR_STAT p.val r.val) HP_CR_STAT_CAUSE = 1 ∧ t.ringAt k = u.ringAt k ∧
          u.quiet t [HP_CR_DB p.val r.val, HP_CR_STAT p.val r.val]) ∧
      (getField w HP_CR_DB_EPOCH = u.get (HP_EPOCH p.val) HP_EPOCH_EPOCH → u.ringOn p.val r.val = true →
        0 ≤ sdiff 16 prod (u.ringAt k).prod →
        (prod + 2 ^ 16 - u.ringCons p.val r.val) % 2 ^ 16 ≤ 2 ^ u.get (HP_CR_CTRL p.val r.val) HP_CR_CTRL_LOG2 →
        ∃ t, exec (.commitDoorbell now src p r value) s = .next t ∧ t.ringAt k = { u.ringAt k with prod := prod } ∧
          u.quiet t [HP_CR_DB p.val r.val]) ∧
      (getField w HP_CR_DB_EPOCH = u.get (HP_EPOCH p.val) HP_EPOCH_EPOCH → u.ringOn p.val r.val = false →
        ∃ t, exec (.commitDoorbell now src p r value) s = .next t ∧ t.ringAt k = { u.ringAt k with kept := some prod } ∧
          u.quiet t [HP_CR_DB p.val r.val]))) ∧
    (∀ (src : Src) (value : Nat) (u : State) (w : Word), (s.tick now).admits src (HP_CR_CTRL p.val r.val) value = some (u, w) →
      (getField w HP_CR_CTRL_EN = 1 → u.grantedW p.val 2 k = true → u.on (HP_CR_CTRL p.val r.val) HP_CR_CTRL_EN = false →
        4 ≤ getField w HP_CR_CTRL_LOG2 → getField w HP_CR_CTRL_LOG2 ≤ 12 → (u.ringAt k).kept = none →
        ∃ t, exec (.crEnable now src p r value) s = .next t ∧ t.get (HP_CR_CTRL p.val r.val) HP_CR_CTRL_EN = 1 ∧
          t.get (HP_CR_CTRL p.val r.val) HP_CR_CTRL_LOG2 = getField w HP_CR_CTRL_LOG2 ∧ t.ringOn p.val r.val = true ∧
          t.ringAt k = u.ringAt k ∧ u.quiet t [HP_CR_CTRL p.val r.val, HP_CR_STAT p.val r.val]) ∧
      (getField w HP_CR_CTRL_EN = 0 →
        ∃ t, exec (.crEnable now src p r value) s = .next t ∧ t.ringOn p.val r.val = false ∧ t.ringAt k = u.ringAt k ∧
          u.quiet t [HP_CR_CTRL p.val r.val])) ∧
    (∀ (host : List Byte) (y : State),
      let x := s.tick now
      x.validatorFree = true → x.validatorTurn = some (p.val, r.val) → x.reserve [p.val] = some y →
      let o := x.get (HP_CR_BASE_LO p.val r.val) HP_CR_BASE_LO_BASE * 4096 + x.get (HP_CR_BASE_HI p.val r.val) HP_CR_BASE_HI_BASE * 2 ^ 32 +
        64 * (x.ringCons p.val r.val % 2 ^ x.get (HP_CR_CTRL p.val r.val) HP_CR_CTRL_LOG2)
      windowOf (hwBase p.val + o) = some (p.val, o) → x.hwOk p.val o 64 = true →
      let raw := bytesAt host 0 64
      let d := Desc.ofBytes raw
      let n := if 1 ≤ d.nrec ∧ d.nrec ≤ 13 then 96 * d.nrec else 0
      let a := hwBase p.val + d.records * 128
      let v := (((y.turnTaken p.val r.val).unitIssue (hwBase p.val + o) 64 .besteffort).busRead (hwBase p.val + o) 64 .ok host).1
      let got := (v.unitIssue a n .besteffort).busRead a n .ok (host.drop 64)
      (∀ f, (d.epoch ≠ x.get (HP_EPOCH p.val) HP_EPOCH_EPOCH ∧ f = HP_CR_STAT_STALE) ∨
          (d.epoch = x.get (HP_EPOCH p.val) HP_EPOCH_EPOCH ∧ sdiff 32 d.seq (x.rdN (HP_CR_NEXT_SEQ p.val r.val)) < 0 ∧ f = HP_CR_STAT_DUP) →
        ∃ t, exec (.commitEntryRead now p r .ok host []) s = .next t ∧ t.ringCons p.val r.val = (s.ringCons p.val r.val + 1) % 65536 ∧
          t.get (HP_CR_STAT p.val r.val) f = 1 ∧ t.rdN (HP_CR_NEXT_SEQ p.val r.val) = s.rdN (HP_CR_NEXT_SEQ p.val r.val) ∧
          t.ringAt k = s.ringAt k ∧ s.quiet t (HP_CR_CONS p.val r.val :: HP_CR_STAT p.val r.val :: hubQueueWords)) ∧
      (d.epoch = x.get (HP_EPOCH p.val) HP_EPOCH_EPOCH → d.seq = x.rdN (HP_CR_NEXT_SEQ p.val r.val) →
        d.records * 128 + n ≤ x.hwSize p.val → ∀ recs, got.2 = some recs →
        (∀ i ∈ namedIndices (d.recs recs), s.poisoned (64 * i) 64 = false) →
        let w := got.1.tableReads (namedIndices (d.recs recs))
        let z := (w.indexReads p.val [] raw recs).foldl (fun s x => ((s.busIssue x.1 x.2 .guaranteed 0 .plain).busRead x.1 x.2 .ok []).1) w
        let but := allPorts.map HP_HW_STAT ++ hubQueueWords
        (∀ c, z.validate p.val r.val [] raw recs (host.drop (64 + n)) = .inr c →
          ∃ t, exec (.commitEntryRead now p r .ok host []) s = .next t ∧ t.ringAt k = { s.ringAt k with cand := some c } ∧ s.quiet t but) ∧
        (∀ e, z.validate p.val r.val [] raw recs (host.drop (64 + n)) = .inl e →
          ∃ t, exec (.commitEntryRead now p r .ok host []) s = .next t ∧ t.ringCons p.val r.val = (s.ringCons p.val r.val + 1) % 65536 ∧
            t.rdN (HP_CR_NEXT_SEQ p.val r.val) = (s.rdN (HP_CR_NEXT_SEQ p.val r.val) + 1) % 2 ^ 32 ∧
            (t.evAt p.val).reserved = (s.evAt p.val).reserved ∧ (e.step = 6 → t.get AD_LAST AD_LAST_CODE = 0x14) ∧
            s.quiet t ([HP_CR_CONS p.val r.val, HP_CR_NEXT_SEQ p.val r.val] ++
              (if e.step = 6 then [AD_LAST, AD_SHORT, AD_REF_CNT] else []) ++ but)))) ∧
    (∀ c : Candidate, (s.ringAt k).cand = some c → s.islUp islCarousel = true → s.evFree p.val = true → s.park.step = 0 →
      c.desc.tl < 16 →
      let x := s.tick now
      (∀ a, s.journalUsed c.desc.tl + journalUnits c ≤ 8192 → x.stepAdmit c.desc.tl (x.candImage c) = .inl a →
        ∃ t m, exec (.commitAccept now p r []) s = .next t ∧ (t.tlcAt c.desc.tl).live = (s.tlcAt c.desc.tl).live ++ [m] ∧
          m.state = .waiting ∧ m.desc = c.desc ∧ m.mode = a.mode ∧
          m.order = (s.tlcAt c.desc.tl).order ∧ (t.tlcAt c.desc.tl).order = ((s.tlcAt c.desc.tl).order + 1) % 2 ^ 32 ∧
          t.ringCons p.val r.val = (s.ringCons p.val r.val + 1) % 65536 ∧
          t.rdN (HP_CR_NEXT_SEQ p.val r.val) = (s.rdN (HP_CR_NEXT_SEQ p.val r.val) + 1) % 2 ^ 32 ∧
          t.get AD_LAST AD_LAST_CODE = c.status % 256 ∧
          (t.ringAt k).cand = none ∧ (t.ringAt k).prod = (s.ringAt k).prod ∧ s.storeSame t) ∧
      (∀ fs : List Nat, fs ≠ [] ∨ 8192 < s.journalUsed c.desc.tl + journalUnits c →
        ∃ t, exec (.commitAccept now p r fs) s = .next t ∧ t.tlcAt c.desc.tl = s.tlcAt c.desc.tl ∧ (t.ringAt k).cand = none ∧
          t.ringCons p.val r.val = (s.ringCons p.val r.val + 1) % 65536 ∧
          s.quiet t [HP_CR_CONS p.val r.val, HP_CR_NEXT_SEQ p.val r.val]))

/-- R283, R284, R286, R290 to R293, R295, R296. -/
def Obligations.CommitLifeCompletes : Prop :=
  ∀ (s : State) (now : Nat) (tl : Fin 16),
    (∀ c : Commit, s.nextWaiting tl.val = some c → (s.tick now).mayLeave tl.val c = true →
      ∃ t, exec (.commitLeaveWaiting now tl) s = .next t ∧
        (t.tlcAt tl.val).image = some (c.order, (s.readBank tl.val (!s.sealed tl.val)).applyCommit c) ∧
        (∀ d ∈ (t.tlcAt tl.val).live, d.order = c.order → d.state = .assembled) ∧
        (t.tlcAt tl.val).live.map (·.order) = (s.tlcAt tl.val).live.map (·.order) ∧ s.quiet t []) ∧
    (∃ t, exec (.notBeforeTarget now tl) s = .next t ∧
      (∀ c ∈ (t.tlcAt tl.val).live, c.desc.tkind = 2 → c.desc.target ≤ max s.dtime now → c.targetOk = true) ∧
      (t.tlcAt tl.val).live.map (·.order) = (s.tlcAt tl.val).live.map (·.order) ∧ s.quiet t []) ∧
    (∀ (n : Nat) (img : BankImage), (s.tlcAt tl.val).image = some (n, img) → s.pavUp tl.val = true → s.islUp islCarousel = true →
      (∀ c : Commit, (s.tlcAt tl.val).handover = none → (s.tlcAt tl.val).live.find? (fun c => c.order == n) = some c →
        ∃ t, exec (.commitSeal now tl) s = .next t ∧ t.sealed tl.val = true ∧ (t.tlcAt tl.val).image = none ∧
          (t.tlcAt tl.val).sealAt = max s.dtime now ∧ (t.tlcAt tl.val).noMerge = c.desc.noMerge ∧
          (∀ d ∈ (t.tlcAt tl.val).live, d.order = n → d.state = .sealed) ∧ s.storeSame t ∧
          (s.writeBank tl.val false img).regsSame t [PV_SEAL (s.pvName (tl.val / 2)) (tl.val % 2), PV_GSTAT (s.pvName (tl.val / 2)), CA_Q_STAT 8, CA_Q_CNT 8]) ∧
      (∀ h : Handover, (s.tlcAt tl.val).handover = some h →
        exec (.commitSeal now tl) s =
          .next ((s.tick now).setTlcAt tl.val { s.tlcAt tl.val with handover := some { h with commit := true } }))) ∧
    (∀ c : Commit, s.islUp islCarousel = true → (s.tlcAt tl.val).live.find? (s.tick now).fenceOver = some c →
      ∃ t, exec (.fenceTimeout now tl) s = .next t ∧
        (t.tlcAt tl.val).live = (s.tlcAt tl.val).live.filter (fun x => x.order != c.order) ∧
        s.storeSame t ∧ s.regsSame t [AD_TL_MODE tl.val, AD_TL_RES tl.val, CA_Q_STAT 8, CA_Q_CNT 8]) ∧
    (∀ (pv : Fin 8) (b : Fin 2) (src : Src) (value : Nat) (u : State) (w : Word),
      (s.tick now).admits src (PV_SEAL pv.val b.val) value = some (u, w) →
      let k := 2 * pv.val + b.val
      let reg := PV_SEAL (u.pvName pv.val) b.val
      (getField w PV_SEAL_SEAL = 0 → exec (.directSeal now src pv b value) s = .next u) ∧
      (getField w PV_SEAL_SEAL = 1 → (u.tlcAt k).live ≠ [] →
        ∃ t, exec (.directSeal now src pv b value) s = .next t ∧ t.get reg PV_SEAL_CODE = 0x18 ∧ t.get reg PV_SEAL_SEAL = 0 ∧
          t.tlcAt k = u.tlcAt k ∧ u.quiet t [reg]) ∧
      (∀ (img : BankImage) (code : Nat) (a : AdmResult), getField w PV_SEAL_SEAL = 1 → (u.tlcAt k).live = [] → (u.tlcAt k).handover = none →
        u.directCheck k (sealOwner src) = .inr (img, code, a) →
        ∃ t, exec (.directSeal now src pv b value) s = .next t ∧ t.sealed k = true ∧ (t.tlcAt k).sealAt = max s.dtime now ∧
          t.get reg PV_SEAL_CODE = code % 256 ∧ u.memSame t ∧ u.storeSame t) ∧
      (∀ e : Refuse, getField w PV_SEAL_SEAL = 1 → (u.tlcAt k).live = [] → u.directCheck k (sealOwner src) = .inl e →
        ∃ t, exec (.directSeal now src pv b value) s = .next t ∧ t.sealed k = u.sealed k ∧ t.tlcAt k = u.tlcAt k ∧
          t.get reg PV_SEAL_CODE = e.code % 256 ∧ t.get reg PV_SEAL_SEAL = 0 ∧
          u.quiet t (reg :: if e.step = 6 then [AD_LAST, AD_SHORT, AD_REF_CNT] else [])))

/-- R297, R298, R306, R307. -/
def Obligations.EventRingsComplete : Prop :=
  ∀ (s : State) (now : Nat) (p : Fin 4),
    (∀ (src : Src) (value : Nat) (u : State) (w : Word), (s.tick now).admits src (HP_EV_CTRL p.val) value = some (u, w) →
      u.on (HP_EV_CTRL p.val) HP_EV_CTRL_EN = false →
      (getField w HP_EV_CTRL_EN = 1 → 6 ≤ getField w HP_EV_CTRL_LOG2 → getField w HP_EV_CTRL_LOG2 ≤ 16 →
        ∃ t, exec (.evEnable now src p value) s = .next t ∧ t.get (HP_EV_CTRL p.val) HP_EV_CTRL_EN = 1 ∧
          t.evLog2 p.val = getField w HP_EV_CTRL_LOG2 ∧ u.quiet t [HP_EV_CTRL p.val]) ∧
      (getField w HP_EV_CTRL_EN = 1 → getField w HP_EV_CTRL_LOG2 < 6 ∨ 16 < getField w HP_EV_CTRL_LOG2 →
        ∃ t, exec (.evEnable now src p value) s = .next t ∧ t.get (HP_EV_CTRL p.val) HP_EV_CTRL_EN = 0 ∧
          t.get (HP_EV_STAT p.val) HP_EV_STAT_CFG_BAD = 1 ∧ u.quiet t [HP_EV_CTRL p.val, HP_EV_STAT p.val]) ∧
      (getField w HP_EV_CTRL_EN = 0 →
        ∃ t, exec (.evEnable now src p value) s = .next t ∧ t.get (HP_EV_CTRL p.val) HP_EV_CTRL_EN = 0 ∧
          u.quiet t [HP_EV_CTRL p.val])) ∧
    (∀ e : Event,
      let o := s.evBase p.val + s.rdN (HP_EV_PROD p.val) % 2 ^ s.evLog2 p.val * s.evRecord
      (s.evAt p.val).backlog = [e] → (s.evAt p.val).lost = 0 → s.on (HP_EV_CTRL p.val) HP_EV_CTRL_EN = true →
      s.islUp (islHost p.val) = true → s.bells = [] →
      s.engUp = false ∨ (∀ c, (s.dmaAt c).stalled = false) ∧ (∀ c, c < 8 → s.blState c ≠ 1) → s.evUsed p.val < 2 ^ s.evLog2 p.val → s.hwOk p.val o (e.bytes s.power.compat).length = true →
      ∃ t, exec (.eventRecordWrite now p) s = .next t ∧ (t.evAt p.val).backlog = [] ∧
        t.rdN (HP_EV_PROD p.val) = (s.rdN (HP_EV_PROD p.val) + 1) % 2 ^ 32 ∧
        HostMsg.write (s.hwHost p.val o) (e.bytes s.power.compat) ∈ (t.evAt p.val).outbox ∧ s.memSame t ∧ s.storeSame t) ∧
    (∀ v : Fin 64, (s.tick now).holdoffDue p.val v.val = true → s.msixOn p.val = true →
      (s.vecMasked p.val v.val = false →
        ∃ t, exec (.msixHoldoffExpiry now p v) s = .next t ∧ t.vecAt (vecKey p.val v.val) = ⟨0, 0⟩ ∧
          (t.evAt p.val).outbox = .msix v.val (s.rdN (MSIX_ADDR_LO p.val v.val) + s.rdN (MSIX_ADDR_HI p.val v.val) * 2 ^ 32)
            (s.rdN (MSIX_DATA p.val v.val)) :: (s.evAt p.val).outbox ∧ s.quiet t []) ∧
      (s.vecMasked p.val v.val = true →
        ∃ t, exec (.msixHoldoffExpiry now p v) s = .next t ∧ t.vecAt (vecKey p.val v.val) = ⟨0, 0⟩ ∧
          t.get (MSIX_PBA p.val (v.val / 32)) (pendFld v.val) = 1 ∧ t.evAt p.val = s.evAt p.val ∧
          s.quiet t [MSIX_PBA p.val (v.val / 32)]))

/-- R43, R131, R304, R452 to R458, R561. -/
def Obligations.HostPortsComplete : Prop :=
  ∀ (s : State) (now : Nat) (p : Fin 4),
    (s.portUp p.val = true → s.linkUp p.val = true →
      ∃ t1 t2 t3, exec (.hostLinkDown now p) s = .next t1 ∧ exec (.hotReset now p) s = .next t2 ∧
        exec (.functionLevelReset now p) s = .next t3 ∧
        t1.get (HP_RST_STAT p.val) HP_RST_STAT_LINKDOWN = 1 ∧ t2.get (HP_RST_STAT p.val) HP_RST_STAT_HOTRST = 1 ∧
        t3.get (HP_RST_STAT p.val) HP_RST_STAT_FLR = 1 ∧ t1.linkUp p.val = false ∧ t2.linkUp p.val = true ∧ t3.linkUp p.val = true ∧
        ∀ t, t = t1 ∨ t = t2 ∨ t = t3 →
          t.get (HP_EPOCH p.val) HP_EPOCH_EPOCH = (s.get (HP_EPOCH p.val) HP_EPOCH_EPOCH + 1) % 65536 ∧
          (s.rdN (HP_RST_CNT p.val) + 1 < 2 ^ 32 → t.rdN (HP_RST_CNT p.val) = s.rdN (HP_RST_CNT p.val) + 1) ∧ (∀ r : Fin 8, t.ringOn p.val r.val = false) ∧
          t.on (HP_EV_CTRL p.val) HP_EV_CTRL_EN = false ∧ t.on (HP_LINK p.val) HP_LINK_BME = false ∧ (t.portAt p.val).mse = false ∧
          s.memSame t ∧ s.storeSame t) ∧
    (∀ speed width : Nat, s.portUp p.val = true → s.linkUp p.val = false → 1 ≤ speed → speed ≤ 5 → width ∈ [1, 2, 4, 8] →
      ∃ t, exec (.hostLinkUp now p speed width) s = .next t ∧ t.linkUp p.val = true ∧
        t.get (HP_LINK p.val) HP_LINK_SPEED = min speed (s.get (HP_CFG p.val) HP_CFG_MAXSPEED) ∧
        t.get (HP_LINK p.val) HP_LINK_WIDTH = width ∧ s.quiet t [HP_LINK p.val, HP_RST_STAT p.val]) ∧
    (∀ enter : Bool, s.portUp p.val = true → s.linkUp p.val = true →
      exec (.hostD3hot now p enter) s = .next ((s.tick now).put (HP_LINK p.val) HP_LINK_D3 (b2n enter))) ∧
    (s.power.perst.contains p.val = false → s.islandsRun = false →
      exec (.perstAssert now p) s = .next { s.tick now with power := { s.power with perst := p.val :: s.power.perst } }) ∧
    (s.power.perst.contains p.val = false → s.islandsRun = true → s.islUp (islHost p.val) = true →
      ∃ t, exec (.perstAssert now p) s = .next t ∧ t.power.perst = p.val :: s.power.perst ∧ t.linkUp p.val = false ∧
        t.on (HP_LINK p.val) HP_LINK_BME = false ∧ s.memSame t ∧ s.storeSame t) ∧
    (s.power.perst.contains p.val = true →
      exec (.perstRelease now p) s = .next { s.tick now with power := { s.power with perst := s.power.perst.filter (· != p.val) } }) ∧
    (s.portUp p.val = true → s.linkUp p.val = true → s.on SY_BOOT_STAT SY_BOOT_STAT_READY = false → ∀ req : CfgReq,
      exec (.configurationRequest now p req) s = .next ((s.tick now).toHost p.val .retry)) ∧
    (s.portUp p.val = true → s.linkUp p.val = true → s.on SY_BOOT_STAT SY_BOOT_STAT_READY = true →
      exec (.configurationRequest now p (.read 0)) s =
        .next ((s.tick now).toHost p.val (.completion (leBytes 2 0x1F6C ++ leBytes 2 0x9680) false)) ∧
      (∀ on : Bool, exec (.configurationRequest now p (.memSpace on)) s =
        .next ((s.tick now).setPortAt p.val { s.portAt p.val with mse := on })) ∧
      (∀ a : Nat, exec (.configurationRequest now p (.bar 0 a)) s =
        .next ((s.tick now).setPortAt p.val { s.portAt p.val with bar0 := a / 2 ^ 26 * 2 ^ 26 })) ∧
      (∀ l : Nat, 20 ≤ l → l ≤ s.getUse (HP_BAR2_SIZE p.val) HP_BAR2_SIZE_LOG2 →
        ∃ t, exec (.configurationRequest now p (.barSize l)) s = .next t ∧ (t.portAt p.val).barLog2 = some l ∧
          s.quiet t [HP_BAR2_SIZE p.val]) ∧
      (∃ t, exec (.configurationRequest now p (.busMaster false)) s = .next t ∧ t.on (HP_LINK p.val) HP_LINK_BME = false ∧
        s.quiet t [HP_LINK p.val]))

/-- R224, R348, R393 to R397, R399, R405 to R407, R409. -/
def Obligations.CarouselCompletes : Prop :=
  ∀ (s : State) (now : Nat),
    let x := s.tick now
    (∀ (p : Fin 4) (read : Bool) (offset len tc : Nat) (data : List Byte) (hpa : Nat), s.bar2Hpa p.val offset = some hpa →
      s.linkUp p.val = true → (s.portAt p.val).mse = true → s.on (HP_LINK p.val) HP_LINK_D3 = false → s.islUp islCarousel = true →
      let k := 2 * p.val + b2n read
      let pkt : Packet := { len := if read then len else data.length, tc := tc, addr := hpa, data := if read then [] else data,
                            rd := if read then len else 0 }
      let l := s.packetL k pkt * micro
      let full := x.polRefill k x.dtime
      let passed (t : State) (green : Bool) : Prop := (t.polAt k).held = [] ∧
        (windowOf hpa = none → t.reqs = ⟨!read, hpa, if read then len else data.length,
          (colourClass (s.on (CA_P_CTRL k) CA_P_CTRL_GUAR) green).1, 0, (colourClass (s.on (CA_P_CTRL k) CA_P_CTRL_GUAR) green).2⟩ :: s.reqs) ∧
        (read = false → (s.subsUp = true → t.rdBytes hpa data.length = data) ∧ (∀ a, a < hpa ∨ hpa + data.length ≤ a → t.rdByte a = s.rdByte a)) ∧
        (read = true → s.memSame t ∧
          (t.evAt p.val).outbox = .completion (s.rdBytes hpa len) (!s.memGood hpa len) :: (s.evAt p.val).outbox) ∧
        s.storeSame t ∧ s.regsSame t [CA_P_GCNT k, CA_P_YCNT k, CA_P_TC k, CA_P_TP k]
      ((s.polAt k).held = [] → s.on (CA_P_CTRL k) CA_P_CTRL_EN = false →
        ∃ t, exec (.policerPacket now p read offset len tc data) s = .next t ∧ passed t false) ∧
      ((s.polAt k).held = [] → s.on (CA_P_CTRL k) CA_P_CTRL_EN = true → s.preColour k tc = 0 → l ≤ full.1 → l ≤ full.2 →
        ∃ t, exec (.policerPacket now p read offset len tc data) s = .next t ∧ passed t true ∧ (t.polAt k).tc = full.1 - l ∧
          (t.polAt k).tp = full.2 - l ∧ (t.polAt k).t = x.dtime) ∧
      ((s.polAt k).held = [] → s.on (CA_P_CTRL k) CA_P_CTRL_EN = true → full.2 < l →
        ∃ t, exec (.policerPacket now p read offset len tc data) s = .next t ∧ (t.polAt k).held = [pkt] ∧
          t.get (CA_P_STAT k) CA_P_STAT_HOLDING = 1 ∧ t.get (CA_P_STAT k) CA_P_STAT_HELD = 1 ∧
          (s.rdN (CA_P_RCNT k) + 1 < 2 ^ 32 → t.rdN (CA_P_RCNT k) = s.rdN (CA_P_RCNT k) + 1) ∧
          s.quiet t [CA_P_STAT k, CA_P_RCNT k, CA_P_TC k, CA_P_TP k]) ∧
      ((s.polAt k).held ≠ [] → (∀ tr, s.polReleaseAt k = some tr → x.dtime < tr) →
        exec (.policerPacket now p read offset len tc data) s =
          .next (x.setPolAt k { s.polAt k with held := (s.polAt k).held ++ [pkt] }))) ∧
    (∀ (k : Fin 8) (pkt : Packet) (tr : Nat), (s.polAt k.val).held = [pkt] → s.polReleaseAt k.val = some tr → tr ≤ x.dtime → s.bells = [] →
      s.hostReads = [] → s.islUp islCarousel = true →
      ∃ t, exec (.redPacketRelease now k) s = .next t ∧ (t.polAt k.val).held = [] ∧ t.get (CA_P_STAT k.val) CA_P_STAT_HOLDING = 0 ∧
        (k.val % 2 = 0 → (s.subsUp = true → t.rdBytes pkt.addr pkt.data.length = pkt.data) ∧
          (∀ a, a < pkt.addr ∨ pkt.addr + pkt.data.length ≤ a → t.rdByte a = s.rdByte a)) ∧
        (k.val % 2 = 1 → s.memSame t) ∧ s.storeSame t ∧
        s.regsSame t [CA_P_STAT k.val, CA_P_YCNT k.val, CA_P_TC k.val, CA_P_TP k.val]) ∧
    (∀ (q : Fin 256) (req : QReq), 8 ≤ q.val → s.islUp islCarousel = true →
      let h := s.shqAt q.val
      (h.reqs ≠ [] → exec (.queueRequest now q req) s = .next (x.setShqAt q.val { h with reqs := h.reqs ++ [⟨req, none⟩] })) ∧
      (h.reqs = [] → s.on (CA_Q_CTRL q.val) CA_Q_CTRL_EN = true → s.qRate q.val ≠ 0 → s.qDebt q.val x.dtime ≤ s.qBurst q.val →
        ∃ t, exec (.queueRequest now q req) s = .next t ∧ (t.shqAt q.val).out = (req.bytes, true) :: h.out ∧
          (t.shqAt q.val).reqs = [] ∧ (t.shqAt q.val).d = s.qDebt q.val x.dtime + req.bytes * micro ∧ (t.shqAt q.val).t0 = x.dtime ∧
          s.quiet t [CA_Q_STAT q.val, CA_Q_CNT q.val]) ∧
      (h.reqs = [] → s.on (CA_Q_CTRL q.val) CA_Q_CTRL_EN = true → s.qRate q.val ≠ 0 → s.qBurst q.val < s.qDebt q.val x.dtime →
        s.on (CA_Q_CTRL q.val) CA_Q_CTRL_EXCESS = false →
        ∃ t, exec (.queueRequest now q req) s = .next t ∧ (t.shqAt q.val).reqs = [⟨req, none⟩] ∧ (t.shqAt q.val).out = h.out ∧
          (t.shqAt q.val).elig = some (s.qElig q.val x.dtime) ∧ s.quiet t [CA_Q_STAT q.val])) ∧
    (∀ (q : Fin 256) (e : Nat) (w : QWait), (s.shqAt q.val).elig = some e → e ≤ x.dtime → (s.shqAt q.val).reqs = [w] →
      s.on (CA_Q_CTRL q.val) CA_Q_CTRL_EN = true → s.qRate q.val ≠ 0 → s.qDebt q.val e ≤ s.qBurst q.val →
      ∃ t, exec (.queueEligible now q) s = .next t ∧ (t.shqAt q.val).out = (w.req.bytes, true) :: (s.shqAt q.val).out ∧
        (t.shqAt q.val).reqs = [] ∧ (t.shqAt q.val).elig = none ∧ (t.shqAt q.val).d = s.qDebt q.val e + w.req.bytes * micro ∧
        (t.shqAt q.val).t0 = e ∧ s.memSame t ∧ s.storeSame t ∧
        (∀ c off a, w.read = some (c, off, a) → windowOf a = none →
          ⟨false, a, w.req.bytes, (colourClass (s.on (CA_Q_CTRL q.val) CA_Q_CTRL_GUAR) true).1, 0, .plain⟩ ∈ t.reqs) ∧
        (w.read = none → x.wheelOrder q.val e = [q.val] → s.quiet t [CA_Q_STAT q.val, CA_Q_CNT q.val])) ∧
    (∀ (q : Fin 256) (src : Src) (value : Nat) (u : State) (w : Word), x.admits src (CA_Q_RATE q.val) value = some (u, w) →
      (u.shqAt q.val).reqs = [] →
      ∃ t, exec (.queueRateWrite now src q value) s = .next t ∧
        t.rdN (CA_Q_RATE q.val) = min w.toNat (u.rdN (CA_Q_CONTRACT q.val)) ∧ (t.shqAt q.val).d = u.qDebt q.val u.dtime ∧
        (t.get (CA_Q_STAT q.val) CA_Q_STAT_PAUSED = 1 ↔ t.rdN (CA_Q_RATE q.val) = 0) ∧
        u.quiet t [CA_Q_RATE q.val, CA_Q_STAT q.val])

/-- R16, R225, R428, R433 to R437, R464. -/
def Obligations.DramAccessCompletes : Prop :=
  ∀ (s : State) (now : Nat),
    let x := s.tick now
    (∀ (c : DramConf) (hpa : Nat) (cls : MemClass) (deadline : Nat), s.locket.dram = some c → s.ddrTakes = true → hpa < s.dramCap →
      (∀ kind : ReadKind, s.ddrServes hpa = true →
        let k := s.servingSub c hpa
        let d := s.dramAt k
        ((∀ e, d.wq.find? (fun e => e.hpa == blockOf hpa) = some e → e.complete = false) →
          ∃ t r, exec (.dramRead now hpa ⟨cls, kind⟩ deadline) s = .next t ∧ (t.dramAt k).reads = d.reads ++ [r] ∧ r.hpa = blockOf hpa ∧
            r.cls = cls ∧ r.deadline = deadline ∧ r.kind = kind ∧ r.at_ = x.dtime ∧
            r.waits = (d.wq.find? fun e => e.hpa == blockOf hpa).isSome ∧ r.fill = none ∧ (t.dramAt k).wq = d.wq ∧ s.quiet t []) ∧
        (∀ e, d.wq.find? (fun e => e.hpa == blockOf hpa) = some e → e.complete = true →
          ∃ t, exec (.dramRead now hpa ⟨cls, kind⟩ deadline) s = .next t ∧
            (t.dramAt k).done = ⟨d.next, !s.poison.contains (blockOf hpa)⟩ :: d.done ∧ (t.dramAt k).reads = d.reads ∧ s.quiet t [])) ∧
      (∀ data : List Byte, data ≠ [] → hpa % 64 + data.length ≤ 64 → hpa + data.length ≤ s.dramCap →
        let ks := (s.writeSubs c hpa).filter fun k => s.islUp (islSub k)
        ks ≠ [] → ks.Nodup → (∀ k ∈ ks, (s.dramAt k).waits = [] ∧ (s.dramAt k).room cls = true ∧
          (s.dramAt k).wq.find? (fun e => e.hpa == blockOf hpa) = none) →
        ∃ t, exec (.dramWrite now hpa data cls deadline) s = .next t ∧ t.rdBytes hpa data.length = data ∧
          (∀ a, a < hpa ∨ hpa + data.length ≤ a → t.rdByte a = s.rdByte a) ∧
          (∀ k ∈ ks, ∃ e, (t.dramAt k).wq = (s.dramAt k).wq ++ [e] ∧ e.hpa = blockOf hpa ∧
            e.cls = cls ∧ e.deadline = deadline ∧ e.complete = decide (data.length = 64) ∧ e.issued = false) ∧
          s.storeSame t ∧ s.regsSame t (ks.map DR_SC_WQ))) ∧
    (∀ (conf : DramConf) (c : Fin 8) (id : Nat) (r : RdEntry), s.locket.dram = some conf → s.poison = [] →
      (s.dramAt c.val).reads.find? (fun r => r.id == id && !r.waits) = some r →
      (x.mayServe conf c.val r = false → exec (.dramReadReturn now c id [] []) s = .next x) ∧
      (x.mayServe conf c.val r = true → ∃ t, exec (.dramReadReturn now c id [] []) s = .next t ∧
        (∀ y ∈ (t.dramAt c.val).reads, y.id ≠ id) ∧
        (r.fill = none → (t.dramAt c.val).done = ⟨id, true⟩ :: (s.dramAt c.val).done) ∧
        (∀ e, r.fill = some e → ∀ w ∈ (t.dramAt c.val).wq, w.id = e → w.complete = true) ∧ s.quiet t [])) ∧
    (∀ (c : Fin 8) (id : Nat) (e : WqEntry), (s.dramAt c.val).wq.find? (fun e => e.id == id && e.issued) = some e →
      (e.attempts < 4 →
        exec (.writeCrcAlert now c id) s = .next (x.setDramAt c.val { s.dramAt c.val with
          wq := (s.dramAt c.val).wq.map fun y => if y.id == id then { y with attempts := y.attempts + 1 } else y })) ∧
      (4 ≤ e.attempts → (s.dramAt c.val).waits = [] →
        ∃ t, exec (.writeCrcAlert now c id) s = .next t ∧
          (s.rdN (DR_SC_WRFAIL_CNT c.val) + 1 < 2 ^ 32 → t.rdN (DR_SC_WRFAIL_CNT c.val) = s.rdN (DR_SC_WRFAIL_CNT c.val) + 1) ∧
          (t.dramAt c.val).wq = (s.dramAt c.val).wq.filter (fun y => y.id != id) ∧ id ∈ (t.dramAt c.val).failedWr ∧
          (∀ a, a < e.hpa ∨ e.hpa + 64 ≤ a → t.rdByte a = s.rdByte a) ∧ s.storeSame t ∧
          s.regsSame t [DR_SC_WRFAIL_CNT c.val, DR_SC_WQ c.val])) ∧
    (∀ (conf : DramConf) (c : Fin 8) (id : Nat) (e : WqEntry), s.locket.dram = some conf →
      (s.dramAt c.val).wq.find? (fun e => e.id == id && e.issued && e.complete) = some e → (s.dramAt c.val).waits = [] →
      ∃ t, exec (.dramWriteAck now (.entry c id)) s = .next t ∧
        (t.dramAt c.val).wq = (s.dramAt c.val).wq.filter (fun y => y.id != id) ∧ s.quiet t [DR_SC_WQ c.val]) ∧
    (∀ (c : Fin 24) (f : IgFrame), s.igUp = true → ackFirst (s.igAt c.val).await = none → (s.igAt c.val).cur = some f → f.open_ ≠ [] →
      ∃ t, exec (.dramWriteAck now (.line c)) s = .next t ∧ (t.igAt c.val).cur = some f.ack ∧
        t.get (IG_LINE_CNT c.val) IG_LINE_CNT_A = f.ack.leading % 65536 ∧ s.quiet t [IG_LINE_CNT c.val]) ∧
    (∀ (c : Fin 32) (q : DmaRun), s.engUp = true → (s.dmaAt c.val).run = some q → q.moved = true →
      exec (.dramWriteAck now (.dma c)) s = .next (x.setDmaAt c.val { s.dmaAt c.val with run := some { q with acked := true } }))

/-- R427, R436 to R441, R443, R444. -/
def Obligations.DramUpkeepCompletes : Prop :=
  ∀ (s : State) (now : Nat) (c : Fin 8),
    let x := s.tick now
    (x.batchDue c.val = true →
      ∃ t, exec (.writeBatchStart now c) s = .next t ∧ (t.dramAt c.val).batch = !x.urgentWaits c.val ∧
        (t.dramAt c.val).wq.map (·.id) = (s.dramAt c.val).wq.map (·.id) ∧ s.quiet t []) ∧
    (∀ rank bank : Nat,
      exec (.rowIdleClose now c rank bank) s = .next (x.setDramAt c.val { s.dramAt c.val with
        rows := (s.dramAt c.val).rows.filter fun r => !(r.1 == rank && r.2.1 == bank && decide (r.2.2.2 + 200 ≤ x.dtime)) })) ∧
    (∀ r : Fin 2, x.tickDue c.val r.val = true →
      ∃ t, exec (.refreshTick now c r) s = .next t ∧ t.debt c.val r.val = min 4 (s.debt c.val r.val + 1) ∧
        s.quiet t [DR_SC_STAT c.val, DR_SC_PAY_CNT c.val]) ∧
    (∀ r : Fin 2, s.rankOn c.val r.val = true → 1 ≤ s.debt c.val r.val →
      ∃ t, exec (.owedCommandPaid now c r) s = .next t ∧ t.debt c.val r.val = s.debt c.val r.val - 1 ∧
        (s.rdN (DR_SC_REF_CNT c.val) + 1 < 2 ^ 32 → t.rdN (DR_SC_REF_CNT c.val) = s.rdN (DR_SC_REF_CNT c.val) + 1) ∧ s.quiet t [DR_SC_STAT c.val, DR_SC_REF_CNT c.val]) ∧
    (∀ rates : List Nat, s.subOn c.val = true →
      ∃ t, exec (.mr4Poll now c rates) s = .next t ∧ (t.dramAt c.val).mr4 = rates ∧
        ((∃ r ∈ rates, 2 < r) → t.on DR_STAT DR_STAT_OVERTEMP = true) ∧
        ((∃ r ∈ rates, 2 ≤ r) → s.on (DR_SC_STAT c.val) DR_SC_STAT_MODE2X = false → t.on (DR_SC_STAT c.val) DR_SC_STAT_MODE2X = true) ∧
        s.quiet t [DR_STAT, DR_SC_STAT c.val, DR_SC_PAY_CNT c.val]) ∧
    (∀ temp : Int,
      ∃ t, exec (.tempCrossing now c temp) s = .next t ∧ t.get DR_TEMP_STAT ⟨8 * (c.val / 2), 8⟩ = toBits 8 temp ∧
        s.quiet t [DR_TEMP_STAT, DR_SC_STAT (2 * (c.val / 2)), DR_SC_STAT (2 * (c.val / 2) + 1), DR_SC_PAY_CNT (2 * (c.val / 2)),
          DR_SC_PAY_CNT (2 * (c.val / 2) + 1)]) ∧
    (∀ (conf : DramConf) (hpa : Nat), s.locket.dram = some conf → s.dramReady = true → s.on DR_SCRUB DR_SCRUB_HOURS = true → hpa < s.dramCap →
      s.poison = [] → exec (.patrolScrub now hpa [] []) s = .next x) ∧
    (∀ (conf : DramConf) (r : Fin 2) (changed : Bool), s.locket.dram = some conf → x.retrainDue c.val r.val = true →
      ∃ t, exec (.retrainStep now c r changed) s = .next t ∧ (t.dramAt c.val).nextRank = (r.val + 1) % conf.ranks ∧
        (t.dramAt c.val).trainAt = x.dtime ∧
        (changed = true → t.on DR_STAT DR_STAT_SNAPDIRTY = true) ∧ (changed = false → t.trained = s.trained) ∧ s.quiet t [DR_STAT])

/-- R232, R459 to R468. -/
def Obligations.IngestCompletes : Prop :=
  ∀ (s : State) (now : Nat), s.igUp = true →
    let x := s.tick now
    (∀ (c : Fin 24) (num : Nat), s.laneUp c.val = true → s.on (IG_CTRL c.val) IG_CTRL_EN = true → (s.igAt c.val).cur = none →
      (∀ k, s.igPick c.val = some k → k < 8 →
        ∃ t f, exec (.ingestFrameStart now c num) s = .next t ∧ (t.igAt c.val).cur = some f ∧ (t.igAt c.val).taken = some k ∧ f.buf = k ∧
          f.num = num % 65536 ∧ f.fs = x.dtime ∧ f.lines = 0 ∧ f.entry = (s.igBuffer c.val k).2 ∧
          t.get (IG_STAT c.val) IG_STAT_STATE = 2 ∧ t.get (IG_STAT c.val) IG_STAT_BUF = k ∧
          t.rdN (IG_FS_TIME c.val) = x.dtime % 2 ^ 32 ∧ s.memSame t ∧ s.storeSame t) ∧
      (s.igPick c.val = none →
        ∃ t, exec (.ingestFrameStart now c num) s = .next t ∧ (t.igAt c.val).cur = none ∧ t.get (IG_STAT c.val) IG_STAT_DROP = 1 ∧
          (s.rdN (IG_DROP_CNT c.val) + 1 < 2 ^ 32 → t.rdN (IG_DROP_CNT c.val) = s.rdN (IG_DROP_CNT c.val) + 1) ∧ s.memSame t ∧ s.storeSame t)) ∧
    (∀ (c : Fin 24) (f : IgFrame) (dt : Nat) (payload : List Byte), s.igOn c.val = true → (s.igAt c.val).cur = some f →
      (dt = igType f.dt → f.ended = false → payload.length = igBytes f.dt f.w → f.lines < f.h →
        ∃ t g, exec (.ingestLongPacket now c dt payload true) s = .next t ∧ (t.igAt c.val).cur = some g ∧ g.lines = f.lines + 1 ∧
          g.written = f.written + 1 ∧ g.open_ = f.open_ ++ [f.lines] ∧ g.errored = f.errored ∧
          t.get (IG_ERR_CNT c.val) IG_ERR_CNT_COUNT = s.get (IG_ERR_CNT c.val) IG_ERR_CNT_COUNT ∧ s.storeSame t ∧
          (let a := f.entry.base + f.lines * f.entry.pitch
           let row := igRow f.dt f.w payload
           f.dt ≠ 1 → windowOf a = none → t.reqs = ⟨true, a, row.length, .deadline, x.igDeadline f, .plain⟩ :: s.reqs ∧
             (s.subsUp = true → t.rdBytes a row.length = row) ∧
             ∀ b, b < a ∨ a + row.length ≤ b → t.rdByte b = s.rdByte b)) ∧
      (dt ≠ igType f.dt → ∀ ok : Bool,
        exec (.ingestLongPacket now c dt payload ok) s = .next (x.put (IG_STAT c.val) IG_STAT_IGNORED 1))) ∧
    (∀ c : Fin 24, s.igOn c.val = true →
      exec (.ingestIgnoredPacket now c) s = .next (x.put (IG_STAT c.val) IG_STAT_IGNORED 1)) ∧
    (∀ (c : Fin 24) (f : IgFrame), (s.igAt c.val).cur = some f → f.ended = false →
      (f.h ≤ f.written →
        ∃ t, exec (.ingestFrameEnd now c) s = .next t ∧ (t.igAt c.val).cur = some { f with ended := true } ∧
          t.get (IG_STAT c.val) IG_STAT_STATE = 1 ∧ s.quiet t [IG_STAT c.val]) ∧
      (f.written < f.h →
        ∃ t, exec (.ingestFrameEnd now c) s = .next t ∧ (t.igAt c.val).cur = none ∧ t.get (IG_STAT c.val) IG_STAT_SHORT = 1 ∧
          s.quiet t [IG_STAT c.val, IG_REL c.val])) ∧
    (∀ (c : Fin 24) (f : IgFrame) (rest : List IgFrame), (s.igAt c.val).await = f :: rest → f.whole = true → f.buf < 8 →
      ∃ t, exec (.ingestFrameComplete now c) s = .next t ∧ (t.igAt c.val).await = rest ∧ (t.igAt c.val).cur = (s.igAt c.val).cur ∧
        t.rdN (IG_FRAME_CNT c.val) = (s.rdN (IG_FRAME_CNT c.val) + 1) % 2 ^ 32 ∧ t.get (IG_STAT c.val) IG_STAT_LAST = f.buf ∧
        t.get (IG_STAT c.val) IG_STAT_LASTVALID = 1 ∧ s.storeSame t) ∧
    (∀ l : Fin 48, s.on (IG_LANE l.val) IG_LANE_UP = true →
      ∃ t, exec (.ingestLinkDown now l) s = .next t ∧ t.on (IG_LANE l.val) IG_LANE_UP = false ∧
        (s.get (IG_LANE l.val) IG_LANE_RETRY + 1 < 65536 → t.get (IG_LANE l.val) IG_LANE_RETRY = s.get (IG_LANE l.val) IG_LANE_RETRY + 1) ∧
        (∀ c ∈ s.laneChannels l.val, t.get (IG_STAT c) IG_STAT_STATE = 3) ∧ s.memSame t ∧ s.storeSame t) ∧
    (∀ (l : Fin 48) (gear : Nat), s.islUp l.val = true → s.on (IG_LANE l.val) IG_LANE_UP = false → 1 ≤ gear →
      gear ≤ s.get (IG_LANE l.val) IG_LANE_MAXGEAR →
      ∃ t, exec (.ingestLinkUp now l gear) s = .next t ∧ t.on (IG_LANE l.val) IG_LANE_UP = true ∧
        t.get (IG_LANE l.val) IG_LANE_GEAR = gear ∧ t.laneAt l.val = Lane.reset ∧
        (∀ c ∈ s.laneChannels l.val, s.get (IG_STAT c) IG_STAT_STATE = 3 → t.get (IG_STAT c) IG_STAT_STATE = 1) ∧
        s.quiet t (IG_LANE l.val :: (s.laneChannels l.val).map IG_STAT))

/-- R326, R327, R330, R331, R469 to R473. -/
def Obligations.CanAndSignalsComplete : Prop :=
  ∀ (s : State) (now : Nat),
    let x := s.tick now
    (∀ (n : Fin 2) (fr : CanFrame), s.canOn n.val = true → (s.canAt n.val).waiting = false → canFrameOk fr = true → fr.remote = false →
      fr.fd = false ∨ s.on (CN_CTRL n.val) CN_CTRL_FDEN = true →
      (∀ f, (List.range 128).find? (x.fltMatch n.val fr) = some f → (s.canAt n.val).queue.length < 64 →
        ∃ t, exec (.canFrameEnd now n fr) s = .next t ∧ (t.canAt n.val).queue = (s.canAt n.val).queue ++ [⟨f, x.dtime, fr⟩] ∧
          (s.rdN (CN_RX_CNT n.val) + 1 < 2 ^ 32 → t.rdN (CN_RX_CNT n.val) = s.rdN (CN_RX_CNT n.val) + 1) ∧ s.quiet t [CN_STAT n.val, CN_RX_CNT n.val]) ∧
      (∀ f, (List.range 128).find? (x.fltMatch n.val fr) = some f → 64 ≤ (s.canAt n.val).queue.length →
        ∃ t, exec (.canFrameEnd now n fr) s = .next t ∧ (t.canAt n.val).queue = (s.canAt n.val).queue ∧
          t.get (CN_STAT n.val) CN_STAT_OVF = 1 ∧ s.quiet t [CN_STAT n.val, CN_OVF_CNT n.val]) ∧
      ((List.range 128).find? (x.fltMatch n.val fr) = none →
        ∃ t, exec (.canFrameEnd now n fr) s = .next t ∧ t.canAt n.val = s.canAt n.val ∧ s.quiet t [CN_STAT n.val])) ∧
    (∀ (n : Fin 2) (kind : CanError), s.canOn n.val = true → (s.canAt n.val).waiting = false →
      ∃ t, exec (.canErrorDetected now n kind) s = .next t ∧ (t.canAt n.val).waiting = true ∧
        (s.rdN (CN_ERR_CNT n.val) + 1 < 2 ^ 32 → t.rdN (CN_ERR_CNT n.val) = s.rdN (CN_ERR_CNT n.val) + 1) ∧
        t.get (CN_STAT n.val) CN_STAT_REC = (if kind = .protocolException then s.get (CN_STAT n.val) CN_STAT_REC
          else min 255 (s.get (CN_STAT n.val) CN_STAT_REC + 1)) ∧ s.quiet t [CN_STAT n.val, CN_ERR_CNT n.val]) ∧
    (∀ n : Fin 2, (s.canAt n.val).allowed = true → s.on (CN_CTRL n.val) CN_CTRL_EN = true → s.islUp (islCan n.val) = true →
      ∃ t, exec (.canBusJoin now n) s = .next t ∧ t.get (CN_STAT n.val) CN_STAT_ONBUS = 1 ∧ (t.canAt n.val).waiting = false ∧
        (t.canAt n.val).queue = (s.canAt n.val).queue ∧ s.quiet t [CN_STAT n.val]) ∧
    (∀ (n : Fin 2) (d : Delivered) (rest : List Delivered), s.islUp islGate = true → s.islUp (islCan n.val) = true →
      (s.canAt n.val).queue = d :: rest →
      (s.groupOf n.val d.frame = none →
        exec (.signalGroupFrame now n) s = .next (x.setCanAt n.val { s.canAt n.val with queue := rest })) ∧
      (∀ g grp, s.groupOf n.val d.frame = some (g, grp) → d.frame.data.length < grp.dlcMin →
        ∃ t, exec (.signalGroupFrame now n) s = .next t ∧ (t.canAt n.val).queue = rest ∧
          t.get (SM_GERR g) SM_GERR_LEN_CNT = min 255 (s.get (SM_GERR g) SM_GERR_LEN_CNT + 1) ∧
          (t.groupAt g).invalid = (s.groupAt g).invalid + 1 ∧ s.quiet t [SM_GERR g]) ∧
      (∀ g grp, s.groupOf n.val d.frame = some (g, grp) → grp.dlcMin ≤ d.frame.data.length → grp.crc = false → grp.alive = false →
        ∃ t, exec (.signalGroupFrame now n) s = .next t ∧ (t.canAt n.val).queue = rest ∧ (t.groupAt g).lastOk = d.stamp)) ∧
    (∀ (src : Src) (value : Nat) (u : State) (w : Word), x.admits src SM_SV_SIG value = some (u, w) →
      exec (.smSvSig now src value) s = .next (u.postWrite src SM_SV_SIG w)) ∧
    (∀ (src : Src) (w : Word), s.postedAt 174 = some ⟨src, SM_SV_SIG, w.toNat⟩ → s.islUp islGate = true →
      let i := getField w SM_SV_SIG_SIGNAL
      (s.svGroup i = none →
        ∃ t, exec (.postedWriteLands now 174) s = .next t ∧ t.get SM_SV_STAT SM_SV_STAT_REJECT = 1 ∧ t.postedAt 174 = none ∧
          s.quiet t [SM_SV_STAT]) ∧
      (∀ g, s.svGroup i = some g →
        ∃ t, exec (.postedWriteLands now 174) s = .next t ∧ (t.groupAt g).lastOk = x.dtime ∧ t.get SM_SV_SIG SM_SV_SIG_SIGNAL = i ∧
          t.postedAt 174 = none)) ∧
    (∀ sig : Fin 512, s.islUp islGate = true → s.sigStale sig.val = false → x.sigFresh sig.val = false →
      ∃ t, exec (.signalTimeout now sig) s = .next t ∧ t.sigStale sig.val = true ∧ s.memSame t ∧ s.storeSame t)

/-- R340, R478 to R481. -/
def Obligations.SupervisorCompletes : Prop :=
  ∀ (s : State) (now : Nat),
    let x := s.tick now
    (s.on SV_HB_CFG SV_HB_CFG_EN = true → s.boot.applied = true →
      ∃ t, exec (.svHbEdge now) s = .next t ∧ t.get SV_HB_STAT SV_HB_STAT_HBCNT = (s.get SV_HB_STAT SV_HB_STAT_HBCNT + 1) % 256 ∧
        t.get SV_HB_STAT SV_HB_STAT_LOST = 0 ∧ t.sv.hbFrom = x.dtime ∧ t.sv.hb = (!s.sv.hb) ∧ s.quiet t [SV_HB_STAT]) ∧
    ((s.on SV_HB_CFG SV_HB_CFG_EN && s.boot.applied) = false →
      exec (.svHbEdge now) s = .next { x with sv := { x.sv with hb := !x.sv.hb } }) ∧
    (x.hbOver = true →
      ∃ t, exec (.heartbeatLoss now) s = .next t ∧ t.get SV_HB_STAT SV_HB_STAT_LOST = 1 ∧ t.get WT_FAULT WT_FAULT_HB = 1 ∧
        t.faultLow = true ∧ s.quiet t [SV_HB_STAT, WT_FAULT, WT_FCNT]) ∧
    (∀ (src : Src) (value : Nat) (u : State) (w : Word), x.admits src WT_FTL value = some (u, w) →
      ∃ t, exec (.wtFaultClear now src 1 value) s = .next t ∧
        t.get WT_FTL WT_FTL_TL = u.get WT_FTL WT_FTL_TL - (u.get WT_FTL WT_FTL_TL &&& getField w WT_FTL_TL) ∧
        u.quiet t [WT_FTL, WT_FAULT, WT_FCNT]) ∧
    (∀ (src : Src) (value : Nat) (u : State) (w : Word), x.admits src WT_FAULT value = some (u, w) →
      ∃ t, exec (.wtFaultClear now src 0 value) s = .next t ∧
        (∀ f ∈ faultCauses, bit w.toNat f.lo = false ∨ u.causePresent f = true → t.get WT_FAULT f = u.get WT_FAULT f) ∧
        (∀ f ∈ faultCauses, bit w.toNat f.lo = true → u.causePresent f = false → t.get WT_FAULT f = 0) ∧
        u.quiet t [WT_FAULT, WT_FCNT]) ∧
    (∀ (frame : List Byte) (bits : Nat), s.svUp = true → s.islUp islGate = true →
      let m : State := { x with sv := { x.sv with miso := x.misoFrame } }
      let z := m.svRun frame
      let seq := fieldAt frame 1 1
      (svFail frame bits = none → s.sv.last ≠ some (frame.take 11) →
        (fieldAt frame 0 1 = 0 → exec (.svNop now frame bits) s = .next ((z.svResult 0).respond 0 seq 0)) ∧
        (fieldAt frame 0 1 = 1 →
          exec (.svRead now frame bits true) s = .next ((((z.regRead .sup (fieldAt frame 2 4)).2.answer .sup
            (z.regRead .sup (fieldAt frame 2 4)).1).svResult (z.regRead .sup (fieldAt frame 2 4)).1.toNat).respond 0 seq
            (z.regRead .sup (fieldAt frame 2 4)).1.toNat) ∧
          ∃ t, exec (.svRead now frame bits false) s = .next t ∧ t.sv.rstat = 5 ∧ t.sv.seq = seq ∧ t.sv.data = 0) ∧
        (fieldAt frame 0 1 = 2 →
          exec (.svWrite now frame bits) s = .next (((z.regWrite .sup (fieldAt frame 2 4) (fieldAt frame 6 4)).1.svResult 0).respond
            (z.regWrite .sup (fieldAt frame 2 4) (fieldAt frame 6 4)).2.code seq 0)) ∧
        (s.get SV_FRAME_CNT SV_FRAME_CNT_COUNT + 1 < 2 ^ 32 → z.get SV_FRAME_CNT SV_FRAME_CNT_COUNT = s.get SV_FRAME_CNT SV_FRAME_CNT_COUNT + 1) ∧ s.quiet z [SV_FRAME_CNT]) ∧
      (svFail frame bits = none → s.sv.last = some (frame.take 11) →
        ∃ t, t.sv.rstat = 6 ∧ t.sv.seq = seq ∧ t.sv.data = s.sv.ldata ∧ t.gate.session.lastAt = x.dtime ∧ s.quiet t [] ∧
          (fieldAt frame 0 1 = 0 → exec (.svNop now frame bits) s = .next t) ∧
          (fieldAt frame 0 1 = 1 → ∀ ready, exec (.svRead now frame bits ready) s = .next t) ∧
          (fieldAt frame 0 1 = 2 → exec (.svWrite now frame bits) s = .next t)) ∧
      (∀ r, svFail frame bits = some r →
        ∃ t, exec (.svNop now frame bits) s = .next t ∧ exec (.svWrite now frame bits) s = .next t ∧
          (∀ ready, exec (.svRead now frame bits ready) s = .next t) ∧ t.sv.rstat = r ∧ t.sv.seq = seq ∧ t.sv.data = 0 ∧
          s.quiet t [SV_ERR_CNT]))

/-- R301, R346, R355, R356, R359, R360, R362, R364, R365, R366.  Assumption 121. -/
def Obligations.DmaControlCompletes : Prop :=
  ∀ (s : State) (now : Nat) (c : Fin 32),
    let x := s.tick now
    let stat := DM_STAT c.val
    let curs := [DM_CUR_LO c.val, DM_CUR_HI c.val]
    (∀ (src : Src) (value : Nat) (u : State) (w : Word), x.admits src (DM_CTRL c.val) value = some (u, w) →
      let ch := u.dmaAt c.val
      let idle := u.dmState c.val = 0 ∨ u.dmState c.val = 4
      (∀ owner, getField w DM_CTRL_ABORT = 0 → getField w DM_CTRL_START = 1 → idle → ch.seeking = false →
        u.dmaOwner c.val = some owner → u.engUp = true →
        ∃ t, exec (.dmaStart now src c value) s = .next t ∧ t.dmaCur c.val = u.dmaBase c.val ∧ t.lastValid c.val = false ∧
          t.get stat DM_STAT_CHAIN_EPOCH = (u.get stat DM_STAT_CHAIN_EPOCH + 1) % 65536 ∧ t.get stat DM_STAT_PEND = 0 ∧
          u.quiet t (stat :: DM_LAST_LO c.val :: (curs ++ controlWords)) ∧
          (u.reaches owner .control (u.dmaBase c.val) 64 = false →
            t.dmState c.val = 4 ∧ t.get stat DM_STAT_CAUSE = 2 ∧ (t.dmaAt c.val).want = .none) ∧
          (u.reaches owner .control (u.dmaBase c.val) 64 = true → t.dmState c.val = u.dmState c.val ∧
            (u.canReserve 3 c.val = true → (t.dmaAt c.val).want = .entry) ∧
            (u.canReserve 3 c.val = false → (t.dmaAt c.val).stalled = true))) ∧
      (∀ statBad : Bool, getField w DM_CTRL_ABORT = 1 →
        (idle → ch.seeking = false →
          ∃ t, exec (.dmaAbort now src c ⟨value, statBad⟩) s = .next t ∧ t.dmaAt c.val = ch ∧ u.quiet t []) ∧
        (¬ idle ∨ ch.seeking = true →
          let at_ := if ch.want = .link then u.dmaLastAt c.val + 40 else u.dmaCur c.val
          (ch.run = none → ch.want = .none ∨ ch.wantAt = u.dtime ∨ windowOf at_ = none →
            ∃ t, exec (.dmaAbort now src c ⟨value, statBad⟩) s = .next t ∧ t.dmState c.val = 0 ∧ t.get stat DM_STAT_CAUSE = 3 ∧
              t.get (DM_CTRL c.val) DM_CTRL_ABORT = 0 ∧ (t.dmaAt c.val).seeking = false ∧ u.quiet t [stat, DM_CTRL c.val]) ∧
          (ch.run = none → ch.want ≠ .none → ch.wantAt ≠ u.dtime → windowOf at_ ≠ none →
            ∃ t, exec (.dmaAbort now src c ⟨value, statBad⟩) s = .next t ∧ t.get (DM_CTRL c.val) DM_CTRL_ABORT = 1 ∧ t.dmaAt c.val = ch ∧
              u.quiet t [DM_CTRL c.val]) ∧
          (∀ r, ch.run = some r →
            let q : DmaRun := { r with out := r.out.filter fun k => !u.qHolds (u.dmQueue c.val) c.val k, got := [], aborting := some 1 }
            ((r.waiting || q.out.isEmpty && !q.abortHeld) = true →
              ∃ t, exec (.dmaAbort now src c ⟨value, statBad⟩) s = .next t ∧ (t.dmaAt c.val).run = none ∧ u.storeSame t ∧
                (u.takesStatus r.addr → t.dmState c.val = (if statBad then 4 else 0) ∧
                  t.get stat DM_STAT_CAUSE = (if statBad then 2 else 3) ∧
                  (∀ a, a < r.addr ∨ r.addr + 64 ≤ a → t.rdByte a = u.rdByte a))) ∧
            ((r.waiting || q.out.isEmpty && !q.abortHeld) = false →
              ∃ t, exec (.dmaAbort now src c ⟨value, statBad⟩) s = .next t ∧ t.get (DM_CTRL c.val) DM_CTRL_ABORT = 1 ∧
                (t.dmaAt c.val).run = some q ∧ u.quiet t (DM_CTRL c.val :: DM_STAGE :: trafficWords)))))) ∧
    (∀ (statBad : Bool) (r : DmaRun), s.abortDue c.val = true → (s.dmaAt c.val).run = some r →
      ∃ t, exec (.dmaAbortComplete now ⟨c, statBad⟩) s = .next t ∧ (t.dmaAt c.val).run = none ∧
        t.get (DM_CTRL c.val) DM_CTRL_ABORT = 0 ∧ s.storeSame t ∧
        (s.takesStatus r.addr → t.dmState c.val = (if statBad then 4 else 0))) ∧
    (∀ (src : Src) (value : Nat) (u : State) (w : Word), x.admits src (DM_DB c.val) value = some (u, w) → getField w DM_DB_RING = 1 →
      (u.bellWaits src (DM_DB c.val) = true →
        ∃ t, exec (.dmaDoorbell now src c value) s = .next t ∧ t.bells = u.bells ++ [⟨src, DM_DB c.val, w.toNat⟩] ∧ u.quiet t []) ∧
      (u.bellWaits src (DM_DB c.val) = false →
        let parked := u.dmState c.val = 3 ∧ (u.dmaAt c.val).seeking = false ∧ u.park.step = 0 ∧ u.engUp = true
        (¬ parked →
          ∃ t, exec (.dmaDoorbell now src c value) s = .next t ∧ t.get stat DM_STAT_PEND = 1 ∧ t.dmaAt c.val = u.dmaAt c.val ∧
            u.quiet t [stat]) ∧
        (∀ owner, parked → u.dmaOwner c.val = some owner →
          u.lastValid c.val = true ∨ (u.reaches owner .control (u.dmaCur c.val) 64 = true ∧ u.canReserve 3 c.val = true) →
          ∃ t, exec (.dmaDoorbell now src c value) s = .next t ∧ t.get stat DM_STAT_PEND = 0 ∧ t.dmState c.val = 3 ∧
            (t.dmaAt c.val).want = (if u.lastValid c.val = true then .link else .entry) ∧ u.quiet t (stat :: controlWords)))) ∧
    (∀ (n : Fin 16) (r : DmaRun), x.timerTicks n.val = true → s.engUp = true → (s.dmaAt c.val).run = some r → r.waiting = true →
      descKind r.desc = 1 → descUnit r.desc = n.val → descArg r.desc = 0 →
      ∃ t q, exec (.htTick now n) s = .next t ∧ (t.dmaAt c.val).run = some q ∧ q.waiting = false ∧ q.desc = r.desc ∧
        t.dmState c.val = 1 ∧ s.memSame t ∧ s.storeSame t)

/-- R346, R352, R353, R355, R361, R362, R364, R367. -/
def Obligations.DmaDataCompletes : Prop :=
  ∀ (s : State) (now : Nat) (c : Fin 32), s.engUp = true →
    let x := s.tick now
    let stat := DM_STAT c.val
    (∀ owner : Nat, (s.dmaAt c.val).want = .entry → s.abortWaits c.val = false → s.dmaOwner c.val = some owner →
      let a := s.dmaCur c.val
      let d := s.rdBytes a 64
      windowOf a = none → s.memGood a 64 = true →
      (bit (fieldAt d 60 4) 31 = false → s.on stat DM_STAT_PEND = false →
        ∀ statBad, ∃ t, exec (.dmaDescriptorRead now c ⟨.ok, statBad⟩ []) s = .next t ∧ t.dmState c.val = 3 ∧ (t.dmaAt c.val).want = .none ∧
          s.quiet t [stat]) ∧
      (bit (fieldAt d 60 4) 31 = true → s.park.step ≠ 0 →
        ∀ statBad, ∃ t, exec (.dmaDescriptorRead now c ⟨.ok, statBad⟩ []) s = .next t ∧ (t.dmaAt c.val).want = .none ∧
          (t.dmaAt c.val).run = (s.dmaAt c.val).run ∧ s.quiet t []) ∧
      (∀ y : State, bit (fieldAt d 60 4) 31 = true → s.park.step = 0 → x.reserve (s.readersOf 3 c.val) = some y →
        let now_ := descKind d = 0 ∨ x.trigNow (descKind d) (descUnit d) (descArg d) = true
        (y.descRefusal c.val owner d = none →
          ∀ statBad, ∃ t r, exec (.dmaDescriptorRead now c ⟨.ok, statBad⟩ []) s = .next t ∧ (t.dmaAt c.val).run = some r ∧ r.desc = d ∧
            r.addr = a ∧ (now_ → r.waiting = false ∧ t.dmState c.val = 1) ∧
            (¬ now_ → r.waiting = decide (descKind d ≠ 0) ∧ t.dmState c.val = 2) ∧ s.quiet t (stat :: DM_STAGE :: trafficWords)) ∧
        (y.descRefusal c.val owner d ≠ none → s.takesStatus a →
          ∃ t, exec (.dmaDescriptorRead now c ⟨.ok, false⟩ []) s = .next t ∧ (t.dmaAt c.val).run = none ∧ t.on stat DM_STAT_ERR = true ∧
            (s.rdN (DM_ERR_CNT c.val) + 1 < 2 ^ 32 → t.rdN (DM_ERR_CNT c.val) = s.rdN (DM_ERR_CNT c.val) + 1) ∧
            (s.on (DM_CFG c.val) DM_CFG_ONERR = false → t.dmState c.val = 4 ∧ t.get stat DM_STAT_CAUSE = 1) ∧
            (∀ b, b < a ∨ a + 64 ≤ b → t.rdByte b = s.rdByte b) ∧ s.storeSame t))) ∧
    ((s.dmaAt c.val).want = .link → s.abortWaits c.val = false →
      let a := s.dmaLastAt c.val + 40
      let w := leNat (s.rdBytes a 8)
      let next := w % 2 ^ 42 / 64 * 64
      windowOf a = none → s.memGood a 8 = true →
      (bit w 0 = true → s.on stat DM_STAT_PEND = false →
        ∃ t, exec (.dmaLinkRead now c .ok []) s = .next t ∧ t.dmState c.val = 3 ∧ (t.dmaAt c.val).want = .none ∧
          s.quiet t [stat]) ∧
      (∀ owner, bit w 0 = false → s.dmaOwner c.val = some owner →
        ∃ t, exec (.dmaLinkRead now c .ok []) s = .next t ∧ t.dmaCur c.val = next ∧
          s.quiet t (stat :: DM_CUR_LO c.val :: DM_CUR_HI c.val :: controlWords) ∧
          (s.reaches owner .control next 64 = true → t.dmState c.val = s.dmState c.val ∧
            (s.canReserve 3 c.val = true → (t.dmaAt c.val).want = .entry) ∧
            (s.canReserve 3 c.val = false → (t.dmaAt c.val).want = .none ∧ (t.dmaAt c.val).stalled = true)) ∧
          (s.reaches owner .control next 64 = false → t.dmState c.val = 4 ∧ t.get stat DM_STAT_CAUSE = 2))) ∧
    (∀ (r : DmaRun) (off : Nat), (s.dmaAt c.val).run = some r → off ∈ r.out → s.qHolds (s.dmQueue c.val) c.val off = false →
      r.aborting = none → r.got = [] → r.written = off →
      let src := descSrcAt r.desc off
      let dst := descDstAt r.desc off
      let n := descReadLen r.desc off
      windowOf src = none → s.memGood src n = true →
      (descFlag r.desc 5 = false → windowOf dst = none → s.subsUp = true → s.poisoned dst n = false →
        ∃ t q, exec (.dmaReadReturn now c off .ok []) s = .next t ∧ t.rdBytes dst n = s.rdBytes src n ∧
          (∀ a, a < dst ∨ dst + n ≤ a → t.rdByte a = s.rdByte a) ∧ (t.dmaAt c.val).run = some q ∧ q.desc = r.desc ∧
          q.written = off + n ∧ q.marked = r.marked ∧ q.firstErr = r.firstErr ∧ s.storeSame t ∧ s.regsSame t (DM_STAGE :: trafficWords)) ∧
      (descFlag r.desc 5 = true →
        ∃ t q, exec (.dmaReadReturn now c off .ok []) s = .next t ∧ (t.dmaAt c.val).run = some q ∧ q.desc = r.desc ∧
          q.written = off + n ∧ q.marked = r.marked ∧ s.quiet t (DM_STAGE :: trafficWords))) ∧
    (∀ (r : DmaRun) (wrFirst flushOk : Bool), s.dmaDoneDue c.val = true → (s.dmaAt c.val).run = some r → r.marked = [] →
      descFlag r.desc 1 = false ∨ toWindow r.desc = false → descFlag r.desc 4 = false → s.takesStatus r.addr →
      ∃ t, exec (.dmaDone now c ⟨[], wrFirst⟩ flushOk) s = .next t ∧ (t.dmaAt c.val).run = none ∧
        t.rdN (DM_DONE_CNT c.val) = (s.rdN (DM_DONE_CNT c.val) + 1) % 2 ^ 32 ∧ t.rdN (DM_ERR_CNT c.val) = s.rdN (DM_ERR_CNT c.val) ∧
        (∀ a, a < r.addr ∨ r.addr + 64 ≤ a → t.rdByte a = s.rdByte a) ∧ s.storeSame t)

/-- R133, R269, R301, R371, R372, R373, R381, R386, R388, R389, R390.  Assumption 123. -/
def Obligations.BlitControlCompletes : Prop :=
  ∀ (s : State) (now : Nat) (c : Fin 8),
    let x := s.tick now
    let stat := BL_STAT c.val
    (∀ (src : Src) (value : Nat) (u : State) (w : Word), x.admits src (BL_CTRL c.val) value = some (u, w) →
      let ch := u.blitAt c.val
      (getField w BL_CTRL_EN = 1 → getField w BL_CTRL_ABORT = 0 → u.on (BL_CTRL c.val) BL_CTRL_EN = false → u.blState c.val = 0 →
        (u.blitOwner c.val).isSome = true → ch.prod = u.blCons c.val →
        ∃ t, exec (.blitEnable now src c value) s = .next t ∧ t.blState c.val = 1 ∧ t.on (BL_CTRL c.val) BL_CTRL_EN = true ∧
          u.quiet t [BL_CTRL c.val, stat]) ∧
      (getField w BL_CTRL_EN = 0 → getField w BL_CTRL_ABORT = 0 →
        ∃ t, exec (.blitEnable now src c value) s = .next t ∧ t.on (BL_CTRL c.val) BL_CTRL_EN = false ∧ (t.blitAt c.val).run = ch.run ∧
          (u.blState c.val = 1 ∨ u.blState c.val = 4 → t.blState c.val = 0 ∧ (t.blitAt c.val).reading = false) ∧
          (u.blState c.val = 2 ∨ u.blState c.val = 3 → t.blState c.val = u.blState c.val) ∧ u.quiet t [BL_CTRL c.val, stat]) ∧
      (∀ statBad : Bool, getField w BL_CTRL_ABORT = 1 → u.blState c.val ≠ 0 → u.blState c.val ≠ 4 →
        getField w BL_CTRL_EN = 1 ∨ u.blState c.val ≠ 1 →
        ∃ t, exec (.blitAbort now src c ⟨value, statBad⟩) s = .next t ∧ t.blState c.val = 4 ∧ (t.blitAt c.val).run = none ∧ u.storeSame t ∧
          (ch.run = none → t.get stat BL_STAT_CAUSE = 3 ∧ u.quiet t [BL_CTRL c.val, stat]) ∧
          (∀ r, ch.run = some r → u.takesStatus r.addr → t.get stat BL_STAT_CAUSE = (if statBad then 2 else 3)))) ∧
    (∀ (src : Src) (value : Nat) (u : State) (w : Word), x.admits src (BL_DB c.val) value = some (u, w) →
      (u.bellWaits src (BL_DB c.val) = true →
        ∃ t, exec (.blitDoorbell now src c value) s = .next t ∧ t.bells = u.bells ++ [⟨src, BL_DB c.val, w.toNat⟩] ∧
          u.quiet t [BL_DB c.val]) ∧
      (∀ owner : Nat, u.bellWaits src (BL_DB c.val) = false → u.blitOwner c.val = some owner →
        let ch := u.blitAt c.val
        let prod := getField w BL_DB_PROD
        let stale := owner < 4 ∧ getField w BL_DB_EPOCH ≠ u.get (HP_EPOCH owner) HP_EPOCH_EPOCH
        let live := u.blState c.val = 1 ∨ u.blState c.val = 2 ∨ u.blState c.val = 3
        let beyond := u.park.step = 0 ∧ u.blitOverrun c.val prod = true ∧ live
        (stale →
          ∃ t, exec (.blitDoorbell now src c value) s = .next t ∧ t.get stat BL_STAT_STALE = 1 ∧ t.blitAt c.val = ch ∧
            u.quiet t [BL_DB c.val, stat]) ∧
        (¬ stale → sdiff 16 prod ch.prod < 0 →
          ∃ t, exec (.blitDoorbell now src c value) s = .next t ∧ t.blitAt c.val = ch ∧ u.quiet t [BL_DB c.val]) ∧
        (¬ stale → 0 ≤ sdiff 16 prod ch.prod → beyond → ch.run = none →
          ∃ t, exec (.blitDoorbell now src c value) s = .next t ∧ t.blState c.val = 4 ∧ t.get stat BL_STAT_CAUSE = 5 ∧
            u.quiet t [BL_DB c.val, stat]) ∧
        (¬ stale → 0 ≤ sdiff 16 prod ch.prod → beyond → ch.run ≠ none →
          ∃ t, exec (.blitDoorbell now src c value) s = .next t ∧ t.blitAt c.val = { ch with overrun := true } ∧ u.quiet t [BL_DB c.val]) ∧
        (¬ stale → 0 ≤ sdiff 16 prod ch.prod → ¬ beyond →
          ∃ t, exec (.blitDoorbell now src c value) s = .next t ∧ (t.blitAt c.val).prod = prod ∧ (t.blitAt c.val).run = ch.run ∧
            (u.blState c.val = 1 → ch.reading = false → u.park.step = 0 → prod ≠ u.blCons c.val →
              (u.blitRingOk c.val owner = true → u.canReserve 4 c.val = true → (t.blitAt c.val).reading = true) ∧
              (u.blitRingOk c.val owner = false → t.blState c.val = 4 ∧ t.get stat BL_STAT_CAUSE = 2)) ∧
            u.quiet t (if u.blState c.val = 1 then BL_DB c.val :: stat :: controlWords else [BL_DB c.val])))) ∧
    (∀ r : BlitRun, x.deadDue c.val = true → (s.blitAt c.val).run = some r →
      ∃ t q, exec (.blitDeadTimeEnd now c) s = .next t ∧ (t.blitAt c.val).run = some q ∧ q.waiting = false ∧ q.started = some x.dtime ∧
        q.job = r.job ∧ t.blState c.val = 3 ∧ s.quiet t (stat :: trafficWords)) ∧
    (∀ r : BlitRun, x.slotDue c.val = true → (s.blitAt c.val).run = some r →
      (r.band < r.steps →
        ∃ t q, exec (.blitBandSlot now c) s = .next t ∧ (t.blitAt c.val).run = some q ∧ q.band = r.band + 1 ∧ q.steps = r.steps ∧
          s.quiet t (BL_WMARK c.val :: trafficWords)) ∧
      (r.steps ≤ r.band →
        ∃ t, exec (.blitBandSlot now c) s = .next t ∧ (t.blitAt c.val).run = some { r with slipped := true } ∧
          t.get stat BL_STAT_SLIP = 1 ∧ (s.rdN (BL_SLIP_CNT c.val) + 1 < 2 ^ 32 → t.rdN (BL_SLIP_CNT c.val) = s.rdN (BL_SLIP_CNT c.val) + 1) ∧
          s.quiet t [stat, BL_SLIP_CNT c.val]))

/-- R375, R377, R378, R381, R383, R384, R386, R387. -/
def Obligations.BlitDataCompletes : Prop :=
  ∀ (s : State) (now : Nat) (c : Fin 8), s.engUp = true →
    let x := s.tick now
    (∀ (owner : Nat) (y : State), (s.blitAt c.val).reading = true → s.park.step = 0 → s.blitOwner c.val = some owner →
      let a := s.jobAddr c.val
      let j := s.rdBytes a 64
      windowOf a = none → s.memGood a 64 = true → x.reserve (s.readersOf 4 c.val) = some y →
      (y.jobRefusal c.val owner j = none →
        let now_ := jobKind j = 0 ∨ x.trigNow (jobKind j) (jobUnit j) (jobArg j) = true
        ∀ statBad, ∃ t r, exec (.blitJobRead now c ⟨.ok, statBad⟩ []) s = .next t ∧ (t.blitAt c.val).run = some r ∧ r.job = j ∧ r.addr = a ∧
          r.count = s.blCons c.val ∧ (t.blitAt c.val).reading = false ∧ t.get (BL_WMARK c.val) BL_WMARK_ROWS = 0 ∧
          (now_ → x.deadOver c.val = true → r.waiting = false ∧ t.blState c.val = 3) ∧
          (now_ → x.deadOver c.val = false → r.waiting = true ∧ r.trigd = true ∧ t.blState c.val = 2) ∧
          (¬ now_ → r.waiting = true ∧ r.trigd = false ∧ t.blState c.val = 2) ∧
          s.quiet t (BL_STAT c.val :: BL_WMARK c.val :: trafficWords)) ∧
      (y.jobRefusal c.val owner j ≠ none → s.takesStatus a →
        ∃ t, exec (.blitJobRead now c ⟨.ok, false⟩ []) s = .next t ∧ (t.blitAt c.val).run = none ∧ t.on (BL_STAT c.val) BL_STAT_ERR = true ∧
          t.blCons c.val = (s.blCons c.val + 1) % 65536 ∧
          (s.on (BL_CFG c.val) BL_CFG_ONERR = false → t.blState c.val = 4 ∧ t.get (BL_STAT c.val) BL_STAT_CAUSE = 1) ∧
          (∀ b, b < a + 48 ∨ a + 64 ≤ b → t.rdByte b = s.rdByte b) ∧ s.storeSame t)) ∧
    (∀ (r : BlitRun) (k n : Nat) (p : Plane), s.stepDue c.val = true → s.subsUp = true → s.poison = [] →
      (s.blitAt c.val).run = some r → stepPlane r.job r.planes 0 r.steps = some (k, p, n) →
      ∃ t q, exec (.blitRowComplete now c [] []) s = .next t ∧ (t.blitAt c.val).run = some q ∧ q.steps = r.steps + 1 ∧ q.job = r.job ∧
        q.unwr = r.unwr ∧ q.firstErr = r.firstErr ∧
        (∀ a, (∀ b ∈ p.dstRows (jobXform r.job), a < b.1 ∨ b.1 + b.2 ≤ a) → t.rdByte a = s.rdByte a) ∧
        s.storeSame t ∧
        s.regsSame t ((if c.val < 6 then [] else [BL_STAT c.val, BL_SLIP_CNT c.val]) ++ BL_WMARK c.val :: trafficWords)) ∧
    (∀ r : BlitRun, x.blitDoneDue c.val = true → (s.blitAt c.val).run = some r → r.firstErr = none → s.takesStatus r.addr →
      ∃ t, exec (.blitDone now c true) s = .next t ∧ (t.blitAt c.val).run = none ∧
        t.rdN (BL_DONE_CNT c.val) = (s.rdN (BL_DONE_CNT c.val) + 1) % 2 ^ 32 ∧ t.blCons c.val = (s.blCons c.val + 1) % 65536 ∧
        t.rdN (BL_ERR_CNT c.val) = s.rdN (BL_ERR_CNT c.val) ∧
        (∀ a, a < r.addr + 48 ∨ r.addr + 64 ≤ a → t.rdByte a = s.rdByte a) ∧ s.storeSame t)

/-- R67, R475, R500, R509. -/
def Obligations.FlashCommandsComplete : Prop :=
  (∀ (s : State) (now : Nat) (src : Src) (value : Nat) (u : State) (w : Word), (s.tick now).admits src XS_CMD value = some (u, w) →
    getField (BitVec.ofNat 32 value) XS_CMD_OP = getField w XS_CMD_OP →
    let op := getField w XS_CMD_OP
    let cs := getField w XS_CMD_CS
    let len := getField w XS_CMD_LEN
    let addr := u.rdN XS_ADDR
    u.xsArgsOk op cs len addr = true → u.xsRefused op cs addr len = false →
    (op = 1 →
      ∃ t j, exec (.xsRead now src value) s = .next t ∧ t.xs = some j ∧ j.op = 1 ∧ j.cs = cs ∧ j.addr = addr ∧ j.len = len ∧
        t.get XS_STAT XS_STAT_BUSY = 1 ∧ u.quiet t [XS_CMD, XS_STAT]) ∧
    ((src = .sup → s.xsRight = true) → u.gate.queue.length < 64 →
      (op = 2 →
        ∃ t j e, exec (.xsProgram now src value) s = .next t ∧ t.xs = some j ∧ j.op = 2 ∧ j.cs = cs ∧ j.addr = addr ∧
          j.data = (wordsBytes u (XS_BUF 0) 64).take len ∧ t.gate.queue = u.gate.queue ++ [e] ∧ e.action = 0x20 ∧ e.target = addr ∧
          t.get XS_STAT XS_STAT_BUSY = 1 ∧ u.quiet t [XS_CMD, XS_STAT, GH_LED_HEAD, GH_LED_STAT]) ∧
      (op = 3 →
        ∃ t j e, exec (.xsErase now src value) s = .next t ∧ t.xs = some j ∧ j.op = 3 ∧ j.cs = cs ∧ j.addr = addr ∧
          t.gate.queue = u.gate.queue ++ [e] ∧ e.action = 0x21 ∧ e.target = addr ∧ t.get XS_STAT XS_STAT_BUSY = 1 ∧
          u.quiet t [XS_CMD, XS_STAT, GH_LED_HEAD, GH_LED_STAT]))) ∧
  (∀ (s : State) (now : Nat) (j : XsJob), s.xs = some j → j.cs < 2 →
    let sp := xsSpan j.op j.addr j.len
    (s.islUp islXspi = true →
      (j.op = 1 → j.len ≤ 256 →
        ∃ t, exec (.xsCommandDone now false) s = .next t ∧ t.xs = none ∧ t.get XS_STAT XS_STAT_CODE = 0 ∧
          t.get XS_STAT XS_STAT_BUSY = 0 ∧ (wordsBytes t (XS_BUF 0) 64).take j.len = s.rdFlashN j.cs j.addr j.len ∧
          s.memSame t ∧ s.storeSame t) ∧
      (j.op = 2 →
        ∃ t, exec (.xsCommandDone now false) s = .next t ∧ t.xs = none ∧ t.get XS_STAT XS_STAT_CODE = 0 ∧
          (∀ i, i < j.data.length → t.rdFlash j.cs (j.addr + i) = s.rdFlash j.cs (j.addr + i) &&& j.data.getD i 0) ∧
          (∀ dev a, dev < 2 → dev ≠ j.cs ∨ a < j.addr ∨ j.addr + j.data.length ≤ a → t.rdFlash dev a = s.rdFlash dev a) ∧
          s.memSame t ∧ t.otp = s.otp ∧ s.regsSame t [XS_STAT]) ∧
      (j.op = 3 →
        ∃ t, exec (.xsCommandDone now false) s = .next t ∧ t.xs = none ∧ t.get XS_STAT XS_STAT_CODE = 0 ∧
          (∀ i, i < 4096 → t.rdFlash j.cs (sp.1 + i) = 0xFF) ∧
          (∀ dev a, dev < 2 → dev ≠ j.cs ∨ a < sp.1 ∨ sp.1 + 4096 ≤ a → t.rdFlash dev a = s.rdFlash dev a) ∧
          s.memSame t ∧ t.otp = s.otp ∧ s.regsSame t [XS_STAT])) ∧
    (s.islUp islXspi = true →
      ∃ t, exec (.xsCommandDone now true) s = .next t ∧ t.xs = none ∧ t.get XS_STAT XS_STAT_CODE = 2 ∧ t.get XS_STAT XS_STAT_BUSY = 0 ∧
        (j.op = 1 → s.storeSame t) ∧
        (∀ dev a, dev < 2 → dev ≠ j.cs ∨ a < sp.1 ∨ sp.1 + sp.2 ≤ a → t.rdFlash dev a = s.rdFlash dev a) ∧ s.memSame t ∧ t.otp = s.otp) ∧
    ((s.tick now).xsLate = true →
      ∃ t, exec (.xsCommandTimeout now) s = .next t ∧ t.xs = none ∧ t.get XS_STAT XS_STAT_CODE = 3 ∧ t.get XS_STAT XS_STAT_BUSY = 0 ∧
        (∀ dev a, dev < 2 → dev ≠ j.cs ∨ a < sp.1 ∨ sp.1 + sp.2 ≤ a → t.rdFlash dev a = s.rdFlash dev a) ∧
        s.memSame t ∧ t.otp = s.otp ∧ s.regsSame t [XS_STAT]))

/-- R289, R291, R399, R491 to R493, R496, R521, R523. -/
def Obligations.RegisterAccessesComplete : Prop :=
  ∀ (s : State) (now : Nat),
    let x := s.tick now
    (∀ (src : Src) (addr value : Nat) (u : State) (w : Word) (r : RegRow), x.aliasAddr addr ≠ XS_CMD →
      decideWrite State.admChange x src (x.aliasAddr addr) value = .inr (u, w, r) →
      let a := x.aliasAddr addr
      (r.posted = true →
        ∃ t, exec (.registerWrite now src addr value) s = .next t ∧ t.postedAt (groupAddr a) = some ⟨src, a, w.toNat⟩ ∧
          (∀ b f l, groupBits (groupAddr a) = some (b, f, l) → t.get b f = 1 % 2 ^ f.w) ∧ u.memSame t ∧ u.storeSame t) ∧
      (r.posted = false → exec (.registerWrite now src addr value) s = .next (u.landed src a w r)) ∧
      (r.posted = false → 0x601000 ≤ a → a < 0x700000 →
        ∃ t, exec (.registerWrite now src addr value) s = .next t ∧ t.rd a = landWord (u.rd a) w r ∧ u.quiet t [a, GH_CFG_STAT])) ∧
    (∀ (g : Nat) (p : Posted) (r : RegRow), s.postedAt g = some p → s.delivers p.addr = true → rowAt p.addr = some r →
      let v := x.setPostedAt g none
      (r.banking ≠ .banked →
        exec (.postedWriteLands now g) s = .next ((v.setBusy g false).landed p.src p.addr (BitVec.ofNat 32 p.value) r)) ∧
      (r.banking = .banked → (s.tlcAt (s.bankTl p.addr)).handover ≠ none → exec (.postedWriteLands now g) s = .next (v.setLost g)) ∧
      (r.banking = .banked → (s.tlcAt (s.bankTl p.addr)).handover = none → s.sealed (s.bankTl p.addr) = true →
        exec (.postedWriteLands now g) s = .next ((v.setBusy g false).setSealedWr p.addr)) ∧
      (r.banking = .banked → (s.tlcAt (s.bankTl p.addr)).handover = none → s.sealed (s.bankTl p.addr) = false →
        exec (.postedWriteLands now g) s = .next ((v.setBusy g false).landed p.src p.addr (BitVec.ofNat 32 p.value) r))) ∧
    (∀ p : Fin 4, s.srcUp (.host p) = true → s.writesWait (.host p) = true →
      exec (.dtimeLoRead now (.host p)) s = .next { x with hostReads := s.hostReads ++ [(p.val, SY_DTIME_LO)] } ∧
      ∀ a, peakAddr a = true → exec (.peakRead now (.host p) a) s = .next { x with hostReads := s.hostReads ++ [(p.val, a)] }) ∧
    (∀ src : Src, src ≠ .jtag → s.srcUp src = true → s.writesWait src = false →
      (∃ t, exec (.dtimeLoRead now src) s = .next t ∧ t.lastReadAt (srcCode src) = x.dtime % 2 ^ 32 ∧
        t.captureAt (srcCode src) = x.dtime / 2 ^ 32 % 2 ^ 32 ∧ s.quiet t []) ∧
      (s.islUp islDma = true →
        ∃ t, exec (.peakRead now src DM_STAGE) s = .next t ∧ t.lastReadAt (srcCode src) = s.rdN DM_STAGE ∧
          t.get DM_STAGE DM_STAGE_PEAK = s.get DM_STAGE DM_STAGE_INUSE ∧ s.quiet t [DM_STAGE]) ∧
      (∀ k : Fin 8, s.islUp (islSub k.val) = true → bit (s.get DR_CFG DR_CFG_SUBCH_MASK) k.val = true →
        ∃ t, exec (.peakRead now src (DR_SC_WQ k.val)) s = .next t ∧ t.lastReadAt (srcCode src) = s.rdN (DR_SC_WQ k.val) ∧
          t.get (DR_SC_WQ k.val) DR_SC_WQ_PEAK = s.get (DR_SC_WQ k.val) DR_SC_WQ_USED ∧ s.quiet t [DR_SC_WQ k.val])) ∧
    (∀ p : Fin 4, x.foldDue p.val = true →
      ∃ t, exec (.accessDeniedFoldTimer now p) s = .next t ∧ (t.denialAt p.val).folded = 0 ∧ (t.denialAt p.val).last = some x.dtime ∧
        s.quiet t [])

/-- R497, R498, R501, R514. -/
def Obligations.SessionsComplete : Prop :=
  ∀ (s : State) (now : Nat),
    let x := s.tick now
    (∀ (src : Src) (value : Nat) (u : State) (w : Word), x.admits src GH_SES_CTRL value = some (u, w) →
      (∀ r : Nat, value % 4 = 1 → u.sessionOpen = false → u.on GH_LOCK GH_LOCK_HARD = false →
        u.gate.session.failAt + lockoutNs (u.get GH_SES_STAT GH_SES_STAT_FAILS) ≤ u.dtime →
        u.keyRights (wordsBytes u (GH_SES_KEY 0) 16) = some r → u.rdN GH_SES_RIGHTS &&& r = u.rdN GH_SES_RIGHTS →
        ∃ t, exec (.sessionChallenge now src value) s = .next t ∧ t.get GH_SES_STAT GH_SES_STAT_STATE = 1 ∧
          t.gate.session.fresh = true ∧ t.gate.session.nonceAt = u.dtime ∧ t.gate.session.rights = u.rdN GH_SES_RIGHTS ∧
          u.quiet t (GH_SES_STAT :: (List.range 8).map GH_SES_NONCE)) ∧
      (value % 4 = 2 → u.on GH_LOCK GH_LOCK_HARD = true →
        ∃ t, exec (.sessionRespond now src value) s = .next t ∧ t.get GH_SES_STAT GH_SES_STAT_RESULT = 6 ∧
          t.gate.session = u.gate.session ∧ u.memSame t ∧ u.storeSame t) ∧
      (value % 4 = 2 → u.on GH_LOCK GH_LOCK_HARD = false → u.get GH_SES_STAT GH_SES_STAT_STATE = 1 → u.gate.session.fresh = true →
        u.dtime ≤ u.gate.session.nonceAt + 10000000000 →
        ∃ t, exec (.sessionRespond now src value) s = .next t ∧ t.gate.session.fresh = false ∧ t.gate.session.verify = some u.dtime ∧
          u.quiet t []) ∧
      (value % 4 = 3 → u.sessionOpen = true → u.gate.session.changed = false →
        ∃ t, exec (.sessionClose now src value) s = .next t ∧ t.sessionOpen = false ∧ t.get GH_SES_STAT GH_SES_STAT_RIGHTS = 0 ∧
          u.memSame t ∧ u.storeSame t) ∧
      (value % 4 = 3 → u.sessionOpen = true → u.gate.session.changed = true →
        ∃ t, exec (.sessionClose now src value) s = .next t ∧ t.sessionOpen = false ∧ t.get GH_SES_STAT GH_SES_STAT_RIGHTS = 0 ∧
          t.otp.count = (u.otp.count + 1) % 2 ^ 32 ∧ u.memSame t ∧ t.flash0 = u.flash0 ∧ t.flash1 = u.flash1)) ∧
    (s.gate.session.verify.isSome = true →
      (ecdsaVerifyMsg s.gate.session.key s.gate.session.sig s.challenge = true → s.gate.queue.length < 64 →
        ∃ t e, exec (.sessionVerifyDone now) s = .next t ∧ t.sessionOpen = true ∧ t.get GH_SES_STAT GH_SES_STAT_RESULT = 0 ∧
          t.get GH_SES_STAT GH_SES_STAT_RIGHTS = s.gate.session.rights % 128 ∧ t.get GH_SES_STAT GH_SES_STAT_FAILS = 0 ∧
          t.gate.session.verify = none ∧ t.gate.queue = s.gate.queue ++ [e] ∧ e.action = 0x01 ∧
          s.quiet t [GH_SES_STAT, GH_LED_HEAD, GH_LED_STAT]) ∧
      (ecdsaVerifyMsg s.gate.session.key s.gate.session.sig s.challenge = false →
        ∃ t, exec (.sessionVerifyDone now) s = .next t ∧ t.sessionOpen = false ∧ t.get GH_SES_STAT GH_SES_STAT_RESULT = 3 ∧
          t.get GH_SES_STAT GH_SES_STAT_FAILS = min 255 (s.get GH_SES_STAT GH_SES_STAT_FAILS + 1) ∧
          t.gate.session.verify = none ∧ s.memSame t ∧ s.storeSame t)) ∧
    (x.idleDue = true → s.gate.session.changed = false →
      ∃ t, exec (.sessionIdleExpiry now) s = .next t ∧ t.sessionOpen = false ∧ t.get GH_SES_STAT GH_SES_STAT_RIGHTS = 0 ∧
        s.memSame t ∧ s.storeSame t) ∧
    (∀ (src : Src) (value : Nat) (u : State) (w : Word), x.admits src GH_LOCK value = some (u, w) → getField w GH_LOCK_HARD = 1 →
      u.gate.session.changed = false →
      ∃ t, exec (.ghLockHard now src value) s = .next t ∧ t.get GH_LOCK GH_LOCK_HARD = 1 ∧ t.sessionOpen = false ∧
        u.memSame t ∧ u.storeSame t)

/-- R502 to R506, R507, R509, R512. -/
def Obligations.GatehouseWorkCompletes : Prop :=
  ∀ (s : State) (now : Nat),
    let x := s.tick now
    (∀ (src : Src) (value : Nat) (u : State) (w : Word), x.admits src GH_IKH_CTRL value = some (u, w) →
      getField w GH_IKH_CTRL_PROGRAM = 1 →
      (u.boot.phase = .noImage → u.otp.ikh = none →
        ∃ t, exec (.ikhProgram now src value) s = .next t ∧ t.gate.ikhBusy = true ∧ t.get GH_IKH_CTRL GH_IKH_CTRL_PROGRAM = 1 ∧
          u.quiet t [GH_IKH_CTRL]) ∧
      (u.otp.ikh ≠ none →
        ∃ t, exec (.ikhProgram now src value) s = .next t ∧ t.gate.ikhBusy = u.gate.ikhBusy ∧ t.get GH_STAT GH_STAT_WO_REWRITE = 1 ∧
          u.memSame t ∧ u.storeSame t)) ∧
    (s.gate.ikhBusy = true →
      ∃ t, exec (.ikhProgramDone now) s = .next t ∧ t.otp.ikh = some (wordsBytes s (GH_IKH 0) 8) ∧
        t.otp.count = (s.otp.count + 1) % 2 ^ 32 ∧ t.locked = true ∧ t.gate.ikhBusy = false ∧ s.memSame t ∧
        t.flash0 = s.flash0 ∧ t.flash1 = s.flash1) ∧
    (∀ (src : Src) (value : Nat) (u : State) (w : Word), x.admits src GH_TOK_CTRL value = some (u, w) →
      let tok := wordsBytes u (GH_TOK_DATA 0) 24
      (getField w GH_TOK_CTRL_SUBMIT = 1 → getField w GH_TOK_CTRL_END = 0 → u.tokenResult tok = 0 →
        ∃ t, exec (.tokenSubmit now src value) s = .next t ∧ t.gate.scope = fieldAt tok 24 4 ∧
          t.gate.scopeEnd = u.dtime + fieldAt tok 28 4 * 60000000000 ∧ t.otp.count = (u.otp.count + 1) % 2 ^ 32 ∧
          t.get GH_TOK_STAT GH_TOK_STAT_RESULT = 0 ∧ t.get GH_STAT GH_STAT_MAKER = 1 ∧ u.memSame t ∧ t.flash0 = u.flash0 ∧
          t.flash1 = u.flash1) ∧
      (getField w GH_TOK_CTRL_SUBMIT = 1 → getField w GH_TOK_CTRL_END = 0 → u.tokenResult tok ≠ 0 →
        ∃ t, exec (.tokenSubmit now src value) s = .next t ∧ t.get GH_TOK_STAT GH_TOK_STAT_RESULT = u.tokenResult tok ∧
          t.gate.scope = u.gate.scope ∧ u.memSame t ∧ u.storeSame t) ∧
      (getField w GH_TOK_CTRL_SUBMIT = 0 → getField w GH_TOK_CTRL_END = 1 → u.gate.scope ≠ 0 →
        ∃ t, exec (.tokenEnd now src value) s = .next t ∧ t.gate.scope = 0 ∧ t.get GH_TOK_STAT GH_TOK_STAT_SCOPE = 0 ∧
          t.get GH_STAT GH_STAT_MAKER = 0 ∧ t.get DB_CTRL DB_CTRL_EN = 0 ∧ u.memSame t ∧ u.storeSame t)) ∧
    (s.gate.scope ≠ 0 → s.gate.scopeEnd ≤ x.dtime →
      ∃ t, exec (.tokenExpiry now) s = .next t ∧ t.gate.scope = 0 ∧ t.get GH_TOK_STAT GH_TOK_STAT_SCOPE = 0 ∧
        t.get GH_STAT GH_STAT_MAKER = 0 ∧ t.get DB_CTRL DB_CTRL_EN = 0 ∧ s.memSame t ∧ s.storeSame t) ∧
    (∀ (src : Src) (value : Nat) (u : State) (w : Word), x.admits src GH_CFG_CTRL value = some (u, w) → getField w GH_CFG_CTRL_GO = 1 →
      ∃ t, exec (.cfgCrcGo now src value) s = .next t ∧ t.gate.cfgRun = true ∧ t.get GH_CFG_STAT GH_CFG_STAT_BUSY = 1 ∧
        u.quiet t [GH_CFG_CTRL, GH_CFG_STAT]) ∧
    (s.gate.cfgRun = true →
      ∃ t, exec (.cfgCrcDone now) s = .next t ∧ t.gate.cfgRun = false ∧ t.rdN GH_CFG_CRC = s.cfgCrc % 2 ^ 32 ∧
        t.get GH_CFG_STAT GH_CFG_STAT_BUSY = 0 ∧ t.get GH_CFG_CTRL GH_CFG_CTRL_GO = 0 ∧
        s.quiet t [GH_CFG_CRC, GH_CFG_STAT, GH_CFG_CTRL]) ∧
    (∀ (e : Ledger) (rest : List Ledger), s.gate.queue = e :: rest → s.islUp islXspi = true → s.xs = none →
      ∃ t, exec (.ledgerEntryProgrammed now false) s = .next t ∧ t.gate.queue = rest ∧ t.gate.link = linkOf s.gate.link e.body ∧
        (∀ dev a, a < ledgerBase → t.rdFlash dev a = s.rdFlash dev a) ∧ s.memSame t ∧ t.otp = s.otp ∧ s.regsSame t [GH_LED_STAT]) ∧
    (∀ i : JtagOp, exec (.jtagInstruction now i) s = .next { x with jtag := s.jtagSelect i } ∧
      (s.boot.phase ≠ .noImage → s.jtagSelect .extest = .bypass ∧ s.jtagSelect .extestPulse = .bypass ∧
        s.jtagSelect .extestTrain = .bypass))

/-- R15, R16, R540 to R549, R554. -/
def Obligations.IslandsComplete : Prop :=
  ∀ (s : State) (now : Nat),
    let x := s.tick now
    (∀ (i : Fin 108) (cause : Nat) (sr : Bool), s.faultDue i.val cause = true →
      ∃ t, exec (.islandFaultDetected now i cause sr) s = .next t ∧ t.islUp i.val = false ∧ (i.val, x.dtime) ∈ t.isl.history ∧
        (i.val < 84 → s.memSame t ∧ s.storeSame t)) ∧
    (∀ (i : Fin 108) (link : Nat) (bad : Bool) (seq : Nat), s.islandsRun = true → s.islUp i.val = true →
      let k := flitKey i.val link
      let at_ (m : Tbl Nat) : Nat := tget (fun _ => 0) m k
      ∃ t, exec (.promenadeFlitReject now ⟨i, link⟩ bad seq) s = .next t ∧
        (bad = true ∨ seq ≠ at_ s.isl.expect → at_ t.isl.replays = at_ s.isl.replays + 1 ∧ t.isl.expect = s.isl.expect) ∧
        (bad = false → seq = at_ s.isl.expect → at_ t.isl.replays = 0 ∧ at_ t.isl.expect = (seq + 1) % 256) ∧
        (∀ l, l ≠ k → tget (fun _ => 0) t.isl.replays l = tget (fun _ => 0) s.isl.replays l ∧
          tget (fun _ => 0) t.isl.expect l = tget (fun _ => 0) s.isl.expect l) ∧ s.quiet t []) ∧
    (∀ (i : Fin 108) (d : IslandDown), s.downOf i.val = some d → s.islandsRun = true → d.cause ≠ 0 →
      d.since + islandUs i.val * 1000 ≤ x.dtime → (s.isl.moving.any fun m => islPav m.1 == i.val) = false →
      (s.isl.failed.contains i.val = false → ∃ t, exec (.islandRelease now i true) s = .next t ∧ t.islUp i.val = true) ∧
      (∃ t, exec (.islandRelease now i false) s = .next t ∧ t.islUp i.val = false ∧ i.val ∈ t.isl.failed ∧
        t.downOf i.val = none)) ∧
    (∀ (pv : Fin 8) (q : Nat), s.isl.moving.find? (fun m => m.1 == pv.val) = some (pv.val, q) → s.islandsRun = true →
      s.islUp (islPav q) = true →
      ∃ t, exec (.migrationComplete now pv) s = .next t ∧ t.pvName pv.val = q ∧ islPav pv.val ∈ t.isl.failed ∧
        (∀ m ∈ t.isl.moving, m ≠ (pv.val, q)) ∧ s.memSame t ∧ s.storeSame t)

/-- The representation of memory and registers is kept by every step (assumptions 4 and 24). -/
def Obligations.EveryStepKeepsCanonicalForm : Prop :=
  ∀ s t : State, step s = .next t → Memory.wf s.losses s.mem = true → twf resetWord s.regs = true →
    Memory.wf t.losses t.mem = true ∧ twf resetWord t.regs = true

/-- The invariant of EveryStepKeepsCanonicalForm holds at reset. -/
def Obligations.ResetIsCanonical : Prop :=
  Memory.wf State.reset.losses State.reset.mem = true ∧ twf resetWord State.reset.regs = true ∧
  ∀ q : List Instr, Memory.wf State.reset.losses { State.reset with pending := q }.mem = true

/-- The queue is the model's own state; exec never touches it. -/
def Obligations.CommandsLeaveTheQueue : Prop :=
  (∀ (c : Instr) (s t : State), exec c s = .next t → t.pending = s.pending) ∧
  (∀ (c : Instr) (rest : List Instr) (s t : State), s.pending = c :: rest → step s = .next t → t.pending = rest)

/-- R29. -/
def Obligations.StrapsAreHeld : Prop :=
  (∀ (s : State) (now bootsel : Nat) (compat : Bool), s.power.porst = true → bootsel < 4 →
    ∃ t, exec (.porstNRelease now bootsel compat) s = .next t ∧ t.power.bootsel = bootsel ∧ t.power.compat = compat ∧
      t.get SY_BOOT_STAT SY_BOOT_STAT_BOOTSEL = bootsel ∧ t.get SY_BOOT_STAT SY_BOOT_STAT_COMPAT = b2n compat) ∧
  (∀ (c : Instr) (s t : State), exec c s = .next t → (s.power.porst = true → ∀ now b k, c ≠ .porstNRelease now b k) →
    (∀ now w, 1000 < w → c ≠ .porstNAssert now w) → t.power.bootsel = s.power.bootsel ∧ t.power.compat = s.power.compat)

/-- R17. -/
def Obligations.DeviceTimeNeverGoesBack : Prop :=
  (∀ (c : Instr) (s t : State), exec c s = .next t → (s.power.porst = true → ∀ now b k, c ≠ .porstNRelease now b k) →
    (∀ now, c ≠ .supplyLossRestart now) → s.dtime ≤ t.dtime) ∧
  (∀ (s : State) (now b : Nat) (k : Bool), s.power.porst = true →
    ∃ t, exec (.porstNRelease now b k) s = .next t ∧ t.dtime = 0) ∧
  (∀ (s : State) (now : Nat), (s.tick now).lossOver = true → ∃ t, exec (.supplyLossRestart now) s = .next t ∧ t.dtime = 0)

/-- R165 to R171, R177, R183. -/
def Obligations.FacetTilesRoundTrip : Prop :=
  ∀ (ws : List Nat) (off footprint : Nat), ws.length = 64 → (∀ w ∈ ws, w < 2 ^ 48) →
    let e := encodeTile ws
    let size := e.2.length / 16
    let widths := ([0, 12, 24, 36].map fun lo => (deltaDesc lo ws).2).foldl (· + ·) 0
    e.2.length = 16 * size ∧ size ≤ 24 ∧
    ((off + size) * 16 ≤ footprint → hdrCause 0x2F footprint (encodeHdr ws e.1 size off) = none) ∧
    decodeTile 0x2F (encodeHdr ws e.1 size off) e.2 = .inr ws ∧
    ((distinctWords ws).length ≤ 1 → size = 1) ∧ ((distinctWords ws).length ≤ 4 → size ≤ 3) ∧
    ((distinctWords ws).length ≤ 16 → size ≤ 8) ∧ (widths ≤ 47 → size ≤ cdiv (8 + 8 * widths) 16)

/-- R272 to R274. -/
def Obligations.DescriptorsRoundTrip : Prop :=
  (∀ d : Desc, d.seq < 2 ^ 32 → d.epoch < 2 ^ 16 → d.tl < 256 → d.nrec < 256 → d.flags < 2 ^ 16 → d.tkind < 256 → d.nfence < 256 →
    d.tag < 2 ^ 32 → d.target < 2 ^ 64 → d.records < 2 ^ 32 → d.crc < 2 ^ 32 → d.fences.length = 4 → (∀ f ∈ d.fences, f.length = 8) →
    d.bytes.length = 64 ∧ Desc.ofBytes d.bytes = d) ∧
  (∀ bs : List Byte, bs.length = 64 → (Desc.ofBytes bs).bytes = bs) ∧
  (∀ r : CRec, r.type < 256 → r.slot < 256 → r.rsvd < 2 ^ 16 → r.mask < 2 ^ 32 → r.value.length = 22 → (∀ v ∈ r.value, v < 2 ^ 32) →
    r.bytes.length = 96 ∧ CRec.ofBytes r.bytes = r) ∧
  (∀ bs : List Byte, bs.length = 96 → (CRec.ofBytes bs).bytes = bs)

/-- R207. -/
def Obligations.MulIsRoundedHalfUp : Prop :=
  ∀ x y : Nat, x ≤ 4095 → y ≤ 4095 →
    mul12 x y = (2 * (x * y) + 4095) / 8190 ∧
    (let t : BitVec 32 := BitVec.ofNat 32 x * BitVec.ofNat 32 y + 2048#32
     mul12 x y = ((t + (t >>> 12)) >>> 12).toNat) ∧ mul12 x y ≤ 4095

/-- R207 to R210. -/
def Obligations.BlendingStaysInRange : Prop :=
  ∀ d p : Px, d.a ≤ 4095 → d.r ≤ 4095 → d.g ≤ 4095 → d.b ≤ 4095 → p.a ≤ 4095 → p.r ≤ 4095 → p.g ≤ 4095 → p.b ≤ 4095 →
    let o := blendPx false d p
    o.r = min 4095 (p.r + mul12 d.r (4095 - p.a)) ∧ o.g = min 4095 (p.g + mul12 d.g (4095 - p.a)) ∧
    o.b = min 4095 (p.b + mul12 d.b (4095 - p.a)) ∧ o.a = p.a + mul12 d.a (4095 - p.a) ∧
    o.a ≤ 4095 ∧ o.r ≤ 4095 ∧ o.g ≤ 4095 ∧ o.b ≤ 4095 ∧
    (p.a = 4095 → o = ⟨4095, p.r, p.g, p.b⟩) ∧ (p = ⟨0, 0, 0, 0⟩ → o = d)

/-- R201. -/
def Obligations.TapsFoldInwards : Prop :=
  ∀ a b c d e f : Int,
    foldTaps 6 [a, b, c, d, e, f] = [a, b, c, d, e, f] ∧ foldTaps 4 [a, b, c, d, e, f] = [a + b, c, d, e + f] ∧
    foldTaps 2 [a, b, c, d, e, f] = [a + b + c, d + e + f] ∧
    ∀ code : Nat, (foldTaps (tapsOf code) [a, b, c, d, e, f]).sum = a + b + c + d + e + f ∧
      (foldTaps (tapsOf code) [a, b, c, d, e, f]).length = tapsOf code

/-- R421, R422. -/
def Obligations.HashedBitsAreParities : Prop :=
  ∀ (s : State) (c : DramConf) (a : Nat), (c.ranks = 1 ∨ c.ranks = 2) →
    let l := s.dramLoc c a
    let ns := log2n c.nsub
    let hashed := l.sub + 2 ^ ns * (l.bank + 2 ^ (c.g + 2) * l.rank)
    let sel (i j : Nat) : Bool :=
      if s.rdN (DR_HASH i) = 0 then decide (12 + i ≤ j) && (j - (12 + i)) % c.h == 0 else decide (10 ≤ j) && (s.rdN (DR_HASH i)).testBit (j - 10)
    hashed < 2 ^ c.h ∧
    (∀ i : Nat, i < c.h →
      hashed.testBit i = decide (((List.range 42).filter fun j => a.testBit j && sel i j).length % 2 = 1)) ∧
    l.col = a / 64 % 64 ∧ l.row = a / 2 ^ (12 + c.h) ∧ s.dramLoc c (a / 64 * 64) = l

/-- R421, R422: the default hash is invertible (an inference from the two rules). -/
def Obligations.DefaultHashIsInjective : Prop :=
  ∀ (s : State) (c : DramConf) (a b : Nat), (c.ranks = 1 ∨ c.ranks = 2) → (∀ i, i < c.h → s.rdN (DR_HASH i) = 0) →
    a < 2 ^ 42 → b < 2 ^ 42 → s.dramLoc c a = s.dramLoc c b → a / 64 = b / 64

/-- R430. -/
def Obligations.MirrorCopiesLieApart : Prop :=
  ∀ (s : State) (c : DramConf) (a : Nat), (c.ranks = 1 ∨ c.ranks = 2) → (c.nsub = 2 ∨ c.nsub = 4 ∨ c.nsub = 8) →
    s.mirrored a = true → s.mirTot / 2 ^ (12 + c.h) ≤ rowsOfDensity c.density →
    let l0 := s.dramLoc c a
    let l1 := s.copy1Loc c a
    l1.sub ≠ l0.sub ∧ l1.sub < c.nsub ∧ l1.bank = l0.bank ∧ l1.rank = l0.rank ∧ l1.col = l0.col ∧
    rowsOfDensity c.density - s.mirTot / 2 ^ (12 + c.h) ≤ l1.row ∧ l1.row < rowsOfDensity c.density

/-- R424, R425. -/
def Obligations.CheckCodeOutcomes : Prop :=
  (∀ d d' f f' check e : Nat, d < 2 ^ 32 → d' < 2 ^ 32 → f < 2 ^ 40 → f' < 2 ^ 40 → check = checkByte d f ^^^ e →
    check ^^^ checkByte d' f' = syndromeOf false ⟨0, d ^^^ d', e, f ^^^ f'⟩) ∧
  (∀ i : Nat, i < 32 → checkByte (2 ^ i) 0 = dataCols.getD i 0) ∧ (∀ i : Nat, i < 40 → checkByte 0 (2 ^ i) = foldCols.getD i 0) ∧
  checkByte 0 0 = 0 ∧ (∀ d d' f f' : Nat, checkByte (d ^^^ d') (f ^^^ f') = checkByte d f ^^^ checkByte d' f') ∧
  (∀ b i : Nat, b < 16 → (i < 32 → blockRead false [⟨b, 2 ^ i, 0, 0⟩] = .corrected) ∧ (i < 8 → blockRead false [⟨b, 0, 2 ^ i, 0⟩] = .corrected) ∧
    (i < 40 → ∃ y, blockRead false [⟨b, 0, 0, 2 ^ i⟩] = .bad 3 y)) ∧
  (∀ s : Nat, s < 256 →
    (syndromeKind s = 0 ↔ s = 0) ∧ (syndromeKind s = 1 ↔ s ∈ dataCols) ∧ (syndromeKind s = 2 ↔ ∃ i, i < 8 ∧ s = 2 ^ i) ∧
    (syndromeKind s = 3 ↔ s ∈ foldCols) ∧ (syndromeKind s = 4 ↔ s = 0xFF) ∧
    (syndromeKind s = 5 ↔ s ≠ 0 ∧ s ∉ dataCols ∧ s ∉ foldCols ∧ (∀ i, i < 8 → s ≠ 2 ^ i) ∧ s ≠ 0xFF)) ∧
  (∀ i : Nat, i < 32 → syndromeKind (syndromeOf false ⟨0, 2 ^ i, 0, 0⟩) = 1 ∧ dataCols.idxOf (syndromeOf false ⟨0, 2 ^ i, 0, 0⟩) = i) ∧
  (∀ i : Nat, i < 8 → syndromeKind (syndromeOf false ⟨0, 0, 2 ^ i, 0⟩) = 2) ∧
  (∀ i j : Nat, i < 40 → j < 40 → 3 ≤ syndromeKind (syndromeOf false ⟨0, 0, 0, 2 ^ i⟩) ∧
    (i ≠ j → 3 ≤ syndromeKind (syndromeOf false ⟨0, 0, 0, 2 ^ i ^^^ 2 ^ j⟩)))

/-- R8, R493. -/
def Obligations.WritesFollowAccessCodes : Prop :=
  ∀ (old w : Word) (r : RegRow),
    (∀ f ∈ r.fields, f.lo + f.w ≤ 32) → r.fields.Pairwise (fun f g => f.lo + f.w ≤ g.lo ∨ g.lo + g.w ≤ f.lo) →
    (∀ f ∈ r.fields,
      let o := getField old f.fld
      let n := getField w f.fld
      let x := getField (landWord old w r) f.fld
      (f.acc = .rw ∨ f.acc = .rwp ∨ f.acc = .wo → x = n) ∧ (f.acc = .ro → x = o) ∧
      (f.acc = .w1c → ∀ i, x.testBit i = (o.testBit i && !n.testBit i)) ∧ (f.acc = .w1s → ∀ i, x.testBit i = (o.testBit i || n.testBit i))) ∧
    (∀ i : Nat, i < 32 → (∀ f ∈ r.fields, i < f.lo ∨ f.lo + f.w ≤ i) → (landWord old w r).toNat.testBit i = old.toNat.testBit i)

/-- R455, R492 (check 1), R493. -/
def Obligations.ReservedLocationsAreInert : Prop :=
  ∀ (s : State) (now : Nat) (src : Src) (addr value : Nat),
    let a := s.aliasAddr addr
    (rowAt a = none → s.regRead src addr = (0, s)) ∧
    (rowAt a = none ∨ isActiveView a = true →
      exec (.registerWrite now src addr value) s = .next ((s.tick now).logUr src a) ∧
      (a % 4 = 0 → exec (.registerWrite now src addr value) s = .next (s.tick now)) ∧
      ∃ t, exec (.registerWrite now src addr value) s = .next t ∧ t.regs = s.regs ∧ s.quiet t [])

/-- R489, R491, R492 (check 2). -/
def Obligations.UngrantedWritesOnlyCount : Prop :=
  ∀ (s : State) (p : Fin 4) (addr value reason : Nat) (r : RegRow),
    let a := s.aliasAddr addr
    rowAt a = some r → isActiveView a = false → a % 4 = 0 → s.srcUp (.host p) = true → s.hostDeny p.val a = some reason →
    (let t := s.hostDenied p.val a value reason
     (s.get (HP_DENY_CNT p.val) HP_DENY_CNT_COUNT + 1 < 2 ^ HP_DENY_CNT_COUNT.w → t.get (HP_DENY_CNT p.val) HP_DENY_CNT_COUNT = s.get (HP_DENY_CNT p.val) HP_DENY_CNT_COUNT + 1) ∧
     t.get (HP_DENY_ADDR p.val) HP_DENY_ADDR_OFFSET = a / 4 % 2 ^ HP_DENY_ADDR_OFFSET.w ∧ t.pending = s.pending ∧
     (∀ l, (s.denialAt p.val).last = some l → s.dtime < l + 1000000 →
       t.denialAt p.val = { s.denialAt p.val with folded := (s.denialAt p.val).folded + 1, offset := a, value := value, reason := reason }) ∧
     (((s.denialAt p.val).last = none ∨ ∃ l, (s.denialAt p.val).last = some l ∧ l + 1000000 ≤ s.dtime) →
       (t.denialAt p.val).last = some s.dtime ∧ (t.denialAt p.val).folded = 0) ∧
     s.quiet t [HP_DENY_CNT p.val, HP_DENY_ADDR p.val]) ∧
    (∀ eff : State → Word → State, (s.guarded (.host p) addr value eff).1 = s.hostDenied p.val a value reason) ∧
    (s.srcUp .sup = true → s.supMay a = false → ∀ eff : State → Word → State,
      (s.guarded .sup addr value eff).1 = s.bump GH_SV_DENY_CNT GH_SV_DENY_CNT_COUNT 1)

/-- R492 (check 4), R495. -/
def Obligations.LockedFieldsStay : Prop :=
  ∀ (s : State) (src : Src) (a value : Nat) (r : RegRow),
    rowAt a = some r → (∀ f ∈ r.fields, f.lo + f.w ≤ 32) → r.fields.Pairwise (fun f g => f.lo + f.w ≤ g.lo ∨ g.lo + g.w ≤ f.lo) →
    a ≠ GH_STAT → a ≠ GH_LED_HEAD → a ≠ GH_LED_STAT → a ≠ GH_LED_DROP →
    ((∃ p, src = .host p) ∨ (s.sessionOpen = false ∧ s.locked = true)) →
    ∀ f ∈ r.fields, f.inst = true →
      getField (filterWord s src a value r).word f.fld = s.get a f.fld ∧
      (f.acc = .rw ∨ f.acc = .rwp → f.cls ≠ .e → s.get a f.fld ≠ getField (BitVec.ofNat 32 value) f.fld →
        (filterWord s src a value r).denied = true ∧ (filterWord s src a value r).s.get GH_STAT GH_STAT_LOCK_VIOL = 1)

/-- R510. -/
def Obligations.RefusalsFold : Prop :=
  ∀ (s : State) (role source action target : Nat) (old new : List Byte),
    (action = 0x11 ∨ action = 0x12 ∨ action = 0x22) →
    let t := s.ledgerRefusal role source action target old new
    let near (e : Ledger) : Prop := e.action = action ∧ e.source = source ∧ e.target = target ∧ s.dtime ≤ e.dtime + 100000000
    (∀ (front back : List Ledger) (e : Ledger), s.gate.queue = front ++ e :: back → near e → (∀ x ∈ front ++ back, ¬ near x) →
      t.gate.queue = front ++ { e with count := e.count + 1 } :: back ∧ t.gate.nextSeq = s.gate.nextSeq ∧ t.regs = s.regs) ∧
    ((∀ x ∈ s.gate.queue, ¬ near x) → s.gate.queue.length < 64 →
      ∃ e, t.gate.queue = s.gate.queue ++ [e] ∧ e.count = 1 ∧ e.result = 1 ∧ e.action = action ∧ e.source = source ∧ e.target = target ∧
        e.seq = s.gate.nextSeq ∧ e.dtime = s.dtime) ∧
    ((∀ x ∈ s.gate.queue, ¬ near x) → 64 ≤ s.gate.queue.length →
      t.gate = s.gate ∧ (s.get GH_LED_DROP GH_LED_DROP_COUNT + 1 < 2 ^ GH_LED_DROP_COUNT.w → t.get GH_LED_DROP GH_LED_DROP_COUNT = s.get GH_LED_DROP GH_LED_DROP_COUNT + 1))

/-- R299, R300, R302. -/
def Obligations.EventsAreNumberedInOrder : Prop :=
  ∀ (s : State) (ps : List Nat) (source type flags : Nat) (payload : List Byte),
    ps.Nodup → (∀ p ∈ ps, p ∈ allPorts) → source / 256 ≠ 6 →
    let t := s.postTo ps source type flags payload
    t.seqAt source = (s.seqAt source + 1) % 65536 ∧
    (∀ x, x ≠ source → (∀ p ∈ ps, x ≠ 6 * 256 + p) → t.seqAt x = s.seqAt x) ∧
    (∀ p ∈ ps, s.on (HP_EV_CTRL p) HP_EV_CTRL_EN = false → t.evAt p = s.evAt p) ∧
    (∀ p, p ∉ ps → t.evAt p = s.evAt p) ∧
    (∀ p ∈ ps, s.on (HP_EV_CTRL p) HP_EV_CTRL_EN = true → (s.evAt p).backlog.length + (s.evAt p).reserved + 1 < evBacklog →
      ∃ more e, (t.evAt p).backlog = (s.evAt p).backlog ++ more ++ [e] ∧ more.length ≤ 1 ∧ e.source = source ∧ e.seq = s.seqAt source ∧
        e.type = type ∧ e.flags = flags ∧ e.payload = payload ∧ e.dtime = s.dtime ∧ e.epoch = s.get (HP_EPOCH p) HP_EPOCH_EPOCH) ∧
    (∀ p ∈ ps, s.on (HP_EV_CTRL p) HP_EV_CTRL_EN = true → (s.evAt p).backlog.length + (s.evAt p).reserved = evBacklog →
      (t.evAt p).backlog = (s.evAt p).backlog ∧ (t.evAt p).lost = (s.evAt p).lost + 1)

/-- R301. -/
def Obligations.ReservedEventsAreNeverDropped : Prop :=
  ∀ (s : State) (p source type flags : Nat) (payload : List Byte), (s.evAt p).backlog.length + (s.evAt p).reserved ≤ evBacklog →
    (0 < (s.evAt p).reserved →
      let t := s.postReserved [p] source type flags payload
      (∃ e, (t.evAt p).backlog = (s.evAt p).backlog ++ [e] ∧ e.source = source ∧ e.seq = s.seqAt source ∧ e.type = type ∧ e.payload = payload) ∧
      (t.evAt p).reserved + 1 = (s.evAt p).reserved ∧ (t.evAt p).lost = (s.evAt p).lost ∧
      (t.evAt p).backlog.length + (t.evAt p).reserved ≤ evBacklog ∧ t.regs = s.regs) ∧
    (∀ t, s.reserve [p] = some t → (t.evAt p).backlog.length + (t.evAt p).reserved ≤ evBacklog ∧
      (t.evAt p).reserved = (s.evAt p).reserved + 1) ∧
    (s.reserve [p] = none ↔ (s.evAt p).backlog.length + (s.evAt p).reserved = evBacklog)

/-- R269. -/
def Obligations.DoorbellsFollowTheirOrder : Prop :=
  ∀ (s : State) (p : Fin 4) (r : Fin 8) (w : Word),
    let prod := getField w HP_CR_DB_PROD
    let mine := getField w HP_CR_DB_EPOCH = s.get (HP_EPOCH p.val) HP_EPOCH_EPOCH
    let ring := s.ringAt (8 * p.val + r.val)
    let behind := sdiff 16 prod ring.prod < 0
    let tooFar := 2 ^ s.get (HP_CR_CTRL p.val r.val) HP_CR_CTRL_LOG2 < (prod + 2 ^ 16 - s.ringCons p.val r.val) % 2 ^ 16
    let t := s.ringBell p.val r.val w
    (¬ mine → t.rings = s.rings ∧ t.get (HP_CR_STAT p.val r.val) HP_CR_STAT_STALE = 1 ∧
      (s.get (HP_CR_STAT p.val r.val) HP_CR_STAT_DROP_CNT + 1 < 2 ^ HP_CR_STAT_DROP_CNT.w → t.get (HP_CR_STAT p.val r.val) HP_CR_STAT_DROP_CNT = s.get (HP_CR_STAT p.val r.val) HP_CR_STAT_DROP_CNT + 1) ∧ s.quiet t [HP_CR_STAT p.val r.val]) ∧
    (mine → s.ringOn p.val r.val = false → t.ringAt (8 * p.val + r.val) = { ring with kept := some prod } ∧ s.quiet t [HP_CR_DB p.val r.val]) ∧
    (mine → s.ringOn p.val r.val = true → behind → t.rings = s.rings ∧ s.quiet t []) ∧
    (mine → s.ringOn p.val r.val = true → ¬ behind → tooFar → t.get (HP_CR_STAT p.val r.val) HP_CR_STAT_HALT = 1 ∧
      t.get (HP_CR_STAT p.val r.val) HP_CR_STAT_CAUSE = 1 ∧ t.rings = s.rings ∧ s.quiet t [HP_CR_DB p.val r.val, HP_CR_STAT p.val r.val]) ∧
    (mine → s.ringOn p.val r.val = true → ¬ behind → ¬ tooFar →
      t.ringAt (8 * p.val + r.val) = { ring with prod := prod } ∧ s.quiet t [HP_CR_DB p.val r.val]) ∧
    t.ringCons p.val r.val = s.ringCons p.val r.val

/-- R405. -/
def Obligations.EligibleTimeIsTheFirst : Prop :=
  ∀ (s : State) (q t : Nat), 8 ≤ q → q < 256 → (s.shqAt q).t0 ≤ t →
    (∀ u, t ≤ u → s.qDebt q u ≤ s.qDebt q t ∧ s.qDebt q u = s.qDebt q t - (u - t) * s.qRate q) ∧
    (s.qRate q = 0 → s.qDebt q t = (s.shqAt q).d) ∧
    (0 < s.qRate q → s.qBurst q < s.qDebt q t →
      t < s.qElig q t ∧ s.qDebt q (s.qElig q t) ≤ s.qBurst q ∧ ∀ u, t ≤ u → u < s.qElig q t → s.qBurst q < s.qDebt q u) ∧
    (∀ (g : Bool) (r : QWait) (rest : List QWait),
      (s.qRelease q t g r rest).qDebt q t = s.qDebt q t + r.req.bytes * 1000000 ∧ ((s.qRelease q t g r rest).shqAt q).reqs = rest)

/-- R338, R48, R54. -/
def Obligations.FaultPinFollowsItsCauses : Prop :=
  ∀ s : State,
    ((∃ f ∈ [WT_FAULT_WATCH, WT_FAULT_LINK, WT_FAULT_BEZEL, WT_FAULT_SINK, WT_FAULT_HB, WT_FAULT_STARTUP], s.get WT_FAULT f ≠ 0) →
      s.faultLow = true) ∧
    (s.boot.phase = .noImage → s.faultLow = true) ∧ (s.power.hold = true → s.faultLow = true) ∧
    (s.faultLow = true → s.power.hold = true ∨ s.boot.phase = .noImage ∨ s.islUp islGate = false ∨
      ∃ f ∈ [WT_FAULT_WATCH, WT_FAULT_LINK, WT_FAULT_BEZEL, WT_FAULT_SINK, WT_FAULT_HB, WT_FAULT_STARTUP], s.get WT_FAULT f ≠ 0) ∧
    (s.faultLow = s.power.faultWas → s.syncFault = s) ∧
    (s.faultLow ≠ s.power.faultWas →
      let t := s.syncFault
      t.power.faultWas = s.faultLow ∧ t.get WT_FAULT WT_FAULT_FAULT = b2n s.faultLow ∧ t.faultLow = s.faultLow ∧
      t.seqAt (9 * 256 + 0xFF) = (s.seqAt (9 * 256 + 0xFF) + 1) % 65536 ∧ s.quiet t [WT_FAULT, WT_FCNT])

/-- The model's choice of assumption 1. -/
def Obligations.UndueCommandsOnlyPassTime : Prop :=
  ∀ (s : State) (now : Nat),
    let x := s.tick now
    (s.power.porst = false → ∀ b k, exec (.porstNRelease now b k) s = .next x) ∧
    (∀ w, w ≤ 1000 → exec (.porstNAssert now w) s = .next x) ∧
    (∀ n, n < 4 → exec (.wakePin now n) s = .next x) ∧
    (s.power.state ≠ .parked → ∀ low, exec (.supervisorWakeLine now low) s = .next x) ∧
    (x.lossOver = false → exec (.supplyLossRestart now) s = .next x) ∧
    (x.hbOver = false → exec (.heartbeatLoss now) s = .next x) ∧
    (x.idleDue = false → exec (.sessionIdleExpiry now) s = .next x) ∧
    (∀ q : Fin 256, (s.shqAt q.val).elig = none → exec (.queueEligible now q) s = .next x) ∧
    (∀ g : Nat, s.postedAt g = none → exec (.postedWriteLands now g) s = .next x) ∧
    (∀ i : Fin 65536, s.retireDue i.val = false → exec (.surfaceRetire now i) s = .next x) ∧
    (∀ (p : Fin 4) (r : Fin 8) res host bad, s.validatorFree = false → exec (.commitEntryRead now p r res host bad) s = .next x) ∧
    (∀ t : Fin 16, (s.tlcAt t.val).image = none → exec (.commitSeal now t) s = .next x)
end

