-- ==== Sys2Proof/Laws/Table.lean ====
section
/-!
SUPPORT. The laws of the sparse table: a read after a write, and the canonical form that every write and every filter keeps.
-/

namespace Sys2Proof.Machine

variable {α : Type}

theorem tget_tins_same (d : Nat → α) (m : Tbl α) (k : Nat) (v : α) : tget d (tins m k v) k = v := by
  induction m with
  | nil => simp [tins, tget]
  | cons p t ih =>
    obtain ⟨j, w⟩ := p
    unfold tins
    split
    · simp [tget]
    · split
      · simp [tget]
      · rename_i h _
        simp [tget, Ne.symm h, ih]

theorem tget_tins_ne (d : Nat → α) (m : Tbl α) {k j : Nat} (v : α) (h : j ≠ k) : tget d (tins m k v) j = tget d m j := by
  induction m with
  | nil => simp [tins, tget, h.symm]
  | cons p t ih =>
    obtain ⟨i, w⟩ := p
    unfold tins
    split
    · rename_i e; subst e; simp [tget, h.symm]
    · split
      · simp [tget, h.symm]
      · simp [tget, ih]

theorem tget_filter (d : Nat → α) (f : Nat → Bool) (m : Tbl α) (j : Nat) :
    tget d (m.filter fun p => f p.1) j = if f j then tget d m j else d j := by
  induction m with
  | nil => simp [tget]
  | cons p t ih =>
    obtain ⟨i, w⟩ := p
    by_cases hi : f i
    · rw [List.filter_cons_of_pos (by simpa using hi)]
      simp only [tget]
      split
      · rename_i e; subst e; simp [hi]
      · exact ih
    · rw [List.filter_cons_of_neg (by simpa using hi), ih]
      simp only [tget]
      by_cases e : i = j
      · subst e; simp [hi]
      · simp [e]

theorem tget_tdel (d : Nat → α) (m : Tbl α) (k j : Nat) : tget d (tdel m k) j = if j = k then d j else tget d m j := by
  have h := tget_filter d (fun i => decide (i ≠ k)) m j
  unfold tdel
  rw [h]
  by_cases e : j = k <;> simp [e]

theorem tget_tset [DecidableEq α] (d : Nat → α) (m : Tbl α) (k j : Nat) (v : α) :
    tget d (tset d m k v) j = if j = k then v else tget d m j := by
  unfold tset
  split
  · rename_i e
    rw [tget_tdel]
    split
    · rename_i h; rw [h, e]
    · rfl
  · split
    · rename_i h; rw [h]; exact tget_tins_same d m k v
    · rename_i h; exact tget_tins_ne d m v h

@[simp] theorem tget_tset_same [DecidableEq α] (d : Nat → α) (m : Tbl α) (k : Nat) (v : α) : tget d (tset d m k v) k = v := by
  simp [tget_tset]

@[simp] theorem tget_tset_ne [DecidableEq α] (d : Nat → α) (m : Tbl α) {k j : Nat} (v : α) (h : j ≠ k) :
    tget d (tset d m k v) j = tget d m j := by
  simp [tget_tset, h]

/-! ### The canonical form -/

theorem twf_tail [DecidableEq α] {d : Nat → α} {p : Nat × α} {t : Tbl α} (h : twf d (p :: t) = true) : twf d t = true := by
  obtain ⟨j, v⟩ := p
  cases t with
  | nil => rfl
  | cons q t => simp [twf] at h; exact h.2

theorem twf_iff [DecidableEq α] (d : Nat → α) (m : Tbl α) :
    twf d m = true ↔ (∀ p ∈ m, p.2 ≠ d p.1) ∧ m.Pairwise fun p q => p.1 < q.1 := by
  induction m with
  | nil => simp [twf]
  | cons p t ih =>
    obtain ⟨j, v⟩ := p
    cases t with
    | nil => simp [twf]
    | cons q t =>
      obtain ⟨k, w⟩ := q
      have e : twf d ((j, v) :: (k, w) :: t) = (decide (v ≠ d j) && decide (j < k) && twf d ((k, w) :: t)) := rfl
      rw [e, Bool.and_eq_true, Bool.and_eq_true, ih]
      simp only [List.pairwise_cons, List.mem_cons, forall_eq_or_imp, decide_eq_true_eq]
      constructor
      · rintro ⟨⟨h1, h2⟩, ⟨h3, h4⟩, h5, h6⟩
        exact ⟨⟨h1, h3, h4⟩, ⟨h2, fun a ha => Nat.lt_trans h2 (h5 a ha)⟩, h5, h6⟩
      · rintro ⟨⟨h1, h3, h4⟩, ⟨h2, _⟩, h5, h6⟩
        exact ⟨⟨h1, h2⟩, ⟨h3, h4⟩, h5, h6⟩

theorem twf_filter [DecidableEq α] {d : Nat → α} {m : Tbl α} (f : Nat × α → Bool) (h : twf d m = true) : twf d (m.filter f) = true := by
  rw [twf_iff] at h ⊢
  exact ⟨fun p hp => h.1 p (List.mem_filter.mp hp).1, h.2.filter f⟩

theorem mem_tins {m : Tbl α} {k : Nat} {v : α} {p : Nat × α} (h : p ∈ tins m k v) : p = (k, v) ∨ p ∈ m := by
  induction m with
  | nil => simp [tins] at h; exact .inl h
  | cons q t ih =>
    obtain ⟨j, w⟩ := q
    unfold tins at h
    split at h
    · rcases List.mem_cons.mp h with h | h
      · exact .inl h
      · exact .inr (List.mem_cons_of_mem _ h)
    · split at h
      · rcases List.mem_cons.mp h with h | h
        · exact .inl h
        · exact .inr h
      · rcases List.mem_cons.mp h with h | h
        · exact .inr (h ▸ List.mem_cons_self)
        · rcases ih h with h | h
          · exact .inl h
          · exact .inr (List.mem_cons_of_mem _ h)

theorem tins_pairwise {m : Tbl α} (k : Nat) (v : α) (h : m.Pairwise fun p q => p.1 < q.1) :
    (tins m k v).Pairwise fun p q => p.1 < q.1 := by
  induction m with
  | nil => simp [tins]
  | cons q t ih =>
    obtain ⟨j, w⟩ := q
    rw [List.pairwise_cons] at h
    unfold tins
    split
    · rename_i e; subst e; exact List.pairwise_cons.mpr h
    · rename_i hne
      split
      · rename_i hlt
        refine List.pairwise_cons.mpr ⟨?_, List.pairwise_cons.mpr h⟩
        intro a ha
        rcases List.mem_cons.mp ha with ha | ha
        · exact ha ▸ hlt
        · exact Nat.lt_trans hlt (h.1 a ha)
      · rename_i hge
        refine List.pairwise_cons.mpr ⟨?_, ih h.2⟩
        intro a ha
        rcases mem_tins ha with ha | ha
        · rw [ha]; show j < k; omega
        · exact h.1 a ha

theorem twf_tset [DecidableEq α] {d : Nat → α} {m : Tbl α} (k : Nat) (v : α) (h : twf d m = true) : twf d (tset d m k v) = true := by
  unfold tset
  split
  · exact twf_filter _ h
  · rename_i hv
    rw [twf_iff] at h ⊢
    refine ⟨fun p hp => ?_, tins_pairwise k v h.2⟩
    rcases mem_tins hp with e | e
    · rw [e]; exact hv
    · exact h.1 p e

/-- The canonical form depends only on what the listed keys' defaults are. -/
theorem twf_congr [DecidableEq α] {d e : Nat → α} {m : Tbl α} (h : twf d m = true) (hd : ∀ p ∈ m, e p.1 = d p.1) : twf e m = true := by
  rw [twf_iff] at h ⊢
  exact ⟨fun p hp => by rw [hd p hp]; exact h.1 p hp, h.2⟩

end Sys2Proof.Machine
end

