-- ==== Sys2Proof/Laws/Regs.lean ====
section
/-!
SUPPORT. Registers: what a word, a field or a counter reads after a write of the same or another one, and the canonical form of the
register table.
-/

namespace Sys2Proof.Machine

/-! ### Words -/

@[simp] theorem rd_wr_same (s : State) (a : Nat) (w : Word) : (s.wr a w).rd a = w := tget_tset_same _ _ _ _

@[simp] theorem rd_wr_ne (s : State) {a b : Nat} (w : Word) (h : b ≠ a) : (s.wr a w).rd b = s.rd b := tget_tset_ne _ _ _ h

@[simp] theorem rd_put_ne (s : State) {a b : Nat} (f : Fld) (v : Nat) (h : b ≠ a) : (s.put a f v).rd b = s.rd b := rd_wr_ne _ _ h

@[simp] theorem rd_bump_ne (s : State) {a b : Nat} (f : Fld) (n : Nat) (h : b ≠ a) : (s.bump a f n).rd b = s.rd b := rd_wr_ne _ _ h

@[simp] theorem rd_bumpMod_ne (s : State) {a b : Nat} (f : Fld) (n : Nat) (h : b ≠ a) : (s.bumpMod a f n).rd b = s.rd b := rd_wr_ne _ _ h

@[simp] theorem rd_bumpSat_ne (s : State) {a b : Nat} (f : Fld) (n : Nat) (h : b ≠ a) : (s.bumpSat a f n).rd b = s.rd b := rd_wr_ne _ _ h

@[simp] theorem rd_wrN_ne (s : State) {a b : Nat} (v : Nat) (h : b ≠ a) : (s.wrN a v).rd b = s.rd b := rd_wr_ne _ _ h

@[simp] theorem rdN_wrN_same (s : State) (a v : Nat) : (s.wrN a v).rdN a = v % 2 ^ 32 := by
  simp [State.rdN, State.wrN]

/-- A register reads the same when the register tables are the same. -/
theorem rd_congr {s t : State} (h : t.regs = s.regs) (a : Nat) : t.rd a = s.rd a := by unfold State.rd; rw [h]

/-! ### Fields -/

/-- The number a word spells, cut at a field: what lies above, the field, and what lies below. -/
theorem cut_field (n lo w : Nat) : n = n / 2 ^ (lo + w) * 2 ^ (lo + w) + n / 2 ^ lo % 2 ^ w * 2 ^ lo + n % 2 ^ lo := by
  have h1 := Nat.div_add_mod n (2 ^ lo)
  have h2 := Nat.div_add_mod (n / 2 ^ lo) (2 ^ w)
  have e : n / 2 ^ lo / 2 ^ w = n / 2 ^ (lo + w) := by rw [Nat.div_div_eq_div_mul, Nat.pow_add]
  rw [e] at h2
  calc n = 2 ^ lo * (n / 2 ^ lo) + n % 2 ^ lo := h1.symm
    _ = 2 ^ lo * (2 ^ w * (n / 2 ^ (lo + w)) + n / 2 ^ lo % 2 ^ w) + n % 2 ^ lo := by rw [h2]
    _ = _ := by rw [Nat.pow_add]; ring

/-- The number after a field is replaced. -/
theorem putField_toNat (x : Word) (f : Fld) (v : Nat) (h : f.lo + f.w ≤ 32) :
    (putField x f v).toNat = x.toNat / 2 ^ (f.lo + f.w) * 2 ^ (f.lo + f.w) + v % 2 ^ f.w * 2 ^ f.lo + x.toNat % 2 ^ f.lo := by
  have c := cut_field x.toNat f.lo f.w
  have hv : v % 2 ^ f.w < 2 ^ f.w := Nat.mod_lt _ (Nat.two_pow_pos _)
  have hl : x.toNat % 2 ^ f.lo < 2 ^ f.lo := Nat.mod_lt _ (Nat.two_pow_pos _)
  have hx : x.toNat < 2 ^ 32 := x.isLt
  have hm : v % 2 ^ f.w * 2 ^ f.lo + x.toNat % 2 ^ f.lo < 2 ^ (f.lo + f.w) := by
    rw [Nat.pow_add, Nat.mul_comm (2 ^ f.lo)]
    calc v % 2 ^ f.w * 2 ^ f.lo + x.toNat % 2 ^ f.lo < v % 2 ^ f.w * 2 ^ f.lo + 2 ^ f.lo := by omega
      _ = (v % 2 ^ f.w + 1) * 2 ^ f.lo := by ring
      _ ≤ 2 ^ f.w * 2 ^ f.lo := Nat.mul_le_mul_right _ hv
  have hp : 2 ^ 32 = 2 ^ (f.lo + f.w) * 2 ^ (32 - (f.lo + f.w)) := by rw [← Nat.pow_add]; congr 1; omega
  have hd : x.toNat / 2 ^ (f.lo + f.w) < 2 ^ (32 - (f.lo + f.w)) := by
    rw [Nat.div_lt_iff_lt_mul (Nat.two_pow_pos _), Nat.mul_comm, ← hp]; exact hx
  have hb : x.toNat / 2 ^ (f.lo + f.w) * 2 ^ (f.lo + f.w) + v % 2 ^ f.w * 2 ^ f.lo + x.toNat % 2 ^ f.lo < 2 ^ 32 := by
    rw [hp]
    calc _ = x.toNat / 2 ^ (f.lo + f.w) * 2 ^ (f.lo + f.w) + (v % 2 ^ f.w * 2 ^ f.lo + x.toNat % 2 ^ f.lo) := by ring
      _ < x.toNat / 2 ^ (f.lo + f.w) * 2 ^ (f.lo + f.w) + 2 ^ (f.lo + f.w) := by omega
      _ = (x.toNat / 2 ^ (f.lo + f.w) + 1) * 2 ^ (f.lo + f.w) := by ring
      _ ≤ 2 ^ (32 - (f.lo + f.w)) * 2 ^ (f.lo + f.w) := Nat.mul_le_mul_right _ hd
      _ = _ := Nat.mul_comm _ _
  unfold putField
  rw [BitVec.toNat_ofNat, Nat.mod_eq_of_lt]
  · omega
  · omega

/-- A field reads what was put into it, cut to its width. -/
@[simp] theorem getField_putField_same (x : Word) (f : Fld) (v : Nat) (h : f.lo + f.w ≤ 32) :
    getField (putField x f v) f = v % 2 ^ f.w := by
  unfold getField
  rw [putField_toNat x f v h]
  have hl : x.toNat % 2 ^ f.lo < 2 ^ f.lo := Nat.mod_lt _ (Nat.two_pow_pos _)
  have e : x.toNat / 2 ^ (f.lo + f.w) * 2 ^ (f.lo + f.w) + v % 2 ^ f.w * 2 ^ f.lo + x.toNat % 2 ^ f.lo =
      2 ^ f.lo * (2 ^ f.w * (x.toNat / 2 ^ (f.lo + f.w)) + v % 2 ^ f.w) + x.toNat % 2 ^ f.lo := by rw [Nat.pow_add]; ring
  rw [e, Nat.mul_add_div (Nat.two_pow_pos _), Nat.div_eq_of_lt hl, Nat.add_zero, Nat.mul_add_mod, Nat.mod_mod]

/-- A field reads as before after another field of the word was put. -/
@[simp] theorem getField_putField_apart (x : Word) (f g : Fld) (v : Nat) (h : f.lo + f.w ≤ 32) (hd : g.lo + g.w ≤ f.lo ∨ f.lo + f.w ≤ g.lo) :
    getField (putField x f v) g = getField x g := by
  unfold getField
  rw [putField_toNat x f v h]
  have hl : x.toNat % 2 ^ f.lo < 2 ^ f.lo := Nat.mod_lt _ (Nat.two_pow_pos _)
  have hv : v % 2 ^ f.w < 2 ^ f.w := Nat.mod_lt _ (Nat.two_pow_pos _)
  rcases hd with hd | hd
  · have c := cut_field x.toNat f.lo f.w
    have k : ∀ y z : Nat, (y * 2 ^ (f.lo + f.w) + z * 2 ^ f.lo + x.toNat % 2 ^ f.lo) / 2 ^ g.lo % 2 ^ g.w =
        x.toNat % 2 ^ f.lo / 2 ^ g.lo % 2 ^ g.w := by
      intro y z
      obtain ⟨d, hd'⟩ : ∃ d, f.lo = g.lo + g.w + d := ⟨f.lo - (g.lo + g.w), by omega⟩
      have e : y * 2 ^ (f.lo + f.w) + z * 2 ^ f.lo + x.toNat % 2 ^ f.lo =
          2 ^ g.lo * (2 ^ g.w * (2 ^ d * (y * 2 ^ f.w + z))) + x.toNat % 2 ^ f.lo := by
        rw [hd', Nat.pow_add, Nat.pow_add, Nat.pow_add]; ring
      rw [e, Nat.mul_add_div (Nat.two_pow_pos _), Nat.mul_add_mod]
    rw [k]
    conv => rhs; rw [c]
    rw [k]
  · obtain ⟨d, hd'⟩ : ∃ d, g.lo = f.lo + f.w + d := ⟨g.lo - (f.lo + f.w), by omega⟩
    have c := cut_field x.toNat f.lo f.w
    have hb : ∀ z : Nat, z < 2 ^ f.w → z * 2 ^ f.lo + x.toNat % 2 ^ f.lo < 2 ^ (f.lo + f.w) := by
      intro z hz
      rw [Nat.pow_add, Nat.mul_comm (2 ^ f.lo)]
      calc z * 2 ^ f.lo + x.toNat % 2 ^ f.lo < z * 2 ^ f.lo + 2 ^ f.lo := by omega
        _ = (z + 1) * 2 ^ f.lo := by ring
        _ ≤ 2 ^ f.w * 2 ^ f.lo := Nat.mul_le_mul_right _ hz
    have k : ∀ z : Nat, z < 2 ^ f.w →
        (x.toNat / 2 ^ (f.lo + f.w) * 2 ^ (f.lo + f.w) + z * 2 ^ f.lo + x.toNat % 2 ^ f.lo) / 2 ^ g.lo =
        x.toNat / 2 ^ (f.lo + f.w) / 2 ^ d := by
      intro z hz
      rw [hd', Nat.pow_add _ _ d, ← Nat.div_div_eq_div_mul, Nat.add_assoc, Nat.mul_comm, Nat.mul_add_div (Nat.two_pow_pos _),
        Nat.div_eq_of_lt (hb z hz), Nat.add_zero]
    rw [k _ hv]
    conv => rhs; rw [c]
    rw [k _ (Nat.mod_lt _ (Nat.two_pow_pos _))]

@[simp] theorem get_put_same (s : State) (a : Nat) (f : Fld) (v : Nat) (h : f.lo + f.w ≤ 32) : (s.put a f v).get a f = v % 2 ^ f.w := by
  unfold State.get State.put; rw [rd_wr_same]; exact getField_putField_same _ _ _ h

@[simp] theorem get_put_ne (s : State) {a b : Nat} (f g : Fld) (v : Nat) (h : b ≠ a) : (s.put a f v).get b g = s.get b g := by
  unfold State.get; rw [rd_put_ne _ _ _ h]

@[simp] theorem get_put_apart (s : State) (a : Nat) (f g : Fld) (v : Nat) (h : f.lo + f.w ≤ 32) (hd : g.lo + g.w ≤ f.lo ∨ f.lo + f.w ≤ g.lo) :
    (s.put a f v).get a g = s.get a g := by
  unfold State.get State.put; rw [rd_wr_same]; exact getField_putField_apart _ _ _ _ h hd

theorem get_bumpMod_same (s : State) (a : Nat) (f : Fld) (n : Nat) (h : f.lo + f.w ≤ 32) :
    (s.bumpMod a f n).get a f = (s.get a f + n) % 2 ^ f.w := get_put_same _ _ _ _ h

theorem get_bump_same (s : State) (a : Nat) (f : Fld) (n : Nat) (h : f.lo + f.w ≤ 32) (hn : s.get a f + n < 2 ^ f.w) :
    (s.bump a f n).get a f = s.get a f + n := by
  unfold State.bump; rw [if_pos hn, get_put_same _ _ _ _ h, Nat.mod_eq_of_lt hn]

@[simp] theorem get_bumpMod_ne (s : State) {a b : Nat} (f g : Fld) (n : Nat) (h : b ≠ a) : (s.bumpMod a f n).get b g = s.get b g :=
  get_put_ne _ _ _ _ h

@[simp] theorem get_bump_ne (s : State) {a b : Nat} (f g : Fld) (n : Nat) (h : b ≠ a) : (s.bump a f n).get b g = s.get b g :=
  get_put_ne _ _ _ _ h

@[simp] theorem get_wrN_ne (s : State) {a b : Nat} (g : Fld) (n : Nat) (h : b ≠ a) : (s.wrN a n).get b g = s.get b g := by
  unfold State.get; rw [rd_wrN_ne _ _ h]

/-! ### The canonical form -/

theorem wr_wf (s : State) (a : Nat) (w : Word) (h : twf resetWord s.regs = true) : twf resetWord (s.wr a w).regs = true := twf_tset a w h

end Sys2Proof.Machine
end

