-- ==== Sys2Proof/Laws/State.lean ====
section
/-!
SUPPORT. The fields of the state under each named update, one equation per field that the update leaves alone, and the record of a unit
after a write of that unit's or another's.
-/

namespace Sys2Proof.Machine

@[simp] theorem tick_pending (s : State) (n : Nat) : (s.tick n).pending = s.pending := rfl
@[simp] theorem tick_free (s : State) (n : Nat) : (s.tick n).free = s.free := rfl
@[simp] theorem tick_regs (s : State) (n : Nat) : (s.tick n).regs = s.regs := rfl
@[simp] theorem tick_inUse (s : State) (n : Nat) : (s.tick n).inUse = s.inUse := rfl
@[simp] theorem tick_mem (s : State) (n : Nat) : (s.tick n).mem = s.mem := rfl
@[simp] theorem tick_losses (s : State) (n : Nat) : (s.tick n).losses = s.losses := rfl
@[simp] theorem tick_poison (s : State) (n : Nat) : (s.tick n).poison = s.poison := rfl
@[simp] theorem tick_flash0 (s : State) (n : Nat) : (s.tick n).flash0 = s.flash0 := rfl
@[simp] theorem tick_flash1 (s : State) (n : Nat) : (s.tick n).flash1 = s.flash1 := rfl
@[simp] theorem tick_otp (s : State) (n : Nat) : (s.tick n).otp = s.otp := rfl
@[simp] theorem tick_power (s : State) (n : Nat) : (s.tick n).power = s.power := rfl
@[simp] theorem tick_boot (s : State) (n : Nat) : (s.tick n).boot = s.boot := rfl
@[simp] theorem tick_park (s : State) (n : Nat) : (s.tick n).park = s.park := rfl
@[simp] theorem tick_undo (s : State) (n : Nat) : (s.tick n).undo = s.undo := rfl
@[simp] theorem tick_degr (s : State) (n : Nat) : (s.tick n).degr = s.degr := rfl
@[simp] theorem tick_isl (s : State) (n : Nat) : (s.tick n).isl = s.isl := rfl
@[simp] theorem tick_locket (s : State) (n : Nat) : (s.tick n).locket = s.locket := rfl
@[simp] theorem tick_gate (s : State) (n : Nat) : (s.tick n).gate = s.gate := rfl
@[simp] theorem tick_denial (s : State) (n : Nat) : (s.tick n).denial = s.denial := rfl
@[simp] theorem tick_posted (s : State) (n : Nat) : (s.tick n).posted = s.posted := rfl
@[simp] theorem tick_capture (s : State) (n : Nat) : (s.tick n).capture = s.capture := rfl
@[simp] theorem tick_sv (s : State) (n : Nat) : (s.tick n).sv = s.sv := rfl
@[simp] theorem tick_xs (s : State) (n : Nat) : (s.tick n).xs = s.xs := rfl
@[simp] theorem tick_surf (s : State) (n : Nat) : (s.tick n).surf = s.surf := rfl
@[simp] theorem tick_used (s : State) (n : Nat) : (s.tick n).used = s.used := rfl
@[simp] theorem tick_ents (s : State) (n : Nat) : (s.tick n).ents = s.ents := rfl
@[simp] theorem tick_buds (s : State) (n : Nat) : (s.tick n).buds = s.buds := rfl
@[simp] theorem tick_seqs (s : State) (n : Nat) : (s.tick n).seqs = s.seqs := rfl
@[simp] theorem tick_ev (s : State) (n : Nat) : (s.tick n).ev = s.ev := rfl
@[simp] theorem tick_vec (s : State) (n : Nat) : (s.tick n).vec = s.vec := rfl
@[simp] theorem tick_ports (s : State) (n : Nat) : (s.tick n).ports = s.ports := rfl
@[simp] theorem tick_rings (s : State) (n : Nat) : (s.tick n).rings = s.rings := rfl
@[simp] theorem tick_valPort (s : State) (n : Nat) : (s.tick n).valPort = s.valPort := rfl
@[simp] theorem tick_valRing (s : State) (n : Nat) : (s.tick n).valRing = s.valRing := rfl
@[simp] theorem tick_tlc (s : State) (n : Nat) : (s.tick n).tlc = s.tlc := rfl
@[simp] theorem tick_adm (s : State) (n : Nat) : (s.tick n).adm = s.adm := rfl
@[simp] theorem tick_scan (s : State) (n : Nat) : (s.tick n).scan = s.scan := rfl
@[simp] theorem tick_link (s : State) (n : Nat) : (s.tick n).link = s.link := rfl
@[simp] theorem tick_wb (s : State) (n : Nat) : (s.tick n).wb = s.wb := rfl
@[simp] theorem tick_fetch (s : State) (n : Nat) : (s.tick n).fetch = s.fetch := rfl
@[simp] theorem tick_preset (s : State) (n : Nat) : (s.tick n).preset = s.preset := rfl
@[simp] theorem tick_sigs (s : State) (n : Nat) : (s.tick n).sigs = s.sigs := rfl
@[simp] theorem tick_groups (s : State) (n : Nat) : (s.tick n).groups = s.groups := rfl
@[simp] theorem tick_bz (s : State) (n : Nat) : (s.tick n).bz = s.bz := rfl
@[simp] theorem tick_watch (s : State) (n : Nat) : (s.tick n).watch = s.watch := rfl
@[simp] theorem tick_sink (s : State) (n : Nat) : (s.tick n).sink = s.sink := rfl
@[simp] theorem tick_dma (s : State) (n : Nat) : (s.tick n).dma = s.dma := rfl
@[simp] theorem tick_blit (s : State) (n : Nat) : (s.tick n).blit = s.blit := rfl
@[simp] theorem tick_pol (s : State) (n : Nat) : (s.tick n).pol = s.pol := rfl
@[simp] theorem tick_shq (s : State) (n : Nat) : (s.tick n).shq = s.shq := rfl
@[simp] theorem tick_dram (s : State) (n : Nat) : (s.tick n).dram = s.dram := rfl
@[simp] theorem tick_reqs (s : State) (n : Nat) : (s.tick n).reqs = s.reqs := rfl
@[simp] theorem tick_flying (s : State) (n : Nat) : (s.tick n).flying = s.flying := rfl
@[simp] theorem tick_trigs (s : State) (n : Nat) : (s.tick n).trigs = s.trigs := rfl
@[simp] theorem tick_trained (s : State) (n : Nat) : (s.tick n).trained = s.trained := rfl
@[simp] theorem tick_ig (s : State) (n : Nat) : (s.tick n).ig = s.ig := rfl
@[simp] theorem tick_lane (s : State) (n : Nat) : (s.tick n).lane = s.lane := rfl
@[simp] theorem tick_can (s : State) (n : Nat) : (s.tick n).can = s.can := rfl
@[simp] theorem tick_flts (s : State) (n : Nat) : (s.tick n).flts = s.flts := rfl
@[simp] theorem tick_bells (s : State) (n : Nat) : (s.tick n).bells = s.bells := rfl
@[simp] theorem tick_hostReads (s : State) (n : Nat) : (s.tick n).hostReads = s.hostReads := rfl
@[simp] theorem tick_dmaLast (s : State) (n : Nat) : (s.tick n).dmaLast = s.dmaLast := rfl
@[simp] theorem tick_lastRead (s : State) (n : Nat) : (s.tick n).lastRead = s.lastRead := rfl
@[simp] theorem tick_jtag (s : State) (n : Nat) : (s.tick n).jtag = s.jtag := rfl

@[simp] theorem tick_dtime (s : State) (n : Nat) : (s.tick n).dtime = max s.dtime n := rfl
@[simp] theorem tick_rd (s : State) (n a : Nat) : (s.tick n).rd a = s.rd a := rfl

@[simp] theorem wr_pending (s : State) (a : Nat) (w : Word) : (s.wr a w).pending = s.pending := rfl
@[simp] theorem wr_dtime (s : State) (a : Nat) (w : Word) : (s.wr a w).dtime = s.dtime := rfl
@[simp] theorem wr_free (s : State) (a : Nat) (w : Word) : (s.wr a w).free = s.free := rfl
@[simp] theorem wr_inUse (s : State) (a : Nat) (w : Word) : (s.wr a w).inUse = s.inUse := rfl
@[simp] theorem wr_mem (s : State) (a : Nat) (w : Word) : (s.wr a w).mem = s.mem := rfl
@[simp] theorem wr_losses (s : State) (a : Nat) (w : Word) : (s.wr a w).losses = s.losses := rfl
@[simp] theorem wr_poison (s : State) (a : Nat) (w : Word) : (s.wr a w).poison = s.poison := rfl
@[simp] theorem wr_flash0 (s : State) (a : Nat) (w : Word) : (s.wr a w).flash0 = s.flash0 := rfl
@[simp] theorem wr_flash1 (s : State) (a : Nat) (w : Word) : (s.wr a w).flash1 = s.flash1 := rfl
@[simp] theorem wr_otp (s : State) (a : Nat) (w : Word) : (s.wr a w).otp = s.otp := rfl
@[simp] theorem wr_power (s : State) (a : Nat) (w : Word) : (s.wr a w).power = s.power := rfl
@[simp] theorem wr_boot (s : State) (a : Nat) (w : Word) : (s.wr a w).boot = s.boot := rfl
@[simp] theorem wr_park (s : State) (a : Nat) (w : Word) : (s.wr a w).park = s.park := rfl
@[simp] theorem wr_undo (s : State) (a : Nat) (w : Word) : (s.wr a w).undo = s.undo := rfl
@[simp] theorem wr_degr (s : State) (a : Nat) (w : Word) : (s.wr a w).degr = s.degr := rfl
@[simp] theorem wr_isl (s : State) (a : Nat) (w : Word) : (s.wr a w).isl = s.isl := rfl
@[simp] theorem wr_locket (s : State) (a : Nat) (w : Word) : (s.wr a w).locket = s.locket := rfl
@[simp] theorem wr_gate (s : State) (a : Nat) (w : Word) : (s.wr a w).gate = s.gate := rfl
@[simp] theorem wr_denial (s : State) (a : Nat) (w : Word) : (s.wr a w).denial = s.denial := rfl
@[simp] theorem wr_posted (s : State) (a : Nat) (w : Word) : (s.wr a w).posted = s.posted := rfl
@[simp] theorem wr_capture (s : State) (a : Nat) (w : Word) : (s.wr a w).capture = s.capture := rfl
@[simp] theorem wr_sv (s : State) (a : Nat) (w : Word) : (s.wr a w).sv = s.sv := rfl
@[simp] theorem wr_xs (s : State) (a : Nat) (w : Word) : (s.wr a w).xs = s.xs := rfl
@[simp] theorem wr_surf (s : State) (a : Nat) (w : Word) : (s.wr a w).surf = s.surf := rfl
@[simp] theorem wr_used (s : State) (a : Nat) (w : Word) : (s.wr a w).used = s.used := rfl
@[simp] theorem wr_ents (s : State) (a : Nat) (w : Word) : (s.wr a w).ents = s.ents := rfl
@[simp] theorem wr_buds (s : State) (a : Nat) (w : Word) : (s.wr a w).buds = s.buds := rfl
@[simp] theorem wr_seqs (s : State) (a : Nat) (w : Word) : (s.wr a w).seqs = s.seqs := rfl
@[simp] theorem wr_ev (s : State) (a : Nat) (w : Word) : (s.wr a w).ev = s.ev := rfl
@[simp] theorem wr_vec (s : State) (a : Nat) (w : Word) : (s.wr a w).vec = s.vec := rfl
@[simp] theorem wr_ports (s : State) (a : Nat) (w : Word) : (s.wr a w).ports = s.ports := rfl
@[simp] theorem wr_rings (s : State) (a : Nat) (w : Word) : (s.wr a w).rings = s.rings := rfl
@[simp] theorem wr_valPort (s : State) (a : Nat) (w : Word) : (s.wr a w).valPort = s.valPort := rfl
@[simp] theorem wr_valRing (s : State) (a : Nat) (w : Word) : (s.wr a w).valRing = s.valRing := rfl
@[simp] theorem wr_tlc (s : State) (a : Nat) (w : Word) : (s.wr a w).tlc = s.tlc := rfl
@[simp] theorem wr_adm (s : State) (a : Nat) (w : Word) : (s.wr a w).adm = s.adm := rfl
@[simp] theorem wr_scan (s : State) (a : Nat) (w : Word) : (s.wr a w).scan = s.scan := rfl
@[simp] theorem wr_link (s : State) (a : Nat) (w : Word) : (s.wr a w).link = s.link := rfl
@[simp] theorem wr_wb (s : State) (a : Nat) (w : Word) : (s.wr a w).wb = s.wb := rfl
@[simp] theorem wr_fetch (s : State) (a : Nat) (w : Word) : (s.wr a w).fetch = s.fetch := rfl
@[simp] theorem wr_preset (s : State) (a : Nat) (w : Word) : (s.wr a w).preset = s.preset := rfl
@[simp] theorem wr_sigs (s : State) (a : Nat) (w : Word) : (s.wr a w).sigs = s.sigs := rfl
@[simp] theorem wr_groups (s : State) (a : Nat) (w : Word) : (s.wr a w).groups = s.groups := rfl
@[simp] theorem wr_bz (s : State) (a : Nat) (w : Word) : (s.wr a w).bz = s.bz := rfl
@[simp] theorem wr_watch (s : State) (a : Nat) (w : Word) : (s.wr a w).watch = s.watch := rfl
@[simp] theorem wr_sink (s : State) (a : Nat) (w : Word) : (s.wr a w).sink = s.sink := rfl
@[simp] theorem wr_dma (s : State) (a : Nat) (w : Word) : (s.wr a w).dma = s.dma := rfl
@[simp] theorem wr_blit (s : State) (a : Nat) (w : Word) : (s.wr a w).blit = s.blit := rfl
@[simp] theorem wr_pol (s : State) (a : Nat) (w : Word) : (s.wr a w).pol = s.pol := rfl
@[simp] theorem wr_shq (s : State) (a : Nat) (w : Word) : (s.wr a w).shq = s.shq := rfl
@[simp] theorem wr_dram (s : State) (a : Nat) (w : Word) : (s.wr a w).dram = s.dram := rfl
@[simp] theorem wr_reqs (s : State) (a : Nat) (w : Word) : (s.wr a w).reqs = s.reqs := rfl
@[simp] theorem wr_flying (s : State) (a : Nat) (w : Word) : (s.wr a w).flying = s.flying := rfl
@[simp] theorem wr_trigs (s : State) (a : Nat) (w : Word) : (s.wr a w).trigs = s.trigs := rfl
@[simp] theorem wr_trained (s : State) (a : Nat) (w : Word) : (s.wr a w).trained = s.trained := rfl
@[simp] theorem wr_ig (s : State) (a : Nat) (w : Word) : (s.wr a w).ig = s.ig := rfl
@[simp] theorem wr_lane (s : State) (a : Nat) (w : Word) : (s.wr a w).lane = s.lane := rfl
@[simp] theorem wr_can (s : State) (a : Nat) (w : Word) : (s.wr a w).can = s.can := rfl
@[simp] theorem wr_flts (s : State) (a : Nat) (w : Word) : (s.wr a w).flts = s.flts := rfl
@[simp] theorem wr_bells (s : State) (a : Nat) (w : Word) : (s.wr a w).bells = s.bells := rfl
@[simp] theorem wr_hostReads (s : State) (a : Nat) (w : Word) : (s.wr a w).hostReads = s.hostReads := rfl
@[simp] theorem wr_dmaLast (s : State) (a : Nat) (w : Word) : (s.wr a w).dmaLast = s.dmaLast := rfl
@[simp] theorem wr_lastRead (s : State) (a : Nat) (w : Word) : (s.wr a w).lastRead = s.lastRead := rfl
@[simp] theorem wr_jtag (s : State) (a : Nat) (w : Word) : (s.wr a w).jtag = s.jtag := rfl

@[simp] theorem wrN_pending (s : State) (a v : Nat) : (s.wrN a v).pending = s.pending := rfl
@[simp] theorem wrN_dtime (s : State) (a v : Nat) : (s.wrN a v).dtime = s.dtime := rfl
@[simp] theorem wrN_free (s : State) (a v : Nat) : (s.wrN a v).free = s.free := rfl
@[simp] theorem wrN_inUse (s : State) (a v : Nat) : (s.wrN a v).inUse = s.inUse := rfl
@[simp] theorem wrN_mem (s : State) (a v : Nat) : (s.wrN a v).mem = s.mem := rfl
@[simp] theorem wrN_losses (s : State) (a v : Nat) : (s.wrN a v).losses = s.losses := rfl
@[simp] theorem wrN_poison (s : State) (a v : Nat) : (s.wrN a v).poison = s.poison := rfl
@[simp] theorem wrN_flash0 (s : State) (a v : Nat) : (s.wrN a v).flash0 = s.flash0 := rfl
@[simp] theorem wrN_flash1 (s : State) (a v : Nat) : (s.wrN a v).flash1 = s.flash1 := rfl
@[simp] theorem wrN_otp (s : State) (a v : Nat) : (s.wrN a v).otp = s.otp := rfl
@[simp] theorem wrN_power (s : State) (a v : Nat) : (s.wrN a v).power = s.power := rfl
@[simp] theorem wrN_boot (s : State) (a v : Nat) : (s.wrN a v).boot = s.boot := rfl
@[simp] theorem wrN_park (s : State) (a v : Nat) : (s.wrN a v).park = s.park := rfl
@[simp] theorem wrN_undo (s : State) (a v : Nat) : (s.wrN a v).undo = s.undo := rfl
@[simp] theorem wrN_degr (s : State) (a v : Nat) : (s.wrN a v).degr = s.degr := rfl
@[simp] theorem wrN_isl (s : State) (a v : Nat) : (s.wrN a v).isl = s.isl := rfl
@[simp] theorem wrN_locket (s : State) (a v : Nat) : (s.wrN a v).locket = s.locket := rfl
@[simp] theorem wrN_gate (s : State) (a v : Nat) : (s.wrN a v).gate = s.gate := rfl
@[simp] theorem wrN_denial (s : State) (a v : Nat) : (s.wrN a v).denial = s.denial := rfl
@[simp] theorem wrN_posted (s : State) (a v : Nat) : (s.wrN a v).posted = s.posted := rfl
@[simp] theorem wrN_capture (s : State) (a v : Nat) : (s.wrN a v).capture = s.capture := rfl
@[simp] theorem wrN_sv (s : State) (a v : Nat) : (s.wrN a v).sv = s.sv := rfl
@[simp] theorem wrN_xs (s : State) (a v : Nat) : (s.wrN a v).xs = s.xs := rfl
@[simp] theorem wrN_surf (s : State) (a v : Nat) : (s.wrN a v).surf = s.surf := rfl
@[simp] theorem wrN_used (s : State) (a v : Nat) : (s.wrN a v).used = s.used := rfl
@[simp] theorem wrN_ents (s : State) (a v : Nat) : (s.wrN a v).ents = s.ents := rfl
@[simp] theorem wrN_buds (s : State) (a v : Nat) : (s.wrN a v).buds = s.buds := rfl
@[simp] theorem wrN_seqs (s : State) (a v : Nat) : (s.wrN a v).seqs = s.seqs := rfl
@[simp] theorem wrN_ev (s : State) (a v : Nat) : (s.wrN a v).ev = s.ev := rfl
@[simp] theorem wrN_vec (s : State) (a v : Nat) : (s.wrN a v).vec = s.vec := rfl
@[simp] theorem wrN_ports (s : State) (a v : Nat) : (s.wrN a v).ports = s.ports := rfl
@[simp] theorem wrN_rings (s : State) (a v : Nat) : (s.wrN a v).rings = s.rings := rfl
@[simp] theorem wrN_valPort (s : State) (a v : Nat) : (s.wrN a v).valPort = s.valPort := rfl
@[simp] theorem wrN_valRing (s : State) (a v : Nat) : (s.wrN a v).valRing = s.valRing := rfl
@[simp] theorem wrN_tlc (s : State) (a v : Nat) : (s.wrN a v).tlc = s.tlc := rfl
@[simp] theorem wrN_adm (s : State) (a v : Nat) : (s.wrN a v).adm = s.adm := rfl
@[simp] theorem wrN_scan (s : State) (a v : Nat) : (s.wrN a v).scan = s.scan := rfl
@[simp] theorem wrN_link (s : State) (a v : Nat) : (s.wrN a v).link = s.link := rfl
@[simp] theorem wrN_wb (s : State) (a v : Nat) : (s.wrN a v).wb = s.wb := rfl
@[simp] theorem wrN_fetch (s : State) (a v : Nat) : (s.wrN a v).fetch = s.fetch := rfl
@[simp] theorem wrN_preset (s : State) (a v : Nat) : (s.wrN a v).preset = s.preset := rfl
@[simp] theorem wrN_sigs (s : State) (a v : Nat) : (s.wrN a v).sigs = s.sigs := rfl
@[simp] theorem wrN_groups (s : State) (a v : Nat) : (s.wrN a v).groups = s.groups := rfl
@[simp] theorem wrN_bz (s : State) (a v : Nat) : (s.wrN a v).bz = s.bz := rfl
@[simp] theorem wrN_watch (s : State) (a v : Nat) : (s.wrN a v).watch = s.watch := rfl
@[simp] theorem wrN_sink (s : State) (a v : Nat) : (s.wrN a v).sink = s.sink := rfl
@[simp] theorem wrN_dma (s : State) (a v : Nat) : (s.wrN a v).dma = s.dma := rfl
@[simp] theorem wrN_blit (s : State) (a v : Nat) : (s.wrN a v).blit = s.blit := rfl
@[simp] theorem wrN_pol (s : State) (a v : Nat) : (s.wrN a v).pol = s.pol := rfl
@[simp] theorem wrN_shq (s : State) (a v : Nat) : (s.wrN a v).shq = s.shq := rfl
@[simp] theorem wrN_dram (s : State) (a v : Nat) : (s.wrN a v).dram = s.dram := rfl
@[simp] theorem wrN_reqs (s : State) (a v : Nat) : (s.wrN a v).reqs = s.reqs := rfl
@[simp] theorem wrN_flying (s : State) (a v : Nat) : (s.wrN a v).flying = s.flying := rfl
@[simp] theorem wrN_trigs (s : State) (a v : Nat) : (s.wrN a v).trigs = s.trigs := rfl
@[simp] theorem wrN_trained (s : State) (a v : Nat) : (s.wrN a v).trained = s.trained := rfl
@[simp] theorem wrN_ig (s : State) (a v : Nat) : (s.wrN a v).ig = s.ig := rfl
@[simp] theorem wrN_lane (s : State) (a v : Nat) : (s.wrN a v).lane = s.lane := rfl
@[simp] theorem wrN_can (s : State) (a v : Nat) : (s.wrN a v).can = s.can := rfl
@[simp] theorem wrN_flts (s : State) (a v : Nat) : (s.wrN a v).flts = s.flts := rfl
@[simp] theorem wrN_bells (s : State) (a v : Nat) : (s.wrN a v).bells = s.bells := rfl
@[simp] theorem wrN_hostReads (s : State) (a v : Nat) : (s.wrN a v).hostReads = s.hostReads := rfl
@[simp] theorem wrN_dmaLast (s : State) (a v : Nat) : (s.wrN a v).dmaLast = s.dmaLast := rfl
@[simp] theorem wrN_lastRead (s : State) (a v : Nat) : (s.wrN a v).lastRead = s.lastRead := rfl
@[simp] theorem wrN_jtag (s : State) (a v : Nat) : (s.wrN a v).jtag = s.jtag := rfl

@[simp] theorem put_pending (s : State) (a : Nat) (f : Fld) (v : Nat) : (s.put a f v).pending = s.pending := rfl
@[simp] theorem put_dtime (s : State) (a : Nat) (f : Fld) (v : Nat) : (s.put a f v).dtime = s.dtime := rfl
@[simp] theorem put_free (s : State) (a : Nat) (f : Fld) (v : Nat) : (s.put a f v).free = s.free := rfl
@[simp] theorem put_inUse (s : State) (a : Nat) (f : Fld) (v : Nat) : (s.put a f v).inUse = s.inUse := rfl
@[simp] theorem put_mem (s : State) (a : Nat) (f : Fld) (v : Nat) : (s.put a f v).mem = s.mem := rfl
@[simp] theorem put_losses (s : State) (a : Nat) (f : Fld) (v : Nat) : (s.put a f v).losses = s.losses := rfl
@[simp] theorem put_poison (s : State) (a : Nat) (f : Fld) (v : Nat) : (s.put a f v).poison = s.poison := rfl
@[simp] theorem put_flash0 (s : State) (a : Nat) (f : Fld) (v : Nat) : (s.put a f v).flash0 = s.flash0 := rfl
@[simp] theorem put_flash1 (s : State) (a : Nat) (f : Fld) (v : Nat) : (s.put a f v).flash1 = s.flash1 := rfl
@[simp] theorem put_otp (s : State) (a : Nat) (f : Fld) (v : Nat) : (s.put a f v).otp = s.otp := rfl
@[simp] theorem put_power (s : State) (a : Nat) (f : Fld) (v : Nat) : (s.put a f v).power = s.power := rfl
@[simp] theorem put_boot (s : State) (a : Nat) (f : Fld) (v : Nat) : (s.put a f v).boot = s.boot := rfl
@[simp] theorem put_park (s : State) (a : Nat) (f : Fld) (v : Nat) : (s.put a f v).park = s.park := rfl
@[simp] theorem put_undo (s : State) (a : Nat) (f : Fld) (v : Nat) : (s.put a f v).undo = s.undo := rfl
@[simp] theorem put_degr (s : State) (a : Nat) (f : Fld) (v : Nat) : (s.put a f v).degr = s.degr := rfl
@[simp] theorem put_isl (s : State) (a : Nat) (f : Fld) (v : Nat) : (s.put a f v).isl = s.isl := rfl
@[simp] theorem put_locket (s : State) (a : Nat) (f : Fld) (v : Nat) : (s.put a f v).locket = s.locket := rfl
@[simp] theorem put_gate (s : State) (a : Nat) (f : Fld) (v : Nat) : (s.put a f v).gate = s.gate := rfl
@[simp] theorem put_denial (s : State) (a : Nat) (f : Fld) (v : Nat) : (s.put a f v).denial = s.denial := rfl
@[simp] theorem put_posted (s : State) (a : Nat) (f : Fld) (v : Nat) : (s.put a f v).posted = s.posted := rfl
@[simp] theorem put_capture (s : State) (a : Nat) (f : Fld) (v : Nat) : (s.put a f v).capture = s.capture := rfl
@[simp] theorem put_sv (s : State) (a : Nat) (f : Fld) (v : Nat) : (s.put a f v).sv = s.sv := rfl
@[simp] theorem put_xs (s : State) (a : Nat) (f : Fld) (v : Nat) : (s.put a f v).xs = s.xs := rfl
@[simp] theorem put_surf (s : State) (a : Nat) (f : Fld) (v : Nat) : (s.put a f v).surf = s.surf := rfl
@[simp] theorem put_used (s : State) (a : Nat) (f : Fld) (v : Nat) : (s.put a f v).used = s.used := rfl
@[simp] theorem put_ents (s : State) (a : Nat) (f : Fld) (v : Nat) : (s.put a f v).ents = s.ents := rfl
@[simp] theorem put_buds (s : State) (a : Nat) (f : Fld) (v : Nat) : (s.put a f v).buds = s.buds := rfl
@[simp] theorem put_seqs (s : State) (a : Nat) (f : Fld) (v : Nat) : (s.put a f v).seqs = s.seqs := rfl
@[simp] theorem put_ev (s : State) (a : Nat) (f : Fld) (v : Nat) : (s.put a f v).ev = s.ev := rfl
@[simp] theorem put_vec (s : State) (a : Nat) (f : Fld) (v : Nat) : (s.put a f v).vec = s.vec := rfl
@[simp] theorem put_ports (s : State) (a : Nat) (f : Fld) (v : Nat) : (s.put a f v).ports = s.ports := rfl
@[simp] theorem put_rings (s : State) (a : Nat) (f : Fld) (v : Nat) : (s.put a f v).rings = s.rings := rfl
@[simp] theorem put_valPort (s : State) (a : Nat) (f : Fld) (v : Nat) : (s.put a f v).valPort = s.valPort := rfl
@[simp] theorem put_valRing (s : State) (a : Nat) (f : Fld) (v : Nat) : (s.put a f v).valRing = s.valRing := rfl
@[simp] theorem put_tlc (s : State) (a : Nat) (f : Fld) (v : Nat) : (s.put a f v).tlc = s.tlc := rfl
@[simp] theorem put_adm (s : State) (a : Nat) (f : Fld) (v : Nat) : (s.put a f v).adm = s.adm := rfl
@[simp] theorem put_scan (s : State) (a : Nat) (f : Fld) (v : Nat) : (s.put a f v).scan = s.scan := rfl
@[simp] theorem put_link (s : State) (a : Nat) (f : Fld) (v : Nat) : (s.put a f v).link = s.link := rfl
@[simp] theorem put_wb (s : State) (a : Nat) (f : Fld) (v : Nat) : (s.put a f v).wb = s.wb := rfl
@[simp] theorem put_fetch (s : State) (a : Nat) (f : Fld) (v : Nat) : (s.put a f v).fetch = s.fetch := rfl
@[simp] theorem put_preset (s : State) (a : Nat) (f : Fld) (v : Nat) : (s.put a f v).preset = s.preset := rfl
@[simp] theorem put_sigs (s : State) (a : Nat) (f : Fld) (v : Nat) : (s.put a f v).sigs = s.sigs := rfl
@[simp] theorem put_groups (s : State) (a : Nat) (f : Fld) (v : Nat) : (s.put a f v).groups = s.groups := rfl
@[simp] theorem put_bz (s : State) (a : Nat) (f : Fld) (v : Nat) : (s.put a f v).bz = s.bz := rfl
@[simp] theorem put_watch (s : State) (a : Nat) (f : Fld) (v : Nat) : (s.put a f v).watch = s.watch := rfl
@[simp] theorem put_sink (s : State) (a : Nat) (f : Fld) (v : Nat) : (s.put a f v).sink = s.sink := rfl
@[simp] theorem put_dma (s : State) (a : Nat) (f : Fld) (v : Nat) : (s.put a f v).dma = s.dma := rfl
@[simp] theorem put_blit (s : State) (a : Nat) (f : Fld) (v : Nat) : (s.put a f v).blit = s.blit := rfl
@[simp] theorem put_pol (s : State) (a : Nat) (f : Fld) (v : Nat) : (s.put a f v).pol = s.pol := rfl
@[simp] theorem put_shq (s : State) (a : Nat) (f : Fld) (v : Nat) : (s.put a f v).shq = s.shq := rfl
@[simp] theorem put_dram (s : State) (a : Nat) (f : Fld) (v : Nat) : (s.put a f v).dram = s.dram := rfl
@[simp] theorem put_reqs (s : State) (a : Nat) (f : Fld) (v : Nat) : (s.put a f v).reqs = s.reqs := rfl
@[simp] theorem put_flying (s : State) (a : Nat) (f : Fld) (v : Nat) : (s.put a f v).flying = s.flying := rfl
@[simp] theorem put_trigs (s : State) (a : Nat) (f : Fld) (v : Nat) : (s.put a f v).trigs = s.trigs := rfl
@[simp] theorem put_trained (s : State) (a : Nat) (f : Fld) (v : Nat) : (s.put a f v).trained = s.trained := rfl
@[simp] theorem put_ig (s : State) (a : Nat) (f : Fld) (v : Nat) : (s.put a f v).ig = s.ig := rfl
@[simp] theorem put_lane (s : State) (a : Nat) (f : Fld) (v : Nat) : (s.put a f v).lane = s.lane := rfl
@[simp] theorem put_can (s : State) (a : Nat) (f : Fld) (v : Nat) : (s.put a f v).can = s.can := rfl
@[simp] theorem put_flts (s : State) (a : Nat) (f : Fld) (v : Nat) : (s.put a f v).flts = s.flts := rfl
@[simp] theorem put_bells (s : State) (a : Nat) (f : Fld) (v : Nat) : (s.put a f v).bells = s.bells := rfl
@[simp] theorem put_hostReads (s : State) (a : Nat) (f : Fld) (v : Nat) : (s.put a f v).hostReads = s.hostReads := rfl
@[simp] theorem put_dmaLast (s : State) (a : Nat) (f : Fld) (v : Nat) : (s.put a f v).dmaLast = s.dmaLast := rfl
@[simp] theorem put_lastRead (s : State) (a : Nat) (f : Fld) (v : Nat) : (s.put a f v).lastRead = s.lastRead := rfl
@[simp] theorem put_jtag (s : State) (a : Nat) (f : Fld) (v : Nat) : (s.put a f v).jtag = s.jtag := rfl

@[simp] theorem bump_pending (s : State) (a : Nat) (f : Fld) (n : Nat) : (s.bump a f n).pending = s.pending := rfl
@[simp] theorem bump_dtime (s : State) (a : Nat) (f : Fld) (n : Nat) : (s.bump a f n).dtime = s.dtime := rfl
@[simp] theorem bump_free (s : State) (a : Nat) (f : Fld) (n : Nat) : (s.bump a f n).free = s.free := rfl
@[simp] theorem bump_inUse (s : State) (a : Nat) (f : Fld) (n : Nat) : (s.bump a f n).inUse = s.inUse := rfl
@[simp] theorem bump_mem (s : State) (a : Nat) (f : Fld) (n : Nat) : (s.bump a f n).mem = s.mem := rfl
@[simp] theorem bump_losses (s : State) (a : Nat) (f : Fld) (n : Nat) : (s.bump a f n).losses = s.losses := rfl
@[simp] theorem bump_poison (s : State) (a : Nat) (f : Fld) (n : Nat) : (s.bump a f n).poison = s.poison := rfl
@[simp] theorem bump_flash0 (s : State) (a : Nat) (f : Fld) (n : Nat) : (s.bump a f n).flash0 = s.flash0 := rfl
@[simp] theorem bump_flash1 (s : State) (a : Nat) (f : Fld) (n : Nat) : (s.bump a f n).flash1 = s.flash1 := rfl
@[simp] theorem bump_otp (s : State) (a : Nat) (f : Fld) (n : Nat) : (s.bump a f n).otp = s.otp := rfl
@[simp] theorem bump_power (s : State) (a : Nat) (f : Fld) (n : Nat) : (s.bump a f n).power = s.power := rfl
@[simp] theorem bump_boot (s : State) (a : Nat) (f : Fld) (n : Nat) : (s.bump a f n).boot = s.boot := rfl
@[simp] theorem bump_park (s : State) (a : Nat) (f : Fld) (n : Nat) : (s.bump a f n).park = s.park := rfl
@[simp] theorem bump_undo (s : State) (a : Nat) (f : Fld) (n : Nat) : (s.bump a f n).undo = s.undo := rfl
@[simp] theorem bump_degr (s : State) (a : Nat) (f : Fld) (n : Nat) : (s.bump a f n).degr = s.degr := rfl
@[simp] theorem bump_isl (s : State) (a : Nat) (f : Fld) (n : Nat) : (s.bump a f n).isl = s.isl := rfl
@[simp] theorem bump_locket (s : State) (a : Nat) (f : Fld) (n : Nat) : (s.bump a f n).locket = s.locket := rfl
@[simp] theorem bump_gate (s : State) (a : Nat) (f : Fld) (n : Nat) : (s.bump a f n).gate = s.gate := rfl
@[simp] theorem bump_denial (s : State) (a : Nat) (f : Fld) (n : Nat) : (s.bump a f n).denial = s.denial := rfl
@[simp] theorem bump_posted (s : State) (a : Nat) (f : Fld) (n : Nat) : (s.bump a f n).posted = s.posted := rfl
@[simp] theorem bump_capture (s : State) (a : Nat) (f : Fld) (n : Nat) : (s.bump a f n).capture = s.capture := rfl
@[simp] theorem bump_sv (s : State) (a : Nat) (f : Fld) (n : Nat) : (s.bump a f n).sv = s.sv := rfl
@[simp] theorem bump_xs (s : State) (a : Nat) (f : Fld) (n : Nat) : (s.bump a f n).xs = s.xs := rfl
@[simp] theorem bump_surf (s : State) (a : Nat) (f : Fld) (n : Nat) : (s.bump a f n).surf = s.surf := rfl
@[simp] theorem bump_used (s : State) (a : Nat) (f : Fld) (n : Nat) : (s.bump a f n).used = s.used := rfl
@[simp] theorem bump_ents (s : State) (a : Nat) (f : Fld) (n : Nat) : (s.bump a f n).ents = s.ents := rfl
@[simp] theorem bump_buds (s : State) (a : Nat) (f : Fld) (n : Nat) : (s.bump a f n).buds = s.buds := rfl
@[simp] theorem bump_seqs (s : State) (a : Nat) (f : Fld) (n : Nat) : (s.bump a f n).seqs = s.seqs := rfl
@[simp] theorem bump_ev (s : State) (a : Nat) (f : Fld) (n : Nat) : (s.bump a f n).ev = s.ev := rfl
@[simp] theorem bump_vec (s : State) (a : Nat) (f : Fld) (n : Nat) : (s.bump a f n).vec = s.vec := rfl
@[simp] theorem bump_ports (s : State) (a : Nat) (f : Fld) (n : Nat) : (s.bump a f n).ports = s.ports := rfl
@[simp] theorem bump_rings (s : State) (a : Nat) (f : Fld) (n : Nat) : (s.bump a f n).rings = s.rings := rfl
@[simp] theorem bump_valPort (s : State) (a : Nat) (f : Fld) (n : Nat) : (s.bump a f n).valPort = s.valPort := rfl
@[simp] theorem bump_valRing (s : State) (a : Nat) (f : Fld) (n : Nat) : (s.bump a f n).valRing = s.valRing := rfl
@[simp] theorem bump_tlc (s : State) (a : Nat) (f : Fld) (n : Nat) : (s.bump a f n).tlc = s.tlc := rfl
@[simp] theorem bump_adm (s : State) (a : Nat) (f : Fld) (n : Nat) : (s.bump a f n).adm = s.adm := rfl
@[simp] theorem bump_scan (s : State) (a : Nat) (f : Fld) (n : Nat) : (s.bump a f n).scan = s.scan := rfl
@[simp] theorem bump_link (s : State) (a : Nat) (f : Fld) (n : Nat) : (s.bump a f n).link = s.link := rfl
@[simp] theorem bump_wb (s : State) (a : Nat) (f : Fld) (n : Nat) : (s.bump a f n).wb = s.wb := rfl
@[simp] theorem bump_fetch (s : State) (a : Nat) (f : Fld) (n : Nat) : (s.bump a f n).fetch = s.fetch := rfl
@[simp] theorem bump_preset (s : State) (a : Nat) (f : Fld) (n : Nat) : (s.bump a f n).preset = s.preset := rfl
@[simp] theorem bump_sigs (s : State) (a : Nat) (f : Fld) (n : Nat) : (s.bump a f n).sigs = s.sigs := rfl
@[simp] theorem bump_groups (s : State) (a : Nat) (f : Fld) (n : Nat) : (s.bump a f n).groups = s.groups := rfl
@[simp] theorem bump_bz (s : State) (a : Nat) (f : Fld) (n : Nat) : (s.bump a f n).bz = s.bz := rfl
@[simp] theorem bump_watch (s : State) (a : Nat) (f : Fld) (n : Nat) : (s.bump a f n).watch = s.watch := rfl
@[simp] theorem bump_sink (s : State) (a : Nat) (f : Fld) (n : Nat) : (s.bump a f n).sink = s.sink := rfl
@[simp] theorem bump_dma (s : State) (a : Nat) (f : Fld) (n : Nat) : (s.bump a f n).dma = s.dma := rfl
@[simp] theorem bump_blit (s : State) (a : Nat) (f : Fld) (n : Nat) : (s.bump a f n).blit = s.blit := rfl
@[simp] theorem bump_pol (s : State) (a : Nat) (f : Fld) (n : Nat) : (s.bump a f n).pol = s.pol := rfl
@[simp] theorem bump_shq (s : State) (a : Nat) (f : Fld) (n : Nat) : (s.bump a f n).shq = s.shq := rfl
@[simp] theorem bump_dram (s : State) (a : Nat) (f : Fld) (n : Nat) : (s.bump a f n).dram = s.dram := rfl
@[simp] theorem bump_reqs (s : State) (a : Nat) (f : Fld) (n : Nat) : (s.bump a f n).reqs = s.reqs := rfl
@[simp] theorem bump_flying (s : State) (a : Nat) (f : Fld) (n : Nat) : (s.bump a f n).flying = s.flying := rfl
@[simp] theorem bump_trigs (s : State) (a : Nat) (f : Fld) (n : Nat) : (s.bump a f n).trigs = s.trigs := rfl
@[simp] theorem bump_trained (s : State) (a : Nat) (f : Fld) (n : Nat) : (s.bump a f n).trained = s.trained := rfl
@[simp] theorem bump_ig (s : State) (a : Nat) (f : Fld) (n : Nat) : (s.bump a f n).ig = s.ig := rfl
@[simp] theorem bump_lane (s : State) (a : Nat) (f : Fld) (n : Nat) : (s.bump a f n).lane = s.lane := rfl
@[simp] theorem bump_can (s : State) (a : Nat) (f : Fld) (n : Nat) : (s.bump a f n).can = s.can := rfl
@[simp] theorem bump_flts (s : State) (a : Nat) (f : Fld) (n : Nat) : (s.bump a f n).flts = s.flts := rfl
@[simp] theorem bump_bells (s : State) (a : Nat) (f : Fld) (n : Nat) : (s.bump a f n).bells = s.bells := rfl
@[simp] theorem bump_hostReads (s : State) (a : Nat) (f : Fld) (n : Nat) : (s.bump a f n).hostReads = s.hostReads := rfl
@[simp] theorem bump_dmaLast (s : State) (a : Nat) (f : Fld) (n : Nat) : (s.bump a f n).dmaLast = s.dmaLast := rfl
@[simp] theorem bump_lastRead (s : State) (a : Nat) (f : Fld) (n : Nat) : (s.bump a f n).lastRead = s.lastRead := rfl
@[simp] theorem bump_jtag (s : State) (a : Nat) (f : Fld) (n : Nat) : (s.bump a f n).jtag = s.jtag := rfl

@[simp] theorem bumpMod_pending (s : State) (a : Nat) (f : Fld) (n : Nat) : (s.bumpMod a f n).pending = s.pending := rfl
@[simp] theorem bumpMod_dtime (s : State) (a : Nat) (f : Fld) (n : Nat) : (s.bumpMod a f n).dtime = s.dtime := rfl
@[simp] theorem bumpMod_free (s : State) (a : Nat) (f : Fld) (n : Nat) : (s.bumpMod a f n).free = s.free := rfl
@[simp] theorem bumpMod_inUse (s : State) (a : Nat) (f : Fld) (n : Nat) : (s.bumpMod a f n).inUse = s.inUse := rfl
@[simp] theorem bumpMod_mem (s : State) (a : Nat) (f : Fld) (n : Nat) : (s.bumpMod a f n).mem = s.mem := rfl
@[simp] theorem bumpMod_losses (s : State) (a : Nat) (f : Fld) (n : Nat) : (s.bumpMod a f n).losses = s.losses := rfl
@[simp] theorem bumpMod_poison (s : State) (a : Nat) (f : Fld) (n : Nat) : (s.bumpMod a f n).poison = s.poison := rfl
@[simp] theorem bumpMod_flash0 (s : State) (a : Nat) (f : Fld) (n : Nat) : (s.bumpMod a f n).flash0 = s.flash0 := rfl
@[simp] theorem bumpMod_flash1 (s : State) (a : Nat) (f : Fld) (n : Nat) : (s.bumpMod a f n).flash1 = s.flash1 := rfl
@[simp] theorem bumpMod_otp (s : State) (a : Nat) (f : Fld) (n : Nat) : (s.bumpMod a f n).otp = s.otp := rfl
@[simp] theorem bumpMod_power (s : State) (a : Nat) (f : Fld) (n : Nat) : (s.bumpMod a f n).power = s.power := rfl
@[simp] theorem bumpMod_boot (s : State) (a : Nat) (f : Fld) (n : Nat) : (s.bumpMod a f n).boot = s.boot := rfl
@[simp] theorem bumpMod_park (s : State) (a : Nat) (f : Fld) (n : Nat) : (s.bumpMod a f n).park = s.park := rfl
@[simp] theorem bumpMod_undo (s : State) (a : Nat) (f : Fld) (n : Nat) : (s.bumpMod a f n).undo = s.undo := rfl
@[simp] theorem bumpMod_degr (s : State) (a : Nat) (f : Fld) (n : Nat) : (s.bumpMod a f n).degr = s.degr := rfl
@[simp] theorem bumpMod_isl (s : State) (a : Nat) (f : Fld) (n : Nat) : (s.bumpMod a f n).isl = s.isl := rfl
@[simp] theorem bumpMod_locket (s : State) (a : Nat) (f : Fld) (n : Nat) : (s.bumpMod a f n).locket = s.locket := rfl
@[simp] theorem bumpMod_gate (s : State) (a : Nat) (f : Fld) (n : Nat) : (s.bumpMod a f n).gate = s.gate := rfl
@[simp] theorem bumpMod_denial (s : State) (a : Nat) (f : Fld) (n : Nat) : (s.bumpMod a f n).denial = s.denial := rfl
@[simp] theorem bumpMod_posted (s : State) (a : Nat) (f : Fld) (n : Nat) : (s.bumpMod a f n).posted = s.posted := rfl
@[simp] theorem bumpMod_capture (s : State) (a : Nat) (f : Fld) (n : Nat) : (s.bumpMod a f n).capture = s.capture := rfl
@[simp] theorem bumpMod_sv (s : State) (a : Nat) (f : Fld) (n : Nat) : (s.bumpMod a f n).sv = s.sv := rfl
@[simp] theorem bumpMod_xs (s : State) (a : Nat) (f : Fld) (n : Nat) : (s.bumpMod a f n).xs = s.xs := rfl
@[simp] theorem bumpMod_surf (s : State) (a : Nat) (f : Fld) (n : Nat) : (s.bumpMod a f n).surf = s.surf := rfl
@[simp] theorem bumpMod_used (s : State) (a : Nat) (f : Fld) (n : Nat) : (s.bumpMod a f n).used = s.used := rfl
@[simp] theorem bumpMod_ents (s : State) (a : Nat) (f : Fld) (n : Nat) : (s.bumpMod a f n).ents = s.ents := rfl
@[simp] theorem bumpMod_buds (s : State) (a : Nat) (f : Fld) (n : Nat) : (s.bumpMod a f n).buds = s.buds := rfl
@[simp] theorem bumpMod_seqs (s : State) (a : Nat) (f : Fld) (n : Nat) : (s.bumpMod a f n).seqs = s.seqs := rfl
@[simp] theorem bumpMod_ev (s : State) (a : Nat) (f : Fld) (n : Nat) : (s.bumpMod a f n).ev = s.ev := rfl
@[simp] theorem bumpMod_vec (s : State) (a : Nat) (f : Fld) (n : Nat) : (s.bumpMod a f n).vec = s.vec := rfl
@[simp] theorem bumpMod_ports (s : State) (a : Nat) (f : Fld) (n : Nat) : (s.bumpMod a f n).ports = s.ports := rfl
@[simp] theorem bumpMod_rings (s : State) (a : Nat) (f : Fld) (n : Nat) : (s.bumpMod a f n).rings = s.rings := rfl
@[simp] theorem bumpMod_valPort (s : State) (a : Nat) (f : Fld) (n : Nat) : (s.bumpMod a f n).valPort = s.valPort := rfl
@[simp] theorem bumpMod_valRing (s : State) (a : Nat) (f : Fld) (n : Nat) : (s.bumpMod a f n).valRing = s.valRing := rfl
@[simp] theorem bumpMod_tlc (s : State) (a : Nat) (f : Fld) (n : Nat) : (s.bumpMod a f n).tlc = s.tlc := rfl
@[simp] theorem bumpMod_adm (s : State) (a : Nat) (f : Fld) (n : Nat) : (s.bumpMod a f n).adm = s.adm := rfl
@[simp] theorem bumpMod_scan (s : State) (a : Nat) (f : Fld) (n : Nat) : (s.bumpMod a f n).scan = s.scan := rfl
@[simp] theorem bumpMod_link (s : State) (a : Nat) (f : Fld) (n : Nat) : (s.bumpMod a f n).link = s.link := rfl
@[simp] theorem bumpMod_wb (s : State) (a : Nat) (f : Fld) (n : Nat) : (s.bumpMod a f n).wb = s.wb := rfl
@[simp] theorem bumpMod_fetch (s : State) (a : Nat) (f : Fld) (n : Nat) : (s.bumpMod a f n).fetch = s.fetch := rfl
@[simp] theorem bumpMod_preset (s : State) (a : Nat) (f : Fld) (n : Nat) : (s.bumpMod a f n).preset = s.preset := rfl
@[simp] theorem bumpMod_sigs (s : State) (a : Nat) (f : Fld) (n : Nat) : (s.bumpMod a f n).sigs = s.sigs := rfl
@[simp] theorem bumpMod_groups (s : State) (a : Nat) (f : Fld) (n : Nat) : (s.bumpMod a f n).groups = s.groups := rfl
@[simp] theorem bumpMod_bz (s : State) (a : Nat) (f : Fld) (n : Nat) : (s.bumpMod a f n).bz = s.bz := rfl
@[simp] theorem bumpMod_watch (s : State) (a : Nat) (f : Fld) (n : Nat) : (s.bumpMod a f n).watch = s.watch := rfl
@[simp] theorem bumpMod_sink (s : State) (a : Nat) (f : Fld) (n : Nat) : (s.bumpMod a f n).sink = s.sink := rfl
@[simp] theorem bumpMod_dma (s : State) (a : Nat) (f : Fld) (n : Nat) : (s.bumpMod a f n).dma = s.dma := rfl
@[simp] theorem bumpMod_blit (s : State) (a : Nat) (f : Fld) (n : Nat) : (s.bumpMod a f n).blit = s.blit := rfl
@[simp] theorem bumpMod_pol (s : State) (a : Nat) (f : Fld) (n : Nat) : (s.bumpMod a f n).pol = s.pol := rfl
@[simp] theorem bumpMod_shq (s : State) (a : Nat) (f : Fld) (n : Nat) : (s.bumpMod a f n).shq = s.shq := rfl
@[simp] theorem bumpMod_dram (s : State) (a : Nat) (f : Fld) (n : Nat) : (s.bumpMod a f n).dram = s.dram := rfl
@[simp] theorem bumpMod_reqs (s : State) (a : Nat) (f : Fld) (n : Nat) : (s.bumpMod a f n).reqs = s.reqs := rfl
@[simp] theorem bumpMod_flying (s : State) (a : Nat) (f : Fld) (n : Nat) : (s.bumpMod a f n).flying = s.flying := rfl
@[simp] theorem bumpMod_trigs (s : State) (a : Nat) (f : Fld) (n : Nat) : (s.bumpMod a f n).trigs = s.trigs := rfl
@[simp] theorem bumpMod_trained (s : State) (a : Nat) (f : Fld) (n : Nat) : (s.bumpMod a f n).trained = s.trained := rfl
@[simp] theorem bumpMod_ig (s : State) (a : Nat) (f : Fld) (n : Nat) : (s.bumpMod a f n).ig = s.ig := rfl
@[simp] theorem bumpMod_lane (s : State) (a : Nat) (f : Fld) (n : Nat) : (s.bumpMod a f n).lane = s.lane := rfl
@[simp] theorem bumpMod_can (s : State) (a : Nat) (f : Fld) (n : Nat) : (s.bumpMod a f n).can = s.can := rfl
@[simp] theorem bumpMod_flts (s : State) (a : Nat) (f : Fld) (n : Nat) : (s.bumpMod a f n).flts = s.flts := rfl
@[simp] theorem bumpMod_bells (s : State) (a : Nat) (f : Fld) (n : Nat) : (s.bumpMod a f n).bells = s.bells := rfl
@[simp] theorem bumpMod_hostReads (s : State) (a : Nat) (f : Fld) (n : Nat) : (s.bumpMod a f n).hostReads = s.hostReads := rfl
@[simp] theorem bumpMod_dmaLast (s : State) (a : Nat) (f : Fld) (n : Nat) : (s.bumpMod a f n).dmaLast = s.dmaLast := rfl
@[simp] theorem bumpMod_lastRead (s : State) (a : Nat) (f : Fld) (n : Nat) : (s.bumpMod a f n).lastRead = s.lastRead := rfl
@[simp] theorem bumpMod_jtag (s : State) (a : Nat) (f : Fld) (n : Nat) : (s.bumpMod a f n).jtag = s.jtag := rfl

@[simp] theorem bumpSat_pending (s : State) (a : Nat) (f : Fld) (n : Nat) : (s.bumpSat a f n).pending = s.pending := rfl
@[simp] theorem bumpSat_dtime (s : State) (a : Nat) (f : Fld) (n : Nat) : (s.bumpSat a f n).dtime = s.dtime := rfl
@[simp] theorem bumpSat_free (s : State) (a : Nat) (f : Fld) (n : Nat) : (s.bumpSat a f n).free = s.free := rfl
@[simp] theorem bumpSat_inUse (s : State) (a : Nat) (f : Fld) (n : Nat) : (s.bumpSat a f n).inUse = s.inUse := rfl
@[simp] theorem bumpSat_mem (s : State) (a : Nat) (f : Fld) (n : Nat) : (s.bumpSat a f n).mem = s.mem := rfl
@[simp] theorem bumpSat_losses (s : State) (a : Nat) (f : Fld) (n : Nat) : (s.bumpSat a f n).losses = s.losses := rfl
@[simp] theorem bumpSat_poison (s : State) (a : Nat) (f : Fld) (n : Nat) : (s.bumpSat a f n).poison = s.poison := rfl
@[simp] theorem bumpSat_flash0 (s : State) (a : Nat) (f : Fld) (n : Nat) : (s.bumpSat a f n).flash0 = s.flash0 := rfl
@[simp] theorem bumpSat_flash1 (s : State) (a : Nat) (f : Fld) (n : Nat) : (s.bumpSat a f n).flash1 = s.flash1 := rfl
@[simp] theorem bumpSat_otp (s : State) (a : Nat) (f : Fld) (n : Nat) : (s.bumpSat a f n).otp = s.otp := rfl
@[simp] theorem bumpSat_power (s : State) (a : Nat) (f : Fld) (n : Nat) : (s.bumpSat a f n).power = s.power := rfl
@[simp] theorem bumpSat_boot (s : State) (a : Nat) (f : Fld) (n : Nat) : (s.bumpSat a f n).boot = s.boot := rfl
@[simp] theorem bumpSat_park (s : State) (a : Nat) (f : Fld) (n : Nat) : (s.bumpSat a f n).park = s.park := rfl
@[simp] theorem bumpSat_undo (s : State) (a : Nat) (f : Fld) (n : Nat) : (s.bumpSat a f n).undo = s.undo := rfl
@[simp] theorem bumpSat_degr (s : State) (a : Nat) (f : Fld) (n : Nat) : (s.bumpSat a f n).degr = s.degr := rfl
@[simp] theorem bumpSat_isl (s : State) (a : Nat) (f : Fld) (n : Nat) : (s.bumpSat a f n).isl = s.isl := rfl
@[simp] theorem bumpSat_locket (s : State) (a : Nat) (f : Fld) (n : Nat) : (s.bumpSat a f n).locket = s.locket := rfl
@[simp] theorem bumpSat_gate (s : State) (a : Nat) (f : Fld) (n : Nat) : (s.bumpSat a f n).gate = s.gate := rfl
@[simp] theorem bumpSat_denial (s : State) (a : Nat) (f : Fld) (n : Nat) : (s.bumpSat a f n).denial = s.denial := rfl
@[simp] theorem bumpSat_posted (s : State) (a : Nat) (f : Fld) (n : Nat) : (s.bumpSat a f n).posted = s.posted := rfl
@[simp] theorem bumpSat_capture (s : State) (a : Nat) (f : Fld) (n : Nat) : (s.bumpSat a f n).capture = s.capture := rfl
@[simp] theorem bumpSat_sv (s : State) (a : Nat) (f : Fld) (n : Nat) : (s.bumpSat a f n).sv = s.sv := rfl
@[simp] theorem bumpSat_xs (s : State) (a : Nat) (f : Fld) (n : Nat) : (s.bumpSat a f n).xs = s.xs := rfl
@[simp] theorem bumpSat_surf (s : State) (a : Nat) (f : Fld) (n : Nat) : (s.bumpSat a f n).surf = s.surf := rfl
@[simp] theorem bumpSat_used (s : State) (a : Nat) (f : Fld) (n : Nat) : (s.bumpSat a f n).used = s.used := rfl
@[simp] theorem bumpSat_ents (s : State) (a : Nat) (f : Fld) (n : Nat) : (s.bumpSat a f n).ents = s.ents := rfl
@[simp] theorem bumpSat_buds (s : State) (a : Nat) (f : Fld) (n : Nat) : (s.bumpSat a f n).buds = s.buds := rfl
@[simp] theorem bumpSat_seqs (s : State) (a : Nat) (f : Fld) (n : Nat) : (s.bumpSat a f n).seqs = s.seqs := rfl
@[simp] theorem bumpSat_ev (s : State) (a : Nat) (f : Fld) (n : Nat) : (s.bumpSat a f n).ev = s.ev := rfl
@[simp] theorem bumpSat_vec (s : State) (a : Nat) (f : Fld) (n : Nat) : (s.bumpSat a f n).vec = s.vec := rfl
@[simp] theorem bumpSat_ports (s : State) (a : Nat) (f : Fld) (n : Nat) : (s.bumpSat a f n).ports = s.ports := rfl
@[simp] theorem bumpSat_rings (s : State) (a : Nat) (f : Fld) (n : Nat) : (s.bumpSat a f n).rings = s.rings := rfl
@[simp] theorem bumpSat_valPort (s : State) (a : Nat) (f : Fld) (n : Nat) : (s.bumpSat a f n).valPort = s.valPort := rfl
@[simp] theorem bumpSat_valRing (s : State) (a : Nat) (f : Fld) (n : Nat) : (s.bumpSat a f n).valRing = s.valRing := rfl
@[simp] theorem bumpSat_tlc (s : State) (a : Nat) (f : Fld) (n : Nat) : (s.bumpSat a f n).tlc = s.tlc := rfl
@[simp] theorem bumpSat_adm (s : State) (a : Nat) (f : Fld) (n : Nat) : (s.bumpSat a f n).adm = s.adm := rfl
@[simp] theorem bumpSat_scan (s : State) (a : Nat) (f : Fld) (n : Nat) : (s.bumpSat a f n).scan = s.scan := rfl
@[simp] theorem bumpSat_link (s : State) (a : Nat) (f : Fld) (n : Nat) : (s.bumpSat a f n).link = s.link := rfl
@[simp] theorem bumpSat_wb (s : State) (a : Nat) (f : Fld) (n : Nat) : (s.bumpSat a f n).wb = s.wb := rfl
@[simp] theorem bumpSat_fetch (s : State) (a : Nat) (f : Fld) (n : Nat) : (s.bumpSat a f n).fetch = s.fetch := rfl
@[simp] theorem bumpSat_preset (s : State) (a : Nat) (f : Fld) (n : Nat) : (s.bumpSat a f n).preset = s.preset := rfl
@[simp] theorem bumpSat_sigs (s : State) (a : Nat) (f : Fld) (n : Nat) : (s.bumpSat a f n).sigs = s.sigs := rfl
@[simp] theorem bumpSat_groups (s : State) (a : Nat) (f : Fld) (n : Nat) : (s.bumpSat a f n).groups = s.groups := rfl
@[simp] theorem bumpSat_bz (s : State) (a : Nat) (f : Fld) (n : Nat) : (s.bumpSat a f n).bz = s.bz := rfl
@[simp] theorem bumpSat_watch (s : State) (a : Nat) (f : Fld) (n : Nat) : (s.bumpSat a f n).watch = s.watch := rfl
@[simp] theorem bumpSat_sink (s : State) (a : Nat) (f : Fld) (n : Nat) : (s.bumpSat a f n).sink = s.sink := rfl
@[simp] theorem bumpSat_dma (s : State) (a : Nat) (f : Fld) (n : Nat) : (s.bumpSat a f n).dma = s.dma := rfl
@[simp] theorem bumpSat_blit (s : State) (a : Nat) (f : Fld) (n : Nat) : (s.bumpSat a f n).blit = s.blit := rfl
@[simp] theorem bumpSat_pol (s : State) (a : Nat) (f : Fld) (n : Nat) : (s.bumpSat a f n).pol = s.pol := rfl
@[simp] theorem bumpSat_shq (s : State) (a : Nat) (f : Fld) (n : Nat) : (s.bumpSat a f n).shq = s.shq := rfl
@[simp] theorem bumpSat_dram (s : State) (a : Nat) (f : Fld) (n : Nat) : (s.bumpSat a f n).dram = s.dram := rfl
@[simp] theorem bumpSat_reqs (s : State) (a : Nat) (f : Fld) (n : Nat) : (s.bumpSat a f n).reqs = s.reqs := rfl
@[simp] theorem bumpSat_flying (s : State) (a : Nat) (f : Fld) (n : Nat) : (s.bumpSat a f n).flying = s.flying := rfl
@[simp] theorem bumpSat_trigs (s : State) (a : Nat) (f : Fld) (n : Nat) : (s.bumpSat a f n).trigs = s.trigs := rfl
@[simp] theorem bumpSat_trained (s : State) (a : Nat) (f : Fld) (n : Nat) : (s.bumpSat a f n).trained = s.trained := rfl
@[simp] theorem bumpSat_ig (s : State) (a : Nat) (f : Fld) (n : Nat) : (s.bumpSat a f n).ig = s.ig := rfl
@[simp] theorem bumpSat_lane (s : State) (a : Nat) (f : Fld) (n : Nat) : (s.bumpSat a f n).lane = s.lane := rfl
@[simp] theorem bumpSat_can (s : State) (a : Nat) (f : Fld) (n : Nat) : (s.bumpSat a f n).can = s.can := rfl
@[simp] theorem bumpSat_flts (s : State) (a : Nat) (f : Fld) (n : Nat) : (s.bumpSat a f n).flts = s.flts := rfl
@[simp] theorem bumpSat_bells (s : State) (a : Nat) (f : Fld) (n : Nat) : (s.bumpSat a f n).bells = s.bells := rfl
@[simp] theorem bumpSat_hostReads (s : State) (a : Nat) (f : Fld) (n : Nat) : (s.bumpSat a f n).hostReads = s.hostReads := rfl
@[simp] theorem bumpSat_dmaLast (s : State) (a : Nat) (f : Fld) (n : Nat) : (s.bumpSat a f n).dmaLast = s.dmaLast := rfl
@[simp] theorem bumpSat_lastRead (s : State) (a : Nat) (f : Fld) (n : Nat) : (s.bumpSat a f n).lastRead = s.lastRead := rfl
@[simp] theorem bumpSat_jtag (s : State) (a : Nat) (f : Fld) (n : Nat) : (s.bumpSat a f n).jtag = s.jtag := rfl

@[simp] theorem wrUse_pending (s : State) (a : Nat) (w : Word) : (s.wrUse a w).pending = s.pending := rfl
@[simp] theorem wrUse_dtime (s : State) (a : Nat) (w : Word) : (s.wrUse a w).dtime = s.dtime := rfl
@[simp] theorem wrUse_free (s : State) (a : Nat) (w : Word) : (s.wrUse a w).free = s.free := rfl
@[simp] theorem wrUse_regs (s : State) (a : Nat) (w : Word) : (s.wrUse a w).regs = s.regs := rfl
@[simp] theorem wrUse_mem (s : State) (a : Nat) (w : Word) : (s.wrUse a w).mem = s.mem := rfl
@[simp] theorem wrUse_losses (s : State) (a : Nat) (w : Word) : (s.wrUse a w).losses = s.losses := rfl
@[simp] theorem wrUse_poison (s : State) (a : Nat) (w : Word) : (s.wrUse a w).poison = s.poison := rfl
@[simp] theorem wrUse_flash0 (s : State) (a : Nat) (w : Word) : (s.wrUse a w).flash0 = s.flash0 := rfl
@[simp] theorem wrUse_flash1 (s : State) (a : Nat) (w : Word) : (s.wrUse a w).flash1 = s.flash1 := rfl
@[simp] theorem wrUse_otp (s : State) (a : Nat) (w : Word) : (s.wrUse a w).otp = s.otp := rfl
@[simp] theorem wrUse_power (s : State) (a : Nat) (w : Word) : (s.wrUse a w).power = s.power := rfl
@[simp] theorem wrUse_boot (s : State) (a : Nat) (w : Word) : (s.wrUse a w).boot = s.boot := rfl
@[simp] theorem wrUse_park (s : State) (a : Nat) (w : Word) : (s.wrUse a w).park = s.park := rfl
@[simp] theorem wrUse_undo (s : State) (a : Nat) (w : Word) : (s.wrUse a w).undo = s.undo := rfl
@[simp] theorem wrUse_degr (s : State) (a : Nat) (w : Word) : (s.wrUse a w).degr = s.degr := rfl
@[simp] theorem wrUse_isl (s : State) (a : Nat) (w : Word) : (s.wrUse a w).isl = s.isl := rfl
@[simp] theorem wrUse_locket (s : State) (a : Nat) (w : Word) : (s.wrUse a w).locket = s.locket := rfl
@[simp] theorem wrUse_gate (s : State) (a : Nat) (w : Word) : (s.wrUse a w).gate = s.gate := rfl
@[simp] theorem wrUse_denial (s : State) (a : Nat) (w : Word) : (s.wrUse a w).denial = s.denial := rfl
@[simp] theorem wrUse_posted (s : State) (a : Nat) (w : Word) : (s.wrUse a w).posted = s.posted := rfl
@[simp] theorem wrUse_capture (s : State) (a : Nat) (w : Word) : (s.wrUse a w).capture = s.capture := rfl
@[simp] theorem wrUse_sv (s : State) (a : Nat) (w : Word) : (s.wrUse a w).sv = s.sv := rfl
@[simp] theorem wrUse_xs (s : State) (a : Nat) (w : Word) : (s.wrUse a w).xs = s.xs := rfl
@[simp] theorem wrUse_surf (s : State) (a : Nat) (w : Word) : (s.wrUse a w).surf = s.surf := rfl
@[simp] theorem wrUse_used (s : State) (a : Nat) (w : Word) : (s.wrUse a w).used = s.used := rfl
@[simp] theorem wrUse_ents (s : State) (a : Nat) (w : Word) : (s.wrUse a w).ents = s.ents := rfl
@[simp] theorem wrUse_buds (s : State) (a : Nat) (w : Word) : (s.wrUse a w).buds = s.buds := rfl
@[simp] theorem wrUse_seqs (s : State) (a : Nat) (w : Word) : (s.wrUse a w).seqs = s.seqs := rfl
@[simp] theorem wrUse_ev (s : State) (a : Nat) (w : Word) : (s.wrUse a w).ev = s.ev := rfl
@[simp] theorem wrUse_vec (s : State) (a : Nat) (w : Word) : (s.wrUse a w).vec = s.vec := rfl
@[simp] theorem wrUse_ports (s : State) (a : Nat) (w : Word) : (s.wrUse a w).ports = s.ports := rfl
@[simp] theorem wrUse_rings (s : State) (a : Nat) (w : Word) : (s.wrUse a w).rings = s.rings := rfl
@[simp] theorem wrUse_valPort (s : State) (a : Nat) (w : Word) : (s.wrUse a w).valPort = s.valPort := rfl
@[simp] theorem wrUse_valRing (s : State) (a : Nat) (w : Word) : (s.wrUse a w).valRing = s.valRing := rfl
@[simp] theorem wrUse_tlc (s : State) (a : Nat) (w : Word) : (s.wrUse a w).tlc = s.tlc := rfl
@[simp] theorem wrUse_adm (s : State) (a : Nat) (w : Word) : (s.wrUse a w).adm = s.adm := rfl
@[simp] theorem wrUse_scan (s : State) (a : Nat) (w : Word) : (s.wrUse a w).scan = s.scan := rfl
@[simp] theorem wrUse_link (s : State) (a : Nat) (w : Word) : (s.wrUse a w).link = s.link := rfl
@[simp] theorem wrUse_wb (s : State) (a : Nat) (w : Word) : (s.wrUse a w).wb = s.wb := rfl
@[simp] theorem wrUse_fetch (s : State) (a : Nat) (w : Word) : (s.wrUse a w).fetch = s.fetch := rfl
@[simp] theorem wrUse_preset (s : State) (a : Nat) (w : Word) : (s.wrUse a w).preset = s.preset := rfl
@[simp] theorem wrUse_sigs (s : State) (a : Nat) (w : Word) : (s.wrUse a w).sigs = s.sigs := rfl
@[simp] theorem wrUse_groups (s : State) (a : Nat) (w : Word) : (s.wrUse a w).groups = s.groups := rfl
@[simp] theorem wrUse_bz (s : State) (a : Nat) (w : Word) : (s.wrUse a w).bz = s.bz := rfl
@[simp] theorem wrUse_watch (s : State) (a : Nat) (w : Word) : (s.wrUse a w).watch = s.watch := rfl
@[simp] theorem wrUse_sink (s : State) (a : Nat) (w : Word) : (s.wrUse a w).sink = s.sink := rfl
@[simp] theorem wrUse_dma (s : State) (a : Nat) (w : Word) : (s.wrUse a w).dma = s.dma := rfl
@[simp] theorem wrUse_blit (s : State) (a : Nat) (w : Word) : (s.wrUse a w).blit = s.blit := rfl
@[simp] theorem wrUse_pol (s : State) (a : Nat) (w : Word) : (s.wrUse a w).pol = s.pol := rfl
@[simp] theorem wrUse_shq (s : State) (a : Nat) (w : Word) : (s.wrUse a w).shq = s.shq := rfl
@[simp] theorem wrUse_dram (s : State) (a : Nat) (w : Word) : (s.wrUse a w).dram = s.dram := rfl
@[simp] theorem wrUse_reqs (s : State) (a : Nat) (w : Word) : (s.wrUse a w).reqs = s.reqs := rfl
@[simp] theorem wrUse_flying (s : State) (a : Nat) (w : Word) : (s.wrUse a w).flying = s.flying := rfl
@[simp] theorem wrUse_trigs (s : State) (a : Nat) (w : Word) : (s.wrUse a w).trigs = s.trigs := rfl
@[simp] theorem wrUse_trained (s : State) (a : Nat) (w : Word) : (s.wrUse a w).trained = s.trained := rfl
@[simp] theorem wrUse_ig (s : State) (a : Nat) (w : Word) : (s.wrUse a w).ig = s.ig := rfl
@[simp] theorem wrUse_lane (s : State) (a : Nat) (w : Word) : (s.wrUse a w).lane = s.lane := rfl
@[simp] theorem wrUse_can (s : State) (a : Nat) (w : Word) : (s.wrUse a w).can = s.can := rfl
@[simp] theorem wrUse_flts (s : State) (a : Nat) (w : Word) : (s.wrUse a w).flts = s.flts := rfl
@[simp] theorem wrUse_bells (s : State) (a : Nat) (w : Word) : (s.wrUse a w).bells = s.bells := rfl
@[simp] theorem wrUse_hostReads (s : State) (a : Nat) (w : Word) : (s.wrUse a w).hostReads = s.hostReads := rfl
@[simp] theorem wrUse_dmaLast (s : State) (a : Nat) (w : Word) : (s.wrUse a w).dmaLast = s.dmaLast := rfl
@[simp] theorem wrUse_lastRead (s : State) (a : Nat) (w : Word) : (s.wrUse a w).lastRead = s.lastRead := rfl
@[simp] theorem wrUse_jtag (s : State) (a : Nat) (w : Word) : (s.wrUse a w).jtag = s.jtag := rfl

@[simp] theorem wrByte_pending (s : State) (a : Nat) (b : Byte) : (s.wrByte a b).pending = s.pending := rfl
@[simp] theorem wrByte_dtime (s : State) (a : Nat) (b : Byte) : (s.wrByte a b).dtime = s.dtime := rfl
@[simp] theorem wrByte_free (s : State) (a : Nat) (b : Byte) : (s.wrByte a b).free = s.free := rfl
@[simp] theorem wrByte_regs (s : State) (a : Nat) (b : Byte) : (s.wrByte a b).regs = s.regs := rfl
@[simp] theorem wrByte_inUse (s : State) (a : Nat) (b : Byte) : (s.wrByte a b).inUse = s.inUse := rfl
@[simp] theorem wrByte_losses (s : State) (a : Nat) (b : Byte) : (s.wrByte a b).losses = s.losses := rfl
@[simp] theorem wrByte_poison (s : State) (a : Nat) (b : Byte) : (s.wrByte a b).poison = s.poison := rfl
@[simp] theorem wrByte_flash0 (s : State) (a : Nat) (b : Byte) : (s.wrByte a b).flash0 = s.flash0 := rfl
@[simp] theorem wrByte_flash1 (s : State) (a : Nat) (b : Byte) : (s.wrByte a b).flash1 = s.flash1 := rfl
@[simp] theorem wrByte_otp (s : State) (a : Nat) (b : Byte) : (s.wrByte a b).otp = s.otp := rfl
@[simp] theorem wrByte_power (s : State) (a : Nat) (b : Byte) : (s.wrByte a b).power = s.power := rfl
@[simp] theorem wrByte_boot (s : State) (a : Nat) (b : Byte) : (s.wrByte a b).boot = s.boot := rfl
@[simp] theorem wrByte_park (s : State) (a : Nat) (b : Byte) : (s.wrByte a b).park = s.park := rfl
@[simp] theorem wrByte_undo (s : State) (a : Nat) (b : Byte) : (s.wrByte a b).undo = s.undo := rfl
@[simp] theorem wrByte_degr (s : State) (a : Nat) (b : Byte) : (s.wrByte a b).degr = s.degr := rfl
@[simp] theorem wrByte_isl (s : State) (a : Nat) (b : Byte) : (s.wrByte a b).isl = s.isl := rfl
@[simp] theorem wrByte_locket (s : State) (a : Nat) (b : Byte) : (s.wrByte a b).locket = s.locket := rfl
@[simp] theorem wrByte_gate (s : State) (a : Nat) (b : Byte) : (s.wrByte a b).gate = s.gate := rfl
@[simp] theorem wrByte_denial (s : State) (a : Nat) (b : Byte) : (s.wrByte a b).denial = s.denial := rfl
@[simp] theorem wrByte_posted (s : State) (a : Nat) (b : Byte) : (s.wrByte a b).posted = s.posted := rfl
@[simp] theorem wrByte_capture (s : State) (a : Nat) (b : Byte) : (s.wrByte a b).capture = s.capture := rfl
@[simp] theorem wrByte_sv (s : State) (a : Nat) (b : Byte) : (s.wrByte a b).sv = s.sv := rfl
@[simp] theorem wrByte_xs (s : State) (a : Nat) (b : Byte) : (s.wrByte a b).xs = s.xs := rfl
@[simp] theorem wrByte_surf (s : State) (a : Nat) (b : Byte) : (s.wrByte a b).surf = s.surf := rfl
@[simp] theorem wrByte_used (s : State) (a : Nat) (b : Byte) : (s.wrByte a b).used = s.used := rfl
@[simp] theorem wrByte_ents (s : State) (a : Nat) (b : Byte) : (s.wrByte a b).ents = s.ents := rfl
@[simp] theorem wrByte_buds (s : State) (a : Nat) (b : Byte) : (s.wrByte a b).buds = s.buds := rfl
@[simp] theorem wrByte_seqs (s : State) (a : Nat) (b : Byte) : (s.wrByte a b).seqs = s.seqs := rfl
@[simp] theorem wrByte_ev (s : State) (a : Nat) (b : Byte) : (s.wrByte a b).ev = s.ev := rfl
@[simp] theorem wrByte_vec (s : State) (a : Nat) (b : Byte) : (s.wrByte a b).vec = s.vec := rfl
@[simp] theorem wrByte_ports (s : State) (a : Nat) (b : Byte) : (s.wrByte a b).ports = s.ports := rfl
@[simp] theorem wrByte_rings (s : State) (a : Nat) (b : Byte) : (s.wrByte a b).rings = s.rings := rfl
@[simp] theorem wrByte_valPort (s : State) (a : Nat) (b : Byte) : (s.wrByte a b).valPort = s.valPort := rfl
@[simp] theorem wrByte_valRing (s : State) (a : Nat) (b : Byte) : (s.wrByte a b).valRing = s.valRing := rfl
@[simp] theorem wrByte_tlc (s : State) (a : Nat) (b : Byte) : (s.wrByte a b).tlc = s.tlc := rfl
@[simp] theorem wrByte_adm (s : State) (a : Nat) (b : Byte) : (s.wrByte a b).adm = s.adm := rfl
@[simp] theorem wrByte_scan (s : State) (a : Nat) (b : Byte) : (s.wrByte a b).scan = s.scan := rfl
@[simp] theorem wrByte_link (s : State) (a : Nat) (b : Byte) : (s.wrByte a b).link = s.link := rfl
@[simp] theorem wrByte_wb (s : State) (a : Nat) (b : Byte) : (s.wrByte a b).wb = s.wb := rfl
@[simp] theorem wrByte_fetch (s : State) (a : Nat) (b : Byte) : (s.wrByte a b).fetch = s.fetch := rfl
@[simp] theorem wrByte_preset (s : State) (a : Nat) (b : Byte) : (s.wrByte a b).preset = s.preset := rfl
@[simp] theorem wrByte_sigs (s : State) (a : Nat) (b : Byte) : (s.wrByte a b).sigs = s.sigs := rfl
@[simp] theorem wrByte_groups (s : State) (a : Nat) (b : Byte) : (s.wrByte a b).groups = s.groups := rfl
@[simp] theorem wrByte_bz (s : State) (a : Nat) (b : Byte) : (s.wrByte a b).bz = s.bz := rfl
@[simp] theorem wrByte_watch (s : State) (a : Nat) (b : Byte) : (s.wrByte a b).watch = s.watch := rfl
@[simp] theorem wrByte_sink (s : State) (a : Nat) (b : Byte) : (s.wrByte a b).sink = s.sink := rfl
@[simp] theorem wrByte_dma (s : State) (a : Nat) (b : Byte) : (s.wrByte a b).dma = s.dma := rfl
@[simp] theorem wrByte_blit (s : State) (a : Nat) (b : Byte) : (s.wrByte a b).blit = s.blit := rfl
@[simp] theorem wrByte_pol (s : State) (a : Nat) (b : Byte) : (s.wrByte a b).pol = s.pol := rfl
@[simp] theorem wrByte_shq (s : State) (a : Nat) (b : Byte) : (s.wrByte a b).shq = s.shq := rfl
@[simp] theorem wrByte_dram (s : State) (a : Nat) (b : Byte) : (s.wrByte a b).dram = s.dram := rfl
@[simp] theorem wrByte_reqs (s : State) (a : Nat) (b : Byte) : (s.wrByte a b).reqs = s.reqs := rfl
@[simp] theorem wrByte_flying (s : State) (a : Nat) (b : Byte) : (s.wrByte a b).flying = s.flying := rfl
@[simp] theorem wrByte_trigs (s : State) (a : Nat) (b : Byte) : (s.wrByte a b).trigs = s.trigs := rfl
@[simp] theorem wrByte_trained (s : State) (a : Nat) (b : Byte) : (s.wrByte a b).trained = s.trained := rfl
@[simp] theorem wrByte_ig (s : State) (a : Nat) (b : Byte) : (s.wrByte a b).ig = s.ig := rfl
@[simp] theorem wrByte_lane (s : State) (a : Nat) (b : Byte) : (s.wrByte a b).lane = s.lane := rfl
@[simp] theorem wrByte_can (s : State) (a : Nat) (b : Byte) : (s.wrByte a b).can = s.can := rfl
@[simp] theorem wrByte_flts (s : State) (a : Nat) (b : Byte) : (s.wrByte a b).flts = s.flts := rfl
@[simp] theorem wrByte_bells (s : State) (a : Nat) (b : Byte) : (s.wrByte a b).bells = s.bells := rfl
@[simp] theorem wrByte_hostReads (s : State) (a : Nat) (b : Byte) : (s.wrByte a b).hostReads = s.hostReads := rfl
@[simp] theorem wrByte_dmaLast (s : State) (a : Nat) (b : Byte) : (s.wrByte a b).dmaLast = s.dmaLast := rfl
@[simp] theorem wrByte_lastRead (s : State) (a : Nat) (b : Byte) : (s.wrByte a b).lastRead = s.lastRead := rfl
@[simp] theorem wrByte_jtag (s : State) (a : Nat) (b : Byte) : (s.wrByte a b).jtag = s.jtag := rfl

@[simp] theorem setDenialAt_pending (s : State) (i : Nat) (v : Denial) : (s.setDenialAt i v).pending = s.pending := rfl
@[simp] theorem setDenialAt_dtime (s : State) (i : Nat) (v : Denial) : (s.setDenialAt i v).dtime = s.dtime := rfl
@[simp] theorem setDenialAt_free (s : State) (i : Nat) (v : Denial) : (s.setDenialAt i v).free = s.free := rfl
@[simp] theorem setDenialAt_regs (s : State) (i : Nat) (v : Denial) : (s.setDenialAt i v).regs = s.regs := rfl
@[simp] theorem setDenialAt_inUse (s : State) (i : Nat) (v : Denial) : (s.setDenialAt i v).inUse = s.inUse := rfl
@[simp] theorem setDenialAt_mem (s : State) (i : Nat) (v : Denial) : (s.setDenialAt i v).mem = s.mem := rfl
@[simp] theorem setDenialAt_losses (s : State) (i : Nat) (v : Denial) : (s.setDenialAt i v).losses = s.losses := rfl
@[simp] theorem setDenialAt_flash0 (s : State) (i : Nat) (v : Denial) : (s.setDenialAt i v).flash0 = s.flash0 := rfl
@[simp] theorem setDenialAt_flash1 (s : State) (i : Nat) (v : Denial) : (s.setDenialAt i v).flash1 = s.flash1 := rfl
@[simp] theorem setDenialAt_otp (s : State) (i : Nat) (v : Denial) : (s.setDenialAt i v).otp = s.otp := rfl
@[simp] theorem setDenialAt_power (s : State) (i : Nat) (v : Denial) : (s.setDenialAt i v).power = s.power := rfl
@[simp] theorem setDenialAt_boot (s : State) (i : Nat) (v : Denial) : (s.setDenialAt i v).boot = s.boot := rfl
@[simp] theorem setDenialAt_park (s : State) (i : Nat) (v : Denial) : (s.setDenialAt i v).park = s.park := rfl
@[simp] theorem setDenialAt_isl (s : State) (i : Nat) (v : Denial) : (s.setDenialAt i v).isl = s.isl := rfl
@[simp] theorem setDenialAt_locket (s : State) (i : Nat) (v : Denial) : (s.setDenialAt i v).locket = s.locket := rfl
@[simp] theorem setDenialAt_gate (s : State) (i : Nat) (v : Denial) : (s.setDenialAt i v).gate = s.gate := rfl

@[simp] theorem setDenialAt_rd (s : State) (i : Nat) (v : Denial) (a : Nat) : (s.setDenialAt i v).rd a = s.rd a := rfl
@[simp] theorem denialAt_setDenialAt (s : State) (i j : Nat) (v : Denial) : (s.setDenialAt i v).denialAt j = if j = i then v else s.denialAt j := tget_tset _ _ _ _ _

@[simp] theorem setPostedAt_pending (s : State) (i : Nat) (v : Option Posted) : (s.setPostedAt i v).pending = s.pending := rfl
@[simp] theorem setPostedAt_dtime (s : State) (i : Nat) (v : Option Posted) : (s.setPostedAt i v).dtime = s.dtime := rfl
@[simp] theorem setPostedAt_free (s : State) (i : Nat) (v : Option Posted) : (s.setPostedAt i v).free = s.free := rfl
@[simp] theorem setPostedAt_regs (s : State) (i : Nat) (v : Option Posted) : (s.setPostedAt i v).regs = s.regs := rfl
@[simp] theorem setPostedAt_inUse (s : State) (i : Nat) (v : Option Posted) : (s.setPostedAt i v).inUse = s.inUse := rfl
@[simp] theorem setPostedAt_mem (s : State) (i : Nat) (v : Option Posted) : (s.setPostedAt i v).mem = s.mem := rfl
@[simp] theorem setPostedAt_losses (s : State) (i : Nat) (v : Option Posted) : (s.setPostedAt i v).losses = s.losses := rfl
@[simp] theorem setPostedAt_flash0 (s : State) (i : Nat) (v : Option Posted) : (s.setPostedAt i v).flash0 = s.flash0 := rfl
@[simp] theorem setPostedAt_flash1 (s : State) (i : Nat) (v : Option Posted) : (s.setPostedAt i v).flash1 = s.flash1 := rfl
@[simp] theorem setPostedAt_otp (s : State) (i : Nat) (v : Option Posted) : (s.setPostedAt i v).otp = s.otp := rfl
@[simp] theorem setPostedAt_power (s : State) (i : Nat) (v : Option Posted) : (s.setPostedAt i v).power = s.power := rfl
@[simp] theorem setPostedAt_boot (s : State) (i : Nat) (v : Option Posted) : (s.setPostedAt i v).boot = s.boot := rfl
@[simp] theorem setPostedAt_park (s : State) (i : Nat) (v : Option Posted) : (s.setPostedAt i v).park = s.park := rfl
@[simp] theorem setPostedAt_isl (s : State) (i : Nat) (v : Option Posted) : (s.setPostedAt i v).isl = s.isl := rfl
@[simp] theorem setPostedAt_locket (s : State) (i : Nat) (v : Option Posted) : (s.setPostedAt i v).locket = s.locket := rfl
@[simp] theorem setPostedAt_gate (s : State) (i : Nat) (v : Option Posted) : (s.setPostedAt i v).gate = s.gate := rfl

@[simp] theorem setPostedAt_rd (s : State) (i : Nat) (v : Option Posted) (a : Nat) : (s.setPostedAt i v).rd a = s.rd a := rfl
@[simp] theorem postedAt_setPostedAt (s : State) (i j : Nat) (v : Option Posted) : (s.setPostedAt i v).postedAt j = if j = i then v else s.postedAt j := tget_tset _ _ _ _ _

@[simp] theorem setCaptureAt_pending (s : State) (i : Nat) (v : Nat) : (s.setCaptureAt i v).pending = s.pending := rfl
@[simp] theorem setCaptureAt_dtime (s : State) (i : Nat) (v : Nat) : (s.setCaptureAt i v).dtime = s.dtime := rfl
@[simp] theorem setCaptureAt_free (s : State) (i : Nat) (v : Nat) : (s.setCaptureAt i v).free = s.free := rfl
@[simp] theorem setCaptureAt_regs (s : State) (i : Nat) (v : Nat) : (s.setCaptureAt i v).regs = s.regs := rfl
@[simp] theorem setCaptureAt_inUse (s : State) (i : Nat) (v : Nat) : (s.setCaptureAt i v).inUse = s.inUse := rfl
@[simp] theorem setCaptureAt_mem (s : State) (i : Nat) (v : Nat) : (s.setCaptureAt i v).mem = s.mem := rfl
@[simp] theorem setCaptureAt_losses (s : State) (i : Nat) (v : Nat) : (s.setCaptureAt i v).losses = s.losses := rfl
@[simp] theorem setCaptureAt_flash0 (s : State) (i : Nat) (v : Nat) : (s.setCaptureAt i v).flash0 = s.flash0 := rfl
@[simp] theorem setCaptureAt_flash1 (s : State) (i : Nat) (v : Nat) : (s.setCaptureAt i v).flash1 = s.flash1 := rfl
@[simp] theorem setCaptureAt_otp (s : State) (i : Nat) (v : Nat) : (s.setCaptureAt i v).otp = s.otp := rfl
@[simp] theorem setCaptureAt_power (s : State) (i : Nat) (v : Nat) : (s.setCaptureAt i v).power = s.power := rfl
@[simp] theorem setCaptureAt_boot (s : State) (i : Nat) (v : Nat) : (s.setCaptureAt i v).boot = s.boot := rfl
@[simp] theorem setCaptureAt_park (s : State) (i : Nat) (v : Nat) : (s.setCaptureAt i v).park = s.park := rfl
@[simp] theorem setCaptureAt_isl (s : State) (i : Nat) (v : Nat) : (s.setCaptureAt i v).isl = s.isl := rfl
@[simp] theorem setCaptureAt_locket (s : State) (i : Nat) (v : Nat) : (s.setCaptureAt i v).locket = s.locket := rfl
@[simp] theorem setCaptureAt_gate (s : State) (i : Nat) (v : Nat) : (s.setCaptureAt i v).gate = s.gate := rfl

@[simp] theorem setCaptureAt_rd (s : State) (i : Nat) (v : Nat) (a : Nat) : (s.setCaptureAt i v).rd a = s.rd a := rfl
@[simp] theorem captureAt_setCaptureAt (s : State) (i j : Nat) (v : Nat) : (s.setCaptureAt i v).captureAt j = if j = i then v else s.captureAt j := tget_tset _ _ _ _ _

@[simp] theorem setSurfAt_pending (s : State) (i : Nat) (v : SurfEntry) : (s.setSurfAt i v).pending = s.pending := rfl
@[simp] theorem setSurfAt_dtime (s : State) (i : Nat) (v : SurfEntry) : (s.setSurfAt i v).dtime = s.dtime := rfl
@[simp] theorem setSurfAt_free (s : State) (i : Nat) (v : SurfEntry) : (s.setSurfAt i v).free = s.free := rfl
@[simp] theorem setSurfAt_regs (s : State) (i : Nat) (v : SurfEntry) : (s.setSurfAt i v).regs = s.regs := rfl
@[simp] theorem setSurfAt_inUse (s : State) (i : Nat) (v : SurfEntry) : (s.setSurfAt i v).inUse = s.inUse := rfl
@[simp] theorem setSurfAt_mem (s : State) (i : Nat) (v : SurfEntry) : (s.setSurfAt i v).mem = s.mem := rfl
@[simp] theorem setSurfAt_losses (s : State) (i : Nat) (v : SurfEntry) : (s.setSurfAt i v).losses = s.losses := rfl
@[simp] theorem setSurfAt_flash0 (s : State) (i : Nat) (v : SurfEntry) : (s.setSurfAt i v).flash0 = s.flash0 := rfl
@[simp] theorem setSurfAt_flash1 (s : State) (i : Nat) (v : SurfEntry) : (s.setSurfAt i v).flash1 = s.flash1 := rfl
@[simp] theorem setSurfAt_otp (s : State) (i : Nat) (v : SurfEntry) : (s.setSurfAt i v).otp = s.otp := rfl
@[simp] theorem setSurfAt_power (s : State) (i : Nat) (v : SurfEntry) : (s.setSurfAt i v).power = s.power := rfl
@[simp] theorem setSurfAt_boot (s : State) (i : Nat) (v : SurfEntry) : (s.setSurfAt i v).boot = s.boot := rfl
@[simp] theorem setSurfAt_park (s : State) (i : Nat) (v : SurfEntry) : (s.setSurfAt i v).park = s.park := rfl
@[simp] theorem setSurfAt_isl (s : State) (i : Nat) (v : SurfEntry) : (s.setSurfAt i v).isl = s.isl := rfl
@[simp] theorem setSurfAt_locket (s : State) (i : Nat) (v : SurfEntry) : (s.setSurfAt i v).locket = s.locket := rfl
@[simp] theorem setSurfAt_gate (s : State) (i : Nat) (v : SurfEntry) : (s.setSurfAt i v).gate = s.gate := rfl

@[simp] theorem setSurfAt_rd (s : State) (i : Nat) (v : SurfEntry) (a : Nat) : (s.setSurfAt i v).rd a = s.rd a := rfl
@[simp] theorem surfAt_setSurfAt (s : State) (i j : Nat) (v : SurfEntry) : (s.setSurfAt i v).surfAt j = if j = i then v else s.surfAt j := tget_tset _ _ _ _ _

@[simp] theorem setEntAt_pending (s : State) (i : Nat) (v : SurfEntry) : (s.setEntAt i v).pending = s.pending := rfl
@[simp] theorem setEntAt_dtime (s : State) (i : Nat) (v : SurfEntry) : (s.setEntAt i v).dtime = s.dtime := rfl
@[simp] theorem setEntAt_free (s : State) (i : Nat) (v : SurfEntry) : (s.setEntAt i v).free = s.free := rfl
@[simp] theorem setEntAt_regs (s : State) (i : Nat) (v : SurfEntry) : (s.setEntAt i v).regs = s.regs := rfl
@[simp] theorem setEntAt_inUse (s : State) (i : Nat) (v : SurfEntry) : (s.setEntAt i v).inUse = s.inUse := rfl
@[simp] theorem setEntAt_mem (s : State) (i : Nat) (v : SurfEntry) : (s.setEntAt i v).mem = s.mem := rfl
@[simp] theorem setEntAt_losses (s : State) (i : Nat) (v : SurfEntry) : (s.setEntAt i v).losses = s.losses := rfl
@[simp] theorem setEntAt_flash0 (s : State) (i : Nat) (v : SurfEntry) : (s.setEntAt i v).flash0 = s.flash0 := rfl
@[simp] theorem setEntAt_flash1 (s : State) (i : Nat) (v : SurfEntry) : (s.setEntAt i v).flash1 = s.flash1 := rfl
@[simp] theorem setEntAt_otp (s : State) (i : Nat) (v : SurfEntry) : (s.setEntAt i v).otp = s.otp := rfl
@[simp] theorem setEntAt_power (s : State) (i : Nat) (v : SurfEntry) : (s.setEntAt i v).power = s.power := rfl
@[simp] theorem setEntAt_boot (s : State) (i : Nat) (v : SurfEntry) : (s.setEntAt i v).boot = s.boot := rfl
@[simp] theorem setEntAt_park (s : State) (i : Nat) (v : SurfEntry) : (s.setEntAt i v).park = s.park := rfl
@[simp] theorem setEntAt_isl (s : State) (i : Nat) (v : SurfEntry) : (s.setEntAt i v).isl = s.isl := rfl
@[simp] theorem setEntAt_locket (s : State) (i : Nat) (v : SurfEntry) : (s.setEntAt i v).locket = s.locket := rfl
@[simp] theorem setEntAt_gate (s : State) (i : Nat) (v : SurfEntry) : (s.setEntAt i v).gate = s.gate := rfl

@[simp] theorem setEntAt_rd (s : State) (i : Nat) (v : SurfEntry) (a : Nat) : (s.setEntAt i v).rd a = s.rd a := rfl
@[simp] theorem entAt_setEntAt (s : State) (i j : Nat) (v : SurfEntry) : (s.setEntAt i v).entAt j = if j = i then v else s.entAt j := tget_tset _ _ _ _ _

@[simp] theorem setBudAt_pending (s : State) (i : Nat) (v : List Nat) : (s.setBudAt i v).pending = s.pending := rfl
@[simp] theorem setBudAt_dtime (s : State) (i : Nat) (v : List Nat) : (s.setBudAt i v).dtime = s.dtime := rfl
@[simp] theorem setBudAt_free (s : State) (i : Nat) (v : List Nat) : (s.setBudAt i v).free = s.free := rfl
@[simp] theorem setBudAt_regs (s : State) (i : Nat) (v : List Nat) : (s.setBudAt i v).regs = s.regs := rfl
@[simp] theorem setBudAt_inUse (s : State) (i : Nat) (v : List Nat) : (s.setBudAt i v).inUse = s.inUse := rfl
@[simp] theorem setBudAt_mem (s : State) (i : Nat) (v : List Nat) : (s.setBudAt i v).mem = s.mem := rfl
@[simp] theorem setBudAt_losses (s : State) (i : Nat) (v : List Nat) : (s.setBudAt i v).losses = s.losses := rfl
@[simp] theorem setBudAt_flash0 (s : State) (i : Nat) (v : List Nat) : (s.setBudAt i v).flash0 = s.flash0 := rfl
@[simp] theorem setBudAt_flash1 (s : State) (i : Nat) (v : List Nat) : (s.setBudAt i v).flash1 = s.flash1 := rfl
@[simp] theorem setBudAt_otp (s : State) (i : Nat) (v : List Nat) : (s.setBudAt i v).otp = s.otp := rfl
@[simp] theorem setBudAt_power (s : State) (i : Nat) (v : List Nat) : (s.setBudAt i v).power = s.power := rfl
@[simp] theorem setBudAt_boot (s : State) (i : Nat) (v : List Nat) : (s.setBudAt i v).boot = s.boot := rfl
@[simp] theorem setBudAt_park (s : State) (i : Nat) (v : List Nat) : (s.setBudAt i v).park = s.park := rfl
@[simp] theorem setBudAt_isl (s : State) (i : Nat) (v : List Nat) : (s.setBudAt i v).isl = s.isl := rfl
@[simp] theorem setBudAt_locket (s : State) (i : Nat) (v : List Nat) : (s.setBudAt i v).locket = s.locket := rfl
@[simp] theorem setBudAt_gate (s : State) (i : Nat) (v : List Nat) : (s.setBudAt i v).gate = s.gate := rfl

@[simp] theorem setBudAt_rd (s : State) (i : Nat) (v : List Nat) (a : Nat) : (s.setBudAt i v).rd a = s.rd a := rfl
@[simp] theorem budAt_setBudAt (s : State) (i j : Nat) (v : List Nat) : (s.setBudAt i v).budAt j = if j = i then v else s.budAt j := tget_tset _ _ _ _ _

@[simp] theorem setSeqAt_pending (s : State) (i : Nat) (v : Nat) : (s.setSeqAt i v).pending = s.pending := rfl
@[simp] theorem setSeqAt_dtime (s : State) (i : Nat) (v : Nat) : (s.setSeqAt i v).dtime = s.dtime := rfl
@[simp] theorem setSeqAt_free (s : State) (i : Nat) (v : Nat) : (s.setSeqAt i v).free = s.free := rfl
@[simp] theorem setSeqAt_regs (s : State) (i : Nat) (v : Nat) : (s.setSeqAt i v).regs = s.regs := rfl
@[simp] theorem setSeqAt_inUse (s : State) (i : Nat) (v : Nat) : (s.setSeqAt i v).inUse = s.inUse := rfl
@[simp] theorem setSeqAt_mem (s : State) (i : Nat) (v : Nat) : (s.setSeqAt i v).mem = s.mem := rfl
@[simp] theorem setSeqAt_losses (s : State) (i : Nat) (v : Nat) : (s.setSeqAt i v).losses = s.losses := rfl
@[simp] theorem setSeqAt_flash0 (s : State) (i : Nat) (v : Nat) : (s.setSeqAt i v).flash0 = s.flash0 := rfl
@[simp] theorem setSeqAt_flash1 (s : State) (i : Nat) (v : Nat) : (s.setSeqAt i v).flash1 = s.flash1 := rfl
@[simp] theorem setSeqAt_otp (s : State) (i : Nat) (v : Nat) : (s.setSeqAt i v).otp = s.otp := rfl
@[simp] theorem setSeqAt_power (s : State) (i : Nat) (v : Nat) : (s.setSeqAt i v).power = s.power := rfl
@[simp] theorem setSeqAt_boot (s : State) (i : Nat) (v : Nat) : (s.setSeqAt i v).boot = s.boot := rfl
@[simp] theorem setSeqAt_park (s : State) (i : Nat) (v : Nat) : (s.setSeqAt i v).park = s.park := rfl
@[simp] theorem setSeqAt_isl (s : State) (i : Nat) (v : Nat) : (s.setSeqAt i v).isl = s.isl := rfl
@[simp] theorem setSeqAt_locket (s : State) (i : Nat) (v : Nat) : (s.setSeqAt i v).locket = s.locket := rfl
@[simp] theorem setSeqAt_gate (s : State) (i : Nat) (v : Nat) : (s.setSeqAt i v).gate = s.gate := rfl

@[simp] theorem setSeqAt_rd (s : State) (i : Nat) (v : Nat) (a : Nat) : (s.setSeqAt i v).rd a = s.rd a := rfl
@[simp] theorem seqAt_setSeqAt (s : State) (i j : Nat) (v : Nat) : (s.setSeqAt i v).seqAt j = if j = i then v else s.seqAt j := tget_tset _ _ _ _ _

@[simp] theorem setEvAt_pending (s : State) (i : Nat) (v : PortEv) : (s.setEvAt i v).pending = s.pending := rfl
@[simp] theorem setEvAt_dtime (s : State) (i : Nat) (v : PortEv) : (s.setEvAt i v).dtime = s.dtime := rfl
@[simp] theorem setEvAt_free (s : State) (i : Nat) (v : PortEv) : (s.setEvAt i v).free = s.free := rfl
@[simp] theorem setEvAt_regs (s : State) (i : Nat) (v : PortEv) : (s.setEvAt i v).regs = s.regs := rfl
@[simp] theorem setEvAt_inUse (s : State) (i : Nat) (v : PortEv) : (s.setEvAt i v).inUse = s.inUse := rfl
@[simp] theorem setEvAt_mem (s : State) (i : Nat) (v : PortEv) : (s.setEvAt i v).mem = s.mem := rfl
@[simp] theorem setEvAt_losses (s : State) (i : Nat) (v : PortEv) : (s.setEvAt i v).losses = s.losses := rfl
@[simp] theorem setEvAt_flash0 (s : State) (i : Nat) (v : PortEv) : (s.setEvAt i v).flash0 = s.flash0 := rfl
@[simp] theorem setEvAt_flash1 (s : State) (i : Nat) (v : PortEv) : (s.setEvAt i v).flash1 = s.flash1 := rfl
@[simp] theorem setEvAt_otp (s : State) (i : Nat) (v : PortEv) : (s.setEvAt i v).otp = s.otp := rfl
@[simp] theorem setEvAt_power (s : State) (i : Nat) (v : PortEv) : (s.setEvAt i v).power = s.power := rfl
@[simp] theorem setEvAt_boot (s : State) (i : Nat) (v : PortEv) : (s.setEvAt i v).boot = s.boot := rfl
@[simp] theorem setEvAt_park (s : State) (i : Nat) (v : PortEv) : (s.setEvAt i v).park = s.park := rfl
@[simp] theorem setEvAt_isl (s : State) (i : Nat) (v : PortEv) : (s.setEvAt i v).isl = s.isl := rfl
@[simp] theorem setEvAt_locket (s : State) (i : Nat) (v : PortEv) : (s.setEvAt i v).locket = s.locket := rfl
@[simp] theorem setEvAt_gate (s : State) (i : Nat) (v : PortEv) : (s.setEvAt i v).gate = s.gate := rfl

@[simp] theorem setEvAt_rd (s : State) (i : Nat) (v : PortEv) (a : Nat) : (s.setEvAt i v).rd a = s.rd a := rfl
@[simp] theorem evAt_setEvAt (s : State) (i j : Nat) (v : PortEv) : (s.setEvAt i v).evAt j = if j = i then v else s.evAt j := tget_tset _ _ _ _ _

@[simp] theorem setVecAt_pending (s : State) (i : Nat) (v : VecState) : (s.setVecAt i v).pending = s.pending := rfl
@[simp] theorem setVecAt_dtime (s : State) (i : Nat) (v : VecState) : (s.setVecAt i v).dtime = s.dtime := rfl
@[simp] theorem setVecAt_free (s : State) (i : Nat) (v : VecState) : (s.setVecAt i v).free = s.free := rfl
@[simp] theorem setVecAt_regs (s : State) (i : Nat) (v : VecState) : (s.setVecAt i v).regs = s.regs := rfl
@[simp] theorem setVecAt_inUse (s : State) (i : Nat) (v : VecState) : (s.setVecAt i v).inUse = s.inUse := rfl
@[simp] theorem setVecAt_mem (s : State) (i : Nat) (v : VecState) : (s.setVecAt i v).mem = s.mem := rfl
@[simp] theorem setVecAt_losses (s : State) (i : Nat) (v : VecState) : (s.setVecAt i v).losses = s.losses := rfl
@[simp] theorem setVecAt_flash0 (s : State) (i : Nat) (v : VecState) : (s.setVecAt i v).flash0 = s.flash0 := rfl
@[simp] theorem setVecAt_flash1 (s : State) (i : Nat) (v : VecState) : (s.setVecAt i v).flash1 = s.flash1 := rfl
@[simp] theorem setVecAt_otp (s : State) (i : Nat) (v : VecState) : (s.setVecAt i v).otp = s.otp := rfl
@[simp] theorem setVecAt_power (s : State) (i : Nat) (v : VecState) : (s.setVecAt i v).power = s.power := rfl
@[simp] theorem setVecAt_boot (s : State) (i : Nat) (v : VecState) : (s.setVecAt i v).boot = s.boot := rfl
@[simp] theorem setVecAt_park (s : State) (i : Nat) (v : VecState) : (s.setVecAt i v).park = s.park := rfl
@[simp] theorem setVecAt_isl (s : State) (i : Nat) (v : VecState) : (s.setVecAt i v).isl = s.isl := rfl
@[simp] theorem setVecAt_locket (s : State) (i : Nat) (v : VecState) : (s.setVecAt i v).locket = s.locket := rfl
@[simp] theorem setVecAt_gate (s : State) (i : Nat) (v : VecState) : (s.setVecAt i v).gate = s.gate := rfl

@[simp] theorem setVecAt_rd (s : State) (i : Nat) (v : VecState) (a : Nat) : (s.setVecAt i v).rd a = s.rd a := rfl
@[simp] theorem vecAt_setVecAt (s : State) (i j : Nat) (v : VecState) : (s.setVecAt i v).vecAt j = if j = i then v else s.vecAt j := tget_tset _ _ _ _ _

@[simp] theorem setPortAt_pending (s : State) (i : Nat) (v : Port) : (s.setPortAt i v).pending = s.pending := rfl
@[simp] theorem setPortAt_dtime (s : State) (i : Nat) (v : Port) : (s.setPortAt i v).dtime = s.dtime := rfl
@[simp] theorem setPortAt_free (s : State) (i : Nat) (v : Port) : (s.setPortAt i v).free = s.free := rfl
@[simp] theorem setPortAt_regs (s : State) (i : Nat) (v : Port) : (s.setPortAt i v).regs = s.regs := rfl
@[simp] theorem setPortAt_inUse (s : State) (i : Nat) (v : Port) : (s.setPortAt i v).inUse = s.inUse := rfl
@[simp] theorem setPortAt_mem (s : State) (i : Nat) (v : Port) : (s.setPortAt i v).mem = s.mem := rfl
@[simp] theorem setPortAt_losses (s : State) (i : Nat) (v : Port) : (s.setPortAt i v).losses = s.losses := rfl
@[simp] theorem setPortAt_flash0 (s : State) (i : Nat) (v : Port) : (s.setPortAt i v).flash0 = s.flash0 := rfl
@[simp] theorem setPortAt_flash1 (s : State) (i : Nat) (v : Port) : (s.setPortAt i v).flash1 = s.flash1 := rfl
@[simp] theorem setPortAt_otp (s : State) (i : Nat) (v : Port) : (s.setPortAt i v).otp = s.otp := rfl
@[simp] theorem setPortAt_power (s : State) (i : Nat) (v : Port) : (s.setPortAt i v).power = s.power := rfl
@[simp] theorem setPortAt_boot (s : State) (i : Nat) (v : Port) : (s.setPortAt i v).boot = s.boot := rfl
@[simp] theorem setPortAt_park (s : State) (i : Nat) (v : Port) : (s.setPortAt i v).park = s.park := rfl
@[simp] theorem setPortAt_isl (s : State) (i : Nat) (v : Port) : (s.setPortAt i v).isl = s.isl := rfl
@[simp] theorem setPortAt_locket (s : State) (i : Nat) (v : Port) : (s.setPortAt i v).locket = s.locket := rfl
@[simp] theorem setPortAt_gate (s : State) (i : Nat) (v : Port) : (s.setPortAt i v).gate = s.gate := rfl

@[simp] theorem setPortAt_rd (s : State) (i : Nat) (v : Port) (a : Nat) : (s.setPortAt i v).rd a = s.rd a := rfl
@[simp] theorem portAt_setPortAt (s : State) (i j : Nat) (v : Port) : (s.setPortAt i v).portAt j = if j = i then v else s.portAt j := tget_tset _ _ _ _ _

@[simp] theorem setRingAt_pending (s : State) (i : Nat) (v : Ring) : (s.setRingAt i v).pending = s.pending := rfl
@[simp] theorem setRingAt_dtime (s : State) (i : Nat) (v : Ring) : (s.setRingAt i v).dtime = s.dtime := rfl
@[simp] theorem setRingAt_free (s : State) (i : Nat) (v : Ring) : (s.setRingAt i v).free = s.free := rfl
@[simp] theorem setRingAt_regs (s : State) (i : Nat) (v : Ring) : (s.setRingAt i v).regs = s.regs := rfl
@[simp] theorem setRingAt_inUse (s : State) (i : Nat) (v : Ring) : (s.setRingAt i v).inUse = s.inUse := rfl
@[simp] theorem setRingAt_mem (s : State) (i : Nat) (v : Ring) : (s.setRingAt i v).mem = s.mem := rfl
@[simp] theorem setRingAt_losses (s : State) (i : Nat) (v : Ring) : (s.setRingAt i v).losses = s.losses := rfl
@[simp] theorem setRingAt_flash0 (s : State) (i : Nat) (v : Ring) : (s.setRingAt i v).flash0 = s.flash0 := rfl
@[simp] theorem setRingAt_flash1 (s : State) (i : Nat) (v : Ring) : (s.setRingAt i v).flash1 = s.flash1 := rfl
@[simp] theorem setRingAt_otp (s : State) (i : Nat) (v : Ring) : (s.setRingAt i v).otp = s.otp := rfl
@[simp] theorem setRingAt_power (s : State) (i : Nat) (v : Ring) : (s.setRingAt i v).power = s.power := rfl
@[simp] theorem setRingAt_boot (s : State) (i : Nat) (v : Ring) : (s.setRingAt i v).boot = s.boot := rfl
@[simp] theorem setRingAt_park (s : State) (i : Nat) (v : Ring) : (s.setRingAt i v).park = s.park := rfl
@[simp] theorem setRingAt_isl (s : State) (i : Nat) (v : Ring) : (s.setRingAt i v).isl = s.isl := rfl
@[simp] theorem setRingAt_locket (s : State) (i : Nat) (v : Ring) : (s.setRingAt i v).locket = s.locket := rfl
@[simp] theorem setRingAt_gate (s : State) (i : Nat) (v : Ring) : (s.setRingAt i v).gate = s.gate := rfl

@[simp] theorem setRingAt_rd (s : State) (i : Nat) (v : Ring) (a : Nat) : (s.setRingAt i v).rd a = s.rd a := rfl
@[simp] theorem ringAt_setRingAt (s : State) (i j : Nat) (v : Ring) : (s.setRingAt i v).ringAt j = if j = i then v else s.ringAt j := tget_tset _ _ _ _ _

@[simp] theorem setValRingAt_pending (s : State) (i : Nat) (v : Nat) : (s.setValRingAt i v).pending = s.pending := rfl
@[simp] theorem setValRingAt_dtime (s : State) (i : Nat) (v : Nat) : (s.setValRingAt i v).dtime = s.dtime := rfl
@[simp] theorem setValRingAt_free (s : State) (i : Nat) (v : Nat) : (s.setValRingAt i v).free = s.free := rfl
@[simp] theorem setValRingAt_regs (s : State) (i : Nat) (v : Nat) : (s.setValRingAt i v).regs = s.regs := rfl
@[simp] theorem setValRingAt_inUse (s : State) (i : Nat) (v : Nat) : (s.setValRingAt i v).inUse = s.inUse := rfl
@[simp] theorem setValRingAt_mem (s : State) (i : Nat) (v : Nat) : (s.setValRingAt i v).mem = s.mem := rfl
@[simp] theorem setValRingAt_losses (s : State) (i : Nat) (v : Nat) : (s.setValRingAt i v).losses = s.losses := rfl
@[simp] theorem setValRingAt_flash0 (s : State) (i : Nat) (v : Nat) : (s.setValRingAt i v).flash0 = s.flash0 := rfl
@[simp] theorem setValRingAt_flash1 (s : State) (i : Nat) (v : Nat) : (s.setValRingAt i v).flash1 = s.flash1 := rfl
@[simp] theorem setValRingAt_otp (s : State) (i : Nat) (v : Nat) : (s.setValRingAt i v).otp = s.otp := rfl
@[simp] theorem setValRingAt_power (s : State) (i : Nat) (v : Nat) : (s.setValRingAt i v).power = s.power := rfl
@[simp] theorem setValRingAt_boot (s : State) (i : Nat) (v : Nat) : (s.setValRingAt i v).boot = s.boot := rfl
@[simp] theorem setValRingAt_park (s : State) (i : Nat) (v : Nat) : (s.setValRingAt i v).park = s.park := rfl
@[simp] theorem setValRingAt_isl (s : State) (i : Nat) (v : Nat) : (s.setValRingAt i v).isl = s.isl := rfl
@[simp] theorem setValRingAt_locket (s : State) (i : Nat) (v : Nat) : (s.setValRingAt i v).locket = s.locket := rfl
@[simp] theorem setValRingAt_gate (s : State) (i : Nat) (v : Nat) : (s.setValRingAt i v).gate = s.gate := rfl

@[simp] theorem setValRingAt_rd (s : State) (i : Nat) (v : Nat) (a : Nat) : (s.setValRingAt i v).rd a = s.rd a := rfl
@[simp] theorem valRingAt_setValRingAt (s : State) (i j : Nat) (v : Nat) : (s.setValRingAt i v).valRingAt j = if j = i then v else s.valRingAt j := tget_tset _ _ _ _ _

@[simp] theorem setTlcAt_pending (s : State) (i : Nat) (v : TlCommits) : (s.setTlcAt i v).pending = s.pending := rfl
@[simp] theorem setTlcAt_dtime (s : State) (i : Nat) (v : TlCommits) : (s.setTlcAt i v).dtime = s.dtime := rfl
@[simp] theorem setTlcAt_free (s : State) (i : Nat) (v : TlCommits) : (s.setTlcAt i v).free = s.free := rfl
@[simp] theorem setTlcAt_regs (s : State) (i : Nat) (v : TlCommits) : (s.setTlcAt i v).regs = s.regs := rfl
@[simp] theorem setTlcAt_inUse (s : State) (i : Nat) (v : TlCommits) : (s.setTlcAt i v).inUse = s.inUse := rfl
@[simp] theorem setTlcAt_mem (s : State) (i : Nat) (v : TlCommits) : (s.setTlcAt i v).mem = s.mem := rfl
@[simp] theorem setTlcAt_losses (s : State) (i : Nat) (v : TlCommits) : (s.setTlcAt i v).losses = s.losses := rfl
@[simp] theorem setTlcAt_flash0 (s : State) (i : Nat) (v : TlCommits) : (s.setTlcAt i v).flash0 = s.flash0 := rfl
@[simp] theorem setTlcAt_flash1 (s : State) (i : Nat) (v : TlCommits) : (s.setTlcAt i v).flash1 = s.flash1 := rfl
@[simp] theorem setTlcAt_otp (s : State) (i : Nat) (v : TlCommits) : (s.setTlcAt i v).otp = s.otp := rfl
@[simp] theorem setTlcAt_power (s : State) (i : Nat) (v : TlCommits) : (s.setTlcAt i v).power = s.power := rfl
@[simp] theorem setTlcAt_boot (s : State) (i : Nat) (v : TlCommits) : (s.setTlcAt i v).boot = s.boot := rfl
@[simp] theorem setTlcAt_park (s : State) (i : Nat) (v : TlCommits) : (s.setTlcAt i v).park = s.park := rfl
@[simp] theorem setTlcAt_isl (s : State) (i : Nat) (v : TlCommits) : (s.setTlcAt i v).isl = s.isl := rfl
@[simp] theorem setTlcAt_locket (s : State) (i : Nat) (v : TlCommits) : (s.setTlcAt i v).locket = s.locket := rfl
@[simp] theorem setTlcAt_gate (s : State) (i : Nat) (v : TlCommits) : (s.setTlcAt i v).gate = s.gate := rfl

@[simp] theorem setTlcAt_rd (s : State) (i : Nat) (v : TlCommits) (a : Nat) : (s.setTlcAt i v).rd a = s.rd a := rfl
@[simp] theorem tlcAt_setTlcAt (s : State) (i j : Nat) (v : TlCommits) : (s.setTlcAt i v).tlcAt j = if j = i then v else s.tlcAt j := tget_tset _ _ _ _ _

@[simp] theorem setAdmAt_pending (s : State) (i : Nat) (v : AdmTl) : (s.setAdmAt i v).pending = s.pending := rfl
@[simp] theorem setAdmAt_dtime (s : State) (i : Nat) (v : AdmTl) : (s.setAdmAt i v).dtime = s.dtime := rfl
@[simp] theorem setAdmAt_free (s : State) (i : Nat) (v : AdmTl) : (s.setAdmAt i v).free = s.free := rfl
@[simp] theorem setAdmAt_regs (s : State) (i : Nat) (v : AdmTl) : (s.setAdmAt i v).regs = s.regs := rfl
@[simp] theorem setAdmAt_inUse (s : State) (i : Nat) (v : AdmTl) : (s.setAdmAt i v).inUse = s.inUse := rfl
@[simp] theorem setAdmAt_mem (s : State) (i : Nat) (v : AdmTl) : (s.setAdmAt i v).mem = s.mem := rfl
@[simp] theorem setAdmAt_losses (s : State) (i : Nat) (v : AdmTl) : (s.setAdmAt i v).losses = s.losses := rfl
@[simp] theorem setAdmAt_flash0 (s : State) (i : Nat) (v : AdmTl) : (s.setAdmAt i v).flash0 = s.flash0 := rfl
@[simp] theorem setAdmAt_flash1 (s : State) (i : Nat) (v : AdmTl) : (s.setAdmAt i v).flash1 = s.flash1 := rfl
@[simp] theorem setAdmAt_otp (s : State) (i : Nat) (v : AdmTl) : (s.setAdmAt i v).otp = s.otp := rfl
@[simp] theorem setAdmAt_power (s : State) (i : Nat) (v : AdmTl) : (s.setAdmAt i v).power = s.power := rfl
@[simp] theorem setAdmAt_boot (s : State) (i : Nat) (v : AdmTl) : (s.setAdmAt i v).boot = s.boot := rfl
@[simp] theorem setAdmAt_park (s : State) (i : Nat) (v : AdmTl) : (s.setAdmAt i v).park = s.park := rfl
@[simp] theorem setAdmAt_isl (s : State) (i : Nat) (v : AdmTl) : (s.setAdmAt i v).isl = s.isl := rfl
@[simp] theorem setAdmAt_locket (s : State) (i : Nat) (v : AdmTl) : (s.setAdmAt i v).locket = s.locket := rfl
@[simp] theorem setAdmAt_gate (s : State) (i : Nat) (v : AdmTl) : (s.setAdmAt i v).gate = s.gate := rfl

@[simp] theorem setAdmAt_rd (s : State) (i : Nat) (v : AdmTl) (a : Nat) : (s.setAdmAt i v).rd a = s.rd a := rfl
@[simp] theorem admAt_setAdmAt (s : State) (i j : Nat) (v : AdmTl) : (s.setAdmAt i v).admAt j = if j = i then v else s.admAt j := tget_tset _ _ _ _ _

@[simp] theorem setScanAt_pending (s : State) (i : Nat) (v : Scan) : (s.setScanAt i v).pending = s.pending := rfl
@[simp] theorem setScanAt_dtime (s : State) (i : Nat) (v : Scan) : (s.setScanAt i v).dtime = s.dtime := rfl
@[simp] theorem setScanAt_free (s : State) (i : Nat) (v : Scan) : (s.setScanAt i v).free = s.free := rfl
@[simp] theorem setScanAt_regs (s : State) (i : Nat) (v : Scan) : (s.setScanAt i v).regs = s.regs := rfl
@[simp] theorem setScanAt_inUse (s : State) (i : Nat) (v : Scan) : (s.setScanAt i v).inUse = s.inUse := rfl
@[simp] theorem setScanAt_mem (s : State) (i : Nat) (v : Scan) : (s.setScanAt i v).mem = s.mem := rfl
@[simp] theorem setScanAt_losses (s : State) (i : Nat) (v : Scan) : (s.setScanAt i v).losses = s.losses := rfl
@[simp] theorem setScanAt_flash0 (s : State) (i : Nat) (v : Scan) : (s.setScanAt i v).flash0 = s.flash0 := rfl
@[simp] theorem setScanAt_flash1 (s : State) (i : Nat) (v : Scan) : (s.setScanAt i v).flash1 = s.flash1 := rfl
@[simp] theorem setScanAt_otp (s : State) (i : Nat) (v : Scan) : (s.setScanAt i v).otp = s.otp := rfl
@[simp] theorem setScanAt_power (s : State) (i : Nat) (v : Scan) : (s.setScanAt i v).power = s.power := rfl
@[simp] theorem setScanAt_boot (s : State) (i : Nat) (v : Scan) : (s.setScanAt i v).boot = s.boot := rfl
@[simp] theorem setScanAt_park (s : State) (i : Nat) (v : Scan) : (s.setScanAt i v).park = s.park := rfl
@[simp] theorem setScanAt_isl (s : State) (i : Nat) (v : Scan) : (s.setScanAt i v).isl = s.isl := rfl
@[simp] theorem setScanAt_locket (s : State) (i : Nat) (v : Scan) : (s.setScanAt i v).locket = s.locket := rfl
@[simp] theorem setScanAt_gate (s : State) (i : Nat) (v : Scan) : (s.setScanAt i v).gate = s.gate := rfl

@[simp] theorem setScanAt_rd (s : State) (i : Nat) (v : Scan) (a : Nat) : (s.setScanAt i v).rd a = s.rd a := rfl
@[simp] theorem scanAt_setScanAt (s : State) (i j : Nat) (v : Scan) : (s.setScanAt i v).scanAt j = if j = i then v else s.scanAt j := tget_tset _ _ _ _ _

@[simp] theorem setLinkAt_pending (s : State) (i : Nat) (v : OutLink) : (s.setLinkAt i v).pending = s.pending := rfl
@[simp] theorem setLinkAt_dtime (s : State) (i : Nat) (v : OutLink) : (s.setLinkAt i v).dtime = s.dtime := rfl
@[simp] theorem setLinkAt_free (s : State) (i : Nat) (v : OutLink) : (s.setLinkAt i v).free = s.free := rfl
@[simp] theorem setLinkAt_regs (s : State) (i : Nat) (v : OutLink) : (s.setLinkAt i v).regs = s.regs := rfl
@[simp] theorem setLinkAt_inUse (s : State) (i : Nat) (v : OutLink) : (s.setLinkAt i v).inUse = s.inUse := rfl
@[simp] theorem setLinkAt_mem (s : State) (i : Nat) (v : OutLink) : (s.setLinkAt i v).mem = s.mem := rfl
@[simp] theorem setLinkAt_losses (s : State) (i : Nat) (v : OutLink) : (s.setLinkAt i v).losses = s.losses := rfl
@[simp] theorem setLinkAt_flash0 (s : State) (i : Nat) (v : OutLink) : (s.setLinkAt i v).flash0 = s.flash0 := rfl
@[simp] theorem setLinkAt_flash1 (s : State) (i : Nat) (v : OutLink) : (s.setLinkAt i v).flash1 = s.flash1 := rfl
@[simp] theorem setLinkAt_otp (s : State) (i : Nat) (v : OutLink) : (s.setLinkAt i v).otp = s.otp := rfl
@[simp] theorem setLinkAt_power (s : State) (i : Nat) (v : OutLink) : (s.setLinkAt i v).power = s.power := rfl
@[simp] theorem setLinkAt_boot (s : State) (i : Nat) (v : OutLink) : (s.setLinkAt i v).boot = s.boot := rfl
@[simp] theorem setLinkAt_park (s : State) (i : Nat) (v : OutLink) : (s.setLinkAt i v).park = s.park := rfl
@[simp] theorem setLinkAt_isl (s : State) (i : Nat) (v : OutLink) : (s.setLinkAt i v).isl = s.isl := rfl
@[simp] theorem setLinkAt_locket (s : State) (i : Nat) (v : OutLink) : (s.setLinkAt i v).locket = s.locket := rfl
@[simp] theorem setLinkAt_gate (s : State) (i : Nat) (v : OutLink) : (s.setLinkAt i v).gate = s.gate := rfl

@[simp] theorem setLinkAt_rd (s : State) (i : Nat) (v : OutLink) (a : Nat) : (s.setLinkAt i v).rd a = s.rd a := rfl
@[simp] theorem linkAt_setLinkAt (s : State) (i j : Nat) (v : OutLink) : (s.setLinkAt i v).linkAt j = if j = i then v else s.linkAt j := tget_tset _ _ _ _ _

@[simp] theorem setWbAt_pending (s : State) (i : Nat) (v : WbPort) : (s.setWbAt i v).pending = s.pending := rfl
@[simp] theorem setWbAt_dtime (s : State) (i : Nat) (v : WbPort) : (s.setWbAt i v).dtime = s.dtime := rfl
@[simp] theorem setWbAt_free (s : State) (i : Nat) (v : WbPort) : (s.setWbAt i v).free = s.free := rfl
@[simp] theorem setWbAt_regs (s : State) (i : Nat) (v : WbPort) : (s.setWbAt i v).regs = s.regs := rfl
@[simp] theorem setWbAt_inUse (s : State) (i : Nat) (v : WbPort) : (s.setWbAt i v).inUse = s.inUse := rfl
@[simp] theorem setWbAt_mem (s : State) (i : Nat) (v : WbPort) : (s.setWbAt i v).mem = s.mem := rfl
@[simp] theorem setWbAt_losses (s : State) (i : Nat) (v : WbPort) : (s.setWbAt i v).losses = s.losses := rfl
@[simp] theorem setWbAt_flash0 (s : State) (i : Nat) (v : WbPort) : (s.setWbAt i v).flash0 = s.flash0 := rfl
@[simp] theorem setWbAt_flash1 (s : State) (i : Nat) (v : WbPort) : (s.setWbAt i v).flash1 = s.flash1 := rfl
@[simp] theorem setWbAt_otp (s : State) (i : Nat) (v : WbPort) : (s.setWbAt i v).otp = s.otp := rfl
@[simp] theorem setWbAt_power (s : State) (i : Nat) (v : WbPort) : (s.setWbAt i v).power = s.power := rfl
@[simp] theorem setWbAt_boot (s : State) (i : Nat) (v : WbPort) : (s.setWbAt i v).boot = s.boot := rfl
@[simp] theorem setWbAt_park (s : State) (i : Nat) (v : WbPort) : (s.setWbAt i v).park = s.park := rfl
@[simp] theorem setWbAt_isl (s : State) (i : Nat) (v : WbPort) : (s.setWbAt i v).isl = s.isl := rfl
@[simp] theorem setWbAt_locket (s : State) (i : Nat) (v : WbPort) : (s.setWbAt i v).locket = s.locket := rfl
@[simp] theorem setWbAt_gate (s : State) (i : Nat) (v : WbPort) : (s.setWbAt i v).gate = s.gate := rfl

@[simp] theorem setWbAt_rd (s : State) (i : Nat) (v : WbPort) (a : Nat) : (s.setWbAt i v).rd a = s.rd a := rfl
@[simp] theorem wbAt_setWbAt (s : State) (i j : Nat) (v : WbPort) : (s.setWbAt i v).wbAt j = if j = i then v else s.wbAt j := tget_tset _ _ _ _ _

@[simp] theorem setFetchAt_pending (s : State) (i : Nat) (v : SlotFetch) : (s.setFetchAt i v).pending = s.pending := rfl
@[simp] theorem setFetchAt_dtime (s : State) (i : Nat) (v : SlotFetch) : (s.setFetchAt i v).dtime = s.dtime := rfl
@[simp] theorem setFetchAt_free (s : State) (i : Nat) (v : SlotFetch) : (s.setFetchAt i v).free = s.free := rfl
@[simp] theorem setFetchAt_regs (s : State) (i : Nat) (v : SlotFetch) : (s.setFetchAt i v).regs = s.regs := rfl
@[simp] theorem setFetchAt_inUse (s : State) (i : Nat) (v : SlotFetch) : (s.setFetchAt i v).inUse = s.inUse := rfl
@[simp] theorem setFetchAt_mem (s : State) (i : Nat) (v : SlotFetch) : (s.setFetchAt i v).mem = s.mem := rfl
@[simp] theorem setFetchAt_losses (s : State) (i : Nat) (v : SlotFetch) : (s.setFetchAt i v).losses = s.losses := rfl
@[simp] theorem setFetchAt_flash0 (s : State) (i : Nat) (v : SlotFetch) : (s.setFetchAt i v).flash0 = s.flash0 := rfl
@[simp] theorem setFetchAt_flash1 (s : State) (i : Nat) (v : SlotFetch) : (s.setFetchAt i v).flash1 = s.flash1 := rfl
@[simp] theorem setFetchAt_otp (s : State) (i : Nat) (v : SlotFetch) : (s.setFetchAt i v).otp = s.otp := rfl
@[simp] theorem setFetchAt_power (s : State) (i : Nat) (v : SlotFetch) : (s.setFetchAt i v).power = s.power := rfl
@[simp] theorem setFetchAt_boot (s : State) (i : Nat) (v : SlotFetch) : (s.setFetchAt i v).boot = s.boot := rfl
@[simp] theorem setFetchAt_park (s : State) (i : Nat) (v : SlotFetch) : (s.setFetchAt i v).park = s.park := rfl
@[simp] theorem setFetchAt_isl (s : State) (i : Nat) (v : SlotFetch) : (s.setFetchAt i v).isl = s.isl := rfl
@[simp] theorem setFetchAt_locket (s : State) (i : Nat) (v : SlotFetch) : (s.setFetchAt i v).locket = s.locket := rfl
@[simp] theorem setFetchAt_gate (s : State) (i : Nat) (v : SlotFetch) : (s.setFetchAt i v).gate = s.gate := rfl

@[simp] theorem setFetchAt_rd (s : State) (i : Nat) (v : SlotFetch) (a : Nat) : (s.setFetchAt i v).rd a = s.rd a := rfl
@[simp] theorem fetchAt_setFetchAt (s : State) (i j : Nat) (v : SlotFetch) : (s.setFetchAt i v).fetchAt j = if j = i then v else s.fetchAt j := tget_tset _ _ _ _ _

@[simp] theorem setPresetAt_pending (s : State) (i : Nat) (v : Option Nat) : (s.setPresetAt i v).pending = s.pending := rfl
@[simp] theorem setPresetAt_dtime (s : State) (i : Nat) (v : Option Nat) : (s.setPresetAt i v).dtime = s.dtime := rfl
@[simp] theorem setPresetAt_free (s : State) (i : Nat) (v : Option Nat) : (s.setPresetAt i v).free = s.free := rfl
@[simp] theorem setPresetAt_regs (s : State) (i : Nat) (v : Option Nat) : (s.setPresetAt i v).regs = s.regs := rfl
@[simp] theorem setPresetAt_inUse (s : State) (i : Nat) (v : Option Nat) : (s.setPresetAt i v).inUse = s.inUse := rfl
@[simp] theorem setPresetAt_mem (s : State) (i : Nat) (v : Option Nat) : (s.setPresetAt i v).mem = s.mem := rfl
@[simp] theorem setPresetAt_losses (s : State) (i : Nat) (v : Option Nat) : (s.setPresetAt i v).losses = s.losses := rfl
@[simp] theorem setPresetAt_flash0 (s : State) (i : Nat) (v : Option Nat) : (s.setPresetAt i v).flash0 = s.flash0 := rfl
@[simp] theorem setPresetAt_flash1 (s : State) (i : Nat) (v : Option Nat) : (s.setPresetAt i v).flash1 = s.flash1 := rfl
@[simp] theorem setPresetAt_otp (s : State) (i : Nat) (v : Option Nat) : (s.setPresetAt i v).otp = s.otp := rfl
@[simp] theorem setPresetAt_power (s : State) (i : Nat) (v : Option Nat) : (s.setPresetAt i v).power = s.power := rfl
@[simp] theorem setPresetAt_boot (s : State) (i : Nat) (v : Option Nat) : (s.setPresetAt i v).boot = s.boot := rfl
@[simp] theorem setPresetAt_park (s : State) (i : Nat) (v : Option Nat) : (s.setPresetAt i v).park = s.park := rfl
@[simp] theorem setPresetAt_isl (s : State) (i : Nat) (v : Option Nat) : (s.setPresetAt i v).isl = s.isl := rfl
@[simp] theorem setPresetAt_locket (s : State) (i : Nat) (v : Option Nat) : (s.setPresetAt i v).locket = s.locket := rfl
@[simp] theorem setPresetAt_gate (s : State) (i : Nat) (v : Option Nat) : (s.setPresetAt i v).gate = s.gate := rfl

@[simp] theorem setPresetAt_rd (s : State) (i : Nat) (v : Option Nat) (a : Nat) : (s.setPresetAt i v).rd a = s.rd a := rfl
@[simp] theorem presetAt_setPresetAt (s : State) (i j : Nat) (v : Option Nat) : (s.setPresetAt i v).presetAt j = if j = i then v else s.presetAt j := tget_tset _ _ _ _ _

@[simp] theorem setSigAt_pending (s : State) (i : Nat) (v : SigHistory) : (s.setSigAt i v).pending = s.pending := rfl
@[simp] theorem setSigAt_dtime (s : State) (i : Nat) (v : SigHistory) : (s.setSigAt i v).dtime = s.dtime := rfl
@[simp] theorem setSigAt_free (s : State) (i : Nat) (v : SigHistory) : (s.setSigAt i v).free = s.free := rfl
@[simp] theorem setSigAt_regs (s : State) (i : Nat) (v : SigHistory) : (s.setSigAt i v).regs = s.regs := rfl
@[simp] theorem setSigAt_inUse (s : State) (i : Nat) (v : SigHistory) : (s.setSigAt i v).inUse = s.inUse := rfl
@[simp] theorem setSigAt_mem (s : State) (i : Nat) (v : SigHistory) : (s.setSigAt i v).mem = s.mem := rfl
@[simp] theorem setSigAt_losses (s : State) (i : Nat) (v : SigHistory) : (s.setSigAt i v).losses = s.losses := rfl
@[simp] theorem setSigAt_flash0 (s : State) (i : Nat) (v : SigHistory) : (s.setSigAt i v).flash0 = s.flash0 := rfl
@[simp] theorem setSigAt_flash1 (s : State) (i : Nat) (v : SigHistory) : (s.setSigAt i v).flash1 = s.flash1 := rfl
@[simp] theorem setSigAt_otp (s : State) (i : Nat) (v : SigHistory) : (s.setSigAt i v).otp = s.otp := rfl
@[simp] theorem setSigAt_power (s : State) (i : Nat) (v : SigHistory) : (s.setSigAt i v).power = s.power := rfl
@[simp] theorem setSigAt_boot (s : State) (i : Nat) (v : SigHistory) : (s.setSigAt i v).boot = s.boot := rfl
@[simp] theorem setSigAt_park (s : State) (i : Nat) (v : SigHistory) : (s.setSigAt i v).park = s.park := rfl
@[simp] theorem setSigAt_isl (s : State) (i : Nat) (v : SigHistory) : (s.setSigAt i v).isl = s.isl := rfl
@[simp] theorem setSigAt_locket (s : State) (i : Nat) (v : SigHistory) : (s.setSigAt i v).locket = s.locket := rfl
@[simp] theorem setSigAt_gate (s : State) (i : Nat) (v : SigHistory) : (s.setSigAt i v).gate = s.gate := rfl

@[simp] theorem setSigAt_rd (s : State) (i : Nat) (v : SigHistory) (a : Nat) : (s.setSigAt i v).rd a = s.rd a := rfl
@[simp] theorem sigAt_setSigAt (s : State) (i j : Nat) (v : SigHistory) : (s.setSigAt i v).sigAt j = if j = i then v else s.sigAt j := tget_tset _ _ _ _ _

@[simp] theorem setGroupAt_pending (s : State) (i : Nat) (v : GroupState) : (s.setGroupAt i v).pending = s.pending := rfl
@[simp] theorem setGroupAt_dtime (s : State) (i : Nat) (v : GroupState) : (s.setGroupAt i v).dtime = s.dtime := rfl
@[simp] theorem setGroupAt_free (s : State) (i : Nat) (v : GroupState) : (s.setGroupAt i v).free = s.free := rfl
@[simp] theorem setGroupAt_regs (s : State) (i : Nat) (v : GroupState) : (s.setGroupAt i v).regs = s.regs := rfl
@[simp] theorem setGroupAt_inUse (s : State) (i : Nat) (v : GroupState) : (s.setGroupAt i v).inUse = s.inUse := rfl
@[simp] theorem setGroupAt_mem (s : State) (i : Nat) (v : GroupState) : (s.setGroupAt i v).mem = s.mem := rfl
@[simp] theorem setGroupAt_losses (s : State) (i : Nat) (v : GroupState) : (s.setGroupAt i v).losses = s.losses := rfl
@[simp] theorem setGroupAt_flash0 (s : State) (i : Nat) (v : GroupState) : (s.setGroupAt i v).flash0 = s.flash0 := rfl
@[simp] theorem setGroupAt_flash1 (s : State) (i : Nat) (v : GroupState) : (s.setGroupAt i v).flash1 = s.flash1 := rfl
@[simp] theorem setGroupAt_otp (s : State) (i : Nat) (v : GroupState) : (s.setGroupAt i v).otp = s.otp := rfl
@[simp] theorem setGroupAt_power (s : State) (i : Nat) (v : GroupState) : (s.setGroupAt i v).power = s.power := rfl
@[simp] theorem setGroupAt_boot (s : State) (i : Nat) (v : GroupState) : (s.setGroupAt i v).boot = s.boot := rfl
@[simp] theorem setGroupAt_park (s : State) (i : Nat) (v : GroupState) : (s.setGroupAt i v).park = s.park := rfl
@[simp] theorem setGroupAt_isl (s : State) (i : Nat) (v : GroupState) : (s.setGroupAt i v).isl = s.isl := rfl
@[simp] theorem setGroupAt_locket (s : State) (i : Nat) (v : GroupState) : (s.setGroupAt i v).locket = s.locket := rfl
@[simp] theorem setGroupAt_gate (s : State) (i : Nat) (v : GroupState) : (s.setGroupAt i v).gate = s.gate := rfl

@[simp] theorem setGroupAt_rd (s : State) (i : Nat) (v : GroupState) (a : Nat) : (s.setGroupAt i v).rd a = s.rd a := rfl
@[simp] theorem groupAt_setGroupAt (s : State) (i j : Nat) (v : GroupState) : (s.setGroupAt i v).groupAt j = if j = i then v else s.groupAt j := tget_tset _ _ _ _ _

@[simp] theorem setBzAt_pending (s : State) (i : Nat) (v : BzShown) : (s.setBzAt i v).pending = s.pending := rfl
@[simp] theorem setBzAt_dtime (s : State) (i : Nat) (v : BzShown) : (s.setBzAt i v).dtime = s.dtime := rfl
@[simp] theorem setBzAt_free (s : State) (i : Nat) (v : BzShown) : (s.setBzAt i v).free = s.free := rfl
@[simp] theorem setBzAt_regs (s : State) (i : Nat) (v : BzShown) : (s.setBzAt i v).regs = s.regs := rfl
@[simp] theorem setBzAt_inUse (s : State) (i : Nat) (v : BzShown) : (s.setBzAt i v).inUse = s.inUse := rfl
@[simp] theorem setBzAt_mem (s : State) (i : Nat) (v : BzShown) : (s.setBzAt i v).mem = s.mem := rfl
@[simp] theorem setBzAt_losses (s : State) (i : Nat) (v : BzShown) : (s.setBzAt i v).losses = s.losses := rfl
@[simp] theorem setBzAt_flash0 (s : State) (i : Nat) (v : BzShown) : (s.setBzAt i v).flash0 = s.flash0 := rfl
@[simp] theorem setBzAt_flash1 (s : State) (i : Nat) (v : BzShown) : (s.setBzAt i v).flash1 = s.flash1 := rfl
@[simp] theorem setBzAt_otp (s : State) (i : Nat) (v : BzShown) : (s.setBzAt i v).otp = s.otp := rfl
@[simp] theorem setBzAt_power (s : State) (i : Nat) (v : BzShown) : (s.setBzAt i v).power = s.power := rfl
@[simp] theorem setBzAt_boot (s : State) (i : Nat) (v : BzShown) : (s.setBzAt i v).boot = s.boot := rfl
@[simp] theorem setBzAt_park (s : State) (i : Nat) (v : BzShown) : (s.setBzAt i v).park = s.park := rfl
@[simp] theorem setBzAt_isl (s : State) (i : Nat) (v : BzShown) : (s.setBzAt i v).isl = s.isl := rfl
@[simp] theorem setBzAt_locket (s : State) (i : Nat) (v : BzShown) : (s.setBzAt i v).locket = s.locket := rfl
@[simp] theorem setBzAt_gate (s : State) (i : Nat) (v : BzShown) : (s.setBzAt i v).gate = s.gate := rfl

@[simp] theorem setBzAt_rd (s : State) (i : Nat) (v : BzShown) (a : Nat) : (s.setBzAt i v).rd a = s.rd a := rfl
@[simp] theorem bzAt_setBzAt (s : State) (i j : Nat) (v : BzShown) : (s.setBzAt i v).bzAt j = if j = i then v else s.bzAt j := tget_tset _ _ _ _ _

@[simp] theorem setWatchAt_pending (s : State) (i : Nat) (v : WatchState) : (s.setWatchAt i v).pending = s.pending := rfl
@[simp] theorem setWatchAt_dtime (s : State) (i : Nat) (v : WatchState) : (s.setWatchAt i v).dtime = s.dtime := rfl
@[simp] theorem setWatchAt_free (s : State) (i : Nat) (v : WatchState) : (s.setWatchAt i v).free = s.free := rfl
@[simp] theorem setWatchAt_regs (s : State) (i : Nat) (v : WatchState) : (s.setWatchAt i v).regs = s.regs := rfl
@[simp] theorem setWatchAt_inUse (s : State) (i : Nat) (v : WatchState) : (s.setWatchAt i v).inUse = s.inUse := rfl
@[simp] theorem setWatchAt_mem (s : State) (i : Nat) (v : WatchState) : (s.setWatchAt i v).mem = s.mem := rfl
@[simp] theorem setWatchAt_losses (s : State) (i : Nat) (v : WatchState) : (s.setWatchAt i v).losses = s.losses := rfl
@[simp] theorem setWatchAt_flash0 (s : State) (i : Nat) (v : WatchState) : (s.setWatchAt i v).flash0 = s.flash0 := rfl
@[simp] theorem setWatchAt_flash1 (s : State) (i : Nat) (v : WatchState) : (s.setWatchAt i v).flash1 = s.flash1 := rfl
@[simp] theorem setWatchAt_otp (s : State) (i : Nat) (v : WatchState) : (s.setWatchAt i v).otp = s.otp := rfl
@[simp] theorem setWatchAt_power (s : State) (i : Nat) (v : WatchState) : (s.setWatchAt i v).power = s.power := rfl
@[simp] theorem setWatchAt_boot (s : State) (i : Nat) (v : WatchState) : (s.setWatchAt i v).boot = s.boot := rfl
@[simp] theorem setWatchAt_park (s : State) (i : Nat) (v : WatchState) : (s.setWatchAt i v).park = s.park := rfl
@[simp] theorem setWatchAt_isl (s : State) (i : Nat) (v : WatchState) : (s.setWatchAt i v).isl = s.isl := rfl
@[simp] theorem setWatchAt_locket (s : State) (i : Nat) (v : WatchState) : (s.setWatchAt i v).locket = s.locket := rfl
@[simp] theorem setWatchAt_gate (s : State) (i : Nat) (v : WatchState) : (s.setWatchAt i v).gate = s.gate := rfl

@[simp] theorem setWatchAt_rd (s : State) (i : Nat) (v : WatchState) (a : Nat) : (s.setWatchAt i v).rd a = s.rd a := rfl
@[simp] theorem watchAt_setWatchAt (s : State) (i j : Nat) (v : WatchState) : (s.setWatchAt i v).watchAt j = if j = i then v else s.watchAt j := tget_tset _ _ _ _ _

@[simp] theorem setSinkAt_pending (s : State) (i : Nat) (v : SinkState) : (s.setSinkAt i v).pending = s.pending := rfl
@[simp] theorem setSinkAt_dtime (s : State) (i : Nat) (v : SinkState) : (s.setSinkAt i v).dtime = s.dtime := rfl
@[simp] theorem setSinkAt_free (s : State) (i : Nat) (v : SinkState) : (s.setSinkAt i v).free = s.free := rfl
@[simp] theorem setSinkAt_regs (s : State) (i : Nat) (v : SinkState) : (s.setSinkAt i v).regs = s.regs := rfl
@[simp] theorem setSinkAt_inUse (s : State) (i : Nat) (v : SinkState) : (s.setSinkAt i v).inUse = s.inUse := rfl
@[simp] theorem setSinkAt_mem (s : State) (i : Nat) (v : SinkState) : (s.setSinkAt i v).mem = s.mem := rfl
@[simp] theorem setSinkAt_losses (s : State) (i : Nat) (v : SinkState) : (s.setSinkAt i v).losses = s.losses := rfl
@[simp] theorem setSinkAt_flash0 (s : State) (i : Nat) (v : SinkState) : (s.setSinkAt i v).flash0 = s.flash0 := rfl
@[simp] theorem setSinkAt_flash1 (s : State) (i : Nat) (v : SinkState) : (s.setSinkAt i v).flash1 = s.flash1 := rfl
@[simp] theorem setSinkAt_otp (s : State) (i : Nat) (v : SinkState) : (s.setSinkAt i v).otp = s.otp := rfl
@[simp] theorem setSinkAt_power (s : State) (i : Nat) (v : SinkState) : (s.setSinkAt i v).power = s.power := rfl
@[simp] theorem setSinkAt_boot (s : State) (i : Nat) (v : SinkState) : (s.setSinkAt i v).boot = s.boot := rfl
@[simp] theorem setSinkAt_park (s : State) (i : Nat) (v : SinkState) : (s.setSinkAt i v).park = s.park := rfl
@[simp] theorem setSinkAt_isl (s : State) (i : Nat) (v : SinkState) : (s.setSinkAt i v).isl = s.isl := rfl
@[simp] theorem setSinkAt_locket (s : State) (i : Nat) (v : SinkState) : (s.setSinkAt i v).locket = s.locket := rfl
@[simp] theorem setSinkAt_gate (s : State) (i : Nat) (v : SinkState) : (s.setSinkAt i v).gate = s.gate := rfl

@[simp] theorem setSinkAt_rd (s : State) (i : Nat) (v : SinkState) (a : Nat) : (s.setSinkAt i v).rd a = s.rd a := rfl
@[simp] theorem sinkAt_setSinkAt (s : State) (i j : Nat) (v : SinkState) : (s.setSinkAt i v).sinkAt j = if j = i then v else s.sinkAt j := tget_tset _ _ _ _ _

@[simp] theorem setDmaAt_pending (s : State) (i : Nat) (v : DmaCh) : (s.setDmaAt i v).pending = s.pending := rfl
@[simp] theorem setDmaAt_dtime (s : State) (i : Nat) (v : DmaCh) : (s.setDmaAt i v).dtime = s.dtime := rfl
@[simp] theorem setDmaAt_free (s : State) (i : Nat) (v : DmaCh) : (s.setDmaAt i v).free = s.free := rfl
@[simp] theorem setDmaAt_regs (s : State) (i : Nat) (v : DmaCh) : (s.setDmaAt i v).regs = s.regs := rfl
@[simp] theorem setDmaAt_inUse (s : State) (i : Nat) (v : DmaCh) : (s.setDmaAt i v).inUse = s.inUse := rfl
@[simp] theorem setDmaAt_mem (s : State) (i : Nat) (v : DmaCh) : (s.setDmaAt i v).mem = s.mem := rfl
@[simp] theorem setDmaAt_losses (s : State) (i : Nat) (v : DmaCh) : (s.setDmaAt i v).losses = s.losses := rfl
@[simp] theorem setDmaAt_flash0 (s : State) (i : Nat) (v : DmaCh) : (s.setDmaAt i v).flash0 = s.flash0 := rfl
@[simp] theorem setDmaAt_flash1 (s : State) (i : Nat) (v : DmaCh) : (s.setDmaAt i v).flash1 = s.flash1 := rfl
@[simp] theorem setDmaAt_otp (s : State) (i : Nat) (v : DmaCh) : (s.setDmaAt i v).otp = s.otp := rfl
@[simp] theorem setDmaAt_power (s : State) (i : Nat) (v : DmaCh) : (s.setDmaAt i v).power = s.power := rfl
@[simp] theorem setDmaAt_boot (s : State) (i : Nat) (v : DmaCh) : (s.setDmaAt i v).boot = s.boot := rfl
@[simp] theorem setDmaAt_park (s : State) (i : Nat) (v : DmaCh) : (s.setDmaAt i v).park = s.park := rfl
@[simp] theorem setDmaAt_isl (s : State) (i : Nat) (v : DmaCh) : (s.setDmaAt i v).isl = s.isl := rfl
@[simp] theorem setDmaAt_locket (s : State) (i : Nat) (v : DmaCh) : (s.setDmaAt i v).locket = s.locket := rfl
@[simp] theorem setDmaAt_gate (s : State) (i : Nat) (v : DmaCh) : (s.setDmaAt i v).gate = s.gate := rfl

@[simp] theorem setDmaAt_rd (s : State) (i : Nat) (v : DmaCh) (a : Nat) : (s.setDmaAt i v).rd a = s.rd a := rfl
@[simp] theorem dmaAt_setDmaAt (s : State) (i j : Nat) (v : DmaCh) : (s.setDmaAt i v).dmaAt j = if j = i then v else s.dmaAt j := tget_tset _ _ _ _ _

@[simp] theorem setBlitAt_pending (s : State) (i : Nat) (v : BlitCh) : (s.setBlitAt i v).pending = s.pending := rfl
@[simp] theorem setBlitAt_dtime (s : State) (i : Nat) (v : BlitCh) : (s.setBlitAt i v).dtime = s.dtime := rfl
@[simp] theorem setBlitAt_free (s : State) (i : Nat) (v : BlitCh) : (s.setBlitAt i v).free = s.free := rfl
@[simp] theorem setBlitAt_regs (s : State) (i : Nat) (v : BlitCh) : (s.setBlitAt i v).regs = s.regs := rfl
@[simp] theorem setBlitAt_inUse (s : State) (i : Nat) (v : BlitCh) : (s.setBlitAt i v).inUse = s.inUse := rfl
@[simp] theorem setBlitAt_mem (s : State) (i : Nat) (v : BlitCh) : (s.setBlitAt i v).mem = s.mem := rfl
@[simp] theorem setBlitAt_losses (s : State) (i : Nat) (v : BlitCh) : (s.setBlitAt i v).losses = s.losses := rfl
@[simp] theorem setBlitAt_flash0 (s : State) (i : Nat) (v : BlitCh) : (s.setBlitAt i v).flash0 = s.flash0 := rfl
@[simp] theorem setBlitAt_flash1 (s : State) (i : Nat) (v : BlitCh) : (s.setBlitAt i v).flash1 = s.flash1 := rfl
@[simp] theorem setBlitAt_otp (s : State) (i : Nat) (v : BlitCh) : (s.setBlitAt i v).otp = s.otp := rfl
@[simp] theorem setBlitAt_power (s : State) (i : Nat) (v : BlitCh) : (s.setBlitAt i v).power = s.power := rfl
@[simp] theorem setBlitAt_boot (s : State) (i : Nat) (v : BlitCh) : (s.setBlitAt i v).boot = s.boot := rfl
@[simp] theorem setBlitAt_park (s : State) (i : Nat) (v : BlitCh) : (s.setBlitAt i v).park = s.park := rfl
@[simp] theorem setBlitAt_isl (s : State) (i : Nat) (v : BlitCh) : (s.setBlitAt i v).isl = s.isl := rfl
@[simp] theorem setBlitAt_locket (s : State) (i : Nat) (v : BlitCh) : (s.setBlitAt i v).locket = s.locket := rfl
@[simp] theorem setBlitAt_gate (s : State) (i : Nat) (v : BlitCh) : (s.setBlitAt i v).gate = s.gate := rfl

@[simp] theorem setBlitAt_rd (s : State) (i : Nat) (v : BlitCh) (a : Nat) : (s.setBlitAt i v).rd a = s.rd a := rfl
@[simp] theorem blitAt_setBlitAt (s : State) (i j : Nat) (v : BlitCh) : (s.setBlitAt i v).blitAt j = if j = i then v else s.blitAt j := tget_tset _ _ _ _ _

@[simp] theorem setPolAt_pending (s : State) (i : Nat) (v : Policer) : (s.setPolAt i v).pending = s.pending := rfl
@[simp] theorem setPolAt_dtime (s : State) (i : Nat) (v : Policer) : (s.setPolAt i v).dtime = s.dtime := rfl
@[simp] theorem setPolAt_free (s : State) (i : Nat) (v : Policer) : (s.setPolAt i v).free = s.free := rfl
@[simp] theorem setPolAt_regs (s : State) (i : Nat) (v : Policer) : (s.setPolAt i v).regs = s.regs := rfl
@[simp] theorem setPolAt_inUse (s : State) (i : Nat) (v : Policer) : (s.setPolAt i v).inUse = s.inUse := rfl
@[simp] theorem setPolAt_mem (s : State) (i : Nat) (v : Policer) : (s.setPolAt i v).mem = s.mem := rfl
@[simp] theorem setPolAt_losses (s : State) (i : Nat) (v : Policer) : (s.setPolAt i v).losses = s.losses := rfl
@[simp] theorem setPolAt_flash0 (s : State) (i : Nat) (v : Policer) : (s.setPolAt i v).flash0 = s.flash0 := rfl
@[simp] theorem setPolAt_flash1 (s : State) (i : Nat) (v : Policer) : (s.setPolAt i v).flash1 = s.flash1 := rfl
@[simp] theorem setPolAt_otp (s : State) (i : Nat) (v : Policer) : (s.setPolAt i v).otp = s.otp := rfl
@[simp] theorem setPolAt_power (s : State) (i : Nat) (v : Policer) : (s.setPolAt i v).power = s.power := rfl
@[simp] theorem setPolAt_boot (s : State) (i : Nat) (v : Policer) : (s.setPolAt i v).boot = s.boot := rfl
@[simp] theorem setPolAt_park (s : State) (i : Nat) (v : Policer) : (s.setPolAt i v).park = s.park := rfl
@[simp] theorem setPolAt_isl (s : State) (i : Nat) (v : Policer) : (s.setPolAt i v).isl = s.isl := rfl
@[simp] theorem setPolAt_locket (s : State) (i : Nat) (v : Policer) : (s.setPolAt i v).locket = s.locket := rfl
@[simp] theorem setPolAt_gate (s : State) (i : Nat) (v : Policer) : (s.setPolAt i v).gate = s.gate := rfl

@[simp] theorem setPolAt_rd (s : State) (i : Nat) (v : Policer) (a : Nat) : (s.setPolAt i v).rd a = s.rd a := rfl
@[simp] theorem polAt_setPolAt (s : State) (i j : Nat) (v : Policer) : (s.setPolAt i v).polAt j = if j = i then v else s.polAt j := tget_tset _ _ _ _ _

@[simp] theorem setShqAt_pending (s : State) (i : Nat) (v : ShapeQ) : (s.setShqAt i v).pending = s.pending := rfl
@[simp] theorem setShqAt_dtime (s : State) (i : Nat) (v : ShapeQ) : (s.setShqAt i v).dtime = s.dtime := rfl
@[simp] theorem setShqAt_free (s : State) (i : Nat) (v : ShapeQ) : (s.setShqAt i v).free = s.free := rfl
@[simp] theorem setShqAt_regs (s : State) (i : Nat) (v : ShapeQ) : (s.setShqAt i v).regs = s.regs := rfl
@[simp] theorem setShqAt_inUse (s : State) (i : Nat) (v : ShapeQ) : (s.setShqAt i v).inUse = s.inUse := rfl
@[simp] theorem setShqAt_mem (s : State) (i : Nat) (v : ShapeQ) : (s.setShqAt i v).mem = s.mem := rfl
@[simp] theorem setShqAt_losses (s : State) (i : Nat) (v : ShapeQ) : (s.setShqAt i v).losses = s.losses := rfl
@[simp] theorem setShqAt_flash0 (s : State) (i : Nat) (v : ShapeQ) : (s.setShqAt i v).flash0 = s.flash0 := rfl
@[simp] theorem setShqAt_flash1 (s : State) (i : Nat) (v : ShapeQ) : (s.setShqAt i v).flash1 = s.flash1 := rfl
@[simp] theorem setShqAt_otp (s : State) (i : Nat) (v : ShapeQ) : (s.setShqAt i v).otp = s.otp := rfl
@[simp] theorem setShqAt_power (s : State) (i : Nat) (v : ShapeQ) : (s.setShqAt i v).power = s.power := rfl
@[simp] theorem setShqAt_boot (s : State) (i : Nat) (v : ShapeQ) : (s.setShqAt i v).boot = s.boot := rfl
@[simp] theorem setShqAt_park (s : State) (i : Nat) (v : ShapeQ) : (s.setShqAt i v).park = s.park := rfl
@[simp] theorem setShqAt_isl (s : State) (i : Nat) (v : ShapeQ) : (s.setShqAt i v).isl = s.isl := rfl
@[simp] theorem setShqAt_locket (s : State) (i : Nat) (v : ShapeQ) : (s.setShqAt i v).locket = s.locket := rfl
@[simp] theorem setShqAt_gate (s : State) (i : Nat) (v : ShapeQ) : (s.setShqAt i v).gate = s.gate := rfl

@[simp] theorem setShqAt_rd (s : State) (i : Nat) (v : ShapeQ) (a : Nat) : (s.setShqAt i v).rd a = s.rd a := rfl
@[simp] theorem shqAt_setShqAt (s : State) (i j : Nat) (v : ShapeQ) : (s.setShqAt i v).shqAt j = if j = i then v else s.shqAt j := tget_tset _ _ _ _ _

@[simp] theorem setDramAt_pending (s : State) (i : Nat) (v : SubCh) : (s.setDramAt i v).pending = s.pending := rfl
@[simp] theorem setDramAt_dtime (s : State) (i : Nat) (v : SubCh) : (s.setDramAt i v).dtime = s.dtime := rfl
@[simp] theorem setDramAt_free (s : State) (i : Nat) (v : SubCh) : (s.setDramAt i v).free = s.free := rfl
@[simp] theorem setDramAt_regs (s : State) (i : Nat) (v : SubCh) : (s.setDramAt i v).regs = s.regs := rfl
@[simp] theorem setDramAt_inUse (s : State) (i : Nat) (v : SubCh) : (s.setDramAt i v).inUse = s.inUse := rfl
@[simp] theorem setDramAt_mem (s : State) (i : Nat) (v : SubCh) : (s.setDramAt i v).mem = s.mem := rfl
@[simp] theorem setDramAt_losses (s : State) (i : Nat) (v : SubCh) : (s.setDramAt i v).losses = s.losses := rfl
@[simp] theorem setDramAt_flash0 (s : State) (i : Nat) (v : SubCh) : (s.setDramAt i v).flash0 = s.flash0 := rfl
@[simp] theorem setDramAt_flash1 (s : State) (i : Nat) (v : SubCh) : (s.setDramAt i v).flash1 = s.flash1 := rfl
@[simp] theorem setDramAt_otp (s : State) (i : Nat) (v : SubCh) : (s.setDramAt i v).otp = s.otp := rfl
@[simp] theorem setDramAt_power (s : State) (i : Nat) (v : SubCh) : (s.setDramAt i v).power = s.power := rfl
@[simp] theorem setDramAt_boot (s : State) (i : Nat) (v : SubCh) : (s.setDramAt i v).boot = s.boot := rfl
@[simp] theorem setDramAt_park (s : State) (i : Nat) (v : SubCh) : (s.setDramAt i v).park = s.park := rfl
@[simp] theorem setDramAt_isl (s : State) (i : Nat) (v : SubCh) : (s.setDramAt i v).isl = s.isl := rfl
@[simp] theorem setDramAt_locket (s : State) (i : Nat) (v : SubCh) : (s.setDramAt i v).locket = s.locket := rfl
@[simp] theorem setDramAt_gate (s : State) (i : Nat) (v : SubCh) : (s.setDramAt i v).gate = s.gate := rfl

@[simp] theorem setDramAt_rd (s : State) (i : Nat) (v : SubCh) (a : Nat) : (s.setDramAt i v).rd a = s.rd a := rfl
@[simp] theorem dramAt_setDramAt (s : State) (i j : Nat) (v : SubCh) : (s.setDramAt i v).dramAt j = if j = i then v else s.dramAt j := tget_tset _ _ _ _ _

@[simp] theorem setIgAt_pending (s : State) (i : Nat) (v : Ingest) : (s.setIgAt i v).pending = s.pending := rfl
@[simp] theorem setIgAt_dtime (s : State) (i : Nat) (v : Ingest) : (s.setIgAt i v).dtime = s.dtime := rfl
@[simp] theorem setIgAt_free (s : State) (i : Nat) (v : Ingest) : (s.setIgAt i v).free = s.free := rfl
@[simp] theorem setIgAt_regs (s : State) (i : Nat) (v : Ingest) : (s.setIgAt i v).regs = s.regs := rfl
@[simp] theorem setIgAt_inUse (s : State) (i : Nat) (v : Ingest) : (s.setIgAt i v).inUse = s.inUse := rfl
@[simp] theorem setIgAt_mem (s : State) (i : Nat) (v : Ingest) : (s.setIgAt i v).mem = s.mem := rfl
@[simp] theorem setIgAt_losses (s : State) (i : Nat) (v : Ingest) : (s.setIgAt i v).losses = s.losses := rfl
@[simp] theorem setIgAt_flash0 (s : State) (i : Nat) (v : Ingest) : (s.setIgAt i v).flash0 = s.flash0 := rfl
@[simp] theorem setIgAt_flash1 (s : State) (i : Nat) (v : Ingest) : (s.setIgAt i v).flash1 = s.flash1 := rfl
@[simp] theorem setIgAt_otp (s : State) (i : Nat) (v : Ingest) : (s.setIgAt i v).otp = s.otp := rfl
@[simp] theorem setIgAt_power (s : State) (i : Nat) (v : Ingest) : (s.setIgAt i v).power = s.power := rfl
@[simp] theorem setIgAt_boot (s : State) (i : Nat) (v : Ingest) : (s.setIgAt i v).boot = s.boot := rfl
@[simp] theorem setIgAt_park (s : State) (i : Nat) (v : Ingest) : (s.setIgAt i v).park = s.park := rfl
@[simp] theorem setIgAt_isl (s : State) (i : Nat) (v : Ingest) : (s.setIgAt i v).isl = s.isl := rfl
@[simp] theorem setIgAt_locket (s : State) (i : Nat) (v : Ingest) : (s.setIgAt i v).locket = s.locket := rfl
@[simp] theorem setIgAt_gate (s : State) (i : Nat) (v : Ingest) : (s.setIgAt i v).gate = s.gate := rfl

@[simp] theorem setIgAt_rd (s : State) (i : Nat) (v : Ingest) (a : Nat) : (s.setIgAt i v).rd a = s.rd a := rfl
@[simp] theorem igAt_setIgAt (s : State) (i j : Nat) (v : Ingest) : (s.setIgAt i v).igAt j = if j = i then v else s.igAt j := tget_tset _ _ _ _ _

@[simp] theorem setLastReadAt_pending (s : State) (i : Nat) (v : Nat) : (s.setLastReadAt i v).pending = s.pending := rfl
@[simp] theorem setLastReadAt_dtime (s : State) (i : Nat) (v : Nat) : (s.setLastReadAt i v).dtime = s.dtime := rfl
@[simp] theorem setLastReadAt_free (s : State) (i : Nat) (v : Nat) : (s.setLastReadAt i v).free = s.free := rfl
@[simp] theorem setLastReadAt_regs (s : State) (i : Nat) (v : Nat) : (s.setLastReadAt i v).regs = s.regs := rfl
@[simp] theorem setLastReadAt_inUse (s : State) (i : Nat) (v : Nat) : (s.setLastReadAt i v).inUse = s.inUse := rfl
@[simp] theorem setLastReadAt_mem (s : State) (i : Nat) (v : Nat) : (s.setLastReadAt i v).mem = s.mem := rfl
@[simp] theorem setLastReadAt_losses (s : State) (i : Nat) (v : Nat) : (s.setLastReadAt i v).losses = s.losses := rfl
@[simp] theorem setLastReadAt_flash0 (s : State) (i : Nat) (v : Nat) : (s.setLastReadAt i v).flash0 = s.flash0 := rfl
@[simp] theorem setLastReadAt_flash1 (s : State) (i : Nat) (v : Nat) : (s.setLastReadAt i v).flash1 = s.flash1 := rfl
@[simp] theorem setLastReadAt_otp (s : State) (i : Nat) (v : Nat) : (s.setLastReadAt i v).otp = s.otp := rfl
@[simp] theorem setLastReadAt_power (s : State) (i : Nat) (v : Nat) : (s.setLastReadAt i v).power = s.power := rfl
@[simp] theorem setLastReadAt_boot (s : State) (i : Nat) (v : Nat) : (s.setLastReadAt i v).boot = s.boot := rfl
@[simp] theorem setLastReadAt_park (s : State) (i : Nat) (v : Nat) : (s.setLastReadAt i v).park = s.park := rfl
@[simp] theorem setLastReadAt_isl (s : State) (i : Nat) (v : Nat) : (s.setLastReadAt i v).isl = s.isl := rfl
@[simp] theorem setLastReadAt_locket (s : State) (i : Nat) (v : Nat) : (s.setLastReadAt i v).locket = s.locket := rfl
@[simp] theorem setLastReadAt_gate (s : State) (i : Nat) (v : Nat) : (s.setLastReadAt i v).gate = s.gate := rfl

@[simp] theorem setLastReadAt_rd (s : State) (i : Nat) (v : Nat) (a : Nat) : (s.setLastReadAt i v).rd a = s.rd a := rfl
@[simp] theorem lastReadAt_setLastReadAt (s : State) (i j : Nat) (v : Nat) : (s.setLastReadAt i v).lastReadAt j = if j = i then v else s.lastReadAt j := tget_tset _ _ _ _ _

@[simp] theorem setLaneAt_pending (s : State) (i : Nat) (v : Lane) : (s.setLaneAt i v).pending = s.pending := rfl
@[simp] theorem setLaneAt_dtime (s : State) (i : Nat) (v : Lane) : (s.setLaneAt i v).dtime = s.dtime := rfl
@[simp] theorem setLaneAt_free (s : State) (i : Nat) (v : Lane) : (s.setLaneAt i v).free = s.free := rfl
@[simp] theorem setLaneAt_regs (s : State) (i : Nat) (v : Lane) : (s.setLaneAt i v).regs = s.regs := rfl
@[simp] theorem setLaneAt_inUse (s : State) (i : Nat) (v : Lane) : (s.setLaneAt i v).inUse = s.inUse := rfl
@[simp] theorem setLaneAt_mem (s : State) (i : Nat) (v : Lane) : (s.setLaneAt i v).mem = s.mem := rfl
@[simp] theorem setLaneAt_losses (s : State) (i : Nat) (v : Lane) : (s.setLaneAt i v).losses = s.losses := rfl
@[simp] theorem setLaneAt_flash0 (s : State) (i : Nat) (v : Lane) : (s.setLaneAt i v).flash0 = s.flash0 := rfl
@[simp] theorem setLaneAt_flash1 (s : State) (i : Nat) (v : Lane) : (s.setLaneAt i v).flash1 = s.flash1 := rfl
@[simp] theorem setLaneAt_otp (s : State) (i : Nat) (v : Lane) : (s.setLaneAt i v).otp = s.otp := rfl
@[simp] theorem setLaneAt_power (s : State) (i : Nat) (v : Lane) : (s.setLaneAt i v).power = s.power := rfl
@[simp] theorem setLaneAt_boot (s : State) (i : Nat) (v : Lane) : (s.setLaneAt i v).boot = s.boot := rfl
@[simp] theorem setLaneAt_park (s : State) (i : Nat) (v : Lane) : (s.setLaneAt i v).park = s.park := rfl
@[simp] theorem setLaneAt_isl (s : State) (i : Nat) (v : Lane) : (s.setLaneAt i v).isl = s.isl := rfl
@[simp] theorem setLaneAt_locket (s : State) (i : Nat) (v : Lane) : (s.setLaneAt i v).locket = s.locket := rfl
@[simp] theorem setLaneAt_gate (s : State) (i : Nat) (v : Lane) : (s.setLaneAt i v).gate = s.gate := rfl

@[simp] theorem setLaneAt_rd (s : State) (i : Nat) (v : Lane) (a : Nat) : (s.setLaneAt i v).rd a = s.rd a := rfl
@[simp] theorem laneAt_setLaneAt (s : State) (i j : Nat) (v : Lane) : (s.setLaneAt i v).laneAt j = if j = i then v else s.laneAt j := tget_tset _ _ _ _ _

@[simp] theorem setCanAt_pending (s : State) (i : Nat) (v : Can) : (s.setCanAt i v).pending = s.pending := rfl
@[simp] theorem setCanAt_dtime (s : State) (i : Nat) (v : Can) : (s.setCanAt i v).dtime = s.dtime := rfl
@[simp] theorem setCanAt_free (s : State) (i : Nat) (v : Can) : (s.setCanAt i v).free = s.free := rfl
@[simp] theorem setCanAt_regs (s : State) (i : Nat) (v : Can) : (s.setCanAt i v).regs = s.regs := rfl
@[simp] theorem setCanAt_inUse (s : State) (i : Nat) (v : Can) : (s.setCanAt i v).inUse = s.inUse := rfl
@[simp] theorem setCanAt_mem (s : State) (i : Nat) (v : Can) : (s.setCanAt i v).mem = s.mem := rfl
@[simp] theorem setCanAt_losses (s : State) (i : Nat) (v : Can) : (s.setCanAt i v).losses = s.losses := rfl
@[simp] theorem setCanAt_flash0 (s : State) (i : Nat) (v : Can) : (s.setCanAt i v).flash0 = s.flash0 := rfl
@[simp] theorem setCanAt_flash1 (s : State) (i : Nat) (v : Can) : (s.setCanAt i v).flash1 = s.flash1 := rfl
@[simp] theorem setCanAt_otp (s : State) (i : Nat) (v : Can) : (s.setCanAt i v).otp = s.otp := rfl
@[simp] theorem setCanAt_power (s : State) (i : Nat) (v : Can) : (s.setCanAt i v).power = s.power := rfl
@[simp] theorem setCanAt_boot (s : State) (i : Nat) (v : Can) : (s.setCanAt i v).boot = s.boot := rfl
@[simp] theorem setCanAt_park (s : State) (i : Nat) (v : Can) : (s.setCanAt i v).park = s.park := rfl
@[simp] theorem setCanAt_isl (s : State) (i : Nat) (v : Can) : (s.setCanAt i v).isl = s.isl := rfl
@[simp] theorem setCanAt_locket (s : State) (i : Nat) (v : Can) : (s.setCanAt i v).locket = s.locket := rfl
@[simp] theorem setCanAt_gate (s : State) (i : Nat) (v : Can) : (s.setCanAt i v).gate = s.gate := rfl

@[simp] theorem setCanAt_rd (s : State) (i : Nat) (v : Can) (a : Nat) : (s.setCanAt i v).rd a = s.rd a := rfl
@[simp] theorem canAt_setCanAt (s : State) (i j : Nat) (v : Can) : (s.setCanAt i v).canAt j = if j = i then v else s.canAt j := tget_tset _ _ _ _ _

end Sys2Proof.Machine
end

