-- ==== Sys2Proof/Laws/Events.lean ====
section
/-!
SUPPORT. What posting events can do: it touches the backlogs, the sequence counts and the counters of lost events, and nothing else.
-/

namespace Sys2Proof.Machine

/-- t is s but for backlogs, sequence counts and lost counters. -/
def State.onlyEvents (s t : State) : Prop :=
  t = { s with ev := t.ev, seqs := t.seqs, regs := t.regs } ∧ ∀ a, lostCounter a = false → t.rd a = s.rd a

theorem onlyEvents_refl (s : State) : s.onlyEvents s := ⟨rfl, fun _ _ => rfl⟩

theorem onlyEvents_trans {s t u : State} (h : s.onlyEvents t) (k : t.onlyEvents u) : s.onlyEvents u := by
  refine ⟨?_, fun a ha => (k.2 a ha).trans (h.2 a ha)⟩
  have e := k.1
  rw [h.1] at e
  exact e

theorem onlyEvents_foldl {α : Type} (f : State → α → State) (h : ∀ (s : State) (a : α), s.onlyEvents (f s a)) (l : List α) (s : State) :
    s.onlyEvents (l.foldl f s) := by
  induction l generalizing s with
  | nil => exact onlyEvents_refl s
  | cons a l ih => exact onlyEvents_trans (h s a) (ih _)

theorem onlyEvents_setEvAt (s : State) (p : Nat) (v : PortEv) : s.onlyEvents (s.setEvAt p v) := ⟨rfl, fun _ _ => rfl⟩

theorem onlyEvents_setSeqAt (s : State) (p v : Nat) : s.onlyEvents (s.setSeqAt p v) := ⟨rfl, fun _ _ => rfl⟩

theorem enqueue_only (s : State) (p : Nat) (e : Event) : s.onlyEvents (s.enqueue p e) := onlyEvents_setEvAt s p _

theorem nextSeq_only (s : State) (n : Nat) : s.onlyEvents (s.nextSeq n) := onlyEvents_setSeqAt s n _

theorem toHost_only (s : State) (p : Nat) (m : HostMsg) : s.onlyEvents (s.toHost p m) := onlyEvents_setEvAt s p _

theorem postLost_only (s : State) (p : Nat) : s.onlyEvents (s.postLost p) := by
  unfold State.postLost
  split
  · exact onlyEvents_trans (onlyEvents_setEvAt s p _) (onlyEvents_trans (enqueue_only _ _ _) (nextSeq_only _ _))
  · exact onlyEvents_refl s

theorem lostCounter_of {a p : Nat} (hp : p ∈ allPorts) (h : lostCounter a = false) : a ≠ HP_EV_STAT p := by
  intro e
  have : lostCounter a = true := List.any_eq_true.mpr ⟨p, hp, by simp [e]⟩
  rw [this] at h; exact Bool.noConfusion h

theorem bumpLost_only (s : State) (p : Nat) (hp : p ∈ allPorts) (f : Fld) (n : Nat) : s.onlyEvents (s.bump (HP_EV_STAT p) f n) :=
  ⟨rfl, fun _ ha => rd_bump_ne _ _ _ (lostCounter_of hp ha)⟩

theorem offer_only (s : State) (e : Event) (p : Nat) (hp : p ∈ allPorts) : s.onlyEvents (s.offer e p) := by
  unfold State.offer
  split
  · exact onlyEvents_refl s
  · split
    · exact enqueue_only _ _ _
    · exact onlyEvents_trans (onlyEvents_setEvAt _ _ _) (bumpLost_only _ p hp _ _)

theorem offers_only (e : Event) (ps : List Nat) (h : ∀ p ∈ ps, p ∈ allPorts) (s : State) :
    s.onlyEvents (ps.foldl (fun s p => s.offer e p) s) := by
  induction ps generalizing s with
  | nil => exact onlyEvents_refl s
  | cons p ps ih =>
    exact onlyEvents_trans (offer_only s e p (h p List.mem_cons_self)) (ih (fun q hq => h q (List.mem_cons_of_mem _ hq)) _)

theorem postTo_only (s : State) (ps : List Nat) (h : ∀ p ∈ ps, p ∈ allPorts) (source type flags : Nat) (payload : List Byte) :
    s.onlyEvents (s.postTo ps source type flags payload) :=
  onlyEvents_trans (onlyEvents_foldl _ postLost_only ps s) (onlyEvents_trans (offers_only _ ps h _) (nextSeq_only _ _))

theorem post_only (s : State) (cls inst type flags : Nat) (payload : List Byte) : s.onlyEvents (s.post cls inst type flags payload) :=
  postTo_only s _ (fun _ hp => (List.mem_filter.mp hp).1) _ _ _ _

theorem postAll_only (s : State) (cls inst type : Nat) (payload : List Byte) : s.onlyEvents (s.postAll cls inst type payload) :=
  postTo_only s _ (fun _ hp => hp) _ _ _ _

theorem postOwn_only (s : State) (p : Nat) (hp : p ∈ allPorts) (cls inst type : Nat) (payload : List Byte) :
    s.onlyEvents (s.postOwn p cls inst type payload) :=
  postTo_only s _ (fun q hq => by rw [List.mem_singleton.mp hq]; exact hp) _ _ _ _

theorem unreserve_only (s : State) (ps : List Nat) : s.onlyEvents (s.unreserve ps) :=
  onlyEvents_foldl _ (fun _ _ => onlyEvents_setEvAt _ _ _) ps s

theorem postReserved_only (s : State) (ps : List Nat) (source type flags : Nat) (payload : List Byte) :
    s.onlyEvents (s.postReserved ps source type flags payload) :=
  onlyEvents_trans (unreserve_only s ps)
    (onlyEvents_trans (onlyEvents_foldl _ (fun _ _ => enqueue_only _ _ _) ps _) (nextSeq_only _ _))

theorem postPstate_only (s : State) (old new cause : Nat) : s.onlyEvents (s.postPstate old new cause) := postAll_only s _ _ _ _

theorem postTl_only (s : State) (t type object code detail : Nat) : s.onlyEvents (s.postTl t type object code detail) := by
  unfold State.postTl; exact post_only s _ _ _ _ _

/-! ### What follows -/

theorem onlyEvents_mem {s t : State} (h : s.onlyEvents t) : t.mem = s.mem := by rw [h.1]
theorem onlyEvents_losses {s t : State} (h : s.onlyEvents t) : t.losses = s.losses := by rw [h.1]
theorem onlyEvents_pending {s t : State} (h : s.onlyEvents t) : t.pending = s.pending := by rw [h.1]
theorem onlyEvents_dtime {s t : State} (h : s.onlyEvents t) : t.dtime = s.dtime := by rw [h.1]
theorem onlyEvents_power {s t : State} (h : s.onlyEvents t) : t.power = s.power := by rw [h.1]
theorem onlyEvents_boot {s t : State} (h : s.onlyEvents t) : t.boot = s.boot := by rw [h.1]
theorem onlyEvents_isl {s t : State} (h : s.onlyEvents t) : t.isl = s.isl := by rw [h.1]
theorem onlyEvents_gate {s t : State} (h : s.onlyEvents t) : t.gate = s.gate := by rw [h.1]
theorem onlyEvents_scan {s t : State} (h : s.onlyEvents t) : t.scan = s.scan := by rw [h.1]

theorem onlyEvents_get {s t : State} (h : s.onlyEvents t) {a : Nat} (f : Fld) (ha : lostCounter a = false) : t.get a f = s.get a f := by
  unfold State.get; rw [h.2 a ha]

theorem onlyEvents_quiet {s t : State} (h : s.onlyEvents t) : s.quiet t [] := by
  refine ⟨fun a => ?_, ⟨?_, ?_, ?_⟩, fun a ha _ => h.2 a ha⟩
  · unfold State.rdByte; rw [onlyEvents_mem h, onlyEvents_losses h]
  all_goals rw [h.1]

/-- The sequence count of the source advances by one (R300). -/
theorem nextSeq_seq (s : State) (source : Nat) : (s.nextSeq source).seqAt source = (s.seqAt source + 1) % 65536 := by
  simp [State.nextSeq]

end Sys2Proof.Machine
end

