-- ==== Sys2Proof/Laws/Memory.lean ====
section
/-!
SUPPORT. Memory: what a read gives after a write, and the canonical form (Memory.wf) that every memory operation keeps.
-/

namespace Sys2Proof.Machine

theorem rdByte_wrByte (s : State) (a b : Nat) (v : Byte) : (s.wrByte a v).rdByte b = if b = a then v else s.rdByte b := by
  unfold State.rdByte State.wrByte; exact tget_tset _ _ _ _ _

@[simp] theorem wrBytes_losses (s : State) (a : Nat) (bs : List Byte) : (s.wrBytes a bs).losses = s.losses := by
  induction bs generalizing s a with
  | nil => rfl
  | cons b bs ih => exact ih _ _

/-- A write of a list of bytes: each byte of its range is the list's, every other is as before. -/
theorem rdByte_wrBytes (s : State) (a b : Nat) (bs : List Byte) :
    (s.wrBytes a bs).rdByte b = if a ≤ b ∧ b < a + bs.length then bs.getD (b - a) 0 else s.rdByte b := by
  induction bs generalizing s a with
  | nil => simp [State.wrBytes]
  | cons v bs ih =>
    rw [State.wrBytes, ih, rdByte_wrByte]
    by_cases h : b = a
    · subst h; simp
    · have e : ∀ n, (a ≤ b ∧ b < a + (n + 1)) ↔ (a + 1 ≤ b ∧ b < a + 1 + n) := by omega
      simp only [List.length_cons, e, h, if_false]
      split
      · rename_i g
        have : b - a = (b - (a + 1)) + 1 := by omega
        rw [this]; rfl
      · rfl

theorem wrByte_wf (s : State) (a : Nat) (v : Byte) (h : Memory.wf s.losses s.mem = true) :
    Memory.wf (s.wrByte a v).losses (s.wrByte a v).mem = true := twf_tset a v h

theorem wrBytes_wf (s : State) (a : Nat) (bs : List Byte) (h : Memory.wf s.losses s.mem = true) :
    Memory.wf (s.wrBytes a bs).losses (s.wrBytes a bs).mem = true := by
  induction bs generalizing s a with
  | nil => exact h
  | cons b bs ih => exact ih _ _ (wrByte_wf s a b h)

/-- What a loss leaves: a kept byte reads as before, another as the loss makes it. -/
theorem memDefault_kept {ls : List (List (Nat × Nat))} {keep : List (Nat × Nat)} {a : Nat} (h : keptIn keep a = true) :
    memDefault (keep :: ls) a = memDefault ls a := by
  simp [memDefault, lossOf, h]

theorem rdByte_lose (s : State) (keep : List (Nat × Nat)) (a : Nat) (h : keptIn keep a = true) :
    (s.lose keep).rdByte a = s.rdByte a := by
  have e := tget_filter (memDefault (keep :: s.losses)) (keptIn keep) s.mem a
  simp only [h, if_true] at e
  show tget (memDefault (keep :: s.losses)) (s.mem.filter fun c => keptIn keep c.1) a = tget (memDefault s.losses) s.mem a
  rw [e]
  induction s.mem with
  | nil => exact memDefault_kept h
  | cons p t ih =>
    obtain ⟨j, w⟩ := p
    simp only [tget]
    split
    · rfl
    · apply ih

theorem lose_wf (s : State) (keep : List (Nat × Nat)) (h : Memory.wf s.losses s.mem = true) :
    Memory.wf (s.lose keep).losses (s.lose keep).mem = true := by
  refine twf_congr (d := memDefault s.losses) (twf_filter _ h) ?_
  intro p hp
  exact memDefault_kept (by simpa using (List.mem_filter.mp hp).2)

theorem porst_wf (s : State) : Memory.wf s.porst.losses s.porst.mem = true := by
  unfold State.porst State.xsCut; rfl

theorem reset_wf : Memory.wf State.reset.losses State.reset.mem = true := rfl

/-! ### Flash -/

theorem wrFlash_wf0 (s : State) (dev a : Nat) (b : Byte) (h : twf flashErased s.flash0 = true) :
    twf flashErased (s.wrFlash dev a b).flash0 = true := by
  unfold State.wrFlash; split
  · exact twf_tset a b h
  · exact h

theorem wrFlash_wf1 (s : State) (dev a : Nat) (b : Byte) (h : twf flashErased s.flash1 = true) :
    twf flashErased (s.wrFlash dev a b).flash1 = true := by
  unfold State.wrFlash; split
  · exact h
  · exact twf_tset a b h

end Sys2Proof.Machine
end

