-- ==== Sys2Proof/Laws/PerInstr.lean ====
section
/-!
SUPPORT. The family Timed, one lemma per constructor: a well-formed command comes at a DTIME that the 64-bit device time holds
(R17).
-/

namespace Sys2Proof.Laws.Timed

def Statement (i : Instr) : Prop := i.wf = true → i.now < 2 ^ 64

theorem of_wf (i : Instr) : Statement i := fun h => of_decide_eq_true (Bool.and_eq_true_iff.mp h).1

theorem porstNRelease (now : Nat) (bootsel : Nat) (compat : Bool) : Statement (.porstNRelease now bootsel compat) := of_wf _

theorem porstNAssert (now : Nat) (width : Nat) : Statement (.porstNAssert now width) := of_wf _

theorem pllLock (now : Nat) (size0 size1 : Option Nat) : Statement (.pllLock now size0 size1) := of_wf _

theorem locketHeaderRead (now : Nat) : Statement (.locketHeaderRead now) := of_wf _

theorem sectionTableRead (now : Nat) : Statement (.sectionTableRead now) := of_wf _

theorem signatureVerifyDone (now : Nat) : Statement (.signatureVerifyDone now) := of_wf _

theorem sectionEnd (now : Nat) : Statement (.sectionEnd now) := of_wf _

theorem flashReadFail (now : Nat) : Statement (.flashReadFail now) := of_wf _

theorem slotSearchRetry (now : Nat) : Statement (.slotSearchRetry now) := of_wf _

theorem restart (now : Nat) (src : Src) (value : Nat) : Statement (.restart now src value) := of_wf _

theorem ddr5InService (now : Nat) (eyeBad failed : List Nat) : Statement (.ddr5InService now eyeBad failed) := of_wf _

theorem hubReadiness (now : Nat) : Statement (.hubReadiness now) := of_wf _

theorem assetCopyDone (now : Nat) : Statement (.assetCopyDone now) := of_wf _

theorem wakePin (now : Nat) (cycles : Nat) : Statement (.wakePin now cycles) := of_wf _

theorem supervisorWakeLine (now : Nat) (low : Nat) : Statement (.supervisorWakeLine now low) := of_wf _

theorem warmrstNAssert (now : Nat) (width : Nat) : Statement (.warmrstNAssert now width) := of_wf _

theorem warmrstNRelease (now : Nat) : Statement (.warmrstNRelease now) := of_wf _

theorem supplyLoss (now : Nat) (low : Nat) : Statement (.supplyLoss now low) := of_wf _

theorem supplyLossRestart (now : Nat) : Statement (.supplyLossRestart now) := of_wf _

theorem parkRequest (now : Nat) (src : Src) (value : Nat) : Statement (.parkRequest now src value) := of_wf _

theorem parkDrainComplete (now : Nat) : Statement (.parkDrainComplete now) := of_wf _

theorem drainExpiry (now : Nat) : Statement (.drainExpiry now) := of_wf _

theorem parkPanelsDown (now : Nat) : Statement (.parkPanelsDown now) := of_wf _

theorem parkSnapshotDone (now : Nat) : Statement (.parkSnapshotDone now) := of_wf _

theorem parkSelfRefreshDone (now : Nat) : Statement (.parkSelfRefreshDone now) := of_wf _

theorem lineStart (now : Nat) (t : Fin 16) (errs : LineErrs) : Statement (.lineStart now t errs) := of_wf _

theorem latch (now : Nat) (t : Fin 16) : Statement (.latch now t) := of_wf _

theorem handoverEnd (now : Nat) (t : Fin 16) : Statement (.handoverEnd now t) := of_wf _

theorem reseatGo (now : Nat) (src : Src) (t : Fin 16) (value : Nat) : Statement (.reseatGo now src t value) := of_wf _

theorem reseatCheckDone (now : Nat) (t : Fin 16) : Statement (.reseatCheckDone now t) := of_wf _

theorem genlockTimeout (now : Nat) (t : Fin 16) : Statement (.genlockTimeout now t) := of_wf _

theorem hpdAssert (now : Nat) (l : Fin 48) : Statement (.hpdAssert now l) := of_wf _

theorem hpdLoss (now : Nat) (l : Fin 48) (low : Nat) : Statement (.hpdLoss now l low) := of_wf _

theorem irqHpd (now : Nat) (l : Fin 48) (statusOk : Bool) : Statement (.irqHpd now l statusOk) := of_wf _

theorem aphyOutputLinkDown (now : Nat) (l : Fin 48) : Statement (.aphyOutputLinkDown now l) := of_wf _

theorem linkTrainingDone (now : Nat) (l : Fin 48) (ok : Bool) (rate lanes : Nat) (fec : Bool) (maxLines : Option Nat) (sinkCrc : Bool) : Statement (.linkTrainingDone now l ok rate lanes fec maxLines sinkCrc) := of_wf _

theorem linkRetrainTimer (now : Nat) (l : Fin 48) : Statement (.linkRetrainTimer now l) := of_wf _

theorem panelTpoffDone (now : Nat) (t : Fin 16) : Statement (.panelTpoffDone now t) := of_wf _

theorem panelTponExpiry (now : Nat) (t : Fin 16) : Statement (.panelTponExpiry now t) := of_wf _

theorem backlightOnExpiry (now : Nat) (t : Fin 16) : Statement (.backlightOnExpiry now t) := of_wf _

theorem pwmPeriodEnd (now : Nat) (t : Fin 16) : Statement (.pwmPeriodEnd now t) := of_wf _

theorem backlightOffExpiry (now : Nat) (t : Fin 16) : Statement (.backlightOffExpiry now t) := of_wf _

theorem panelVoffExpiry (now : Nat) (t : Fin 16) : Statement (.panelVoffExpiry now t) := of_wf _

theorem wbFrameAcked (now : Nat) (n : Fin 4) : Statement (.wbFrameAcked now n) := of_wf _

theorem fetchGroupIssue (now : Nat) (sl : Fin 96) : Statement (.fetchGroupIssue now sl) := of_wf _

theorem fetchDataArrival (now : Nat) (sl : Fin 96) (group : Nat) (bad : List (Nat × ReadRes)) (host : List Byte) : Statement (.fetchDataArrival now sl group bad host) := of_wf _

theorem fetchDeadline (now : Nat) (sl : Fin 96) : Statement (.fetchDeadline now sl) := of_wf _

theorem raceTideDeadline (now : Nat) (sl : Fin 96) : Statement (.raceTideDeadline now sl) := of_wf _

theorem watchRegionCompare (now : Nat) (t : Fin 16) (r : Fin 32) : Statement (.watchRegionCompare now t r) := of_wf _

theorem flattenStart (now : Nat) (t : Fin 16) : Statement (.flattenStart now t) := of_wf _

theorem flattenComplete (now : Nat) (t : Fin 16) (lost : Bool) : Statement (.flattenComplete now t lost) := of_wf _

theorem sfCreate (now : Nat) (p : Fin 4) (value : Nat) : Statement (.sfCreate now p value) := of_wf _

theorem sfDestroy (now : Nat) (p : Fin 4) (value : Nat) : Statement (.sfDestroy now p value) := of_wf _

theorem sfRead (now : Nat) (p : Fin 4) (value : Nat) : Statement (.sfRead now p value) := of_wf _

theorem sfDestroyAll (now : Nat) (p : Fin 4) (value : Nat) : Statement (.sfDestroyAll now p value) := of_wf _

theorem surfaceRetire (now : Nat) (index : Fin 65536) : Statement (.surfaceRetire now index) := of_wf _

theorem commitDoorbell (now : Nat) (src : Src) (p : Fin 4) (r : Fin 8) (value : Nat) : Statement (.commitDoorbell now src p r value) := of_wf _

theorem crEnable (now : Nat) (src : Src) (p : Fin 4) (r : Fin 8) (value : Nat) : Statement (.crEnable now src p r value) := of_wf _

theorem commitEntryRead (now : Nat) (p : Fin 4) (r : Fin 8) (res : ReadRes) (host : List Byte) (badEntries : List Nat) : Statement (.commitEntryRead now p r res host badEntries) := of_wf _

theorem commitAccept (now : Nat) (p : Fin 4) (r : Fin 8) (copyFail : List Nat) : Statement (.commitAccept now p r copyFail) := of_wf _

theorem commitLeaveWaiting (now : Nat) (t : Fin 16) : Statement (.commitLeaveWaiting now t) := of_wf _

theorem notBeforeTarget (now : Nat) (t : Fin 16) : Statement (.notBeforeTarget now t) := of_wf _

theorem commitSeal (now : Nat) (t : Fin 16) : Statement (.commitSeal now t) := of_wf _

theorem fenceTimeout (now : Nat) (t : Fin 16) : Statement (.fenceTimeout now t) := of_wf _

theorem directSeal (now : Nat) (src : Src) (pv : Fin 8) (k : Fin 2) (value : Nat) : Statement (.directSeal now src pv k value) := of_wf _

theorem evEnable (now : Nat) (src : Src) (p : Fin 4) (value : Nat) : Statement (.evEnable now src p value) := of_wf _

theorem eventRecordWrite (now : Nat) (p : Fin 4) : Statement (.eventRecordWrite now p) := of_wf _

theorem msixHoldoffExpiry (now : Nat) (p : Fin 4) (v : Fin 64) : Statement (.msixHoldoffExpiry now p v) := of_wf _

theorem hostLinkDown (now : Nat) (p : Fin 4) : Statement (.hostLinkDown now p) := of_wf _

theorem hotReset (now : Nat) (p : Fin 4) : Statement (.hotReset now p) := of_wf _

theorem functionLevelReset (now : Nat) (p : Fin 4) : Statement (.functionLevelReset now p) := of_wf _

theorem perstAssert (now : Nat) (p : Fin 4) : Statement (.perstAssert now p) := of_wf _

theorem hostLinkUp (now : Nat) (p : Fin 4) (speed width : Nat) : Statement (.hostLinkUp now p speed width) := of_wf _

theorem hostD3hot (now : Nat) (p : Fin 4) (enter : Bool) : Statement (.hostD3hot now p enter) := of_wf _

theorem policerPacket (now : Nat) (p : Fin 4) (read : Bool) (offset len tc : Nat) (data : List Byte) : Statement (.policerPacket now p read offset len tc data) := of_wf _

theorem redPacketRelease (now : Nat) (k : Fin 8) : Statement (.redPacketRelease now k) := of_wf _

theorem queueRequest (now : Nat) (q : Fin 256) (req : QReq) : Statement (.queueRequest now q req) := of_wf _

theorem queueEligible (now : Nat) (q : Fin 256) : Statement (.queueEligible now q) := of_wf _

theorem queueRateWrite (now : Nat) (src : Src) (q : Fin 256) (value : Nat) : Statement (.queueRateWrite now src q value) := of_wf _

theorem dramRead (now : Nat) (hpa : Nat) (cls : ReadClass) (deadline : Nat) : Statement (.dramRead now hpa cls deadline) := of_wf _

theorem dramWrite (now : Nat) (hpa : Nat) (data : List Byte) (cls : MemClass) (deadline : Nat) : Statement (.dramWrite now hpa data cls deadline) := of_wf _

theorem dramReadReturn (now : Nat) (c : Fin 8) (id : Nat) (errs0 errs1 : List BeatErr) : Statement (.dramReadReturn now c id errs0 errs1) := of_wf _

theorem writeCrcAlert (now : Nat) (c : Fin 8) (id : Nat) : Statement (.writeCrcAlert now c id) := of_wf _

theorem dramWriteAck (now : Nat) (who : Acked) : Statement (.dramWriteAck now who) := of_wf _

theorem writeBatchStart (now : Nat) (c : Fin 8) : Statement (.writeBatchStart now c) := of_wf _

theorem rowIdleClose (now : Nat) (c : Fin 8) (rank bank : Nat) : Statement (.rowIdleClose now c rank bank) := of_wf _

theorem refreshTick (now : Nat) (c : Fin 8) (rank : Fin 2) : Statement (.refreshTick now c rank) := of_wf _

theorem mr4Poll (now : Nat) (c : Fin 8) (rates : List Nat) : Statement (.mr4Poll now c rates) := of_wf _

theorem tempCrossing (now : Nat) (c : Fin 8) (temp : Int) : Statement (.tempCrossing now c temp) := of_wf _

theorem patrolScrub (now : Nat) (hpa : Nat) (errs0 errs1 : List BeatErr) : Statement (.patrolScrub now hpa errs0 errs1) := of_wf _

theorem retrainStep (now : Nat) (c : Fin 8) (rank : Fin 2) (changed : Bool) : Statement (.retrainStep now c rank changed) := of_wf _

theorem ingestFrameStart (now : Nat) (c : Fin 24) (num : Nat) : Statement (.ingestFrameStart now c num) := of_wf _

theorem ingestLongPacket (now : Nat) (c : Fin 24) (dt : Nat) (payload : List Byte) (crcOk : Bool) : Statement (.ingestLongPacket now c dt payload crcOk) := of_wf _

theorem ingestIgnoredPacket (now : Nat) (c : Fin 24) : Statement (.ingestIgnoredPacket now c) := of_wf _

theorem ingestFrameEnd (now : Nat) (c : Fin 24) : Statement (.ingestFrameEnd now c) := of_wf _

theorem ingestFrameComplete (now : Nat) (c : Fin 24) : Statement (.ingestFrameComplete now c) := of_wf _

theorem ingestLinkDown (now : Nat) (l : Fin 48) : Statement (.ingestLinkDown now l) := of_wf _

theorem canFrameEnd (now : Nat) (n : Fin 2) (frame : CanFrame) : Statement (.canFrameEnd now n frame) := of_wf _

theorem canBusJoin (now : Nat) (n : Fin 2) : Statement (.canBusJoin now n) := of_wf _

theorem signalGroupFrame (now : Nat) (n : Fin 2) : Statement (.signalGroupFrame now n) := of_wf _

theorem smSvSig (now : Nat) (src : Src) (value : Nat) : Statement (.smSvSig now src value) := of_wf _

theorem signalTimeout (now : Nat) (sig : Fin 512) : Statement (.signalTimeout now sig) := of_wf _

theorem sinkCrcRead (now : Nat) (t : Fin 16) (crcs : Option (List Nat)) (count : Nat) : Statement (.sinkCrcRead now t crcs count) := of_wf _

theorem svHbEdge (now : Nat) : Statement (.svHbEdge now) := of_wf _

theorem heartbeatLoss (now : Nat) : Statement (.heartbeatLoss now) := of_wf _

theorem wtFaultClear (now : Nat) (src : Src) (which : Fin 2) (value : Nat) : Statement (.wtFaultClear now src which value) := of_wf _

theorem htTick (now : Nat) (n : Fin 16) : Statement (.htTick now n) := of_wf _

theorem dmaStart (now : Nat) (src : Src) (c : Fin 32) (value : Nat) : Statement (.dmaStart now src c value) := of_wf _

theorem dmaAbort (now : Nat) (src : Src) (c : Fin 32) (value : AbortWrite) : Statement (.dmaAbort now src c value) := of_wf _

theorem dmaAbortComplete (now : Nat) (c : AbortEnd) : Statement (.dmaAbortComplete now c) := of_wf _

theorem dmaDoorbell (now : Nat) (src : Src) (c : Fin 32) (value : Nat) : Statement (.dmaDoorbell now src c value) := of_wf _

theorem dmaDescriptorRead (now : Nat) (c : Fin 32) (res : EntryRes) (host : List Byte) : Statement (.dmaDescriptorRead now c res host) := of_wf _

theorem dmaLinkRead (now : Nat) (c : Fin 32) (res : ReadRes) (host : List Byte) : Statement (.dmaLinkRead now c res host) := of_wf _

theorem dmaReadReturn (now : Nat) (c : Fin 32) (off : Nat) (res : ReadRes) (host : List Byte) : Statement (.dmaReadReturn now c off res host) := of_wf _

theorem dmaDone (now : Nat) (c : Fin 32) (badWr : WriteErrs) (flushOk : Bool) : Statement (.dmaDone now c badWr flushOk) := of_wf _

theorem blitEnable (now : Nat) (src : Src) (c : Fin 8) (value : Nat) : Statement (.blitEnable now src c value) := of_wf _

theorem blitDoorbell (now : Nat) (src : Src) (c : Fin 8) (value : Nat) : Statement (.blitDoorbell now src c value) := of_wf _

theorem blitAbort (now : Nat) (src : Src) (c : Fin 8) (value : AbortWrite) : Statement (.blitAbort now src c value) := of_wf _

theorem blitJobRead (now : Nat) (c : Fin 8) (res : EntryRes) (host : List Byte) : Statement (.blitJobRead now c res host) := of_wf _

theorem blitDeadTimeEnd (now : Nat) (c : Fin 8) : Statement (.blitDeadTimeEnd now c) := of_wf _

theorem blitBandSlot (now : Nat) (c : Fin 8) : Statement (.blitBandSlot now c) := of_wf _

theorem blitRowComplete (now : Nat) (c : Fin 8) (badReads badWr : List Nat) : Statement (.blitRowComplete now c badReads badWr) := of_wf _

theorem blitDone (now : Nat) (c : Fin 8) (statusOk : Bool) : Statement (.blitDone now c statusOk) := of_wf _

theorem xsRead (now : Nat) (src : Src) (value : Nat) : Statement (.xsRead now src value) := of_wf _

theorem xsProgram (now : Nat) (src : Src) (value : Nat) : Statement (.xsProgram now src value) := of_wf _

theorem xsErase (now : Nat) (src : Src) (value : Nat) : Statement (.xsErase now src value) := of_wf _

theorem xsCommandDone (now : Nat) (devErr : Bool) : Statement (.xsCommandDone now devErr) := of_wf _

theorem xsCommandTimeout (now : Nat) : Statement (.xsCommandTimeout now) := of_wf _

theorem svNop (now : Nat) (frame : List Byte) (bits : Nat) : Statement (.svNop now frame bits) := of_wf _

theorem svRead (now : Nat) (frame : List Byte) (bits : Nat) (ready : Bool) : Statement (.svRead now frame bits ready) := of_wf _

theorem svWrite (now : Nat) (frame : List Byte) (bits : Nat) : Statement (.svWrite now frame bits) := of_wf _

theorem registerWrite (now : Nat) (src : Src) (addr value : Nat) : Statement (.registerWrite now src addr value) := of_wf _

theorem accessDeniedFoldTimer (now : Nat) (p : Fin 4) : Statement (.accessDeniedFoldTimer now p) := of_wf _

theorem dtimeLoRead (now : Nat) (src : Src) : Statement (.dtimeLoRead now src) := of_wf _

theorem peakRead (now : Nat) (src : Src) (addr : Nat) : Statement (.peakRead now src addr) := of_wf _

theorem sessionChallenge (now : Nat) (src : Src) (value : Nat) : Statement (.sessionChallenge now src value) := of_wf _

theorem sessionRespond (now : Nat) (src : Src) (value : Nat) : Statement (.sessionRespond now src value) := of_wf _

theorem sessionVerifyDone (now : Nat) : Statement (.sessionVerifyDone now) := of_wf _

theorem sessionClose (now : Nat) (src : Src) (value : Nat) : Statement (.sessionClose now src value) := of_wf _

theorem sessionIdleExpiry (now : Nat) : Statement (.sessionIdleExpiry now) := of_wf _

theorem ghLockHard (now : Nat) (src : Src) (value : Nat) : Statement (.ghLockHard now src value) := of_wf _

theorem ikhProgram (now : Nat) (src : Src) (value : Nat) : Statement (.ikhProgram now src value) := of_wf _

theorem tokenSubmit (now : Nat) (src : Src) (value : Nat) : Statement (.tokenSubmit now src value) := of_wf _

theorem tokenEnd (now : Nat) (src : Src) (value : Nat) : Statement (.tokenEnd now src value) := of_wf _

theorem tokenExpiry (now : Nat) : Statement (.tokenExpiry now) := of_wf _

theorem cfgCrcGo (now : Nat) (src : Src) (value : Nat) : Statement (.cfgCrcGo now src value) := of_wf _

theorem cfgCrcDone (now : Nat) : Statement (.cfgCrcDone now) := of_wf _

theorem ledgerEntryProgrammed (now : Nat) (devErr : Bool) : Statement (.ledgerEntryProgrammed now devErr) := of_wf _

theorem jtagInstruction (now : Nat) (instr : JtagOp) : Statement (.jtagInstruction now instr) := of_wf _

theorem islandFaultDetected (now : Nat) (isl : Fin 108) (cause : Nat) (srFail : Bool) : Statement (.islandFaultDetected now isl cause srFail) := of_wf _

theorem promenadeFlitReject (now : Nat) (isl : IslandLink) (parityBad : Bool) (seq : Nat) : Statement (.promenadeFlitReject now isl parityBad seq) := of_wf _

theorem islandRelease (now : Nat) (isl : Fin 108) (ok : Bool) : Statement (.islandRelease now isl ok) := of_wf _

theorem ingestLinkUp (now : Nat) (l : Fin 48) (gear : Nat) : Statement (.ingestLinkUp now l gear) := of_wf _

theorem canErrorDetected (now : Nat) (n : Fin 2) (kind : CanError) : Statement (.canErrorDetected now n kind) := of_wf _

theorem pwrGoodFall (now : Nat) : Statement (.pwrGoodFall now) := of_wf _

theorem perstRelease (now : Nat) (p : Fin 4) : Statement (.perstRelease now p) := of_wf _

theorem configurationRequest (now : Nat) (p : Fin 4) (req : CfgReq) : Statement (.configurationRequest now p req) := of_wf _

theorem owedCommandPaid (now : Nat) (c : Fin 8) (rank : Fin 2) : Statement (.owedCommandPaid now c rank) := of_wf _

theorem composedLineArrival (now : Nat) (t : ComposedLine) : Statement (.composedLineArrival now t) := of_wf _

theorem migrationComplete (now : Nat) (pv : Fin 8) : Statement (.migrationComplete now pv) := of_wf _

theorem postedWriteLands (now : Nat) (group : Nat) : Statement (.postedWriteLands now group) := of_wf _

theorem ikhProgramDone (now : Nat) : Statement (.ikhProgramDone now) := of_wf _

end Sys2Proof.Laws.Timed
end

