-- ==== Sys2Proof/Laws/Shared.lean ====
section
/-!
SUPPORT. What the operations that most commands share can do: a quiet change and its composition, the two ends of a guarded
register write, the pin FAULT_N, DEGRADED and the ledger queue.
-/

namespace Sys2Proof.Machine

/-! ### Quiet changes -/

theorem quiet_refl (s : State) (but : List Nat) : s.quiet s but := ⟨fun _ => rfl, ⟨rfl, rfl, rfl⟩, fun _ _ _ => rfl⟩

theorem quiet_trans {s t u : State} {b c : List Nat} (h : s.quiet t b) (k : t.quiet u c) : s.quiet u (b ++ c) := by
  refine ⟨fun a => (k.1 a).trans (h.1 a), ⟨k.2.1.1.trans h.2.1.1, k.2.1.2.1.trans h.2.1.2.1, k.2.1.2.2.trans h.2.1.2.2⟩, fun a l n => ?_⟩
  rw [List.mem_append, not_or] at n
  exact (k.2.2 a l n.2).trans (h.2.2 a l n.1)

theorem quiet_mono {s t : State} {b c : List Nat} (h : s.quiet t b) (k : ∀ a ∈ b, a ∈ c) : s.quiet t c :=
  ⟨h.1, h.2.1, fun a l n => h.2.2 a l fun m => n (k a m)⟩

theorem quiet_wr (s : State) (a : Nat) (w : Word) : s.quiet (s.wr a w) [a] :=
  ⟨fun _ => rfl, ⟨rfl, rfl, rfl⟩, fun b _ n => rd_wr_ne s w fun e => n (by simp [e])⟩

theorem quiet_put (s : State) (a : Nat) (f : Fld) (v : Nat) : s.quiet (s.put a f v) [a] := quiet_wr s a _

theorem quiet_bumpMod (s : State) (a : Nat) (f : Fld) (n : Nat) : s.quiet (s.bumpMod a f n) [a] := quiet_wr s a _
theorem quiet_bump (s : State) (a : Nat) (f : Fld) (n : Nat) : s.quiet (s.bump a f n) [a] := quiet_wr s a _

theorem quiet_wrN (s : State) (a v : Nat) : s.quiet (s.wrN a v) [a] := quiet_wr s a _

theorem quiet_tick (s : State) (now : Nat) : s.quiet (s.tick now) [] := ⟨fun _ => rfl, ⟨rfl, rfl, rfl⟩, fun _ _ _ => rfl⟩

/-! ### The ends of a command -/

@[simp] theorem when_true (s : State) (f : State → State) : s.when true f = f s := rfl
@[simp] theorem when_false (s : State) (f : State → State) : s.when false f = s := rfl

/-- A write that every check lets through has its effect on the state the checks leave. -/
theorem guarded_of_admits {s t : State} {src : Src} {a v : Nat} {w : Word} (h : s.admits src a v = some (t, w)) (eff : State → Word → State) :
    s.guarded src a v eff = (eff t w, .ok) := by
  unfold State.admits at h
  unfold State.guarded
  split at h
  · rename_i e; cases h; rw [e]
  · cases h

/-- A write that a check ends does the same whatever its effect would have been. -/
theorem guarded_of_refused {s : State} {src : Src} {a v : Nat} (h : s.admits src a v = none) (eff eff' : State → Word → State) :
    s.guarded src a v eff = s.guarded src a v eff' := by
  unfold State.admits at h
  unfold State.guarded
  split at h
  · cases h
  · rename_i e; rw [e]

/-! ### FAULT_N and DEGRADED -/

/-- A change of FAULT_N writes WT_FAULT and WT_FCNT and posts an event; no other register, no memory (R338). -/
theorem syncFault_quiet (s : State) : s.quiet s.syncFault [WT_FAULT, WT_FCNT] := by
  unfold State.syncFault
  dsimp only
  split
  · exact quiet_refl s _
  · have p : s.quiet { s with power := { s.power with faultWas := s.faultLow } } [] := ⟨fun _ => rfl, ⟨rfl, rfl, rfl⟩, fun _ _ _ => rfl⟩
    have q := quiet_trans p (quiet_put _ WT_FAULT WT_FAULT_FAULT (b2n s.faultLow))
    split
    · exact quiet_trans (quiet_trans q (quiet_bump _ _ _ _)) (onlyEvents_quiet (post_only _ _ _ _ _ _))
    · exact quiet_mono (quiet_trans q (onlyEvents_quiet (post_only _ _ _ _ _ _))) (by simp)

/-- Entering or leaving DEGRADED writes no register and no memory; it may post an event (R24). -/
theorem syncDegraded_quiet (s : State) : s.quiet s.syncDegraded [] := by
  unfold State.syncDegraded
  dsimp only
  split
  · exact quiet_refl s _
  · have p (d : Bool) : s.quiet { s with power := { s.power with degraded := d } } [] := ⟨fun _ => rfl, ⟨rfl, rfl, rfl⟩, fun _ _ _ => rfl⟩
    split
    · exact quiet_trans (p _) (onlyEvents_quiet (postPstate_only _ _ _ _))
    · exact p _

/-! ### The ledger queue (R507 to R510) -/

/-- A queued entry writes GH_LED_HEAD and GH_LED_STAT, and nothing is queued when 64 wait (R509). -/
theorem ledgerAdd_some {s t : State} {role source action target result : Nat} {old new : List Byte}
    (h : s.ledgerAdd role source action target old new result = some t) :
    s.gate.queue.length < ledgerDepth ∧ s.quiet t [GH_LED_HEAD, GH_LED_STAT] ∧
    ∃ e, t.gate.queue = s.gate.queue ++ [e] ∧ e.action = action ∧ e.seq = s.gate.nextSeq ∧ e.count = 1 := by
  unfold State.ledgerAdd at h
  split at h
  · rename_i l
    refine ⟨l, ?_, ?_⟩
    · cases h
      exact quiet_trans (b := [GH_LED_HEAD]) (c := [GH_LED_STAT])
        (quiet_trans (b := []) ⟨fun _ => rfl, ⟨rfl, rfl, rfl⟩, fun _ _ _ => rfl⟩ (quiet_wrN _ _ _)) (quiet_put _ _ _ _)
    · cases h; exact ⟨_, rfl, rfl, rfl, rfl⟩
  · cases h

theorem ledgerAdd_none {s : State} {role source action target result : Nat} {old new : List Byte} :
    s.ledgerAdd role source action target old new result = none ↔ ledgerDepth ≤ s.gate.queue.length := by
  unfold State.ledgerAdd
  split
  · rename_i l; simp [l]
  · rename_i l; simpa using l

/-- A refusal leaves all but the ledger's own registers as they were (R510). -/
theorem ledgerRefusal_quiet (s : State) (role source action target : Nat) (old new : List Byte) :
    s.quiet (s.ledgerRefusal role source action target old new) [GH_LED_HEAD, GH_LED_STAT, GH_LED_DROP] := by
  unfold State.ledgerRefusal
  split
  · exact ⟨fun _ => rfl, ⟨rfl, rfl, rfl⟩, fun _ _ _ => rfl⟩
  · split
    · rename_i h; exact quiet_mono (ledgerAdd_some h).2.1 (by simp)
    · exact quiet_mono (quiet_bump _ _ _ _) (by simp)

theorem ledgerDone_quiet (s : State) (role source action target : Nat) (old new : List Byte) :
    s.quiet (s.ledgerDone role source action target old new) [GH_LED_HEAD, GH_LED_STAT, GH_LED_DROP] := by
  unfold State.ledgerDone
  split
  · rename_i h; exact quiet_mono (ledgerAdd_some h).2.1 (by simp)
  · exact quiet_mono (quiet_bump _ _ _ _) (by simp)

end Sys2Proof.Machine
end

