-- ==== Sys2Proof/Tests/Slice0.lean ====
section
/-!
SUPPORT. Tests: the check of well-formedness refuses an ill-formed operand of each kind, the spec's worked examples come out as the spec
prints them, and for every obligation with hypotheses, and each of its clauses, a state and operands meet them together
(meets_<obligation>_<clause>).
-/

namespace Sys2Proof.Tests

set_option Elab.async false

open Sys2Proof.Machine

/-! ### States that the tests run on -/

/-- A hub in LIT with a loaded image. -/
def lit : State :=
  { State.reset with
    dtime := 1000000000
    power := { Power.reset with state := .lit, porst := false, hold := false, startup := false, faultWas := true, pwrEn := true, pwrGood := true }
    boot := { Boot.reset with phase := .loaded, applied := true, firstDone := true } }

/-- LIT, with host port 0 up and a grant of WRITE for it on every instance of a class. -/
def host (cls : Nat) : State :=
  let s := ((lit.put (HP_LINK 0) HP_LINK_UP 1).put (HP_LINK 0) HP_LINK_BME 1).setPortAt 0 { Port.reset with mse := true }
  { s with locket := { s.locket with grants := [⟨0, cls, 0, 256, true, true, true⟩] } }

/-- One DDR5 rank on two sub-channels in service. -/
def dram (s : State) : State :=
  { s.put DR_STAT DR_STAT_READY 1 with locket := { s.locket with dram := some ⟨4800, 1, 8, 16, 3, 0⟩ } }

/-- Whether a register write is admitted and leaves what f asks. -/
def passes (s : State) (src : Src) (a v : Nat) (f : State → Word → Bool) : Bool :=
  match s.admits src a v with
  | some x => f x.1 x.2
  | none => false

/-- Whether an outcome is this next state. -/
def isN (o : Host.Outcome State Fault Refusal) (s : State) : Bool :=
  match o with
  | .next t => t == s
  | _ => false

/-! ### Well-formedness refuses an ill-formed operand of each kind -/

/-- A command with every word operand at 2 ^ 32. -/
def wideWords : List Instr :=
  let v := 2 ^ 32
  [.restart 0 .sup v, .parkRequest 0 .sup v, .reseatGo 0 .sup 0 v, .sfCreate 0 0 v, .sfDestroy 0 0 v, .sfRead 0 0 v, .sfDestroyAll 0 0 v,
   .commitDoorbell 0 .sup 0 0 v, .crEnable 0 .sup 0 0 v, .directSeal 0 .sup 0 0 v, .evEnable 0 .sup 0 v, .queueRateWrite 0 .sup 8 v,
   .smSvSig 0 .sup v, .wtFaultClear 0 .sup 0 v, .dmaStart 0 .sup 0 v, .dmaAbort 0 .sup 0 ⟨v, false⟩, .dmaDoorbell 0 .sup 0 v, .blitEnable 0 .sup 0 v,
   .blitDoorbell 0 .sup 0 v, .blitAbort 0 .sup 0 ⟨v, false⟩, .xsRead 0 .sup v, .xsProgram 0 .sup v, .xsErase 0 .sup v, .registerWrite 0 .sup 0 v,
   .sessionChallenge 0 .sup v, .sessionRespond 0 .sup v, .sessionClose 0 .sup v, .ghLockHard 0 .sup v, .ikhProgram 0 .sup v,
   .tokenSubmit 0 .sup v, .tokenEnd 0 .sup v, .cfgCrcGo 0 .sup v]

theorem test_wf_word : (wideWords.all fun c => !c.wf) = true := by decide +kernel
theorem test_wf_time : (Instr.hubReadiness (2 ^ 64)).wf = false := by decide +kernel
theorem test_wf_strap : (Instr.porstNRelease 0 4 false).wf = false := by decide +kernel
theorem test_wf_flash_size : (Instr.pllLock 0 (some 0) none).wf = false ∧ (Instr.pllLock 0 none (some (2 ^ 32))).wf = false := by decide +kernel
theorem test_wf_subs : (Instr.ddr5InService 0 [8] []).wf = false ∧ (Instr.ddr5InService 0 [] [1, 1]).wf = false := by decide +kernel
theorem test_wf_line_errs : (Instr.lineStart 0 0 ⟨0, [3, 3], 0, 0, []⟩).wf = false ∧ (Instr.lineStart 0 0 ⟨0, [], 1, 512, []⟩).wf = false := by
  decide +kernel
theorem test_wf_training : (Instr.linkTrainingDone 0 0 true 256 4 false none false).wf = false ∧
    (Instr.linkTrainingDone 0 0 true 3 5 false none false).wf = false := by decide +kernel
theorem test_wf_bad_blocks : (Instr.fetchDataArrival 0 0 0 [(32, .parity)] []).wf = false := by decide +kernel
theorem test_wf_entries : (Instr.commitEntryRead 0 0 0 .ok [] [65536]).wf = false ∧ (Instr.commitAccept 0 0 0 [2]).wf = false := by decide +kernel
theorem test_wf_host_link : (Instr.hostLinkUp 0 0 0 4).wf = false ∧ (Instr.hostLinkUp 0 0 6 4).wf = false ∧ (Instr.hostLinkUp 0 0 4 3).wf = false := by
  decide +kernel
theorem test_wf_packet : (Instr.policerPacket 0 0 true 0 4 8 []).wf = false ∧ (Instr.policerPacket 0 0 true 0 0 0 []).wf = false ∧
    (Instr.policerPacket 0 0 true 0 4 0 [1]).wf = false ∧ (Instr.policerPacket 0 0 false 0 2 0 [1]).wf = false ∧
    (Instr.policerPacket 0 0 false 0 0 0 []).wf = false ∧ (Instr.policerPacket 0 0 false 0 513 0 (List.replicate 513 0)).wf = false := by decide +kernel
theorem test_wf_request : (Instr.queueRequest 0 8 ⟨0, true⟩).wf = false := by decide +kernel
theorem test_wf_hpa : (Instr.dramRead 0 (2 ^ 39) ⟨.deadline, .plain⟩ 0).wf = false ∧ (Instr.dramWrite 0 (2 ^ 39) [1] .deadline 0).wf = false ∧
    (Instr.patrolScrub 0 (2 ^ 39) [] []).wf = false := by decide +kernel
theorem test_wf_write_block : (Instr.dramWrite 0 0 [] .deadline 0).wf = false ∧ (Instr.dramWrite 0 63 [1, 2] .deadline 0).wf = false := by decide +kernel
theorem test_wf_beat : ([⟨16, 0, 0, 0⟩, ⟨0, 2 ^ 32, 0, 0⟩, ⟨0, 0, 256, 0⟩, ⟨0, 0, 0, 2 ^ 40⟩] : List BeatErr).all
    (fun e => !(Instr.dramReadReturn 0 0 0 [e] []).wf && !(Instr.dramReadReturn 0 0 0 [] [e]).wf && !(Instr.patrolScrub 0 0 [e] []).wf &&
      !(Instr.patrolScrub 0 0 [] [e]).wf) = true := by decide +kernel
theorem test_wf_bank : (Instr.rowIdleClose 0 0 2 0).wf = false ∧ (Instr.rowIdleClose 0 0 0 32).wf = false := by decide +kernel
theorem test_wf_mr4 : (Instr.mr4Poll 0 0 [1, 1, 1]).wf = false ∧ (Instr.mr4Poll 0 0 [8]).wf = false := by decide +kernel
theorem test_wf_temp : (Instr.tempCrossing 0 0 (-129)).wf = false ∧ (Instr.tempCrossing 0 0 128).wf = false := by decide +kernel
theorem test_wf_ingest : (Instr.ingestFrameStart 0 0 65536).wf = false ∧ (Instr.ingestLongPacket 0 0 64 [] true).wf = false ∧
    (Instr.ingestLinkUp 0 0 8).wf = false := by decide +kernel
theorem test_wf_payload : (Instr.ingestLongPacket 0 0 30 (List.replicate 65536 0) true).wf = false := by
  have e : ∀ d : List Byte, d.length = 65536 → (Instr.ingestLongPacket 0 0 30 d true).wf = false := by
    intro d h
    simp only [Instr.wf, Instr.operandsOk, h]
    rfl
  exact e _ List.length_replicate
theorem test_wf_can_id : (Instr.canFrameEnd 0 0 ⟨2 ^ 11, false, false, false, []⟩).wf = false ∧
    (Instr.canFrameEnd 0 0 ⟨2 ^ 29, true, false, false, []⟩).wf = false := by decide +kernel
theorem test_wf_can_data : (Instr.canFrameEnd 0 0 ⟨1, false, false, false, List.replicate 9 0⟩).wf = false ∧
    (Instr.canFrameEnd 0 0 ⟨1, false, true, false, List.replicate 9 0⟩).wf = false ∧
    (Instr.canFrameEnd 0 0 ⟨1, false, true, true, []⟩).wf = false ∧ (Instr.canFrameEnd 0 0 ⟨1, false, false, true, [1]⟩).wf = false := by decide +kernel
theorem test_wf_sink : (Instr.sinkCrcRead 0 0 none 16).wf = false ∧ (Instr.sinkCrcRead 0 0 (some [65536]) 0).wf = false := by decide +kernel
theorem test_wf_frame : (Instr.svNop 0 [1] 16).wf = false ∧ (Instr.svRead 0 [1] 7 true).wf = false ∧ (Instr.svWrite 0 [] 8).wf = false := by decide +kernel
theorem test_wf_address : (Instr.registerWrite 0 .sup (2 ^ 26) 0).wf = false ∧ (Instr.peakRead 0 .sup (2 ^ 26)).wf = false ∧
    (Instr.postedWriteLands 0 (2 ^ 26)).wf = false := by decide +kernel
theorem test_wf_island : (Instr.islandFaultDetected 0 0 256 false).wf = false ∧ (Instr.promenadeFlitReject 0 ⟨0, 0⟩ true 256).wf = false := by decide +kernel
theorem test_wf_configuration : ([.read 4096, .bar 1 0, .bar 0 (2 ^ 64), .barSize 64] : List CfgReq).all
    (fun r => !(Instr.configurationRequest 0 0 r).wf) = true := by decide +kernel

/-! ### The spec's own worked examples and check values -/

/-- A layer of w by h pixels that fills its destination. -/
def fullLayer (w h f pitch : Nat) : LayerCfg :=
  { LayerCfg.ofWords 0 (List.replicate 16 0) { SurfEntry.unused with width := w, height := h, format := f, pitch := pitch, auxPitch := pitch, valid := true } [] with
    en := true, sw := w, sh := h, dw := w, dh := h }

def c8Tl1 : TlTiming := ⟨true, 4000, 3840, 1500, 1440, 360000, false, false, 1440, 16⟩
def c8Dram : DramCfg := ⟨6400, 2, 16, 16, 0xFF⟩

/-- Queue 16 of the Carousel's example at 1,000,000. -/
def queue16 : State :=
  let s := { lit with dtime := 1000000, regs := [] }
  let s := (s.wr (CA_Q_CONTRACT 16) 2000000).wr (CA_Q_RATE 16) 2000000
  let s := (((s.put (CA_Q_CTRL 16) CA_Q_CTRL_EN 1).put (CA_Q_CTRL 16) CA_Q_CTRL_EXCESS 1).put (CA_Q_LIM 16) CA_Q_LIM_BURST 4096).put (CA_Q_LIM 16) CA_Q_LIM_DEBT_MAX 320
  s.setShqAt 16 { ShapeQ.reset with d := 20480000000, t0 := 1000000 }

def then_ (o : Host.Outcome State Fault Refusal) (f : State → Host.Outcome State Fault Refusal) : Host.Outcome State Fault Refusal :=
  match o with
  | .next t => f t
  | x => x

def digits : List Byte := [0x31, 0x32, 0x33, 0x34, 0x35, 0x36, 0x37, 0x38, 0x39]

/-- R74's check value. -/
theorem test_crc32c : crc32c digits = 0xE3069283 := by decide +kernel
/-- R172's check value. -/
theorem test_tile_crc : crcN 16 0x1021 0xFFFF 0 digits = 0x29B1 := by decide +kernel
/-- R328's check value. -/
theorem test_crc8 : crc8 digits = 0x4B := by decide +kernel
/-- Chapter 7, the pixel on TL0: expansion, alpha and blend. -/
theorem test_pixel_tl0 : wordPx 1 0x80E04010 = ⟨2056, 3598, 1028, 257⟩ ∧ alphaPx false 0 3072 ⟨2056, 3598, 1028, 257⟩ = ⟨1542, 1355, 387, 97⟩ ∧
    blendPx false ⟨4095, 0x100, 0x200, 0x300⟩ ⟨1542, 1355, 387, 97⟩ = ⟨4095, 1515, 706, 576⟩ := by decide +kernel
/-- Chapter 7, the same pixel through stages 12 and 13, with and without LEGACY_ARITH. -/
theorem test_dither_tl0 : ditherVal false 2 8 1000002 37 101 1403 = 0x58 ∧ ditherVal false 2 8 1000002 37 101 706 = 0x2C ∧
    ditherVal false 2 8 1000002 37 101 576 = 0x24 ∧ ditherVal true 2 8 1000002 37 101 1401 = 0x57 := by decide +kernel
/-- Chapter 7, the scaled pixel on TL1. -/
theorem test_pixel_tl1 : passPos 960 1920 5 = (2, 16) ∧
    hscale CoefBank.default 960 1920 (fun i => if i = 2 then wordPx 1 0xC0603090 else wordPx 1 0x40201038) 5 = ⟨2570, 1285, 643, 1960⟩ ∧
    alphaPx false 1 2048 ⟨2570, 1285, 643, 1960⟩ = ⟨1285, 643, 322, 980⟩ ∧
    blendPx false ⟨4095, 2000, 1000, 3000⟩ ⟨1285, 643, 322, 980⟩ = ⟨4095, 2015, 1008, 3039⟩ ∧
    finishPx false none none 1 8 7 200 5 ⟨4095, 2015, 1008, 3039⟩ = ⟨0, 0x7E, 0x3F, 0xBE⟩ := by decide +kernel
/-- Chapter 6, tile 2 (DELTA) and tile 3 (PAL2). -/
theorem test_delta_tile : (match decodeBody 0x20 (TileHdr.ofNat 0x200300000010) ([0, 0, 0x80, 0x20, 0x40, 0x30, 0xFF, 0, 0x76] ++ zeros 39) with
    | .inr l => l.take 2
    | .inl _ => []) = [0xFF458200, 0xFF408300] := by decide +kernel
theorem test_pal2_tile : (match decodeBody 0x20 (TileHdr.ofNat 0x300200000013)
      (leBytes 4 0 ++ leBytes 4 0xFFFFFFFF ++ leBytes 4 0xFFFFC000 ++ leBytes 4 0x80FFC000 ++ [0x90, 0x06] ++ zeros 14) with
    | .inr l => l.take 8
    | .inl _ => []) = [0, 0, 0xFFFFFFFF, 0xFFFFC000, 0xFFFFC000, 0xFFFFFFFF, 0, 0] := by decide +kernel
/-- Chapter 8, the admission of C8; TLRATE over a frame cut to 20 lines, which leaves the largest window as it is. -/
theorem test_admission : c8Dram.svc = 179649122 ∧ cdiv (c8Dram.svc * c8Dram.trfc) 1950 = 5527666 ∧ cdiv (c8Dram.svc * 4 * c8Dram.trfc) 118518 = 363792 ∧
    tlRate { c8Tl1 with vtotal := 20 } [] (List.replicate 16 19360) false = 1742400 ∧ flatRate c8Tl1 = 2116800 ∧
    flatRate ⟨true, 1400, 1280, 840, 800, 70560, true, false, 800, 16⟩ = 395932 ∧ tBlend 2560 3840 = 1383 := by decide +kernel
/-- Chapter 4, what the links carry, in kb/s times the denominator. -/
theorem test_payload : payloadOf 0 1 2 = (3849120 * 1000, 1000) ∧ payloadOf 0 1 3 = (4276800 * 1000, 1000) ∧ payloadOf 0 2 8 = (38400000 * 13200, 13200) := by
  decide +kernel
/-- Chapter 10, the speed signal and its digits. -/
theorem test_signal : sigValue ⟨3, false, false, 16, 16, 16, 655, 0, 0, 400⟩ (intelField [0, 7, 0x3D, 0x22] 16 16) = 88 ∧
    digitFrames 3 false false 88 = [10, 8, 8] ∧ packCodes [10, 8, 8] = 0x88A := by decide +kernel
/-- Chapter 14, where HPA 0x12345000 lies; bank group 0 and bank 3 are bank index 12. -/
theorem test_dram_address : lit.dramLoc ⟨6400, 2, 16, 16, 0xFF, 0⟩ 0x12345000 = ⟨7, 12, 0, 291, 0⟩ := by decide +kernel
/-- Chapter 16, the place of a ledger entry. -/
theorem test_ledger_place : ledgerAt 5001 = 0x3F9C480 := by decide +kernel
/-- Chapter 17, what TL_BL and a slot's LY_CTRL contribute to the configuration CRC. -/
theorem test_cfg_words : (rowAt (TL_BL 0)).map (fun r => (lit.wr (TL_BL 0) 0x00C88000).structWord (TL_BL 0) r) = some 0x00C80000 ∧
    (rowAt (LY_CTRL 1)).map (fun r => (lit.wr (activeOf (LY_CTRL 1)) 3).structWord (LY_CTRL 1) r) = some 2 := by decide +kernel
/-- Chapter 13, the queue's wait, its new rate, its pause and its release. -/
theorem test_carousel : (match then_ (then_ (then_ (then_ (exec (.queueRequest 1000000 16 ⟨4096, true⟩) queue16) (exec (.queueRateWrite 1002000 .sup 16 500000)))
      (exec (.queueRateWrite 1010000 .sup 16 0))) (exec (.queueRateWrite 1100000 .sup 16 2000000))) (exec (.queueRequest 1100000 16 ⟨4096, true⟩)) with
    | .next t => ((t.shqAt 16).elig, (t.shqAt 16).d)
    | _ => (none, 0)) = (some 1106240, 16576000000) := by decide +kernel

/-! ### Hypotheses are met -/

/-- After PORST_N. -/
def parked : State := { lit with power := { lit.power with state := .parked, pwrEn := false, pwrGood := false, hold := true } }

theorem meets_StepRunsTheFrontCommand_front :
    ({ lit with pending := [.canBusJoin 5 0, .svHbEdge 6] } : State).pending = .canBusJoin 5 0 :: [.svHbEdge 6] := by decide +kernel

theorem meets_StepRunsTheFrontCommand_idle :
    lit.pending = [] := by decide +kernel

theorem meets_PowerPinsComplete_release :
    3 < 4 ∧ State.reset.power.porst = true := by decide +kernel

theorem meets_PowerPinsComplete_assert :
    1000 < 1001 := by decide +kernel

theorem meets_PowerPinsComplete_loss :
    lit.supplied = true ∧ lit.power.pwrGood = true ∧ 1000 < 1001 := by decide +kernel

theorem meets_PowerPinsComplete_restart :
    ({ lit with power := { lit.power with lostAt := some 990000000 } } : State).power.lostAt = some 990000000 ∧ 990000000 + 10000000 ≤ max lit.dtime 5 := by decide +kernel

theorem meets_PowerPinsComplete_fall :
    ({ lit with power := { lit.power with pwrEn := false } } : State).power.pwrEn = false ∧ lit.power.pwrGood = true := by decide +kernel

theorem meets_WakeAndWarmResetComplete_pin :
    4 ≤ 4 ∧ parked.power.state = .parked := by decide +kernel

theorem meets_PowerPinsComplete_release_scope :
    ({ State.reset with gate := { State.reset.gate with scope := 1 } } : State).gate.scope ≠ 0 := by decide +kernel

theorem meets_WakeAndWarmResetComplete_pin_parking :
    ({ lit with park := { Park.reset with step := 6 } } : State).park.step ≠ 0 ∧ lit.power.state = .lit ∧ lit.undo = none ∧ Park.reset.held = none := by decide +kernel

theorem meets_WakeAndWarmResetComplete_pin_discards :
    (match exec (.parkRequest 5 .sup (1 + 100 * 2 ^ 16)) lit with | .next s => decide (s.park.step ≠ 0 ∧ s.park.held = none ∧ s.power.state = .lit) && (match s.undo with | some u => aonCycle u.at_ == aonCycle (max s.dtime 5) | none => false) | _ => false) = true := by decide +kernel

theorem meets_WakeAndWarmResetComplete_line :
    10000 ≤ 10000 ∧ parked.power.state = .parked := by decide +kernel

theorem meets_WakeAndWarmResetComplete_warm_parked :
    1000 < 1001 ∧ parked.power.warm = false ∧ parked.power.state = .parked := by decide +kernel

theorem meets_WakeAndWarmResetComplete_warm_lit :
    1000 < 1001 ∧ lit.power.warm = false ∧ lit.power.state = .lit := by decide +kernel

theorem meets_WakeAndWarmResetComplete_warm_waking :
    ({ lit with power := { lit.power with state := .waking } } : State).power.state = .waking ∧ lit.power.warm = false ∧ 1000 < 1001 := by decide +kernel

theorem meets_WakeAndWarmResetComplete_warm_release :
    ({ lit with power := { lit.power with warm := true } } : State).power.warm = true ∧ lit.boot.recover = false := by decide +kernel

theorem meets_WakeAndWarmResetComplete_warm_recover_bad :
    (let s : State := { lit with power := { lit.power with warm := true }, boot := { lit.boot with recover := true } }
    let x : State := { s.tick 5 with power := { s.power with warm := false } }
    s.boot.recover && s.power.warm && x.runningFail.isSome) = true := by decide +kernel

def waking (p : BootPhase) : State :=
  { lit with power := { lit.power with state := .waking }, boot := { Boot.reset with phase := p, devs := [0] } }

theorem meets_SlotSearchCompletes_lock :
    (waking .pll).boot.phase = .pll ∧ (waking .pll).power.warm = false ∧ (waking .pll).power.pwrEn = true ∧ (waking .pll).power.bootsel < 3 ∧ 0x4000000 ≤ 0x4000000 := by decide +kernel

theorem meets_SlotSearchCompletes_lock_excluded :
    ({ waking .pll with power := { lit.power with bootsel := 3 } } : State).power.bootsel = 3 ∧ (waking .pll).boot.phase = .pll := by decide +kernel

theorem meets_SlotSearchCompletes_retry :
    (waking .retry).boot.phase = .retry ∧ (waking .retry).power.bootsel < 3 ∧ (waking .retry).boot.devs.contains 0 = true ∧ (waking .retry).boot.waitFrom + 100000000 ≤ max lit.dtime 5 := by decide +kernel

theorem meets_SlotSearchCompletes_restart :
    passes ((waking .noImage).tick 5) .sup SY_BOOT_CTRL 1 (fun u w => getField w SY_BOOT_CTRL_RESTART == 1 && u.boot.phase == .noImage && decide (u.power.bootsel < 3) && u.boot.devs.contains 0) = true := by decide +kernel

theorem meets_SlotSearchCompletes_read_fail :
    (waking .header).boot.phase = .header ∧ (waking .header).boot.todo = [] ∧ (waking .header).boot.repeat_ = false ∧ (waking .header).boot.slot < 4 := by decide +kernel

theorem meets_ImageReadingCompletes_header_bad :
    (waking .header).boot.phase = .header ∧ hdrFail false ((waking .header).locketHdr 0) = some ⟨3, 2, 16, 0⟩ ∧ (waking .header).boot.todo = [] := by decide +kernel

theorem meets_SlotSearchCompletes_restart_parking :
    passes (({ waking .noImage with park := { Park.reset with step := 4 } } : State).tick 5) .sup SY_BOOT_CTRL 1 (fun u w => getField w SY_BOOT_CTRL_RESTART == 1 && u.boot.phase == .noImage && u.park.step != 0) = true := by decide +kernel

/-- An image with DDR5 whose ASSET section is empty. -/
def asset : Asset := ⟨0x100000, 0x2000, 1, crc32c [0xFF], sha256 [0xFF]⟩

def assetCopying (a : Asset) : State :=
  let s := (dram lit).put SY_BOOT_STAT SY_BOOT_STAT_READY 1
  { s with boot := { s.boot with assetTry := 1 }, locket := { s.locket with asset := some a } }

def parking (n : Nat) : State := { dram lit with park := { Park.reset with step := n } }

theorem meets_BringUpCompletes_service :
    ({ dram lit with regs := [] } : State).locket.dram = some ⟨4800, 1, 8, 16, 3, 0⟩ ∧ lit.boot.applied = true ∧ lit.power.warm = false ∧ ({ dram lit with regs := [] } : State).dramReady = false := by decide +kernel

theorem meets_BringUpCompletes_ready :
    (dram lit).readyMay = true := by decide +kernel

theorem meets_BringUpCompletes_copy :
    (assetCopying asset).locket.asset = some asset ∧ (assetCopying asset).boot.assetTry ≠ 0 ∧ (assetCopying asset).dramReady = true ∧ (assetCopying asset).ready = true ∧ crc32c ((assetCopying asset).slotBytes 0 asset.off asset.len) = asset.crc ∧ sha256 ((assetCopying asset).slotBytes 0 asset.off asset.len) = asset.digest := by decide +kernel

theorem meets_BringUpCompletes_copy_fails :
    (assetCopying { asset with crc := 0 }).boot.assetTry = 1 ∧ (assetCopying { asset with crc := 0 }).dramReady = true ∧ (assetCopying { asset with crc := 0 }).ready = true ∧ crc32c ((assetCopying asset).slotBytes 0 asset.off asset.len) ≠ 0 := by decide +kernel

theorem meets_ParkingCompletes_request :
    passes (lit.tick 5) .sup SY_PARK_CTRL (1 + 100 * 2 ^ 16) (fun u w => getField w SY_PARK_CTRL_REQ == 1 && !u.wokeNow && !u.warmNow && u.power.state == .lit && u.park.step == 0) = true := by decide +kernel

theorem meets_ParkingCompletes_request_after_wake :
    passes (({ lit with park := { Park.reset with wakeAt := some 1000000000 } } : State).tick 5) .sup SY_PARK_CTRL (1 + 100 * 2 ^ 16) (fun u w => getField w SY_PARK_CTRL_REQ == 1 && u.wokeNow) = true := by decide +kernel

theorem meets_ParkingCompletes_request_waking :
    passes ((waking .loaded).tick 5) .sup SY_PARK_CTRL (1 + 100 * 2 ^ 16) (fun u w => getField w SY_PARK_CTRL_REQ == 1 && !u.wokeNow && !u.warmNow && u.power.state == .waking && u.boot.phase != .noImage && u.park.held == none) = true := by decide +kernel

theorem meets_ParkingCompletes_drained :
    (parking 2).park.step = 2 ∧ (parking 2).drained = true := by decide +kernel

theorem meets_ParkingCompletes_expiry :
    (parking 2).park.step = 2 ∧ (parking 2).park.drainEnd ≤ max lit.dtime 5 := by decide +kernel

theorem meets_ParkingCompletes_panels_down :
    (parking 4).park.step = 4 ∧ (parking 4).panelsOff = true := by decide +kernel

theorem meets_ParkingCompletes_snapshot :
    (parking 5).park.step = 5 := by decide +kernel

theorem meets_ParkingCompletes_self_refresh :
    (parking 6).park.step = 6 ∧ (parking 6).park.wake = false := by decide +kernel

theorem meets_ParkingCompletes_self_refresh_wake :
    ({ lit with park := { Park.reset with step := 6, wake := true } } : State).park.wake = true := by decide +kernel

theorem meets_ParkingCompletes_request_no_image :
    passes ((waking .noImage).tick 5) .sup SY_PARK_CTRL (1 + 100 * 2 ^ 16) (fun u w => getField w SY_PARK_CTRL_REQ == 1 && !u.wokeNow && !u.warmNow && u.power.state == .waking && u.boot.phase == .noImage && u.park.step == 0) = true := by decide +kernel

theorem meets_ParkingCompletes_request_after_reset :
    passes (({ lit with power := { lit.power with warmAt := some 1000000000 } } : State).tick 5) .sup SY_PARK_CTRL (1 + 100 * 2 ^ 16) (fun u w => getField w SY_PARK_CTRL_REQ == 1 && u.warmNow) = true := by decide +kernel

def panelIn (p : PanelPhase) : State := lit.setScanAt 15 { Scan.reset with panel := { Panel.reset with phase := p, lowAt := some 0, since := 0 } }

theorem meets_PanelSequenceCompletes_poff :
    (panelIn .waitPoff).pixelUp 15 = true ∧ ((panelIn .waitPoff).scanAt 15).panel.phase = .waitPoff ∧ ((panelIn .waitPoff).tick 5).poffOver 15 = true := by decide +kernel

theorem meets_PanelSequenceCompletes_pon :
    (panelIn .ponWait).pixelUp 15 = true ∧ ((panelIn .ponWait).scanAt 15).panel.phase = .ponWait ∧ ((panelIn .ponWait).scanAt 15).panel.since + (panelIn .ponWait).get (TL_PSEQ 15) TL_PSEQ_T_PON * 1000000 ≤ max lit.dtime 5 := by decide +kernel

theorem meets_PanelSequenceCompletes_blon :
    (panelIn .blWait).pixelUp 15 = true ∧ ((panelIn .blWait).scanAt 15).panel.phase = .blWait ∧ ((panelIn .blWait).scanAt 15).panel.since + (panelIn .blWait).get (TL_PSEQ 15) TL_PSEQ_T_BLON * 1000000 ≤ max lit.dtime 5 := by decide +kernel

theorem meets_PanelSequenceCompletes_pwm :
    (panelIn .lit).pixelUp 15 = true ∧ ((panelIn .lit).scanAt 15).panel.phase = .lit ∧ ((panelIn .lit).tick 5).pwmOver 15 = true := by decide +kernel

theorem meets_PanelSequenceCompletes_pwm_end :
    (panelIn .pwmEnd).pixelUp 15 = true ∧ ((panelIn .pwmEnd).scanAt 15).panel.phase = .pwmEnd ∧ ((panelIn .pwmEnd).tick 5).pwmOver 15 = true := by decide +kernel

theorem meets_PanelSequenceCompletes_bloff :
    (panelIn .blOff).pixelUp 15 = true ∧ ((panelIn .blOff).scanAt 15).panel.phase = .blOff ∧ ((panelIn .blOff).scanAt 15).panel.since + (panelIn .blOff).get (TL_PSEQ 15) TL_PSEQ_T_BLOFF * 1000000 ≤ max lit.dtime 5 := by decide +kernel

theorem meets_PanelSequenceCompletes_voff :
    (panelIn .vOff).pixelUp 15 = true ∧ ((panelIn .vOff).scanAt 15).panel.phase = .vOff ∧ ((panelIn .vOff).scanAt 15).panel.since + (panelIn .vOff).get (TL_PSEQ 15) TL_PSEQ_T_VOFF * 1000000 ≤ max lit.dtime 5 := by decide +kernel

theorem meets_PanelSequenceCompletes_voff_again :
    ((lit.setScanAt 15 { Scan.reset with panel := { Panel.reset with phase := .vOff, upAfter := true } }).scanAt 15).panel.phase = .vOff := by decide +kernel

/-- Timeline 0 enabled on link 0, in SST mode, its panel past Up 2. -/
def linked : State :=
  let s := (lit.put (TL_CTRL 0) TL_CTRL_EN 1).put (TL_OUT 0) TL_OUT_MODE 1
  ((s.put (OL_LINK 0) OL_LINK_PROTO 1).put (OL_LINK 0) OL_LINK_LANES 4).setScanAt 0 { Scan.reset with panel := { Panel.reset with phase := .ready } }

def linkUp : State := linked.put (OL_LSTAT 0) OL_LSTAT_UP 1
def linkUpAphy : State := linkUp.put (OL_LINK 0) OL_LINK_PROTO 3
def trainingLink : State := (linked.put (OL_LINK 0) OL_LINK_MAXRATE 3).setLinkAt 0 { OutLink.reset with sink := true, training := true }

theorem meets_OutputLinksComplete_sink :
    linked.quadUp 0 = true ∧ (linked.linkAt 0).sink = false ∧ ((linked.usersOf 0).any fun t => (linked.scanAt t).panel.honours) = true := by decide +kernel

theorem meets_OutputLinksComplete_hpd_loss :
    linkUp.linkIsUp 0 = true ∧ linkUp.isAphy 0 = false ∧ 2000000 < 2000001 := by decide +kernel

theorem meets_OutputLinksComplete_irq :
    linkUp.linkIsUp 0 = true ∧ linkUp.isAphy 0 = false := by decide +kernel

theorem meets_OutputLinksComplete_aphy :
    linkUpAphy.linkIsUp 0 = true ∧ linkUpAphy.isAphy 0 = true := by decide +kernel

theorem meets_OutputLinksComplete_trained :
    trainingLink.quadUp 0 = true ∧ (trainingLink.linkAt 0).training = true ∧ carriesBy trainingLink.rd 0 (min 9 (trainingLink.get (OL_LINK 0) OL_LINK_MAXRATE)) (min 9 (trainingLink.get (OL_LINK 0) OL_LINK_LANES)) = true := by decide +kernel

theorem meets_OutputLinksComplete_not_trained :
    trainingLink.quadUp 0 = true ∧ (trainingLink.linkAt 0).training = true := by decide +kernel

theorem meets_OutputLinksComplete_retry :
    ((linked.setLinkAt 0 { OutLink.reset with retryAt := some 1000000000 }).tick 5).retryDue 0 = true := by decide +kernel

/-- Timeline 15 enabled after hub readiness, 8 × 4 pixels in 12 × 6, at 1 MHz. -/
def armed : State :=
  let s := (lit.put SY_BOOT_STAT SY_BOOT_STAT_READY 1).put (TL_CTRL 15) TL_CTRL_EN 1
  let s := (s.put (TL_HTIME 15) TL_HTIME_HTOTAL 12).put (TL_HTIME 15) TL_HTIME_HACTIVE 8
  let s := (s.put (TL_VTIME 15) TL_VTIME_VTOTAL 6).put (TL_VTIME 15) TL_VTIME_VACTIVE 4
  s.put (TL_PCLK 15) TL_PCLK_KHZ 1000

/-- Timeline 15 enabled after hub readiness, within the limits of R98. -/
def seated : State :=
  let s := (lit.put SY_BOOT_STAT SY_BOOT_STAT_READY 1).put (TL_CTRL 15) TL_CTRL_EN 1
  let s := (s.put (TL_HTIME 15) TL_HTIME_HTOTAL 96).put (TL_HTIME 15) TL_HTIME_HACTIVE 64
  let s := (s.put (TL_VTIME 15) TL_VTIME_VTOTAL 18).put (TL_VTIME 15) TL_VTIME_VACTIVE 16
  let s := (s.put (TL_HSYNC 15) TL_HSYNC_START 64).put (TL_HSYNC 15) TL_HSYNC_WIDTH 8
  let s := (s.put (TL_VSYNC 15) TL_VSYNC_START 16).put (TL_VSYNC 15) TL_VSYNC_WIDTH 1
  s.put (TL_PCLK 15) TL_PCLK_KHZ 25000

/-- The timeline of `armed` scanning line p. -/
def scanning (p : Nat) : State := (armed.put (TL_POS 15) TL_POS_LINE p).setScanAt 15 { Scan.reset with started := true }

def sealedScan : State := (scanning 4).setSealed 15 true

def handing : State := armed.setTlcAt 15 { TlCommits.reset with handover := some ⟨[3], 7, false, false, false⟩ }

theorem meets_TimelineScanCompletes_first_line :
    (seated.tick 5).lineDue 15 = true ∧ (seated.scanAt 15).started = false := by decide +kernel

theorem meets_TimelineScanCompletes_next_line :
    (({ scanning 4 with scan := [(15, { Scan.reset with started := true, latched := true })] } : State).tick 5).lineDue 15 = true ∧ (scanning 4).pos 15 + 1 < (scanning 4).frameLines 15 ∧ (scanning 4).pos 15 + 1 < 32768 ∧ ((scanning 4).timing 15).adaptive = false := by decide +kernel

theorem meets_TimelineScanCompletes_next_frame :
    (({ scanning 5 with scan := [(15, { Scan.reset with started := true, latched := true })] } : State).tick 5).lineDue 15 = true ∧ (scanning 5).frameLines 15 ≤ (scanning 5).pos 15 + 1 ∧ ((scanning 5).timing 15).adaptive = false ∧ ((scanning 5).scanAt 15).reseat = none := by decide +kernel

theorem meets_TimelineScanCompletes_latch :
    (sealedScan.tick 5).latchDue 15 = true ∧ sealedScan.sealed 15 = true ∧ sealedScan.pavUp 15 = true ∧ (sealedScan.tlcAt 15).undo = none ∧ (sealedScan.tick 5).presetDue 15 (max sealedScan.dtime 5 - 256) = none := by decide +kernel

theorem meets_TimelineScanCompletes_handover :
    (handing.tlcAt 15).handover = some ⟨[3], 7, false, false, false⟩ := by decide +kernel

theorem meets_TimelineScanCompletes_compose :
    ((scanning 0).tick 5).compDue 15 ((scanning 0).compAt 15).1 ((scanning 0).compAt 15).2 = true ∧ ((scanning 0).tick 5).lineReady 15 ((scanning 0).compAt 15).1 ((scanning 0).compAt 15).2 = true := by decide +kernel

theorem meets_TimelineScanCompletes_latch_same_clock :
    ((sealedScan.setTlcAt 15 { TlCommits.reset with sealAt := 7, undo := some ⟨false, ⟨0, 0, []⟩, none, ⟨0, 0, []⟩⟩ }).tick 5).latchDue 15 = true := by decide +kernel

theorem meets_TimelineScanCompletes_compose_redo :
    (((scanning 0).setScanAt 15 { Scan.reset with started := true, redo := [0, 1] }).tick 5).compDue 15 (((scanning 0).setScanAt 15 { Scan.reset with started := true, redo := [0, 1] }).compAt 15).1 (((scanning 0).setScanAt 15 { Scan.reset with started := true, redo := [0, 1] }).compAt 15).2 = true := by decide +kernel

/-- With an installer session that holds every right. -/
def installing (s : State) : State := (s.put GH_SES_STAT GH_SES_STAT_STATE 2).put GH_SES_STAT GH_SES_STAT_RIGHTS 0x7F

def seating (passed : Bool) : State := armed.setScanAt 15 { Scan.reset with started := true, reseat := some ⟨0, [], [], passed, false⟩ }

def seat : Reseat := ⟨0, [], [], false, false⟩

def seating' : State := seated.setScanAt 15 { Scan.reset with started := true, reseat := some seat }

theorem meets_ReseatAndGenlockComplete_go :
    passes ((installing armed).tick 5) .sup (TL_RSEAT 15) (2 ^ TL_RSEAT_GO.lo) (fun u w => getField w TL_RSEAT_GO == 1 && u.tlOn 15 && !u.on (TL_RSEAT 15) TL_RSEAT_BUSY) = true := by decide +kernel

theorem meets_ReseatAndGenlockComplete_go_busy :
    passes ((installing (armed.put (TL_RSEAT 15) TL_RSEAT_BUSY 1)).tick 5) .sup (TL_RSEAT 15) (2 ^ TL_RSEAT_GO.lo) (fun u w => getField w TL_RSEAT_GO == 1 && u.tlOn 15 && u.on (TL_RSEAT 15) TL_RSEAT_BUSY) = true := by decide +kernel

theorem meets_ReseatAndGenlockComplete_check_refused :
    ((seating false).scanAt 15).reseat = some ⟨0, [], [], false, false⟩ ∧ (match ((seating false).tick 5).reseatCheck 15 ⟨0, [], [], false, false⟩ with | .inr x => x.1 | .inl _ => 0) = 2 := by decide +kernel

theorem meets_ReseatAndGenlockComplete_genlock :
    ((((armed.put (TL_CTRL 15) TL_CTRL_GENLOCK 1).put (TL_GENLOCK 15) TL_GENLOCK_LOCKED 1)).tick 5).glSilent 15 = true := by decide +kernel

theorem meets_CaptureAndWatchComplete_acked :
    ((armed.setWbAt 3 { WbPort.reset with await := [⟨15, 3, 9, SurfEntry.unused, 4, false, false⟩] }).wbAt 3).await = ⟨15, 3, 9, SurfEntry.unused, 4, false, false⟩ :: [] := by decide +kernel

theorem meets_CaptureAndWatchComplete_acked_resized :
    ((armed.setWbAt 3 ⟨some ⟨15, 1, 9, SurfEntry.unused, 2, false, false⟩, [⟨15, 3, 9, SurfEntry.unused, 4, false, true⟩], none⟩).wbAt 3).await = ⟨15, 3, 9, SurfEntry.unused, 4, false, true⟩ :: [] := by decide +kernel

theorem meets_ReseatAndGenlockComplete_check_passed :
    ((seating' ).scanAt 15).reseat.isSome = true ∧ (match (seating'.tick 5).reseatCheck 15 seat with | .inl _ => true | .inr _ => false) = true := by decide +kernel

/-- A region of one line on timeline 15, complete. -/
def watching : State :=
  let s := scanning 4
  let s := { s with inUse := [] }
  let s := (s.wrUse (WT_CTRL 15 3) (putField 0 WT_CTRL_EN 1)).wrUse (WT_WH 15 3) (putField (putField 0 WT_WH_W 4) WT_WH_H 1)
  s.setWatchAt (wtKey 15 3) { WatchState.reset with crc := 5, rows := 1 }

/-- An active sink of timeline 15 with one kept frame. -/
def sinking (differ : Nat) : State :=
  (armed.put (WT_SINK_STAT 15) WT_SINK_STAT_ACTIVE 1 |>.put (WT_SINK_CTRL 15) WT_SINK_CTRL_MODE 2).setSinkAt 15 ⟨[], [(4, [1, 2, 3])], 5, differ, 200⟩

theorem meets_CaptureAndWatchComplete_compare :
    (watching.tick 5).watchDue 15 3 = true := by decide +kernel

theorem meets_CaptureAndWatchComplete_sink_equal :
    (sinking 1).sinkDue 15 = true ∧ ((sinking 1).sinkAt 15).records.find? (fun r => r.1 == 20 % 16) = some (4, [1, 2, 3]) ∧ [1, 2, 3] = (4, [1, 2, 3]).2 := by decide +kernel

theorem meets_CaptureAndWatchComplete_sink_differ :
    (sinking 1).sinkDue 15 = true ∧ ((sinking 1).sinkAt 15).records.find? (fun r => r.1 == 4 % 16) = some (4, [1, 2, 3]) ∧ [1, 2, 4] ≠ (4, [1, 2, 3]).2 ∧ 1 ≤ ((sinking 1).sinkAt 15).differ ∧ (sinking 1).get (WT_SINK_CTRL 15) WT_SINK_CTRL_MODE = 2 := by decide +kernel

/-- A surface of 8 × 4 pixels in DDR5. -/
def pic : SurfEntry := { SurfEntry.unused with base := 0x10000000, pitch := 64, width := 8, height := 4, format := 1, valid := true }

/-- Slot 84 enabled on timeline 15, line for line, in both banks; `policy` is its LY_POLICY. -/
def layered (p policy : Nat) : State :=
  let set (s : State) (b : Bool) : State :=
    [(0, 3), (1, 5), (3, 8 + 4 * 65536), (5, 8 + 4 * 65536), (6, 4095 * 65536), (19, policy)].foldl (fun s x => s.wrN (bankAddr 84 x.1 b) x.2)
      (s.setEntAt (bankKey 84 b) pic)
  let s := set (set (scanning p) true) false
  s.setScanAt 15 { Scan.reset with started := true, lineAt := 1000000000, frameAt := 1000000000 }

def row2 : Issued := ⟨.row 2, false, 2, 0, none, pic, some 5⟩
def fetching (i : Issued) : State := (layered 0 0).setFetchAt 84 { SlotFetch.reset with issued := [i] }

/-- Racing channel 2, which writes buffer 1 and has no line acknowledged. -/
def racing : State :=
  let s := (layered 0 (8 + 2 * 16 + 512)).setIgAt 2 { Ingest.reset with cur := some ⟨1, 5, pic, 7, 1000000000, 0, 0, 0, 0, 0, [], 0, 0, none, [], false, false⟩ }
  s.setFetchAt 84 { SlotFetch.reset with race := some ⟨1, true, none, [], []⟩ }

/-- Late by a second. -/
def overdue (s : State) : State := s.tick 2000000000

/-- The run of slot 84 alone, old enough to flatten, on 8 × 8 pixels. -/
def flatState : State :=
  let s := (layered 0 0).put OG_CTRL OG_CTRL_FLAT_EN 1 |>.put OG_CTRL OG_CTRL_FLAT_AGE 1 |>.put OG_POOL OG_POOL_SIZE 1
  s.setScanAt 15 { s.scanAt 15 with bgAge := 9, flatAge := [(84, 9)] }

/-- Eight by eight pixels, and an attempt under way. -/
def flatRunning : State :=
  let s := (flatState.put (TL_VTIME 15) TL_VTIME_VACTIVE 8).put (TL_VTIME 15) TL_VTIME_VTOTAL 12
  s.setScanAt 15 { s.scanAt 15 with flatJob := some ⟨[84], true⟩ }

/-- The layer's surface in the host window of port 0, whose size is 2 ^ `log2` bytes. -/
def wpic : SurfEntry := { pic with base := hwBase 0 }
def windowed (log2 : Nat) : State :=
  let s := (((layered 0 0).put (HP_LINK 0) HP_LINK_UP 1).put (HP_LINK 0) HP_LINK_BME 1).put (HP_HW_SIZE 0) HP_HW_SIZE_LOG2 log2
  (s.setEntAt (bankKey 84 true) wpic).setEntAt (bankKey 84 false) wpic

/-- The racing layer under WHOLE. -/
def whole : State :=
  let s := (layered 0 (8 + 2 * 16)).setIgAt 2 { Ingest.reset with cur := some ⟨1, 5, pic, 7, 1000000000, 0, 0, 0, 0, 0, [], 0, 0, none, [], false, false⟩ }
  s.setFetchAt 84 { SlotFetch.reset with race := some ⟨1, true, none, [], []⟩ }

/-- The pool is full of a surface of timeline 14 that saves more. -/
def crowded : State :=
  flatRunning.setScanAt 14 { flatRunning.scanAt 14 with flat := some ⟨[80], 0, 65536, 0, pic, [], 10 ^ 15, true, none⟩ }

theorem meets_FetchCompletes_issue :
    ((layered 0 0).tick 5).slotUp 84 = true ∧ ((layered 0 0).tick 5).groupToIssue 84 = some (false, 0, .row 0) ∧ (((layered 0 0).tick 5).layer true 84).race = false := by decide +kernel

theorem meets_FetchCompletes_issue_held :
    (racing.tick 5).slotUp 84 = true ∧ (racing.tick 5).groupToIssue 84 = some (false, 0, .row 0) ∧ ((racing.tick 5).layer true 84).race = true ∧ (racing.fetchAt 84).raceFor false = some ⟨1, true, none, [], []⟩ ∧ (racing.tick 5).raceHeld ((racing.tick 5).layer true 84) ⟨1, true, none, [], []⟩ (.row 0) = true := by decide +kernel

theorem meets_FetchCompletes_arrival :
    ((fetching row2).tick 5).slotUp 84 = true ∧ ((fetching row2).fetchAt 84).issued[0]? = some row2 ∧ ((fetching row2).tick 5).dtime ≤ ((fetching row2).tick 5).blendEntry 15 false 2 ∧ (fetching row2).poison = [] := by decide +kernel

theorem meets_FetchCompletes_arrival_late :
    ((overdue (fetching row2)).tick 5).slotUp 84 = true ∧ ((fetching row2).fetchAt 84).issued[0]? = some row2 ∧ ((overdue (fetching row2)).tick 5).blendEntry 15 false 2 < ((overdue (fetching row2)).tick 5).dtime := by decide +kernel

theorem meets_FetchCompletes_deadline_none :
    (((layered 0 0).setScanAt 15 Scan.reset).tick 5).slotUp 84 = true ∧ (((layered 0 0).setScanAt 15 Scan.reset).tick 5).missed 84 false = [] ∧ (((layered 0 0).setScanAt 15 Scan.reset).tick 5).missed 84 true = [] := by decide +kernel

theorem meets_FetchCompletes_deadline :
    ((overdue (layered 0 0)).tick 5).slotUp 84 = true ∧ ((overdue (layered 0 0)).tick 5).missed 84 false ≠ [] := by decide +kernel

theorem meets_FetchCompletes_tide :
    ((overdue racing).tick 5).slotUp 84 = true ∧ ((overdue racing).tick 5).groupToIssue 84 = some (false, 0, .row 0) ∧ ((overdue racing).fetchAt 84).raceFor false = some ⟨1, true, none, [], []⟩ ∧ (((overdue racing).tick 5).layer true 84).race = true ∧ (((overdue racing).tick 5).layer true 84).tide = true ∧ ((overdue racing).tick 5).raceHeld (((overdue racing).tick 5).layer true 84) ⟨1, true, none, [], []⟩ (.row 0) = true ∧ ((overdue racing).tick 5).blendEntry 15 false 0 ≤ ((overdue racing).tick 5).dtime + ((overdue racing).tick 5).latNs + ((overdue racing).tick 5).urgentNs := by decide +kernel

theorem meets_FlatteningCompletes_start :
    (flatState.tick 5).flatEligible 15 = true := by decide +kernel

theorem meets_FlatteningCompletes_complete :
    (flatRunning.scanAt 15).flatJob = some ⟨[84], true⟩ ∧ flatRunning.pavUp 15 = true ∧ flatRunning.islUp islCarousel = true ∧ (match (flatRunning.tick 5).flatPacked 15 [84] with | some p => p.bandsOk (flatRunning.hactive 15) && (flatRunning.poolFind (flatRunning.flatRuns.map (·.2)) p.size).isSome | none => false) = true := by decide +kernel

theorem meets_FlatteningCompletes_complete_lost :
    (flatRunning.scanAt 15).flatJob = some ⟨[84], true⟩ ∧ flatRunning.pavUp 15 = true ∧ flatRunning.islUp islCarousel = true := by decide +kernel

theorem meets_FetchCompletes_issue_window :
    ((windowed 24).tick 5).slotUp 84 = true ∧ ((windowed 24).tick 5).groupToIssue 84 = some (false, 0, .row 0) ∧ (((windowed 24).tick 5).layer true 84).race = false ∧ ({ ((windowed 24).tick 5).layer true 84 with entry := wpic } : LayerCfg).groupSpan (.row 0) = (hwBase 0, 64) ∧ windowOf (hwBase 0) = some (0, 0) ∧ ((windowed 24).tick 5).hwOk 0 0 64 = true := by decide +kernel

theorem meets_FetchCompletes_issue_unsent :
    ((windowed 0).tick 5).slotUp 84 = true ∧ ((windowed 0).tick 5).groupToIssue 84 = some (false, 0, .row 0) ∧ (((windowed 0).tick 5).layer true 84).race = false ∧ ({ ((windowed 0).tick 5).layer true 84 with entry := wpic } : LayerCfg).groupSpan (.row 0) = (hwBase 0, 64) ∧ windowOf (hwBase 0) = some (0, 0) ∧ ((windowed 0).tick 5).hwOk 0 0 64 = false := by decide +kernel

theorem meets_FetchCompletes_arrival_island_reset :
    ((fetching row2).tick 5).slotUp 84 = true ∧ ((fetching row2).fetchAt 84).issued[0]? = some row2 ∧ (([(0, .islandReset)] : List (Nat × ReadRes)).any fun b => b.2 == .islandReset) = true := by decide +kernel

theorem meets_FetchCompletes_tide_whole :
    ((overdue whole).tick 5).slotUp 84 = true ∧ ((overdue whole).tick 5).groupToIssue 84 = some (false, 0, .row 0) ∧ ((overdue whole).fetchAt 84).raceFor false = some ⟨1, true, none, [], []⟩ ∧ (((overdue whole).tick 5).layer true 84).race = true ∧ (((overdue whole).tick 5).layer true 84).tide = false ∧ ((overdue whole).tick 5).raceHeld (((overdue whole).tick 5).layer true 84) ⟨1, true, none, [], []⟩ (.row 0) = true ∧ ((overdue whole).tick 5).blendEntry 15 false 0 ≤ ((overdue whole).tick 5).dtime + ((overdue whole).tick 5).latNs + ((overdue whole).tick 5).urgentNs := by decide +kernel

theorem meets_FlatteningCompletes_complete_waits :
    (crowded.scanAt 15).flatJob = some ⟨[84], true⟩ ∧ crowded.pavUp 15 = true ∧ crowded.islUp islCarousel = true ∧ (match (crowded.tick 5).flatPacked 15 [84] with | some p => p.bandsOk (crowded.hactive 15) && (crowded.poolFind (crowded.flatRuns.map (·.2)) p.size).isNone && (match (let stay := crowded.flatRuns.filter fun x => x.2.ending != some 2; crowded.evictPlan stay p.size [] (sortBy evictLe stay)) with | some (v :: vs) => decide ((crowded.tick 5).flatSaving 15 [84] ≤ ((v :: vs).map fun x => x.2.saving).foldl (· + ·) 0) | _ => false) | none => false) = true := by decide +kernel

/-- The arguments of an SF_CREATE of pic's shape, with HP_SF_CMD's OP free to choose. -/
def sfHost : State :=
  let s := dram (host 6)
  let s := { s with locket := { s.locket with grants := ⟨0, 0, 0, 256, true, true, true⟩ :: s.locket.grants } }
  let s := ((s.put (HP_SF_QUOTA 0) HP_SF_QUOTA_MAX 8).wrUse (HP_BAR2_SIZE 0) (putField 0 HP_BAR2_SIZE_LOG2 30))
  [(0, 0x10000000), (6, 64), (8, 8 + 4 * 65536), (9, 1), (10, 1)].foldl (fun s x => s.wrN (HP_SF_ARG 0 x.1) x.2) s

def sfHolds : State := (sfHost.wrN (HP_SF_ARG 0 0) 5).setSurfAt 5 pic

theorem meets_SurfaceCommandsComplete_create :
    passes (sfHost.tick 5) (.host 0) (HP_SF_CMD 0) 1 (fun u w => getField (BitVec.ofNat 32 1) HP_SF_CMD_OP == 1 && getField w HP_SF_CMD_OP == 1 && (let v := u.wr (HP_SF_CMD 0) w; createCheck v.space 0 (v.bar2Range 0) (v.sfArgs 0) == .done && (v.heldBy 0).length < v.get (HP_SF_QUOTA 0) HP_SF_QUOTA_MAX && v.lowestFree == some 0)) = true := by decide +kernel

theorem meets_SurfaceCommandsComplete_destroy :
    passes (sfHolds.tick 5) (.host 0) (HP_SF_CMD 0) 2 (fun u w => getField (BitVec.ofNat 32 2) HP_SF_CMD_OP == 2 && getField w HP_SF_CMD_OP == 2 && (let v := u.wr (HP_SF_CMD 0) w; let h := v.rdN (HP_SF_ARG 0 0); handleLive h (v.entryAt (handleIndex h)) && (v.entryAt (handleIndex h)).owner == 0)) = true := by decide +kernel

theorem meets_SurfaceCommandsComplete_read :
    passes (sfHolds.tick 5) (.host 0) (HP_SF_CMD 0) 3 (fun u w => getField (BitVec.ofNat 32 3) HP_SF_CMD_OP == 3 && getField w HP_SF_CMD_OP == 3 && (let v := u.wr (HP_SF_CMD 0) w; let h := v.rdN (HP_SF_ARG 0 0); handleLive h (v.entryAt (handleIndex h)) && ((v.entryAt (handleIndex h)).owner == 0 || (v.entryAt (handleIndex h)).pub))) = true := by decide +kernel

theorem meets_SurfaceCommandsComplete_destroy_all :
    passes (sfHolds.tick 5) (.host 0) (HP_SF_CMD 0) 4 (fun u w => getField (BitVec.ofNat 32 4) HP_SF_CMD_OP == 4 && getField w HP_SF_CMD_OP == 4 && u.heldBy 0 == [5]) = true := by decide +kernel

theorem meets_SurfaceCommandsComplete_retire :
    ((sfHost.setSurfAt 5 { pic with releasing := true }).tick 5).retireDue 5 = true ∧ ((sfHost.setSurfAt 5 { pic with releasing := true }).surfAt 5).releasing = true ∧ ((sfHost.setSurfAt 5 { pic with releasing := true }).evAt 0).lost = 0 := by decide +kernel

/-- Port 0 with a 16 MiB host window, a grant on every ring and timeline, and ring 1 (16 entries) with one entry produced; timeline 15 scans. -/
def ringHost : State :=
  let s := (scanning 0).setPortAt 0 { Port.reset with mse := true }
  let s := ((s.put (HP_LINK 0) HP_LINK_UP 1).put (HP_LINK 0) HP_LINK_BME 1).put (HP_HW_SIZE 0) HP_HW_SIZE_LOG2 24
  let s := { s with locket := { s.locket with grants := [⟨0, 2, 0, 32, true, true, true⟩, ⟨0, 1, 0, 16, true, true, true⟩] } }
  s.put (HP_CR_CTRL 0 1) HP_CR_CTRL_LOG2 4

def ringRuns : State := (ringHost.put (HP_CR_CTRL 0 1) HP_CR_CTRL_EN 1).setRingAt 1 { Ring.reset with prod := 1 }

/-- A BACKGROUND commit to a timeline, with its record. -/
def entryBytes (epoch seq tl : Nat) : List Byte :=
  leBytes 4 seq ++ leBytes 2 epoch ++ leBytes 1 tl ++ leBytes 1 1 ++ zeros 56 ++ [2, 0, 0, 0, 1, 0, 0, 0] ++ leBytes 4 5 ++ zeros 84

def bgDesc : Desc := Desc.ofBytes (entryBytes 0 0 15)
def bgRec : CRec := CRec.ofBytes ((entryBytes 0 0 15).drop 64)
def bgCommit (st : CState) : Commit := ⟨7, 1, bgDesc, [bgRec], st, 0, 0, 0, 1, false, true, [], [], [], false⟩
def bgCand : Candidate := ⟨0, 1, bgDesc, [bgRec], 0, [], [], []⟩
def toAccept : State := (ringRuns.setRingAt 1 { Ring.reset with prod := 1, cand := some bgCand }).setEvAt 0 { PortEv.reset with reserved := 1 }

/-- The reading of an entry: its descriptor, its records, and all that validation reads for them. -/
def readRecs (s : State) (host : List Byte) : State × Option (List Byte) :=
  let x := s.tick 5
  let d := Desc.ofBytes (bytesAt host 0 64)
  let n := if 1 ≤ d.nrec ∧ d.nrec ≤ 13 then 96 * d.nrec else 0
  let a := hwBase 0 + d.records * 128
  let v := ((((x.reserve [0]).getD x).turnTaken 0 1 |>.unitIssue (hwBase 0) 64 .besteffort).busRead (hwBase 0) 64 .ok host).1
  (v.unitIssue a n .besteffort).busRead a n .ok (host.drop 64)

def readVal (s : State) (host : List Byte) : Refuse ⊕ Candidate :=
  let got := readRecs s host
  let raw := bytesAt host 0 64
  let recs := got.2.getD []
  let w := got.1.tableReads (namedIndices ((Desc.ofBytes raw).recs recs))
  let z := (w.indexReads 0 [] raw recs).foldl (fun s x => ((s.busIssue x.1 x.2 .guaranteed 0 .plain).busRead x.1 x.2 .ok []).1) w
  z.validate 0 1 [] raw recs (host.drop (64 + 96))

/-- The words that reading an entry may change beside the ring's. -/
def readWords : List Nat := allPorts.map HP_HW_STAT ++ ([8, 9, 10, 11, 12, 13] : List Nat).flatMap fun q => [CA_Q_STAT q, CA_Q_CNT q]

/-- With event ring 0 full, so that nothing can be reserved. -/
def bellWaiting : State := ringRuns.setEvAt 0 { PortEv.reset with reserved := 4096 }

theorem meets_CommitRingsComplete_doorbell :
    passes (ringRuns.tick 5) (.host 0) (HP_CR_DB 0 1) 2 (fun u w => !u.bellWaits (.host 0) (HP_CR_DB 0 1) && getField w HP_CR_DB_EPOCH == u.get (HP_EPOCH 0) HP_EPOCH_EPOCH && u.ringOn 0 1 && (0 ≤ sdiff 16 (getField w HP_CR_DB_PROD) (u.ringAt 1).prod) && ((getField w HP_CR_DB_PROD + 2 ^ 16 - u.ringCons 0 1) % 2 ^ 16 ≤ 2 ^ u.get (HP_CR_CTRL 0 1) HP_CR_CTRL_LOG2)) = true := by decide +kernel

theorem meets_CommitRingsComplete_doorbell_stale :
    passes (ringRuns.tick 5) (.host 0) (HP_CR_DB 0 1) 0x50002 (fun u w => !u.bellWaits (.host 0) (HP_CR_DB 0 1) && getField w HP_CR_DB_EPOCH != u.get (HP_EPOCH 0) HP_EPOCH_EPOCH) = true := by decide +kernel

theorem meets_CommitRingsComplete_doorbell_kept :
    passes (ringHost.tick 5) (.host 0) (HP_CR_DB 0 1) 2 (fun u w => !u.bellWaits (.host 0) (HP_CR_DB 0 1) && getField w HP_CR_DB_EPOCH == u.get (HP_EPOCH 0) HP_EPOCH_EPOCH && !u.ringOn 0 1) = true := by decide +kernel

theorem meets_CommitRingsComplete_enable :
    passes (ringHost.tick 5) (.host 0) (HP_CR_CTRL 0 1) (1 + 5 * 2 ^ HP_CR_CTRL_LOG2.lo) (fun u w => getField w HP_CR_CTRL_EN == 1 && u.grantedW 0 2 1 && !u.on (HP_CR_CTRL 0 1) HP_CR_CTRL_EN && getField w HP_CR_CTRL_LOG2 == 5 && (u.ringAt 1).kept == none) = true := by decide +kernel

theorem meets_CommitRingsComplete_disable :
    passes (ringRuns.tick 5) (.host 0) (HP_CR_CTRL 0 1) 0 (fun _ w => getField w HP_CR_CTRL_EN == 0) = true := by decide +kernel

theorem meets_CommitRingsComplete_doorbell_waits :
    passes (bellWaiting.tick 5) (.host 0) (HP_CR_DB 0 1) 2 (fun u _ => u.bellWaits (.host 0) (HP_CR_DB 0 1)) = true := by decide +kernel

theorem meets_CommitRingsComplete_doorbell_older :
    passes (ringRuns.tick 5) (.host 0) (HP_CR_DB 0 1) 0 (fun u w => !u.bellWaits (.host 0) (HP_CR_DB 0 1) && getField w HP_CR_DB_EPOCH == u.get (HP_EPOCH 0) HP_EPOCH_EPOCH && u.ringOn 0 1 && decide (sdiff 16 (getField w HP_CR_DB_PROD) (u.ringAt 1).prod < 0)) = true := by decide +kernel

theorem meets_CommitRingsComplete_doorbell_overrun :
    passes (ringRuns.tick 5) (.host 0) (HP_CR_DB 0 1) 17 (fun u w => !u.bellWaits (.host 0) (HP_CR_DB 0 1) && getField w HP_CR_DB_EPOCH == u.get (HP_EPOCH 0) HP_EPOCH_EPOCH && u.ringOn 0 1 && (0 ≤ sdiff 16 (getField w HP_CR_DB_PROD) (u.ringAt 1).prod) && decide (2 ^ u.get (HP_CR_CTRL 0 1) HP_CR_CTRL_LOG2 < (getField w HP_CR_DB_PROD + 2 ^ 16 - u.ringCons 0 1) % 2 ^ 16)) = true := by decide +kernel

theorem meets_CommitRingsComplete_entry_stale :
    (ringRuns.tick 5).validatorFree = true ∧ (ringRuns.tick 5).validatorTurn = some (0, 1) ∧ ((ringRuns.tick 5).reserve [0]).isSome = true ∧ windowOf (hwBase 0) = some (0, 0) ∧ (ringRuns.tick 5).hwOk 0 0 64 = true ∧ (Desc.ofBytes (bytesAt (entryBytes 9 0 15) 0 64)).epoch ≠ (ringRuns.tick 5).get (HP_EPOCH 0) HP_EPOCH_EPOCH := by decide +kernel

theorem meets_CommitRingsComplete_entry_dup :
    (ringRuns.tick 5).validatorFree = true ∧ (ringRuns.tick 5).validatorTurn = some (0, 1) ∧ ((ringRuns.tick 5).reserve [0]).isSome = true ∧ windowOf (hwBase 0) = some (0, 0) ∧ (ringRuns.tick 5).hwOk 0 0 64 = true ∧ (Desc.ofBytes (bytesAt (entryBytes 0 0xFFFFFFFF 15) 0 64)).epoch = (ringRuns.tick 5).get (HP_EPOCH 0) HP_EPOCH_EPOCH ∧ sdiff 32 (Desc.ofBytes (bytesAt (entryBytes 0 0xFFFFFFFF 15) 0 64)).seq ((ringRuns.tick 5).rdN (HP_CR_NEXT_SEQ 0 1)) < 0 := by decide +kernel

theorem meets_CommitRingsComplete_entry_candidate :
    (ringRuns.tick 5).validatorFree = true ∧ (ringRuns.tick 5).validatorTurn = some (0, 1) ∧ ((ringRuns.tick 5).reserve [0]).isSome = true ∧ windowOf (hwBase 0) = some (0, 0) ∧ (ringRuns.tick 5).hwOk 0 0 64 = true ∧ bgDesc.epoch = (ringRuns.tick 5).get (HP_EPOCH 0) HP_EPOCH_EPOCH ∧ bgDesc.seq = (ringRuns.tick 5).rdN (HP_CR_NEXT_SEQ 0 1) ∧ bgDesc.records * 128 + 96 ≤ (ringRuns.tick 5).hwSize 0 ∧ (readRecs ringRuns (entryBytes 0 0 15)).2.isSome = true ∧ (∀ i ∈ namedIndices (bgDesc.recs ((readRecs ringRuns (entryBytes 0 0 15)).2.getD [])), ringRuns.poisoned (64 * i) 64 = false) ∧ (readVal ringRuns (entryBytes 0 0 15)).isRight = true := by decide +kernel

theorem meets_CommitRingsComplete_entry_refused :
    (ringRuns.tick 5).validatorFree = true ∧ (ringRuns.tick 5).validatorTurn = some (0, 1) ∧ ((ringRuns.tick 5).reserve [0]).isSome = true ∧ windowOf (hwBase 0) = some (0, 0) ∧ (ringRuns.tick 5).hwOk 0 0 64 = true ∧ (Desc.ofBytes (bytesAt (entryBytes 0 0 16) 0 64)).records * 128 + 96 ≤ (ringRuns.tick 5).hwSize 0 ∧ (readRecs ringRuns (entryBytes 0 0 16)).2.isSome = true ∧ (readVal ringRuns (entryBytes 0 0 16)).isLeft = true := by decide +kernel

theorem meets_CommitRingsComplete_accept :
    (toAccept.ringAt 1).cand = some bgCand ∧ toAccept.islUp islCarousel = true ∧ toAccept.evFree 0 = true ∧ toAccept.park.step = 0 ∧ bgCand.desc.tl < 16 ∧ ((toAccept.tick 5).stepAdmit bgCand.desc.tl ((toAccept.tick 5).candImage bgCand)).isLeft = true ∧ toAccept.journalUsed bgCand.desc.tl + journalUnits bgCand ≤ 8192 := by decide +kernel

theorem meets_CommitRingsComplete_accept_refused :
    (toAccept.ringAt 1).cand = some bgCand ∧ toAccept.islUp islCarousel = true ∧ toAccept.evFree 0 = true ∧ toAccept.park.step = 0 ∧ bgCand.desc.tl < 16 ∧ ([0] : List Nat) ≠ [] := by decide +kernel

def living (st : CState) : State := ringRuns.setTlcAt 15 { TlCommits.reset with live := [bgCommit st], order := 8 }
def imaged (h : Option Handover) : State :=
  let s := living .assembled
  s.setTlcAt 15 { s.tlcAt 15 with image := some (7, ⟨5, 0, []⟩), handover := h }

/-- A waiting commit with an unmet DMA fence, its timeout past. -/
def fenced : State :=
  let c := { bgCommit .waiting with desc := { bgDesc with nfence := 1, fences := [[2, 3, 0, 0, 9, 0, 0, 0], zeros 8, zeros 8, zeros 8] } }
  (ringRuns.put (HP_CR_CFG 0 1) HP_CR_CFG_FENCE_MS 1).setTlcAt 15 { TlCommits.reset with live := [c], order := 8 }

/-- The pending bank of slot 84 is enabled and names a surface that does not live. -/
def badSeal : State := ((ringRuns.wrN (bankAddr 84 0 true) 2).wrN (bankAddr 84 0 false) 3).wrN (bankAddr 84 1 false) 9

theorem meets_CommitLifeCompletes_leave :
    (living .waiting).nextWaiting 15 = some (bgCommit .waiting) ∧ ((living .waiting).tick 5).mayLeave 15 (bgCommit .waiting) = true := by decide +kernel

theorem meets_CommitLifeCompletes_target :
    (living .waiting).dtime = 1000000000 := by decide +kernel

theorem meets_CommitLifeCompletes_seal :
    ((imaged none).tlcAt 15).image = some (7, ⟨5, 0, []⟩) ∧ (imaged none).pavUp 15 = true ∧ (imaged none).islUp islCarousel = true ∧ ((imaged none).tlcAt 15).handover = none ∧ ((imaged none).tlcAt 15).live.find? (fun c => c.order == 7) = some (bgCommit .assembled) := by decide +kernel

theorem meets_CommitLifeCompletes_seal_deferred :
    ((imaged (some ⟨[3], 7, false, false, false⟩)).tlcAt 15).image = some (7, ⟨5, 0, []⟩) ∧ (imaged (some ⟨[3], 7, false, false, false⟩)).pavUp 15 = true ∧ (imaged none).islUp islCarousel = true ∧ ((imaged (some ⟨[3], 7, false, false, false⟩)).tlcAt 15).handover = some ⟨[3], 7, false, false, false⟩ := by decide +kernel

theorem meets_CommitLifeCompletes_fence_timeout :
    fenced.islUp islCarousel = true ∧ ((fenced.tlcAt 15).live.find? (fenced.tick 5).fenceOver).isSome = true := by decide +kernel

theorem meets_CommitLifeCompletes_direct_none :
    passes (ringRuns.tick 5) .sup (PV_SEAL 7 1) 0 (fun _ w => getField w PV_SEAL_SEAL == 0) = true := by decide +kernel

theorem meets_CommitLifeCompletes_direct_live :
    passes ((living .waiting).tick 5) .sup (PV_SEAL 7 1) 1 (fun u w => getField w PV_SEAL_SEAL == 1 && (u.tlcAt 15).live != []) = true := by decide +kernel

theorem meets_CommitLifeCompletes_direct :
    passes (ringRuns.tick 5) .sup (PV_SEAL 7 1) 1 (fun u w => getField w PV_SEAL_SEAL == 1 && (u.tlcAt 15).live == [] && (u.tlcAt 15).handover == none && (match u.directCheck 15 (sealOwner .sup) with | .inr _ => true | .inl _ => false)) = true := by decide +kernel

theorem meets_CommitLifeCompletes_direct_refused :
    passes (badSeal.tick 5) .sup (PV_SEAL 7 1) 1 (fun u w => getField w PV_SEAL_SEAL == 1 && (u.tlcAt 15).live == [] && (match u.directCheck 15 (sealOwner .sup) with | .inr _ => false | .inl e => e.step != 6)) = true := by decide +kernel

def aEvent : Event := ⟨1541, 0, 0x60, 0, 0, 77, zeros 16⟩
def evRing : State :=
  let s := (ringHost.put (HP_EV_CTRL 0) HP_EV_CTRL_EN 1).put (HP_EV_CTRL 0) HP_EV_CTRL_LOG2 6
  s.setEvAt 0 { PortEv.reset with backlog := [aEvent] }
/-- The same with the engines' island in reset, so that no engine waits for a free entry. -/
def evAlone : State := { evRing with isl := { evRing.isl with down := [⟨islDma, 0, 0⟩] } }
def vecReady : State := ((ringHost.put (HP_LINK 0) HP_LINK_MSIX 1).put (MSIX_CTRL 0 63) MSIX_CTRL_MASK 0).setVecAt (vecKey 0 63) ⟨2, 900000000⟩
def noLink : State := { lit with dtime := 77 }

theorem meets_EventRingsComplete_enable :
    passes (ringHost.tick 5) (.host 0) (HP_EV_CTRL 0) (1 + 16 * 2 ^ HP_EV_CTRL_LOG2.lo) (fun u w => !u.on (HP_EV_CTRL 0) HP_EV_CTRL_EN && getField w HP_EV_CTRL_EN == 1 && getField w HP_EV_CTRL_LOG2 == 16) = true := by decide +kernel

theorem meets_EventRingsComplete_enable_bad :
    passes (ringHost.tick 5) (.host 0) (HP_EV_CTRL 0) (1 + 5 * 2 ^ HP_EV_CTRL_LOG2.lo) (fun u w => !u.on (HP_EV_CTRL 0) HP_EV_CTRL_EN && getField w HP_EV_CTRL_EN == 1 && getField w HP_EV_CTRL_LOG2 == 5) = true := by decide +kernel

theorem meets_EventRingsComplete_disable :
    passes (ringHost.tick 5) (.host 0) (HP_EV_CTRL 0) 0 (fun u w => !u.on (HP_EV_CTRL 0) HP_EV_CTRL_EN && getField w HP_EV_CTRL_EN == 0) = true := by decide +kernel

theorem meets_EventRingsComplete_record :
    (evAlone.evAt 0).backlog = [aEvent] ∧ (evAlone.evAt 0).lost = 0 ∧ evAlone.on (HP_EV_CTRL 0) HP_EV_CTRL_EN = true ∧ evAlone.islUp (islHost 0) = true ∧ evAlone.bells = [] ∧ evAlone.engUp = false ∧ evAlone.evUsed 0 < 2 ^ evAlone.evLog2 0 ∧ evAlone.hwOk 0 (evAlone.evBase 0 + evAlone.rdN (HP_EV_PROD 0) % 2 ^ evAlone.evLog2 0 * evAlone.evRecord) (aEvent.bytes evAlone.power.compat).length = true := by decide +kernel

theorem meets_EventRingsComplete_holdoff :
    (vecReady.tick 5).holdoffDue 0 63 = true ∧ vecReady.msixOn 0 = true ∧ vecReady.vecMasked 0 63 = false := by decide +kernel

theorem meets_EventRingsComplete_holdoff_masked :
    ((vecReady.put (MSIX_CTRL 0 63) MSIX_CTRL_MASK 1).tick 5).holdoffDue 0 63 = true ∧ (vecReady.put (MSIX_CTRL 0 63) MSIX_CTRL_MASK 1).msixOn 0 = true ∧ (vecReady.put (MSIX_CTRL 0 63) MSIX_CTRL_MASK 1).vecMasked 0 63 = true := by decide +kernel

theorem meets_HostPortsComplete_resets :
    ringRuns.portUp 0 = true ∧ ringRuns.linkUp 0 = true := by decide +kernel

theorem meets_HostPortsComplete_link_up :
    lit.portUp 3 = true ∧ lit.linkUp 3 = false ∧ 8 ∈ [1, 2, 4, 8] := by decide +kernel

theorem meets_HostPortsComplete_d3hot :
    ringRuns.portUp 0 = true ∧ ringRuns.linkUp 0 = true := by decide +kernel

theorem meets_HostPortsComplete_perst_off :
    State.reset.power.perst.contains 0 = false ∧ State.reset.islandsRun = false := by decide +kernel

theorem meets_HostPortsComplete_perst_on :
    ringRuns.power.perst.contains 0 = false ∧ ringRuns.islandsRun = true ∧ ringRuns.islUp (islHost 0) = true := by decide +kernel

theorem meets_HostPortsComplete_perst_release :
    ({ lit with power := { lit.power with perst := [3, 0] } } : State).power.perst.contains 0 = true := by decide +kernel

theorem meets_HostPortsComplete_retry :
    (lit.put (HP_LINK 0) HP_LINK_UP 1).portUp 0 = true ∧ (lit.put (HP_LINK 0) HP_LINK_UP 1).linkUp 0 = true ∧ (lit.put (HP_LINK 0) HP_LINK_UP 1).on SY_BOOT_STAT SY_BOOT_STAT_READY = false := by decide +kernel

theorem meets_HostPortsComplete_config :
    ringRuns.portUp 0 = true ∧ ringRuns.linkUp 0 = true ∧ ringRuns.on SY_BOOT_STAT SY_BOOT_STAT_READY = true ∧ 20 ≤ 20 ∧ 20 ≤ (ringRuns.wrUse (HP_BAR2_SIZE 0) 30).getUse (HP_BAR2_SIZE 0) HP_BAR2_SIZE_LOG2 := by decide +kernel

/-- Port 0 with BAR2 of 1 GiB mapped to 0x10000000, and policer k with its buckets. -/
def bar2 (en : Nat) (pol : Policer) (k : Nat) : State :=
  let s := ringHost.wrUse (HP_BAR2_SIZE 0) (putField 0 HP_BAR2_SIZE_LOG2 30) |>.wrUse (HP_BAR2_BASE_LO 0) (putField 0 HP_BAR2_BASE_LO_BASE 0x100)
  let s := s.put (CA_P_CTRL k) CA_P_CTRL_EN en |>.wrN (CA_P_CBS k) 4096 |>.wrN (CA_P_PBS k) 8192 |>.wrN (CA_P_CIR k) 1000 |>.wrN (CA_P_PIR k) 1000
  s.setPolAt k pol
/-- A plain request of n bytes of unit 1, to move on once released. -/
def waits (n : Nat) : QWait := ⟨⟨n, true⟩, none⟩
def fullPol : Policer := { Policer.reset with tc := 4096 * micro, tp := 8192 * micro, t := 1000000000 }
def emptyPol : Policer := { Policer.reset with t := 1000000000 }
def four : List Byte := [1, 2, 3, 4]
def pkt4 : Packet := ⟨4, 0, 0x10000000, four, 0⟩

/-- Queue 9 enabled at 10 bytes per microsecond, with some debt. -/
def queued (debt : Nat) (q : ShapeQ) : State :=
  let s := lit.put (CA_Q_CTRL 9) CA_Q_CTRL_EN 1 |>.wrN (CA_Q_RATE 9) 10 |>.wrN (CA_Q_CONTRACT 9) 20 |>.put (CA_Q_LIM 9) CA_Q_LIM_BURST 64
  s.setShqAt 9 { q with d := debt * micro, t0 := 1000000000 }

theorem meets_CarouselCompletes_off_write :
    (bar2 0 fullPol 0).bar2Hpa 0 0 = some 0x10000000 ∧ (bar2 0 fullPol 0).linkUp 0 = true ∧ ((bar2 0 fullPol 0).portAt 0).mse = true ∧ (bar2 0 fullPol 0).on (HP_LINK 0) HP_LINK_D3 = false ∧ (bar2 0 fullPol 0).islUp islCarousel = true ∧ ((bar2 0 fullPol 0).polAt 0).held = [] ∧ (bar2 0 fullPol 0).on (CA_P_CTRL 0) CA_P_CTRL_EN = false := by decide +kernel

theorem meets_CarouselCompletes_green_read :
    (bar2 1 fullPol 1).bar2Hpa 0 64 = some 0x10000040 ∧ ((bar2 1 fullPol 1).polAt 1).held = [] ∧ (bar2 1 fullPol 1).on (CA_P_CTRL 1) CA_P_CTRL_EN = true ∧ (bar2 1 fullPol 1).preColour 1 0 = 0 ∧ (bar2 1 fullPol 1).packetL 1 ⟨4, 0, 0x10000040, [], 4⟩ * micro ≤ (((bar2 1 fullPol 1).tick 5).polRefill 1 1000000000).1 ∧ (bar2 1 fullPol 1).packetL 1 ⟨4, 0, 0x10000040, [], 4⟩ * micro ≤ (((bar2 1 fullPol 1).tick 5).polRefill 1 1000000000).2 := by decide +kernel

theorem meets_CarouselCompletes_red :
    (bar2 1 emptyPol 0).bar2Hpa 0 0 = some 0x10000000 ∧ ((bar2 1 emptyPol 0).polAt 0).held = [] ∧ (bar2 1 emptyPol 0).on (CA_P_CTRL 0) CA_P_CTRL_EN = true ∧ (((bar2 1 emptyPol 0).tick 5).polRefill 0 1000000000).2 < (bar2 1 emptyPol 0).packetL 0 pkt4 * micro := by decide +kernel

theorem meets_CarouselCompletes_behind :
    (bar2 1 { emptyPol with held := [pkt4] } 0).bar2Hpa 0 0 = some 0x10000000 ∧ ((bar2 1 { emptyPol with held := [pkt4] } 0).polAt 0).held ≠ [] := by decide +kernel

theorem meets_CarouselCompletes_release :
    ((bar2 1 { emptyPol with held := [pkt4] } 0).polAt 0).held = [pkt4] ∧ (bar2 1 { emptyPol with held := [pkt4] } 0).islUp islCarousel = true ∧ ((bar2 1 { emptyPol with held := [pkt4] } 0).polReleaseAt 0).any (· ≤ ((bar2 1 { emptyPol with held := [pkt4] } 0).tick 1000020000).dtime) = true ∧ (bar2 1 { emptyPol with held := [pkt4] } 0).bells = [] ∧ (bar2 1 { emptyPol with held := [pkt4] } 0).hostReads = [] := by decide +kernel

theorem meets_CarouselCompletes_queue_behind :
    (queued 0 { ShapeQ.reset with reqs := [waits 5] }).islUp islCarousel = true ∧ ((queued 0 { ShapeQ.reset with reqs := [waits 5] }).shqAt 9).reqs ≠ [] := by decide +kernel

theorem meets_CarouselCompletes_queue_green :
    ((queued 64 ShapeQ.reset).shqAt 9).reqs = [] ∧ (queued 64 ShapeQ.reset).on (CA_Q_CTRL 9) CA_Q_CTRL_EN = true ∧ (queued 64 ShapeQ.reset).qRate 9 ≠ 0 ∧ (queued 64 ShapeQ.reset).qDebt 9 1000000000 ≤ (queued 64 ShapeQ.reset).qBurst 9 := by decide +kernel

theorem meets_CarouselCompletes_queue_parked :
    ((queued 65 ShapeQ.reset).shqAt 9).reqs = [] ∧ (queued 65 ShapeQ.reset).qBurst 9 < (queued 65 ShapeQ.reset).qDebt 9 1000000000 ∧ (queued 65 ShapeQ.reset).on (CA_Q_CTRL 9) CA_Q_CTRL_EXCESS = false := by decide +kernel

theorem meets_CarouselCompletes_eligible :
    ((queued 65 { ShapeQ.reset with reqs := [waits 100], elig := some 1000100000 }).shqAt 9).elig = some 1000100000 ∧ (queued 65 { ShapeQ.reset with reqs := [waits 100], elig := some 1000100000 }).qDebt 9 1000100000 ≤ (queued 65 ShapeQ.reset).qBurst 9 ∧ (queued 65 ShapeQ.reset).on (CA_Q_CTRL 9) CA_Q_CTRL_EN = true ∧ (queued 65 ShapeQ.reset).qRate 9 ≠ 0 := by decide +kernel

theorem meets_CarouselCompletes_rate :
    passes ((queued 65 ShapeQ.reset).tick 5) .sup (CA_Q_RATE 9) 30 (fun u _ => (u.shqAt 9).reqs == []) = true := by decide +kernel

theorem meets_CarouselCompletes_eligible_read :
    ((queued 65 { ShapeQ.reset with reqs := [⟨⟨100, true⟩, some (2, 0, 0x10000000)⟩], elig := some 1000100000 }).shqAt 9).elig = some 1000100000 ∧ (queued 65 { ShapeQ.reset with reqs := [⟨⟨100, true⟩, some (2, 0, 0x10000000)⟩], elig := some 1000100000 }).qDebt 9 1000100000 ≤ (queued 65 ShapeQ.reset).qBurst 9 ∧ windowOf 0x10000000 = none ∧ (queued 65 ShapeQ.reset).on (CA_Q_CTRL 9) CA_Q_CTRL_EN = true ∧ (queued 65 ShapeQ.reset).qRate 9 ≠ 0 := by decide +kernel

def conf : DramConf := ⟨4800, 1, 8, 16, 3, 0⟩
/-- DRAM in service with sub-channel 0 trained. -/
def ranked : State := (dram lit).put (DR_SC_STAT 0) DR_SC_STAT_TRAINED 1
def sub0 (f : SubCh) : State := ranked.setDramAt 0 f
def wq (attempts : Nat) : WqEntry := ⟨4, 0x5001000, List.range 64, true, .guaranteed, 0, 1000000000, attempts, true⟩
def rdEntry (fill : Option Nat) : RdEntry := ⟨5, 0x5001000, .deadline, 9, 1000000000, fill, false, .plain⟩
/-- A block whose writes go to sub-channel 0. -/
def blk0 : Nat := 0x5001000

/-- An older read of the same class stands before read 5. -/
def behind : State := sub0 { SubCh.reset with reads := [{ rdEntry none with id := 4, deadline := 3 }, rdEntry none] }
def urgentRead : RdEntry := { rdEntry none with kind := .urgent }
def movedRun : DmaRun := ⟨0x5000000, zeros 64, 0, [], [], 0, [], none, 5, false, none, false, none⟩
def engRun : State := lit.setDmaAt 31 { DmaCh.reset with run := some movedRun }

theorem meets_DramAccessCompletes_read_new :
    ranked.locket.dram = some conf ∧ ranked.ddrTakes = true ∧ blk0 + 7 < ranked.dramCap ∧ ranked.ddrServes (blk0 + 7) = true ∧ ranked.servingSub conf (blk0 + 7) = 0 ∧ (ranked.dramAt 0).wq.find? (fun e => e.hpa == blockOf (blk0 + 7)) = none := by decide +kernel

theorem meets_DramAccessCompletes_read_forwarded :
    ((sub0 { SubCh.reset with wq := [wq 1], next := 6 }).dramAt 0).wq.find? (fun e => e.hpa == blockOf (blk0 + 7)) = some (wq 1) ∧ (wq 1).complete = true := by decide +kernel

theorem meets_DramAccessCompletes_write :
    blk0 % 64 + 4 ≤ 64 ∧ blk0 + 4 ≤ ranked.dramCap ∧ (ranked.writeSubs conf blk0).filter (fun k => ranked.islUp (islSub k)) = [0] ∧ (ranked.dramAt 0).waits = [] ∧ (ranked.dramAt 0).room .besteffort = true ∧ (ranked.dramAt 0).wq.find? (fun e => e.hpa == blockOf blk0) = none := by decide +kernel

theorem meets_DramAccessCompletes_read_return :
    ((sub0 { SubCh.reset with reads := [rdEntry none] }).dramAt 0).reads.find? (fun r => r.id == 5 && !r.waits) = some (rdEntry none) ∧ ranked.locket.dram = some conf ∧ ranked.poison = [] ∧ ((sub0 { SubCh.reset with reads := [rdEntry none] }).tick 5).mayServe conf 0 (rdEntry none) = true := by decide +kernel

theorem meets_DramAccessCompletes_fill_return :
    ((sub0 { SubCh.reset with reads := [rdEntry (some 4)], wq := [{ wq 0 with complete := false, issued := false }] }).dramAt 0).reads.find? (fun r => r.id == 5 && !r.waits) = some (rdEntry (some 4)) ∧ ranked.locket.dram = some conf ∧ ranked.poison = [] ∧ ((sub0 { SubCh.reset with reads := [rdEntry (some 4)], wq := [{ wq 0 with complete := false, issued := false }] }).tick 5).mayServe conf 0 (rdEntry (some 4)) = true := by decide +kernel

theorem meets_DramAccessCompletes_alert :
    ((sub0 { SubCh.reset with wq := [wq 3] }).dramAt 0).wq.find? (fun e => e.id == 4 && e.issued) = some (wq 3) ∧ (wq 3).attempts < 4 := by decide +kernel

theorem meets_DramAccessCompletes_alert_fails :
    ((sub0 { SubCh.reset with wq := [wq 4] }).dramAt 0).wq.find? (fun e => e.id == 4 && e.issued) = some (wq 4) ∧ 4 ≤ (wq 4).attempts ∧ ((sub0 { SubCh.reset with wq := [wq 4] }).dramAt 0).waits = [] := by decide +kernel

theorem meets_DramAccessCompletes_ack :
    ((sub0 { SubCh.reset with wq := [wq 1] }).dramAt 0).wq.find? (fun e => e.id == 4 && e.issued && e.complete) = some (wq 1) ∧ ((sub0 { SubCh.reset with wq := [wq 1] }).dramAt 0).waits = [] := by decide +kernel

theorem meets_DramAccessCompletes_read_goes_before :
    (behind.dramAt 0).reads.find? (fun r => r.id == 5 && !r.waits) = some (rdEntry none) ∧ behind.locket.dram = some conf ∧ behind.poison = [] ∧ (behind.tick 5).mayServe conf 0 (rdEntry none) = false := by decide +kernel

theorem meets_DramAccessCompletes_dma_ack :
    engRun.engUp = true ∧ (engRun.dmaAt 31).run = some movedRun ∧ movedRun.moved = true := by decide +kernel

theorem meets_DramUpkeepCompletes_batch_urgent :
    ((sub0 { SubCh.reset with wq := [{ wq 0 with issued := false, at_ := 0 }], reads := [urgentRead] }).tick 5).batchDue 0 = true ∧ ((sub0 { SubCh.reset with wq := [{ wq 0 with issued := false, at_ := 0 }], reads := [urgentRead] }).tick 5).urgentWaits 0 = true := by decide +kernel

theorem meets_DramUpkeepCompletes_batch :
    ((sub0 { SubCh.reset with wq := [{ wq 0 with issued := false }] }).tick 5).batchDue 0 = true := by decide +kernel

theorem meets_DramUpkeepCompletes_tick :
    (ranked.tick 5).tickDue 0 0 = true := by decide +kernel

theorem meets_DramUpkeepCompletes_paid :
    (ranked.put (DR_SC_STAT 0) DR_SC_STAT_DEBT0 4).rankOn 0 0 = true ∧ 1 ≤ (ranked.put (DR_SC_STAT 0) DR_SC_STAT_DEBT0 4).debt 0 0 := by decide +kernel

theorem meets_DramUpkeepCompletes_mr4 :
    ranked.subOn 0 = true ∧ 3 ∈ [1, 3] ∧ ranked.on (DR_SC_STAT 0) DR_SC_STAT_MODE2X = false := by decide +kernel

theorem meets_DramUpkeepCompletes_scrub :
    ranked.locket.dram = some conf ∧ ranked.dramReady = true ∧ (ranked.put DR_SCRUB DR_SCRUB_HOURS 1).on DR_SCRUB DR_SCRUB_HOURS = true ∧ blk0 < ranked.dramCap ∧ ranked.poison = [] := by decide +kernel

theorem meets_DramUpkeepCompletes_retrain :
    ranked.locket.dram = some conf ∧ ((ranked.put DR_RETRAIN DR_RETRAIN_EN 1).tick 5).retrainDue 0 (0 : Fin 2).val = true := by decide +kernel

/-- A buffer for a channel of DT 0. -/
def igPic : SurfEntry := { pic with format := 0x13, pub := true }
/-- Channel 2 on a lane that is up, receiving YUV422-8 of 8 × 4 pixels. -/
def igReady : State :=
  let s := ((dram lit).put (IG_LANE 5) IG_LANE_UP 1).put (IG_LANE 5) IG_LANE_MAXGEAR 3 |>.put (IG_SRC 2) IG_SRC_LANE 5 |>.put (IG_CTRL 2) IG_CTRL_EN 1 |>.put (IG_CTRL 2) IG_CTRL_COUNT 1
  let s := (s.put (IG_SIZE 2) IG_SIZE_W 8).put (IG_SIZE 2) IG_SIZE_H 4
  (s.wrN (IG_BUF 2 0) 5).setSurfAt 5 igPic
def igF : IgFrame := ⟨0, 5, igPic, 7, 1000000000, igReady.rdN (IG_CTRL 2), igReady.rdN (IG_SRC 2), igReady.rdN (IG_SIZE 2), igReady.rdN (IG_LINE_NS 2), 1, [0], 1, 0, none, [], false, false⟩
def igRun (f : IgFrame) : State := igReady.setIgAt 2 { Ingest.reset with cur := some f, taken := some 0 }
def igAll : IgFrame := { igF with lines := 4, open_ := [], written := 4, acked := 4 }

theorem meets_DramAccessCompletes_line :
    (igRun igF).igUp = true ∧ ackFirst ((igRun igF).igAt 2).await = none ∧ ((igRun igF).igAt 2).cur = some igF ∧ igF.open_ ≠ [] := by decide +kernel

theorem meets_IngestCompletes_start :
    igReady.igUp = true ∧ igReady.laneUp 2 = true ∧ igReady.on (IG_CTRL 2) IG_CTRL_EN = true ∧ (igReady.igAt 2).cur = none ∧ igReady.igPick 2 = some 0 := by decide +kernel

theorem meets_IngestCompletes_start_dropped :
    (igReady.put (IG_CTRL 2) IG_CTRL_MANUAL 1 |>.put (IG_REL 2) IG_REL_FREE 0).igPick 2 = none ∧ igReady.laneUp 2 = true ∧ igReady.on (IG_CTRL 2) IG_CTRL_EN = true := by decide +kernel

theorem meets_IngestCompletes_line :
    (igRun igF).igOn 2 = true ∧ 0x1E = igType igF.dt ∧ igF.ended = false ∧ (zeros 16).length = igBytes igF.dt igF.w ∧ igF.lines < igF.h := by decide +kernel

theorem meets_IngestCompletes_line_of_other_type :
    (igRun igF).igOn 2 = true ∧ 0x1F ≠ igType igF.dt := by decide +kernel

theorem meets_IngestCompletes_end_whole :
    ((igRun igAll).igAt 2).cur = some igAll ∧ igAll.ended = false ∧ igAll.h ≤ igAll.written := by decide +kernel

theorem meets_IngestCompletes_end_short :
    ((igRun igF).igAt 2).cur = some igF ∧ igF.ended = false ∧ igF.written < igF.h := by decide +kernel

theorem meets_IngestCompletes_complete :
    ((igReady.setIgAt 2 { Ingest.reset with await := [{ igAll with ended := true }] }).igAt 2).await = [{ igAll with ended := true }] ∧ ({ igAll with ended := true } : IgFrame).whole = true ∧ igAll.buf < 8 := by decide +kernel

theorem meets_IngestCompletes_link_down :
    (igRun igF).on (IG_LANE 5) IG_LANE_UP = true ∧ (igRun igF).laneChannels 5 = [2] := by decide +kernel

theorem meets_IngestCompletes_link_up :
    ((igReady.put (IG_LANE 5) IG_LANE_UP 0).put (IG_STAT 2) IG_STAT_STATE 3).islUp 5 = true ∧ (igReady.put (IG_LANE 5) IG_LANE_UP 0).on (IG_LANE 5) IG_LANE_UP = false ∧ 3 ≤ igReady.get (IG_LANE 5) IG_LANE_MAXGEAR := by decide +kernel

/-- Controller 1 on the bus with filter 7 for identifier 0x123, signal 33 in group 4 of that identifier, and signal 40 of the supervisor's group 5. -/
def canReady : State :=
  let s := (lit.put (CN_CTRL 1) CN_CTRL_EN 1).put (CN_STAT 1) CN_STAT_ONBUS 1
  let s := (s.put (CN_FLT_ID 7) CN_FLT_ID_EN 1).put (CN_FLT_ID 7) CN_FLT_ID_CTRL 1 |>.put (CN_FLT_ID 7) CN_FLT_ID_ID 0x123 |>.put (CN_FLT_MASK 7) CN_FLT_MASK_MASK 0x7FF
  let s := s.setCanAt 1 { Can.reset with allowed := true }
  { s with locket := { s.locket with
      groups := [(4, some ⟨1, 7, false, false, 0x123, 2, 0, 0, 0, 100, 1⟩), (5, some ⟨2, 0, false, false, 0, 0, 0, 0, 0, 100, 1⟩)]
      signals := [(33, some ⟨4, false, false, 0, 8, 0, 1, 0, -1000, 1000⟩), (40, some ⟨5, false, false, 0, 8, 0, 1, 0, -1000, 1000⟩)] } }
def canData : CanFrame := ⟨0x123, false, false, false, [9, 8]⟩
def mapped (fr : CanFrame) : State := canReady.setCanAt 1 { Can.reset with allowed := true, queue := [⟨7, 999999000, fr⟩] }
/-- A write of SM_SV_SIG by the supervisor that is posted. -/
def svWritten (v : Nat) : State := canReady.postWrite .sup SM_SV_SIG (BitVec.ofNat 32 v)

theorem meets_CanAndSignalsComplete_frame :
    canReady.canOn 1 = true ∧ (canReady.canAt 1).waiting = false ∧ canFrameOk canData = true ∧ canData.remote = false ∧ canData.fd = false ∧ (List.range 128).find? (canReady.fltMatch 1 canData) = some 7 ∧ (canReady.canAt 1).queue.length < 64 := by decide +kernel

theorem meets_CanAndSignalsComplete_frame_lost :
    (canReady.setCanAt 1 { Can.reset with queue := List.replicate 64 ⟨7, 0, canData⟩ }).canOn 1 = true ∧ (List.range 128).find? (canReady.fltMatch 1 canData) = some 7 ∧ 64 ≤ ((canReady.setCanAt 1 { Can.reset with queue := List.replicate 64 ⟨7, 0, canData⟩ }).canAt 1).queue.length := by decide +kernel

theorem meets_CanAndSignalsComplete_frame_filtered :
    canFrameOk { canData with id := 0x124 } = true ∧ (List.range 128).find? (canReady.fltMatch 1 { canData with id := 0x124 }) = none := by decide +kernel

theorem meets_CanAndSignalsComplete_error :
    canReady.canOn 1 = true ∧ (canReady.canAt 1).waiting = false := by decide +kernel

theorem meets_CanAndSignalsComplete_join :
    (canReady.canAt 1).allowed = true ∧ canReady.on (CN_CTRL 1) CN_CTRL_EN = true ∧ canReady.islUp (islCan 1) = true := by decide +kernel

theorem meets_CanAndSignalsComplete_unmapped :
    ((mapped { canData with id := 0x124 }).canAt 1).queue = [⟨7, 999999000, { canData with id := 0x124 }⟩] ∧ (mapped { canData with id := 0x124 }).groupOf 1 { canData with id := 0x124 } = none := by decide +kernel

theorem meets_CanAndSignalsComplete_short_frame :
    (mapped { canData with data := [9] }).groupOf 1 { canData with data := [9] } = some (4, ⟨1, 7, false, false, 0x123, 2, 0, 0, 0, 100, 1⟩) ∧ ([9] : List Byte).length < 2 := by decide +kernel

theorem meets_CanAndSignalsComplete_valid_frame :
    (mapped canData).groupOf 1 canData = some (4, ⟨1, 7, false, false, 0x123, 2, 0, 0, 0, 100, 1⟩) ∧ (mapped canData).islUp islGate = true ∧ (mapped canData).islUp (islCan 1) = true := by decide +kernel

theorem meets_CanAndSignalsComplete_sv_posts :
    passes (canReady.tick 5) .sup SM_SV_SIG 41 (fun _ w => w.toNat == 41) = true := by decide +kernel

theorem meets_CanAndSignalsComplete_sv_reject :
    (svWritten 41).postedAt 174 = some ⟨.sup, SM_SV_SIG, 41⟩ ∧ (svWritten 41).islUp islGate = true ∧ (svWritten 41).svGroup (getField (41 : Word) SM_SV_SIG_SIGNAL) = none := by decide +kernel

theorem meets_CanAndSignalsComplete_sv :
    (svWritten 40).postedAt 174 = some ⟨.sup, SM_SV_SIG, 40⟩ ∧ (svWritten 40).islUp islGate = true ∧ (svWritten 40).svGroup (getField (40 : Word) SM_SV_SIG_SIGNAL) = some 5 := by decide +kernel

theorem meets_CanAndSignalsComplete_timeout :
    ((canReady.setSigStale 33 false).setSigAt 33 [(1, 5)]).islUp islGate = true ∧ ((canReady.setSigStale 33 false).setSigAt 33 [(1, 5)]).sigStale 33 = false ∧ (((canReady.setSigStale 33 false).setSigAt 33 [(1, 5)]).tick 5).sigFresh 33 = false := by decide +kernel

/-- A supervisor frame with its CRC. -/
def svBytes (cmd seq addr value : Nat) : List Byte :=
  let b := leBytes 1 cmd ++ leBytes 1 seq ++ leBytes 4 addr ++ leBytes 4 value ++ [0]
  b ++ [BitVec.ofNat 8 (crc8 b)]
def beating : State := lit.put SV_HB_CFG SV_HB_CFG_EN 1
def svFrame (cmd : Nat) : List Byte := svBytes cmd 8 (if cmd = 0 then 0 else WT_FTL) (if cmd = 2 then 1 else 0)
/-- A frame of CMD `cmd` came last, answered with DATA 3. -/
def repeating (cmd : Nat) : State := { lit with sv := { lit.sv with last := some ((svFrame cmd).take 11), ldata := 3 } }

theorem meets_SupervisorCompletes_beat :
    beating.on SV_HB_CFG SV_HB_CFG_EN = true ∧ beating.boot.applied = true := by decide +kernel

theorem meets_SupervisorCompletes_loss :
    ((beating.put SV_HB_STAT SV_HB_STAT_ARMED 1).tick 5).hbOver = true := by decide +kernel

theorem meets_SupervisorCompletes_clear_tl :
    passes ((beating.wrN WT_FTL 0x8003).tick 5) .sup WT_FTL 0x8001 (fun _ w => getField w WT_FTL_TL == 0x8001) = true := by decide +kernel

theorem meets_SupervisorCompletes_clear :
    passes (((beating.put SV_HB_STAT SV_HB_STAT_LOST 1).put WT_FAULT WT_FAULT_HB 1 |>.put WT_FAULT WT_FAULT_SINK 1).tick 5) .sup WT_FAULT (2 ^ WT_FAULT_HB.lo + 2 ^ WT_FAULT_SINK.lo) (fun u w => bit w.toNat WT_FAULT_HB.lo && u.causePresent WT_FAULT_HB && bit w.toNat WT_FAULT_SINK.lo && !u.causePresent WT_FAULT_SINK) = true := by decide +kernel

theorem meets_SupervisorCompletes_nop :
    lit.svUp = true ∧ lit.islUp islGate = true ∧ svFail (svBytes 0 7 0 0) 96 = none ∧ lit.sv.last ≠ some ((svBytes 0 7 0 0).take 11) ∧ fieldAt (svBytes 0 7 0 0) 0 1 = 0 := by decide +kernel

theorem meets_SupervisorCompletes_read :
    svFail (svBytes 1 7 SY_BOOT_STAT 0) 96 = none ∧ lit.sv.last ≠ some ((svBytes 1 7 SY_BOOT_STAT 0).take 11) ∧ fieldAt (svBytes 1 7 SY_BOOT_STAT 0) 0 1 = 1 := by decide +kernel

theorem meets_SupervisorCompletes_write :
    svFail (svBytes 2 8 WT_FTL 1) 96 = none ∧ lit.sv.last ≠ some ((svBytes 2 8 WT_FTL 1).take 11) ∧ fieldAt (svBytes 2 8 WT_FTL 1) 0 1 = 2 := by decide +kernel

theorem meets_SupervisorCompletes_unwatched :
    (lit.on SV_HB_CFG SV_HB_CFG_EN && lit.boot.applied) = false := by decide +kernel

theorem meets_SupervisorCompletes_repeat_nop :
    (repeating 0).svUp = true ∧ (repeating 0).islUp islGate = true ∧ (repeating 0).sv.last = some ((svFrame 0).take 11) ∧ svFail (svFrame 0) 96 = none ∧ fieldAt (svFrame 0) 0 1 = 0 := by decide +kernel

theorem meets_SupervisorCompletes_repeat_read :
    (repeating 1).svUp = true ∧ (repeating 1).islUp islGate = true ∧ (repeating 1).sv.last = some ((svFrame 1).take 11) ∧ svFail (svFrame 1) 96 = none ∧ fieldAt (svFrame 1) 0 1 = 1 := by decide +kernel

theorem meets_SupervisorCompletes_repeat_write :
    (repeating 2).svUp = true ∧ (repeating 2).islUp islGate = true ∧ (repeating 2).sv.last = some ((svFrame 2).take 11) ∧ svFail (svFrame 2) 96 = none ∧ fieldAt (svFrame 2) 0 1 = 2 := by decide +kernel

theorem meets_SupervisorCompletes_bad :
    svFail ((svBytes 2 8 WT_FTL 1).take 11 ++ [0]) 96 = some 1 := by decide +kernel

/-- DMA and blit channels granted to the supervisor, with n bytes of memory at 0x5000000. -/
def engines (bs : List Byte) : State :=
  let s := dram lit
  ({ s with locket := { s.locket with grants := [⟨4, 3, 0, 32, true, true, true⟩, ⟨4, 4, 0, 8, true, true, true⟩, ⟨4, 0, 0, 256, true, true, true⟩] } }).wrBytes 0x5000000 bs
/-- Port 0 reads the engines' events, and its backlog is full. -/
def crowdEv (s : State) : State :=
  ({ s with locket := { s.locket with grants := s.locket.grants ++ ([⟨0, 3, 0, 32, false, true, false⟩, ⟨0, 4, 0, 8, false, true, false⟩] : List Grant) } }).setEvAt 0 { PortEv.reset with reserved := 4096 }
/-- The conditions of takesStatus, block by block. -/
def takes (s : State) (a : Nat) : Bool := ((List.range 64).all fun i => (windowOf (a + i)).isNone) && s.subsUp && !s.poisoned a 64
theorem takes_status {s : State} {a : Nat} (h : takes s a = true) : s.takesStatus a := by
  simp only [takes, Bool.and_eq_true, List.all_eq_true, List.mem_range, Bool.not_eq_true', Option.isNone_iff_eq_none] at h
  refine ⟨fun b h1 h2 => ?_, h.1.2, h.2⟩
  have := h.1.1 (b - a) (by omega)
  rwa [Nat.add_sub_cancel' h1] at this
/-- A descriptor of 64 bytes from 0x5002000 to 0x5004000 with flags, trigger and OWN. -/
def descBytes (flags trig own : Nat) : List Byte :=
  leBytes 8 0x5002000 ++ leBytes 8 0x5004000 ++ leBytes 4 64 ++ leBytes 2 1 ++ zeros 10 ++ leBytes 2 flags ++ leBytes 2 trig ++ zeros 24 ++ leBytes 4 (own * 2 ^ 31)
def dRun (flags : Nat) (out : List Nat) (written : Nat) : DmaRun := ⟨0x5000000, descBytes flags 0 1, 64, out, [], written, [], none, 5, false, none, false, none⟩
def dmaOn (bs : List Byte) (st : Nat) (ch : DmaCh) : State := (((engines bs).setDmaAt 31 ch).setDmState 31 st).setCur 31 0x5000000
def dma (st : Nat) (ch : DmaCh) : State := dmaOn (descBytes 0 0 1) st ch
def onTimer : DmaRun := ⟨0x5000000, descBytes 0 (1 + 5 * 16) 1, 0, [], [], 0, [], none, 5, true, none, false, none⟩
def dmaStartS (base : Nat) : State := (dma 4 DmaCh.reset).put (DM_BASE_LO 31) DM_BASE_LO_BASE (base / 64)
def seekEntry : DmaCh := { DmaCh.reset with want := .entry }
def seekLink (w : List Byte) : State := ((dma 1 { DmaCh.reset with want := .link }).setLast 31 0x5000000).wrBytes 0x5000028 w
def enginesPark (s : State) : State := { s with park := { s.park with step := 4 } }
/-- A descriptor that a tick of hub timer 5 starts. -/
def timed : State := dmaOn (descBytes 0 81 1) 1 seekEntry
def startWord : Nat := 2 ^ DM_CTRL_START.lo
def abortWord : Nat := 2 ^ DM_CTRL_ABORT.lo
def startOk (u : State) (w : Word) : Bool := getField w DM_CTRL_ABORT == 0 && getField w DM_CTRL_START == 1 && u.dmState 31 == 4 && !(u.dmaAt 31).seeking && (u.dmaOwner 31) == some 4 && u.engUp
def startWords : List Nat := [DM_STAT 31, DM_LAST_LO 31, DM_CUR_LO 31, DM_CUR_HI 31] ++ controlWords

theorem meets_DmaControlCompletes_start :
    passes ((dmaStartS 0x5000000).tick 5) .sup (DM_CTRL 31) startWord (fun u w => startOk u w && u.reaches 4 .control (u.dmaBase 31) 64 && u.canReserve 3 31) = true := by decide +kernel

theorem meets_DmaControlCompletes_start_waits :
    passes ((crowdEv (dmaStartS 0x5000000)).tick 5) .sup (DM_CTRL 31) startWord (fun u w => startOk u w && u.reaches 4 .control (u.dmaBase 31) 64 && !u.canReserve 3 31) = true := by decide +kernel

theorem meets_DmaControlCompletes_start_out_of_reach :
    passes ((dmaStartS 64).tick 5) .sup (DM_CTRL 31) startWord (fun u w => startOk u w && !u.reaches 4 .control (u.dmaBase 31) 64) = true := by decide +kernel

theorem meets_DmaControlCompletes_abort_at_rest :
    passes ((dma 4 DmaCh.reset).tick 5) .sup (DM_CTRL 31) abortWord (fun u w => getField w DM_CTRL_ABORT == 1 && u.dmState 31 == 4 && !(u.dmaAt 31).seeking) = true := by decide +kernel

theorem meets_DmaControlCompletes_abort :
    passes ((dma 1 seekEntry).tick 5) .sup (DM_CTRL 31) abortWord (fun u w => getField w DM_CTRL_ABORT == 1 && u.dmState 31 == 1 && (u.dmaAt 31).run == none && (windowOf (u.dmaCur 31)).isNone) = true := by decide +kernel

theorem meets_DmaControlCompletes_abort_in_window :
    passes (((dma 1 seekEntry).setCur 31 (hwBase 0)).tick 5) .sup (DM_CTRL 31) abortWord (fun u w => getField w DM_CTRL_ABORT == 1 && u.dmState 31 == 1 && (u.dmaAt 31).run == none && (u.dmaAt 31).want == .entry && (u.dmaAt 31).wantAt != u.dtime && (windowOf (u.dmaCur 31)).isSome) = true := by decide +kernel

theorem meets_DmaControlCompletes_abort_waiting :
    passes ((dma 2 { DmaCh.reset with run := some onTimer }).tick 5) .sup (DM_CTRL 31) abortWord (fun u w => getField w DM_CTRL_ABORT == 1 && u.dmState 31 == 2 && (u.dmaAt 31).run == some onTimer && onTimer.waiting && takes u onTimer.addr) = true := by decide +kernel

theorem meets_DmaControlCompletes_abort_running :
    passes ((dma 1 { DmaCh.reset with run := some (dRun 0 [0] 0) }).tick 5) .sup (DM_CTRL 31) abortWord (fun u w => getField w DM_CTRL_ABORT == 1 && u.dmState 31 == 1 && (u.dmaAt 31).run == some (dRun 0 [0] 0) && !u.qHolds (u.dmQueue 31) 31 0 && !(dRun 0 [0] 0).waiting) = true := by decide +kernel

theorem meets_DmaControlCompletes_abort_done :
    (dma 1 { DmaCh.reset with run := some { dRun 0 [0] 0 with aborting := some 1 } }).abortDue 31 = true ∧ takes (dma 1 { DmaCh.reset with run := some { dRun 0 [0] 0 with aborting := some 1 } }) 0x5000000 = true := by decide +kernel

theorem meets_DmaControlCompletes_doorbell :
    passes ((dma 1 DmaCh.reset).tick 5) .sup (DM_DB 31) 1 (fun u w => getField w DM_DB_RING == 1 && !u.bellWaits .sup (DM_DB 31) && u.dmState 31 != 3) = true := by decide +kernel

theorem meets_DmaControlCompletes_doorbell_waits :
    passes ({ dma 1 DmaCh.reset with bells := [⟨.sup, DM_DB 0, 1⟩] }.tick 5) .sup (DM_DB 31) 1 (fun u w => getField w DM_DB_RING == 1 && u.bellWaits .sup (DM_DB 31)) = true := by decide +kernel

theorem meets_DmaControlCompletes_doorbell_parked :
    passes ((dma 3 DmaCh.reset).tick 5) .sup (DM_DB 31) 1 (fun u w => getField w DM_DB_RING == 1 && !u.bellWaits .sup (DM_DB 31) && u.dmState 31 == 3 && !(u.dmaAt 31).seeking && u.park.step == 0 && u.engUp && u.dmaOwner 31 == some 4 && u.reaches 4 .control (u.dmaCur 31) 64 && u.canReserve 3 31) = true := by decide +kernel

theorem meets_DmaControlCompletes_doorbell_parked_link :
    passes (((dma 3 DmaCh.reset).setLast 31 0x5000000).tick 5) .sup (DM_DB 31) 1 (fun u w => getField w DM_DB_RING == 1 && !u.bellWaits .sup (DM_DB 31) && u.dmState 31 == 3 && !(u.dmaAt 31).seeking && u.park.step == 0 && u.engUp && u.dmaOwner 31 == some 4 && u.lastValid 31) = true := by decide +kernel

theorem meets_DmaControlCompletes_tick :
    (((dma 2 { DmaCh.reset with run := some onTimer }).put (HT_CTRL 5) HT_CTRL_EN 1 |>.wrN (HT_PERIOD 5) 1000).tick 1000001000).timerTicks 5 = true ∧ (dma 2 DmaCh.reset).engUp = true ∧ ((dma 2 { DmaCh.reset with run := some onTimer }).dmaAt 31).run = some onTimer ∧ onTimer.waiting = true ∧ descKind onTimer.desc = 1 ∧ descUnit onTimer.desc = (5 : Fin 16).val ∧ descArg onTimer.desc = 0 := by decide +kernel

theorem meets_DmaDataCompletes_no_entry :
    (dmaOn (descBytes 0 0 0) 1 seekEntry).engUp = true ∧ ((dmaOn (descBytes 0 0 0) 1 seekEntry).dmaAt 31).want = .entry ∧ (dmaOn (descBytes 0 0 0) 1 seekEntry).abortWaits 31 = false ∧ (dmaOn (descBytes 0 0 0) 1 seekEntry).dmaOwner 31 = some 4 ∧ (dmaOn (descBytes 0 0 0) 1 seekEntry).dmaCur 31 = 0x5000000 ∧ windowOf 0x5000000 = none ∧ (dmaOn (descBytes 0 0 0) 1 seekEntry).memGood 0x5000000 64 = true ∧ bit (fieldAt ((dmaOn (descBytes 0 0 0) 1 seekEntry).rdBytes 0x5000000 64) 60 4) 31 = false ∧ (dmaOn (descBytes 0 0 0) 1 seekEntry).on (DM_STAT 31) DM_STAT_PEND = false := by decide +kernel

theorem meets_DmaDataCompletes_entry_while_parking :
    (enginesPark (dma 1 seekEntry)).engUp = true ∧ ((enginesPark (dma 1 seekEntry)).dmaAt 31).want = .entry ∧ (enginesPark (dma 1 seekEntry)).memGood 0x5000000 64 = true ∧ bit (fieldAt ((enginesPark (dma 1 seekEntry)).rdBytes 0x5000000 64) 60 4) 31 = true ∧ (enginesPark (dma 1 seekEntry)).park.step ≠ 0 := by decide +kernel

theorem meets_DmaDataCompletes_entry :
    ((dma 1 seekEntry).dmaAt 31).want = .entry ∧ (dma 1 seekEntry).park.step = 0 ∧ (dma 1 seekEntry).dmaOwner 31 = some 4 ∧ (dma 1 seekEntry).dmaCur 31 = 0x5000000 ∧ (dma 1 seekEntry).memGood 0x5000000 64 = true ∧ (dma 1 seekEntry).rdBytes 0x5000000 64 = descBytes 0 0 1 ∧ bit (fieldAt (descBytes 0 0 1) 60 4) 31 = true ∧ descKind (descBytes 0 0 1) = 0 ∧ (((dma 1 seekEntry).tick 5).reserve ((dma 1 seekEntry).readersOf 3 31)).any (fun y => y.descRefusal 31 4 (descBytes 0 0 1) == none) = true := by decide +kernel

theorem meets_DmaDataCompletes_entry_waits :
    (timed.dmaAt 31).want = .entry ∧ timed.park.step = 0 ∧ timed.rdBytes 0x5000000 64 = descBytes 0 81 1 ∧ descKind (descBytes 0 81 1) ≠ 0 ∧ (timed.tick 5).trigNow (descKind (descBytes 0 81 1)) (descUnit (descBytes 0 81 1)) (descArg (descBytes 0 81 1)) = false ∧ ((timed.tick 5).reserve (timed.readersOf 3 31)).any (fun y => y.descRefusal 31 4 (descBytes 0 81 1) == none) = true := by decide +kernel

theorem meets_DmaDataCompletes_entry_refused :
    ((dmaOn (descBytes 8 0 1) 1 seekEntry).dmaAt 31).want = .entry ∧ (dmaOn (descBytes 8 0 1) 1 seekEntry).park.step = 0 ∧ (dmaOn (descBytes 8 0 1) 1 seekEntry).on (DM_CFG 31) DM_CFG_ONERR = false ∧ takes (dmaOn (descBytes 8 0 1) 1 seekEntry) 0x5000000 = true ∧ (dmaOn (descBytes 8 0 1) 1 seekEntry).rdBytes 0x5000000 64 = descBytes 8 0 1 ∧ bit (fieldAt (descBytes 8 0 1) 60 4) 31 = true ∧ (((dmaOn (descBytes 8 0 1) 1 seekEntry).tick 5).reserve ((dma 1 seekEntry).readersOf 3 31)).any (fun y => y.descRefusal 31 4 (descBytes 8 0 1) != none) = true := by decide +kernel

theorem meets_DmaDataCompletes_link :
    ((seekLink (leBytes 8 0x5000040)).dmaAt 31).want = .link ∧ (seekLink (leBytes 8 0x5000040)).abortWaits 31 = false ∧ (seekLink (leBytes 8 0x5000040)).dmaLastAt 31 + 40 = 0x5000028 ∧ (seekLink (leBytes 8 0x5000040)).memGood 0x5000028 8 = true ∧ bit (leNat ((seekLink (leBytes 8 0x5000040)).rdBytes 0x5000028 8)) 0 = false ∧ (seekLink (leBytes 8 0x5000040)).dmaOwner 31 = some 4 ∧ (seekLink (leBytes 8 0x5000040)).reaches 4 .control 0x5000040 64 = true ∧ (seekLink (leBytes 8 0x5000040)).canReserve 3 31 = true := by decide +kernel

theorem meets_DmaDataCompletes_link_waits :
    ((crowdEv (seekLink (leBytes 8 0x5000040))).dmaAt 31).want = .link ∧ (crowdEv (seekLink (leBytes 8 0x5000040))).reaches 4 .control 0x5000040 64 = true ∧ (crowdEv (seekLink (leBytes 8 0x5000040))).canReserve 3 31 = false := by decide +kernel

theorem meets_DmaDataCompletes_link_out_of_reach :
    ((seekLink (zeros 8)).dmaAt 31).want = .link ∧ bit (leNat ((seekLink (zeros 8)).rdBytes 0x5000028 8)) 0 = false ∧ (seekLink (zeros 8)).reaches 4 .control 0 64 = false := by decide +kernel

theorem meets_DmaDataCompletes_link_end :
    (seekLink (1 :: zeros 7)).on (DM_STAT 31) DM_STAT_PEND = false ∧ ((seekLink (1 :: zeros 7)).dmaAt 31).want = .link ∧ bit (leNat ((seekLink (1 :: zeros 7)).rdBytes 0x5000028 8)) 0 = true := by decide +kernel

theorem meets_DmaDataCompletes_data :
    ((dma 1 { DmaCh.reset with run := some (dRun 0 [0] 0) }).dmaAt 31).run = some (dRun 0 [0] 0) ∧ 0 ∈ (dRun 0 [0] 0).out ∧ (dma 1 { DmaCh.reset with run := some (dRun 0 [0] 0) }).qHolds ((dma 1 DmaCh.reset).dmQueue 31) 31 0 = false ∧ (dRun 0 [0] 0).aborting = none ∧ (dRun 0 [0] 0).got = [] ∧ (dRun 0 [0] 0).written = 0 ∧ windowOf (descSrcAt (dRun 0 [0] 0).desc 0) = none ∧ (dma 1 DmaCh.reset).memGood 0x5002000 64 = true ∧ descFlag (dRun 0 [0] 0).desc 5 = false ∧ windowOf (descDstAt (dRun 0 [0] 0).desc 0) = none ∧ (dma 1 DmaCh.reset).subsUp = true ∧ (dma 1 DmaCh.reset).poisoned 0x5004000 64 = false := by decide +kernel

theorem meets_DmaDataCompletes_data_nowr :
    ((dma 1 { DmaCh.reset with run := some (dRun 32 [0] 0) }).dmaAt 31).run = some (dRun 32 [0] 0) ∧ descFlag (dRun 32 [0] 0).desc 5 = true ∧ (dRun 32 [0] 0).got = [] ∧ (dma 1 { DmaCh.reset with run := some (dRun 32 [0] 0) }).qHolds ((dma 1 DmaCh.reset).dmQueue 31) 31 0 = false := by decide +kernel

theorem meets_DmaDataCompletes_done :
    (dma 1 { DmaCh.reset with run := some (dRun 0 [] 64) }).dmaDoneDue 31 = true ∧ (dRun 0 [] 64).marked = [] ∧ descFlag (dRun 0 [] 64).desc 1 = false ∧ descFlag (dRun 0 [] 64).desc 4 = false ∧ takes (dma 1 { DmaCh.reset with run := some (dRun 0 [] 64) }) 0x5000000 = true := by decide +kernel

theorem meets_DmaDataCompletes_done_fenced :
    (dma 1 { DmaCh.reset with run := some { dRun 2 [] 64 with acked := true } }).dmaDoneDue 31 = true ∧ (dma 1 { DmaCh.reset with run := some (dRun 2 [] 64) }).dmaDoneDue 31 = false ∧ toWindow (dRun 2 [] 64).desc = false ∧ descFlag (dRun 2 [] 64).desc 1 = true ∧ takes (dma 1 { DmaCh.reset with run := some (dRun 2 [] 64) }) 0x5000000 = true := by decide +kernel

/-- A FILL of 8 × 4 pixels of surface 5 on a trigger. -/
def jobBytes (trig : Nat) : List Byte := [2, 0, 0, 0] ++ leBytes 4 noHandle ++ leBytes 4 5 ++ zeros 8 ++ leBytes 2 8 ++ leBytes 2 4 ++ leBytes 8 0xAABBCCDD ++ leBytes 2 trig ++ zeros 30
def bRun (waiting : Bool) (steps band : Nat) : BlitRun := ⟨0x5000000, jobBytes 0, 0, pic, pic, none, 5, waiting, true, some 1000000000, steps, [], none, band, 1000000000, false⟩
/-- Blit channel 7 in a state, its ring of 16 jobs at 0x5000000. -/
def blit (st : Nat) (ch : BlitCh) : State :=
  let s := ((engines (jobBytes (1 + 5 * 16))).setSurfAt 5 pic).setBlitAt 7 ch
  ((s.setBlState 7 st).put (BL_CFG 7) BL_CFG_LOG2 4).put (BL_RING_LO 7) BL_RING_LO_BASE 0x5000
def blOn (st : Nat) (ch : BlitCh) : State := (blit st ch).put (BL_CTRL 7) BL_CTRL_EN 1

/-- Channel 7 reads the job of the ring's first entry. -/
def toRead (j : List Byte) : State := (blOn 1 { BlitCh.reset with reading := true, prod := 1 }).wrBytes 0x5000000 j
/-- The same 100 ns after the end of the job before, with a dead time of 1000 ns. -/
def toReadSoon : State := ((toRead (jobBytes 0)).put (BL_PACE 7) BL_PACE_DEAD_NS 1000).setBlitAt 7 { (toRead (jobBytes 0)).blitAt 7 with lastEnd := some 999999900 }
/-- Channel 7 granted to port 0. -/
def blHost : State :=
  let s := (((blOn 1 BlitCh.reset).put (HP_LINK 0) HP_LINK_UP 1).put (HP_LINK 0) HP_LINK_BME 1).setPortAt 0 { Port.reset with mse := true }
  { s with locket := { s.locket with grants := [⟨0, 4, 0, 8, true, true, true⟩] } }

theorem meets_BlitControlCompletes_enable :
    passes ((blit 0 BlitCh.reset).tick 5) .sup (BL_CTRL 7) (2 ^ BL_CTRL_EN.lo) (fun u w => getField w BL_CTRL_EN == 1 && getField w BL_CTRL_ABORT == 0 && !u.on (BL_CTRL 7) BL_CTRL_EN && u.blState 7 == 0 && (u.blitOwner 7).isSome && (u.blitAt 7).prod == u.blCons 7) = true := by decide +kernel

theorem meets_BlitControlCompletes_disable :
    passes ((blOn 1 { BlitCh.reset with reading := true }).tick 5) .sup (BL_CTRL 7) 0 (fun u w => getField w BL_CTRL_EN == 0 && getField w BL_CTRL_ABORT == 0 && u.blState 7 == 1) = true := by decide +kernel

theorem meets_BlitControlCompletes_disable_running :
    passes ((blOn 3 { BlitCh.reset with run := some (bRun false 0 0) }).tick 5) .sup (BL_CTRL 7) 0 (fun u w => getField w BL_CTRL_EN == 0 && getField w BL_CTRL_ABORT == 0 && u.blState 7 == 3) = true := by decide +kernel

theorem meets_BlitControlCompletes_disable_halted :
    passes ((blOn 4 BlitCh.reset).tick 5) .sup (BL_CTRL 7) 0 (fun u w => getField w BL_CTRL_EN == 0 && getField w BL_CTRL_ABORT == 0 && u.blState 7 == 4) = true := by decide +kernel

theorem meets_BlitControlCompletes_abort :
    passes ((blOn 3 { BlitCh.reset with run := some (bRun false 0 0) }).tick 5) .sup (BL_CTRL 7) (2 ^ BL_CTRL_EN.lo + 2 ^ BL_CTRL_ABORT.lo) (fun u w => getField w BL_CTRL_EN == 1 && getField w BL_CTRL_ABORT == 1 && u.on (BL_CTRL 7) BL_CTRL_EN && u.blState 7 == 3 && takes u (bRun false 0 0).addr) = true := by decide +kernel

theorem meets_BlitControlCompletes_abort_idle :
    passes ((blOn 1 { BlitCh.reset with reading := true }).tick 5) .sup (BL_CTRL 7) (2 ^ BL_CTRL_EN.lo + 2 ^ BL_CTRL_ABORT.lo) (fun u w => getField w BL_CTRL_EN == 1 && getField w BL_CTRL_ABORT == 1 && u.blState 7 == 1 && (u.blitAt 7).run == none) = true := by decide +kernel

theorem meets_BlitControlCompletes_doorbell :
    passes ((blOn 1 BlitCh.reset).tick 5) .sup (BL_DB 7) 16 (fun u w => !u.bellWaits .sup (BL_DB 7) && u.blitOwner 7 == some 4 && getField w BL_DB_PROD == 16 && (0 ≤ sdiff 16 16 (u.blitAt 7).prod) && !u.blitOverrun 7 16 && u.blState 7 == 1 && u.park.step == 0 && u.blitRingOk 7 4 && u.canReserve 4 7) = true := by decide +kernel

theorem meets_BlitControlCompletes_doorbell_ring_bad :
    passes (((blOn 1 BlitCh.reset).put (BL_RING_LO 7) BL_RING_LO_BASE 1).tick 5) .sup (BL_DB 7) 16 (fun u w => !u.bellWaits .sup (BL_DB 7) && getField w BL_DB_PROD == 16 && !u.blitOverrun 7 16 && u.blState 7 == 1 && u.park.step == 0 && !u.blitRingOk 7 4) = true := by decide +kernel

theorem meets_BlitControlCompletes_doorbell_waits :
    passes ({ blOn 1 BlitCh.reset with bells := [⟨.sup, DM_DB 0, 1⟩] }.tick 5) .sup (BL_DB 7) 16 (fun u _ => u.bellWaits .sup (BL_DB 7)) = true := by decide +kernel

theorem meets_BlitControlCompletes_doorbell_stale :
    passes (blHost.tick 5) (.host 0) (BL_DB 7) 0x50001 (fun u w => !u.bellWaits (.host 0) (BL_DB 7) && u.blitOwner 7 == some 0 && getField w BL_DB_EPOCH != u.get (HP_EPOCH 0) HP_EPOCH_EPOCH) = true := by decide +kernel

theorem meets_BlitControlCompletes_doorbell_back :
    passes ((blOn 1 { BlitCh.reset with prod := 3 }).tick 5) .sup (BL_DB 7) 2 (fun u w => !u.bellWaits .sup (BL_DB 7) && u.blitOwner 7 == some 4 && decide (sdiff 16 (getField w BL_DB_PROD) (u.blitAt 7).prod < 0)) = true := by decide +kernel

theorem meets_BlitControlCompletes_doorbell_beyond :
    passes ((blOn 1 BlitCh.reset).tick 5) .sup (BL_DB 7) 17 (fun u w => !u.bellWaits .sup (BL_DB 7) && u.blitOwner 7 == some 4 && (0 ≤ sdiff 16 (getField w BL_DB_PROD) (u.blitAt 7).prod) && u.blitOverrun 7 (getField w BL_DB_PROD) && u.blState 7 == 1 && u.park.step == 0 && (u.blitAt 7).run == none) = true := by decide +kernel

theorem meets_BlitControlCompletes_doorbell_beyond_running :
    passes ((blOn 3 { BlitCh.reset with run := some (bRun false 0 0) }).tick 5) .sup (BL_DB 7) 17 (fun u w => !u.bellWaits .sup (BL_DB 7) && u.blitOwner 7 == some 4 && (0 ≤ sdiff 16 (getField w BL_DB_PROD) (u.blitAt 7).prod) && u.blitOverrun 7 (getField w BL_DB_PROD) && u.blState 7 == 3 && u.park.step == 0 && (u.blitAt 7).run != none) = true := by decide +kernel

theorem meets_BlitControlCompletes_dead_time :
    ((blOn 2 { BlitCh.reset with run := some (bRun true 0 0), lastEnd := some 900000000 }).tick 5).deadDue 7 = true ∧ ((blOn 2 { BlitCh.reset with run := some (bRun true 0 0), lastEnd := some 900000000 }).blitAt 7).run = some (bRun true 0 0) := by decide +kernel

theorem meets_BlitControlCompletes_slot :
    ((blOn 3 { BlitCh.reset with run := some (bRun false 1 0) }).tick 5).slotDue 7 = true ∧ ((blOn 3 { BlitCh.reset with run := some (bRun false 1 0) }).blitAt 7).run = some (bRun false 1 0) ∧ (bRun false 1 0).band < (bRun false 1 0).steps := by decide +kernel

theorem meets_BlitControlCompletes_slip :
    ((blOn 3 { BlitCh.reset with run := some (bRun false 1 1) }).tick 5).slotDue 7 = true ∧ (bRun false 1 1).steps ≤ (bRun false 1 1).band := by decide +kernel

theorem meets_BlitDataCompletes_job :
    (toRead (jobBytes (1 + 5 * 16))).engUp = true ∧ ((toRead (jobBytes (1 + 5 * 16))).blitAt 7).reading = true ∧ (toRead (jobBytes (1 + 5 * 16))).park.step = 0 ∧ (toRead (jobBytes (1 + 5 * 16))).blitOwner 7 = some 4 ∧ (toRead (jobBytes (1 + 5 * 16))).jobAddr 7 = 0x5000000 ∧ windowOf 0x5000000 = none ∧ (toRead (jobBytes (1 + 5 * 16))).memGood 0x5000000 64 = true ∧ (toRead (jobBytes (1 + 5 * 16))).rdBytes 0x5000000 64 = jobBytes (1 + 5 * 16) ∧ (((toRead (jobBytes (1 + 5 * 16))).tick 5).reserve ((toRead (jobBytes (1 + 5 * 16))).readersOf 4 7)).any (fun y => y.jobRefusal 7 4 (jobBytes (1 + 5 * 16)) == none) = true ∧ jobKind (jobBytes (1 + 5 * 16)) ≠ 0 ∧ ((toRead (jobBytes (1 + 5 * 16))).tick 5).trigNow (jobKind (jobBytes (1 + 5 * 16))) (jobUnit (jobBytes (1 + 5 * 16))) (jobArg (jobBytes (1 + 5 * 16))) = false := by decide +kernel

theorem meets_BlitDataCompletes_job_starts :
    (toRead (jobBytes 0)).engUp = true ∧ ((toRead (jobBytes 0)).blitAt 7).reading = true ∧ (toRead (jobBytes 0)).park.step = 0 ∧ (toRead (jobBytes 0)).blitOwner 7 = some 4 ∧ (toRead (jobBytes 0)).jobAddr 7 = 0x5000000 ∧ windowOf 0x5000000 = none ∧ (toRead (jobBytes 0)).memGood 0x5000000 64 = true ∧ (toRead (jobBytes 0)).rdBytes 0x5000000 64 = jobBytes 0 ∧ (((toRead (jobBytes 0)).tick 5).reserve ((toRead (jobBytes 0)).readersOf 4 7)).any (fun y => y.jobRefusal 7 4 (jobBytes 0) == none) = true ∧ jobKind (jobBytes 0) = 0 ∧ ((toRead (jobBytes 0)).tick 5).deadOver 7 = true := by decide +kernel

theorem meets_BlitDataCompletes_job_dead_time :
    (toReadSoon).engUp = true ∧ ((toReadSoon).blitAt 7).reading = true ∧ (toReadSoon).park.step = 0 ∧ (toReadSoon).blitOwner 7 = some 4 ∧ (toReadSoon).jobAddr 7 = 0x5000000 ∧ windowOf 0x5000000 = none ∧ (toReadSoon).memGood 0x5000000 64 = true ∧ (toReadSoon).rdBytes 0x5000000 64 = jobBytes 0 ∧ (((toReadSoon).tick 5).reserve ((toReadSoon).readersOf 4 7)).any (fun y => y.jobRefusal 7 4 (jobBytes 0) == none) = true ∧ jobKind (jobBytes 0) = 0 ∧ ((toReadSoon).tick 5).deadOver 7 = false := by decide +kernel

theorem meets_BlitDataCompletes_job_refused :
    (toRead (jobBytes 2)).engUp = true ∧ ((toRead (jobBytes 2)).blitAt 7).reading = true ∧ (toRead (jobBytes 2)).park.step = 0 ∧ (toRead (jobBytes 2)).blitOwner 7 = some 4 ∧ (toRead (jobBytes 2)).jobAddr 7 = 0x5000000 ∧ windowOf 0x5000000 = none ∧ (toRead (jobBytes 2)).memGood 0x5000000 64 = true ∧ (toRead (jobBytes 2)).rdBytes 0x5000000 64 = jobBytes 2 ∧ (((toRead (jobBytes 2)).tick 5).reserve ((toRead (jobBytes 2)).readersOf 4 7)).any (fun y => y.jobRefusal 7 4 (jobBytes 2) != none) = true ∧ (toRead (jobBytes 2)).on (BL_CFG 7) BL_CFG_ONERR = false ∧ takes (toRead (jobBytes 2)) 0x5000000 = true := by decide +kernel

theorem meets_BlitDataCompletes_row :
    (blOn 3 { BlitCh.reset with run := some (bRun false 2 3) }).stepDue 7 = true ∧ (blOn 3 BlitCh.reset).poison = [] ∧ ((blOn 3 { BlitCh.reset with run := some (bRun false 2 3) }).blitAt 7).run = some (bRun false 2 3) ∧ (stepPlane (bRun false 2 3).job (bRun false 2 3).planes 0 2).isSome = true := by decide +kernel

theorem meets_BlitDataCompletes_done :
    ((blOn 3 { BlitCh.reset with run := some (bRun false 4 4), prod := 1 }).tick 5).blitDoneDue 7 = true ∧ ((blOn 3 { BlitCh.reset with run := some (bRun false 4 4), prod := 1 }).blitAt 7).run = some (bRun false 4 4) ∧ (bRun false 4 4).firstErr = none ∧ takes (blOn 3 { BlitCh.reset with run := some (bRun false 4 4), prod := 1 }) (bRun false 4 4).addr = true := by decide +kernel

def flashReady : State := (installing lit).wrN XS_ADDR 0x2200000
def xsVal (op len : Nat) : Nat := op * 2 ^ XS_CMD_OP.lo + len * 2 ^ XS_CMD_LEN.lo
def xsJob (op len : Nat) : State := { lit with xs := some ⟨op, 0, len, 0x2200000, (zeros len), 900000000⟩ }

theorem meets_FlashCommandsComplete_read :
    passes (flashReady.tick 5) .sup XS_CMD (xsVal 1 4) (fun u w => getField (BitVec.ofNat 32 (xsVal 1 4)) XS_CMD_OP == getField w XS_CMD_OP && getField w XS_CMD_OP == 1 && u.xsArgsOk 1 (getField w XS_CMD_CS) (getField w XS_CMD_LEN) (u.rdN XS_ADDR) && !u.xsRefused 1 (getField w XS_CMD_CS) (u.rdN XS_ADDR) (getField w XS_CMD_LEN)) = true := by decide +kernel

theorem meets_FlashCommandsComplete_program :
    passes (flashReady.tick 5) .sup XS_CMD (xsVal 2 4) (fun u w => getField (BitVec.ofNat 32 (xsVal 2 4)) XS_CMD_OP == getField w XS_CMD_OP && getField w XS_CMD_OP == 2 && u.xsArgsOk 2 (getField w XS_CMD_CS) (getField w XS_CMD_LEN) (u.rdN XS_ADDR) && !u.xsRefused 2 (getField w XS_CMD_CS) (u.rdN XS_ADDR) (getField w XS_CMD_LEN) && flashReady.xsRight && u.gate.queue.length < 64) = true := by decide +kernel

theorem meets_FlashCommandsComplete_erase :
    passes (flashReady.tick 5) .sup XS_CMD (xsVal 3 0) (fun u w => getField (BitVec.ofNat 32 (xsVal 3 0)) XS_CMD_OP == getField w XS_CMD_OP && getField w XS_CMD_OP == 3 && u.xsArgsOk 3 (getField w XS_CMD_CS) (getField w XS_CMD_LEN) (u.rdN XS_ADDR) && !u.xsRefused 3 (getField w XS_CMD_CS) (u.rdN XS_ADDR) (getField w XS_CMD_LEN) && flashReady.xsRight && u.gate.queue.length < 64) = true := by decide +kernel

theorem meets_FlashCommandsComplete_done :
    (xsJob 1 4).xs.isSome = true ∧ (xsJob 2 4).xs.isSome = true ∧ (xsJob 3 0).xs.isSome = true ∧ lit.islUp islXspi = true := by decide +kernel

theorem meets_FlashCommandsComplete_timeout :
    ((xsJob 2 4).tick 5).xsLate = true := by decide +kernel

theorem meets_FlashCommandsComplete_device_error :
    (xsJob 1 4).xs.isSome = true ∧ (xsJob 2 4).xs.isSome = true ∧ (xsJob 3 0).xs.isSome = true ∧ lit.islUp islXspi = true := by decide +kernel

/-- Whether a write is decided as one that lands, and what f asks of it. -/
def decides (s : State) (src : Src) (a v : Nat) (f : State → Word → RegRow → Bool) : Bool :=
  match decideWrite State.admChange s src a v with
  | .inr x => f x.1 x.2.1 x.2.2
  | .inl _ => false
/-- The supervisor granted every timeline and layer slot. -/
def owned : State := { lit with locket := { lit.locket with grants := [⟨4, 1, 0, 16, true, true, true⟩, ⟨4, 12, 0, 96, true, true, true⟩] } }
/-- A write of PV_BG_B of timeline 15 on its way. -/
def bgWrite : Posted := ⟨.sup, PV_BG_B 7 1, 5⟩
def inFlight (p : Posted) : State := owned.setPostedAt (groupAddr p.addr) (some p)

/-- A write of port 0 is held by its policer. -/
def hostHeld : State := (host 6).setPolAt 0 { Policer.reset with held := [⟨4, 0, 0x10000000, zeros 4, 0⟩] }

theorem meets_RegisterAccessesComplete_posted :
    (owned.tick 5).aliasAddr (PV_BG_B 7 1) ≠ XS_CMD ∧ decides (owned.tick 5) .sup ((owned.tick 5).aliasAddr (PV_BG_B 7 1)) 5 (fun _ _ r => r.posted) = true := by decide +kernel

theorem meets_RegisterAccessesComplete_timer :
    (installing owned).aliasAddr (HT_PERIOD 5) = HT_PERIOD 5 ∧ decides ((installing owned).tick 5) .sup (HT_PERIOD 5) 77 (fun _ _ r => !r.posted) = true ∧ 0x601000 ≤ HT_PERIOD 5 ∧ HT_PERIOD 5 < 0x700000 := by decide +kernel

theorem meets_RegisterAccessesComplete_plain_lands :
    (inFlight ⟨.sup, FN_FALLBACK_B 15, 5⟩).postedAt (groupAddr (FN_FALLBACK_B 15)) = some ⟨.sup, FN_FALLBACK_B 15, 5⟩ ∧ owned.delivers (FN_FALLBACK_B 15) = true ∧ (rowAt (FN_FALLBACK_B 15)).any (fun r => r.banking != .banked) = true := by decide +kernel

theorem meets_RegisterAccessesComplete_bank_lands :
    (inFlight bgWrite).postedAt (groupAddr bgWrite.addr) = some bgWrite ∧ owned.delivers bgWrite.addr = true ∧ (rowAt bgWrite.addr).any (fun r => r.banking == .banked) = true ∧ (owned.tlcAt (owned.bankTl bgWrite.addr)).handover = none ∧ owned.sealed (owned.bankTl bgWrite.addr) = false := by decide +kernel

theorem meets_RegisterAccessesComplete_bank_sealed :
    ((inFlight bgWrite).setSealed 15 true).sealed ((inFlight bgWrite).bankTl bgWrite.addr) = true ∧ ((inFlight bgWrite).setSealed 15 true).postedAt (groupAddr bgWrite.addr) = some bgWrite := by decide +kernel

theorem meets_RegisterAccessesComplete_bank_handover :
    (((inFlight bgWrite).setTlcAt 15 { TlCommits.reset with handover := some ⟨[3], 7, false, false, false⟩ }).tlcAt ((inFlight bgWrite).bankTl bgWrite.addr)).handover ≠ none := by decide +kernel

theorem meets_RegisterAccessesComplete_reads :
    Src.sup ≠ .jtag ∧ lit.srcUp .sup = true ∧ lit.writesWait .sup = false ∧ lit.islUp islDma = true ∧ ((lit.put DR_CFG DR_CFG_SUBCH_MASK 128)).islUp (islSub 7) = true ∧ bit ((lit.put DR_CFG DR_CFG_SUBCH_MASK 128).get DR_CFG DR_CFG_SUBCH_MASK) 7 = true := by decide +kernel

theorem meets_RegisterAccessesComplete_fold :
    ((lit.setDenialAt 3 ⟨some 900000000, 4, 8, 9, 1⟩).tick 5).foldDue 3 = true := by decide +kernel

theorem meets_RegisterAccessesComplete_read_waits :
    (hostHeld.srcUp (.host 0)) = true ∧ hostHeld.writesWait (.host 0) = true ∧ peakAddr DM_STAGE = true := by decide +kernel

/-- A key whose signature below is good for the challenge of nonce 0, part 0, rights 0x7F and counter 0; it was made backwards from the signature. -/
def sesKey : List Byte := beBytes 64 0x24FF799EBD9CB5AB60A4CEFF8929F746B3C348408E44DC3A596EF91A7716031BDC8115D4799DF2F91CD899522AC18339B75E6236700A984E95FA47686FDB3255
def sesSig : List Byte := beBytes 64 0x986F8F81E2313720BEC58194CEA46A6B32B12794DDFBE8F461BE66EA7F1E4E184C37C7C0F1189B905F62C0CA67523535995893CA6EFDF47A30DF33753F8F270C
def sesGate (ses : Session) : State := { lit with gate := { lit.gate with session := ses } }
def answering (sig : List Byte) : State := (sesGate { Session.reset with verify := some 999000000, rights := 0x7F, key := sesKey, sig := sig }).put GH_SES_STAT GH_SES_STAT_STATE 1
def opened (changed : Bool) : State := (installing (sesGate { Session.reset with changed := changed, lastAt := 1 })).put GH_SES_CFG GH_SES_CFG_IDLE_S 0
/-- An image with a session key that holds every right. -/
def keyed : State := ({ lit with locket := { lit.locket with keys := [⟨1, 0x7F, sesKey⟩] } }).putWords (GH_SES_KEY 0) sesKey |>.wrN GH_SES_RIGHTS 0x41

theorem meets_SessionsComplete_challenge :
    passes (keyed.tick 5) .sup GH_SES_CTRL 1 (fun u _ => !u.sessionOpen && !u.on GH_LOCK GH_LOCK_HARD && decide (u.gate.session.failAt + lockoutNs (u.get GH_SES_STAT GH_SES_STAT_FAILS) ≤ u.dtime) && u.keyRights (wordsBytes u (GH_SES_KEY 0) 16) == some 0x7F && (u.rdN GH_SES_RIGHTS &&& 0x7F) == u.rdN GH_SES_RIGHTS) = true := by decide +kernel

theorem meets_SessionsComplete_respond :
    passes (((sesGate { Session.reset with fresh := true, nonceAt := 999000000 }).put GH_SES_STAT GH_SES_STAT_STATE 1).tick 5) .sup GH_SES_CTRL 2 (fun u _ => !u.on GH_LOCK GH_LOCK_HARD && u.get GH_SES_STAT GH_SES_STAT_STATE == 1 && u.gate.session.fresh && decide (u.dtime ≤ u.gate.session.nonceAt + 10000000000)) = true := by decide +kernel

theorem meets_SessionsComplete_close :
    passes ((opened false).tick 5) .sup GH_SES_CTRL 3 (fun u _ => u.sessionOpen && !u.gate.session.changed) = true := by decide +kernel

theorem meets_SessionsComplete_close_changed :
    passes ((opened true).tick 5) .sup GH_SES_CTRL 3 (fun u _ => u.sessionOpen && u.gate.session.changed) = true := by decide +kernel

theorem meets_SessionsComplete_verify_good :
    (answering sesSig).gate.session.verify.isSome = true ∧ ecdsaVerifyMsg (answering sesSig).gate.session.key (answering sesSig).gate.session.sig (answering sesSig).challenge = true ∧ (answering sesSig).gate.queue.length < 64 := by decide +kernel

theorem meets_SessionsComplete_verify_bad :
    (answering (zeros 64)).gate.session.verify.isSome = true ∧ ecdsaVerifyMsg (answering (zeros 64)).gate.session.key (answering (zeros 64)).gate.session.sig (answering (zeros 64)).challenge = false := by decide +kernel

theorem meets_SessionsComplete_idle :
    ((opened false).tick 5).idleDue = true ∧ (opened false).gate.session.changed = false := by decide +kernel

theorem meets_SessionsComplete_lock :
    passes ((opened false).tick 5) .sup GH_LOCK (2 ^ GH_LOCK_HARD.lo) (fun u w => getField w GH_LOCK_HARD == 1 && !u.gate.session.changed) = true := by decide +kernel

theorem meets_SessionsComplete_respond_hard :
    passes ((lit.put GH_LOCK GH_LOCK_HARD 1).tick 5) .sup GH_SES_CTRL 2 (fun u _ => u.on GH_LOCK GH_LOCK_HARD) = true := by decide +kernel

def tokKey : List Byte := beBytes 64 0x588615851CA12805B19978A7299C7723FAA01A294B46212F257C522A90C7CB610016140216D84229AAA1C57677D118B56A2708F37B27CABEF4D3A80552F3CE33
/-- A consent token of scope 1 for 60 minutes, signed by tokKey. -/
def token : List Byte := leBytes 4 0x54534E43 ++ zeros 20 ++ leBytes 4 1 ++ leBytes 4 60 ++
  beBytes 64 0xD0419CE2B9FE81885EBF65F1DFC0F781EF8CE7B3C602606BA1CB6FF470F7B643D0419CE2B9FE81885EBF65F1DFC0F781EF8CE7B3C602606BA1CB6FF470F7B643
def tokened (t : List Byte) : State := ({ lit with locket := { lit.locket with keys := [⟨2, 0, tokKey⟩] } }).putWords (GH_TOK_DATA 0) t
def making : State := { ((tokened token).put GH_STAT GH_STAT_MAKER 1).put GH_TOK_STAT GH_TOK_STAT_SCOPE 1 with gate := { lit.gate with scope := 1, scopeEnd := 900000000 } }
def noImage : State := { lit with power := { lit.power with state := .waking }, boot := { lit.boot with phase := .noImage } }
def anEntry : Ledger := ⟨33, 5, 0, 1, 4, 2, 0, 1, [], [], 0⟩

theorem meets_GatehouseWorkCompletes_program :
    passes (noImage.tick 5) .sup GH_IKH_CTRL 1 (fun u w => getField w GH_IKH_CTRL_PROGRAM == 1 && u.boot.phase == .noImage && u.otp.ikh == none) = true := by decide +kernel

theorem meets_GatehouseWorkCompletes_program_again :
    passes (({ lit with otp := ⟨some [], 3⟩ } : State).tick 5) .sup GH_IKH_CTRL 1 (fun u w => getField w GH_IKH_CTRL_PROGRAM == 1 && u.otp.ikh != none) = true := by decide +kernel

theorem meets_GatehouseWorkCompletes_programmed :
    ({ lit with gate := { lit.gate with ikhBusy := true } } : State).gate.ikhBusy = true := by decide +kernel

theorem meets_GatehouseWorkCompletes_token :
    passes ((tokened token).tick 5) .sup GH_TOK_CTRL (2 ^ GH_TOK_CTRL_SUBMIT.lo) (fun u w => getField w GH_TOK_CTRL_SUBMIT == 1 && getField w GH_TOK_CTRL_END == 0 && u.tokenResult (wordsBytes u (GH_TOK_DATA 0) 24) == 0) = true := by decide +kernel

theorem meets_GatehouseWorkCompletes_token_bad :
    passes ((tokened (zeros 96)).tick 5) .sup GH_TOK_CTRL (2 ^ GH_TOK_CTRL_SUBMIT.lo) (fun u w => getField w GH_TOK_CTRL_SUBMIT == 1 && getField w GH_TOK_CTRL_END == 0 && u.tokenResult (wordsBytes u (GH_TOK_DATA 0) 24) == 1) = true := by decide +kernel

theorem meets_GatehouseWorkCompletes_token_end :
    passes (making.tick 5) .sup GH_TOK_CTRL (2 ^ GH_TOK_CTRL_END.lo) (fun u w => getField w GH_TOK_CTRL_SUBMIT == 0 && getField w GH_TOK_CTRL_END == 1 && u.gate.scope != 0) = true := by decide +kernel

theorem meets_GatehouseWorkCompletes_token_expiry :
    making.gate.scope ≠ 0 ∧ making.gate.scopeEnd ≤ (making.tick 5).dtime := by decide +kernel

theorem meets_GatehouseWorkCompletes_crc_go :
    passes (lit.tick 5) .sup GH_CFG_CTRL 1 (fun _ w => getField w GH_CFG_CTRL_GO == 1) = true := by decide +kernel

theorem meets_GatehouseWorkCompletes_crc_done :
    ({ lit with gate := { lit.gate with cfgRun := true } } : State).gate.cfgRun = true := by decide +kernel

theorem meets_GatehouseWorkCompletes_ledger :
    ({ lit with gate := { lit.gate with queue := [anEntry] } } : State).gate.queue = [anEntry] ∧ lit.islUp islXspi = true ∧ lit.xs = none := by decide +kernel

theorem meets_GatehouseWorkCompletes_jtag :
    lit.boot.phase ≠ .noImage := by decide +kernel

def fallen (m : List (Nat × Nat)) : State := { lit with isl := { Islands.reset with down := [⟨76, 1, 3⟩], moving := m } }

theorem meets_IslandsComplete_fault :
    lit.faultDue 60 1 = true ∧ lit.faultDue 107 3 = true ∧ ({ lit with isl := { Islands.reset with replays := [(5, 4)] } } : State).faultDue 5 2 = true := by decide +kernel

theorem meets_IslandsComplete_flit :
    lit.islandsRun = true ∧ lit.islUp 9 = true ∧ tget (fun _ => 0) lit.isl.expect (flitKey 9 2) = 0 := by decide +kernel

theorem meets_IslandsComplete_release :
    (fallen []).downOf 76 = some ⟨76, 1, 3⟩ ∧ (fallen []).islandsRun = true ∧ 1 + islandUs 76 * 1000 ≤ ((fallen []).tick 5).dtime ∧ ((fallen []).isl.moving.any fun m => islPav m.1 == 76) = false ∧ (fallen []).isl.failed.contains 76 = false := by decide +kernel

theorem meets_IslandsComplete_migrate :
    (fallen [(0, 3)]).isl.moving.find? (fun m => m.1 == (0 : Fin 8).val) = some ((0 : Fin 8).val, 3) ∧ (fallen [(0, 3)]).islandsRun = true ∧ (fallen [(0, 3)]).islUp (islPav 3) = true := by decide +kernel

/-- The hypotheses on a register that two statements share, as a Bool. -/
def rowFits (r : RegRow) : Bool :=
  (r.fields.all fun f => decide (f.lo + f.w ≤ 32)) && decide (r.fields.Pairwise fun f g => f.lo + f.w ≤ g.lo ∨ g.lo + g.w ≤ f.lo)

def pend2 : State := { host 1 with pending := [.drainExpiry 7, .sectionEnd 9] }

/-- Two blocks of writes, so that memory lists bytes. -/
def written : State := { pend2 with mem := [(5, 1), (9, 2)] }

def refusal (n seq : Nat) : Ledger := ⟨seq, 1000000000, 0, 2, 0, 0x11, 0x200000, n, [], [], 1⟩

def ledgered (q : List Ledger) : State := { lit with gate := { lit.gate with queue := q } }

def evOn (b : List Event) (reserved : Nat) : State :=
  (lit.put (HP_EV_CTRL 0) HP_EV_CTRL_EN 1).setEvAt 0 { PortEv.reset with backlog := b, reserved := reserved }

def ringOnState : State :=
  let s := (host 1).put (HP_CR_CTRL 0 0) HP_CR_CTRL_EN 1
  s.put (HP_CR_CTRL 0 0) HP_CR_CTRL_LOG2 4

/-- A queue in debt, its rate 1000 and its burst 1. -/
def inDebt (r b : Nat) : State :=
  let s := (lit.wr (CA_Q_RATE 8) (BitVec.ofNat 32 r)).put (CA_Q_LIM 8) CA_Q_LIM_BURST b
  s.setShqAt 8 { ShapeQ.reset with d := 5000000, t0 := 100 }

def denied (l : Nat) : State := (host 1).setDenialAt 0 ⟨some l, 2, 0, 0, 1⟩

theorem meets_EveryStepKeepsCanonicalForm_next :
    isN (step written) ({ written with pending := [.sectionEnd 9] }.tick 7) = true ∧ Memory.wf written.losses written.mem = true ∧ twf resetWord written.regs = true := by decide +kernel

theorem meets_StrapsAreHeld_asserted :
    State.reset.power.porst = true ∧ 3 < 4 := by decide +kernel

theorem meets_DeviceTimeNeverGoesBack_loss :
    isN (exec (.drainExpiry 7) lit) (lit.tick 7) = true ∧ lit.power.porst ≠ true ∧ State.reset.power.porst = true ∧ (({ lit with power := { lit.power with lostAt := some 1 } } : State).tick 7).lossOver = true := by decide +kernel

theorem meets_FacetTilesRoundTrip_any :
    ((List.replicate 64 0xFFF000FFF000).length = 64 ∧ (∀ w ∈ List.replicate 64 0xFFF000FFF000, w < 2 ^ 48)) ∧ (0 + (encodeTile (List.replicate 64 0xFFF000FFF000)).2.length / 16) * 16 ≤ 1024 := by decide +kernel

theorem meets_DescriptorsRoundTrip_descriptor :
    (let d : Desc := ⟨2 ^ 32 - 1, 65535, 255, 255, 65535, 255, 255, 2 ^ 32 - 1, 2 ^ 64 - 1, 2 ^ 32 - 1, 2 ^ 32 - 1, List.replicate 4 (List.replicate 8 0xFF)⟩
    d.seq < 2 ^ 32 ∧ d.epoch < 2 ^ 16 ∧ d.tl < 256 ∧ d.nrec < 256 ∧ d.flags < 2 ^ 16 ∧ d.tkind < 256 ∧ d.nfence < 256 ∧ d.tag < 2 ^ 32 ∧ d.target < 2 ^ 64 ∧ d.records < 2 ^ 32 ∧ d.crc < 2 ^ 32 ∧ d.fences.length = 4 ∧ (∀ f ∈ d.fences, f.length = 8)) := by decide +kernel

theorem meets_DescriptorsRoundTrip_record :
    (let r : CRec := ⟨255, 255, 65535, 2 ^ 32 - 1, List.replicate 22 (2 ^ 32 - 1)⟩
    r.type < 256 ∧ r.slot < 256 ∧ r.rsvd < 2 ^ 16 ∧ r.mask < 2 ^ 32 ∧ r.value.length = 22 ∧ (∀ v ∈ r.value, v < 2 ^ 32)) ∧ (List.replicate 64 (7 : Byte)).length = 64 ∧ (List.replicate 96 (7 : Byte)).length = 96 := by decide +kernel

theorem meets_HashedBitsAreParities_conf :
    (⟨4800, 1, 8, 16, 3, 0⟩ : DramConf).ranks = 1 ∧ (⟨4800, 2, 16, 64, 255, 0⟩ : DramConf).ranks = 2 ∧ 8 < (⟨4800, 2, 8, 64, 255, 0⟩ : DramConf).h := by decide +kernel

theorem meets_DefaultHashIsInjective_two_addresses_of_one_block :
    ((List.range 9).all fun i => lit.rdN (DR_HASH i) == 0) = true ∧ lit.dramLoc ⟨4800, 2, 8, 64, 255, 0⟩ (2 ^ 42 - 1) = lit.dramLoc ⟨4800, 2, 8, 64, 255, 0⟩ (2 ^ 42 - 64) ∧ (⟨4800, 2, 8, 64, 255, 0⟩ : DramConf).h ≤ 9 := by decide +kernel

theorem meets_MirrorCopiesLieApart_first_and_last :
    (let c : DramConf := ⟨4800, 1, 8, 16, 3, 0⟩
    c.nsub = 2 ∧ lit.mirrored 0 = true ∧ lit.mirrored 0x3FFFFFF = true ∧ lit.mirrored 0x4000000 = false ∧ lit.mirTot / 2 ^ (12 + c.h) ≤ rowsOfDensity c.density) := by decide +kernel

theorem meets_WritesFollowAccessCodes_a_register :
    (rowAt (HP_CR_STAT 0 0)).elim false rowFits = true ∧ (rowAt WT_FAULT).elim false rowFits = true := by decide +kernel

theorem meets_ReservedLocationsAreInert_reserved :
    rowAt (lit.aliasAddr 0x3FFFFFC) = none ∧ isActiveView (lit.aliasAddr (0x210100)) = true := by decide +kernel

theorem meets_UngrantedWritesOnlyCount_not_granted :
    (let a := (host 2).aliasAddr 0x100000
    (rowAt a).isSome = true ∧ isActiveView a = false ∧ a % 4 = 0 ∧ (host 2).srcUp (.host 0) = true ∧ (host 2).hostDeny 0 a = some 1) := by decide +kernel

theorem meets_UngrantedWritesOnlyCount_folded :
    ((denied 999999999).denialAt 0).last = some 999999999 ∧ (denied 999999999).dtime < 999999999 + 1000000 ∧ ((host 1).denialAt 0).last = none ∧ ((denied 999000000).denialAt 0).last = some 999000000 ∧ 999000000 + 1000000 ≤ (denied 999000000).dtime := by decide +kernel

theorem meets_UngrantedWritesOnlyCount_supervisor :
    lit.srcUp .sup = true ∧ lit.supMay 0xA00500 = false ∧ (rowAt 0xA00500).isSome = true := by decide +kernel

theorem meets_LockedFieldsStay_locked :
    (let s := lit.put GH_STAT GH_STAT_LOCKED 1
    (rowAt (HT_PERIOD 0)).elim false rowFits = true ∧ s.boot.applied = true ∧ HT_PERIOD 0 ≠ GH_STAT ∧ HT_PERIOD 0 ≠ GH_LED_HEAD ∧ s.sessionOpen = false ∧ s.locked = true ∧ (rowAt (HT_PERIOD 0)).elim false (fun r => r.fields.any fun f => f.inst && f.acc == .rw && f.cls != .e && s.get (HT_PERIOD 0) f.fld != getField 5#32 f.fld) = true) := by decide +kernel

theorem meets_RefusalsFold_near :
    (∀ x ∈ [refusal 1 4, refusal 1 5], x.action = 0x11) ∧ (ledgered [refusal 1 4]).gate.queue = [] ++ refusal 1 4 :: [] ∧ (ledgered [refusal 1 4]).dtime ≤ 1000000000 + 100000000 ∧ (ledgered []).gate.queue.length < 64 ∧ 64 ≤ (ledgered (List.replicate 64 { refusal 1 4 with source := 9 })).gate.queue.length ∧ (∀ x ∈ (ledgered (List.replicate 64 { refusal 1 4 with source := 9 })).gate.queue, x.source ≠ 0) := by decide +kernel

theorem meets_EventsAreNumberedInOrder_ring_on :
    [0, 1].Nodup ∧ (∀ p ∈ [0, 1], p ∈ allPorts) ∧ 0x100 / 256 ≠ 6 ∧ (evOn [] 0).on (HP_EV_CTRL 0) HP_EV_CTRL_EN = true ∧ (evOn [] 0).on (HP_EV_CTRL 1) HP_EV_CTRL_EN = false ∧ ((evOn [] 3).evAt 0).backlog.length + ((evOn [] 3).evAt 0).reserved + 1 < evBacklog ∧ ((evOn [] 1024).evAt 0).backlog.length + ((evOn [] 1024).evAt 0).reserved = evBacklog := by decide +kernel

theorem meets_ReservedEventsAreNeverDropped_reserved :
    ((evOn [] 1024).evAt 0).backlog.length + ((evOn [] 1024).evAt 0).reserved ≤ evBacklog ∧ 0 < ((evOn [] 1024).evAt 0).reserved ∧ (evOn [] 1023).reserve [0] ≠ none ∧ (evOn [] 1024).reserve [0] = none := by decide +kernel

theorem meets_DoorbellsFollowTheirOrder_stale_and_kept :
    getField 0x10000#32 HP_CR_DB_EPOCH ≠ (host 1).get (HP_EPOCH 0) HP_EPOCH_EPOCH ∧ getField 3#32 HP_CR_DB_EPOCH = (host 1).get (HP_EPOCH 0) HP_EPOCH_EPOCH ∧ (host 1).ringOn 0 0 = false ∧ ringOnState.ringOn 0 0 = true := by decide +kernel

theorem meets_DoorbellsFollowTheirOrder_order :
    sdiff 16 (getField 0xFFFF#32 HP_CR_DB_PROD) (ringOnState.ringAt 0).prod < 0 ∧ ¬ sdiff 16 (getField 17#32 HP_CR_DB_PROD) (ringOnState.ringAt 0).prod < 0 ∧ 2 ^ ringOnState.get (HP_CR_CTRL 0 0) HP_CR_CTRL_LOG2 < (17 + 2 ^ 16 - ringOnState.ringCons 0 0) % 2 ^ 16 ∧ ¬ 2 ^ ringOnState.get (HP_CR_CTRL 0 0) HP_CR_CTRL_LOG2 < (16 + 2 ^ 16 - ringOnState.ringCons 0 0) % 2 ^ 16 ∧ getField 16#32 HP_CR_DB_PROD = 16 ∧ getField 17#32 HP_CR_DB_EPOCH = ringOnState.get (HP_EPOCH 0) HP_EPOCH_EPOCH := by decide +kernel

theorem meets_EligibleTimeIsTheFirst_in_debt :
    ((inDebt 1000 1).shqAt 8).t0 ≤ 200 ∧ 0 < (inDebt 1000 1).qRate 8 ∧ (inDebt 1000 1).qBurst 8 < (inDebt 1000 1).qDebt 8 200 ∧ (inDebt 0 1).qRate 8 = 0 := by decide +kernel

theorem meets_FaultPinFollowsItsCauses_causes :
    (lit.put WT_FAULT WT_FAULT_WATCH 1).get WT_FAULT WT_FAULT_WATCH ≠ 0 ∧ State.reset.power.hold = true ∧ (lit.put WT_FAULT WT_FAULT_WATCH 1).faultLow = true := by decide +kernel

theorem meets_FaultPinFollowsItsCauses_change :
    (let s : State := { lit with power := { lit.power with faultWas := false } }
    let s : State := s.put WT_FAULT WT_FAULT_STARTUP 0
    (s.put WT_FAULT WT_FAULT_WATCH 1).faultLow ≠ (s.put WT_FAULT WT_FAULT_WATCH 1).power.faultWas ∧ s.faultLow = s.power.faultWas) := by decide +kernel

theorem meets_UndueCommandsOnlyPassTime_none_due :
    lit.power.porst = false ∧ 1000 ≤ 1000 ∧ 3 < 4 ∧ lit.power.state ≠ .parked ∧ (lit.tick 5).lossOver = false ∧ (lit.tick 5).hbOver = false ∧ (lit.tick 5).idleDue = false ∧ (lit.shqAt 8).elig = none ∧ lit.postedAt 4 = none ∧ lit.retireDue 0 = false ∧ (lit.tlcAt 3).image = none ∧ ({ lit with park := { Park.reset with step := 1 } } : State).validatorFree = false := by decide +kernel

theorem meets_CommandsLeaveTheQueue_both :
    isN (exec (.drainExpiry 7) written) (written.tick 7) = true ∧ written.pending = .drainExpiry 7 :: [.sectionEnd 9] ∧ isN (step written) ({ written with pending := [.sectionEnd 9] }.tick 7) = true := by decide +kernel

theorem meets_StrapsAreHeld_kept :
    isN (exec (.porstNAssert 7 1000) lit) (lit.tick 7) = true ∧ lit.power.porst ≠ true ∧ ¬ 1000 < 1000 := by decide +kernel

theorem meets_MulIsRoundedHalfUp_largest :
    4095 ≤ 4095 ∧ mul12 4095 4095 = 4095 := by decide +kernel

theorem meets_BlendingStaysInRange_extremes :
    (let d : Px := ⟨4095, 4095, 0, 4095⟩
    let p : Px := ⟨0, 4095, 4095, 0⟩
    d.a ≤ 4095 ∧ d.r ≤ 4095 ∧ d.g ≤ 4095 ∧ d.b ≤ 4095 ∧ p.a ≤ 4095 ∧ p.r ≤ 4095 ∧ p.g ≤ 4095 ∧ p.b ≤ 4095) := by decide +kernel

theorem meets_CheckCodeOutcomes_extremes :
    2 ^ 32 - 1 < 2 ^ 32 ∧ 2 ^ 40 - 1 < 2 ^ 40 ∧ checkByte 5 9 ^^^ 3 = checkByte 5 9 ^^^ 3 ∧ 31 < 32 ∧ 39 < 40 ∧ 7 < 8 ∧ 255 < 256 := by decide +kernel

theorem meets_FaultPinFollowsItsCauses_no_image :
    (waking .noImage).boot.phase = .noImage ∧ (waking .noImage).faultLow = true := by decide +kernel

theorem meets_ReservedLocationsAreInert_unaligned :
    rowAt ((host 2).aliasAddr (HP_CR_DB 0 0 + 2)) = none ∧ (host 2).aliasAddr (HP_CR_DB 0 0 + 2) % 4 ≠ 0 := by decide +kernel

/-! ### A whole Locket header and section table -/

def imageKey : List Byte := beBytes 64 0x088BB9FF22AB291A74C86FC677BA897BAADEE370CC6129B82D170BA3FC26415C442DA9A716067956D91EAA02B93AD409490E87CD5E758EA6A331A1DEB75BA846
def imageSig : List Byte := beBytes 64 0x26EFCEBD0EE9E34A669187E18B3A9122B2F733945B649CC9F9F921E9F9DAD81257A0783619F7D6D86533A2D9EFDC820B9EA27BAE9E5B2698D5D39B388A5CAAC8
def imageSecHash : List Byte := beBytes 32 0x12A3AE445661CE5DEE78D0650D33362DEC29C4F82AF05E7E57FB595BBBACF0CA

/-- One byte of an image with a STRUCT section of 8 bytes 0xFF at 0x1200, with its CRC and digest, and nothing else. -/
def imageByte (i : Nat) : Byte :=
  if i < 16 then ([0x4C, 0x4B, 0x54, 0x33, 3, 0, 0x00, 0x10, 0x80, 0x96, 1, 0, 0x08, 0x12, 0, 0] : List Byte).getD i 0
  else if i < 0x100 then 0
  else if i < 0x120 then imageSecHash.getD (i - 0x100) 0
  else if i < 0x300 then 0
  else if i < 0x340 then imageKey.getD (i - 0x300) 0
  else if i < 0xF00 then 0
  else if i < 0xF40 then imageSig.getD (i - 0xF00) 0
  else if i < 0x1000 then 0
  else if i < 0x1010 then ([1, 0, 1, 0, 0x00, 0x12, 0, 0, 8, 0, 0, 0, 0xC7, 0x4B, 0x67, 0x48] : List Byte).getD (i - 0x1000) 0
  else 0

@[irreducible] def imageFlash : Tbl Byte := (List.range 0x1200).map fun i => (i, imageByte i)

@[irreducible] def imageIkh : List Byte := sha256 imageKey

theorem imageIkh_eq : imageIkh = sha256 imageKey := by unfold imageIkh; exact rfl

def image (p : BootPhase) : State :=
  { waking p with flash0 := imageFlash, otp := { State.reset.otp with ikh := some imageIkh } }

theorem tget_listed {α : Type} (d : Nat → α) (f : Nat → α) (l : List Nat) (j : Nat) (h : j ∈ l) :
    tget d (l.map fun i => (i, f i)) j = f j := by
  induction l with
  | nil => cases h
  | cons k l ih =>
    simp only [List.map_cons, tget]
    split
    · rename_i e; rw [e]
    · rename_i e; exact ih ((List.mem_cons.mp h).resolve_left fun x => e x.symm)

theorem image_flash (p : BootPhase) : (image p).flash0 = imageFlash := by rw [image]
theorem image_flash_tick (p : BootPhase) : ((image p).tick 5).flash0 = imageFlash := by rw [State.tick, image]

theorem image_ikh (p : BootPhase) : ((image p).tick 5).otp.ikh = some imageIkh := by rw [State.tick, image]

theorem imageFlash_get (i : Nat) (h : i < 0x1200) : tget flashErased imageFlash i = imageByte i := by
  unfold imageFlash
  exact tget_listed _ _ _ _ (List.mem_range.mpr h)

theorem image_bytes (s : State) (h : s.flash0 = imageFlash) (a n : Nat) (w : a + n ≤ 0x1200) :
    s.slotBytes 0 a n = (List.range n).map fun i => imageByte (a + i) := by
  have e : ∀ i ∈ List.range n, s.rdFlash (slotDev 0) ((slotArea 0).1 + a + i) = imageByte (a + i) := fun i hi => by
    have z : s.rdFlash (slotDev 0) ((slotArea 0).1 + a + i) = tget flashErased s.flash0 (a + i) := by
      rw [show (slotArea 0).1 = 0 from rfl, Nat.zero_add]; rfl
    rw [h] at z
    exact z.trans (imageFlash_get _ (Nat.lt_of_lt_of_le (Nat.add_lt_add_left (List.mem_range.mp hi) a) w))
  exact List.map_congr_left e

def imageHdr : List Byte := (List.range 4096).map imageByte
def imageTab : List Byte := (List.range 512).map fun i => imageByte (0x1000 + i)

theorem image_hdr (s : State) (h : s.flash0 = imageFlash) : s.locketHdr 0 = imageHdr := by
  rw [State.locketHdr, image_bytes s h 0 4096 (by omega)]
  simp only [Nat.zero_add, imageHdr]

theorem image_tab (s : State) (h : s.flash0 = imageFlash) : s.locketTab 0 = imageTab := image_bytes s h 0x1000 512 (by omega)

theorem image_secs (s : State) (h : s.flash0 = imageFlash) :
    s.readSecs 0 = (secEnts imageHdr imageTab).filter fun e => e.type != 10 := by
  rw [State.readSecs, State.entsOf, image_hdr s h, image_tab s h]

theorem getD_mapped (f : Nat → Byte) (n i : Nat) : ((List.range n).map f).getD i 0 = if i < n then f i else 0 := by
  by_cases h : i < n <;> simp [h]

theorem allZero_mapped (f : Nat → Byte) (n a m : Nat) (h : ∀ i, i < m → f (a + i) = 0) :
    allZero ((List.range n).map f) a m = true := by
  unfold allZero nonZero
  rw [Option.isNone_iff_eq_none, List.find?_eq_none]
  intro i hi
  obtain ⟨j, hj, rfl⟩ := List.mem_map.mp hi
  have := h j (List.mem_range.mp hj)
  rw [getD_mapped]
  simp [this]

/-- Where the image holds zeros. -/
theorem imageByte_zero (i : Nat) (h : 16 ≤ i ∧ i < 0x100 ∨ 0x120 ≤ i ∧ i < 0x300 ∨ 0x340 ≤ i ∧ i < 0xF00 ∨ 0x1010 ≤ i) : imageByte i = 0 := by
  unfold imageByte
  repeat' split
  all_goals first | (exfalso; omega) | rfl

theorem imageHdr_zero (a m : Nat) (h : 16 ≤ a ∧ a + m ≤ 0x100 ∨ 0x120 ≤ a ∧ a + m ≤ 0x300 ∨ 0x340 ≤ a ∧ a + m ≤ 0xF00) : allZero imageHdr a m = true :=
  allZero_mapped _ _ _ _ fun i hi => imageByte_zero _ (by omega)

theorem imageTab_zero (a m : Nat) (h : 16 ≤ a) : allZero imageTab a m = true :=
  allZero_mapped _ _ _ _ fun i hi => imageByte_zero _ (by omega)

theorem imageHdr_fields : hdrVersion false imageHdr = some 3 ∧ fieldAt imageHdr 4 2 = 3 ∧ fieldAt imageHdr 6 2 = 4096 ∧
    fieldAt imageHdr 8 2 = 0x9680 ∧ secCount imageHdr = 1 ∧ fieldAt imageHdr 12 4 = 0x1208 := by decide +kernel

theorem imageTab_entry : secAt imageTab 0 = ⟨0, 1, 0x1200, 8, 0x48674BC7, 0⟩ ∧ fieldAt imageTab 2 2 = 1 := by decide +kernel

theorem image_ents : secEnts imageHdr imageTab = [⟨0, 1, 0x1200, 8, 0x48674BC7, 0⟩] := by
  have e : List.range 1 = [0] := rfl
  simp only [secEnts, imageHdr_fields, e, imageTab_entry, List.map, show min 1 16 = 1 from rfl]

theorem image_entFail (k : Nat) (g : k < 16) : entFail 3 imageHdr imageTab k = none := by
  have f := imageHdr_fields.2.2.2.2.1
  by_cases h : k < 1
  · obtain rfl : k = 0 := by omega
    simp [entFail, f, imageTab_entry, imageTab_zero 20 12 (by omega)]
  · simp [entFail, f, imageTab_zero (32 * k) 32 (by omega), imageHdr_zero (0x100 + 32 * k) 32 (by omega), show 1 ≤ k by omega]

theorem image_gaps (s : State) (h : s.flash0 = imageFlash) : (s.gapsOf 0 0).findSome? (s.gapFail 0) = none := by
  have e : s.entsOf 0 = [⟨0, 1, 0x1200, 8, 0x48674BC7, 0⟩] := by rw [State.entsOf, image_hdr s h, image_tab s h, image_ents]
  have none_ (n : Nat) : nonZero (s.slotBytes 0 n 0) 0 0 = none := by simp only [nonZero, List.range_zero, List.map_nil, List.find?_nil]
  have g (n : Nat) (w : n < 2) : s.gapFail 0 n = none := by
    unfold State.gapFail
    rw [e]
    match n, w with
    | 0, _ => simp [gapOf, none_]
    | 1, _ => simp [gapOf, none_]
  rw [List.findSome?_eq_none_iff]
  intro n hn
  refine g n ?_
  unfold State.gapsOf at hn
  split at hn <;> simp at hn <;> omega

theorem image_fields (off n : Nat) (h : off + n ≤ 4096) : bytesAt imageHdr off n = (List.range n).map fun i => imageByte (off + i) := by
  refine List.map_congr_left fun i hi => ?_
  have w : off + i < 4096 := Nat.lt_of_lt_of_le (Nat.add_lt_add_left (List.mem_range.mp hi) off) h
  exact (getD_mapped imageByte 4096 (off + i)).trans (if_pos w)

/-- The image's signature is good; each part of the check is evaluated on its own. -/
theorem image_key : signerKey imageHdr = imageKey ∧ keyOnCurve imageKey = true :=
  ⟨(image_fields 0x300 64 (by omega)).trans (by decide +kernel), by decide +kernel⟩

theorem image_sigBytes : bytesAt imageHdr 0xF00 64 = imageSig := (image_fields 0xF00 64 (by omega)).trans (by decide +kernel)

/-- The signed part of the image, padded for SHA-256; its digest is taken ten blocks at a time. -/
def imagePadded : List Byte := padded (signedPart imageHdr imageTab)

theorem takeBlocks_add (n k : Nat) (st : List Nat) (bs : List Byte) :
    takeBlocks (n + k) st bs = takeBlocks k (takeBlocks n st bs) (bs.drop (64 * n)) := by
  induction n generalizing st bs with
  | zero => simp [takeBlocks]
  | succ n ih => rw [Nat.succ_add, takeBlocks, ih, takeBlocks, List.drop_drop, Nat.mul_succ, Nat.add_comm (64 * n)]

theorem image_blocks_0 : takeBlocks 10 digestStart (imagePadded.drop 0) = [0xA3317A45, 0x51BD35EB, 0xE0A38E80, 0x6CAEB543, 0x4167B6BA, 0xD736DEEE, 0x701869B0, 0x2702C9CF] := by decide +kernel
theorem image_blocks_1 : takeBlocks 10 [0xA3317A45, 0x51BD35EB, 0xE0A38E80, 0x6CAEB543, 0x4167B6BA, 0xD736DEEE, 0x701869B0, 0x2702C9CF] (imagePadded.drop 640) = [0x7D56154F, 0xEB34325B, 0x61A547BA, 0x3176BC53, 0x3FFCF6D8, 0x68606066, 0x67C1AC9A, 0x8BA4AD66] := by decide +kernel
theorem image_blocks_2 : takeBlocks 10 [0x7D56154F, 0xEB34325B, 0x61A547BA, 0x3176BC53, 0x3FFCF6D8, 0x68606066, 0x67C1AC9A, 0x8BA4AD66] (imagePadded.drop 1280) = [0xD82088AE, 0xE91BA803, 0x872098E7, 0x29F429EC, 0x02FFEA06, 0x72B4EBA7, 0x53E0B662, 0x9B813689] := by decide +kernel
theorem image_blocks_3 : takeBlocks 10 [0xD82088AE, 0xE91BA803, 0x872098E7, 0x29F429EC, 0x02FFEA06, 0x72B4EBA7, 0x53E0B662, 0x9B813689] (imagePadded.drop 1920) = [0x0CD9B877, 0x54F9C06C, 0x1BBA7DC3, 0xBA1F76EC, 0x1DD7E056, 0x446EFA30, 0xD9AD9091, 0x521EB3C5] := by decide +kernel
theorem image_blocks_4 : takeBlocks 10 [0x0CD9B877, 0x54F9C06C, 0x1BBA7DC3, 0xBA1F76EC, 0x1DD7E056, 0x446EFA30, 0xD9AD9091, 0x521EB3C5] (imagePadded.drop 2560) = [0xD5EB04E2, 0x4F6B8918, 0xEB01F0D5, 0x12C64341, 0x4A831000, 0x4EC0C200, 0x451F78AF, 0x7090950F] := by decide +kernel
theorem image_blocks_5 : takeBlocks 10 [0xD5EB04E2, 0x4F6B8918, 0xEB01F0D5, 0x12C64341, 0x4A831000, 0x4EC0C200, 0x451F78AF, 0x7090950F] (imagePadded.drop 3200) = [0x6E917C4F, 0x40A9AB5D, 0xF0C3CD3B, 0x3384B1A9, 0xCFA9A528, 0xC84183C7, 0x43A3076E, 0x913E6609] := by decide +kernel
theorem image_blocks_6 : takeBlocks 9 [0x6E917C4F, 0x40A9AB5D, 0xF0C3CD3B, 0x3384B1A9, 0xCFA9A528, 0xC84183C7, 0x43A3076E, 0x913E6609] (imagePadded.drop 3840) = [0x4AFB9551, 0xD8B38DCB, 0x437965A6, 0xF84F5BF0, 0x7ED6A406, 0xB66DCD09, 0x7EA93427, 0x6179C67F] := by decide +kernel

theorem image_length : imagePadded.length / 64 = 69 := by decide +kernel

def imageDigest : List Byte := beBytes 32 0x4AFB9551D8B38DCB437965A6F84F5BF07ED6A406B66DCD097EA934276179C67F

theorem image_digest : sha256 (signedPart imageHdr imageTab) = imageDigest := by
  have h : takeBlocks (imagePadded.length / 64) digestStart imagePadded = [0x4AFB9551, 0xD8B38DCB, 0x437965A6, 0xF84F5BF0, 0x7ED6A406, 0xB66DCD09, 0x7EA93427, 0x6179C67F] := by
    rw [image_length]
    have e0 := image_blocks_0
    rw [List.drop_zero] at e0
    have e1 : takeBlocks 20 digestStart imagePadded = [0x7D56154F, 0xEB34325B, 0x61A547BA, 0x3176BC53, 0x3FFCF6D8, 0x68606066, 0x67C1AC9A, 0x8BA4AD66] := by rw [takeBlocks_add 10 10, e0]; exact image_blocks_1
    have e2 : takeBlocks 30 digestStart imagePadded = [0xD82088AE, 0xE91BA803, 0x872098E7, 0x29F429EC, 0x02FFEA06, 0x72B4EBA7, 0x53E0B662, 0x9B813689] := by rw [takeBlocks_add 20 10, e1]; exact image_blocks_2
    have e3 : takeBlocks 40 digestStart imagePadded = [0x0CD9B877, 0x54F9C06C, 0x1BBA7DC3, 0xBA1F76EC, 0x1DD7E056, 0x446EFA30, 0xD9AD9091, 0x521EB3C5] := by rw [takeBlocks_add 30 10, e2]; exact image_blocks_3
    have e4 : takeBlocks 50 digestStart imagePadded = [0xD5EB04E2, 0x4F6B8918, 0xEB01F0D5, 0x12C64341, 0x4A831000, 0x4EC0C200, 0x451F78AF, 0x7090950F] := by rw [takeBlocks_add 40 10, e3]; exact image_blocks_4
    have e5 : takeBlocks 60 digestStart imagePadded = [0x6E917C4F, 0x40A9AB5D, 0xF0C3CD3B, 0x3384B1A9, 0xCFA9A528, 0xC84183C7, 0x43A3076E, 0x913E6609] := by rw [takeBlocks_add 50 10, e4]; exact image_blocks_5
    have e6 : takeBlocks 69 digestStart imagePadded = [0x4AFB9551, 0xD8B38DCB, 0x437965A6, 0xF84F5BF0, 0x7ED6A406, 0xB66DCD09, 0x7EA93427, 0x6179C67F] := by rw [takeBlocks_add 60 9, e5]; exact image_blocks_6
    exact e6
  unfold sha256
  rw [show padded (signedPart imageHdr imageTab) = imagePadded from rfl, h]
  decide +kernel

/-- The scalar multiplications of the signature check are taken 64 bits at a time: n more bits of k after the point q. -/
def ecMulFrom (q : EcPoint) (p : EcPoint) : Nat → Nat → EcPoint
  | 0, _ => q
  | n + 1, k =>
    let h := ecMulFrom q p n (k / 2)
    let d := ecAdd h h
    if k % 2 = 1 then ecAdd d p else d

theorem ecMul_from (m n k : Nat) (p : EcPoint) : ecMul (m + n) k p = ecMulFrom (ecMul m (k / 2 ^ n) p) p n k := by
  induction n generalizing k with
  | zero => simp [ecMulFrom]
  | succ n ih => rw [Nat.add_succ, ecMul, ecMulFrom, ih, Nat.div_div_eq_div_mul, Nat.pow_succ, Nat.mul_comm 2]

def sigGScalar : Nat := 0x2E58E4B2406320299EB8B8625E4F63A2174A7E29CEFEA6A260DF4ABF37710020
def sigGBase : EcPoint := some (0x6B17D1F2E12C4247F8BCE6E563A440F277037D812DEB33A0F4A13945D898C296, 0x4FE342E2FE1A7F9B8EE7EB4A7C0F9E162BCE33576B315ECECBB6406837BF51F5)

theorem sigG_0 : ecMul 64 (sigGScalar / 2 ^ 192) sigGBase = some (0x8507260899E364B208509F0F3E4C30F12BA1695EF335FF7FFF491D750D493575, 0x3CC9E6B486B8430D8F67BE73EB7C60AAB0287C977D1E9024E95C1CD62B33ABC8) := by decide +kernel
theorem sigG_1 : ecMulFrom (some (0x8507260899E364B208509F0F3E4C30F12BA1695EF335FF7FFF491D750D493575, 0x3CC9E6B486B8430D8F67BE73EB7C60AAB0287C977D1E9024E95C1CD62B33ABC8)) sigGBase 64 (sigGScalar / 2 ^ 128) = some (0xCEAAFFF58F61A5B3FB2A63CBCBAD04FE73E818EA008F5F7CD473C3DF8F661BCB, 0x16804EB81E8A3F5649BA5FBABDABB36DEEEF59B0A5CD9F9E9699AF47D99FB9DF) := by decide +kernel
theorem sigG_2 : ecMulFrom (some (0xCEAAFFF58F61A5B3FB2A63CBCBAD04FE73E818EA008F5F7CD473C3DF8F661BCB, 0x16804EB81E8A3F5649BA5FBABDABB36DEEEF59B0A5CD9F9E9699AF47D99FB9DF)) sigGBase 64 (sigGScalar / 2 ^ 64) = some (0x71DD72A1DE0459C68950FD513DFC729368CFA354BA9E28BF0EAC825A54CCE91E, 0xC3F7064385DC290B6215770E14A14644BFA28F29A0070A8C208AD7FA844150D8) := by decide +kernel
theorem sigG_3 : ecMulFrom (some (0x71DD72A1DE0459C68950FD513DFC729368CFA354BA9E28BF0EAC825A54CCE91E, 0xC3F7064385DC290B6215770E14A14644BFA28F29A0070A8C208AD7FA844150D8)) sigGBase 64 (sigGScalar / 2 ^ 0) = some (0xD462674A4410B0190BDB9F7CF543279C3B423FB26BE4EA722077D6FDD6371184, 0x86F3C191C8F10DA3833DA66ABBCFFBD15AF741DEA8294CD3EE256A66B9F6DE7B) := by decide +kernel

theorem sigG_all : ecMul 256 sigGScalar sigGBase = some (0xD462674A4410B0190BDB9F7CF543279C3B423FB26BE4EA722077D6FDD6371184, 0x86F3C191C8F10DA3833DA66ABBCFFBD15AF741DEA8294CD3EE256A66B9F6DE7B) := by
  have a := ecMul_from 64 64 (sigGScalar / 2 ^ 128) sigGBase
  rw [Nat.div_div_eq_div_mul, ← Nat.pow_add, sigG_0, sigG_1] at a
  have b := ecMul_from 128 64 (sigGScalar / 2 ^ 64) sigGBase
  rw [Nat.div_div_eq_div_mul, ← Nat.pow_add, a, sigG_2] at b
  have c := ecMul_from 192 64 sigGScalar sigGBase
  rw [b] at c
  have d := sigG_3
  rw [Nat.pow_zero, Nat.div_one] at d
  exact c.trans d

def sigQScalar : Nat := 0x3FD9281D31A9CCFA21FBC5CD8FA66FB3F128278B58158E639782B49970A12697
def sigQBase : EcPoint := some (0x88BB9FF22AB291A74C86FC677BA897BAADEE370CC6129B82D170BA3FC26415C, 0x442DA9A716067956D91EAA02B93AD409490E87CD5E758EA6A331A1DEB75BA846)

theorem sigQ_0 : ecMul 64 (sigQScalar / 2 ^ 192) sigQBase = some (0x73DF8584BA1C2C09CA04286A6E80A740921C0520BE99D8291E91E2FF1D0E408A, 0x2FC4DC1403232B1D9546DEFAC9CC2E8E7A70CA3BEA23CAF3AF159A5DE7011389) := by decide +kernel
theorem sigQ_1 : ecMulFrom (some (0x73DF8584BA1C2C09CA04286A6E80A740921C0520BE99D8291E91E2FF1D0E408A, 0x2FC4DC1403232B1D9546DEFAC9CC2E8E7A70CA3BEA23CAF3AF159A5DE7011389)) sigQBase 64 (sigQScalar / 2 ^ 128) = some (0xD97214CD0ABD3EAD7D8B06F9EDB84F2B1119FEE00691CE23E419A787E2E78FB1, 0x947BF775D3D4287C61169B863BF1CE910BD954B5F4FA91D4FF3441969823B696) := by decide +kernel
theorem sigQ_2 : ecMulFrom (some (0xD97214CD0ABD3EAD7D8B06F9EDB84F2B1119FEE00691CE23E419A787E2E78FB1, 0x947BF775D3D4287C61169B863BF1CE910BD954B5F4FA91D4FF3441969823B696)) sigQBase 64 (sigQScalar / 2 ^ 64) = some (0x20007CFE943C9CB54A8E9F6623DA9B59CDEC46C13808873AC63FCDF747FFC592, 0x92CEC852C7E7496F9C9DCC898CB03FC7D4218E5EE65A7942E05FEC33EBE71383) := by decide +kernel
theorem sigQ_3 : ecMulFrom (some (0x20007CFE943C9CB54A8E9F6623DA9B59CDEC46C13808873AC63FCDF747FFC592, 0x92CEC852C7E7496F9C9DCC898CB03FC7D4218E5EE65A7942E05FEC33EBE71383)) sigQBase 64 (sigQScalar / 2 ^ 0) = some (0x4F093F39EBF038C87CD8CD16D5DDB37A719B0F4DA97D2C32A9028F0D0C3C0DC6, 0x76CA319A078DA6997F8D0402681955A9305ADBFCBAAEC95261606696D9040692) := by decide +kernel

theorem sigQ_all : ecMul 256 sigQScalar sigQBase = some (0x4F093F39EBF038C87CD8CD16D5DDB37A719B0F4DA97D2C32A9028F0D0C3C0DC6, 0x76CA319A078DA6997F8D0402681955A9305ADBFCBAAEC95261606696D9040692) := by
  have a := ecMul_from 64 64 (sigQScalar / 2 ^ 128) sigQBase
  rw [Nat.div_div_eq_div_mul, ← Nat.pow_add, sigQ_0, sigQ_1] at a
  have b := ecMul_from 128 64 (sigQScalar / 2 ^ 64) sigQBase
  rw [Nat.div_div_eq_div_mul, ← Nat.pow_add, a, sigQ_2] at b
  have c := ecMul_from 192 64 sigQScalar sigQBase
  rw [b] at c
  have d := sigQ_3
  rw [Nat.pow_zero, Nat.div_one] at d
  exact c.trans d

theorem image_curve : ecOnCurve (beNat (bytesAt imageKey 0 32)) (beNat (bytesAt imageKey 32 32)) = true := by decide +kernel

theorem image_scalars : beNat imageDigest * invMod p256N (beNat (bytesAt imageSig 32 32)) % p256N = sigGScalar ∧
    beNat (bytesAt imageSig 0 32) * invMod p256N (beNat (bytesAt imageSig 32 32)) % p256N = sigQScalar ∧
    some (p256Gx, p256Gy) = sigGBase ∧ some (beNat (bytesAt imageKey 0 32), beNat (bytesAt imageKey 32 32)) = sigQBase := by decide +kernel

theorem image_range : ¬ (beNat (bytesAt imageSig 0 32) = 0 ∨ beNat (bytesAt imageSig 32 32) = 0 ∨ p256N ≤ beNat (bytesAt imageSig 0 32) ∨
    p256N ≤ beNat (bytesAt imageSig 32 32)) := by decide +kernel

theorem image_point : ecAdd (some (0xD462674A4410B0190BDB9F7CF543279C3B423FB26BE4EA722077D6FDD6371184, 0x86F3C191C8F10DA3833DA66ABBCFFBD15AF741DEA8294CD3EE256A66B9F6DE7B)) (some (0x4F093F39EBF038C87CD8CD16D5DDB37A719B0F4DA97D2C32A9028F0D0C3C0DC6, 0x76CA319A078DA6997F8D0402681955A9305ADBFCBAAEC95261606696D9040692)) = some (0x26EFCEBD0EE9E34A669187E18B3A9122B2F733945B649CC9F9F921E9F9DAD812, 0x90238BDE9CC7BB330D150C67704DD25AE7055205744B6F31BF4070745872D0E6) := by decide +kernel

theorem image_r : 0x26EFCEBD0EE9E34A669187E18B3A9122B2F733945B649CC9F9F921E9F9DAD812 % p256N = beNat (bytesAt imageSig 0 32) := by decide +kernel

theorem image_signed : ecdsaVerifyMsg imageKey imageSig (signedPart imageHdr imageTab) = true := by
  unfold ecdsaVerifyMsg ecdsaVerify
  rw [image_digest]
  have h := image_range
  rw [not_or, not_or, not_or] at h
  rw [if_neg (by rw [image_curve]; simp [h.1, h.2.1, h.2.2.1, h.2.2.2])]
  dsimp only
  rw [image_scalars.1, image_scalars.2.1, image_scalars.2.2.1, image_scalars.2.2.2, sigG_all, sigQ_all, image_point]
  simp only [image_r, decide_true]

theorem image_sig (s : State) (h : s.flash0 = imageFlash) (k : s.otp.ikh = some imageIkh) : s.sigFail 0 = none := by
  have a : s.otp.ikh = some (sha256 (signerKey imageHdr)) := k.trans (congrArg some (imageIkh_eq.trans (congrArg sha256 image_key.1.symm)))
  have c : keyOnCurve (signerKey imageHdr) = true := (congrArg keyOnCurve image_key.1).trans image_key.2
  have v : ecdsaVerifyMsg (signerKey imageHdr) (bytesAt imageHdr 0xF00 64) (signedPart imageHdr imageTab) = true :=
    (congrArg₂ (fun x y => ecdsaVerifyMsg x y (signedPart imageHdr imageTab)) image_key.1 image_sigBytes).trans image_signed
  unfold State.sigFail
  rw [image_hdr s h, image_tab s h]
  exact (if_neg fun x => x.elim (fun y => y a) fun y => Bool.false_ne_true ((congrArg not c).symm.trans y)).trans
    (if_neg fun y => Bool.false_ne_true ((congrArg not v).symm.trans y))

theorem meets_ImageReadingCompletes_header :
    (image .header).boot.phase = .header ∧ (image .header).power.warm = false ∧
    hdrFail (image .header).power.compat ((image .header).locketHdr (image .header).boot.slot) = none := by
  refine ⟨by decide, by decide, ?_⟩
  show hdrFail false ((image .header).locketHdr 0) = none
  rw [image_hdr _ (image_flash _)]
  simp [hdrFail, imageHdr_fields, imageHdr_zero]

theorem meets_ImageReadingCompletes_table :
    (image .table).boot.phase = .table ∧
    tabFail (fieldAt ((image .table).locketHdr 0) 4 2) (slotArea 0).2 ((image .table).locketHdr 0) ((image .table).locketTab 0) = none ∧
    (image .table).boot.slot = 0 := by
  refine ⟨by decide, ?_, by decide⟩
  have f : (List.range 16).findSome? (entFail 3 imageHdr imageTab) = none := by
    rw [List.findSome?_eq_none_iff]
    exact fun k hk => image_entFail k (List.mem_range.mp hk)
  rw [image_hdr _ (image_flash _), image_tab _ (image_flash _)]
  simp [tabFail, image_ents, imageHdr_fields, f, orderFail, secMax, slotArea]

theorem meets_ImageReadingCompletes_section_end :
    (image (.sect 0)).boot.phase = .sect 0 ∧ 0 < (((image (.sect 0)).tick 5).readSecs 0).length ∧
    (((image (.sect 0)).tick 5).gapsOf 0 0).findSome? (((image (.sect 0)).tick 5).gapFail 0) = none ∧ (image (.sect 0)).boot.held = none ∧ (image (.sect 0)).boot.sigOk = false ∧
    (image (.sect 0)).boot.slot = 0 := by
  have e : ((image (.sect 0)).tick 5).readSecs 0 = (secEnts imageHdr imageTab).filter fun e => e.type != 10 := image_secs ((image (.sect 0)).tick 5) (image_flash_tick (.sect 0))
  rw [image_ents] at e
  refine ⟨by rw [image]; rfl, ?_, ?_, by rw [image]; rfl, by rw [image]; rfl, by rw [image]; rfl⟩
  · rw [e]; exact Nat.one_pos
  · exact image_gaps _ (image_flash_tick _)

theorem tget_unlisted {α : Type} (d : Nat → α) (f : Nat → α) (l : List Nat) (j : Nat) (h : j ∉ l) :
    tget d (l.map fun i => (i, f i)) j = d j := by
  induction l with
  | nil => rfl
  | cons k l ih =>
    simp only [List.map_cons, tget]
    rw [if_neg (fun e => h (by rw [← e]; exact List.mem_cons_self))]
    exact ih fun m => h (List.mem_cons_of_mem _ m)

theorem image_section (s : State) (h : s.flash0 = imageFlash) : s.slotBytes 0 0x1200 8 = List.replicate 8 0xFF := by
  have e : ∀ i ∈ List.range 8, s.rdFlash (slotDev 0) ((slotArea 0).1 + 0x1200 + i) = (0xFF : Byte) := fun i _ => by
    have z : s.rdFlash (slotDev 0) ((slotArea 0).1 + 0x1200 + i) = tget flashErased s.flash0 (0x1200 + i) := by
      rw [show (slotArea 0).1 = 0 from rfl, Nat.zero_add]; rfl
    rw [z, h]
    unfold imageFlash
    exact tget_unlisted _ _ _ _ (fun m => by have := List.mem_range.mp m; omega)
  exact (List.map_congr_left e).trans (by decide)

theorem image_section_digest : crc32c (List.replicate 8 0xFF) = 0x48674BC7 ∧ sha256 (List.replicate 8 0xFF) = imageSecHash ∧
    (List.range 32).map (fun i => imageByte (0x100 + i)) = imageSecHash := by decide +kernel

theorem image_secFail (s : State) (h : s.flash0 = imageFlash) : s.secFail 0 ⟨0, 1, 0x1200, 8, 0x48674BC7, 0⟩ = none := by
  have d : bytesAt imageHdr 0x100 32 = imageSecHash := (image_fields 0x100 32 (by omega)).trans image_section_digest.2.2
  unfold State.secFail State.secBytes
  simp only [image_section s h, image_hdr s h, image_section_digest.1, image_section_digest.2.1, Nat.mul_zero, Nat.add_zero, d, ne_eq, not_true_eq_false, if_false]

theorem image_runningFail (x : State) (f : x.flash0 = imageFlash) (k : x.otp.ikh = some imageIkh) (c : x.power.compat = false)
    (l : x.locket.slot = 0) : x.runningFail = none := by
  have t : tabFail (fieldAt imageHdr 4 2) (slotArea 0).2 imageHdr imageTab = none := by
    have h := meets_ImageReadingCompletes_table.2.1
    rwa [image_hdr _ (image_flash _), image_tab _ (image_flash _)] at h
  have hd : hdrFail false imageHdr = none := by simp [hdrFail, imageHdr_fields, imageHdr_zero]
  have e : (([⟨0, 1, 0x1200, 8, 0x48674BC7, 0⟩] : List SecEnt).filter fun e => e.type != 10).filter (fun e => e.type == 1 || decide (4 ≤ e.type)) =
    [⟨0, 1, 0x1200, 8, 0x48674BC7, 0⟩] := by decide
  unfold State.runningFail
  simp only [l, c, image_hdr x f, image_tab x f, hd, t, image_sig x f k]
  rw [image_secs x f, image_ents, e, List.findSome?_cons, image_secFail x f]
  rfl

/-- The same image runs, and WARMRST_N is asserted. -/
def imageWarm : State :=
  { image .loaded with power := { (image .loaded).power with warm := true }, boot := { (image .loaded).boot with recover := true } }

theorem meets_WakeAndWarmResetComplete_warm_recover :
    imageWarm.power.warm = true ∧ imageWarm.boot.recover = true ∧
    ({ imageWarm.tick 5 with power := { imageWarm.power with warm := false } } : State).runningFail = none := by
  refine ⟨rfl, rfl, image_runningFail _ ?_ ?_ ?_ ?_⟩
  · rw [imageWarm, State.tick, image]
  · rw [imageWarm, State.tick, image]
  · rw [imageWarm, image]; rfl
  · rw [imageWarm, State.tick, image]; rfl

theorem meets_ImageReadingCompletes_signature :
    (image (.sect 0)).boot.phase = .sect 0 ∧ (image (.sect 0)).boot.sigOk = false ∧ (image (.sect 0)).boot.held = none ∧
    ((image (.sect 0)).tick 5).sigFail 0 = none ∧ (image (.sect 0)).boot.used = 0 ∧
    0 < (((image (.sect 0)).tick 5).readSecs 0).length ∧ (image (.sect 0)).boot.slot = 0 := by
  exact ⟨by rw [image]; rfl, by rw [image]; rfl, by rw [image]; rfl, image_sig _ (image_flash_tick _) (image_ikh _), by rw [image]; rfl, meets_ImageReadingCompletes_section_end.2.1, by rw [image]; rfl⟩

end Sys2Proof.Tests
end

section

namespace Sys2Proof.Machine

/-! ## What a command leaves of the state

R29 says that no command but two changes the sampled straps. The proof is one frame rule `f_kept` for each function of the model that a
command can run: it leaves `State.kept`. The queue and the device time stand in `Kept` beside the straps, since the same functions
leave them too.

The rules are `@[simp ↓]`: simp then rewrites `(s.f …).kept` from the outside in, and never visits the arguments of `f`, which are large
and do not matter. -/

/-- The part of the state that a command leaves but for its own `now`: the queue, the device time and the sampled straps. -/
structure Kept where
  pending : List Instr
  dtime : Nat
  bootsel : Nat
  compat : Bool

def State.kept (s : State) : Kept := ⟨s.pending, s.dtime, s.power.bootsel, s.power.compat⟩

theorem straps_of_kept {s t : State} (h : t.kept = s.kept) : t.power.bootsel = s.power.bootsel ∧ t.power.compat = s.power.compat :=
  ⟨congrArg Kept.bootsel h, congrArg Kept.compat h⟩

/-! ### The shapes of the model's functions -/

/-- A structure update that leaves the four parts: stated over every field, the form in which simp meets the update. -/
@[simp ↓] theorem kept_mk : ∀ pending dtime free regs inUse mem losses poison flash0 flash1 otp power boot park undo degr isl locket gate
    denial posted capture sv xs surf used ents buds seqs ev vec ports rings valPort valRing tlc adm scan link wb fetch preset sigs groups
    bz watch sink dma blit pol shq dram reqs flying trigs trained ig lane can flts bells hostReads dmaLast lastRead jtag,
    State.kept ⟨pending, dtime, free, regs, inUse, mem, losses, poison, flash0, flash1, otp, power, boot, park, undo, degr, isl, locket,
      gate, denial, posted, capture, sv, xs, surf, used, ents, buds, seqs, ev, vec, ports, rings, valPort, valRing, tlc, adm, scan, link,
      wb, fetch, preset, sigs, groups, bz, watch, sink, dma, blit, pol, shq, dram, reqs, flying, trigs, trained, ig, lane, can, flts,
      bells, hostReads, dmaLast, lastRead, jtag⟩ = ⟨pending, dtime, power.bootsel, power.compat⟩ := by
  intros
  rfl

@[simp ↓] theorem kept_eta (s : State) : (⟨s.pending, s.dtime, s.power.bootsel, s.power.compat⟩ : Kept) = s.kept := rfl

@[simp ↓] theorem kept_ite {c : Prop} [Decidable c] (s t : State) : (if c then s else t).kept = if c then s.kept else t.kept :=
  apply_ite State.kept c s t

/-- `kept_ite` where the condition is large: simp never sees it. -/
theorem kept_ite_of {c : Prop} [Decidable c] {s t : State} {x : Kept} (hs : s.kept = x) (ht : t.kept = x) :
    (if c then s else t).kept = x := by
  split
  · exact hs
  · exact ht

@[simp ↓] theorem kept_fst_ite {β : Type} {c : Prop} [Decidable c] (p q : State × β) :
    (if c then p else q).1.kept = if c then p.1.kept else q.1.kept := apply_ite (·.1.kept) c p q

@[simp ↓] theorem kept_snd_ite {β : Type} {c : Prop} [Decidable c] (p q : β × State) :
    (if c then p else q).2.kept = if c then p.2.kept else q.2.kept := apply_ite (·.2.kept) c p q

theorem kept_of_fst {β : Type} {p : State × β} {t : State} {b : β} {x : Kept} (e : p = (t, b)) (h : p.1.kept = x) : t.kept = x := by
  rw [e] at h
  exact h

/-- An effect that leaves the four parts of every state. A predicate with a name, since simp discharges it where it does not discharge
the bare `∀`. -/
def Keeps (f : State → State) : Prop := ∀ s, (f s).kept = s.kept

def KeepsEach {α : Type} (f : State → α → State) : Prop := ∀ s a, (f s a).kept = s.kept

@[simp ↓] theorem keeps_iff (f : State → State) : Keeps f ↔ ∀ s, (f s).kept = s.kept := Iff.rfl

@[simp ↓] theorem keepsEach_iff {α : Type} (f : State → α → State) : KeepsEach f ↔ ∀ s a, (f s a).kept = s.kept := Iff.rfl

@[simp ↓] theorem foldl_kept {α : Type} {f : State → α → State} (h : KeepsEach f) (l : List α) (s : State) :
    (l.foldl f s).kept = s.kept := by
  induction l generalizing s with
  | nil => rfl
  | cons a l ih => exact (ih _).trans (h s a)

theorem foldl_fst_kept {α β : Type} {f : State × β → α → State × β} (h : ∀ x a, (f x a).1.kept = x.1.kept) (l : List α)
    (x : State × β) : (l.foldl f x).1.kept = x.1.kept := by
  induction l generalizing x with
  | nil => rfl
  | cons a l ih => exact (ih _).trans (h x a)

@[simp ↓] theorem when_kept {f : State → State} (h : Keeps f) (s : State) (c : Bool) : (s.when c f).kept = s.kept := by
  unfold State.when
  split
  · exact h s
  · rfl

/-! The same of a load in progress, which carries the state. -/

def Ld.Keeps (f : Ld → Ld) : Prop := ∀ l, (f l).s.kept = l.s.kept

def Ld.KeepsEach {α : Type} (f : Ld → α → Ld) : Prop := ∀ l a, (f l a).s.kept = l.s.kept

@[simp ↓] theorem Ld.keeps_iff (f : Ld → Ld) : Ld.Keeps f ↔ ∀ l, (f l).s.kept = l.s.kept := Iff.rfl

@[simp ↓] theorem Ld.keepsEach_iff {α : Type} (f : Ld → α → Ld) : Ld.KeepsEach f ↔ ∀ l a, (f l a).s.kept = l.s.kept := Iff.rfl

@[simp ↓] theorem Ld.foldl_kept {α : Type} {f : Ld → α → Ld} (h : Ld.KeepsEach f) (xs : List α) (l : Ld) :
    (xs.foldl f l).s.kept = l.s.kept := by
  induction xs generalizing l with
  | nil => rfl
  | cons x xs ih => exact (ih _).trans (h l x)

@[simp ↓] theorem Ld.kept_ite {c : Prop} [Decidable c] (l m : Ld) :
    (if c then l else m).s.kept = if c then l.s.kept else m.s.kept := apply_ite (·.s.kept) c l m

/-! ### A definition's body in place of its equation

Where a function matches on `busRead`, `hwWrite` or `readSecs`, the equation that `unfold` and `rw` use sends the kernel into the numbers
of the address map. There the proofs below replace the constant itself by its body (`generalize`, `delta … at`, `subst`), which asks the
kernel for nothing; of a function that recurses on a count this leaves `Nat.brecOn` of its functional `f._f`. -/

theorem brecOn_kept {F : (n : Nat) → Nat.below (motive := fun _ => State → State) n → State → State}
    (zero : ∀ b s, (F 0 b s).kept = s.kept)
    (succ : ∀ n b, (∀ s, (b.1 s).kept = s.kept) → ∀ s, (F (n + 1) b s).kept = s.kept) (n : Nat) (s : State) :
    (Nat.brecOn (motive := fun _ => State → State) n F s).kept = s.kept := by
  induction n generalizing s with
  | zero => exact zero _ s
  | succ n ih => exact succ n _ ih s

/-! ## The frame rules, in the order of the model's files -/

section

variable (s : State)

/-! ### Machine/Ops.lean -/

@[simp ↓] theorem wr_kept (a : Nat) (w : Word) : (s.wr a w).kept = s.kept := by simp [State.wr]

@[simp ↓] theorem wrN_kept (a v : Nat) : (s.wrN a v).kept = s.kept := by simp [State.wrN]

@[simp ↓] theorem put_kept (a : Nat) (f : Fld) (v : Nat) : (s.put a f v).kept = s.kept := by simp [State.put]

@[simp ↓] theorem bump_kept (a : Nat) (f : Fld) (n : Nat) : (s.bump a f n).kept = s.kept := by simp [State.bump]

@[simp ↓] theorem bumpMod_kept (a : Nat) (f : Fld) (n : Nat) : (s.bumpMod a f n).kept = s.kept := by simp [State.bumpMod]

@[simp ↓] theorem bumpSat_kept (a : Nat) (f : Fld) (n : Nat) : (s.bumpSat a f n).kept = s.kept := by simp [State.bumpSat]

@[simp ↓] theorem wrUse_kept (a : Nat) (w : Word) : (s.wrUse a w).kept = s.kept := by simp [State.wrUse]

@[simp ↓] theorem setDenialAt_kept (i : Nat) (v : Denial) : (s.setDenialAt i v).kept = s.kept := by simp [State.setDenialAt]

@[simp ↓] theorem setPostedAt_kept (i : Nat) (v : Option Posted) : (s.setPostedAt i v).kept = s.kept := by simp [State.setPostedAt]

@[simp ↓] theorem setCaptureAt_kept (i v : Nat) : (s.setCaptureAt i v).kept = s.kept := by simp [State.setCaptureAt]

@[simp ↓] theorem setSurfAt_kept (i : Nat) (v : SurfEntry) : (s.setSurfAt i v).kept = s.kept := by simp [State.setSurfAt]

@[simp ↓] theorem setEntAt_kept (i : Nat) (v : SurfEntry) : (s.setEntAt i v).kept = s.kept := by simp [State.setEntAt]

@[simp ↓] theorem setBudAt_kept (i : Nat) (v : List Nat) : (s.setBudAt i v).kept = s.kept := by simp [State.setBudAt]

@[simp ↓] theorem setSeqAt_kept (i v : Nat) : (s.setSeqAt i v).kept = s.kept := by simp [State.setSeqAt]

@[simp ↓] theorem setEvAt_kept (i : Nat) (v : PortEv) : (s.setEvAt i v).kept = s.kept := by simp [State.setEvAt]

@[simp ↓] theorem setVecAt_kept (i : Nat) (v : VecState) : (s.setVecAt i v).kept = s.kept := by simp [State.setVecAt]

@[simp ↓] theorem setPortAt_kept (i : Nat) (v : Port) : (s.setPortAt i v).kept = s.kept := by simp [State.setPortAt]

@[simp ↓] theorem setRingAt_kept (i : Nat) (v : Ring) : (s.setRingAt i v).kept = s.kept := by simp [State.setRingAt]

@[simp ↓] theorem setValRingAt_kept (i v : Nat) : (s.setValRingAt i v).kept = s.kept := by simp [State.setValRingAt]

@[simp ↓] theorem setTlcAt_kept (i : Nat) (v : TlCommits) : (s.setTlcAt i v).kept = s.kept := by simp [State.setTlcAt]

@[simp ↓] theorem setAdmAt_kept (i : Nat) (v : AdmTl) : (s.setAdmAt i v).kept = s.kept := by simp [State.setAdmAt]

@[simp ↓] theorem setScanAt_kept (i : Nat) (v : Scan) : (s.setScanAt i v).kept = s.kept := by simp [State.setScanAt]

@[simp ↓] theorem setLinkAt_kept (i : Nat) (v : OutLink) : (s.setLinkAt i v).kept = s.kept := by simp [State.setLinkAt]

@[simp ↓] theorem setWbAt_kept (i : Nat) (v : WbPort) : (s.setWbAt i v).kept = s.kept := by simp [State.setWbAt]

@[simp ↓] theorem setFetchAt_kept (i : Nat) (v : SlotFetch) : (s.setFetchAt i v).kept = s.kept := by simp [State.setFetchAt]

@[simp ↓] theorem setPresetAt_kept (i : Nat) (v : Option Nat) : (s.setPresetAt i v).kept = s.kept := by simp [State.setPresetAt]

@[simp ↓] theorem setSigAt_kept (i : Nat) (v : SigHistory) : (s.setSigAt i v).kept = s.kept := by simp [State.setSigAt]

@[simp ↓] theorem setGroupAt_kept (i : Nat) (v : GroupState) : (s.setGroupAt i v).kept = s.kept := by simp [State.setGroupAt]

@[simp ↓] theorem setBzAt_kept (i : Nat) (v : BzShown) : (s.setBzAt i v).kept = s.kept := by simp [State.setBzAt]

@[simp ↓] theorem setWatchAt_kept (i : Nat) (v : WatchState) : (s.setWatchAt i v).kept = s.kept := by simp [State.setWatchAt]

@[simp ↓] theorem setSinkAt_kept (i : Nat) (v : SinkState) : (s.setSinkAt i v).kept = s.kept := by simp [State.setSinkAt]

@[simp ↓] theorem setDmaAt_kept (i : Nat) (v : DmaCh) : (s.setDmaAt i v).kept = s.kept := by simp [State.setDmaAt]

@[simp ↓] theorem setBlitAt_kept (i : Nat) (v : BlitCh) : (s.setBlitAt i v).kept = s.kept := by simp [State.setBlitAt]

@[simp ↓] theorem setPolAt_kept (i : Nat) (v : Policer) : (s.setPolAt i v).kept = s.kept := by simp [State.setPolAt]

@[simp ↓] theorem setShqAt_kept (i : Nat) (v : ShapeQ) : (s.setShqAt i v).kept = s.kept := by simp [State.setShqAt]

@[simp ↓] theorem setDramAt_kept (i : Nat) (v : SubCh) : (s.setDramAt i v).kept = s.kept := by simp [State.setDramAt]

@[simp ↓] theorem setIgAt_kept (i : Nat) (v : Ingest) : (s.setIgAt i v).kept = s.kept := by simp [State.setIgAt]

@[simp ↓] theorem setLaneAt_kept (i : Nat) (v : Lane) : (s.setLaneAt i v).kept = s.kept := by simp [State.setLaneAt]

@[simp ↓] theorem setCanAt_kept (i : Nat) (v : Can) : (s.setCanAt i v).kept = s.kept := by simp [State.setCanAt]

@[simp ↓] theorem wrByte_kept (a : Nat) (b : Byte) : (s.wrByte a b).kept = s.kept := by simp [State.wrByte]

@[simp ↓] theorem wrBytes_kept (a : Nat) (bs : List Byte) : (s.wrBytes a bs).kept = s.kept := by
  induction bs generalizing s a with
  | nil => rfl
  | cons b bs ih => simp [State.wrBytes, ih]

@[simp ↓] theorem lose_kept (keep : List (Nat × Nat)) : (s.lose keep).kept = s.kept := by simp [State.lose]

@[simp ↓] theorem wrFlash_kept (dev a : Nat) (b : Byte) : (s.wrFlash dev a b).kept = s.kept := by simp [State.wrFlash]

@[simp ↓] theorem progFlash_kept (dev a : Nat) (bs : List Byte) : (s.progFlash dev a bs).kept = s.kept := by
  induction bs generalizing s a with
  | nil => rfl
  | cons b bs ih => simp [State.progFlash, ih]

@[simp ↓] theorem eraseFlash_kept (dev a n : Nat) : (s.eraseFlash dev a n).kept = s.kept := by
  induction n generalizing s a with
  | zero => rfl
  | succ n ih => simp [State.eraseFlash, ih]

@[simp ↓] theorem hwError_kept (p : Nat) : (s.hwError p).kept = s.kept := by simp [State.hwError]

@[simp ↓] theorem toHost_kept (p : Nat) (m : HostMsg) : (s.toHost p m).kept = s.kept := by simp [State.toHost]

theorem hwWrite_kept {s t : State} {p o : Nat} {bs : List Byte} (h : s.hwWrite p o bs = some t) : t.kept = s.kept := by
  unfold State.hwWrite at h
  split at h <;> cases h
  simp

@[simp ↓] theorem enqueue_kept (p : Nat) (e : Event) : (s.enqueue p e).kept = s.kept := by simp [State.enqueue]

@[simp ↓] theorem nextSeq_kept (source : Nat) : (s.nextSeq source).kept = s.kept := by simp [State.nextSeq]

@[simp ↓] theorem postLost_kept (p : Nat) : (s.postLost p).kept = s.kept := by simp [State.postLost]

@[simp ↓] theorem offer_kept (e : Event) (p : Nat) : (s.offer e p).kept = s.kept := by simp [State.offer]

@[simp ↓] theorem postTo_kept (ps : List Nat) (source type flags : Nat) (payload : List Byte) :
    (s.postTo ps source type flags payload).kept = s.kept := by
  simp [State.postTo]

@[simp ↓] theorem post_kept (cls inst type flags : Nat) (payload : List Byte) : (s.post cls inst type flags payload).kept = s.kept := by
  simp [State.post]

@[simp ↓] theorem postAll_kept (cls inst type : Nat) (payload : List Byte) : (s.postAll cls inst type payload).kept = s.kept := by
  simp [State.postAll]

@[simp ↓] theorem postOwn_kept (p cls inst type : Nat) (payload : List Byte) : (s.postOwn p cls inst type payload).kept = s.kept := by
  simp [State.postOwn]

theorem reserve_kept {s t : State} {ps : List Nat} (h : s.reserve ps = some t) : t.kept = s.kept := by
  induction ps generalizing s with
  | nil => cases h; rfl
  | cons p ps ih =>
    unfold State.reserve at h
    split at h
    · exact (ih h).trans (by simp)
    · cases h

@[simp ↓] theorem unreserve_kept (ps : List Nat) : (s.unreserve ps).kept = s.kept := by simp [State.unreserve]

@[simp ↓] theorem release_kept (ps : List Nat) : (s.release ps).kept = s.kept := by simp [State.release]

@[simp ↓] theorem postReserved_kept (ps : List Nat) (source type flags : Nat) (payload : List Byte) :
    (s.postReserved ps source type flags payload).kept = s.kept := by
  simp [State.postReserved]

@[simp ↓] theorem postPstate_kept (old new cause : Nat) : (s.postPstate old new cause).kept = s.kept := by simp [State.postPstate]

@[simp ↓] theorem syncDegraded_kept : s.syncDegraded.kept = s.kept := by simp [State.syncDegraded]

@[simp ↓] theorem syncFault_kept : s.syncFault.kept = s.kept := by simp [State.syncFault]

@[simp ↓] theorem raiseFault_kept (f : Fld) (tl : Option Nat) : (s.raiseFault f tl).kept = s.kept := by
  unfold State.raiseFault
  split <;> simp

theorem ledgerAdd_kept {s t : State} {role source action target result : Nat} {old new : List Byte}
    (h : s.ledgerAdd role source action target old new result = some t) : t.kept = s.kept := by
  unfold State.ledgerAdd at h
  split at h <;> cases h
  simp

@[simp ↓] theorem ledgerRefusal_kept (role source action target : Nat) (old new : List Byte) :
    (s.ledgerRefusal role source action target old new).kept = s.kept := by
  unfold State.ledgerRefusal
  split
  · simp
  · split
    · exact ledgerAdd_kept ‹_›
    · simp

@[simp ↓] theorem ledgerDone_kept (role source action target : Nat) (old new : List Byte) :
    (s.ledgerDone role source action target old new).kept = s.kept := by
  unfold State.ledgerDone
  split
  · exact ledgerAdd_kept ‹_›
  · simp

@[simp ↓] theorem drawFree_kept : s.drawFree.2.kept = s.kept := by simp [State.drawFree]

/-! ### Machine/Access.lean -/

@[simp ↓] theorem logUr_kept (src : Src) (a : Nat) : (s.logUr src a).kept = s.kept := by
  unfold State.logUr
  split <;> simp

@[simp ↓] theorem postDenied_kept (p offset value reason count : Nat) : (s.postDenied p offset value reason count).kept = s.kept := by
  simp [State.postDenied]

@[simp ↓] theorem hostDenied_kept (p a value reason : Nat) : (s.hostDenied p a value reason).kept = s.kept := by
  unfold State.hostDenied
  dsimp only
  split
  · simp
  · simp

@[simp ↓] theorem refuseWrite_kept (src : Src) (a value reason : Nat) : (s.refuseWrite src a value reason).kept = s.kept := by
  unfold State.refuseWrite
  split <;> simp

@[simp ↓] theorem setBusy_kept (g : Nat) (v : Bool) : (s.setBusy g v).kept = s.kept := by
  unfold State.setBusy
  split <;> simp

@[simp ↓] theorem setLost_kept (g : Nat) : (s.setLost g).kept = s.kept := by
  unfold State.setLost
  split <;> simp

@[simp ↓] theorem postWrite_kept (src : Src) (a : Nat) (w : Word) : (s.postWrite src a w).kept = s.kept := by simp [State.postWrite]

@[simp ↓] theorem setSealed_kept (t : Nat) (v : Bool) : (s.setSealed t v).kept = s.kept := by simp [State.setSealed]

@[simp ↓] theorem setSealedWr_kept (a : Nat) : (s.setSealedWr a).kept = s.kept := by simp [State.setSealedWr]

@[simp ↓] theorem filterField_kept (src : Src) (a value : Nat) (acc : Filtered) (f : FieldRow) :
    (filterField src a value acc f).s.kept = acc.s.kept := by
  unfold filterField
  dsimp only
  (repeat' split) <;> simp

theorem foldl_filterField_kept (src : Src) (a value : Nat) (fs : List FieldRow) (acc : Filtered) :
    (fs.foldl (filterField src a value) acc).s.kept = acc.s.kept := by
  induction fs generalizing acc with
  | nil => rfl
  | cons f fs ih => simp [ih]

@[simp ↓] theorem filterWord_kept (src : Src) (a value : Nat) (r : RegRow) : (filterWord s src a value r).s.kept = s.kept := by
  simp [filterWord, foldl_filterField_kept]

@[simp ↓] theorem markOnce_kept (a : Nat) (r : RegRow) : (s.markOnce a r).kept = s.kept := by simp [State.markOnce]

theorem decideWrite_kept {adm : State → Nat → Word → State × Bool} (h : ∀ s a w, (adm s a w).1.kept = s.kept) (s : State) (src : Src)
    (a value : Nat) : (decideWrite adm s src a value).elim (·.1.kept) (·.1.kept) = s.kept := by
  unfold decideWrite
  split
  · simp
  · split
    · simp
    · split
      · simp
      · next r _ _ _ =>
        extract_lets f s₁ w
        have hs : s₁.kept = s.kept := by
          have hf : f.s.kept = s.kept := filterWord_kept _ _ _ _ _
          unfold s₁
          split <;> simp [hf]
        split
        · exact hs
        · split
          · simpa using hs
          · split
            · split
              · have ha := h s₁ a w
                split
                · next e => rw [e] at ha; exact ha.trans hs
                · next e => rw [e] at ha; simpa using ha.trans hs
              · simpa using hs
            · exact hs

@[simp ↓] theorem tear_kept (changed : Bool) : (s.tear changed).kept = s.kept := by simp [State.tear]

@[simp ↓] theorem wrHub_kept (a : Nat) (w : Word) : (s.wrHub a w).kept = s.kept := by simp [State.wrHub]

@[simp ↓] theorem landWrite_kept (a : Nat) (w : Word) (r : RegRow) : (s.landWrite a w r).kept = s.kept := by simp [State.landWrite]

@[simp ↓] theorem noAdm_kept (a : Nat) (w : Word) : (noAdm s a w).1.kept = s.kept := rfl

@[simp ↓] theorem guarded_kept {eff : State → Word → State} (h : KeepsEach eff) (s : State) (src : Src) (a value : Nat) :
    (s.guarded src a value eff).1.kept = s.kept := by
  have d := decideWrite_kept noAdm_kept s src (s.aliasAddr a) value
  unfold State.guarded
  split <;> rename_i e <;> rw [e] at d
  · exact d
  · exact (h _ _).trans d

/-! ### Machine/Gatehouse.lean -/

@[simp ↓] theorem putWords_kept (base : Nat) (bs : List Byte) : (s.putWords base bs).kept = s.kept := by simp [State.putWords]

@[simp ↓] theorem sesState_kept (st result : Nat) : (s.sesState st result).kept = s.kept := by simp [State.sesState]

@[simp ↓] theorem sesFail_kept (result : Nat) : (s.sesFail result).kept = s.kept := by simp [State.sesFail]

@[simp ↓] theorem sesRefuse_kept (result : Nat) : (s.sesRefuse result).kept = s.kept := by simp [State.sesRefuse]

@[simp ↓] theorem sesClose_kept : s.sesClose.kept = s.kept := by simp [State.sesClose]

@[simp ↓] theorem sesChallenge_kept : s.sesChallenge.kept = s.kept := by
  unfold State.sesChallenge
  dsimp only
  (repeat' split) <;> simp

@[simp ↓] theorem sesRespond_kept : s.sesRespond.kept = s.kept := by simp [State.sesRespond]

@[simp ↓] theorem sesVerify_kept : s.sesVerify.kept = s.kept := by
  unfold State.sesVerify
  refine kept_ite_of ?_ (by simp)
  split
  · simp
  · next h => simpa using ledgerAdd_kept h

@[simp ↓] theorem sesCtrl_kept (w : Word) : (s.sesCtrl w).kept = s.kept := by
  unfold State.sesCtrl
  split <;> simp

@[simp ↓] theorem lockHard_kept (w : Word) : (s.lockHard w).kept = s.kept := by simp [State.lockHard]

@[simp ↓] theorem ikhProgram_kept (w : Word) : (s.ikhProgram w).kept = s.kept := by simp [State.ikhProgram]

@[simp ↓] theorem ikhDone_kept : s.ikhDone.kept = s.kept := by simp [State.ikhDone]

@[simp ↓] theorem tokenSubmit_kept (src : Src) (w : Word) : (s.tokenSubmit src w).kept = s.kept := by simp [State.tokenSubmit]

@[simp ↓] theorem makerEnd_kept : s.makerEnd.kept = s.kept := by simp [State.makerEnd]

@[simp ↓] theorem tokenCtrl_kept (src : Src) (w : Word) : (s.tokenCtrl src w).kept = s.kept := by simp [State.tokenCtrl]

@[simp ↓] theorem cfgGo_kept (w : Word) : (s.cfgGo w).kept = s.kept := by simp [State.cfgGo]

@[simp ↓] theorem cfgDone_kept : s.cfgDone.kept = s.kept := by simp [State.cfgDone]

@[simp ↓] theorem ledgerWrite_kept (dev seq : Nat) (bs : List Byte) : (s.ledgerWrite dev seq bs).kept = s.kept := by
  simp [State.ledgerWrite]

@[simp ↓] theorem ledgerProgram_kept : s.ledgerProgram.kept = s.kept := by
  unfold State.ledgerProgram
  split <;> simp

@[simp ↓] theorem ledgerCopy_kept (from_ to_ head : Nat) : (s.ledgerCopy from_ to_ head).kept = s.kept := by simp [State.ledgerCopy]

@[simp ↓] theorem ledgerShow_kept (seq : Nat) : (s.ledgerShow seq).kept = s.kept := by simp [State.ledgerShow]

@[simp ↓] theorem ledgerStart_kept : s.ledgerStart.kept = s.kept := by
  unfold State.ledgerStart
  dsimp only
  split <;> simp

@[simp ↓] theorem foldPost_kept (p : Nat) : (s.foldPost p).kept = s.kept := by simp [State.foldPost]

/-! ### Machine/Memory.lean -/

@[simp ↓] theorem clearPoison_kept (a n : Nat) : (s.clearPoison a n).kept = s.kept := by simp [State.clearPoison]

@[simp ↓] theorem request_kept (write : Bool) (a n : Nat) (cls : MemClass) (deadline : Nat) (kind : ReadKind) :
    (s.request write a n cls deadline kind).kept = s.kept := by
  unfold State.request
  split <;> simp

@[simp ↓] theorem putBlock_kept (a : Nat) (bs : List Byte) : (s.putBlock a bs).1.kept = s.kept := by
  unfold State.putBlock
  split <;> simp

@[simp ↓] theorem putBlocks_kept (n a : Nat) (bs : List Byte) : (s.putBlocks n a bs).1.kept = s.kept := by
  induction n generalizing s a bs with
  | zero => rfl
  | succ n ih => unfold State.putBlocks; split <;> simp [ih]

@[simp ↓] theorem memWrite_kept (a : Nat) (bs : List Byte) : (s.memWrite a bs).1.kept = s.kept := by
  unfold State.memWrite
  split <;> simp

@[simp ↓] theorem busIssue_kept (a n : Nat) (cls : MemClass) (deadline : Nat) (kind : ReadKind) :
    (s.busIssue a n cls deadline kind).kept = s.kept := by
  unfold State.busIssue
  split <;> simp

@[simp ↓] theorem busRetract_kept (a n : Nat) : (s.busRetract a n).kept = s.kept := by
  unfold State.busRetract
  split <;> simp

@[simp ↓] theorem busRead_kept (a n : Nat) (res : ReadRes) (host : List Byte) : (s.busRead a n res host).1.kept = s.kept := by
  unfold State.busRead
  (repeat' split) <;> simp

@[simp ↓] theorem dropFlying_kept (p : Nat) : (s.dropFlying p).kept = s.kept := by simp [State.dropFlying]

theorem winWrite_kept {s t : State} {p o n : Nat} {bs : List Byte} (h : s.winWrite p o bs n = some t) : t.kept = s.kept := by
  induction n generalizing s o bs with
  | zero => cases h; rfl
  | succ n ih =>
    unfold State.winWrite at h
    dsimp only at h
    split at h
    · cases h; rfl
    · split at h
      · exact (ih h).trans (hwWrite_kept ‹_›)
      · cases h

@[simp ↓] theorem busWrite_kept (a : Nat) (bs : List Byte) (cls : MemClass) (deadline : Nat) (kind : ReadKind) :
    (s.busWrite a bs cls deadline kind).1.kept = s.kept := by
  unfold State.busWrite
  split
  · split
    · exact winWrite_kept ‹_›
    · simp
  · simp

/-! ### Machine/Carousel.lean -/

@[simp ↓] theorem polCount_kept (k : Nat) (green : Bool) (l : Nat) : (s.polCount k green l).kept = s.kept := by simp [State.polCount]

@[simp ↓] theorem bar2Answer_kept (p a n : Nat) : (s.bar2Answer p a n).kept = s.kept := by simp [State.bar2Answer]

@[simp ↓] theorem polRelease_kept (k : Nat) (pkt : Packet) (green : Bool) : (s.polRelease k pkt green).kept = s.kept := by
  simp [State.polRelease]

@[simp ↓] theorem polTokens_kept (k : Nat) : (s.polTokens k).kept = s.kept := by simp [State.polTokens]

@[simp ↓] theorem holdEvent_kept (k state value : Nat) : (s.holdEvent k state value).kept = s.kept := by simp [State.holdEvent]

@[simp ↓] theorem polColour_kept (k t : Nat) (pkt : Packet) : (s.polColour k t pkt).1.kept = s.kept := by simp [State.polColour]

@[simp ↓] theorem polDrain_kept (k t : Nat) (ps : List Packet) : (s.polDrain k t ps).kept = s.kept := by
  induction ps generalizing s with
  | nil => simp [State.polDrain]
  | cons p ps ih => unfold State.polDrain; simp [ih]

@[simp ↓] theorem polUnhold_kept (k tr : Nat) : (s.polUnhold k tr).kept = s.kept := by
  unfold State.polUnhold
  dsimp only
  split <;> simp

@[simp ↓] theorem polDueN_kept (k n : Nat) (s : State) : (s.polDueN k n).kept = s.kept := by
  induction n generalizing s with
  | zero => rfl
  | succ n ih => unfold State.polDueN; split <;> simp [ih]

@[simp ↓] theorem polDue_kept (k : Nat) : (s.polDue k).kept = s.kept := by simp [State.polDue]

@[simp ↓] theorem polArrive_kept (k : Nat) (pkt : Packet) : (s.polArrive k pkt).kept = s.kept := by simp [State.polArrive]

@[simp ↓] theorem polPortReset_kept (p : Nat) : (s.polPortReset p).kept = s.kept := by simp [State.polPortReset]

@[simp ↓] theorem carouselStart_kept : s.carouselStart.kept = s.kept := by simp [State.carouselStart]

@[simp ↓] theorem qRelease_kept (q t : Nat) (green : Bool) (w : QWait) (rest : List QWait) :
    (s.qRelease q t green w rest).kept = s.kept := by
  unfold State.qRelease
  split <;> simp

@[simp ↓] theorem qPark_kept (q : Nat) (e : Option Nat) : (s.qPark q e).kept = s.kept := by simp [State.qPark]

@[simp ↓] theorem qServe_kept (q t : Nat) (ws : List QWait) : (s.qServe q t ws).kept = s.kept := by
  induction ws generalizing s with
  | nil => simp [State.qServe]
  | cons w ws ih => simp [State.qServe, ih]

@[simp ↓] theorem qEnter_kept (q : Nat) (w : QWait) : (s.qEnter q w).kept = s.kept := by simp [State.qEnter]

@[simp ↓] theorem qWithdraw_kept (q c : Nat) : (s.qWithdraw q c).kept = s.kept := by simp [State.qWithdraw]

@[simp ↓] theorem qDue_kept (q : Nat) : (s.qDue q).kept = s.kept := by
  unfold State.qDue
  split <;> simp

@[simp ↓] theorem qSetRate_kept (q rate : Nat) : (s.qSetRate q rate).kept = s.kept := by simp [State.qSetRate]

@[simp ↓] theorem qRateWrite_kept (q : Nat) (w : Word) : (s.qRateWrite q w).kept = s.kept := by simp [State.qRateWrite]

@[simp ↓] theorem qContractLanded_kept (q : Nat) : (s.qContractLanded q).kept = s.kept := by simp [State.qContractLanded]

@[simp ↓] theorem hubCharge_kept (q n : Nat) : (s.hubCharge q n).kept = s.kept := by simp [State.hubCharge]

@[simp ↓] theorem hostCharge_kept (a n : Nat) : (s.hostCharge a n).kept = s.kept := by
  unfold State.hostCharge
  split <;> simp

@[simp ↓] theorem unitIssue_kept (a n : Nat) (cls : MemClass) : (s.unitIssue a n cls).kept = s.kept := by simp [State.unitIssue]

@[simp ↓] theorem unitWrite_kept (a : Nat) (bs : List Byte) : (s.unitWrite a bs).1.kept = s.kept := by simp [State.unitWrite]

@[simp ↓] theorem hubWrite_kept (a : Nat) (bs : List Byte) : (s.hubWrite a bs).kept = s.kept := by simp [State.hubWrite]

/-! ### Machine/Dram.lean -/

@[simp ↓] theorem rankFail_kept (k r : Nat) : (s.rankFail k r).kept = s.kept := by simp [State.rankFail]

@[simp ↓] theorem noteReport_kept (k hpa : Nat) : (s.noteReport k hpa).kept = s.kept := by simp [State.noteReport]

@[simp ↓] theorem rankUe_kept (k rank : Nat) : (s.rankUe k rank).kept = s.kept := by simp [State.rankUe]

@[simp ↓] theorem dramUe_kept (k hpa kind syn copy : Nat) : (s.dramUe k hpa kind syn copy).kept = s.kept := by simp [State.dramUe]

@[simp ↓] theorem wqShow_kept (k : Nat) : (s.wqShow k).kept = s.kept := by simp [State.wqShow]

@[simp ↓] theorem wqEnter_kept (k hpa : Nat) (bs : List Byte) (cls : MemClass) (deadline : Nat) :
    (s.wqEnter k hpa bs cls deadline).kept = s.kept := by
  cases h : (s.dramAt k).entryOf (blockOf hpa) <;> simp [State.wqEnter, h]

@[simp ↓] theorem wqOffer_kept (k hpa : Nat) (bs : List Byte) (cls : MemClass) (deadline : Nat) :
    (s.wqOffer k hpa bs cls deadline).kept = s.kept := by
  simp [State.wqOffer]

@[simp ↓] theorem wqRefill_kept (k : Nat) (kept ws : List (Nat × List Byte × MemClass × Nat)) :
    (s.wqRefill k kept ws).kept = s.kept := by
  induction ws generalizing s kept with
  | nil => simp [State.wqRefill]
  | cons w ws ih => simp [State.wqRefill, ih]

@[simp ↓] theorem dramWrite_kept (c : DramConf) (hpa : Nat) (bs : List Byte) (cls : MemClass) (deadline : Nat) :
    (s.dramWrite c hpa bs cls deadline).kept = s.kept := by
  simp [State.dramWrite]

@[simp ↓] theorem writeBack_kept (k hpa : Nat) (cls : MemClass) (deadline : Nat) : (s.writeBack k hpa cls deadline).kept = s.kept := by
  simp [State.writeBack]

@[simp ↓] theorem dramCe_kept (k hpa : Nat) : (s.dramCe k hpa).kept = s.kept := by simp [State.dramCe]

@[simp ↓] theorem dramRepair_kept (k rank hpa : Nat) (cls : MemClass) (deadline : Nat) :
    (s.dramRepair k rank hpa cls deadline).kept = s.kept := by
  simp [State.dramRepair]

@[simp ↓] theorem checkCopy_kept (hpa k rank copy : Nat) (r : BlockRead) : (s.checkCopy hpa k rank copy r).1.kept = s.kept := by
  unfold State.checkCopy
  split <;> simp

@[simp ↓] theorem dramCheck_kept (c : DramConf) (hpa : Nat) (cls : MemClass) (deadline : Nat) (errs0 errs1 : List BeatErr) :
    (s.dramCheck c hpa cls deadline errs0 errs1).1.kept = s.kept := by
  unfold State.dramCheck
  dsimp only
  (repeat' split) <;> simp

@[simp ↓] theorem readEnter_kept (k blk : Nat) (cls : MemClass) (deadline : Nat) (kind : ReadKind) :
    (s.readEnter k blk cls deadline kind).kept = s.kept := by
  cases h : (s.dramAt k).entryOf blk <;> simp [State.readEnter, h]

@[simp ↓] theorem openRow_kept (k : Nat) (l : DramLoc) : (s.openRow k l).kept = s.kept := by simp [State.openRow]

@[simp ↓] theorem fillDone_kept (k id : Nat) (good : Bool) : (s.fillDone k id good).kept = s.kept := by
  cases h : (s.dramAt k).wq.find? fun e => e.id == id <;> simp [State.fillDone, h]

@[simp ↓] theorem batchStart_kept (k : Nat) : (s.batchStart k).kept = s.kept := by simp [State.batchStart]

@[simp ↓] theorem wrFree_kept (a n : Nat) : (s.wrFree a n).kept = s.kept := by
  induction n generalizing s a with
  | zero => rfl
  | succ n ih => simp [State.wrFree, ih, State.drawFree]

@[simp ↓] theorem wqDrop_kept (k id : Nat) : (s.wqDrop k id).kept = s.kept := by simp [State.wqDrop]

@[simp ↓] theorem writeLost_kept (k hpa : Nat) : (s.writeLost k hpa).kept = s.kept := by
  unfold State.writeLost
  split <;> simp

@[simp ↓] theorem wqAck_kept (k id : Nat) : (s.wqAck k id).kept = s.kept := by
  unfold State.wqAck
  split <;> simp

@[simp ↓] theorem payStart_kept (k r : Nat) : (s.payStart k r).kept = s.kept := by simp [State.payStart]

@[simp ↓] theorem refreshTick_kept (k r : Nat) : (s.refreshTick k r).kept = s.kept := by simp [State.refreshTick]

@[simp ↓] theorem postTemp_kept (k kind : Nat) : (s.postTemp k kind).kept = s.kept := by simp [State.postTemp]

@[simp ↓] theorem enter2x_kept (k : Nat) : (s.enter2x k).kept = s.kept := by simp [State.enter2x]

@[simp ↓] theorem leave2x_kept (k : Nat) : (s.leave2x k).kept = s.kept := by simp [State.leave2x]

@[simp ↓] theorem tickFirst_kept (k : Nat) : (s.tickFirst k).kept = s.kept := by simp [State.tickFirst]

@[simp ↓] theorem tempEval_kept (k : Nat) : (s.tempEval k).kept = s.kept := by simp [State.tempEval]

@[simp ↓] theorem owedPaid_kept (k r : Nat) : (s.owedPaid k r).kept = s.kept := by simp [State.owedPaid]

@[simp ↓] theorem drawTrained_kept (n : Nat) : (s.drawTrained n).2.kept = s.kept := by
  induction n generalizing s with
  | zero => rfl
  | succ n ih => simp [State.drawTrained, ih]

theorem kept_of_drawTrained {s t : State} {n : Nat} {bs : List Byte} (h : s.drawTrained n = (bs, t)) : t.kept = s.kept := by
  rw [← drawTrained_kept s n, h]

@[simp ↓] theorem rankRecord_kept : s.rankRecord.2.kept = s.kept := by
  generalize e : State.rankRecord = f
  delta State.rankRecord at e
  subst e
  beta_reduce
  split; next a t ha =>
  split; next b u hb =>
  split; next c v hc =>
  exact (kept_of_drawTrained hc).trans ((kept_of_drawTrained hb).trans (kept_of_drawTrained ha))

@[simp ↓] theorem trainRank_kept (c : DramConf) (k r : Nat) : (s.trainRank c k r).kept = s.kept := by
  unfold State.trainRank
  dsimp only
  split <;> simp

/-! ### Machine/Engines.lean -/

@[simp ↓] theorem bell_kept {eff : State → State} (h : Keeps eff) (s : State) (src : Src) (addr value : Nat) :
    (s.bell src addr value eff).kept = s.kept := by
  unfold State.bell
  split
  · simp
  · exact h s

@[simp ↓] theorem markUse_kept (i : Nat) : (s.markUse i).kept = s.kept := by simp [State.markUse]

@[simp ↓] theorem markFetch_kept (i : Nat) : (s.markFetch i).kept = s.kept := by simp [State.markFetch]

@[simp ↓] theorem showStage_kept : s.showStage.kept = s.kept := by simp [State.showStage]

@[simp ↓] theorem issueRead_kept (c : Nat) : (s.issueRead c).kept = s.kept := by
  unfold State.issueRead
  dsimp only
  split <;> simp

@[simp ↓] theorem issueReads_kept (n : Nat) : (s.issueReads n).kept = s.kept := by
  induction n generalizing s with
  | zero => simp [State.issueReads]
  | succ n ih => unfold State.issueReads; split <;> simp [ih]

@[simp ↓] theorem dmaBegin_kept (c : Nat) : (s.dmaBegin c).kept = s.kept := by
  unfold State.dmaBegin
  dsimp only
  split <;> simp

@[simp ↓] theorem blitAsk_kept (c n : Nat) : (s.blitAsk c n).kept = s.kept := by
  unfold State.blitAsk
  split <;> simp

@[simp ↓] theorem blitBegin_kept (c : Nat) : (s.blitBegin c).kept = s.kept := by
  unfold State.blitBegin
  dsimp only
  split <;> simp

@[simp ↓] theorem blitTrigger_kept (c : Nat) : (s.blitTrigger c).kept = s.kept := by
  unfold State.blitTrigger
  dsimp only
  split <;> simp

@[simp ↓] theorem trigger_kept (kind unit arg : Nat) : (s.trigger kind unit arg).kept = s.kept := by
  unfold State.trigger
  extract_lets s₁ s₂
  have h₁ : s₁.kept = s.kept := rfl
  have h₂ : s₂.kept = s₁.kept := foldl_kept (fun s c => by split <;> simp) _ _
  refine kept_ite_of (.trans ?_ (h₂.trans h₁)) h₁
  exact foldl_kept (fun s c => by split <;> simp) _ _

/-! ### Machine/Dma.lean -/

@[simp ↓] theorem setCur_kept (c a : Nat) : (s.setCur c a).kept = s.kept := by simp [State.setCur]

@[simp ↓] theorem setLast_kept (c a : Nat) : (s.setLast c a).kept = s.kept := by simp [State.setLast]

@[simp ↓] theorem setDmState_kept (c st : Nat) : (s.setDmState c st).kept = s.kept := by simp [State.setDmState]

@[simp ↓] theorem dmaStop_kept (c st cause : Nat) : (s.dmaStop c st cause).kept = s.kept := by simp [State.dmaStop]

@[simp ↓] theorem setWant_kept (c : Nat) (w : Want) : (s.setWant c w).kept = s.kept := by simp [State.setWant]

@[simp ↓] theorem dmaAsk_kept (c : Nat) (w : Want) (a n : Nat) : (s.dmaAsk c w a n).kept = s.kept := by simp [State.dmaAsk]

@[simp ↓] theorem readDesc_kept (c : Nat) : (s.readDesc c).kept = s.kept := by
  unfold State.readDesc
  split <;> simp

@[simp ↓] theorem readNext_kept (c : Nat) : (s.readNext c).kept = s.kept := by simp [State.readNext]

@[simp ↓] theorem dmaResume_kept : s.dmaResume.kept = s.kept := by simp [State.dmaResume]

@[simp ↓] theorem dmaReread_kept (c : Nat) : (s.dmaReread c).kept = s.kept := by simp [State.dmaReread]

@[simp ↓] theorem dmaPark_kept (c : Nat) : (s.dmaPark c).kept = s.kept := by simp [State.dmaPark]

@[simp ↓] theorem dmaStart_kept (c : Nat) : (s.dmaStart c).kept = s.kept := by simp [State.dmaStart]

@[simp ↓] theorem dmaStatus_kept (a : Nat) (d : List Byte) : (s.dmaStatus a d).1.kept = s.kept := by simp [State.dmaStatus]

@[simp ↓] theorem settleEvent_kept (cls inst type : Nat) (use : Bool) (payload : List Byte) :
    (s.settleEvent cls inst type use payload).kept = s.kept := by
  simp [State.settleEvent]

@[simp ↓] theorem dmaEnd_kept (c code detail errOff residue crcOut : Nat) (statusBad : Bool) (stop : Option Nat) :
    (s.dmaEnd c code detail errOff residue crcOut statusBad stop).kept = s.kept := by
  unfold State.dmaEnd
  dsimp only
  split
  · rfl
  · split <;> simp

@[simp ↓] theorem dmaCrcStart_kept (c : Nat) (d : List Byte) : (s.dmaCrcStart c d).1.kept = s.kept := by
  unfold State.dmaCrcStart
  (repeat' split) <;> simp

@[simp ↓] theorem dmaAccept_kept (c owner : Nat) (d : List Byte) (statBad : Bool) : (s.dmaAccept c owner d statBad).kept = s.kept := by
  unfold State.dmaAccept
  split <;> simp

@[simp ↓] theorem dmaDescErr_kept (c : Nat) : (s.dmaDescErr c).kept = s.kept := by simp [State.dmaDescErr]

@[simp ↓] theorem dmaDesc_kept (c : Nat) (res : ReadRes) (host : List Byte) (statBad : Bool) :
    (s.dmaDesc c res host statBad).kept = s.kept := by
  have h := busRead_kept s (s.dmaCur c) 64 res host
  generalize e : @State.dmaDesc = f
  delta State.dmaDesc at e
  subst e
  beta_reduce
  generalize s.busRead (s.dmaCur c) 64 res host = x at h ⊢
  split
  · rfl
  · simpa using h
  · split
    · split
      · simpa using h
      · split
        · next r => simpa using (reserve_kept r).trans h
        · simpa using h
    · simpa using h

@[simp ↓] theorem dmaForget_kept (c : Nat) : (s.dmaForget c).kept = s.kept := by
  unfold State.dmaForget
  split <;> simp

@[simp ↓] theorem dmaKill_kept (c detail cause : Nat) (statBad : Bool) : (s.dmaKill c detail cause statBad).kept = s.kept := by
  unfold State.dmaKill
  dsimp only
  split <;> simp

@[simp ↓] theorem dmaLink_kept (c : Nat) (res : ReadRes) (host : List Byte) : (s.dmaLink c res host).kept = s.kept := by
  have h := busRead_kept s (s.dmaLastAt c + 40) 8 res host
  generalize e : @State.dmaLink = f
  delta State.dmaLink at e
  subst e
  beta_reduce
  generalize s.busRead (s.dmaLastAt c + 40) 8 res host = x at h ⊢
  obtain ⟨t, _ | w⟩ := x
  · simpa using h
  · simpa using h

@[simp ↓] theorem dmaDrain_kept (c n : Nat) : (s.dmaDrain c n).kept = s.kept := by
  induction n generalizing s with
  | zero => rfl
  | succ n ih =>
    unfold State.dmaDrain
    dsimp only
    split
    · rfl
    · split
      · rfl
      · split <;> simp [ih]

@[simp ↓] theorem dmaFlushRead_kept (c : Nat) : (s.dmaFlushRead c).kept = s.kept := by
  unfold State.dmaFlushRead
  dsimp only
  split <;> simp

@[simp ↓] theorem dmaReturn_kept (c off : Nat) (res : ReadRes) (host : List Byte) : (s.dmaReturn c off res host).kept = s.kept := by
  unfold State.dmaReturn
  dsimp only
  split <;> simp

@[simp ↓] theorem dmaAcked_kept (c : Nat) : (s.dmaAcked c).kept = s.kept := by
  cases h : (s.dmaAt c).run <;> simp [State.dmaAcked, h]

@[simp ↓] theorem dmaDone_kept (c : Nat) (badWr : List Nat) (wrFirst flushOk : Bool) :
    (s.dmaDone c badWr wrFirst flushOk).kept = s.kept := by
  unfold State.dmaDone
  split <;> simp

@[simp ↓] theorem dmaTakeBack_kept (c : Nat) : (s.dmaTakeBack c).kept = s.kept := by
  unfold State.dmaTakeBack
  dsimp only
  (repeat' split) <;> simp

@[simp ↓] theorem dmaAbort_kept (c detail cause : Nat) (statBad : Bool) : (s.dmaAbort c detail cause statBad).kept = s.kept := by
  unfold State.dmaAbort
  dsimp only
  (repeat' split) <;> simp

@[simp ↓] theorem abortFinish_kept (c : Nat) (statBad : Bool) : (s.abortFinish c statBad).kept = s.kept := by
  unfold State.abortFinish
  split <;> simp

@[simp ↓] theorem dmCtrl_kept (c : Nat) (w : Word) (statBad : Bool) : (s.dmCtrl c w statBad).kept = s.kept := by simp [State.dmCtrl]

@[simp ↓] theorem dmRing_kept (c : Nat) : (s.dmRing c).kept = s.kept := by
  unfold State.dmRing
  dsimp only
  split <;> simp

@[simp ↓] theorem dmDb_kept (src : Src) (c : Nat) (w : Word) : (s.dmDb src c w).kept = s.kept := by simp [State.dmDb]

@[simp ↓] theorem dmaParkAll_kept : s.dmaParkAll.kept = s.kept := by simp [State.dmaParkAll]

@[simp ↓] theorem dmaIslandReset_kept : s.dmaIslandReset.kept = s.kept := by
  unfold State.dmaIslandReset
  refine foldl_kept (fun s c => ?_) _ s
  dsimp only
  split <;> simp

@[simp ↓] theorem dmaAgain_kept : s.dmaAgain.kept = s.kept := by
  unfold State.dmaAgain
  refine (foldl_kept (fun s c => ?_) _ _).trans (by simp)
  split <;> simp

@[simp ↓] theorem dmaFlush_kept : s.dmaFlush.kept = s.kept := by
  unfold State.dmaFlush
  refine foldl_kept (fun s c => ?_) _ s
  dsimp only
  split
  · rfl
  · split
    · next h => simpa using kept_of_fst h (dmaStatus_kept _ _ _)
    · rfl

/-! ### Machine/Blit.lean -/

@[simp ↓] theorem setBlState_kept (c st : Nat) : (s.setBlState c st).kept = s.kept := by simp [State.setBlState]

@[simp ↓] theorem blitHalt_kept (c cause : Nat) (job : Option (Nat × Nat × Nat)) : (s.blitHalt c cause job).kept = s.kept := by
  simp [State.blitHalt]

@[simp ↓] theorem blitNext_kept (c : Nat) : (s.blitNext c).kept = s.kept := by
  unfold State.blitNext
  split <;> simp

@[simp ↓] theorem engResume_kept : s.engResume.kept = s.kept := by simp [State.engResume]

@[simp ↓] theorem blitRing_kept (c : Nat) (w : Word) : (s.blitRing c w).kept = s.kept := by
  unfold State.blitRing
  split <;> simp

@[simp ↓] theorem blDb_kept (src : Src) (c : Nat) (w : Word) : (s.blDb src c w).kept = s.kept := by simp [State.blDb]

@[simp ↓] theorem blitStatus_kept (a : Nat) (j : List Byte) : (s.blitStatus a j).1.kept = s.kept := by simp [State.blitStatus]

@[simp ↓] theorem blitRest_kept (c : Nat) : (s.blitRest c).kept = s.kept := by simp [State.blitRest]

@[simp ↓] theorem blitEnd_kept (c code detail rows errRow unwritten : Nat) (statusOk : Bool) (stop : Option Nat) :
    (s.blitEnd c code detail rows errRow unwritten statusOk stop).kept = s.kept := by
  unfold State.blitEnd
  dsimp only
  (repeat' split) <;> simp

@[simp ↓] theorem drawHalf_kept : s.drawHalf.2.kept = s.kept := by simp [State.drawHalf]

@[simp ↓] theorem blitAccept_kept (c owner : Nat) (j : List Byte) (statBad : Bool) : (s.blitAccept c owner j statBad).kept = s.kept := by
  unfold State.blitAccept
  dsimp only
  (repeat' split) <;> simp

@[simp ↓] theorem blitJob_kept (c : Nat) (res : ReadRes) (host : List Byte) (statBad : Bool) :
    (s.blitJob c res host statBad).kept = s.kept := by
  generalize e : @State.blitJob = f
  delta State.blitJob at e
  subst e
  have h := busRead_kept s (s.jobAddr c) 64 res host
  beta_reduce
  generalize s.busRead (s.jobAddr c) 64 res host = x at h ⊢
  split
  · rfl
  · simpa using h
  · split
    · next r => simpa using (reserve_kept r).trans h
    · simpa using h

@[simp ↓] theorem moveUnit_kept (badRd badWr : List Nat) (k : Nat) (p : Plane) (v : Nat) (acc : BlitRun) (u : Nat) :
    (s.moveUnit badRd badWr k p v acc u).1.kept = s.kept := by
  simp [State.moveUnit]

@[simp ↓] theorem rowPoison_kept (k : Nat) (p : Plane) (acc : BlitRun) (v : Nat) : (s.rowPoison k p acc v).1.kept = s.kept := by
  simp [State.rowPoison]

@[simp ↓] theorem moveRow_kept (badRd badWr : List Nat) (k : Nat) (p : Plane) (right : Bool) (acc : BlitRun) (v : Nat) :
    (s.moveRow badRd badWr k p right acc v).1.kept = s.kept := by
  have fold := foldl_fst_kept (f := fun x u => x.1.moveUnit badRd badWr k p v x.2 u) fun x u => moveUnit_kept x.1 badRd badWr k p v x.2 u
  simp [State.moveRow, fold]

@[simp ↓] theorem moveBand_kept (badRd badWr : List Nat) (k : Nat) (p : Plane) (down right : Bool) (acc : BlitRun) (n : Nat) :
    (s.moveBand badRd badWr k p down right acc n).1.kept = s.kept := by
  unfold State.moveBand
  exact foldl_fst_kept (fun x v => moveRow_kept x.1 badRd badWr k p right x.2 v) _ _

@[simp ↓] theorem wmAdvance_kept (c : Nat) (r : BlitRun) (down : Bool) (n : Nat) : (s.wmAdvance c r down n).kept = s.kept := by
  induction n generalizing s with
  | zero => rfl
  | succ n ih => simp [State.wmAdvance, ih]

@[simp ↓] theorem wmShow_kept (c : Nat) (r : BlitRun) : (s.wmShow c r).kept = s.kept := by simp [State.wmShow]

@[simp ↓] theorem bandSlip_kept (c : Nat) (r : BlitRun) : (s.bandSlip c r).kept = s.kept := by simp [State.bandSlip]

@[simp ↓] theorem bandLate_kept (c : Nat) : (s.bandLate c).kept = s.kept := by
  unfold State.bandLate
  split <;> simp

@[simp ↓] theorem blitStep_kept (c : Nat) (badRd badWr : List Nat) : (s.blitStep c badRd badWr).kept = s.kept := by
  unfold State.blitStep
  dsimp only
  (repeat' split) <;> simp

@[simp ↓] theorem bandSlot_kept (c : Nat) : (s.bandSlot c).kept = s.kept := by
  unfold State.bandSlot
  dsimp only
  split <;> simp

@[simp ↓] theorem blitDone_kept (c : Nat) (statusOk : Bool) : (s.blitDone c statusOk).kept = s.kept := by
  unfold State.blitDone
  split <;> simp

@[simp ↓] theorem blurRows_kept (r : BlitRun) (down : Bool) (rows : Nat) : (s.blurRows r down rows).kept = s.kept := by
  unfold State.blurRows
  split <;> simp

@[simp ↓] theorem blitKill_kept (c detail cause : Nat) (statBad : Bool) : (s.blitKill c detail cause statBad).kept = s.kept := by
  unfold State.blitKill
  split <;> simp

@[simp ↓] theorem blitAbort_kept (c : Nat) (statBad : Bool) : (s.blitAbort c statBad).kept = s.kept := by simp [State.blitAbort]

@[simp ↓] theorem blitEnable_kept (c : Nat) (en : Bool) : (s.blitEnable c en).kept = s.kept := by simp [State.blitEnable]

@[simp ↓] theorem blCtrl_kept (c : Nat) (w : Word) (statBad : Bool) : (s.blCtrl c w statBad).kept = s.kept := by simp [State.blCtrl]

@[simp ↓] theorem blitParkAll_kept : s.blitParkAll.kept = s.kept := by simp [State.blitParkAll]

@[simp ↓] theorem blitIslandReset_kept : s.blitIslandReset.kept = s.kept := by
  unfold State.blitIslandReset
  refine foldl_kept (fun s c => ?_) _ s
  dsimp only
  split <;> simp

@[simp ↓] theorem blitAgain_kept : s.blitAgain.kept = s.kept := by simp [State.blitAgain]

@[simp ↓] theorem blitFlush_kept : s.blitFlush.kept = s.kept := by
  unfold State.blitFlush
  refine foldl_kept (fun s c => ?_) _ s
  dsimp only
  split
  · rfl
  · split
    · next h => simpa using kept_of_fst h (blitStatus_kept _ _ _)
    · rfl

/-! ### Machine/HostPort.lean -/

theorem evWrite_f_kept (p n : Nat) (b : Nat.below (motive := fun _ => State → State) (n + 1)) (h : ∀ s, (b.1 s).kept = s.kept) (s : State) :
    (State.evWrite._f p (n + 1) b s).kept = s.kept := by
  generalize e : State.evWrite._f = f
  delta State.evWrite._f at e
  subst e
  dsimp -zeta only
  cases (s.evAt p).backlog with
  | nil => rfl
  | cons e rest =>
    dsimp -zeta only
    rw [kept_ite]
    cases k : s.hwWrite p (s.evBase p + s.rdN (HP_EV_PROD p) % 2 ^ s.evLog2 p * s.evRecord) (e.bytes s.power.compat) with
    | none => simp
    | some t => simp [h, hwWrite_kept k]

@[simp ↓] theorem evWrite_kept (p n : Nat) : (s.evWrite p n).kept = s.kept := by
  generalize e : @State.evWrite = f
  delta State.evWrite at e
  subst e
  exact brecOn_kept (fun _ _ => rfl) (evWrite_f_kept p) n s

@[simp ↓] theorem vecSend_kept (p v : Nat) : (s.vecSend p v).kept = s.kept := by simp [State.vecSend]

@[simp ↓] theorem vecEvent_kept (p source : Nat) : (s.vecEvent p source).kept = s.kept := by simp [State.vecEvent]

@[simp ↓] theorem msixUnmask_kept (p : Nat) : (s.msixUnmask p).kept = s.kept := by simp [State.msixUnmask]

@[simp ↓] theorem evCover_kept (p : Nat) : (s.evCover p).kept = s.kept := by
  generalize e : @State.evCover = f
  delta State.evCover at e
  subst e
  beta_reduce
  extract_lets wb
  cases h : s.hwWrite p (s.evWb p) wb with
  | none => simp
  | some t => simpa using hwWrite_kept h

@[simp ↓] theorem evFlush_kept (p : Nat) : (s.evFlush p).kept = s.kept := by simp [State.evFlush]

@[simp ↓] theorem evCtrl_kept (p : Nat) (w : Word) : (s.evCtrl p w).kept = s.kept := by simp [State.evCtrl]

@[simp ↓] theorem postHostLink_kept (p state cause speed width : Nat) : (s.postHostLink p state cause speed width).kept = s.kept := by
  simp [State.postHostLink]

@[simp ↓] theorem cfgDefaults_kept (p : Nat) : (s.cfgDefaults p).kept = s.kept := by simp [State.cfgDefaults]

@[simp ↓] theorem bar2Latch_kept (p : Nat) : (s.bar2Latch p).kept = s.kept := by simp [State.bar2Latch]

@[simp ↓] theorem ringDrop_kept (p r : Nat) : (s.ringDrop p r).kept = s.kept := by simp [State.ringDrop]

@[simp ↓] theorem msixDefaults_kept (p : Nat) : (s.msixDefaults p).kept = s.kept := by simp [State.msixDefaults]

@[simp ↓] theorem portDrop_kept (p : Nat) : (s.portDrop p).kept = s.kept := by simp [State.portDrop]

@[simp ↓] theorem portReset_kept (p cause : Nat) : (s.portReset p cause).kept = s.kept := by simp [State.portReset]

@[simp ↓] theorem hostLinkUp_kept (p speed width : Nat) : (s.hostLinkUp p speed width).kept = s.kept := by simp [State.hostLinkUp]

@[simp ↓] theorem cfgRead_kept (p o : Nat) : (s.cfgRead p o).2.kept = s.kept := by simp [State.cfgRead]

@[simp ↓] theorem cfgReq_kept (p : Nat) (req : CfgReq) : (s.cfgReq p req).kept = s.kept := by
  unfold State.cfgReq
  split <;> simp

/-! ### Machine/Flash.lean -/

@[simp ↓] theorem xsCode_kept (code : Nat) : (s.xsCode code).kept = s.kept := by simp [State.xsCode]

@[simp ↓] theorem xsBegin_kept (op cs len addr : Nat) (data : List Byte) : (s.xsBegin op cs len addr data).kept = s.kept := by
  simp [State.xsBegin]

@[simp ↓] theorem xsCmd_kept (w : Word) : (s.xsCmd w).1.kept = s.kept := by
  unfold State.xsCmd
  dsimp only
  split
  · simp
  · split
    · simp
    · split
      · simp
      · split
        · simp
        · next h => simpa using ledgerAdd_kept h

@[simp ↓] theorem xsWrite_kept (src : Src) (value : Nat) : (s.xsWrite src value).1.kept = s.kept := by
  have d := decideWrite_kept noAdm_kept s src XS_CMD value
  unfold State.xsWrite
  dsimp only
  split
  · simp
  · split <;> rename_i e <;> rw [e] at d
    · exact d
    · exact (xsCmd_kept _ _).trans d

@[simp ↓] theorem freeFlash_kept (dev a n : Nat) : (s.freeFlash dev a n).kept = s.kept := by
  induction n generalizing s a with
  | zero => rfl
  | succ n ih => simp [State.freeFlash, ih, State.drawFree]

@[simp ↓] theorem drawBytes_kept (n : Nat) : (s.drawBytes n).2.kept = s.kept := by
  induction n generalizing s with
  | zero => rfl
  | succ n ih => simp [State.drawBytes, ih, State.drawFree]

@[simp ↓] theorem xsReadBytes_kept (j : XsJob) (devErr : Bool) : (s.xsReadBytes j devErr).2.kept = s.kept := by
  unfold State.xsReadBytes
  split <;> simp

@[simp ↓] theorem xsDone_kept (devErr : Bool) : (s.xsDone devErr).kept = s.kept := by
  unfold State.xsDone
  (repeat' split) <;> simp

@[simp ↓] theorem xsTimeout_kept : s.xsTimeout.kept = s.kept := by
  unfold State.xsTimeout
  split <;> simp

/-! ### Machine/Power.lean -/

@[simp ↓] theorem xsCut_kept : s.xsCut.kept = s.kept := by
  unfold State.xsCut
  split <;> simp

@[simp ↓] theorem depower_kept : s.depower.kept = s.kept := by
  unfold State.depower
  simp

theorem porst_kept : s.porst.kept = { s.kept with bootsel := 0, compat := false } := by
  calc s.porst.kept = { s.xsCut.kept with bootsel := 0, compat := false } := rfl
    _ = { s.kept with bootsel := 0, compat := false } := by rw [xsCut_kept]

@[simp ↓] theorem freshStart_kept : s.freshStart.kept = s.kept := by simp [State.freshStart]

@[simp ↓] theorem beginStart_kept (old cause : Nat) (warm : Bool) : (s.beginStart old cause warm).kept = s.kept := by
  simp [State.beginStart]

@[simp ↓] theorem mark_kept (n : Nat) : (s.mark n).kept = s.kept := by simp [State.mark]

theorem coldStart_kept : s.coldStart.kept = { s.kept with dtime := 0 } := by
  rw [State.coldStart, beginStart_kept, put_kept]; rfl

@[simp ↓] theorem supplyLoss_kept (low : Nat) : (s.supplyLoss low).kept = s.kept := by
  calc (s.supplyLoss low).kept = { s.porst.kept with bootsel := s.power.bootsel, compat := s.power.compat } := rfl
    _ = s.kept := by rw [porst_kept]; rfl

@[simp ↓] theorem wakeUp_kept : s.wakeUp.kept = s.kept := by simp [State.wakeUp]

@[simp ↓] theorem noticeBack_kept (at_ : Nat) : (s.noticeBack at_).kept = s.kept := by simp [State.noticeBack]

@[simp ↓] theorem heldUndo_kept : s.heldUndo.kept = s.kept := by simp [State.heldUndo]

@[simp ↓] theorem parkUndo_kept : s.parkUndo.kept = s.kept := by
  cases h : s.heldUndo.undo <;> simp [State.parkUndo, h]

@[simp ↓] theorem wakeEvent_kept (f : Fld) : (s.wakeEvent f).kept = s.kept := by simp [State.wakeEvent]

@[simp ↓] theorem enterParked_kept (keep : List (Nat × Nat)) : (s.enterParked keep).kept = s.kept := by
  simp [State.enterParked]

@[simp ↓] theorem parkBegin_kept (cause step : Nat) : (s.parkBegin cause step).kept = s.kept := by simp [State.parkBegin]

@[simp ↓] theorem parkRequest_kept (cause : Nat) : (s.parkRequest cause).kept = s.kept := by
  unfold State.parkRequest
  (repeat' split) <;> simp

@[simp ↓] theorem parkCtrl_kept (w : Word) : (s.parkCtrl w).kept = s.kept := by simp [State.parkCtrl]

/-! ### Machine/Can.lean -/

@[simp ↓] theorem fltKeep_kept (a : Nat) : (s.fltKeep a).kept = s.kept := by simp [State.fltKeep]

@[simp ↓] theorem setRec_kept (n v : Nat) : (s.setRec n v).kept = s.kept := by simp [State.setRec]

@[simp ↓] theorem recUp_kept (n : Nat) : (s.recUp n).kept = s.kept := by simp [State.recUp]

@[simp ↓] theorem recDown_kept (n : Nat) : (s.recDown n).kept = s.kept := by simp [State.recDown]

@[simp ↓] theorem canError_kept (n : Nat) (kind : CanError) : (s.canError n kind).kept = s.kept := by simp [State.canError]

@[simp ↓] theorem canFrame_kept (n : Nat) (fr : CanFrame) : (s.canFrame n fr).kept = s.kept := by
  unfold State.canFrame
  dsimp only
  (repeat' split) <;> simp

@[simp ↓] theorem canJoin_kept (n : Nat) : (s.canJoin n).kept = s.kept := by simp [State.canJoin]

@[simp ↓] theorem canCtrl_kept (n : Nat) : (s.canCtrl n).kept = s.kept := by simp [State.canCtrl]

@[simp ↓] theorem setSigStale_kept (i : Nat) (v : Bool) : (s.setSigStale i v).kept = s.kept := by simp [State.setSigStale]

@[simp ↓] theorem syncGroup_kept (g : Nat) : (s.syncGroup g).kept = s.kept := by simp [State.syncGroup]

@[simp ↓] theorem sigPut_kept (i t raw : Nat) : (s.sigPut i t raw).kept = s.kept := by
  unfold State.sigPut
  split <;> simp

@[simp ↓] theorem arrive_kept (g t : Nat) (is : List Nat) (raw : SigDef → Nat) : (s.arrive g t is raw).kept = s.kept := by
  unfold State.arrive
  extract_lets _ s₁ s₂ s₃
  have h : s₂.kept = s₁.kept := foldl_kept (fun a i => by split <;> simp) is s₁
  simp [s₃, h, s₁]

@[simp ↓] theorem badFrame_kept (g : Nat) (f : Fld) : (s.badFrame g f).kept = s.kept := by simp [State.badFrame]

@[simp ↓] theorem mapFrame_kept (d : Delivered) (g : Nat) (grp : SigGroup) : (s.mapFrame d g grp).kept = s.kept := by simp [State.mapFrame]

@[simp ↓] theorem mapNext_kept (n : Nat) : (s.mapNext n).kept = s.kept := by
  unfold State.mapNext
  dsimp only
  (repeat' split) <;> simp

@[simp ↓] theorem svSig_kept (w : Word) : (s.svSig w).kept = s.kept := by
  unfold State.svSig
  dsimp only
  split <;> simp

@[simp ↓] theorem sigTimeout_kept (i : Nat) : (s.sigTimeout i).kept = s.kept := by
  unfold State.sigTimeout
  dsimp only
  (repeat' split) <;> simp

/-! ### Machine/Timeline.lean -/

@[simp ↓] theorem postTl_kept (t type unit st detail : Nat) : (s.postTl t type unit st detail).kept = s.kept := by simp [State.postTl]

/-! ### Machine/Bezel.lean -/

@[simp ↓] theorem bzDecide_kept (t u d : Nat) : (s.bzDecide t u d).kept = s.kept := by simp [State.bzDecide]

/-! ### Machine/Fetch.lean -/

@[simp ↓] theorem noteLoss_kept (sl : Nat) (next : Bool) (spec : Option Nat) (cause : Nat) :
    (s.noteLoss sl next spec cause).kept = s.kept := by
  simp [State.noteLoss]

@[simp ↓] theorem loseGroup_kept (sl : Nat) (next : Bool) (need : Nat) (g : Group) (spec : Option Nat) (cause : Nat) :
    (s.loseGroup sl next need g spec cause).kept = s.kept := by
  simp [State.loseGroup]

@[simp ↓] theorem groupIssue_kept (sl : Nat) (next : Bool) (y : Nat) (g : Group) (e : SurfEntry) (idx : Option Nat) :
    (s.groupIssue sl next y g e idx).kept = s.kept := by
  simp [State.groupIssue]

@[simp ↓] theorem postTide_kept (t sl st row : Nat) : (s.postTide t sl st row).kept = s.kept := by simp [State.postTide]

@[simp ↓] theorem reportTide_kept (t sl : Nat) (next : Bool) (u : RaceUse) (st row : Nat) :
    (s.reportTide t sl next u st row).1.kept = s.kept := by
  unfold State.reportTide
  split <;> simp

@[simp ↓] theorem raceStart_kept (sl : Nat) (next : Bool) (l : LayerCfg) (g : Group) : (s.raceStart sl next l g).1.kept = s.kept := by
  unfold State.raceStart
  dsimp only
  split <;> simp

@[simp ↓] theorem issueNext_kept (sl : Nat) : (s.issueNext sl).kept = s.kept := by
  unfold State.issueNext
  split <;> simp

@[simp ↓] theorem rowArrives_kept (sl : Nat) (i : Issued) (bad : List (Nat × ReadRes)) (host : List Byte) :
    (s.rowArrives sl i bad host).kept = s.kept := by
  unfold State.rowArrives
  dsimp only
  (repeat' split) <;> simp

@[simp ↓] theorem bandArrives_kept (sl ty : Nat) (i : Issued) (bad : List (Nat × ReadRes)) (host : List Byte) :
    (s.bandArrives sl ty i bad host).kept = s.kept := by
  unfold State.bandArrives
  dsimp only
  (repeat' split) <;> simp

@[simp ↓] theorem fetchDone_kept (i : Issued) : (s.fetchDone i).kept = s.kept := by
  unfold State.fetchDone
  split <;> simp

@[simp ↓] theorem goneArrives_kept (sl k : Nat) : (s.goneArrives sl k).kept = s.kept := by
  cases h : (s.fetchAt sl).gone[k]? <;> simp [State.goneArrives, h]

@[simp ↓] theorem dataArrives_kept (sl k : Nat) (bad : List (Nat × ReadRes)) (host : List Byte) :
    (s.dataArrives sl k bad host).kept = s.kept := by
  unfold State.dataArrives
  dsimp only
  (repeat' split) <;> simp

@[simp ↓] theorem deadlinePass_kept (sl : Nat) (next : Bool) : (s.deadlinePass sl next).kept = s.kept := by simp [State.deadlinePass]

@[simp ↓] theorem tide_kept (sl : Nat) : (s.tide sl).kept = s.kept := by
  unfold State.tide
  dsimp only
  (repeat' split) <;> simp

@[simp ↓] theorem slotFrameEnd_kept (t sl : Nat) : (s.slotFrameEnd t sl).kept = s.kept := by simp [State.slotFrameEnd]

/-! ### Machine/Banks.lean -/

@[simp ↓] theorem writeWords_kept (st : Nat) (active : Bool) (k : Nat) (ws : List Nat) :
    (s.writeWords st active k ws).kept = s.kept := by
  induction ws generalizing s k with
  | nil => rfl
  | cons w ws ih => simp [State.writeWords, ih]

@[simp ↓] theorem writeBank_kept (t : Nat) (active : Bool) (img : BankImage) : (s.writeBank t active img).kept = s.kept := by
  simp [State.writeBank]

@[simp ↓] theorem caseDone_kept (t code short : Nat) : (s.caseDone t code short).kept = s.kept := by simp [State.caseDone]

@[simp ↓] theorem showTotals_kept (a : AdmTotals) : (s.showTotals a).kept = s.kept := by simp [State.showTotals]

@[simp ↓] theorem showPend_kept (t : Nat) : (s.showPend t).kept = s.kept := by simp [State.showPend]

@[simp ↓] theorem storeCase_kept (r : AdmResult) (order : Option Nat) : (s.storeCase r order).kept = s.kept := by
  unfold State.storeCase
  split <;> simp

@[simp ↓] theorem setMode_kept (g : Nat → Word) (t : Nat) (spec : Bool) : (s.setMode g t spec).kept = s.kept := by simp [State.setMode]

@[simp ↓] theorem storeReserve_kept (g : Nat → Word) (t : Nat) : (s.storeReserve g t).kept = s.kept := by simp [State.storeReserve]

@[simp ↓] theorem modeGone_kept (t order : Nat) : (s.modeGone t order).kept = s.kept := by simp [State.modeGone]

@[simp ↓] theorem latchFigures_kept (t : Nat) (orders : List Nat) : (s.latchFigures t orders).kept = s.kept := by
  unfold State.latchFigures
  extract_lets a mine rest g s₁ img act f s₂
  have h₁ : s₁.kept = s.kept := by
    unfold s₁
    split <;> simp
  have h₂ : s₂.kept = s₁.kept := by simp [s₂]
  simp [h₂, h₁]

@[simp ↓] theorem admChange_kept (a : Nat) (w : Word) : (s.admChange a w).1.kept = s.kept := by
  unfold State.admChange
  dsimp only
  (repeat' split) <;> simp

/-! ### Machine/Links.lean -/

@[simp ↓] theorem scanMod_kept (t : Nat) (f : Scan → Scan) : (s.scanMod t f).kept = s.kept := by simp [State.scanMod]

@[simp ↓] theorem linkMod_kept (l : Nat) (f : OutLink → OutLink) : (s.linkMod l f).kept = s.kept := by simp [State.linkMod]

@[simp ↓] theorem panelMod_kept (t : Nat) (f : Panel → Panel) : (s.panelMod t f).kept = s.kept := by simp [State.panelMod]

@[simp ↓] theorem enterLit_kept : s.enterLit.kept = s.kept := by
  unfold State.enterLit
  dsimp only
  split <;> simp

@[simp ↓] theorem checkLit_kept : s.checkLit.kept = s.kept := by simp [State.checkLit]

@[simp ↓] theorem showUp_kept (t : Nat) : (s.showUp t).kept = s.kept := by simp [State.showUp]

@[simp ↓] theorem postLink_kept (l st detail : Nat) : (s.postLink l st detail).kept = s.kept := by simp [State.postLink]

@[simp ↓] theorem trainGo_kept (l : Nat) : (s.trainGo l).kept = s.kept := by simp [State.trainGo]

@[simp ↓] theorem trainFirst_kept (l : Nat) : (s.trainFirst l).kept = s.kept := by simp [State.trainFirst]

@[simp ↓] theorem linkLost_kept (l cause : Nat) : (s.linkLost l cause).kept = s.kept := by simp [State.linkLost]

@[simp ↓] theorem trainFailed_kept (l cause : Nat) : (s.trainFailed l cause).kept = s.kept := by simp [State.trainFailed]

@[simp ↓] theorem asClamp_kept (t : Nat) (maxLines : Option Nat) : (s.asClamp t maxLines).kept = s.kept := by
  unfold State.asClamp
  split <;> simp

@[simp ↓] theorem asShow_kept (t : Nat) : (s.asShow t).kept = s.kept := by simp [State.asShow]

@[simp ↓] theorem linkTrained_kept (l rate lanes : Nat) (fec : Bool) (maxLines : Option Nat) (sinkCrc : Bool) :
    (s.linkTrained l rate lanes fec maxLines sinkCrc).kept = s.kept := by
  simp [State.linkTrained]

@[simp ↓] theorem trainEnd_kept (l : Nat) (ok : Bool) (rate lanes : Nat) (fec : Bool) (maxLines : Option Nat) (sinkCrc : Bool) :
    (s.trainEnd l ok rate lanes fec maxLines sinkCrc).kept = s.kept := by
  simp [State.trainEnd]

@[simp ↓] theorem setPanelEn_kept (t : Nat) (on : Bool) : (s.setPanelEn t on).kept = s.kept := by simp [State.setPanelEn]

@[simp ↓] theorem setBlPwm_kept (t : Nat) (on : Bool) : (s.setBlPwm t on).kept = s.kept := by simp [State.setBlPwm]

@[simp ↓] theorem panelUp_kept (t : Nat) : (s.panelUp t).kept = s.kept := by simp [State.panelUp]

@[simp ↓] theorem pwmEnd_kept (t : Nat) : (s.pwmEnd t).kept = s.kept := by simp [State.pwmEnd]

@[simp ↓] theorem ogSync_kept : s.ogSync.kept = s.kept := by simp [State.ogSync]

@[simp ↓] theorem linkOff_kept (t l : Nat) : (s.linkOff t l).kept = s.kept := by simp [State.linkOff]

@[simp ↓] theorem reseatOver_kept (t : Nat) : (s.reseatOver t).kept = s.kept := by simp [State.reseatOver]

@[simp ↓] theorem wbCut_kept (n : Nat) : (s.wbCut n).kept = s.kept := by
  cases h : (s.wbAt n).cur <;> simp [State.wbCut, h]

@[simp ↓] theorem videoOff_kept (t : Nat) : (s.videoOff t).kept = s.kept := by simp [State.videoOff]

@[simp ↓] theorem panelDown_kept (t : Nat) : (s.panelDown t).kept = s.kept := by
  unfold State.panelDown
  split <;> simp

@[simp ↓] theorem panelLow_kept (t : Nat) : (s.panelLow t).kept = s.kept := by simp [State.panelLow]

/-! ### Machine/Watch.lean -/

@[simp ↓] theorem useNext_kept (t : Nat) : (s.useNext t).kept = s.kept := by simp [State.useNext]

@[simp ↓] theorem bzNext_kept (t : Nat) : (s.bzNext t).kept = s.kept := by simp [State.bzNext]

@[simp ↓] theorem watchLine_kept (t y : Nat) (out : List Px) : (s.watchLine t y out).kept = s.kept := by simp [State.watchLine]

@[simp ↓] theorem postBz_kept (t type unit kind detail value key : Nat) : (s.postBz t type unit kind detail value key).kept = s.kept := by
  simp [State.postBz]

@[simp ↓] theorem degrWatch_kept (t : Nat) (on : Bool) : (s.degrWatch t on).kept = s.kept := by simp [State.degrWatch]

@[simp ↓] theorem degrBezel_kept (t : Nat) (on : Bool) : (s.degrBezel t on).kept = s.kept := by simp [State.degrBezel]

@[simp ↓] theorem watchOutcome_kept (t r own : Nat) : (s.watchOutcome t r own).kept = s.kept := by simp [State.watchOutcome]

@[simp ↓] theorem watchCompare_kept (t r : Nat) : (s.watchCompare t r).kept = s.kept := by simp [State.watchCompare]

@[simp ↓] theorem watchFrameEnd_kept (t : Nat) : (s.watchFrameEnd t).kept = s.kept := by simp [State.watchFrameEnd]

@[simp ↓] theorem watchFailed_kept (t : Nat) : (s.watchFailed t).kept = s.kept := by simp [State.watchFailed]

@[simp ↓] theorem checkStartup_kept : s.checkStartup.kept = s.kept := by simp [State.checkStartup]

@[simp ↓] theorem faultClear_kept (v : Nat) : (s.faultClear v).kept = s.kept := by simp [State.faultClear]

@[simp ↓] theorem autoRel_kept (t : Nat) : (s.autoRel t).kept = s.kept := by simp [State.autoRel]

@[simp ↓] theorem raiseBezel_kept (t : Nat) : (s.raiseBezel t).kept = s.kept := by simp [State.raiseBezel]

@[simp ↓] theorem bzErrs_kept (t y : Nat) (e : LineErrs) : (s.bzErrs t y e).kept = s.kept := by simp [State.bzErrs]

@[simp ↓] theorem bzFrameEnd_kept (t : Nat) : (s.bzFrameEnd t).kept = s.kept := by
  unfold State.bzFrameEnd
  dsimp only
  (repeat' split) <;> simp

@[simp ↓] theorem sinkLine_kept (t : Nat) (out : List Px) : (s.sinkLine t out).kept = s.kept := by simp [State.sinkLine]

@[simp ↓] theorem sinkFrameEnd_kept (t : Nat) : (s.sinkFrameEnd t).kept = s.kept := by simp [State.sinkFrameEnd]

@[simp ↓] theorem sinkRead_kept (t : Nat) (crcs : Option (List Nat)) (count : Nat) : (s.sinkRead t crcs count).kept = s.kept := by
  unfold State.sinkRead
  dsimp only
  split <;> simp

@[simp ↓] theorem faultFrameEnd_kept (t : Nat) : (s.faultFrameEnd t).kept = s.kept := by simp [State.faultFrameEnd]

/-! ### Machine/Scan.lean -/

@[simp ↓] theorem lineComposed_kept (t : Nat) (next : Bool) (y : Nat) (bad : List Nat) : (s.lineComposed t next y bad).kept = s.kept := by
  simp [State.lineComposed]

@[simp ↓] theorem composeNext_kept (t : Nat) (bad : List Nat) : (s.composeNext t bad).kept = s.kept := by simp [State.composeNext]

@[simp ↓] theorem wbTake_kept (t n : Nat) : (s.wbTake t n).kept = s.kept := by
  unfold State.wbTake
  (repeat' split) <;> simp

@[simp ↓] theorem wbLine_kept (t y : Nat) (out : List Px) : (s.wbLine t y out).kept = s.kept := by
  unfold State.wbLine
  refine foldl_kept (fun s n => ?_) _ s
  split <;> simp

@[simp ↓] theorem wbEnd_kept (t : Nat) : (s.wbEnd t).kept = s.kept := by
  unfold State.wbEnd
  refine foldl_kept (fun s n => ?_) _ s
  dsimp only
  split <;> simp

@[simp ↓] theorem wbResize_kept (t : Nat) : (s.wbResize t).kept = s.kept := by simp [State.wbResize]

@[simp ↓] theorem wbDone_kept (n : Nat) (f : WbFrame) : (s.wbDone n f).kept = s.kept := by simp [State.wbDone]

@[simp ↓] theorem countHeld_kept (t : Nat) (replaced bad : Bool) : (s.countHeld t replaced bad).kept = s.kept := by simp [State.countHeld]

@[simp ↓] theorem emitLine_kept (t y : Nat) (e : LineErrs) : (s.emitLine t y e).kept = s.kept := by simp [State.emitLine]

@[simp ↓] theorem beginLine_kept (t p : Nat) (e : LineErrs) : (s.beginLine t p e).kept = s.kept := by simp [State.beginLine]

@[simp ↓] theorem useLanded_kept (t : Nat) : (s.useLanded t).kept = s.kept := by simp [State.useLanded]

@[simp ↓] theorem videoLine0_kept (t : Nat) : (s.videoLine0 t).kept = s.kept := by simp [State.videoLine0]

@[simp ↓] theorem reseatWords_kept (t : Nat) : (s.reseatWords t).kept = s.kept := by
  unfold State.reseatWords
  split <;> simp

@[simp ↓] theorem frameEnd_kept (t : Nat) : (s.frameEnd t).kept = s.kept := by simp [State.frameEnd]

@[simp ↓] theorem frameSwap_kept (t : Nat) : (s.frameSwap t).kept = s.kept := by simp [State.frameSwap]

@[simp ↓] theorem lineZero_kept (t : Nat) (e : LineErrs) : (s.lineZero t e).kept = s.kept := by simp [State.lineZero]

@[simp ↓] theorem firstLine_kept (t : Nat) (e : LineErrs) : (s.firstLine t e).kept = s.kept := by simp [State.firstLine]

@[simp ↓] theorem frameStart_kept (t : Nat) (e : LineErrs) : (s.frameStart t e).kept = s.kept := by simp [State.frameStart]

@[simp ↓] theorem lineStart_kept (t : Nat) (e : LineErrs) : (s.lineStart t e).kept = s.kept := by simp [State.lineStart]

/-! ### Machine/Latch.lean -/

@[simp ↓] theorem bankBusy_kept (t : Nat) : (s.bankBusy t).kept = s.kept := by simp [State.bankBusy]

@[simp ↓] theorem bankFree_kept (t : Nat) : (s.bankFree t).kept = s.kept := by simp [State.bankFree]

@[simp ↓] theorem genUp_kept (t : Nat) : (s.genUp t).kept = s.kept := by simp [State.genUp]

@[simp ↓] theorem rebuildImage_kept (t : Nat) : (s.rebuildImage t).kept = s.kept := by
  unfold State.rebuildImage
  dsimp only
  (repeat' split) <;> simp

@[simp ↓] theorem latchBanks_kept (t : Nat) (p : Option Preset) : (s.latchBanks t p).kept = s.kept := by simp [State.latchBanks]

@[simp ↓] theorem presetRegs_kept (p : Preset) : (s.presetRegs p).kept = s.kept := by simp [State.presetRegs]

@[simp ↓] theorem postPreset_kept (t index kind : Nat) : (s.postPreset t index kind).kept = s.kept := by simp [State.postPreset]

@[simp ↓] theorem latchPreset_kept (t : Nat) (pick : Option Nat × Nat) (due : Option (Preset × Nat)) :
    (s.latchPreset t pick due).kept = s.kept := by
  unfold State.latchPreset
  split <;> simp

@[simp ↓] theorem latchBezel_kept (t u d : Nat) : (s.latchBezel t u d).kept = s.kept := by simp [State.latchBezel]

@[simp ↓] theorem specDiscard_kept (t : Nat) : (s.specDiscard t).kept = s.kept := by simp [State.specDiscard]

@[simp ↓] theorem confirmSlot_kept (t sl : Nat) : (s.confirmSlot t sl).kept = s.kept := by
  cases h : (s.fetchAt sl).confirm.raceNext <;> simp [State.confirmSlot, h]

@[simp ↓] theorem specConfirm_kept (t : Nat) : (s.specConfirm t).kept = s.kept := by simp [State.specConfirm]

@[simp ↓] theorem latchSpec_kept (t gen : Nat) (anew : Bool) : (s.latchSpec t gen anew).kept = s.kept := by simp [State.latchSpec]

@[simp ↓] theorem reseatSlots_kept (ss : List (Nat × Nat)) : (s.reseatSlots ss).kept = s.kept := by simp [State.reseatSlots]

@[simp ↓] theorem reseatTake_kept (t : Nat) : (s.reseatTake t).kept = s.kept := by
  unfold State.reseatTake
  split <;> simp

@[simp ↓] theorem latchAges_kept (t : Nat) (before after : BankImage) : (s.latchAges t before after).kept = s.kept := by
  simp [State.latchAges]

@[simp ↓] theorem postFlat_kept (t n st reason : Nat) : (s.postFlat t n st reason).kept = s.kept := by simp [State.postFlat]

@[simp ↓] theorem latchFlat_kept (t : Nat) (before after : BankImage) (anew : Bool) : (s.latchFlat t before after anew).kept = s.kept := by
  unfold State.latchFlat
  dsimp only
  (repeat' split) <;> simp

@[simp ↓] theorem latchRegs_kept (t : Nat) : (s.latchRegs t).kept = s.kept := by simp [State.latchRegs]

@[simp ↓] theorem latchUse_kept (t : Nat) : (s.latchUse t).kept = s.kept := by simp [State.latchUse]

@[simp ↓] theorem latch_kept (t : Nat) : (s.latch t).kept = s.kept := by simp [State.latch]

/-! ### Machine/Reseat.lean -/

@[simp ↓] theorem reseatGo_kept (t : Nat) (w : Word) : (s.reseatGo t w).kept = s.kept := by simp [State.reseatGo]

@[simp ↓] theorem reseatDone_kept (t : Nat) (r : Reseat) : (s.reseatDone t r).kept = s.kept := by
  unfold State.reseatDone
  split <;> simp

@[simp ↓] theorem postGl_kept (t st : Nat) : (s.postGl t st).kept = s.kept := by simp [State.postGl]

@[simp ↓] theorem glLost_kept (t : Nat) : (s.glLost t).kept = s.kept := by simp [State.glLost]

/-! ### Machine/Surfaces.lean -/

@[simp ↓] theorem storeSurf_kept (i : Nat) (e : SurfEntry) : (s.storeSurf i e).kept = s.kept := by simp [State.storeSurf]

@[simp ↓] theorem tableReads_kept (is : List Nat) : (s.tableReads is).kept = s.kept := by simp [State.tableReads]

@[simp ↓] theorem retire_kept (i : Nat) : (s.retire i).kept = s.kept := by simp [State.retire]

@[simp ↓] theorem retireNow_kept (i : Nat) : (s.retireNow i).kept = s.kept := by simp [State.retireNow]

@[simp ↓] theorem sfEnd_kept (p : Nat) (code : SfCode) (result : Nat) : (s.sfEnd p code result).kept = s.kept := by simp [State.sfEnd]

@[simp ↓] theorem sfMake_kept (p : Nat) : (s.sfMake p).kept = s.kept := by
  unfold State.sfMake
  (repeat' split) <;> simp

@[simp ↓] theorem sfDrop_kept (p : Nat) : (s.sfDrop p).kept = s.kept := by simp [State.sfDrop]

@[simp ↓] theorem sfShow_kept (p : Nat) : (s.sfShow p).kept = s.kept := by simp [State.sfShow]

@[simp ↓] theorem sfDropAll_kept (p : Nat) : (s.sfDropAll p).kept = s.kept := by simp [State.sfDropAll]

@[simp ↓] theorem sfCmd_kept (p : Nat) (w : Word) : (s.sfCmd p w).kept = s.kept := by simp [State.sfCmd]

@[simp ↓] theorem sfWrite_kept (p : Fin 4) (op value : Nat) : (s.sfWrite p op value).kept = s.kept := by simp [State.sfWrite]

/-! ### Machine/Rings.lean -/

@[simp ↓] theorem journalWrite_kept (t : Nat) (c : Commit) (st frame : Nat) : (s.journalWrite t c st frame).kept = s.kept := by
  simp [State.journalWrite]

@[simp ↓] theorem postCommit_kept (ring type flags : Nat) (d : Desc) (status step slot value : Nat) :
    (s.postCommit ring type flags d status step slot value).kept = s.kept := by
  simp [State.postCommit]

@[simp ↓] theorem ringMod_kept (p r : Nat) (f : Ring → Ring) : (s.ringMod p r f).kept = s.kept := by simp [State.ringMod]

@[simp ↓] theorem ringHalt_kept (p r cause : Nat) : (s.ringHalt p r cause).kept = s.kept := by simp [State.ringHalt]

@[simp ↓] theorem ringProd_kept (p r prod : Nat) : (s.ringProd p r prod).kept = s.kept := by simp [State.ringProd]

@[simp ↓] theorem ringBell_kept (p r : Nat) (w : Word) : (s.ringBell p r w).kept = s.kept := by
  unfold State.ringBell
  split <;> simp

@[simp ↓] theorem crDb_kept (src : Src) (p r : Nat) (w : Word) : (s.crDb src p r w).kept = s.kept := by simp [State.crDb]

@[simp ↓] theorem ringStart_kept (p r : Nat) : (s.ringStart p r).kept = s.kept := by
  unfold State.ringStart
  extract_lets u
  split <;> simp [u]

@[simp ↓] theorem crCtrl_kept (src : Src) (p r : Nat) (w : Word) : (s.crCtrl src p r w).kept = s.kept := by simp [State.crCtrl]

@[simp ↓] theorem turnTaken_kept (p r : Nat) : (s.turnTaken p r).kept = s.kept := by simp [State.turnTaken]

@[simp ↓] theorem ringAdvance_kept (p r : Nat) : (s.ringAdvance p r).kept = s.kept := by simp [State.ringAdvance]

@[simp ↓] theorem ringDone_kept (p r : Nat) : (s.ringDone p r).kept = s.kept := by simp [State.ringDone]

@[simp ↓] theorem entryDrop_kept (p r : Nat) (f : Fld) : (s.entryDrop p r f).kept = s.kept := by simp [State.entryDrop]

@[simp ↓] theorem refuseEntry_kept (p r : Nat) (d : Desc) (e : Refuse) : (s.refuseEntry p r d e).kept = s.kept := by
  simp [State.refuseEntry]

@[simp ↓] theorem tableErrors_kept (bad : List Nat) (rs : List CRec) : (s.tableErrors bad rs).kept = s.kept := by
  unfold State.tableErrors
  split <;> simp

@[simp ↓] theorem entryValidate_kept (p r : Nat) (bad : List Nat) (raw recs idx : List Byte) :
    (s.entryValidate p r bad raw recs idx).kept = s.kept := by
  unfold State.entryValidate
  dsimp only
  split <;> simp

@[simp ↓] theorem recordsRead_kept (p r : Nat) (res : ReadRes) (host : List Byte) (bad : List Nat) (raw : List Byte) :
    (s.recordsRead p r res host bad raw).kept = s.kept := by
  generalize e : @State.recordsRead = f
  delta State.recordsRead at e
  subst e
  beta_reduce
  extract_lets d n a
  refine kept_ite_of (by simp) ?_
  have h := busRead_kept (s.unitIssue a n .besteffort) a n res (host.drop 64)
  generalize (s.unitIssue a n .besteffort).busRead a n res (host.drop 64) = x at h ⊢
  obtain ⟨t, _ | recs⟩ := x
  · simpa using h
  · simpa using h

@[simp ↓] theorem entryRead_kept (p r : Nat) (res : ReadRes) (host : List Byte) (bad : List Nat) :
    (s.entryRead p r res host bad).kept = s.kept := by
  generalize e : @State.entryRead = f
  delta State.entryRead at e
  obtain ⟨read, h⟩ : ∃ read, @State.busRead = read := ⟨_, rfl⟩
  have hread (s : State) (a n : Nat) (res : ReadRes) (host : List Byte) : (read s a n res host).1.kept = s.kept :=
    h ▸ busRead_kept s a n res host
  rw [h] at e
  subst e
  beta_reduce
  cases ht : s.reserve [p] with
  | none => rfl
  | some t =>
    have hs := reserve_kept ht
    dsimp only
    split <;> simp [hread, hs]

@[simp ↓] theorem commitAccept_kept (p r : Nat) (c : Candidate) (adm : AdmResult) :
    (s.commitAccept p r c adm).kept = s.kept := by
  unfold State.commitAccept
  extract_lets t q past m s₁ s₂ s₃ s₄
  have h : s₄.kept = s.kept := by simp [s₄, s₃, s₂, s₁]
  cases e : s₄.reserve [p] with
  | none => exact h
  | some u => exact (reserve_kept e).trans h

@[simp ↓] theorem stepSeven_kept (p r : Nat) (c : Candidate) (fails : Bool) : (s.stepSeven p r c fails).kept = s.kept := by
  unfold State.stepSeven
  (repeat' split) <;> simp

@[simp ↓] theorem leave_kept (t : Nat) : (s.leave t).kept = s.kept := by
  unfold State.leave
  split <;> simp

@[simp ↓] theorem targetsReached_kept (t : Nat) : (s.targetsReached t).kept = s.kept := by simp [State.targetsReached]

@[simp ↓] theorem sealBank_kept (t : Nat) (order : Option Nat) (img : BankImage) : (s.sealBank t order img).kept = s.kept := by
  simp [State.sealBank]

@[simp ↓] theorem sealImage_kept (t order : Nat) (img : BankImage) : (s.sealImage t order img).kept = s.kept := by
  unfold State.sealImage
  dsimp only
  split <;> simp

@[simp ↓] theorem commitSeal_kept (t : Nat) : (s.commitSeal t).kept = s.kept := by
  unfold State.commitSeal
  dsimp only
  (repeat' split) <;> simp

@[simp ↓] theorem sealBack_kept (t : Nat) (u : SealUndo) : (s.sealBack t u).kept = s.kept := by
  unfold State.sealBack
  dsimp only
  split <;> simp

@[simp ↓] theorem sealLater_kept (t : Nat) (u : SealUndo) : (s.sealLater t u).kept = s.kept := by
  unfold State.sealLater
  dsimp only
  (repeat' split) <;> simp

@[simp ↓] theorem latchClock_kept (t : Nat) : (s.latchClock t).kept = s.kept := by
  unfold State.latchClock
  dsimp only
  split <;> simp

@[simp ↓] theorem commitEnd_kept (t : Nat) (c : Commit) (value slot : Nat) : (s.commitEnd t c value slot).kept = s.kept := by
  simp [State.commitEnd]

@[simp ↓] theorem fenceTimeout_kept (t : Nat) : (s.fenceTimeout t).kept = s.kept := by
  unfold State.fenceTimeout
  (repeat' split) <;> simp

@[simp ↓] theorem commitLatched_kept (t frame : Nat) (merged : Bool) (c : Commit) : (s.commitLatched t frame merged c).kept = s.kept := by
  simp [State.commitLatched]

@[simp ↓] theorem handoverEnd_kept (t : Nat) : (s.handoverEnd t).kept = s.kept := by
  unfold State.handoverEnd
  dsimp only
  split <;> simp

@[simp ↓] theorem sealCode_kept (t code : Nat) : (s.sealCode t code).kept = s.kept := by simp [State.sealCode]

@[simp ↓] theorem dropDirect_kept (t : Nat) : (s.dropDirect t).kept = s.kept := by simp [State.dropDirect]

@[simp ↓] theorem directSeal_kept (src : Src) (t : Nat) : (s.directSeal src t).kept = s.kept := by
  unfold State.directSeal
  dsimp only
  (repeat' split) <;> simp

@[simp ↓] theorem sealWrite_kept (src : Src) (t : Nat) (w : Word) : (s.sealWrite src t w).kept = s.kept := by simp [State.sealWrite]

@[simp ↓] theorem bellAct_kept (b : Posted) : (s.bellAct b).kept = s.kept := by simp [State.bellAct]

@[simp ↓] theorem bellsRun_kept : s.bellsRun.kept = s.kept := by simp [State.bellsRun]

/-! ### Machine/Flatten.lean -/

@[simp ↓] theorem flatReads_kept (t : Nat) (l : LayerCfg) : (s.flatReads t l).kept = s.kept := by simp [State.flatReads]

@[simp ↓] theorem flatStart_kept (t : Nat) : (s.flatStart t).kept = s.kept := by simp [State.flatStart]

@[simp ↓] theorem evict_kept (t : Nat) : (s.evict t).kept = s.kept := by simp [State.evict]

@[simp ↓] theorem flatAbandon_kept (t : Nat) : (s.flatAbandon t).kept = s.kept := by simp [State.flatAbandon]

@[simp ↓] theorem flatPlace_kept (t o saving : Nat) (slots : List Nat) (p : Packed) : (s.flatPlace t o saving slots p).kept = s.kept := by
  simp [State.flatPlace]

@[simp ↓] theorem flatFit_kept (t saving : Nat) (slots : List Nat) (p : Packed) : (s.flatFit t saving slots p).kept = s.kept := by
  unfold State.flatFit
  dsimp only
  (repeat' split) <;> simp

@[simp ↓] theorem flatFinish_kept (t : Nat) (slots : List Nat) : (s.flatFinish t slots).kept = s.kept := by
  unfold State.flatFinish
  split <;> simp

@[simp ↓] theorem poolMoved_kept : s.poolMoved.kept = s.kept := by simp [State.poolMoved]

/-! ### Machine/Ingest.lean -/

@[simp ↓] theorem igMod_kept (c : Nat) (f : Ingest → Ingest) : (s.igMod c f).kept = s.kept := by simp [State.igMod]

@[simp ↓] theorem postIg_kept (c buf st lines num fs : Nat) : (s.postIg c buf st lines num fs).kept = s.kept := by simp [State.postIg]

@[simp ↓] theorem igShort_kept (c : Nat) (f : IgFrame) : (s.igShort c f).kept = s.kept := by simp [State.igShort]

@[simp ↓] theorem igEnd_kept (c : Nat) : (s.igEnd c).kept = s.kept := by
  unfold State.igEnd
  split <;> simp

@[simp ↓] theorem igComplete_kept (c : Nat) (f : IgFrame) : (s.igComplete c f).kept = s.kept := by simp [State.igComplete]

@[simp ↓] theorem igDone_kept (c : Nat) : (s.igDone c).kept = s.kept := by
  unfold State.igDone
  dsimp only
  (repeat' split) <;> simp

@[simp ↓] theorem glTrim_kept (t : Nat) : (s.glTrim t).kept = s.kept := by
  unfold State.glTrim
  dsimp only
  split <;> simp

@[simp ↓] theorem glFrame_kept (t : Nat) : (s.glFrame t).kept = s.kept := by simp [State.glFrame]

@[simp ↓] theorem igNext_kept (c : Nat) : (s.igNext c).kept = s.kept := by simp [State.igNext]

@[simp ↓] theorem igTake_kept (c num : Nat) : (s.igTake c num).kept = s.kept := by
  unfold State.igTake
  split <;> simp

@[simp ↓] theorem igStart_kept (c num : Nat) : (s.igStart c num).kept = s.kept := by simp [State.igStart]

@[simp ↓] theorem igWrite_kept (f : IgFrame) (k : Nat) (b : List Byte) (d : Nat) : (s.igWrite f k b d).1.kept = s.kept := by
  simp [State.igWrite]

@[simp ↓] theorem igError_kept (c : Nat) : (s.igError c).kept = s.kept := by simp [State.igError]

@[simp ↓] theorem igPace_kept (c : Nat) : (s.igPace c).kept = s.kept := by
  unfold State.igPace
  (repeat' split) <;> simp

@[simp ↓] theorem igLine_kept (c : Nat) (f : IgFrame) (b : List Byte) (crcOk : Bool) : (s.igLine c f b crcOk).kept = s.kept := by
  simp [State.igLine]

@[simp ↓] theorem igPacket_kept (c dt : Nat) (b : List Byte) (crcOk : Bool) : (s.igPacket c dt b crcOk).kept = s.kept := by
  unfold State.igPacket
  split <;> simp

@[simp ↓] theorem igAck_kept (c : Nat) : (s.igAck c).kept = s.kept := by
  unfold State.igAck
  dsimp only
  (repeat' split) <;> simp

@[simp ↓] theorem laneSync_kept (l : Nat) : (s.laneSync l).kept = s.kept := by
  cases h : (s.laneAt l).retryAt <;> simp [State.laneSync, h]

@[simp ↓] theorem igDown_kept (c : Nat) : (s.igDown c).kept = s.kept := by simp [State.igDown]

@[simp ↓] theorem laneDown_kept (l : Nat) : (s.laneDown l).kept = s.kept := by simp [State.laneDown]

@[simp ↓] theorem laneLink_kept (l gear : Nat) : (s.laneLink l gear).kept = s.kept := by
  unfold State.laneLink
  split <;> simp

/-! ### Machine/Faultpin.lean -/

@[simp ↓] theorem hbEdge_kept : s.hbEdge.kept = s.kept := by simp [State.hbEdge]

@[simp ↓] theorem dropCleared_kept : s.dropCleared.kept = s.kept := by simp [State.dropCleared]

@[simp ↓] theorem faultWrite_kept (a : Nat) (w : Word) : (s.faultWrite a w).kept = s.kept := by
  unfold State.faultWrite
  (repeat' split) <;> simp

/-! ### Machine/LocketLoad.lean -/

@[simp ↓] theorem Ld.no_kept (l : Ld) (check at_ : Nat) : (l.no check at_).s.kept = l.s.kept := by simp [Ld.no]

@[simp ↓] theorem Ld.need_kept (l : Ld) (ok : Bool) (check at_ : Nat) : (l.need ok check at_).s.kept = l.s.kept := by
  unfold Ld.need
  split <;> rfl

@[simp ↓] theorem Ld.map_kept (l : Ld) (f : State → State) : (l.map f).s.kept = (f l.s).kept := rfl

@[simp ↓] theorem Ld.setLocket_kept (l : Ld) (f : Locket → Locket) : (l.setLocket f).s.kept = l.s.kept := rfl

@[simp ↓] theorem Ld.body_kept {f : Ld → Ld} (h : Ld.Keeps f) (l : Ld) (r : Rec) (n : Nat) : (l.body r n f).s.kept = l.s.kept := by
  unfold Ld.body
  split
  · rfl
  · exact h l

@[simp ↓] theorem Ld.exact_kept {f : Ld → Ld} (h : Ld.Keeps f) (l : Ld) (r : Rec) (n : Nat) : (l.exact r n f).s.kept = l.s.kept := by
  unfold Ld.exact
  split
  · rfl
  · exact h l

@[simp ↓] theorem loadPair_kept (free : Bool) (a v : Nat) : (s.loadPair free a v).kept = s.kept := by
  unfold State.loadPair
  split <;> simp

@[simp ↓] theorem Ld.pair_kept (l : Ld) (free : Option (Nat → Bool)) (at_ : Nat) (p : Nat × Nat) :
    (l.pair free at_ p).s.kept = l.s.kept := by
  unfold Ld.pair
  split <;> simp

@[simp ↓] theorem Ld.dram_kept (l : Ld) (r : Rec) : (l.dram r).s.kept = l.s.kept := by simp [Ld.dram]

@[simp ↓] theorem Ld.role_kept (l : Ld) (v : Nat) (r : Rec) : (l.role v r).s.kept = l.s.kept := by simp [Ld.role]

@[simp ↓] theorem Ld.standby_kept (l : Ld) (r : Rec) : (l.standby r).s.kept = l.s.kept := by simp [Ld.standby]

@[simp ↓] theorem Ld.grant_kept (l : Ld) (r : Rec) : (l.grant r).s.kept = l.s.kept := by simp [Ld.grant]

@[simp ↓] theorem Ld.surface_kept (l : Ld) (first : Bool) (r : Rec) : (l.surface first r).s.kept = l.s.kept := by simp [Ld.surface]

@[simp ↓] theorem Ld.retention_kept (l : Ld) (seen : Bool) (r : Rec) : (l.retention seen r).s.kept = l.s.kept := by simp [Ld.retention]

@[simp ↓] theorem Ld.assetBase_kept (l : Ld) (r : Rec) : (l.assetBase r).s.kept = l.s.kept := by simp [Ld.assetBase]

@[simp ↓] theorem Ld.parkSignal_kept (l : Ld) (r : Rec) : (l.parkSignal r).s.kept = l.s.kept := by simp [Ld.parkSignal]

@[simp ↓] theorem Ld.struct_kept (v : Nat) (l : Ld) (r : Rec) (before : List Rec) : (Ld.struct v l r before).s.kept = l.s.kept := by
  simp [Ld.struct]

@[simp ↓] theorem Ld.data_kept (l : Ld) (base size : Nat) (r : Rec) (before : List Rec) :
    (l.data base size r before).s.kept = l.s.kept := by
  simp [Ld.data]

@[simp ↓] theorem Ld.first_kept (l : Ld) (r : Rec) (before : List Rec) : (l.first r before).s.kept = l.s.kept := by simp [Ld.first]

@[simp ↓] theorem Ld.image_kept (l : Ld) (r : Rec) : (l.image r).s.kept = l.s.kept := by simp [Ld.image]

@[simp ↓] theorem Ld.words_kept (l : Ld) (count top : Nat) (addr : Nat → Nat → Nat) (r : Rec) (before : List Rec) :
    (l.words count top addr r before).s.kept = l.s.kept := by
  simp [Ld.words]

@[simp ↓] theorem Ld.bezel_kept (l : Ld) (r : Rec) (before : List Rec) : (l.bezel r before).s.kept = l.s.kept := by simp [Ld.bezel]

@[simp ↓] theorem Ld.group_kept (l : Ld) (r : Rec) : (l.group r).s.kept = l.s.kept := by simp [Ld.group]

@[simp ↓] theorem Ld.signal_kept (l : Ld) (r : Rec) : (l.signal r).s.kept = l.s.kept := by simp [Ld.signal]

@[simp ↓] theorem Ld.sigmap_kept (l : Ld) (r : Rec) : (l.sigmap r).s.kept = l.s.kept := by simp [Ld.sigmap]

@[simp ↓] theorem Ld.table_kept (l : Ld) (r : Rec) : (l.table r).s.kept = l.s.kept := by simp [Ld.table]

@[simp ↓] theorem Ld.watch_kept (l : Ld) (r : Rec) (before : List Rec) : (l.watch r before).s.kept = l.s.kept := by simp [Ld.watch]

@[simp ↓] theorem Ld.coef_kept (l : Ld) (r : Rec) (before : List Rec) : (l.coef r before).s.kept = l.s.kept := by simp [Ld.coef]

@[simp ↓] theorem Ld.lut_kept (l : Ld) (r : Rec) : (l.lut r).s.kept = l.s.kept := by simp [Ld.lut]

@[simp ↓] theorem Ld.preset_kept (l : Ld) (r : Rec) : (l.preset r).s.kept = l.s.kept := by simp [Ld.preset]

@[simp ↓] theorem Ld.key_kept (l : Ld) (r : Rec) : (l.key r).s.kept = l.s.kept := by simp [Ld.key]

@[simp ↓] theorem Ld.record_kept (v type : Nat) (l : Ld) (r : Rec) (before : List Rec) :
    (Ld.record v type l r before).s.kept = l.s.kept := by
  unfold Ld.record
  split <;> simp

@[simp ↓] theorem Ld.all_kept (v type : Nat) (l : Ld) (rs done : List Rec) : (l.all v type rs done).s.kept = l.s.kept := by
  induction rs generalizing l done with
  | nil => rfl
  | cons r rs ih => simp [Ld.all, ih]

/-! ### Machine/LocketCheck.lean -/

@[simp ↓] theorem Ld.checks_kept (l : Ld) (at_ : Nat) (cs : List (Nat × Bool)) : (l.checks at_ cs).s.kept = l.s.kept := by
  induction cs generalizing l with
  | nil => rfl
  | cons c cs ih => simp [Ld.checks, ih]

theorem loadModes_kept {s t : State} {ts : List Nat} (h : s.loadModes ts = some t) : t.kept = s.kept := by
  induction ts generalizing s with
  | nil => cases h; rfl
  | cons i ts ih =>
    unfold State.loadModes at h
    split at h
    · split at h
      · exact (ih h).trans (by simp)
      · cases h
    · exact ih h

theorem loadAdmit_kept {s t : State} (h : s.loadAdmit = some t) : t.kept = s.kept := by
  unfold State.loadAdmit at h
  dsimp only at h
  split at h
  · cases h
  · exact (loadModes_kept h).trans (by simp)

@[simp ↓] theorem allLanded_kept : s.allLanded.kept = s.kept := by simp [State.allLanded]

@[simp ↓] theorem holdsSet_kept : s.holdsSet.kept = s.kept := by simp [State.holdsSet]

@[simp ↓] theorem dramShown_kept : s.dramShown.kept = s.kept := by
  unfold State.dramShown
  split <;> simp

@[simp ↓] theorem ingestShown_kept : s.ingestShown.kept = s.kept := by simp [State.ingestShown]

theorem admitLoad_kept {s t : State} (h : s.admitLoad = some t) : t.kept = s.kept := by
  unfold State.admitLoad at h
  obtain ⟨u, hu, rfl⟩ := Option.map_eq_some_iff.mp h
  simpa using loadAdmit_kept hu

@[simp ↓] theorem Ld.endStruct_kept (l : Ld) (k at_ : Nat) (surfaces : List Rec) : (l.endStruct k at_ surfaces).s.kept = l.s.kept := by
  unfold Ld.endStruct
  extract_lets l₁ s₁ l₂
  have h₁ : s₁.kept = l.s.kept := by simp [s₁, l₁]
  split
  · next u h => simpa using (admitLoad_kept h).trans h₁
  · simpa [l₂] using h₁

@[simp ↓] theorem planSet_kept (t : Nat) : (s.planSet t).kept = s.kept := by simp [State.planSet]

@[simp ↓] theorem Ld.endFirst_kept (l : Ld) (at_ : Nat) : (l.endFirst at_).s.kept = l.s.kept := by simp [Ld.endFirst]

@[simp ↓] theorem Ld.signalPlace_kept (l : Ld) (r : Rec) : (l.signalPlace r).s.kept = l.s.kept := by
  unfold Ld.signalPlace
  split <;> simp

@[simp ↓] theorem useRecords_kept (k v : Nat) (e : SecEnt) (rs : List Rec) : (s.useRecords k v e rs).s.kept = s.kept := by
  unfold State.useRecords
  dsimp only
  split <;> simp

theorem useSection_kept {s t : State} {k : Nat} {e : SecEnt} (h : s.useSection k e = .inr t) : t.kept = s.kept := by
  unfold State.useSection at h
  dsimp only at h
  split at h
  · cases h
  · split at h
    · cases h
    · split at h
      · cases h
      · cases h; simp

/-! ### Machine/Boot.lean -/

@[simp ↓] theorem outcome_kept (k code : Nat) : (s.outcome k code).kept = s.kept := by simp [State.outcome]

@[simp ↓] theorem dropLoad_kept : s.dropLoad.kept = s.kept := by simp [State.dropLoad]

@[simp ↓] theorem noteFail_kept (k : Nat) (f : LoadFail) : (s.noteFail k f).kept = s.kept := by simp [State.noteFail]

@[simp ↓] theorem noImage_kept : s.noImage.kept = s.kept := by simp [State.noImage]

@[simp ↓] theorem searchOver_kept : s.searchOver.kept = s.kept := by simp [State.searchOver]

@[simp ↓] theorem tryNext_kept (l : List (Nat × Bool)) : (s.tryNext l).kept = s.kept := by
  induction l generalizing s with
  | nil => simp [State.tryNext]
  | cons x l ih => simp [State.tryNext, ih]

@[simp ↓] theorem search_kept (again : Bool) : (s.search again).kept = s.kept := by simp [State.search]

@[simp ↓] theorem abandon_kept (f : LoadFail) : (s.abandon f).kept = s.kept := by simp [State.abandon]

@[simp ↓] theorem failAfterGaps_kept (n : Nat) (f : LoadFail) : (s.failAfterGaps n f).kept = s.kept := by simp [State.failAfterGaps]

@[simp ↓] theorem structApplied_kept (k : Nat) : (s.structApplied k).kept = s.kept := by simp [State.structApplied]

@[simp ↓] theorem checkFirst_kept : s.checkFirst.kept = s.kept := by simp [State.checkFirst]

@[simp ↓] theorem loadDone_kept : s.loadDone.kept = s.kept := by simp [State.loadDone]

theorem useRead_f_kept (n left : Nat) (b : Nat.below (motive := fun _ => State → State) (left + 1)) (h : ∀ s, (b.1 s).kept = s.kept)
    (s : State) :
    (State.useRead._f n (left + 1) b s).kept = s.kept := by
  generalize e : State.useRead._f = f
  delta State.useRead._f at e
  subst e
  dsimp -zeta only
  extract_lets k
  cases (s.readSecs k)[s.boot.used]? with
  | none => rfl
  | some e =>
    dsimp -zeta only
    split
    · rfl
    · cases u : s.useSection k e with
      | inl f => simp
      | inr t => simpa [h] using useSection_kept u

@[simp ↓] theorem useRead_kept (n left : Nat) : (s.useRead n left).kept = s.kept := by
  generalize e : @State.useRead = f
  delta State.useRead at e
  subst e
  exact brecOn_kept (fun _ _ => rfl) (useRead_f_kept n) left s

@[simp ↓] theorem advance_kept (n : Nat) : (s.advance n).kept = s.kept := by
  unfold State.advance
  dsimp only
  (repeat' split) <;> simp

@[simp ↓] theorem fusedShown_kept : s.fusedShown.kept = s.kept := by simp [State.fusedShown]

@[simp ↓] theorem pllLocked_kept (size0 size1 : Option Nat) : (s.pllLocked size0 size1).kept = s.kept := by simp [State.pllLocked]

@[simp ↓] theorem headerRead_kept : s.headerRead.kept = s.kept := by
  unfold State.headerRead
  split <;> simp

@[simp ↓] theorem tableRead_kept : s.tableRead.kept = s.kept := by
  unfold State.tableRead
  dsimp only
  split <;> simp

@[simp ↓] theorem sigDone_kept (n : Nat) : (s.sigDone n).kept = s.kept := by
  unfold State.sigDone
  dsimp only
  (repeat' split) <;> simp

@[simp ↓] theorem sectionEnd_kept (n : Nat) : (s.sectionEnd n).kept = s.kept := by
  unfold State.sectionEnd
  dsimp only
  (repeat' split) <;> simp

@[simp ↓] theorem bootCtrl_kept (w : Word) : (s.bootCtrl w).kept = s.kept := by simp [State.bootCtrl]

/-! ### Machine/Start.lean -/

@[simp ↓] theorem subServe_kept (k : Nat) : (s.subServe k).kept = s.kept := by simp [State.subServe]

@[simp ↓] theorem trainFully_kept (c : DramConf) (k : Nat) (failed : List Nat) : (s.trainFully c k failed).kept = s.kept := by
  simp [State.trainFully]

@[simp ↓] theorem ddrServe_kept (c : DramConf) (eyeBad failed : List Nat) : (s.ddrServe c eyeBad failed).kept = s.kept := by
  simp [State.ddrServe]

@[simp ↓] theorem noteImage_kept : s.noteImage.kept = s.kept := by simp [State.noteImage]

@[simp ↓] theorem buildTable_kept : s.buildTable.kept = s.kept := by simp [State.buildTable]

@[simp ↓] theorem postAsset_kept (result : Nat) : (s.postAsset result).kept = s.kept := by simp [State.postAsset]

@[simp ↓] theorem assetBegin_kept : s.assetBegin.kept = s.kept := by
  unfold State.assetBegin
  split <;> simp

@[simp ↓] theorem portsReady_kept : s.portsReady.kept = s.kept := by simp [State.portsReady]

@[simp ↓] theorem hubReady_kept : s.hubReady.kept = s.kept := by simp [State.hubReady]

@[simp ↓] theorem assetFailed_kept : s.assetFailed.kept = s.kept := by simp [State.assetFailed]

@[simp ↓] theorem assetDone_kept (a : Asset) : (s.assetDone a).kept = s.kept := by simp [State.assetDone]

@[simp ↓] theorem flashFail_kept : s.flashFail.kept = s.kept := by
  unfold State.flashFail
  (repeat' split) <;> simp

/-! ### Machine/Park.lean -/

@[simp ↓] theorem parkPanels_kept : s.parkPanels.kept = s.kept := by simp [State.parkPanels]

@[simp ↓] theorem drainEnd_kept : s.drainEnd.kept = s.kept := by simp [State.drainEnd]

@[simp ↓] theorem snapBegin_kept : s.snapBegin.kept = s.kept := by simp [State.snapBegin]

@[simp ↓] theorem snapEnd_kept : s.snapEnd.kept = s.kept := by
  unfold State.snapEnd
  split <;> simp

@[simp ↓] theorem parkStore_kept : s.parkStore.kept = s.kept := by simp [State.parkStore]

@[simp ↓] theorem subRest_kept (k : Nat) : (s.subRest k).kept = s.kept := by simp [State.subRest]

@[simp ↓] theorem restAll_kept : s.restAll.kept = s.kept := by
  unfold State.restAll
  split
  · next c _ =>
    show ({ ((maskSubs c.mask).foldl State.subRest s).kept with bootsel := s.power.bootsel, compat := s.power.compat } : Kept) = s.kept
    rw [foldl_kept (fun s k => subRest_kept s k)]
    rfl
  · rfl

/-! ### Machine/Islands.lean -/

@[simp ↓] theorem postIsland_kept (i st cause partner us exposed : Nat) : (s.postIsland i st cause partner us exposed).kept = s.kept := by
  simp [State.postIsland]

@[simp ↓] theorem dropIssued_kept (i : Nat) : (s.dropIssued i).kept = s.kept := by simp [State.dropIssued]

@[simp ↓] theorem clearIsland_kept (i : Nat) : (s.clearIsland i).kept = s.kept := by simp [State.clearIsland]

@[simp ↓] theorem pixelReset_kept (t : Nat) : (s.pixelReset t).kept = s.kept := by simp [State.pixelReset]

@[simp ↓] theorem workDrop_kept (fifos : Bool) (t : Nat) : (s.workDrop fifos t).kept = s.kept := by simp [State.workDrop]

@[simp ↓] theorem pendingLost_kept (t : Nat) : (s.pendingLost t).kept = s.kept := by simp [State.pendingLost]

@[simp ↓] theorem pavReset_kept (q : Nat) (fifos : Bool) : (s.pavReset q fifos).kept = s.kept := by simp [State.pavReset]

@[simp ↓] theorem subReset_kept (k : Nat) : (s.subReset k).kept = s.kept := by simp [State.subReset]

@[simp ↓] theorem phyReset_kept (n : Nat) (srFail : Bool) : (s.phyReset n srFail).kept = s.kept := by
  unfold State.phyReset
  (repeat' split) <;> simp

@[simp ↓] theorem hostReset_kept (p : Nat) : (s.hostReset p).kept = s.kept := by simp [State.hostReset]

@[simp ↓] theorem dmaReset_kept : s.dmaReset.kept = s.kept := by simp [State.dmaReset]

@[simp ↓] theorem carouselReset_kept : s.carouselReset.kept = s.kept := by simp [State.carouselReset]

@[simp ↓] theorem igCut_kept (c : Nat) : (s.igCut c).kept = s.kept := by
  unfold State.igCut
  split <;> simp

@[simp ↓] theorem gateReset_kept : s.gateReset.kept = s.kept := by simp [State.gateReset]

@[simp ↓] theorem xspiReset_kept : s.xspiReset.kept = s.kept := by simp [State.xspiReset]

@[simp ↓] theorem canReset_kept (n : Nat) : (s.canReset n).kept = s.kept := by simp [State.canReset]

@[simp ↓] theorem resetIsland_kept (i : Nat) (fifos srFail : Bool) : (s.resetIsland i fifos srFail).kept = s.kept := by
  simp [State.resetIsland]

@[simp ↓] theorem islMod_kept (f : Islands → Islands) : (s.islMod f).kept = s.kept := by simp [State.islMod]

@[simp ↓] theorem islandFail_kept (i cause partner : Nat) : (s.islandFail i cause partner).kept = s.kept := by simp [State.islandFail]

@[simp ↓] theorem abandonMove_kept (q : Nat) : (s.abandonMove q).kept = s.kept := by
  unfold State.abandonMove
  split <;> simp

@[simp ↓] theorem islandFault_kept (i cause : Nat) (srFail : Bool) : (s.islandFault i cause srFail).kept = s.kept := by
  unfold State.islandFault
  dsimp only
  split <;> simp

@[simp ↓] theorem flit_kept (i k : Nat) (parityBad : Bool) (seq : Nat) : (s.flit i k parityBad seq).kept = s.kept := by simp [State.flit]

@[simp ↓] theorem composeAgain_kept (t : Nat) : (s.composeAgain t).kept = s.kept := by simp [State.composeAgain]

@[simp ↓] theorem rebuildAdmission_kept : s.rebuildAdmission.kept = s.kept := by simp [State.rebuildAdmission]

@[simp ↓] theorem carouselBack_kept : s.carouselBack.kept = s.kept := by simp [State.carouselBack]

@[simp ↓] theorem igBack_kept (c : Nat) : (s.igBack c).kept = s.kept := by simp [State.igBack]

@[simp ↓] theorem gateBack_kept : s.gateBack.kept = s.kept := by simp [State.gateBack]

@[simp ↓] theorem showLut_kept (t : Nat) : (s.showLut t).kept = s.kept := by simp [State.showLut]

@[simp ↓] theorem islandBack_kept (i : Nat) : (s.islandBack i).kept = s.kept := by simp [State.islandBack]

@[simp ↓] theorem islandRelease_kept (d : IslandDown) (ok : Bool) : (s.islandRelease d ok).kept = s.kept := by simp [State.islandRelease]

@[simp ↓] theorem copyBanks_kept (p q : Nat) : (s.copyBanks p q).kept = s.kept := by simp [State.copyBanks]

@[simp ↓] theorem migrate_kept (p q : Nat) : (s.migrate p q).kept = s.kept := by simp [State.migrate]

/-! ### Machine/Recover.lean -/

@[simp ↓] theorem startAgain_kept : s.startAgain.kept = s.kept := by
  unfold State.startAgain
  dsimp only
  split <;> simp

@[simp ↓] theorem warmWaking_kept : s.warmWaking.kept = s.kept := by
  unfold State.warmWaking
  extract_lets _ _ s₁
  have h : s₁.kept = s.kept := kept_ite_of (restAll_kept s) (kept_ite_of rfl rfl)
  simp [h]

@[simp ↓] theorem warmQueue_kept (k : Nat) : (s.warmQueue k).kept = s.kept := by simp [State.warmQueue]

@[simp ↓] theorem warmDram_kept : s.warmDram.kept = s.kept := by simp [State.warmDram]

@[simp ↓] theorem warmStop_kept (t : Nat) : (s.warmStop t).kept = s.kept := by simp [State.warmStop]

@[simp ↓] theorem warmLit_kept : s.warmLit.kept = s.kept := by simp [State.warmLit]

@[simp ↓] theorem warmrst_kept : s.warmrst.kept = s.kept := by
  unfold State.warmrst
  split
  · rfl
  · simp
  · rw [warmWaking_kept]
    calc _ = { s.heldUndo.kept with bootsel := s.power.bootsel, compat := s.power.compat } := rfl
      _ = s.kept := by rw [heldUndo_kept]; rfl
  · simp

@[simp ↓] theorem pairAgain_kept (p : Nat × Nat) : (s.pairAgain p).kept = s.kept := by
  unfold State.pairAgain
  split <;> simp

@[simp ↓] theorem recoverStart_kept : s.recoverStart.kept = s.kept := by simp [State.recoverStart]

@[simp ↓] theorem warmRelease_kept : s.warmRelease.kept = s.kept := by
  unfold State.warmRelease
  dsimp only
  (repeat' split) <;> simp

@[simp ↓] theorem recoverReady_kept : s.recoverReady.kept = s.kept := by
  unfold State.recoverReady
  simp

/-! ### Machine/RegWrite.lean -/

@[simp ↓] theorem readEffect_kept (src : Src) (a : Nat) : (s.readEffect src a).kept = s.kept := by
  unfold State.readEffect
  split <;> simp

@[simp ↓] theorem regRead_kept (src : Src) (addr : Nat) : (s.regRead src addr).2.kept = s.kept := by
  unfold State.regRead
  dsimp only
  split <;> simp

@[simp ↓] theorem answer_kept (src : Src) (w : Word) : (s.answer src w).kept = s.kept := by
  unfold State.answer
  split <;> simp

@[simp ↓] theorem readNow_kept (src : Src) (a : Nat) : (s.readNow src a).kept = s.kept := by
  unfold State.readNow
  refine when_kept (fun s => ?_) _ _
  split <;> simp

@[simp ↓] theorem readsRun_kept : s.readsRun.kept = s.kept := by simp [State.readsRun]

@[simp ↓] theorem polFreed_kept (k n : Nat) (x : State) : (s.polFreed k n x).kept = x.kept := by
  simp [State.polFreed]

@[simp ↓] theorem landGate_kept (src : Src) (a : Nat) (w : Word) (r : RegRow) : (s.landGate src a w r).kept = s.kept := by
  simp [State.landGate]

@[simp ↓] theorem useSoon_kept (a : Nat) : (s.useSoon a).kept = s.kept := by simp [State.useSoon]

@[simp ↓] theorem enMoved_kept (t : Nat) (was : Bool) : (s.enMoved t was).kept = s.kept := by simp [State.enMoved]

@[simp ↓] theorem landTl_kept (a : Nat) (w : Word) (r : RegRow) : (s.landTl a w r).kept = s.kept := by simp [State.landTl]

@[simp ↓] theorem landPav_kept (src : Src) (a : Nat) (w : Word) (r : RegRow) : (s.landPav src a w r).kept = s.kept := by
  simp [State.landPav]

@[simp ↓] theorem wbCtrl_kept (n : Nat) (w : Word) (r : RegRow) : (s.wbCtrl n w r).kept = s.kept := by simp [State.wbCtrl]

@[simp ↓] theorem landFin_kept (a : Nat) (w : Word) (r : RegRow) : (s.landFin a w r).kept = s.kept := by
  unfold State.landFin
  (repeat' split) <;> simp

@[simp ↓] theorem landEng_kept (src : Src) (a : Nat) (w : Word) (r : RegRow) : (s.landEng src a w r).kept = s.kept := by
  simp [State.landEng]

@[simp ↓] theorem landMem_kept (a : Nat) (w : Word) (r : RegRow) : (s.landMem a w r).kept = s.kept := by simp [State.landMem]

@[simp ↓] theorem landPort_kept (src : Src) (a : Nat) (w : Word) (r : RegRow) : (s.landPort src a w r).kept = s.kept := by
  simp [State.landPort]

@[simp ↓] theorem landed_kept (src : Src) (a : Nat) (w : Word) (r : RegRow) : (s.landed src a w r).kept = s.kept := by simp [State.landed]

@[simp ↓] theorem regWrite_kept (src : Src) (addr value : Nat) : (s.regWrite src addr value).1.kept = s.kept := by
  have d := decideWrite_kept admChange_kept s src (s.aliasAddr addr) value
  unfold State.regWrite
  extract_lets a
  split
  · simp
  · split <;> rename_i e <;> rw [e] at d
    · exact d
    · simpa using d

@[simp ↓] theorem bankLands_kept (g : Nat) (p : Posted) (r : RegRow) : (s.bankLands g p r).kept = s.kept := by simp [State.bankLands]

@[simp ↓] theorem postedLands_kept (g : Nat) (p : Posted) : (s.postedLands g p).kept = s.kept := by
  unfold State.postedLands
  split <;> simp

/-! ### Machine/SvFrames.lean -/

@[simp ↓] theorem respond_kept (rstat seq data : Nat) : (s.respond rstat seq data).kept = s.kept := by simp [State.respond]

@[simp ↓] theorem svResult_kept (data : Nat) : (s.svResult data).kept = s.kept := by simp [State.svResult]

@[simp ↓] theorem svRun_kept (frame : List Byte) : (s.svRun frame).kept = s.kept := by simp [State.svRun]

@[simp ↓] theorem svBad_kept (rstat : Nat) : (s.svBad rstat).kept = s.kept := by simp [State.svBad]

@[simp ↓] theorem svFrame_kept {eff : State → State × Nat × Nat} (h : Keeps fun s => (eff s).1) (s : State) (cmd : Nat) (frame : List Byte)
    (bits : Nat) : (s.svFrame cmd frame bits eff).kept = s.kept := by
  have h' : ∀ s, (eff s).1.kept = s.kept := h
  unfold State.svFrame
  split
  · rfl
  · dsimp only
    split <;> simp [h']

end

/-! ## The commands

First the commands whose effect is itself a match on the state or on an operand; for every other command the frame rules are enough. -/

section

variable {s t : State} {now : Nat}

theorem execSignatureVerifyDone_kept (h : execSignatureVerifyDone now s = .next t) : t.kept = (s.tick now).kept := by
  obtain rfl := Host.Outcome.next.inj h
  cases (s.tick now).sectionsRead <;> simp

theorem execSectionEnd_kept (h : execSectionEnd now s = .next t) : t.kept = (s.tick now).kept := by
  obtain rfl := Host.Outcome.next.inj h
  cases (s.tick now).sectionsRead <;> simp

theorem execDdr5InService_kept {eyeBad failed : List Nat} (h : execDdr5InService now eyeBad failed s = .next t) :
    t.kept = (s.tick now).kept := by
  obtain rfl := Host.Outcome.next.inj h
  cases (s.tick now).locket.dram <;> simp

theorem execAssetCopyDone_kept (h : execAssetCopyDone now s = .next t) : t.kept = (s.tick now).kept := by
  obtain rfl := Host.Outcome.next.inj h
  cases (s.tick now).locket.asset <;> simp

theorem execReseatCheckDone_kept {p : Fin 16} (h : execReseatCheckDone now p s = .next t) : t.kept = (s.tick now).kept := by
  obtain rfl := Host.Outcome.next.inj h
  cases ((s.tick now).scanAt p.val).reseat <;> simp

theorem execWbFrameAcked_kept {n : Fin 4} (h : execWbFrameAcked now n s = .next t) : t.kept = (s.tick now).kept := by
  obtain rfl := Host.Outcome.next.inj h
  cases ((s.tick now).wbAt n.val).await <;> simp

theorem execFlattenComplete_kept {p : Fin 16} {lost : Bool} (h : execFlattenComplete now p lost s = .next t) :
    t.kept = (s.tick now).kept := by
  obtain rfl := Host.Outcome.next.inj h
  cases ((s.tick now).scanAt p.val).flatJob <;> simp

theorem execCommitAccept_kept {p : Fin 4} {r : Fin 8} {copyFail : List Nat} (h : execCommitAccept now p r copyFail s = .next t) :
    t.kept = (s.tick now).kept := by
  obtain rfl := Host.Outcome.next.inj h
  cases ((s.tick now).ringAt (8 * p.val + r.val)).cand <;> simp

theorem execPolicerPacket_kept {p : Fin 4} {read : Bool} {offset len tc : Nat} {data : List Byte}
    (h : execPolicerPacket now p read offset len tc data s = .next t) : t.kept = (s.tick now).kept := by
  obtain rfl := Host.Outcome.next.inj h
  cases (s.tick now).bar2Hpa p.val offset <;> simp

theorem execQueueEligible_kept {q : Fin 256} (h : execQueueEligible now q s = .next t) : t.kept = (s.tick now).kept := by
  obtain rfl := Host.Outcome.next.inj h
  cases ((s.tick now).shqAt q.val).elig <;> simp

theorem execDramRead_kept {hpa deadline : Nat} {cls : ReadClass} (h : execDramRead now hpa cls deadline s = .next t) :
    t.kept = (s.tick now).kept := by
  obtain rfl := Host.Outcome.next.inj h
  cases (s.tick now).locket.dram <;> simp

theorem execDramWrite_kept {hpa deadline : Nat} {data : List Byte} {cls : MemClass}
    (h : execDramWrite now hpa data cls deadline s = .next t) : t.kept = (s.tick now).kept := by
  obtain rfl := Host.Outcome.next.inj h
  cases (s.tick now).locket.dram <;> simp

theorem execDramReadReturn_kept {c : Fin 8} {id : Nat} {errs0 errs1 : List BeatErr}
    (h : execDramReadReturn now c id errs0 errs1 s = .next t) : t.kept = (s.tick now).kept := by
  obtain rfl := Host.Outcome.next.inj h
  dsimp only
  split
  · refine when_kept (fun u => ?_) _ _
    split <;> simp
  · rfl

theorem execWriteCrcAlert_kept {c : Fin 8} {id : Nat} (h : execWriteCrcAlert now c id s = .next t) :
    t.kept = (s.tick now).kept := by
  obtain rfl := Host.Outcome.next.inj h
  dsimp only
  split <;> simp

theorem execDramWriteAck_kept {who : Acked} (h : execDramWriteAck now who s = .next t) : t.kept = (s.tick now).kept := by
  obtain rfl := Host.Outcome.next.inj h
  cases who <;> simp

theorem execPatrolScrub_kept {hpa : Nat} {errs0 errs1 : List BeatErr} (h : execPatrolScrub now hpa errs0 errs1 s = .next t) :
    t.kept = (s.tick now).kept := by
  obtain rfl := Host.Outcome.next.inj h
  cases (s.tick now).locket.dram <;> simp

theorem execRetrainStep_kept {c : Fin 8} {rank : Fin 2} {changed : Bool} (h : execRetrainStep now c rank changed s = .next t) :
    t.kept = (s.tick now).kept := by
  obtain rfl := Host.Outcome.next.inj h
  cases (s.tick now).locket.dram <;> simp

theorem execSmSvSig_kept {src : Src} {value : Nat} (h : execSmSvSig now src value s = .next t) : t.kept = (s.tick now).kept := by
  obtain rfl := Host.Outcome.next.inj h
  have d := decideWrite_kept noAdm_kept (s.tick now) src SM_SV_SIG value
  split <;> rename_i e <;> rw [e] at d
  · exact d
  · simpa using d

theorem execIslandRelease_kept {isl : Fin 108} {ok : Bool} (h : execIslandRelease now isl ok s = .next t) :
    t.kept = (s.tick now).kept := by
  obtain rfl := Host.Outcome.next.inj h
  cases (s.tick now).downOf isl.val <;> simp

theorem execMigrationComplete_kept {pv : Fin 8} (h : execMigrationComplete now pv s = .next t) : t.kept = (s.tick now).kept := by
  obtain rfl := Host.Outcome.next.inj h
  split <;> simp

theorem execPostedWriteLands_kept {group : Nat} (h : execPostedWriteLands now group s = .next t) : t.kept = (s.tick now).kept := by
  obtain rfl := Host.Outcome.next.inj h
  cases (s.tick now).postedAt group <;> simp

end

/-- Every command but the release of an asserted PORST_N, its assertion and the restart after a loss of supply: of the queue, the device
time and the straps only the device time changes, to the command's own where that is later. -/
theorem exec_kept {c : Instr} {s t : State} (h : exec c s = .next t)
    (hr : s.power.porst = true → ∀ now b k, c ≠ .porstNRelease now b k)
    (ha : ∀ now w, 1000 < w → c ≠ .porstNAssert now w) (hl : ∀ now, c ≠ .supplyLossRestart now) : t.kept = (s.tick c.now).kept := by
  cases c with
  | porstNRelease now b k =>
    have hp : s.power.porst = false := by simpa using fun hp => hr hp now b k
    obtain rfl := Host.Outcome.next.inj h
    simp [hp, State.when, Instr.now]
  | porstNAssert now w =>
    have hw : ¬ 1000 < w := fun hw => ha now w hw rfl
    obtain rfl := Host.Outcome.next.inj h
    simp [hw, State.when, Instr.now]
  | supplyLossRestart now => exact absurd rfl (hl now)
  | signatureVerifyDone => exact execSignatureVerifyDone_kept h
  | sectionEnd => exact execSectionEnd_kept h
  | ddr5InService => exact execDdr5InService_kept h
  | assetCopyDone => exact execAssetCopyDone_kept h
  | reseatCheckDone => exact execReseatCheckDone_kept h
  | wbFrameAcked => exact execWbFrameAcked_kept h
  | flattenComplete => exact execFlattenComplete_kept h
  | commitAccept => exact execCommitAccept_kept h
  | policerPacket => exact execPolicerPacket_kept h
  | queueEligible => exact execQueueEligible_kept h
  | dramRead => exact execDramRead_kept h
  | dramWrite => exact execDramWrite_kept h
  | dramReadReturn => exact execDramReadReturn_kept h
  | writeCrcAlert => exact execWriteCrcAlert_kept h
  | dramWriteAck => exact execDramWriteAck_kept h
  | patrolScrub => exact execPatrolScrub_kept h
  | retrainStep => exact execRetrainStep_kept h
  | smSvSig => exact execSmSvSig_kept h
  | islandRelease => exact execIslandRelease_kept h
  | migrationComplete => exact execMigrationComplete_kept h
  | postedWriteLands => exact execPostedWriteLands_kept h
  | _ =>
    obtain rfl := Host.Outcome.next.inj h
    simp [Instr.now]

/-! ## The release of PORST_N (R29, R23) -/

theorem beginStart_get_bootsel (s : State) (old cause : Nat) (warm : Bool) :
    (s.beginStart old cause warm).get SY_BOOT_STAT SY_BOOT_STAT_BOOTSEL = s.power.bootsel % 4 := by
  unfold State.beginStart
  extract_lets fresh
  have hs : fresh.power.bootsel = s.power.bootsel := (straps_of_kept (freshStart_kept s)).1
  rw [onlyEvents_get (postPstate_only _ old 2 cause) _ (by decide), get_put_ne _ _ _ _ (by decide),
    get_put_apart _ _ _ _ _ (by decide) (by decide), get_put_apart _ _ _ _ _ (by decide) (by decide), get_put_same _ _ _ _ (by decide), hs]
  rfl

theorem beginStart_get_compat (s : State) (old cause : Nat) (warm : Bool) :
    (s.beginStart old cause warm).get SY_BOOT_STAT SY_BOOT_STAT_COMPAT = b2n s.power.compat := by
  unfold State.beginStart
  extract_lets fresh
  have hs : fresh.power.compat = s.power.compat := (straps_of_kept (freshStart_kept s)).2
  rw [onlyEvents_get (postPstate_only _ old 2 cause) _ (by decide), get_put_ne _ _ _ _ (by decide),
    get_put_apart _ _ _ _ _ (by decide) (by decide), get_put_same _ _ _ _ (by decide), hs]
  cases s.power.compat <;> rfl

theorem coldStart_get_bootsel (s : State) : s.coldStart.get SY_BOOT_STAT SY_BOOT_STAT_BOOTSEL = s.power.bootsel % 4 := by
  unfold State.coldStart
  rw [beginStart_get_bootsel]
  rfl

theorem coldStart_get_compat (s : State) : s.coldStart.get SY_BOOT_STAT SY_BOOT_STAT_COMPAT = b2n s.power.compat := by
  unfold State.coldStart
  rw [beginStart_get_compat]
  rfl

theorem coldStart_straps (s : State) : s.coldStart.power.bootsel = s.power.bootsel ∧ s.coldStart.power.compat = s.power.compat :=
  straps_of_kept (s := { s with dtime := 0 }) (coldStart_kept s)

theorem exec_porstNRelease {s : State} (h : s.power.porst = true) (now bootsel : Nat) (compat : Bool) :
    exec (.porstNRelease now bootsel compat) s =
      .next ({ s.tick now with power := { s.power with bootsel := bootsel % 4, compat := compat } } : State).coldStart := by
  simp [exec, execPorstNRelease, h, State.when, State.tick]

theorem supplyLossRestart_straps {s t : State} {now : Nat} (h : exec (.supplyLossRestart now) s = .next t) :
    t.power.bootsel = s.power.bootsel ∧ t.power.compat = s.power.compat := by
  obtain rfl := Host.Outcome.next.inj h
  unfold State.when
  split
  · exact coldStart_straps (s.tick now)
  · exact ⟨rfl, rfl⟩

/-- Settles O39: the release of PORST_N samples the straps by `exec_porstNRelease`; the restart after a loss of supply starts cold from the
straps it finds, and every other command leaves `State.kept` but for the device time. -/
theorem strapsAreHeld : Obligations.StrapsAreHeld := by
  unfold Obligations.StrapsAreHeld
  refine ⟨fun s now bootsel compat hp hb => ?_, fun c s t h hr ha => ?_⟩
  · have hm : bootsel % 4 = bootsel := Nat.mod_eq_of_lt hb
    obtain ⟨hbs, hc⟩ := coldStart_straps { s.tick now with power := { s.power with bootsel := bootsel % 4, compat := compat } }
    exact ⟨_, exec_porstNRelease hp now bootsel compat, hbs.trans hm, hc, (coldStart_get_bootsel _).trans (by simp [hm]),
      coldStart_get_compat _⟩
  · by_cases hl : ∃ now, c = .supplyLossRestart now
    · obtain ⟨now, rfl⟩ := hl
      exact supplyLossRestart_straps h
    · exact straps_of_kept (s := s.tick c.now) (exec_kept h hr ha fun now hc => hl ⟨now, hc⟩)

end Sys2Proof.Machine
end

section

namespace Sys2Proof.Machine

/-! ## The arithmetic of the pixel path (R201, R207) -/

theorem tapsOf_cases (code : Nat) : tapsOf code = 6 ∨ tapsOf code = 4 ∨ tapsOf code = 2 := by
  unfold tapsOf
  split_ifs <;> simp

theorem foldTaps_six (a b c d e f : Int) : foldTaps 6 [a, b, c, d, e, f] = [a, b, c, d, e, f] := rfl

theorem foldTaps_four (a b c d e f : Int) : foldTaps 4 [a, b, c, d, e, f] = [a + b, c, d, e + f] := rfl

theorem foldTaps_two (a b c d e f : Int) : foldTaps 2 [a, b, c, d, e, f] = [a + b + c, d + e + f] := rfl

/-- Settles O45: a tap count is 6, 4 or 2 by `tapsOf_cases`, and for each of them the folded list is written out. -/
theorem tapsFoldInwards : Obligations.TapsFoldInwards := by
  unfold Obligations.TapsFoldInwards
  intro a b c d e f
  refine ⟨foldTaps_six .., foldTaps_four .., foldTaps_two .., fun code => ?_⟩
  obtain h | h | h := tapsOf_cases code
  · rw [h, foldTaps_six]
    exact ⟨by simp [add_assoc], rfl⟩
  · rw [h, foldTaps_four]
    exact ⟨by simp [add_assoc], rfl⟩
  · rw [h, foldTaps_two]
    exact ⟨by simp [add_assoc], rfl⟩

/-- The division by 4,095 of R207's C text: for `t = 4095 * q + s`, the carry `t / 4096` is `q` or, where `s < q`, one less, and a remainder
`s` from 1 to 4,095 takes up either. -/
theorem add_div_4096_div_4096 {q s : Nat} (hq : q ≤ 4095) (hs : 1 ≤ s) (hs' : s ≤ 4095) :
    (4095 * q + s + (4095 * q + s) / 4096) / 4096 = q := by
  obtain hlt | hge := Nat.lt_or_ge s q
  · have hcarry : (4095 * q + s) / 4096 = q - 1 := by omega
    omega
  · have hcarry : (4095 * q + s) / 4096 = q := by omega
    omega

/-- The rounded quotient `q` leaves `x * y + 2048 = 4095 * q + s` with `s` from 1 to 4,095, the form of `add_div_4096_div_4096`. -/
theorem mul12_eq_rounded {x y : Nat} (hx : x ≤ 4095) (hy : y ≤ 4095) : mul12 x y = (2 * (x * y) + 4095) / 8190 := by
  have hp : x * y ≤ 4095 * 4095 := Nat.mul_le_mul hx hy
  unfold mul12
  generalize x * y = p at hp ⊢
  obtain ⟨s, hsplit, hs, hs'⟩ : ∃ s, p + 2048 = 4095 * ((2 * p + 4095) / 8190) + s ∧ 1 ≤ s ∧ s ≤ 4095 :=
    ⟨p + 2048 - 4095 * ((2 * p + 4095) / 8190), by omega⟩
  simp only [hsplit]
  exact add_div_4096_div_4096 (by omega) hs hs'

theorem mul12_le {x y : Nat} (hx : x ≤ 4095) (hy : y ≤ 4095) : mul12 x y ≤ 4095 := by
  have hp : x * y ≤ 4095 * 4095 := Nat.mul_le_mul hx hy
  rw [mul12_eq_rounded hx hy]
  omega

/-- No sum or product of R207's C text reaches 2^32, so the 32-bit words hold the exact values. -/
theorem mul12_eq_bitVec {x y : Nat} (hx : x ≤ 4095) (hy : y ≤ 4095) :
    let t : BitVec 32 := BitVec.ofNat 32 x * BitVec.ofNat 32 y + 2048#32
    mul12 x y = ((t + (t >>> 12)) >>> 12).toNat := by
  intro t
  have hp : x * y ≤ 4095 * 4095 := Nat.mul_le_mul hx hy
  have ht : t.toNat = x * y + 2048 := by
    have hmod : (x * y + 2048) % 2 ^ 32 = x * y + 2048 := Nat.mod_eq_of_lt (by omega)
    simpa [t, BitVec.toNat_add, BitVec.toNat_mul] using hmod
  have hsum : (t + (t >>> 12)).toNat = x * y + 2048 + (x * y + 2048) / 4096 := by
    rw [BitVec.toNat_add, BitVec.toNat_ushiftRight, ht, Nat.shiftRight_eq_div_pow]
    omega
  rw [BitVec.toNat_ushiftRight, hsum, Nat.shiftRight_eq_div_pow]
  rfl

/-- Settles O43: the quotient by `mul12_eq_rounded`, the words of R207's C text by `mul12_eq_bitVec`, the range by `mul12_le`. -/
theorem mulIsRoundedHalfUp : Obligations.MulIsRoundedHalfUp := by
  unfold Obligations.MulIsRoundedHalfUp
  exact fun _ _ hx hy => ⟨mul12_eq_rounded hx hy, mul12_eq_bitVec hx hy, mul12_le hx hy⟩

end Sys2Proof.Machine
end

section

namespace Sys2Proof.Machine

/-! ## Address hashing (R421, R422)

The hashed bits are a number given bit by bit (`bitsBelow`), and so is a default mask. Each hashed bit is the parity of the address bits that
its mask selects (`State.hashedBit`); `dramLoc_eq` and `hashed_eq` say that `dramLoc` splits that number and loses none of it. -/

/-- The number whose bits below `n` are those of `p`. -/
def bitsBelow (p : Nat → Bool) (n : Nat) : Nat := (List.range n).foldl (fun acc i => acc + (p i).toNat * 2 ^ i) 0

theorem bitsBelow_succ (p : Nat → Bool) (n : Nat) : bitsBelow p (n + 1) = bitsBelow p n + (p n).toNat * 2 ^ n := by
  simp [bitsBelow, List.range_succ]

theorem bitsBelow_lt (p : Nat → Bool) (n : Nat) : bitsBelow p n < 2 ^ n := by
  induction n with
  | zero => simp [bitsBelow]
  | succ n ih =>
    have hbit : (p n).toNat * 2 ^ n ≤ 1 * 2 ^ n := Nat.mul_le_mul_right _ (p n).toNat_le
    rw [bitsBelow_succ, Nat.pow_succ]
    omega

theorem testBit_bitsBelow (p : Nat → Bool) (n i : Nat) : (bitsBelow p n).testBit i = (decide (i < n) && p i) := by
  induction n with
  | zero => simp [bitsBelow]
  | succ n ih =>
    rw [bitsBelow_succ, Nat.add_comm, Nat.mul_comm, Nat.testBit_two_pow_mul_add _ (bitsBelow_lt p n)]
    obtain hlt | rfl | hgt := Nat.lt_trichotomy i n
    · rw [if_pos hlt, ih]
      simp [hlt, Nat.lt_succ_of_lt hlt]
    · cases p i <;> simp
    · have hzero : (p n).toNat.testBit (i - n) = false :=
        Nat.testBit_lt_two_pow ((p n).toNat_lt.trans_le (Nat.le_self_pow (by omega) 2))
      rw [if_neg (by omega), hzero]
      simp [show ¬ i < n + 1 by omega]

/-- Whether the mask of hashed bit `i` selects address bit `j` (R422). -/
def hashSelects (reg h i j : Nat) : Bool :=
  if reg = 0 then decide (12 + i ≤ j) && (j - (12 + i)) % h == 0 else decide (10 ≤ j) && reg.testBit (j - 10)

theorem hashMask_zero (h i : Nat) : hashMask 0 h i = bitsBelow (hashSelects 0 h i) 42 := by
  simp only [hashMask, bitsBelow, hashSelects, if_true, List.foldl_filter]
  congr 1
  funext acc b
  cases decide (12 + i ≤ b) && (b - (12 + i)) % h == 0 <;> simp

theorem testBit_hashMask (reg h i : Nat) {j : Nat} (hj : j < 42) : (hashMask reg h i).testBit j = hashSelects reg h i j := by
  by_cases hreg : reg = 0
  · subst hreg
    simp [hashMask_zero, testBit_bitsBelow, hj]
  · simp only [hashMask, hashSelects, if_neg hreg]
    exact Nat.testBit_mul_two_pow reg j 10

theorem ten_le_of_hashSelects {reg h i j : Nat} (hsel : hashSelects reg h i j = true) : 10 ≤ j := by
  unfold hashSelects at hsel
  split_ifs at hsel <;> simp at hsel <;> omega

theorem sum_bits_eq_countP (n : Nat) (is : List Nat) : (is.map fun i => n / 2 ^ i % 2).sum = is.countP n.testBit := by
  induction is with
  | nil => rfl
  | cons i is ih =>
    rw [List.map_cons, List.sum_cons, List.countP_cons, ih, ← Nat.toNat_testBit, Nat.add_comm]
    cases n.testBit i <;> rfl

theorem parityOf_eq_countP (n : Nat) : parityOf n = (List.range 42).countP n.testBit % 2 := by
  rw [parityOf, ← List.sum_eq_foldl, sum_bits_eq_countP]

/-- Hashed bit `i` of address `a` (R422). -/
def State.hashedBit (s : State) (c : DramConf) (a i : Nat) : Bool :=
  decide (((List.range 42).filter fun j => a.testBit j && hashSelects (s.rdN (DR_HASH i)) c.h i j).length % 2 = 1)

theorem parityOf_hashMask (s : State) (c : DramConf) (a i : Nat) :
    parityOf (a &&& hashMask (s.rdN (DR_HASH i)) c.h i) = (s.hashedBit c a i).toNat := by
  have hsel : (List.range 42).countP (a &&& hashMask (s.rdN (DR_HASH i)) c.h i).testBit =
      ((List.range 42).filter fun j => a.testBit j && hashSelects (s.rdN (DR_HASH i)) c.h i j).length := by
    rw [List.countP_eq_length_filter]
    congr 1
    refine List.filter_congr fun j hj => ?_
    rw [Nat.testBit_and, testBit_hashMask _ _ _ (List.mem_range.1 hj)]
  rw [parityOf_eq_countP, hsel, State.hashedBit]
  obtain h | h := Nat.mod_two_eq_zero_or_one
      ((List.range 42).filter fun j => a.testBit j && hashSelects (s.rdN (DR_HASH i)) c.h i j).length <;> simp [h]

/-- No mask reaches the bits below 10, so the byte within the block plays no part. -/
theorem hashedBit_block (s : State) (c : DramConf) (a i : Nat) : s.hashedBit c (a / 64 * 64) i = s.hashedBit c a i := by
  have hbits : ∀ j, 10 ≤ j → (a / 64 * 64).testBit j = a.testBit j := fun j hj => by
    rw [show (64 : Nat) = 2 ^ 6 from rfl, Nat.testBit_mul_two_pow, Nat.testBit_div_two_pow, Nat.sub_add_cancel (by omega)]
    simp [show 6 ≤ j by omega]
  have hsame : (fun j => (a / 64 * 64).testBit j && hashSelects (s.rdN (DR_HASH i)) c.h i j) =
      fun j => a.testBit j && hashSelects (s.rdN (DR_HASH i)) c.h i j := by
    funext j
    cases hsel : hashSelects (s.rdN (DR_HASH i)) c.h i j with
    | false => simp
    | true => rw [hbits j (ten_le_of_hashSelects hsel)]
  rw [State.hashedBit, hsame, State.hashedBit]

/-- The hashed bits as one number, the sub-channel bits lowest (R421). -/
def State.hashed (s : State) (c : DramConf) (a : Nat) : Nat := bitsBelow (s.hashedBit c a) c.h

theorem dramLoc_eq (s : State) (c : DramConf) (a : Nat) :
    s.dramLoc c a =
      { sub := s.hashed c a % 2 ^ log2n c.nsub, bank := s.hashed c a / 2 ^ log2n c.nsub % 2 ^ (c.g + 2),
        rank := s.hashed c a / 2 ^ (log2n c.nsub + c.g + 2) % 2, row := a / 2 ^ (12 + c.h), col := a / 64 % 64 } := by
  simp only [State.dramLoc, parityOf_hashMask]
  rfl

theorem hashed_block (s : State) (c : DramConf) (a : Nat) : s.hashed c (a / 64 * 64) = s.hashed c a := by
  simp only [State.hashed, funext (hashedBit_block s c a)]

theorem dramLoc_block (s : State) (c : DramConf) (a : Nat) : s.dramLoc c (a / 64 * 64) = s.dramLoc c a := by
  have hrow : a / 64 * 64 / 2 ^ (12 + c.h) = a / 2 ^ (12 + c.h) := by
    rw [show 12 + c.h = 6 + (6 + c.h) by omega, Nat.pow_add, ← Nat.div_div_eq_div_mul, ← Nat.div_div_eq_div_mul,
      Nat.mul_div_cancel _ (by decide)]
  rw [dramLoc_eq, dramLoc_eq, hashed_block, hrow, Nat.mul_div_cancel _ (by decide)]

/-- The fields of a location hold all of the hashed bits: with one rank there are none above the banks, with two there is one. -/
theorem hashed_eq (s : State) (c : DramConf) (a : Nat) (hr : c.ranks = 1 ∨ c.ranks = 2) :
    (s.dramLoc c a).sub + 2 ^ log2n c.nsub * ((s.dramLoc c a).bank + 2 ^ (c.g + 2) * (s.dramLoc c a).rank) = s.hashed c a := by
  have hfits : s.hashed c a < 2 ^ log2n c.nsub * (2 ^ (c.g + 2) * 2) := calc
    s.hashed c a < 2 ^ c.h := bitsBelow_lt _ _
    _ ≤ 2 ^ (log2n c.nsub + (c.g + 2 + 1)) := Nat.pow_le_pow_right (by decide) (by unfold DramConf.h; omega)
    _ = 2 ^ log2n c.nsub * (2 ^ (c.g + 2) * 2) := by rw [Nat.pow_add, Nat.pow_succ]
  calc
    _ = s.hashed c a % (2 ^ log2n c.nsub * (2 ^ (c.g + 2) * 2)) := by
      rw [dramLoc_eq, Nat.mod_mul, Nat.mod_mul, Nat.div_div_eq_div_mul, ← Nat.pow_add, Nat.add_assoc]
    _ = s.hashed c a := Nat.mod_eq_of_lt hfits

/-- Settles O46: by `hashed_eq` the fields of a location make up `State.hashed`, which is below `2 ^ H` and has `State.hashedBit` for its
bits; the byte within the block drops out by `dramLoc_block`. -/
theorem hashedBitsAreParities : Obligations.HashedBitsAreParities := by
  unfold Obligations.HashedBitsAreParities
  intro s c a hr
  refine ⟨?_, fun i hi => ?_, congrArg DramLoc.col (dramLoc_eq s c a), congrArg DramLoc.row (dramLoc_eq s c a), dramLoc_block s c a⟩
  · rw [hashed_eq s c a hr]
    exact bitsBelow_lt _ _
  · rw [hashed_eq s c a hr, State.hashed, testBit_bitsBelow, decide_eq_true hi, Bool.true_and]
    rfl

end Sys2Proof.Machine
end

section

namespace Sys2Proof.Machine

/-! ## The check code (R424, R425)

`colSum` is the XOR of the columns of the set bits by recursion on the columns; it is linear in the bits, and so is the check byte. What a
syndrome means turns on its weight: 0, 1 and 8 are no weights of a column, and two columns XOR to an even weight. -/

/-- The XOR of the columns whose bits are set in `v`, the first column for bit 0. -/
def colSum : List Nat → Nat → Nat
  | [], _ => 0
  | c :: cs, v => bif v.testBit 0 then c ^^^ colSum cs (v / 2) else colSum cs (v / 2)

theorem colSum_xor (cols : List Nat) (v w : Nat) : colSum cols (v ^^^ w) = colSum cols v ^^^ colSum cols w := by
  induction cols generalizing v w with
  | nil => simp [colSum]
  | cons c cs ih =>
    have hhalf : (v ^^^ w) / 2 = v / 2 ^^^ w / 2 := Nat.xor_div_two
    simp only [colSum, hhalf, ih, Nat.testBit_xor]
    cases v.testBit 0 <;> cases w.testBit 0 <;>
      simp [Nat.xor_assoc, Nat.xor_left_comm c]

theorem colSum_zero (cols : List Nat) : colSum cols 0 = 0 := by
  simpa using colSum_xor cols 0 0

theorem colSum_two_pow (cols : List Nat) (i : Nat) : colSum cols (2 ^ i) = cols.getD i 0 := by
  induction cols generalizing i with
  | nil => rfl
  | cons c cs ih =>
    cases i with
    | zero => simp [colSum, colSum_zero]
    | succ i => simp [colSum, ih, Nat.pow_succ]

/-- The fold of `xorCols` from column `k` on: bit `k + i` of `v` is bit `i` of `v / 2 ^ k`. -/
theorem foldl_zip_range' (cols : List Nat) (v k acc : Nat) :
    ((cols.zip (List.range' k cols.length)).filter fun x => bit v x.2).foldl (fun acc x => acc ^^^ x.1) acc =
      acc ^^^ colSum cols (v / 2 ^ k) := by
  induction cols generalizing k acc with
  | nil => simp [colSum]
  | cons c cs ih =>
    have hbit : bit v k = (v / 2 ^ k).testBit 0 := by
      rw [Nat.testBit_zero, bit, beq_eq_decide]
    have hhalf : v / 2 ^ k / 2 = v / 2 ^ (k + 1) := by rw [Nat.div_div_eq_div_mul, Nat.pow_succ]
    rw [List.length_cons, List.range'_succ, List.zip_cons_cons, List.filter_cons, colSum, hhalf]
    simp only [hbit]
    cases (v / 2 ^ k).testBit 0 with
    | false => simpa using ih (k + 1) acc
    | true => simpa [Nat.xor_assoc] using ih (k + 1) (acc ^^^ c)

theorem xorCols_eq_colSum (cols : List Nat) (v : Nat) : xorCols cols v = colSum cols v := by
  have h := foldl_zip_range' cols v 0 0
  rw [← List.range_eq_range'] at h
  simpa [xorCols] using h

@[simp] theorem xorCols_xor (cols : List Nat) (v w : Nat) : xorCols cols (v ^^^ w) = xorCols cols v ^^^ xorCols cols w := by
  simp only [xorCols_eq_colSum, colSum_xor]

@[simp] theorem xorCols_zero (cols : List Nat) : xorCols cols 0 = 0 := by
  rw [xorCols_eq_colSum, colSum_zero]

@[simp] theorem xorCols_two_pow (cols : List Nat) (i : Nat) : xorCols cols (2 ^ i) = cols.getD i 0 := by
  rw [xorCols_eq_colSum, colSum_two_pow]

theorem checkByte_xor (d d' f f' : Nat) : checkByte (d ^^^ d') (f ^^^ f') = checkByte d f ^^^ checkByte d' f' := by
  simp only [checkByte, xorCols_xor]
  ac_rfl

theorem xor_checkByte_eq_syndromeOf (d d' f f' e : Nat) :
    checkByte d f ^^^ e ^^^ checkByte d' f' = syndromeOf false ⟨0, d ^^^ d', e, f ^^^ f'⟩ := by
  simp only [checkByte, syndromeOf, xorCols_xor, Bool.false_eq_true, if_false, Nat.xor_zero]
  ac_rfl

theorem syndromeOf_data (b i : Nat) : syndromeOf false ⟨b, 2 ^ i, 0, 0⟩ = dataCols.getD i 0 := by simp [syndromeOf]

theorem syndromeOf_check (b e : Nat) : syndromeOf false ⟨b, 0, e, 0⟩ = e := by simp [syndromeOf]

theorem syndromeOf_fold (b i : Nat) : syndromeOf false ⟨b, 0, 0, 2 ^ i⟩ = foldCols.getD i 0 := by simp [syndromeOf]

theorem syndromeOf_two_folds (b i j : Nat) :
    syndromeOf false ⟨b, 0, 0, 2 ^ i ^^^ 2 ^ j⟩ = foldCols.getD i 0 ^^^ foldCols.getD j 0 := by simp [syndromeOf]

/-! ### Weights -/

theorem weight8_xor_mod_two (x y : Nat) : weight8 (x ^^^ y) % 2 = (weight8 x + weight8 y) % 2 := by
  have hbit : ∀ k, (x ^^^ y) / 2 ^ k % 2 = (x / 2 ^ k % 2 + y / 2 ^ k % 2) % 2 := fun k => by
    rw [Nat.xor_div_two_pow, Nat.xor_mod_two_eq, Nat.add_mod]
  simp only [weight8, ← List.sum_eq_foldl]
  induction List.range 8 with
  | nil => rfl
  | cons k ks ih =>
    simp only [List.map_cons, List.sum_cons, hbit] at ih ⊢
    omega

theorem mem_checkCols {v : Nat} : v ∈ checkCols ↔ v < 256 ∧ (weight8 v = 3 ∨ weight8 v = 5 ∨ weight8 v = 7) := by
  simp only [checkCols, List.mem_append, List.mem_filter, List.mem_range, beq_iff_eq]
  tauto

theorem checkCols_nodup : checkCols.Nodup := by
  have hpart : ∀ k, ((List.range 256).filter fun v => weight8 v == k).Nodup := fun k => List.nodup_range.filter _
  refine ((hpart 3).append (hpart 5) ?_).append (hpart 7) ?_ <;>
    intro v hv hv' <;>
    simp only [List.mem_append, List.mem_filter, beq_iff_eq] at hv hv' <;>
    omega

theorem dataCols_nodup : dataCols.Nodup := checkCols_nodup.sublist (List.take_sublist _ _)

theorem foldCols_nodup : foldCols.Nodup :=
  checkCols_nodup.sublist ((List.take_sublist _ _).trans (List.drop_sublist _ _))

theorem mem_checkCols_of_mem_dataCols {v : Nat} (hv : v ∈ dataCols) : v ∈ checkCols := List.mem_of_mem_take hv

theorem mem_checkCols_of_mem_foldCols {v : Nat} (hv : v ∈ foldCols) : v ∈ checkCols := List.mem_of_mem_drop (List.mem_of_mem_take hv)

theorem not_mem_dataCols_of_mem_foldCols {v : Nat} (hv : v ∈ foldCols) : v ∉ dataCols := fun hd =>
  List.disjoint_take_drop checkCols_nodup (le_refl 32) hd (List.mem_of_mem_take hv)

theorem checkCols_length : checkCols.length = 120 := by decide +kernel

theorem dataCols_length : dataCols.length = 32 := by simp [dataCols, checkCols_length]

theorem foldCols_length : foldCols.length = 40 := by simp [foldCols, checkCols_length]

theorem dataCols_getD_mem {i : Nat} (hi : i < 32) : dataCols.getD i 0 ∈ dataCols := by
  rw [List.getD_eq_getElem _ _ (dataCols_length.symm ▸ hi)]
  exact List.getElem_mem _

theorem foldCols_getD_mem {i : Nat} (hi : i < 40) : foldCols.getD i 0 ∈ foldCols := by
  rw [List.getD_eq_getElem _ _ (foldCols_length.symm ▸ hi)]
  exact List.getElem_mem _

theorem idxOf_dataCols_getD {i : Nat} (hi : i < 32) : dataCols.idxOf (dataCols.getD i 0) = i := by
  rw [List.getD_eq_getElem _ _ (dataCols_length.symm ▸ hi)]
  exact dataCols_nodup.idxOf_getElem _ _

theorem foldCols_getD_ne {i j : Nat} (hi : i < 40) (hj : j < 40) (hij : i ≠ j) : foldCols.getD i 0 ≠ foldCols.getD j 0 := by
  rw [List.getD_eq_getElem _ _ (foldCols_length.symm ▸ hi), List.getD_eq_getElem _ _ (foldCols_length.symm ▸ hj)]
  exact fun h => hij (foldCols_nodup.getElem_inj_iff.1 h)

theorem weight8_eq_one_iff : ∀ s < 256, weight8 s = 1 ↔ ∃ i, i < 8 ∧ s = 2 ^ i := by decide +kernel

/-! ### The kinds of a syndrome -/

theorem weight8_odd_of_mem_checkCols {s : Nat} (hs : s ∈ checkCols) : weight8 s % 2 = 1 := by
  have hw := (mem_checkCols.1 hs).2
  omega

theorem weight8_ne_one_of_mem_checkCols {s : Nat} (hs : s ∈ checkCols) : weight8 s ≠ 1 := by
  have hw := (mem_checkCols.1 hs).2
  omega

theorem ne_zero_of_weight8_odd {s : Nat} (hw : weight8 s % 2 = 1) : s ≠ 0 := by
  rintro rfl
  exact absurd hw (by decide)

/-- The branches of `syndromeKind`, each with what it says of the syndrome. -/
theorem syndromeKind_cases (s : Nat) :
    (s = 0 ∧ syndromeKind s = 0) ∨ (s ∈ dataCols ∧ syndromeKind s = 1) ∨ (weight8 s = 1 ∧ syndromeKind s = 2) ∨
    (s ∈ foldCols ∧ syndromeKind s = 3) ∨ (s = 0xFF ∧ syndromeKind s = 4) ∨
    ((s ≠ 0 ∧ s ∉ dataCols ∧ s ∉ foldCols ∧ weight8 s ≠ 1 ∧ s ≠ 0xFF) ∧ syndromeKind s = 5) := by
  simp only [syndromeKind, List.contains_iff_mem]
  split_ifs <;> simp_all

theorem syndromeKind_zero : syndromeKind 0 = 0 := rfl

theorem syndromeKind_of_mem_dataCols {s : Nat} (hs : s ∈ dataCols) : syndromeKind s = 1 := by
  have hne : s ≠ 0 := ne_zero_of_weight8_odd (weight8_odd_of_mem_checkCols (mem_checkCols_of_mem_dataCols hs))
  simp [syndromeKind, hne, hs]

theorem syndromeKind_of_weight8_one {s : Nat} (hs : weight8 s = 1) : syndromeKind s = 2 := by
  have hne : s ≠ 0 := ne_zero_of_weight8_odd (by rw [hs])
  have hd : s ∉ dataCols := fun hd => weight8_ne_one_of_mem_checkCols (mem_checkCols_of_mem_dataCols hd) hs
  simp [syndromeKind, hne, hd, hs]

theorem syndromeKind_of_mem_foldCols {s : Nat} (hs : s ∈ foldCols) : syndromeKind s = 3 := by
  have hc := mem_checkCols_of_mem_foldCols hs
  have hne : s ≠ 0 := ne_zero_of_weight8_odd (weight8_odd_of_mem_checkCols hc)
  simp [syndromeKind, hne, hs, not_mem_dataCols_of_mem_foldCols hs, weight8_ne_one_of_mem_checkCols hc]

theorem syndromeKind_ff : syndromeKind 0xFF = 4 := by decide +kernel

theorem syndromeKind_eq_zero_iff {s : Nat} : syndromeKind s = 0 ↔ s = 0 :=
  ⟨fun h => by simpa [h] using syndromeKind_cases s, fun h => h ▸ syndromeKind_zero⟩

theorem syndromeKind_eq_one_iff {s : Nat} : syndromeKind s = 1 ↔ s ∈ dataCols :=
  ⟨fun h => by simpa [h] using syndromeKind_cases s, syndromeKind_of_mem_dataCols⟩

theorem syndromeKind_eq_two_iff {s : Nat} : syndromeKind s = 2 ↔ weight8 s = 1 :=
  ⟨fun h => by simpa [h] using syndromeKind_cases s, syndromeKind_of_weight8_one⟩

theorem syndromeKind_eq_three_iff {s : Nat} : syndromeKind s = 3 ↔ s ∈ foldCols :=
  ⟨fun h => by simpa [h] using syndromeKind_cases s, syndromeKind_of_mem_foldCols⟩

theorem syndromeKind_eq_four_iff {s : Nat} : syndromeKind s = 4 ↔ s = 0xFF :=
  ⟨fun h => by simpa [h] using syndromeKind_cases s, fun h => h ▸ syndromeKind_ff⟩

theorem syndromeKind_eq_five_iff {s : Nat} :
    syndromeKind s = 5 ↔ s ≠ 0 ∧ s ∉ dataCols ∧ s ∉ foldCols ∧ weight8 s ≠ 1 ∧ s ≠ 0xFF := by
  refine ⟨fun h => by simpa [h] using syndromeKind_cases s, fun ⟨h0, hd, hf, hw, hp⟩ => ?_⟩
  simpa [h0, hd, hw, hf, hp] using syndromeKind_cases s

/-- No column and no single bit has an even weight, so two wrong bits of the fold word are neither missed nor corrected. -/
theorem four_le_syndromeKind_of_even {s : Nat} (hs : s ≠ 0) (hw : weight8 s % 2 = 0) : 4 ≤ syndromeKind s := by
  have hcol : s ∉ checkCols := fun hc => by
    have hodd := weight8_odd_of_mem_checkCols hc
    omega
  obtain ⟨h, -⟩ | ⟨h, -⟩ | ⟨h, -⟩ | ⟨h, -⟩ | ⟨-, hk⟩ | ⟨-, hk⟩ := syndromeKind_cases s
  · exact absurd h hs
  · exact absurd (mem_checkCols_of_mem_dataCols h) hcol
  · omega
  · exact absurd (mem_checkCols_of_mem_foldCols h) hcol
  · omega
  · omega

/-! ### A read with one failing beat -/

/-- The syndromes of the beats of a block, in the order of the beats, as `blockRead` finds them. -/
def beatSyndromes (errs : List BeatErr) : List Nat :=
  (List.range 16).map fun b => syndromeOf false ((errs.find? fun e => e.beat == b).getD ⟨b, 0, 0, 0⟩)

theorem blockRead_of_find_none {errs : List BeatErr} (h : (beatSyndromes errs).find? (fun s => decide (3 ≤ syndromeKind s)) = none) :
    blockRead false errs = if (beatSyndromes errs).all (· == 0) then .good else .corrected := by
  unfold beatSyndromes at h ⊢
  simp only [blockRead, h]

theorem blockRead_of_find_some {errs : List BeatErr} {s : Nat}
    (h : (beatSyndromes errs).find? (fun s => decide (3 ≤ syndromeKind s)) = some s) :
    blockRead false errs = .bad (syndromeKind s) s := by
  unfold beatSyndromes at h
  simp only [blockRead, h]

theorem syndromeOf_mem_beatSyndromes {e : BeatErr} (hb : e.beat < 16) : syndromeOf false e ∈ beatSyndromes [e] :=
  List.mem_map.2 ⟨e.beat, List.mem_range.2 hb, by simp⟩

theorem eq_or_zero_of_mem_beatSyndromes {e : BeatErr} {s : Nat} (hs : s ∈ beatSyndromes [e]) : s = syndromeOf false e ∨ s = 0 := by
  obtain ⟨b, -, rfl⟩ := List.mem_map.1 hs
  by_cases hb : e.beat = b
  · simp [hb]
  · exact .inr (by simp [hb, syndromeOf])

theorem blockRead_bad {e : BeatErr} (hb : e.beat < 16) (hk : 3 ≤ syndromeKind (syndromeOf false e)) :
    blockRead false [e] = .bad (syndromeKind (syndromeOf false e)) (syndromeOf false e) := by
  cases hf : (beatSyndromes [e]).find? (fun s => decide (3 ≤ syndromeKind s)) with
  | none => exact absurd hk (by simpa using List.find?_eq_none.1 hf _ (syndromeOf_mem_beatSyndromes hb))
  | some s =>
    have hs : 3 ≤ syndromeKind s := by simpa using List.find?_some hf
    obtain rfl | rfl := eq_or_zero_of_mem_beatSyndromes (List.mem_of_find?_eq_some hf)
    · exact blockRead_of_find_some hf
    · exact absurd hs (by decide)

theorem blockRead_corrected {e : BeatErr} (hb : e.beat < 16)
    (hk : syndromeKind (syndromeOf false e) = 1 ∨ syndromeKind (syndromeOf false e) = 2) : blockRead false [e] = .corrected := by
  have h0 : syndromeOf false e ≠ 0 := fun h => by
    rw [h, syndromeKind_zero] at hk
    omega
  have hf : (beatSyndromes [e]).find? (fun s => decide (3 ≤ syndromeKind s)) = none := List.find?_eq_none.2 fun s hs => by
    obtain rfl | rfl := eq_or_zero_of_mem_beatSyndromes hs
    · rw [decide_eq_true_iff]
      omega
    · decide
  have hall : (beatSyndromes [e]).all (· == 0) = false :=
    List.all_eq_false.2 ⟨_, syndromeOf_mem_beatSyndromes hb, by simpa using h0⟩
  rw [blockRead_of_find_none hf, hall]
  rfl

/-! ### What the errors of R425 give -/

theorem syndromeKind_data {i : Nat} (b : Nat) (hi : i < 32) : syndromeKind (syndromeOf false ⟨b, 2 ^ i, 0, 0⟩) = 1 := by
  rw [syndromeOf_data]
  exact syndromeKind_of_mem_dataCols (dataCols_getD_mem hi)

theorem syndromeKind_check {i : Nat} (b : Nat) (hi : i < 8) : syndromeKind (syndromeOf false ⟨b, 0, 2 ^ i, 0⟩) = 2 := by
  have hlt : 2 ^ i < 256 := Nat.pow_lt_pow_right (by decide) hi
  rw [syndromeOf_check]
  exact syndromeKind_of_weight8_one ((weight8_eq_one_iff _ hlt).2 ⟨i, hi, rfl⟩)

theorem syndromeKind_fold {i : Nat} (b : Nat) (hi : i < 40) : syndromeKind (syndromeOf false ⟨b, 0, 0, 2 ^ i⟩) = 3 := by
  rw [syndromeOf_fold]
  exact syndromeKind_of_mem_foldCols (foldCols_getD_mem hi)

theorem four_le_syndromeKind_two_folds {i j : Nat} (b : Nat) (hi : i < 40) (hj : j < 40) (hij : i ≠ j) :
    4 ≤ syndromeKind (syndromeOf false ⟨b, 0, 0, 2 ^ i ^^^ 2 ^ j⟩) := by
  have hwi := weight8_odd_of_mem_checkCols (mem_checkCols_of_mem_foldCols (foldCols_getD_mem hi))
  have hwj := weight8_odd_of_mem_checkCols (mem_checkCols_of_mem_foldCols (foldCols_getD_mem hj))
  rw [syndromeOf_two_folds]
  refine four_le_syndromeKind_of_even (fun h => foldCols_getD_ne hi hj hij (Nat.xor_eq_zero_iff.1 h)) ?_
  rw [weight8_xor_mod_two]
  omega

/-- Settles O49: the check byte is linear (`checkByte_xor`), the columns have odd weights from 3 to 7 (`mem_checkCols`), and so the kinds
of R425 exclude each other and two fold columns never XOR to a column. -/
theorem checkCodeOutcomes : Obligations.CheckCodeOutcomes := by
  unfold Obligations.CheckCodeOutcomes
  refine ⟨fun d d' f f' check e _ _ _ _ hcheck => ?syndrome, fun i _ => ?dataColumn, fun i _ => ?foldColumn, ?zero, checkByte_xor,
    fun b i hb => ⟨fun hi => ?dataRead, fun hi => ?checkRead, fun hi => ?foldRead⟩, fun s hs => ?kinds,
    fun i hi => ⟨syndromeKind_data 0 hi, ?index⟩, fun i hi => syndromeKind_check 0 hi, fun i j hi hj => ⟨?oneFold, fun hij => ?twoFolds⟩⟩
  case syndrome => rw [hcheck, xor_checkByte_eq_syndromeOf]
  case dataColumn => simp [checkByte]
  case foldColumn => simp [checkByte]
  case zero => simp [checkByte]
  case dataRead => exact blockRead_corrected hb (.inl (syndromeKind_data b hi))
  case checkRead => exact blockRead_corrected hb (.inr (syndromeKind_check b hi))
  case foldRead =>
    have hk := syndromeKind_fold b hi
    exact ⟨_, (blockRead_bad hb hk.ge).trans (by rw [hk])⟩
  case kinds =>
    refine ⟨syndromeKind_eq_zero_iff, syndromeKind_eq_one_iff, syndromeKind_eq_two_iff.trans (weight8_eq_one_iff s hs),
      syndromeKind_eq_three_iff, syndromeKind_eq_four_iff, ?_⟩
    rw [syndromeKind_eq_five_iff, ne_eq (weight8 s), weight8_eq_one_iff s hs]
    simp only [not_exists, not_and, ne_eq]
  case index => rw [syndromeOf_data, idxOf_dataCols_getD hi]
  case oneFold => exact (syndromeKind_fold 0 hi).ge
  case twoFolds => exact (by decide : 3 ≤ 4).trans (four_le_syndromeKind_two_folds 0 hi hj hij)

end Sys2Proof.Machine
end

section

namespace Sys2Proof.Machine

/-! ## Refused attempts in the ledger queue (R509, R510)

`ledgerRefusal` has three outcomes, one lemma each: a fold (`ledgerRefusal_folds`), a new entry (`ledgerRefusal_enters`) and a count in
GH_LED_DROP (`ledgerRefusal_drops`). -/

theorem foldable_iff {action : Nat} : foldable action = true ↔ action = 0x11 ∨ action = 0x12 ∨ action = 0x22 := by
  simp [foldable, or_assoc]

theorem foldsWith_iff {s : State} {source action target : Nat} {e : Ledger} :
    s.foldsWith source action target e = true ↔
      e.action = action ∧ e.source = source ∧ e.target = target ∧ s.dtime ≤ e.dtime + 100000000 := by
  simp [State.foldsWith, and_assoc]

/-- The entry a refused attempt makes: RESULT 1, and COUNT 1 before any repetition folds into it (R510). -/
def State.refusedEntry (s : State) (role source action target : Nat) (old new : List Byte) : Ledger :=
  { seq := s.gate.nextSeq, dtime := s.dtime, otp := s.otp.count, role := role, source := source, action := action, target := target,
    count := 1, old := old, new := new, result := 1 }

theorem ledgerAdd_refused {s t : State} {role source action target : Nat} {old new : List Byte}
    (h : s.ledgerAdd role source action target old new 1 = some t) :
    t.gate.queue = s.gate.queue ++ [s.refusedEntry role source action target old new] := by
  unfold State.ledgerAdd at h
  split at h
  · obtain rfl := Option.some.inj h
    rfl
  · cases h

section
variable {s : State} {role source action target : Nat} {old new : List Byte}

theorem ledgerRefusal_folds (ha : foldable action = true) (h : ∃ e ∈ s.gate.queue, s.foldsWith source action target e = true) :
    s.ledgerRefusal role source action target old new =
      { s with gate := { s.gate with
        queue := s.gate.queue.map (fun e => if s.foldsWith source action target e then { e with count := e.count + 1 } else e) } } := by
  unfold State.ledgerRefusal
  rw [if_pos (by simp [ha, h])]

theorem ledgerRefusal_not_folded (h : ∀ e ∈ s.gate.queue, s.foldsWith source action target e = false) :
    s.ledgerRefusal role source action target old new =
      (s.ledgerAdd role source action target old new 1).getD (s.bump GH_LED_DROP GH_LED_DROP_COUNT 1) := by
  unfold State.ledgerRefusal
  rw [if_neg (by simpa using fun _ => h)]
  cases s.ledgerAdd role source action target old new 1 <;> rfl

theorem ledgerRefusal_enters (h : ∀ e ∈ s.gate.queue, s.foldsWith source action target e = false) (hroom : s.gate.queue.length < 64) :
    (s.ledgerRefusal role source action target old new).gate.queue =
      s.gate.queue ++ [s.refusedEntry role source action target old new] := by
  rw [ledgerRefusal_not_folded h]
  cases hadd : s.ledgerAdd role source action target old new 1 with
  | none => exact absurd hroom (Nat.not_lt.2 (ledgerAdd_none.1 hadd))
  | some t => exact ledgerAdd_refused hadd

theorem ledgerRefusal_drops (h : ∀ e ∈ s.gate.queue, s.foldsWith source action target e = false) (hfull : 64 ≤ s.gate.queue.length) :
    s.ledgerRefusal role source action target old new = s.bump GH_LED_DROP GH_LED_DROP_COUNT 1 := by
  rw [ledgerRefusal_not_folded h, ledgerAdd_none.2 hfull]
  rfl

end

/-- A map that changes only the elements p holds of changes the one such element of a list. -/
theorem map_ite_of_unique {α : Type} {p : α → Bool} (f : α → α) {front back : List α} {e : α} (he : p e = true)
    (hn : ∀ x ∈ front ++ back, p x = false) :
    (front ++ e :: back).map (fun x => if p x then f x else x) = front ++ f e :: back := by
  have hid (l : List α) (hl : ∀ x ∈ l, p x = false) : l.map (fun x => if p x then f x else x) = l :=
    (List.map_congr_left fun x hx => if_neg (by simp [hl x hx])).trans l.map_id'
  rw [List.map_append, List.map_cons, if_pos he, hid front fun x hx => hn x (List.mem_append_left _ hx),
    hid back fun x hx => hn x (List.mem_append_right _ hx)]

/-- Settles O54: the entry that folds is the one that `foldsWith` holds of (`map_ite_of_unique`); without one, `ledgerAdd` has room or
the count goes to GH_LED_DROP. -/
theorem refusalsFold : Obligations.RefusalsFold := by
  unfold Obligations.RefusalsFold
  intro s role source action target old new ha t near
  have hfar {x : Ledger} : ¬ near x → s.foldsWith source action target x = false :=
    fun hx => Bool.eq_false_iff.2 fun h => hx (foldsWith_iff.1 h)
  refine ⟨fun front back e hq he hn => ?folds, fun hn hroom => ?enters, fun hn hfull => ?drops⟩
  case folds =>
    have hfe : s.foldsWith source action target e = true := foldsWith_iff.2 he
    have ht : t = _ := ledgerRefusal_folds (foldable_iff.2 ha) ⟨e, by simp [hq], hfe⟩
    rw [ht]
    refine ⟨?_, rfl, rfl⟩
    dsimp only
    rw [hq]
    exact map_ite_of_unique (fun x : Ledger => { x with count := x.count + 1 }) hfe fun x hx => hfar (hn x hx)
  case enters =>
    exact ⟨s.refusedEntry role source action target old new, ledgerRefusal_enters (fun x hx => hfar (hn x hx)) hroom,
      rfl, rfl, rfl, rfl, rfl, rfl, rfl⟩
  case drops =>
    have ht : t = _ := ledgerRefusal_drops (fun x hx => hfar (hn x hx)) hfull
    rw [ht]
    exact ⟨bump_gate _ _ _ _, get_bump_same s _ _ _ (by decide)⟩

end Sys2Proof.Machine
end

section

namespace Sys2Proof.Machine

/-! ## The queue and the device time (R17)

`exec_kept` holds of every command but the release of PORST_N, its assertion and the restart after a loss of supply; the three stand here. -/

section

variable {s t : State}

theorem coldStart_pending (s : State) : s.coldStart.pending = s.pending :=
  congrArg Kept.pending (coldStart_kept s)

theorem coldStart_dtime (s : State) : s.coldStart.dtime = 0 := congrArg Kept.dtime (coldStart_kept s)

theorem exec_porstNAssert_kept {now width : Nat} (h : exec (.porstNAssert now width) s = .next t) :
    t.pending = s.pending ∧ t.dtime = max s.dtime now := by
  obtain rfl := Host.Outcome.next.inj h
  unfold State.when
  split
  · exact ⟨congrArg Kept.pending (porst_kept (s.tick now)), congrArg Kept.dtime (porst_kept (s.tick now))⟩
  · exact ⟨rfl, rfl⟩

theorem exec_porstNRelease_pending {now bootsel : Nat} {compat : Bool} (h : exec (.porstNRelease now bootsel compat) s = .next t) :
    t.pending = s.pending := by
  obtain rfl := Host.Outcome.next.inj h
  unfold State.when
  split
  · exact coldStart_pending _
  · rfl

theorem exec_supplyLossRestart_pending {now : Nat} (h : exec (.supplyLossRestart now) s = .next t) : t.pending = s.pending := by
  obtain rfl := Host.Outcome.next.inj h
  unfold State.when
  split
  · exact coldStart_pending _
  · rfl

theorem exec_supplyLossRestart (s : State) {now : Nat} (h : (s.tick now).lossOver = true) :
    exec (.supplyLossRestart now) s = .next (s.tick now).coldStart := by
  simp [exec, execSupplyLossRestart, h]

theorem exec_pending {c : Instr} (h : exec c s = .next t) : t.pending = s.pending := by
  by_cases hr : ∃ now b k, c = .porstNRelease now b k
  · obtain ⟨now, b, k, rfl⟩ := hr
    exact exec_porstNRelease_pending h
  by_cases ha : ∃ now w, c = .porstNAssert now w
  · obtain ⟨now, w, rfl⟩ := ha
    exact (exec_porstNAssert_kept h).1
  by_cases hl : ∃ now, c = .supplyLossRestart now
  · obtain ⟨now, rfl⟩ := hl
    exact exec_supplyLossRestart_pending h
  exact congrArg Kept.pending
    (exec_kept h (fun _ now b k e => hr ⟨now, b, k, e⟩) (fun now w _ e => ha ⟨now, w, e⟩) fun now e => hl ⟨now, e⟩)

theorem exec_dtime_le {c : Instr} (h : exec c s = .next t) (hr : s.power.porst = true → ∀ now b k, c ≠ .porstNRelease now b k)
    (hl : ∀ now, c ≠ .supplyLossRestart now) : s.dtime ≤ t.dtime := by
  by_cases ha : ∃ now w, c = .porstNAssert now w
  · obtain ⟨now, w, rfl⟩ := ha
    exact (Nat.le_max_left _ _).trans_eq (exec_porstNAssert_kept h).2.symm
  · have hk : t.dtime = max s.dtime c.now := congrArg Kept.dtime (exec_kept h hr (fun now w _ e => ha ⟨now, w, e⟩) hl)
    exact hk ▸ Nat.le_max_left _ _

theorem step_cons {c : Instr} {rest : List Instr} (h : s.pending = c :: rest) : step s = exec c { s with pending := rest } := by
  unfold step
  rw [h]

theorem step_nil (h : s.pending = []) : step s = .next s := by
  unfold step
  rw [h]

end

/-- Settles O1. -/
theorem stepRunsTheFrontCommand : Obligations.StepRunsTheFrontCommand := by
  unfold Obligations.StepRunsTheFrontCommand
  exact ⟨fun _ _ _ => step_cons, fun _ => step_nil⟩

/-- Settles O38. -/
theorem commandsLeaveTheQueue : Obligations.CommandsLeaveTheQueue := by
  unfold Obligations.CommandsLeaveTheQueue
  refine ⟨fun _ _ _ => exec_pending, fun c rest s t hs h => ?_⟩
  rw [step_cons hs] at h
  exact exec_pending h

/-- Settles O40. -/
theorem deviceTimeNeverGoesBack : Obligations.DeviceTimeNeverGoesBack := by
  unfold Obligations.DeviceTimeNeverGoesBack
  exact ⟨fun _ _ _ => exec_dtime_le, fun s now b k hp => ⟨_, exec_porstNRelease hp now b k, coldStart_dtime _⟩,
    fun s now h => ⟨_, exec_supplyLossRestart s h, coldStart_dtime _⟩⟩

end Sys2Proof.Machine
end

section

namespace Sys2Proof.Machine

/-! ## Blending (R210) -/

theorem mul12_zero_right (x : Nat) : mul12 x 0 = 0 := by simp [mul12]

theorem mul12_4095_right {x : Nat} (hx : x ≤ 4095) : mul12 x 4095 = x := by
  rw [mul12_eq_rounded hx (le_refl _)]
  omega

/-- A product is no larger than its second factor, which is at most one. -/
theorem mul12_le_right {x y : Nat} (hx : x ≤ 4095) (hy : y ≤ 4095) : mul12 x y ≤ y := by
  have hp : x * y ≤ 4095 * y := Nat.mul_le_mul_right y hx
  rw [mul12_eq_rounded hx hy]
  omega

theorem blendPx_false (d p : Px) :
    blendPx false d p = ⟨p.a + mul12 d.a (4095 - p.a), min 4095 (p.r + mul12 d.r (4095 - p.a)),
      min 4095 (p.g + mul12 d.g (4095 - p.a)), min 4095 (p.b + mul12 d.b (4095 - p.a))⟩ := rfl

theorem blendPx_opaque {d p : Px} (ha : p.a = 4095) (hr : p.r ≤ 4095) (hg : p.g ≤ 4095) (hb : p.b ≤ 4095) :
    blendPx false d p = ⟨4095, p.r, p.g, p.b⟩ := by
  simp [blendPx_false, ha, mul12_zero_right, hr, hg, hb]

theorem blendPx_transparent {d : Px} (ha : d.a ≤ 4095) (hr : d.r ≤ 4095) (hg : d.g ≤ 4095) (hb : d.b ≤ 4095) :
    blendPx false d ⟨0, 0, 0, 0⟩ = d := by
  simp [blendPx_false, mul12_4095_right, ha, hr, hg, hb]

/-- Settles O44: the alpha by `mul12_le_right`, the two ends by `blendPx_opaque` and `blendPx_transparent`. -/
theorem blendingStaysInRange : Obligations.BlendingStaysInRange := by
  unfold Obligations.BlendingStaysInRange
  intro d p hda hdr hdg hdb hpa hpr hpg hpb o
  have halpha : mul12 d.a (4095 - p.a) ≤ 4095 - p.a := mul12_le_right hda (Nat.sub_le ..)
  refine ⟨rfl, rfl, rfl, rfl, ?_, Nat.min_le_left .., Nat.min_le_left .., Nat.min_le_left ..,
    fun h => blendPx_opaque h hpr hpg hpb, fun h => ?_⟩
  · show p.a + mul12 d.a (4095 - p.a) ≤ 4095
    omega
  · subst h
    exact blendPx_transparent hda hdr hdg hdb

/-! ## Where blocks lie (R421, R422, R430) -/

theorem countP_xor_mod_two {α : Type} (p q : α → Bool) (l : List α) :
    l.countP (fun x => p x ^^ q x) % 2 = (l.countP p + l.countP q) % 2 := by
  induction l with
  | nil => rfl
  | cons x l ih =>
    simp only [List.countP_cons]
    cases p x <;> cases q x <;> simp <;> omega

theorem State.hashedBit_eq (s : State) (c : DramConf) (a i : Nat) :
    s.hashedBit c a i = decide ((List.range 42).countP (fun j => a.testBit j && hashSelects (s.rdN (DR_HASH i)) c.h i j) % 2 = 1) := by
  rw [State.hashedBit, List.countP_eq_length_filter]

/-- Under the default mask hashed bit `i` holds address bit `12 + i`, mixed with bits of the row alone. -/
theorem testBit_eq_of_hashedBit_eq {s : State} {c : DramConf} {a b i : Nat} (hz : s.rdN (DR_HASH i) = 0) (hi : 12 + i < 42)
    (hrow : ∀ j, 12 + c.h ≤ j → a.testBit j = b.testBit j) (h : s.hashedBit c a i = s.hashedBit c b i) :
    a.testBit (12 + i) = b.testBit (12 + i) := by
  by_contra hne
  have hxor : ∀ j ∈ List.range 42, ((a.testBit j && hashSelects 0 c.h i j) ^^ (b.testBit j && hashSelects 0 c.h i j)) = (j == 12 + i) := by
    intro j _
    obtain hj | rfl | hj := Nat.lt_trichotomy j (12 + i)
    · simp [hashSelects, show ¬ 12 + i ≤ j by omega, show j ≠ 12 + i by omega]
    · have hself : hashSelects 0 c.h i (12 + i) = true := by simp [hashSelects]
      have hbits : (a.testBit (12 + i) ^^ b.testBit (12 + i)) = true := by simpa using hne
      simpa [hself] using hbits
    · have hno : (j == 12 + i) = false := beq_false_of_ne (by omega)
      cases hsel : hashSelects 0 c.h i j with
      | false => simp [hno]
      | true =>
        have hmod : (j - (12 + i)) % c.h = 0 := by
          simp only [hashSelects, if_true, Bool.and_eq_true, beq_iff_eq] at hsel
          exact hsel.2
        have hfar : c.h ≤ j - (12 + i) := Nat.le_of_dvd (by omega) (Nat.dvd_of_mod_eq_zero hmod)
        simp [hrow j (by omega), hno]
  have hone : (List.range 42).countP (fun j => (a.testBit j && hashSelects 0 c.h i j) ^^ (b.testBit j && hashSelects 0 c.h i j)) = 1 := by
    rw [List.countP_congr fun j hj => by rw [hxor j hj]]
    exact List.count_eq_one_of_mem List.nodup_range (List.mem_range.2 hi)
  rw [State.hashedBit_eq, State.hashedBit_eq, hz] at h
  have hpar := countP_xor_mod_two (fun j => a.testBit j && hashSelects 0 c.h i j) (fun j => b.testBit j && hashSelects 0 c.h i j) (List.range 42)
  rw [hone] at hpar
  have hiff := decide_eq_decide.1 h
  omega

theorem testBit_ge_eq_of_div_eq {a b n j : Nat} (h : a / 2 ^ n = b / 2 ^ n) (hj : n ≤ j) : a.testBit j = b.testBit j := by
  have hbit := congrArg (·.testBit (j - n)) h
  simpa [Nat.testBit_div_two_pow, Nat.sub_add_cancel hj] using hbit

theorem hashedBit_eq_of_hashed_eq {s : State} {c : DramConf} {a b i : Nat} (h : s.hashed c a = s.hashed c b) (hi : i < c.h) :
    s.hashedBit c a i = s.hashedBit c b i := by
  have hbit := congrArg (·.testBit i) h
  simpa [State.hashed, testBit_bitsBelow, hi] using hbit

/-- Settles O47: the column gives bits 6 to 11, the row those from 12 + H, and `testBit_eq_of_hashedBit_eq` the hashed ones between. -/
theorem defaultHashIsInjective : Obligations.DefaultHashIsInjective := by
  unfold Obligations.DefaultHashIsInjective
  intro s c a b hr hz ha hb hloc
  have hcol : a / 64 % 64 = b / 64 % 64 := by simpa [dramLoc_eq] using congrArg DramLoc.col hloc
  have hrow : a / 2 ^ (12 + c.h) = b / 2 ^ (12 + c.h) := by simpa [dramLoc_eq] using congrArg DramLoc.row hloc
  have hhash : s.hashed c a = s.hashed c b := by rw [← hashed_eq s c a hr, ← hashed_eq s c b hr, hloc]
  have hhigh : ∀ j, 12 + c.h ≤ j → a.testBit j = b.testBit j := fun j hj => testBit_ge_eq_of_div_eq hrow hj
  have hmid : ∀ j, 12 ≤ j → a.testBit j = b.testBit j := by
    intro j hj
    obtain hlarge | hsmall := Nat.lt_or_ge j 42
    · obtain hrowBit | hhashBit := Nat.lt_or_ge j (12 + c.h)
      · have hbit := testBit_eq_of_hashedBit_eq (i := j - 12) (hz _ (by omega)) (by omega) hhigh
          (hashedBit_eq_of_hashed_eq hhash (by omega))
        rwa [Nat.add_sub_cancel' hj] at hbit
      · exact hhigh j hhashBit
    · have hpow : 2 ^ 42 ≤ 2 ^ j := Nat.pow_le_pow_right (by decide) hsmall
      rw [Nat.testBit_lt_two_pow (ha.trans_le hpow), Nat.testBit_lt_two_pow (hb.trans_le hpow)]
  have htop : a / 64 / 64 = b / 64 / 64 := by
    refine Nat.eq_of_testBit_eq fun j => ?_
    have hbit := hmid (12 + j) (by omega)
    rw [Nat.div_div_eq_div_mul, Nat.div_div_eq_div_mul, show 64 * 64 = 2 ^ 12 from rfl, Nat.testBit_div_two_pow, Nat.testBit_div_two_pow,
      Nat.add_comm j 12]
    exact hbit
  omega

theorem nsub_le (c : DramConf) : c.nsub ≤ 8 := by
  unfold DramConf.nsub maskSubs
  exact (List.length_filter_le ..).trans_eq List.length_range

theorem log2n_le_three {n : Nat} (h : n ≤ 8) : log2n n ≤ 3 := by
  interval_cases n <;> decide

/-- A row of all banks is at most 2 MiB, the unit of the windows. -/
theorem dramConf_h_le (c : DramConf) (hr : c.ranks = 1 ∨ c.ranks = 2) : c.h ≤ 9 := by
  have hn := log2n_le_three (nsub_le c)
  have hg : c.g ≤ 3 := by
    unfold DramConf.g
    split <;> omega
  unfold DramConf.h
  omega

theorem windowOffset_lt {ws : List (Nat × Nat)} {a : Nat} (h : ws.any (fun w => decide (w.1 ≤ a) && decide (a < w.1 + w.2)) = true) (acc : Nat) :
    windowOffset ws a acc < acc + (ws.map (·.2)).sum := by
  induction ws generalizing acc with
  | nil => simp at h
  | cons w ws ih =>
    rw [windowOffset, List.map_cons, List.sum_cons]
    split
    · omega
    · next hout =>
      have hrest : ws.any (fun w => decide (w.1 ≤ a) && decide (a < w.1 + w.2)) = true := by
        simpa [show ¬ (w.1 ≤ a ∧ a < w.1 + w.2) from hout] using h
      have := ih hrest (acc + w.2)
      omega

theorem mirTot_eq_sum (s : State) : s.mirTot = (s.windows.map (·.2)).sum := by
  rw [State.mirTot, List.sum_eq_foldl]

theorem dvd_mirTot (s : State) : 2 ^ 21 ∣ s.mirTot := by
  rw [mirTot_eq_sum]
  refine List.dvd_sum fun n hn => ?_
  simp only [State.windows, List.map_cons, List.map_map, List.mem_cons, List.mem_map] at hn
  obtain rfl | ⟨i, _, rfl⟩ := hn
  · decide
  · exact Dvd.intro_left _ rfl

theorem windowOffset_row_lt {s : State} {c : DramConf} {a : Nat} (hr : c.ranks = 1 ∨ c.ranks = 2) (hm : s.mirrored a = true) :
    windowOffset s.windows a 0 / 2 ^ (12 + c.h) < s.mirTot / 2 ^ (12 + c.h) := by
  have hdvd : 2 ^ (12 + c.h) ∣ s.mirTot :=
    (Nat.pow_dvd_pow 2 (by have := dramConf_h_le c hr; omega)).trans (dvd_mirTot s)
  rw [Nat.div_lt_iff_lt_mul (Nat.two_pow_pos _), Nat.div_mul_cancel hdvd, mirTot_eq_sum]
  simpa using windowOffset_lt hm 0

theorem xor_half_apart {n x : Nat} (hn : n = 2 ∨ n = 4 ∨ n = 8) (hx : x < n) : x ^^^ (n / 2) ≠ x ∧ x ^^^ (n / 2) < n := by
  obtain rfl | rfl | rfl := hn <;> revert x <;> decide

theorem dramLoc_sub_lt (s : State) (c : DramConf) (a : Nat) (hn : c.nsub = 2 ∨ c.nsub = 4 ∨ c.nsub = 8) : (s.dramLoc c a).sub < c.nsub := by
  have hpow : 2 ^ log2n c.nsub = c.nsub := by obtain h | h | h := hn <;> rw [h] <;> decide
  rw [dramLoc_eq, hpow]
  exact Nat.mod_lt _ (by omega)

/-- Settles O48: the sub-channels differ by `xor_half_apart`; the row of copy 1 counts from the first shadow row by `windowOffset_row_lt`. -/
theorem mirrorCopiesLieApart : Obligations.MirrorCopiesLieApart := by
  unfold Obligations.MirrorCopiesLieApart
  intro s c a hr hn hm hrows l0 l1
  obtain ⟨hne, hlt⟩ := xor_half_apart hn (dramLoc_sub_lt s c a hn)
  have hoff := windowOffset_row_lt hr hm
  refine ⟨hne, hlt, rfl, rfl, rfl, Nat.le_add_right .., ?_⟩
  show rowsOfDensity c.density - s.mirTot / 2 ^ (12 + c.h) + windowOffset s.windows a 0 / 2 ^ (12 + c.h) < rowsOfDensity c.density
  omega

end Sys2Proof.Machine
end

section

namespace Sys2Proof.Machine

/-! ## Field by field (R8, R492 to R495)

Both the word that a write leaves and the filter of the checks are folds over a register's fields, each of which touches its own bits; so a
field holds what its own step gave it (`foldl_field`), and bits in no field stay. -/

/-- Two fields of one word that share no bit. -/
def Fld.apart (f g : Fld) : Prop := f.lo + f.w ≤ g.lo ∨ g.lo + g.w ≤ f.lo

theorem Fld.apart_comm {f g : Fld} (h : f.apart g) : g.apart f := Or.symm h

theorem getField_lt (x : Word) (f : Fld) : getField x f < 2 ^ f.w := Nat.mod_lt _ (Nat.two_pow_pos _)

theorem getField_putField_get (x y : Word) (f : Fld) (h : f.lo + f.w ≤ 32) : getField (putField x f (getField y f)) f = getField y f := by
  rw [getField_putField_same _ _ _ h, Nat.mod_eq_of_lt (getField_lt y f)]

theorem testBit_eq_getField (x : Word) (i : Nat) : x.toNat.testBit i = decide (getField x ⟨i, 1⟩ = 1) := by
  rw [Nat.testBit_eq_decide_div_mod_eq]
  rfl

theorem testBit_sub_and (o n i : Nat) : (o - (o &&& n)).testBit i = (o.testBit i && !n.testBit i) := by
  induction i generalizing o n with
  | zero =>
    have hle : o &&& n ≤ o := Nat.and_le_left
    have hmod : (o &&& n) % 2 = o % 2 &&& n % 2 := Nat.and_mod_two_pow (n := 1)
    generalize o &&& n = d at hle hmod ⊢
    obtain ho | ho := Nat.mod_two_eq_zero_or_one o <;> obtain hn | hn := Nat.mod_two_eq_zero_or_one n <;>
      simp [Nat.testBit_zero, ho, hn] at hmod ⊢ <;> omega
  | succ i ih =>
    have hdiv : (o &&& n) / 2 = o / 2 &&& n / 2 := Nat.and_div_two
    have hmod : (o &&& n) % 2 = o % 2 &&& n % 2 := Nat.and_mod_two_pow (n := 1)
    have hle : o / 2 &&& n / 2 ≤ o / 2 := Nat.and_le_left
    have hle' : o % 2 &&& n % 2 ≤ o % 2 := Nat.and_le_left
    have hhalf : (o - (o &&& n)) / 2 = o / 2 - (o / 2 &&& n / 2) := by
      rw [← hmod] at hle'
      rw [← hdiv] at hle ⊢
      generalize o &&& n = d at hle hle' ⊢
      omega
    rw [Nat.testBit_succ, Nat.testBit_succ, Nat.testBit_succ, hhalf, ih]

section

variable {β : Type} {word : β → Word} {step : β → FieldRow → β} {fields : List FieldRow}

/-- A fold whose steps each leave every field apart from their own. -/
theorem foldl_apart (hstep : ∀ b f, f ∈ fields → ∀ g : Fld, f.fld.apart g → getField (word (step b f)) g = getField (word b) g)
    (g : Fld) (hg : ∀ f ∈ fields, f.fld.apart g) (b : β) : getField (word (fields.foldl step b)) g = getField (word b) g := by
  induction fields generalizing b with
  | nil => rfl
  | cons f fs ih =>
    rw [List.foldl_cons, ih (fun b f hf => hstep b f (List.mem_cons_of_mem _ hf)) fun f hf => hg f (List.mem_cons_of_mem _ hf)]
    exact hstep b f List.mem_cons_self g (hg f List.mem_cons_self)

/-- A field reads after the fold what its own step made of what it read at first. -/
theorem foldl_field {old : Word} {v : FieldRow → Nat}
    (hstep : ∀ b f, f ∈ fields → ∀ g : Fld, f.fld.apart g → getField (word (step b f)) g = getField (word b) g)
    (hdis : fields.Pairwise fun f g => f.fld.apart g.fld)
    (hv : ∀ b f, f ∈ fields → getField (word b) f.fld = getField old f.fld → getField (word (step b f)) f.fld = v f)
    (b : β) (hb : ∀ f ∈ fields, getField (word b) f.fld = getField old f.fld) :
    ∀ f ∈ fields, getField (word (fields.foldl step b)) f.fld = v f := by
  induction fields generalizing b with
  | nil => simp
  | cons f fs ih =>
    obtain ⟨hf, hfs⟩ := List.pairwise_cons.1 hdis
    have hstep' : ∀ b g, g ∈ fs → ∀ k : Fld, g.fld.apart k → getField (word (step b g)) k = getField (word b) k :=
      fun b g hg => hstep b g (List.mem_cons_of_mem _ hg)
    intro g hg
    rw [List.foldl_cons]
    obtain rfl | hg := List.mem_cons.1 hg
    · rw [foldl_apart hstep' _ fun k hk => Fld.apart_comm (hf k hk)]
      exact hv b g List.mem_cons_self (hb g List.mem_cons_self)
    · refine ih hstep' hfs (fun b k hk => hv b k (List.mem_cons_of_mem _ hk)) _ (fun k hk => ?_) g hg
      rw [hstep b f List.mem_cons_self _ (hf k hk)]
      exact hb k (List.mem_cons_of_mem _ hk)

end

/-- What a field holds after a write (R8). -/
def landValue (old w : Word) (f : FieldRow) : Nat :=
  let o := getField old f.fld
  let n := getField w f.fld
  match f.acc with
  | .rw | .rwp | .wo => n
  | .ro => o
  | .w1c => o - (o &&& n)
  | .w1s => o ||| n

theorem landField_apart (old w cur : Word) {f : FieldRow} {g : Fld} (hf : f.lo + f.w ≤ 32) (h : f.fld.apart g) :
    getField (landField old w cur f) g = getField cur g := by
  have hput : ∀ v, getField (putField cur f.fld v) g = getField cur g := fun v =>
    getField_putField_apart _ _ _ _ hf (Fld.apart_comm h)
  unfold landField
  cases f.acc with
  | ro => rfl
  | _ => exact hput _

theorem landField_same (old w cur : Word) {f : FieldRow} (hf : f.lo + f.w ≤ 32) (hcur : getField cur f.fld = getField old f.fld) :
    getField (landField old w cur f) f.fld = landValue old w f := by
  have hput : ∀ v, v < 2 ^ f.w → getField (putField cur f.fld v) f.fld = v := fun v hv =>
    (getField_putField_same _ _ _ hf).trans (Nat.mod_eq_of_lt hv)
  have ho := getField_lt old f.fld
  have hn := getField_lt w f.fld
  unfold landField landValue
  cases f.acc with
  | ro => exact hcur
  | rw | rwp | wo => exact hput _ hn
  | w1c => exact hput _ ((Nat.sub_le _ _).trans_lt ho)
  | w1s => exact hput _ (Nat.or_lt_two_pow ho hn)

section

variable {r : RegRow} (hin : ∀ f ∈ r.fields, f.lo + f.w ≤ 32)

include hin

theorem getField_landWord (old w : Word) (hdis : r.fields.Pairwise fun f g => f.fld.apart g.fld) {f : FieldRow} (hf : f ∈ r.fields) :
    getField (landWord old w r) f.fld = landValue old w f :=
  foldl_field (word := id) (step := landField old w) (fun _ _ hg _ => landField_apart old w _ (hin _ hg)) hdis
    (fun _ _ hg => landField_same old w _ (hin _ hg)) old (fun _ _ => rfl) f hf

theorem getField_landWord_apart (old w : Word) {g : Fld} (hg : ∀ f ∈ r.fields, f.fld.apart g) :
    getField (landWord old w r) g = getField old g :=
  foldl_apart (word := id) (step := landField old w) (fun _ _ hf _ => landField_apart old w _ (hin _ hf)) g hg old

end

/-- Settles O50: a field by `getField_landWord`, a bit in no field as a field of width 1 apart from all. -/
theorem writesFollowAccessCodes : Obligations.WritesFollowAccessCodes := by
  unfold Obligations.WritesFollowAccessCodes
  intro old w r hin hdis
  refine ⟨fun f hf => ?_, fun i _ hi => ?_⟩
  · intro o n x
    have hx : x = landValue old w f := getField_landWord hin old w hdis hf
    refine ⟨?_, fun h => ?_, fun h i => ?_, fun h i => ?_⟩
    · rintro (h | h | h) <;> simp [hx, landValue, h, n]
    · simp [hx, landValue, h, o]
    · rw [hx, ← testBit_sub_and]
      simp [landValue, h, o, n]
    · rw [hx, ← Nat.testBit_or]
      simp [landValue, h, o, n]
  · rw [testBit_eq_getField, testBit_eq_getField,
      getField_landWord_apart hin old w fun f hf => Fld.apart_comm (f := ⟨i, 1⟩) ((hi f hf).imp Nat.succ_le_of_lt id)]

/-! ### The filter of checks 3 and 4 -/

/-- Where a source lacks the right to a field marked (I) (R488, R495). -/
theorem fieldRight_eq_false {s : State} {src : Src} (h : (∃ p, src = .host p) ∨ (s.sessionOpen = false ∧ s.locked = true)) (a : Nat)
    (f : FieldRow) : s.fieldRight src a f = false := by
  obtain ⟨p, rfl⟩ | ⟨hses, hlock⟩ := h <;> simp [State.fieldRight, State.installerFor, *]

/-- The registers of the Gatehouse that the filter records refusals in. -/
def filterWords : List Nat := [GH_STAT, GH_LED_HEAD, GH_LED_STAT, GH_LED_DROP]

theorem ledgerAdd_rd {s t : State} {role source action target result : Nat} {old new : List Byte} {a : Nat}
    (h : s.ledgerAdd role source action target old new result = some t) (ha : a ≠ GH_LED_HEAD) (ha' : a ≠ GH_LED_STAT) :
    t.rd a = s.rd a := by
  unfold State.ledgerAdd at h
  split at h <;> cases h
  rw [rd_put_ne _ _ _ ha', rd_wrN_ne _ _ ha]
  rfl

theorem ledgerRefusal_rd (s : State) (role source action target : Nat) (old new : List Byte) {a : Nat}
    (h : a ∉ [GH_LED_HEAD, GH_LED_STAT, GH_LED_DROP]) : (s.ledgerRefusal role source action target old new).rd a = s.rd a := by
  simp only [List.mem_cons, List.not_mem_nil, or_false, not_or] at h
  obtain ⟨hhead, hstat, hdrop⟩ := h
  unfold State.ledgerRefusal
  split
  · rfl
  · split
    · next e => exact ledgerAdd_rd e hhead hstat
    · exact rd_bump_ne _ _ _ hdrop

theorem sessionOpen_congr {s t : State} (h : t.rd GH_SES_STAT = s.rd GH_SES_STAT) : t.sessionOpen = s.sessionOpen := by
  unfold State.sessionOpen State.get
  rw [h]

section

variable (src : Src) (a value : Nat)

/-- A step of the filter leaves every register but the Gatehouse's records. -/
theorem filterField_rd (acc : Filtered) (f : FieldRow) {b : Nat} (hb : b ∉ filterWords) :
    (filterField src a value acc f).s.rd b = acc.s.rd b := by
  simp only [filterWords, List.mem_cons, not_or] at hb
  obtain ⟨hstat, hled⟩ := hb
  have hput : ∀ (s : State) g v, (s.put GH_STAT g v).rd b = s.rd b := fun s g v => rd_put_ne s g v hstat
  have hres : ∀ (s : State) role source action target old new,
      (s.ledgerRefusal role source action target old new).rd b = s.rd b :=
    fun s _ _ _ _ _ _ => ledgerRefusal_rd s _ _ _ _ _ _ (by simpa using hled)
  unfold filterField
  dsimp only
  split_ifs <;> simp only [hput, hres]

/-- A step of the filter changes the word in its own field alone. -/
theorem filterField_apart (acc : Filtered) {f : FieldRow} {g : Fld} (hf : f.lo + f.w ≤ 32) (h : f.fld.apart g) :
    getField (filterField src a value acc f).word g = getField acc.word g := by
  have hput : ∀ v, getField (putField acc.word f.fld v) g = getField acc.word g := fun v =>
    getField_putField_apart _ _ _ _ hf (Fld.apart_comm h)
  unfold filterField
  dsimp only
  split_ifs <;> simp only [hput]

theorem filterField_denied (acc : Filtered) (f : FieldRow) (h : acc.denied = true) : (filterField src a value acc f).denied = true := by
  unfold filterField
  dsimp only
  split_ifs <;> simp only [h]

theorem get_ledgerRefusal (s : State) (role source action target : Nat) (old new : List Byte) (g : Fld) :
    (s.ledgerRefusal role source action target old new).get GH_STAT g = s.get GH_STAT g := by
  unfold State.get
  rw [ledgerRefusal_rd _ _ _ _ _ _ _ (by decide)]

/-- LOCK_VIOL, once set, stays through the filter. -/
theorem filterField_lockViol (acc : Filtered) (f : FieldRow) (h : acc.s.get GH_STAT GH_STAT_LOCK_VIOL = 1) :
    (filterField src a value acc f).s.get GH_STAT GH_STAT_LOCK_VIOL = 1 := by
  have hset : ∀ s : State, (s.put GH_STAT GH_STAT_LOCK_VIOL 1).get GH_STAT GH_STAT_LOCK_VIOL = 1 := fun s => get_put_same s _ _ _ (by decide)
  have hwo : ∀ s : State, (s.put GH_STAT GH_STAT_WO_REWRITE 1).get GH_STAT GH_STAT_LOCK_VIOL = s.get GH_STAT GH_STAT_LOCK_VIOL :=
    fun s => get_put_apart s _ _ _ _ (by decide) (by decide)
  unfold filterField
  dsimp only
  split_ifs <;> simp only [get_ledgerRefusal, hset, hwo, h]

variable {src a value}

/-- The step of a field marked (I) whose right the source lacks keeps the field's value. -/
theorem filterField_locked_word {acc : Filtered} {f : FieldRow} (hf : f.lo + f.w ≤ 32) (hi : f.inst = true)
    (hr : acc.s.fieldRight src a f = false) : getField (filterField src a value acc f).word f.fld = acc.s.get a f.fld := by
  have hkeep : getField (putField acc.word f.fld (acc.s.get a f.fld)) f.fld = acc.s.get a f.fld := getField_putField_get _ _ _ hf
  unfold filterField
  simp only [hi, hr, Bool.not_false, Bool.and_self, if_true]
  split_ifs <;> exact hkeep

/-- The step of a field marked (I) that a write would move denies it. -/
theorem filterField_locked_denied {acc : Filtered} {f : FieldRow} (hi : f.inst = true) (hr : acc.s.fieldRight src a f = false)
    (hacc : f.acc = .rw ∨ f.acc = .rwp) (hcls : f.cls ≠ .e) (hne : acc.s.get a f.fld ≠ getField (BitVec.ofNat 32 value) f.fld) :
    (filterField src a value acc f).denied = true ∧ (filterField src a value acc f).s.get GH_STAT GH_STAT_LOCK_VIOL = 1 := by
  have hset : ∀ s : State, (s.put GH_STAT GH_STAT_LOCK_VIOL 1).get GH_STAT GH_STAT_LOCK_VIOL = 1 := fun s => get_put_same s _ _ _ (by decide)
  have hro : (f.acc == .ro) = false := by obtain h | h := hacc <;> rw [h] <;> rfl
  have hw1s : (f.acc == .w1s) = false := by obtain h | h := hacc <;> rw [h] <;> rfl
  have he : (f.cls == .e) = false := beq_false_of_ne hcls
  have hmoves : (acc.s.get a f.fld == getField (BitVec.ofNat 32 value) f.fld) = false := beq_false_of_ne hne
  unfold filterField
  simp [hi, hr, hro, hw1s, he, hmoves, get_ledgerRefusal, hset]

end

/-- The lock is no bit that the filter writes. -/
theorem filterField_locked (src : Src) (a value : Nat) (acc : Filtered) (f : FieldRow) :
    (filterField src a value acc f).s.locked = acc.s.locked := by
  have hput : ∀ (s : State) g v, g = GH_STAT_WO_REWRITE ∨ g = GH_STAT_LOCK_VIOL → (s.put GH_STAT g v).locked = s.locked := by
    intro s g v hg
    have hget : (s.put GH_STAT g v).get GH_STAT GH_STAT_LOCKED = s.get GH_STAT GH_STAT_LOCKED := by
      obtain rfl | rfl := hg <;> exact get_put_apart s _ _ _ _ (by decide) (by decide)
    simp only [State.locked, State.on, hget]
  have hres : ∀ (s : State) role source action target old new, (s.ledgerRefusal role source action target old new).locked = s.locked := by
    intro s role source action target old new
    simp only [State.locked, State.on, get_ledgerRefusal]
  unfold filterField
  dsimp only
  split_ifs <;> simp only [hput _ _ _ (.inl rfl), hput _ _ _ (.inr rfl), hres]

/-- A source that lacks the right lacks it through the filter, and the fields of a register outside the Gatehouse's records read as at its
begin. -/
structure Filtering (s : State) (src : Src) (a : Nat) (acc : Filtered) : Prop where
  get : ∀ f, acc.s.get a f = s.get a f
  locked : (∃ p, src = .host p) ∨ (acc.s.sessionOpen = false ∧ acc.s.locked = true)

theorem Filtering.fieldRight {s : State} {src : Src} {a : Nat} {acc : Filtered} (h : Filtering s src a acc) (f : FieldRow) :
    acc.s.fieldRight src a f = false := fieldRight_eq_false h.locked a f

theorem Filtering.step {s : State} {src : Src} {a : Nat} {acc : Filtered} (h : Filtering s src a acc) (ha : a ∉ filterWords)
    (value : Nat) (f : FieldRow) : Filtering s src a (filterField src a value acc f) where
  get g := by
    rw [← h.get g]
    unfold State.get
    rw [filterField_rd src a value acc f ha]
  locked := by
    refine h.locked.imp_right fun ⟨hses, hlock⟩ => ⟨?_, (filterField_locked src a value acc f).trans hlock⟩
    rw [sessionOpen_congr (filterField_rd src a value acc f (by decide)), hses]

theorem Filtering.foldl {s : State} {src : Src} {a : Nat} (ha : a ∉ filterWords) (value : Nat) (fs : List FieldRow) {acc : Filtered}
    (h : Filtering s src a acc) : Filtering s src a (fs.foldl (filterField src a value) acc) := by
  induction fs generalizing acc with
  | nil => exact h
  | cons f fs ih => exact ih (h.step ha value f)

theorem filter_foldl_denied {src : Src} {a value : Nat} (fs : List FieldRow) {acc : Filtered}
    (h : acc.denied = true ∧ acc.s.get GH_STAT GH_STAT_LOCK_VIOL = 1) :
    (fs.foldl (filterField src a value) acc).denied = true ∧ (fs.foldl (filterField src a value) acc).s.get GH_STAT GH_STAT_LOCK_VIOL = 1 := by
  induction fs generalizing acc with
  | nil => exact h
  | cons f fs ih => exact ih ⟨filterField_denied src a value acc f h.1, filterField_lockViol src a value acc f h.2⟩

/-- The filter of a source without the right, cut at one field: what comes before it leaves its value to be read, and what comes after it
leaves what it did. -/
theorem filterWord_split {s : State} {src : Src} {a value : Nat} {r : RegRow} {before after : List FieldRow} {f : FieldRow}
    (hr : r.fields = before ++ f :: after) (ha : a ∉ filterWords)
    (hlock : (∃ p, src = .host p) ∨ (s.sessionOpen = false ∧ s.locked = true)) :
    ∃ acc, Filtering s src a acc ∧ filterWord s src a value r = after.foldl (filterField src a value) (filterField src a value acc f) := by
  refine ⟨before.foldl (filterField src a value) ⟨s, BitVec.ofNat 32 value, false, false⟩, ?_, ?_⟩
  · exact Filtering.foldl ha value before ⟨fun _ => rfl, hlock⟩
  · simp [filterWord, hr]

/-- Settles O53: the field's own step keeps its value and denies the write; the steps before and after it touch other bits. -/
theorem lockedFieldsStay : Obligations.LockedFieldsStay := by
  unfold Obligations.LockedFieldsStay
  intro s src a value r _ hin hdis h1 h2 h3 h4 hlock f hf hi
  have ha : a ∉ filterWords := by simp [filterWords, h1, h2, h3, h4]
  obtain ⟨before, after, hr⟩ := List.append_of_mem hf
  obtain ⟨acc, hacc, hword⟩ := filterWord_split (value := value) hr ha hlock
  have hafter : ∀ g ∈ after, g.fld.apart f.fld := fun g hg => by
    rw [hr] at hdis
    exact Fld.apart_comm ((List.pairwise_cons.1 (List.pairwise_append.1 hdis).2.1).1 g hg)
  have hrange : ∀ g ∈ after, g.lo + g.w ≤ 32 := fun g hg => hin g (by simp [hr, hg])
  rw [hword, ← hacc.get]
  refine ⟨?_, fun hrw hcls hne => ?_⟩
  · rw [foldl_apart (word := Filtered.word) (fun acc g hg _ => filterField_apart src a value acc (hrange g hg)) _ hafter]
    exact filterField_locked_word (hin f hf) hi (hacc.fieldRight f)
  · exact filter_foldl_denied after (filterField_locked_denied hi (hacc.fieldRight f) hrw hcls hne)

end Sys2Proof.Machine
end

section

namespace Sys2Proof.Machine

/-! ## Descriptors and records as bytes (R272 to R274)

A structure's bytes are its fields in a row. Reading a field passes over the fields before it (`bytesAt_append_right`); and the parts of a byte list
that follow one another make up the list (`bytesAt_add`). -/

theorem length_leBytes (n v : Nat) : (leBytes n v).length = n := by
  induction n generalizing v with
  | zero => rfl
  | succ n ih => exact congrArg (· + 1) (ih _)

theorem leNat_leBytes (n v : Nat) : leNat (leBytes n v) = v % 256 ^ n := by
  induction n generalizing v with
  | zero => simp [leBytes, leNat, Nat.mod_one]
  | succ n ih =>
    have hbyte : (BitVec.ofNat 8 v).toNat = v % 256 := BitVec.toNat_ofNat ..
    rw [leBytes, leNat, ih, hbyte, Nat.pow_succ', Nat.mod_mul]

theorem leNat_lt (bs : List Byte) : leNat bs < 256 ^ bs.length := by
  induction bs with
  | nil => simp [leNat]
  | cons b bs ih =>
    have hb : b.toNat < 256 := b.isLt
    rw [leNat, List.length_cons, Nat.pow_succ]
    omega

theorem leBytes_leNat (bs : List Byte) : leBytes bs.length (leNat bs) = bs := by
  induction bs with
  | nil => rfl
  | cons b bs ih =>
    have hb : b.toNat < 256 := b.isLt
    have hhead : BitVec.ofNat 8 (b.toNat + 256 * leNat bs) = b := by
      apply BitVec.eq_of_toNat_eq
      rw [BitVec.toNat_ofNat]
      omega
    have htail : (b.toNat + 256 * leNat bs) / 256 = leNat bs := by omega
    rw [List.length_cons, leNat, leBytes, hhead, htail, ih]

@[simp] theorem length_bytesAt (bs : List Byte) (off n : Nat) : (bytesAt bs off n).length = n := by simp [bytesAt]

theorem bytesAt_add (bs : List Byte) (off n m : Nat) : bytesAt bs off n ++ bytesAt bs (off + n) m = bytesAt bs off (n + m) := by
  simp [bytesAt, List.range_add, Function.comp_def, Nat.add_assoc]

theorem bytesAt_join (bs : List Byte) {off off' n : Nat} (h : off + n = off') (m : Nat) :
    bytesAt bs off n ++ bytesAt bs off' m = bytesAt bs off (n + m) := h ▸ bytesAt_add bs off n m

theorem bytesAt_self (bs : List Byte) : bytesAt bs 0 bs.length = bs := by
  refine List.ext_getElem (by simp) fun i _ hi => ?_
  simp [bytesAt, List.getD_eq_getElem?_getD, List.getElem?_eq_getElem hi]

theorem bytesAt_append_right (xs ys : List Byte) {off : Nat} (h : xs.length ≤ off) (n : Nat) :
    bytesAt (xs ++ ys) off n = bytesAt ys (off - xs.length) n := by
  refine List.map_congr_left fun i _ => ?_
  rw [List.getD_append_right _ _ _ _ (by omega), Nat.sub_add_comm h]

theorem bytesAt_append_add (ys : List Byte) {xs : List Byte} {m : Nat} (h : xs.length = m) (k n : Nat) :
    bytesAt (xs ++ ys) (m + k) n = bytesAt ys k n := by
  rw [bytesAt_append_right _ _ (h ▸ Nat.le_add_right ..), h, Nat.add_sub_cancel_left]

theorem bytesAt_append_left (xs ys : List Byte) {n : Nat} (h : xs.length = n) : bytesAt (xs ++ ys) 0 n = xs := by
  subst h
  refine (List.map_congr_left fun i hi => ?_).trans (bytesAt_self xs)
  rw [List.getD_append _ _ _ _ (by simpa using hi)]

/-! ### One field -/

theorem fieldAt_leBytes_zero (n v : Nat) (ys : List Byte) : fieldAt (leBytes n v ++ ys) 0 n = v % 256 ^ n := by
  rw [fieldAt, bytesAt_append_left _ _ (length_leBytes n v), leNat_leBytes]

theorem fieldAt_leBytes_pass {m off : Nat} (h : m ≤ off) (v : Nat) (ys : List Byte) (n : Nat) :
    fieldAt (leBytes m v ++ ys) off n = fieldAt ys (off - m) n := by
  rw [fieldAt, bytesAt_append_right _ _ (by rwa [length_leBytes]), length_leBytes]
  rfl

theorem leBytes_fieldAt (bs : List Byte) (off n : Nat) : leBytes n (fieldAt bs off n) = bytesAt bs off n := by
  have h := leBytes_leNat (bytesAt bs off n)
  rwa [length_bytesAt] at h

/-! ### A row of equal parts -/

theorem bytesAt_flatten {xss : List (List Byte)} {n : Nat} (h : ∀ xs ∈ xss, xs.length = n) {i : Nat} (hi : i < xss.length) :
    bytesAt xss.flatten (n * i) n = xss[i] := by
  induction xss generalizing i with
  | nil => simp at hi
  | cons xs xss ih =>
    obtain ⟨hxs, hxss⟩ := List.forall_mem_cons.1 h
    cases i with
    | zero => exact bytesAt_append_left xs _ hxs
    | succ i =>
      rw [List.flatten_cons, bytesAt_append_right _ _ (by rw [hxs]; exact Nat.le_mul_of_pos_right n i.succ_pos), hxs, Nat.mul_succ,
        Nat.add_sub_cancel, ih hxss (by simpa using hi)]
      rfl

theorem map_bytesAt_flatten {xss : List (List Byte)} {n m : Nat} (h : ∀ xs ∈ xss, xs.length = n) (hm : xss.length = m) :
    (List.range m).map (fun i => bytesAt xss.flatten (n * i) n) = xss := by
  subst hm
  refine List.ext_getElem (by simp) fun i _ hi => ?_
  rw [List.getElem_map, List.getElem_range, bytesAt_flatten h hi]

theorem flatten_map_bytesAt (bs : List Byte) (off n m : Nat) :
    ((List.range m).map fun i => bytesAt bs (off + n * i) n).flatten = bytesAt bs off (n * m) := by
  induction m with
  | zero => rfl
  | succ m ih => rw [List.range_succ, List.map_append, List.flatten_append, ih, Nat.mul_succ, ← bytesAt_add]; simp

theorem length_flatten_of_forall {xss : List (List Byte)} {n : Nat} (h : ∀ xs ∈ xss, xs.length = n) :
    xss.flatten.length = n * xss.length := by
  rw [List.length_flatten, List.map_congr_left h, List.map_const', List.sum_replicate, smul_eq_mul, Nat.mul_comm]

/-! ### Descriptors -/

theorem Desc.bytes_eq (d : Desc) :
    d.bytes = leBytes 4 d.seq ++ (leBytes 2 d.epoch ++ (leBytes 1 d.tl ++ (leBytes 1 d.nrec ++ (leBytes 2 d.flags ++ (leBytes 1 d.tkind ++
      (leBytes 1 d.nfence ++ (leBytes 4 d.tag ++ (leBytes 8 d.target ++ (leBytes 4 d.records ++ (leBytes 4 d.crc ++ d.fences.flatten)))))))))) := by
  simp [Desc.bytes, leBytes]

theorem Desc.length_bytes {d : Desc} (hn : d.fences.length = 4) (hf : ∀ f ∈ d.fences, f.length = 8) : d.bytes.length = 64 := by
  simp [Desc.bytes_eq, length_leBytes, length_flatten_of_forall hf, hn]

theorem Desc.bytesAt_fences (d : Desc) (k n : Nat) : bytesAt d.bytes (32 + k) n = bytesAt d.fences.flatten k n :=
  bytesAt_append_add _ (by simp [length_leBytes]) k n

theorem Desc.bytes_ofBytes {bs : List Byte} (h : bs.length = 64) : (Desc.ofBytes bs).bytes = bs := by
  simp only [Desc.bytes_eq, Desc.ofBytes, leBytes_fieldAt, flatten_map_bytesAt, bytesAt_join]
  simpa [h] using bytesAt_self bs

/-! ### Records -/

theorem CRec.bytes_eq (r : CRec) :
    r.bytes = leBytes 1 r.type ++ (leBytes 1 r.slot ++ (leBytes 2 r.rsvd ++ (leBytes 4 r.mask ++ (r.value.map (leBytes 4)).flatten))) := by
  simp [CRec.bytes, leBytes, List.flatMap_def]

theorem length_of_mem_map_leBytes {vs : List Nat} {n : Nat} : ∀ xs ∈ vs.map (leBytes n), xs.length = n := by
  intro xs hxs
  obtain ⟨v, _, rfl⟩ := List.mem_map.1 hxs
  exact length_leBytes n v

theorem CRec.length_bytes {r : CRec} (h : r.value.length = 22) : r.bytes.length = 96 := by
  simp [CRec.bytes_eq, length_leBytes, length_flatten_of_forall length_of_mem_map_leBytes, h]

theorem CRec.fieldAt_words (r : CRec) (k n : Nat) : fieldAt r.bytes (8 + k) n = fieldAt (r.value.map (leBytes 4)).flatten k n :=
  congrArg leNat (bytesAt_append_add _ (by simp [length_leBytes]) k n)

theorem CRec.bytes_ofBytes {bs : List Byte} (h : bs.length = 96) : (CRec.ofBytes bs).bytes = bs := by
  simp only [CRec.bytes_eq, CRec.ofBytes, leBytes_fieldAt, List.map_map, Function.comp_def, flatten_map_bytesAt, bytesAt_join]
  simpa [h] using bytesAt_self bs

/-- The words of a record, read one by one. -/
theorem map_fieldAt_words {vs : List Nat} (h : ∀ v ∈ vs, v < 2 ^ 32) {m : Nat} (hm : vs.length = m) :
    (List.range m).map (fun k => fieldAt (vs.map (leBytes 4)).flatten (4 * k) 4) = vs := by
  have hparts := map_bytesAt_flatten (length_of_mem_map_leBytes (vs := vs) (n := 4)) (m := m) (by simpa using hm)
  calc _ = ((List.range m).map (fun k => bytesAt (vs.map (leBytes 4)).flatten (4 * k) 4)).map leNat := by simp [fieldAt, Function.comp_def]
    _ = vs.map fun v => leNat (leBytes 4 v) := by rw [hparts, List.map_map]; rfl
    _ = vs.map id := List.map_congr_left fun v hv => (leNat_leBytes 4 v).trans (Nat.mod_eq_of_lt (h v hv))
    _ = vs := List.map_id vs

/-- Settles O42: the bytes give the structure back since each field is passed over by those before it, and the structure gives the bytes back
since its fields follow one another (`bytesAt_add`). -/
theorem descriptorsRoundTrip : Obligations.DescriptorsRoundTrip := by
  unfold Obligations.DescriptorsRoundTrip
  refine ⟨?desc, fun bs => Desc.bytes_ofBytes, ?record, fun bs => CRec.bytes_ofBytes⟩
  case desc =>
    intro d hseq hepoch htl hnrec hflags htkind hnfence htag htarget hrecords hcrc hn hf
    refine ⟨Desc.length_bytes hn hf, ?_⟩
    have hfences : (List.range 4).map (fun i => bytesAt d.bytes (32 + 8 * i) 8) = d.fences := by
      simp only [Desc.bytesAt_fences]
      exact map_bytesAt_flatten hf hn
    rw [Desc.ofBytes, hfences, Desc.bytes_eq]
    cases d
    simp only [fieldAt_leBytes_zero, fieldAt_leBytes_pass, Nat.reduceLeDiff, Nat.reduceSub, Desc.mk.injEq, and_true] at *
    omega
  case record =>
    intro r htype hslot hrsvd hmask hn hv
    refine ⟨CRec.length_bytes hn, ?_⟩
    have hwords : (List.range 22).map (fun k => fieldAt r.bytes (8 + 4 * k) 4) = r.value := by
      simp only [CRec.fieldAt_words]
      exact map_fieldAt_words hv hn
    rw [CRec.ofBytes, hwords, CRec.bytes_eq]
    cases r
    simp only [fieldAt_leBytes_zero, fieldAt_leBytes_pass, Nat.reduceLeDiff, Nat.reduceSub, CRec.mk.injEq, and_true] at *
    omega

end Sys2Proof.Machine
end

section

namespace Sys2Proof.Machine

/-! ## Frames of a quiet command

`s.quiet t but` grows by one operation at a time: each rule takes the change so far and adds an operation that writes no register outside
`but`. -/

section

variable {s t : State} {but : List Nat}

theorem State.quiet.trans {u : State} (h : s.quiet t but) (k : t.quiet u but) : s.quiet u but :=
  quiet_mono (quiet_trans h k) (by simp)

theorem State.quiet.mono {but' : List Nat} (h : s.quiet t but) (k : ∀ a ∈ but, a ∈ but') : s.quiet t but' := quiet_mono h k

theorem State.quiet.next {u : State} {more : List Nat} (h : s.quiet t but) (k : t.quiet u more) (hm : ∀ a ∈ more, a ∈ but) : s.quiet u but :=
  h.trans (k.mono hm)

theorem State.quiet.wr (h : s.quiet t but) {a : Nat} (w : Word) (ha : a ∈ but) : s.quiet (t.wr a w) but :=
  h.next (quiet_wr t a w) (by simpa using ha)

theorem State.quiet.put (h : s.quiet t but) {a : Nat} (f : Fld) (v : Nat) (ha : a ∈ but) : s.quiet (t.put a f v) but := h.wr _ ha

theorem State.quiet.bump (h : s.quiet t but) {a : Nat} (f : Fld) (n : Nat) (ha : a ∈ but) : s.quiet (t.bump a f n) but := h.wr _ ha

theorem State.quiet.bumpMod (h : s.quiet t but) {a : Nat} (f : Fld) (n : Nat) (ha : a ∈ but) : s.quiet (t.bumpMod a f n) but := h.wr _ ha

theorem State.quiet.wrN (h : s.quiet t but) {a : Nat} (v : Nat) (ha : a ∈ but) : s.quiet (t.wrN a v) but := h.wr _ ha

theorem State.quiet.events (h : s.quiet t but) {u : State} (k : t.onlyEvents u) : s.quiet u but :=
  h.next (onlyEvents_quiet k) (by simp)

/-- A change that leaves registers, memory, flash and OTP as they are. -/
theorem quiet_of_same (hr : t.regs = s.regs) (hm : t.mem = s.mem) (hl : t.losses = s.losses) (h0 : t.flash0 = s.flash0)
    (h1 : t.flash1 = s.flash1) (ho : t.otp = s.otp) : s.quiet t but :=
  ⟨fun a => by unfold State.rdByte; rw [hm, hl], ⟨h0, h1, ho⟩, fun a _ _ => rd_congr hr a⟩

end

end Sys2Proof.Machine
end

section

namespace Sys2Proof.Machine

/-! ## Denied writes (R491) -/

theorem quiet_setDenialAt (s : State) (i : Nat) (v : Denial) (but : List Nat) : s.quiet (s.setDenialAt i v) but :=
  quiet_of_same rfl rfl rfl rfl rfl rfl

section

variable (s : State) (p a value reason : Nat)

/-- The count and the offset of a denied write, before it is reported. -/
def State.denyCounted : State :=
  (s.bump (HP_DENY_CNT p) HP_DENY_CNT_COUNT 1).put (HP_DENY_ADDR p) HP_DENY_ADDR_OFFSET (a / 4)

theorem denyCounted_dtime : (s.denyCounted p a).dtime = s.dtime := by
  rw [State.denyCounted, put_dtime, bump_dtime]

theorem denyCounted_denialAt : (s.denyCounted p a).denialAt p = s.denialAt p := by
  rw [State.denialAt, State.denyCounted, put_denial, bump_denial, State.denialAt]

theorem hostDenied_eq : s.hostDenied p a value reason =
    match (s.denialAt p).last with
    | none => (s.denyCounted p a).postDenied p a value reason 1
    | some t =>
      if t + 1000000 ≤ s.dtime then (s.denyCounted p a).postDenied p a value reason ((s.denialAt p).folded + 1)
      else (s.denyCounted p a).setDenialAt p
        { s.denialAt p with folded := (s.denialAt p).folded + 1, offset := a, value := value, reason := reason } := by
  rw [← denyCounted_denialAt s p a, ← denyCounted_dtime s p a]
  rfl

theorem postDenied_denialAt (offset count : Nat) : (s.postDenied p offset value reason count).denialAt p = ⟨some s.dtime, 0, 0, 0, 0⟩ := by
  have hd : (s.postDenied p offset value reason count).dtime = s.dtime := congrArg Kept.dtime (postDenied_kept s p offset value reason count)
  have ht : (s.postOwn p 6 p 0x62 (denyPayload offset value reason count)).dtime = s.dtime := congrArg Kept.dtime (postOwn_kept s p 6 p 0x62 _)
  simp [State.postDenied, ht]

theorem denyCounted_cnt (h : s.get (HP_DENY_CNT p) HP_DENY_CNT_COUNT + 1 < 2 ^ HP_DENY_CNT_COUNT.w) :
    (s.denyCounted p a).get (HP_DENY_CNT p) HP_DENY_CNT_COUNT = s.get (HP_DENY_CNT p) HP_DENY_CNT_COUNT + 1 := by
  rw [State.denyCounted, get_put_ne _ _ _ _ (by simp [HP_DENY_CNT, HP_DENY_ADDR]), get_bump_same _ _ _ _ (by decide) h]

theorem denyCounted_addr : (s.denyCounted p a).get (HP_DENY_ADDR p) HP_DENY_ADDR_OFFSET = a / 4 % 2 ^ HP_DENY_ADDR_OFFSET.w :=
  get_put_same _ _ _ _ (by decide)

theorem denyCounted_quiet : s.quiet (s.denyCounted p a) [HP_DENY_CNT p, HP_DENY_ADDR p] :=
  ((quiet_refl s _).bump _ _ (by simp)).put _ _ (by simp)

variable {s p}

theorem postDenied_quiet (hp : p ∈ allPorts) (offset count : Nat) : s.quiet (s.postDenied p offset value reason count) [] := by
  unfold State.postDenied
  exact ((quiet_refl s []).events (postOwn_only s p hp 6 p 0x62 (denyPayload offset value reason count))).trans (quiet_setDenialAt ..)

/-- After the count, a denial only reports or folds. -/
theorem hostDenied_quiet_counted (hp : p ∈ allPorts) : (s.denyCounted p a).quiet (s.hostDenied p a value reason) [] := by
  rw [hostDenied_eq]
  split
  · exact postDenied_quiet value reason hp _ _
  · split
    · exact postDenied_quiet value reason hp _ _
    · exact quiet_setDenialAt ..

theorem mem_allPorts : ∀ p : Fin 4, p.val ∈ allPorts := by decide

theorem lostCounter_eq_false {a : Nat} (h : ∀ p, p < 4 → a ≠ HP_EV_STAT p) : lostCounter a = false := by
  refine Bool.eq_false_iff.2 fun hc => ?_
  obtain ⟨p, hp, he⟩ := List.any_eq_true.1 hc
  exact h p (by simp only [allPorts, List.mem_cons, List.not_mem_nil, or_false] at hp; omega) (by simpa using he)

/-- A quiet change leaves the fields of a register it does not name. -/
theorem State.quiet.get {s t : State} {but : List Nat} (h : s.quiet t but) {a : Nat} (ha : lostCounter a = false) (hb : a ∉ but) (f : Fld) :
    t.get a f = s.get a f := by
  unfold State.get
  rw [h.2.2 a ha hb]

theorem hostDenied_quiet (hp : p ∈ allPorts) : s.quiet (s.hostDenied p a value reason) [HP_DENY_CNT p, HP_DENY_ADDR p] :=
  (denyCounted_quiet s p a).next (hostDenied_quiet_counted a value reason hp) (by simp)

theorem hostDenied_get_deny (hp : p ∈ allPorts) {b : Nat} (hb : b = HP_DENY_CNT p ∨ b = HP_DENY_ADDR p) (f : Fld) :
    (s.hostDenied p a value reason).get b f = (s.denyCounted p a).get b f :=
  (hostDenied_quiet_counted a value reason hp).get
    (lostCounter_eq_false fun q _ => by obtain rfl | rfl := hb <;> simp only [HP_DENY_CNT, HP_DENY_ADDR, HP_EV_STAT] <;> omega)
    (by simp) f

/-- A denial within 1 ms of the last report is folded. -/
theorem hostDenied_folded {l : Nat} (hl : (s.denialAt p).last = some l) (ht : s.dtime < l + 1000000) :
    (s.hostDenied p a value reason).denialAt p =
      { s.denialAt p with folded := (s.denialAt p).folded + 1, offset := a, value := value, reason := reason } := by
  simp [hostDenied_eq, hl, Nat.not_le.2 ht]

/-- A denial with no report in the last 1 ms is reported. -/
theorem hostDenied_reported (h : (s.denialAt p).last = none ∨ ∃ l, (s.denialAt p).last = some l ∧ l + 1000000 ≤ s.dtime) :
    (s.hostDenied p a value reason).denialAt p = ⟨some s.dtime, 0, 0, 0, 0⟩ := by
  obtain h | ⟨l, hl, ht⟩ := h
  · simp only [hostDenied_eq, h, postDenied_denialAt, denyCounted_dtime]
  · simp only [hostDenied_eq, hl, if_pos ht, postDenied_denialAt, denyCounted_dtime]

/-- The second check of R492 alone decides a write that its source is not granted. -/
theorem decideWrite_denied {adm : State → Nat → Word → State × Bool} {src : Src} {reason : Nat} {r : RegRow} (hrow : rowAt a = some r)
    (hview : isActiveView a = false) (hal : a % 4 = 0) (hup : s.srcUp src = true) (hd : s.deny src a = some reason) :
    decideWrite adm s src a value = .inl (s.refuseWrite src a value reason, .denied) := by
  simp [decideWrite, hrow, hview, hal, hup, hd]

end

/-- Settles O52: `decideWrite_denied` says that the write ends in the denial, `denyCounted` what it counts, and the two cases of the fold what it
reports. -/
theorem ungrantedWritesOnlyCount : Obligations.UngrantedWritesOnlyCount := by
  unfold Obligations.UngrantedWritesOnlyCount
  intro s p addr value reason r a hrow hview hal hup hd
  have hp := mem_allPorts p
  refine ⟨⟨fun h => ?_, ?_, congrArg Kept.pending (hostDenied_kept s p.val a value reason), fun l hl ht => hostDenied_folded a value reason hl ht,
    fun h => ?_, hostDenied_quiet a value reason hp⟩, fun eff => ?_, fun hsup hmay eff => ?_⟩
  · rw [hostDenied_get_deny a value reason hp (.inl rfl), denyCounted_cnt s p.val a h]
  · rw [hostDenied_get_deny a value reason hp (.inr rfl), denyCounted_addr]
  · rw [hostDenied_reported a value reason h]
    exact ⟨rfl, rfl⟩
  · rw [State.guarded, decideWrite_denied _ _ hrow hview hal hup (reason := reason) hd]
    rfl
  · rw [State.guarded, decideWrite_denied _ _ hrow hview hal hsup (reason := 1) (by simp [State.deny, a, hmay])]
    rfl

end Sys2Proof.Machine
end

section

namespace Sys2Proof.Machine

/-! ## Doorbells of commit rings (R269) -/

theorem onlyEvents_rings {s t : State} (h : s.onlyEvents t) : t.rings = s.rings := by rw [h.1]

section

variable (s : State) (p : Fin 4) (r : Fin 8) (w : Word)

theorem get_wr_ne (s : State) {a b : Nat} (w : Word) (f : Fld) (h : b ≠ a) : (s.wr a w).get b f = s.get b f := by
  unfold State.get
  rw [rd_wr_ne s w h]

/-- A write of the doorbell register is read by no other register of the ring. -/
theorem ringOn_wr_db : (s.wr (HP_CR_DB p r) w).ringOn p r = s.ringOn p r := by
  simp only [State.ringOn, State.on]
  rw [get_wr_ne s w _ (by simp [HP_CR_DB, HP_CR_CTRL]), get_wr_ne s w _ (by simp [HP_CR_DB, HP_CR_STAT])]

theorem ringCons_wr_db : (s.wr (HP_CR_DB p r) w).ringCons p r = s.ringCons p r :=
  get_wr_ne s w _ (by simp [HP_CR_DB, HP_CR_CONS])

theorem log2_wr_db : (s.wr (HP_CR_DB p r) w).get (HP_CR_CTRL p r) HP_CR_CTRL_LOG2 = s.get (HP_CR_CTRL p r) HP_CR_CTRL_LOG2 :=
  get_wr_ne s w _ (by simp [HP_CR_DB, HP_CR_CTRL])

theorem ringAt_wr (k a : Nat) : (s.wr a w).ringAt k = s.ringAt k := by
  unfold State.ringAt
  rw [wr_rings]

theorem lostCounter_ring (off : Nat) (ho : 0x500 ≤ off ∧ off < 0x520) : lostCounter (0xA00000 + off + p.val * 0x10000 + r.val * 0x20) = false :=
  lostCounter_eq_false fun q hq => by
    have := p.isLt
    have := r.isLt
    simp only [HP_EV_STAT]
    omega

theorem ringHalt_spec (p : Fin 4) (r : Fin 8) (cause : Nat) (hc : cause < 8) :
    (s.ringHalt p r cause).get (HP_CR_STAT p r) HP_CR_STAT_HALT = 1 ∧
    (s.ringHalt p r cause).get (HP_CR_STAT p r) HP_CR_STAT_CAUSE = cause ∧ (s.ringHalt p r cause).rings = s.rings ∧
    s.quiet (s.ringHalt p r cause) [HP_CR_STAT p r] := by
  have hev : ((s.put (HP_CR_STAT p r) HP_CR_STAT_HALT 1).put (HP_CR_STAT p r) HP_CR_STAT_CAUSE cause).onlyEvents (s.ringHalt p r cause) :=
    postOwn_only _ p (mem_allPorts p) _ _ _ _
  have hlost : lostCounter (HP_CR_STAT p r) = false := lostCounter_ring p r 0x518 (by decide)
  refine ⟨?_, ?_, ?_, ?_⟩
  · rw [onlyEvents_get hev _ hlost, get_put_apart _ _ _ _ _ (by decide) (by decide), get_put_same _ _ _ _ (by decide)]
    rfl
  · rw [onlyEvents_get hev _ hlost, get_put_same _ _ _ _ (by decide)]
    exact Nat.mod_eq_of_lt hc
  · rw [onlyEvents_rings hev, put_rings, put_rings]
  · exact (((quiet_refl s _).put _ _ (by simp)).put _ _ (by simp)).events hev

theorem ringMod_spec (p r : Nat) (f : Ring → Ring) :
    (s.ringMod p r f).ringAt (8 * p + r) = f (s.ringAt (8 * p + r)) ∧ s.quiet (s.ringMod p r f) [] :=
  ⟨by simp [State.ringMod], quiet_of_same rfl rfl rfl rfl rfl rfl⟩

/-- The ring whose doorbell register has taken the word. -/
def State.belled : State := s.wr (HP_CR_DB p r) w

theorem belled_quiet : s.quiet (s.belled p r w) [HP_CR_DB p r] := (quiet_refl s _).wr _ (by simp)

end

section

variable {s : State} {p : Fin 4} {r : Fin 8} {w : Word}

theorem ringBell_foreign (h : getField w HP_CR_DB_EPOCH ≠ s.get (HP_EPOCH p) HP_EPOCH_EPOCH) :
    s.ringBell p r w = (s.bump (HP_CR_STAT p r) HP_CR_STAT_DROP_CNT 1).put (HP_CR_STAT p r) HP_CR_STAT_STALE 1 := by
  rw [State.ringBell, if_pos h]

variable (h : getField w HP_CR_DB_EPOCH = s.get (HP_EPOCH p) HP_EPOCH_EPOCH)

include h

theorem ringBell_keeps (hoff : s.ringOn p r = false) :
    s.ringBell p r w = (s.belled p r w).ringMod p r fun q => { q with kept := some (getField w HP_CR_DB_PROD) } := by
  simp [State.ringBell, h, hoff, ringOn_wr_db, State.belled]

theorem ringBell_behind (hon : s.ringOn p r = true) (hb : sdiff 16 (getField w HP_CR_DB_PROD) (s.ringAt (8 * p + r)).prod < 0) :
    s.ringBell p r w = s := by
  simp [State.ringBell, h, hon, hb]

theorem ringBell_runs (hon : s.ringOn p r = true) (hb : ¬ sdiff 16 (getField w HP_CR_DB_PROD) (s.ringAt (8 * p + r)).prod < 0) :
    s.ringBell p r w =
      if 2 ^ s.get (HP_CR_CTRL p r) HP_CR_CTRL_LOG2 < (getField w HP_CR_DB_PROD + 2 ^ 16 - s.ringCons p r) % 2 ^ 16 then
        (s.belled p r w).ringHalt p r 1
      else (s.belled p r w).ringMod p r fun q => { q with prod := getField w HP_CR_DB_PROD } := by
  rw [State.ringBell, if_neg (by simp [h]), if_neg (by simp [hb])]
  simp only [ringOn_wr_db, hon, if_true, State.ringProd, ringAt_wr, hb, if_false, log2_wr_db, ringCons_wr_db, State.belled]

end

/-- CONS is no register that a doorbell writes. -/
theorem ringBell_quiet (s : State) (p : Fin 4) (r : Fin 8) (w : Word) :
    s.quiet (s.ringBell p r w) [HP_CR_DB p r, HP_CR_STAT p r] := by
  have hbell : s.quiet (s.belled p r w) [HP_CR_DB p r, HP_CR_STAT p r] := (belled_quiet s p r w).mono (by simp)
  by_cases h : getField w HP_CR_DB_EPOCH = s.get (HP_EPOCH p) HP_EPOCH_EPOCH
  · cases hon : s.ringOn p r with
    | false =>
      rw [ringBell_keeps h hon]
      exact hbell.next (ringMod_spec _ _ _ _).2 (by simp)
    | true =>
      by_cases hb : sdiff 16 (getField w HP_CR_DB_PROD) (s.ringAt (8 * p + r)).prod < 0
      · rw [ringBell_behind h hon hb]
        exact quiet_refl s _
      · rw [ringBell_runs h hon hb]
        split
        · exact hbell.next (ringHalt_spec _ p r 1 (by decide)).2.2.2 (by simp)
        · exact hbell.next (ringMod_spec _ _ _ _).2 (by simp)
  · rw [ringBell_foreign h]
    exact ((quiet_refl s _).bump _ _ (by simp)).put _ _ (by simp)

/-- Settles O57: each case by the equation of `ringBell` for it; CONS by `ringBell_quiet`. -/
theorem doorbellsFollowTheirOrder : Obligations.DoorbellsFollowTheirOrder := by
  unfold Obligations.DoorbellsFollowTheirOrder
  intro s p r w prod mine ring behind tooFar t
  have hring : (s.belled p r w).ringAt (8 * p.val + r.val) = ring := ringAt_wr s w _ _
  refine ⟨fun hm => ?foreign, fun hm hoff => ?kept, fun hm hon hb => ?behind, fun hm hon hb hfar => ?tooFar, fun hm hon hb hnear => ?taken, ?cons⟩
  case foreign =>
    rw [show t = _ from ringBell_foreign hm]
    refine ⟨by rw [put_rings, bump_rings], get_put_same _ _ _ _ (by decide), fun hd => ?_,
      ((quiet_refl s _).bump _ _ (by simp)).put _ _ (by simp)⟩
    rw [get_put_apart _ _ _ _ _ (by decide) (by decide), get_bump_same _ _ _ _ (by decide) hd]
  case kept =>
    obtain ⟨hat, hq⟩ := ringMod_spec (s.belled p r w) p r fun q => { q with kept := some prod }
    rw [show t = _ from ringBell_keeps hm hoff]
    exact ⟨by rw [hat, hring], (belled_quiet s p r w).next hq (by simp)⟩
  case behind =>
    rw [show t = _ from ringBell_behind hm hon hb]
    exact ⟨rfl, quiet_refl s _⟩
  case tooFar =>
    obtain ⟨hhalt, hcause, hrings, hq⟩ := ringHalt_spec (s.belled p r w) p r 1 (by decide)
    rw [show t = _ from (ringBell_runs hm hon hb).trans (if_pos hfar)]
    exact ⟨hhalt, hcause, hrings.trans (wr_rings ..), ((belled_quiet s p r w).mono (by simp)).next hq (by simp)⟩
  case taken =>
    obtain ⟨hat, hq⟩ := ringMod_spec (s.belled p r w) p r fun q => { q with prod := prod }
    rw [show t = _ from (ringBell_runs hm hon hb).trans (if_neg hnear)]
    exact ⟨by rw [hat, hring], (belled_quiet s p r w).next hq (by simp)⟩
  case cons =>
    exact (ringBell_quiet s p r w).get (a := HP_CR_CONS p r) (lostCounter_ring p r 0x510 (by decide))
      (by simp [HP_CR_CONS, HP_CR_DB, HP_CR_STAT]) _

/-! ## The debt of a shaper queue (R405) -/

section

variable (s : State)

theorem qDebt_later {q t u : Nat} (h0 : (s.shqAt q).t0 ≤ t) (h : t ≤ u) : s.qDebt q u = s.qDebt q t - (u - t) * s.qRate q := by
  have hsplit : (u - (s.shqAt q).t0) * s.qRate q = (t - (s.shqAt q).t0) * s.qRate q + (u - t) * s.qRate q := by
    rw [← Nat.add_mul]
    congr 1
    omega
  rw [State.qDebt, State.qDebt, hsplit, Nat.sub_add_eq]

theorem le_cdiv_mul (n : Nat) {m : Nat} (h : 0 < m) : n ≤ cdiv n m * m := by
  have hdiv := Nat.div_add_mod (n + m - 1) m
  have hmod := Nat.mod_lt (n + m - 1) h
  rw [cdiv, Nat.mul_comm]
  omega

theorem mul_lt_of_lt_cdiv {k n m : Nat} (h : k < cdiv n m) : k * m < n := by
  have hle : (k + 1) * m ≤ n + m - 1 := (Nat.mul_le_mul_right m h).trans (Nat.div_mul_le_self _ _)
  have hm : 0 < m := Nat.pos_of_ne_zero fun h0 => by simp [h0, cdiv] at h
  rw [Nat.succ_mul] at hle
  omega

theorem qElig_first {q t : Nat} (h0 : (s.shqAt q).t0 ≤ t) (hr : 0 < s.qRate q) (hb : s.qBurst q < s.qDebt q t) :
    t < s.qElig q t ∧ s.qDebt q (s.qElig q t) ≤ s.qBurst q ∧ ∀ u, t ≤ u → u < s.qElig q t → s.qBurst q < s.qDebt q u := by
  have hcover := le_cdiv_mul (s.qDebt q t - s.qBurst q) hr
  have hpos : 0 < cdiv (s.qDebt q t - s.qBurst q) (s.qRate q) := by
    by_contra hz
    simp only [Nat.not_lt, Nat.le_zero] at hz
    rw [hz] at hcover
    omega
  refine ⟨Nat.lt_add_of_pos_right hpos, ?_, fun u hu hlt => ?_⟩
  · rw [qDebt_later s h0 (show t ≤ s.qElig q t from Nat.le_add_right ..), State.qElig, Nat.add_sub_cancel_left]
    omega
  · have hshort : (u - t) * s.qRate q < s.qDebt q t - s.qBurst q := mul_lt_of_lt_cdiv (by unfold State.qElig at hlt; omega)
    rw [qDebt_later s h0 hu]
    omega

theorem request_shq (write : Bool) (a n : Nat) (cls : MemClass) (deadline : Nat) (kind : ReadKind) :
    (s.request write a n cls deadline kind).shq = s.shq := by
  unfold State.request
  split <;> rfl

theorem busIssue_shq (a n : Nat) (cls : MemClass) (deadline : Nat) (kind : ReadKind) :
    (s.busIssue a n cls deadline kind).shq = s.shq := by
  unfold State.busIssue
  split
  · split
    · rfl
    · rw [State.hwError, bump_shq, put_shq]
  · exact request_shq ..

/-- A release charges the queue, and its read goes on without touching it. -/
theorem qRelease_shqAt (q t : Nat) (green : Bool) (w : QWait) (rest : List QWait) :
    (s.qRelease q t green w rest).shqAt q = { s.shqAt q with
      d := s.qDebt q t + w.req.bytes * micro, t0 := t, reqs := rest, elig := none, out := (w.req.bytes, green) :: (s.shqAt q).out,
      rem := ((s.shqAt q).rem + w.req.bytes) % 64 } := by
  have hread : (s.qRelease q t green w rest).shq = (s.setShqAt q { s.shqAt q with
      d := s.qDebt q t + w.req.bytes * micro, t0 := t, reqs := rest, elig := none, out := (w.req.bytes, green) :: (s.shqAt q).out,
      rem := ((s.shqAt q).rem + w.req.bytes) % 64 }).shq := by
    unfold State.qRelease
    split
    · rw [busIssue_shq, bump_shq, put_shq]
    · rw [bump_shq, put_shq]
  unfold State.shqAt at hread ⊢
  rw [hread]
  simp [State.setShqAt]

end

/-- Settles O58: the debt falls linearly by `qDebt_later`, `qElig` is its ceiling by `qElig_first`, and a release restarts the count. -/
theorem eligibleTimeIsTheFirst : Obligations.EligibleTimeIsTheFirst := by
  unfold Obligations.EligibleTimeIsTheFirst
  intro s q t _ _ h0
  refine ⟨fun u hu => ⟨?_, qDebt_later s h0 hu⟩, fun hr => ?_, fun hr hb => qElig_first s h0 hr hb, fun g w rest => ⟨?_, ?_⟩⟩
  · rw [qDebt_later s h0 hu]
    exact Nat.sub_le ..
  · simp [State.qDebt, hr]
  · rw [State.qDebt, qRelease_shqAt]
    simp [micro]
  · rw [qRelease_shqAt]

end Sys2Proof.Machine
end

section

namespace Sys2Proof.Machine

/-! ## Posting events, port by port (R299 to R302) -/

section

variable (s : State)

theorem evAt_nextSeq (source p : Nat) : (s.nextSeq source).evAt p = s.evAt p := rfl

theorem evAt_bump (a : Nat) (f : Fld) (n p : Nat) : (s.bump a f n).evAt p = s.evAt p := by
  unfold State.evAt
  rw [bump_ev]

theorem seqAt_nextSeq_ne {source x : Nat} (h : x ≠ source) : (s.nextSeq source).seqAt x = s.seqAt x := by
  simp [State.nextSeq, h]

/-- A record in a port's backlog carries the port's epoch (R302). -/
def State.stamped (p : Nat) (e : Event) : Event := { e with epoch := s.get (HP_EPOCH p) HP_EPOCH_EPOCH }

theorem enqueue_evAt (p : Nat) (e : Event) :
    (s.enqueue p e).evAt p = { s.evAt p with backlog := (s.evAt p).backlog ++ [s.stamped p e] } := by
  simp [State.enqueue, State.stamped]

theorem enqueue_evAt_ne {p q : Nat} (h : q ≠ p) (e : Event) : (s.enqueue p e).evAt q = s.evAt q := by
  simp [State.enqueue, h]

/-- What a post to a port depends on, beside the port's own record: the device time, its epoch, whether its event ring runs and the sequence
count of its own losses. -/
structure SameFor (s t : State) (p : Nat) : Prop where
  ev : t.evAt p = s.evAt p
  dtime : t.dtime = s.dtime
  epoch : t.get (HP_EPOCH p) HP_EPOCH_EPOCH = s.get (HP_EPOCH p) HP_EPOCH_EPOCH
  on : t.on (HP_EV_CTRL p) HP_EV_CTRL_EN = s.on (HP_EV_CTRL p) HP_EV_CTRL_EN
  seq : t.seqAt (6 * 256 + p) = s.seqAt (6 * 256 + p)

/-- EV_LOST of a port, as its backlog takes it (R301). -/
def State.lostEvent (p : Nat) : Event := s.stamped p (s.mkEvent (6 * 256 + p) 0x6F 0 (leBytes 4 (s.evAt p).lost))

/-- A port's record after EV_LOST is offered it: only losses are reported, to a running ring with a free entry. -/
def PortEv.reported (v : PortEv) (free on : Bool) (e : Event) : PortEv :=
  if decide (0 < v.lost) && free && on then { v with lost := 0, backlog := v.backlog ++ [e] } else v

/-- A port's record after an unreserved event is offered it. -/
def PortEv.offered (v : PortEv) (free on : Bool) (e : Event) : PortEv :=
  if !on then v else if free then { v with backlog := v.backlog ++ [e] } else { v with lost := v.lost + 1 }

theorem postLost_evAt (p : Nat) :
    (s.postLost p).evAt p = (s.evAt p).reported (s.evFree p) (s.on (HP_EV_CTRL p) HP_EV_CTRL_EN) (s.lostEvent p) := by
  unfold State.postLost PortEv.reported
  split
  · simp only [evAt_nextSeq, enqueue_evAt, evAt_setEvAt, if_true]
    rfl
  · rfl

theorem offer_evAt (e : Event) (p : Nat) :
    (s.offer e p).evAt p = (s.evAt p).offered (s.evFree p) (s.on (HP_EV_CTRL p) HP_EV_CTRL_EN) (s.stamped p e) := by
  unfold State.offer PortEv.offered
  split
  · rfl
  · split
    · exact enqueue_evAt s p e
    · simp [evAt_bump]

variable {s} {p q : Nat}

theorem SameFor.evFree {t : State} (h : SameFor s t p) : t.evFree p = s.evFree p := by
  unfold State.evFree
  rw [h.ev]

theorem SameFor.stamped {t : State} (h : SameFor s t p) (e : Event) : t.stamped p e = s.stamped p e := by
  unfold State.stamped
  rw [h.epoch]

theorem SameFor.lostEvent {t : State} (h : SameFor s t p) : t.lostEvent p = s.lostEvent p := by
  unfold State.lostEvent State.mkEvent
  rw [h.stamped, h.seq, h.ev, h.dtime]

theorem SameFor.postLost_evAt {t : State} (h : SameFor s t p) : (t.postLost p).evAt p = (s.postLost p).evAt p := by
  rw [Machine.postLost_evAt, Machine.postLost_evAt, h.ev, h.evFree, h.on, h.lostEvent]

theorem SameFor.offer_evAt {t : State} (h : SameFor s t p) (e : Event) : (t.offer e p).evAt p = (s.offer e p).evAt p := by
  rw [Machine.offer_evAt, Machine.offer_evAt, h.ev, h.evFree, h.on, h.stamped]

theorem SameFor.of_regs {t : State} (hev : t.evAt p = s.evAt p) (hd : t.dtime = s.dtime) (hr : t.regs = s.regs)
    (hs : t.seqAt (6 * 256 + p) = s.seqAt (6 * 256 + p)) : SameFor s t p := by
  have hrd : ∀ a, t.rd a = s.rd a := rd_congr hr
  exact ⟨hev, hd, congrArg (getField · _) (hrd _), congrArg (getField · _ != 0) (hrd _), hs⟩

theorem SameFor.refl (s : State) (p : Nat) : SameFor s s p := ⟨rfl, rfl, rfl, rfl, rfl⟩

theorem sameFor_postLost (h : p ≠ q) : SameFor s (s.postLost q) p := by
  unfold State.postLost
  split
  · exact .of_regs (by simp [evAt_nextSeq, enqueue_evAt_ne, h]) (by simp [State.nextSeq, State.enqueue])
      (by simp [State.nextSeq, State.enqueue]) (seqAt_nextSeq_ne _ (by omega))
  · exact .refl s p

theorem sameFor_offer (h : p ≠ q) (e : Event) : SameFor s (s.offer e q) p := by
  unfold State.offer
  split
  · exact .refl s p
  · split
    · exact .of_regs (enqueue_evAt_ne s h e) rfl rfl rfl
    · refine ⟨by simp [evAt_bump, h], bump_dtime .., get_bump_ne _ _ _ _ ?_, congrArg (· != 0) (get_bump_ne _ _ _ _ ?_), ?_⟩
      · simp only [HP_EPOCH, HP_EV_STAT]
        omega
      · simp only [HP_EV_CTRL, HP_EV_STAT]
        omega
      · unfold State.seqAt
        rw [bump_seqs]
        rfl

/-- A fold over distinct ports, each step of which leaves the other ports what they depend on: a port's record is what its own step makes of
it at the beginning. -/
theorem foldl_evAt {f : State → Nat → State} (hother : ∀ s p q, p ≠ q → SameFor s (f s q) p)
    (hown : ∀ s t p, SameFor s t p → (f t p).evAt p = (f s p).evAt p) {ps : List Nat} (hn : ps.Nodup) (s : State) (p : Nat) :
    (ps.foldl f s).evAt p = if p ∈ ps then (f s p).evAt p else s.evAt p := by
  induction ps generalizing s with
  | nil => rfl
  | cons q ps ih =>
    obtain ⟨hq, hps⟩ := List.nodup_cons.1 hn
    rw [List.foldl_cons, ih hps]
    by_cases hpq : p = q
    · subst hpq
      simp [hq]
    · rw [hown s (f s q) p (hother s p q hpq), (hother s p q hpq).ev]
      simp [hpq]

/-- What the reports of losses leave of the ports' own dependences, and of other sources' sequence counts. -/
theorem foldl_postLost_seqAt {ps : List Nat} {x : Nat} (hx : ∀ p ∈ ps, x ≠ 6 * 256 + p) (s : State) :
    (ps.foldl State.postLost s).seqAt x = s.seqAt x := by
  induction ps generalizing s with
  | nil => rfl
  | cons q ps ih =>
    obtain ⟨hq, hps⟩ := List.forall_mem_cons.1 hx
    rw [List.foldl_cons, ih hps]
    unfold State.postLost
    split
    · exact seqAt_nextSeq_ne _ hq
    · rfl

theorem offer_seqAt (s : State) (e : Event) (p x : Nat) : (s.offer e p).seqAt x = s.seqAt x := by
  unfold State.offer
  split
  · rfl
  · split
    · rfl
    · unfold State.seqAt
      rw [bump_seqs]
      rfl

theorem foldl_offer_seqAt (ps : List Nat) (e : Event) (x : Nat) (s : State) :
    (ps.foldl (fun s p => s.offer e p) s).seqAt x = s.seqAt x := by
  induction ps generalizing s with
  | nil => rfl
  | cons q ps ih => exact (ih _).trans (offer_seqAt ..)

/-- The state in which a post numbers its event: losses are reported. -/
def State.lossesReported (s : State) (ps : List Nat) : State := ps.foldl State.postLost s

section

variable {s : State} {ps : List Nat} (hn : ps.Nodup)

include hn

theorem lossesReported_evAt (p : Nat) : (s.lossesReported ps).evAt p =
    if p ∈ ps then (s.evAt p).reported (s.evFree p) (s.on (HP_EV_CTRL p) HP_EV_CTRL_EN) (s.lostEvent p) else s.evAt p := by
  rw [State.lossesReported, foldl_evAt (fun _ _ _ => sameFor_postLost) (fun _ _ _ h => h.postLost_evAt) hn, postLost_evAt]

theorem postTo_evAt (source type flags : Nat) (payload : List Byte) (p : Nat) :
    (s.postTo ps source type flags payload).evAt p =
      if p ∈ ps then
        ((s.lossesReported ps).evAt p).offered ((s.lossesReported ps).evFree p)
          ((s.lossesReported ps).on (HP_EV_CTRL p) HP_EV_CTRL_EN)
          ((s.lossesReported ps).stamped p ((s.lossesReported ps).mkEvent source type flags payload))
      else s.evAt p := by
  unfold State.postTo
  rw [evAt_nextSeq, foldl_evAt (fun _ _ _ h => sameFor_offer h _) (fun _ _ _ h => h.offer_evAt _) hn, offer_evAt]
  split
  · rfl
  · next hp => exact (lossesReported_evAt hn p).trans (if_neg hp)

end

end

theorem lossesReported_regs (s : State) (ps : List Nat) : (s.lossesReported ps).regs = s.regs := by
  unfold State.lossesReported
  induction ps generalizing s with
  | nil => rfl
  | cons p ps ih =>
    rw [List.foldl_cons, ih]
    unfold State.postLost
    split <;> rfl

theorem lossesReported_dtime (s : State) (ps : List Nat) : (s.lossesReported ps).dtime = s.dtime :=
  congrArg Kept.dtime (foldl_kept (fun s p => postLost_kept s p) ps s)

theorem lossesReported_get (s : State) (ps : List Nat) (a : Nat) (f : Fld) : (s.lossesReported ps).get a f = s.get a f :=
  congrArg (getField · f) (rd_congr (lossesReported_regs s ps) a)

theorem lossesReported_on (s : State) (ps : List Nat) (a : Nat) (f : Fld) : (s.lossesReported ps).on a f = s.on a f :=
  congrArg (· != 0) (lossesReported_get s ps a f)

/-- The event that a post offers to its ports, as a port's backlog holds it. -/
def State.postedEvent (s : State) (source type flags : Nat) (payload : List Byte) (p : Nat) : Event :=
  s.stamped p (s.mkEvent source type flags payload)

section

variable {s : State} {ps : List Nat} {source : Nat}

theorem lossesReported_posted (hs : ∀ p ∈ ps, source ≠ 6 * 256 + p) (type flags : Nat) (payload : List Byte) (p : Nat) :
    (s.lossesReported ps).postedEvent source type flags payload p = s.postedEvent source type flags payload p := by
  have hseq : (s.lossesReported ps).seqAt source = s.seqAt source := foldl_postLost_seqAt hs s
  simp only [State.postedEvent, State.stamped, State.mkEvent, hseq, lossesReported_dtime, lossesReported_get]

theorem postTo_seqAt (type flags : Nat) (payload : List Byte) (x : Nat) (hx : ∀ p ∈ ps, x ≠ 6 * 256 + p) :
    (s.postTo ps source type flags payload).seqAt x = if x = source then (s.seqAt source + 1) % 65536 else s.seqAt x := by
  have hoffers : ∀ e, (ps.foldl (fun s p => s.offer e p) (ps.foldl State.postLost s)).seqAt x = s.seqAt x := fun e =>
    (foldl_offer_seqAt ps e x _).trans (foldl_postLost_seqAt hx s)
  unfold State.postTo
  split
  · next h =>
    subst h
    rw [nextSeq_seq, hoffers]
  · next h => rw [seqAt_nextSeq_ne _ h, hoffers]

variable (hn : ps.Nodup) (hs : ∀ p ∈ ps, source ≠ 6 * 256 + p) {p : Nat}

include hn hs

/-- A port that receives a post: its losses are reported first, and then the event is offered to it. -/
theorem postTo_evAt_mem (hp : p ∈ ps) (type flags : Nat) (payload : List Byte) :
    ∃ v, v = (s.evAt p).reported (s.evFree p) (s.on (HP_EV_CTRL p) HP_EV_CTRL_EN) (s.lostEvent p) ∧
      (s.postTo ps source type flags payload).evAt p =
        v.offered (decide (v.backlog.length + v.reserved < evBacklog)) (s.on (HP_EV_CTRL p) HP_EV_CTRL_EN)
          (s.postedEvent source type flags payload p) := by
  have hv := (lossesReported_evAt hn p (s := s)).trans (if_pos hp)
  refine ⟨_, rfl, ?_⟩
  rw [postTo_evAt hn, if_pos hp, ← hv, lossesReported_on, ← lossesReported_posted hs]
  rfl

theorem postTo_disabled (hp : p ∈ ps) (hoff : s.on (HP_EV_CTRL p) HP_EV_CTRL_EN = false) (type flags : Nat) (payload : List Byte) :
    (s.postTo ps source type flags payload).evAt p = s.evAt p := by
  obtain ⟨v, hv, ht⟩ := postTo_evAt_mem (s := s) hn hs hp type flags payload
  rw [ht, hv]
  simp [PortEv.offered, PortEv.reported, hoff]

theorem postTo_taken (hp : p ∈ ps) (hon : s.on (HP_EV_CTRL p) HP_EV_CTRL_EN = true)
    (hroom : (s.evAt p).backlog.length + (s.evAt p).reserved + 1 < evBacklog) (type flags : Nat) (payload : List Byte) :
    ∃ more, more.length ≤ 1 ∧ ((s.postTo ps source type flags payload).evAt p).backlog =
      (s.evAt p).backlog ++ more ++ [s.postedEvent source type flags payload p] := by
  obtain ⟨v, hv, ht⟩ := postTo_evAt_mem (s := s) hn hs hp type flags payload
  have hreport : ∃ more, more.length ≤ 1 ∧ v.backlog = (s.evAt p).backlog ++ more ∧ v.reserved = (s.evAt p).reserved := by
    rw [hv, PortEv.reported]
    split
    · exact ⟨[s.lostEvent p], by simp⟩
    · exact ⟨[], by simp⟩
  obtain ⟨more, hlen, hback, hres⟩ := hreport
  have hfree : v.backlog.length + v.reserved < evBacklog := by
    rw [hback, List.length_append, hres]
    omega
  refine ⟨more, hlen, ?_⟩
  rw [ht, PortEv.offered, ← hback]
  simp [hon, hfree]

theorem postTo_lost (hp : p ∈ ps) (hon : s.on (HP_EV_CTRL p) HP_EV_CTRL_EN = true)
    (hfull : (s.evAt p).backlog.length + (s.evAt p).reserved = evBacklog) (type flags : Nat) (payload : List Byte) :
    (s.postTo ps source type flags payload).evAt p = { s.evAt p with lost := (s.evAt p).lost + 1 } := by
  obtain ⟨v, hv, ht⟩ := postTo_evAt_mem (s := s) hn hs hp type flags payload
  have hkeep : v = s.evAt p := by simp [hv, PortEv.reported, State.evFree, hfull]
  rw [ht, hkeep]
  simp [PortEv.offered, hon, hfull]

end

/-- Settles O55: `postTo_evAt_mem` gives a port's record after a post, `postTo_seqAt` the counts. -/
theorem eventsAreNumberedInOrder : Obligations.EventsAreNumberedInOrder := by
  unfold Obligations.EventsAreNumberedInOrder
  intro s ps source type flags payload hn hps hsrc t
  have hs : ∀ p ∈ ps, source ≠ 6 * 256 + p := fun p hp h => hsrc (by
    have hlt : ∀ p ∈ allPorts, p < 4 := by decide
    have := hlt p (hps p hp)
    omega)
  refine ⟨?_, fun x hx hxs => ?_, fun p hp hoff => postTo_disabled hn hs hp hoff .., fun p hp => ?_, fun p hp hon hroom => ?_, fun p hp hon hfull => ?_⟩
  · exact (postTo_seqAt type flags payload source hs).trans (if_pos rfl)
  · exact (postTo_seqAt type flags payload x hxs).trans (if_neg hx)
  · exact (postTo_evAt hn source type flags payload p).trans (if_neg hp)
  · obtain ⟨more, hlen, hback⟩ := postTo_taken hn hs hp hon hroom type flags payload
    exact ⟨more, _, hback, hlen, rfl, rfl, rfl, rfl, rfl, rfl, rfl⟩
  · rw [show t.evAt p = _ from postTo_lost hn hs hp hon hfull type flags payload]
    exact ⟨rfl, rfl⟩

/-! ## Reserved events (R301) -/

section

variable (s : State) (p : Nat)

theorem postReserved_one (source type flags : Nat) (payload : List Byte) :
    ((s.postReserved [p] source type flags payload).evAt p) =
      { s.evAt p with reserved := (s.evAt p).reserved - 1, backlog := (s.evAt p).backlog ++ [s.postedEvent source type flags payload p] } := by
  simp only [State.postReserved, State.unreserve, List.foldl_cons, List.foldl_nil, evAt_nextSeq, enqueue_evAt, evAt_setEvAt, if_true]
  rfl

theorem postReserved_regs (ps : List Nat) (source type flags : Nat) (payload : List Byte) :
    (s.postReserved ps source type flags payload).regs = s.regs := by
  have hun : ∀ (ps : List Nat) (s : State), (s.unreserve ps).regs = s.regs := fun ps s => by
    unfold State.unreserve
    induction ps generalizing s with
    | nil => rfl
    | cons p ps ih => exact ih _
  have hen : ∀ (ps : List Nat) (e : Event) (s : State), (ps.foldl (fun s p => s.enqueue p e) s).regs = s.regs := fun ps e s => by
    induction ps generalizing s with
    | nil => rfl
    | cons p ps ih => exact ih _
  exact (hen ..).trans (hun ps s)

theorem reserve_one : s.reserve [p] =
    if s.evFree p then some (s.setEvAt p { s.evAt p with reserved := (s.evAt p).reserved + 1 }) else none := rfl

end

/-- Settles O56: `postReserved_one` and `reserve_one` give the port's record; the rest is counting. -/
theorem reservedEventsAreNeverDropped : Obligations.ReservedEventsAreNeverDropped := by
  unfold Obligations.ReservedEventsAreNeverDropped
  intro s p source type flags payload hle
  refine ⟨fun hpos => ?_, fun t ht => ?_, ?_⟩
  · intro t
    have hev : t.evAt p = _ := postReserved_one s p source type flags payload
    rw [hev]
    refine ⟨⟨_, rfl, rfl, rfl, rfl, rfl⟩, Nat.sub_add_cancel hpos, rfl, ?_, postReserved_regs s [p] source type flags payload⟩
    simp only [List.length_append, List.length_singleton]
    omega
  · rw [reserve_one] at ht
    split at ht
    · next hfree =>
      cases ht
      have : (s.evAt p).backlog.length + (s.evAt p).reserved < evBacklog := by simpa [State.evFree] using hfree
      simp only [evAt_setEvAt, if_true, and_true]
      omega
    · cases ht
  · rw [reserve_one]
    simp only [State.evFree, decide_eq_true_eq, ite_eq_right_iff, reduceCtorEq, imp_false]
    omega

end Sys2Proof.Machine
end

section

namespace Sys2Proof.Machine

/-! ## FAULT_N (R338) -/

section

variable (s : State)

/-- The hub after a change of FAULT_N is shown, and before FAULT_PIN is posted. -/
def State.faultShown : State :=
  let t := { s with power := { s.power with faultWas := s.faultLow } }.put WT_FAULT WT_FAULT_FAULT (b2n s.faultLow)
  if s.faultLow then t.bump WT_FCNT ⟨0, 32⟩ 1 else t

theorem syncFault_same (h : s.faultLow = s.power.faultWas) : s.syncFault = s := by
  simp [State.syncFault, h]

theorem syncFault_change (h : s.faultLow ≠ s.power.faultWas) :
    ∃ payload, s.syncFault = s.faultShown.post 9 0xFF 0x94 0 payload := by
  unfold State.syncFault
  rw [if_neg (by simpa using h)]
  exact ⟨_, rfl⟩

theorem faultShown_power : s.faultShown.power = { s.power with faultWas := s.faultLow } := by
  unfold State.faultShown
  split <;> simp -implicitDefEqProofs only [bump_power, put_power]

theorem faultShown_boot : s.faultShown.boot = s.boot := by
  unfold State.faultShown
  split <;> simp -implicitDefEqProofs only [bump_boot, put_boot]

theorem faultShown_isl : s.faultShown.isl = s.isl := by
  unfold State.faultShown
  split <;> simp -implicitDefEqProofs only [bump_isl, put_isl]

theorem faultShown_seqs : s.faultShown.seqs = s.seqs := by
  unfold State.faultShown
  split <;> simp -implicitDefEqProofs only [bump_seqs, put_seqs]

theorem faultShown_get (f : Fld) : s.faultShown.get WT_FAULT f =
    ({ s with power := { s.power with faultWas := s.faultLow } }.put WT_FAULT WT_FAULT_FAULT (b2n s.faultLow)).get WT_FAULT f := by
  unfold State.faultShown
  split
  · exact get_bump_ne _ _ _ _ (by decide)
  · rfl

theorem faultShown_get_fault : s.faultShown.get WT_FAULT WT_FAULT_FAULT = b2n s.faultLow := by
  rw [faultShown_get, get_put_same _ _ _ _ (by decide)]
  cases s.faultLow <;> rfl

theorem faultShown_get_apart {f : Fld} (h : f.lo + f.w ≤ WT_FAULT_FAULT.lo ∨ WT_FAULT_FAULT.lo + WT_FAULT_FAULT.w ≤ f.lo) :
    s.faultShown.get WT_FAULT f = s.get WT_FAULT f := by
  rw [faultShown_get, get_put_apart _ _ _ _ _ (by decide) h]
  rfl

/-- What FAULT_N depends on. -/
theorem faultLow_congr {t : State} (hp : t.power.hold = s.power.hold) (hb : t.boot = s.boot) (hi : t.isl = s.isl)
    (hg : ∀ f ∈ WT_FAULT_STARTUP :: faultCauses, t.get WT_FAULT f = s.get WT_FAULT f) : t.faultLow = s.faultLow := by
  have hon : ∀ f ∈ WT_FAULT_STARTUP :: faultCauses, t.on WT_FAULT f = s.on WT_FAULT f := fun f hf => congrArg (· != 0) (hg f hf)
  simp only [faultCauses, List.forall_mem_cons] at hon
  obtain ⟨h0, h1, h2, h3, h4, h5, -⟩ := hon
  simp only [State.faultLow, State.islUp, faultCauses, List.any_cons, List.any_nil, hp, hb, hi, h0, h1, h2, h3, h4, h5]

theorem lostCounter_wtFault : lostCounter WT_FAULT = false := by decide

theorem syncFault_spec (h : s.faultLow ≠ s.power.faultWas) :
    s.syncFault.power.faultWas = s.faultLow ∧ s.syncFault.get WT_FAULT WT_FAULT_FAULT = b2n s.faultLow ∧
      s.syncFault.faultLow = s.faultLow ∧ s.syncFault.seqAt (9 * 256 + 0xFF) = (s.seqAt (9 * 256 + 0xFF) + 1) % 65536 := by
  obtain ⟨payload, he⟩ := syncFault_change s h
  have ho := post_only s.faultShown 9 0xFF 0x94 0 payload
  have hg : ∀ f, s.syncFault.get WT_FAULT f = s.faultShown.get WT_FAULT f := fun f => by rw [he, onlyEvents_get ho f lostCounter_wtFault]
  have hp : s.syncFault.power = { s.power with faultWas := s.faultLow } := by rw [he, onlyEvents_power ho, faultShown_power]
  refine ⟨by rw [hp], by rw [hg, faultShown_get_fault], faultLow_congr s (by rw [hp]) ?_ ?_ fun f hf => ?_, ?_⟩
  · rw [he, onlyEvents_boot ho, faultShown_boot]
  · rw [he, onlyEvents_isl ho, faultShown_isl]
  · rw [hg]
    have hcauses : ∀ f ∈ WT_FAULT_STARTUP :: faultCauses,
        f.lo + f.w ≤ WT_FAULT_FAULT.lo ∨ WT_FAULT_FAULT.lo + WT_FAULT_FAULT.w ≤ f.lo := by decide
    exact faultShown_get_apart s (hcauses f hf)
  · rw [he]
    have hports : ∀ p ∈ allPorts, (9 * 256 + 0xFF : Nat) ≠ 6 * 256 + p := by decide
    refine (postTo_seqAt 0x94 0 payload (9 * 256 + 0xFF) fun p hp => hports p (List.mem_of_mem_filter hp)).trans ?_
    rw [if_pos rfl, State.seqAt, faultShown_seqs]
    rfl

/-- FAULT_N is low for a cause bit or STARTUP, in the no-image condition, while it is held, and while the Gatehouse island is down. -/
theorem faultLow_iff : s.faultLow = true ↔
    s.power.hold = true ∨ s.boot.phase = .noImage ∨ s.islUp islGate = false ∨
      ∃ f ∈ [WT_FAULT_WATCH, WT_FAULT_LINK, WT_FAULT_BEZEL, WT_FAULT_SINK, WT_FAULT_HB, WT_FAULT_STARTUP], s.get WT_FAULT f ≠ 0 := by
  simp only [State.faultLow, State.on, faultCauses, Bool.or_eq_true, decide_eq_true_eq, Bool.not_eq_true', bne_iff_ne, List.any_cons, List.any_nil,
    Bool.or_false, List.mem_cons, List.not_mem_nil, or_false, exists_eq_or_imp, exists_eq_left]
  tauto

end

/-- Settles O59: `faultLow_iff` says when the pin is low, `syncFault_spec` what a change does. -/
theorem faultPinFollowsItsCauses : Obligations.FaultPinFollowsItsCauses := by
  unfold Obligations.FaultPinFollowsItsCauses
  intro s
  refine ⟨fun h => ?_, fun h => ?_, fun h => ?_, (faultLow_iff s).1, syncFault_same s, fun h => ?_⟩
  · exact (faultLow_iff s).2 (.inr (.inr (.inr h)))
  · exact (faultLow_iff s).2 (.inr (.inl h))
  · exact (faultLow_iff s).2 (.inl h)
  · obtain ⟨hwas, hbit, hlow, hseq⟩ := syncFault_spec s h
    exact ⟨hwas, hbit, hlow, hseq, syncFault_quiet s⟩

end Sys2Proof.Machine
end

section

namespace Sys2Proof.Machine

/-! ## What every command leaves of memory, the register table, flash and OTP

The canonical form of memory and of the register table is kept by every function of the model, and most functions change neither memory
nor flash nor OTP at all. Both facts are one frame relation `s.carries fp t`, where the footprint `fp` says what `t` may have changed
besides registers. Each function has one rule, `s.Carried fp (s.f …)`: whatever carries from a state to `s` carries on to `s.f …`. The
rules are `@[simp ↓]`, and `Through` keeps simp from visiting the function's arguments: it only goes on to the state that `f` ran on. -/

/-- What a function may change besides registers: memory, and flash with OTP. -/
structure Footprint where
  mem : Bool
  flash : Bool

/-- `t` follows from `s` by changes of canonical form, and leaves what the footprint leaves out. -/
structure State.carries (s : State) (fp : Footprint) (t : State) : Prop where
  regs : twf resetWord s.regs = true → twf resetWord t.regs = true
  wf : Memory.wf s.losses s.mem = true → Memory.wf t.losses t.mem = true
  mem : fp.mem = false → t.mem = s.mem ∧ t.losses = s.losses
  flash : fp.flash = false → t.flash0 = s.flash0 ∧ t.flash1 = s.flash1 ∧ t.otp = s.otp

/-- The first alternative is the way that simp goes; it never looks into the second. -/
def Through (p q : Prop) : Prop := p ∨ q

@[congr] theorem through_congr {p p' : Prop} (q : Prop) (h : p = p') : Through p q = Through p' q := by rw [h]

@[simp] theorem through_true (q : Prop) : Through True q ↔ True := by simp [Through]

/-- Whatever carries to `s` carries on to `t`, in the form in which simp rewrites with it. -/
abbrev State.Carried (s : State) (fp : Footprint) (t : State) : Prop :=
  ∀ s₀ : State, s₀.carries fp t ↔ Through (s₀.carries fp s) (s₀.carries fp t)

section

variable {s t u : State} {fp : Footprint}

@[simp] theorem carries_refl (s : State) (fp : Footprint) : s.carries fp s := ⟨id, id, fun _ => ⟨rfl, rfl⟩, fun _ => ⟨rfl, rfl, rfl⟩⟩

theorem State.carries.trans (h : s.carries fp t) (k : t.carries fp u) : s.carries fp u where
  regs := k.regs ∘ h.regs
  wf := k.wf ∘ h.wf
  mem hm := ⟨(k.mem hm).1.trans (h.mem hm).1, (k.mem hm).2.trans (h.mem hm).2⟩
  flash hf := ⟨(k.flash hf).1.trans (h.flash hf).1, (k.flash hf).2.1.trans (h.flash hf).2.1, (k.flash hf).2.2.trans (h.flash hf).2.2⟩

theorem carried (h : s.carries fp t) : s.Carried fp t := fun _ => ⟨.inr, fun k => k.elim (·.trans h) id⟩

theorem carries_of_carried (h : s.Carried fp t) : s.carries fp t := (h s).2 (.inl (carries_refl s fp))

theorem carried_refl (s : State) (fp : Footprint) : s.Carried fp s := carried (carries_refl s fp)

/-- A step after what simp has reached. -/
theorem State.carries.after (k : t.carries fp u) (h : s.carries fp t) : s.carries fp u := h.trans k

end

/-! ### The shapes of the model's functions -/

/-! `s.carries fp t` spelled by the parts of `t`. -/

def State.regsFrom (s : State) (_ : Footprint) (regs : Tbl Word) : Prop := twf resetWord s.regs = true → twf resetWord regs = true

def State.memFrom (s : State) (fp : Footprint) (mem : Tbl Byte) (losses : List (List (Nat × Nat))) : Prop :=
  (Memory.wf s.losses s.mem = true → Memory.wf losses mem = true) ∧ (fp.mem = false → mem = s.mem ∧ losses = s.losses)

def State.flashFrom (s : State) (fp : Footprint) (flash0 flash1 : Tbl Byte) (otp : Otp) : Prop :=
  fp.flash = false → flash0 = s.flash0 ∧ flash1 = s.flash1 ∧ otp = s.otp

@[simp ↓] theorem regsFrom_eta (s u : State) (fp : Footprint) :
    s.regsFrom fp u.regs ↔ Through (s.carries fp u) (s.regsFrom fp u.regs) := ⟨.inr, fun h => h.elim (·.regs) id⟩

@[simp ↓] theorem memFrom_eta (s u : State) (fp : Footprint) :
    s.memFrom fp u.mem u.losses ↔ Through (s.carries fp u) (s.memFrom fp u.mem u.losses) := ⟨.inr, fun h => h.elim (fun h => ⟨h.wf, h.mem⟩) id⟩

@[simp ↓] theorem flashFrom_eta (s u : State) (fp : Footprint) :
    s.flashFrom fp u.flash0 u.flash1 u.otp ↔ Through (s.carries fp u) (s.flashFrom fp u.flash0 u.flash1 u.otp) :=
  ⟨.inr, fun h => h.elim (·.flash) id⟩

/-- A structure update, stated over every field, the form in which simp meets the update. -/
@[simp ↓] theorem carries_mk (s : State) (fp : Footprint) : ∀ pending dtime free regs inUse mem losses poison flash0 flash1 otp power boot
    park undo degr isl locket gate denial posted capture sv xs surf used ents buds seqs ev vec ports rings valPort valRing tlc adm scan link
    wb fetch preset sigs groups bz watch sink dma blit pol shq dram reqs flying trigs trained ig lane can flts bells hostReads dmaLast
    lastRead jtag,
    s.carries fp ⟨pending, dtime, free, regs, inUse, mem, losses, poison, flash0, flash1, otp, power, boot, park, undo, degr, isl, locket,
      gate, denial, posted, capture, sv, xs, surf, used, ents, buds, seqs, ev, vec, ports, rings, valPort, valRing, tlc, adm, scan, link,
      wb, fetch, preset, sigs, groups, bz, watch, sink, dma, blit, pol, shq, dram, reqs, flying, trigs, trained, ig, lane, can, flts,
      bells, hostReads, dmaLast, lastRead, jtag⟩ ↔ s.regsFrom fp regs ∧ s.memFrom fp mem losses ∧ s.flashFrom fp flash0 flash1 otp := by
  intros
  exact ⟨fun h => ⟨h.regs, ⟨h.wf, h.mem⟩, h.flash⟩, fun ⟨hr, hm, hf⟩ => ⟨hr, hm.1, hm.2, hf⟩⟩

section

variable {fp : Footprint} {s t s₀ : State}

@[simp ↓] theorem carries_ite {c : Prop} [Decidable c] :
    s₀.carries fp (if c then s else t) ↔ if c then s₀.carries fp s else s₀.carries fp t := by
  split <;> rfl

/-- `carries_ite` where the condition is large: simp never sees it. -/
theorem carries_ite_of {c : Prop} [Decidable c] (hs : s₀.carries fp s) (ht : s₀.carries fp t) : s₀.carries fp (if c then s else t) := by
  split
  · exact hs
  · exact ht

@[simp ↓] theorem carries_fst_ite {β : Type} {c : Prop} [Decidable c] (p q : State × β) :
    s₀.carries fp (if c then p else q).1 ↔ if c then s₀.carries fp p.1 else s₀.carries fp q.1 := by
  split <;> rfl

@[simp ↓] theorem carries_snd_ite {β : Type} {c : Prop} [Decidable c] (p q : β × State) :
    s₀.carries fp (if c then p else q).2 ↔ if c then s₀.carries fp p.2 else s₀.carries fp q.2 := by
  split <;> rfl

theorem carries_of_fst {β : Type} {p : State × β} {b : β} (e : p = (t, b)) (h : s₀.carries fp p.1) : s₀.carries fp t := by
  rw [e] at h
  exact h

end

/-- An effect that carries from every state. A predicate with a name, since simp discharges it where it does not discharge the bare `∀`. -/
def Carries (fp : Footprint) (f : State → State) : Prop := ∀ s : State, s.carries fp (f s)

def CarriesEach (fp : Footprint) {α : Type} (f : State → α → State) : Prop := ∀ (s : State) a, s.carries fp (f s a)

section

variable {fp : Footprint}

@[simp ↓] theorem carries_iff (f : State → State) : Carries fp f ↔ ∀ s : State, s.carries fp (f s) := Iff.rfl

@[simp ↓] theorem carriesEach_iff {α : Type} (f : State → α → State) : CarriesEach fp f ↔ ∀ (s : State) a, s.carries fp (f s a) := Iff.rfl

theorem foldl_carries {α : Type} {f : State → α → State} (h : CarriesEach fp f) (l : List α) (s : State) : s.carries fp (l.foldl f s) := by
  induction l generalizing s with
  | nil => exact carries_refl ..
  | cons a l ih => exact (h s a).trans (ih _)

@[simp ↓] theorem foldl_carried {α : Type} {f : State → α → State} (h : CarriesEach fp f) (l : List α) (s : State) :
    s.Carried fp (l.foldl f s) := carried (foldl_carries h l s)

theorem foldl_fst_carries {α β : Type} {f : State × β → α → State × β} (h : ∀ (x : State × β) a, x.1.carries fp (f x a).1) (l : List α)
    (x : State × β) : x.1.carries fp (l.foldl f x).1 := by
  induction l generalizing x with
  | nil => exact carries_refl ..
  | cons a l ih => exact (h x a).trans (ih _)

@[simp ↓] theorem when_carried {f : State → State} (h : Carries fp f) (s : State) (c : Bool) : s.Carried fp (s.when c f) := by
  unfold State.when
  refine carried ?_
  split
  · exact h s
  · exact carries_refl ..

/-! The same of a load in progress, which carries the state. -/

def Ld.Carries (fp : Footprint) (f : Ld → Ld) : Prop := ∀ l : Ld, l.s.carries fp (f l).s

def Ld.CarriesEach (fp : Footprint) {α : Type} (f : Ld → α → Ld) : Prop := ∀ (l : Ld) a, l.s.carries fp (f l a).s

@[simp ↓] theorem Ld.carries_iff (f : Ld → Ld) : Ld.Carries fp f ↔ ∀ l : Ld, l.s.carries fp (f l).s := Iff.rfl

@[simp ↓] theorem Ld.carriesEach_iff {α : Type} (f : Ld → α → Ld) : Ld.CarriesEach fp f ↔ ∀ (l : Ld) a, l.s.carries fp (f l a).s := Iff.rfl

@[simp ↓] theorem Ld.foldl_carried {α : Type} {f : Ld → α → Ld} (h : Ld.CarriesEach fp f) (xs : List α) (l : Ld) :
    l.s.Carried fp (xs.foldl f l).s := by
  refine carried ?_
  induction xs generalizing l with
  | nil => exact carries_refl ..
  | cons x xs ih => exact (h l x).trans (ih _)

@[simp ↓] theorem Ld.carries_ite {c : Prop} [Decidable c] (s₀ : State) (l m : Ld) :
    s₀.carries fp (if c then l else m).s ↔ if c then s₀.carries fp l.s else s₀.carries fp m.s := by
  split <;> rfl

theorem brecOn_carries {F : (n : Nat) → Nat.below (motive := fun _ => State → State) n → State → State}
    (zero : ∀ b (s : State), s.carries fp (F 0 b s))
    (succ : ∀ n b, (∀ s : State, s.carries fp (b.1 s)) → ∀ s : State, s.carries fp (F (n + 1) b s)) (n : Nat) (s : State) :
    s.carries fp (Nat.brecOn (motive := fun _ => State → State) n F s) := by
  induction n generalizing s with
  | zero => exact zero _ s
  | succ n ih => exact succ n _ ih s

end

/-! ## The frame rules, in the order of the model's files -/

section

variable {fp : Footprint} {mem flash : Bool} (s : State)

/-! ### The updates of the tables themselves -/

@[simp ↓] theorem regsFrom_filter (s₀ u : State) (p : Nat × Word → Bool) :
    s₀.regsFrom fp (u.regs.filter p) ↔ Through (s₀.carries fp u) (s₀.regsFrom fp (u.regs.filter p)) :=
  ⟨.inr, fun h => h.elim (fun k hr => twf_filter p (k.regs hr)) id⟩

@[simp ↓] theorem regsFrom_nil (s₀ : State) : s₀.regsFrom fp [] := fun _ => rfl

@[simp ↓] theorem flashFrom_any (s₀ : State) (flash0 flash1 : Tbl Byte) (otp : Otp) : s₀.flashFrom ⟨mem, true⟩ flash0 flash1 otp :=
  fun h => absurd h Bool.noConfusion

theorem wr_carries (a : Nat) (w : Word) : s.carries fp (s.wr a w) :=
  ⟨wr_wf s a w, id, fun _ => ⟨rfl, rfl⟩, fun _ => ⟨rfl, rfl, rfl⟩⟩

theorem wrByte_carries (a : Nat) (b : Byte) : s.carries ⟨true, flash⟩ (s.wrByte a b) :=
  ⟨id, wrByte_wf s a b, fun hm => absurd hm Bool.noConfusion, fun _ => ⟨rfl, rfl, rfl⟩⟩

theorem lose_carries (keep : List (Nat × Nat)) : s.carries ⟨true, flash⟩ (s.lose keep) :=
  ⟨id, lose_wf s keep, fun hm => absurd hm Bool.noConfusion, fun _ => ⟨rfl, rfl, rfl⟩⟩

/-! ### Machine/Ops.lean -/

@[simp ↓] theorem wr_carried (a : Nat) (w : Word) : s.Carried fp (s.wr a w) := carried (wr_carries ..)

@[simp ↓] theorem wrN_carried (a v : Nat) : s.Carried fp (s.wrN a v) := carried (by simp [State.wrN])

@[simp ↓] theorem put_carried (a : Nat) (f : Fld) (v : Nat) : s.Carried fp (s.put a f v) := carried (by simp [State.put])

@[simp ↓] theorem bump_carried (a : Nat) (f : Fld) (n : Nat) : s.Carried fp (s.bump a f n) := carried (by simp [State.bump])

@[simp ↓] theorem bumpMod_carried (a : Nat) (f : Fld) (n : Nat) : s.Carried fp (s.bumpMod a f n) := carried (by simp [State.bumpMod])

@[simp ↓] theorem bumpSat_carried (a : Nat) (f : Fld) (n : Nat) : s.Carried fp (s.bumpSat a f n) := carried (by simp [State.bumpSat])

@[simp ↓] theorem wrUse_carried (a : Nat) (w : Word) : s.Carried fp (s.wrUse a w) := carried (by simp [State.wrUse])

@[simp ↓] theorem setDenialAt_carried (i : Nat) (v : Denial) : s.Carried fp (s.setDenialAt i v) := carried (by simp [State.setDenialAt])

@[simp ↓] theorem setPostedAt_carried (i : Nat) (v : Option Posted) :
    s.Carried fp (s.setPostedAt i v) := carried (by simp [State.setPostedAt])

@[simp ↓] theorem setCaptureAt_carried (i v : Nat) : s.Carried fp (s.setCaptureAt i v) := carried (by simp [State.setCaptureAt])

@[simp ↓] theorem setSurfAt_carried (i : Nat) (v : SurfEntry) : s.Carried fp (s.setSurfAt i v) := carried (by simp [State.setSurfAt])

@[simp ↓] theorem setEntAt_carried (i : Nat) (v : SurfEntry) : s.Carried fp (s.setEntAt i v) := carried (by simp [State.setEntAt])

@[simp ↓] theorem setBudAt_carried (i : Nat) (v : List Nat) : s.Carried fp (s.setBudAt i v) := carried (by simp [State.setBudAt])

@[simp ↓] theorem setSeqAt_carried (i v : Nat) : s.Carried fp (s.setSeqAt i v) := carried (by simp [State.setSeqAt])

@[simp ↓] theorem setEvAt_carried (i : Nat) (v : PortEv) : s.Carried fp (s.setEvAt i v) := carried (by simp [State.setEvAt])

@[simp ↓] theorem setVecAt_carried (i : Nat) (v : VecState) : s.Carried fp (s.setVecAt i v) := carried (by simp [State.setVecAt])

@[simp ↓] theorem setPortAt_carried (i : Nat) (v : Port) : s.Carried fp (s.setPortAt i v) := carried (by simp [State.setPortAt])

@[simp ↓] theorem setRingAt_carried (i : Nat) (v : Ring) : s.Carried fp (s.setRingAt i v) := carried (by simp [State.setRingAt])

@[simp ↓] theorem setValRingAt_carried (i v : Nat) : s.Carried fp (s.setValRingAt i v) := carried (by simp [State.setValRingAt])

@[simp ↓] theorem setTlcAt_carried (i : Nat) (v : TlCommits) : s.Carried fp (s.setTlcAt i v) := carried (by simp [State.setTlcAt])

@[simp ↓] theorem setAdmAt_carried (i : Nat) (v : AdmTl) : s.Carried fp (s.setAdmAt i v) := carried (by simp [State.setAdmAt])

@[simp ↓] theorem setScanAt_carried (i : Nat) (v : Scan) : s.Carried fp (s.setScanAt i v) := carried (by simp [State.setScanAt])

@[simp ↓] theorem setLinkAt_carried (i : Nat) (v : OutLink) : s.Carried fp (s.setLinkAt i v) := carried (by simp [State.setLinkAt])

@[simp ↓] theorem setWbAt_carried (i : Nat) (v : WbPort) : s.Carried fp (s.setWbAt i v) := carried (by simp [State.setWbAt])

@[simp ↓] theorem setFetchAt_carried (i : Nat) (v : SlotFetch) : s.Carried fp (s.setFetchAt i v) := carried (by simp [State.setFetchAt])

@[simp ↓] theorem setPresetAt_carried (i : Nat) (v : Option Nat) : s.Carried fp (s.setPresetAt i v) := carried (by simp [State.setPresetAt])

@[simp ↓] theorem setSigAt_carried (i : Nat) (v : SigHistory) : s.Carried fp (s.setSigAt i v) := carried (by simp [State.setSigAt])

@[simp ↓] theorem setGroupAt_carried (i : Nat) (v : GroupState) : s.Carried fp (s.setGroupAt i v) := carried (by simp [State.setGroupAt])

@[simp ↓] theorem setBzAt_carried (i : Nat) (v : BzShown) : s.Carried fp (s.setBzAt i v) := carried (by simp [State.setBzAt])

@[simp ↓] theorem setWatchAt_carried (i : Nat) (v : WatchState) : s.Carried fp (s.setWatchAt i v) := carried (by simp [State.setWatchAt])

@[simp ↓] theorem setSinkAt_carried (i : Nat) (v : SinkState) : s.Carried fp (s.setSinkAt i v) := carried (by simp [State.setSinkAt])

@[simp ↓] theorem setDmaAt_carried (i : Nat) (v : DmaCh) : s.Carried fp (s.setDmaAt i v) := carried (by simp [State.setDmaAt])

@[simp ↓] theorem setBlitAt_carried (i : Nat) (v : BlitCh) : s.Carried fp (s.setBlitAt i v) := carried (by simp [State.setBlitAt])

@[simp ↓] theorem setPolAt_carried (i : Nat) (v : Policer) : s.Carried fp (s.setPolAt i v) := carried (by simp [State.setPolAt])

@[simp ↓] theorem setShqAt_carried (i : Nat) (v : ShapeQ) : s.Carried fp (s.setShqAt i v) := carried (by simp [State.setShqAt])

@[simp ↓] theorem setDramAt_carried (i : Nat) (v : SubCh) : s.Carried fp (s.setDramAt i v) := carried (by simp [State.setDramAt])

@[simp ↓] theorem setIgAt_carried (i : Nat) (v : Ingest) : s.Carried fp (s.setIgAt i v) := carried (by simp [State.setIgAt])

@[simp ↓] theorem setLaneAt_carried (i : Nat) (v : Lane) : s.Carried fp (s.setLaneAt i v) := carried (by simp [State.setLaneAt])

@[simp ↓] theorem setCanAt_carried (i : Nat) (v : Can) : s.Carried fp (s.setCanAt i v) := carried (by simp [State.setCanAt])

@[simp ↓] theorem wrByte_carried (a : Nat) (b : Byte) : s.Carried ⟨true, flash⟩ (s.wrByte a b) := carried (wrByte_carries ..)

@[simp ↓] theorem wrBytes_carried (a : Nat) (bs : List Byte) : s.Carried ⟨true, flash⟩ (s.wrBytes a bs) := by
  induction bs generalizing s a with
  | nil => exact carried_refl _ _
  | cons b bs ih => exact carried (by simp [State.wrBytes, ih])

@[simp ↓] theorem lose_carried (keep : List (Nat × Nat)) : s.Carried ⟨true, flash⟩ (s.lose keep) := carried (lose_carries ..)

@[simp ↓] theorem wrFlash_carried (dev a : Nat) (b : Byte) : s.Carried ⟨mem, true⟩ (s.wrFlash dev a b) := carried (by simp [State.wrFlash])

@[simp ↓] theorem progFlash_carried (dev a : Nat) (bs : List Byte) : s.Carried ⟨mem, true⟩ (s.progFlash dev a bs) := by
  induction bs generalizing s a with
  | nil => exact carried_refl _ _
  | cons b bs ih => exact carried (by simp [State.progFlash, ih])

@[simp ↓] theorem eraseFlash_carried (dev a n : Nat) : s.Carried ⟨mem, true⟩ (s.eraseFlash dev a n) := by
  induction n generalizing s a with
  | zero => exact carried_refl _ _
  | succ n ih => exact carried (by simp [State.eraseFlash, ih])

@[simp ↓] theorem hwError_carried (p : Nat) : s.Carried fp (s.hwError p) := carried (by simp [State.hwError])

@[simp ↓] theorem toHost_carried (p : Nat) (m : HostMsg) : s.Carried fp (s.toHost p m) := carried (by simp [State.toHost])

theorem hwWrite_carries {s t : State} {p o : Nat} {bs : List Byte} (h : s.hwWrite p o bs = some t) : s.carries fp t := by
  unfold State.hwWrite at h
  split at h <;> cases h
  simp

@[simp ↓] theorem enqueue_carried (p : Nat) (e : Event) : s.Carried fp (s.enqueue p e) := carried (by simp [State.enqueue])

@[simp ↓] theorem nextSeq_carried (source : Nat) : s.Carried fp (s.nextSeq source) := carried (by simp [State.nextSeq])

@[simp ↓] theorem postLost_carried (p : Nat) : s.Carried fp (s.postLost p) := carried (by simp [State.postLost])

@[simp ↓] theorem offer_carried (e : Event) (p : Nat) : s.Carried fp (s.offer e p) := carried (by simp [State.offer])

@[simp ↓] theorem postTo_carried (ps : List Nat) (source type flags : Nat) (payload : List Byte) :
    s.Carried fp (s.postTo ps source type flags payload) := carried (by simp [State.postTo])

@[simp ↓] theorem post_carried (cls inst type flags : Nat) (payload : List Byte) :
    s.Carried fp (s.post cls inst type flags payload) := carried (by simp [State.post])

@[simp ↓] theorem postAll_carried (cls inst type : Nat) (payload : List Byte) :
    s.Carried fp (s.postAll cls inst type payload) := carried (by simp [State.postAll])

@[simp ↓] theorem postOwn_carried (p cls inst type : Nat) (payload : List Byte) :
    s.Carried fp (s.postOwn p cls inst type payload) := carried (by simp [State.postOwn])

theorem reserve_carries {s t : State} {ps : List Nat} (h : s.reserve ps = some t) : s.carries fp t := by
  induction ps generalizing s with
  | nil => cases h; exact carries_refl ..
  | cons p ps ih =>
    unfold State.reserve at h
    split at h
    · exact (ih h).after (by simp)
    · cases h

@[simp ↓] theorem unreserve_carried (ps : List Nat) : s.Carried fp (s.unreserve ps) := carried (by simp [State.unreserve])

@[simp ↓] theorem release_carried (ps : List Nat) : s.Carried fp (s.release ps) := carried (by simp [State.release])

@[simp ↓] theorem postReserved_carried (ps : List Nat) (source type flags : Nat) (payload : List Byte) :
    s.Carried fp (s.postReserved ps source type flags payload) := carried (by simp [State.postReserved])

@[simp ↓] theorem postPstate_carried (old new cause : Nat) :
    s.Carried fp (s.postPstate old new cause) := carried (by simp [State.postPstate])

@[simp ↓] theorem syncDegraded_carried : s.Carried fp s.syncDegraded := carried (by simp [State.syncDegraded])

@[simp ↓] theorem syncFault_carried : s.Carried fp s.syncFault := carried (by simp [State.syncFault])

@[simp ↓] theorem raiseFault_carried (f : Fld) (tl : Option Nat) : s.Carried fp (s.raiseFault f tl) := by
  refine carried ?_
  unfold State.raiseFault
  split <;> simp

theorem ledgerAdd_carries {s t : State} {role source action target result : Nat} {old new : List Byte}
    (h : s.ledgerAdd role source action target old new result = some t) : s.carries fp t := by
  unfold State.ledgerAdd at h
  split at h <;> cases h
  simp

@[simp ↓] theorem ledgerRefusal_carried (role source action target : Nat) (old new : List Byte) :
    s.Carried fp (s.ledgerRefusal role source action target old new) := by
  refine carried ?_
  unfold State.ledgerRefusal
  split
  · simp
  · split
    · exact ledgerAdd_carries ‹_›
    · simp

@[simp ↓] theorem ledgerDone_carried (role source action target : Nat) (old new : List Byte) :
    s.Carried fp (s.ledgerDone role source action target old new) := by
  refine carried ?_
  unfold State.ledgerDone
  split
  · exact ledgerAdd_carries ‹_›
  · simp

@[simp ↓] theorem drawFree_carried : s.Carried fp s.drawFree.2 := carried (by simp [State.drawFree])

/-! ### Machine/Access.lean -/

@[simp ↓] theorem logUr_carried (src : Src) (a : Nat) : s.Carried fp (s.logUr src a) := by
  refine carried ?_
  unfold State.logUr
  split <;> simp

@[simp ↓] theorem postDenied_carried (p offset value reason count : Nat) :
    s.Carried fp (s.postDenied p offset value reason count) := carried (by simp [State.postDenied])

@[simp ↓] theorem hostDenied_carried (p a value reason : Nat) : s.Carried fp (s.hostDenied p a value reason) := by
  refine carried ?_
  unfold State.hostDenied
  dsimp only
  split
  · simp
  · simp

@[simp ↓] theorem refuseWrite_carried (src : Src) (a value reason : Nat) : s.Carried fp (s.refuseWrite src a value reason) := by
  refine carried ?_
  unfold State.refuseWrite
  split <;> simp

@[simp ↓] theorem setBusy_carried (g : Nat) (v : Bool) : s.Carried fp (s.setBusy g v) := by
  refine carried ?_
  unfold State.setBusy
  split <;> simp

@[simp ↓] theorem setLost_carried (g : Nat) : s.Carried fp (s.setLost g) := by
  refine carried ?_
  unfold State.setLost
  split <;> simp

@[simp ↓] theorem postWrite_carried (src : Src) (a : Nat) (w : Word) :
    s.Carried fp (s.postWrite src a w) := carried (by simp [State.postWrite])

@[simp ↓] theorem setSealed_carried (t : Nat) (v : Bool) : s.Carried fp (s.setSealed t v) := carried (by simp [State.setSealed])

@[simp ↓] theorem setSealedWr_carried (a : Nat) : s.Carried fp (s.setSealedWr a) := carried (by simp [State.setSealedWr])

@[simp ↓] theorem filterField_carried (src : Src) (a value : Nat) (acc : Filtered) (f : FieldRow) :
    acc.s.Carried fp (filterField src a value acc f).s := by
  refine carried ?_
  unfold filterField
  dsimp only
  (repeat' split) <;> simp

theorem foldl_filterField_carried (src : Src) (a value : Nat) (fs : List FieldRow) (acc : Filtered) :
    acc.s.Carried fp (fs.foldl (filterField src a value) acc).s := by
  induction fs generalizing acc with
  | nil => exact carried_refl _ _
  | cons f fs ih => exact carried (by simp [ih])

@[simp ↓] theorem filterWord_carried (src : Src) (a value : Nat) (r : RegRow) :
    s.Carried fp (filterWord s src a value r).s := carried (by simp [filterWord, foldl_filterField_carried])

@[simp ↓] theorem markOnce_carried (a : Nat) (r : RegRow) : s.Carried fp (s.markOnce a r) := carried (by simp [State.markOnce])

theorem decideWrite_carries {adm : State → Nat → Word → State × Bool} (h : ∀ (s : State) a w, s.carries fp (adm s a w).1) (s : State) (src : Src)
    (a value : Nat) : s.carries fp ((decideWrite adm s src a value).elim (·.1) (·.1)) := by
  unfold decideWrite
  split
  · simp
  · split
    · simp
    · split
      · simp
      · next r _ _ _ =>
        extract_lets f s₁ w
        have hs : s.carries fp s₁ := by
          have hf : s.carries fp f.s := carries_of_carried (filterWord_carried _ _ _ _ _)
          unfold s₁
          split <;> simp [hf]
        split
        · exact hs
        · split
          · simp [hs]
          · split
            · split
              · have ha := h s₁ a w
                split
                · next e => rw [e] at ha; exact ha.after hs
                · next e => rw [e] at ha; simp [ha.after hs]
              · simp [hs]
            · exact hs

@[simp ↓] theorem tear_carried (changed : Bool) : s.Carried fp (s.tear changed) := carried (by simp [State.tear])

@[simp ↓] theorem wrHub_carried (a : Nat) (w : Word) : s.Carried fp (s.wrHub a w) := carried (by simp [State.wrHub])

@[simp ↓] theorem landWrite_carried (a : Nat) (w : Word) (r : RegRow) :
    s.Carried fp (s.landWrite a w r) := carried (by simp [State.landWrite])

@[simp ↓] theorem noAdm_carried (a : Nat) (w : Word) : s.Carried fp (noAdm s a w).1 := carried_refl _ _

@[simp ↓] theorem guarded_carried {eff : State → Word → State} (h : CarriesEach fp eff) (s : State) (src : Src) (a value : Nat) :
    s.Carried fp (s.guarded src a value eff).1 := by
  refine carried ?_
  have d := decideWrite_carries (fp := fp) (adm := noAdm) (fun s _ _ => carries_refl s _) s src (s.aliasAddr a) value
  unfold State.guarded
  split <;> rename_i e <;> rw [e] at d
  · exact d
  · exact (h _ _).after d

/-! ### Machine/Gatehouse.lean -/

@[simp ↓] theorem putWords_carried (base : Nat) (bs : List Byte) : s.Carried fp (s.putWords base bs) := carried (by simp [State.putWords])

@[simp ↓] theorem sesState_carried (st result : Nat) : s.Carried fp (s.sesState st result) := carried (by simp [State.sesState])

@[simp ↓] theorem sesFail_carried (result : Nat) : s.Carried fp (s.sesFail result) := carried (by simp [State.sesFail])

@[simp ↓] theorem sesRefuse_carried (result : Nat) : s.Carried fp (s.sesRefuse result) := carried (by simp [State.sesRefuse])

@[simp ↓] theorem sesClose_carried : s.Carried ⟨mem, true⟩ s.sesClose := carried (by simp [State.sesClose])

@[simp ↓] theorem sesChallenge_carried : s.Carried fp s.sesChallenge := by
  refine carried ?_
  unfold State.sesChallenge
  dsimp only
  (repeat' split) <;> simp

@[simp ↓] theorem sesRespond_carried : s.Carried fp s.sesRespond := carried (by simp [State.sesRespond])

@[simp ↓] theorem sesVerify_carried : s.Carried ⟨mem, true⟩ s.sesVerify := by
  refine carried ?_
  unfold State.sesVerify
  refine carries_ite_of ?_ (by simp)
  split
  · simp
  · next h => simp [ledgerAdd_carries h]

@[simp ↓] theorem sesCtrl_carried (w : Word) : s.Carried ⟨mem, true⟩ (s.sesCtrl w) := by
  refine carried ?_
  unfold State.sesCtrl
  split <;> simp

@[simp ↓] theorem lockHard_carried (w : Word) : s.Carried ⟨mem, true⟩ (s.lockHard w) := carried (by simp [State.lockHard])

@[simp ↓] theorem ikhProgram_carried (w : Word) : s.Carried fp (s.ikhProgram w) := carried (by simp [State.ikhProgram])

@[simp ↓] theorem ikhDone_carried : s.Carried ⟨mem, true⟩ s.ikhDone := carried (by simp [State.ikhDone])

@[simp ↓] theorem tokenSubmit_carried (src : Src) (w : Word) :
    s.Carried ⟨mem, true⟩ (s.tokenSubmit src w) := carried (by simp [State.tokenSubmit])

@[simp ↓] theorem makerEnd_carried : s.Carried fp s.makerEnd := carried (by simp [State.makerEnd])

@[simp ↓] theorem tokenCtrl_carried (src : Src) (w : Word) :
    s.Carried ⟨mem, true⟩ (s.tokenCtrl src w) := carried (by simp [State.tokenCtrl])

@[simp ↓] theorem cfgGo_carried (w : Word) : s.Carried fp (s.cfgGo w) := carried (by simp [State.cfgGo])

@[simp ↓] theorem cfgDone_carried : s.Carried fp s.cfgDone := carried (by simp [State.cfgDone])

@[simp ↓] theorem ledgerWrite_carried (dev seq : Nat) (bs : List Byte) :
    s.Carried ⟨mem, true⟩ (s.ledgerWrite dev seq bs) := carried (by simp [State.ledgerWrite])

@[simp ↓] theorem ledgerProgram_carried : s.Carried ⟨mem, true⟩ s.ledgerProgram := by
  refine carried ?_
  unfold State.ledgerProgram
  split <;> simp

@[simp ↓] theorem ledgerCopy_carried (from_ to_ head : Nat) :
    s.Carried ⟨mem, true⟩ (s.ledgerCopy from_ to_ head) := carried (by simp [State.ledgerCopy])

@[simp ↓] theorem ledgerShow_carried (seq : Nat) : s.Carried fp (s.ledgerShow seq) := carried (by simp [State.ledgerShow])

@[simp ↓] theorem ledgerStart_carried : s.Carried ⟨mem, true⟩ s.ledgerStart := by
  refine carried ?_
  unfold State.ledgerStart
  dsimp only
  split <;> simp

@[simp ↓] theorem foldPost_carried (p : Nat) : s.Carried fp (s.foldPost p) := carried (by simp [State.foldPost])

/-! ### Machine/Memory.lean -/

@[simp ↓] theorem clearPoison_carried (a n : Nat) : s.Carried fp (s.clearPoison a n) := carried (by simp [State.clearPoison])

@[simp ↓] theorem request_carried (write : Bool) (a n : Nat) (cls : MemClass) (deadline : Nat) (kind : ReadKind) :
    s.Carried fp (s.request write a n cls deadline kind) := by
  refine carried ?_
  unfold State.request
  split <;> simp

@[simp ↓] theorem putBlock_carried (a : Nat) (bs : List Byte) : s.Carried ⟨true, flash⟩ (s.putBlock a bs).1 := by
  refine carried ?_
  unfold State.putBlock
  split <;> simp

@[simp ↓] theorem putBlocks_carried (n a : Nat) (bs : List Byte) : s.Carried ⟨true, flash⟩ (s.putBlocks n a bs).1 := by
  induction n generalizing s a bs with
  | zero => exact carried_refl _ _
  | succ n ih => refine carried ?_; unfold State.putBlocks; split <;> simp [ih]

@[simp ↓] theorem memWrite_carried (a : Nat) (bs : List Byte) : s.Carried ⟨true, flash⟩ (s.memWrite a bs).1 := by
  refine carried ?_
  unfold State.memWrite
  split <;> simp

@[simp ↓] theorem busIssue_carried (a n : Nat) (cls : MemClass) (deadline : Nat) (kind : ReadKind) :
    s.Carried fp (s.busIssue a n cls deadline kind) := by
  refine carried ?_
  unfold State.busIssue
  split <;> simp

@[simp ↓] theorem busRetract_carried (a n : Nat) : s.Carried fp (s.busRetract a n) := by
  refine carried ?_
  unfold State.busRetract
  split <;> simp

@[simp ↓] theorem busRead_carried (a n : Nat) (res : ReadRes) (host : List Byte) : s.Carried fp (s.busRead a n res host).1 := by
  refine carried ?_
  unfold State.busRead
  (repeat' split) <;> simp

@[simp ↓] theorem dropFlying_carried (p : Nat) : s.Carried fp (s.dropFlying p) := carried (by simp [State.dropFlying])

theorem winWrite_carries {s t : State} {p o n : Nat} {bs : List Byte} (h : s.winWrite p o bs n = some t) : s.carries fp t := by
  induction n generalizing s o bs with
  | zero => cases h; exact carries_refl ..
  | succ n ih =>
    unfold State.winWrite at h
    dsimp only at h
    split at h
    · cases h; exact carries_refl ..
    · split at h
      · exact (ih h).after (hwWrite_carries ‹_›)
      · cases h

@[simp ↓] theorem busWrite_carried (a : Nat) (bs : List Byte) (cls : MemClass) (deadline : Nat) (kind : ReadKind) :
    s.Carried ⟨true, flash⟩ (s.busWrite a bs cls deadline kind).1 := by
  refine carried ?_
  unfold State.busWrite
  split
  · split
    · exact winWrite_carries ‹_›
    · simp
  · simp

/-! ### Machine/Carousel.lean -/

@[simp ↓] theorem polCount_carried (k : Nat) (green : Bool) (l : Nat) :
    s.Carried fp (s.polCount k green l) := carried (by simp [State.polCount])

@[simp ↓] theorem bar2Answer_carried (p a n : Nat) : s.Carried fp (s.bar2Answer p a n) := carried (by simp [State.bar2Answer])

@[simp ↓] theorem polRelease_carried (k : Nat) (pkt : Packet) (green : Bool) :
    s.Carried ⟨true, flash⟩ (s.polRelease k pkt green) := carried (by simp [State.polRelease])

@[simp ↓] theorem polTokens_carried (k : Nat) : s.Carried fp (s.polTokens k) := carried (by simp [State.polTokens])

@[simp ↓] theorem holdEvent_carried (k state value : Nat) : s.Carried fp (s.holdEvent k state value) := carried (by simp [State.holdEvent])

@[simp ↓] theorem polColour_carried (k t : Nat) (pkt : Packet) :
    s.Carried ⟨true, flash⟩ (s.polColour k t pkt).1 := carried (by simp [State.polColour])

@[simp ↓] theorem polDrain_carried (k t : Nat) (ps : List Packet) : s.Carried ⟨true, flash⟩ (s.polDrain k t ps) := by
  induction ps generalizing s with
  | nil => exact carried (by simp [State.polDrain])
  | cons p ps ih => refine carried ?_; unfold State.polDrain; simp [ih]

@[simp ↓] theorem polUnhold_carried (k tr : Nat) : s.Carried ⟨true, flash⟩ (s.polUnhold k tr) := by
  refine carried ?_
  unfold State.polUnhold
  dsimp only
  split <;> simp

@[simp ↓] theorem polDueN_carried (k n : Nat) (s : State) : s.Carried ⟨true, flash⟩ (s.polDueN k n) := by
  induction n generalizing s with
  | zero => exact carried_refl _ _
  | succ n ih => refine carried ?_; unfold State.polDueN; split <;> simp [ih]

@[simp ↓] theorem polDue_carried (k : Nat) : s.Carried ⟨true, flash⟩ (s.polDue k) := carried (by simp [State.polDue])

@[simp ↓] theorem polArrive_carried (k : Nat) (pkt : Packet) :
    s.Carried ⟨true, flash⟩ (s.polArrive k pkt) := carried (by simp [State.polArrive])

@[simp ↓] theorem polPortReset_carried (p : Nat) : s.Carried fp (s.polPortReset p) := carried (by simp [State.polPortReset])

@[simp ↓] theorem carouselStart_carried : s.Carried fp s.carouselStart := carried (by simp [State.carouselStart])

@[simp ↓] theorem qRelease_carried (q t : Nat) (green : Bool) (w : QWait) (rest : List QWait) :
    s.Carried fp (s.qRelease q t green w rest) := by
  refine carried ?_
  unfold State.qRelease
  split <;> simp

@[simp ↓] theorem qPark_carried (q : Nat) (e : Option Nat) : s.Carried fp (s.qPark q e) := carried (by simp [State.qPark])

@[simp ↓] theorem qServe_carried (q t : Nat) (ws : List QWait) : s.Carried fp (s.qServe q t ws) := by
  induction ws generalizing s with
  | nil => exact carried (by simp [State.qServe])
  | cons w ws ih => exact carried (by simp [State.qServe, ih])

@[simp ↓] theorem qEnter_carried (q : Nat) (w : QWait) : s.Carried fp (s.qEnter q w) := carried (by simp [State.qEnter])

@[simp ↓] theorem qWithdraw_carried (q c : Nat) : s.Carried fp (s.qWithdraw q c) := carried (by simp [State.qWithdraw])

@[simp ↓] theorem qDue_carried (q : Nat) : s.Carried fp (s.qDue q) := by
  refine carried ?_
  unfold State.qDue
  split <;> simp

@[simp ↓] theorem qSetRate_carried (q rate : Nat) : s.Carried fp (s.qSetRate q rate) := carried (by simp [State.qSetRate])

@[simp ↓] theorem qRateWrite_carried (q : Nat) (w : Word) : s.Carried fp (s.qRateWrite q w) := carried (by simp [State.qRateWrite])

@[simp ↓] theorem qContractLanded_carried (q : Nat) : s.Carried fp (s.qContractLanded q) := carried (by simp [State.qContractLanded])

@[simp ↓] theorem hubCharge_carried (q n : Nat) : s.Carried fp (s.hubCharge q n) := carried (by simp [State.hubCharge])

@[simp ↓] theorem hostCharge_carried (a n : Nat) : s.Carried fp (s.hostCharge a n) := by
  refine carried ?_
  unfold State.hostCharge
  split <;> simp

@[simp ↓] theorem unitIssue_carried (a n : Nat) (cls : MemClass) : s.Carried fp (s.unitIssue a n cls) := carried (by simp [State.unitIssue])

@[simp ↓] theorem unitWrite_carried (a : Nat) (bs : List Byte) :
    s.Carried ⟨true, flash⟩ (s.unitWrite a bs).1 := carried (by simp [State.unitWrite])

@[simp ↓] theorem hubWrite_carried (a : Nat) (bs : List Byte) :
    s.Carried ⟨true, flash⟩ (s.hubWrite a bs) := carried (by simp [State.hubWrite])

/-! ### Machine/Dram.lean -/

@[simp ↓] theorem rankFail_carried (k r : Nat) : s.Carried fp (s.rankFail k r) := carried (by simp [State.rankFail])

@[simp ↓] theorem noteReport_carried (k hpa : Nat) : s.Carried fp (s.noteReport k hpa) := carried (by simp [State.noteReport])

@[simp ↓] theorem rankUe_carried (k rank : Nat) : s.Carried fp (s.rankUe k rank) := carried (by simp [State.rankUe])

@[simp ↓] theorem dramUe_carried (k hpa kind syn copy : Nat) :
    s.Carried fp (s.dramUe k hpa kind syn copy) := carried (by simp [State.dramUe])

@[simp ↓] theorem wqShow_carried (k : Nat) : s.Carried fp (s.wqShow k) := carried (by simp [State.wqShow])

@[simp ↓] theorem wqEnter_carried (k hpa : Nat) (bs : List Byte) (cls : MemClass) (deadline : Nat) :
    s.Carried ⟨true, flash⟩ (s.wqEnter k hpa bs cls deadline) := by
  refine carried ?_
  cases h : (s.dramAt k).entryOf (blockOf hpa) <;> simp [State.wqEnter, h]

@[simp ↓] theorem wqOffer_carried (k hpa : Nat) (bs : List Byte) (cls : MemClass) (deadline : Nat) :
    s.Carried ⟨true, flash⟩ (s.wqOffer k hpa bs cls deadline) := carried (by simp [State.wqOffer])

@[simp ↓] theorem wqRefill_carried (k : Nat) (kept ws : List (Nat × List Byte × MemClass × Nat)) :
    s.Carried ⟨true, flash⟩ (s.wqRefill k kept ws) := by
  induction ws generalizing s kept with
  | nil => exact carried (by simp [State.wqRefill])
  | cons w ws ih => exact carried (by simp [State.wqRefill, ih])

@[simp ↓] theorem dramWrite_carried (c : DramConf) (hpa : Nat) (bs : List Byte) (cls : MemClass) (deadline : Nat) :
    s.Carried ⟨true, flash⟩ (s.dramWrite c hpa bs cls deadline) := carried (by simp [State.dramWrite])

@[simp ↓] theorem writeBack_carried (k hpa : Nat) (cls : MemClass) (deadline : Nat) :
    s.Carried ⟨true, flash⟩ (s.writeBack k hpa cls deadline) := carried (by simp [State.writeBack])

@[simp ↓] theorem dramCe_carried (k hpa : Nat) : s.Carried ⟨true, flash⟩ (s.dramCe k hpa) := carried (by simp [State.dramCe])

@[simp ↓] theorem dramRepair_carried (k rank hpa : Nat) (cls : MemClass) (deadline : Nat) :
    s.Carried ⟨true, flash⟩ (s.dramRepair k rank hpa cls deadline) := carried (by simp [State.dramRepair])

@[simp ↓] theorem checkCopy_carried (hpa k rank copy : Nat) (r : BlockRead) :
    s.Carried ⟨true, flash⟩ (s.checkCopy hpa k rank copy r).1 := by
  refine carried ?_
  unfold State.checkCopy
  split <;> simp

@[simp ↓] theorem dramCheck_carried (c : DramConf) (hpa : Nat) (cls : MemClass) (deadline : Nat) (errs0 errs1 : List BeatErr) :
    s.Carried ⟨true, flash⟩ (s.dramCheck c hpa cls deadline errs0 errs1).1 := by
  refine carried ?_
  unfold State.dramCheck
  dsimp only
  (repeat' split) <;> simp

@[simp ↓] theorem readEnter_carried (k blk : Nat) (cls : MemClass) (deadline : Nat) (kind : ReadKind) :
    s.Carried fp (s.readEnter k blk cls deadline kind) := by
  refine carried ?_
  cases h : (s.dramAt k).entryOf blk <;> simp [State.readEnter, h]

@[simp ↓] theorem openRow_carried (k : Nat) (l : DramLoc) : s.Carried fp (s.openRow k l) := carried (by simp [State.openRow])

@[simp ↓] theorem fillDone_carried (k id : Nat) (good : Bool) : s.Carried fp (s.fillDone k id good) := by
  refine carried ?_
  cases h : (s.dramAt k).wq.find? fun e => e.id == id <;> simp [State.fillDone, h]

@[simp ↓] theorem batchStart_carried (k : Nat) : s.Carried fp (s.batchStart k) := carried (by simp [State.batchStart])

@[simp ↓] theorem wrFree_carried (a n : Nat) : s.Carried ⟨true, flash⟩ (s.wrFree a n) := by
  induction n generalizing s a with
  | zero => exact carried_refl _ _
  | succ n ih => exact carried (by simp [State.wrFree, ih, State.drawFree])

@[simp ↓] theorem wqDrop_carried (k id : Nat) : s.Carried ⟨true, flash⟩ (s.wqDrop k id) := carried (by simp [State.wqDrop])

@[simp ↓] theorem writeLost_carried (k hpa : Nat) : s.Carried ⟨true, flash⟩ (s.writeLost k hpa) := by
  refine carried ?_
  unfold State.writeLost
  split <;> simp

@[simp ↓] theorem wqAck_carried (k id : Nat) : s.Carried ⟨true, flash⟩ (s.wqAck k id) := by
  refine carried ?_
  unfold State.wqAck
  split <;> simp

@[simp ↓] theorem payStart_carried (k r : Nat) : s.Carried fp (s.payStart k r) := carried (by simp [State.payStart])

@[simp ↓] theorem refreshTick_carried (k r : Nat) : s.Carried fp (s.refreshTick k r) := carried (by simp [State.refreshTick])

@[simp ↓] theorem postTemp_carried (k kind : Nat) : s.Carried fp (s.postTemp k kind) := carried (by simp [State.postTemp])

@[simp ↓] theorem enter2x_carried (k : Nat) : s.Carried fp (s.enter2x k) := carried (by simp [State.enter2x])

@[simp ↓] theorem leave2x_carried (k : Nat) : s.Carried fp (s.leave2x k) := carried (by simp [State.leave2x])

@[simp ↓] theorem tickFirst_carried (k : Nat) : s.Carried fp (s.tickFirst k) := carried (by simp [State.tickFirst])

@[simp ↓] theorem tempEval_carried (k : Nat) : s.Carried fp (s.tempEval k) := carried (by simp [State.tempEval])

@[simp ↓] theorem owedPaid_carried (k r : Nat) : s.Carried fp (s.owedPaid k r) := carried (by simp [State.owedPaid])

@[simp ↓] theorem drawTrained_carried (n : Nat) : s.Carried fp (s.drawTrained n).2 := by
  induction n generalizing s with
  | zero => exact carried_refl _ _
  | succ n ih => exact carried (by simp [State.drawTrained, ih])

theorem carries_of_drawTrained {s t : State} {n : Nat} {bs : List Byte} (h : s.drawTrained n = (bs, t)) : s.carries fp t := by
  have hs := carries_of_carried (fp := fp) (drawTrained_carried s n)
  rwa [h] at hs

@[simp ↓] theorem rankRecord_carried : s.Carried fp s.rankRecord.2 := by
  refine carried ?_
  generalize e : State.rankRecord = f
  delta State.rankRecord at e
  subst e
  beta_reduce
  split; next a t ha =>
  split; next b u hb =>
  split; next c v hc =>
  exact (carries_of_drawTrained hc).after ((carries_of_drawTrained hb).after (carries_of_drawTrained ha))

@[simp ↓] theorem trainRank_carried (c : DramConf) (k r : Nat) : s.Carried fp (s.trainRank c k r) := by
  refine carried ?_
  unfold State.trainRank
  dsimp only
  split <;> simp

/-! ### Machine/Engines.lean -/

@[simp ↓] theorem bell_carried {eff : State → State} (h : Carries fp eff) (s : State) (src : Src) (addr value : Nat) :
    s.Carried fp (s.bell src addr value eff) := by
  refine carried ?_
  unfold State.bell
  split
  · simp
  · exact h s

@[simp ↓] theorem markUse_carried (i : Nat) : s.Carried fp (s.markUse i) := carried (by simp [State.markUse])

@[simp ↓] theorem markFetch_carried (i : Nat) : s.Carried fp (s.markFetch i) := carried (by simp [State.markFetch])

@[simp ↓] theorem showStage_carried : s.Carried fp s.showStage := carried (by simp [State.showStage])

@[simp ↓] theorem issueRead_carried (c : Nat) : s.Carried fp (s.issueRead c) := by
  refine carried ?_
  unfold State.issueRead
  dsimp only
  split <;> simp

@[simp ↓] theorem issueReads_carried (n : Nat) : s.Carried fp (s.issueReads n) := by
  induction n generalizing s with
  | zero => exact carried (by simp [State.issueReads])
  | succ n ih => refine carried ?_; unfold State.issueReads; split <;> simp [ih]

@[simp ↓] theorem dmaBegin_carried (c : Nat) : s.Carried fp (s.dmaBegin c) := by
  refine carried ?_
  unfold State.dmaBegin
  dsimp only
  split <;> simp

@[simp ↓] theorem blitAsk_carried (c n : Nat) : s.Carried fp (s.blitAsk c n) := by
  refine carried ?_
  unfold State.blitAsk
  split <;> simp

@[simp ↓] theorem blitBegin_carried (c : Nat) : s.Carried fp (s.blitBegin c) := by
  refine carried ?_
  unfold State.blitBegin
  dsimp only
  split <;> simp

@[simp ↓] theorem blitTrigger_carried (c : Nat) : s.Carried fp (s.blitTrigger c) := by
  refine carried ?_
  unfold State.blitTrigger
  dsimp only
  split <;> simp

@[simp ↓] theorem trigger_carried (kind unit arg : Nat) : s.Carried fp (s.trigger kind unit arg) := by
  refine carried ?_
  unfold State.trigger
  extract_lets s₁ s₂
  have h₁ : s.carries fp s₁ := by simp [s₁]
  have h₂ : s.carries fp s₂ := .trans h₁ (foldl_carries (fun s c => by split <;> simp) _ _)
  refine carries_ite_of (h₂.trans ?_) h₁
  exact foldl_carries (fun s c => by split <;> simp) _ _

/-! ### Machine/Dma.lean -/

@[simp ↓] theorem setCur_carried (c a : Nat) : s.Carried fp (s.setCur c a) := carried (by simp [State.setCur])

@[simp ↓] theorem setLast_carried (c a : Nat) : s.Carried fp (s.setLast c a) := carried (by simp [State.setLast])

@[simp ↓] theorem setDmState_carried (c st : Nat) : s.Carried fp (s.setDmState c st) := carried (by simp [State.setDmState])

@[simp ↓] theorem dmaStop_carried (c st cause : Nat) : s.Carried fp (s.dmaStop c st cause) := carried (by simp [State.dmaStop])

@[simp ↓] theorem setWant_carried (c : Nat) (w : Want) : s.Carried fp (s.setWant c w) := carried (by simp [State.setWant])

@[simp ↓] theorem dmaAsk_carried (c : Nat) (w : Want) (a n : Nat) : s.Carried fp (s.dmaAsk c w a n) := carried (by simp [State.dmaAsk])

@[simp ↓] theorem readDesc_carried (c : Nat) : s.Carried fp (s.readDesc c) := by
  refine carried ?_
  unfold State.readDesc
  split <;> simp

@[simp ↓] theorem readNext_carried (c : Nat) : s.Carried fp (s.readNext c) := carried (by simp [State.readNext])

@[simp ↓] theorem dmaResume_carried : s.Carried fp s.dmaResume := carried (by simp [State.dmaResume])

@[simp ↓] theorem dmaReread_carried (c : Nat) : s.Carried fp (s.dmaReread c) := carried (by simp [State.dmaReread])

@[simp ↓] theorem dmaPark_carried (c : Nat) : s.Carried fp (s.dmaPark c) := carried (by simp [State.dmaPark])

@[simp ↓] theorem dmaStart_carried (c : Nat) : s.Carried fp (s.dmaStart c) := carried (by simp [State.dmaStart])

@[simp ↓] theorem dmaStatus_carried (a : Nat) (d : List Byte) :
    s.Carried ⟨true, flash⟩ (s.dmaStatus a d).1 := carried (by simp [State.dmaStatus])

@[simp ↓] theorem settleEvent_carried (cls inst type : Nat) (use : Bool) (payload : List Byte) :
    s.Carried fp (s.settleEvent cls inst type use payload) := carried (by simp [State.settleEvent])

@[simp ↓] theorem dmaEnd_carried (c code detail errOff residue crcOut : Nat) (statusBad : Bool) (stop : Option Nat) :
    s.Carried ⟨true, flash⟩ (s.dmaEnd c code detail errOff residue crcOut statusBad stop) := by
  refine carried ?_
  unfold State.dmaEnd
  dsimp only
  split
  · exact carries_refl ..
  · split <;> simp

@[simp ↓] theorem dmaCrcStart_carried (c : Nat) (d : List Byte) : s.Carried fp (s.dmaCrcStart c d).1 := by
  refine carried ?_
  unfold State.dmaCrcStart
  (repeat' split) <;> simp

@[simp ↓] theorem dmaAccept_carried (c owner : Nat) (d : List Byte) (statBad : Bool) :
    s.Carried ⟨true, flash⟩ (s.dmaAccept c owner d statBad) := by
  refine carried ?_
  unfold State.dmaAccept
  split <;> simp

@[simp ↓] theorem dmaDescErr_carried (c : Nat) : s.Carried fp (s.dmaDescErr c) := carried (by simp [State.dmaDescErr])

@[simp ↓] theorem dmaDesc_carried (c : Nat) (res : ReadRes) (host : List Byte) (statBad : Bool) :
    s.Carried ⟨true, flash⟩ (s.dmaDesc c res host statBad) := by
  refine carried ?_
  have h := carries_of_carried (fp := ⟨true, flash⟩) (busRead_carried s (s.dmaCur c) 64 res host)
  generalize e : @State.dmaDesc = f
  delta State.dmaDesc at e
  subst e
  beta_reduce
  generalize s.busRead (s.dmaCur c) 64 res host = x at h ⊢
  split
  · exact carries_refl ..
  · simp [h]
  · split
    · split
      · simp [h]
      · split
        · next r => simp [(reserve_carries r).after h]
        · simp [h]
    · simp [h]

@[simp ↓] theorem dmaForget_carried (c : Nat) : s.Carried fp (s.dmaForget c) := by
  refine carried ?_
  unfold State.dmaForget
  split <;> simp

@[simp ↓] theorem dmaKill_carried (c detail cause : Nat) (statBad : Bool) : s.Carried ⟨true, flash⟩ (s.dmaKill c detail cause statBad) := by
  refine carried ?_
  unfold State.dmaKill
  dsimp only
  split <;> simp

@[simp ↓] theorem dmaLink_carried (c : Nat) (res : ReadRes) (host : List Byte) : s.Carried fp (s.dmaLink c res host) := by
  refine carried ?_
  have h := carries_of_carried (fp := fp) (busRead_carried s (s.dmaLastAt c + 40) 8 res host)
  generalize e : @State.dmaLink = f
  delta State.dmaLink at e
  subst e
  beta_reduce
  generalize s.busRead (s.dmaLastAt c + 40) 8 res host = x at h ⊢
  obtain ⟨t, _ | w⟩ := x
  · simp [h]
  · simp [h]

@[simp ↓] theorem dmaDrain_carried (c n : Nat) : s.Carried ⟨true, flash⟩ (s.dmaDrain c n) := by
  induction n generalizing s with
  | zero => exact carried_refl _ _
  | succ n ih =>
    refine carried ?_
    unfold State.dmaDrain
    dsimp only
    split
    · exact carries_refl ..
    · split
      · exact carries_refl ..
      · split <;> simp [ih]

@[simp ↓] theorem dmaFlushRead_carried (c : Nat) : s.Carried fp (s.dmaFlushRead c) := by
  refine carried ?_
  unfold State.dmaFlushRead
  dsimp only
  split <;> simp

@[simp ↓] theorem dmaReturn_carried (c off : Nat) (res : ReadRes) (host : List Byte) :
    s.Carried ⟨true, flash⟩ (s.dmaReturn c off res host) := by
  refine carried ?_
  unfold State.dmaReturn
  dsimp only
  split <;> simp

@[simp ↓] theorem dmaAcked_carried (c : Nat) : s.Carried fp (s.dmaAcked c) := by
  refine carried ?_
  cases h : (s.dmaAt c).run <;> simp [State.dmaAcked, h]

@[simp ↓] theorem dmaDone_carried (c : Nat) (badWr : List Nat) (wrFirst flushOk : Bool) :
    s.Carried ⟨true, flash⟩ (s.dmaDone c badWr wrFirst flushOk) := by
  refine carried ?_
  unfold State.dmaDone
  split <;> simp

@[simp ↓] theorem dmaTakeBack_carried (c : Nat) : s.Carried fp (s.dmaTakeBack c) := by
  refine carried ?_
  unfold State.dmaTakeBack
  dsimp only
  (repeat' split) <;> simp

@[simp ↓] theorem dmaAbort_carried (c detail cause : Nat) (statBad : Bool) :
    s.Carried ⟨true, flash⟩ (s.dmaAbort c detail cause statBad) := by
  refine carried ?_
  unfold State.dmaAbort
  dsimp only
  (repeat' split) <;> simp

@[simp ↓] theorem abortFinish_carried (c : Nat) (statBad : Bool) : s.Carried ⟨true, flash⟩ (s.abortFinish c statBad) := by
  refine carried ?_
  unfold State.abortFinish
  split <;> simp

@[simp ↓] theorem dmCtrl_carried (c : Nat) (w : Word) (statBad : Bool) :
    s.Carried ⟨true, flash⟩ (s.dmCtrl c w statBad) := carried (by simp [State.dmCtrl])

@[simp ↓] theorem dmRing_carried (c : Nat) : s.Carried fp (s.dmRing c) := by
  refine carried ?_
  unfold State.dmRing
  dsimp only
  split <;> simp

@[simp ↓] theorem dmDb_carried (src : Src) (c : Nat) (w : Word) : s.Carried fp (s.dmDb src c w) := carried (by simp [State.dmDb])

@[simp ↓] theorem dmaParkAll_carried : s.Carried ⟨true, flash⟩ s.dmaParkAll := carried (by simp [State.dmaParkAll])

@[simp ↓] theorem dmaIslandReset_carried : s.Carried fp s.dmaIslandReset := by
  refine carried ?_
  unfold State.dmaIslandReset
  refine foldl_carries (fun s c => ?_) _ s
  dsimp only
  split <;> simp

@[simp ↓] theorem dmaAgain_carried : s.Carried fp s.dmaAgain := by
  refine carried ?_
  unfold State.dmaAgain
  refine (foldl_carries (fun s c => ?_) _ _).after (by simp)
  split <;> simp

@[simp ↓] theorem dmaFlush_carried : s.Carried ⟨true, flash⟩ s.dmaFlush := by
  refine carried ?_
  unfold State.dmaFlush
  refine foldl_carries (fun s c => ?_) _ s
  dsimp only
  split
  · exact carries_refl ..
  · split
    · next h => simp [carries_of_fst h (carries_of_carried (dmaStatus_carried _ _ _))]
    · exact carries_refl ..

/-! ### Machine/Blit.lean -/

@[simp ↓] theorem setBlState_carried (c st : Nat) : s.Carried fp (s.setBlState c st) := carried (by simp [State.setBlState])

@[simp ↓] theorem blitHalt_carried (c cause : Nat) (job : Option (Nat × Nat × Nat)) :
    s.Carried fp (s.blitHalt c cause job) := carried (by simp [State.blitHalt])

@[simp ↓] theorem blitNext_carried (c : Nat) : s.Carried fp (s.blitNext c) := by
  refine carried ?_
  unfold State.blitNext
  split <;> simp

@[simp ↓] theorem engResume_carried : s.Carried fp s.engResume := carried (by simp [State.engResume])

@[simp ↓] theorem blitRing_carried (c : Nat) (w : Word) : s.Carried fp (s.blitRing c w) := by
  refine carried ?_
  unfold State.blitRing
  split <;> simp

@[simp ↓] theorem blDb_carried (src : Src) (c : Nat) (w : Word) : s.Carried fp (s.blDb src c w) := carried (by simp [State.blDb])

@[simp ↓] theorem blitStatus_carried (a : Nat) (j : List Byte) :
    s.Carried ⟨true, flash⟩ (s.blitStatus a j).1 := carried (by simp [State.blitStatus])

@[simp ↓] theorem blitRest_carried (c : Nat) : s.Carried fp (s.blitRest c) := carried (by simp [State.blitRest])

@[simp ↓] theorem blitEnd_carried (c code detail rows errRow unwritten : Nat) (statusOk : Bool) (stop : Option Nat) :
    s.Carried ⟨true, flash⟩ (s.blitEnd c code detail rows errRow unwritten statusOk stop) := by
  refine carried ?_
  unfold State.blitEnd
  dsimp only
  (repeat' split) <;> simp

@[simp ↓] theorem drawHalf_carried : s.Carried fp s.drawHalf.2 := carried (by simp [State.drawHalf])

@[simp ↓] theorem blitAccept_carried (c owner : Nat) (j : List Byte) (statBad : Bool) :
    s.Carried ⟨true, flash⟩ (s.blitAccept c owner j statBad) := by
  refine carried ?_
  unfold State.blitAccept
  dsimp only
  (repeat' split) <;> simp

@[simp ↓] theorem blitJob_carried (c : Nat) (res : ReadRes) (host : List Byte) (statBad : Bool) :
    s.Carried ⟨true, flash⟩ (s.blitJob c res host statBad) := by
  refine carried ?_
  generalize e : @State.blitJob = f
  delta State.blitJob at e
  subst e
  have h := carries_of_carried (fp := ⟨true, flash⟩) (busRead_carried s (s.jobAddr c) 64 res host)
  beta_reduce
  generalize s.busRead (s.jobAddr c) 64 res host = x at h ⊢
  split
  · exact carries_refl ..
  · simp [h]
  · split
    · next r => simp [(reserve_carries r).after h]
    · simp [h]

@[simp ↓] theorem moveUnit_carried (badRd badWr : List Nat) (k : Nat) (p : Plane) (v : Nat) (acc : BlitRun) (u : Nat) :
    s.Carried ⟨true, flash⟩ (s.moveUnit badRd badWr k p v acc u).1 := carried (by simp [State.moveUnit])

@[simp ↓] theorem rowPoison_carried (k : Nat) (p : Plane) (acc : BlitRun) (v : Nat) :
    s.Carried ⟨true, flash⟩ (s.rowPoison k p acc v).1 := carried (by simp [State.rowPoison])

@[simp ↓] theorem moveRow_carried (badRd badWr : List Nat) (k : Nat) (p : Plane) (right : Bool) (acc : BlitRun) (v : Nat) :
    s.Carried ⟨true, flash⟩ (s.moveRow badRd badWr k p right acc v).1 := by
  refine carried ?_
  have fold := foldl_fst_carries (f := fun x u => x.1.moveUnit badRd badWr k p v x.2 u) fun x u => carries_of_carried (fp := ⟨true, flash⟩) (moveUnit_carried x.1 badRd badWr k p v x.2 u)
  simp [State.moveRow, fun l x => carried (fold l x)]

@[simp ↓] theorem moveBand_carried (badRd badWr : List Nat) (k : Nat) (p : Plane) (down right : Bool) (acc : BlitRun) (n : Nat) :
    s.Carried ⟨true, flash⟩ (s.moveBand badRd badWr k p down right acc n).1 := by
  refine carried ?_
  unfold State.moveBand
  extract_lets b dh rows
  exact foldl_fst_carries (f := fun x v => x.1.moveRow badRd badWr k p right x.2 v)
    (fun x v => carries_of_carried (moveRow_carried x.1 badRd badWr k p right x.2 v)) _ (s, acc)

@[simp ↓] theorem wmAdvance_carried (c : Nat) (r : BlitRun) (down : Bool) (n : Nat) : s.Carried fp (s.wmAdvance c r down n) := by
  induction n generalizing s with
  | zero => exact carried_refl _ _
  | succ n ih => exact carried (by simp [State.wmAdvance, ih])

@[simp ↓] theorem wmShow_carried (c : Nat) (r : BlitRun) : s.Carried fp (s.wmShow c r) := carried (by simp [State.wmShow])

@[simp ↓] theorem bandSlip_carried (c : Nat) (r : BlitRun) : s.Carried fp (s.bandSlip c r) := carried (by simp [State.bandSlip])

@[simp ↓] theorem bandLate_carried (c : Nat) : s.Carried fp (s.bandLate c) := by
  refine carried ?_
  unfold State.bandLate
  split <;> simp

@[simp ↓] theorem blitStep_carried (c : Nat) (badRd badWr : List Nat) : s.Carried ⟨true, flash⟩ (s.blitStep c badRd badWr) := by
  refine carried ?_
  unfold State.blitStep
  dsimp only
  (repeat' split) <;> simp

@[simp ↓] theorem bandSlot_carried (c : Nat) : s.Carried fp (s.bandSlot c) := by
  refine carried ?_
  unfold State.bandSlot
  dsimp only
  split <;> simp

@[simp ↓] theorem blitDone_carried (c : Nat) (statusOk : Bool) : s.Carried ⟨true, flash⟩ (s.blitDone c statusOk) := by
  refine carried ?_
  unfold State.blitDone
  split <;> simp

@[simp ↓] theorem blurRows_carried (r : BlitRun) (down : Bool) (rows : Nat) : s.Carried ⟨true, flash⟩ (s.blurRows r down rows) := by
  refine carried ?_
  unfold State.blurRows
  split <;> simp

@[simp ↓] theorem blitKill_carried (c detail cause : Nat) (statBad : Bool) :
    s.Carried ⟨true, flash⟩ (s.blitKill c detail cause statBad) := by
  refine carried ?_
  unfold State.blitKill
  split <;> simp

@[simp ↓] theorem blitAbort_carried (c : Nat) (statBad : Bool) :
    s.Carried ⟨true, flash⟩ (s.blitAbort c statBad) := carried (by simp [State.blitAbort])

@[simp ↓] theorem blitEnable_carried (c : Nat) (en : Bool) : s.Carried fp (s.blitEnable c en) := carried (by simp [State.blitEnable])

@[simp ↓] theorem blCtrl_carried (c : Nat) (w : Word) (statBad : Bool) :
    s.Carried ⟨true, flash⟩ (s.blCtrl c w statBad) := carried (by simp [State.blCtrl])

@[simp ↓] theorem blitParkAll_carried : s.Carried ⟨true, flash⟩ s.blitParkAll := carried (by simp [State.blitParkAll])

@[simp ↓] theorem blitIslandReset_carried : s.Carried ⟨true, flash⟩ s.blitIslandReset := by
  refine carried ?_
  unfold State.blitIslandReset
  refine foldl_carries (fun s c => ?_) _ s
  dsimp only
  split <;> simp

@[simp ↓] theorem blitAgain_carried : s.Carried fp s.blitAgain := carried (by simp [State.blitAgain])

@[simp ↓] theorem blitFlush_carried : s.Carried ⟨true, flash⟩ s.blitFlush := by
  refine carried ?_
  unfold State.blitFlush
  refine foldl_carries (fun s c => ?_) _ s
  dsimp only
  split
  · exact carries_refl ..
  · split
    · next h => simp [carries_of_fst h (carries_of_carried (blitStatus_carried _ _ _))]
    · exact carries_refl ..

/-! ### Machine/HostPort.lean -/

theorem evWrite_f_carries (p n : Nat) (b : Nat.below (motive := fun _ => State → State) (n + 1)) (h : ∀ s : State, s.carries fp (b.1 s))
    (s : State) : s.carries fp (State.evWrite._f p (n + 1) b s) := by
  generalize e : State.evWrite._f = f
  delta State.evWrite._f at e
  subst e
  dsimp -zeta only
  cases (s.evAt p).backlog with
  | nil => exact carries_refl ..
  | cons e rest =>
    dsimp -zeta only
    rw [carries_ite]
    cases k : s.hwWrite p (s.evBase p + s.rdN (HP_EV_PROD p) % 2 ^ s.evLog2 p * s.evRecord) (e.bytes s.power.compat) with
    | none => simp
    | some t => simp [fun s => carried (h s), hwWrite_carries (fp := fp) k]

@[simp ↓] theorem evWrite_carried (p n : Nat) : s.Carried fp (s.evWrite p n) := by
  refine carried ?_
  generalize e : @State.evWrite = f
  delta State.evWrite at e
  subst e
  exact brecOn_carries (fun _ s => carries_refl s _) (evWrite_f_carries p) n s

@[simp ↓] theorem vecSend_carried (p v : Nat) : s.Carried fp (s.vecSend p v) := carried (by simp [State.vecSend])

@[simp ↓] theorem vecEvent_carried (p source : Nat) : s.Carried fp (s.vecEvent p source) := carried (by simp [State.vecEvent])

@[simp ↓] theorem msixUnmask_carried (p : Nat) : s.Carried fp (s.msixUnmask p) := carried (by simp [State.msixUnmask])

@[simp ↓] theorem evCover_carried (p : Nat) : s.Carried fp (s.evCover p) := by
  refine carried ?_
  generalize e : @State.evCover = f
  delta State.evCover at e
  subst e
  beta_reduce
  extract_lets wb
  cases h : s.hwWrite p (s.evWb p) wb with
  | none => simp
  | some t => simp [hwWrite_carries h]

@[simp ↓] theorem evFlush_carried (p : Nat) : s.Carried fp (s.evFlush p) := carried (by simp [State.evFlush])

@[simp ↓] theorem evCtrl_carried (p : Nat) (w : Word) : s.Carried fp (s.evCtrl p w) := carried (by simp [State.evCtrl])

@[simp ↓] theorem postHostLink_carried (p state cause speed width : Nat) :
    s.Carried fp (s.postHostLink p state cause speed width) := carried (by simp [State.postHostLink])

@[simp ↓] theorem cfgDefaults_carried (p : Nat) : s.Carried fp (s.cfgDefaults p) := carried (by simp [State.cfgDefaults])

@[simp ↓] theorem bar2Latch_carried (p : Nat) : s.Carried fp (s.bar2Latch p) := carried (by simp [State.bar2Latch])

@[simp ↓] theorem ringDrop_carried (p r : Nat) : s.Carried fp (s.ringDrop p r) := carried (by simp [State.ringDrop])

@[simp ↓] theorem msixDefaults_carried (p : Nat) : s.Carried fp (s.msixDefaults p) := carried (by simp [State.msixDefaults])

@[simp ↓] theorem portDrop_carried (p : Nat) : s.Carried fp (s.portDrop p) := carried (by simp [State.portDrop])

@[simp ↓] theorem portReset_carried (p cause : Nat) : s.Carried fp (s.portReset p cause) := carried (by simp [State.portReset])

@[simp ↓] theorem hostLinkUp_carried (p speed width : Nat) :
    s.Carried fp (s.hostLinkUp p speed width) := carried (by simp [State.hostLinkUp])

@[simp ↓] theorem cfgRead_carried (p o : Nat) : s.Carried fp (s.cfgRead p o).2 := carried (by simp [State.cfgRead])

@[simp ↓] theorem cfgReq_carried (p : Nat) (req : CfgReq) : s.Carried ⟨true, flash⟩ (s.cfgReq p req) := by
  refine carried ?_
  unfold State.cfgReq
  split <;> simp

/-! ### Machine/Flash.lean -/

@[simp ↓] theorem xsCode_carried (code : Nat) : s.Carried fp (s.xsCode code) := carried (by simp [State.xsCode])

@[simp ↓] theorem xsBegin_carried (op cs len addr : Nat) (data : List Byte) :
    s.Carried fp (s.xsBegin op cs len addr data) := carried (by simp [State.xsBegin])

@[simp ↓] theorem xsCmd_carried (w : Word) : s.Carried fp (s.xsCmd w).1 := by
  refine carried ?_
  unfold State.xsCmd
  dsimp only
  split
  · simp
  · split
    · simp
    · split
      · simp
      · split
        · simp
        · next h => 
          have hs : s.carries fp _ := (wr_carries ..).trans (ledgerAdd_carries h)
          simp [hs]

@[simp ↓] theorem xsWrite_carried (src : Src) (value : Nat) : s.Carried fp (s.xsWrite src value).1 := by
  refine carried ?_
  have d := decideWrite_carries (fp := fp) (adm := noAdm) (fun s _ _ => carries_refl s _) s src XS_CMD value
  unfold State.xsWrite
  dsimp only
  split
  · simp
  · split <;> rename_i e <;> rw [e] at d
    · exact d
    · exact (carries_of_carried (xsCmd_carried _ _)).after d

@[simp ↓] theorem freeFlash_carried (dev a n : Nat) : s.Carried ⟨mem, true⟩ (s.freeFlash dev a n) := by
  induction n generalizing s a with
  | zero => exact carried_refl _ _
  | succ n ih => exact carried (by simp [State.freeFlash, ih, State.drawFree])

@[simp ↓] theorem drawBytes_carried (n : Nat) : s.Carried fp (s.drawBytes n).2 := by
  induction n generalizing s with
  | zero => exact carried_refl _ _
  | succ n ih => exact carried (by simp [State.drawBytes, ih, State.drawFree])

@[simp ↓] theorem xsReadBytes_carried (j : XsJob) (devErr : Bool) : s.Carried fp (s.xsReadBytes j devErr).2 := by
  refine carried ?_
  unfold State.xsReadBytes
  split <;> simp

@[simp ↓] theorem xsDone_carried (devErr : Bool) : s.Carried ⟨mem, true⟩ (s.xsDone devErr) := by
  refine carried ?_
  unfold State.xsDone
  (repeat' split) <;> simp

@[simp ↓] theorem xsTimeout_carried : s.Carried ⟨mem, true⟩ s.xsTimeout := by
  refine carried ?_
  unfold State.xsTimeout
  split <;> simp

/-! ### Machine/Power.lean -/

@[simp ↓] theorem xsCut_carried : s.Carried ⟨mem, true⟩ s.xsCut := by
  refine carried ?_
  unfold State.xsCut
  split <;> simp

@[simp ↓] theorem depower_carried : s.Carried ⟨mem, true⟩ s.depower := by
  refine carried ?_
  unfold State.depower
  extract_lets u _ _ _ _ v _ _ w
  have hu : s.carries ⟨mem, true⟩ u := carries_of_carried (xsCut_carried s)
  have hv : u.carries ⟨mem, true⟩ v := ⟨fun _ => rfl, id, fun _ => ⟨rfl, rfl⟩, fun h => absurd h Bool.noConfusion⟩
  have hw : v.carries ⟨mem, true⟩ w := by simp [w]
  exact (hu.trans (hv.trans hw)).trans (by simp)

theorem porst_carries : s.carries ⟨true, true⟩ s.porst :=
  ⟨fun _ => rfl, fun _ => porst_wf s, fun h => absurd h Bool.noConfusion, fun h => absurd h Bool.noConfusion⟩

@[simp ↓] theorem freshStart_carried : s.Carried fp s.freshStart := carried (by simp [State.freshStart])

@[simp ↓] theorem beginStart_carried (old cause : Nat) (warm : Bool) :
    s.Carried fp (s.beginStart old cause warm) := carried (by simp [State.beginStart])

@[simp ↓] theorem mark_carried (n : Nat) : s.Carried fp (s.mark n) := carried (by simp [State.mark])

@[simp ↓] theorem coldStart_carried : s.Carried fp s.coldStart := carried (by simp [State.coldStart])

@[simp ↓] theorem supplyLoss_carried (low : Nat) : s.Carried ⟨true, true⟩ (s.supplyLoss low) := by
  refine carried ?_
  unfold State.supplyLoss
  simp [porst_carries]

@[simp ↓] theorem wakeUp_carried : s.Carried fp s.wakeUp := carried (by simp [State.wakeUp])

@[simp ↓] theorem noticeBack_carried (at_ : Nat) : s.Carried fp (s.noticeBack at_) := carried (by simp [State.noticeBack])

@[simp ↓] theorem heldUndo_carried : s.Carried fp s.heldUndo := carried (by simp [State.heldUndo])

@[simp ↓] theorem parkUndo_carried : s.Carried ⟨mem, true⟩ s.parkUndo := by
  refine carried ?_
  cases h : s.heldUndo.undo <;> simp [State.parkUndo, h]

@[simp ↓] theorem wakeEvent_carried (f : Fld) : s.Carried ⟨mem, true⟩ (s.wakeEvent f) := carried (by simp [State.wakeEvent])

@[simp ↓] theorem enterParked_carried (keep : List (Nat × Nat)) :
    s.Carried ⟨true, true⟩ (s.enterParked keep) := carried (by simp [State.enterParked])

@[simp ↓] theorem parkBegin_carried (cause step : Nat) :
    s.Carried ⟨mem, true⟩ (s.parkBegin cause step) := carried (by simp [State.parkBegin])

@[simp ↓] theorem parkRequest_carried (cause : Nat) : s.Carried ⟨mem, true⟩ (s.parkRequest cause) := by
  refine carried ?_
  unfold State.parkRequest
  (repeat' split) <;> simp

@[simp ↓] theorem parkCtrl_carried (w : Word) : s.Carried ⟨mem, true⟩ (s.parkCtrl w) := carried (by simp [State.parkCtrl])

/-! ### Machine/Can.lean -/

@[simp ↓] theorem fltKeep_carried (a : Nat) : s.Carried fp (s.fltKeep a) := carried (by simp [State.fltKeep])

@[simp ↓] theorem setRec_carried (n v : Nat) : s.Carried fp (s.setRec n v) := carried (by simp [State.setRec])

@[simp ↓] theorem recUp_carried (n : Nat) : s.Carried fp (s.recUp n) := carried (by simp [State.recUp])

@[simp ↓] theorem recDown_carried (n : Nat) : s.Carried fp (s.recDown n) := carried (by simp [State.recDown])

@[simp ↓] theorem canError_carried (n : Nat) (kind : CanError) : s.Carried fp (s.canError n kind) := carried (by simp [State.canError])

@[simp ↓] theorem canFrame_carried (n : Nat) (fr : CanFrame) : s.Carried fp (s.canFrame n fr) := by
  refine carried ?_
  unfold State.canFrame
  dsimp only
  (repeat' split) <;> simp

@[simp ↓] theorem canJoin_carried (n : Nat) : s.Carried fp (s.canJoin n) := carried (by simp [State.canJoin])

@[simp ↓] theorem canCtrl_carried (n : Nat) : s.Carried fp (s.canCtrl n) := carried (by simp [State.canCtrl])

@[simp ↓] theorem setSigStale_carried (i : Nat) (v : Bool) : s.Carried fp (s.setSigStale i v) := carried (by simp [State.setSigStale])

@[simp ↓] theorem syncGroup_carried (g : Nat) : s.Carried ⟨true, flash⟩ (s.syncGroup g) := carried (by simp [State.syncGroup])

@[simp ↓] theorem sigPut_carried (i t raw : Nat) : s.Carried fp (s.sigPut i t raw) := by
  refine carried ?_
  unfold State.sigPut
  split <;> simp

@[simp ↓] theorem arrive_carried (g t : Nat) (is : List Nat) (raw : SigDef → Nat) : s.Carried ⟨true, true⟩ (s.arrive g t is raw) := by
  refine carried ?_
  unfold State.arrive
  extract_lets _ s₁ s₂ s₃
  have h : s₁.carries ⟨true, true⟩ s₂ := foldl_carries (fun a i => by split <;> simp) is s₁
  simp [s₃, carried h, s₁]

@[simp ↓] theorem badFrame_carried (g : Nat) (f : Fld) : s.Carried fp (s.badFrame g f) := carried (by simp [State.badFrame])

@[simp ↓] theorem mapFrame_carried (d : Delivered) (g : Nat) (grp : SigGroup) :
    s.Carried ⟨true, true⟩ (s.mapFrame d g grp) := carried (by simp [State.mapFrame])

@[simp ↓] theorem mapNext_carried (n : Nat) : s.Carried ⟨true, true⟩ (s.mapNext n) := by
  refine carried ?_
  unfold State.mapNext
  dsimp only
  (repeat' split) <;> simp

@[simp ↓] theorem svSig_carried (w : Word) : s.Carried ⟨true, true⟩ (s.svSig w) := by
  refine carried ?_
  unfold State.svSig
  dsimp only
  split <;> simp

@[simp ↓] theorem sigTimeout_carried (i : Nat) : s.Carried ⟨true, flash⟩ (s.sigTimeout i) := by
  refine carried ?_
  unfold State.sigTimeout
  dsimp only
  (repeat' split) <;> simp

/-! ### Machine/Timeline.lean -/

@[simp ↓] theorem postTl_carried (t type unit st detail : Nat) :
    s.Carried fp (s.postTl t type unit st detail) := carried (by simp [State.postTl])

/-! ### Machine/Bezel.lean -/

@[simp ↓] theorem bzDecide_carried (t u d : Nat) : s.Carried fp (s.bzDecide t u d) := carried (by simp [State.bzDecide])

/-! ### Machine/Fetch.lean -/

@[simp ↓] theorem noteLoss_carried (sl : Nat) (next : Bool) (spec : Option Nat) (cause : Nat) :
    s.Carried fp (s.noteLoss sl next spec cause) := carried (by simp [State.noteLoss])

@[simp ↓] theorem loseGroup_carried (sl : Nat) (next : Bool) (need : Nat) (g : Group) (spec : Option Nat) (cause : Nat) :
    s.Carried fp (s.loseGroup sl next need g spec cause) := carried (by simp [State.loseGroup])

@[simp ↓] theorem groupIssue_carried (sl : Nat) (next : Bool) (y : Nat) (g : Group) (e : SurfEntry) (idx : Option Nat) :
    s.Carried fp (s.groupIssue sl next y g e idx) := carried (by simp [State.groupIssue])

@[simp ↓] theorem postTide_carried (t sl st row : Nat) : s.Carried fp (s.postTide t sl st row) := carried (by simp [State.postTide])

@[simp ↓] theorem reportTide_carried (t sl : Nat) (next : Bool) (u : RaceUse) (st row : Nat) :
    s.Carried fp (s.reportTide t sl next u st row).1 := by
  refine carried ?_
  unfold State.reportTide
  split <;> simp

@[simp ↓] theorem raceStart_carried (sl : Nat) (next : Bool) (l : LayerCfg) (g : Group) : s.Carried fp (s.raceStart sl next l g).1 := by
  refine carried ?_
  unfold State.raceStart
  dsimp only
  split <;> simp

@[simp ↓] theorem issueNext_carried (sl : Nat) : s.Carried fp (s.issueNext sl) := by
  refine carried ?_
  unfold State.issueNext
  split <;> simp

@[simp ↓] theorem rowArrives_carried (sl : Nat) (i : Issued) (bad : List (Nat × ReadRes)) (host : List Byte) :
    s.Carried fp (s.rowArrives sl i bad host) := by
  refine carried ?_
  unfold State.rowArrives
  dsimp only
  (repeat' split) <;> simp

@[simp ↓] theorem bandArrives_carried (sl ty : Nat) (i : Issued) (bad : List (Nat × ReadRes)) (host : List Byte) :
    s.Carried fp (s.bandArrives sl ty i bad host) := by
  refine carried ?_
  unfold State.bandArrives
  dsimp only
  (repeat' split) <;> simp

@[simp ↓] theorem fetchDone_carried (i : Issued) : s.Carried fp (s.fetchDone i) := by
  refine carried ?_
  unfold State.fetchDone
  split <;> simp

@[simp ↓] theorem goneArrives_carried (sl k : Nat) : s.Carried fp (s.goneArrives sl k) := by
  refine carried ?_
  cases h : (s.fetchAt sl).gone[k]? <;> simp [State.goneArrives, h]

@[simp ↓] theorem dataArrives_carried (sl k : Nat) (bad : List (Nat × ReadRes)) (host : List Byte) :
    s.Carried fp (s.dataArrives sl k bad host) := by
  refine carried ?_
  unfold State.dataArrives
  dsimp only
  (repeat' split) <;> simp

@[simp ↓] theorem deadlinePass_carried (sl : Nat) (next : Bool) :
    s.Carried fp (s.deadlinePass sl next) := carried (by simp [State.deadlinePass])

@[simp ↓] theorem tide_carried (sl : Nat) : s.Carried fp (s.tide sl) := by
  refine carried ?_
  unfold State.tide
  dsimp only
  (repeat' split) <;> simp

@[simp ↓] theorem slotFrameEnd_carried (t sl : Nat) : s.Carried fp (s.slotFrameEnd t sl) := carried (by simp [State.slotFrameEnd])

/-! ### Machine/Banks.lean -/

@[simp ↓] theorem writeWords_carried (st : Nat) (active : Bool) (k : Nat) (ws : List Nat) : s.Carried fp (s.writeWords st active k ws) := by
  induction ws generalizing s k with
  | nil => exact carried_refl _ _
  | cons w ws ih => exact carried (by simp [State.writeWords, ih])

@[simp ↓] theorem writeBank_carried (t : Nat) (active : Bool) (img : BankImage) :
    s.Carried fp (s.writeBank t active img) := carried (by simp [State.writeBank])

@[simp ↓] theorem caseDone_carried (t code short : Nat) : s.Carried fp (s.caseDone t code short) := carried (by simp [State.caseDone])

@[simp ↓] theorem showTotals_carried (a : AdmTotals) : s.Carried fp (s.showTotals a) := carried (by simp [State.showTotals])

@[simp ↓] theorem showPend_carried (t : Nat) : s.Carried fp (s.showPend t) := carried (by simp [State.showPend])

@[simp ↓] theorem storeCase_carried (r : AdmResult) (order : Option Nat) : s.Carried fp (s.storeCase r order) := by
  refine carried ?_
  unfold State.storeCase
  split <;> simp

@[simp ↓] theorem setMode_carried (g : Nat → Word) (t : Nat) (spec : Bool) :
    s.Carried fp (s.setMode g t spec) := carried (by simp [State.setMode])

@[simp ↓] theorem storeReserve_carried (g : Nat → Word) (t : Nat) :
    s.Carried fp (s.storeReserve g t) := carried (by simp [State.storeReserve])

@[simp ↓] theorem modeGone_carried (t order : Nat) : s.Carried fp (s.modeGone t order) := carried (by simp [State.modeGone])

@[simp ↓] theorem latchFigures_carried (t : Nat) (orders : List Nat) : s.Carried fp (s.latchFigures t orders) := by
  refine carried ?_
  unfold State.latchFigures
  extract_lets a mine rest g s₁ img act f s₂
  have h₁ : s.carries fp s₁ := by
    unfold s₁
    split <;> simp
  have h₂ : s.carries fp s₂ := by simp [s₂, h₁]
  simp [h₂]

@[simp ↓] theorem admChange_carried (a : Nat) (w : Word) : s.Carried fp (s.admChange a w).1 := by
  refine carried ?_
  unfold State.admChange
  dsimp only
  (repeat' split) <;> simp

/-! ### Machine/Links.lean -/

@[simp ↓] theorem scanMod_carried (t : Nat) (f : Scan → Scan) : s.Carried fp (s.scanMod t f) := carried (by simp [State.scanMod])

@[simp ↓] theorem linkMod_carried (l : Nat) (f : OutLink → OutLink) : s.Carried fp (s.linkMod l f) := carried (by simp [State.linkMod])

@[simp ↓] theorem panelMod_carried (t : Nat) (f : Panel → Panel) : s.Carried fp (s.panelMod t f) := carried (by simp [State.panelMod])

@[simp ↓] theorem enterLit_carried : s.Carried ⟨mem, true⟩ s.enterLit := by
  refine carried ?_
  unfold State.enterLit
  dsimp only
  split <;> simp

@[simp ↓] theorem checkLit_carried : s.Carried ⟨mem, true⟩ s.checkLit := carried (by simp [State.checkLit])

@[simp ↓] theorem showUp_carried (t : Nat) : s.Carried fp (s.showUp t) := carried (by simp [State.showUp])

@[simp ↓] theorem postLink_carried (l st detail : Nat) : s.Carried fp (s.postLink l st detail) := carried (by simp [State.postLink])

@[simp ↓] theorem trainGo_carried (l : Nat) : s.Carried fp (s.trainGo l) := carried (by simp [State.trainGo])

@[simp ↓] theorem trainFirst_carried (l : Nat) : s.Carried fp (s.trainFirst l) := carried (by simp [State.trainFirst])

@[simp ↓] theorem linkLost_carried (l cause : Nat) : s.Carried fp (s.linkLost l cause) := carried (by simp [State.linkLost])

@[simp ↓] theorem trainFailed_carried (l cause : Nat) : s.Carried fp (s.trainFailed l cause) := carried (by simp [State.trainFailed])

@[simp ↓] theorem asClamp_carried (t : Nat) (maxLines : Option Nat) : s.Carried fp (s.asClamp t maxLines) := by
  refine carried ?_
  unfold State.asClamp
  split <;> simp

@[simp ↓] theorem asShow_carried (t : Nat) : s.Carried fp (s.asShow t) := carried (by simp [State.asShow])

@[simp ↓] theorem linkTrained_carried (l rate lanes : Nat) (fec : Bool) (maxLines : Option Nat) (sinkCrc : Bool) :
    s.Carried fp (s.linkTrained l rate lanes fec maxLines sinkCrc) := carried (by simp [State.linkTrained])

@[simp ↓] theorem trainEnd_carried (l : Nat) (ok : Bool) (rate lanes : Nat) (fec : Bool) (maxLines : Option Nat) (sinkCrc : Bool) :
    s.Carried ⟨mem, true⟩ (s.trainEnd l ok rate lanes fec maxLines sinkCrc) := carried (by simp [State.trainEnd])

@[simp ↓] theorem setPanelEn_carried (t : Nat) (on : Bool) : s.Carried fp (s.setPanelEn t on) := carried (by simp [State.setPanelEn])

@[simp ↓] theorem setBlPwm_carried (t : Nat) (on : Bool) : s.Carried fp (s.setBlPwm t on) := carried (by simp [State.setBlPwm])

@[simp ↓] theorem panelUp_carried (t : Nat) : s.Carried fp (s.panelUp t) := carried (by simp [State.panelUp])

@[simp ↓] theorem pwmEnd_carried (t : Nat) : s.Carried fp (s.pwmEnd t) := carried (by simp [State.pwmEnd])

@[simp ↓] theorem ogSync_carried : s.Carried fp s.ogSync := carried (by simp [State.ogSync])

@[simp ↓] theorem linkOff_carried (t l : Nat) : s.Carried fp (s.linkOff t l) := carried (by simp [State.linkOff])

@[simp ↓] theorem reseatOver_carried (t : Nat) : s.Carried fp (s.reseatOver t) := carried (by simp [State.reseatOver])

@[simp ↓] theorem wbCut_carried (n : Nat) : s.Carried fp (s.wbCut n) := by
  refine carried ?_
  cases h : (s.wbAt n).cur <;> simp [State.wbCut, h]

@[simp ↓] theorem videoOff_carried (t : Nat) : s.Carried fp (s.videoOff t) := carried (by simp [State.videoOff])

@[simp ↓] theorem panelDown_carried (t : Nat) : s.Carried fp (s.panelDown t) := by
  refine carried ?_
  unfold State.panelDown
  split <;> simp

@[simp ↓] theorem panelLow_carried (t : Nat) : s.Carried fp (s.panelLow t) := carried (by simp [State.panelLow])

/-! ### Machine/Watch.lean -/

@[simp ↓] theorem useNext_carried (t : Nat) : s.Carried fp (s.useNext t) := carried (by simp [State.useNext])

@[simp ↓] theorem bzNext_carried (t : Nat) : s.Carried fp (s.bzNext t) := carried (by simp [State.bzNext])

@[simp ↓] theorem watchLine_carried (t y : Nat) (out : List Px) : s.Carried fp (s.watchLine t y out) := carried (by simp [State.watchLine])

@[simp ↓] theorem postBz_carried (t type unit kind detail value key : Nat) :
    s.Carried fp (s.postBz t type unit kind detail value key) := carried (by simp [State.postBz])

@[simp ↓] theorem degrWatch_carried (t : Nat) (on : Bool) : s.Carried fp (s.degrWatch t on) := carried (by simp [State.degrWatch])

@[simp ↓] theorem degrBezel_carried (t : Nat) (on : Bool) : s.Carried fp (s.degrBezel t on) := carried (by simp [State.degrBezel])

@[simp ↓] theorem watchOutcome_carried (t r own : Nat) : s.Carried fp (s.watchOutcome t r own) := carried (by simp [State.watchOutcome])

@[simp ↓] theorem watchCompare_carried (t r : Nat) : s.Carried fp (s.watchCompare t r) := carried (by simp [State.watchCompare])

@[simp ↓] theorem watchFrameEnd_carried (t : Nat) : s.Carried fp (s.watchFrameEnd t) := carried (by simp [State.watchFrameEnd])

@[simp ↓] theorem watchFailed_carried (t : Nat) : s.Carried fp (s.watchFailed t) := carried (by simp [State.watchFailed])

@[simp ↓] theorem checkStartup_carried : s.Carried fp s.checkStartup := carried (by simp [State.checkStartup])

@[simp ↓] theorem faultClear_carried (v : Nat) : s.Carried fp (s.faultClear v) := carried (by simp [State.faultClear])

@[simp ↓] theorem autoRel_carried (t : Nat) : s.Carried fp (s.autoRel t) := carried (by simp [State.autoRel])

@[simp ↓] theorem raiseBezel_carried (t : Nat) : s.Carried fp (s.raiseBezel t) := carried (by simp [State.raiseBezel])

@[simp ↓] theorem bzErrs_carried (t y : Nat) (e : LineErrs) : s.Carried fp (s.bzErrs t y e) := carried (by simp [State.bzErrs])

@[simp ↓] theorem bzFrameEnd_carried (t : Nat) : s.Carried fp (s.bzFrameEnd t) := by
  refine carried ?_
  unfold State.bzFrameEnd
  dsimp only
  (repeat' split) <;> simp

@[simp ↓] theorem sinkLine_carried (t : Nat) (out : List Px) : s.Carried fp (s.sinkLine t out) := carried (by simp [State.sinkLine])

@[simp ↓] theorem sinkFrameEnd_carried (t : Nat) : s.Carried fp (s.sinkFrameEnd t) := carried (by simp [State.sinkFrameEnd])

@[simp ↓] theorem sinkRead_carried (t : Nat) (crcs : Option (List Nat)) (count : Nat) : s.Carried fp (s.sinkRead t crcs count) := by
  refine carried ?_
  unfold State.sinkRead
  dsimp only
  split <;> simp

@[simp ↓] theorem faultFrameEnd_carried (t : Nat) : s.Carried ⟨true, flash⟩ (s.faultFrameEnd t) := carried (by simp [State.faultFrameEnd])

/-! ### Machine/Scan.lean -/

@[simp ↓] theorem lineComposed_carried (t : Nat) (next : Bool) (y : Nat) (bad : List Nat) :
    s.Carried fp (s.lineComposed t next y bad) := carried (by simp [State.lineComposed])

@[simp ↓] theorem composeNext_carried (t : Nat) (bad : List Nat) :
    s.Carried fp (s.composeNext t bad) := carried (by simp [State.composeNext])

@[simp ↓] theorem wbTake_carried (t n : Nat) : s.Carried fp (s.wbTake t n) := by
  refine carried ?_
  unfold State.wbTake
  (repeat' split) <;> simp

@[simp ↓] theorem wbLine_carried (t y : Nat) (out : List Px) : s.Carried ⟨true, flash⟩ (s.wbLine t y out) := by
  refine carried ?_
  unfold State.wbLine
  refine foldl_carries (fun s n => ?_) _ s
  split <;> simp

@[simp ↓] theorem wbEnd_carried (t : Nat) : s.Carried fp (s.wbEnd t) := by
  refine carried ?_
  unfold State.wbEnd
  refine foldl_carries (fun s n => ?_) _ s
  dsimp only
  split <;> simp

@[simp ↓] theorem wbResize_carried (t : Nat) : s.Carried fp (s.wbResize t) := carried (by simp [State.wbResize])

@[simp ↓] theorem wbDone_carried (n : Nat) (f : WbFrame) : s.Carried fp (s.wbDone n f) := carried (by simp [State.wbDone])

@[simp ↓] theorem countHeld_carried (t : Nat) (replaced bad : Bool) :
    s.Carried fp (s.countHeld t replaced bad) := carried (by simp [State.countHeld])

@[simp ↓] theorem emitLine_carried (t y : Nat) (e : LineErrs) :
    s.Carried ⟨true, flash⟩ (s.emitLine t y e) := carried (by simp [State.emitLine])

@[simp ↓] theorem beginLine_carried (t p : Nat) (e : LineErrs) :
    s.Carried ⟨true, flash⟩ (s.beginLine t p e) := carried (by simp [State.beginLine])

@[simp ↓] theorem useLanded_carried (t : Nat) : s.Carried fp (s.useLanded t) := carried (by simp [State.useLanded])

@[simp ↓] theorem videoLine0_carried (t : Nat) : s.Carried ⟨mem, true⟩ (s.videoLine0 t) := carried (by simp [State.videoLine0])

@[simp ↓] theorem reseatWords_carried (t : Nat) : s.Carried fp (s.reseatWords t) := by
  refine carried ?_
  unfold State.reseatWords
  split <;> simp

@[simp ↓] theorem frameEnd_carried (t : Nat) : s.Carried ⟨true, flash⟩ (s.frameEnd t) := carried (by simp [State.frameEnd])

@[simp ↓] theorem frameSwap_carried (t : Nat) : s.Carried fp (s.frameSwap t) := carried (by simp [State.frameSwap])

@[simp ↓] theorem lineZero_carried (t : Nat) (e : LineErrs) : s.Carried ⟨true, true⟩ (s.lineZero t e) := carried (by simp [State.lineZero])

@[simp ↓] theorem firstLine_carried (t : Nat) (e : LineErrs) :
    s.Carried ⟨true, true⟩ (s.firstLine t e) := carried (by simp [State.firstLine])

@[simp ↓] theorem frameStart_carried (t : Nat) (e : LineErrs) :
    s.Carried ⟨true, true⟩ (s.frameStart t e) := carried (by simp [State.frameStart])

@[simp ↓] theorem lineStart_carried (t : Nat) (e : LineErrs) :
    s.Carried ⟨true, true⟩ (s.lineStart t e) := carried (by simp [State.lineStart])

/-! ### Machine/Latch.lean -/

@[simp ↓] theorem bankBusy_carried (t : Nat) : s.Carried fp (s.bankBusy t) := carried (by simp [State.bankBusy])

@[simp ↓] theorem bankFree_carried (t : Nat) : s.Carried fp (s.bankFree t) := carried (by simp [State.bankFree])

@[simp ↓] theorem genUp_carried (t : Nat) : s.Carried fp (s.genUp t) := carried (by simp [State.genUp])

@[simp ↓] theorem rebuildImage_carried (t : Nat) : s.Carried fp (s.rebuildImage t) := by
  refine carried ?_
  unfold State.rebuildImage
  dsimp only
  (repeat' split) <;> simp

@[simp ↓] theorem latchBanks_carried (t : Nat) (p : Option Preset) : s.Carried fp (s.latchBanks t p) := carried (by simp [State.latchBanks])

@[simp ↓] theorem presetRegs_carried (p : Preset) : s.Carried fp (s.presetRegs p) := carried (by simp [State.presetRegs])

@[simp ↓] theorem postPreset_carried (t index kind : Nat) : s.Carried fp (s.postPreset t index kind) := carried (by simp [State.postPreset])

@[simp ↓] theorem latchPreset_carried (t : Nat) (pick : Option Nat × Nat) (due : Option (Preset × Nat)) :
    s.Carried fp (s.latchPreset t pick due) := by
  refine carried ?_
  unfold State.latchPreset
  split <;> simp

@[simp ↓] theorem latchBezel_carried (t u d : Nat) : s.Carried fp (s.latchBezel t u d) := carried (by simp [State.latchBezel])

@[simp ↓] theorem specDiscard_carried (t : Nat) : s.Carried fp (s.specDiscard t) := carried (by simp [State.specDiscard])

@[simp ↓] theorem confirmSlot_carried (t sl : Nat) : s.Carried fp (s.confirmSlot t sl) := by
  refine carried ?_
  cases h : (s.fetchAt sl).confirm.raceNext <;> simp [State.confirmSlot, h]

@[simp ↓] theorem specConfirm_carried (t : Nat) : s.Carried fp (s.specConfirm t) := carried (by simp [State.specConfirm])

@[simp ↓] theorem latchSpec_carried (t gen : Nat) (anew : Bool) :
    s.Carried fp (s.latchSpec t gen anew) := carried (by simp [State.latchSpec])

@[simp ↓] theorem reseatSlots_carried (ss : List (Nat × Nat)) : s.Carried fp (s.reseatSlots ss) := carried (by simp [State.reseatSlots])

@[simp ↓] theorem reseatTake_carried (t : Nat) : s.Carried fp (s.reseatTake t) := by
  refine carried ?_
  unfold State.reseatTake
  split <;> simp

@[simp ↓] theorem latchAges_carried (t : Nat) (before after : BankImage) :
    s.Carried fp (s.latchAges t before after) := carried (by simp [State.latchAges])

@[simp ↓] theorem postFlat_carried (t n st reason : Nat) : s.Carried fp (s.postFlat t n st reason) := carried (by simp [State.postFlat])

@[simp ↓] theorem latchFlat_carried (t : Nat) (before after : BankImage) (anew : Bool) :
    s.Carried fp (s.latchFlat t before after anew) := by
  refine carried ?_
  unfold State.latchFlat
  dsimp only
  (repeat' split) <;> simp

@[simp ↓] theorem latchRegs_carried (t : Nat) : s.Carried fp (s.latchRegs t) := carried (by simp [State.latchRegs])

@[simp ↓] theorem latchUse_carried (t : Nat) : s.Carried fp (s.latchUse t) := carried (by simp [State.latchUse])

@[simp ↓] theorem latch_carried (t : Nat) : s.Carried fp (s.latch t) := carried (by simp [State.latch])

/-! ### Machine/Reseat.lean -/

@[simp ↓] theorem reseatGo_carried (t : Nat) (w : Word) : s.Carried fp (s.reseatGo t w) := carried (by simp [State.reseatGo])

@[simp ↓] theorem reseatDone_carried (t : Nat) (r : Reseat) : s.Carried fp (s.reseatDone t r) := by
  refine carried ?_
  unfold State.reseatDone
  split <;> simp

@[simp ↓] theorem postGl_carried (t st : Nat) : s.Carried fp (s.postGl t st) := carried (by simp [State.postGl])

@[simp ↓] theorem glLost_carried (t : Nat) : s.Carried fp (s.glLost t) := carried (by simp [State.glLost])

/-! ### Machine/Surfaces.lean -/

@[simp ↓] theorem storeSurf_carried (i : Nat) (e : SurfEntry) :
    s.Carried ⟨true, flash⟩ (s.storeSurf i e) := carried (by simp [State.storeSurf])

@[simp ↓] theorem tableReads_carried (is : List Nat) : s.Carried fp (s.tableReads is) := carried (by simp [State.tableReads])

@[simp ↓] theorem retire_carried (i : Nat) : s.Carried ⟨true, flash⟩ (s.retire i) := carried (by simp [State.retire])

@[simp ↓] theorem retireNow_carried (i : Nat) : s.Carried ⟨true, flash⟩ (s.retireNow i) := carried (by simp [State.retireNow])

@[simp ↓] theorem sfEnd_carried (p : Nat) (code : SfCode) (result : Nat) :
    s.Carried fp (s.sfEnd p code result) := carried (by simp [State.sfEnd])

@[simp ↓] theorem sfMake_carried (p : Nat) : s.Carried ⟨true, flash⟩ (s.sfMake p) := by
  refine carried ?_
  unfold State.sfMake
  (repeat' split) <;> simp

@[simp ↓] theorem sfDrop_carried (p : Nat) : s.Carried ⟨true, flash⟩ (s.sfDrop p) := carried (by simp [State.sfDrop])

@[simp ↓] theorem sfShow_carried (p : Nat) : s.Carried fp (s.sfShow p) := carried (by simp [State.sfShow])

@[simp ↓] theorem sfDropAll_carried (p : Nat) : s.Carried ⟨true, flash⟩ (s.sfDropAll p) := carried (by simp [State.sfDropAll])

@[simp ↓] theorem sfCmd_carried (p : Nat) (w : Word) : s.Carried ⟨true, flash⟩ (s.sfCmd p w) := carried (by simp [State.sfCmd])

@[simp ↓] theorem sfWrite_carried (p : Fin 4) (op value : Nat) :
    s.Carried ⟨true, flash⟩ (s.sfWrite p op value) := carried (by simp [State.sfWrite])

/-! ### Machine/Rings.lean -/

@[simp ↓] theorem journalWrite_carried (t : Nat) (c : Commit) (st frame : Nat) :
    s.Carried ⟨true, flash⟩ (s.journalWrite t c st frame) := carried (by simp [State.journalWrite])

@[simp ↓] theorem postCommit_carried (ring type flags : Nat) (d : Desc) (status step slot value : Nat) :
    s.Carried fp (s.postCommit ring type flags d status step slot value) := carried (by simp [State.postCommit])

@[simp ↓] theorem ringMod_carried (p r : Nat) (f : Ring → Ring) : s.Carried fp (s.ringMod p r f) := carried (by simp [State.ringMod])

@[simp ↓] theorem ringHalt_carried (p r cause : Nat) : s.Carried fp (s.ringHalt p r cause) := carried (by simp [State.ringHalt])

@[simp ↓] theorem ringProd_carried (p r prod : Nat) : s.Carried fp (s.ringProd p r prod) := carried (by simp [State.ringProd])

@[simp ↓] theorem ringBell_carried (p r : Nat) (w : Word) : s.Carried fp (s.ringBell p r w) := by
  refine carried ?_
  unfold State.ringBell
  split <;> simp

@[simp ↓] theorem crDb_carried (src : Src) (p r : Nat) (w : Word) : s.Carried fp (s.crDb src p r w) := carried (by simp [State.crDb])

@[simp ↓] theorem ringStart_carried (p r : Nat) : s.Carried fp (s.ringStart p r) := by
  refine carried ?_
  unfold State.ringStart
  extract_lets u
  split <;> simp [u]

@[simp ↓] theorem crCtrl_carried (src : Src) (p r : Nat) (w : Word) : s.Carried fp (s.crCtrl src p r w) := carried (by simp [State.crCtrl])

@[simp ↓] theorem turnTaken_carried (p r : Nat) : s.Carried fp (s.turnTaken p r) := carried (by simp [State.turnTaken])

@[simp ↓] theorem ringAdvance_carried (p r : Nat) : s.Carried fp (s.ringAdvance p r) := carried (by simp [State.ringAdvance])

@[simp ↓] theorem ringDone_carried (p r : Nat) : s.Carried fp (s.ringDone p r) := carried (by simp [State.ringDone])

@[simp ↓] theorem entryDrop_carried (p r : Nat) (f : Fld) : s.Carried fp (s.entryDrop p r f) := carried (by simp [State.entryDrop])

@[simp ↓] theorem refuseEntry_carried (p r : Nat) (d : Desc) (e : Refuse) :
    s.Carried fp (s.refuseEntry p r d e) := carried (by simp [State.refuseEntry])

@[simp ↓] theorem tableErrors_carried (bad : List Nat) (rs : List CRec) : s.Carried fp (s.tableErrors bad rs) := by
  refine carried ?_
  unfold State.tableErrors
  split <;> simp

@[simp ↓] theorem entryValidate_carried (p r : Nat) (bad : List Nat) (raw recs idx : List Byte) :
    s.Carried fp (s.entryValidate p r bad raw recs idx) := by
  refine carried ?_
  unfold State.entryValidate
  dsimp only
  split <;> simp

@[simp ↓] theorem recordsRead_carried (p r : Nat) (res : ReadRes) (host : List Byte) (bad : List Nat) (raw : List Byte) :
    s.Carried fp (s.recordsRead p r res host bad raw) := by
  refine carried ?_
  generalize e : @State.recordsRead = f
  delta State.recordsRead at e
  subst e
  beta_reduce
  extract_lets d n a
  refine carries_ite_of (by simp) ?_
  have hs : s.carries fp (s.unitIssue a n .besteffort) := by simp
  have h := carries_of_carried (fp := fp) (busRead_carried (s.unitIssue a n .besteffort) a n res (host.drop 64))
  have hs : s.carries fp (s.unitIssue a n .besteffort) := by simp
  generalize (s.unitIssue a n .besteffort).busRead a n res (host.drop 64) = x at h ⊢
  obtain ⟨t, _ | recs⟩ := x
  · simp [hs.trans h]
  · simp [hs.trans h]

@[simp ↓] theorem entryRead_carried (p r : Nat) (res : ReadRes) (host : List Byte) (bad : List Nat) :
    s.Carried fp (s.entryRead p r res host bad) := by
  refine carried ?_
  generalize e : @State.entryRead = f
  delta State.entryRead at e
  obtain ⟨read, h⟩ : ∃ read, @State.busRead = read := ⟨_, rfl⟩
  have hread (s : State) (a n : Nat) (res : ReadRes) (host : List Byte) : s.Carried fp (read s a n res host).1 :=
    h ▸ busRead_carried s a n res host
  rw [h] at e
  subst e
  beta_reduce
  cases ht : s.reserve [p] with
  | none => exact carries_refl ..
  | some t =>
    have hs := reserve_carries (fp := fp) ht
    dsimp only
    split <;> simp [hread, hs]

@[simp ↓] theorem commitAccept_carried (p r : Nat) (c : Candidate) (adm : AdmResult) :
    s.Carried ⟨true, flash⟩ (s.commitAccept p r c adm) := by
  refine carried ?_
  unfold State.commitAccept
  extract_lets t q past m s₁ s₂ s₃ s₄
  have h : s.carries ⟨true, flash⟩ s₄ := by simp [s₄, s₃, s₂, s₁]
  cases e : s₄.reserve [p] with
  | none => exact h
  | some u => exact (reserve_carries e).after h

@[simp ↓] theorem stepSeven_carried (p r : Nat) (c : Candidate) (fails : Bool) : s.Carried ⟨true, flash⟩ (s.stepSeven p r c fails) := by
  refine carried ?_
  unfold State.stepSeven
  (repeat' split) <;> simp

@[simp ↓] theorem leave_carried (t : Nat) : s.Carried fp (s.leave t) := by
  refine carried ?_
  unfold State.leave
  split <;> simp

@[simp ↓] theorem targetsReached_carried (t : Nat) : s.Carried fp (s.targetsReached t) := carried (by simp [State.targetsReached])

@[simp ↓] theorem sealBank_carried (t : Nat) (order : Option Nat) (img : BankImage) :
    s.Carried fp (s.sealBank t order img) := carried (by simp [State.sealBank])

@[simp ↓] theorem sealImage_carried (t order : Nat) (img : BankImage) : s.Carried ⟨true, flash⟩ (s.sealImage t order img) := by
  refine carried ?_
  unfold State.sealImage
  dsimp only
  split <;> simp

@[simp ↓] theorem commitSeal_carried (t : Nat) : s.Carried ⟨true, flash⟩ (s.commitSeal t) := by
  refine carried ?_
  unfold State.commitSeal
  dsimp only
  (repeat' split) <;> simp

@[simp ↓] theorem sealBack_carried (t : Nat) (u : SealUndo) : s.Carried ⟨true, flash⟩ (s.sealBack t u) := by
  refine carried ?_
  unfold State.sealBack
  dsimp only
  split <;> simp

@[simp ↓] theorem sealLater_carried (t : Nat) (u : SealUndo) : s.Carried ⟨true, flash⟩ (s.sealLater t u) := by
  refine carried ?_
  unfold State.sealLater
  dsimp only
  (repeat' split) <;> simp

@[simp ↓] theorem latchClock_carried (t : Nat) : s.Carried ⟨true, flash⟩ (s.latchClock t) := by
  refine carried ?_
  unfold State.latchClock
  dsimp only
  split <;> simp

@[simp ↓] theorem commitEnd_carried (t : Nat) (c : Commit) (value slot : Nat) :
    s.Carried ⟨true, flash⟩ (s.commitEnd t c value slot) := carried (by simp [State.commitEnd])

@[simp ↓] theorem fenceTimeout_carried (t : Nat) : s.Carried ⟨true, flash⟩ (s.fenceTimeout t) := by
  refine carried ?_
  unfold State.fenceTimeout
  (repeat' split) <;> simp

@[simp ↓] theorem commitLatched_carried (t frame : Nat) (merged : Bool) (c : Commit) :
    s.Carried ⟨true, flash⟩ (s.commitLatched t frame merged c) := carried (by simp [State.commitLatched])

@[simp ↓] theorem handoverEnd_carried (t : Nat) : s.Carried ⟨true, flash⟩ (s.handoverEnd t) := by
  refine carried ?_
  unfold State.handoverEnd
  dsimp only
  split <;> simp

@[simp ↓] theorem sealCode_carried (t code : Nat) : s.Carried fp (s.sealCode t code) := carried (by simp [State.sealCode])

@[simp ↓] theorem dropDirect_carried (t : Nat) : s.Carried fp (s.dropDirect t) := carried (by simp [State.dropDirect])

@[simp ↓] theorem directSeal_carried (src : Src) (t : Nat) : s.Carried fp (s.directSeal src t) := by
  refine carried ?_
  unfold State.directSeal
  dsimp only
  (repeat' split) <;> simp

@[simp ↓] theorem sealWrite_carried (src : Src) (t : Nat) (w : Word) :
    s.Carried fp (s.sealWrite src t w) := carried (by simp [State.sealWrite])

@[simp ↓] theorem bellAct_carried (b : Posted) : s.Carried fp (s.bellAct b) := carried (by simp [State.bellAct])

@[simp ↓] theorem bellsRun_carried : s.Carried fp s.bellsRun := carried (by simp [State.bellsRun])

/-! ### Machine/Flatten.lean -/

@[simp ↓] theorem flatReads_carried (t : Nat) (l : LayerCfg) : s.Carried fp (s.flatReads t l) := carried (by simp [State.flatReads])

@[simp ↓] theorem flatStart_carried (t : Nat) : s.Carried fp (s.flatStart t) := carried (by simp [State.flatStart])

@[simp ↓] theorem evict_carried (t : Nat) : s.Carried fp (s.evict t) := carried (by simp [State.evict])

@[simp ↓] theorem flatAbandon_carried (t : Nat) : s.Carried fp (s.flatAbandon t) := carried (by simp [State.flatAbandon])

@[simp ↓] theorem flatPlace_carried (t o saving : Nat) (slots : List Nat) (p : Packed) :
    s.Carried ⟨true, flash⟩ (s.flatPlace t o saving slots p) := carried (by simp [State.flatPlace])

@[simp ↓] theorem flatFit_carried (t saving : Nat) (slots : List Nat) (p : Packed) :
    s.Carried ⟨true, flash⟩ (s.flatFit t saving slots p) := by
  refine carried ?_
  unfold State.flatFit
  dsimp only
  (repeat' split) <;> simp

@[simp ↓] theorem flatFinish_carried (t : Nat) (slots : List Nat) : s.Carried ⟨true, flash⟩ (s.flatFinish t slots) := by
  refine carried ?_
  unfold State.flatFinish
  split <;> simp

@[simp ↓] theorem poolMoved_carried : s.Carried fp s.poolMoved := carried (by simp [State.poolMoved])

/-! ### Machine/Ingest.lean -/

@[simp ↓] theorem igMod_carried (c : Nat) (f : Ingest → Ingest) : s.Carried fp (s.igMod c f) := carried (by simp [State.igMod])

@[simp ↓] theorem postIg_carried (c buf st lines num fs : Nat) :
    s.Carried fp (s.postIg c buf st lines num fs) := carried (by simp [State.postIg])

@[simp ↓] theorem igShort_carried (c : Nat) (f : IgFrame) : s.Carried fp (s.igShort c f) := carried (by simp [State.igShort])

@[simp ↓] theorem igEnd_carried (c : Nat) : s.Carried fp (s.igEnd c) := by
  refine carried ?_
  unfold State.igEnd
  split <;> simp

@[simp ↓] theorem igComplete_carried (c : Nat) (f : IgFrame) : s.Carried fp (s.igComplete c f) := carried (by simp [State.igComplete])

@[simp ↓] theorem igDone_carried (c : Nat) : s.Carried fp (s.igDone c) := by
  refine carried ?_
  unfold State.igDone
  dsimp only
  (repeat' split) <;> simp

@[simp ↓] theorem glTrim_carried (t : Nat) : s.Carried fp (s.glTrim t) := by
  refine carried ?_
  unfold State.glTrim
  dsimp only
  split <;> simp

@[simp ↓] theorem glFrame_carried (t : Nat) : s.Carried fp (s.glFrame t) := carried (by simp [State.glFrame])

@[simp ↓] theorem igNext_carried (c : Nat) : s.Carried fp (s.igNext c) := carried (by simp [State.igNext])

@[simp ↓] theorem igTake_carried (c num : Nat) : s.Carried fp (s.igTake c num) := by
  refine carried ?_
  unfold State.igTake
  split <;> simp

@[simp ↓] theorem igStart_carried (c num : Nat) : s.Carried fp (s.igStart c num) := carried (by simp [State.igStart])

@[simp ↓] theorem igWrite_carried (f : IgFrame) (k : Nat) (b : List Byte) (d : Nat) :
    s.Carried ⟨true, flash⟩ (s.igWrite f k b d).1 := carried (by simp [State.igWrite])

@[simp ↓] theorem igError_carried (c : Nat) : s.Carried fp (s.igError c) := carried (by simp [State.igError])

@[simp ↓] theorem igPace_carried (c : Nat) : s.Carried fp (s.igPace c) := by
  refine carried ?_
  unfold State.igPace
  (repeat' split) <;> simp

@[simp ↓] theorem igLine_carried (c : Nat) (f : IgFrame) (b : List Byte) (crcOk : Bool) :
    s.Carried ⟨true, flash⟩ (s.igLine c f b crcOk) := carried (by simp [State.igLine])

@[simp ↓] theorem igPacket_carried (c dt : Nat) (b : List Byte) (crcOk : Bool) : s.Carried ⟨true, flash⟩ (s.igPacket c dt b crcOk) := by
  refine carried ?_
  unfold State.igPacket
  split <;> simp

@[simp ↓] theorem igAck_carried (c : Nat) : s.Carried fp (s.igAck c) := by
  refine carried ?_
  unfold State.igAck
  dsimp only
  (repeat' split) <;> simp

@[simp ↓] theorem laneSync_carried (l : Nat) : s.Carried fp (s.laneSync l) := by
  refine carried ?_
  cases h : (s.laneAt l).retryAt <;> simp [State.laneSync, h]

@[simp ↓] theorem igDown_carried (c : Nat) : s.Carried fp (s.igDown c) := carried (by simp [State.igDown])

@[simp ↓] theorem laneDown_carried (l : Nat) : s.Carried fp (s.laneDown l) := carried (by simp [State.laneDown])

@[simp ↓] theorem laneLink_carried (l gear : Nat) : s.Carried fp (s.laneLink l gear) := by
  refine carried ?_
  unfold State.laneLink
  split <;> simp

/-! ### Machine/Faultpin.lean -/

@[simp ↓] theorem hbEdge_carried : s.Carried fp s.hbEdge := carried (by simp [State.hbEdge])

@[simp ↓] theorem dropCleared_carried : s.Carried fp s.dropCleared := carried (by simp [State.dropCleared])

@[simp ↓] theorem faultWrite_carried (a : Nat) (w : Word) : s.Carried fp (s.faultWrite a w) := by
  refine carried ?_
  unfold State.faultWrite
  (repeat' split) <;> simp

/-! ### Machine/LocketLoad.lean -/

@[simp ↓] theorem Ld.no_carried (l : Ld) (check at_ : Nat) : l.s.Carried fp (l.no check at_).s := carried (by simp [Ld.no])

@[simp ↓] theorem Ld.need_carried (l : Ld) (ok : Bool) (check at_ : Nat) : l.s.Carried fp (l.need ok check at_).s := by
  refine carried ?_
  unfold Ld.need
  split <;> exact carries_refl ..

@[simp ↓] theorem Ld.map_carried (l : Ld) (f : State → State) : (f l.s).Carried fp (l.map f).s := carried_refl _ _

@[simp ↓] theorem Ld.setLocket_carried (l : Ld) (f : Locket → Locket) : l.s.Carried fp (l.setLocket f).s := carried (by simp [Ld.setLocket])

@[simp ↓] theorem Ld.body_carried {f : Ld → Ld} (h : Ld.Carries fp f) (l : Ld) (r : Rec) (n : Nat) : l.s.Carried fp (l.body r n f).s := by
  refine carried ?_
  unfold Ld.body
  split
  · exact carries_refl ..
  · exact h l

@[simp ↓] theorem Ld.exact_carried {f : Ld → Ld} (h : Ld.Carries fp f) (l : Ld) (r : Rec) (n : Nat) : l.s.Carried fp (l.exact r n f).s := by
  refine carried ?_
  unfold Ld.exact
  split
  · exact carries_refl ..
  · exact h l

@[simp ↓] theorem loadPair_carried (free : Bool) (a v : Nat) : s.Carried fp (s.loadPair free a v) := by
  refine carried ?_
  unfold State.loadPair
  split <;> simp

@[simp ↓] theorem Ld.pair_carried (l : Ld) (free : Option (Nat → Bool)) (at_ : Nat) (p : Nat × Nat) :
    l.s.Carried fp (l.pair free at_ p).s := by
  refine carried ?_
  unfold Ld.pair
  split <;> simp

@[simp ↓] theorem Ld.dram_carried (l : Ld) (r : Rec) : l.s.Carried fp (l.dram r).s := carried (by simp [Ld.dram])

@[simp ↓] theorem Ld.role_carried (l : Ld) (v : Nat) (r : Rec) : l.s.Carried fp (l.role v r).s := carried (by simp [Ld.role])

@[simp ↓] theorem Ld.standby_carried (l : Ld) (r : Rec) : l.s.Carried fp (l.standby r).s := carried (by simp [Ld.standby])

@[simp ↓] theorem Ld.grant_carried (l : Ld) (r : Rec) : l.s.Carried fp (l.grant r).s := carried (by simp [Ld.grant])

@[simp ↓] theorem Ld.surface_carried (l : Ld) (first : Bool) (r : Rec) :
    l.s.Carried fp (l.surface first r).s := carried (by simp [Ld.surface])

@[simp ↓] theorem Ld.retention_carried (l : Ld) (seen : Bool) (r : Rec) :
    l.s.Carried fp (l.retention seen r).s := carried (by simp [Ld.retention])

@[simp ↓] theorem Ld.assetBase_carried (l : Ld) (r : Rec) : l.s.Carried fp (l.assetBase r).s := carried (by simp [Ld.assetBase])

@[simp ↓] theorem Ld.parkSignal_carried (l : Ld) (r : Rec) : l.s.Carried fp (l.parkSignal r).s := carried (by simp [Ld.parkSignal])

@[simp ↓] theorem Ld.struct_carried (v : Nat) (l : Ld) (r : Rec) (before : List Rec) :
    l.s.Carried fp (Ld.struct v l r before).s := carried (by simp [Ld.struct])

@[simp ↓] theorem Ld.data_carried (l : Ld) (base size : Nat) (r : Rec) (before : List Rec) :
    l.s.Carried ⟨true, flash⟩ (l.data base size r before).s := carried (by simp [Ld.data])

@[simp ↓] theorem Ld.first_carried (l : Ld) (r : Rec) (before : List Rec) :
    l.s.Carried ⟨true, flash⟩ (l.first r before).s := carried (by simp [Ld.first])

@[simp ↓] theorem Ld.image_carried (l : Ld) (r : Rec) : l.s.Carried fp (l.image r).s := carried (by simp [Ld.image])

@[simp ↓] theorem Ld.words_carried (l : Ld) (count top : Nat) (addr : Nat → Nat → Nat) (r : Rec) (before : List Rec) :
    l.s.Carried fp (l.words count top addr r before).s := carried (by simp [Ld.words])

@[simp ↓] theorem Ld.bezel_carried (l : Ld) (r : Rec) (before : List Rec) :
    l.s.Carried ⟨true, flash⟩ (l.bezel r before).s := carried (by simp [Ld.bezel])

@[simp ↓] theorem Ld.group_carried (l : Ld) (r : Rec) : l.s.Carried fp (l.group r).s := carried (by simp [Ld.group])

@[simp ↓] theorem Ld.signal_carried (l : Ld) (r : Rec) : l.s.Carried fp (l.signal r).s := carried (by simp [Ld.signal])

@[simp ↓] theorem Ld.sigmap_carried (l : Ld) (r : Rec) : l.s.Carried fp (l.sigmap r).s := carried (by simp [Ld.sigmap])

@[simp ↓] theorem Ld.table_carried (l : Ld) (r : Rec) : l.s.Carried fp (l.table r).s := carried (by simp [Ld.table])

@[simp ↓] theorem Ld.watch_carried (l : Ld) (r : Rec) (before : List Rec) :
    l.s.Carried fp (l.watch r before).s := carried (by simp [Ld.watch])

@[simp ↓] theorem Ld.coef_carried (l : Ld) (r : Rec) (before : List Rec) :
    l.s.Carried ⟨true, flash⟩ (l.coef r before).s := carried (by simp [Ld.coef])

@[simp ↓] theorem Ld.lut_carried (l : Ld) (r : Rec) : l.s.Carried ⟨true, flash⟩ (l.lut r).s := carried (by simp [Ld.lut])

@[simp ↓] theorem Ld.preset_carried (l : Ld) (r : Rec) : l.s.Carried fp (l.preset r).s := carried (by simp [Ld.preset])

@[simp ↓] theorem Ld.key_carried (l : Ld) (r : Rec) : l.s.Carried fp (l.key r).s := carried (by simp [Ld.key])

@[simp ↓] theorem Ld.record_carried (v type : Nat) (l : Ld) (r : Rec) (before : List Rec) :
    l.s.Carried ⟨true, flash⟩ (Ld.record v type l r before).s := by
  refine carried ?_
  unfold Ld.record
  split <;> simp

@[simp ↓] theorem Ld.all_carried (v type : Nat) (l : Ld) (rs done : List Rec) : l.s.Carried ⟨true, flash⟩ (l.all v type rs done).s := by
  induction rs generalizing l done with
  | nil => exact carried_refl _ _
  | cons r rs ih => exact carried (by simp [Ld.all, ih])

/-! ### Machine/LocketCheck.lean -/

@[simp ↓] theorem Ld.checks_carried (l : Ld) (at_ : Nat) (cs : List (Nat × Bool)) : l.s.Carried fp (l.checks at_ cs).s := by
  induction cs generalizing l with
  | nil => exact carried_refl _ _
  | cons c cs ih => exact carried (by simp [Ld.checks, ih])

theorem loadModes_carries {s t : State} {ts : List Nat} (h : s.loadModes ts = some t) : s.carries fp t := by
  induction ts generalizing s with
  | nil => cases h; exact carries_refl ..
  | cons i ts ih =>
    unfold State.loadModes at h
    split at h
    · split at h
      · exact (ih h).after (by simp)
      · cases h
    · exact ih h

theorem loadAdmit_carries {s t : State} (h : s.loadAdmit = some t) : s.carries fp t := by
  unfold State.loadAdmit at h
  dsimp only at h
  split at h
  · cases h
  · exact (loadModes_carries h).after (by simp)

@[simp ↓] theorem allLanded_carried : s.Carried fp s.allLanded := carried (by simp [State.allLanded])

@[simp ↓] theorem holdsSet_carried : s.Carried fp s.holdsSet := carried (by simp [State.holdsSet])

@[simp ↓] theorem dramShown_carried : s.Carried fp s.dramShown := by
  refine carried ?_
  unfold State.dramShown
  split <;> simp

@[simp ↓] theorem ingestShown_carried : s.Carried fp s.ingestShown := carried (by simp [State.ingestShown])

theorem admitLoad_carries {s t : State} (h : s.admitLoad = some t) : s.carries fp t := by
  unfold State.admitLoad at h
  obtain ⟨u, hu, rfl⟩ := Option.map_eq_some_iff.mp h
  have hs : s.carries fp u := .trans (by simp) (loadAdmit_carries hu)
  simp [hs]

@[simp ↓] theorem Ld.endStruct_carried (l : Ld) (k at_ : Nat) (surfaces : List Rec) : l.s.Carried fp (l.endStruct k at_ surfaces).s := by
  refine carried ?_
  unfold Ld.endStruct
  extract_lets l₁ s₁ l₂
  have h₁ : l.s.carries fp s₁ := by simp [s₁, l₁]
  split
  · next u h => refine h₁.trans ((admitLoad_carries h).trans ?_); simp
  · exact h₁.trans ((carries_of_carried (Ld.checks_carried l₁ at_ _)).trans (carries_of_carried (Ld.no_carried l₂ chkAdmit at_)))

@[simp ↓] theorem planSet_carried (t : Nat) : s.Carried fp (s.planSet t) := carried (by simp [State.planSet])

@[simp ↓] theorem Ld.endFirst_carried (l : Ld) (at_ : Nat) : l.s.Carried ⟨true, flash⟩ (l.endFirst at_).s := carried (by simp [Ld.endFirst])

@[simp ↓] theorem Ld.signalPlace_carried (l : Ld) (r : Rec) : l.s.Carried fp (l.signalPlace r).s := by
  refine carried ?_
  unfold Ld.signalPlace
  split <;> simp

@[simp ↓] theorem useRecords_carried (k v : Nat) (e : SecEnt) (rs : List Rec) : s.Carried ⟨true, flash⟩ (s.useRecords k v e rs).s := by
  refine carried ?_
  unfold State.useRecords
  dsimp only
  split <;> simp

theorem useSection_carries {s t : State} {k : Nat} {e : SecEnt} (h : s.useSection k e = .inr t) : s.carries ⟨true, flash⟩ t := by
  unfold State.useSection at h
  dsimp only at h
  split at h
  · cases h
  · split at h
    · cases h
    · split at h
      · cases h
      · cases h; simp

/-! ### Machine/Boot.lean -/

@[simp ↓] theorem outcome_carried (k code : Nat) : s.Carried fp (s.outcome k code) := carried (by simp [State.outcome])

@[simp ↓] theorem dropLoad_carried : s.Carried ⟨true, flash⟩ s.dropLoad := carried (by simp [State.dropLoad])

@[simp ↓] theorem noteFail_carried (k : Nat) (f : LoadFail) : s.Carried fp (s.noteFail k f) := carried (by simp [State.noteFail])

@[simp ↓] theorem noImage_carried : s.Carried fp s.noImage := carried (by simp [State.noImage])

@[simp ↓] theorem searchOver_carried : s.Carried fp s.searchOver := carried (by simp [State.searchOver])

@[simp ↓] theorem tryNext_carried (l : List (Nat × Bool)) : s.Carried fp (s.tryNext l) := by
  induction l generalizing s with
  | nil => exact carried (by simp [State.tryNext])
  | cons x l ih => exact carried (by simp [State.tryNext, ih])

@[simp ↓] theorem search_carried (again : Bool) : s.Carried fp (s.search again) := carried (by simp [State.search])

@[simp ↓] theorem abandon_carried (f : LoadFail) : s.Carried ⟨true, flash⟩ (s.abandon f) := carried (by simp [State.abandon])

@[simp ↓] theorem failAfterGaps_carried (n : Nat) (f : LoadFail) :
    s.Carried ⟨true, flash⟩ (s.failAfterGaps n f) := carried (by simp [State.failAfterGaps])

@[simp ↓] theorem structApplied_carried (k : Nat) : s.Carried fp (s.structApplied k) := carried (by simp [State.structApplied])

@[simp ↓] theorem checkFirst_carried : s.Carried fp s.checkFirst := carried (by simp [State.checkFirst])

@[simp ↓] theorem loadDone_carried : s.Carried ⟨mem, true⟩ s.loadDone := carried (by simp [State.loadDone])

theorem useRead_f_carries (n left : Nat) (b : Nat.below (motive := fun _ => State → State) (left + 1))
    (h : ∀ s : State, s.carries ⟨true, flash⟩ (b.1 s)) (s : State) : s.carries ⟨true, flash⟩ (State.useRead._f n (left + 1) b s) := by
  generalize e : State.useRead._f = f
  delta State.useRead._f at e
  subst e
  dsimp -zeta only
  extract_lets k
  cases (s.readSecs k)[s.boot.used]? with
  | none => exact carries_refl ..
  | some e =>
    dsimp -zeta only
    split
    · exact carries_refl ..
    · cases u : s.useSection k e with
      | inl f => simp
      | inr t => simp [fun s => carried (h s), useSection_carries u]

@[simp ↓] theorem useRead_carried (n left : Nat) : s.Carried ⟨true, flash⟩ (s.useRead n left) := by
  refine carried ?_
  generalize e : @State.useRead = f
  delta State.useRead at e
  subst e
  exact brecOn_carries (fun _ s => carries_refl s _) (useRead_f_carries n) left s

@[simp ↓] theorem advance_carried (n : Nat) : s.Carried ⟨true, true⟩ (s.advance n) := by
  refine carried ?_
  unfold State.advance
  dsimp only
  (repeat' split) <;> simp

@[simp ↓] theorem fusedShown_carried : s.Carried fp s.fusedShown := carried (by simp [State.fusedShown])

@[simp ↓] theorem pllLocked_carried (size0 size1 : Option Nat) :
    s.Carried ⟨mem, true⟩ (s.pllLocked size0 size1) := carried (by simp [State.pllLocked])

@[simp ↓] theorem headerRead_carried : s.Carried ⟨true, flash⟩ s.headerRead := by
  refine carried ?_
  unfold State.headerRead
  split <;> simp

@[simp ↓] theorem tableRead_carried : s.Carried ⟨true, flash⟩ s.tableRead := by
  refine carried ?_
  unfold State.tableRead
  dsimp only
  split <;> simp

@[simp ↓] theorem sigDone_carried (n : Nat) : s.Carried ⟨true, true⟩ (s.sigDone n) := by
  refine carried ?_
  unfold State.sigDone
  dsimp only
  (repeat' split) <;> simp

@[simp ↓] theorem sectionEnd_carried (n : Nat) : s.Carried ⟨true, true⟩ (s.sectionEnd n) := by
  refine carried ?_
  unfold State.sectionEnd
  dsimp only
  (repeat' split) <;> simp

@[simp ↓] theorem bootCtrl_carried (w : Word) : s.Carried ⟨mem, true⟩ (s.bootCtrl w) := carried (by simp [State.bootCtrl])

/-! ### Machine/Start.lean -/

@[simp ↓] theorem subServe_carried (k : Nat) : s.Carried fp (s.subServe k) := carried (by simp [State.subServe])

@[simp ↓] theorem trainFully_carried (c : DramConf) (k : Nat) (failed : List Nat) :
    s.Carried fp (s.trainFully c k failed) := carried (by simp [State.trainFully])

@[simp ↓] theorem ddrServe_carried (c : DramConf) (eyeBad failed : List Nat) :
    s.Carried fp (s.ddrServe c eyeBad failed) := carried (by simp [State.ddrServe])

@[simp ↓] theorem noteImage_carried : s.Carried fp s.noteImage := carried (by simp [State.noteImage])

@[simp ↓] theorem buildTable_carried : s.Carried ⟨true, flash⟩ s.buildTable := carried (by simp [State.buildTable])

@[simp ↓] theorem postAsset_carried (result : Nat) : s.Carried fp (s.postAsset result) := carried (by simp [State.postAsset])

@[simp ↓] theorem assetBegin_carried : s.Carried fp s.assetBegin := by
  refine carried ?_
  unfold State.assetBegin
  split <;> simp

@[simp ↓] theorem portsReady_carried : s.Carried fp s.portsReady := carried (by simp [State.portsReady])

@[simp ↓] theorem hubReady_carried : s.Carried ⟨true, true⟩ s.hubReady := carried (by simp [State.hubReady])

@[simp ↓] theorem assetFailed_carried : s.Carried fp s.assetFailed := carried (by simp [State.assetFailed])

@[simp ↓] theorem assetDone_carried (a : Asset) : s.Carried ⟨true, flash⟩ (s.assetDone a) := carried (by simp [State.assetDone])

@[simp ↓] theorem flashFail_carried : s.Carried ⟨true, flash⟩ s.flashFail := by
  refine carried ?_
  unfold State.flashFail
  (repeat' split) <;> simp

/-! ### Machine/Park.lean -/

@[simp ↓] theorem parkPanels_carried : s.Carried fp s.parkPanels := carried (by simp [State.parkPanels])

@[simp ↓] theorem drainEnd_carried : s.Carried ⟨true, flash⟩ s.drainEnd := carried (by simp [State.drainEnd])

@[simp ↓] theorem snapBegin_carried : s.Carried ⟨mem, true⟩ s.snapBegin := carried (by simp [State.snapBegin])

@[simp ↓] theorem snapEnd_carried : s.Carried ⟨mem, true⟩ s.snapEnd := by
  refine carried ?_
  unfold State.snapEnd
  split <;> simp

@[simp ↓] theorem parkStore_carried : s.Carried ⟨mem, true⟩ s.parkStore := carried (by simp [State.parkStore])

@[simp ↓] theorem subRest_carried (k : Nat) : s.Carried ⟨true, flash⟩ (s.subRest k) := carried (by simp [State.subRest])

@[simp ↓] theorem restAll_carried : s.Carried ⟨true, flash⟩ s.restAll := by
  refine carried ?_
  unfold State.restAll
  split
  · next c _ =>
    simp
  · simp

/-! ### Machine/Islands.lean -/

@[simp ↓] theorem postIsland_carried (i st cause partner us exposed : Nat) :
    s.Carried fp (s.postIsland i st cause partner us exposed) := carried (by simp [State.postIsland])

@[simp ↓] theorem dropIssued_carried (i : Nat) : s.Carried fp (s.dropIssued i) := carried (by simp [State.dropIssued])

@[simp ↓] theorem clearIsland_carried (i : Nat) : s.Carried fp (s.clearIsland i) := carried (by simp [State.clearIsland])

@[simp ↓] theorem pixelReset_carried (t : Nat) : s.Carried fp (s.pixelReset t) := carried (by simp [State.pixelReset])

@[simp ↓] theorem workDrop_carried (fifos : Bool) (t : Nat) : s.Carried fp (s.workDrop fifos t) := carried (by simp [State.workDrop])

@[simp ↓] theorem pendingLost_carried (t : Nat) : s.Carried fp (s.pendingLost t) := carried (by simp [State.pendingLost])

@[simp ↓] theorem pavReset_carried (q : Nat) (fifos : Bool) : s.Carried fp (s.pavReset q fifos) := carried (by simp [State.pavReset])

@[simp ↓] theorem subReset_carried (k : Nat) : s.Carried ⟨true, flash⟩ (s.subReset k) := carried (by simp [State.subReset])

@[simp ↓] theorem phyReset_carried (n : Nat) (srFail : Bool) : s.Carried fp (s.phyReset n srFail) := by
  refine carried ?_
  unfold State.phyReset
  (repeat' split) <;> simp

@[simp ↓] theorem hostReset_carried (p : Nat) : s.Carried fp (s.hostReset p) := carried (by simp [State.hostReset])

@[simp ↓] theorem dmaReset_carried : s.Carried ⟨true, flash⟩ s.dmaReset := carried (by simp [State.dmaReset])

@[simp ↓] theorem carouselReset_carried : s.Carried fp s.carouselReset := carried (by simp [State.carouselReset])

@[simp ↓] theorem igCut_carried (c : Nat) : s.Carried fp (s.igCut c) := by
  refine carried ?_
  unfold State.igCut
  split <;> simp

@[simp ↓] theorem gateReset_carried : s.Carried ⟨true, true⟩ s.gateReset := carried (by simp [State.gateReset])

@[simp ↓] theorem xspiReset_carried : s.Carried ⟨mem, true⟩ s.xspiReset := carried (by simp [State.xspiReset])

@[simp ↓] theorem canReset_carried (n : Nat) : s.Carried fp (s.canReset n) := carried (by simp [State.canReset])

@[simp ↓] theorem resetIsland_carried (i : Nat) (fifos srFail : Bool) :
    s.Carried ⟨true, true⟩ (s.resetIsland i fifos srFail) := carried (by simp [State.resetIsland])

@[simp ↓] theorem islMod_carried (f : Islands → Islands) : s.Carried fp (s.islMod f) := carried (by simp [State.islMod])

@[simp ↓] theorem islandFail_carried (i cause partner : Nat) :
    s.Carried fp (s.islandFail i cause partner) := carried (by simp [State.islandFail])

@[simp ↓] theorem abandonMove_carried (q : Nat) : s.Carried fp (s.abandonMove q) := by
  refine carried ?_
  unfold State.abandonMove
  split <;> simp

@[simp ↓] theorem islandFault_carried (i cause : Nat) (srFail : Bool) : s.Carried ⟨true, true⟩ (s.islandFault i cause srFail) := by
  refine carried ?_
  unfold State.islandFault
  dsimp only
  split <;> simp

@[simp ↓] theorem flit_carried (i k : Nat) (parityBad : Bool) (seq : Nat) :
    s.Carried fp (s.flit i k parityBad seq) := carried (by simp [State.flit])

@[simp ↓] theorem composeAgain_carried (t : Nat) : s.Carried fp (s.composeAgain t) := carried (by simp [State.composeAgain])

@[simp ↓] theorem rebuildAdmission_carried : s.Carried fp s.rebuildAdmission := carried (by simp [State.rebuildAdmission])

@[simp ↓] theorem carouselBack_carried : s.Carried fp s.carouselBack := carried (by simp [State.carouselBack])

@[simp ↓] theorem igBack_carried (c : Nat) : s.Carried fp (s.igBack c) := carried (by simp [State.igBack])

@[simp ↓] theorem gateBack_carried : s.Carried fp s.gateBack := carried (by simp [State.gateBack])

@[simp ↓] theorem showLut_carried (t : Nat) : s.Carried fp (s.showLut t) := carried (by simp [State.showLut])

@[simp ↓] theorem islandBack_carried (i : Nat) : s.Carried ⟨true, flash⟩ (s.islandBack i) := carried (by simp [State.islandBack])

@[simp ↓] theorem islandRelease_carried (d : IslandDown) (ok : Bool) :
    s.Carried ⟨true, flash⟩ (s.islandRelease d ok) := carried (by simp [State.islandRelease])

@[simp ↓] theorem copyBanks_carried (p q : Nat) : s.Carried fp (s.copyBanks p q) := carried (by simp [State.copyBanks])

@[simp ↓] theorem migrate_carried (p q : Nat) : s.Carried fp (s.migrate p q) := carried (by simp [State.migrate])

/-! ### Machine/Recover.lean -/

@[simp ↓] theorem startAgain_carried : s.Carried ⟨true, true⟩ s.startAgain := by
  refine carried ?_
  unfold State.startAgain
  dsimp only
  split <;> simp

@[simp ↓] theorem warmWaking_carried : s.Carried ⟨true, true⟩ s.warmWaking := by
  refine carried ?_
  unfold State.warmWaking
  extract_lets _ _ s₁
  have h : s.carries ⟨true, true⟩ s₁ := carries_ite_of (carries_of_carried (restAll_carried s)) (carries_ite_of (by simp)
    ((lose_carries s onChipAll).trans ⟨id, id, fun _ => ⟨rfl, rfl⟩, fun _ => ⟨rfl, rfl, rfl⟩⟩))
  simp [h]

@[simp ↓] theorem warmQueue_carried (k : Nat) : s.Carried ⟨true, flash⟩ (s.warmQueue k) := carried (by simp [State.warmQueue])

@[simp ↓] theorem warmDram_carried : s.Carried ⟨true, flash⟩ s.warmDram := carried (by simp [State.warmDram])

@[simp ↓] theorem warmStop_carried (t : Nat) : s.Carried fp (s.warmStop t) := carried (by simp [State.warmStop])

@[simp ↓] theorem warmLit_carried : s.Carried ⟨true, true⟩ s.warmLit := carried (by simp [State.warmLit])

@[simp ↓] theorem warmrst_carried : s.Carried ⟨true, true⟩ s.warmrst := by
  refine carried ?_
  unfold State.warmrst
  split
  · exact carries_refl ..
  · simp
  · simp
  · simp

@[simp ↓] theorem pairAgain_carried (p : Nat × Nat) : s.Carried fp (s.pairAgain p) := by
  refine carried ?_
  unfold State.pairAgain
  split <;> simp

@[simp ↓] theorem recoverStart_carried : s.Carried fp s.recoverStart := carried (by simp [State.recoverStart])

@[simp ↓] theorem warmRelease_carried : s.Carried ⟨true, true⟩ s.warmRelease := by
  refine carried ?_
  unfold State.warmRelease
  dsimp only
  (repeat' split) <;> simp

@[simp ↓] theorem recoverReady_carried : s.Carried ⟨true, true⟩ s.recoverReady := by
  refine carried ?_
  unfold State.recoverReady
  simp

/-! ### Machine/RegWrite.lean -/

@[simp ↓] theorem readEffect_carried (src : Src) (a : Nat) : s.Carried fp (s.readEffect src a) := by
  refine carried ?_
  unfold State.readEffect
  split <;> simp

@[simp ↓] theorem regRead_carried (src : Src) (addr : Nat) : s.Carried fp (s.regRead src addr).2 := by
  refine carried ?_
  unfold State.regRead
  dsimp only
  split <;> simp

@[simp ↓] theorem answer_carried (src : Src) (w : Word) : s.Carried fp (s.answer src w) := by
  refine carried ?_
  unfold State.answer
  split <;> simp

@[simp ↓] theorem readNow_carried (src : Src) (a : Nat) : s.Carried fp (s.readNow src a) := by
  refine carried ?_
  unfold State.readNow
  refine carries_of_carried (when_carried (fun s => ?_) _ _)
  split <;> simp

@[simp ↓] theorem readsRun_carried : s.Carried fp s.readsRun := carried (by simp [State.readsRun])

@[simp ↓] theorem polFreed_carried (k n : Nat) (x : State) : x.Carried fp (s.polFreed k n x) := carried (by simp [State.polFreed])

@[simp ↓] theorem landGate_carried (src : Src) (a : Nat) (w : Word) (r : RegRow) :
    s.Carried ⟨mem, true⟩ (s.landGate src a w r) := carried (by simp [State.landGate])

@[simp ↓] theorem useSoon_carried (a : Nat) : s.Carried fp (s.useSoon a) := carried (by simp [State.useSoon])

@[simp ↓] theorem enMoved_carried (t : Nat) (was : Bool) : s.Carried fp (s.enMoved t was) := carried (by simp [State.enMoved])

@[simp ↓] theorem landTl_carried (a : Nat) (w : Word) (r : RegRow) : s.Carried fp (s.landTl a w r) := carried (by simp [State.landTl])

@[simp ↓] theorem landPav_carried (src : Src) (a : Nat) (w : Word) (r : RegRow) :
    s.Carried fp (s.landPav src a w r) := carried (by simp [State.landPav])

@[simp ↓] theorem wbCtrl_carried (n : Nat) (w : Word) (r : RegRow) : s.Carried fp (s.wbCtrl n w r) := carried (by simp [State.wbCtrl])

@[simp ↓] theorem landFin_carried (a : Nat) (w : Word) (r : RegRow) : s.Carried fp (s.landFin a w r) := by
  refine carried ?_
  unfold State.landFin
  (repeat' split) <;> simp

@[simp ↓] theorem landEng_carried (src : Src) (a : Nat) (w : Word) (r : RegRow) :
    s.Carried ⟨true, flash⟩ (s.landEng src a w r) := carried (by simp [State.landEng])

@[simp ↓] theorem landMem_carried (a : Nat) (w : Word) (r : RegRow) :
    s.Carried ⟨true, flash⟩ (s.landMem a w r) := carried (by simp [State.landMem])

@[simp ↓] theorem landPort_carried (src : Src) (a : Nat) (w : Word) (r : RegRow) :
    s.Carried ⟨true, true⟩ (s.landPort src a w r) := carried (by simp [State.landPort])

@[simp ↓] theorem landed_carried (src : Src) (a : Nat) (w : Word) (r : RegRow) :
    s.Carried ⟨true, true⟩ (s.landed src a w r) := carried (by simp [State.landed])

@[simp ↓] theorem regWrite_carried (src : Src) (addr value : Nat) : s.Carried ⟨true, true⟩ (s.regWrite src addr value).1 := by
  refine carried ?_
  have d := decideWrite_carries (fp := ⟨true, true⟩) (fun s a w => carries_of_carried (admChange_carried s a w)) s src (s.aliasAddr addr) value
  unfold State.regWrite
  extract_lets a
  split
  · simp
  · split <;> rename_i e <;> rw [e] at d
    · exact d
    · exact State.carries.trans d (by simp)

@[simp ↓] theorem bankLands_carried (g : Nat) (p : Posted) (r : RegRow) :
    s.Carried ⟨true, true⟩ (s.bankLands g p r) := carried (by simp [State.bankLands])

@[simp ↓] theorem postedLands_carried (g : Nat) (p : Posted) : s.Carried ⟨true, true⟩ (s.postedLands g p) := by
  refine carried ?_
  unfold State.postedLands
  split <;> simp

/-! ### Machine/SvFrames.lean -/

@[simp ↓] theorem respond_carried (rstat seq data : Nat) : s.Carried fp (s.respond rstat seq data) := carried (by simp [State.respond])

@[simp ↓] theorem svResult_carried (data : Nat) : s.Carried fp (s.svResult data) := carried (by simp [State.svResult])

@[simp ↓] theorem svRun_carried (frame : List Byte) : s.Carried fp (s.svRun frame) := carried (by simp [State.svRun])

@[simp ↓] theorem svBad_carried (rstat : Nat) : s.Carried fp (s.svBad rstat) := carried (by simp [State.svBad])

@[simp ↓] theorem svFrame_carried {eff : State → State × Nat × Nat} (h : Carries fp fun s => (eff s).1) (s : State) (cmd : Nat) (frame : List Byte)
    (bits : Nat) : s.Carried fp (s.svFrame cmd frame bits eff) := by
  refine carried ?_
  have h' : ∀ s : State, s.Carried fp (eff s).1 := fun s => carried (h s)
  unfold State.svFrame
  split
  · exact carries_refl ..
  · dsimp only
    split <;> simp [h']

end



/-! ## The commands

First the commands whose effect is itself a match on the state or on an operand; for every other command the frame rules are enough. -/

section

variable {s t : State} {now : Nat}

theorem tick_carries (s : State) (now : Nat) (fp : Footprint) : s.carries fp (s.tick now) :=
  ⟨id, id, fun _ => ⟨rfl, rfl⟩, fun _ => ⟨rfl, rfl, rfl⟩⟩

@[simp ↓] theorem tick_carried (s : State) (now : Nat) (fp : Footprint) : s.Carried fp (s.tick now) := carried (tick_carries ..)

theorem execSignatureVerifyDone_carries (h : execSignatureVerifyDone now s = .next t) : s.carries ⟨true, true⟩ t := by
  obtain rfl := Host.Outcome.next.inj h
  cases (s.tick now).sectionsRead <;> simp

theorem execSectionEnd_carries (h : execSectionEnd now s = .next t) : s.carries ⟨true, true⟩ t := by
  obtain rfl := Host.Outcome.next.inj h
  cases (s.tick now).sectionsRead <;> simp

theorem execDdr5InService_carries {eyeBad failed : List Nat} (h : execDdr5InService now eyeBad failed s = .next t) :
    s.carries ⟨true, true⟩ t := by
  obtain rfl := Host.Outcome.next.inj h
  cases (s.tick now).locket.dram <;> simp

theorem execAssetCopyDone_carries (h : execAssetCopyDone now s = .next t) : s.carries ⟨true, true⟩ t := by
  obtain rfl := Host.Outcome.next.inj h
  cases (s.tick now).locket.asset <;> simp

theorem execReseatCheckDone_carries {p : Fin 16} (h : execReseatCheckDone now p s = .next t) : s.carries ⟨true, true⟩ t := by
  obtain rfl := Host.Outcome.next.inj h
  cases ((s.tick now).scanAt p.val).reseat <;> simp

theorem execWbFrameAcked_carries {n : Fin 4} (h : execWbFrameAcked now n s = .next t) : s.carries ⟨true, true⟩ t := by
  obtain rfl := Host.Outcome.next.inj h
  cases ((s.tick now).wbAt n.val).await <;> simp

theorem execFlattenComplete_carries {p : Fin 16} {lost : Bool} (h : execFlattenComplete now p lost s = .next t) :
    s.carries ⟨true, true⟩ t := by
  obtain rfl := Host.Outcome.next.inj h
  cases ((s.tick now).scanAt p.val).flatJob <;> simp

theorem execCommitAccept_carries {p : Fin 4} {r : Fin 8} {copyFail : List Nat} (h : execCommitAccept now p r copyFail s = .next t) :
    s.carries ⟨true, true⟩ t := by
  obtain rfl := Host.Outcome.next.inj h
  cases ((s.tick now).ringAt (8 * p.val + r.val)).cand <;> simp

theorem execPolicerPacket_carries {p : Fin 4} {read : Bool} {offset len tc : Nat} {data : List Byte}
    (h : execPolicerPacket now p read offset len tc data s = .next t) : s.carries ⟨true, true⟩ t := by
  obtain rfl := Host.Outcome.next.inj h
  cases (s.tick now).bar2Hpa p.val offset <;> simp

theorem execQueueEligible_carries {q : Fin 256} (h : execQueueEligible now q s = .next t) : s.carries ⟨true, true⟩ t := by
  obtain rfl := Host.Outcome.next.inj h
  cases ((s.tick now).shqAt q.val).elig <;> simp

theorem execDramRead_carries {hpa deadline : Nat} {cls : ReadClass} (h : execDramRead now hpa cls deadline s = .next t) :
    s.carries ⟨true, true⟩ t := by
  obtain rfl := Host.Outcome.next.inj h
  cases (s.tick now).locket.dram <;> simp

theorem execDramWrite_carries {hpa deadline : Nat} {data : List Byte} {cls : MemClass}
    (h : execDramWrite now hpa data cls deadline s = .next t) : s.carries ⟨true, true⟩ t := by
  obtain rfl := Host.Outcome.next.inj h
  cases (s.tick now).locket.dram <;> simp

theorem execDramReadReturn_carries {c : Fin 8} {id : Nat} {errs0 errs1 : List BeatErr}
    (h : execDramReadReturn now c id errs0 errs1 s = .next t) : s.carries ⟨true, true⟩ t := by
  obtain rfl := Host.Outcome.next.inj h
  dsimp only
  split
  · refine (tick_carries ..).trans (carries_of_carried (when_carried (fun u => ?_) _ _))
    split <;> simp
  · simp

theorem execWriteCrcAlert_carries {c : Fin 8} {id : Nat} (h : execWriteCrcAlert now c id s = .next t) : s.carries ⟨true, true⟩ t := by
  obtain rfl := Host.Outcome.next.inj h
  dsimp only
  split <;> simp

theorem execDramWriteAck_carries {who : Acked} (h : execDramWriteAck now who s = .next t) : s.carries ⟨true, true⟩ t := by
  obtain rfl := Host.Outcome.next.inj h
  cases who <;> simp

theorem execPatrolScrub_carries {hpa : Nat} {errs0 errs1 : List BeatErr} (h : execPatrolScrub now hpa errs0 errs1 s = .next t) :
    s.carries ⟨true, true⟩ t := by
  obtain rfl := Host.Outcome.next.inj h
  cases (s.tick now).locket.dram <;> simp

theorem execRetrainStep_carries {c : Fin 8} {rank : Fin 2} {changed : Bool} (h : execRetrainStep now c rank changed s = .next t) :
    s.carries ⟨true, true⟩ t := by
  obtain rfl := Host.Outcome.next.inj h
  cases (s.tick now).locket.dram <;> simp

theorem execSmSvSig_carries {src : Src} {value : Nat} (h : execSmSvSig now src value s = .next t) : s.carries ⟨true, true⟩ t := by
  obtain rfl := Host.Outcome.next.inj h
  have d := (tick_carries s now ⟨true, true⟩).trans
    (decideWrite_carries (adm := noAdm) (fun s _ _ => carries_refl s _) (s.tick now) src SM_SV_SIG value)
  split
  · next t e =>
    rw [e] at d
    exact d
  · next t w _ e =>
    have ht : s.carries ⟨true, true⟩ t := by
      rw [e] at d
      exact d
    simp [ht]

theorem execIslandRelease_carries {isl : Fin 108} {ok : Bool} (h : execIslandRelease now isl ok s = .next t) : s.carries ⟨true, true⟩ t := by
  obtain rfl := Host.Outcome.next.inj h
  cases (s.tick now).downOf isl.val <;> simp

theorem execMigrationComplete_carries {pv : Fin 8} (h : execMigrationComplete now pv s = .next t) : s.carries ⟨true, true⟩ t := by
  obtain rfl := Host.Outcome.next.inj h
  split <;> simp

theorem execPostedWriteLands_carries {group : Nat} (h : execPostedWriteLands now group s = .next t) : s.carries ⟨true, true⟩ t := by
  obtain rfl := Host.Outcome.next.inj h
  cases (s.tick now).postedAt group <;> simp

theorem execPorstNAssert_carries {width : Nat} (h : execPorstNAssert now width s = .next t) : s.carries ⟨true, true⟩ t := by
  obtain rfl := Host.Outcome.next.inj h
  exact (tick_carries ..).trans (carries_of_carried (when_carried porst_carries _ _))

end

/-- Every command keeps the canonical form. -/
theorem exec_carries {c : Instr} {s t : State} (h : exec c s = .next t) : s.carries ⟨true, true⟩ t := by
  cases c with
  | porstNAssert => exact execPorstNAssert_carries h
  | signatureVerifyDone => exact execSignatureVerifyDone_carries h
  | sectionEnd => exact execSectionEnd_carries h
  | ddr5InService => exact execDdr5InService_carries h
  | assetCopyDone => exact execAssetCopyDone_carries h
  | reseatCheckDone => exact execReseatCheckDone_carries h
  | wbFrameAcked => exact execWbFrameAcked_carries h
  | flattenComplete => exact execFlattenComplete_carries h
  | commitAccept => exact execCommitAccept_carries h
  | policerPacket => exact execPolicerPacket_carries h
  | queueEligible => exact execQueueEligible_carries h
  | dramRead => exact execDramRead_carries h
  | dramWrite => exact execDramWrite_carries h
  | dramReadReturn => exact execDramReadReturn_carries h
  | writeCrcAlert => exact execWriteCrcAlert_carries h
  | dramWriteAck => exact execDramWriteAck_carries h
  | patrolScrub => exact execPatrolScrub_carries h
  | retrainStep => exact execRetrainStep_carries h
  | smSvSig => exact execSmSvSig_carries h
  | islandRelease => exact execIslandRelease_carries h
  | migrationComplete => exact execMigrationComplete_carries h
  | postedWriteLands => exact execPostedWriteLands_carries h
  | _ =>
    obtain rfl := Host.Outcome.next.inj h
    simp

/-- Settles O36: an empty queue leaves the state, and a command carries the canonical form over. -/
theorem everyStepKeepsCanonicalForm : Obligations.EveryStepKeepsCanonicalForm := by
  unfold Obligations.EveryStepKeepsCanonicalForm
  intro s t h hm hr
  have hc : s.carries ⟨true, true⟩ t := by
    cases hq : s.pending with
    | nil =>
      rw [step_nil hq] at h
      cases h
      exact carries_refl ..
    | cons c rest =>
      rw [step_cons hq] at h
      have hs : s.carries ⟨true, true⟩ { s with pending := rest } := ⟨id, id, fun _ => ⟨rfl, rfl⟩, fun _ => ⟨rfl, rfl, rfl⟩⟩
      exact hs.trans (exec_carries h)
  exact ⟨hc.wf hm, hc.regs hr⟩

/-! ## What a footprint leaves -/

theorem State.carries.memSame {s t : State} {flash : Bool} (h : s.carries ⟨false, flash⟩ t) : s.memSame t := fun a => by
  obtain ⟨hm, hl⟩ := h.mem rfl
  unfold State.rdByte
  rw [hm, hl]

theorem State.carries.storeSame {s t : State} {mem : Bool} (h : s.carries ⟨mem, false⟩ t) : s.storeSame t := h.flash rfl


end Sys2Proof.Machine
end

section

namespace Sys2Proof.Machine

/-! ## Commands that are not due -/

/-- Settles O60: each command runs its effect under the condition that fails here. -/
theorem undueCommandsOnlyPassTime : Obligations.UndueCommandsOnlyPassTime := by
  unfold Obligations.UndueCommandsOnlyPassTime
  intro s now x
  refine ⟨fun h b k => ?_, fun w h => ?_, fun n h => ?_, fun h low => ?_, fun h => ?_, fun h => ?_, fun h => ?_, fun q h => ?_, fun g h => ?_,
    fun i h => ?_, fun p r res host bad h => ?_, fun t h => ?_⟩
  · simp [exec, execPorstNRelease, h, x]
  · simp [exec, execPorstNAssert, Nat.not_lt.2 h, x]
  · simp [exec, execWakePin, Nat.not_le.2 h, x]
  · simp [exec, execSupervisorWakeLine, h, x]
  · simp [exec, execSupplyLossRestart, h, x]
  · simp [exec, execHeartbeatLoss, h, x]
  · simp [exec, execSessionIdleExpiry, h, x]
  · have he : ((s.tick now).shqAt q.val).elig = none := h
    simp [exec, execQueueEligible, he, x]
  · have hp : (s.tick now).postedAt g = none := h
    simp [exec, execPostedWriteLands, hp, x]
  · simp [exec, execSurfaceRetire, h, x]
  · simp [exec, execCommitEntryRead, h, x]
  · have hi : ((s.tick now).tlcAt t.val).image = none := h
    have hs : (s.tick now).commitSeal t.val = s.tick now := by simp [State.commitSeal, hi]
    simp [exec, execCommitSeal, State.when, hs, x]

/-! ## The state under PORST_N -/

/-- Settles O2: the tables of `State.reset` are empty, so every register reads its reset word. -/
theorem resetState : Obligations.ResetState := by
  unfold Obligations.ResetState
  refine ⟨rfl, rfl, rfl, rfl, rfl, fun a => rfl, ?_, rfl, rfl, fun i => rfl⟩
  exact (faultLow_iff _).2 (.inl rfl)

end Sys2Proof.Machine
end

section

namespace Sys2Proof.Machine

/-! ## Panels (R119 to R121) -/

section

variable (s : State) (now t : Nat)

theorem panelMod_get (f : Panel → Panel) (a : Nat) (g : Fld) : (s.panelMod t f).get a g = s.get a g := by
  unfold State.get State.panelMod State.scanMod
  rw [setScanAt_rd]

theorem panelMod_eq (f : Panel → Panel) : s.panelMod t f = s.setScanAt t { s.scanAt t with panel := f (s.scanAt t).panel } := rfl

theorem tick_phaseOver {ph : PanelPhase} {n : Nat} (hup : s.pixelUp t = true) (hph : (s.scanAt t).panel.phase = ph)
    (hover : (s.scanAt t).panel.since + n * 1000000 ≤ max s.dtime now) : (s.tick now).phaseOver t ph n = true := by
  have hpx : (s.tick now).pixelUp t = s.pixelUp t := rfl
  have hsc : (s.tick now).scanAt t = s.scanAt t := rfl
  simp [State.phaseOver, hpx, hsc, hup, hph, msNs, hover]

/-- What no step of a fold changes, the fold leaves. -/
theorem foldl_same {α β : Type} (π : State → β) {f : State → α → State} (h : ∀ s a, π (f s a) = π s) (l : List α) (s : State) :
    π (l.foldl f s) = π s := by
  induction l generalizing s with
  | nil => rfl
  | cons a l ih => exact (ih _).trans (h s a)

theorem wbCut_scan (n : Nat) : (s.wbCut n).scan = s.scan := by
  unfold State.wbCut
  dsimp only
  split <;> rfl

theorem ogSync_scan : s.ogSync.scan = s.scan := by
  unfold State.ogSync
  dsimp only
  rw [wrN_scan, put_scan, put_scan]

theorem ogSync_get {a : Nat} (f : Fld) (h : a ∉ [OG_USED, OG_FLAT, OG_SAVED]) : s.ogSync.get a f = s.get a f := by
  simp only [List.mem_cons, List.not_mem_nil, or_false, not_or] at h
  obtain ⟨hused, hflat, hsaved⟩ := h
  unfold State.ogSync
  dsimp only
  rw [get_wrN_ne _ _ _ hsaved, get_put_ne _ _ _ _ hflat, get_put_ne _ _ _ _ hused]

/-- The timeline has stopped after Down 2. -/
theorem videoOff_started : ((s.videoOff t).scanAt t).started = false := by
  unfold State.videoOff
  extract_lets u v reset x y z active
  have hcut : ∀ (s : State) (n : Nat), (if (s.wbAt n).cur.any fun f => f.tl == t then s.wbCut n else s).scan = s.scan := fun s n => by
    split
    · exact wbCut_scan ..
    · rfl
  have hy : y.scan = x.scan := foldl_same (·.scan) hcut _ _
  have hx : (x.scanAt t).started = false := by simp [x, State.scanMod, reset, Scan.reset]
  clear_value y x
  have hz : z.scan = y.scan := rfl
  have ha : active.scan = z.scan := put_scan ..
  unfold State.scanAt at hx ⊢
  rw [ogSync_scan, put_scan, ha, hz, hy]
  exact hx

theorem videoOff_get_linkUp : (s.videoOff t).get (TL_STAT t) TL_STAT_LINK_UP = 0 := by
  unfold State.videoOff
  extract_lets u v w x y
  rw [ogSync_get _ _ (by simp [TL_STAT, OG_USED, OG_FLAT, OG_SAVED]; omega), get_put_same _ _ _ _ (by decide)]
  rfl

end

/-- Settles O9: each expiry runs its step, and Down 2 is `videoOff`. -/
theorem panelSequenceCompletes : Obligations.PanelSequenceCompletes := by
  unfold Obligations.PanelSequenceCompletes
  intro s now t
  refine ⟨fun hup hph hover => ?_, fun hup hph hover => ?_, fun hup hph hover => ?_, fun hup hph hover => ?_, fun hup hph hover => ?_,
    fun hup hph hover => ?_, fun hup hph hover => ?_⟩
  · simp [exec, execPanelTpoffDone, hup, hph, hover]
    rfl
  · simp [exec, execPanelTponExpiry, tick_phaseOver s now t hup hph hover]
    rfl
  · simp [exec, execBacklightOnExpiry, tick_phaseOver s now t hup hph hover]
    rfl
  · have hph' : ((s.tick now).scanAt t.val).panel.phase ≠ .pwmEnd := by
      rw [show (s.tick now).scanAt t.val = s.scanAt t.val from rfl, hph]
      decide
    simp [exec, execPwmPeriodEnd, hover, State.pwmEnd, hph']
    rfl
  · have hph' : ((s.tick now).scanAt t.val).panel.phase = .pwmEnd := hph
    simp [exec, execPwmPeriodEnd, hover, State.pwmEnd, hph']
    rfl
  · have hx : exec (.backlightOffExpiry now t) s =
        .next (((s.tick now).videoOff t).panelMod t fun p => { p with phase := .vOff, since := max s.dtime now }) := by
      simp [exec, execBacklightOffExpiry, tick_phaseOver s now t hup hph hover]
    refine ⟨_, hx, ?_, ?_, ?_, ?_⟩
    · simp [panelMod_eq]
    · simp [panelMod_eq, videoOff_started]
    · rw [panelMod_get, videoOff_get_linkUp]
    · have hc : s.carries ⟨false, false⟩ (((s.tick now).videoOff t).panelMod t fun p => { p with phase := .vOff, since := max s.dtime now }) := by
        simp
      exact hc.memSame
  · simp [exec, execPanelVoffExpiry, tick_phaseOver s now t hup hph hover]
    rfl

end Sys2Proof.Machine
end

section

namespace Sys2Proof.Machine

/-! ## Facet tiles (R162 to R184)

A body is read back mode by mode. Packed bits are read by `packBits_div`: dropping the bits of a prefix leaves the packed rest. -/

section

/-! ### Packed bits -/

/-- The bits that a list of values with their widths takes. -/
def packedWidth (l : List (Nat × Nat)) : Nat := (l.map (·.2)).sum

/-- Every value fits its width. -/
def PackFits (l : List (Nat × Nat)) : Prop := ∀ p ∈ l, p.1 < 2 ^ p.2

theorem packBits_shift (l : List (Nat × Nat)) (pos : Nat) : packBits l pos = packBits l 0 * 2 ^ pos := by
  induction l generalizing pos with
  | nil => simp [packBits]
  | cons p t ih =>
    obtain ⟨v, w⟩ := p
    rw [packBits, packBits, ih (pos + w), ih (0 + w), pow_add, Nat.zero_add, pow_zero]
    ring

theorem packBits_cons (v w : Nat) (t : List (Nat × Nat)) : packBits ((v, w) :: t) 0 = v + 2 ^ w * packBits t 0 := by
  rw [packBits, packBits_shift, Nat.zero_add, pow_zero]
  ring

theorem packBits_lt {l : List (Nat × Nat)} (h : PackFits l) : packBits l 0 < 2 ^ packedWidth l := by
  induction l with
  | nil => simp [packBits, packedWidth]
  | cons p t ih =>
    obtain ⟨v, w⟩ := p
    obtain ⟨hv, ht⟩ := List.forall_mem_cons.1 h
    have hlt := ih ht
    have hw : packedWidth ((v, w) :: t) = w + packedWidth t := by simp [packedWidth]
    rw [packBits_cons, hw, pow_add]
    calc v + 2 ^ w * packBits t 0 < 2 ^ w + 2 ^ w * packBits t 0 := Nat.add_lt_add_right hv _
      _ = 2 ^ w * (packBits t 0 + 1) := by ring
      _ ≤ 2 ^ w * 2 ^ packedWidth t := Nat.mul_le_mul_left _ hlt

theorem packBits_cons_mod {v w : Nat} (h : v < 2 ^ w) (t : List (Nat × Nat)) : packBits ((v, w) :: t) 0 % 2 ^ w = v := by
  rw [packBits_cons, Nat.add_mul_mod_self_left, Nat.mod_eq_of_lt h]

theorem packBits_cons_div {v w : Nat} (h : v < 2 ^ w) (t : List (Nat × Nat)) : packBits ((v, w) :: t) 0 / 2 ^ w = packBits t 0 := by
  rw [packBits_cons, Nat.add_mul_div_left _ _ (Nat.two_pow_pos w), Nat.div_eq_of_lt h, Nat.zero_add]

theorem packBits_div {xs : List (Nat × Nat)} (h : PackFits xs) (ys : List (Nat × Nat)) :
    packBits (xs ++ ys) 0 / 2 ^ packedWidth xs = packBits ys 0 := by
  induction xs with
  | nil => simp [packedWidth]
  | cons p t ih =>
    obtain ⟨v, w⟩ := p
    obtain ⟨hv, ht⟩ := List.forall_mem_cons.1 h
    have hw : packedWidth ((v, w) :: t) = w + packedWidth t := by simp [packedWidth]
    rw [hw, pow_add, ← Nat.div_div_eq_div_mul, List.cons_append, packBits_cons_div hv, ih ht]

/-- Groups of equal width: the bits from the i-th group on. -/
theorem packBits_flatten_div {gs : List (List (Nat × Nat))} {s : Nat} (hf : ∀ g ∈ gs, PackFits g) (hs : ∀ g ∈ gs, packedWidth g = s)
    (i : Nat) (hi : i ≤ gs.length) : packBits gs.flatten 0 / 2 ^ (s * i) = packBits (gs.drop i).flatten 0 := by
  have hw : packedWidth (gs.take i).flatten = s * i := by
    have hsum : (gs.take i).map packedWidth = List.replicate i s := by
      refine List.eq_replicate_iff.2 ⟨by simp [hi], fun w hw => ?_⟩
      obtain ⟨g, hg, rfl⟩ := List.mem_map.1 hw
      exact hs g (List.mem_of_mem_take hg)
    calc packedWidth (gs.take i).flatten = ((gs.take i).map packedWidth).sum := by
          unfold packedWidth
          simp [List.map_flatten, List.sum_flatten, Function.comp_def]
      _ = s * i := by rw [hsum, List.sum_replicate, smul_eq_mul, Nat.mul_comm]
  have hfit : PackFits (gs.take i).flatten := fun p hp => by
    obtain ⟨g, hg, hpg⟩ := List.mem_flatten.1 hp
    exact hf g (List.mem_of_mem_take hg) p hpg
  calc packBits gs.flatten 0 / 2 ^ (s * i) = packBits ((gs.take i).flatten ++ (gs.drop i).flatten) 0 / 2 ^ packedWidth (gs.take i).flatten := by
        rw [← List.flatten_append, List.take_append_drop, hw]
    _ = _ := packBits_div hfit _

/-! ### Padding -/

theorem leNat_append_zeros (bs : List Byte) (n : Nat) : leNat (bs ++ zeros n) = leNat bs := by
  induction bs with
  | nil =>
    induction n with
    | zero => rfl
    | succ n ih => simpa [zeros, List.replicate_succ, leNat] using ih
  | cons b bs ih => simp [leNat, ih]

theorem length_padTo {n : Nat} {bs : List Byte} (h : bs.length ≤ n) : (padTo n bs).length = n := by
  simp [padTo, zeros]
  omega

/-! ### The widths and palettes that the encoder takes (R183) -/

theorem foldl_min_le (l : List Nat) (a : Nat) : l.foldl min a ≤ a ∧ ∀ c ∈ l, l.foldl min a ≤ c := by
  induction l generalizing a with
  | nil => simp
  | cons c l ih =>
    obtain ⟨hbase, hmem⟩ := ih (min a c)
    refine ⟨hbase.trans (min_le_left ..), List.forall_mem_cons.2 ⟨hbase.trans (min_le_right ..), hmem⟩⟩

theorem le_foldl_max (l : List Nat) (a : Nat) : a ≤ l.foldl max a ∧ ∀ c ∈ l, c ≤ l.foldl max a := by
  induction l generalizing a with
  | nil => simp
  | cons c l ih =>
    obtain ⟨hbase, hmem⟩ := ih (max a c)
    refine ⟨(le_max_left ..).trans hbase, List.forall_mem_cons.2 ⟨(le_max_right ..).trans hbase, hmem⟩⟩

theorem foldl_max_lt {l : List Nat} {a n : Nat} (ha : a < n) (h : ∀ c ∈ l, c < n) : l.foldl max a < n := by
  induction l generalizing a with
  | nil => exact ha
  | cons c l ih =>
    obtain ⟨hc, hl⟩ := List.forall_mem_cons.1 h
    exact ih (max_lt ha hc) hl

theorem lt_two_pow_bitLen (n : Nat) : n < 2 ^ bitLen n := by
  unfold bitLen
  split
  · simp [*]
  · exact Nat.lt_log2_self

theorem bitLen_le {n k : Nat} (h : n < 2 ^ k) : bitLen n ≤ k := by
  unfold bitLen
  split
  · exact Nat.zero_le _
  · next hn => exact (Nat.log2_lt hn).2 h

/-- A channel of a pixel word. -/
def channel (lo w : Nat) : Nat := w / 2 ^ lo % 4096

theorem channel_lt (lo w : Nat) : channel lo w < 2 ^ 12 := by
  unfold channel
  omega

/-- The descriptor of a channel spans every word of the tile. -/
theorem deltaDesc_spec (lo : Nat) (ws : List Nat) : (deltaDesc lo ws).1 < 4096 ∧ (deltaDesc lo ws).2 ≤ 12 ∧
    ∀ w ∈ ws, (deltaDesc lo ws).1 ≤ channel lo w ∧ channel lo w - (deltaDesc lo ws).1 < 2 ^ (deltaDesc lo ws).2 := by
  have hmem : ∀ w ∈ ws, channel lo w ∈ ws.map fun w => w / 2 ^ lo % 4096 := fun w hw => List.mem_map.2 ⟨w, hw, rfl⟩
  have hlt : ∀ c ∈ ws.map fun w => w / 2 ^ lo % 4096, c < 4096 := fun c hc => by
    obtain ⟨w, _, rfl⟩ := List.mem_map.1 hc
    exact Nat.mod_lt _ (by decide)
  obtain ⟨hmin, hminle⟩ := foldl_min_le (ws.map fun w => w / 2 ^ lo % 4096) 4095
  obtain ⟨-, hmax⟩ := le_foldl_max (ws.map fun w => w / 2 ^ lo % 4096) 0
  have htop := foldl_max_lt (a := 0) (by decide) hlt
  unfold deltaDesc
  dsimp only
  refine ⟨by omega, bitLen_le (by omega), fun w hw => ⟨hminle _ (hmem w hw), ?_⟩⟩
  have := hmax _ (hmem w hw)
  exact lt_of_le_of_lt (by omega) (lt_two_pow_bitLen _)

theorem mem_distinctWords (ws : List Nat) {w : Nat} : w ∈ distinctWords ws ↔ w ∈ ws := by
  have hfold : ∀ (ws acc : List Nat), w ∈ ws.foldl (fun acc w => if acc.contains w then acc else w :: acc) acc ↔ w ∈ acc ∨ w ∈ ws := by
    intro ws
    induction ws with
    | nil => simp
    | cons x ws ih =>
      intro acc
      rw [List.foldl_cons, ih]
      split
      · next hx =>
        have hx : x ∈ acc := by simpa using hx
        simp only [List.mem_cons]
        constructor
        · tauto
        · rintro (h | rfl | h) <;> tauto
      · simp only [List.mem_cons]
        tauto
  rw [distinctWords, List.mem_reverse, hfold]
  simp

theorem getD_paletteOf {n : Nat} {ds : List Nat} (h : ds.length ≤ n) {w : Nat} (hw : w ∈ ds) :
    (paletteOf n ds).getD (ds.idxOf w) 0 = w := by
  have hi : ds.idxOf w < ds.length := List.idxOf_lt_length_iff.2 hw
  have hn : ds.idxOf w < n := hi.trans_le h
  simp [paletteOf, List.getD_eq_getElem?_getD, hn, hi]

theorem getD_lt {ds : List Nat} {b d : Nat} (h : ∀ w ∈ ds, w < b) (hd : d < b) (i : Nat) : ds.getD i d < b := by
  rw [List.getD_eq_getElem?_getD]
  cases hi : ds[i]? with
  | none => exact hd
  | some w => exact h w (List.mem_of_getElem? hi)

theorem paletteOf_lt {n b : Nat} {ds : List Nat} (h : ∀ w ∈ ds, w < b) (hb : 0 < b) {v : Nat} (hv : v ∈ paletteOf n ds) : v < b := by
  obtain ⟨i, _, rfl⟩ := List.mem_map.1 hv
  exact getD_lt h (getD_lt h hb 0) i

/-! ### Words in a byte list -/

theorem bytesAt_append_within (xs ys : List Byte) {off n : Nat} (h : off + n ≤ xs.length) :
    bytesAt (xs ++ ys) off n = bytesAt xs off n := by
  refine List.map_congr_left fun i hi => ?_
  rw [List.getD_append _ _ _ _ (by have := List.mem_range.1 hi; omega)]

/-- Word i of a table of n-byte words. -/
theorem fieldAt_words {vs : List Nat} {n : Nat} (h : ∀ v ∈ vs, v < 256 ^ n) (ys : List Byte) {i : Nat} (hi : i < vs.length) :
    fieldAt ((vs.map (leBytes n)).flatten ++ ys) (i * n) n = vs.getD i 0 := by
  have hlen : (vs.map (leBytes n)).flatten.length = n * vs.length := by
    rw [length_flatten_of_forall length_of_mem_map_leBytes, List.length_map]
  have hin : i * n + n ≤ (vs.map (leBytes n)).flatten.length := by
    rw [hlen, ← Nat.succ_mul, Nat.mul_comm n]
    exact Nat.mul_le_mul_right _ hi
  rw [fieldAt, bytesAt_append_within _ _ hin, Nat.mul_comm, bytesAt_flatten length_of_mem_map_leBytes (by simpa using hi),
    List.getElem_map, leNat_leBytes, Nat.mod_eq_of_lt (h _ (List.getElem_mem hi)), List.getD_eq_getElem _ _ hi]

theorem map_getD_range {vs : List Nat} {m : Nat} (h : vs.length = m) : (List.range m).map (fun i => vs.getD i 0) = vs := by
  subst h
  exact List.ext_getElem (by simp) fun i _ hi => by simp [hi]

/-! ### The DELTA body -/

/-- The descriptors of the four channels, by the low bit of the channel. -/
def deltaDescs (ws : List Nat) : List (Nat × Nat) := [0, 12, 24, 36].map fun lo => deltaDesc lo ws

/-- The bits of a pixel of a DELTA body. -/
def deltaWidth (ws : List Nat) : Nat := ((deltaDescs ws).map (·.2)).foldl (· + ·) 0

/-- The value that a DELTA body holds for a channel of a pixel, with its width. -/
def deltaPair (ws : List Nat) (w lo : Nat) : Nat × Nat := (channel lo w - (deltaDesc lo ws).1, (deltaDesc lo ws).2)

/-- The values of a pixel. -/
def deltaPairs (ws : List Nat) (w : Nat) : List (Nat × Nat) := [0, 12, 24, 36].map (deltaPair ws w)

def deltaStream (ws : List Nat) : Nat := packBits ((ws.map (deltaPairs ws)).flatten) 0

def deltaBody (ws : List Nat) : List Byte :=
  ((deltaDescs ws).map fun d => leBytes 2 (d.1 + d.2 * 4096)).flatten ++ leBytes (8 * deltaWidth ws) (deltaStream ws)

theorem packFits_deltaPairs {ws : List Nat} : ∀ g ∈ ws.map (deltaPairs ws), PackFits g := fun g hg p hp => by
  obtain ⟨w, hw, rfl⟩ := List.mem_map.1 hg
  obtain ⟨lo, -, rfl⟩ := List.mem_map.1 hp
  exact ((deltaDesc_spec lo ws).2.2 w hw).2

theorem packedWidth_deltaPairs {ws : List Nat} : ∀ g ∈ ws.map (deltaPairs ws), packedWidth g = deltaWidth ws := fun g hg => by
  obtain ⟨w, _, rfl⟩ := List.mem_map.1 hg
  simp [packedWidth, deltaPairs, deltaPair, deltaDescs, deltaWidth]
  omega

/-- How the decoder names a channel: base, width, its bits in the word and its low bit. -/
def deltaChan (ws : List Nat) (lo : Nat) : Nat × Nat × Nat × Nat := ((deltaDesc lo ws).1, (deltaDesc lo ws).2, 12, lo)

theorem deltaChannels_cons (ws : List Nat) (stream pos lo : Nat) (cs : List (Nat × Nat × Nat × Nat)) :
    deltaChannels stream (deltaChan ws lo :: cs) pos =
      if 2 ^ 12 ≤ (deltaDesc lo ws).1 + stream / 2 ^ pos % 2 ^ (deltaDesc lo ws).2 then none
      else (deltaChannels stream cs (pos + (deltaDesc lo ws).2)).map
        fun r => ((deltaDesc lo ws).1 + stream / 2 ^ pos % 2 ^ (deltaDesc lo ws).2) * 2 ^ lo + r := by
  rw [deltaChan, deltaChannels]
  cases deltaChannels stream cs (pos + (deltaDesc lo ws).2) <;> rfl

/-- The channels of a pixel, read from a stream that holds its values next. -/
theorem deltaChannels_packBits {ws : List Nat} {w : Nat} (hw : w ∈ ws) (los : List Nat) {stream pos : Nat} {rest : List (Nat × Nat)}
    (hs : stream / 2 ^ pos = packBits (los.map (deltaPair ws w) ++ rest) 0) :
    deltaChannels stream (los.map (deltaChan ws)) pos = some ((los.map fun lo => channel lo w * 2 ^ lo).sum) := by
  induction los generalizing pos with
  | nil => rfl
  | cons lo los ih =>
    obtain ⟨hle, hlt⟩ := (deltaDesc_spec lo ws).2.2 w hw
    rw [List.map_cons, List.cons_append, deltaPair] at hs
    have hread : (deltaDesc lo ws).1 + stream / 2 ^ pos % 2 ^ (deltaDesc lo ws).2 = channel lo w := by
      rw [hs, packBits_cons_mod hlt, Nat.add_sub_cancel' hle]
    have hnext := ih (pos := pos + (deltaDesc lo ws).2) (by rw [pow_add, ← Nat.div_div_eq_div_mul, hs, packBits_cons_div hlt])
    rw [List.map_cons, deltaChannels_cons, hread, if_neg (Nat.not_le.2 (channel_lt lo w)), hnext, Option.map_some, List.map_cons, List.sum_cons]

theorem channel_add {lo hi : Nat} (h : lo + 12 = hi) (w : Nat) : channel lo w * 2 ^ lo + w / 2 ^ hi * 2 ^ hi = w / 2 ^ lo * 2 ^ lo := by
  subst h
  rw [pow_add, ← Nat.div_div_eq_div_mul, channel]
  calc w / 2 ^ lo % 4096 * 2 ^ lo + w / 2 ^ lo / 2 ^ 12 * (2 ^ lo * 2 ^ 12)
      = (w / 2 ^ lo % 4096 + 4096 * (w / 2 ^ lo / 4096)) * 2 ^ lo := by
        norm_num
        ring
    _ = w / 2 ^ lo * 2 ^ lo := by rw [Nat.mod_add_div]

/-- A pixel word is its four channels. -/
theorem sum_channels {w : Nat} (h : w < 2 ^ 48) : (([0, 12, 24, 36] : List Nat).map fun lo => channel lo w * 2 ^ lo).sum = w := by
  have htop := channel_add (lo := 36) (hi := 48) rfl w
  rw [Nat.div_eq_of_lt h, Nat.zero_mul] at htop
  rw [List.map_cons, List.map_cons, List.map_cons, List.map_cons, List.map_nil, List.sum_cons, List.sum_cons, List.sum_cons, List.sum_cons,
    List.sum_nil, htop, channel_add rfl, channel_add rfl, channel_add rfl, pow_zero, Nat.div_one, Nat.mul_one]

/-! ### The modes, decoded -/

section

variable {ws : List Nat} {h : TileHdr}

theorem decodeBody_const (hm : h.mode = 0) {w : Nat} (hw : w < 2 ^ 48) :
    decodeBody 0x2F h (padTo 16 (leBytes 6 w)) = .inr (List.replicate 64 w) := by
  have hread : fieldAt (padTo 16 (leBytes 6 w)) 0 6 = w := by
    rw [padTo, fieldAt_leBytes_zero, Nat.mod_eq_of_lt (by simpa using hw)]
  simp [decodeBody, hm, hread]

variable (hlen : ws.length = 64) (hws : ∀ w ∈ ws, w < 2 ^ 48)

include hlen hws

theorem decodeBody_raw (hm : h.mode = 1) : decodeBody 0x2F h (ws.map (leBytes 6)).flatten = .inr ws := by
  have hread : (List.range 64).map (fun i => fieldAt (ws.map (leBytes 6)).flatten (i * 6) 6) = ws := by
    refine (List.map_congr_left fun i hi => ?_).trans (map_getD_range hlen)
    have hi := List.mem_range.1 hi
    simpa using fieldAt_words (n := 6) (by simpa using hws) [] (by omega)
  simp [decodeBody, hm, facetWordBytes, hread]

/-- The palette, then an index of each pixel. -/
def paletteBody (ws : List Nat) (n bits : Nat) : List Byte :=
  ((paletteOf n (distinctWords ws)).map (leBytes 6)).flatten ++
    leBytes (8 * bits) (packBits (ws.map fun w => ((distinctWords ws).idxOf w, bits)) 0)

omit hws in
theorem packBits_indices {bits : Nat} {f : Nat → Nat} (hf : ∀ w ∈ ws, f w < 2 ^ bits) {i : Nat} (hi : i < 64) :
    packBits (ws.map fun w => (f w, bits)) 0 / 2 ^ (bits * i) % 2 ^ bits = f (ws.getD i 0) := by
  have hgroups : ws.map (fun w => (f w, bits)) = (ws.map fun w => [(f w, bits)]).flatten := by
    rw [List.map_eq_flatMap, List.flatMap_def]
  have hdrop : (ws.map fun w => [(f w, bits)]).drop i = [(f ws[i], bits)] :: (ws.map fun w => [(f w, bits)]).drop (i + 1) := by
    rw [List.drop_eq_getElem_cons (by simp; omega), List.getElem_map]
  have hfit : ∀ g ∈ ws.map fun w => [(f w, bits)], PackFits g := fun g hg p hp => by
    obtain ⟨w, hw, rfl⟩ := List.mem_map.1 hg
    cases List.mem_singleton.1 hp
    exact hf w hw
  have hwidth : ∀ g ∈ ws.map fun w => [(f w, bits)], packedWidth g = bits := fun g hg => by
    obtain ⟨w, _, rfl⟩ := List.mem_map.1 hg
    simp [packedWidth]
  rw [hgroups, packBits_flatten_div hfit hwidth i (by simp; omega), hdrop, List.flatten_cons, List.singleton_append,
    packBits_cons_mod (hf _ (List.getElem_mem _)), List.getD_eq_getElem]

omit hlen hws in
theorem length_paletteBody (n bits : Nat) : (paletteBody ws n bits).length = 6 * n + 8 * bits := by
  rw [paletteBody, List.length_append, length_leBytes, length_flatten_of_forall length_of_mem_map_leBytes]
  simp [paletteOf]

theorem decodeBody_palette {n bits : Nat} (hn : n = 2 ^ bits) (hds : (distinctWords ws).length ≤ n) (k : Nat)
    (hdec : ∀ body, decodeBody 0x2F h body =
      .inr ((List.range 64).map fun i => fieldAt body (fieldAt body (n * 6) (8 * bits) / 2 ^ (bits * i) % 2 ^ bits * 6) 6)) :
    decodeBody 0x2F h (padTo k (paletteBody ws n bits)) = .inr ws := by
  have hpos : ∀ w ∈ ws, (distinctWords ws).idxOf w < n := fun w hw =>
    (List.idxOf_lt_length_iff.2 ((mem_distinctWords ws).2 hw)).trans_le hds
  have hpal : (paletteOf n (distinctWords ws)).length = n := by simp [paletteOf]
  have hsmall : ∀ v ∈ paletteOf n (distinctWords ws), v < 256 ^ 6 := fun v hv =>
    paletteOf_lt (fun w hw => by simpa using hws w ((mem_distinctWords ws).1 hw)) (by decide) hv
  have hbits : packBits (ws.map fun w => ((distinctWords ws).idxOf w, bits)) 0 < 256 ^ (8 * bits) := by
    have hlt := packBits_lt (l := ws.map fun w => ((distinctWords ws).idxOf w, bits)) fun p hp => by
      obtain ⟨w, hw, rfl⟩ := List.mem_map.1 hp
      exact hn ▸ hpos w hw
    have hw : packedWidth (ws.map fun w => ((distinctWords ws).idxOf w, bits)) = 8 * (8 * bits) := by
      simp only [packedWidth, List.map_map, Function.comp_def, List.map_const', List.sum_replicate, hlen, smul_eq_mul]
      omega
    rwa [hw, pow_mul] at hlt
  have hbytes : ((paletteOf n (distinctWords ws)).map (leBytes 6)).flatten.length = n * 6 := by
    rw [length_flatten_of_forall length_of_mem_map_leBytes, List.length_map, hpal, Nat.mul_comm]
  have hidx : fieldAt (padTo k (paletteBody ws n bits)) (n * 6) (8 * bits) =
      packBits (ws.map fun w => ((distinctWords ws).idxOf w, bits)) 0 := by
    have hskip := bytesAt_append_add (leBytes (8 * bits) (packBits (ws.map fun w => ((distinctWords ws).idxOf w, bits)) 0) ++
      zeros (k - (paletteBody ws n bits).length)) hbytes 0 (8 * bits)
    rw [Nat.add_zero, ← List.append_assoc] at hskip
    rw [fieldAt, padTo]
    exact (congrArg leNat hskip).trans ((fieldAt_leBytes_zero ..).trans (Nat.mod_eq_of_lt hbits))
  rw [hdec, hidx]
  congr 1
  refine (List.map_congr_left fun i hi => ?_).trans (map_getD_range hlen)
  have hi := List.mem_range.1 hi
  have hmem : ws.getD i 0 ∈ ws := by
    rw [List.getD_eq_getElem _ _ (by omega)]
    exact List.getElem_mem _
  rw [packBits_indices hlen (fun w hw => hn ▸ hpos w hw) hi, padTo, paletteBody, List.append_assoc,
    fieldAt_words hsmall _ (by rw [hpal]; exact hpos _ hmem), getD_paletteOf hds ((mem_distinctWords ws).2 hmem)]

omit hlen hws in
theorem decodeBody_mode3 (hm : h.mode = 3) (body : List Byte) : decodeBody 0x2F h body =
    .inr ((List.range 64).map fun i => fieldAt body (fieldAt body (4 * 6) (8 * 2) / 2 ^ (2 * i) % 2 ^ 2 * 6) 6) := by
  simp [decodeBody, hm, facetWordBytes]

omit hlen hws in
theorem decodeBody_mode4 (hm : h.mode = 4) (body : List Byte) : decodeBody 0x2F h body =
    .inr ((List.range 64).map fun i => fieldAt body (fieldAt body (16 * 6) (8 * 4) / 2 ^ (4 * i) % 2 ^ 4 * 6) 6) := by
  simp [decodeBody, hm, facetWordBytes]

omit hws in
theorem deltaStream_div {i : Nat} (hi : i < 64) :
    deltaStream ws / 2 ^ (i * deltaWidth ws) = packBits (deltaPairs ws (ws.getD i 0) ++ ((ws.map (deltaPairs ws)).drop (i + 1)).flatten) 0 := by
  have hdrop : (ws.map (deltaPairs ws)).drop i = deltaPairs ws (ws.getD i 0) :: (ws.map (deltaPairs ws)).drop (i + 1) := by
    rw [List.drop_eq_getElem_cons (by simp; omega), List.getElem_map, List.getD_eq_getElem]
  rw [deltaStream, Nat.mul_comm, packBits_flatten_div packFits_deltaPairs packedWidth_deltaPairs i (by simp; omega), hdrop, List.flatten_cons]

theorem deltaChannels_pixel {i : Nat} (hi : i < 64) :
    deltaChannels (deltaStream ws) ([0, 12, 24, 36].map (deltaChan ws)) (i * deltaWidth ws) = some (ws.getD i 0) := by
  have hmem : ws.getD i 0 ∈ ws := by
    rw [List.getD_eq_getElem _ _ (by omega)]
    exact List.getElem_mem _
  rw [deltaChannels_packBits hmem [0, 12, 24, 36] (deltaStream_div hlen hi), sum_channels (hws _ hmem)]

omit hlen hws in
theorem length_deltaDescs_bytes : ((deltaDescs ws).map fun d => leBytes 2 (d.1 + d.2 * 4096)).flatten.length = 8 := by
  simp [deltaDescs, length_leBytes]

omit hlen hws in
theorem length_deltaBody : (deltaBody ws).length = 8 + 8 * deltaWidth ws := by
  rw [deltaBody, List.length_append, length_deltaDescs_bytes, length_leBytes]

omit hlen hws in
theorem deltaBody_descs (k : Nat) : (List.range 4).map (fun c => fieldAt (padTo k (deltaBody ws)) (2 * c) 2) =
    (deltaDescs ws).map fun d => d.1 + d.2 * 4096 := by
  have hsmall : ∀ v ∈ (deltaDescs ws).map fun d => d.1 + d.2 * 4096, v < 256 ^ 2 := fun v hv => by
    obtain ⟨d, hd, rfl⟩ := List.mem_map.1 hv
    obtain ⟨lo, -, rfl⟩ := List.mem_map.1 hd
    obtain ⟨hb, hw, -⟩ := deltaDesc_spec lo ws
    norm_num
    omega
  refine (List.map_congr_left fun c hc => ?_).trans (map_getD_range (by simp [deltaDescs]))
  have hc := List.mem_range.1 hc
  have hbody : deltaBody ws = (((deltaDescs ws).map fun d => d.1 + d.2 * 4096).map (leBytes 2)).flatten ++
      leBytes (8 * deltaWidth ws) (deltaStream ws) := by
    rw [deltaBody, List.map_map]
    rfl
  rw [padTo, hbody, List.append_assoc, Nat.mul_comm 2 c, fieldAt_words hsmall _ (by simpa [deltaDescs] using hc)]

omit hws in
theorem deltaBody_stream (k : Nat) : leNat ((padTo k (deltaBody ws)).drop 8) = deltaStream ws := by
  have hlt : deltaStream ws < 256 ^ (8 * deltaWidth ws) := by
    have hfit : PackFits (ws.map (deltaPairs ws)).flatten := fun p hp => by
      obtain ⟨g, hg, hpg⟩ := List.mem_flatten.1 hp
      exact packFits_deltaPairs g hg p hpg
    have hw : packedWidth (ws.map (deltaPairs ws)).flatten = 8 * (8 * deltaWidth ws) := by
      have hsum : (ws.map (deltaPairs ws)).map packedWidth = List.replicate 64 (deltaWidth ws) :=
        List.eq_replicate_iff.2 ⟨by simpa using hlen, fun w hw => by
          obtain ⟨g, hg, rfl⟩ := List.mem_map.1 hw
          exact packedWidth_deltaPairs g hg⟩
      calc packedWidth (ws.map (deltaPairs ws)).flatten = ((ws.map (deltaPairs ws)).map packedWidth).sum := by
            unfold packedWidth
            simp [List.map_flatten, List.sum_flatten, Function.comp_def]
        _ = 8 * (8 * deltaWidth ws) := by
            rw [hsum, List.sum_replicate, smul_eq_mul]
            omega
    have hbits := packBits_lt hfit
    rwa [hw, pow_mul] at hbits
  rw [padTo, deltaBody, List.append_assoc, List.drop_append_of_le_length (by rw [length_deltaDescs_bytes]),
    List.drop_of_length_le (by rw [length_deltaDescs_bytes]), List.nil_append, leNat_append_zeros, leNat_leBytes, Nat.mod_eq_of_lt hlt]

omit hlen hws in
theorem deltaDesc_split (lo : Nat) : ((deltaDesc lo ws).1 + (deltaDesc lo ws).2 * 4096) / 4096 = (deltaDesc lo ws).2 ∧
    ((deltaDesc lo ws).1 + (deltaDesc lo ws).2 * 4096) % 4096 = (deltaDesc lo ws).1 := by
  have := (deltaDesc_spec lo ws).1
  omega

omit hlen hws in
theorem deltaDescs_width : ((deltaDescs ws).map fun d => d.1 + d.2 * 4096).map (· / 4096) = (deltaDescs ws).map (·.2) := by
  simp [deltaDescs, deltaDesc_split]

omit hlen hws in
/-- The channels that the decoder reads from the descriptors. -/
theorem deltaDescs_chans : ((List.range 4).map fun c => (((deltaDescs ws).map fun d => d.1 + d.2 * 4096).getD c 0 % 4096,
      ((deltaDescs ws).map (·.2)).getD c 0, (facetWidths 0x2F).getD c 0, (facetLows 0x2F).getD c 0)) =
    [0, 12, 24, 36].map (deltaChan ws) := by
  have hmod (lo : Nat) := Nat.mod_eq_of_lt (deltaDesc_spec lo ws).1
  simp [deltaDescs, hmod, deltaChan, List.range_succ, facetWidths, facetLows]

omit hlen hws in
theorem deltaDescs_widths_fit : (List.zipWith (fun w n => decide (n < w)) ((deltaDescs ws).map (·.2)) (facetWidths 0x2F)).any id = false := by
  have hle (lo : Nat) := (deltaDesc_spec lo ws).2.1
  simp [deltaDescs, facetWidths, hle]

omit hlen hws in
theorem deltaDescs_bases_fit : (List.zipWith (fun d n => decide (2 ^ n ≤ d % 4096)) ((deltaDescs ws).map fun d => d.1 + d.2 * 4096)
    (facetWidths 0x2F)).any id = false := by
  simp [deltaDescs, facetWidths, Nat.mod_lt]

theorem decodeBody_delta (hm : h.mode = 2) (hsize : h.size = cdiv (8 + 8 * deltaWidth ws) 16) (k : Nat) :
    decodeBody 0x2F h (padTo k (deltaBody ws)) = .inr ws := by
  have hpx : (List.range 64).map (fun i => deltaChannels (deltaStream ws) ([0, 12, 24, 36].map (deltaChan ws)) (i * deltaWidth ws)) =
      ws.map some := by
    refine (List.map_congr_left fun i hi => deltaChannels_pixel hlen hws (List.mem_range.1 hi)).trans ?_
    conv_rhs => rw [← map_getD_range hlen, List.map_map]
    rfl
  have hwords : (ws.map some).map (·.getD 0) = ws := by simp
  have hnone : (ws.map some).any (· == none) = false := by simp
  have hwidth : ((deltaDescs ws).map (·.2)).foldl (· + ·) 0 = deltaWidth ws := rfl
  unfold decodeBody
  rw [if_neg (by rw [hm]; decide), if_neg (by rw [hm]; decide), if_pos hm]
  dsimp only
  rw [deltaBody_descs, deltaDescs_width, hwidth, deltaDescs_widths_fit, deltaDescs_bases_fit, deltaBody_stream hlen, deltaDescs_chans, hpx,
    hnone, hwords]
  simp [hsize]

omit hws in
theorem eq_replicate_of_distinctWords (h : (distinctWords ws).length ≤ 1) : List.replicate 64 (ws.getD 0 0) = ws := by
  refine (List.eq_replicate_iff.2 ⟨hlen, fun w hw => ?_⟩).symm
  have hfirst : ws.getD 0 0 ∈ ws := by
    rw [List.getD_eq_getElem _ _ (by omega)]
    exact List.getElem_mem _
  rw [← mem_distinctWords] at hw hfirst
  obtain ⟨v, hv⟩ := List.length_eq_one_iff.1 (Nat.le_antisymm h (List.length_pos_of_mem hw))
  rw [hv, List.mem_singleton] at hw hfirst
  rw [hw, hfirst]

end

/-! ### The encoder (R183) -/

/-- The body of this mode and size, in 16-byte units, stands for the words. -/
structure TileCoded (ws : List Nat) (mode : Nat) (body : List Byte) (size : Nat) : Prop where
  length : body.length = 16 * size
  small : size ≤ 24
  known : mode < 5
  sized : ∀ h : TileHdr, h.mode = mode → h.size = size → hdrSizeOk 0x2F h = true
  decoded : ∀ h : TileHdr, h.mode = mode → h.size = size → decodeBody 0x2F h body = .inr ws

section

variable {ws : List Nat} {mode size : Nat} {body : List Byte}

theorem TileCoded.hdrCause_none (h : TileCoded ws mode body size) {off footprint : Nat} (hfit : (off + size) * 16 ≤ footprint) :
    hdrCause 0x2F footprint (encodeHdr ws mode size off) = none := by
  have hknown := h.known
  have hsize := h.sized (encodeHdr ws mode size off) rfl rfl
  unfold hdrCause
  rw [if_neg (by simpa [encodeHdr] using hknown), if_neg (by simp [hsize]), if_neg (by simp only [encodeHdr]; omega)]

theorem TileCoded.decodeTile_eq (h : TileCoded ws mode body size) (off : Nat) :
    decodeTile 0x2F (encodeHdr ws mode size off) body = .inr ws := by
  rw [decodeTile, h.decoded (encodeHdr ws mode size off) rfl rfl]
  exact if_pos rfl

variable (hlen : ws.length = 64) (hws : ∀ w ∈ ws, w < 2 ^ 48)

include hlen hws

theorem tileCoded_const (hd : (distinctWords ws).length ≤ 1) : TileCoded ws 0 (padTo 16 (leBytes 6 (ws.getD 0 0))) 1 where
  length := length_padTo (by simp [length_leBytes])
  small := by decide
  known := by decide
  sized h hm hs := by simp [hdrSizeOk, hm, hs]
  decoded h hm _ := by rw [decodeBody_const hm (getD_lt hws (by norm_num) 0), eq_replicate_of_distinctWords hlen hd]

theorem tileCoded_palette4 (hd : (distinctWords ws).length ≤ 4) : TileCoded ws 3 (padTo 48 (paletteBody ws 4 2)) 3 where
  length := length_padTo (by simp [length_paletteBody])
  small := by decide
  known := by decide
  sized h hm hs := by simp [hdrSizeOk, hm, hs]
  decoded h hm _ := decodeBody_palette hlen hws (n := 4) (bits := 2) (by norm_num) hd 48 (decodeBody_mode3 hm)

theorem tileCoded_palette16 (hd : (distinctWords ws).length ≤ 16) : TileCoded ws 4 (padTo 128 (paletteBody ws 16 4)) 8 where
  length := length_padTo (by simp [length_paletteBody])
  small := by decide
  known := by decide
  sized h hm hs := by simp [hdrSizeOk, hm, hs]
  decoded h hm _ := decodeBody_palette hlen hws (n := 16) (bits := 4) (by norm_num) hd 128 (decodeBody_mode4 hm)

theorem tileCoded_delta (hd : cdiv (8 + 8 * deltaWidth ws) 16 ≤ 24) :
    TileCoded ws 2 (padTo (16 * cdiv (8 + 8 * deltaWidth ws) 16) (deltaBody ws)) (cdiv (8 + 8 * deltaWidth ws) 16) where
  length := length_padTo (by rw [length_deltaBody]; unfold cdiv; omega)
  small := hd
  known := by decide
  sized h hm hs := by
    have hpos : 1 ≤ cdiv (8 + 8 * deltaWidth ws) 16 := by unfold cdiv; omega
    simp [hdrSizeOk, hm, hs, facetMaxBody, hpos, hd]
  decoded h hm hs := decodeBody_delta hlen hws hm hs _

theorem tileCoded_raw : TileCoded ws 1 (ws.map (leBytes 6)).flatten 24 where
  length := by rw [length_flatten_of_forall length_of_mem_map_leBytes, List.length_map, hlen]
  small := le_rfl
  known := by decide
  sized h hm hs := by simp [hdrSizeOk, hm, hs, facetMaxBody]
  decoded h hm _ := decodeBody_raw hlen hws hm

omit hlen hws in
theorem encodeTile_eq (ws : List Nat) : encodeTile ws =
    if (distinctWords ws).length ≤ 1 then (0, padTo 16 (leBytes 6 (ws.getD 0 0)))
    else if (distinctWords ws).length ≤ 4 ∧ ¬ (deltaWidth ws ≤ 47 ∧ cdiv (8 + 8 * deltaWidth ws) 16 < 3) then (3, padTo 48 (paletteBody ws 4 2))
    else if (distinctWords ws).length ≤ 16 ∧ ¬ (deltaWidth ws ≤ 47 ∧ cdiv (8 + 8 * deltaWidth ws) 16 < 8) then
      (4, padTo 128 (paletteBody ws 16 4))
    else if deltaWidth ws ≤ 47 ∧ cdiv (8 + 8 * deltaWidth ws) 16 ≤ 24 then
      (2, padTo (16 * cdiv (8 + 8 * deltaWidth ws) 16) (deltaBody ws))
    else (1, (ws.map (leBytes 6)).flatten) := rfl

/-- The encoder writes a coded tile, of a size that no mode that can hold the tile undercuts. -/
theorem encodeTile_coded : ∃ size, TileCoded ws (encodeTile ws).1 (encodeTile ws).2 size ∧
    ((distinctWords ws).length ≤ 1 → size = 1) ∧ ((distinctWords ws).length ≤ 4 → size ≤ 3) ∧
    ((distinctWords ws).length ≤ 16 → size ≤ 8) ∧ (deltaWidth ws ≤ 47 → size ≤ cdiv (8 + 8 * deltaWidth ws) 16) := by
  have hpos : 1 ≤ cdiv (8 + 8 * deltaWidth ws) 16 := by unfold cdiv; omega
  have hmax : deltaWidth ws ≤ 47 → cdiv (8 + 8 * deltaWidth ws) 16 ≤ 24 := by unfold cdiv; omega
  rw [encodeTile_eq]
  split_ifs with h1 h4 h16 hdelta
  · exact ⟨1, tileCoded_const hlen hws h1, by omega⟩
  · exact ⟨3, tileCoded_palette4 hlen hws h4.1, by omega⟩
  · exact ⟨8, tileCoded_palette16 hlen hws h16.1, by omega⟩
  · exact ⟨_, tileCoded_delta hlen hws hdelta.2, by omega⟩
  · exact ⟨24, tileCoded_raw hlen hws, by omega⟩

end

end

/-- Settles O41: each mode's body is read back by its own lemma, and the sizes compare mode by mode. -/
theorem facetTilesRoundTrip : Obligations.FacetTilesRoundTrip := by
  intro ws off footprint hlen hws e size widths
  obtain ⟨n, hcoded, hmin⟩ := encodeTile_coded hlen hws
  have hsize : size = n := by
    have := hcoded.length
    simp only [size, e]
    omega
  rw [hsize]
  exact ⟨hcoded.length, hcoded.small, hcoded.hdrCause_none, hcoded.decodeTile_eq off, hmin⟩

end Sys2Proof.Machine
end

section

namespace Sys2Proof.Machine

/-! ## Reading an image (R70 to R93)

What an abandoned slot leaves: the always-on registers that no load writes, and the search over. -/

section

variable {s : State}

/-! ### Abandoning a slot -/

/-- What an abandoned load writes: the marks of its start, its serial, and the parking control, which it puts back. -/
def loadWords : List Nat := [SY_BOOT_MARK 1, SY_BOOT_MARK 2, SY_BOOT_MARK 3, SY_BOOT_MARK 4, SY_PARK_CTRL, SY_IMAGE_SERIAL]

def Boot.unloaded (b : Boot) : Boot := { b with applied := false, firstDone := b.firstDone && !b.applied }

/-- Of the registers that no load writes, of power and of the start, a dropped load changes only that nothing is applied. -/
theorem dropLoad_kept_parts : (∀ a, keptBlock a = true → isStruct a = false → a ∉ loadWords → s.dropLoad.rd a = s.rd a) ∧
    s.dropLoad.power = s.power ∧ s.dropLoad.boot = s.boot.unloaded := by
  unfold State.dropLoad
  split
  · next happ =>
    extract_lets s1 panels park g b s2 r s3 s4 s5
    have hregs2 : s2.regs = s.regs.filter fun x => keptBlock x.1 && !isStruct x.1 := rfl
    have hpower2 : s2.power = s.power := rfl
    have hboot2 : s2.boot = s.boot.unloaded := by
      rw [Boot.unloaded, happ, Bool.not_true, Bool.and_false]
      rfl
    clear_value s2
    have hregs3 : s3.regs = s2.regs := foldl_same (fun t : State => t.regs) (fun t p => setScanAt_regs t _ _) panels s2
    have hpower3 : s3.power = s2.power := foldl_same (fun t : State => t.power) (fun t p => setScanAt_power t _ _) panels s2
    have hboot3 : s3.boot = s2.boot := foldl_same (fun t : State => t.boot) (fun t p => setScanAt_boot t _ _) panels s2
    clear_value s3
    have hpower4 : s4.power = s3.power := foldl_same (fun t : State => t.power) (fun t n => wrN_power t _ _) [1, 2, 3, 4] s3
    have hboot4 : s4.boot = s3.boot := foldl_same (fun t : State => t.boot) (fun t n => wrN_boot t _ _) [1, 2, 3, 4] s3
    have hrd4 : ∀ a, a ∉ loadWords → s4.rd a = s3.rd a := fun a ha => by
      simp only [loadWords, List.mem_cons, List.not_mem_nil, or_false, not_or] at ha
      obtain ⟨h1, h2, h3, h4, -, -⟩ := ha
      simp only [s4, List.foldl_cons, List.foldl_nil]
      rw [rd_wrN_ne _ _ h4, rd_wrN_ne _ _ h3, rd_wrN_ne _ _ h2, rd_wrN_ne _ _ h1]
    clear_value s4
    refine ⟨fun a hkept hstruct hload => ?_, ?_, ?_⟩
    · have hpark : a ≠ SY_PARK_CTRL ∧ a ≠ SY_IMAGE_SERIAL := by
        simp only [loadWords, List.mem_cons, List.not_mem_nil, or_false, not_or] at hload
        exact ⟨hload.2.2.2.2.1, hload.2.2.2.2.2⟩
      have hrd2 : s2.rd a = s.rd a := by
        rw [State.rd, hregs2]
        exact (tget_filter resetWord (fun a => keptBlock a && !isStruct a) s.regs a).trans (if_pos (by simp [hkept, hstruct]))
      simp only [s5]
      rw [rd_wrN_ne _ _ hpark.2, rd_put_ne _ _ _ hpark.1, rd_put_ne _ _ _ hpark.1, hrd4 a hload, rd_congr hregs3, hrd2]
    · simp only [s5]
      rw [wrN_power, put_power, put_power, hpower4, hpower3, hpower2]
    · simp only [s5]
      rw [wrN_boot, put_boot, put_boot, hboot4, hboot3, hboot2]
  · next happ =>
    refine ⟨fun _ _ _ _ => rfl, rfl, ?_⟩
    unfold Boot.unloaded
    cases hb : s.boot
    simp_all

theorem dropLoad_power : s.dropLoad.power = s.power := dropLoad_kept_parts.2.1

theorem dropLoad_boot : s.dropLoad.boot = s.boot.unloaded :=
  dropLoad_kept_parts.2.2

/-- A register that no load writes reads as before once the load is dropped. -/
theorem dropLoad_rd {a : Nat} (hkept : keptBlock a = true) (hstruct : isStruct a = false) (hload : a ∉ loadWords) :
    s.dropLoad.rd a = s.rd a := dropLoad_kept_parts.1 a hkept hstruct hload

theorem dropLoad_get {a : Nat} (ha : a = SY_BOOT_STAT ∨ a = SY_LOAD_FAIL) (f : Fld) : s.dropLoad.get a f = s.get a f := by
  have hrd : s.dropLoad.rd a = s.rd a := by
    rcases ha with rfl | rfl
    · exact dropLoad_rd (by decide) (by decide) (by decide)
    · exact dropLoad_rd (by decide) (by decide) (by decide)
  exact congrArg (getField · f) hrd

/-! ### The note of a failure (R36, R93) -/

theorem noteFail_boot (k : Nat) (f : LoadFail) : (s.noteFail k f).boot = s.boot := by
  unfold State.noteFail State.outcome
  rw [put_boot, put_boot, put_boot, put_boot, wrN_boot, put_boot]

theorem noteFail_power (k : Nat) (f : LoadFail) : (s.noteFail k f).power = s.power := by
  unfold State.noteFail State.outcome
  rw [put_power, put_power, put_power, put_power, wrN_power, put_power]

theorem noteFail_outcome (k : Nat) (f : LoadFail) : (s.noteFail k f).get SY_BOOT_STAT (slotFld k) = f.outcome % 16 := by
  have hfit : (slotFld k).lo + (slotFld k).w ≤ 32 ∧ (slotFld k).w = 4 := by
    unfold slotFld
    split_ifs <;> decide
  unfold State.noteFail
  dsimp only
  rw [get_put_ne _ _ _ _ (by decide), get_put_ne _ _ _ _ (by decide), get_put_ne _ _ _ _ (by decide), get_put_ne _ _ _ _ (by decide),
    get_wrN_ne _ _ _ (by decide), State.outcome, get_put_same _ _ _ _ hfit.1, hfit.2]
  norm_num

theorem noteFail_check (k : Nat) (f : LoadFail) : (s.noteFail k f).get SY_LOAD_FAIL SY_LOAD_FAIL_CHECK = f.check % 256 := by
  unfold State.noteFail
  dsimp only
  rw [get_put_apart _ _ _ _ _ (by decide) (by decide), get_put_apart _ _ _ _ _ (by decide) (by decide),
    get_put_apart _ _ _ _ _ (by decide) (by decide), get_put_same _ _ _ _ (by decide)]
  rfl

theorem noteFail_where (k : Nat) (f : LoadFail) : (s.noteFail k f).get SY_LOAD_FAIL SY_LOAD_FAIL_WHERE = f.place % 32 := by
  unfold State.noteFail
  dsimp only
  rw [get_put_apart _ _ _ _ _ (by decide) (by decide), get_put_apart _ _ _ _ _ (by decide) (by decide), get_put_same _ _ _ _ (by decide)]
  rfl

theorem noteFail_slot (k : Nat) (f : LoadFail) : (s.noteFail k f).get SY_LOAD_FAIL SY_LOAD_FAIL_SLOT = k % 4 := by
  unfold State.noteFail
  dsimp only
  rw [get_put_apart _ _ _ _ _ (by decide) (by decide), get_put_same _ _ _ _ (by decide)]
  rfl

/-! ### The last slot of the first search abandoned (R47) -/

/-- Abandoning the last slot of the first search waits for the repeat. -/
theorem abandon_last (hlast : s.boot.todo = []) (hfirst : s.boot.repeat_ = false) (hsel : s.power.bootsel < 3) (f : LoadFail) :
    s.abandon f = { (s.noteFail s.boot.slot f).dropLoad with
      boot := { (s.noteFail s.boot.slot f).dropLoad.boot with todo := [], phase := .retry, waitFrom := (s.noteFail s.boot.slot f).dropLoad.dtime } } := by
  have hon : ¬ ((s.noteFail s.boot.slot f).dropLoad.boot.repeat_ = true ∨ (s.noteFail s.boot.slot f).dropLoad.power.bootsel = 3) := by
    rw [dropLoad_boot, dropLoad_power, noteFail_boot, noteFail_power]
    simp [Boot.unloaded, hfirst]
    omega
  have htodo : (s.noteFail s.boot.slot f).dropLoad.boot.todo = [] := by rw [dropLoad_boot, noteFail_boot]; exact hlast
  rw [State.abandon, htodo, State.tryNext, State.searchOver, if_neg hon]

/-- What abandoning the last slot of the first search records. -/
theorem abandon_last_spec (hlast : s.boot.todo = []) (hfirst : s.boot.repeat_ = false) (hsel : s.power.bootsel < 3) (f : LoadFail) :
    (s.abandon f).boot.phase = .retry ∧ (s.abandon f).boot.waitFrom = s.dtime ∧ (s.abandon f).boot.applied = false ∧
      (s.abandon f).get SY_BOOT_STAT (slotFld s.boot.slot) = f.outcome % 16 ∧ (s.abandon f).get SY_LOAD_FAIL SY_LOAD_FAIL_CHECK = f.check % 256 ∧
      (s.abandon f).get SY_LOAD_FAIL SY_LOAD_FAIL_WHERE = f.place % 32 ∧ (s.abandon f).get SY_LOAD_FAIL SY_LOAD_FAIL_SLOT = s.boot.slot % 4 := by
  have hget : ∀ a, a = SY_BOOT_STAT ∨ a = SY_LOAD_FAIL → ∀ g, (s.abandon f).get a g = (s.noteFail s.boot.slot f).get a g := fun a ha g => by
    rw [abandon_last hlast hfirst hsel]
    exact dropLoad_get ha g
  have hdtime : (s.noteFail s.boot.slot f).dropLoad.dtime = s.dtime :=
    (congrArg Kept.dtime (dropLoad_kept _)).trans (congrArg Kept.dtime (noteFail_kept ..))
  have hboot : (s.abandon f).boot = { (s.noteFail s.boot.slot f).dropLoad.boot with
      todo := [], phase := .retry, waitFrom := (s.noteFail s.boot.slot f).dropLoad.dtime } := by
    rw [abandon_last hlast hfirst hsel]
  rw [hget _ (.inl rfl), hget _ (.inr rfl), hget _ (.inr rfl), hget _ (.inr rfl), hboot, noteFail_outcome, noteFail_check, noteFail_where, noteFail_slot]
  exact ⟨rfl, hdtime, by rw [dropLoad_boot]; rfl, rfl, rfl, rfl, rfl⟩

/-! ### Reading goes on -/

def State.withBoot (s : State) (b : Boot) : State := { s with boot := b }

theorem locketHdr_tick (now k : Nat) : (s.tick now).locketHdr k = s.locketHdr k := by
  unfold State.locketHdr State.slotBytes State.rdFlashN State.rdFlash
  rw [tick_flash0, tick_flash1]

theorem locketTab_tick (now k : Nat) : (s.tick now).locketTab k = s.locketTab k := by
  unfold State.locketTab State.slotBytes State.rdFlashN State.rdFlash
  rw [tick_flash0, tick_flash1]

theorem headerRead_good (h : hdrFail s.power.compat (s.locketHdr s.boot.slot) = none) :
    s.headerRead = s.withBoot { s.boot with phase := .table } := by
  unfold State.headerRead
  rw [h]
  rfl

theorem headerRead_bad {f : LoadFail} (h : hdrFail s.power.compat (s.locketHdr s.boot.slot) = some f) : s.headerRead = s.abandon f := by
  unfold State.headerRead
  rw [h]

theorem tableRead_good (h : tabFail (fieldAt (s.locketHdr s.boot.slot) 4 2) (slotArea s.boot.slot).2 (s.locketHdr s.boot.slot)
    (s.locketTab s.boot.slot) = none) : s.tableRead = s.withBoot { s.boot with phase := .sect 0 } := by
  unfold State.tableRead
  dsimp only
  rw [h]
  rfl

theorem sigDone_good (h : s.sigFail s.boot.slot = none) (n : Nat) : s.sigDone n = (s.withBoot { s.boot with sigOk := true }).advance n := by
  unfold State.sigDone
  rw [h]
  rfl

theorem sectionEnd_good {n : Nat} (hgaps : (s.gapsOf s.boot.slot n).findSome? (s.gapFail s.boot.slot) = none) (hheld : s.boot.held = none) :
    s.sectionEnd n = (s.withBoot { s.boot with phase := .sect (n + 1) }).advance (n + 1) := by
  unfold State.sectionEnd
  dsimp only
  rw [hgaps]
  dsimp only
  rw [hheld]
  rfl

theorem useRead_f_none {n : Nat} (hused : n ≤ s.boot.used) (left : Nat) (b : Nat.below (motive := fun _ => State → State) (left + 1)) :
    State.useRead._f n (left + 1) b s = s := by
  generalize e : State.useRead._f = f
  delta State.useRead._f at e
  subst e
  dsimp -zeta only
  extract_lets k
  cases (s.readSecs k)[s.boot.used]? with
  | none => rfl
  | some e => exact if_pos hused

theorem brecOn_same {F : (n : Nat) → Nat.below (motive := fun _ => State → State) n → State → State} (zero : ∀ b, F 0 b s = s)
    (succ : ∀ n b, F (n + 1) b s = s) (n : Nat) : Nat.brecOn (motive := fun _ => State → State) n F s = s := by
  cases n with
  | zero => exact zero _
  | succ n => exact succ n _

/-- Before a section has been read, nothing is used. -/
theorem useRead_none {n : Nat} (hused : n ≤ s.boot.used) (left : Nat) : s.useRead n left = s := by
  generalize e : @State.useRead = f
  delta State.useRead at e
  subst e
  exact brecOn_same (fun _ => rfl) (useRead_f_none hused) left

/-- A slot with a section still to use does not load. -/
theorem advance_none {n k : Nat} (hph : s.boot.phase = .sect k) (hused : n ≤ s.boot.used)
    (hleft : s.boot.used < (s.readSecs s.boot.slot).length) : s.advance n = s := by
  have hmore : decide (s.boot.used = (s.readSecs s.boot.slot).length) = false := decide_eq_false (Nat.ne_of_lt hleft)
  unfold State.advance
  dsimp only
  rw [useRead_none hused, ite_self, hph, hmore]
  simp

/-- Nothing is used before the signature is good. -/
theorem advance_unsigned (h : s.boot.sigOk = false) (n : Nat) : s.advance n = s := by
  unfold State.advance
  simp only [h, Bool.false_and, Bool.and_false, Bool.false_eq_true, if_false]
  split <;> rfl

end

/-- Settles O6: each reading step is its own equation, and the last slot's failure is `abandon_last_spec`. -/
theorem imageReadingCompletes : Obligations.ImageReadingCompletes := by
  intro s now
  refine ⟨fun hph hwarm hok => ?_, fun f hph hwarm hfail hlast hfirst hsel hslot => ?_, fun hph hok => ?_, fun n hph hsig hheld hok => ?_,
    fun hph hsig hheld hok hused hlen => ?_, fun n hph hlen hgaps hheld => ?_, fun n hph hlen hgaps hheld hsig => ?_⟩
  · have hrun : exec (.locketHeaderRead now) s = .next (s.tick now).headerRead := by simp [exec, execLocketHeaderRead, State.when, hph, hwarm]
    rw [hrun, headerRead_good (by rw [locketHdr_tick]; exact hok)]
    rfl
  · have hrun : exec (.locketHeaderRead now) s = .next (s.tick now).headerRead := by simp [exec, execLocketHeaderRead, State.when, hph, hwarm]
    rw [hrun, headerRead_bad (f := f) (by rw [locketHdr_tick]; exact hfail)]
    obtain ⟨hphase, -, happlied, hout, hcheck, -, -⟩ := abandon_last_spec (s := s.tick now) hlast hfirst hsel f
    exact ⟨_, rfl, hphase, hout, hcheck, happlied⟩
  · have hrun : exec (.sectionTableRead now) s = .next (s.tick now).tableRead := by simp [exec, execSectionTableRead, State.when, hph]
    rw [hrun, tableRead_good (by rw [locketHdr_tick, locketTab_tick]; exact hok)]
    rfl
  · have hrun : exec (.signatureVerifyDone now) s = .next ((s.tick now).sigDone n) := by
      simp [exec, execSignatureVerifyDone, State.sectionsRead, State.when, hph, hsig, hheld]
    rw [hrun, sigDone_good hok]
    rfl
  · have hrun : exec (.signatureVerifyDone now) s = .next ((s.tick now).sigDone 0) := by
      simp [exec, execSignatureVerifyDone, State.sectionsRead, State.when, hph, hsig, hheld]
    rw [hrun, sigDone_good hok]
    exact congrArg Host.Outcome.next (advance_none (k := 0) (by exact hph) (Nat.zero_le _) (lt_of_eq_of_lt hused hlen))
  · have hrun : exec (.sectionEnd now) s = .next ((s.tick now).sectionEnd n) := by
      simp [exec, execSectionEnd, State.sectionsRead, State.when, hph, hlen]
    rw [hrun, sectionEnd_good hgaps hheld]
    rfl
  · have hrun : exec (.sectionEnd now) s = .next ((s.tick now).sectionEnd n) := by
      simp [exec, execSectionEnd, State.sectionsRead, State.when, hph, hlen]
    rw [hrun, sectionEnd_good hgaps hheld]
    exact congrArg Host.Outcome.next (advance_unsigned (by exact hsig) (n + 1))

end Sys2Proof.Machine
end

section

namespace Sys2Proof.Machine

/-! ## Still commands

A still change is quiet and leaves the slow parts of the state: the start, power, parking, the Gatehouse, the islands, the image. -/

/-- The parts of the state that traffic, scanning and commits never change. -/
structure Slow where
  boot : Boot
  power : Power
  park : Park
  gate : Gate
  isl : Islands
  locket : Locket
  xs : Option XsJob
  sv : SvPort
  dtime : Nat
  pending : List Instr

def State.slow (s : State) : Slow := ⟨s.boot, s.power, s.park, s.gate, s.isl, s.locket, s.xs, s.sv, s.dtime, s.pending⟩

/-- A quiet change that leaves the slow parts. -/
structure State.still (s t : State) (but : List Nat) : Prop where
  quiet : s.quiet t but
  slow : t.slow = s.slow

section

variable {s t u : State} {but : List Nat}

theorem still_refl (s : State) (but : List Nat) : s.still s but := ⟨quiet_refl s but, rfl⟩

theorem State.still.trans (h : s.still t but) (k : t.still u but) : s.still u but := ⟨h.quiet.trans k.quiet, k.slow.trans h.slow⟩

theorem State.still.mono {but' : List Nat} (h : s.still t but) (k : ∀ a ∈ but, a ∈ but') : s.still t but' := ⟨h.quiet.mono k, h.slow⟩

theorem State.still.next {more : List Nat} (h : s.still t but) (k : t.still u more) (hm : ∀ a ∈ more, a ∈ but) : s.still u but :=
  h.trans (k.mono hm)

theorem State.still.wr (h : s.still t but) {a : Nat} (w : Word) (ha : a ∈ but) : s.still (t.wr a w) but := ⟨h.quiet.wr w ha, h.slow⟩

theorem State.still.put (h : s.still t but) {a : Nat} (f : Fld) (v : Nat) (ha : a ∈ but) : s.still (t.put a f v) but := h.wr _ ha

theorem State.still.bump (h : s.still t but) {a : Nat} (f : Fld) (n : Nat) (ha : a ∈ but) : s.still (t.bump a f n) but := h.wr _ ha

theorem State.still.bumpMod (h : s.still t but) {a : Nat} (f : Fld) (n : Nat) (ha : a ∈ but) : s.still (t.bumpMod a f n) but := h.wr _ ha

theorem State.still.wrN (h : s.still t but) {a : Nat} (v : Nat) (ha : a ∈ but) : s.still (t.wrN a v) but := h.wr _ ha

theorem State.still.events (h : s.still t but) (k : t.onlyEvents u) : s.still u but :=
  ⟨h.quiet.events k, (by rw [k.1]; rfl : u.slow = t.slow).trans h.slow⟩

/-- A change of other parts of the state alone. -/
theorem State.still.same (h : s.still t but) (hr : u.regs = t.regs) (hm : u.mem = t.mem) (hl : u.losses = t.losses) (h0 : u.flash0 = t.flash0)
    (h1 : u.flash1 = t.flash1) (ho : u.otp = t.otp) (hs : u.slow = t.slow) : s.still u but :=
  ⟨h.quiet.trans (quiet_of_same hr hm hl h0 h1 ho), hs.trans h.slow⟩

theorem still_foldl {α : Type} {f : State → α → State} {l : List α} (h : ∀ (s : State) (a : α), a ∈ l → s.still (f s a) but) (s : State) :
    s.still (l.foldl f s) but := by
  induction l generalizing s with
  | nil => exact still_refl _ _
  | cons a l ih => exact (h s a (by simp)).trans (ih (fun s b hb => h s b (by simp [hb])) _)

theorem still_ite {c : Prop} [Decidable c] (h : s.still t but) (k : s.still u but) : s.still (if c then t else u) but := by
  split
  · exact h
  · exact k

theorem State.still.boot (h : s.still t but) : t.boot = s.boot := congrArg Slow.boot h.slow
theorem State.still.power (h : s.still t but) : t.power = s.power := congrArg Slow.power h.slow
theorem State.still.park (h : s.still t but) : t.park = s.park := congrArg Slow.park h.slow
theorem State.still.gate (h : s.still t but) : t.gate = s.gate := congrArg Slow.gate h.slow
theorem State.still.isl (h : s.still t but) : t.isl = s.isl := congrArg Slow.isl h.slow
theorem State.still.locket (h : s.still t but) : t.locket = s.locket := congrArg Slow.locket h.slow
theorem State.still.xs (h : s.still t but) : t.xs = s.xs := congrArg Slow.xs h.slow
theorem State.still.sv (h : s.still t but) : t.sv = s.sv := congrArg Slow.sv h.slow
theorem State.still.dtime (h : s.still t but) : t.dtime = s.dtime := congrArg Slow.dtime h.slow

theorem State.still.get (h : s.still t but) {a : Nat} (ha : lostCounter a = false) (hb : a ∉ but) (f : Fld) : t.get a f = s.get a f :=
  h.quiet.get ha hb f

/-! ### Single operations -/

theorem still_wr (s : State) {a : Nat} (w : Word) (ha : a ∈ but) : s.still (s.wr a w) but := (still_refl s but).wr w ha

theorem still_put (s : State) {a : Nat} (f : Fld) (v : Nat) (ha : a ∈ but) : s.still (s.put a f v) but := still_wr s _ ha

theorem still_bump (s : State) {a : Nat} (f : Fld) (n : Nat) (ha : a ∈ but) : s.still (s.bump a f n) but := still_wr s _ ha

theorem still_events (h : s.onlyEvents t) (but : List Nat) : s.still t but := (still_refl s but).events h

theorem still_scanMod (t : Nat) (f : Scan → Scan) (but : List Nat) : s.still (s.scanMod t f) but :=
  (still_refl s but).same rfl rfl rfl rfl rfl rfl rfl

theorem still_panelMod (t : Nat) (f : Panel → Panel) (but : List Nat) : s.still (s.panelMod t f) but := still_scanMod ..

theorem still_setFetchAt (sl : Nat) (v : SlotFetch) (but : List Nat) : s.still (s.setFetchAt sl v) but :=
  (still_refl s but).same rfl rfl rfl rfl rfl rfl rfl

theorem still_setSinkAt (t : Nat) (v : SinkState) (but : List Nat) : s.still (s.setSinkAt t v) but :=
  (still_refl s but).same rfl rfl rfl rfl rfl rfl rfl

theorem still_linkMod (l : Nat) (f : OutLink → OutLink) (but : List Nat) : s.still (s.linkMod l f) but :=
  (still_refl s but).same rfl rfl rfl rfl rfl rfl rfl

/-! ### Timelines and their links -/

theorem still_postTl (t type unit st detail : Nat) (but : List Nat) : s.still (s.postTl t type unit st detail) but :=
  still_events (postTl_only ..) but

theorem still_showPend {t : Nat} (h : AD_TL_MODE t ∈ but) : s.still (s.showPend t) but := (still_put s _ _ h).put _ _ h

theorem still_modeGone {t : Nat} (hm : AD_TL_MODE t ∈ but) (hr : AD_TL_RES t ∈ but) (order : Nat) : s.still (s.modeGone t order) but := by
  unfold State.modeGone
  refine still_ite (still_refl ..) ?_
  have hset : s.still (s.setAdmAt t { pend := (s.admAt t).pend.filter fun x => x.1 != order }) but :=
    (still_refl s but).same rfl rfl rfl rfl rfl rfl rfl
  exact (still_ite (hset.wrN _ hr) hset).trans (still_showPend hm)

/-- What a timeline that stops writes. -/
def stopWords (t : Nat) : List Nat :=
  [TL_RSEAT t, AD_TL_MODE t, AD_TL_RES t, WT_SINK_STAT t, TL_STAT t, OG_USED, OG_FLAT, OG_SAVED] ++ (List.range 64).map OL_LSTAT

theorem mem_linksOf {l t : Nat} (h : l ∈ s.linksOf t) : l < 64 := by
  have hlt (f : Fld) (hf : f.w = 6) : getField (s.rd (TL_OUT t)) f < 64 := by
    have h := getField_lt (s.rd (TL_OUT t)) f
    rwa [hf] at h
  unfold State.linksOf linksBy at h
  dsimp only at h
  split_ifs at h
  · simp at h
  · rcases List.mem_pair.1 h with rfl | rfl
    · exact hlt _ rfl
    · exact hlt _ rfl
  · rw [List.mem_singleton.1 h]
    exact hlt _ rfl

theorem still_linkOff {t l : Nat} (h : OL_LSTAT l ∈ but) : s.still (s.linkOff t l) but := by
  unfold State.linkOff
  refine still_ite (still_refl ..) ?_
  have hpost : s.still (if s.linkIsUp l then s.postTl t 0x40 l 0 6 else s) but := still_ite (still_postTl ..) (still_refl ..)
  exact (hpost.put _ _ h).same rfl rfl rfl rfl rfl rfl rfl

theorem still_reseatOver (t : Nat) : s.still (s.reseatOver t) (stopWords t) := by
  unfold State.reseatOver
  refine still_ite ?_ (still_refl ..)
  have hput : s.still ((s.put (TL_RSEAT t) TL_RSEAT_STATUS 0).put (TL_RSEAT t) TL_RSEAT_BUSY 0) (stopWords t) :=
    (still_put s _ _ (by simp [stopWords])).put _ _ (by simp [stopWords])
  exact (hput.trans (still_postTl ..)).trans (still_modeGone (by simp [stopWords]) (by simp [stopWords]) _)

theorem still_ogSync (h : ∀ a ∈ [OG_USED, OG_FLAT, OG_SAVED], a ∈ but) : s.still s.ogSync but :=
  ((still_put s _ _ (h _ (by simp))).put _ _ (h _ (by simp))).wrN _ (h _ (by simp))

theorem still_wbCut (n : Nat) : s.still (s.wbCut n) but := by
  unfold State.wbCut
  dsimp only
  split
  · exact (still_refl s but).same rfl rfl rfl rfl rfl rfl rfl
  · exact still_refl ..

theorem still_videoOff (t : Nat) : s.still (s.videoOff t) (stopWords t) := by
  have hlinks : s.still ((s.linksOf t).foldl (fun s l => s.linkOff t l) s) (stopWords t) :=
    still_foldl (fun s' l (hl : l ∈ s.linksOf t) => still_linkOff (but := stopWords t)
      (List.mem_append_right _ (List.mem_map.2 ⟨l, List.mem_range.2 (mem_linksOf hl), rfl⟩))) s
  unfold State.videoOff
  extract_lets u v r x y z w
  have hu : s.still u (stopWords t) := hlinks.trans (still_reseatOver t)
  have hv : u.still v (stopWords t) := still_foldl (fun _ _ _ => still_setFetchAt ..) u
  have hx : v.still x (stopWords t) := still_scanMod ..
  have hy : x.still y (stopWords t) := still_foldl (fun _ _ _ => still_ite (still_wbCut _) (still_refl ..)) x
  have hz : y.still z (stopWords t) := still_setSinkAt ..
  have hw : z.still w (stopWords t) := still_put z _ _ (by simp [stopWords])
  clear_value w z y x v u
  have hwhole : s.still w (stopWords t) := ((((hu.trans hv).trans hx).trans hy).trans hz).trans hw
  exact (hwhole.put _ _ (by simp [stopWords])).trans (still_ogSync (by simp [stopWords]))

theorem still_panelDown (t : Nat) : s.still (s.panelDown t) (stopWords t) := by
  unfold State.panelDown
  split
  · exact (still_videoOff t).trans (still_panelMod ..)
  · exact (still_videoOff t).trans (still_panelMod ..)
  · exact (still_videoOff t).trans (still_panelMod ..)
  · exact (still_videoOff t).trans (still_panelMod ..)
  · exact (still_videoOff t).trans (still_panelMod ..)
  · exact still_panelMod ..
  · exact still_panelMod ..
  · exact still_panelMod ..
  · exact still_panelMod ..

end

end Sys2Proof.Machine
end

section

namespace Sys2Proof.Machine

/-! ## The slot search (R30, R32, R47 to R49)

The search tries the allowed slots in order until a device responds; without one it waits, or ends in the no-image condition. -/

section

variable {s : State}

/-! ### What the start reads and writes without touching its own state -/

/-- The parts that the search goes by. -/
def State.startPart (s : State) : Boot × Power × Park := (s.boot, s.power, s.park)

theorem boot_of_startPart {s t : State} (h : t.startPart = s.startPart) : t.boot = s.boot := congrArg Prod.fst h

theorem power_of_startPart {s t : State} (h : t.startPart = s.startPart) : t.power = s.power := congrArg (fun x => x.2.1) h

theorem put_startPart (a : Nat) (f : Fld) (v : Nat) : (s.put a f v).startPart = s.startPart := rfl

theorem wrN_startPart (a v : Nat) : (s.wrN a v).startPart = s.startPart := rfl

theorem outcome_startPart (k code : Nat) : (s.outcome k code).startPart = s.startPart := put_startPart ..

theorem mark_startPart (n : Nat) : (s.mark n).startPart = s.startPart := by
  unfold State.mark
  split
  · exact wrN_startPart ..
  · rfl

theorem fusedShown_startPart : s.fusedShown.startPart = s.startPart := by
  unfold State.fusedShown
  dsimp only
  rw [wrN_startPart, put_startPart]
  exact foldl_same State.startPart (fun _ _ => wrN_startPart ..) _ _

theorem wrFlash_startPart (dev a : Nat) (b : Byte) : (s.wrFlash dev a b).startPart = s.startPart := by
  unfold State.wrFlash
  split <;> rfl

/-- A part of the state that the ledgers' upkeep leaves: neither their registers nor flash nor the Gatehouse. -/
structure LedgerBlind {β : Type} (π : State → β) : Prop where
  wr : ∀ s a w, a ∈ [GH_LED_HEAD, GH_LED_STAT, GH_LED_DROP] → π (s.wr a w) = π s
  flash : ∀ s dev a b, π (s.wrFlash dev a b) = π s
  gate : ∀ (s : State) (g : Gate), π { s with gate := g } = π s

section

variable {β : Type} {π : State → β} (hπ : LedgerBlind π)

include hπ

theorem LedgerBlind.progFlash (dev a : Nat) (bs : List Byte) (s : State) : π (s.progFlash dev a bs) = π s := by
  induction bs generalizing s a with
  | nil => rfl
  | cons b bs ih => exact (ih _ _).trans (hπ.flash ..)

theorem LedgerBlind.eraseFlash (dev a n : Nat) (s : State) : π (s.eraseFlash dev a n) = π s := by
  induction n generalizing s a with
  | zero => rfl
  | succ n ih => exact (ih _ _).trans (hπ.flash ..)

theorem LedgerBlind.ledgerWrite (dev seq : Nat) (bs : List Byte) (s : State) : π (s.ledgerWrite dev seq bs) = π s := by
  unfold State.ledgerWrite
  dsimp only
  rw [hπ.progFlash]
  split
  · exact hπ.eraseFlash ..
  · rfl

theorem LedgerBlind.ledgerCopy (i j head : Nat) (s : State) : π (s.ledgerCopy i j head) = π s := by
  unfold State.ledgerCopy
  exact foldl_same π (fun _ _ => hπ.ledgerWrite ..) _ _

theorem LedgerBlind.ledgerShow (seq : Nat) (s : State) : π (s.ledgerShow seq) = π s := by
  unfold State.ledgerShow
  exact (hπ.wr _ _ _ (by simp)).trans (hπ.wr _ _ _ (by simp))

theorem LedgerBlind.ledgerDone (role source action target : Nat) (old new : List Byte) (s : State) :
    π (s.ledgerDone role source action target old new) = π s := by
  unfold State.ledgerDone State.ledgerAdd
  split
  · next t h =>
    split at h
    · cases h
      exact ((hπ.wr _ _ _ (by simp)).trans (hπ.wr _ _ _ (by simp))).trans (hπ.gate ..)
    · cases h
  · exact hπ.wr _ _ _ (by simp)

theorem LedgerBlind.ledgerStart (s : State) : π s.ledgerStart = π s := by
  unfold State.ledgerStart
  extract_lets c0 c1 head use1 c fail t
  have ht : π t = π s := by
    simp only [t]
    split_ifs
    · exact hπ.ledgerCopy ..
    · exact hπ.ledgerCopy ..
    · rfl
  clear_value t c fail
  split
  · exact (hπ.ledgerShow ..).trans ht
  · extract_lets seq link u v back w
    have hu : π u = π s := by
      simp only [u]
      split
      · exact (hπ.gate ..).trans ht
      · exact ht
    have hw : π w = π s := ((hπ.wr _ _ _ (by simp)).trans (hπ.wr _ _ _ (by simp))).trans ((hπ.ledgerShow ..).trans hu)
    split
    · exact (hπ.ledgerDone ..).trans hw
    · exact hw

end

theorem ledgerBlind_startPart : LedgerBlind State.startPart := ⟨fun _ _ _ _ => rfl, fun _ => wrFlash_startPart, fun _ _ => rfl⟩

theorem ledgerBlind_get {a : Nat} (ha : a ∉ [GH_LED_HEAD, GH_LED_STAT, GH_LED_DROP]) (f : Fld) : LedgerBlind (·.get a f) := by
  refine ⟨fun s b w hb => get_wr_ne s w f ?_, fun s dev i b => ?_, fun _ _ => rfl⟩
  · rintro rfl
    exact ha hb
  · unfold State.wrFlash
    split <;> rfl

theorem makerEnd_startPart : s.makerEnd.startPart = s.startPart := by
  unfold State.makerEnd
  split
  · rfl
  · dsimp only
    rw [ledgerBlind_startPart.ledgerDone, put_startPart, put_startPart, put_startPart]
    rfl

theorem freshStart_startPart : s.freshStart.startPart = s.startPart := by
  unfold State.freshStart
  rw [put_startPart, makerEnd_startPart]

/-! ### The search (R30, R47) -/

theorem slotFld_apart (k : Nat) : (slotFld k).lo + (slotFld k).w ≤ 32 ∧
    (SY_BOOT_STAT_NOIMAGE.lo + SY_BOOT_STAT_NOIMAGE.w ≤ (slotFld k).lo ∨ (slotFld k).lo + (slotFld k).w ≤ SY_BOOT_STAT_NOIMAGE.lo) := by
  unfold slotFld
  split_ifs <;> decide

theorem outcome_noImage (k code : Nat) : (s.outcome k code).get SY_BOOT_STAT SY_BOOT_STAT_NOIMAGE = s.get SY_BOOT_STAT SY_BOOT_STAT_NOIMAGE :=
  get_put_apart _ _ _ _ _ (slotFld_apart k).1 (slotFld_apart k).2

theorem noteFail_noImage (k : Nat) (f : LoadFail) :
    (s.noteFail k f).get SY_BOOT_STAT SY_BOOT_STAT_NOIMAGE = s.get SY_BOOT_STAT SY_BOOT_STAT_NOIMAGE := by
  unfold State.noteFail
  dsimp only
  rw [get_put_ne _ _ _ _ (by decide), get_put_ne _ _ _ _ (by decide), get_put_ne _ _ _ _ (by decide), get_put_ne _ _ _ _ (by decide),
    get_wrN_ne _ _ _ (by decide), outcome_noImage]

/-- The reading of a slot has begun on a device that responds, from a search that went by this start and power. -/
structure Reading (t : State) (again : Bool) (power : Power) (noImage : Nat) : Prop where
  phase : t.boot.phase = .header
  dev : t.boot.devs.contains (slotDev t.boot.slot) = true
  again : t.boot.repeat_ = again
  power : t.power = power
  noImage : t.get SY_BOOT_STAT SY_BOOT_STAT_NOIMAGE = noImage

/-- A slot whose device responds begins to be read. -/
theorem tryNext_reading {tries : List (Nat × Bool)} {s : State} (h : ∃ x ∈ tries, s.boot.devs.contains (slotDev x.1) = true) :
    Reading (s.tryNext tries) s.boot.repeat_ s.power (s.get SY_BOOT_STAT SY_BOOT_STAT_NOIMAGE) := by
  induction tries generalizing s with
  | nil => simp at h
  | cons x rest ih =>
    obtain ⟨k, p2⟩ := x
    unfold State.tryNext
    split
    · next hk => exact ⟨rfl, hk, rfl, rfl, rfl⟩
    · next hk =>
      have hrest : ∃ x ∈ rest, (s.noteFail k (noDevice 16 0)).boot.devs.contains (slotDev x.1) = true := by
        obtain ⟨y, hy, hd⟩ := h
        rw [noteFail_boot]
        rcases List.mem_cons.1 hy with rfl | hy
        · exact absurd hd hk
        · exact ⟨y, hy, hd⟩
      have hread := ih hrest
      rwa [noteFail_boot, noteFail_power, noteFail_noImage] at hread

/-- What the search records of a slot before it tries the slots. -/
def State.slotNoted (order : List Nat) (s : State) (k : Nat) : State :=
  if !order.contains k then s.outcome k 8 else if !s.boot.devs.contains (slotDev k) then s.outcome k 2 else s

def State.searchNoted (s : State) : State :=
  (List.range 4).foldl (State.slotNoted (slotOrder s.power.bootsel)) (s.put SY_BOOT_CTRL SY_BOOT_CTRL_RESTART 0)

/-- The slots that the search tries, in order. -/
def State.tries (s : State) (order : List Nat) : List (Nat × Bool) :=
  (order.filter fun k => !s.secondPass k).map (fun k => (k, false)) ++ (order.filter s.secondPass).map fun k => (k, true)

theorem mem_tries {order : List Nat} {k : Nat} (h : k ∈ order) : ∃ x ∈ s.tries order, x.1 = k := by
  cases hp : s.secondPass k with
  | true => exact ⟨(k, true), by simp [State.tries, h, hp], rfl⟩
  | false => exact ⟨(k, false), by simp [State.tries, h, hp], rfl⟩

theorem search_eq (again : Bool) : s.search again =
    (s.searchNoted.withBoot { s.searchNoted.boot with repeat_ := again }).tryNext (s.searchNoted.tries (slotOrder s.power.bootsel)) := rfl

theorem searchNoted_startPart : s.searchNoted.startPart = s.startPart := by
  refine (foldl_same State.startPart (fun s k => ?_) _ _).trans (put_startPart ..)
  unfold State.slotNoted
  split_ifs
  · exact outcome_startPart ..
  · exact outcome_startPart ..
  · rfl

theorem searchNoted_noImage : s.searchNoted.get SY_BOOT_STAT SY_BOOT_STAT_NOIMAGE = s.get SY_BOOT_STAT SY_BOOT_STAT_NOIMAGE := by
  refine (foldl_same (fun s : State => s.get SY_BOOT_STAT SY_BOOT_STAT_NOIMAGE) (fun s k => ?_) _ _).trans (get_put_ne _ _ _ _ (by decide))
  unfold State.slotNoted
  split_ifs
  · exact outcome_noImage ..
  · exact outcome_noImage ..
  · rfl

theorem searchNoted_boot : s.searchNoted.boot = s.boot := boot_of_startPart searchNoted_startPart

theorem searchNoted_power : s.searchNoted.power = s.power := power_of_startPart searchNoted_startPart

/-- Every BOOTSEL but 0b11 allows a slot of flash 0. -/
theorem search_reading (hsel : s.power.bootsel < 3) (hdev : s.boot.devs.contains 0 = true) (again : Bool) :
    Reading (s.search again) again s.power (s.get SY_BOOT_STAT SY_BOOT_STAT_NOIMAGE) := by
  have hslot : ∃ k ∈ slotOrder s.power.bootsel, slotDev k = 0 := by
    generalize s.power.bootsel = b at hsel
    interval_cases b <;> decide
  obtain ⟨k, hk, hk0⟩ := hslot
  obtain ⟨x, hx, rfl⟩ := mem_tries (s := s.searchNoted) hk
  have hread := tryNext_reading (s := s.searchNoted.withBoot { s.searchNoted.boot with repeat_ := again })
    ⟨x, hx, by rw [hk0]; show s.searchNoted.boot.devs.contains 0 = true; rwa [searchNoted_boot]⟩
  rw [search_eq]
  exact ⟨hread.phase, hread.dev, hread.again, hread.power.trans searchNoted_power, hread.noImage.trans searchNoted_noImage⟩

/-! ### The no-image condition (R48) -/

theorem syncFault_boot (s : State) : s.syncFault.boot = s.boot := by
  by_cases h : s.faultLow = s.power.faultWas
  · rw [syncFault_same s h]
  · obtain ⟨payload, he⟩ := syncFault_change s h
    rw [he, onlyEvents_boot (post_only ..), faultShown_boot]

theorem syncFault_power (s : State) : s.syncFault.power = { s.power with faultWas := s.faultLow } := by
  by_cases h : s.faultLow = s.power.faultWas
  · rw [syncFault_same s h, h]
  · obtain ⟨payload, he⟩ := syncFault_change s h
    rw [he, onlyEvents_power (post_only ..), faultShown_power]

/-- No register of the always-on block is among them. -/
theorem stopWords_ge {a t : Nat} (h : a ∈ stopWords t) : 0x100000 ≤ a := by
  simp only [stopWords, List.mem_append, List.mem_cons, List.not_mem_nil, or_false, List.mem_map, TL_RSEAT, AD_TL_MODE, AD_TL_RES, WT_SINK_STAT,
    TL_STAT, OG_USED, OG_FLAT, OG_SAVED, OL_LSTAT] at h
  omega

theorem still_panelsDown (s : State) : s.still ((List.range 16).foldl State.panelDown s) ((List.range 16).flatMap stopWords) :=
  still_foldl (fun _ t ht => (still_panelDown t).mono fun _ ha => List.mem_flatMap.2 ⟨t, ht, ha⟩) s

theorem noImage_spec (s : State) : s.noImage.boot = { s.boot with phase := .noImage } ∧ s.noImage.get SY_BOOT_STAT SY_BOOT_STAT_NOIMAGE = 1 ∧
    s.noImage.faultLow = true ∧ s.noImage.power.state = s.power.state := by
  have hv : ∃ v : State, s.noImage = ((List.range 16).foldl State.panelDown v).syncFault ∧ v.boot = { s.boot with phase := .noImage } ∧
      v.power = s.power ∧ v.get SY_BOOT_STAT SY_BOOT_STAT_NOIMAGE = 1 := by
    refine ⟨((s.withBoot { s.boot with phase := .noImage }).put SY_BOOT_STAT SY_BOOT_STAT_NOIMAGE 1).wrN SY_IMAGE_SERIAL 0, rfl, ?_, ?_, ?_⟩
    · rw [wrN_boot, put_boot]
      rfl
    · rw [wrN_power, put_power]
      rfl
    · rw [get_wrN_ne _ _ _ (by decide), get_put_same _ _ _ _ (by decide)]
      rfl
  obtain ⟨v, he, hv⟩ := hv
  rw [he]
  have hdown := still_panelsDown v
  have hboot : ((List.range 16).foldl State.panelDown v).syncFault.boot = { s.boot with phase := .noImage } := by rw [syncFault_boot, hdown.boot, hv.1]
  refine ⟨hboot, ?_, (faultLow_iff _).2 (.inr (.inl (by rw [hboot]))), ?_⟩
  · have hkeep : SY_BOOT_STAT ∉ (List.range 16).flatMap stopWords := fun h => by
      obtain ⟨t, _, ht⟩ := List.mem_flatMap.1 h
      exact absurd (stopWords_ge ht) (by decide)
    rw [(syncFault_quiet _).get (by decide) (by decide), hdown.get (by decide) hkeep, hv.2.2]
  · rw [syncFault_power, hdown.power, hv.2.1]

/-- With BOOTSEL 0b11 the search tries no slot. -/
theorem search_none (hsel : s.power.bootsel = 3) (again : Bool) : ∃ u : State, s.search again = u.noImage ∧ u.power = s.power := by
  refine ⟨(s.searchNoted.withBoot { s.searchNoted.boot with repeat_ := again, todo := [] }), ?_, searchNoted_power⟩
  have hsel' : s.searchNoted.power.bootsel = 3 := by rw [searchNoted_power, hsel]
  have htries : s.searchNoted.tries (slotOrder s.power.bootsel) = [] := by
    rw [hsel]
    rfl
  rw [search_eq, htries]
  unfold State.tryNext State.searchOver
  exact if_pos (.inr hsel')

/-! ### PLL lock -/

/-- Flash devices that respond with at least 64 MiB (R66). -/
def flashDevs (size0 size1 : Option Nat) : List Nat :=
  (if size0.any fun n => decide (0x4000000 ≤ n) then [0] else []) ++ if size1.any fun n => decide (0x4000000 ≤ n) then [1] else []

/-- PLL lock begins the search on the devices found. -/
theorem pllLocked_eq (size0 size1 : Option Nat) : ∃ u : State, s.pllLocked size0 size1 = u.search false ∧
    u.boot = { s.boot with devs := flashDevs size0 size1 } ∧ u.power = { s.power with pwrEn := true, pwrGood := true, wakeWait := false } := by
  unfold State.pllLocked
  extract_lets fit devs p b u v w
  have hdevs : devs = flashDevs size0 size1 := by
    simp only [devs, fit, flashDevs]
    cases size0 <;> cases size1 <;> rfl
  have hpart : w.ledgerStart.startPart = u.startPart := by
    rw [ledgerBlind_startPart.ledgerStart]
    simp only [w, v]
    rw [put_startPart, put_startPart, mark_startPart, fusedShown_startPart]
  refine ⟨w.ledgerStart, rfl, ?_, ?_⟩
  · rw [← hdevs]
    rw [boot_of_startPart hpart]
  · rw [power_of_startPart hpart]

/-! ### RESTART (R49) -/

theorem ledgerStart_noImage : s.ledgerStart.get SY_BOOT_STAT SY_BOOT_STAT_NOIMAGE = s.get SY_BOOT_STAT SY_BOOT_STAT_NOIMAGE :=
  (ledgerBlind_get (by decide) _).ledgerStart s

theorem outcomes_noImage (l : List Nat) (s : State) :
    (l.foldl (fun s k => s.outcome k 0) s).get SY_BOOT_STAT SY_BOOT_STAT_NOIMAGE = s.get SY_BOOT_STAT SY_BOOT_STAT_NOIMAGE :=
  foldl_same (fun t : State => t.get SY_BOOT_STAT SY_BOOT_STAT_NOIMAGE) (fun t k => outcome_noImage (s := t) k 0) l s

/-- RESTART in the no-image condition searches again, from a fresh start. -/
theorem bootCtrl_restart {w : Word} (hw : getField w SY_BOOT_CTRL_RESTART = 1) (hph : s.boot.phase = .noImage) (hpark : s.park.step = 0) :
    ∃ u : State, s.bootCtrl w = u.search false ∧ u.boot.devs = s.boot.devs ∧ u.power = s.power ∧
      u.get SY_BOOT_STAT SY_BOOT_STAT_NOIMAGE = 0 := by
  unfold State.bootCtrl
  rw [if_pos ⟨hw, hph, hpark⟩]
  extract_lets b f r u v
  have hf : f.power = s.power := power_of_startPart freshStart_startPart
  have hfold := foldl_same State.startPart (fun t k => outcome_startPart (s := t) k 0) (List.range 4) v
  have hpart := ((ledgerBlind_startPart.ledgerStart _).trans hfold).trans (put_startPart ..)
  have hu : u.boot.devs = s.boot.devs ∧ u.power = f.power := ⟨rfl, rfl⟩
  refine ⟨_, rfl, ?_, ?_, ?_⟩
  · rw [boot_of_startPart hpart, hu.1]
  · rw [power_of_startPart hpart, hu.2, hf]
  · rw [ledgerStart_noImage, outcomes_noImage]
    exact get_put_same u _ _ _ (by decide)

end

/-- Settles O5: each way into the search is an equation, and `search_reading` and `noImage_spec` say how the search ends. -/
theorem slotSearchCompletes : Obligations.SlotSearchCompletes := by
  intro s now
  refine ⟨fun n size1 hph hwarm hen hsel hn => ?_, fun size0 size1 hph hwarm hen hsel => ?_, fun hph hwarm hsel hdev htime => ?_,
    fun src value u w hadm hw hph => ⟨fun hpark hsel hdev => ?_, fun hpark => ?_⟩, fun hwarm hph hlast hfirst hsel hslot => ?_⟩
  · have hrun : exec (.pllLock now (some n) size1) s = .next ((s.tick now).pllLocked (some n) size1) := by
      simp [exec, execPllLock, State.when, State.pllMay, hph, hwarm, hen]
    obtain ⟨u, he, hboot, hpower⟩ := pllLocked_eq (s := s.tick now) (some n) size1
    have hread := search_reading (s := u) (by rw [hpower]; exact hsel) (by rw [hboot]; simp [flashDevs, hn]) false
    rw [hrun, he]
    exact ⟨_, rfl, hread.phase, hread.dev, by rw [hread.power, hpower], by rw [hread.power, hpower], hread.again⟩
  · have hrun : exec (.pllLock now size0 size1) s = .next ((s.tick now).pllLocked size0 size1) := by
      simp [exec, execPllLock, State.when, State.pllMay, hph, hwarm, hen]
    obtain ⟨u, he, -, hpower⟩ := pllLocked_eq (s := s.tick now) size0 size1
    obtain ⟨v, he', hpower'⟩ := search_none (s := u) (by rw [hpower]; exact hsel) false
    obtain ⟨hboot, hno, hlow, hstate⟩ := noImage_spec v
    rw [hrun, he, he']
    exact ⟨_, rfl, by rw [hboot], hno, hlow, by rw [hstate, hpower', hpower]; rfl⟩
  · have hrun : exec (.slotSearchRetry now) s = .next ((s.tick now).search true) := by
      simp [exec, execSlotSearchRetry, State.when, hph, hwarm, htime]
    have hread := search_reading (s := s.tick now) hsel hdev true
    rw [hrun]
    exact ⟨_, rfl, hread.phase, hread.again, hread.dev⟩
  · have hrun : exec (.restart now src value) s = .next (u.bootCtrl w) :=
      congrArg (fun x : State × RStat => Host.Outcome.next x.1) (guarded_of_admits hadm fun s w => s.bootCtrl w)
    obtain ⟨v, he, hdevs, hpower, hno⟩ := bootCtrl_restart hw hph hpark
    have hread := search_reading (s := v) (by rwa [hpower]) (by rwa [hdevs]) false
    rw [hrun, he]
    exact ⟨_, rfl, hread.phase, hread.noImage.trans hno, hread.again⟩
  · have hrun : exec (.restart now src value) s = .next (u.bootCtrl w) :=
      congrArg (fun x : State × RStat => Host.Outcome.next x.1) (guarded_of_admits hadm fun s w => s.bootCtrl w)
    rw [hrun, State.bootCtrl, if_neg fun h => hpark h.2.2]
  · have hrun : exec (.flashReadFail now) s = .next ((s.tick now).abandon (noDevice 16 0)) := by
      simp [exec, execFlashReadFail, State.when, State.flashFail, hph, hwarm]
    obtain ⟨hphase, hfrom, happlied, hout, hcheck, hwhere, hat⟩ := abandon_last_spec (s := s.tick now) hlast hfirst hsel (noDevice 16 0)
    rw [hrun]
    exact ⟨_, rfl, hphase, hfrom, hout, hcheck, hwhere, hat.trans (Nat.mod_eq_of_lt hslot), happlied⟩

end Sys2Proof.Machine
end

section

namespace Sys2Proof.Machine

/-! ## Power pins (R23 to R29, R556 to R563)

Every start begins with `beginStart`; its rules serve PORST_N, the restart after a loss, wake events and WARMRST_N. -/

section

variable {s : State}

theorem makerEnd_quiet : s.quiet s.makerEnd makerWords := by
  unfold State.makerEnd
  split
  · exact quiet_refl ..
  · have hput : s.quiet ((({ s with gate := { s.gate with scope := 0 } } : State).put GH_TOK_STAT GH_TOK_STAT_SCOPE 0).put GH_STAT GH_STAT_MAKER 0)
        makerWords :=
      ((quiet_of_same rfl rfl rfl rfl rfl rfl : s.quiet ({ s with gate := { s.gate with scope := 0 } } : State) makerWords).put _ _
        (by simp [makerWords])).put _ _ (by simp [makerWords])
    exact (hput.put _ _ (by simp [makerWords])).next (ledgerDone_quiet ..) (by simp [makerWords])

theorem freshStart_quiet : s.quiet s.freshStart (GH_LOCK :: makerWords) :=
  (makerEnd_quiet.mono fun _ h => List.mem_cons_of_mem _ h).put _ _ (by simp)

theorem freshStart_quiet_closed (h : s.gate.scope = 0) : s.quiet s.freshStart [GH_LOCK] := by
  unfold State.freshStart State.makerEnd
  rw [if_pos h]
  exact quiet_put ..

def Boot.begun (at_ cause : Nat) : Boot := { Boot.reset with phase := .pll, startAt := at_, cause := cause }

def Power.waking (p : Power) : Power :=
  { p with state := .waking, porst := false, hold := false, startup := true, faultWas := true, degraded := false }

/-- The state of a start that has begun, before it shows the start in SY_BOOT_STAT. -/
def State.startBegun (s : State) (cause : Nat) : State :=
  { s.freshStart with
    boot := Boot.begun s.freshStart.dtime cause,
    park := { Park.reset with wakeAt := s.freshStart.park.wakeAt },
    power := s.freshStart.power.waking }

/-- What the start shows. -/
def State.startShown (s : State) (cause : Nat) (warm : Bool) : State :=
  ((((((s.startBegun cause).wrN SY_BOOT_STAT 0).put SY_BOOT_STAT SY_BOOT_STAT_BOOTSEL (s.startBegun cause).power.bootsel).put SY_BOOT_STAT
    SY_BOOT_STAT_COMPAT (b2n (s.startBegun cause).power.compat)).put SY_BOOT_STAT SY_BOOT_STAT_WARM (b2n warm))).put WT_FAULT WT_FAULT_FAULT 1

theorem beginStart_eq (old cause : Nat) (warm : Bool) : s.beginStart old cause warm = (s.startShown cause warm).postPstate old 2 cause := rfl

theorem startBegun_power (cause : Nat) : (s.startBegun cause).power = s.power.waking := by
  unfold State.startBegun
  dsimp only
  rw [power_of_startPart freshStart_startPart]

theorem startBegun_boot (cause : Nat) : (s.startBegun cause).boot = Boot.begun s.dtime cause := by
  unfold State.startBegun
  dsimp only
  exact congrArg (fun d => Boot.begun d cause) (congrArg Kept.dtime (freshStart_kept s))

theorem startShown_power (cause : Nat) (warm : Bool) : (s.startShown cause warm).power = s.power.waking := by
  unfold State.startShown
  rw [put_power, put_power, put_power, put_power, wrN_power, startBegun_power]

theorem startShown_boot (cause : Nat) (warm : Bool) : (s.startShown cause warm).boot = Boot.begun s.dtime cause := by
  unfold State.startShown
  rw [put_boot, put_boot, put_boot, put_boot, wrN_boot, startBegun_boot]

theorem startShown_dtime (cause : Nat) (warm : Bool) : (s.startShown cause warm).dtime = s.dtime := by
  unfold State.startShown
  rw [put_dtime, put_dtime, put_dtime, put_dtime, wrN_dtime]
  exact congrArg Kept.dtime (freshStart_kept s)

theorem startShown_get (cause : Nat) (warm : Bool) :
    (s.startShown cause warm).get SY_BOOT_STAT SY_BOOT_STAT_BOOTSEL = s.power.bootsel % 4 ∧
      (s.startShown cause warm).get SY_BOOT_STAT SY_BOOT_STAT_COMPAT = b2n s.power.compat ∧
      (s.startShown cause warm).get SY_BOOT_STAT SY_BOOT_STAT_WARM = b2n warm := by
  have hb (b : Bool) : b2n b % 2 = b2n b := by cases b <;> rfl
  unfold State.startShown
  refine ⟨?_, ?_, ?_⟩
  · rw [get_put_ne _ _ _ _ (by decide), get_put_apart _ _ _ _ _ (by decide) (by decide), get_put_apart _ _ _ _ _ (by decide) (by decide),
      get_put_same _ _ _ _ (by decide), startBegun_power]
    rfl
  · rw [get_put_ne _ _ _ _ (by decide), get_put_apart _ _ _ _ _ (by decide) (by decide), get_put_same _ _ _ _ (by decide), startBegun_power]
    exact hb _
  · rw [get_put_ne _ _ _ _ (by decide), get_put_same _ _ _ _ (by decide)]
    exact hb _

theorem startBegun_quiet {but : List Nat} (h : s.quiet s.freshStart but) (cause : Nat) : s.quiet (s.startBegun cause) but :=
  h.trans (quiet_of_same rfl rfl rfl rfl rfl rfl)

/-- A start that shows itself writes SY_BOOT_STAT, WT_FAULT and what its beginning does. -/
theorem startShown_quiet {but : List Nat} (h : s.quiet s.freshStart but) (hb : SY_BOOT_STAT ∈ but) (hf : WT_FAULT ∈ but) (cause : Nat)
    (warm : Bool) : s.quiet (s.startShown cause warm) but :=
  (((((startBegun_quiet h cause).wrN _ hb).put _ _ hb).put _ _ hb).put _ _ hb).put _ _ hf

/-! ### A start that has begun -/

/-- What `beginStart` leaves of power, the start and the registers that show it. -/
structure Begun (s t : State) (cause : Nat) (warm : Bool) : Prop where
  power : t.power = s.power.waking
  boot : t.boot = Boot.begun s.dtime cause
  dtime : t.dtime = s.dtime
  bootsel : t.get SY_BOOT_STAT SY_BOOT_STAT_BOOTSEL = s.power.bootsel % 4
  compat : t.get SY_BOOT_STAT SY_BOOT_STAT_COMPAT = b2n s.power.compat
  warm : t.get SY_BOOT_STAT SY_BOOT_STAT_WARM = b2n warm
  quiet : s.quiet t ([SY_BOOT_STAT, WT_FAULT, GH_LOCK] ++ makerWords)
  closed : s.gate.scope = 0 → s.quiet t [SY_BOOT_STAT, WT_FAULT, GH_LOCK]

theorem beginStart_begun (old cause : Nat) (warm : Bool) : Begun s (s.beginStart old cause warm) cause warm := by
  have hev := postPstate_only (s.startShown cause warm) old 2 cause
  have hboot : lostCounter SY_BOOT_STAT = false := by decide
  obtain ⟨hsel, hcompat, hwarm⟩ := startShown_get (s := s) cause warm
  rw [beginStart_eq]
  exact
    { power := (onlyEvents_power hev).trans (startShown_power ..)
      boot := (onlyEvents_boot hev).trans (startShown_boot ..)
      dtime := (onlyEvents_dtime hev).trans (startShown_dtime ..)
      bootsel := (onlyEvents_get hev _ hboot).trans hsel
      compat := (onlyEvents_get hev _ hboot).trans hcompat
      warm := (onlyEvents_get hev _ hboot).trans hwarm
      quiet := (startShown_quiet (freshStart_quiet.mono (by simp +contextual)) (by simp) (by simp) cause warm).events hev
      closed := fun h => (startShown_quiet ((freshStart_quiet_closed h).mono (by simp)) (by simp) (by simp) cause warm).events hev }

/-- A cold start begins at DTIME 0 with PWR_EN high. -/
def State.coldBegun (s : State) : State :=
  { s with dtime := 0, power := { s.power with pwrEn := true, lostAt := none } }.put SY_WAKE_STAT SY_WAKE_STAT_COLD 1

theorem coldStart_eq : s.coldStart = s.coldBegun.beginStart 0 0 false := rfl

theorem coldBegun_quiet : s.quiet s.coldBegun [SY_WAKE_STAT] :=
  (quiet_of_same rfl rfl rfl rfl rfl rfl : s.quiet { s with dtime := 0, power := { s.power with pwrEn := true, lostAt := none } } _).put _ _ (by simp)

/-- What a cold start leaves. -/
structure ColdBegun (s t : State) : Prop where
  dtime : t.dtime = 0
  power : t.power = { s.power with pwrEn := true, lostAt := none }.waking
  phase : t.boot.phase = .pll
  bootsel : t.get SY_BOOT_STAT SY_BOOT_STAT_BOOTSEL = s.power.bootsel % 4
  compat : t.get SY_BOOT_STAT SY_BOOT_STAT_COMPAT = b2n s.power.compat
  warm : t.get SY_BOOT_STAT SY_BOOT_STAT_WARM = 0
  cold : t.get SY_WAKE_STAT SY_WAKE_STAT_COLD = 1
  quiet : s.quiet t ([SY_BOOT_STAT, SY_WAKE_STAT, WT_FAULT, GH_LOCK] ++ makerWords)
  closed : s.gate.scope = 0 → s.quiet t [SY_BOOT_STAT, SY_WAKE_STAT, WT_FAULT, GH_LOCK]

theorem coldStart_coldBegun : ColdBegun s s.coldStart := by
  have h := beginStart_begun (s := s.coldBegun) 0 0 false
  have hpower : s.coldBegun.power = { s.power with pwrEn := true, lostAt := none } := put_power ..
  have hdtime : s.coldBegun.dtime = 0 := put_dtime ..
  have hgate : s.coldBegun.gate = s.gate := put_gate ..
  have hcold : s.coldBegun.get SY_WAKE_STAT SY_WAKE_STAT_COLD = 1 := get_put_same _ _ _ _ (by decide)
  rw [coldStart_eq]
  exact
    { dtime := h.dtime.trans hdtime
      power := by rw [h.power, hpower]
      phase := by rw [h.boot]; rfl
      bootsel := by rw [h.bootsel, hpower]
      compat := by rw [h.compat, hpower]
      warm := h.warm
      cold := (h.quiet.get (by decide) (by decide) _).trans hcold
      quiet := (coldBegun_quiet.mono (by simp)).next h.quiet (by simp +contextual)
      closed := fun hs => (coldBegun_quiet.mono (by simp)).next (h.closed (by rw [hgate, hs])) (by simp +contextual) }

/-! ### Power lost -/

theorem freeFlash_otp (dev a n : Nat) (s : State) : (s.freeFlash dev a n).otp = s.otp := by
  induction n generalizing s a with
  | zero => rfl
  | succ n ih =>
    refine (ih ..).trans ?_
    unfold State.wrFlash
    split <;> rfl

theorem xsCut_otp : s.xsCut.otp = s.otp := by
  unfold State.xsCut
  split
  · split
    · rfl
    · exact freeFlash_otp ..
  · rfl

theorem xsCut_idle (h : s.xs = none) : s.xsCut = s := by
  unfold State.xsCut
  rw [h]

theorem porst_rd (a : Nat) : s.porst.rd a = resetWord a := rfl

theorem porst_power : s.porst.power = Power.reset := rfl

theorem porst_otp : s.porst.otp = s.otp := xsCut_otp

theorem porst_storeSame (h : s.xs = none) : s.storeSame s.porst := by
  unfold State.porst
  rw [xsCut_idle h]
  exact ⟨rfl, rfl, rfl⟩

theorem porst_pending : s.porst.pending = s.pending := congrArg Kept.pending (xsCut_kept s)

theorem porst_dtime : s.porst.dtime = s.dtime := congrArg Kept.dtime (xsCut_kept s)

def Power.strapped (p : Power) (bootsel : Nat) (compat : Bool) : Power := { p with bootsel := bootsel % 4, compat := compat }

theorem porstNRelease_cold (now bootsel : Nat) (compat : Bool) (h : s.power.porst = true) :
    ∃ u : State, exec (.porstNRelease now bootsel compat) s = .next u.coldStart ∧ u.power = s.power.strapped bootsel compat ∧ u.gate = s.gate ∧
      s.quiet u [] := by
  refine ⟨{ s.tick now with power := s.power.strapped bootsel compat }, ?_, rfl, rfl, quiet_of_same rfl rfl rfl rfl rfl rfl⟩
  simp only [exec, execPorstNRelease, State.when, h, if_true]
  rfl

end

/-- Settles O3: PORST_N and the restart are `coldStart`, and power lost is `porst`. -/
theorem powerPinsComplete : Obligations.PowerPinsComplete := by
  intro s now
  refine ⟨fun bootsel compat hsel hporst => ?_, fun width hwidth => ?_, fun low hsup hgood hlow => ?_, fun l hl hover => ?_, fun hen hgood => ?_⟩
  · obtain ⟨u, hrun, hpower, hgate, hquiet⟩ := porstNRelease_cold now bootsel compat hporst
    have h := coldStart_coldBegun (s := u)
    have hmod : bootsel % 4 = bootsel := Nat.mod_eq_of_lt hsel
    have hpower' : u.coldStart.power = { s.power.strapped bootsel compat with pwrEn := true, lostAt := none }.waking := by rw [h.power, hpower]
    rw [hrun]
    refine ⟨_, rfl, h.dtime, ?_, ?_, ?_, ?_, ?_, h.phase, ?_, ?_, h.warm, h.cold, (hquiet.mono (by simp)).trans h.quiet,
      fun hscope => (hquiet.mono (by simp)).trans (h.closed (hgate ▸ hscope))⟩
    · rw [hpower']; rfl
    · rw [hpower']; rfl
    · rw [hpower']; exact hmod
    · rw [hpower']; rfl
    · rw [hpower']; rfl
    · rw [h.bootsel, hpower]
      simp [Power.strapped, hmod]
    · rw [h.compat, hpower]
      rfl
  · have hrun : exec (.porstNAssert now width) s = .next (s.tick now).porst := by simp [exec, execPorstNAssert, State.when, hwidth]
    rw [hrun]
    exact ⟨_, rfl, porst_rd, porst_power, (faultLow_iff _).2 (.inl rfl), porst_otp, porst_pending, fun hxs => porst_storeSame hxs⟩
  · have hrun : exec (.supplyLoss now low) s = .next ((s.tick now).supplyLoss low) := by
      simp [exec, execSupplyLoss, State.when, hsup, hgood, hlow]
    rw [hrun]
    refine ⟨_, rfl, rfl, (faultLow_iff _).2 (.inl rfl), rfl, rfl, fun _ => rfl, rfl, rfl, ?_, porst_otp (s := s.tick now),
      fun hxs => porst_storeSame (s := s.tick now) hxs⟩
    exact congrArg (fun d => some (d - low)) (porst_dtime (s := s.tick now))
  · have hrun : exec (.supplyLossRestart now) s = .next (s.tick now).coldStart := by
      simp [exec, execSupplyLossRestart, State.when, State.lossOver, hl, hover]
    have h := coldStart_coldBegun (s := s.tick now)
    rw [hrun]
    refine ⟨_, rfl, h.dtime, ?_, ?_, ?_, ?_, ?_, h.phase, ((quiet_tick s now).mono (by simp)).trans h.quiet,
      fun hscope => ((quiet_tick s now).mono (by simp)).trans (h.closed hscope)⟩
    all_goals rw [h.power]; rfl
  · simp [exec, execPwrGoodFall, State.when, hen, hgood]

end Sys2Proof.Machine
end

section

namespace Sys2Proof.Machine

/-! ## Parking (R25, R26, R53 to R57) -/

section

variable {s : State}

/-! ### A park request -/

/-- A part of the state that the end of a session leaves. -/
structure SessionBlind {β : Type} (π : State → β) : Prop where
  wr : ∀ s a w, a ∈ sessionWords → π (s.wr a w) = π s
  gate : ∀ (s : State) (g : Gate), π { s with gate := g } = π s
  otp : ∀ (s : State) (o : Otp), π { s with otp := o } = π s

theorem SessionBlind.sesClose {β : Type} {π : State → β} (hπ : SessionBlind π) (hl : LedgerBlind π) (s : State) : π s.sesClose = π s := by
  unfold State.sesClose
  split
  · dsimp only
    have hput : π (((s.ledgerDone roleInstaller 4 0x02 0 [] []).put GH_SES_STAT GH_SES_STAT_STATE 0).put GH_SES_STAT GH_SES_STAT_RIGHTS 0) = π s :=
      ((hπ.wr _ _ _ (by simp [sessionWords])).trans (hπ.wr _ _ _ (by simp [sessionWords]))).trans (hl.ledgerDone ..)
    generalize ((s.ledgerDone roleInstaller 4 0x02 0 [] []).put GH_SES_STAT GH_SES_STAT_STATE 0).put GH_SES_STAT GH_SES_STAT_RIGHTS 0 = u at hput ⊢
    have hgate := hπ.gate u { u.gate with session := { Session.reset with failAt := u.gate.session.failAt } }
    split
    · exact ((hπ.wr _ _ _ (by simp [sessionWords])).trans (hπ.wr _ _ _ (by simp [sessionWords]))).trans ((hπ.otp { u with gate := { u.gate with session := { Session.reset with failAt := u.gate.session.failAt } } }
        { u.otp with count := (u.otp.count + 1) % 2 ^ 32 }).trans (hgate.trans hput))
    · exact hgate.trans hput
  · exact (hπ.gate (s.put GH_SES_STAT GH_SES_STAT_STATE 0) _).trans (hπ.wr _ _ _ (by simp [sessionWords]))

theorem sesClose_startPart : s.sesClose.startPart = s.startPart :=
  SessionBlind.sesClose ⟨fun _ _ _ _ => rfl, fun _ _ => rfl, fun _ _ => rfl⟩ ledgerBlind_startPart s

/-- Step 1 of R54 leaves power and marks parking under way. -/
theorem parkBegin_spec (cause step : Nat) : (s.parkBegin cause step).power = s.power ∧ (s.parkBegin cause step).park.step = step ∧
    (s.parkBegin cause step).park.drainEnd = s.dtime + s.get SY_PARK_CTRL SY_PARK_CTRL_DRAIN_MS * 1000000 ∧
    (s.parkBegin cause step).get SY_PARK_CTRL SY_PARK_CTRL_PARKING = 1 ∧ (s.parkBegin cause step).get SY_PARK_CTRL SY_PARK_CTRL_REQ = 0 := by
  unfold State.parkBegin
  extract_lets e u v w p x
  have hv : v.startPart = u.startPart := by
    have ho : u.onlyEvents v := postAll_only ..
    unfold State.startPart
    rw [onlyEvents_boot ho, onlyEvents_power ho, ho.1]
  have hw : w.power = u.power := power_of_startPart ((sesClose_startPart (s := v)).trans hv)
  have hu : u.power = s.power := rfl
  have hx : x.power = w.power := rfl
  refine ⟨?_, ?_, ?_, ?_, get_put_same _ _ _ _ (by decide)⟩
  · rw [put_power, put_power, hx, hw, hu]
  · rw [put_park, put_park]
  · rw [put_park, put_park]
  · rw [get_put_apart _ _ _ _ _ (by decide) (by decide), get_put_same _ _ _ _ (by decide)]
    rfl

/-- The write of SY_PARK_CTRL with REQ asks for parking once DRAIN_MS and REQ stand. -/
def State.parkAsked (s : State) (w : Word) : State :=
  (s.put SY_PARK_CTRL SY_PARK_CTRL_DRAIN_MS (getField w SY_PARK_CTRL_DRAIN_MS)).put SY_PARK_CTRL SY_PARK_CTRL_REQ 1

theorem parkCtrl_asked {w : Word} (h : getField w SY_PARK_CTRL_REQ = 1) : s.parkCtrl w = (s.parkAsked w).parkRequest 1 := by
  unfold State.parkCtrl
  exact if_pos h

section

variable (w : Word)

theorem parkAsked_startPart : (s.parkAsked w).startPart = s.startPart := by
  unfold State.parkAsked
  rw [put_startPart, put_startPart]

theorem parkAsked_park : (s.parkAsked w).park = s.park := congrArg (fun x => x.2.2) (parkAsked_startPart w)

theorem parkAsked_dtime : (s.parkAsked w).dtime = s.dtime := by
  unfold State.parkAsked
  rw [put_dtime, put_dtime]

theorem parkAsked_drain : (s.parkAsked w).get SY_PARK_CTRL SY_PARK_CTRL_DRAIN_MS = getField w SY_PARK_CTRL_DRAIN_MS := by
  unfold State.parkAsked
  rw [get_put_apart _ _ _ _ _ (by decide) (by decide), get_put_same _ _ _ _ (by decide)]
  exact Nat.mod_eq_of_lt (getField_lt ..)

theorem parkAsked_busy : ((s.parkAsked w).wokeNow || (s.parkAsked w).warmNow) = (s.wokeNow || s.warmNow) := by
  unfold State.wokeNow State.warmNow
  rw [parkAsked_park, parkAsked_dtime, power_of_startPart (parkAsked_startPart w)]

theorem parkAsked_quiet : s.quiet (s.parkAsked w) [SY_PARK_CTRL] := ((quiet_refl s _).put _ _ (by simp)).put _ _ (by simp)

theorem parkRequest_discarded (h : (s.wokeNow || s.warmNow) = true) (cause : Nat) : s.parkRequest cause = s.put SY_PARK_CTRL SY_PARK_CTRL_REQ 0 := by
  unfold State.parkRequest
  exact if_pos h

theorem parkRequest_lit (h : (s.wokeNow || s.warmNow) = false) (hst : s.power.state = .lit) (hstep : s.park.step = 0) (cause : Nat) :
    s.parkRequest cause = s.parkBegin cause 2 := by
  unfold State.parkRequest
  rw [if_neg (by simp [h]), hst]
  exact if_pos hstep

theorem parkRequest_noImage (h : (s.wokeNow || s.warmNow) = false) (hst : s.power.state = .waking) (hph : s.boot.phase = .noImage)
    (hstep : s.park.step = 0) (cause : Nat) : s.parkRequest cause = s.parkBegin cause 4 := by
  unfold State.parkRequest
  rw [if_neg (by simp [h]), hst]
  exact (if_pos hph).trans (if_pos hstep)

theorem parkRequest_held (h : (s.wokeNow || s.warmNow) = false) (hst : s.power.state = .waking) (hph : s.boot.phase ≠ .noImage)
    (hheld : s.park.held = none) (cause : Nat) :
    s.parkRequest cause = { s with park := { s.park with held := some cause, heldAt := s.dtime } } := by
  unfold State.parkRequest
  rw [if_neg (by simp [h]), hst]
  exact (if_neg hph).trans (if_neg (by simp [hheld]))

end

/-! ### The panels go down -/

theorem parkPanels_still : ({ s with park := { s.park with step := 4 } } : State).still s.parkPanels ((List.range 16).flatMap stopWords) :=
  still_panelsDown _

theorem parkPanels_step : s.parkPanels.park.step = 4 := by rw [parkPanels_still.park]

theorem parkPanels_memSame : s.memSame s.parkPanels := parkPanels_still.quiet.1

/-! ### What the snapshot leaves -/

theorem ledgerBlind_rdByte (a : Nat) : LedgerBlind (·.rdByte a) := by
  refine ⟨fun _ _ _ _ => rfl, fun s dev i b => ?_, fun _ _ => rfl⟩
  unfold State.wrFlash
  split <;> rfl

theorem snapBegin_same {β : Type} {π : State → β} (hπ : LedgerBlind π) (s : State) : π s.snapBegin = π s := by
  unfold State.snapBegin
  split
  · exact (hπ.progFlash ..).trans (hπ.eraseFlash ..)
  · rfl

theorem ledgerBlind_locket : LedgerBlind (·.locket) := by
  refine ⟨fun _ _ _ _ => rfl, fun s dev i b => ?_, fun _ _ => rfl⟩
  unfold State.wrFlash
  split <;> rfl

theorem snapEnd_locket (s : State) : s.snapEnd.locket = s.locket := by
  unfold State.snapEnd
  split
  · split
    · exact (put_locket ..).trans (ledgerBlind_locket.progFlash ..)
    · rfl
  · rfl

theorem restAll_sr (h : s.locket.dram.isSome = true) : s.restAll.power.sr = true := by
  obtain ⟨c, hc⟩ := Option.isSome_iff_exists.1 h
  unfold State.restAll
  rw [hc]

/-! ### PARKED (R57) -/

theorem xsCut_startPart : s.xsCut.startPart = s.startPart := by
  have hfree : ∀ (n : Nat) (dev a : Nat) (s : State), (s.freeFlash dev a n).startPart = s.startPart := by
    intro n
    induction n with
    | zero => exact fun _ _ _ => rfl
    | succ n ih =>
      intro dev a s
      exact (ih ..).trans (wrFlash_startPart (s := { s with free := s.free + 1 }) ..)
  unfold State.xsCut
  split
  · split
    · rfl
    · exact hfree ..
  · rfl

theorem depower_startPart : s.depower.power = s.power ∧ s.depower.park = s.park := by
  have hcut := xsCut_startPart (s := s)
  unfold State.depower
  extract_lets u p x g v w y r z
  have hpower : z.power = w.power := foldl_same (fun t : State => t.power) (fun t _ => setScanAt_power t _ _) (List.range 16) w
  have hpark : z.park = w.park := foldl_same (fun t : State => t.park) (fun t _ => setScanAt_park t _ _) (List.range 16) w
  have hw : w.power = u.power ∧ w.park = u.park := ⟨rfl, rfl⟩
  clear_value z
  rw [put_power, put_park, wr_power, wr_park, hpower, hpark, hw.1, hw.2, power_of_startPart hcut]
  exact ⟨rfl, congrArg (fun x => x.2.2) hcut⟩

theorem depower_memSame : s.memSame s.depower :=
  State.carries.memSame (flash := true) (carries_of_carried (depower_carried (mem := false) s))

/-- The power of PARKED (R57). -/
def Power.parked (p : Power) (now : Nat) : Power :=
  { p with state := .parked, hold := true, faultWas := true, degraded := false, pwrEn := false, enFellAt := now, panelEn := [], blPwm := [] }

/-- The switched islands have lost power. -/
def State.parkedDown (s : State) (keep : List (Nat × Nat)) : State :=
  { (s.lose keep).depower with
    power := (s.lose keep).depower.power.parked (s.lose keep).depower.dtime, park := { Park.reset with wakeAt := (s.lose keep).depower.park.wakeAt } }

theorem enterParked_eq (keep : List (Nat × Nat)) :
    s.enterParked keep = if (s.lose keep).depower.park.wake then (s.parkedDown keep).wakeUp else s.parkedDown keep := rfl

theorem lose_depower_wake (keep : List (Nat × Nat)) : (s.lose keep).depower.park.wake = s.park.wake :=
  congrArg Park.wake (depower_startPart (s := s.lose keep)).2

theorem quiet_withPower (s : State) (p : Power) (k : Park) (but : List Nat) : s.quiet { s with power := p, park := k } but :=
  quiet_of_same rfl rfl rfl rfl rfl rfl

theorem parkedDown_rdByte {keep : List (Nat × Nat)} {a : Nat} (h : keptIn keep a = true) : (s.parkedDown keep).rdByte a = s.rdByte a := by
  have hdown : (s.lose keep).depower.quiet (s.parkedDown keep) [] := quiet_withPower ..
  rw [hdown.1, depower_memSame, rdByte_lose s keep a h]

theorem keptSegments_tick (now : Nat) : (s.tick now).keptSegments = s.keptSegments := rfl

theorem execPark_enters {now : Nat} (h : s.park.step = 6) : exec (.parkSelfRefreshDone now) s = .next ((s.tick now).enterParked s.keptSegments) := by
  simp only [exec, execParkSelfRefreshDone, State.when, h, decide_true, if_true]
  rw [keptSegments_tick]

/-! ### Waking (R59, R61) -/

/-- Power as a wake raises it, and the ports' epochs. -/
def State.waked (s : State) : State :=
  allPorts.foldl (fun s p => s.put (HP_EPOCH p) HP_EPOCH_EPOCH (s.power.epochs.getD p 0 + 1))
    { s with power := { s.power with pwrEn := !s.power.pwrGood, wakeWait := s.power.pwrGood } }

theorem wakeUp_eq : s.wakeUp = s.waked.beginStart 1 1 true := rfl

theorem waked_quiet : s.quiet s.waked (allPorts.map HP_EPOCH) := by
  have hstart : s.quiet { s with power := { s.power with pwrEn := !s.power.pwrGood, wakeWait := s.power.pwrGood } } (allPorts.map HP_EPOCH) :=
    quiet_of_same rfl rfl rfl rfl rfl rfl
  unfold State.waked allPorts at *
  simp only [List.foldl_cons, List.foldl_nil]
  exact (((hstart.put _ _ (by simp)).put _ _ (by simp)).put _ _ (by simp)).put _ _ (by simp)

theorem wakeUp_begun : Begun s.waked s.wakeUp 1 true := wakeUp_eq (s := s) ▸ beginStart_begun 1 1 true

theorem wakeUp_state : s.wakeUp.power.state = .waking := by
  rw [wakeUp_begun.power]
  rfl

theorem wakeUp_phase : s.wakeUp.boot.phase = .pll := by
  rw [wakeUp_begun.boot]
  rfl

theorem wakeUp_memSame : s.memSame s.wakeUp := fun a => (wakeUp_begun.quiet.1 a).trans (waked_quiet.1 a)

end

/-- Settles O8: a request is `parkBegin` or held, the panels go down by `parkPanels`, and step 7 is `parkedDown`, left at once by `wakeUp`. -/
theorem parkingCompletes : Obligations.ParkingCompletes := by
  intro s now
  refine ⟨fun src value u w hadm hreq => ?_, fun hstep hdone => ?_, fun hstep hend => ?_, fun hstep hoff => ?_, fun hstep => ?_,
    fun hstep hwake => ?_, fun hstep hwake => ?_⟩
  · have hrun : exec (.parkRequest now src value) s = .next ((u.parkAsked w).parkRequest 1) := by
      refine (congrArg (fun x : State × RStat => Host.Outcome.next x.1) (guarded_of_admits hadm fun s w => s.parkCtrl w)).trans ?_
      rw [parkCtrl_asked hreq]
    have hmem : u.memSame ((u.parkAsked w).parkRequest 1) := by
      have hc : u.carries ⟨false, true⟩ (u.parkCtrl w) := by simp
      rw [← parkCtrl_asked hreq]
      exact hc.memSame
    have hpower := power_of_startPart (parkAsked_startPart (s := u) w)
    have hboot := boot_of_startPart (parkAsked_startPart (s := u) w)
    rw [hrun]
    refine ⟨fun hfree hlit hstep => ?_, fun hbusy => ?_, fun hfree hwaking hph hstep => ?_, fun hfree hwaking hph hheld => ?_⟩
    · have hreq' := parkRequest_lit (s := u.parkAsked w) (by rw [parkAsked_busy, hfree]) (by rw [hpower, hlit]) (by rw [parkAsked_park, hstep]) 1
      rw [hreq'] at hmem ⊢
      obtain ⟨hp, hs, hd, hpk, hrq⟩ := parkBegin_spec (s := u.parkAsked w) 1 2
      exact ⟨_, rfl, hs, by rw [hp, hpower, hlit], by rw [hd, parkAsked_dtime, parkAsked_drain], hpk, hrq, hmem⟩
    · rw [parkRequest_discarded (s := u.parkAsked w) (by rw [parkAsked_busy, hbusy])]
      exact ⟨_, rfl, by rw [put_park, parkAsked_park], by rw [put_power, hpower], get_put_same _ _ _ _ (by decide), (parkAsked_quiet w).put _ _ (by simp)⟩
    · have hreq' := parkRequest_noImage (s := u.parkAsked w) (by rw [parkAsked_busy, hfree]) (by rw [hpower, hwaking]) (by rw [hboot, hph])
        (by rw [parkAsked_park, hstep]) 1
      rw [hreq'] at hmem ⊢
      obtain ⟨hp, hs, -, hpk, -⟩ := parkBegin_spec (s := u.parkAsked w) 1 4
      exact ⟨_, rfl, hs, by rw [hp, hpower], hpk, hmem⟩
    · rw [parkRequest_held (s := u.parkAsked w) (by rw [parkAsked_busy, hfree]) (by rw [hpower, hwaking]) (by rw [hboot]; exact hph)
        (by rw [parkAsked_park, hheld])]
      exact ⟨_, rfl, rfl, hpower, (parkAsked_quiet w).trans (quiet_of_same rfl rfl rfl rfl rfl rfl)⟩
  · have hrun : exec (.parkDrainComplete now) s = .next (s.tick now).parkPanels := by simp [exec, execParkDrainComplete, State.when, hstep, hdone]
    rw [hrun]
    exact ⟨_, rfl, parkPanels_step, parkPanels_memSame (s := s.tick now)⟩
  · have hrun : ∃ u : State, exec (.drainExpiry now) s = .next u.parkPanels := by
      simp only [exec, execDrainExpiry, State.when, tick_dtime, hstep, hend, decide_true, Bool.and_true, if_true]
      split
      · exact ⟨_, rfl⟩
      · exact ⟨_, rfl⟩
    obtain ⟨u, hu⟩ := hrun
    rw [hu]
    exact ⟨_, rfl, parkPanels_step⟩
  · have hrun : exec (.parkPanelsDown now) s = .next (s.tick now).parkStore := by simp [exec, execParkPanelsDown, State.when, hstep, hoff]
    rw [hrun]
    refine ⟨_, rfl, rfl, ?_, fun a => snapBegin_same (ledgerBlind_rdByte a) (s.tick now)⟩
    exact List.map_congr_left fun p hp => snapBegin_same (ledgerBlind_get (by revert p; decide) HP_EPOCH_EPOCH) (s.tick now)
  · have hrun : exec (.parkSnapshotDone now) s = .next { (s.tick now).snapEnd.restAll with park := { (s.tick now).snapEnd.restAll.park with step := 6 } } := by
      simp [exec, execParkSnapshotDone, State.when, hstep]
    rw [hrun]
    refine ⟨_, rfl, rfl, fun hdram => ?_⟩
    exact restAll_sr (s := (s.tick now).snapEnd) (by rw [snapEnd_locket]; exact hdram)
  · have hrun : exec (.parkSelfRefreshDone now) s = .next ((s.tick now).parkedDown s.keptSegments) := by
      rw [execPark_enters hstep, enterParked_eq, lose_depower_wake, tick_park, hwake, if_neg Bool.false_ne_true]
    rw [hrun]
    exact ⟨_, rfl, rfl, rfl, (faultLow_iff _).2 (.inl rfl), rfl, rfl, fun a ha => parkedDown_rdByte (s := s.tick now) ha⟩
  · have hrun : exec (.parkSelfRefreshDone now) s = .next ((s.tick now).parkedDown s.keptSegments).wakeUp := by
      rw [execPark_enters hstep, enterParked_eq, lose_depower_wake, tick_park, hwake, if_pos rfl]
    rw [hrun]
    exact ⟨_, rfl, wakeUp_state, wakeUp_phase, fun a ha => (wakeUp_memSame a).trans (parkedDown_rdByte (s := s.tick now) ha)⟩

end Sys2Proof.Machine
end

section

namespace Sys2Proof.Machine

/-! ## Admission cases (R240) -/

section

variable {s : State} {but : List Nat}

/-- The words that an admission case shows. -/
def caseWords (t : Nat) : List Nat :=
  [AD_TL_RATE t, AD_TL_RES t, AD_TL_MODE t, AD_SVC, AD_RESV, AD_DEM, AD_ODEM, AD_LAST, AD_SHORT, AD_REF_CNT, AD_ACC_CNT]

theorem still_showTotals (a : AdmTotals) (h : ∀ a ∈ [AD_SVC, AD_RESV, AD_DEM, AD_ODEM], a ∈ but) : s.still (s.showTotals a) but :=
  ((((still_refl s but).wrN _ (h _ (by simp))).wrN _ (h _ (by simp))).wrN _ (h _ (by simp))).wrN _ (h _ (by simp))

theorem still_setAdmAt (t : Nat) (v : AdmTl) (but : List Nat) : s.still (s.setAdmAt t v) but :=
  (still_refl s but).same rfl rfl rfl rfl rfl rfl rfl

theorem still_storeCase (r : AdmResult) (order : Option Nat) : s.still (s.storeCase r order) (caseWords r.tl) := by
  unfold State.storeCase
  extract_lets a u v
  have hu : s.still u (caseWords r.tl) := by
    unfold u
    split
    · exact still_setAdmAt ..
    · exact still_refl ..
  have hv : u.still v (caseWords r.tl) :=
    (((still_refl u _).wrN _ (by simp [caseWords])).wrN _ (by simp [caseWords])).trans (still_showTotals _ (by simp [caseWords]))
  exact (hu.trans hv).trans (still_showPend (by simp [caseWords]))

theorem still_caseDone (t code short : Nat) : s.still (s.caseDone t code short) (caseWords t) := by
  unfold State.caseDone
  extract_lets u
  have hu : s.still u (caseWords t) :=
    ((still_put s _ _ (by simp [caseWords])).put _ _ (by simp [caseWords])).put _ _ (by simp [caseWords])
  exact still_ite ((hu.wrN _ (by simp [caseWords])).bump _ _ (by simp [caseWords])) (hu.bump _ _ (by simp [caseWords]))

theorem caseWords_ne {a t u : Nat} (h : a ∈ caseWords t) : a ≠ TL_RSEAT u := by
  intro hc
  simp only [caseWords, AD_TL_RATE, AD_TL_RES, AD_TL_MODE, AD_SVC, AD_RESV, AD_DEM, AD_ODEM, AD_LAST, AD_SHORT, AD_REF_CNT, AD_ACC_CNT,
    List.mem_cons, List.not_mem_nil, or_false, hc, TL_RSEAT] at h
  omega

end

end Sys2Proof.Machine
end

section

namespace Sys2Proof.Machine

/-! ## The live re-seat (R104 to R107) and the loss of genlock (R108) -/

section

variable {s u : State} {t : Nat}

theorem lostCounter_rseat (t : Nat) : lostCounter (TL_RSEAT t) = false :=
  lostCounter_eq_false fun p _ => by simp only [TL_RSEAT, HP_EV_STAT]; omega

theorem reseatGo_idle {w : Word} (hgo : getField w TL_RSEAT_GO = 1) (hon : s.tlOn t = true) (hb : s.on (TL_RSEAT t) TL_RSEAT_BUSY = false) :
    s.reseatGo t w = (s.put (TL_RSEAT t) TL_RSEAT_BUSY 1).scanMod t fun x =>
      { x with reseat := some ⟨s.dtime, (seatAddrs t).map fun a => (a, s.seatWord t a), s.pendingSlots t, false, false⟩ } := by
  unfold State.reseatGo
  rw [if_pos ⟨hgo, hon⟩, hb]
  rfl

theorem reseatGo_busy {w : Word} (hgo : getField w TL_RSEAT_GO = 1) (hon : s.tlOn t = true) (hb : s.on (TL_RSEAT t) TL_RSEAT_BUSY = true) :
    s.reseatGo t w = (s.put (TL_RSEAT t) TL_RSEAT_STATUS 7).postTl t 0x42 0 7 0 := by
  unfold State.reseatGo
  rw [if_pos ⟨hgo, hon⟩, hb]
  rfl

theorem scanMod_get (f : Scan → Scan) (a : Nat) (g : Fld) : (s.scanMod t f).get a g = s.get a g := rfl

theorem scanAt_scanMod_same (f : Scan → Scan) : (s.scanMod t f).scanAt t = f (s.scanAt t) := by
  unfold State.scanMod
  rw [scanAt_setScanAt, if_pos rfl]

theorem scanAt_congr (h : u.scan = s.scan) : u.scanAt t = s.scanAt t := by
  unfold State.scanAt
  rw [h]

theorem scanAt_put (a : Nat) (f : Fld) (v : Nat) : (s.put a f v).scanAt t = s.scanAt t := scanAt_congr (put_scan ..)

theorem scanAt_postTl (n type unit st detail : Nat) : (s.postTl n type unit st detail).scanAt t = s.scanAt t :=
  scanAt_congr (onlyEvents_scan (postTl_only ..))

/-- A fresh request is put down with its words and slots. -/
theorem reseatGo_idle_spec {w : Word} (hgo : getField w TL_RSEAT_GO = 1) (hon : s.tlOn t = true) (hb : s.on (TL_RSEAT t) TL_RSEAT_BUSY = false) :
    (s.reseatGo t w).get (TL_RSEAT t) TL_RSEAT_BUSY = 1 ∧
      (∃ r, ((s.reseatGo t w).scanAt t).reseat = some r ∧ r.passed = false ∧ r.words = (seatAddrs t).map (fun a => (a, s.seatWord t a)) ∧
        r.slots = s.pendingSlots t) ∧ s.quiet (s.reseatGo t w) [TL_RSEAT t] := by
  rw [reseatGo_idle hgo hon hb]
  refine ⟨?_, ?_, ((still_put s _ _ (by simp)).trans (still_scanMod ..)).quiet⟩
  · rw [scanMod_get, get_put_same _ _ _ _ (by decide)]
    rfl
  · rw [scanAt_scanMod_same]
    exact ⟨_, rfl, rfl, rfl, rfl⟩

/-- A request on top of another is only reported. -/
theorem reseatGo_busy_spec {w : Word} (hgo : getField w TL_RSEAT_GO = 1) (hon : s.tlOn t = true) (hb : s.on (TL_RSEAT t) TL_RSEAT_BUSY = true) :
    (s.reseatGo t w).get (TL_RSEAT t) TL_RSEAT_STATUS = 7 ∧
      (s.reseatGo t w).get (TL_RSEAT t) TL_RSEAT_BUSY = s.get (TL_RSEAT t) TL_RSEAT_BUSY ∧ (s.reseatGo t w).scanAt t = s.scanAt t ∧
      s.quiet (s.reseatGo t w) [TL_RSEAT t] := by
  rw [reseatGo_busy hgo hon hb]
  refine ⟨?_, ?_, ?_, ((still_put s _ _ (by simp)).trans (still_postTl ..)).quiet⟩
  · rw [onlyEvents_get (postTl_only ..) _ (lostCounter_rseat t), get_put_same _ _ _ _ (by decide)]
    rfl
  · rw [onlyEvents_get (postTl_only ..) _ (lostCounter_rseat t), get_put_apart _ _ _ _ _ (by decide) (by decide)]
  · rw [scanAt_postTl, scanAt_put]

/-- A re-seat that passes its checks waits for its latch. -/
theorem reseatDone_pass {r : Reseat} {x : AdmResult × AdmResult} (h : s.reseatCheck t r = .inl x) :
    (s.reseatDone t r).get (TL_RSEAT t) TL_RSEAT_BUSY = s.get (TL_RSEAT t) TL_RSEAT_BUSY ∧
      ∃ q, ((s.reseatDone t r).scanAt t).reseat = some q ∧ q.passed = true ∧ q.words = r.words ∧ q.slots = r.slots := by
  unfold State.reseatDone
  rw [h]
  have hcase : ∀ (s u : State) (n : Nat), s.still u (caseWords n) → u.get (TL_RSEAT t) TL_RSEAT_BUSY = s.get (TL_RSEAT t) TL_RSEAT_BUSY :=
    fun s u n hu => hu.get (lostCounter_rseat t) (fun hm => caseWords_ne hm rfl) _
  refine ⟨?_, ?_⟩
  · rw [scanMod_get, hcase _ _ _ (still_caseDone ..), hcase _ _ _ (still_storeCase ..), hcase _ _ _ (still_storeCase ..)]
  · rw [scanAt_scanMod_same]
    exact ⟨_, rfl, rfl, rfl, rfl⟩

/-- A refused re-seat is dropped with its STATUS. -/
theorem reseatDone_refused {r : Reseat} {code n : Nat} (h : s.reseatCheck t r = .inr (code, n)) :
    (s.reseatDone t r).get (TL_RSEAT t) TL_RSEAT_BUSY = 0 ∧ (s.reseatDone t r).get (TL_RSEAT t) TL_RSEAT_STATUS = code % 16 ∧
      ((s.reseatDone t r).scanAt t).reseat = none := by
  unfold State.reseatDone
  rw [h]
  refine ⟨?_, ?_, ?_⟩
  · dsimp only
    rw [onlyEvents_get (postTl_only ..) _ (lostCounter_rseat t), get_put_same _ _ _ _ (by decide)]
    rfl
  · dsimp only
    rw [onlyEvents_get (postTl_only ..) _ (lostCounter_rseat t), get_put_apart _ _ _ _ _ (by decide) (by decide),
      get_put_same _ _ _ _ (by decide)]
    rfl
  · dsimp only
    rw [scanAt_postTl, scanAt_put, scanAt_put, scanAt_scanMod_same]

theorem lostCounter_glWords {a : Nat} (h : a ∈ [TL_GENLOCK t, TL_STAT t]) : lostCounter a = false := by
  refine lostCounter_eq_false fun p _ hc => ?_
  simp only [List.mem_cons, List.not_mem_nil, or_false, hc, TL_GENLOCK, TL_STAT, HP_EV_STAT] at h
  omega

theorem glLost_spec : (s.glLost t).get (TL_GENLOCK t) TL_GENLOCK_LOCKED = 0 ∧ (s.glLost t).get (TL_STAT t) TL_STAT_GL_LOST = 1 ∧
    ((s.glLost t).scanAt t).goodGl = 0 ∧ s.still (s.glLost t) [TL_GENLOCK t, TL_STAT t] := by
  unfold State.glLost State.postGl
  refine ⟨?_, ?_, ?_, (((still_put s _ _ (by simp)).put _ _ (by simp)).trans (still_scanMod ..)).trans (still_postTl ..)⟩
  · rw [onlyEvents_get (postTl_only ..) _ (lostCounter_glWords (t := t) (by simp)), scanMod_get,
      get_put_ne _ _ _ _ (by simp [TL_GENLOCK, TL_STAT]), get_put_same _ _ _ _ (by decide)]
    rfl
  · rw [onlyEvents_get (postTl_only ..) _ (lostCounter_glWords (t := t) (by simp)), scanMod_get, get_put_same _ _ _ _ (by decide)]
    rfl
  · rw [scanAt_postTl, scanAt_scanMod_same]

end

/-- Settles O12: `reseatGo_idle_spec` and `reseatGo_busy_spec` say what GO does, `reseatDone_pass` and `reseatDone_refused` how the checks end. -/
theorem reseatAndGenlockComplete : Obligations.ReseatAndGenlockComplete := by
  unfold Obligations.ReseatAndGenlockComplete
  intro s now tl
  refine ⟨fun src value u w hadm hgo hon => ?_, fun r hr hp => ?_, fun hsil => ?_⟩
  · have hrun : exec (.reseatGo now src tl value) s = .next (u.reseatGo tl.val w) :=
      congrArg (fun x : State × RStat => Host.Outcome.next x.1) (guarded_of_admits hadm fun s w => s.reseatGo tl.val w)
    rw [hrun]
    exact ⟨fun hb => ⟨_, rfl, reseatGo_idle_spec hgo hon hb⟩, fun hb => ⟨_, rfl, reseatGo_busy_spec hgo hon hb⟩⟩
  · have hsc : (s.tick now).scanAt tl.val = s.scanAt tl.val := rfl
    have hrun : exec (.reseatCheckDone now tl) s = .next ((s.tick now).reseatDone tl.val r) := by
      simp [exec, execReseatCheckDone, hsc, hr, hp]
    rw [hrun]
    exact ⟨fun x h => ⟨_, rfl, reseatDone_pass h⟩, fun code n h => ⟨_, rfl, reseatDone_refused h⟩⟩
  · have hrun : exec (.genlockTimeout now tl) s = .next ((s.tick now).glLost tl.val) := by
      simp [exec, execGenlockTimeout, State.when, hsil]
    obtain ⟨hlock, hlost, hgood, hstill⟩ := glLost_spec (s := s.tick now) (t := tl.val)
    exact ⟨_, hrun, hlock, hlost, hgood, ((quiet_tick s now).mono (by simp)).trans hstill.quiet⟩

end Sys2Proof.Machine
end

section

namespace Sys2Proof.Machine

/-! ## Fault causes (R46, R340) -/

/-- A part of the state that neither registers nor events nor the fault line belong to. -/
structure FaultBlind {α : Type} (π : State → α) : Prop where
  wr : ∀ (s : State) (a : Nat) (w : Word), π (s.wr a w) = π s
  events : ∀ {s t : State}, s.onlyEvents t → π t = π s
  power : ∀ (s : State) (p : Power), π { s with power := p } = π s
  degr : ∀ (s : State) (d : Degrade), π { s with degr := d } = π s

theorem ite_same {α : Type} {π : State → α} {x : α} {t u : State} {c : Prop} [Decidable c] (ht : π t = x) (hu : π u = x) :
    π (if c then t else u) = x := by
  split
  · exact ht
  · exact hu

section

variable {α : Type} {π : State → α} (hπ : FaultBlind π) (s : State)

include hπ

theorem FaultBlind.put (a : Nat) (f : Fld) (v : Nat) : π (s.put a f v) = π s := hπ.wr ..

theorem FaultBlind.bump (a : Nat) (f : Fld) (n : Nat) : π (s.bump a f n) = π s := hπ.wr ..

theorem FaultBlind.wrN (a v : Nat) : π (s.wrN a v) = π s := hπ.wr ..

theorem FaultBlind.syncFault : π s.syncFault = π s := by
  by_cases h : s.faultLow = s.power.faultWas
  · rw [syncFault_same s h]
  · obtain ⟨payload, he⟩ := syncFault_change s h
    rw [he, hπ.events (post_only ..)]
    exact ite_same (π := π) (((hπ.bump ..).trans (hπ.put ..)).trans (hπ.power ..)) ((hπ.put ..).trans (hπ.power ..))

theorem FaultBlind.raiseFault (f : Fld) (tl : Option Nat) : π (s.raiseFault f tl) = π s := by
  unfold State.raiseFault
  extract_lets u k src v w
  have hw : π w = π v := by
    unfold w
    split
    · exact hπ.put ..
    · rfl
  rw [hπ.syncFault, hw]
  exact (hπ.degr ..).trans (hπ.put ..)

theorem FaultBlind.syncDegraded : π s.syncDegraded = π s := by
  unfold State.syncDegraded
  extract_lets d src u
  have hu : π u = π s := hπ.power ..
  exact ite_same (π := π) rfl (ite_same (π := π) ((hπ.events (postPstate_only ..)).trans hu) hu)

theorem FaultBlind.degrWatch (t : Nat) (on : Bool) : π (s.degrWatch t on) = π s := (hπ.syncDegraded _).trans (hπ.degr ..)

theorem FaultBlind.postBz (t type unit kind detail value key : Nat) : π (s.postBz t type unit kind detail value key) = π s :=
  hπ.events (post_only ..)

end

theorem faultBlind_watch : FaultBlind State.watch := ⟨fun _ _ _ => rfl, fun h => by rw [h.1], fun _ _ => rfl, fun _ _ => rfl⟩

theorem faultBlind_sink : FaultBlind State.sink := ⟨fun _ _ _ => rfl, fun h => by rw [h.1], fun _ _ => rfl, fun _ _ => rfl⟩

theorem faultBlind_wb : FaultBlind State.wb := ⟨fun _ _ _ => rfl, fun h => by rw [h.1], fun _ _ => rfl, fun _ _ => rfl⟩

section

variable (s : State)

/-- The words of the fault line. -/
def faultWords : List Nat := [WT_FAULT, WT_FTL, WT_FCNT]

theorem raiseFault_quiet (f : Fld) (tl : Option Nat) : s.quiet (s.raiseFault f tl) faultWords := by
  unfold State.raiseFault
  extract_lets u k src v w
  have hv : s.quiet v faultWords := ((quiet_refl s _).put _ _ (by simp [faultWords])).trans (quiet_of_same rfl rfl rfl rfl rfl rfl)
  have hw : v.quiet w faultWords := by
    unfold w
    split
    · exact (quiet_refl v _).put _ _ (by simp [faultWords])
    · exact quiet_refl ..
  exact (hv.trans hw).next (syncFault_quiet w) (by simp [faultWords])

theorem degrWatch_quiet (t : Nat) (on : Bool) (but : List Nat) : s.quiet (s.degrWatch t on) but := by
  unfold State.degrWatch
  exact (quiet_of_same rfl rfl rfl rfl rfl rfl : s.quiet _ but).next (syncDegraded_quiet _) (by simp)

theorem postBz_quiet (t type unit kind detail value key : Nat) (but : List Nat) : s.quiet (s.postBz t type unit kind detail value key) but :=
  (quiet_refl s but).events (post_only ..)

theorem syncFault_get_cause {f : Fld} (hf : 1 ≤ f.lo) : s.syncFault.get WT_FAULT f = s.get WT_FAULT f := by
  by_cases h : s.faultLow = s.power.faultWas
  · rw [syncFault_same s h]
  · obtain ⟨payload, he⟩ := syncFault_change s h
    rw [he, onlyEvents_get (post_only ..) _ lostCounter_wtFault, faultShown_get_apart s (.inr hf)]

/-- A raised cause stands. -/
theorem raiseFault_on {f : Fld} (hf : 1 ≤ f.lo) (hw : f.w = 1) (hlo : f.lo < 32) (tl : Option Nat) : (s.raiseFault f tl).on WT_FAULT f = true := by
  have hget : (s.raiseFault f tl).get WT_FAULT f = 1 := by
    unfold State.raiseFault
    extract_lets u k src v w
    have hv : v.get WT_FAULT f = 1 := by
      have hput : (s.put WT_FAULT f 1).get WT_FAULT f = 1 := by rw [get_put_same _ _ _ _ (by omega), hw]; rfl
      exact hput
    have hw : w.get WT_FAULT f = v.get WT_FAULT f := by
      unfold w
      split
      · exact get_put_ne _ _ _ _ (by decide)
      · rfl
    rw [syncFault_get_cause _ hf, hw, hv]
  unfold State.on
  rw [hget]
  rfl

end

end Sys2Proof.Machine
end

section

namespace Sys2Proof.Machine

/-! ## Watch regions (R333 to R336) -/

section

variable (s : State) (t r : Nat)

/-- The words that a region's outcome writes. -/
def outcomeWords (t r : Nat) : List Nat := [WT_STAT t r, WT_MM_CNT t r] ++ faultWords

theorem quiet_setWatchAt (i : Nat) (v : WatchState) (but : List Nat) : s.quiet (s.setWatchAt i v) but :=
  quiet_of_same rfl rfl rfl rfl rfl rfl

variable {s t r}

theorem quiet_ite {u v : State} {but : List Nat} {c : Prop} [Decidable c] (hu : s.quiet u but) (hv : s.quiet v but) :
    s.quiet (if c then u else v) but := by
  split
  · exact hu
  · exact hv

variable (s t r)

theorem watchOutcome_quiet (own : Nat) : s.quiet (s.watchOutcome t r own) (outcomeWords t r) := by
  have hfault : ∀ a ∈ faultWords, a ∈ outcomeWords t r := fun a ha => List.mem_append_right _ ha
  unfold State.watchOutcome
  extract_lets safe down kind w crc key u good a b c x y
  have hu : s.quiet u (outcomeWords t r) := (quiet_refl s _).put _ _ (by simp [outcomeWords])
  have hgood : u.quiet good (outcomeWords t r) := quiet_ite (postBz_quiet ..) (quiet_refl ..)
  have ha : u.quiet a (outcomeWords t r) :=
    (((quiet_refl u _).put _ _ (by simp [outcomeWords])).put _ _ (by simp [outcomeWords])).bump _ _ (by simp [outcomeWords])
  have hb : a.quiet b (outcomeWords t r) := quiet_ite (postBz_quiet ..) (quiet_refl ..)
  have hc : s.quiet c (outcomeWords t r) := ((hu.trans ha).trans hb).trans (quiet_setWatchAt ..)
  have hx : c.quiet x (outcomeWords t r) := quiet_ite (quiet_refl ..) ((raiseFault_quiet ..).mono hfault)
  have hy : x.quiet y (outcomeWords t r) := quiet_ite ((raiseFault_quiet ..).mono hfault) (quiet_refl ..)
  exact quiet_ite ((hu.trans hgood).trans (quiet_setWatchAt ..)) (quiet_ite (((hc.trans hx).trans hy).trans (degrWatch_quiet ..)) hc)

variable {s t r} in
theorem watchAt_congr {u : State} {i : Nat} (h : u.watch = s.watch) : u.watchAt i = s.watchAt i := by
  unfold State.watchAt
  rw [h]

/-- A region's outcome does not undo that it is compared. -/
theorem watchOutcome_done (own : Nat) : ((s.watchOutcome t r own).watchAt (wtKey t r)).done = (s.watchAt (wtKey t r)).done := by
  have hb := faultBlind_watch
  unfold State.watchOutcome
  extract_lets safe down kind w crc key u good a b c x y
  have hset : ∀ (s : State) (v : WatchState), (s.setWatchAt (wtKey t r) v).watchAt (wtKey t r) = v := fun s v => by
    rw [watchAt_setWatchAt, if_pos rfl]
  have hc : (c.watchAt (wtKey t r)).done = w.done := by rw [show c = b.setWatchAt (wtKey t r) _ from rfl, hset]
  have hx : x.watch = c.watch := ite_same (π := State.watch) rfl (hb.raiseFault ..)
  have hy : y.watch = x.watch := ite_same (π := State.watch) (hb.raiseFault ..) rfl
  split_ifs
  · rw [hset]
  · rw [watchAt_congr ((hb.degrWatch ..).trans (hy.trans hx)), hc]
  · exact hc

variable {s} in
theorem State.quiet.rdN {u : State} {but : List Nat} (h : s.quiet u but) {a : Nat} (ha : lostCounter a = false) (hb : a ∉ but) :
    u.rdN a = s.rdN a := by
  unfold State.rdN
  rw [h.2.2 a ha hb]

/-- A comparison keeps the frame's CRC and key. -/
theorem watchCompare_spec : ((s.watchCompare t r).watchAt (wtKey t r)).done = true ∧
    (s.watchCompare t r).rdN (WT_LAST t r) = ((s.watchAt (wtKey t r)).crc ^^^ 0xFFFFFFFF) % 2 ^ 32 ∧
    (s.watchCompare t r).rdN (WT_LKEY t r) = s.watchKey t r % 2 ^ 32 ∧
    s.quiet (s.watchCompare t r) ([WT_LAST t r, WT_LKEY t r] ++ outcomeWords t r) := by
  have hlost : ∀ a ∈ [WT_LAST t r, WT_LKEY t r], lostCounter a = false ∧ a ∉ outcomeWords t r := by
    simp only [List.forall_mem_cons, List.not_mem_nil, false_imp_iff, implies_true, and_true]
    refine ⟨⟨lostCounter_eq_false fun p _ => ?_, ?_⟩, lostCounter_eq_false fun p _ => ?_, ?_⟩ <;>
      simp [WT_LAST, WT_LKEY, outcomeWords, faultWords, WT_STAT, WT_MM_CNT, WT_FAULT, WT_FTL, WT_FCNT, HP_EV_STAT] <;> omega
  obtain ⟨hlast, hlkey⟩ := List.forall_mem_cons.1 hlost
  obtain ⟨hlkey, -⟩ := List.forall_mem_cons.1 hlkey
  unfold State.watchCompare
  extract_lets w crc key same u
  generalize u.watchCheck t r crc key same = own
  have hq := watchOutcome_quiet ((u.wrN (WT_LAST t r) crc).wrN (WT_LKEY t r) key) t r own
  refine ⟨?_, ?_, ?_, ?_⟩
  · rw [watchOutcome_done, watchAt_congr ((faultBlind_watch.wrN _ (WT_LKEY t r) key).trans (faultBlind_watch.wrN u (WT_LAST t r) crc))]
    unfold u
    rw [watchAt_setWatchAt, if_pos rfl]
  · rw [hq.rdN hlast.1 hlast.2, State.rdN, rd_wrN_ne _ _ (by simp [WT_LAST, WT_LKEY])]
    exact rdN_wrN_same ..
  · rw [hq.rdN hlkey.1 hlkey.2, rdN_wrN_same]
  · exact (((quiet_setWatchAt ..).wrN _ (by simp)).wrN _ (by simp)).next hq (fun a ha => List.mem_append_right _ ha)

theorem watchKey_mod : s.watchKey t r % 2 ^ 32 = s.watchKey t r := Nat.mod_eq_of_lt (Nat.mod_lt _ (by decide))

end

end Sys2Proof.Machine
end

section

namespace Sys2Proof.Machine

/-! ## Writeback frames (R123) and the sink's CRCs (R337) -/

section

variable {s : State} {n t : Nat}

theorem quiet_setWbAt (i : Nat) (v : WbPort) (but : List Nat) : s.quiet (s.setWbAt i v) but := quiet_of_same rfl rfl rfl rfl rfl rfl

theorem quiet_setSinkAt (i : Nat) (v : SinkState) (but : List Nat) : s.quiet (s.setSinkAt i v) but := (still_setSinkAt i v but).quiet

theorem wbAt_congr {u : State} (h : u.wb = s.wb) : u.wbAt n = s.wbAt n := by
  unfold State.wbAt
  rw [h]

/-- A cut frame waits behind those that ended. -/
theorem wbCut_wbAt : ((s.wbCut n).wbAt n).cur = none ∧
    ((s.wbCut n).wbAt n).await.length = (s.wbAt n).await.length + (s.wbAt n).cur.toList.length := by
  unfold State.wbCut
  dsimp only
  split <;> rename_i h <;> simp [h]

/-- WB_DONE is shown and reported. -/
def State.wbShown (s : State) (n : Nat) (f : WbFrame) : State :=
  (s.put (WB_STAT n) WB_STAT_LAST f.buf).postTl f.tl 0x43 n f.buf (if f.short then 2 else 0)

theorem wbDone_eq (f : WbFrame) :
    s.wbDone n f = if f.resized then ((s.wbShown n f).put (WB_CTRL n) WB_CTRL_EN 0).wbCut n else s.wbShown n f := rfl

theorem lostCounter_wb {a : Nat} (h : a ∈ [WB_STAT n, WB_CTRL n]) : lostCounter a = false := by
  refine lostCounter_eq_false fun p _ hc => ?_
  simp only [List.mem_cons, List.not_mem_nil, or_false, hc, WB_STAT, WB_CTRL, HP_EV_STAT] at h
  omega

theorem wbShown_quiet (f : WbFrame) : s.quiet (s.wbShown n f) [WB_STAT n] := ((still_put s _ _ (by simp)).trans (still_postTl ..)).quiet

theorem wbShown_last (f : WbFrame) : (s.wbShown n f).get (WB_STAT n) WB_STAT_LAST = f.buf % 4 := by
  unfold State.wbShown
  rw [onlyEvents_get (postTl_only ..) _ (lostCounter_wb (n := n) (by simp)), get_put_same _ _ _ _ (by decide)]
  rfl

theorem wbShown_wb (f : WbFrame) : (s.wbShown n f).wb = s.wb := (faultBlind_wb.events (postTl_only ..)).trans (faultBlind_wb.put ..)

theorem wbCut_quiet (but : List Nat) : s.quiet (s.wbCut n) but := (still_wbCut n).quiet

/-- A complete frame is only shown. -/
theorem wbDone_whole {f : WbFrame} (h : f.resized = false) : (s.wbDone n f).get (WB_STAT n) WB_STAT_LAST = f.buf % 4 ∧
    (s.wbDone n f).wb = s.wb ∧ s.quiet (s.wbDone n f) [WB_STAT n] := by
  rw [wbDone_eq, h]
  exact ⟨wbShown_last f, wbShown_wb f, wbShown_quiet f⟩

/-- A frame that a re-seat cut short stops its port. -/
theorem wbDone_resized {f : WbFrame} (h : f.resized = true) : (s.wbDone n f).get (WB_STAT n) WB_STAT_LAST = f.buf % 4 ∧
    (s.wbDone n f).on (WB_CTRL n) WB_CTRL_EN = false ∧ ((s.wbDone n f).wbAt n).cur = none ∧
    ((s.wbDone n f).wbAt n).await.length = (s.wbAt n).await.length + (s.wbAt n).cur.toList.length ∧
    s.quiet (s.wbDone n f) [WB_STAT n, WB_CTRL n] := by
  have hwb : ((s.wbShown n f).put (WB_CTRL n) WB_CTRL_EN 0).wb = s.wb := (faultBlind_wb.put ..).trans (wbShown_wb f)
  have hget : ∀ (u : State) {a : Nat} (ha : a ∈ [WB_STAT n, WB_CTRL n]) (g : Fld), (u.wbCut n).get a g = u.get a g := fun u a ha g =>
    (wbCut_quiet (s := u) (n := n) []).get (lostCounter_wb ha) (by simp) g
  rw [wbDone_eq, if_pos h]
  obtain ⟨hcur, hawait⟩ := wbCut_wbAt (s := (s.wbShown n f).put (WB_CTRL n) WB_CTRL_EN 0) (n := n)
  rw [wbAt_congr hwb] at hawait
  refine ⟨?_, ?_, hcur, hawait, ?_⟩
  · rw [hget _ (by simp), get_put_ne _ _ _ _ (by simp [WB_STAT, WB_CTRL]), wbShown_last]
  · unfold State.on
    rw [hget _ (by simp), get_put_same _ _ _ _ (by decide)]
    rfl
  · exact ((wbShown_quiet f).mono (by simp)).trans (((quiet_refl _ _).put _ _ (by simp)).trans (wbCut_quiet _))

theorem sinkAt_congr {u : State} (h : u.sink = s.sink) : u.sinkAt t = s.sinkAt t := by
  unfold State.sinkAt
  rw [h]

theorem lostCounter_sink (ht : t < 16) {a : Nat} (h : a ∈ [WT_SINK_CTRL t, WT_SINK_STAT t]) : lostCounter a = false := by
  refine lostCounter_eq_false fun p _ hc => ?_
  simp only [List.mem_cons, List.not_mem_nil, or_false, hc, WT_SINK_CTRL, WT_SINK_STAT, HP_EV_STAT] at h
  omega

/-- Equal CRCs end the differing reads. -/
theorem sinkRead_equal {x : Nat × List Nat} {count : Nat} (h : (s.sinkAt t).records.find? (fun r => r.1 == count % 16) = some x) :
    ((s.sinkRead t (some x.2) count).sinkAt t).differ = 0 ∧ ((s.sinkRead t (some x.2) count).sinkAt t).frames = 0 ∧
      s.quiet (s.sinkRead t (some x.2) count) [] := by
  unfold State.sinkRead
  dsimp only
  rw [h]
  dsimp only
  rw [if_pos rfl, sinkAt_setSinkAt, if_pos rfl]
  exact ⟨rfl, rfl, (quiet_ite (postBz_quiet ..) (quiet_refl ..)).trans (quiet_setSinkAt ..)⟩

/-- A further differing read is a SINK mismatch. -/
theorem sinkRead_differ {x : Nat × List Nat} {cs : List Nat} {count : Nat} (ht : t < 16)
    (h : (s.sinkAt t).records.find? (fun r => r.1 == count % 16) = some x) (hne : cs ≠ x.2) (hd : 1 ≤ (s.sinkAt t).differ) :
    ((s.sinkRead t (some cs) count).sinkAt t).differ = (s.sinkAt t).differ + 1 ∧
      (s.sinkRead t (some cs) count).get (WT_SINK_STAT t) WT_SINK_STAT_MISMATCH = 1 ∧
      (s.get (WT_SINK_CTRL t) WT_SINK_CTRL_MODE = 2 → (s.sinkRead t (some cs) count).on WT_FAULT WT_FAULT_SINK = true) := by
  unfold State.sinkRead
  extract_lets src k a u
  have hk : k.records.find? (fun r => r.1 == count % 16) = some x := h
  have hkd : k.differ = (s.sinkAt t).differ := rfl
  have hdiff : k.differ ≠ 0 := by omega
  rw [hk]
  dsimp only
  rw [if_neg hne, if_neg hdiff, ← hkd]
  have hus : (u.sinkAt t).differ = k.differ + 1 := by
    rw [show u = a.put _ _ _ from rfl, sinkAt_congr (faultBlind_sink.put ..), sinkAt_setSinkAt, if_pos rfl]
  have hum : u.get (WT_SINK_STAT t) WT_SINK_STAT_MISMATCH = 1 := by
    rw [show u = a.put _ _ _ from rfl, get_put_same _ _ _ _ (by decide)]
    rfl
  have huq : s.quiet u [WT_SINK_STAT t] := (((quiet_refl s _).bump _ _ (by simp)).trans (quiet_setSinkAt ..)).put _ _ (by simp)
  clear_value u a k
  generalize hv : (if k.differ = 1 then u.postBz t 0x90 0xFF 6 0 (cs.getD 0 0 + cs.getD 1 0 * 65536) (cs.getD 2 0) else u) = v
  have hvs : v.sink = u.sink := by
    rw [← hv]
    exact ite_same (π := State.sink) (faultBlind_sink.postBz ..) rfl
  have hvq : u.quiet v [] := by
    rw [← hv]
    exact quiet_ite (postBz_quiet ..) (quiet_refl ..)
  have hmode : v.get (WT_SINK_CTRL t) WT_SINK_CTRL_MODE = s.get (WT_SINK_CTRL t) WT_SINK_CTRL_MODE :=
    (huq.next hvq (by simp)).get (lostCounter_sink ht (by simp)) (by simp [WT_SINK_CTRL, WT_SINK_STAT]) _
  have hwq : v.quiet (if v.get (WT_SINK_CTRL t) WT_SINK_CTRL_MODE = 2 then v.raiseFault WT_FAULT_SINK (some t) else v) faultWords :=
    quiet_ite (raiseFault_quiet ..) (quiet_refl ..)
  refine ⟨?_, ?_, fun h2 => ?_⟩
  · rw [sinkAt_congr ((ite_same (π := State.sink) (faultBlind_sink.raiseFault ..) rfl).trans hvs), hus]
  · have hnot : WT_SINK_STAT t ∉ faultWords := by
      simp [faultWords, WT_SINK_STAT, WT_FAULT, WT_FTL, WT_FCNT]
      omega
    have hlost : lostCounter (WT_SINK_STAT t) = false := lostCounter_sink ht (by simp)
    rw [hwq.get hlost hnot, hvq.get hlost (by simp), hum]
  · rw [if_pos (hmode.trans h2)]
    exact raiseFault_on v (by decide) rfl (by decide) _

end

/-- Settles O13: a frame acknowledged is shown by `wbDone`, a region compared by `watchCompare`, the sink's CRCs by `sinkRead`. -/
theorem captureAndWatchComplete : Obligations.CaptureAndWatchComplete := by
  unfold Obligations.CaptureAndWatchComplete
  intro s now
  refine ⟨fun n f rest hw => ?_, fun tl r hdue => ?_, fun tl cs count x hdue hx hcs => ?_, fun tl cs count x hdue hx hcs hd => ?_⟩
  · have hrun : exec (.wbFrameAcked now n) s =
        .next (((s.tick now).setWbAt n.val { s.wbAt n.val with await := rest }).wbDone n.val f) := by
      have hwb : (s.tick now).wbAt n.val = s.wbAt n.val := rfl
      simp [exec, execWbFrameAcked, hwb, hw]
    have hset : s.quiet ((s.tick now).setWbAt n.val { s.wbAt n.val with await := rest }) [] := (quiet_tick s now).trans (quiet_setWbAt ..)
    have hat : ((s.tick now).setWbAt n.val { s.wbAt n.val with await := rest }).wbAt n.val = { s.wbAt n.val with await := rest } := by
      rw [wbAt_setWbAt, if_pos rfl]
    rw [hrun]
    refine ⟨_, rfl, ?_⟩
    generalize (s.tick now).setWbAt n.val { s.wbAt n.val with await := rest } = u at hset hat
    by_cases hres : f.resized = true
    · obtain ⟨hlast, hen, hcur, hawait, hq⟩ := wbDone_resized (s := u) (n := n.val) hres
      rw [hat] at hawait
      exact ⟨hlast, fun hf => absurd hf (by simp [hres]), fun _ => ⟨hen, hcur, by rw [hawait]; exact Nat.add_comm .., (hset.mono (by simp)).trans hq⟩⟩
    · have hres := Bool.eq_false_iff.2 hres
      obtain ⟨hlast, hwb, hq⟩ := wbDone_whole (s := u) (n := n.val) hres
      refine ⟨hlast, fun _ => ⟨?_, (hset.mono (by simp)).trans hq⟩, fun hf => absurd hf (by simp [hres])⟩
      rw [wbAt_congr hwb, hat]
  · have hrun : exec (.watchRegionCompare now tl r) s = .next ((s.tick now).watchCompare tl.val r.val) := by
      simp [exec, execWatchRegionCompare, State.when, hdue]
    obtain ⟨hdone, hlast, hkey, hq⟩ := watchCompare_spec (s.tick now) tl.val r.val
    have hall := ((quiet_tick s now).mono (by simp)).trans hq
    rw [watchKey_mod] at hkey
    exact ⟨_, hrun, hdone, hlast, hkey, hall.1, hall.2.1⟩
  · have hrun : exec (.sinkCrcRead now tl (some cs) count) s = .next ((s.tick now).sinkRead tl.val (some cs) count) := by
      simp [exec, execSinkCrcRead, State.when, hdue]
    subst hcs
    obtain ⟨hdiff, hfr, hq⟩ := sinkRead_equal (s := s.tick now) hx
    exact ⟨_, hrun, hdiff, hfr, (quiet_tick s now).trans hq⟩
  · have hrun : exec (.sinkCrcRead now tl (some cs) count) s = .next ((s.tick now).sinkRead tl.val (some cs) count) := by
      simp [exec, execSinkCrcRead, State.when, hdue]
    exact ⟨_, hrun, sinkRead_differ (s := s.tick now) tl.isLt hx hcs hd⟩

end Sys2Proof.Machine
end

section

namespace Sys2Proof.Machine

/-! ## The entry into LIT (R45, R53) -/

/-- The registers that the entry into LIT writes, a held park request included. -/
def litWords : List Nat := sessionWords ++ [SY_PARK_CTRL, SV_HB_STAT]

/-- A part of the state that the entry into LIT leaves. -/
structure LitBlind {β : Type} (π : State → β) : Prop where
  wr : ∀ s a w, a ∈ litWords → π (s.wr a w) = π s
  flash : ∀ s dev a b, π (s.wrFlash dev a b) = π s
  gate : ∀ (s : State) (g : Gate), π { s with gate := g } = π s
  otp : ∀ (s : State) (o : Otp), π { s with otp := o } = π s
  power : ∀ (s : State) (p : Power), π { s with power := p } = π s
  park : ∀ (s : State) (p : Park), π { s with park := p } = π s
  sv : ∀ (s : State) (p : SvPort), π { s with sv := p } = π s
  undo : ∀ (s : State) (u : Option ParkUndo), π { s with undo := u } = π s
  events : ∀ {s t : State}, s.onlyEvents t → π t = π s

section

variable {β : Type} {π : State → β} (hπ : LitBlind π) (s : State)

include hπ

theorem LitBlind.ledger : LedgerBlind π :=
  ⟨fun s a w h => hπ.wr s a w (List.mem_append_left _ (by
    simp only [List.mem_cons, List.not_mem_nil, or_false] at h
    obtain rfl | rfl | rfl := h <;> simp [sessionWords])), hπ.flash, hπ.gate⟩

theorem LitBlind.session : SessionBlind π := ⟨fun s a w h => hπ.wr s a w (List.mem_append_left _ h), hπ.gate, hπ.otp⟩

theorem LitBlind.parkBegin (cause step : Nat) : π (s.parkBegin cause step) = π s := by
  unfold State.parkBegin
  extract_lets e u v w p x
  have hu : π u = π s := hπ.undo ..
  have hv : π v = π u := hπ.events (postAll_only ..)
  have hw : π w = π v := hπ.session.sesClose hπ.ledger v
  have hx : π x = π w := hπ.park ..
  exact ((hπ.wr _ _ _ (by simp [litWords])).trans (hπ.wr _ _ _ (by simp [litWords]))).trans (((hx.trans hw).trans hv).trans hu)

theorem LitBlind.enterLit : π s.enterLit = π s := by
  unfold State.enterLit
  extract_lets pa a pb b c pd d e
  have hb : π b = π s := (hπ.power ..).trans (hπ.power ..)
  have hc : π c = π b := hπ.events (postPstate_only ..)
  have hd : π d = π c := hπ.sv ..
  have he : π e = π s := (hπ.wr _ _ _ (by simp [litWords])).trans ((hd.trans hc).trans hb)
  split
  · exact (hπ.parkBegin e _ _).trans he
  · exact he

theorem LitBlind.checkLit : π s.checkLit = π s := by
  unfold State.checkLit
  exact ite_same (π := π) (hπ.enterLit s) rfl

end

theorem litBlind_get {a : Nat} (ha : a ∉ litWords) (hl : lostCounter a = false) (f : Fld) : LitBlind (·.get a f) := by
  refine ⟨fun s b w hb => get_wr_ne s w f ?_, (ledgerBlind_get ?_ f).flash, fun _ _ => rfl, fun _ _ => rfl, fun _ _ => rfl, fun _ _ => rfl,
    fun _ _ => rfl, fun _ _ => rfl, fun h => onlyEvents_get h f hl⟩
  · rintro rfl
    exact ha hb
  · refine fun h => ha (List.mem_append_left _ ?_)
    simp only [List.mem_cons, List.not_mem_nil, or_false] at h
    obtain rfl | rfl | rfl := h <;> simp [sessionWords]

theorem litBlind_link : LitBlind State.link := by
  refine ⟨fun _ _ _ _ => rfl, fun s dev i b => ?_, fun _ _ => rfl, fun _ _ => rfl, fun _ _ => rfl, fun _ _ => rfl, fun _ _ => rfl, fun _ _ => rfl,
    fun h => by rw [h.1]⟩
  unfold State.wrFlash
  split <;> rfl

end Sys2Proof.Machine
end

section

namespace Sys2Proof.Machine

/-! ## Output links (R116, R117) -/

section

variable {s u : State} {l : Nat}

/-- The words of the timelines that follow their links. -/
def tlWords : List Nat := (List.range 16).map TL_STAT ++ (List.range 16).map WT_SINK_STAT

theorem tlStat_mem {t : Nat} (h : t < 16) : TL_STAT t ∈ tlWords := List.mem_append_left _ (List.mem_map_of_mem (List.mem_range.2 h))

theorem sinkStat_mem {t : Nat} (h : t < 16) : WT_SINK_STAT t ∈ tlWords := List.mem_append_right _ (List.mem_map_of_mem (List.mem_range.2 h))

theorem mem_tlWords {a : Nat} (h : a ∈ tlWords) : ∃ t, t < 16 ∧ (a = TL_STAT t ∨ a = WT_SINK_STAT t) := by
  simp only [tlWords, List.mem_append, List.mem_map, List.mem_range] at h
  obtain ⟨t, ht, rfl⟩ | ⟨t, ht, rfl⟩ := h
  · exact ⟨t, ht, .inl rfl⟩
  · exact ⟨t, ht, .inr rfl⟩

theorem lstat_not_mem_tlWords : OL_LSTAT l ∉ tlWords := fun h => by
  obtain ⟨t, ht, h⟩ := mem_tlWords h
  simp only [OL_LSTAT, TL_STAT, WT_SINK_STAT] at h
  omega

theorem lostCounter_link (hl : l < 64) {a : Nat} (h : a ∈ [OL_LINK l, OL_LSTAT l]) : lostCounter a = false := by
  refine lostCounter_eq_false fun p _ hc => ?_
  simp only [List.mem_cons, List.not_mem_nil, or_false, hc, OL_LINK, OL_LSTAT, HP_EV_STAT] at h
  omega

theorem mem_usersOf {t : Nat} (h : t ∈ s.usersOf l) : t < 16 := List.mem_range.1 (List.mem_filter.1 h).1

theorem still_postLink (st detail : Nat) (but : List Nat) : s.still (s.postLink l st detail) but := still_foldl (fun _ _ _ => still_postTl ..) s

theorem linkAt_congr {i : Nat} (h : u.link = s.link) : u.linkAt i = s.linkAt i := by
  unfold State.linkAt
  rw [h]

theorem linkAt_linkMod_same (f : OutLink → OutLink) : (s.linkMod l f).linkAt l = f (s.linkAt l) := by
  unfold State.linkMod
  rw [linkAt_setLinkAt, if_pos rfl]

theorem postTl_link (t type unit st detail : Nat) : (s.postTl t type unit st detail).link = s.link := litBlind_link.events (postTl_only ..)

theorem postLink_link (st detail : Nat) : (s.postLink l st detail).link = s.link :=
  foldl_same State.link (fun s t => postTl_link (s := s) t 0x40 l st detail) _ _

/-! ### A training attempt -/

theorem trainGo_link : (s.trainGo l).linkAt l = { s.linkAt l with training := true, retryAt := none } := by
  unfold State.trainGo
  extract_lets v w
  have hw : w.link = v.link := bump_link ..
  have hfold : ((w.usersOf l).foldl (fun s t => s.bump (TL_STAT t) TL_STAT_RETRAIN_CNT 1) w).link = w.link :=
    foldl_same State.link (f := fun s t => s.bump (TL_STAT t) TL_STAT_RETRAIN_CNT 1) (fun _ _ => bump_link ..) _ w
  exact (linkAt_congr (hfold.trans hw)).trans (linkAt_linkMod_same _)

theorem get_bump_apart {a : Nat} {f g : Fld} (n : Nat) (h : f.lo + f.w ≤ 32) (hd : g.lo + g.w ≤ f.lo ∨ f.lo + f.w ≤ g.lo) :
    (s.bump a f n).get a g = s.get a g := get_put_apart _ _ _ _ _ h hd

/-- The link's own word after an attempt's start. -/
theorem trainGo_lstat (hl : l < 64) (f : Fld) : (s.trainGo l).get (OL_LSTAT l) f = (s.bump (OL_LSTAT l) OL_LSTAT_RETRY 1).get (OL_LSTAT l) f := by
  unfold State.trainGo
  extract_lets v w
  have hfold : w.still ((w.usersOf l).foldl (fun s t => s.bump (TL_STAT t) TL_STAT_RETRAIN_CNT 1) w) tlWords :=
    still_foldl (fun s t ht => still_bump s _ _ (tlStat_mem (mem_usersOf ht))) w
  exact hfold.get (lostCounter_link hl (by simp)) lstat_not_mem_tlWords f

/-- The first attempt changes neither the sink nor whether the link is up. -/
theorem trainFirst_spec (hl : l < 64) : ((s.trainFirst l).linkAt l).sink = (s.linkAt l).sink ∧ (s.trainFirst l).linkIsUp l = s.linkIsUp l := by
  unfold State.trainFirst
  extract_lets k
  split_ifs with h
  · refine ⟨by rw [trainGo_link], ?_⟩
    unfold State.linkIsUp State.on
    rw [trainGo_lstat hl, get_bump_apart _ (by decide) (by decide)]
  · exact ⟨rfl, rfl⟩

/-! ### A link lost -/

/-- The timeline shows the loss of its link. -/
def State.lossShown (s : State) (t : Nat) : Prop := s.get (TL_STAT t) TL_STAT_LINKLOSS = 1 ∧ s.get (TL_STAT t) TL_STAT_LINK_UP = 0

theorem lossShown_congr {t : Nat} (h : ∀ f ∈ [TL_STAT_LINKLOSS, TL_STAT_LINK_UP], u.get (TL_STAT t) f = s.get (TL_STAT t) f)
    (hs : s.lossShown t) : u.lossShown t := by
  obtain ⟨hloss, hup⟩ := hs
  exact ⟨(h _ (by simp)).trans hloss, (h _ (by simp)).trans hup⟩

theorem State.still.lossShown {but : List Nat} (h : s.still u but) {t : Nat} (hb : TL_STAT t ∉ but) (hs : s.lossShown t) :
    u.lossShown t :=
  lossShown_congr (fun f _ => h.get (lostCounter_eq_false fun p _ => by simp only [TL_STAT, HP_EV_STAT]; omega) hb f) hs

/-- What no step undoes holds after a fold. -/
theorem foldl_keeps {α : Type} {P : State → Prop} {f : State → α → State} {l : List α} (h : ∀ s, ∀ a ∈ l, P s → P (f s a)) {s : State}
    (hs : P s) : P (l.foldl f s) := by
  induction l generalizing s with
  | nil => exact hs
  | cons a r ih => exact ih (fun s b hb => h s b (List.mem_cons_of_mem _ hb)) (h s a List.mem_cons_self hs)

/-- What each step brings about for its element and no step undoes holds of every element after a fold. -/
theorem foldl_all_of_stable {α : Type} {P : State → α → Prop} {f : State → α → State} {l : List α} (hmake : ∀ s, ∀ a ∈ l, P (f s a) a)
    (hkeep : ∀ s, ∀ a ∈ l, ∀ b ∈ l, P s b → P (f s a) b) (s : State) : ∀ a ∈ l, P (l.foldl f s) a := by
  intro a ha
  obtain ⟨x, y, rfl⟩ := List.append_of_mem ha
  rw [List.foldl_append, List.foldl_cons]
  exact foldl_keeps (P := fun s => P s a) (fun s b hb => hkeep s b (by simp [hb]) a ha) (hmake _ a ha)

/-- One timeline of a lost link. -/
def State.showLoss (s : State) (t : Nat) : State :=
  ((s.put (TL_STAT t) TL_STAT_LINKLOSS 1).put (TL_STAT t) TL_STAT_LINK_UP 0).put (WT_SINK_STAT t) WT_SINK_STAT_ACTIVE 0

theorem still_showLoss {t : Nat} (h : t < 16) : s.still (s.showLoss t) tlWords :=
  ((still_put s _ _ (tlStat_mem h)).put _ _ (tlStat_mem h)).put _ _ (sinkStat_mem h)

theorem tlStat_ne_sinkStat {t k : Nat} (ht : t < 16) : TL_STAT t ≠ WT_SINK_STAT k := by
  simp only [TL_STAT, WT_SINK_STAT]
  omega

theorem showLoss_self {t : Nat} (ht : t < 16) : (s.showLoss t).lossShown t := by
  unfold State.showLoss State.lossShown
  simp only [get_put_ne _ _ _ _ (tlStat_ne_sinkStat ht)]
  refine ⟨?_, get_put_same _ _ _ _ (by decide)⟩
  rw [get_put_apart _ _ _ _ _ (by decide) (by decide), get_put_same _ _ _ _ (by decide)]
  rfl

theorem showLoss_keeps {t k : Nat} (hk : k < 16) (h : s.lossShown k) : (s.showLoss t).lossShown k := by
  obtain rfl | hne := eq_or_ne k t
  · exact showLoss_self hk
  · have ha : TL_STAT k ≠ TL_STAT t := by simp only [TL_STAT]; omega
    refine lossShown_congr (fun f _ => ?_) h
    unfold State.showLoss
    rw [get_put_ne _ _ _ _ (tlStat_ne_sinkStat hk), get_put_ne _ _ _ _ ha, get_put_ne _ _ _ _ ha]

theorem trainGo_lossShown {k : Nat} (hl : l < 64) (h : s.lossShown k) : (s.trainGo l).lossShown k := by
  unfold State.trainGo
  extract_lets v w
  have hw : w.lossShown k := ((still_linkMod l _ [OL_LSTAT l]).bump (a := OL_LSTAT l) _ _ (by simp)).lossShown
    (by simp [TL_STAT, OL_LSTAT]; omega) h
  refine foldl_keeps (P := fun s => s.lossShown k) (fun u t _ hu => ?_) hw
  obtain rfl | hne := eq_or_ne k t
  · refine lossShown_congr (fun f hf => get_bump_apart _ (by decide) ?_) hu
    simp only [List.mem_cons, List.not_mem_nil, or_false] at hf
    obtain rfl | rfl := hf <;> decide
  · exact lossShown_congr (fun f _ => get_bump_ne _ _ _ _ (by simp only [ne_eq, TL_STAT]; omega)) hu

/-- The timelines that use a link depend on their routing and on whether they run. -/
theorem usersOf_congr (hscan : u.scan = s.scan) (hrd : ∀ t < 16, u.rd (TL_OUT t) = s.rd (TL_OUT t) ∧ u.rd (TL_CTRL t) = s.rd (TL_CTRL t)) :
    u.usersOf l = s.usersOf l ∧ u.wanted l = s.wanted l := by
  have hon : ∀ t < 16, u.tlOn t = s.tlOn t := fun t ht => by
    unfold State.tlOn State.on State.get
    rw [(hrd t ht).2]
  have husers : u.usersOf l = s.usersOf l := by
    unfold State.usersOf
    refine List.filter_congr fun t ht => ?_
    have ht := List.mem_range.1 ht
    unfold State.linksOf linksBy
    rw [(hrd t ht).1, hon t ht, scanAt_congr hscan]
  refine ⟨husers, ?_⟩
  unfold State.wanted
  rw [husers, Bool.eq_iff_iff, List.any_eq_true, List.any_eq_true]
  refine exists_congr fun t => and_congr_right fun ht => ?_
  rw [hon t (mem_usersOf ht)]

theorem State.still.usersOf {but : List Nat} (h : s.still u but) (hscan : u.scan = s.scan)
    (hb : ∀ t < 16, TL_OUT t ∉ but ∧ TL_CTRL t ∉ but) : u.usersOf l = s.usersOf l ∧ u.wanted l = s.wanted l :=
  usersOf_congr hscan fun t ht =>
    ⟨h.quiet.2.2 _ (lostCounter_eq_false fun p _ => by simp only [TL_OUT, HP_EV_STAT]; omega) (hb t ht).1,
      h.quiet.2.2 _ (lostCounter_eq_false fun p _ => by simp only [TL_CTRL, HP_EV_STAT]; omega) (hb t ht).2⟩

/-- A lost link is down, retrained where it is wanted, and every timeline that uses it shows the loss. -/
theorem linkLost_spec (hl : l < 64) (cause : Nat) : (s.linkLost l cause).linkIsUp l = false ∧
    (s.wanted l = true → ((s.linkLost l cause).linkAt l).training = true) ∧ ∀ k ∈ s.usersOf l, (s.linkLost l cause).lossShown k := by
  unfold State.linkLost
  extract_lets a b c d
  have hb : s.still b [OL_LSTAT l] := (still_put s _ _ (by simp)).trans (still_linkMod ..)
  have hbscan : b.scan = s.scan := rfl
  have hc : b.still c tlWords := still_foldl (fun s t ht => still_showLoss (mem_usersOf ht)) b
  have hcscan : c.scan = b.scan :=
    foldl_same State.scan (f := State.showLoss) (fun _ _ => rfl) _ b
  have hcloss : ∀ k ∈ b.usersOf l, c.lossShown k :=
    foldl_all_of_stable (P := State.lossShown) (f := State.showLoss) (fun s k hk => showLoss_self (mem_usersOf hk))
      (fun s t ht k hk h => showLoss_keeps (mem_usersOf hk) h) b
  have hd : c.still d [] := still_postLink ..
  have hdscan : d.scan = c.scan := foldl_same State.scan (fun s t => onlyEvents_scan (postTl_only ..)) _ c
  have hbup : b.get (OL_LSTAT l) OL_LSTAT_UP = 0 := get_put_same s _ _ _ (by decide)
  clear_value d c b
  obtain ⟨husers, -⟩ := hb.usersOf (l := l) hbscan fun t _ => by simp [TL_OUT, TL_CTRL, OL_LSTAT]; omega
  have hall : s.still d (OL_LSTAT l :: tlWords) := ((hb.mono (by simp)).trans (hc.mono fun a ha => List.mem_cons_of_mem _ ha)).trans (hd.mono (by simp))
  obtain ⟨-, hwanted⟩ := hall.usersOf (l := l) (hdscan.trans (hcscan.trans hbscan)) fun t ht => by
    refine ⟨fun h => ?_, fun h => ?_⟩ <;> obtain h | h := List.mem_cons.1 h
    · simp only [TL_OUT, OL_LSTAT] at h; omega
    · obtain ⟨k, hk, h⟩ := mem_tlWords h
      simp only [TL_OUT, TL_STAT, WT_SINK_STAT] at h; omega
    · simp only [TL_CTRL, OL_LSTAT] at h; omega
    · obtain ⟨k, hk, h⟩ := mem_tlWords h
      simp only [TL_CTRL, TL_STAT, WT_SINK_STAT] at h; omega
  have hdup : d.get (OL_LSTAT l) OL_LSTAT_UP = 0 := by
    rw [hd.get (lostCounter_link hl (by simp)) (by simp), hc.get (lostCounter_link hl (by simp)) lstat_not_mem_tlWords, hbup]
  have hdloss : ∀ k ∈ s.usersOf l, d.lossShown k := fun k hk => hd.lossShown (by simp) (hcloss k (husers ▸ hk))
  have hup : ∀ u : State, u.get (OL_LSTAT l) OL_LSTAT_UP = 0 → u.linkIsUp l = false := fun u h => by
    unfold State.linkIsUp State.on
    rw [h]
    rfl
  split_ifs with hw
  · refine ⟨hup _ ?_, fun _ => by rw [trainGo_link], fun k hk => trainGo_lossShown hl (hdloss k hk)⟩
    rw [trainGo_lstat hl, get_bump_apart _ (by decide) (by decide), hdup]
  · exact ⟨hup _ hdup, fun h => absurd (hwanted.trans h) hw, hdloss⟩

/-! ### The end of an attempt -/

theorem lstat_not_mem_litWords (hl : l < 64) : OL_LSTAT l ∉ litWords := by
  simp [litWords, sessionWords, OL_LSTAT, GH_SES_STAT, GH_OTP_CNT, GH_CFG_REF, GH_LED_HEAD, GH_LED_STAT, GH_LED_DROP, SY_PARK_CTRL, SV_HB_STAT]
  omega

theorem checkLit_lstat (hl : l < 64) (f : Fld) : s.checkLit.get (OL_LSTAT l) f = s.get (OL_LSTAT l) f :=
  (litBlind_get (lstat_not_mem_litWords hl) (lostCounter_link hl (by simp)) f).checkLit s

theorem checkLit_link : s.checkLit.link = s.link := litBlind_link.checkLit s

theorem still_asClamp {t : Nat} (ht : t < 16) (maxLines : Option Nat) : s.still (s.asClamp t maxLines) tlWords := by
  unfold State.asClamp
  split
  · exact still_ite (still_put _ _ _ (tlStat_mem ht)) (still_refl ..)
  · exact still_refl ..

theorem asClamp_link (t : Nat) (maxLines : Option Nat) : (s.asClamp t maxLines).link = s.link := by
  unfold State.asClamp
  split
  · exact ite_same (π := State.link) rfl rfl
  · rfl

/-- One timeline of a link that trained. -/
def State.showTrained (s : State) (t : Nat) (maxLines : Option Nat) : State :=
  (((s.showUp t).asClamp t maxLines).put (WT_SINK_STAT t) WT_SINK_STAT_ACTIVE (b2n (((s.showUp t).asClamp t maxLines).sinkActive t))).setSinkAt t
    SinkState.reset

theorem still_showTrained {t : Nat} (ht : t < 16) (maxLines : Option Nat) : s.still (s.showTrained t maxLines) tlWords :=
  (((still_put s _ _ (tlStat_mem ht)).trans (still_asClamp ht _)).put _ _ (sinkStat_mem ht)).trans (still_setSinkAt ..)

theorem showTrained_link (t : Nat) (maxLines : Option Nat) : (s.showTrained t maxLines).link = s.link := by
  have hset : ∀ u : State, (u.setSinkAt t SinkState.reset).link = u.link := fun _ => rfl
  unfold State.showTrained
  rw [hset, put_link, asClamp_link, State.showUp, put_link]

/-- A link that trained shows its rate and lanes. -/
theorem linkTrained_spec (hl : l < 64) (rate lanes : Nat) (fec : Bool) (maxLines : Option Nat) (sinkCrc : Bool) :
    (s.linkTrained l rate lanes fec maxLines sinkCrc).get (OL_LSTAT l) OL_LSTAT_UP = 1 ∧
      (s.linkTrained l rate lanes fec maxLines sinkCrc).get (OL_LSTAT l) OL_LSTAT_RATE = rate % 16 ∧
      (s.linkTrained l rate lanes fec maxLines sinkCrc).get (OL_LSTAT l) OL_LSTAT_LANES = lanes % 4 ∧
      ((s.linkTrained l rate lanes fec maxLines sinkCrc).linkAt l).training = (s.linkAt l).training := by
  unfold State.linkTrained
  extract_lets dsc fec' a b c d
  have hb : b.get (OL_LSTAT l) OL_LSTAT_UP = 1 ∧ b.get (OL_LSTAT l) OL_LSTAT_RATE = rate % 16 ∧ b.get (OL_LSTAT l) OL_LSTAT_LANES = lanes % 4 := by
    refine ⟨?_, ?_, ?_⟩
    · rw [get_put_apart _ _ _ _ _ (by decide) (by decide), get_put_apart _ _ _ _ _ (by decide) (by decide),
        get_put_apart _ _ _ _ _ (by decide) (by decide), get_put_same _ _ _ _ (by decide)]
      rfl
    · rw [get_put_apart _ _ _ _ _ (by decide) (by decide), get_put_apart _ _ _ _ _ (by decide) (by decide), get_put_same _ _ _ _ (by decide)]
      rfl
    · rw [get_put_apart _ _ _ _ _ (by decide) (by decide), get_put_same _ _ _ _ (by decide)]
      rfl
  have hc : b.still c [] := still_linkMod ..
  have hctrain : (c.linkAt l).training = (b.linkAt l).training := by rw [linkAt_linkMod_same]
  have hblink : b.link = s.link := rfl
  have hd : c.still d [] := still_postLink ..
  have hdlink : d.link = c.link := postLink_link ..
  clear_value d c b
  obtain ⟨hup, hrate, hlanes⟩ := hb
  have hcd := (hc.trans hd).mono (but' := tlWords) (by simp)
  have hall : b.still ((d.usersOf l).foldl (fun s t => s.showTrained t maxLines) d) tlWords :=
    hcd.trans (still_foldl (fun s t ht => still_showTrained (mem_usersOf ht) _) d)
  have hlink : ((d.usersOf l).foldl (fun s t => s.showTrained t maxLines) d).link = d.link :=
    foldl_same State.link (f := fun s t => s.showTrained t maxLines) (fun s t => showTrained_link t maxLines) _ d
  refine ⟨?_, ?_, ?_, ?_⟩
  · exact (hall.get (lostCounter_link hl (by simp)) lstat_not_mem_tlWords _).trans hup
  · exact (hall.get (lostCounter_link hl (by simp)) lstat_not_mem_tlWords _).trans hrate
  · exact (hall.get (lostCounter_link hl (by simp)) lstat_not_mem_tlWords _).trans hlanes
  · exact (congrArg OutLink.training (linkAt_congr (hlink.trans hdlink))).trans (hctrain.trans (congrArg OutLink.training (linkAt_congr hblink)))

/-- A failed attempt only sets the next one. -/
theorem trainFailed_spec (hl : l < 64) (cause : Nat) :
    (∀ f, (s.trainFailed l cause).get (OL_LSTAT l) f = s.get (OL_LSTAT l) f) ∧
      (s.trainFailed l cause).linkAt l = { s.linkAt l with
        reported := true, retries := (s.linkAt l).retries + 1, retryAt := some (s.dtime + retryWait (s.linkAt l).retries) } := by
  unfold State.trainFailed
  extract_lets k a
  have ha : s.still a [] := still_ite (still_refl ..) (still_postLink ..)
  have halink : a.link = s.link := ite_same (π := State.link) rfl (postLink_link ..)
  have hk : a.linkAt l = k := linkAt_congr halink
  clear_value a
  refine ⟨fun f => ?_, ?_⟩
  · exact ha.get (lostCounter_link hl (by simp)) (by simp) f
  · rw [linkAt_linkMod_same, hk, ha.dtime]

theorem linkIsUp_of_get (h : ∀ f, u.get (OL_LSTAT l) f = s.get (OL_LSTAT l) f) : u.linkIsUp l = s.linkIsUp l := congrArg (· != 0) (h OL_LSTAT_UP)

/-- The link after its attempt. -/
def OutLink.attempted (k : OutLink) (good : Bool) : OutLink := { k with training := false, tried := if k.tried.isNone then some good else k.tried }

theorem trainEnd_eq (ok : Bool) (rate lanes : Nat) (fec : Bool) (maxLines : Option Nat) (sinkCrc : Bool) :
    s.trainEnd l ok rate lanes fec maxLines sinkCrc =
      (if (ok && carriesBy s.rd l (min rate (s.get (OL_LINK l) OL_LINK_MAXRATE)) (min lanes (s.get (OL_LINK l) OL_LINK_LANES))) = true then
        (s.linkMod l (·.attempted true)).linkTrained l (min rate (s.get (OL_LINK l) OL_LINK_MAXRATE)) (min lanes (s.get (OL_LINK l) OL_LINK_LANES))
          fec maxLines sinkCrc
      else (s.linkMod l (·.attempted false)).trainFailed l (if ok then 5 else 2)).checkLit := by
  unfold State.trainEnd
  dsimp only
  generalize (ok && carriesBy s.rd l (min rate (s.get (OL_LINK l) OL_LINK_MAXRATE)) (min lanes (s.get (OL_LINK l) OL_LINK_LANES))) = good
  cases good <;> simp only [if_true, Bool.false_eq_true, if_false, OutLink.attempted]

theorem trainEnd_good (hl : l < 64) (rate lanes : Nat) (fec : Bool) (maxLines : Option Nat) (sinkCrc : Bool)
    (hg : carriesBy s.rd l (min rate (s.get (OL_LINK l) OL_LINK_MAXRATE)) (min lanes (s.get (OL_LINK l) OL_LINK_LANES)) = true) :
    (s.trainEnd l true rate lanes fec maxLines sinkCrc).linkIsUp l = true ∧
      ((s.trainEnd l true rate lanes fec maxLines sinkCrc).linkAt l).training = false ∧
      (s.trainEnd l true rate lanes fec maxLines sinkCrc).get (OL_LSTAT l) OL_LSTAT_RATE = min rate (s.get (OL_LINK l) OL_LINK_MAXRATE) % 16 ∧
      (s.trainEnd l true rate lanes fec maxLines sinkCrc).get (OL_LSTAT l) OL_LSTAT_LANES = min lanes (s.get (OL_LINK l) OL_LINK_LANES) % 4 := by
  rw [trainEnd_eq, hg, Bool.and_true, if_pos rfl]
  obtain ⟨hup, hrate, hlanes, htrain⟩ := linkTrained_spec (s := s.linkMod l (·.attempted true)) hl (min rate (s.get (OL_LINK l) OL_LINK_MAXRATE))
    (min lanes (s.get (OL_LINK l) OL_LINK_LANES)) fec maxLines sinkCrc
  refine ⟨?_, ?_, ?_, ?_⟩
  · unfold State.linkIsUp State.on
    rw [checkLit_lstat hl, hup]
    rfl
  · rw [linkAt_congr checkLit_link, htrain, linkAt_linkMod_same]
    rfl
  · rw [checkLit_lstat hl, hrate]
  · rw [checkLit_lstat hl, hlanes]

theorem trainEnd_failed (hl : l < 64) (rate lanes : Nat) (fec : Bool) (maxLines : Option Nat) (sinkCrc : Bool) :
    (s.trainEnd l false rate lanes fec maxLines sinkCrc).linkIsUp l = s.linkIsUp l ∧
      ((s.trainEnd l false rate lanes fec maxLines sinkCrc).linkAt l).training = false ∧
      ((s.trainEnd l false rate lanes fec maxLines sinkCrc).linkAt l).retries = (s.linkAt l).retries + 1 ∧
      ((s.trainEnd l false rate lanes fec maxLines sinkCrc).linkAt l).retryAt = some (s.dtime + retryWait (s.linkAt l).retries) := by
  rw [trainEnd_eq, Bool.false_and, if_neg Bool.false_ne_true, linkAt_congr checkLit_link]
  obtain ⟨hget, hlink⟩ := trainFailed_spec (s := s.linkMod l (·.attempted false)) hl (if false = true then 5 else 2)
  rw [hlink, linkAt_linkMod_same]
  refine ⟨?_, rfl, rfl, rfl⟩
  exact linkIsUp_of_get fun f => (checkLit_lstat hl f).trans (hget f)

end

/-- Settles O10: `linkLost_spec` says how a link goes down, `trainEnd_good` and `trainEnd_failed` how an attempt ends, and the rules of
`trainGo` how one begins. -/
theorem outputLinksComplete : Obligations.OutputLinksComplete := by
  unfold Obligations.OutputLinksComplete
  intro s now l
  have hl : l.val < 64 := by omega
  have hlost : ∀ cause, s.carries ⟨false, false⟩ ((s.tick now).linkLost l.val cause) := fun cause => by simp
  have hgone : ∀ cause, ((s.tick now).linkLost l.val cause).linkIsUp l.val = false ∧
      (s.wanted l.val = true → (((s.tick now).linkLost l.val cause).linkAt l.val).training = true) ∧
      (∀ k ∈ s.usersOf l.val, ((s.tick now).linkLost l.val cause).get (TL_STAT k) TL_STAT_LINKLOSS = 1 ∧
        ((s.tick now).linkLost l.val cause).get (TL_STAT k) TL_STAT_LINK_UP = 0) ∧
      s.memSame ((s.tick now).linkLost l.val cause) ∧ s.storeSame ((s.tick now).linkLost l.val cause) := fun cause => by
    obtain ⟨hup, htrain, hloss⟩ := linkLost_spec (s := s.tick now) hl cause
    exact ⟨hup, htrain, hloss, (hlost cause).memSame, (hlost cause).storeSame⟩
  refine ⟨fun hq hs hh => ?_, fun low hup haphy hlow => ?_, fun hup haphy => ?_, fun hup haphy => ?_,
    fun rate lanes fec maxLines sinkCrc hq ht hg => ?_, fun rate lanes fec maxLines sinkCrc hq ht => ?_, fun hdue => ?_⟩
  · have hrun : exec (.hpdAssert now l) s = .next (((s.tick now).linkMod l.val fun k => { k with sink := true }).trainFirst l.val) := by
      simp only [exec, execHpdAssert, State.when, hq, hs, hh, Bool.not_false, Bool.and_true, if_true]
    have hc : s.carries ⟨false, false⟩ (((s.tick now).linkMod l.val fun k => { k with sink := true }).trainFirst l.val) := by simp
    obtain ⟨hsink, hup⟩ := trainFirst_spec (s := (s.tick now).linkMod l.val fun k => { k with sink := true }) hl
    refine ⟨_, hrun, ?_, hup, hc.memSame, hc.storeSame⟩
    rw [hsink, linkAt_linkMod_same]
  · have hrun : exec (.hpdLoss now l low) s = .next ((s.tick now).linkLost l.val 1) := by
      simp [exec, execHpdLoss, State.when, hup, haphy, hlow]
    exact ⟨_, hrun, hgone 1⟩
  · have hrun : exec (.irqHpd now l false) s = .next ((s.tick now).linkLost l.val 4) := by
      simp [exec, execIrqHpd, State.when, hup, haphy]
    exact ⟨_, hrun, hgone 4⟩
  · have hrun : exec (.aphyOutputLinkDown now l) s = .next ((s.tick now).linkLost l.val 3) := by
      simp [exec, execAphyOutputLinkDown, State.when, hup, haphy]
    exact ⟨_, hrun, hgone 3⟩
  · have hrun : exec (.linkTrainingDone now l true rate lanes fec maxLines sinkCrc) s =
        .next ((s.tick now).trainEnd l.val true rate lanes fec maxLines sinkCrc) := by
      simp [exec, execLinkTrainingDone, State.when, hq, ht]
    exact ⟨_, hrun, trainEnd_good hl rate lanes fec maxLines sinkCrc hg⟩
  · have hrun : exec (.linkTrainingDone now l false rate lanes fec maxLines sinkCrc) s =
        .next ((s.tick now).trainEnd l.val false rate lanes fec maxLines sinkCrc) := by
      simp [exec, execLinkTrainingDone, State.when, hq, ht]
    exact ⟨_, hrun, trainEnd_failed hl rate lanes fec maxLines sinkCrc⟩
  · have hrun : exec (.linkRetrainTimer now l) s = .next ((s.tick now).trainGo l.val) := by
      simp [exec, execLinkRetrainTimer, State.when, hdue]
    have hc : s.carries ⟨false, false⟩ ((s.tick now).trainGo l.val) := by simp
    refine ⟨_, hrun, by rw [trainGo_link], by rw [trainGo_link], fun hcnt => ?_, hc.memSame, hc.storeSame⟩
    rw [trainGo_lstat hl, get_bump_same _ _ _ _ (by decide) (by exact hcnt)]
    rfl

end Sys2Proof.Machine
end

section

namespace Sys2Proof.Machine

/-! ## Installer sessions (R497 to R501) -/

section

variable {s t : State}

/-- The Gatehouse but for what the ledger keeps in it. -/
def Gate.offLedger (g : Gate) : Gate := { g with queue := [], nextSeq := 0 }

theorem ledgerAdd_offLedger {role source action target result : Nat} {old new : List Byte}
    (h : s.ledgerAdd role source action target old new result = some t) : t.gate.offLedger = s.gate.offLedger := by
  unfold State.ledgerAdd at h
  split at h
  · obtain rfl := Option.some.inj h
    rfl
  · cases h

theorem ledgerDone_offLedger (role source action target : Nat) (old new : List Byte) :
    (s.ledgerDone role source action target old new).gate.offLedger = s.gate.offLedger := by
  unfold State.ledgerDone
  split
  · exact ledgerAdd_offLedger ‹_›
  · rfl

theorem ledgerRefusal_offLedger (role source action target : Nat) (old new : List Byte) :
    (s.ledgerRefusal role source action target old new).gate.offLedger = s.gate.offLedger := by
  unfold State.ledgerRefusal
  split
  · rfl
  · split
    · exact ledgerAdd_offLedger ‹_›
    · rfl

theorem session_of_offLedger (h : t.gate.offLedger = s.gate.offLedger) : t.gate.session = s.gate.session :=
  (congrArg Gate.session h : t.gate.offLedger.session = s.gate.offLedger.session)

theorem guarded_fst_of_admits {src : Src} {a v : Nat} {w : Word} (h : s.admits src a v = some (t, w)) (eff : State → Word → State) :
    (s.guarded src a v eff).1 = eff t w := congrArg Prod.fst (guarded_of_admits h eff)

/-- The words that a ledger entry writes. -/
def ledWords : List Nat := [GH_LED_HEAD, GH_LED_STAT, GH_LED_DROP]

theorem not_sessionOpen_of_state (h : t.get GH_SES_STAT GH_SES_STAT_STATE = 0) : t.sessionOpen = false := by
  unfold State.sessionOpen
  rw [h]
  rfl

theorem lostCounter_ses : lostCounter GH_SES_STAT = false := by decide

theorem lostCounter_lock : lostCounter GH_LOCK = false := by decide

theorem sesState_get : ∀ (st result : Nat), (s.sesState st result).get GH_SES_STAT GH_SES_STAT_STATE = st % 4 ∧
    (s.sesState st result).get GH_SES_STAT GH_SES_STAT_RESULT = result % 16 ∧
    (s.sesState st result).get GH_SES_STAT GH_SES_STAT_FAILS = s.get GH_SES_STAT GH_SES_STAT_FAILS := by
  intro st result
  unfold State.sesState
  refine ⟨?_, ?_, ?_⟩
  · rw [get_put_apart _ _ _ _ _ (by decide) (by decide), get_put_same _ _ _ _ (by decide)]
    rfl
  · rw [get_put_same _ _ _ _ (by decide)]
    rfl
  · rw [get_put_apart _ _ _ _ _ (by decide) (by decide), get_put_apart _ _ _ _ _ (by decide) (by decide)]

/-! ### OP 1 and OP 2 -/

theorem sesRefuse_spec (result : Nat) : (s.sesRefuse result).get GH_SES_STAT GH_SES_STAT_RESULT = result % 16 ∧
    (s.sesRefuse result).gate.session = s.gate.session ∧ s.quiet (s.sesRefuse result) (GH_SES_STAT :: ledWords) ∧
    ∀ f, f.lo + f.w ≤ 4 ∨ 8 ≤ f.lo → (s.sesRefuse result).get GH_SES_STAT f = s.get GH_SES_STAT f := by
  unfold State.sesRefuse
  have hq := ledgerRefusal_quiet (s.put GH_SES_STAT GH_SES_STAT_RESULT result) roleInstaller 4 0x03 0 [] []
  refine ⟨?_, session_of_offLedger (ledgerRefusal_offLedger ..), ((quiet_put s _ _ _).mono (by simp)).trans (hq.mono (by simp [ledWords])), fun f hf => ?_⟩
  · rw [hq.get lostCounter_ses (by decide), get_put_same _ _ _ _ (by decide)]
    rfl
  · rw [hq.get lostCounter_ses (by decide), get_put_apart _ _ _ _ _ (by decide) hf]

theorem putWords_dtime (base : Nat) (bs : List Byte) : (s.putWords base bs).dtime = s.dtime :=
  foldl_same State.dtime (f := fun s k => s.wrN (base + 4 * k) (fieldAt bs (4 * k) 4)) (fun _ _ => wrN_dtime ..) _ s

theorem quiet_foldl {α : Type} {but : List Nat} {f : State → α → State} {l : List α} (h : ∀ (s : State) (a : α), a ∈ l → s.quiet (f s a) but)
    (s : State) : s.quiet (l.foldl f s) but :=
  foldl_keeps (P := fun t => s.quiet t but) (fun t a ha ht => ht.trans (h t a ha)) (quiet_refl s but)

theorem putWords_quiet (base : Nat) (bs : List Byte) :
    s.quiet (s.putWords base bs) ((List.range (bs.length / 4)).map fun k => base + 4 * k) :=
  quiet_foldl (fun s k hk => (quiet_wrN s (base + 4 * k) _).mono fun a ha => by
    rw [List.mem_singleton.1 ha]
    exact List.mem_map_of_mem hk) s

theorem nonceWords_eq (n : Nat) : (List.range ((leBytes 32 n).length / 4)).map (fun k => GH_SES_NONCE 0 + 4 * k) = (List.range 8).map GH_SES_NONCE := by
  rw [length_leBytes]
  rfl

/-- A challenge that is granted leaves a fresh nonce. -/
theorem sesChallenge_granted {r : Nat} (hopen : s.sessionOpen = false) (hhard : s.on GH_LOCK GH_LOCK_HARD = false)
    (hlock : s.gate.session.failAt + lockoutNs (s.get GH_SES_STAT GH_SES_STAT_FAILS) ≤ s.dtime)
    (hkey : s.keyRights (wordsBytes s (GH_SES_KEY 0) 16) = some r) (hr : s.rdN GH_SES_RIGHTS &&& r = s.rdN GH_SES_RIGHTS) :
    s.sesChallenge.get GH_SES_STAT GH_SES_STAT_STATE = 1 ∧ s.sesChallenge.gate.session.fresh = true ∧
      s.sesChallenge.gate.session.nonceAt = s.dtime ∧ s.sesChallenge.gate.session.rights = s.rdN GH_SES_RIGHTS ∧
      s.quiet s.sesChallenge (GH_SES_STAT :: (List.range 8).map GH_SES_NONCE) := by
  unfold State.sesChallenge
  rw [hopen, hhard, if_neg Bool.false_ne_true, if_neg Bool.false_ne_true, if_neg (Nat.not_lt.2 hlock)]
  dsimp only
  rw [hkey]
  dsimp only
  rw [hr, if_neg (by simp)]
  generalize hv : ({ s with free := s.free + 1 } : State) = v
  have hvd : v.dtime = s.dtime := by rw [← hv]
  have hvq : s.quiet v (GH_SES_STAT :: (List.range 8).map GH_SES_NONCE) := by
    rw [← hv]
    exact quiet_of_same rfl rfl rfl rfl rfl rfl
  generalize (Config.nonce s.free).toNat = n
  generalize hp : v.putWords (GH_SES_NONCE 0) (leBytes 32 n) = p
  have hpq : v.quiet p (GH_SES_STAT :: (List.range 8).map GH_SES_NONCE) := by
    rw [← hp]
    refine (putWords_quiet ..).mono fun a ha => ?_
    rw [nonceWords_eq] at ha
    exact List.mem_cons_of_mem _ ha
  have hpd : p.dtime = v.dtime := by rw [← hp, putWords_dtime]
  refine ⟨get_put_same p _ _ _ (by decide), rfl, hpd.trans hvd, rfl, ?_⟩
  exact ((hvq.trans hpq).put GH_SES_STAT_STATE 1 (by simp)).trans (quiet_of_same rfl rfl rfl rfl rfl rfl)

theorem sesRespond_hard (h : s.on GH_LOCK GH_LOCK_HARD = true) : s.sesRespond = s.sesRefuse 6 := by
  unfold State.sesRespond
  rw [if_pos h]

/-- A response in time begins the verification and uses the nonce up. -/
theorem sesRespond_begun (hhard : s.on GH_LOCK GH_LOCK_HARD = false) (hst : s.get GH_SES_STAT GH_SES_STAT_STATE = 1)
    (hfresh : s.gate.session.fresh = true) (ht : s.dtime ≤ s.gate.session.nonceAt + 10000000000) :
    s.sesRespond.gate.session.fresh = false ∧ s.sesRespond.gate.session.verify = some s.dtime ∧ s.quiet s.sesRespond [] := by
  unfold State.sesRespond
  rw [hhard, hst, hfresh, if_neg Bool.false_ne_true, if_neg (by decide), if_neg (Nat.not_lt.2 ht)]
  exact ⟨rfl, rfl, quiet_of_same rfl rfl rfl rfl rfl rfl⟩

/-! ### The end of a session -/

/-- The session is entered as over, with no state and no rights. -/
def State.sesShut (s : State) : State :=
  ((s.ledgerDone roleInstaller 4 0x02 0 [] []).put GH_SES_STAT GH_SES_STAT_STATE 0).put GH_SES_STAT GH_SES_STAT_RIGHTS 0

theorem sesShut_spec : s.sesShut.get GH_SES_STAT GH_SES_STAT_STATE = 0 ∧ s.sesShut.get GH_SES_STAT GH_SES_STAT_RIGHTS = 0 ∧
    s.quiet s.sesShut (GH_SES_STAT :: ledWords) := by
  unfold State.sesShut
  refine ⟨?_, get_put_same _ _ _ _ (by decide), ?_⟩
  · rw [get_put_apart _ _ _ _ _ (by decide) (by decide), get_put_same _ _ _ _ (by decide)]
    rfl
  · exact (((ledgerDone_quiet s _ _ _ _ _ _).mono (by simp [ledWords])).put _ _ (by simp)).put _ _ (by simp)

/-- What the end of a session leaves of it. -/
def State.sesForgot (s : State) : State :=
  { s with gate := { s.gate with session := { Session.reset with failAt := s.gate.session.failAt } } }

theorem sesForgot_quiet (but : List Nat) : s.quiet s.sesForgot but := quiet_of_same rfl rfl rfl rfl rfl rfl

theorem sesClose_same (hopen : s.sessionOpen = true) (hch : s.gate.session.changed = false) : s.sesClose = s.sesShut.sesForgot := by
  unfold State.sesClose
  rw [if_pos hopen, hch]
  rfl

/-- A session with changes is counted in OTP. -/
theorem sesClose_changed (hopen : s.sessionOpen = true) (hch : s.gate.session.changed = true) :
    ∃ u : State, u = { s.sesShut.sesForgot with otp := { s.sesShut.otp with count := (s.sesShut.otp.count + 1) % 2 ^ 32 } } ∧
      ∃ v w, s.sesClose = (u.wrN GH_OTP_CNT v).wrN GH_CFG_REF w := by
  unfold State.sesClose
  rw [if_pos hopen, hch]
  exact ⟨_, rfl, _, _, rfl⟩

/-- An open session without changes ends with OTP as it was. -/
theorem sesClose_same_spec (hopen : s.sessionOpen = true) (hch : s.gate.session.changed = false) : s.sesClose.sessionOpen = false ∧
    s.sesClose.get GH_SES_STAT GH_SES_STAT_RIGHTS = 0 ∧ s.quiet s.sesClose (GH_SES_STAT :: ledWords) := by
  obtain ⟨hst, hr, hq⟩ := sesShut_spec (s := s)
  rw [sesClose_same hopen hch]
  exact ⟨not_sessionOpen_of_state hst, hr, hq.trans (sesForgot_quiet _)⟩

theorem sesClose_changed_spec (hopen : s.sessionOpen = true) (hch : s.gate.session.changed = true) : s.sesClose.sessionOpen = false ∧
    s.sesClose.get GH_SES_STAT GH_SES_STAT_RIGHTS = 0 ∧ s.sesClose.otp.count = (s.otp.count + 1) % 2 ^ 32 ∧ s.memSame s.sesClose ∧
    s.sesClose.flash0 = s.flash0 ∧ s.sesClose.flash1 = s.flash1 := by
  obtain ⟨hst, hr, hmem, ⟨h0, h1, ho⟩, -⟩ := sesShut_spec (s := s)
  obtain ⟨u, hu, v, w, hclose⟩ := sesClose_changed hopen hch
  have hget : ∀ f, ((u.wrN GH_OTP_CNT v).wrN GH_CFG_REF w).get GH_SES_STAT f = s.sesShut.get GH_SES_STAT f := fun f => by
    rw [get_wrN_ne _ _ _ (by decide), get_wrN_ne _ _ _ (by decide), hu]
    rfl
  rw [hclose]
  refine ⟨not_sessionOpen_of_state ((hget _).trans hst), (hget _).trans hr, ?_, ?_, ?_, ?_⟩
  · rw [wrN_otp, wrN_otp, hu, ← ho]
  · have hu' : s.memSame u := fun a => by
      rw [hu]
      exact hmem a
    exact fun a => ((quiet_wrN (u.wrN GH_OTP_CNT v) GH_CFG_REF w).1 a).trans (((quiet_wrN u GH_OTP_CNT v).1 a).trans (hu' a))
  · rw [wrN_flash0, wrN_flash0, hu]
    exact h0
  · rw [wrN_flash1, wrN_flash1, hu]
    exact h1

/-- Without an open session only what waits is dropped. -/
theorem sesClose_idle_spec (hopen : s.sessionOpen = false) : s.sesClose.sessionOpen = false ∧ s.quiet s.sesClose [GH_SES_STAT] := by
  unfold State.sesClose
  rw [hopen, if_neg Bool.false_ne_true]
  exact ⟨not_sessionOpen_of_state (get_put_same s _ _ _ (by decide)),
    (quiet_put s GH_SES_STAT GH_SES_STAT_STATE 0).trans (quiet_of_same rfl rfl rfl rfl rfl rfl)⟩

theorem sesClose_unchanged (hch : s.gate.session.changed = false) : s.sesClose.sessionOpen = false ∧ s.quiet s.sesClose (GH_SES_STAT :: ledWords) := by
  by_cases hopen : s.sessionOpen = true
  · obtain ⟨hshut, -, hq⟩ := sesClose_same_spec hopen hch
    exact ⟨hshut, hq⟩
  · obtain ⟨hshut, hq⟩ := sesClose_idle_spec (Bool.eq_false_iff.2 hopen)
    exact ⟨hshut, hq.mono (by simp)⟩

/-- HARD leaves no session. -/
theorem lockHard_spec {w : Word} (hw : getField w GH_LOCK_HARD = 1) (hch : s.gate.session.changed = false) :
    (s.lockHard w).get GH_LOCK GH_LOCK_HARD = 1 ∧ (s.lockHard w).sessionOpen = false ∧ s.quiet (s.lockHard w) (GH_LOCK :: GH_SES_STAT :: ledWords) := by
  unfold State.lockHard
  rw [if_pos hw]
  extract_lets late a
  obtain ⟨hshut, hq⟩ := sesClose_unchanged (s := s.put GH_LOCK GH_LOCK_HARD 1) hch
  have hnot : GH_LOCK ∉ GH_SES_STAT :: ledWords := by decide
  have hlock : a.get GH_LOCK GH_LOCK_HARD = 1 := by
    rw [hq.get lostCounter_lock hnot, get_put_same _ _ _ _ (by decide)]
    rfl
  have haq : s.quiet a (GH_LOCK :: GH_SES_STAT :: ledWords) :=
    ((quiet_put s _ _ _).mono (by simp)).trans (hq.mono fun b hb => List.mem_cons_of_mem _ hb)
  have hshut : a.sessionOpen = false := hshut
  clear_value a
  split_ifs
  · obtain ⟨-, -, hr, hst⟩ := sesRefuse_spec (s := a) 6
    refine ⟨(hr.get lostCounter_lock hnot _).trans hlock, ?_, haq.trans (hr.mono fun b hb => List.mem_cons_of_mem _ hb)⟩
    unfold State.sessionOpen at hshut ⊢
    rw [hst _ (by decide), hshut]
  · exact ⟨hlock, hshut, haq⟩

/-! ### The verification -/

theorem sesFail_spec (result : Nat) : (s.sesFail result).sessionOpen = false ∧
    (s.sesFail result).get GH_SES_STAT GH_SES_STAT_RESULT = result % 16 ∧
    (s.sesFail result).get GH_SES_STAT GH_SES_STAT_FAILS = min 255 (s.get GH_SES_STAT GH_SES_STAT_FAILS + 1) ∧
    (s.sesFail result).gate.session.verify = none ∧ s.quiet (s.sesFail result) (GH_SES_STAT :: ledWords) := by
  obtain ⟨hst, hres, hfails⟩ := sesState_get (s := s) 0 result
  unfold State.sesFail
  generalize ha : (s.sesState 0 result).bumpSat GH_SES_STAT GH_SES_STAT_FAILS 1 = a
  have hast : a.get GH_SES_STAT GH_SES_STAT_STATE = 0 := by
    rw [← ha, State.bumpSat, get_put_apart _ _ _ _ _ (by decide) (by decide), hst]
  have hares : a.get GH_SES_STAT GH_SES_STAT_RESULT = result % 16 := by
    rw [← ha, State.bumpSat, get_put_apart _ _ _ _ _ (by decide) (by decide), hres]
  have hafails : a.get GH_SES_STAT GH_SES_STAT_FAILS = min 255 (s.get GH_SES_STAT GH_SES_STAT_FAILS + 1) := by
    rw [← ha, State.bumpSat, get_put_same _ _ _ _ (by decide), hfails, satAdd, Nat.min_comm]
    exact Nat.mod_eq_of_lt (lt_of_le_of_lt (Nat.min_le_left ..) (by decide))
  have haq : s.quiet a (GH_SES_STAT :: ledWords) := by
    rw [← ha]
    exact (((quiet_put s _ _ _).trans (quiet_put _ _ _ _)).trans (quiet_put _ _ _ _)).mono (by simp)
  clear ha
  extract_lets src gate src2 b
  have hq := ledgerRefusal_quiet b roleInstaller 4 0x03 0 [] []
  have hbq : a.quiet b (GH_SES_STAT :: ledWords) := quiet_of_same rfl rfl rfl rfl rfl rfl
  have hget : ∀ f, (b.ledgerRefusal roleInstaller 4 0x03 0 [] []).get GH_SES_STAT f = a.get GH_SES_STAT f := hq.get lostCounter_ses (by decide)
  refine ⟨not_sessionOpen_of_state ((hget _).trans hast), (hget _).trans hares, (hget _).trans hafails, ?_,
    (haq.trans hbq).trans (hq.mono (by simp [ledWords]))⟩
  rw [session_of_offLedger (ledgerRefusal_offLedger ..)]

/-- A verified session opens with its rights. -/
theorem sesVerify_good (hv : ecdsaVerifyMsg s.gate.session.key s.gate.session.sig s.challenge = true) (hq : s.gate.queue.length < 64) :
    ∃ e, s.sesVerify.sessionOpen = true ∧ s.sesVerify.get GH_SES_STAT GH_SES_STAT_RESULT = 0 ∧
      s.sesVerify.get GH_SES_STAT GH_SES_STAT_RIGHTS = s.gate.session.rights % 128 ∧ s.sesVerify.get GH_SES_STAT GH_SES_STAT_FAILS = 0 ∧
      s.sesVerify.gate.session.verify = none ∧ s.sesVerify.gate.queue = s.gate.queue ++ [e] ∧ e.action = 0x01 ∧
      s.quiet s.sesVerify [GH_SES_STAT, GH_LED_HEAD, GH_LED_STAT] := by
  obtain ⟨t, ht⟩ : ∃ t, s.ledgerAdd roleInstaller 4 0x01 0 [] [] 0 = some t := by
    unfold State.ledgerAdd
    exact ⟨_, if_pos hq⟩
  obtain ⟨-, htq, e, hqueue, hact, -⟩ := ledgerAdd_some ht
  have hses := session_of_offLedger (ledgerAdd_offLedger ht)
  obtain ⟨hst, hres, -⟩ := sesState_get (s := t) 2 0
  unfold State.sesVerify
  rw [if_pos hv, ht]
  dsimp only
  rw [hses]
  generalize hu : ((t.sesState 2 0).put GH_SES_STAT GH_SES_STAT_RIGHTS s.gate.session.rights).put GH_SES_STAT GH_SES_STAT_FAILS 0 = u
  have hust : u.get GH_SES_STAT GH_SES_STAT_STATE = 2 := by
    rw [← hu, get_put_apart _ _ _ _ _ (by decide) (by decide), get_put_apart _ _ _ _ _ (by decide) (by decide), hst]
  have hures : u.get GH_SES_STAT GH_SES_STAT_RESULT = 0 := by
    rw [← hu, get_put_apart _ _ _ _ _ (by decide) (by decide), get_put_apart _ _ _ _ _ (by decide) (by decide), hres]
  have huright : u.get GH_SES_STAT GH_SES_STAT_RIGHTS = s.gate.session.rights % 128 := by
    rw [← hu, get_put_apart _ _ _ _ _ (by decide) (by decide), get_put_same _ _ _ _ (by decide)]
    rfl
  have hufails : u.get GH_SES_STAT GH_SES_STAT_FAILS = 0 := by
    rw [← hu, get_put_same _ _ _ _ (by decide)]
    rfl
  have hugate : u.gate = t.gate := by
    rw [← hu, put_gate, put_gate, State.sesState, put_gate, put_gate]
  have huq : s.quiet u [GH_SES_STAT, GH_LED_HEAD, GH_LED_STAT] := by
    rw [← hu]
    exact (htq.mono (by simp)).trans
      (((((quiet_put t _ _ _).trans (quiet_put _ _ _ _)).trans (quiet_put _ _ _ _)).trans (quiet_put _ _ _ _)).mono (by simp))
  clear hu
  refine ⟨e, ?_, hures, huright, hufails, rfl, ?_, hact, huq.trans (quiet_of_same rfl rfl rfl rfl rfl rfl)⟩
  · unfold State.sessionOpen
    exact beq_iff_eq.2 hust
  · exact (congrArg Gate.queue hugate).trans hqueue

theorem sesVerify_bad (hv : ecdsaVerifyMsg s.gate.session.key s.gate.session.sig s.challenge = false) : s.sesVerify = s.sesFail 3 := by
  unfold State.sesVerify
  rw [hv, if_neg Bool.false_ne_true]

end

/-- Settles O33: `sesChallenge_granted`, `sesRespond_begun` and `sesVerify_good` follow a session to its opening, the rules of `sesClose` its
end, and `sesRefuse_spec`, `sesFail_spec` what is refused. -/
theorem sessionsComplete : Obligations.SessionsComplete := by
  unfold Obligations.SessionsComplete
  intro s now x
  refine ⟨fun src value u w hadm => ⟨fun r hop hopen hhard hlock hkey hr => ?_, fun hop hhard => ?_, fun hop hhard hst hfresh ht => ?_,
    fun hop hopen hch => ?_, fun hop hopen hch => ?_⟩, fun hver => ⟨fun hv hq => ?_, fun hv => ?_⟩, fun hidle hch => ?_,
    fun src value u w hadm hw hch => ?_⟩
  · have hrun : exec (.sessionChallenge now src value) s = .next u.sesChallenge :=
      congrArg Host.Outcome.next ((guarded_fst_of_admits hadm fun s _ => if value % 4 = 1 then s.sesChallenge else s).trans (if_pos hop))
    exact ⟨_, hrun, sesChallenge_granted hopen hhard hlock hkey hr⟩
  · have hrun : exec (.sessionRespond now src value) s = .next u.sesRespond :=
      congrArg Host.Outcome.next ((guarded_fst_of_admits hadm fun s _ => if value % 4 = 2 then s.sesRespond else s).trans (if_pos hop))
    obtain ⟨hres, hses, hq, -⟩ := sesRefuse_spec (s := u) 6
    rw [hrun, sesRespond_hard hhard]
    exact ⟨_, rfl, hres, hses, hq.1, hq.2.1⟩
  · have hrun : exec (.sessionRespond now src value) s = .next u.sesRespond :=
      congrArg Host.Outcome.next ((guarded_fst_of_admits hadm fun s _ => if value % 4 = 2 then s.sesRespond else s).trans (if_pos hop))
    exact ⟨_, hrun, sesRespond_begun hhard hst hfresh ht⟩
  · have hrun : exec (.sessionClose now src value) s = .next u.sesClose :=
      congrArg Host.Outcome.next ((guarded_fst_of_admits hadm fun s _ => if value % 4 = 3 then s.sesClose else s).trans (if_pos hop))
    obtain ⟨hshut, hr, hq⟩ := sesClose_same_spec hopen hch
    exact ⟨_, hrun, hshut, hr, hq.1, hq.2.1⟩
  · have hrun : exec (.sessionClose now src value) s = .next u.sesClose :=
      congrArg Host.Outcome.next ((guarded_fst_of_admits hadm fun s _ => if value % 4 = 3 then s.sesClose else s).trans (if_pos hop))
    exact ⟨_, hrun, sesClose_changed_spec hopen hch⟩
  · have hrun : exec (.sessionVerifyDone now) s = .next x.sesVerify := by
      simp [exec, execSessionVerifyDone, State.when, hver, x]
    have hxc : x.challenge = s.challenge := rfl
    obtain ⟨e, hopen, hres, hright, hfails, hnone, hqueue, hact, hquiet⟩ := sesVerify_good (s := x) (by rw [hxc]; exact hv) hq
    exact ⟨_, e, hrun, hopen, hres, hright, hfails, hnone, hqueue, hact, ((quiet_tick s now).mono (by simp)).trans hquiet⟩
  · have hrun : exec (.sessionVerifyDone now) s = .next x.sesVerify := by
      simp [exec, execSessionVerifyDone, State.when, hver, x]
    have hxc : x.challenge = s.challenge := rfl
    obtain ⟨hopen, hres, hfails, hnone, hquiet⟩ := sesFail_spec (s := x) 3
    rw [hrun, sesVerify_bad (by rw [hxc]; exact hv)]
    have hall := ((quiet_tick s now).mono (by simp)).trans hquiet
    exact ⟨_, rfl, hopen, hres, hfails, hnone, hall.1, hall.2.1⟩
  · have hrun : exec (.sessionIdleExpiry now) s = .next x.sesClose := by
      simp [exec, execSessionIdleExpiry, State.when, hidle, x]
    have hopen : x.sessionOpen = true := by
      unfold State.idleDue at hidle
      exact (Bool.and_eq_true_iff.1 hidle).1
    obtain ⟨hshut, hr, hq⟩ := sesClose_same_spec hopen hch
    have hall := ((quiet_tick s now).mono (by simp)).trans hq
    exact ⟨_, hrun, hshut, hr, hall.1, hall.2.1⟩
  · have hrun : exec (.ghLockHard now src value) s = .next (u.lockHard w) :=
      congrArg Host.Outcome.next (guarded_fst_of_admits hadm State.lockHard)
    obtain ⟨hlock, hshut, hq⟩ := lockHard_spec hw hch
    exact ⟨_, hrun, hlock, hshut, hq.1, hq.2.1⟩

end Sys2Proof.Machine
end

section

namespace Sys2Proof.Machine

/-! ## Boot flash (R65, R475) -/

section

variable {s t : State}

/-- Only flash, and what is drawn for it, changed. -/
def State.onlyFlash (s t : State) : Prop := t = { s with flash0 := t.flash0, flash1 := t.flash1, free := t.free }

theorem onlyFlash_refl (s : State) : s.onlyFlash s := rfl

theorem onlyFlash_trans {u : State} (h : s.onlyFlash t) (k : t.onlyFlash u) : s.onlyFlash u := by
  unfold State.onlyFlash at h k ⊢
  rw [k, h]

theorem onlyFlash_wrFlash (dev a : Nat) (b : Byte) : s.onlyFlash (s.wrFlash dev a b) := by
  unfold State.onlyFlash State.wrFlash
  split <;> rfl

theorem onlyFlash_progFlash (dev a : Nat) (bs : List Byte) : s.onlyFlash (s.progFlash dev a bs) := by
  induction bs generalizing s a with
  | nil => exact onlyFlash_refl s
  | cons b bs ih => exact onlyFlash_trans (onlyFlash_wrFlash ..) (ih _)

theorem onlyFlash_eraseFlash (dev a n : Nat) : s.onlyFlash (s.eraseFlash dev a n) := by
  induction n generalizing s a with
  | zero => exact onlyFlash_refl s
  | succ n ih => exact onlyFlash_trans (onlyFlash_wrFlash ..) (ih _)

theorem onlyFlash_freeFlash (dev a n : Nat) : s.onlyFlash (s.freeFlash dev a n) := by
  induction n generalizing s a with
  | zero => exact onlyFlash_refl s
  | succ n ih =>
    have hdraw : s.onlyFlash s.drawFree.2 := rfl
    exact onlyFlash_trans (onlyFlash_trans hdraw (onlyFlash_wrFlash ..)) (ih _)

theorem onlyFlash_ledgerWrite (dev seq : Nat) (bs : List Byte) : s.onlyFlash (s.ledgerWrite dev seq bs) := by
  unfold State.ledgerWrite
  dsimp only
  split
  · exact onlyFlash_trans (onlyFlash_eraseFlash ..) (onlyFlash_progFlash ..)
  · exact onlyFlash_progFlash ..

theorem State.onlyFlash.rd (h : s.onlyFlash t) (a : Nat) : t.rd a = s.rd a := by
  unfold State.onlyFlash at h
  rw [h]
  rfl

theorem State.onlyFlash.memSame (h : s.onlyFlash t) : s.memSame t := fun a => by
  unfold State.onlyFlash at h
  rw [h]
  rfl

theorem State.onlyFlash.otp (h : s.onlyFlash t) : t.otp = s.otp := by rw [h]
theorem State.onlyFlash.xs (h : s.onlyFlash t) : t.xs = s.xs := by rw [h]
theorem State.onlyFlash.gate (h : s.onlyFlash t) : t.gate = s.gate := by rw [h]

/-! ### One byte -/

theorem rdFlash_wrFlash_same (dev a : Nat) (b : Byte) : (s.wrFlash dev a b).rdFlash dev a = b := by
  unfold State.wrFlash State.rdFlash
  split <;> exact tget_tset_same ..

theorem rdFlash_wrFlash_ne {dev a d x : Nat} (b : Byte) (h : ¬(d = 0 ↔ dev = 0) ∨ x ≠ a) : (s.wrFlash dev a b).rdFlash d x = s.rdFlash d x := by
  unfold State.wrFlash State.rdFlash
  by_cases hd : d = 0 <;> by_cases hdev : dev = 0 <;> simp only [hd, hdev, iff_self, not_true_eq_false, false_or, if_true, if_false] at h ⊢
  · exact tget_tset_ne _ _ _ h
  · exact tget_tset_ne _ _ _ h

/-! ### Ranges of bytes -/

/-- Outside n bytes from a on device `dev`. -/
def offSpan (dev a n d x : Nat) : Prop := ¬(d = 0 ↔ dev = 0) ∨ x < a ∨ a + n ≤ x

theorem offSpan_of_lt_two {dev a n d x : Nat} (hdev : dev < 2) (hd : d < 2) (h : d ≠ dev ∨ x < a ∨ a + n ≤ x) : offSpan dev a n d x := by
  unfold offSpan
  omega

theorem rdFlash_progFlash_off {dev a d x : Nat} {bs : List Byte} (h : offSpan dev a bs.length d x) :
    (s.progFlash dev a bs).rdFlash d x = s.rdFlash d x := by
  induction bs generalizing s a with
  | nil => rfl
  | cons b bs ih =>
    rw [offSpan, List.length_cons] at h
    exact (ih (by unfold offSpan; omega)).trans (rdFlash_wrFlash_ne _ (by omega))

theorem rdFlash_progFlash_in {dev a i : Nat} {bs : List Byte} (h : i < bs.length) :
    (s.progFlash dev a bs).rdFlash dev (a + i) = s.rdFlash dev (a + i) &&& bs.getD i 0 := by
  induction bs generalizing s a i with
  | nil => exact absurd h (Nat.not_lt_zero i)
  | cons b bs ih =>
    cases i with
    | zero =>
      exact (rdFlash_progFlash_off (s := s.wrFlash dev a (s.rdFlash dev a &&& b)) (a := a + 1) (.inr (.inl (Nat.lt_succ_self a)))).trans
        (rdFlash_wrFlash_same ..)
    | succ i =>
      have hi := ih (s := s.wrFlash dev a (s.rdFlash dev a &&& b)) (a := a + 1) (Nat.lt_of_succ_lt_succ h)
      rw [Nat.add_assoc, Nat.add_comm 1 i] at hi
      rw [rdFlash_wrFlash_ne _ (by omega)] at hi
      exact hi

theorem rdFlash_eraseFlash_off {dev a n d x : Nat} (h : offSpan dev a n d x) : (s.eraseFlash dev a n).rdFlash d x = s.rdFlash d x := by
  induction n generalizing s a with
  | zero => rfl
  | succ n ih =>
    unfold offSpan at h
    exact (ih (by unfold offSpan; omega)).trans (rdFlash_wrFlash_ne _ (by omega))

theorem rdFlash_eraseFlash_in {dev a n i : Nat} (h : i < n) : (s.eraseFlash dev a n).rdFlash dev (a + i) = 0xFF := by
  induction n generalizing s a i with
  | zero => exact absurd h (Nat.not_lt_zero i)
  | succ n ih =>
    cases i with
    | zero =>
      exact (rdFlash_eraseFlash_off (s := s.wrFlash dev a 0xFF) (a := a + 1) (.inr (.inl (Nat.lt_succ_self a)))).trans (rdFlash_wrFlash_same ..)
    | succ i =>
      have hi := ih (s := s.wrFlash dev a 0xFF) (a := a + 1) (Nat.lt_of_succ_lt_succ h)
      rwa [Nat.add_assoc, Nat.add_comm 1 i] at hi

theorem rdFlash_freeFlash_off {dev a n d x : Nat} (h : offSpan dev a n d x) : (s.freeFlash dev a n).rdFlash d x = s.rdFlash d x := by
  induction n generalizing s a with
  | zero => rfl
  | succ n ih =>
    unfold offSpan at h
    refine (ih (by unfold offSpan; omega)).trans ((rdFlash_wrFlash_ne _ (by omega)).trans ?_)
    rfl

end

end Sys2Proof.Machine
end

section

namespace Sys2Proof.Machine

/-! ## Buffers of words -/

section

variable {s t : State}

theorem flatMap_bytesAt (bs : List Byte) (n : Nat) (h : bs.length = 4 * n) : ((List.range n).flatMap fun k => bytesAt bs (4 * k) 4) = bs := by
  have hone : ∀ k < n, bytesAt bs (4 * k) 4 = (bs.drop (4 * k)).take 4 := fun k hk => by
    refine List.ext_getElem (by simp [bytesAt]; omega) fun i hi hi' => ?_
    simp only [bytesAt, List.length_map, List.length_range] at hi
    simp [bytesAt, List.getD_eq_getElem?_getD, List.getElem?_eq_getElem (show 4 * k + i < bs.length by omega)]
  have hall : ∀ m ≤ n, ((List.range m).flatMap fun k => bytesAt bs (4 * k) 4) = bs.take (4 * m) := fun m hm => by
    induction m with
    | zero => rfl
    | succ m ih =>
      rw [List.range_succ, List.flatMap_append, ih (by omega), List.flatMap_singleton, hone m (by omega), ← List.take_add]
      rfl
  rw [hall n le_rfl, ← h, List.take_length]

/-- Words written are read back. -/
theorem putWords_rdN {base k : Nat} {bs : List Byte} (h : k < bs.length / 4) : (s.putWords base bs).rdN (base + 4 * k) = fieldAt bs (4 * k) 4 := by
  have hlt : ∀ k, fieldAt bs (4 * k) 4 % 2 ^ 32 = fieldAt bs (4 * k) 4 := fun k => by
    have hl : (bytesAt bs (4 * k) 4).length = 4 := by simp [bytesAt]
    exact Nat.mod_eq_of_lt ((leNat_lt _).trans_eq (by rw [hl]; norm_num))
  refine foldl_all_of_stable (P := fun u k => u.rdN (base + 4 * k) = fieldAt bs (4 * k) 4) (f := fun s k => s.wrN (base + 4 * k) (fieldAt bs (4 * k) 4))
    (fun u k _ => (rdN_wrN_same ..).trans (hlt k)) (fun u j _ k _ hu => ?_) s k (List.mem_range.2 h)
  obtain rfl | hne := eq_or_ne k j
  · exact (rdN_wrN_same ..).trans (hlt k)
  · have ha : base + 4 * k ≠ base + 4 * j := by omega
    exact (congrArg BitVec.toNat (rd_wrN_ne u _ ha)).trans hu

theorem wordsBytes_congr {base n : Nat} (h : ∀ k < n, t.rdN (base + 4 * k) = s.rdN (base + 4 * k)) : wordsBytes t base n = wordsBytes s base n := by
  unfold wordsBytes
  refine List.flatMap_congr fun k hk => ?_
  rw [h k (List.mem_range.1 hk)]

theorem wordsBytes_putWords {base n : Nat} {bs : List Byte} (h : bs.length = 4 * n) : wordsBytes (s.putWords base bs) base n = bs := by
  have hword : ∀ k ∈ List.range n, leBytes 4 ((s.putWords base bs).rdN (base + 4 * k)) = bytesAt bs (4 * k) 4 := fun k hk => by
    rw [putWords_rdN (by have := List.mem_range.1 hk; omega), leBytes_fieldAt]
  unfold wordsBytes
  rw [List.flatMap_congr hword, flatMap_bytesAt bs n h]

theorem length_wordsBytes (base n : Nat) : (wordsBytes s base n).length = 4 * n := by
  simp [wordsBytes, length_leBytes, List.length_flatMap]
  omega

end

end Sys2Proof.Machine
end

section

namespace Sys2Proof.Machine

/-! ## Commands on the boot flash bus (R475, R500) -/

section

variable {s t u : State}

theorem xsCode_spec (code : Nat) : (s.xsCode code).get XS_STAT XS_STAT_CODE = code % 16 ∧ (s.xsCode code).get XS_STAT XS_STAT_BUSY = 0 ∧
    (s.xsCode code).xs = s.xs ∧ s.quiet (s.xsCode code) [XS_STAT] := by
  unfold State.xsCode
  refine ⟨?_, get_put_same _ _ _ _ (by decide), ?_, (quiet_put s _ _ _).trans (quiet_put _ _ _ _)⟩
  · rw [get_put_apart _ _ _ _ _ (by decide) (by decide), get_put_same _ _ _ _ (by decide)]
    rfl
  · rw [put_xs, put_xs]

theorem quiet_rdFlash {but : List Nat} (h : s.quiet t but) (dev a : Nat) : t.rdFlash dev a = s.rdFlash dev a := by
  obtain ⟨-, ⟨h0, h1, -⟩, -⟩ := h
  unfold State.rdFlash
  rw [h0, h1]

/-- The command is off the bus. -/
def State.xsOff (s : State) : State := { s with xs := none }

theorem xsOff_quiet (but : List Nat) : s.quiet s.xsOff but := quiet_of_same rfl rfl rfl rfl rfl rfl

/-- What a command that changes flash leaves, once its CODE is shown. -/
theorem xsEnd_spec (h : s.xsOff.onlyFlash t) (code : Nat) : (t.xsCode code).xs = none ∧ (t.xsCode code).get XS_STAT XS_STAT_CODE = code % 16 ∧
    (t.xsCode code).get XS_STAT XS_STAT_BUSY = 0 ∧ (∀ dev a, (t.xsCode code).rdFlash dev a = t.rdFlash dev a) ∧ s.memSame (t.xsCode code) ∧
    (t.xsCode code).otp = s.otp ∧ s.regsSame (t.xsCode code) [XS_STAT] := by
  obtain ⟨hcode, hbusy, hxs, hq⟩ := xsCode_spec (s := t) code
  refine ⟨hxs.trans h.xs, hcode, hbusy, quiet_rdFlash hq, fun a => (hq.1 a).trans (h.memSame a), ?_, fun a ha hb => (hq.2.2 a ha hb).trans (h.rd a)⟩
  exact hq.2.1.2.2.trans h.otp

/-! ### The end of a command -/

theorem xsDone_program {j : XsJob} (hx : s.xs = some j) (h2 : j.op = 2) : s.xsDone false = (s.xsOff.progFlash j.cs j.addr j.data).xsCode 0 := by
  unfold State.xsDone
  rw [hx]
  simp only [h2]
  rfl

theorem xsDone_erase {j : XsJob} (hx : s.xs = some j) (h3 : j.op = 3) :
    s.xsDone false = (s.xsOff.eraseFlash j.cs (xsSpan j.op j.addr j.len).1 4096).xsCode 0 := by
  unfold State.xsDone
  rw [hx]
  simp only [h3, State.xsOff, Nat.reduceEqDiff, Bool.false_eq_true, if_false]

theorem xsDone_failed {j : XsJob} (hx : s.xs = some j) (h1 : j.op ≠ 1) :
    s.xsDone true = (s.xsOff.freeFlash j.cs (xsSpan j.op j.addr j.len).1 (xsSpan j.op j.addr j.len).2).xsCode 2 := by
  unfold State.xsDone
  rw [hx]
  simp only [h1, if_false, if_true]
  rfl

theorem xsTimeout_eq {j : XsJob} (hx : s.xs = some j) :
    s.xsTimeout = (s.xsOff.freeFlash j.cs (xsSpan j.op j.addr j.len).1 (xsSpan j.op j.addr j.len).2).xsCode 3 := by
  unfold State.xsTimeout
  rw [hx]
  rfl

theorem drawBytes_only (n : Nat) : s.onlyFlash (s.drawBytes n).2 := by
  induction n generalizing s with
  | zero => exact onlyFlash_refl s
  | succ n ih => exact onlyFlash_trans (rfl : s.onlyFlash s.drawFree.2) ih

theorem drawBytes_flash (n : Nat) : (s.drawBytes n).2.flash0 = s.flash0 ∧ (s.drawBytes n).2.flash1 = s.flash1 := by
  induction n generalizing s with
  | zero => exact ⟨rfl, rfl⟩
  | succ n ih => exact ih (s := s.drawFree.2)

theorem drawBytes_quiet (n : Nat) (but : List Nat) : s.quiet (s.drawBytes n).2 but := by
  have h := drawBytes_only (s := s) n
  obtain ⟨h0, h1⟩ := drawBytes_flash (s := s) n
  exact ⟨h.memSame, ⟨h0, h1, h.otp⟩, fun a _ _ => h.rd a⟩

/-- What a finished read puts in its buffer. -/
def State.xsReadBuf (s : State) (j : XsJob) (devErr : Bool) : List Byte :=
  (s.xsReadBytes j devErr).1 ++ (wordsBytes s (XS_BUF 0) 64).drop j.len

theorem xsDone_read {j : XsJob} (hx : s.xs = some j) (h1 : j.op = 1) (devErr : Bool) :
    s.xsDone devErr = ((s.xsOff.xsReadBytes j devErr).2.putWords (XS_BUF 0) (s.xsOff.xsReadBuf j devErr)).xsCode (if devErr then 2 else 0) := by
  unfold State.xsDone
  rw [hx]
  simp only [h1, if_true]
  rfl

theorem xsReadBytes_quiet (j : XsJob) (devErr : Bool) (but : List Nat) : s.quiet (s.xsReadBytes j devErr).2 but := by
  unfold State.xsReadBytes
  split
  · exact drawBytes_quiet ..
  · exact quiet_refl ..

theorem xsReadBytes_xs (j : XsJob) (devErr : Bool) : (s.xsReadBytes j devErr).2.xs = s.xs := by
  unfold State.xsReadBytes
  split
  · exact (drawBytes_only _).xs
  · rfl

theorem putWords_xs (base : Nat) (bs : List Byte) : (s.putWords base bs).xs = s.xs :=
  foldl_same State.xs (f := fun s k => s.wrN (base + 4 * k) (fieldAt bs (4 * k) 4)) (fun _ _ => wrN_xs ..) _ s

/-- A read ends with its CODE and changes neither memory nor flash. -/
theorem xsDone_read_spec {j : XsJob} (hx : s.xs = some j) (h1 : j.op = 1) (devErr : Bool) : (s.xsDone devErr).xs = none ∧
    (s.xsDone devErr).get XS_STAT XS_STAT_CODE = (if devErr then 2 else 0) ∧ (s.xsDone devErr).get XS_STAT XS_STAT_BUSY = 0 ∧
    s.memSame (s.xsDone devErr) ∧ s.storeSame (s.xsDone devErr) := by
  rw [xsDone_read hx h1]
  obtain ⟨hcode, hbusy, hxs, hq⟩ :=
    xsCode_spec (s := (s.xsOff.xsReadBytes j devErr).2.putWords (XS_BUF 0) (s.xsOff.xsReadBuf j devErr)) (if devErr then 2 else 0)
  have hp := putWords_quiet (s := (s.xsOff.xsReadBytes j devErr).2) (XS_BUF 0) (s.xsOff.xsReadBuf j devErr)
  have hall := quiet_trans (quiet_trans ((xsOff_quiet (s := s) []).trans (xsReadBytes_quiet j devErr [])) hp) hq
  refine ⟨?_, ?_, hbusy, hall.1, hall.2.1⟩
  · rw [hxs, putWords_xs, xsReadBytes_xs]
    rfl
  · rw [hcode]
    cases devErr <;> rfl

theorem length_xsReadBuf {j : XsJob} (hl : j.len ≤ 256) : (s.xsReadBuf j false).length = 4 * 64 := by
  have hr : (s.xsReadBytes j false).1.length = j.len := by simp [State.xsReadBytes, State.rdFlashN]
  rw [State.xsReadBuf, List.length_append, List.length_drop, length_wordsBytes, hr]
  omega

/-- A good read brings the device's bytes into the buffer. -/
theorem xsDone_read_buf {j : XsJob} (hx : s.xs = some j) (h1 : j.op = 1) (hl : j.len ≤ 256) :
    (wordsBytes (s.xsDone false) (XS_BUF 0) 64).take j.len = s.rdFlashN j.cs j.addr j.len := by
  rw [xsDone_read hx h1]
  obtain ⟨-, -, -, hq⟩ := xsCode_spec (s := (s.xsOff.xsReadBytes j false).2.putWords (XS_BUF 0) (s.xsOff.xsReadBuf j false)) (if false then 2 else 0)
  rw [wordsBytes_congr (fun k hk => hq.rdN (lostCounter_eq_false fun p _ => by simp only [XS_BUF, HP_EV_STAT]; omega)
    (by simp [XS_BUF, XS_STAT]; omega)), wordsBytes_putWords (length_xsReadBuf hl)]
  exact List.take_left' (by simp [State.xsReadBytes, State.rdFlashN])

/-! ### The start of a command -/

/-- With room in its queue the ledger takes an entry. -/
theorem ledgerAdd_room (h : s.gate.queue.length < 64) (role source action target : Nat) (old new : List Byte) (result : Nat) :
    ∃ (t : State) (e : Ledger), s.ledgerAdd role source action target old new result = some t ∧ t.gate.queue = s.gate.queue ++ [e] ∧
      e.action = action ∧ e.target = target ∧ s.quiet t [GH_LED_HEAD, GH_LED_STAT] := by
  obtain ⟨t, e, ht, hqueue, hact, htgt⟩ : ∃ (t : State) (e : Ledger), s.ledgerAdd role source action target old new result = some t ∧
      t.gate.queue = s.gate.queue ++ [e] ∧ e.action = action ∧ e.target = target := by
    unfold State.ledgerAdd
    exact ⟨_, _, if_pos h, rfl, rfl, rfl⟩
  exact ⟨t, e, ht, hqueue, hact, htgt, (ledgerAdd_some ht).2.1⟩

/-- The job a command starts. -/
def State.xsJob (s : State) (op cs len addr : Nat) (data : List Byte) : XsJob :=
  { op := op, cs := cs, len := len, addr := addr, data := data, at_ := s.dtime }

theorem xsBegin_spec (op cs len addr : Nat) (data : List Byte) : (s.xsBegin op cs len addr data).xs = some (s.xsJob op cs len addr data) ∧
    (s.xsBegin op cs len addr data).get XS_STAT XS_STAT_BUSY = 1 ∧ (s.xsBegin op cs len addr data).gate = s.gate ∧
    s.quiet (s.xsBegin op cs len addr data) [XS_STAT] := by
  unfold State.xsBegin
  refine ⟨rfl, ?_, put_gate s XS_STAT XS_STAT_BUSY 1, (quiet_put s XS_STAT XS_STAT_BUSY 1).trans (quiet_of_same rfl rfl rfl rfl rfl rfl)⟩
  have hput : (s.put XS_STAT XS_STAT_BUSY 1).get XS_STAT XS_STAT_BUSY = 1 := by
    rw [get_put_same _ _ _ _ (by decide)]
    rfl
  exact hput

/-- A command is in its register before anything else. -/
theorem xsCmd_data (w : Word) : (s.wr XS_CMD w).rdN XS_ADDR = s.rdN XS_ADDR ∧
    wordsBytes (s.wr XS_CMD w) (XS_BUF 0) 64 = wordsBytes s (XS_BUF 0) 64 := by
  refine ⟨congrArg BitVec.toNat (rd_wr_ne s w (by decide)), wordsBytes_congr fun k hk => congrArg BitVec.toNat (rd_wr_ne s w ?_)⟩
  simp only [XS_BUF, XS_CMD, ne_eq]
  omega

theorem xsArgsOk_wr (w : Word) (op cs len addr : Nat) : (s.wr XS_CMD w).xsArgsOk op cs len addr = s.xsArgsOk op cs len addr := by
  have hon : (s.wr XS_CMD w).on XS_STAT XS_STAT_FLASH1 = s.on XS_STAT XS_STAT_FLASH1 := congrArg (· != 0) (get_wr_ne s w _ (by decide))
  unfold State.xsArgsOk
  rw [hon]

theorem xsRefused_wr (w : Word) (op cs addr len : Nat) : (s.wr XS_CMD w).xsRefused op cs addr len = s.xsRefused op cs addr len := by
  unfold State.xsRefused
  rw [wr_boot, wr_power, wr_park, wr_locket]

section

variable {w : Word} (hargs : s.xsArgsOk (getField w XS_CMD_OP) (getField w XS_CMD_CS) (getField w XS_CMD_LEN) (s.rdN XS_ADDR) = true)
  (href : s.xsRefused (getField w XS_CMD_OP) (getField w XS_CMD_CS) (s.rdN XS_ADDR) (getField w XS_CMD_LEN) = false)

include hargs href

theorem xsCmd_read (hop : getField w XS_CMD_OP = 1) :
    (s.xsCmd w).1 = (s.wr XS_CMD w).xsBegin 1 (getField w XS_CMD_CS) (getField w XS_CMD_LEN) (s.rdN XS_ADDR) [] := by
  obtain ⟨haddr, -⟩ := xsCmd_data (s := s) w
  rw [← xsArgsOk_wr w] at hargs
  rw [← xsRefused_wr w] at href
  unfold State.xsCmd
  dsimp only
  rw [haddr, hargs, href, Bool.not_true, if_neg Bool.false_ne_true, if_neg Bool.false_ne_true, if_pos hop, hop]

/-- A session's change is noted. -/
def State.sesMarked (s : State) : State :=
  { s with gate := { s.gate with session := { s.gate.session with changed := s.gate.session.changed || s.sessionOpen } } }

/-- A program or erase is entered in the ledger and starts. -/
theorem xsCmd_change (hop : getField w XS_CMD_OP ≠ 1) (hq : s.gate.queue.length < 64) :
    ∃ v : State, ∃ e : Ledger, (s.xsCmd w).1 = v.sesMarked.xsBegin (getField w XS_CMD_OP) (getField w XS_CMD_CS) (getField w XS_CMD_LEN) (s.rdN XS_ADDR)
        ((wordsBytes s (XS_BUF 0) 64).take (getField w XS_CMD_LEN)) ∧
      v.gate.queue = s.gate.queue ++ [e] ∧ e.action = (if getField w XS_CMD_OP = 2 then 0x20 else 0x21) ∧ e.target = s.rdN XS_ADDR ∧
      s.quiet v [XS_CMD, GH_LED_HEAD, GH_LED_STAT] := by
  obtain ⟨haddr, hdata⟩ := xsCmd_data (s := s) w
  rw [← xsArgsOk_wr w] at hargs
  rw [← xsRefused_wr w] at href
  have hqueue : (s.wr XS_CMD w).gate.queue.length < 64 := hq
  obtain ⟨v, e, hadd, hvq, hact, htgt, hquiet⟩ := ledgerAdd_room hqueue (s.wr XS_CMD w).xsRole 4
    (if getField w XS_CMD_OP = 2 then 0x20 else 0x21) (s.rdN XS_ADDR)
    (if getField w XS_CMD_OP = 2 then (s.wr XS_CMD w).rdFlashN (getField w XS_CMD_CS) (s.rdN XS_ADDR) (getField w XS_CMD_LEN) else [])
    (if getField w XS_CMD_OP = 2 then (wordsBytes s (XS_BUF 0) 64).take (getField w XS_CMD_LEN) else []) 0
  refine ⟨v, e, ?_, hvq, hact, htgt, ((quiet_wr s XS_CMD w).mono (by simp)).trans (hquiet.mono (by simp))⟩
  unfold State.xsCmd
  dsimp only
  rw [haddr, hdata, hargs, href, Bool.not_true, if_neg Bool.false_ne_true, if_neg Bool.false_ne_true, if_neg hop, hadd]
  rfl

end

theorem sesMarked_quiet (but : List Nat) : s.quiet s.sesMarked but := quiet_of_same rfl rfl rfl rfl rfl rfl

/-- What a program or erase leaves when it starts. -/
theorem xsCmd_change_spec {w : Word}
    (hargs : s.xsArgsOk (getField w XS_CMD_OP) (getField w XS_CMD_CS) (getField w XS_CMD_LEN) (s.rdN XS_ADDR) = true)
    (href : s.xsRefused (getField w XS_CMD_OP) (getField w XS_CMD_CS) (s.rdN XS_ADDR) (getField w XS_CMD_LEN) = false)
    (hop : getField w XS_CMD_OP ≠ 1) (hq : s.gate.queue.length < 64) :
    ∃ (j : XsJob) (e : Ledger), (s.xsCmd w).1.xs = some j ∧ j.op = getField w XS_CMD_OP ∧ j.cs = getField w XS_CMD_CS ∧ j.addr = s.rdN XS_ADDR ∧
      j.data = (wordsBytes s (XS_BUF 0) 64).take (getField w XS_CMD_LEN) ∧ (s.xsCmd w).1.gate.queue = s.gate.queue ++ [e] ∧
      e.action = (if getField w XS_CMD_OP = 2 then 0x20 else 0x21) ∧ e.target = s.rdN XS_ADDR ∧
      (s.xsCmd w).1.get XS_STAT XS_STAT_BUSY = 1 ∧ s.quiet (s.xsCmd w).1 [XS_CMD, XS_STAT, GH_LED_HEAD, GH_LED_STAT] := by
  obtain ⟨v, e, hrun, hqueue, hact, htgt, hquiet⟩ := xsCmd_change hargs href hop hq
  obtain ⟨hxs, hbusy, hgate, hb⟩ := xsBegin_spec (s := v.sesMarked) (getField w XS_CMD_OP) (getField w XS_CMD_CS) (getField w XS_CMD_LEN) (s.rdN XS_ADDR)
    ((wordsBytes s (XS_BUF 0) 64).take (getField w XS_CMD_LEN))
  rw [hrun]
  have hmark : v.sesMarked.gate.queue = v.gate.queue := rfl
  exact ⟨_, e, hxs, rfl, rfl, rfl, rfl, (congrArg Gate.queue hgate).trans (hmark.trans hqueue), hact, htgt, hbusy,
    ((hquiet.trans (sesMarked_quiet _)).mono (by simp)).trans (hb.mono (by simp))⟩

/-- A write of XS_CMD that is not the supervisor's without the right runs the command. -/
theorem xsWrite_admitted {src : Src} {value : Nat} {w : Word} (hadm : s.admits src XS_CMD value = some (u, w))
    (hright : src = .sup → getField (BitVec.ofNat 32 value) XS_CMD_OP = 2 ∨ getField (BitVec.ofNat 32 value) XS_CMD_OP = 3 → s.xsRight = true) :
    s.xsWrite src value = u.xsCmd w := by
  have hdec : ∃ r, decideWrite noAdm s src XS_CMD value = .inr (u, w, r) := by
    have halias : s.aliasAddr XS_CMD = XS_CMD := rfl
    unfold State.admits at hadm
    rw [halias] at hadm
    split at hadm
    · rename_i r heq
      obtain ⟨rfl, rfl⟩ := Prod.mk.inj (Option.some.inj hadm)
      exact ⟨r, heq⟩
    · exact absurd hadm nofun
  obtain ⟨r, hdec⟩ := hdec
  unfold State.xsWrite
  dsimp only
  rw [if_neg, hdec]
  rintro ⟨hsup, -, hop, hno⟩
  rw [hright hsup hop] at hno
  exact absurd hno nofun

end

/-- Settles O31: `xsWrite_admitted` runs an admitted command, `xsCmd_read` and `xsCmd_change_spec` start it, and the rules of flash say what
its end leaves. -/
theorem flashCommandsComplete : Obligations.FlashCommandsComplete := by
  unfold Obligations.FlashCommandsComplete
  refine ⟨fun s now src value u w hadm hsame => ?_, fun s now j hx hcs => ?_⟩
  · intro op cs len addr hargs href
    refine ⟨fun hop => ?_, fun hright hq => ⟨fun hop => ?_, fun hop => ?_⟩⟩
    · have hw : (s.tick now).xsWrite src value = u.xsCmd w := xsWrite_admitted hadm fun _ h => by
        rw [hsame, show getField w XS_CMD_OP = 1 from hop] at h
        omega
      have hrun : exec (.xsRead now src value) s = .next (u.xsCmd w).1 := congrArg (fun x : State × RStat => Host.Outcome.next x.1) hw
      rw [hrun, xsCmd_read hargs href hop]
      obtain ⟨hxs, hbusy, -, hb⟩ := xsBegin_spec (s := u.wr XS_CMD w) 1 cs len addr []
      exact ⟨_, _, rfl, hxs, rfl, rfl, rfl, rfl, hbusy, ((quiet_wr u XS_CMD w).mono (by simp)).trans (hb.mono (by simp))⟩
    · have hw : (s.tick now).xsWrite src value = u.xsCmd w := xsWrite_admitted hadm fun hs _ => hright hs
      have hrun : exec (.xsProgram now src value) s = .next (u.xsCmd w).1 := congrArg (fun x : State × RStat => Host.Outcome.next x.1) hw
      have hne : getField w XS_CMD_OP ≠ 1 := fun h => by omega
      obtain ⟨j, e, hxs, hjop, hjcs, hja, hjd, hqueue, hact, htgt, hbusy, hquiet⟩ := xsCmd_change_spec hargs href hne hq
      exact ⟨_, j, e, hrun, hxs, hjop.trans hop, hjcs, hja, hjd, hqueue, hact.trans (if_pos hop), htgt, hbusy, hquiet⟩
    · have hw : (s.tick now).xsWrite src value = u.xsCmd w := xsWrite_admitted hadm fun hs _ => hright hs
      have hrun : exec (.xsErase now src value) s = .next (u.xsCmd w).1 := congrArg (fun x : State × RStat => Host.Outcome.next x.1) hw
      have hne : getField w XS_CMD_OP ≠ 1 := fun h => by omega
      have hne2 : getField w XS_CMD_OP ≠ 2 := fun h => by omega
      obtain ⟨j, e, hxs, hjop, hjcs, hja, -, hqueue, hact, htgt, hbusy, hquiet⟩ := xsCmd_change_spec hargs href hne hq
      exact ⟨_, j, e, hrun, hxs, hjop.trans hop, hjcs, hja, hqueue, hact.trans (if_neg hne2), htgt, hbusy, hquiet⟩
  · intro sp
    have hxt : (s.tick now).xs = some j := hx
    have hdone : ∀ err, s.islUp islXspi = true → exec (.xsCommandDone now err) s = .next ((s.tick now).xsDone err) := fun err hup => by
      simp [exec, execXsCommandDone, State.when, hup, hx]
    refine ⟨fun hup => ⟨fun h1 hl => ?_, fun h2 => ?_, fun h3 => ?_⟩, fun hup => ?_, fun hlate => ?_⟩
    · obtain ⟨hnone, hcode, hbusy, hmem, hstore⟩ := xsDone_read_spec hxt h1 false
      exact ⟨_, hdone false hup, hnone, hcode, hbusy, xsDone_read_buf hxt h1 hl, hmem, hstore⟩
    · have hf : (s.tick now).xsOff.onlyFlash ((s.tick now).xsOff.progFlash j.cs j.addr j.data) := onlyFlash_progFlash ..
      obtain ⟨hnone, hcode, -, hflash, hmem, hotp, hregs⟩ := xsEnd_spec hf 0
      rw [hdone false hup, xsDone_program hxt h2]
      refine ⟨_, rfl, hnone, hcode, fun i hi => ?_, fun dev a hdev ha => ?_, hmem, hotp, hregs⟩
      · rw [hflash, rdFlash_progFlash_in hi]
        rfl
      · rw [hflash, rdFlash_progFlash_off (offSpan_of_lt_two hcs hdev ha)]
        rfl
    · have hf : (s.tick now).xsOff.onlyFlash ((s.tick now).xsOff.eraseFlash j.cs sp.1 4096) := onlyFlash_eraseFlash ..
      obtain ⟨hnone, hcode, -, hflash, hmem, hotp, hregs⟩ := xsEnd_spec hf 0
      rw [hdone false hup, xsDone_erase hxt h3]
      refine ⟨_, rfl, hnone, hcode, fun i hi => ?_, fun dev a hdev ha => ?_, hmem, hotp, hregs⟩
      · rw [hflash, rdFlash_eraseFlash_in hi]
      · rw [hflash, rdFlash_eraseFlash_off (offSpan_of_lt_two hcs hdev ha)]
        rfl
    · rw [hdone true hup]
      by_cases h1 : j.op = 1
      · obtain ⟨hnone, hcode, hbusy, hmem, hstore⟩ := xsDone_read_spec hxt h1 true
        have hflash : ∀ dev a, ((s.tick now).xsDone true).rdFlash dev a = s.rdFlash dev a := fun dev a => by
          unfold State.rdFlash
          rw [hstore.1, hstore.2.1]
          rfl
        exact ⟨_, rfl, hnone, hcode, hbusy, fun _ => hstore, fun dev a _ _ => hflash dev a, hmem, hstore.2.2⟩
      · have hf : (s.tick now).xsOff.onlyFlash ((s.tick now).xsOff.freeFlash j.cs sp.1 sp.2) := onlyFlash_freeFlash ..
        obtain ⟨hnone, hcode, hbusy, hflash, hmem, hotp, -⟩ := xsEnd_spec hf 2
        rw [xsDone_failed hxt h1]
        refine ⟨_, rfl, hnone, hcode, hbusy, fun h => absurd h h1, fun dev a hdev ha => ?_, hmem, hotp⟩
        rw [hflash, rdFlash_freeFlash_off (offSpan_of_lt_two hcs hdev ha)]
        rfl
    · have hrun : exec (.xsCommandTimeout now) s = .next (s.tick now).xsTimeout := by
        simp [exec, execXsCommandTimeout, State.when, hlate]
      have hf : (s.tick now).xsOff.onlyFlash ((s.tick now).xsOff.freeFlash j.cs sp.1 sp.2) := onlyFlash_freeFlash ..
      obtain ⟨hnone, hcode, hbusy, hflash, hmem, hotp, hregs⟩ := xsEnd_spec hf 3
      rw [hrun, xsTimeout_eq hxt]
      refine ⟨_, rfl, hnone, hcode, hbusy, fun dev a hdev ha => ?_, hmem, hotp, hregs⟩
      rw [hflash, rdFlash_freeFlash_off (offSpan_of_lt_two hcs hdev ha)]
      rfl

end Sys2Proof.Machine
end

section

namespace Sys2Proof.Machine

/-! ## The Gatehouse's own work (R502 to R512) -/

section

variable {s t u : State}

/-! ### The key hash (R502) -/

theorem ikhProgram_begun {w : Word} (hw : getField w GH_IKH_CTRL_PROGRAM = 1) (hph : s.boot.phase = .noImage) (hikh : s.otp.ikh = none) :
    (s.ikhProgram w).gate.ikhBusy = true ∧ (s.ikhProgram w).get GH_IKH_CTRL GH_IKH_CTRL_PROGRAM = 1 ∧ s.quiet (s.ikhProgram w) [GH_IKH_CTRL] := by
  have hc : (decide (s.boot.phase = .noImage) && s.otp.ikh.isNone) = true := by simp [hph, hikh]
  unfold State.ikhProgram
  rw [if_pos hw, if_pos hc]
  exact ⟨rfl, get_put_same s _ _ _ (by decide), (quiet_put s GH_IKH_CTRL GH_IKH_CTRL_PROGRAM 1).trans (quiet_of_same rfl rfl rfl rfl rfl rfl)⟩

theorem ikhProgram_again {w : Word} (hw : getField w GH_IKH_CTRL_PROGRAM = 1) (hikh : s.otp.ikh ≠ none) :
    (s.ikhProgram w).gate.ikhBusy = s.gate.ikhBusy ∧ (s.ikhProgram w).get GH_STAT GH_STAT_WO_REWRITE = 1 ∧ s.memSame (s.ikhProgram w) ∧
      s.storeSame (s.ikhProgram w) := by
  have hc : (decide (s.boot.phase = .noImage) && s.otp.ikh.isNone) = false := by
    obtain ⟨h, hh⟩ := Option.ne_none_iff_exists.1 hikh
    simp [← hh]
  unfold State.ikhProgram
  rw [if_pos hw, hc, if_neg Bool.false_ne_true]
  have hq := ledgerRefusal_quiet (s.put GH_STAT GH_STAT_WO_REWRITE 1) roleInstaller 4 0x31 (GH_IKH 0) [] (wordsBytes s (GH_IKH 0) 8)
  have hall := quiet_trans (quiet_put s GH_STAT GH_STAT_WO_REWRITE 1) hq
  have hoff := ledgerRefusal_offLedger (s := s.put GH_STAT GH_STAT_WO_REWRITE 1) roleInstaller 4 0x31 (GH_IKH 0) [] (wordsBytes s (GH_IKH 0) 8)
  rw [put_gate] at hoff
  refine ⟨(congrArg Gate.ikhBusy hoff : _ = s.gate.offLedger.ikhBusy), ?_, hall.1, hall.2.1⟩
  rw [hq.get (by decide) (by decide), get_put_same _ _ _ _ (by decide)]
  rfl

/-- OTP with the key hash. -/
def State.ikhStored (s : State) : State :=
  { s with
    otp := { s.otp with ikh := some (wordsBytes s (GH_IKH 0) 8), count := (s.otp.count + 1) % 2 ^ 32 }
    gate := { s.gate with ikhBusy := false } }

theorem ikhDone_eq : s.ikhDone = (((s.ikhStored.put GH_STAT GH_STAT_LOCKED 1).put GH_IKH_CTRL GH_IKH_CTRL_PROGRAM 0).wrN GH_OTP_CNT
    ((s.ikhStored.put GH_STAT GH_STAT_LOCKED 1).put GH_IKH_CTRL GH_IKH_CTRL_PROGRAM 0).otp.count).ledgerDone roleInstaller 4 0x30 (GH_IKH 0) []
      (wordsBytes s (GH_IKH 0) 8) := rfl

/-- The programming's end stores the hash and locks. -/
theorem ikhDone_spec : s.ikhDone.otp.ikh = some (wordsBytes s (GH_IKH 0) 8) ∧ s.ikhDone.otp.count = (s.otp.count + 1) % 2 ^ 32 ∧
    s.ikhDone.locked = true ∧ s.ikhDone.gate.ikhBusy = false ∧ s.memSame s.ikhDone ∧ s.ikhDone.flash0 = s.flash0 ∧
    s.ikhDone.flash1 = s.flash1 := by
  rw [ikhDone_eq]
  generalize ((s.ikhStored.put GH_STAT GH_STAT_LOCKED 1).put GH_IKH_CTRL GH_IKH_CTRL_PROGRAM 0).otp.count = n
  have hreg : s.ikhStored.quiet (((s.ikhStored.put GH_STAT GH_STAT_LOCKED 1).put GH_IKH_CTRL GH_IKH_CTRL_PROGRAM 0).wrN GH_OTP_CNT n)
      ([GH_STAT] ++ [GH_IKH_CTRL] ++ [GH_OTP_CNT]) := quiet_trans (quiet_trans (quiet_put ..) (quiet_put ..)) (quiet_wrN ..)
  have hlock : (((s.ikhStored.put GH_STAT GH_STAT_LOCKED 1).put GH_IKH_CTRL GH_IKH_CTRL_PROGRAM 0).wrN GH_OTP_CNT n).get GH_STAT GH_STAT_LOCKED = 1 := by
    rw [get_wrN_ne _ _ _ (by decide), get_put_ne _ _ _ _ (by decide), get_put_same _ _ _ _ (by decide)]
    rfl
  have hgate : (((s.ikhStored.put GH_STAT GH_STAT_LOCKED 1).put GH_IKH_CTRL GH_IKH_CTRL_PROGRAM 0).wrN GH_OTP_CNT n).gate = s.ikhStored.gate := by
    rw [wrN_gate, put_gate, put_gate]
  generalize ((s.ikhStored.put GH_STAT GH_STAT_LOCKED 1).put GH_IKH_CTRL GH_IKH_CTRL_PROGRAM 0).wrN GH_OTP_CNT n = v at hreg hlock hgate
  have hq := ledgerDone_quiet v roleInstaller 4 0x30 (GH_IKH 0) [] (wordsBytes s (GH_IKH 0) 8)
  have hoff := ledgerDone_offLedger (s := v) roleInstaller 4 0x30 (GH_IKH 0) [] (wordsBytes s (GH_IKH 0) 8)
  obtain ⟨hmem, ⟨h0, h1, ho⟩, -⟩ := quiet_trans hreg hq
  refine ⟨by rw [ho]; rfl, by rw [ho]; rfl, ?_, ?_, hmem, h0, h1⟩
  · unfold State.locked State.on
    rw [hq.get (by decide) (by decide), hlock]
    rfl
  · rw [hgate] at hoff
    exact (congrArg Gate.ikhBusy hoff : _ = s.ikhStored.gate.offLedger.ikhBusy)

/-! ### Consent tokens (R503 to R506) -/

theorem tokenResult_lt (tok : List Byte) : s.tokenResult tok < 16 := by
  unfold State.tokenResult
  dsimp only
  split_ifs <;> decide

theorem tokenSubmit_refused {src : Src} {w : Word} (hw : getField w GH_TOK_CTRL_SUBMIT = 1)
    (hr : s.tokenResult (wordsBytes s (GH_TOK_DATA 0) 24) ≠ 0) :
    (s.tokenSubmit src w).get GH_TOK_STAT GH_TOK_STAT_RESULT = s.tokenResult (wordsBytes s (GH_TOK_DATA 0) 24) ∧
      (s.tokenSubmit src w).gate.scope = s.gate.scope ∧ s.memSame (s.tokenSubmit src w) ∧ s.storeSame (s.tokenSubmit src w) := by
  unfold State.tokenSubmit
  rw [if_pos hw]
  dsimp only
  rw [if_pos (bne_iff_ne.2 hr)]
  have hlt := tokenResult_lt (s := s) (wordsBytes s (GH_TOK_DATA 0) 24)
  generalize s.tokenResult (wordsBytes s (GH_TOK_DATA 0) 24) = r at hlt ⊢
  generalize wordsBytes s (GH_TOK_DATA 0) 24 = tok
  have hq := ledgerRefusal_quiet (s.put GH_TOK_STAT GH_TOK_STAT_RESULT r) roleMaker (srcCode src) 0x41 0 [] tok
  have hoff := ledgerRefusal_offLedger (s := s.put GH_TOK_STAT GH_TOK_STAT_RESULT r) roleMaker (srcCode src) 0x41 0 [] tok
  rw [put_gate] at hoff
  have hall := quiet_trans (quiet_put s GH_TOK_STAT GH_TOK_STAT_RESULT r) hq
  refine ⟨?_, (congrArg Gate.scope hoff : _ = s.gate.offLedger.scope), hall.1, hall.2.1⟩
  rw [hq.get (by decide) (by decide), get_put_same _ _ _ _ (by decide)]
  exact Nat.mod_eq_of_lt hlt

/-- OTP counts an accepted token. -/
def State.tokenCounted (s : State) : State :=
  { s.put GH_TOK_STAT GH_TOK_STAT_RESULT 0 with
    otp := { (s.put GH_TOK_STAT GH_TOK_STAT_RESULT 0).otp with count := (s.otp.count + 1) % 2 ^ 32 } }

/-- Maker access opens. -/
def State.scopeOpened (s : State) (scope minutes : Nat) : State :=
  { s with gate := { s.gate with scope := scope, scopeEnd := s.dtime + minutes * 60000000000 } }

theorem tokenSubmit_eq {src : Src} {w : Word} {tok : List Byte} (htok : wordsBytes s (GH_TOK_DATA 0) 24 = tok)
    (hw : getField w GH_TOK_CTRL_SUBMIT = 1) (hr : s.tokenResult tok = 0) :
    s.tokenSubmit src w = (((((s.tokenCounted.wrN GH_OTP_CNT s.tokenCounted.otp.count).ledgerDone roleMaker (srcCode src) 0x40 0 [] tok).scopeOpened
      (fieldAt tok 24 4) (fieldAt tok 28 4)).put GH_TOK_STAT GH_TOK_STAT_SCOPE (fieldAt tok 24 4)).put GH_STAT GH_STAT_MAKER 1) := by
  unfold State.tokenSubmit
  rw [if_pos hw]
  dsimp only
  rw [htok, hr, if_neg (by decide)]
  rfl

theorem tokenSubmit_accepted {src : Src} {w : Word} {tok : List Byte} (htok : wordsBytes s (GH_TOK_DATA 0) 24 = tok)
    (hw : getField w GH_TOK_CTRL_SUBMIT = 1) (hr : s.tokenResult tok = 0) :
    (s.tokenSubmit src w).gate.scope = fieldAt tok 24 4 ∧ (s.tokenSubmit src w).gate.scopeEnd = s.dtime + fieldAt tok 28 4 * 60000000000 ∧
      (s.tokenSubmit src w).otp.count = (s.otp.count + 1) % 2 ^ 32 ∧ (s.tokenSubmit src w).get GH_TOK_STAT GH_TOK_STAT_RESULT = 0 ∧
      (s.tokenSubmit src w).get GH_STAT GH_STAT_MAKER = 1 ∧ s.memSame (s.tokenSubmit src w) ∧ (s.tokenSubmit src w).flash0 = s.flash0 ∧
      (s.tokenSubmit src w).flash1 = s.flash1 := by
  rw [tokenSubmit_eq htok hw hr]
  generalize s.tokenCounted.otp.count = n
  have hres : s.tokenCounted.get GH_TOK_STAT GH_TOK_STAT_RESULT = 0 := get_put_same s _ _ _ (by decide)
  have htime : s.tokenCounted.dtime = s.dtime := put_dtime s GH_TOK_STAT GH_TOK_STAT_RESULT 0
  have hotp : s.tokenCounted.otp.count = (s.otp.count + 1) % 2 ^ 32 := rfl
  have hmem : s.memSame s.tokenCounted := (quiet_put s GH_TOK_STAT GH_TOK_STAT_RESULT 0).1
  have hf0 : s.tokenCounted.flash0 = s.flash0 := put_flash0 s GH_TOK_STAT GH_TOK_STAT_RESULT 0
  have hf1 : s.tokenCounted.flash1 = s.flash1 := put_flash1 s GH_TOK_STAT GH_TOK_STAT_RESULT 0
  generalize s.tokenCounted = c at hres htime hotp hmem hf0 hf1
  have hdone := ledgerDone_quiet (c.wrN GH_OTP_CNT n) roleMaker (srcCode src) 0x40 0 [] tok
  have hq := quiet_trans (quiet_wrN c GH_OTP_CNT n) hdone
  have hdt : ((c.wrN GH_OTP_CNT n).ledgerDone roleMaker (srcCode src) 0x40 0 [] tok).dtime = c.dtime :=
    (congrArg Kept.dtime (ledgerDone_kept (c.wrN GH_OTP_CNT n) roleMaker (srcCode src) 0x40 0 [] tok)).trans (wrN_dtime c GH_OTP_CNT n)
  generalize (c.wrN GH_OTP_CNT n).ledgerDone roleMaker (srcCode src) 0x40 0 [] tok = d at hq hdt
  have ho : d.quiet (((d.scopeOpened (fieldAt tok 24 4) (fieldAt tok 28 4)).put GH_TOK_STAT GH_TOK_STAT_SCOPE (fieldAt tok 24 4)).put GH_STAT GH_STAT_MAKER 1)
      ([] ++ [GH_TOK_STAT] ++ [GH_STAT]) :=
    quiet_trans (quiet_trans (quiet_of_same rfl rfl rfl rfl rfl rfl) (quiet_put ..)) (quiet_put ..)
  obtain ⟨hm, ⟨h0, h1, h2⟩, -⟩ := quiet_trans hq ho
  refine ⟨?_, ?_, by rw [h2, hotp], ?_, ?_, fun a => (hm a).trans (hmem a), h0.trans hf0, h1.trans hf1⟩
  · rw [put_gate, put_gate]
    rfl
  · rw [put_gate, put_gate, ← htime, ← hdt]
    rfl
  · rw [get_put_ne _ _ _ _ (by decide), get_put_apart _ _ _ _ _ (by decide) (by decide)]
    exact (hq.get (by decide) (by decide) _).trans hres
  · rw [get_put_same _ _ _ _ (by decide)]
    rfl

/-- The end of maker access. -/
theorem makerEnd_spec (h : s.gate.scope ≠ 0) : s.makerEnd.gate.scope = 0 ∧ s.makerEnd.get GH_TOK_STAT GH_TOK_STAT_SCOPE = 0 ∧
    s.makerEnd.get GH_STAT GH_STAT_MAKER = 0 ∧ s.makerEnd.get DB_CTRL DB_CTRL_EN = 0 := by
  unfold State.makerEnd
  rw [if_neg h]
  extract_lets src a b
  have hscope : b.get GH_TOK_STAT GH_TOK_STAT_SCOPE = 0 := by
    rw [get_put_ne _ _ _ _ (by decide), get_put_ne _ _ _ _ (by decide), get_put_same _ _ _ _ (by decide)]
    rfl
  have hmaker : b.get GH_STAT GH_STAT_MAKER = 0 := by
    rw [get_put_ne _ _ _ _ (by decide), get_put_same _ _ _ _ (by decide)]
    rfl
  have hdb : b.get DB_CTRL DB_CTRL_EN = 0 := get_put_same _ _ _ _ (by decide)
  have hgate : b.gate = a.gate := by rw [put_gate, put_gate, put_gate]
  have hascope : a.gate.scope = 0 := rfl
  clear_value b a
  have hq := ledgerDone_quiet b roleMaker 6 0x42 0 [] []
  have hoff := ledgerDone_offLedger (s := b) roleMaker 6 0x42 0 [] []
  rw [hgate] at hoff
  exact ⟨(congrArg Gate.scope hoff : _ = a.gate.offLedger.scope).trans hascope, (hq.get (by decide) (by decide) _).trans hscope,
    (hq.get (by decide) (by decide) _).trans hmaker, (hq.get (by decide) (by decide) _).trans hdb⟩

/-! ### The configuration CRC (R512) -/

theorem cfgGo_spec {w : Word} (hw : getField w GH_CFG_CTRL_GO = 1) : (s.cfgGo w).gate.cfgRun = true ∧
    (s.cfgGo w).get GH_CFG_STAT GH_CFG_STAT_BUSY = 1 ∧ s.quiet (s.cfgGo w) [GH_CFG_CTRL, GH_CFG_STAT] := by
  have hbusy : ((s.put GH_CFG_CTRL GH_CFG_CTRL_GO 1).put GH_CFG_STAT GH_CFG_STAT_BUSY 1).get GH_CFG_STAT GH_CFG_STAT_BUSY = 1 := by
    rw [get_put_same _ _ _ _ (by decide)]
    rfl
  unfold State.cfgGo
  rw [if_pos hw]
  exact ⟨rfl, hbusy, (quiet_trans (quiet_put s GH_CFG_CTRL GH_CFG_CTRL_GO 1) (quiet_put _ GH_CFG_STAT GH_CFG_STAT_BUSY 1)).trans
    (quiet_of_same rfl rfl rfl rfl rfl rfl)⟩

/-- The run is over. -/
def State.cfgRan (s : State) : State := { s with gate := { s.gate with cfgRun := false, cfgEnd := some s.dtime } }

theorem cfgCrc_cfgRan : s.cfgRan.cfgCrc = s.cfgCrc := rfl

theorem cfgDone_spec : s.cfgDone.gate.cfgRun = false ∧ s.cfgDone.rdN GH_CFG_CRC = s.cfgCrc % 2 ^ 32 ∧
    s.cfgDone.get GH_CFG_STAT GH_CFG_STAT_BUSY = 0 ∧ s.cfgDone.get GH_CFG_CTRL GH_CFG_CTRL_GO = 0 ∧
    s.quiet s.cfgDone [GH_CFG_CRC, GH_CFG_STAT, GH_CFG_CTRL] := by
  have heq : s.cfgDone = ((s.cfgRan.wrN GH_CFG_CRC s.cfgRan.cfgCrc).put GH_CFG_STAT GH_CFG_STAT_BUSY 0).put GH_CFG_CTRL GH_CFG_CTRL_GO 0 := rfl
  have hran : s.quiet s.cfgRan [] := quiet_of_same rfl rfl rfl rfl rfl rfl
  have hrun : s.cfgRan.gate.cfgRun = false := rfl
  rw [heq, cfgCrc_cfgRan]
  generalize s.cfgCrc = n
  generalize s.cfgRan = v at hran hrun
  have hq := quiet_trans (quiet_trans (quiet_wrN v GH_CFG_CRC n) (quiet_put _ GH_CFG_STAT GH_CFG_STAT_BUSY 0)) (quiet_put _ GH_CFG_CTRL GH_CFG_CTRL_GO 0)
  refine ⟨?_, ?_, ?_, get_put_same _ _ _ _ (by decide), quiet_trans hran hq⟩
  · rw [put_gate, put_gate, wrN_gate, hrun]
  · unfold State.rdN
    rw [rd_put_ne _ _ _ (by decide), rd_put_ne _ _ _ (by decide)]
    exact rdN_wrN_same ..
  · rw [get_put_ne _ _ _ _ (by decide), get_put_same _ _ _ _ (by decide)]
    rfl

/-! ### An entry programmed (R509) -/

theorem ledgerAt_ge (seq : Nat) : ledgerBase ≤ ledgerAt seq / 4096 * 4096 ∧ ledgerBase ≤ ledgerAt seq := by
  simp only [ledgerAt, ledgerBase]
  omega

theorem rdFlash_ledgerWrite_below {dev seq d a : Nat} {bs : List Byte} (h : a < ledgerBase) : (s.ledgerWrite dev seq bs).rdFlash d a = s.rdFlash d a := by
  obtain ⟨hsec, hat⟩ := ledgerAt_ge seq
  unfold State.ledgerWrite
  dsimp only
  rw [rdFlash_progFlash_off (.inr (.inl (h.trans_le hat)))]
  split
  · exact rdFlash_eraseFlash_off (.inr (.inl (h.trans_le hsec)))
  · rfl

/-- The oldest entry is written. -/
def State.ledgerWritten (s : State) (e : Ledger) : State :=
  if (s.ledgerWrite 0 e.seq (e.body ++ linkOf s.gate.link e.body)).on GH_LED_STAT GH_LED_STAT_FLASH1 then
    (s.ledgerWrite 0 e.seq (e.body ++ linkOf s.gate.link e.body)).ledgerWrite 1 e.seq (e.body ++ linkOf s.gate.link e.body)
  else s.ledgerWrite 0 e.seq (e.body ++ linkOf s.gate.link e.body)

theorem ledgerWritten_only (e : Ledger) : s.onlyFlash (s.ledgerWritten e) := by
  unfold State.ledgerWritten
  split
  · exact onlyFlash_trans (onlyFlash_ledgerWrite ..) (onlyFlash_ledgerWrite ..)
  · exact onlyFlash_ledgerWrite ..

theorem rdFlash_ledgerWritten_below {e : Ledger} {d a : Nat} (h : a < ledgerBase) : (s.ledgerWritten e).rdFlash d a = s.rdFlash d a := by
  unfold State.ledgerWritten
  split
  · rw [rdFlash_ledgerWrite_below h, rdFlash_ledgerWrite_below h]
  · exact rdFlash_ledgerWrite_below h

/-- The queue goes on behind the entry. -/
def State.ledgerLinked (s : State) (rest : List Ledger) (link : List Byte) : State := { s with gate := { s.gate with queue := rest, link := link } }

theorem ledgerProgram_eq {e : Ledger} {rest : List Ledger} (h : s.gate.queue = e :: rest) :
    s.ledgerProgram = ((s.ledgerWritten e).ledgerLinked rest (linkOf s.gate.link e.body)).put GH_LED_STAT GH_LED_STAT_QUEUED rest.length := by
  unfold State.ledgerProgram
  rw [h]
  rfl

theorem ledgerProgram_spec {e : Ledger} {rest : List Ledger} (h : s.gate.queue = e :: rest) : s.ledgerProgram.gate.queue = rest ∧
    s.ledgerProgram.gate.link = linkOf s.gate.link e.body ∧ (∀ dev a, a < ledgerBase → s.ledgerProgram.rdFlash dev a = s.rdFlash dev a) ∧
    s.memSame s.ledgerProgram ∧ s.ledgerProgram.otp = s.otp ∧ s.regsSame s.ledgerProgram [GH_LED_STAT] := by
  rw [ledgerProgram_eq h]
  have hw := ledgerWritten_only (s := s) e
  have hbelow : ∀ dev a, a < ledgerBase → (s.ledgerWritten e).rdFlash dev a = s.rdFlash dev a := fun dev a ha => rdFlash_ledgerWritten_below ha
  generalize linkOf s.gate.link e.body = link
  generalize s.ledgerWritten e = v at hw hbelow
  have hq := quiet_trans (quiet_of_same rfl rfl rfl rfl rfl rfl : v.quiet (v.ledgerLinked rest link) [])
    (quiet_put (v.ledgerLinked rest link) GH_LED_STAT GH_LED_STAT_QUEUED rest.length)
  refine ⟨by rw [put_gate]; rfl, by rw [put_gate]; rfl, fun dev a ha => (quiet_rdFlash hq dev a).trans (hbelow dev a ha),
    fun a => (hq.1 a).trans (hw.memSame a), hq.2.1.2.2.trans hw.otp, fun a ha hb => (hq.2.2 a ha hb).trans (hw.rd a)⟩

end

/-- Settles O34: a lemma for each command says what the key hash, a token, the CRC run, a ledger entry and a JTAG instruction leave. -/
theorem gatehouseWorkCompletes : Obligations.GatehouseWorkCompletes := by
  unfold Obligations.GatehouseWorkCompletes
  intro s now x
  refine ⟨fun src value u w hadm hw => ?_, fun hbusy => ?_, fun src value u w hadm => ?_, fun hscope hend => ?_, fun src value u w hadm hw => ?_,
    fun hrun => ?_, fun e rest hq hup hxs => ?_, fun i => ⟨rfl, fun hph => ?_⟩⟩
  · have hrun : exec (.ikhProgram now src value) s = .next (u.ikhProgram w) :=
      congrArg Host.Outcome.next (guarded_fst_of_admits hadm State.ikhProgram)
    rw [hrun]
    exact ⟨fun hph hikh => ⟨_, rfl, ikhProgram_begun hw hph hikh⟩, fun hikh => ⟨_, rfl, ikhProgram_again hw hikh⟩⟩
  · have hrun : exec (.ikhProgramDone now) s = .next x.ikhDone := by
      simp [exec, execIkhProgramDone, State.when, hbusy, x]
    exact ⟨_, hrun, ikhDone_spec⟩
  · intro tok
    have hsub : exec (.tokenSubmit now src value) s = .next (u.tokenCtrl src w) :=
      congrArg Host.Outcome.next (guarded_fst_of_admits hadm fun s w => s.tokenCtrl src w)
    refine ⟨fun hs he hr => ?_, fun hs he hr => ?_, fun hs he hscope => ?_⟩
    · have hctrl : u.tokenCtrl src w = u.tokenSubmit src w := if_neg (by rw [he]; decide)
      rw [hsub, hctrl]
      exact ⟨_, rfl, tokenSubmit_accepted rfl hs hr⟩
    · have hctrl : u.tokenCtrl src w = u.tokenSubmit src w := if_neg (by rw [he]; decide)
      rw [hsub, hctrl]
      exact ⟨_, rfl, tokenSubmit_refused hs hr⟩
    · have hend : exec (.tokenEnd now src value) s = .next (u.tokenCtrl src w) :=
        congrArg Host.Outcome.next
          ((guarded_fst_of_admits hadm fun s w => if getField w GH_TOK_CTRL_SUBMIT = 0 then s.tokenCtrl src w else s).trans (if_pos hs))
      have hnone : u.tokenSubmit src w = u := if_neg (by rw [hs]; decide)
      have hctrl : u.tokenCtrl src w = u.makerEnd := (if_pos he).trans (congrArg State.makerEnd hnone)
      obtain ⟨hsc, hstat, hmaker, hdb⟩ := makerEnd_spec hscope
      rw [hend, hctrl]
      exact ⟨_, rfl, hsc, hstat, hmaker, hdb, makerEnd_quiet.1, makerEnd_quiet.2.1⟩
  · have hrun : exec (.tokenExpiry now) s = .next x.makerEnd := by
      have hdue : (s.gate.scope != 0 && decide (s.gate.scopeEnd ≤ (s.tick now).dtime)) = true :=
        Bool.and_eq_true_iff.2 ⟨bne_iff_ne.2 hscope, decide_eq_true hend⟩
      exact congrArg Host.Outcome.next (if_pos hdue)
    obtain ⟨hsc, hstat, hmaker, hdb⟩ := makerEnd_spec (s := x) hscope
    exact ⟨_, hrun, hsc, hstat, hmaker, hdb, makerEnd_quiet.1, makerEnd_quiet.2.1⟩
  · have hrun : exec (.cfgCrcGo now src value) s = .next (u.cfgGo w) := congrArg Host.Outcome.next (guarded_fst_of_admits hadm State.cfgGo)
    exact ⟨_, hrun, cfgGo_spec hw⟩
  · have hrun : exec (.cfgCrcDone now) s = .next x.cfgDone := by
      simp [exec, execCfgCrcDone, State.when, hrun, x]
    have hcrc : x.cfgCrc = s.cfgCrc := rfl
    obtain ⟨hend, hval, hbusy, hgo, hq⟩ := cfgDone_spec (s := x)
    rw [hcrc] at hval
    exact ⟨_, hrun, hend, hval, hbusy, hgo, ((quiet_tick s now).mono (by simp)).trans hq⟩
  · have hrun : exec (.ledgerEntryProgrammed now false) s = .next x.ledgerProgram := by
      simp [exec, execLedgerEntryProgrammed, State.when, hup, hq, hxs, x]
    exact ⟨_, hrun, ledgerProgram_spec (s := x) hq⟩
  · simp [State.jtagSelect, hph]

end Sys2Proof.Machine
end

section

namespace Sys2Proof.Machine

/-! ## Register writes (R492, R496) -/

section

variable {s : State}

theorem groupBits_fits (g : Nat) : ∀ x ∈ groupBits g, x.2.1.lo + x.2.1.w ≤ 32 := by
  unfold groupBits
  split_ifs <;> simp only [Option.mem_def, Option.some.injEq, forall_eq', reduceCtorEq, false_imp_iff, implies_true, TL_STAT_BUSY, LY_GSTAT_BUSY, AD_LAST_BUSY,
    HP_SF_STAT_BUSY, CA_STAT_BUSY, CN_STAT_BUSY, XS_STAT_BUSY, SM_SV_STAT_BUSY, DR_SC_STAT_BUSY] <;> omega

theorem setBusy_get {g : Nat} (v : Bool) {b : Nat} {f l : Fld} (h : groupBits g = some (b, f, l)) :
    (s.setBusy g v).get b f = b2n v % 2 ^ f.w := by
  unfold State.setBusy
  rw [h]
  exact get_put_same s b f _ (groupBits_fits g (b, f, l) h)

theorem setBusy_quiet (g : Nat) (v : Bool) : s.memSame (s.setBusy g v) ∧ s.storeSame (s.setBusy g v) := by
  unfold State.setBusy
  split
  · exact ⟨(quiet_put s _ _ _).1, (quiet_put s _ _ _).2.1⟩
  · exact ⟨(quiet_refl s []).1, (quiet_refl s []).2.1⟩

theorem setBusy_posted (g : Nat) (v : Bool) : (s.setBusy g v).posted = s.posted := by
  unfold State.setBusy
  split
  · exact put_posted ..
  · rfl

theorem tear_quiet (c : Bool) : s.quiet (s.tear c) [GH_CFG_STAT] := by
  unfold State.tear
  split
  · exact quiet_put ..
  · exact quiet_refl ..

theorem markOnce_quiet (a : Nat) (r : RegRow) (but : List Nat) : s.quiet (s.markOnce a r) but := quiet_of_same rfl rfl rfl rfl rfl rfl

/-- A landed word changes its register under its access codes, and may tear the configuration CRC. -/
theorem landWrite_spec (a : Nat) (w : Word) (r : RegRow) : (s.landWrite a w r).rd a = landWord (s.rd a) w r ∧
    s.quiet (s.landWrite a w r) [a, GH_CFG_STAT] := by
  unfold State.landWrite State.wrHub
  refine ⟨rd_wr_same .., ?_⟩
  exact (((markOnce_quiet a r _).trans ((tear_quiet _).mono (by simp))).wr _ (by simp))

/-- The registers between the DMA channels and the blit engine take the word as it is. -/
theorem landed_staging {src : Src} {a : Nat} (hlo : 0x601000 ≤ a) (hhi : a < 0x700000) (w : Word) (r : RegRow) :
    s.landed src a w r = s.landWrite a w r := by
  unfold State.landed State.landEng
  rw [if_neg (by omega), if_neg (by omega), if_neg (by omega), if_neg (by omega), if_neg (by omega), if_pos (by omega), if_neg (by omega),
    if_neg (by omega)]

/-! ### A posted write that lands -/

theorem postedLands_unbanked {g : Nat} {p : Posted} {r : RegRow} (hrow : rowAt p.addr = some r) (hb : r.banking ≠ .banked) :
    s.postedLands g p = ((s.setPostedAt g none).setBusy g false).landed p.src p.addr (BitVec.ofNat 32 p.value) r := by
  unfold State.postedLands
  dsimp only
  rw [hrow]
  exact if_neg hb

theorem postedLands_banked {g : Nat} {p : Posted} {r : RegRow} (hrow : rowAt p.addr = some r) (hb : r.banking = .banked) :
    s.postedLands g p = (s.setPostedAt g none).bankLands g p r := by
  unfold State.postedLands
  dsimp only
  rw [hrow]
  exact if_pos hb

theorem bankLands_handover {g : Nat} {p : Posted} {r : RegRow} (h : (s.tlcAt (s.bankTl p.addr)).handover ≠ none) :
    s.bankLands g p r = s.setLost g := if_pos (Option.isSome_iff_ne_none.2 h)

theorem bankLands_sealed {g : Nat} {p : Posted} {r : RegRow} (h : (s.tlcAt (s.bankTl p.addr)).handover = none)
    (hs : s.sealed (s.bankTl p.addr) = true) : s.bankLands g p r = (s.setBusy g false).setSealedWr p.addr := by
  unfold State.bankLands
  dsimp only
  rw [h, hs]
  rfl

theorem bankLands_open {g : Nat} {p : Posted} {r : RegRow} (h : (s.tlcAt (s.bankTl p.addr)).handover = none)
    (hs : s.sealed (s.bankTl p.addr) = false) : s.bankLands g p r = (s.setBusy g false).landed p.src p.addr (BitVec.ofNat 32 p.value) r := by
  unfold State.bankLands
  dsimp only
  rw [h, hs]
  rfl

/-! ### Reads with an effect (R399, R493) -/

theorem answer_quiet (src : Src) (w : Word) (but : List Nat) : s.quiet (s.answer src w) but := by
  unfold State.answer
  have hlast : s.quiet { s with lastRead := tset (fun _ => 0) s.lastRead (srcCode src) w.toNat } but := quiet_of_same rfl rfl rfl rfl rfl rfl
  cases src with
  | host p => exact hlast.events (toHost_only ..)
  | sup => exact hlast
  | jtag => exact hlast

theorem answer_lastReadAt (src : Src) (w : Word) : (s.answer src w).lastReadAt (srcCode src) = w.toNat := by
  have hset : tget (fun _ => 0) (tset (fun _ => 0) s.lastRead (srcCode src) w.toNat) (srcCode src) = w.toNat := tget_tset_same ..
  cases src <;> exact hset

theorem answer_captureAt (src : Src) (w : Word) (i : Nat) : (s.answer src w).captureAt i = s.captureAt i := by
  cases src <;> rfl

theorem answer_get (src : Src) (w : Word) (a : Nat) (f : Fld) : (s.answer src w).get a f = s.get a f := by
  cases src <;> rfl

/-- A read of a host port behind a held write of its own waits. -/
theorem readNow_waits {p : Fin 4} (hup : s.srcUp (.host p) = true) (hw : s.writesWait (.host p) = true) (a : Nat) :
    s.readNow (.host p) a = { s with hostReads := s.hostReads ++ [(p.val, a)] } := by
  unfold State.readNow State.when
  rw [if_pos hup]
  dsimp only
  rw [hw]

/-- Any other read is made at once. -/
theorem readNow_now {src : Src} (hup : s.srcUp src = true) (hw : s.writesWait src = false) (a : Nat) :
    s.readNow src a = (s.regRead src a).2.answer src (s.regRead src a).1 := by
  unfold State.readNow State.when
  rw [if_pos hup]
  dsimp only
  rw [hw]
  cases src <;> rfl

/-- A read that its source may make returns the register and has its effect. -/
theorem regRead_eq {src : Src} {a : Nat} {r : RegRow} (halias : s.aliasAddr a = a) (hrow : rowAt a = some r) (hal : a % 4 = 0)
    (hmay : s.mayRead src (s.homeAddr a) = true) (hab : absentSub s a = false) (hdel : s.delivers a = true) :
    s.regRead src a = (s.liveWord src a, s.readEffect src a) := by
  unfold State.regRead
  dsimp only
  rw [halias, hrow]
  dsimp only
  rw [if_neg (by rw [hmay, hab]; simp [hal]), if_pos hdel]

theorem mayRead_open {src : Src} (h : src ≠ .jtag) {a : Nat} (hhome : s.homeAddr a = a) (hdb : inRange 0xE00000 0xF00000 a = false) (hses : inRange 0x10100 0x102A0 a = false)
    (hp : portBlock a = none) : s.mayRead src (s.homeAddr a) = true := by
  rw [hhome]
  unfold State.mayRead
  rw [hdb, hses, hp]
  cases src with
  | host p => rfl
  | sup => rfl
  | jtag => exact absurd rfl h

theorem regRead_dtimeLo {src : Src} (h : src ≠ .jtag) : s.regRead src SY_DTIME_LO =
    (BitVec.ofNat 32 s.dtime, s.setCaptureAt (srcCode src) (s.dtime / 2 ^ 32 % 2 ^ 32)) :=
  regRead_eq (r := (rowAt SY_DTIME_LO).get (by decide)) rfl (Option.some_get _).symm (by decide) (mayRead_open h rfl (by decide) (by decide) (by decide)) rfl rfl

theorem regRead_stage {src : Src} (h : src ≠ .jtag) (hup : s.islUp islDma = true) : s.regRead src DM_STAGE =
    (s.rd DM_STAGE, s.put DM_STAGE DM_STAGE_PEAK (s.get DM_STAGE DM_STAGE_INUSE)) :=
  regRead_eq (r := (rowAt DM_STAGE).get (by decide)) rfl (Option.some_get _).symm (by decide) (mayRead_open h rfl (by decide) (by decide) (by decide)) rfl hup

/-- DDR5 registers are read as they stand. -/
theorem liveWord_dram {src : Src} {a : Nat} (hlo : 0x900000 ≤ a) (hhi : a < 0xA00000) : s.liveWord src a = s.rd a := by
  have hout : ∀ lo hi, hi ≤ 0x900000 ∨ 0xA00000 ≤ lo → inRange lo hi a = false := fun lo hi h => by
    simp only [inRange, Bool.and_eq_false_iff, decide_eq_false_iff_not]
    omega
  unfold State.liveWord State.shown
  dsimp only
  rw [if_neg (by rw [SY_PSTATE]; omega), if_neg (by rw [SY_DTIME_LO]; omega), if_neg (by rw [SY_DTIME_HI]; omega), if_neg (by rw [GH_TOK_STAT]; omega),
    if_neg (by rw [CA_WHEEL]; omega), hout 0x801000 0x803000 (by decide), hout 0xA00000 0xA40000 (by decide), hout 0x200000 0x208000 (by decide),
    hout 0x400000 0x410000 (by decide), hout 0xB01000 0xB010C0 (by decide), hout 0x700000 0x700300 (by decide)]
  simp only [Bool.false_and, Bool.false_eq_true, if_false]
  exact if_neg (by omega)

theorem regRead_wq {src : Src} (h : src ≠ .jtag) (k : Fin 8) (hup : s.islUp (islSub k.val) = true)
    (hk : bit (s.get DR_CFG DR_CFG_SUBCH_MASK) k.val = true) : s.regRead src (DR_SC_WQ k.val) =
    (s.rd (DR_SC_WQ k.val), s.put (DR_SC_WQ k.val) DR_SC_WQ_PEAK (s.get (DR_SC_WQ k.val) DR_SC_WQ_USED)) := by
  have hrow : ∀ k : Fin 8, (rowAt (DR_SC_WQ k.val)).isSome = true := by decide
  have hisl : ∀ k : Fin 8, islandOf (DR_SC_WQ k.val) = some (islSub k.val) := by decide
  have hsub : ∀ k : Fin 8, (DR_SC_WQ k.val - 0x901000) / 0x100 = k.val := by decide
  have hplace : ∀ k : Fin 8, 0x900000 ≤ DR_SC_WQ k.val ∧ DR_SC_WQ k.val < 0xA00000 ∧ DR_SC_WQ k.val % 4 = 0 ∧ DR_SC_WQ k.val ≠ DM_STAGE ∧
      inRange 0xE00000 0xF00000 (DR_SC_WQ k.val) = false ∧ inRange 0x10100 0x102A0 (DR_SC_WQ k.val) = false ∧ portBlock (DR_SC_WQ k.val) = none ∧
      (inRange 0x901000 0x901800 (DR_SC_WQ k.val) && DR_SC_WQ k.val % 0x100 == 0x18) = true := by decide
  obtain ⟨hlo, hhi, hal, hne, hdb, hses, hport, hwq⟩ := hplace k
  have halias : s.aliasAddr (DR_SC_WQ k.val) = DR_SC_WQ k.val := by
    unfold State.aliasAddr
    rw [if_neg (by omega), if_neg (by omega)]
  have habsent : absentSub s (DR_SC_WQ k.val) = false := by
    unfold absentSub
    rw [hsub, hk, Bool.not_true, Bool.and_false]
  have hdel : s.delivers (DR_SC_WQ k.val) = true := by
    unfold State.delivers
    rw [hisl]
    exact hup
  have hhome : s.homeAddr (DR_SC_WQ k.val) = DR_SC_WQ k.val := by
    unfold State.homeAddr
    rw [if_neg (by omega), if_neg (by omega)]
  have heff : s.readEffect src (DR_SC_WQ k.val) = s.put (DR_SC_WQ k.val) DR_SC_WQ_PEAK (s.get (DR_SC_WQ k.val) DR_SC_WQ_USED) := by
    unfold State.readEffect
    rw [if_neg (by rw [SY_DTIME_LO]; omega), if_neg hne, if_pos hwq]
  rw [regRead_eq halias (Option.some_get (hrow k)).symm hal (mayRead_open h hhome hdb hses hport) habsent hdel, liveWord_dram hlo hhi, heff]

end

/-- Settles O32: a landing write is `landed`, a posted one waits in its group and then lands or is discarded, and a read with an effect is
`regRead` with its answer. -/
theorem registerAccessesComplete : Obligations.RegisterAccessesComplete := by
  unfold Obligations.RegisterAccessesComplete
  intro s now x
  refine ⟨fun src addr value u w r hne hdec => ?_, fun g p r hpost hdel hrow => ?_, fun p hup hw => ⟨?_, fun a ha => ?_⟩,
    fun src hj hup hw => ⟨?_, fun hisl => ?_, fun k hisl hk => ?_⟩, fun p hdue => ?_⟩
  · intro a
    have hreg : exec (.registerWrite now src addr value) s =
        .next (if r.posted then (u.postWrite src a w, RStat.ok) else (u.landed src a w r, RStat.ok)).1 := by
      refine congrArg (fun x : State × RStat => Host.Outcome.next x.1) ?_
      unfold State.regWrite
      dsimp only
      rw [if_neg hne, hdec]
    refine ⟨fun hp => ?_, fun hp => ?_, fun hp hlo hhi => ?_⟩
    · rw [hreg, if_pos hp]
      obtain ⟨hmem, hstore⟩ := setBusy_quiet (s := u.setPostedAt (groupAddr a) (some ⟨src, a, w.toNat⟩)) (groupAddr a) true
      refine ⟨_, rfl, ?_, fun b f l hg => setBusy_get true hg, hmem, hstore⟩
      unfold State.postedAt State.postWrite
      rw [setBusy_posted]
      exact tget_tset_same (fun _ => (none : Option Posted)) u.posted (groupAddr a) (some ⟨src, a, w.toNat⟩)
    · rw [hreg, hp]
      rfl
    · rw [hreg, hp]
      obtain ⟨hrd, hq⟩ := landWrite_spec (s := u) a w r
      exact ⟨_, congrArg Host.Outcome.next (landed_staging hlo hhi w r), hrd, hq⟩
  · intro v
    have hrun : exec (.postedWriteLands now g) s = .next (x.postedLands g p) := by
      have hx : x.postedAt g = some p := hpost
      have hd : x.delivers p.addr = true := hdel
      simp only [exec, execPostedWriteLands]
      rw [show s.tick now = x from rfl, hx]
      exact congrArg Host.Outcome.next (if_pos hd)
    rw [hrun]
    exact ⟨fun hb => by rw [postedLands_unbanked hrow hb], fun hb hh => by rw [postedLands_banked hrow hb, bankLands_handover (s := v) hh],
      fun hb hh hs => by rw [postedLands_banked hrow hb, bankLands_sealed (s := v) hh hs],
      fun hb hh hs => by rw [postedLands_banked hrow hb, bankLands_open (s := v) hh hs]⟩
  · exact congrArg Host.Outcome.next (readNow_waits (s := x) hup hw SY_DTIME_LO)
  · exact (congrArg Host.Outcome.next (if_pos ha)).trans (congrArg Host.Outcome.next (readNow_waits (s := x) hup hw a))
  · have hrun : exec (.dtimeLoRead now src) s = .next (x.readNow src SY_DTIME_LO) := rfl
    rw [hrun, readNow_now (s := x) hup hw, regRead_dtimeLo hj]
    refine ⟨_, rfl, ?_, ?_, ?_⟩
    · rw [answer_lastReadAt, BitVec.toNat_ofNat]
    · rw [answer_captureAt]
      exact tget_tset_same ..
    · exact ((quiet_tick s now).trans (quiet_of_same rfl rfl rfl rfl rfl rfl)).trans (answer_quiet ..)
  · have hrun : exec (.peakRead now src DM_STAGE) s = .next (x.readNow src DM_STAGE) := rfl
    rw [hrun, readNow_now (s := x) hup hw, regRead_stage (s := x) hj hisl]
    refine ⟨_, rfl, ?_, ?_, ?_⟩
    · rw [answer_lastReadAt]
      rfl
    · rw [answer_get, get_put_same _ _ _ _ (by decide)]
      exact Nat.mod_eq_of_lt (getField_lt (x.rd DM_STAGE) DM_STAGE_INUSE)
    · exact (((quiet_tick s now).mono (by simp)).put _ _ (by simp)).trans (answer_quiet ..)
  · have hpeak : peakAddr (DR_SC_WQ k.val) = true := by
      have hall : ∀ k : Fin 8, peakAddr (DR_SC_WQ k.val) = true := by decide
      exact hall k
    have hrun : exec (.peakRead now src (DR_SC_WQ k.val)) s = .next (x.readNow src (DR_SC_WQ k.val)) := congrArg Host.Outcome.next (if_pos hpeak)
    rw [hrun, readNow_now (s := x) hup hw, regRead_wq (s := x) hj k hisl hk]
    refine ⟨_, rfl, ?_, ?_, ?_⟩
    · rw [answer_lastReadAt]
      rfl
    · rw [answer_get, get_put_same _ _ _ _ (by decide)]
      exact Nat.mod_eq_of_lt (getField_lt (x.rd (DR_SC_WQ k.val)) DR_SC_WQ_USED)
    · exact (((quiet_tick s now).mono (by simp)).put _ _ (by simp)).trans (answer_quiet ..)
  · have hrun : exec (.accessDeniedFoldTimer now p) s = .next (x.foldPost p.val) := congrArg Host.Outcome.next (if_pos hdue)
    refine ⟨_, hrun, ?_, ?_, ?_⟩
    · rw [State.foldPost, postDenied_denialAt]
    · rw [State.foldPost, postDenied_denialAt]
    · exact (quiet_tick s now).trans (postDenied_quiet _ _ (mem_allPorts p) _ _)

end Sys2Proof.Machine
end

section

namespace Sys2Proof.Machine

/-! ## Refresh and temperature (R438 to R441) -/

section

variable {s t u : State} {k r : Nat}

/-- A change of one sub-channel's pace: its status, its paydown count, and of its controller not the reported rates. -/
def State.paced (s t : State) (k : Nat) : Prop := s.quiet t [DR_SC_STAT k, DR_SC_PAY_CNT k] ∧ (t.dramAt k).mr4 = (s.dramAt k).mr4

theorem paced_refl (s : State) (k : Nat) : s.paced s k := ⟨quiet_refl .., rfl⟩

theorem State.paced.trans (h : s.paced t k) (i : t.paced u k) : s.paced u k := ⟨h.1.trans i.1, i.2.trans h.2⟩

theorem dramAt_congr (h : t.dram = s.dram) : t.dramAt k = s.dramAt k := by
  unfold State.dramAt
  rw [h]

theorem quiet_setDramAt (c : SubCh) (but : List Nat) : s.quiet (s.setDramAt k c) but := quiet_of_same rfl rfl rfl rfl rfl rfl

theorem paced_put_stat (f : Fld) (v : Nat) : s.paced (s.put (DR_SC_STAT k) f v) k :=
  ⟨(quiet_put ..).mono (by simp), congrArg SubCh.mr4 (dramAt_congr (put_dram ..))⟩

theorem paced_bump_pay (f : Fld) (n : Nat) : s.paced (s.bump (DR_SC_PAY_CNT k) f n) k :=
  ⟨(quiet_bump ..).mono (by simp), congrArg SubCh.mr4 (dramAt_congr (bump_dram ..))⟩

theorem paced_setDramAt {c : SubCh} (h : c.mr4 = (s.dramAt k).mr4) : s.paced (s.setDramAt k c) k :=
  ⟨quiet_setDramAt .., by rw [dramAt_setDramAt, if_pos rfl, h]⟩

theorem onlyEvents_dram (h : s.onlyEvents t) : t.dram = s.dram := by rw [h.1]

theorem paced_events (h : s.onlyEvents t) (k : Nat) : s.paced t k :=
  ⟨(onlyEvents_quiet h).mono (by simp), congrArg SubCh.mr4 (dramAt_congr (onlyEvents_dram h))⟩

theorem postTemp_only (kind : Nat) : s.onlyEvents (s.postTemp k kind) := postAll_only ..

theorem paced_ite {c : Prop} [Decidable c] (h : s.paced t k) (i : s.paced u k) : s.paced (if c then t else u) k := by
  split
  · exact h
  · exact i

theorem payStart_paced : s.paced (s.payStart k r) k := by
  unfold State.payStart
  exact paced_ite (paced_refl s k) (((paced_setDramAt (c := { s.dramAt k with pay := (s.dramAt k).pay.set r true }) rfl).trans (paced_put_stat ..)).trans (paced_bump_pay ..))

theorem refreshTick_paced : s.paced (s.refreshTick k r) k := by
  unfold State.refreshTick
  extract_lets c a d b
  have hb : s.paced b k := (paced_setDramAt (c := { s.dramAt k with tick := (s.dramAt k).tick.set r s.dtime }) rfl).trans (paced_put_stat ..)
  exact paced_ite (hb.trans payStart_paced) hb

theorem paced_foldl {α : Type} {f : State → α → State} (h : ∀ (s : State) (a : α), s.paced (f s a) k) (l : List α) (s : State) : s.paced (l.foldl f s) k :=
  foldl_keeps (P := fun t => s.paced t k) (fun t a _ ht => ht.trans (h t a)) (paced_refl s k)

theorem tickFirst_paced : s.paced (s.tickFirst k) k := paced_foldl (f := fun s r => if s.tickDue k r then s.refreshTick k r else s) (fun _ _ => paced_ite refreshTick_paced (paced_refl ..)) _ s

theorem enter2x_paced : s.paced (s.enter2x k) k := by
  unfold State.enter2x
  extract_lets a b
  have hb : s.paced b k := (paced_put_stat ..).trans (paced_events (postTemp_only _) k)
  exact hb.trans (paced_foldl (f := fun s r => if 2 ≤ s.debt k r then s.payStart k r else s) (fun _ _ => paced_ite payStart_paced (paced_refl ..)) _ b)

theorem leave2x_paced : s.paced (s.leave2x k) k := (paced_put_stat ..).trans (paced_events (postTemp_only _) k)

theorem tempEval_paced : s.paced (s.tempEval k) k := by
  unfold State.tempEval
  extract_lets crosses a c
  have ha : s.paced a k := paced_ite tickFirst_paced (paced_refl ..)
  refine ha.trans (paced_ite (paced_ite (paced_ite (paced_setDramAt (c := { c with back1x := true }) rfl) leave2x_paced)
    (paced_setDramAt (c := { c with back1x := false }) rfl)) (paced_ite enter2x_paced (paced_refl ..)))

/-! ### The status word -/

theorem lostCounter_dram {a : Nat} (h : a ∈ [DR_STAT, DR_TEMP_STAT, DR_TEMP_CFG, DR_SC_STAT k, DR_SC_PAY_CNT k, DR_SC_REF_CNT k]) :
    lostCounter a = false := by
  refine lostCounter_eq_false fun p _ hc => ?_
  simp only [List.mem_cons, List.not_mem_nil, or_false, hc, DR_STAT, DR_TEMP_STAT, DR_TEMP_CFG, DR_SC_STAT, DR_SC_PAY_CNT, DR_SC_REF_CNT, HP_EV_STAT] at h
  omega

/-- A paydown's start shows in its own field alone. -/
theorem payStart_stat {f : Fld} (hf : f.lo + f.w ≤ 11) : (s.payStart k r).get (DR_SC_STAT k) f = s.get (DR_SC_STAT k) f := by
  unfold State.payStart
  dsimp only
  split
  · rfl
  · rw [get_bump_ne _ _ _ _ (by simp [DR_SC_STAT, DR_SC_PAY_CNT]), get_put_apart _ _ _ _ _ (by decide) (.inl hf)]
    rfl

theorem debtFld_fits (r : Nat) : (debtFld r).lo + (debtFld r).w ≤ 11 ∧ (debtFld r).w = 3 ∧ 4 ≤ (debtFld r).lo := by
  unfold debtFld
  split <;> decide

/-- A tick that is due adds one to the rank's debt, at most 4. -/
theorem refreshTick_debt : (s.refreshTick k r).debt k r = min 4 (s.debt k r + 1) := by
  obtain ⟨hfit, hw, -⟩ := debtFld_fits r
  unfold State.refreshTick
  extract_lets c a d b
  have hb : b.get (DR_SC_STAT k) (debtFld r) = d := by
    rw [get_put_same _ _ _ _ (by omega), hw]
    exact Nat.mod_eq_of_lt (lt_of_le_of_lt (Nat.min_le_left ..) (by decide))
  have ha : a.debt k r = s.debt k r := rfl
  unfold State.debt
  split
  · rw [payStart_stat hfit, hb]
    rfl
  · rw [hb]
    rfl

theorem refreshTick_mode : (s.refreshTick k r).get (DR_SC_STAT k) DR_SC_STAT_MODE2X = s.get (DR_SC_STAT k) DR_SC_STAT_MODE2X := by
  obtain ⟨hfit, -, hlo⟩ := debtFld_fits r
  unfold State.refreshTick
  extract_lets c a d b
  have hb : b.get (DR_SC_STAT k) DR_SC_STAT_MODE2X = a.get (DR_SC_STAT k) DR_SC_STAT_MODE2X :=
    get_put_apart _ _ _ _ _ (by omega) (.inl (by simp only [DR_SC_STAT_MODE2X]; omega))
  split
  · exact (payStart_stat (by decide)).trans hb
  · exact hb

theorem tickFirst_mode : (s.tickFirst k).get (DR_SC_STAT k) DR_SC_STAT_MODE2X = s.get (DR_SC_STAT k) DR_SC_STAT_MODE2X :=
  foldl_same (fun s : State => s.get (DR_SC_STAT k) DR_SC_STAT_MODE2X)
    (fun _ _ => ite_same (π := fun s : State => s.get (DR_SC_STAT k) DR_SC_STAT_MODE2X) refreshTick_mode rfl) _ s

/-- In 2x mode afterwards. -/
theorem enter2x_mode : (s.enter2x k).get (DR_SC_STAT k) DR_SC_STAT_MODE2X = 1 := by
  unfold State.enter2x
  extract_lets a b
  have hb : b.get (DR_SC_STAT k) DR_SC_STAT_MODE2X = 1 := by
    rw [onlyEvents_get (postTemp_only _) _ (lostCounter_dram (k := k) (by simp)), get_put_same _ _ _ _ (by decide)]
    rfl
  exact (foldl_same (fun s : State => s.get (DR_SC_STAT k) DR_SC_STAT_MODE2X)
    (fun _ _ => ite_same (π := fun s : State => s.get (DR_SC_STAT k) DR_SC_STAT_MODE2X) (payStart_stat (by decide)) rfl) _ b).trans hb

/-- Whether a sub-channel is hot depends on its reports and on the sensor. -/
theorem State.paced.hotNow (h : s.paced t k) : t.hotNow k = s.hotNow k := by
  obtain ⟨hq, hmr⟩ := h
  have htemp : t.rdN DR_TEMP_STAT = s.rdN DR_TEMP_STAT := hq.rdN (lostCounter_dram (k := k) (by simp)) (by simp [DR_TEMP_STAT, DR_SC_STAT, DR_SC_PAY_CNT]; omega)
  have hcfg : t.get DR_TEMP_CFG DR_TEMP_CFG_T2X = s.get DR_TEMP_CFG DR_TEMP_CFG_T2X :=
    hq.get (lostCounter_dram (k := k) (by simp)) (by simp [DR_TEMP_CFG, DR_SC_STAT, DR_SC_PAY_CNT]; omega) _
  unfold State.hotNow State.tempOf
  rw [hmr, htemp, hcfg]

/-- A hot sub-channel in 1x mode enters 2x mode. -/
theorem tempEval_hot (hhot : s.hotNow k = true) (hmode : s.on (DR_SC_STAT k) DR_SC_STAT_MODE2X = false) :
    (s.tempEval k).on (DR_SC_STAT k) DR_SC_STAT_MODE2X = true := by
  unfold State.tempEval
  extract_lets crosses a c
  have ha : s.paced a k := paced_ite tickFirst_paced (paced_refl ..)
  have hamode : a.on (DR_SC_STAT k) DR_SC_STAT_MODE2X = false :=
    (congrArg (· != 0) (ite_same (π := fun s : State => s.get (DR_SC_STAT k) DR_SC_STAT_MODE2X) tickFirst_mode rfl)).trans hmode
  rw [hamode, if_neg Bool.false_ne_true, if_pos (ha.hotNow.trans hhot)]
  unfold State.on
  rw [enter2x_mode]
  rfl

/-! ### Paying debt -/

theorem rdN_eq_get (a : Nat) : s.rdN a = s.get a ⟨0, 32⟩ := by
  unfold State.rdN State.get getField
  rw [Nat.pow_zero, Nat.div_one]
  exact (Nat.mod_eq_of_lt (s.rd a).isLt).symm

theorem leave2x_get {f : Fld} (hf : 2 ≤ f.lo) : (s.leave2x k).get (DR_SC_STAT k) f = s.get (DR_SC_STAT k) f := by
  unfold State.leave2x
  rw [onlyEvents_get (postTemp_only _) _ (lostCounter_dram (k := k) (by simp)), get_put_apart _ _ _ _ _ (by decide) (.inr (by exact hf))]

/-- What follows a payment, once its counts are taken. -/
def State.paydownEnd (s : State) (k r d : Nat) : State :=
  let c := s.dramAt k
  if c.pay.getD r false && decide (d ≤ 1) then
    let s := s.setDramAt k { c with pay := c.pay.set r false }
    if (s.dramAt k).pay.any id then s
    else
      let s := s.put (DR_SC_STAT k) DR_SC_STAT_PAYDOWN 0
      if c.back1x then (s.setDramAt k { s.dramAt k with back1x := false }).leave2x k else s
  else s

theorem owedPaid_eq : s.owedPaid k r = (((s.put (DR_SC_STAT k) (debtFld r) (s.debt k r - 1)).bump (DR_SC_REF_CNT k) DR_SC_REF_CNT_COUNT 1).paydownEnd k r
    (s.debt k r - 1)) := rfl

theorem paydownEnd_spec (d : Nat) : s.quiet (s.paydownEnd k r d) [DR_SC_STAT k] ∧
    (s.paydownEnd k r d).get (DR_SC_STAT k) (debtFld r) = s.get (DR_SC_STAT k) (debtFld r) := by
  obtain ⟨hfit, -, hlo⟩ := debtFld_fits r
  unfold State.paydownEnd
  extract_lets c a b
  have ha : s.quiet a [DR_SC_STAT k] := quiet_setDramAt ..
  have hb : s.quiet b [DR_SC_STAT k] := ha.trans (quiet_put ..)
  have hbget : b.get (DR_SC_STAT k) (debtFld r) = s.get (DR_SC_STAT k) (debtFld r) := get_put_apart a _ _ _ _ (by decide) (.inl hfit)
  split_ifs
  · exact ⟨ha, rfl⟩
  · refine ⟨(hb.trans (quiet_setDramAt ..)).trans ((quiet_put ..).trans ((onlyEvents_quiet (postTemp_only _)).mono (by simp))), ?_⟩
    rw [leave2x_get (by omega)]
    exact hbget
  · exact ⟨hb, hbget⟩
  · exact ⟨quiet_refl .., rfl⟩

/-- A payment takes one from the debt and counts one refresh. -/
theorem owedPaid_spec : (s.owedPaid k r).debt k r = s.debt k r - 1 ∧
    (s.rdN (DR_SC_REF_CNT k) + 1 < 2 ^ 32 → (s.owedPaid k r).rdN (DR_SC_REF_CNT k) = s.rdN (DR_SC_REF_CNT k) + 1) ∧
    s.quiet (s.owedPaid k r) [DR_SC_STAT k, DR_SC_REF_CNT k] := by
  obtain ⟨hfit, hw, -⟩ := debtFld_fits r
  have hlt : s.debt k r < 2 ^ 3 := hw ▸ getField_lt (s.rd (DR_SC_STAT k)) (debtFld r)
  have hne : DR_SC_STAT k ≠ DR_SC_REF_CNT k := by simp [DR_SC_STAT, DR_SC_REF_CNT]
  rw [owedPaid_eq]
  generalize hd : s.debt k r - 1 = d
  obtain ⟨hq, hdebt⟩ := paydownEnd_spec (s := (s.put (DR_SC_STAT k) (debtFld r) d).bump (DR_SC_REF_CNT k) DR_SC_REF_CNT_COUNT 1) (k := k) (r := r) d
  refine ⟨?_, fun hcnt => ?_, ?_⟩
  · unfold State.debt
    rw [hdebt, get_bump_ne _ _ _ _ hne, get_put_same _ _ _ _ (by omega), hw]
    exact Nat.mod_eq_of_lt (by omega)
  · have hput : (s.put (DR_SC_STAT k) (debtFld r) d).get (DR_SC_REF_CNT k) DR_SC_REF_CNT_COUNT = s.rdN (DR_SC_REF_CNT k) := by
      rw [get_put_ne _ _ _ _ hne.symm, rdN_eq_get]
      rfl
    rw [hq.rdN (lostCounter_dram (k := k) (by simp)) (by simpa using hne.symm), rdN_eq_get]
    have h := get_bump_same (s.put (DR_SC_STAT k) (debtFld r) d) (DR_SC_REF_CNT k) DR_SC_REF_CNT_COUNT 1 (by decide) (by rw [hput]; exact hcnt)
    rw [hput] at h
    exact h
  · exact (((quiet_put ..).mono (by simp)).bump _ _ (by simp)).trans (hq.mono (by simp))

/-! ### Batches -/

theorem batchStart_spec : ((s.batchStart k).dramAt k).batch = !s.urgentWaits k ∧
    ((s.batchStart k).dramAt k).wq.map (·.id) = (s.dramAt k).wq.map (·.id) ∧ s.quiet (s.batchStart k) [] := by
  unfold State.batchStart
  dsimp only
  refine ⟨?_, ?_, quiet_setDramAt ..⟩
  · rw [dramAt_setDramAt, if_pos rfl]
  · rw [dramAt_setDramAt, if_pos rfl, List.map_map]
    refine List.map_congr_left fun e _ => ?_
    exact (apply_ite WqEntry.id ..).trans (ite_self e.id)

/-! ### Reported rates -/

/-- The controller with the reported rates, and what a rate above 2x shows. -/
def State.ratesShown (s : State) (k : Nat) (rates : List Nat) : State :=
  if rates.any fun r => decide (2 < r) then ((s.setDramAt k { s.dramAt k with mr4 := rates }).put DR_STAT DR_STAT_OVERTEMP 1).postTemp k 2
  else s.setDramAt k { s.dramAt k with mr4 := rates }

theorem ratesShown_spec (rates : List Nat) : ((s.ratesShown k rates).dramAt k).mr4 = rates ∧ s.quiet (s.ratesShown k rates) [DR_STAT] ∧
    ((∃ r ∈ rates, 2 < r) → (s.ratesShown k rates).on DR_STAT DR_STAT_OVERTEMP = true) := by
  have hset : ((s.setDramAt k { s.dramAt k with mr4 := rates }).dramAt k).mr4 = rates := by rw [dramAt_setDramAt, if_pos rfl]
  have hq : s.quiet (s.setDramAt k { s.dramAt k with mr4 := rates }) [DR_STAT] := quiet_setDramAt ..
  unfold State.ratesShown
  generalize s.setDramAt k { s.dramAt k with mr4 := rates } = v at hset hq
  split
  · refine ⟨?_, (hq.put _ _ (by simp)).events (postTemp_only _), fun _ => ?_⟩
    · rw [dramAt_congr (onlyEvents_dram (postTemp_only _)), dramAt_congr (put_dram ..), hset]
    · unfold State.on
      rw [onlyEvents_get (postTemp_only _) _ (by decide), get_put_same _ _ _ _ (by decide)]
      rfl
  next hany =>
    refine ⟨hset, hq, fun ⟨r, hr, h2⟩ => absurd (List.any_eq_true.2 ⟨r, hr, decide_eq_true h2⟩) hany⟩

/-- Reported rates are kept, and high ones act at once. -/
theorem mr4_spec (rates : List Nat) : (((s.ratesShown k rates).tempEval k).dramAt k).mr4 = rates ∧
    ((∃ r ∈ rates, 2 < r) → ((s.ratesShown k rates).tempEval k).on DR_STAT DR_STAT_OVERTEMP = true) ∧
    ((∃ r ∈ rates, 2 ≤ r) → s.on (DR_SC_STAT k) DR_SC_STAT_MODE2X = false →
      ((s.ratesShown k rates).tempEval k).on (DR_SC_STAT k) DR_SC_STAT_MODE2X = true) ∧
    s.quiet ((s.ratesShown k rates).tempEval k) [DR_STAT, DR_SC_STAT k, DR_SC_PAY_CNT k] := by
  obtain ⟨hmr, hq, hover⟩ := ratesShown_spec (s := s) (k := k) rates
  obtain ⟨hp, hpmr⟩ := tempEval_paced (s := s.ratesShown k rates) (k := k)
  have hstat : DR_STAT ∉ [DR_SC_STAT k, DR_SC_PAY_CNT k] := by
    simp only [DR_STAT, DR_SC_STAT, DR_SC_PAY_CNT, List.mem_cons, List.not_mem_nil, or_false]
    omega
  refine ⟨hpmr.trans hmr, fun h => ?_, fun ⟨r, hr, h2⟩ hmode => tempEval_hot ?_ ?_, (hq.mono (by simp)).trans (hp.mono (by simp))⟩
  · exact (congrArg (· != 0) (hp.get (by decide) hstat _)).trans (hover h)
  · unfold State.hotNow
    rw [hmr, List.any_eq_true.2 ⟨r, hr, decide_eq_true h2⟩, Bool.true_or]
  · have hne : DR_SC_STAT k ∉ [DR_STAT] := by
      simp only [DR_STAT, DR_SC_STAT, List.mem_singleton]
      omega
    exact (congrArg (· != 0) (hq.get (lostCounter_dram (k := k) (by simp)) hne _)).trans hmode

/-! ### Scrub and retraining -/

theorem blockRead_good : blockRead false [] = .good := by decide

/-- A read of an unpoisoned hub without errors changes nothing. -/
theorem dramCheck_good (c : DramConf) (hpa : Nat) (cls : MemClass) (deadline : Nat) (hp : s.poison.contains (blockOf hpa) = false) :
    s.dramCheck c hpa cls deadline [] [] = (s, true) := by
  unfold State.dramCheck
  dsimp only
  rw [hp, blockRead_good]
  split_ifs <;> rfl

/-- Only the trained values, and what is drawn for them, changed. -/
structure State.onlyTrained (s t : State) : Prop where
  eq : t = { s with free := t.free, trained := t.trained }

theorem State.onlyTrained.trans (h : s.onlyTrained t) (i : t.onlyTrained u) : s.onlyTrained u := ⟨by rw [i.eq, h.eq]⟩

theorem State.onlyTrained.set (h : s.onlyTrained t) (v : List Byte) : s.onlyTrained { t with trained := v } := ⟨by rw [h.eq]⟩

theorem State.onlyTrained.quiet (h : s.onlyTrained t) (but : List Nat) : s.quiet t but := by
  rw [h.eq]
  exact quiet_of_same rfl rfl rfl rfl rfl rfl

theorem State.onlyTrained.dram (h : s.onlyTrained t) : t.dram = s.dram := by rw [h.eq]

theorem drawTrained_only (n : Nat) (s : State) : s.onlyTrained (s.drawTrained n).2 := by
  induction n generalizing s with
  | zero => exact ⟨rfl⟩
  | succ n ih => exact State.onlyTrained.trans ⟨rfl⟩ (ih { s with free := s.free + 1 })

theorem onlyTrained_of_draw {n : Nat} {bs : List Byte} (h : s.drawTrained n = (bs, t)) : s.onlyTrained t := by
  have hd := drawTrained_only n s
  rwa [h] at hd

theorem rankRecord_only : s.onlyTrained s.rankRecord.2 := by
  generalize e : State.rankRecord = f
  delta State.rankRecord at e
  subst e
  beta_reduce
  split; next ha =>
  split; next hb =>
  split; next hc =>
  exact ((onlyTrained_of_draw ha).trans (onlyTrained_of_draw hb)).trans (onlyTrained_of_draw hc)

theorem trainRank_only (c : DramConf) : s.onlyTrained (s.trainRank c k r) := by
  have hrec := rankRecord_only (s := s)
  unfold State.trainRank
  generalize s.rankRecord = x at hrec ⊢
  exact hrec.set _

/-- The turn of retraining goes on. -/
def State.retrainTurn (s : State) (k next : Nat) : State := s.setDramAt k { s.dramAt k with nextRank := next, trainAt := s.dtime }

theorem retrainTurn_spec (next : Nat) : ((s.retrainTurn k next).dramAt k).nextRank = next ∧ ((s.retrainTurn k next).dramAt k).trainAt = s.dtime ∧
    s.quiet (s.retrainTurn k next) [] := by
  unfold State.retrainTurn
  rw [dramAt_setDramAt, if_pos rfl]
  exact ⟨rfl, rfl, quiet_setDramAt ..⟩

end

/-- Settles O23: each upkeep command has a lemma that says what it leaves; `State.paced` is the frame that ticks, paydowns and mode changes
share. -/
theorem dramUpkeepCompletes : Obligations.DramUpkeepCompletes := by
  unfold Obligations.DramUpkeepCompletes
  intro s now c x
  have htick : ∀ but, s.quiet x but := fun but => (quiet_tick s now).mono (by simp)
  refine ⟨fun hdue => ?_, fun rank bank => rfl, fun r hdue => ?_, fun r hon hdebt => ?_, fun rates hon => ?_, fun temp => ?_,
    fun conf hpa hconf _ _ _ hpoison => ?_, fun conf r changed hconf hdue => ?_⟩
  · have hrun : exec (.writeBatchStart now c) s = .next (x.batchStart c.val) := congrArg Host.Outcome.next (if_pos hdue)
    obtain ⟨hbatch, hwq, hq⟩ := batchStart_spec (s := x) (k := c.val)
    exact ⟨_, hrun, hbatch, hwq, (htick _).trans hq⟩
  · have hrun : exec (.refreshTick now c r) s = .next (x.refreshTick c.val r.val) := congrArg Host.Outcome.next (if_pos hdue)
    exact ⟨_, hrun, refreshTick_debt, (htick _).trans refreshTick_paced.1⟩
  · have hcond : (s.rankOn c.val r.val && decide (1 ≤ s.debt c.val r.val)) = true := Bool.and_eq_true_iff.2 ⟨hon, decide_eq_true hdebt⟩
    have hrun : exec (.owedCommandPaid now c r) s = .next (x.owedPaid c.val r.val) := congrArg Host.Outcome.next (if_pos hcond)
    obtain ⟨hpaid, hcnt, hq⟩ := owedPaid_spec (s := x) (k := c.val) (r := r.val)
    exact ⟨_, hrun, hpaid, hcnt, (htick _).trans hq⟩
  · have hrun : exec (.mr4Poll now c rates) s = .next ((x.ratesShown c.val rates).tempEval c.val) := congrArg Host.Outcome.next (if_pos hon)
    obtain ⟨hmr, hover, hmode, hq⟩ := mr4_spec (s := x) (k := c.val) rates
    exact ⟨_, hrun, hmr, hover, hmode, (htick _).trans hq⟩
  · let ch := c.val / 2
    let words := [DR_TEMP_STAT, DR_SC_STAT (2 * ch), DR_SC_STAT (2 * ch + 1), DR_SC_PAY_CNT (2 * ch), DR_SC_PAY_CNT (2 * ch + 1)]
    have hch : ch < 4 := by omega
    have heval : ∀ (u : State) (k : Nat), k ∈ [2 * ch, 2 * ch + 1] → u.quiet (if u.subOn k then u.tempEval k else u) words.tail := fun u k hk =>
      quiet_ite (tempEval_paced.1.mono (by
        simp only [List.mem_cons, List.not_mem_nil, or_false] at hk
        obtain rfl | rfl := hk <;> simp [words])) (quiet_refl ..)
    have hfold : (x.put DR_TEMP_STAT ⟨8 * ch, 8⟩ (toBits 8 temp)).quiet
        ([2 * ch, 2 * ch + 1].foldl (fun s k => if s.subOn k then s.tempEval k else s) (x.put DR_TEMP_STAT ⟨8 * ch, 8⟩ (toBits 8 temp))) words.tail :=
      quiet_foldl heval _
    refine ⟨_, rfl, ?_, ((htick words).put _ _ (by simp [words])).trans (hfold.mono fun a ha => List.mem_cons_of_mem _ ha)⟩
    have hnot : DR_TEMP_STAT ∉ words.tail := by
      simp only [words, List.tail_cons, DR_TEMP_STAT, DR_SC_STAT, DR_SC_PAY_CNT, List.mem_cons, List.not_mem_nil, or_false]
      omega
    refine (hfold.get (by decide) hnot _).trans ((get_put_same x _ _ _ (by simp only; omega)).trans ?_)
    refine Nat.mod_eq_of_lt ?_
    unfold toBits
    simp only
    omega
  · have hout : x.poison.contains (blockOf (blockOf hpa)) = false := by rw [show x.poison = [] from hpoison]; rfl
    have hx : x.locket.dram = some conf := hconf
    simp only [exec, execPatrolScrub]
    rw [show s.tick now = x from rfl, hx]
    refine congrArg Host.Outcome.next ?_
    unfold State.when
    dsimp only
    rw [dramCheck_good _ _ _ _ hout]
    split <;> rfl
  · have hx : x.locket.dram = some conf := hconf
    have hrun : exec (.retrainStep now c r changed) s =
        .next (if changed then ((x.retrainTurn c.val ((r.val + 1) % conf.ranks)).trainRank conf c.val r.val).put DR_STAT DR_STAT_SNAPDIRTY 1
          else x.retrainTurn c.val ((r.val + 1) % conf.ranks)) := by
      simp only [exec, execRetrainStep]
      rw [show s.tick now = x from rfl, hx]
      exact congrArg Host.Outcome.next (if_pos hdue)
    obtain ⟨hnext, hat, hq⟩ := retrainTurn_spec (s := x) (k := c.val) ((r.val + 1) % conf.ranks)
    have htrained : (x.retrainTurn c.val ((r.val + 1) % conf.ranks)).trained = s.trained := rfl
    rw [hrun]
    generalize x.retrainTurn c.val ((r.val + 1) % conf.ranks) = v at hnext hat hq htrained
    refine ⟨_, rfl, ?_⟩
    cases changed with
    | false => exact ⟨hnext, hat, fun h => absurd h Bool.false_ne_true, fun _ => htrained, (htick _).trans (hq.mono (by simp))⟩
    | true =>
      have hkept := trainRank_only (s := v) (k := c.val) (r := r.val) conf
      have hdram : ((v.trainRank conf c.val r.val).put DR_STAT DR_STAT_SNAPDIRTY 1).dram = v.dram := (put_dram ..).trans hkept.dram
      refine ⟨?_, ?_, fun _ => ?_, fun h => absurd h.symm Bool.false_ne_true, ?_⟩
      · exact (congrArg SubCh.nextRank (dramAt_congr hdram)).trans hnext
      · exact (congrArg SubCh.trainAt (dramAt_congr hdram)).trans hat
      · unfold State.on
        rw [if_pos rfl, get_put_same _ _ _ _ (by decide)]
        rfl
      · exact (((htick _).trans (hq.mono (by simp))).trans (hkept.quiet _)).put _ _ (by simp)

end Sys2Proof.Machine
end

section

namespace Sys2Proof.Machine

/-! ## Changes of one range of memory -/

section

variable {s t u : State} {a n : Nat} {but : List Nat}

/-- A write of bytes changes memory alone. -/
theorem wrBytes_eq (s : State) (a : Nat) (bs : List Byte) : s.wrBytes a bs = { s with mem := (s.wrBytes a bs).mem } := by
  induction bs generalizing s a with
  | nil => rfl
  | cons b bs ih =>
    rw [State.wrBytes]
    exact (ih (s.wrByte a b) (a + 1)).trans rfl

theorem wrBytes_dram (bs : List Byte) : (s.wrBytes a bs).dram = s.dram := by rw [wrBytes_eq]

/-- Undefined bytes change memory, and how many of them were drawn. -/
theorem wrFree_eq (s : State) (a n : Nat) : s.wrFree a n = { s with mem := (s.wrFree a n).mem, free := (s.wrFree a n).free } := by
  induction n generalizing s a with
  | zero => rfl
  | succ n ih =>
    rw [State.wrFree]
    exact (ih _ _).trans rfl

/-- A change of the range `[a, a + n)` of memory and of the registers named. -/
structure State.touches (s t : State) (a n : Nat) (but : List Nat) : Prop where
  mem : ∀ b, b < a ∨ a + n ≤ b → t.rdByte b = s.rdByte b
  store : s.storeSame t
  regs : s.regsSame t but

theorem State.quiet.touches (h : s.quiet t but) : s.touches t a n but := ⟨fun b _ => h.1 b, h.2.1, h.2.2⟩

theorem State.touches.trans (h : s.touches t a n but) (k : t.touches u a n but) : s.touches u a n but where
  mem b hb := (k.mem b hb).trans (h.mem b hb)
  store := ⟨k.store.1.trans h.store.1, k.store.2.1.trans h.store.2.1, k.store.2.2.trans h.store.2.2⟩
  regs r hl hr := (k.regs r hl hr).trans (h.regs r hl hr)

theorem State.touches.mono {but' : List Nat} (h : s.touches t a n but) (hb : ∀ r ∈ but, r ∈ but') : s.touches t a n but' where
  mem := h.mem
  store := h.store
  regs r hl hr := h.regs r hl fun hc => hr (hb r hc)

theorem State.touches.next (h : s.touches t a n but) {more : List Nat} (k : t.quiet u more) (hm : ∀ r ∈ more, r ∈ but) :
    s.touches u a n but := h.trans (k.mono hm).touches

theorem touches_wrBytes (s : State) (a : Nat) (bs : List Byte) : s.touches (s.wrBytes a bs) a bs.length [] where
  mem b hb := by rw [rdByte_wrBytes, if_neg (by omega)]
  store := by rw [wrBytes_eq]; exact ⟨rfl, rfl, rfl⟩
  regs r _ _ := by rw [wrBytes_eq]; rfl

/-- A write of a range gives its bytes. -/
theorem rdBytes_wrBytes (s : State) (a : Nat) (bs : List Byte) : (s.wrBytes a bs).rdBytes a bs.length = bs := by
  refine List.ext_getElem (by simp [State.rdBytes]) fun i h _ => ?_
  have hi : i < bs.length := by simpa [State.rdBytes] using h
  simp only [State.rdBytes, List.getElem_map, List.getElem_range]
  rw [rdByte_wrBytes, if_pos (by omega), Nat.add_sub_cancel_left, List.getD_eq_getElem _ _ hi]

theorem rdBytes_memSame (h : s.memSame t) (a n : Nat) : t.rdBytes a n = s.rdBytes a n :=
  List.map_congr_left fun _ _ => h _

theorem touches_wrFree (s : State) (a n : Nat) : s.touches (s.wrFree a n) a n [] where
  mem b hb := by
    induction n generalizing s a with
    | zero => rfl
    | succ n ih =>
      rw [State.wrFree]
      have h := ih ((s.drawFree.2).wrByte a s.drawFree.1) (a + 1) (by omega)
      rw [rdByte_wrByte, if_neg (by omega)] at h
      exact h
  store := by rw [wrFree_eq]; exact ⟨rfl, rfl, rfl⟩
  regs r _ _ := by rw [wrFree_eq]; rfl

theorem quiet_clearPoison : s.quiet (s.clearPoison a n) but := quiet_of_same rfl rfl rfl rfl rfl rfl

end

/-! ## The controllers' queues (R433 to R437) -/

section

variable {s : State} {k : Nat}

theorem quiet_wqShow : s.quiet (s.wqShow k) [DR_SC_WQ k] := ((quiet_put ..).mono (by simp)).put _ _ (by simp)

theorem wqShow_dramAt (j : Nat) : (s.wqShow k).dramAt j = s.dramAt j := dramAt_congr ((put_dram ..).trans (put_dram ..))

theorem openRow_dramAt (l : DramLoc) : (s.openRow k l).dramAt k = { s.dramAt k with
    rows := (l.rank, l.bank, l.row, s.dtime) :: (s.dramAt k).rows.filter fun r => !(r.1 == l.rank && r.2.1 == l.bank) } := by
  unfold State.openRow
  rw [dramAt_setDramAt, if_pos rfl]

theorem quiet_openRow (l : DramLoc) (but : List Nat) : s.quiet (s.openRow k l) but := quiet_setDramAt ..

/-! ### Reads -/

/-- A read of level 1 ends a batch (R436). -/
def State.batchEnds (s : State) (k : Nat) : State := if s.urgentWaits k then s.setDramAt k { s.dramAt k with batch := false } else s

theorem batchEnds_spec : ((s.batchEnds k).dramAt k).reads = (s.dramAt k).reads ∧ ((s.batchEnds k).dramAt k).wq = (s.dramAt k).wq ∧
    ((s.batchEnds k).dramAt k).done = (s.dramAt k).done ∧ s.quiet (s.batchEnds k) [] := by
  unfold State.batchEnds
  split
  · rw [dramAt_setDramAt, if_pos rfl]
    exact ⟨rfl, rfl, rfl, quiet_setDramAt ..⟩
  · exact ⟨rfl, rfl, rfl, quiet_refl ..⟩

/-- The read that enters for a block. -/
def State.newRead (s : State) (k blk : Nat) (cls : MemClass) (deadline : Nat) (kind : ReadKind) (waits : Bool) : RdEntry :=
  { id := (s.dramAt k).next, hpa := blk, cls := cls, deadline := deadline, at_ := s.dtime, fill := none, waits := waits, kind := kind }

/-- A controller with one more read. -/
def SubCh.withRead (d : SubCh) (r : RdEntry) : SubCh := { d with next := d.next + 1, reads := d.reads ++ [r] }

/-- A controller with one more read answered. -/
def SubCh.withDone (d : SubCh) (good : Bool) : SubCh := { d with next := d.next + 1, done := ⟨d.next, good⟩ :: d.done }

/-- A read of a block without a complete entry goes behind the reads, and waits where the block has an entry. -/
theorem readEnter_queued {blk : Nat} (cls : MemClass) (deadline : Nat) (kind : ReadKind)
    (h : ∀ e, (s.dramAt k).entryOf blk = some e → e.complete = false) :
    s.readEnter k blk cls deadline kind = (s.setDramAt k ((s.dramAt k).withRead
      (s.newRead k blk cls deadline kind ((s.dramAt k).entryOf blk).isSome))).batchEnds k := by
  unfold State.readEnter
  dsimp only
  cases he : (s.dramAt k).entryOf blk with
  | none => rfl
  | some e =>
    simp only [h e he, Bool.false_eq_true, if_false]
    rfl

/-- A read of a block with a complete entry is answered from it. -/
theorem readEnter_answered {blk : Nat} (cls : MemClass) (deadline : Nat) (kind : ReadKind) {e : WqEntry}
    (h : (s.dramAt k).entryOf blk = some e) (hc : e.complete = true) :
    s.readEnter k blk cls deadline kind = (s.setDramAt k ((s.dramAt k).withDone (!s.poison.contains blk))).batchEnds k := by
  unfold State.readEnter
  dsimp only
  rw [h]
  simp only [hc, if_true]
  rfl

/-- What a queue shows after a change of its reads alone. -/
theorem batchEnds_set (d : SubCh) : let t := (s.setDramAt k d).batchEnds k
    (t.dramAt k).reads = d.reads ∧ (t.dramAt k).wq = d.wq ∧ (t.dramAt k).done = d.done ∧ s.quiet t [] := by
  have hd : (s.setDramAt k d).dramAt k = d := by rw [dramAt_setDramAt, if_pos rfl]
  obtain ⟨h1, h2, h3, h4⟩ := batchEnds_spec (s := s.setDramAt k d) (k := k)
  rw [hd] at h1 h2 h3
  exact ⟨h1, h2, h3, (quiet_setDramAt d []).trans h4⟩

/-- A read that may be served ends as good: it leaves the reads, and answers its requester or completes its entry. -/
theorem fillDone_good (e : Nat) : (∀ w ∈ ((s.fillDone k e true).dramAt k).wq, w.id = e → w.complete = true) ∧
    (∀ y ∈ ((s.fillDone k e true).dramAt k).reads, y ∈ (s.dramAt k).reads) ∧ s.quiet (s.fillDone k e true) [] := by
  unfold State.fillDone
  dsimp only
  cases hf : (s.dramAt k).wq.find? fun x => x.id == e with
  | none =>
    refine ⟨fun w hw hid => absurd (List.find?_eq_none.1 hf w hw) (by simp [hid]), fun y hy => hy, quiet_refl ..⟩
  | some w =>
    simp only [Bool.true_or, if_true]
    rw [dramAt_setDramAt, if_pos rfl]
    refine ⟨fun y hy hid => ?_, fun y hy => (List.mem_filter.1 hy).1, quiet_setDramAt ..⟩
    obtain ⟨z, _, hz⟩ := List.mem_map.1 hy
    by_cases hze : (z.id == e) = true
    · rw [if_pos hze] at hz; rw [← hz]
    · rw [if_neg hze] at hz
      rw [← hz] at hid
      exact absurd (beq_iff_eq.2 hid) hze

/-- A controller without a read. -/
def SubCh.dropRead (d : SubCh) (id : Nat) : SubCh := { d with reads := d.reads.filter fun y => y.id != id }

/-- A controller with an answer for a requester. -/
def SubCh.answer (d : SubCh) (id : Nat) : SubCh := { d with done := ⟨id, true⟩ :: d.done }

/-- A good read ends: it answers its requester or completes its entry. -/
def State.readEnds (s : State) (k id : Nat) (fill : Option Nat) : State :=
  match fill with
  | some e => s.fillDone k e true
  | none => s.setDramAt k ((s.dramAt k).answer id)

/-- A read that returns good leaves the reads, and answers its requester or completes its entry. -/
theorem readEnds_spec (id : Nat) (fill : Option Nat) :
    let t := (s.setDramAt k ((s.dramAt k).dropRead id)).readEnds k id fill
    (∀ y ∈ (t.dramAt k).reads, y.id ≠ id) ∧ (fill = none → (t.dramAt k).done = ⟨id, true⟩ :: (s.dramAt k).done) ∧
      (∀ e, fill = some e → ∀ w ∈ (t.dramAt k).wq, w.id = e → w.complete = true) ∧ s.quiet t [] := by
  have hv : (s.setDramAt k ((s.dramAt k).dropRead id)).dramAt k = (s.dramAt k).dropRead id := by rw [dramAt_setDramAt, if_pos rfl]
  have hq : s.quiet (s.setDramAt k ((s.dramAt k).dropRead id)) [] := quiet_setDramAt ..
  have hgone : ∀ y ∈ ((s.dramAt k).dropRead id).reads, y.id ≠ id := fun y hy => by simpa using (List.mem_filter.1 hy).2
  generalize s.setDramAt k ((s.dramAt k).dropRead id) = v at hv hq
  rw [← hv] at hgone
  cases fill with
  | none =>
    dsimp only [State.readEnds]
    rw [dramAt_setDramAt, if_pos rfl]
    exact ⟨hgone, fun _ => by rw [hv]; rfl, fun _ he => (nomatch he), hq.trans (quiet_setDramAt ..)⟩
  | some e =>
    obtain ⟨hw, hr, hf⟩ := fillDone_good (s := v) (k := k) e
    exact ⟨fun y hy => hgone y (hr y hy), fun he => (nomatch he), fun e' he => by cases he; exact hw, hq.trans hf⟩

/-! ### Writes -/

/-- The entry that a write of bytes inside one block makes. -/
def State.newEntry (s : State) (k hpa : Nat) (bs : List Byte) (cls : MemClass) (deadline : Nat) : WqEntry :=
  { id := (s.dramAt k).next, hpa := blockOf hpa, given := (List.range bs.length).map fun i => hpa - blockOf hpa + i,
    complete := ((List.range bs.length).map fun i => hpa - blockOf hpa + i).length == 64, cls := cls, deadline := deadline, at_ := s.dtime,
    attempts := 0, issued := false }

/-- A controller without an entry of the block, with room and nothing waiting. -/
def SubCh.takes (c : SubCh) (blk : Nat) (cls : MemClass) : Prop := c.waits = [] ∧ c.room cls = true ∧ c.entryOf blk = none

/-- A write that its controller takes stands in memory, and one entry goes behind its queue. -/
theorem wqOffer_new {hpa : Nat} (bs : List Byte) {cls : MemClass} (deadline : Nat) (h : (s.dramAt k).takes (blockOf hpa) cls) :
    let t := s.wqOffer k hpa bs cls deadline
    t.rdBytes hpa bs.length = bs ∧ s.touches t hpa bs.length [DR_SC_WQ k] ∧
      (t.dramAt k).wq = (s.dramAt k).wq ++ [s.newEntry k hpa bs cls deadline] ∧ ∀ j, j ≠ k → t.dramAt j = s.dramAt j := by
  obtain ⟨hw, hr, he⟩ := h
  unfold State.wqOffer SubCh.mayEnter
  dsimp only
  rw [hw, hr, List.all_nil, Bool.true_and, Bool.true_or, if_pos rfl]
  unfold State.wqEnter
  dsimp only
  rw [he]
  dsimp only
  have hb := rdBytes_wrBytes s hpa bs
  have htouch := touches_wrBytes s hpa bs
  have hdram : ∀ j, (s.wrBytes hpa bs).dramAt j = s.dramAt j := fun j => dramAt_congr (wrBytes_dram bs)
  have htime : (s.wrBytes hpa bs).dtime = s.dtime := by rw [wrBytes_eq]
  generalize s.wrBytes hpa bs = v at hb htouch hdram htime
  have hcp : ∀ j, (v.clearPoison hpa bs.length).dramAt j = v.dramAt j := fun _ => rfl
  have hct : (v.clearPoison hpa bs.length).dtime = v.dtime := rfl
  have hcq : v.quiet (v.clearPoison hpa bs.length) [] := quiet_clearPoison
  generalize v.clearPoison hpa bs.length = w at hcp hct hcq
  refine ⟨?_, ?_, ?_, fun j hj => ?_⟩
  · rw [rdBytes_memSame (hcq.mono (by simp) |>.trans ((quiet_setDramAt _ [DR_SC_WQ k]).trans quiet_wqShow)).1, hb]
  · exact (htouch.mono (by simp)).next (hcq.mono (by simp) |>.trans ((quiet_setDramAt _ [DR_SC_WQ k]).trans quiet_wqShow)) (by simp)
  · rw [wqShow_dramAt, dramAt_setDramAt, if_pos rfl, hct, htime]
    rfl
  · rw [wqShow_dramAt, dramAt_setDramAt, if_neg hj, hcp, hdram]

/-- A write that each of some controllers takes: its bytes stand in memory, and each queue has one more entry. -/
theorem wqOffer_each {hpa : Nat} (bs : List Byte) {cls : MemClass} (deadline : Nat) (ks : List Nat) (hn : ks.Nodup) (s : State)
    (h : ∀ k ∈ ks, (s.dramAt k).takes (blockOf hpa) cls) :
    let t := ks.foldl (fun s k => s.wqOffer k hpa bs cls deadline) s
    (ks ≠ [] → t.rdBytes hpa bs.length = bs) ∧ s.touches t hpa bs.length (ks.map DR_SC_WQ) ∧
      (∀ k ∈ ks, ∃ e, (t.dramAt k).wq = (s.dramAt k).wq ++ [e] ∧ e.hpa = blockOf hpa ∧ e.cls = cls ∧ e.deadline = deadline ∧
        e.complete = decide (bs.length = 64) ∧ e.issued = false) ∧
      ∀ j, j ∉ ks → t.dramAt j = s.dramAt j := by
  induction ks generalizing s with
  | nil => exact ⟨fun hc => absurd rfl hc, (quiet_refl s []).touches, fun _ hc => absurd hc List.not_mem_nil, fun _ _ => rfl⟩
  | cons k ks ih =>
    obtain ⟨hk, hn⟩ := List.nodup_cons.1 hn
    obtain ⟨hbs, ht, hwq, hother⟩ := wqOffer_new bs deadline (h k List.mem_cons_self)
    have hrest : ∀ j ∈ ks, j ≠ k := fun j hj e => hk (e ▸ hj)
    obtain ⟨ihb, iht, ihw, iho⟩ := ih hn (s.wqOffer k hpa bs cls deadline) fun j hj => by
      rw [hother j (hrest j hj)]
      exact h j (List.mem_cons_of_mem _ hj)
    rw [List.foldl_cons]
    generalize s.wqOffer k hpa bs cls deadline = v at *
    refine ⟨fun _ => ?_, (ht.mono (by simp)).trans (iht.mono fun _ hr => List.mem_cons_of_mem _ hr), fun j hj => ?_, fun j hj => ?_⟩
    · by_cases hks : ks = []
      · rw [hks]
        exact hbs
      · exact ihb hks
    · rcases List.mem_cons.1 hj with rfl | hj
      · refine ⟨s.newEntry j hpa bs cls deadline, (congrArg SubCh.wq (iho j hk)).trans hwq, rfl, rfl, rfl, ?_, rfl⟩
        show (List.length _ == 64) = _
        rw [List.length_map, List.length_range]
        exact beq_eq_decide _ _
      · obtain ⟨e, he, hrest'⟩ := ihw j hj
        exact ⟨e, by rw [he, hother j (hrest j hj)], hrest'⟩
    · obtain ⟨hjk, hj⟩ := not_or.1 (mt List.mem_cons.2 hj)
      exact (iho j hj).trans (hother j hjk)

/-- An entry leaves the queue of a controller where nothing waits. -/
theorem wqDrop_spec (id : Nat) (h : (s.dramAt k).waits = []) :
    ((s.wqDrop k id).dramAt k).wq = (s.dramAt k).wq.filter (fun y => y.id != id) ∧
      ((s.wqDrop k id).dramAt k).failedWr = (s.dramAt k).failedWr ∧ s.quiet (s.wqDrop k id) [DR_SC_WQ k] := by
  unfold State.wqDrop
  extract_lets c wq v
  have hv : v.dramAt k = { c with wq := wq, batch := c.batch && decide (16 < wq.length) } := by
    rw [show v = s.setDramAt k _ from rfl, dramAt_setDramAt, if_pos rfl]
  have hq : s.quiet v [DR_SC_WQ k] := quiet_setDramAt ..
  have hw : (v.dramAt k).waits = [] := by rw [hv]; exact h
  clear_value v
  rw [hw, State.wqRefill, wqShow_dramAt, dramAt_setDramAt, if_pos rfl, hv]
  exact ⟨rfl, rfl, (hq.trans (quiet_setDramAt ..)).trans quiet_wqShow⟩

theorem writeLost_touches (hpa : Nat) : s.touches (s.writeLost k hpa) hpa 64 [] := by
  unfold State.writeLost
  split
  · split
    · exact (quiet_refl ..).touches
    · exact touches_wrFree ..
  · exact touches_wrFree ..

theorem writeLost_dram (hpa : Nat) : (s.writeLost k hpa).dram = s.dram := by
  unfold State.writeLost
  split
  · split
    · rfl
    · rw [wrFree_eq]
  · rw [wrFree_eq]

/-- A controller that notes a failed write. -/
def SubCh.noteFailed (d : SubCh) (id : Nat) : SubCh := { d with failedWr := id :: d.failedWr }

/-- The failed write of entry `id` leaves its block undefined and its entry behind (R428). -/
def State.writeFails (s : State) (k hpa id : Nat) : State :=
  ((s.writeLost k hpa).setDramAt k (((s.writeLost k hpa).dramAt k).noteFailed id)).wqDrop k id

theorem writeFails_spec (hpa id : Nat) (hw : (s.dramAt k).waits = []) :
    let t := s.writeFails k hpa id
    (t.dramAt k).wq = (s.dramAt k).wq.filter (fun y => y.id != id) ∧ id ∈ (t.dramAt k).failedWr ∧ s.touches t hpa 64 [DR_SC_WQ k] := by
  unfold State.writeFails
  have hd : (s.writeLost k hpa).dramAt k = s.dramAt k := dramAt_congr (writeLost_dram hpa)
  have ht : s.touches (s.writeLost k hpa) hpa 64 [DR_SC_WQ k] := (writeLost_touches hpa).mono (by simp)
  generalize s.writeLost k hpa = w at hd ht
  have hud : (w.setDramAt k ((w.dramAt k).noteFailed id)).dramAt k = (w.dramAt k).noteFailed id := by rw [dramAt_setDramAt, if_pos rfl]
  have huq : w.quiet (w.setDramAt k ((w.dramAt k).noteFailed id)) [DR_SC_WQ k] := quiet_setDramAt ..
  generalize w.setDramAt k ((w.dramAt k).noteFailed id) = u at hud huq
  obtain ⟨h1, h2, h3⟩ := wqDrop_spec (s := u) (k := k) id (by rw [hud, hd]; exact hw)
  refine ⟨h1.trans (by rw [hud, hd]; rfl), ?_, (ht.trans huq.touches).trans h3.touches⟩
  rw [h2, hud]
  exact List.mem_cons_self

/-- An acknowledged entry leaves the queue of a controller where nothing waits (R435). -/
theorem wqAck_spec {conf : DramConf} (hconf : s.locket.dram = some conf) {id : Nat} {e : WqEntry}
    (he : (s.dramAt k).wq.find? (fun e => e.id == id && e.issued && e.complete) = some e) (hw : (s.dramAt k).waits = []) :
    ((s.wqAck k id).dramAt k).wq = (s.dramAt k).wq.filter (fun y => y.id != id) ∧ s.quiet (s.wqAck k id) [DR_SC_WQ k] := by
  unfold State.wqAck
  rw [hconf, he]
  dsimp only
  have ho := openRow_dramAt (s := s) (k := k) (s.dramLoc conf e.hpa)
  have hq : s.quiet (s.openRow k (s.dramLoc conf e.hpa)) [DR_SC_WQ k] := quiet_openRow ..
  generalize s.openRow k (s.dramLoc conf e.hpa) = v at ho hq
  obtain ⟨h1, _, h3⟩ := wqDrop_spec (s := v) (k := k) id (by rw [ho]; exact hw)
  have h1 := h1.trans (by rw [ho])
  have h3 := hq.trans h3
  generalize v.wqDrop k id = w at h1 h3
  split
  · exact ⟨h1, h3⟩
  · rw [dramAt_setDramAt, if_pos rfl]
    exact ⟨h1, h3.trans (quiet_setDramAt ..)⟩

/-- The count and the report of a write that has failed for good (R428, R449). -/
def State.failShown (s : State) (k hpa : Nat) : State :=
  let s := s.bump (DR_SC_WRFAIL_CNT k) DR_SC_WRFAIL_CNT_COUNT 1
  s.postAll 7 k 0x71 (dramPayload hpa 0 (s.copyOf k hpa) 4 (s.rdN (DR_SC_WRFAIL_CNT k)))

theorem lostCounter_wrfail (k : Nat) : lostCounter (DR_SC_WRFAIL_CNT k) = false :=
  lostCounter_eq_false fun p _ => by simp only [DR_SC_WRFAIL_CNT, HP_EV_STAT]; omega

theorem failShown_spec (hpa : Nat) : s.quiet (s.failShown k hpa) [DR_SC_WRFAIL_CNT k] ∧ (s.failShown k hpa).dramAt k = s.dramAt k ∧
    (s.rdN (DR_SC_WRFAIL_CNT k) + 1 < 2 ^ 32 → (s.failShown k hpa).rdN (DR_SC_WRFAIL_CNT k) = s.rdN (DR_SC_WRFAIL_CNT k) + 1) := by
  unfold State.failShown
  dsimp only
  refine ⟨(quiet_bump ..).events (postAll_only ..), dramAt_congr ((onlyEvents_dram (postAll_only ..)).trans (bump_dram ..)), fun h => ?_⟩
  rw [rdN_eq_get] at h
  rw [rdN_eq_get, onlyEvents_get (postAll_only ..) _ (lostCounter_wrfail k), rdN_eq_get]
  exact get_bump_same _ _ DR_SC_WRFAIL_CNT_COUNT 1 (by decide) h

/-- A read of good blocks returns (R425, R434). -/
def State.readReturns (s : State) (k : Nat) (conf : DramConf) (r : RdEntry) (id : Nat) : State :=
  let s := s.openRow k (s.dramLoc conf r.hpa)
  let x := s.dramCheck conf r.hpa r.cls r.deadline [] []
  let s := if r.kind = .speculative then s else x.1
  let d := s.dramAt k
  let s := s.setDramAt k { d with reads := d.reads.filter fun y => y.id != id }
  match r.fill with
  | some e => s.fillDone k e x.2
  | none => let d := s.dramAt k; s.setDramAt k { d with done := ⟨id, x.2⟩ :: d.done }

theorem readReturns_good (conf : DramConf) (r : RdEntry) (id : Nat) (hp : s.poison.contains (blockOf r.hpa) = false) :
    let t := s.readReturns k conf r id
    (∀ y ∈ (t.dramAt k).reads, y.id ≠ id) ∧ (r.fill = none → (t.dramAt k).done = ⟨id, true⟩ :: (s.dramAt k).done) ∧
      (∀ e, r.fill = some e → ∀ w ∈ (t.dramAt k).wq, w.id = e → w.complete = true) ∧ s.quiet t [] := by
  have ho := openRow_dramAt (s := s) (k := k) (s.dramLoc conf r.hpa)
  have hq := quiet_openRow (s := s) (k := k) (s.dramLoc conf r.hpa) []
  have hpo : (s.openRow k (s.dramLoc conf r.hpa)).poison.contains (blockOf r.hpa) = false := hp
  unfold State.readReturns
  dsimp only
  generalize s.openRow k (s.dramLoc conf r.hpa) = v at ho hq hpo
  rw [dramCheck_good conf r.hpa r.cls r.deadline hpo, ite_self]
  have h := readEnds_spec (s := v) (k := k) id r.fill
  rw [show (v.dramAt k).done = (s.dramAt k).done by rw [ho]] at h
  obtain ⟨h1, h2, h3, h4⟩ := h
  exact ⟨h1, h2, h3, hq.trans h4⟩

/-! ### Ingest lines -/

/-- The oldest open line of the frame being received is acknowledged. -/
theorem igAck_line {c : Nat} {f : IgFrame} (hfirst : ackFirst (s.igAt c).await = none) (hcur : (s.igAt c).cur = some f) (hopen : f.open_ ≠ []) :
    ((s.igAck c).igAt c).cur = some f.ack ∧ (s.igAck c).get (IG_LINE_CNT c) IG_LINE_CNT_A = f.ack.leading % 65536 ∧
      s.quiet (s.igAck c) [IG_LINE_CNT c] := by
  unfold State.igAck
  dsimp only
  rw [hfirst, hcur]
  dsimp only
  rw [if_neg (by simpa using hopen)]
  generalize hv : s.setIgAt c { s.igAt c with cur := some f.ack } = v
  have hvi : v.igAt c = { s.igAt c with cur := some f.ack } := by rw [← hv, igAt_setIgAt, if_pos rfl]
  have hvq : s.quiet v [IG_LINE_CNT c] := by rw [← hv]; exact quiet_of_same rfl rfl rfl rfl rfl rfl
  refine ⟨?_, get_put_same _ _ _ _ (by decide), hvq.put _ _ (by simp)⟩
  have he : (v.put (IG_LINE_CNT c) IG_LINE_CNT_A f.ack.leading).igAt c = v.igAt c := by
    unfold State.igAt
    rw [put_ig]
  rw [he, hvi]


/-! ### The commands -/

variable {conf : DramConf}

theorem dramRead_run {now hpa : Nat} {cls : ReadClass} {deadline : Nat} (hconf : s.locket.dram = some conf) (htakes : s.ddrTakes = true)
    (hcap : hpa < s.dramCap) (hserves : s.ddrServes hpa = true) : exec (.dramRead now hpa cls deadline) s =
      .next ((s.tick now).readEnter (s.servingSub conf hpa) (blockOf hpa) cls.cls deadline cls.kind) := by
  have hx : (s.tick now).locket.dram = some conf := hconf
  simp only [exec, execDramRead]
  rw [hx]
  refine congrArg Host.Outcome.next (if_pos ?_)
  simp only [Bool.and_eq_true, decide_eq_true_eq]
  exact ⟨⟨htakes, hcap⟩, hserves⟩

theorem dramWrite_run {now hpa : Nat} {data : List Byte} {cls : MemClass} {deadline : Nat} (hconf : s.locket.dram = some conf)
    (htakes : s.ddrTakes = true) (hend : hpa + data.length ≤ s.dramCap) :
    exec (.dramWrite now hpa data cls deadline) s = .next ((s.tick now).dramWrite conf hpa data cls deadline) := by
  have hx : (s.tick now).locket.dram = some conf := hconf
  simp only [exec, execDramWrite]
  rw [hx]
  refine congrArg Host.Outcome.next (if_pos ?_)
  simp only [Bool.and_eq_true, decide_eq_true_eq]
  exact ⟨htakes, hend⟩

theorem dramReadReturn_run {now : Nat} {c : Fin 8} {id : Nat} {r : RdEntry} (hconf : s.locket.dram = some conf)
    (hr : (s.dramAt c.val).reads.find? (fun r => r.id == id && !r.waits) = some r) :
    exec (.dramReadReturn now c id [] []) s =
      .next (if (s.tick now).mayServe conf c.val r then (s.tick now).readReturns c.val conf r id else s.tick now) := by
  have hx : (s.tick now).locket.dram = some conf := hconf
  have hd : ((s.tick now).dramAt c.val).reads.find? (fun r => r.id == id && !r.waits) = some r := hr
  simp only [exec, execDramReadReturn]
  rw [hx, hd]
  rfl

theorem writeCrcAlert_run {now : Nat} {c : Fin 8} {id : Nat} {e : WqEntry}
    (he : (s.dramAt c.val).wq.find? (fun e => e.id == id && e.issued) = some e) :
    exec (.writeCrcAlert now c id) s = .next (if e.attempts < 4 then (s.tick now).setDramAt c.val { s.dramAt c.val with
        wq := (s.dramAt c.val).wq.map fun y => if y.id == id then { y with attempts := y.attempts + 1 } else y }
      else ((s.tick now).failShown c.val e.hpa).writeFails c.val e.hpa id) := by
  have hd : ((s.tick now).dramAt c.val).wq.find? (fun e => e.id == id && e.issued) = some e := he
  simp only [exec, execWriteCrcAlert]
  rw [hd]
  rfl

end

/-! ## The obligation -/

/-- Settles O22: each access is one move of one queue; a write's bytes stand in memory from its entry on. -/
theorem dramAccessCompletes : Obligations.DramAccessCompletes := by
  unfold Obligations.DramAccessCompletes
  intro s now x
  have hx : ∀ but, s.quiet x but := fun but => (quiet_tick s now).mono (by simp)
  refine ⟨fun c hpa cls deadline hconf htakes hcap => ⟨fun kind hserves => ?_, ?_⟩, fun conf c id r hconf hpoison hr => ?_,
    fun c id e he => ⟨fun hlow => ?_, fun hhigh hwaits => ?_⟩, fun conf c id e hconf he hwaits => ?_, fun c f hup hfirst hcur hopen => ?_,
    fun c q hup hrun hmoved => ?_⟩
  · have hexec := dramRead_run (now := now) (cls := ⟨cls, kind⟩) (deadline := deadline) hconf htakes hcap hserves
    refine ⟨fun hnone => ?_, fun e he hcomplete => ?_⟩
    · have hexec := hexec.trans (congrArg Host.Outcome.next (readEnter_queued (s := x) cls deadline kind hnone))
      obtain ⟨hreads, hwq, _, hq⟩ := batchEnds_set (s := x) (k := s.servingSub c hpa) ((x.dramAt (s.servingSub c hpa)).withRead
        (x.newRead (s.servingSub c hpa) (blockOf hpa) cls deadline kind ((x.dramAt (s.servingSub c hpa)).entryOf (blockOf hpa)).isSome))
      exact ⟨_, _, hexec, hreads, rfl, rfl, rfl, rfl, rfl, rfl, rfl, hwq, (hx _).trans hq⟩
    · have hexec := hexec.trans (congrArg Host.Outcome.next (readEnter_answered (s := x) cls deadline kind he hcomplete))
      obtain ⟨hreads, _, hdone, hq⟩ := batchEnds_set (s := x) (k := s.servingSub c hpa) ((x.dramAt (s.servingSub c hpa)).withDone
        (!x.poison.contains (blockOf hpa)))
      exact ⟨_, hexec, hdone, hreads, (hx _).trans hq⟩
  · intro data _ _ hend ks hks hnodup htake
    obtain ⟨hbytes, htouch, hentry, _⟩ := wqOffer_each (hpa := hpa) data (cls := cls) deadline ks hnodup x htake
    have ht := (hx _).touches.trans htouch
    exact ⟨_, dramWrite_run hconf htakes hend, hbytes hks, ht.mem, hentry, ht.store, ht.regs⟩
  · have hexec := dramReadReturn_run (now := now) hconf hr
    refine ⟨fun hno => hexec.trans (congrArg Host.Outcome.next (if_neg (by rw [hno]; exact Bool.false_ne_true))), fun hyes => ?_⟩
    obtain ⟨hgone, hdone, hfill, hq⟩ := readReturns_good (s := x) (k := c.val) conf r id (by rw [show x.poison = [] from hpoison]; rfl)
    exact ⟨_, hexec.trans (congrArg Host.Outcome.next (if_pos hyes)), hgone, hdone, hfill, (hx _).trans hq⟩
  · exact (writeCrcAlert_run he).trans (congrArg Host.Outcome.next (if_pos hlow))
  · obtain ⟨hq, hdram, hcnt⟩ := failShown_spec (s := x) (k := c.val) e.hpa
    obtain ⟨hwq, hfailed, htouch⟩ := writeFails_spec (s := x.failShown c.val e.hpa) (k := c.val) e.hpa id (by rw [hdram]; exact hwaits)
    have ht := ((hx [DR_SC_WRFAIL_CNT c.val, DR_SC_WQ c.val]).trans (hq.mono (by simp))).touches.trans (htouch.mono (by simp))
    refine ⟨_, (writeCrcAlert_run he).trans (congrArg Host.Outcome.next (if_neg (by omega))), fun hroom => ?_, hwq.trans (by rw [hdram]; rfl),
      hfailed, ht.mem, ht.store, ht.regs⟩
    have hkeep := htouch.regs _ (lostCounter_wrfail c.val) (by simp [DR_SC_WRFAIL_CNT, DR_SC_WQ])
    exact (congrArg BitVec.toNat hkeep).trans (hcnt hroom)
  · obtain ⟨hwq, hq⟩ := wqAck_spec (s := x) (k := c.val) hconf he hwaits
    exact ⟨_, rfl, hwq, (hx _).trans hq⟩
  · obtain ⟨hframe, hline, hq⟩ := igAck_line (s := x) (c := c.val) hfirst hcur hopen
    exact ⟨_, congrArg Host.Outcome.next (if_pos hup), hframe, hline, (hx _).trans hq⟩
  · refine congrArg Host.Outcome.next ((if_pos hup).trans ?_)
    unfold State.dmaAcked
    dsimp only
    rw [show x.dmaAt c.val = s.dmaAt c.val from rfl, hrun]
    exact if_pos (by rw [hmoved]; rfl)

end Sys2Proof.Machine

end

section

namespace Sys2Proof.Machine

/-! ## Traffic (R134, R224, R404 to R406)

What the requests of the hub's units leave behind: the queues they pass, the requests and reads that are out, messages to hosts, and the
words those count in. -/

section

variable {s t u : State} {but more : List Nat}

/-- `t` is `s` but for what traffic changes, and of the registers only those named. -/
structure State.traffic (s t : State) (but : List Nat) : Prop where
  same : t = { s with ev := t.ev, seqs := t.seqs, regs := t.regs, shq := t.shq, reqs := t.reqs, flying := t.flying }
  regs : s.regsSame t but

theorem traffic_refl (s : State) (but : List Nat) : s.traffic s but := ⟨rfl, fun _ _ _ => rfl⟩

theorem State.traffic.trans (h : s.traffic t but) (k : t.traffic u but) : s.traffic u but where
  same := by
    have e := k.same
    rw [h.same] at e
    exact e
  regs a hl ha := (k.regs a hl ha).trans (h.regs a hl ha)

theorem State.traffic.mono (h : s.traffic t but) (hm : ∀ a ∈ but, a ∈ more) : s.traffic t more where
  same := h.same
  regs a hl ha := h.regs a hl fun hc => ha (hm a hc)

theorem State.traffic.quiet (h : s.traffic t but) : s.quiet t but := by
  refine ⟨fun a => ?_, ⟨?_, ?_, ?_⟩, h.regs⟩
  · unfold State.rdByte
    rw [h.same]
  all_goals rw [h.same]

theorem traffic_events (h : s.onlyEvents t) : s.traffic t but where
  same := by
    have e := h.1
    rw [e]
  regs a hl _ := h.2 a hl

theorem traffic_wr (s : State) (a : Nat) (w : Word) : s.traffic (s.wr a w) [a] := ⟨rfl, (quiet_wr s a w).2.2⟩

theorem traffic_put {a : Nat} (ha : a ∈ but) (f : Fld) (v : Nat) : s.traffic (s.put a f v) but :=
  (traffic_wr s a _).mono fun b hb => by rw [List.mem_singleton.1 hb]; exact ha

theorem traffic_bump {a : Nat} (ha : a ∈ but) (f : Fld) (n : Nat) : s.traffic (s.bump a f n) but :=
  (traffic_wr s a _).mono fun b hb => by rw [List.mem_singleton.1 hb]; exact ha

theorem traffic_setShqAt (q : Nat) (v : ShapeQ) : s.traffic (s.setShqAt q v) but := ⟨rfl, fun _ _ _ => rfl⟩

theorem traffic_setEvAt (p : Nat) (v : PortEv) : s.traffic (s.setEvAt p v) but := ⟨rfl, fun _ _ _ => rfl⟩

theorem traffic_flying (l : List (Nat × Nat)) : s.traffic { s with flying := l } but := ⟨rfl, fun _ _ _ => rfl⟩

theorem traffic_ite {c : Prop} [Decidable c] (h : s.traffic t but) (k : s.traffic u but) : s.traffic (if c then t else u) but := by
  split
  · exact h
  · exact k

/-! ### Requests -/

/-- Where window errors count. -/
def windowWords : List Nat := allPorts.map HP_HW_STAT

theorem windowOf_port {a p o : Nat} (h : windowOf a = some (p, o)) : p ∈ allPorts := by
  unfold windowOf regionOf at h
  split at h
  next hr =>
    cases h
    split at hr
    · cases hr
    · split at hr
      · cases hr
      · split at hr
        · cases hr
          simp only [allPorts, List.mem_cons, List.not_mem_nil, or_false]
          omega
        · exfalso
          revert hr
          repeat' split
          all_goals exact fun hr => nomatch hr
  · cases h

theorem request_traffic (write : Bool) (a n : Nat) (cls : MemClass) (deadline : Nat) (kind : ReadKind) :
    s.traffic (s.request write a n cls deadline kind) but := by
  unfold State.request
  split
  · exact traffic_refl ..
  · exact ⟨rfl, fun _ _ _ => rfl⟩

theorem hwError_traffic {p : Nat} (hp : p ∈ allPorts) : s.traffic (s.hwError p) windowWords :=
  (traffic_put (List.mem_map_of_mem hp) _ _).trans (traffic_bump (List.mem_map_of_mem hp) _ _)

theorem toHost_traffic (p : Nat) (m : HostMsg) : s.traffic (s.toHost p m) but := traffic_setEvAt ..

theorem busIssue_traffic (a n : Nat) (cls : MemClass) (deadline : Nat) (kind : ReadKind) :
    s.traffic (s.busIssue a n cls deadline kind) windowWords := by
  unfold State.busIssue
  split
  next hw => exact traffic_ite ((toHost_traffic ..).trans (traffic_flying _)) (hwError_traffic (windowOf_port hw))
  · exact request_traffic ..

theorem busRead_traffic (a n : Nat) (res : ReadRes) (host : List Byte) : s.traffic (s.busRead a n res host).1 but := by
  unfold State.busRead
  split
  · split
    · exact traffic_flying _
    · exact traffic_refl ..
  · exact traffic_refl ..

/-! ### Shaper queues -/

/-- What the service of queue `q` counts. -/
def oneQueueWords (q : Nat) : List Nat := CA_Q_STAT q :: CA_Q_CNT q :: windowWords

variable {q : Nat}

theorem qRelease_traffic (time : Nat) (green : Bool) (w : QWait) (rest : List QWait) :
    s.traffic (s.qRelease q time green w rest) (oneQueueWords q) := by
  unfold State.qRelease
  extract_lets h n d a b c
  have hb : s.traffic b (oneQueueWords q) :=
    ((traffic_setShqAt ..).trans (traffic_put (by simp [oneQueueWords]) _ _)).trans (traffic_bump (by simp [oneQueueWords]) _ _)
  clear_value b
  split
  · exact hb.trans ((busIssue_traffic ..).mono fun _ ha => List.mem_cons_of_mem _ (List.mem_cons_of_mem _ ha))
  · exact hb

theorem qPark_traffic (e : Option Nat) : s.traffic (s.qPark q e) (oneQueueWords q) :=
  (traffic_setShqAt ..).trans (traffic_put (by simp [oneQueueWords]) _ _)

theorem qServe_traffic (time : Nat) (ws : List QWait) : s.traffic (s.qServe q time ws) (oneQueueWords q) := by
  induction ws generalizing s with
  | nil => exact qPark_traffic _
  | cons w rest ih =>
    unfold State.qServe
    refine traffic_ite (qPark_traffic _) (traffic_ite ((qRelease_traffic ..).trans ih) (traffic_ite ((qRelease_traffic ..).trans ih) ?_))
    exact (traffic_ite (traffic_put (by simp [oneQueueWords]) _ _) (traffic_refl ..)).trans (qPark_traffic _)

theorem qEnter_traffic (w : QWait) : s.traffic (s.qEnter q w) (oneQueueWords q) := by
  unfold State.qEnter
  exact traffic_ite ((traffic_setShqAt ..).trans (qServe_traffic ..)) (traffic_setShqAt ..)

theorem qWithdraw_traffic (c : Nat) : s.traffic (s.qWithdraw q c) (oneQueueWords q) := by
  unfold State.qWithdraw
  exact traffic_ite (traffic_refl ..) (traffic_ite ((traffic_setShqAt ..).trans (qServe_traffic ..)) (traffic_setShqAt ..))

theorem oneQueueWords_traffic (hq : q < 256) : ∀ a ∈ oneQueueWords q, a ∈ trafficWords := by
  intro a ha
  have hin : ∀ b ∈ [CA_Q_STAT q, CA_Q_CNT q], b ∈ trafficWords := fun b hb =>
    List.mem_append_left _ (List.mem_flatMap.2 ⟨q, List.mem_range.2 hq, hb⟩)
  rcases List.mem_cons.1 ha with rfl | ha
  · exact hin _ (by simp)
  · rcases List.mem_cons.1 ha with rfl | ha
    · exact hin _ (by simp)
    · exact List.mem_append_right _ ha

theorem oneQueueWords_control (hq : 8 ≤ q ∧ q ≤ 13) : ∀ a ∈ oneQueueWords q, a ∈ controlWords := by
  intro a ha
  have hin : ∀ b ∈ [CA_Q_STAT q, CA_Q_CNT q], b ∈ controlWords := fun b hb =>
    List.mem_append_left _ (List.mem_flatMap.2 ⟨q, by simp only [List.mem_cons, List.not_mem_nil, or_false]; omega, hb⟩)
  rcases List.mem_cons.1 ha with rfl | ha
  · exact hin _ (by simp)
  · rcases List.mem_cons.1 ha with rfl | ha
    · exact hin _ (by simp)
    · exact List.mem_append_right _ ha

theorem windowWords_control : ∀ a ∈ windowWords, a ∈ controlWords := fun _ ha => List.mem_append_right _ ha

theorem windowWords_traffic : ∀ a ∈ windowWords, a ∈ trafficWords := fun _ ha => List.mem_append_right _ ha

theorem controlWords_traffic : ∀ a ∈ controlWords, a ∈ trafficWords := by
  intro a ha
  rcases List.mem_append.1 ha with ha | ha
  · obtain ⟨q, hq, hb⟩ := List.mem_flatMap.1 ha
    refine List.mem_append_left _ (List.mem_flatMap.2 ⟨q, List.mem_range.2 ?_, hb⟩)
    simp only [List.mem_cons, List.not_mem_nil, or_false] at hq
    omega
  · exact List.mem_append_right _ ha

/-! ### The hub's own charges (R402) -/

theorem hubCharge_traffic (hq : 8 ≤ q ∧ q ≤ 13) (n : Nat) : s.traffic (s.hubCharge q n) controlWords :=
  traffic_ite ((qEnter_traffic _).mono (oneQueueWords_control hq)) (traffic_refl ..)

theorem hostCharge_traffic (a n : Nat) : s.traffic (s.hostCharge a n) controlWords := by
  unfold State.hostCharge
  split
  next p o hw =>
    have hp := windowOf_port hw
    simp only [allPorts, List.mem_cons, List.not_mem_nil, or_false] at hp
    exact traffic_ite (hubCharge_traffic (by omega) _) (traffic_refl ..)
  · exact traffic_refl ..

theorem unitIssue_traffic (a n : Nat) (cls : MemClass) : s.traffic (s.unitIssue a n cls) controlWords :=
  ((busIssue_traffic ..).mono windowWords_control).trans (hostCharge_traffic ..)

end

/-! ## Writes of the hub's units (R134, R361, R433) -/

section

variable {s t u : State} {but more : List Nat} {a n : Nat}

theorem State.touches.widen (h : s.touches t a n but) {a' n' : Nat} (hl : a' ≤ a) (hr : a + n ≤ a' + n') : s.touches t a' n' but where
  mem b hb := h.mem b (by omega)
  store := h.store
  regs := h.regs

/-- `t` is `s` but for traffic and the bytes of `[a, a + n)`; blocks only become good. -/
structure State.moves (s t : State) (a n : Nat) (but : List Nat) : Prop where
  same : t = { s with ev := t.ev, seqs := t.seqs, regs := t.regs, shq := t.shq, reqs := t.reqs, flying := t.flying, mem := t.mem,
                      poison := t.poison }
  mem : ∀ b, b < a ∨ a + n ≤ b → t.rdByte b = s.rdByte b
  poison : ∀ b ∈ t.poison, b ∈ s.poison
  regs : s.regsSame t but

theorem State.traffic.moves (h : s.traffic t but) : s.moves t a n but where
  same := by rw [h.same]
  mem b _ := h.quiet.1 b
  poison b hb := by rw [h.same] at hb; exact hb
  regs := h.regs

theorem State.moves.trans (h : s.moves t a n but) (k : t.moves u a n but) : s.moves u a n but where
  same := by
    have e := k.same
    rw [h.same] at e
    exact e
  mem b hb := (k.mem b hb).trans (h.mem b hb)
  poison b hb := h.poison b (k.poison b hb)
  regs r hl hr := (k.regs r hl hr).trans (h.regs r hl hr)

theorem State.moves.mono (h : s.moves t a n but) (hm : ∀ r ∈ but, r ∈ more) : s.moves t a n more where
  same := h.same
  mem := h.mem
  poison := h.poison
  regs r hl hr := h.regs r hl fun hc => hr (hm r hc)

theorem State.moves.widen (h : s.moves t a n but) {a' n' : Nat} (hl : a' ≤ a) (hr : a + n ≤ a' + n') : s.moves t a' n' but where
  same := h.same
  mem b hb := h.mem b (by omega)
  poison := h.poison
  regs := h.regs

theorem State.moves.touches (h : s.moves t a n but) : s.touches t a n but where
  mem := h.mem
  store := ⟨by rw [h.same], by rw [h.same], by rw [h.same]⟩
  regs := h.regs

/-- No byte of an empty range changes. -/
theorem State.moves.quiet (h : s.moves t a 0 but) : s.quiet t but := ⟨fun b => h.mem b (by omega), h.touches.store, h.regs⟩

theorem wrBytes_moves (s : State) (a : Nat) (bs : List Byte) : s.moves (s.wrBytes a bs) a bs.length [] where
  same := by rw [wrBytes_eq]
  mem := (touches_wrBytes s a bs).mem
  poison b hb := by rw [wrBytes_eq] at hb; exact hb
  regs := (touches_wrBytes s a bs).regs

theorem clearPoison_moves (s : State) (a n : Nat) {b m : Nat} : s.moves (s.clearPoison a n) b m [] where
  same := rfl
  mem _ _ := rfl
  poison _ hb := (List.mem_filter.1 hb).1
  regs _ _ _ := rfl

theorem putBlock_moves (a : Nat) (bs : List Byte) : s.moves (s.putBlock a bs).1 a bs.length [] := by
  unfold State.putBlock
  split
  · exact (traffic_refl ..).moves
  · exact (wrBytes_moves ..).trans (clearPoison_moves ..)

theorem putBlocks_moves (n a : Nat) (bs : List Byte) : s.moves (s.putBlocks n a bs).1 a bs.length [] := by
  induction n generalizing s a bs with
  | zero => exact (traffic_refl ..).moves
  | succ n ih =>
    unfold State.putBlocks
    split
    · exact (traffic_refl ..).moves
    · by_cases h : 64 - a % 64 ≤ bs.length
      · refine ((putBlock_moves a (bs.take (64 - a % 64))).widen (Nat.le_refl _) (by simp)).trans
          ((ih (a + (64 - a % 64)) (bs.drop (64 - a % 64))).widen (by omega) (by simp only [List.length_drop]; omega))
      · have hnil : bs.drop (64 - a % 64) = [] := List.drop_eq_nil_of_le (by omega)
        refine ((putBlock_moves a (bs.take (64 - a % 64))).widen (Nat.le_refl _) (by simp)).trans ?_
        dsimp only
        rw [hnil]
        have hz : ∀ v : State, (v.putBlocks n (a + (64 - a % 64)) []).1 = v := by
          intro v
          cases n <;> rfl
        rw [hz]
        exact (traffic_refl ..).moves

theorem memWrite_moves (a : Nat) (bs : List Byte) : s.moves (s.memWrite a bs).1 a bs.length [] := by
  unfold State.memWrite
  split
  · exact wrBytes_moves ..
  · exact putBlocks_moves ..

theorem physOf_lt (c : DramConf) (i : Nat) : c.physOf i < 8 := by
  unfold DramConf.physOf
  by_cases h : i < (maskSubs c.mask).length
  · rw [List.getD_eq_getElem _ _ h]
    have hmem := List.getElem_mem h
    exact List.mem_range.1 (List.mem_filter.1 hmem).1
  · rw [List.getD_eq_default _ _ (by omega)]
    omega

/-- With every controller running each block is served. -/
theorem ddrServes_of_subsUp (h : s.subsUp = true) (a : Nat) : s.ddrServes a = true := by
  unfold State.ddrServes
  split
  next c _ =>
    have hall := List.all_eq_true.1 h
    unfold State.servingSub
    dsimp only
    split
    · exact hall _ (List.mem_range.2 (physOf_lt _ _))
    · exact hall _ (List.mem_range.2 (physOf_lt _ _))
  · rfl

theorem State.moves.subsUp (h : s.moves t a n but) : t.subsUp = s.subsUp := by
  unfold State.subsUp State.islUp
  rw [h.same]

/-- The bytes that stand from `a` on are those of a list. -/
def State.holds (s : State) (a : Nat) (bs : List Byte) : Prop := ∀ i, i < bs.length → s.rdByte (a + i) = bs.getD i 0

theorem State.holds.rdBytes {bs : List Byte} (h : s.holds a bs) : s.rdBytes a bs.length = bs := by
  refine List.ext_getElem (by simp [State.rdBytes]) fun i _ hi => ?_
  simp only [State.rdBytes, List.getElem_map, List.getElem_range]
  rw [h i hi, List.getD_eq_getElem _ _ hi]

theorem wrBytes_holds (s : State) (a : Nat) (bs : List Byte) : (s.wrBytes a bs).holds a bs := fun i hi => by
  rw [rdByte_wrBytes, if_pos (by omega), Nat.add_sub_cancel_left]

theorem putBlock_up (h : s.subsUp = true) (a : Nat) (bs : List Byte) :
    s.putBlock a bs = ((s.wrBytes a bs).clearPoison a bs.length, bs.length == 64 || !s.poison.contains (blockOf a)) := by
  unfold State.putBlock
  rw [ddrServes_of_subsUp h]
  rfl

theorem putBlocks_succ (n a : Nat) {bs : List Byte} (h : bs ≠ []) : s.putBlocks (n + 1) a bs =
    (((s.putBlock a (bs.take (64 - a % 64))).1.putBlocks n (a + (64 - a % 64)) (bs.drop (64 - a % 64))).1,
      (s.putBlock a (bs.take (64 - a % 64))).2 &&
        ((s.putBlock a (bs.take (64 - a % 64))).1.putBlocks n (a + (64 - a % 64)) (bs.drop (64 - a % 64))).2) := by
  rw [State.putBlocks, if_neg (by simpa using h)]

theorem putBlocks_holds (n a : Nat) (bs : List Byte) (hs : s.subsUp = true) (hn : bs.length ≤ n) : (s.putBlocks n a bs).1.holds a bs := by
  induction n generalizing s a bs with
  | zero => exact fun i hi => absurd hi (by omega)
  | succ n ih =>
    by_cases hbs : bs = []
    · subst hbs
      exact fun i hi => absurd hi (by simp)
    rw [putBlocks_succ n a hbs]
    have hput : (s.putBlock a (bs.take (64 - a % 64))).1.holds a (bs.take (64 - a % 64)) := by
      rw [putBlock_up hs]
      exact fun i hi => wrBytes_holds s a _ i hi
    have hup : (s.putBlock a (bs.take (64 - a % 64))).1.subsUp = true := (putBlock_moves ..).subsUp.trans hs
    generalize (s.putBlock a (bs.take (64 - a % 64))).1 = v at hput hup
    have hrest := ih (a + (64 - a % 64)) (bs.drop (64 - a % 64)) hup (by
      have := List.length_pos_iff.2 hbs
      rw [List.length_drop]
      omega)
    have hkeep := (putBlocks_moves (s := v) n (a + (64 - a % 64)) (bs.drop (64 - a % 64))).mem
    generalize (v.putBlocks n (a + (64 - a % 64)) (bs.drop (64 - a % 64))).1 = w at hrest hkeep
    intro i hi
    by_cases him : i < 64 - a % 64
    · rw [hkeep _ (.inl (by omega)), hput i (by rw [List.length_take]; omega), List.getD_eq_getElem?_getD, List.getElem?_take_of_lt him,
        ← List.getD_eq_getElem?_getD]
    · have h := hrest (i - (64 - a % 64)) (by rw [List.length_drop]; omega)
      rw [show a + (64 - a % 64) + (i - (64 - a % 64)) = a + i by omega, List.getD_eq_getElem?_getD, List.getElem?_drop,
        show 64 - a % 64 + (i - (64 - a % 64)) = i by omega, ← List.getD_eq_getElem?_getD] at h
      exact h

/-- With every controller running, a write's bytes stand in memory. -/
theorem memWrite_holds (a : Nat) (bs : List Byte) (hs : s.subsUp = true) : (s.memWrite a bs).1.holds a bs := by
  unfold State.memWrite
  split
  · exact wrBytes_holds s a bs
  · exact putBlocks_holds _ _ _ hs (by omega)

theorem poisoned_false : s.poisoned a n = false ↔ ∀ b ∈ s.poison, ¬ (b < a + n ∧ a < b + 64) := by
  unfold State.poisoned
  rw [List.any_eq_false]
  simp

theorem State.moves.unpoisoned (h : s.moves t a n but) {b m : Nat} (hp : s.poisoned b m = false) : t.poisoned b m = false :=
  poisoned_false.2 fun c hc => poisoned_false.1 hp c (h.poison c hc)

theorem poisoned_sub {b m : Nat} (hp : s.poisoned a n = false) (hl : a ≤ b) (hr : b + m ≤ a + n) : s.poisoned b m = false :=
  poisoned_false.2 fun c hc hb => poisoned_false.1 hp c hc (by omega)

theorem putBlocks_good (n a : Nat) (bs : List Byte) (hs : s.subsUp = true) (hp : s.poisoned a bs.length = false) :
    (s.putBlocks n a bs).2 = true := by
  induction n generalizing s a bs with
  | zero => rfl
  | succ n ih =>
    by_cases hbs : bs = []
    · subst hbs
      rfl
    have hpos := List.length_pos_iff.2 hbs
    rw [putBlocks_succ n a hbs]
    have hmoves := putBlock_moves (s := s) a (bs.take (64 - a % 64))
    have hgood : (s.putBlock a (bs.take (64 - a % 64))).2 = true := by
      rw [putBlock_up hs]
      refine Bool.or_eq_true_iff.2 (.inr ?_)
      rw [Bool.not_eq_true', Bool.eq_false_iff]
      intro hc
      refine poisoned_false.1 hp (blockOf a) (by simpa using hc) ?_
      unfold blockOf
      omega
    have hup := hmoves.subsUp.trans hs
    by_cases hle : bs.length ≤ 64 - a % 64
    · have hnil : bs.drop (64 - a % 64) = [] := List.drop_eq_nil_of_le hle
      rw [hgood, hnil]
      cases n <;> rfl
    · rw [hgood, ih _ _ hup (hmoves.unpoisoned (poisoned_sub hp (by omega) (by rw [List.length_drop]; omega)))]
      rfl

theorem memWrite_good (a : Nat) (bs : List Byte) (hs : s.subsUp = true) (hp : s.poisoned a bs.length = false) : (s.memWrite a bs).2 = true := by
  unfold State.memWrite
  split
  · rfl
  · exact putBlocks_good _ _ _ hs hp

/-! ### Writes through the bus -/

theorem request_subsUp (write : Bool) (b m : Nat) (cls : MemClass) (deadline : Nat) (kind : ReadKind) :
    (s.request write b m cls deadline kind).subsUp = s.subsUp :=
  ((request_traffic (but := []) ..).moves (a := 0) (n := 0)).subsUp

variable {cls : MemClass} {deadline : Nat} {kind : ReadKind} {bs : List Byte}

theorem busWrite_local (hw : windowOf a = none) :
    s.busWrite a bs cls deadline kind = (s.request true a bs.length cls deadline kind).memWrite a bs := by
  unfold State.busWrite
  rw [hw]

theorem winWrite_traffic {p o : Nat} {bs : List Byte} {n : Nat} (h : s.winWrite p o bs n = some t) : s.traffic t but := by
  induction n generalizing s o bs with
  | zero =>
    cases h
    exact traffic_refl ..
  | succ n ih =>
    unfold State.winWrite at h
    split at h
    · cases h
      exact traffic_refl ..
    · dsimp only at h
      split at h
      next v hv =>
        unfold State.hwWrite at hv
        split at hv
        · cases hv
          exact (toHost_traffic ..).trans (ih h)
        · cases hv
      · cases h

/-- A write through the bus changes its own bytes and window errors at most. -/
theorem busWrite_moves (a : Nat) (bs : List Byte) (cls : MemClass) (deadline : Nat) (kind : ReadKind) :
    s.moves (s.busWrite a bs cls deadline kind).1 a bs.length windowWords := by
  unfold State.busWrite
  split
  next hw =>
    split
    next hv => exact (winWrite_traffic hv).moves
    · exact (hwError_traffic (windowOf_port hw)).moves
  · exact (request_traffic ..).moves.trans ((memWrite_moves ..).mono (by simp))

theorem busWrite_holds (hw : windowOf a = none) (hs : s.subsUp = true) : (s.busWrite a bs cls deadline kind).1.holds a bs := by
  rw [busWrite_local hw]
  exact memWrite_holds _ _ ((request_subsUp ..).trans hs)

theorem busWrite_good (hw : windowOf a = none) (hs : s.subsUp = true) (hp : s.poisoned a bs.length = false) :
    (s.busWrite a bs cls deadline kind).2 = true := by
  rw [busWrite_local hw]
  exact memWrite_good _ _ ((request_subsUp ..).trans hs) (((request_traffic (but := []) ..).moves (a := 0) (n := 0)).unpoisoned hp)

theorem unitWrite_moves (a : Nat) (bs : List Byte) : s.moves (s.unitWrite a bs).1 a bs.length controlWords :=
  ((busWrite_moves ..).mono windowWords_control).trans (hostCharge_traffic ..).moves

theorem unitWrite_good (hw : windowOf a = none) (hs : s.subsUp = true) (hp : s.poisoned a bs.length = false) : (s.unitWrite a bs).2 = true :=
  busWrite_good hw hs hp

theorem hubWrite_moves (a : Nat) (bs : List Byte) : s.moves (s.hubWrite a bs) a bs.length controlWords := by
  unfold State.hubWrite
  split
  · exact (traffic_refl ..).moves
  · exact ((request_traffic ..).moves.trans ((memWrite_moves ..).mono (by simp))).trans (hubCharge_traffic (by omega) _).moves

end

end Sys2Proof.Machine

end

section

namespace Sys2Proof.Machine

/-! ## The engines' reads and starts (R347, R359, R361, R381) -/

section

variable {s t u : State} {but more : List Nat} {c : Nat}

theorem trafficWords_range {a : Nat} (h : a ∈ trafficWords) : (0x801000 ≤ a ∧ a < 0x804000) ∨ ∃ p, p < 4 ∧ a = HP_HW_STAT p := by
  rcases List.mem_append.1 h with h | h
  · obtain ⟨q, hq, hb⟩ := List.mem_flatMap.1 h
    have hq := List.mem_range.1 hq
    simp only [List.mem_cons, List.not_mem_nil, or_false, CA_Q_STAT, CA_Q_CNT] at hb
    omega
  · obtain ⟨p, hp, rfl⟩ := List.mem_map.1 h
    simp only [allPorts, List.mem_cons, List.not_mem_nil, or_false] at hp
    exact .inr ⟨p, by omega, rfl⟩

/-- A word below the queues' is no traffic word. -/
theorem not_traffic_low {a : Nat} (h : a < 0x801000) : a ∉ trafficWords := fun hc => by
  rcases trafficWords_range hc with hr | ⟨p, _, rfl⟩
  · omega
  · simp only [HP_HW_STAT] at h
    omega

theorem lostCounter_low {a : Nat} (h : a < 0xA00000) : lostCounter a = false :=
  lostCounter_eq_false fun p _ => by simp only [HP_EV_STAT]; omega

theorem lostCounter_high {a : Nat} (h : 0xA40000 ≤ a) : lostCounter a = false :=
  lostCounter_eq_false fun p _ => by simp only [HP_EV_STAT]; omega

/-- `t` is `s` but for what the engines' starts and reads change, and of the registers only those named. -/
structure State.engines (s t : State) (but : List Nat) : Prop where
  same : t = { s with ev := t.ev, seqs := t.seqs, regs := t.regs, shq := t.shq, reqs := t.reqs, flying := t.flying, dma := t.dma,
                      dmaLast := t.dmaLast, blit := t.blit, trigs := t.trigs }
  regs : s.regsSame t but

theorem State.traffic.engines (h : s.traffic t but) : s.engines t but where
  same := by
    have e := h.same
    rw [e]
  regs := h.regs

theorem engines_refl (s : State) (but : List Nat) : s.engines s but := ⟨rfl, fun _ _ _ => rfl⟩

theorem State.engines.trans (h : s.engines t but) (k : t.engines u but) : s.engines u but where
  same := by
    have e := k.same
    rw [h.same] at e
    exact e
  regs a hl ha := (k.regs a hl ha).trans (h.regs a hl ha)

theorem State.engines.mono (h : s.engines t but) (hm : ∀ a ∈ but, a ∈ more) : s.engines t more where
  same := h.same
  regs a hl ha := h.regs a hl fun hc => ha (hm a hc)

theorem State.engines.quiet (h : s.engines t but) : s.quiet t but := by
  refine ⟨fun a => ?_, ⟨?_, ?_, ?_⟩, h.regs⟩
  · unfold State.rdByte
    rw [h.same]
  all_goals rw [h.same]

theorem engines_setDmaAt (v : DmaCh) : s.engines (s.setDmaAt c v) but := ⟨rfl, fun _ _ _ => rfl⟩
theorem engines_setBlitAt (v : BlitCh) : s.engines (s.setBlitAt c v) but := ⟨rfl, fun _ _ _ => rfl⟩

/-! ### What an issue leaves of a channel -/

/-- A channel whose reads went on: of its descriptor only what is out and comes next differ. -/
structure DmaCh.advances (ch ch' : DmaCh) : Prop where
  rest : ch' = { ch with run := ch'.run }
  idle : ch.run = none → ch'.run = none
  run : ∀ r, ch.run = some r → ∃ q, ch'.run = some q ∧ q = { r with next := q.next, out := q.out }

theorem advances_refl (ch : DmaCh) : ch.advances ch := ⟨rfl, id, fun r hr => ⟨r, hr, rfl⟩⟩

theorem DmaCh.advances.trans {x y z : DmaCh} (h : x.advances y) (k : y.advances z) : x.advances z where
  rest := by
    have e := k.rest
    rw [h.rest] at e
    exact e
  idle hr := k.idle (h.idle hr)
  run r hr := by
    obtain ⟨q, hq, eq⟩ := h.run r hr
    obtain ⟨w, hw, ew⟩ := k.run q hq
    refine ⟨w, hw, ?_⟩
    rw [eq] at ew
    exact ew

/-- A channel with one more read out. -/
def DmaCh.issue (ch : DmaCh) (r : DmaRun) : DmaCh :=
  { ch with run := some { r with next := r.next + descReadLen r.desc r.next, out := r.out ++ [r.next] } }

theorem advances_issue {ch : DmaCh} {r : DmaRun} (hr : ch.run = some r) : ch.advances (ch.issue r) where
  rest := rfl
  idle hn := absurd (hr.symm.trans hn) (by simp)
  run r' hr' := by
    cases hr.symm.trans hr'
    exact ⟨_, rfl, rfl⟩

theorem dmQueue_lt (s : State) (c : Nat) : s.dmQueue c < 256 := getField_lt ..

theorem blQueue_lt (s : State) (c : Nat) : s.blQueue c < 256 := getField_lt ..

/-- The channel's turn and its read, before the read leaves. -/
def State.issueNoted (s : State) (c : Nat) (r : DmaRun) : State := { s.setDmaAt c ((s.dmaAt c).issue r) with dmaLast := c }

theorem issueNoted_dmaAt (r : DmaRun) (d : Nat) : (s.issueNoted c r).dmaAt d = if d = c then (s.dmaAt c).issue r else s.dmaAt d :=
  dmaAt_setDmaAt ..

theorem State.traffic.dmaAt (h : s.traffic t but) (d : Nat) : t.dmaAt d = s.dmaAt d := by
  unfold State.dmaAt
  rw [h.same]

theorem State.traffic.blitAt (h : s.traffic t but) (d : Nat) : t.blitAt d = s.blitAt d := by
  unfold State.blitAt
  rw [h.same]

/-- A read passes the channel's queue, or leaves at once. -/
theorem issueRead_traffic {r : DmaRun} (hr : (s.dmaAt c).run = some r) : (s.issueNoted c r).traffic (s.issueRead c) trafficWords := by
  unfold State.issueRead
  dsimp only
  rw [hr]
  dsimp only
  change (s.issueNoted c r).traffic (if (s.issueNoted c r).dmQueue c < 8 then (s.issueNoted c r).busIssue _ _ _ _ _
    else (s.issueNoted c r).qEnter ((s.issueNoted c r).dmQueue c) _) trafficWords
  exact traffic_ite ((busIssue_traffic ..).mono windowWords_traffic) ((qEnter_traffic _).mono (oneQueueWords_traffic (dmQueue_lt ..)))

theorem issueRead_idle (hr : (s.dmaAt c).run = none) : s.issueRead c = s := by
  unfold State.issueRead
  dsimp only
  rw [hr]

theorem issueRead_engines : s.engines (s.issueRead c) trafficWords := by
  cases hr : (s.dmaAt c).run with
  | none =>
    rw [issueRead_idle hr]
    exact engines_refl ..
  | some r => exact State.engines.trans (t := s.issueNoted c r) ⟨rfl, fun _ _ _ => rfl⟩ (issueRead_traffic hr).engines

theorem issueRead_advances (d : Nat) : (s.dmaAt d).advances ((s.issueRead c).dmaAt d) := by
  cases hr : (s.dmaAt c).run with
  | none =>
    rw [issueRead_idle hr]
    exact advances_refl _
  | some r =>
    rw [(issueRead_traffic hr).dmaAt, issueNoted_dmaAt]
    split
    next h =>
      subst h
      exact advances_issue hr
    · exact advances_refl _

theorem issueRead_other {d : Nat} (h : d ≠ c) : (s.issueRead c).dmaAt d = s.dmaAt d := by
  cases hr : (s.dmaAt c).run with
  | none => rw [issueRead_idle hr]
  | some r => rw [(issueRead_traffic hr).dmaAt, issueNoted_dmaAt, if_neg h]

theorem showStage_traffic : s.traffic s.showStage [DM_STAGE] := by
  unfold State.showStage
  exact traffic_ite ((traffic_put (by simp) _ _).trans (traffic_put (by simp) _ _)) (traffic_put (by simp) _ _)

/-- What each issue and the show of the stage keep holds after all reads that may go have gone. -/
theorem issueReads_keeps {P : State → Prop} (hissue : ∀ s c, s.mayIssue c = true → P s → P (s.issueRead c)) (hshow : ∀ s : State, P s → P s.showStage)
    (n : Nat) {s : State} (hs : P s) : P (s.issueReads n) := by
  induction n generalizing s with
  | zero => exact hshow s hs
  | succ n ih =>
    unfold State.issueReads
    split
    next d hd =>
      refine ih (hissue s d ?_ hs)
      split at hd
      · exact List.find?_some hd
      · cases hd
    · exact hshow s hs

theorem issueReads_engines (n : Nat) : s.engines (s.issueReads n) (DM_STAGE :: trafficWords) :=
  issueReads_keeps (P := fun t => s.engines t (DM_STAGE :: trafficWords)) (fun _ _ _ h => h.trans (issueRead_engines.mono fun _ ha => List.mem_cons_of_mem _ ha))
    (fun _ h => h.trans (showStage_traffic.engines.mono (by simp))) n (engines_refl ..)

theorem issueReads_advances (n d : Nat) : (s.dmaAt d).advances ((s.issueReads n).dmaAt d) :=
  issueReads_keeps (P := fun t => (s.dmaAt d).advances (t.dmaAt d)) (fun _ _ _ h => h.trans (issueRead_advances d))
    (fun t h => by rw [showStage_traffic.dmaAt]; exact h) n (advances_refl _)

/-- A channel without a read ready is left as it is. -/
theorem issueReads_still (n d : Nat) (hr : ∀ r, (s.dmaAt d).run = some r → r.ready = false) :
    (s.issueReads n).dmaAt d = s.dmaAt d := by
  refine issueReads_keeps (P := fun t => t.dmaAt d = s.dmaAt d) (fun t e he ht => ?_) (fun t ht => by rw [showStage_traffic.dmaAt]; exact ht) n rfl
  refine (issueRead_other fun hde => ?_).trans ht
  subst hde
  unfold State.mayIssue at he
  rw [ht] at he
  cases hrun : (s.dmaAt d).run with
  | none =>
    rw [hrun] at he
    exact absurd he Bool.false_ne_true
  | some r =>
    rw [hrun] at he
    dsimp only at he
    rw [hr r hrun] at he
    exact absurd he Bool.false_ne_true

/-! ### Starts -/

/-- What starts and reads of both engines may change. -/
def engineWords : List Nat := (List.range 32).map DM_STAT ++ (List.range 8).map BL_STAT ++ DM_STAGE :: trafficWords

/-- A channel whose descriptor starts. -/
def DmaCh.started (ch : DmaCh) (r : DmaRun) : DmaCh := { ch with run := some { r with waiting := false } }

theorem dmaBegin_eq {r : DmaRun} (hr : (s.dmaAt c).run = some r) :
    s.dmaBegin c = ((s.setDmaAt c ((s.dmaAt c).started r)).put (DM_STAT c) DM_STAT_STATE 1).issueReads 129 := by
  unfold State.dmaBegin
  dsimp only
  rw [hr]
  rfl

theorem dmaBegin_idle (hr : (s.dmaAt c).run = none) : s.dmaBegin c = s := by
  unfold State.dmaBegin
  dsimp only
  rw [hr]

theorem dmaBegin_engines : s.engines (s.dmaBegin c) (DM_STAT c :: DM_STAGE :: trafficWords) := by
  cases hr : (s.dmaAt c).run with
  | none =>
    rw [dmaBegin_idle hr]
    exact engines_refl ..
  | some r =>
    rw [dmaBegin_eq hr]
    exact ((engines_setDmaAt _).trans (traffic_put (by simp) _ _).engines).trans ((issueReads_engines _).mono fun _ ha => List.mem_cons_of_mem _ ha)

theorem issueReads_dmState (n d : Nat) : (s.issueReads n).dmState d = s.dmState d ∨ 32 ≤ d := by
  by_cases hd : d < 32
  · refine .inl ((issueReads_engines n).quiet.get (lostCounter_low (by simp only [DM_STAT]; omega)) ?_ _)
    refine fun hc => (List.mem_cons.1 hc).elim (fun h => ?_) (not_traffic_low (by simp only [DM_STAT]; omega))
    simp only [DM_STAT, DM_STAGE] at h
    omega
  · exact .inr (by omega)

/-- A descriptor that starts runs, and keeps its bytes. -/
theorem dmaBegin_run (hc : c < 32) {r : DmaRun} (hr : (s.dmaAt c).run = some r) :
    (∃ q, ((s.dmaBegin c).dmaAt c).run = some q ∧ q = { r with waiting := false, next := q.next, out := q.out }) ∧ (s.dmaBegin c).dmState c = 1 := by
  rw [dmaBegin_eq hr]
  have hat : ((s.setDmaAt c ((s.dmaAt c).started r)).put (DM_STAT c) DM_STAT_STATE 1).dmaAt c = (s.dmaAt c).started r := by
    rw [show ((s.setDmaAt c ((s.dmaAt c).started r)).put (DM_STAT c) DM_STAT_STATE 1).dmaAt c = (s.setDmaAt c ((s.dmaAt c).started r)).dmaAt c from
      (traffic_put (but := [DM_STAT c]) (by simp) _ _).dmaAt c, dmaAt_setDmaAt, if_pos rfl]
  have hst : ((s.setDmaAt c ((s.dmaAt c).started r)).put (DM_STAT c) DM_STAT_STATE 1).dmState c = 1 := get_put_same _ _ _ _ (by decide)
  generalize (s.setDmaAt c ((s.dmaAt c).started r)).put (DM_STAT c) DM_STAT_STATE 1 = v at hat hst
  refine ⟨?_, ((issueReads_dmState 129 c).resolve_right (by omega)).trans hst⟩
  obtain ⟨q, hq, eq⟩ := (issueReads_advances (s := v) 129 c).run { r with waiting := false } (by rw [hat]; rfl)
  exact ⟨q, hq, eq⟩

/-! ### Blit starts -/

theorem blitAsk_traffic (n : Nat) : s.traffic (s.blitAsk c n) trafficWords := by
  unfold State.blitAsk
  split
  · exact traffic_refl ..
  · exact traffic_ite ((busIssue_traffic ..).mono windowWords_traffic) ((qEnter_traffic _).mono (oneQueueWords_traffic (blQueue_lt ..)))

/-- A job that starts now. -/
def State.jobStarted (s : State) (c : Nat) (r : BlitRun) : BlitRun :=
  { r with waiting := false, started := some s.dtime, slotEnd := s.dtime + s.slotNs c r.job }

theorem blitBegin_idle (hr : (s.blitAt c).run = none) : s.blitBegin c = s := by
  unfold State.blitBegin
  dsimp only
  rw [hr]

theorem blitBegin_traffic {r : BlitRun} (hr : (s.blitAt c).run = some r) :
    (s.setBlitAt c { s.blitAt c with run := some (s.jobStarted c r) }).traffic (s.blitBegin c) (BL_STAT c :: trafficWords) := by
  unfold State.blitBegin
  dsimp only
  rw [hr]
  exact (traffic_put (by simp) _ _).trans ((blitAsk_traffic 0).mono fun _ ha => List.mem_cons_of_mem _ ha)

theorem blitBegin_engines : s.engines (s.blitBegin c) (BL_STAT c :: trafficWords) := by
  cases hr : (s.blitAt c).run with
  | none =>
    rw [blitBegin_idle hr]
    exact engines_refl ..
  | some r => exact (engines_setBlitAt _).trans (blitBegin_traffic hr).engines

theorem blitBegin_dmaAt (d : Nat) : (s.blitBegin c).dmaAt d = s.dmaAt d := by
  cases hr : (s.blitAt c).run with
  | none => rw [blitBegin_idle hr]
  | some r => rw [(blitBegin_traffic hr).dmaAt]; rfl

theorem blitTrigger_engines : s.engines (s.blitTrigger c) (BL_STAT c :: trafficWords) := by
  unfold State.blitTrigger
  dsimp only
  split
  · split
    · exact (engines_setBlitAt _).trans blitBegin_engines
    · exact engines_setBlitAt _
  · exact engines_refl ..

theorem blitTrigger_dmaAt (d : Nat) : (s.blitTrigger c).dmaAt d = s.dmaAt d := by
  unfold State.blitTrigger
  dsimp only
  split
  · split
    · exact blitBegin_dmaAt d
    · rfl
  · rfl

/-! ### Triggers -/

theorem engines_foldl {α : Type} {f : State → α → State} {l : List α} (h : ∀ (s : State) (a : α), a ∈ l → s.engines (f s a) but) (s : State) :
    s.engines (l.foldl f s) but :=
  foldl_keeps (P := fun t => s.engines t but) (fun t a ha ht => ht.trans (h t a ha)) (engines_refl s but)

/-- Whether a waiting descriptor names a trigger. -/
def DmaRun.named (r : DmaRun) (kind unit arg : Nat) : Bool :=
  r.waiting && descKind r.desc == kind && descUnit r.desc == unit && descArg r.desc == arg

/-- A trigger's occurrence starts channel `c` where its descriptor names it. -/
def State.dmaHears (s : State) (kind unit arg c : Nat) : State :=
  match (s.dmaAt c).run with
  | some r => if r.named kind unit arg then s.dmaBegin c else s
  | none => s

/-- A trigger's occurrence starts blit channel `c` where its job names it. -/
def State.blitHears (s : State) (kind unit arg c : Nat) : State :=
  match (s.blitAt c).run with
  | some r => if r.waiting && !r.trigd && jobKind r.job == kind && jobUnit r.job == unit && jobArg r.job == arg then s.blitTrigger c else s
  | none => s

/-- A trigger's occurrence is noted (R359). -/
def State.trigNoted (s : State) (kind unit arg : Nat) : State :=
  { s with trigs := (s.dtime, (kind, unit, arg) :: if s.trigs.1 = s.dtime then s.trigs.2 else []) }

theorem trigger_eq (kind unit arg : Nat) : s.trigger kind unit arg =
    if s.engUp then (List.range 8).foldl (fun s c => s.blitHears kind unit arg c)
      ((List.range 32).foldl (fun s c => s.dmaHears kind unit arg c) (s.trigNoted kind unit arg))
    else s.trigNoted kind unit arg := rfl

theorem dmaHears_engines (kind unit arg : Nat) : s.engines (s.dmaHears kind unit arg c) (DM_STAT c :: DM_STAGE :: trafficWords) := by
  unfold State.dmaHears
  split
  · split
    · exact dmaBegin_engines
    · exact engines_refl ..
  · exact engines_refl ..

theorem blitHears_engines (kind unit arg : Nat) : s.engines (s.blitHears kind unit arg c) (BL_STAT c :: trafficWords) := by
  unfold State.blitHears
  split
  · split
    · exact blitTrigger_engines
    · exact engines_refl ..
  · exact engines_refl ..

theorem blitHears_dmaAt (kind unit arg d : Nat) : (s.blitHears kind unit arg c).dmaAt d = s.dmaAt d := by
  unfold State.blitHears
  split
  · split
    · exact blitTrigger_dmaAt d
    · rfl
  · rfl

theorem trigger_engines (kind unit arg : Nat) : s.engines (s.trigger kind unit arg) engineWords := by
  have hn : s.engines (s.trigNoted kind unit arg) engineWords := ⟨rfl, fun _ _ _ => rfl⟩
  rw [trigger_eq]
  split
  · refine (hn.trans (engines_foldl (fun t c hc => (dmaHears_engines ..).mono fun a ha => ?_) _)).trans
      (engines_foldl (fun t c hc => (blitHears_engines ..).mono fun a ha => ?_) _)
    · rcases List.mem_cons.1 ha with rfl | ha
      · exact List.mem_append_left _ (List.mem_append_left _ (List.mem_map_of_mem hc))
      · exact List.mem_append_right _ ha
    · rcases List.mem_cons.1 ha with rfl | ha
      · exact List.mem_append_left _ (List.mem_append_right _ (List.mem_map_of_mem hc))
      · exact List.mem_append_right _ (List.mem_cons_of_mem _ ha)
  · exact hn

end

end Sys2Proof.Machine

end

section

namespace Sys2Proof.Machine

/-! ## Ingest: a slot's bank on a channel's own registers (R459, R463) -/

/-- Channel 2 is linked and enabled with one buffer, the surface of index 0, and slot 8 has a racing fetch out of that buffer.  Pavilion 0 is named
762, which no rule allows and no state excludes: the banked words of slot 8 then lie on the registers of channel 2, word 19 on IG_FS_TIME. -/
def aliasedIngest : State :=
  { State.reset with
    boot := { Boot.reset with applied := true }
    isl := { Islands.reset with standFor := [(0, 762)] }
    regs := [(IG_CTRL 2, 1), (IG_SRC 2, 0), (IG_SIZE 2, 0), (IG_BUF 2 0, 0), (IG_REL 2, 0), (IG_STAT 2, 0), (IG_FS_TIME 2, 0), (IG_LANE 0, 1)]
    surf := [(0, { SurfEntry.unused with format := 0x13, valid := true, pub := true })]
    fetch := [(8, { SlotFetch.reset with race := some ⟨0, false, none, [], []⟩ })] }

theorem aliasedIngest_up : aliasedIngest.igUp = true := by decide
theorem aliasedIngest_lane : aliasedIngest.laneUp 2 = true := by decide
theorem aliasedIngest_en : aliasedIngest.on (IG_CTRL 2) IG_CTRL_EN = true := by decide
theorem aliasedIngest_idle : (aliasedIngest.igAt 2).cur = none := by decide
theorem aliasedIngest_pick : aliasedIngest.igPick 2 = some 0 := by decide

/-- The frame buffer that a step leaves channel 2 with. -/
def framed : Out → Bool
  | .next t => (t.igAt 2).cur.isSome
  | _ => false

/-- At 40 ns the written IG_FS_TIME makes slot 8 a racing layer of channel 2, and its buffer is no longer free: the frame is dropped. -/
theorem aliasedIngest_drops : framed (exec (.ingestFrameStart 40 2 0) aliasedIngest) = false := by decide

/-- Refutes O24: a Frame Start writes IG_FS_TIME before it takes a buffer, and nothing in the statement keeps a slot's bank off that register.
In `aliasedIngest` buffer 0 is the next in ring order, and once IG_FS_TIME holds 40 a racing slot uses it: the frame is dropped. -/
theorem not_ingestCompletes : ¬ Obligations.IngestCompletes := by
  unfold Obligations.IngestCompletes
  intro h
  obtain ⟨hstart, _⟩ := h aliasedIngest 40 aliasedIngest_up
  obtain ⟨htake, _⟩ := hstart 2 0 aliasedIngest_lane aliasedIngest_en aliasedIngest_idle
  obtain ⟨t, f, hexec, hcur, _⟩ := htake 0 aliasedIngest_pick (by decide)
  have hdrop := aliasedIngest_drops
  rw [hexec] at hdrop
  simp [framed, show (t.igAt 2).cur = some f from hcur] at hdrop

end Sys2Proof.Machine

end

section

namespace Sys2Proof.Machine

/-! ## CAN controllers (R469 to R473) -/

section

variable {s t u : State} {n : Nat}

/-- `t` is `s` but for one controller's status word, and the undefined values drawn. -/
structure State.statusOnly (s t : State) (n : Nat) : Prop where
  same : t = { s with regs := t.regs, free := t.free }
  regs : s.regsSame t [CN_STAT n]

theorem State.statusOnly.trans (h : s.statusOnly t n) (k : t.statusOnly u n) : s.statusOnly u n where
  same := by
    have e := k.same
    rw [h.same] at e
    exact e
  regs a hl ha := (k.regs a hl ha).trans (h.regs a hl ha)

theorem State.statusOnly.quiet (h : s.statusOnly t n) : s.quiet t [CN_STAT n] := by
  refine ⟨fun a => ?_, ⟨?_, ?_, ?_⟩, h.regs⟩
  · unfold State.rdByte
    rw [h.same]
  all_goals rw [h.same]

theorem State.statusOnly.canAt (h : s.statusOnly t n) (k : Nat) : t.canAt k = s.canAt k := by
  unfold State.canAt
  rw [h.same]

theorem put_statusOnly (f : Fld) (v : Nat) : s.statusOnly (s.put (CN_STAT n) f v) n := ⟨rfl, (quiet_put ..).2.2⟩

theorem setRec_statusOnly (v : Nat) : s.statusOnly (s.setRec n v) n := (put_statusOnly ..).trans (put_statusOnly ..)

theorem recDown_statusOnly : s.statusOnly (s.recDown n) n := by
  unfold State.recDown
  dsimp only
  split
  · exact ⟨rfl, fun _ _ _ => rfl⟩
  · split
    · exact setRec_statusOnly _
    · exact State.statusOnly.trans (t := s.drawFree.2) ⟨rfl, fun _ _ _ => rfl⟩ (setRec_statusOnly _)

theorem lostCounter_can {a : Nat} (h : 0xD00000 ≤ a) : lostCounter a = false := lostCounter_high (by omega)

/-- The filters see a frame as before. -/
theorem State.statusOnly.fltMatch (h : s.statusOnly t n) (hn : n < 2) (k : Nat) (fr : CanFrame) (f : Nat) : t.fltMatch k fr f = s.fltMatch k fr f := by
  have hword : ∀ a, 0xD00400 ≤ a → t.fltWord a = s.fltWord a := by
    intro a ha
    have hr : t.rd a = s.rd a := h.regs a (lostCounter_can (by omega)) (by simp only [List.mem_singleton, CN_STAT]; omega)
    have hd : t.dtime = s.dtime := by rw [h.same]
    have hf : t.flts = s.flts := by rw [h.same]
    unfold State.fltWord
    rw [hr, hd, hf]
  unfold State.fltMatch
  rw [hword (CN_FLT_ID f) (by simp only [CN_FLT_ID]; omega), hword (CN_FLT_MASK f) (by simp only [CN_FLT_MASK]; omega)]

theorem setRec_get (v : Nat) : (s.setRec n v).get (CN_STAT n) CN_STAT_REC = v % 256 := by
  unfold State.setRec
  rw [get_put_apart _ _ _ _ _ (by decide) (.inr (by decide)), get_put_same _ _ _ _ (by decide)]
  rfl

/-- A controller after a frame's count, before the frame is queued or dropped. -/
theorem canFrame_eq {fr : CanFrame} (hfd : fr.fd = false ∨ s.on (CN_CTRL n) CN_CTRL_FDEN = true) (hrem : fr.remote = false) :
    s.canFrame n fr =
      match (List.range 128).find? ((s.recDown n).fltMatch n fr) with
      | none => s.recDown n
      | some f =>
        if ((s.recDown n).canAt n).queue.length < canDepth then
          ((s.recDown n).setCanAt n { (s.recDown n).canAt n with queue := ((s.recDown n).canAt n).queue ++ [⟨f, (s.recDown n).dtime, fr⟩] }).bump
            (CN_RX_CNT n) CN_RX_CNT_COUNT 1
        else ((s.recDown n).bump (CN_OVF_CNT n) CN_OVF_CNT_COUNT 1).put (CN_STAT n) CN_STAT_OVF 1 := by
  have hcond : (fr.fd && !s.on (CN_CTRL n) CN_CTRL_FDEN) = false := by
    rcases hfd with h | h <;> simp [h]
  unfold State.canFrame
  rw [hcond, if_neg Bool.false_ne_true, hrem]
  rfl

variable (hn : n < 2)

include hn

theorem canFrame_queued {fr : CanFrame} (hfd : fr.fd = false ∨ s.on (CN_CTRL n) CN_CTRL_FDEN = true) (hrem : fr.remote = false) {f : Nat}
    (hf : (List.range 128).find? (s.fltMatch n fr) = some f) (hroom : (s.canAt n).queue.length < 64) :
    ((s.canFrame n fr).canAt n).queue = (s.canAt n).queue ++ [⟨f, s.dtime, fr⟩] ∧
      (s.rdN (CN_RX_CNT n) + 1 < 2 ^ 32 → (s.canFrame n fr).rdN (CN_RX_CNT n) = s.rdN (CN_RX_CNT n) + 1) ∧
      s.quiet (s.canFrame n fr) [CN_STAT n, CN_RX_CNT n] := by
  have h := recDown_statusOnly (s := s) (n := n)
  rw [canFrame_eq hfd hrem, show (s.recDown n).fltMatch n fr = s.fltMatch n fr from funext (h.fltMatch hn n fr), hf]
  dsimp only
  rw [h.canAt, if_pos (show (s.canAt n).queue.length < canDepth from hroom), show (s.recDown n).dtime = s.dtime by rw [h.same]]
  have hcnt : (s.recDown n).get (CN_RX_CNT n) CN_RX_CNT_COUNT = s.get (CN_RX_CNT n) CN_RX_CNT_COUNT :=
    h.quiet.get (lostCounter_can (by simp only [CN_RX_CNT]; omega)) (by simp only [List.mem_singleton, CN_STAT, CN_RX_CNT]; omega) _
  have hq := h.quiet
  generalize s.recDown n = v at hcnt hq
  refine ⟨?_, fun hlt => ?_, ((hq.mono (by simp)).trans (quiet_of_same rfl rfl rfl rfl rfl rfl)).bump _ _ (by simp)⟩
  · have hb : ∀ w : State, (w.bump (CN_RX_CNT n) CN_RX_CNT_COUNT 1).canAt n = w.canAt n := fun w => by
      unfold State.canAt
      rw [bump_can]
    rw [hb, canAt_setCanAt, if_pos rfl]
  · rw [rdN_eq_get] at hlt
    rw [rdN_eq_get, rdN_eq_get]
    exact (get_bump_same _ _ CN_RX_CNT_COUNT 1 (by decide) (lt_of_eq_of_lt (congrArg (· + 1) hcnt) hlt)).trans (congrArg (· + 1) hcnt)

theorem canFrame_full {fr : CanFrame} (hfd : fr.fd = false ∨ s.on (CN_CTRL n) CN_CTRL_FDEN = true) (hrem : fr.remote = false) {f : Nat}
    (hf : (List.range 128).find? (s.fltMatch n fr) = some f) (hfull : 64 ≤ (s.canAt n).queue.length) :
    ((s.canFrame n fr).canAt n).queue = (s.canAt n).queue ∧ (s.canFrame n fr).get (CN_STAT n) CN_STAT_OVF = 1 ∧
      s.quiet (s.canFrame n fr) [CN_STAT n, CN_OVF_CNT n] := by
  have h := recDown_statusOnly (s := s) (n := n)
  rw [canFrame_eq hfd hrem, show (s.recDown n).fltMatch n fr = s.fltMatch n fr from funext (h.fltMatch hn n fr), hf]
  dsimp only
  rw [h.canAt, if_neg (show ¬ (s.canAt n).queue.length < canDepth from Nat.not_lt.2 hfull)]
  refine ⟨?_, get_put_same _ _ _ _ (by decide), ((h.quiet.mono (by simp)).bump _ _ (by simp)).put _ _ (by simp)⟩
  have hc : (((s.recDown n).bump (CN_OVF_CNT n) CN_OVF_CNT_COUNT 1).put (CN_STAT n) CN_STAT_OVF 1).canAt n = (s.recDown n).canAt n := by
    unfold State.canAt
    rw [put_can, bump_can]
  rw [hc, h.canAt]

theorem canFrame_unmatched {fr : CanFrame} (hfd : fr.fd = false ∨ s.on (CN_CTRL n) CN_CTRL_FDEN = true) (hrem : fr.remote = false)
    (hf : (List.range 128).find? (s.fltMatch n fr) = none) : (s.canFrame n fr).canAt n = s.canAt n ∧ s.quiet (s.canFrame n fr) [CN_STAT n] := by
  have h := recDown_statusOnly (s := s) (n := n)
  rw [canFrame_eq hfd hrem, show (s.recDown n).fltMatch n fr = s.fltMatch n fr from funext (h.fltMatch hn n fr), hf]
  exact ⟨h.canAt n, h.quiet⟩

theorem canError_spec (kind : CanError) : ((s.canError n kind).canAt n).waiting = true ∧
    (s.rdN (CN_ERR_CNT n) + 1 < 2 ^ 32 → (s.canError n kind).rdN (CN_ERR_CNT n) = s.rdN (CN_ERR_CNT n) + 1) ∧
    (s.canError n kind).get (CN_STAT n) CN_STAT_REC = (if kind = .protocolException then s.get (CN_STAT n) CN_STAT_REC
      else min 255 (s.get (CN_STAT n) CN_STAT_REC + 1)) ∧ s.quiet (s.canError n kind) [CN_STAT n, CN_ERR_CNT n] := by
  unfold State.canError
  dsimp only
  generalize hv : (s.bump (CN_ERR_CNT n) CN_ERR_CNT_COUNT 1).setCanAt n { (s.bump (CN_ERR_CNT n) CN_ERR_CNT_COUNT 1).canAt n with waiting := true } = v
  have hwait : (v.canAt n).waiting = true := by rw [← hv, canAt_setCanAt, if_pos rfl]
  have hcnt : s.rdN (CN_ERR_CNT n) + 1 < 2 ^ 32 → v.rdN (CN_ERR_CNT n) = s.rdN (CN_ERR_CNT n) + 1 := by
    rw [← hv]
    intro h
    rw [rdN_eq_get] at h
    rw [rdN_eq_get, rdN_eq_get]
    exact get_bump_same s (CN_ERR_CNT n) CN_ERR_CNT_COUNT 1 (by decide) h
  have hrec : v.get (CN_STAT n) CN_STAT_REC = s.get (CN_STAT n) CN_STAT_REC := by
    rw [← hv]
    exact get_bump_ne s _ _ _ (by simp [CN_STAT, CN_ERR_CNT])
  have hq : s.quiet v [CN_STAT n, CN_ERR_CNT n] := by
    rw [← hv]
    exact ((quiet_bump ..).mono (by simp)).trans (quiet_of_same rfl rfl rfl rfl rfl rfl)
  clear hv
  split
  · exact ⟨hwait, hcnt, hrec, hq⟩
  · have h : v.statusOnly (v.recUp n) n := setRec_statusOnly _
    refine ⟨by rw [h.canAt, hwait], fun hlt => ?_, ?_, hq.trans (h.quiet.mono (by simp))⟩
    · rw [h.quiet.rdN (lostCounter_can (by simp only [CN_ERR_CNT]; omega)) (by simp [CN_STAT, CN_ERR_CNT]), hcnt hlt]
    · unfold State.recUp
      rw [setRec_get, hrec]
      omega

end

theorem canJoin_spec {s : State} {n : Nat} : (s.canJoin n).get (CN_STAT n) CN_STAT_ONBUS = 1 ∧ ((s.canJoin n).canAt n).waiting = false ∧
    ((s.canJoin n).canAt n).queue = (s.canAt n).queue ∧ s.quiet (s.canJoin n) [CN_STAT n] := by
  unfold State.canJoin
  have hget : (s.put (CN_STAT n) CN_STAT_ONBUS 1).get (CN_STAT n) CN_STAT_ONBUS = 1 := get_put_same _ _ _ _ (by decide)
  have hq : s.quiet (s.put (CN_STAT n) CN_STAT_ONBUS 1) [CN_STAT n] := quiet_put ..
  generalize s.put (CN_STAT n) CN_STAT_ONBUS 1 = v at hget hq
  refine ⟨hget, ?_, ?_, hq.trans (quiet_of_same rfl rfl rfl rfl rfl rfl)⟩
  · rw [canAt_setCanAt, if_pos rfl]
  · rw [canAt_setCanAt, if_pos rfl]

/-! ## The signal mapper (R327 to R331) -/

section

variable {s t u : State} {g : Nat}

/-- Groups, controllers and posted writes. -/
def State.mapParts (s : State) : Tbl GroupState × Tbl Can × Tbl (Option Posted) := (s.groups, s.can, s.posted)

theorem litBlind_mapParts : LitBlind State.mapParts := by
  refine ⟨fun _ _ _ _ => rfl, fun s dev i b => ?_, fun _ _ => rfl, fun _ _ => rfl, fun _ _ => rfl, fun _ _ => rfl, fun _ _ => rfl, fun _ _ => rfl,
    fun h => by unfold State.mapParts; rw [h.1]⟩
  unfold State.wrFlash
  split <;> rfl

theorem LitBlind.parkRequest {β : Type} {π : State → β} (hπ : LitBlind π) (s : State) (cause : Nat) : π (s.parkRequest cause) = π s := by
  unfold State.parkRequest
  split
  · exact hπ.wr _ _ _ (by simp [litWords])
  · split
    · exact ite_same (π := π) (hπ.parkBegin ..) rfl
    · split
      · exact ite_same (π := π) (hπ.parkBegin ..) rfl
      · exact ite_same (π := π) rfl (hπ.park ..)
    · rfl

theorem groupAt_congr (h : t.mapParts = s.mapParts) (k : Nat) : t.groupAt k = s.groupAt k := by
  unfold State.groupAt
  rw [show t.groups = s.groups from congrArg Prod.fst h]

theorem mapParts_wrN (a v : Nat) : (s.wrN a v).mapParts = s.mapParts := by
  unfold State.mapParts
  rw [wrN_groups, wrN_can, wrN_posted]

theorem mapParts_put (a : Nat) (f : Fld) (v : Nat) : (s.put a f v).mapParts = s.mapParts := by
  unfold State.mapParts
  rw [put_groups, put_can, put_posted]

theorem mapParts_bump (a : Nat) (f : Fld) (n : Nat) : (s.bump a f n).mapParts = s.mapParts := by
  unfold State.mapParts
  rw [bump_groups, bump_can, bump_posted]

theorem setSigStale_mapParts (i : Nat) (v : Bool) : (s.setSigStale i v).mapParts = s.mapParts := mapParts_put ..

theorem setSigStale_quiet (i : Nat) (v : Bool) : s.quiet (s.setSigStale i v) [SM_STALE (i / 32)] := quiet_put ..

/-- A value within its range is kept and shown. -/
theorem sigKept_spec (i : Nat) (hs : SigHistory) (v : Int) : let u := s.setSigAt i hs
    let t := (u.wrN (SM_VAL i) (toBits 32 v)).setSigStale i (!u.sigFresh i)
    t.mapParts = s.mapParts ∧ s.quiet t [SM_VAL i, SM_STALE (i / 32), SM_RANGE_CNT] := by
  have hv : (s.setSigAt i hs).mapParts = s.mapParts := rfl
  have hq : s.quiet (s.setSigAt i hs) [SM_VAL i, SM_STALE (i / 32), SM_RANGE_CNT] := quiet_of_same rfl rfl rfl rfl rfl rfl
  generalize s.setSigAt i hs = u at hv hq
  exact ⟨(setSigStale_mapParts ..).trans ((mapParts_wrN ..).trans hv), (hq.wrN _ (by simp)).trans ((setSigStale_quiet ..).mono (by simp))⟩

theorem sigPut_mapParts (i time raw : Nat) : (s.sigPut i time raw).mapParts = s.mapParts := by
  unfold State.sigPut
  split
  · rfl
  · dsimp only
    split
    · exact (sigKept_spec ..).1
    · exact mapParts_bump ..

/-- A value changes its signal's words at most. -/
theorem sigPut_quiet (i time raw : Nat) : s.quiet (s.sigPut i time raw) [SM_VAL i, SM_STALE (i / 32), SM_RANGE_CNT] := by
  unfold State.sigPut
  split
  · exact quiet_refl ..
  · dsimp only
    split
    · exact (sigKept_spec ..).2
    · exact (quiet_bump ..).mono (by simp)

theorem setGroupAt_can (i : Nat) (x : GroupState) : (s.setGroupAt i x).can = s.can := rfl

theorem setGroupAt_posted (i : Nat) (x : GroupState) : (s.setGroupAt i x).posted = s.posted := rfl

theorem quiet_setGroupAt (i : Nat) (x : GroupState) (but : List Nat) : s.quiet (s.setGroupAt i x) but := quiet_of_same rfl rfl rfl rfl rfl rfl

/-- The words and the record of a group whose staleness turns. -/
def State.groupShown (s : State) (g : Nat) (st : Bool) : State :=
  (s.put (SM_GERR g) SM_GERR_STALE (b2n st)).setGroupAt g { s.groupAt g with invalid := 0, alive := if st then none else (s.groupAt g).alive }

theorem groupShown_spec (st : Bool) : ((s.groupShown g st).groupAt g).lastOk = (s.groupAt g).lastOk ∧ (s.groupShown g st).can = s.can ∧
    (s.groupShown g st).posted = s.posted ∧ s.quiet (s.groupShown g st) [SM_GERR g] ∧
    ∀ a f, f.lo + f.w ≤ 31 → (s.groupShown g st).get a f = s.get a f := by
  unfold State.groupShown
  have hcan : (s.put (SM_GERR g) SM_GERR_STALE (b2n st)).can = s.can := put_can ..
  have hposted : (s.put (SM_GERR g) SM_GERR_STALE (b2n st)).posted = s.posted := put_posted ..
  have hq : s.quiet (s.put (SM_GERR g) SM_GERR_STALE (b2n st)) [SM_GERR g] := quiet_put ..
  have hget : ∀ a f, f.lo + f.w ≤ 31 → (s.put (SM_GERR g) SM_GERR_STALE (b2n st)).get a f = s.get a f := by
    intro a f hf
    by_cases ha : a = SM_GERR g
    · subst ha
      exact get_put_apart _ _ _ _ _ (by decide) (.inl hf)
    · exact get_put_ne _ _ _ _ ha
  generalize s.put (SM_GERR g) SM_GERR_STALE (b2n st) = v at hcan hposted hq hget
  refine ⟨?_, (setGroupAt_can ..).trans hcan, (setGroupAt_posted ..).trans hposted, hq.trans (quiet_setGroupAt ..), fun a f hf => ?_⟩
  · rw [groupAt_setGroupAt, if_pos rfl]
  · exact (congrArg (getField · f) (setGroupAt_rd v g _ a)).trans (hget a f hf)

/-- A group's staleness follows its signals, and a turn is reported. -/
theorem syncGroup_cases : s.syncGroup g = s ∨ ∃ st, (s.groupShown g st).onlyEvents (s.syncGroup g) := by
  by_cases h : (s.groupSignals g).all s.sigStale = s.on (SM_GERR g) SM_GERR_STALE
  · exact .inl (if_pos h)
  · refine .inr ⟨(s.groupSignals g).all s.sigStale, ?_⟩
    unfold State.syncGroup
    rw [if_neg h]
    exact post_only ..

/-- A group keeps its last arrival, whatever becomes of its staleness. -/
theorem syncGroup_spec : ((s.syncGroup g).groupAt g).lastOk = (s.groupAt g).lastOk ∧ (s.syncGroup g).can = s.can ∧ (s.syncGroup g).posted = s.posted ∧
    s.quiet (s.syncGroup g) [SM_GERR g] ∧
    ∀ a f, lostCounter a = false → f.lo + f.w ≤ 31 → (s.syncGroup g).get a f = s.get a f := by
  rcases syncGroup_cases (s := s) (g := g) with h | ⟨st, he⟩
  · rw [h]
    exact ⟨rfl, rfl, rfl, quiet_refl .., fun _ _ _ _ => rfl⟩
  · obtain ⟨hlast, hcan, hposted, hq, hget⟩ := groupShown_spec (s := s) (g := g) st
    generalize s.syncGroup g = t at he
    refine ⟨?_, by rw [he.1]; exact hcan, by rw [he.1]; exact hposted, hq.events he, fun a f hl hf => ?_⟩
    · unfold State.groupAt
      rw [he.1]
      exact hlast
    · rw [onlyEvents_get he f hl, hget a f hf]

/-! ### Arrivals -/

/-- The values of a list of signals. -/
def State.putAll (s : State) (time : Nat) (is : List Nat) (raw : SigDef → Nat) : State :=
  is.foldl (fun a i => match a.sigDef i with
    | some d => a.sigPut i time (raw d)
    | none => a) s

theorem putAll_mapParts (time : Nat) (is : List Nat) (raw : SigDef → Nat) : (s.putAll time is raw).mapParts = s.mapParts :=
  foldl_same State.mapParts (fun s i => by
    split
    · exact sigPut_mapParts ..
    · rfl) is s

/-- A group's arrival: its time, its values, its staleness, and the park signal's request. -/
theorem arrive_eq (time : Nat) (is : List Nat) (raw : SigDef → Nat) : s.arrive g time is raw =
    if s.parkEdge (((s.setGroupAt g { s.groupAt g with lastOk := time }).putAll time is raw).syncGroup g) then
      (((s.setGroupAt g { s.groupAt g with lastOk := time }).putAll time is raw).syncGroup g).parkRequest 2
    else ((s.setGroupAt g { s.groupAt g with lastOk := time }).putAll time is raw).syncGroup g := rfl

/-- An arrival is the group's last, and leaves the controllers and the posted writes. -/
theorem arrive_spec (time : Nat) (is : List Nat) (raw : SigDef → Nat) : ((s.arrive g time is raw).groupAt g).lastOk = time ∧
    (s.arrive g time is raw).can = s.can ∧ (s.arrive g time is raw).posted = s.posted := by
  have hat : ((s.setGroupAt g { s.groupAt g with lastOk := time }).groupAt g).lastOk = time := by rw [groupAt_setGroupAt, if_pos rfl]
  have hparts := putAll_mapParts (s := s.setGroupAt g { s.groupAt g with lastOk := time }) time is raw
  have hcan : (s.setGroupAt g { s.groupAt g with lastOk := time }).can = s.can := setGroupAt_can ..
  have hposted : (s.setGroupAt g { s.groupAt g with lastOk := time }).posted = s.posted := setGroupAt_posted ..
  rw [arrive_eq]
  generalize s.setGroupAt g { s.groupAt g with lastOk := time } = u at hat hparts hcan hposted
  rw [← groupAt_congr hparts] at hat
  have hcan : (u.putAll time is raw).can = s.can := (congrArg (·.2.1) hparts).trans hcan
  have hposted : (u.putAll time is raw).posted = s.posted := (congrArg (·.2.2) hparts).trans hposted
  generalize u.putAll time is raw = v at hat hcan hposted
  obtain ⟨h1, h2, h3, _⟩ := syncGroup_spec (s := v) (g := g)
  have h1 := h1.trans hat
  have h2 := h2.trans hcan
  have h3 := h3.trans hposted
  generalize v.syncGroup g = w at h1 h2 h3
  split
  · have hp := litBlind_mapParts.parkRequest w 2
    exact ⟨(congrArg GroupState.lastOk (groupAt_congr hp g)).trans h1, (congrArg (·.2.1) hp).trans h2, (congrArg (·.2.2) hp).trans h3⟩
  · exact ⟨h1, h2, h3⟩

theorem lostCounter_map {a : Nat} (h : 0xD08000 ≤ a) : lostCounter a = false := lostCounter_high (by omega)

/-- The arrival of one signal that the supervisor supplies leaves the low bits of its own register. -/
theorem arrive_svSig {i : Nat} (hi : i < 512) (time : Nat) (raw : SigDef → Nat) :
    (s.arrive g time [i] raw).get SM_SV_SIG SM_SV_SIG_SIGNAL = s.get SM_SV_SIG SM_SV_SIG_SIGNAL := by
  have hpark := (litBlind_get (a := SM_SV_SIG) (by decide) (by decide) SM_SV_SIG_SIGNAL).parkRequest
  have hput : ∀ v : State, (v.putAll time [i] raw).get SM_SV_SIG SM_SV_SIG_SIGNAL = v.get SM_SV_SIG SM_SV_SIG_SIGNAL := by
    intro v
    unfold State.putAll
    rw [List.foldl_cons, List.foldl_nil]
    split
    · refine (sigPut_quiet i time _).get (by decide) ?_ _
      simp only [SM_SV_SIG, SM_VAL, SM_STALE, SM_RANGE_CNT, List.mem_cons, List.not_mem_nil, or_false]
      omega
    · rfl
  have hsync : ∀ v : State, (v.syncGroup g).get SM_SV_SIG SM_SV_SIG_SIGNAL = v.get SM_SV_SIG SM_SV_SIG_SIGNAL := fun v =>
    (syncGroup_spec (s := v) (g := g)).2.2.2.2 _ _ (by decide) (by decide)
  rw [arrive_eq]
  split
  · rw [hpark, hsync, hput]
    rfl
  · rw [hsync, hput]
    rfl

/-! ### Frames -/

theorem badFrame_spec (f : Fld) (hf : f.lo + f.w ≤ 32) : (s.badFrame g f).get (SM_GERR g) f = min (s.get (SM_GERR g) f + 1) (2 ^ f.w - 1) % 2 ^ f.w ∧
    ((s.badFrame g f).groupAt g).invalid = (s.groupAt g).invalid + 1 ∧ (s.badFrame g f).can = s.can ∧ s.quiet (s.badFrame g f) [SM_GERR g] := by
  unfold State.badFrame
  have hget : (s.bumpSat (SM_GERR g) f 1).get (SM_GERR g) f = min (s.get (SM_GERR g) f + 1) (2 ^ f.w - 1) % 2 ^ f.w := get_put_same _ _ _ _ hf
  have hcan : (s.bumpSat (SM_GERR g) f 1).can = s.can := bumpSat_can ..
  have hq : s.quiet (s.bumpSat (SM_GERR g) f 1) [SM_GERR g] := quiet_put ..
  generalize s.bumpSat (SM_GERR g) f 1 = v at hget hcan hq
  refine ⟨(congrArg (getField · f) (setGroupAt_rd ..)).trans hget, ?_, (setGroupAt_can ..).trans hcan, hq.trans (quiet_setGroupAt ..)⟩
  rw [groupAt_setGroupAt, if_pos rfl]

variable {n : Nat} {d : Delivered} {rest : List Delivered}

/-- A controller with the oldest frame taken. -/
def State.frameTaken (s : State) (n : Nat) (rest : List Delivered) : State := s.setCanAt n { s.canAt n with queue := rest }

theorem frameTaken_queue : ((s.frameTaken n rest).canAt n).queue = rest := by
  unfold State.frameTaken
  rw [canAt_setCanAt, if_pos rfl]

theorem mapNext_eq (hq : (s.canAt n).queue = d :: rest) : s.mapNext n =
    match s.groupOf n d.frame with
    | some (g, grp) => (s.frameTaken n rest).mapFrame d g grp
    | none => s.frameTaken n rest := by
  unfold State.mapNext
  dsimp only
  rw [hq]
  rfl

theorem canAt_congr (h : t.can = s.can) (k : Nat) : t.canAt k = s.canAt k := by
  unfold State.canAt
  rw [h]

theorem mapFrame_short {grp : SigGroup} (hlen : d.frame.data.length < grp.dlcMin) : s.mapFrame d g grp = s.badFrame g SM_GERR_LEN_CNT := if_pos hlen

theorem mapFrame_plain {grp : SigGroup} (hlen : grp.dlcMin ≤ d.frame.data.length) (hcrc : grp.crc = false) (halive : grp.alive = false) :
    s.mapFrame d g grp = s.arrive g d.stamp (s.groupSignals g) fun x =>
      if x.motorola then motorolaField d.frame.data x.start 0 x.len else intelField d.frame.data x.start x.len := by
  unfold State.mapFrame
  dsimp only
  rw [if_neg (Nat.not_lt.2 hlen), hcrc, halive]
  rfl

/-! ### Staleness -/

theorem setSigStale_stale (i : Nat) (v : Bool) : (s.setSigStale i v).sigStale i = v := by
  unfold State.sigStale State.setSigStale State.on
  rw [get_put_same _ _ _ _ (by dsimp only; omega)]
  cases v <;> rfl

/-- A signal that is no longer fresh goes stale. -/
theorem sigTimeout_spec {i : Nat} (hi : i < 512) (hs : s.sigStale i = false) (hf : s.sigFresh i = false) :
    (s.sigTimeout i).sigStale i = true ∧ s.memSame (s.sigTimeout i) ∧ s.storeSame (s.sigTimeout i) := by
  unfold State.sigTimeout
  rw [hs, hf]
  rw [if_pos (by rfl)]
  dsimp only
  have hstale := setSigStale_stale (s := s) i true
  have hq := setSigStale_quiet (s := s) i true
  generalize s.setSigStale i true = v at hstale hq
  split
  next d _ =>
    obtain ⟨_, _, _, hsync, _⟩ := syncGroup_spec (s := v) (g := d.group)
    obtain ⟨hmem, hstore, _⟩ := quiet_trans hq hsync
    refine ⟨?_, hmem, hstore⟩
    refine (congrArg (· != 0) (hsync.get (lostCounter_map (by simp only [SM_STALE]; omega)) ?_ _)).trans hstale
    simp only [List.mem_singleton, SM_STALE, SM_GERR]
    omega
  · exact ⟨hstale, hq.1, hq.2.1⟩

/-! ### The supervisor's signals -/

theorem svSig_row : ∃ r, rowAt SM_SV_SIG = some r ∧ r.banking ≠ .banked := by
  cases h : rowAt SM_SV_SIG with
  | none => exact absurd h (by decide)
  | some r => exact ⟨r, rfl, fun hb => absurd (congrArg (Option.map RegRow.banking) h) (by rw [Option.map_some, hb]; decide)⟩

theorem landed_svSig {src : Src} (w : Word) (r : RegRow) : s.landed src SM_SV_SIG w r = s.svSig w := by
  unfold State.landed State.landPort
  simp [SM_SV_SIG, inRange]

/-- Group 174 with its write taken out. -/
def State.svCleared (s : State) : State := (s.setPostedAt 174 none).setBusy 174 false

theorem svLands_run {now : Nat} {src : Src} {w : Word} (hpost : s.postedAt 174 = some ⟨src, SM_SV_SIG, w.toNat⟩) (hup : s.islUp islGate = true) :
    exec (.postedWriteLands now 174) s = .next ((s.tick now).svCleared.svSig w) := by
  obtain ⟨r, hrow, hb⟩ := svSig_row
  have hx : (s.tick now).postedAt 174 = some ⟨src, SM_SV_SIG, w.toNat⟩ := hpost
  have hd : (s.tick now).delivers SM_SV_SIG = true := hup
  simp only [exec, execPostedWriteLands]
  rw [hx]
  refine congrArg Host.Outcome.next ((if_pos hd).trans ?_)
  beta_reduce
  rw [postedLands_unbanked hrow hb, landed_svSig]
  simp only [BitVec.ofNat_toNat, BitVec.setWidth_eq]
  rfl

theorem svCleared_spec : s.svCleared.postedAt 174 = none ∧ s.quiet s.svCleared [SM_SV_STAT] ∧ s.svCleared.locket = s.locket ∧ s.svCleared.dtime = s.dtime := by
  have heq : s.svCleared = (s.setPostedAt 174 none).put SM_SV_STAT SM_SV_STAT_BUSY 0 := rfl
  rw [heq]
  have hat : (s.setPostedAt 174 none).postedAt 174 = none := by rw [postedAt_setPostedAt, if_pos rfl]
  have hq : s.quiet (s.setPostedAt 174 none) [SM_SV_STAT] := quiet_of_same rfl rfl rfl rfl rfl rfl
  have hl : (s.setPostedAt 174 none).locket = s.locket := rfl
  have ht : (s.setPostedAt 174 none).dtime = s.dtime := rfl
  generalize s.setPostedAt 174 none = v at hat hq hl ht
  refine ⟨?_, hq.put _ _ (by simp), hl, ht⟩
  unfold State.postedAt
  rw [put_posted]
  exact hat

theorem svGroup_congr (h : t.locket = s.locket) (i : Nat) : t.svGroup i = s.svGroup i := by
  unfold State.svGroup State.sigDef State.sigGroup
  rw [h]

end

/-! ## The obligation -/

/-- Settles O25: a frame, an error, a join and an arrival each have a lemma that says what they leave. -/
theorem canAndSignalsComplete : Obligations.CanAndSignalsComplete := by
  unfold Obligations.CanAndSignalsComplete
  intro s now x
  have hx : ∀ but, s.quiet x but := fun but => (quiet_tick s now).mono (by simp)
  refine ⟨fun n fr hon hwait hok hrem hfd => ?_, fun n kind hon hwait => ?_, fun n hallow hen hup => ?_, fun n d rest hgate hup hq => ?_,
    fun src value u w hadm => ?_, fun src w hpost hup => ?_, fun sig hup hs hf => ?_⟩
  · have hcond : (x.canOn n.val && !(x.canAt n.val).waiting && canFrameOk fr) = true := by
      rw [show x.canOn n.val = true from hon, show (x.canAt n.val).waiting = false from hwait, hok]
      rfl
    have hrun : exec (.canFrameEnd now n fr) s = .next (x.canFrame n.val fr) := congrArg Host.Outcome.next (if_pos hcond)
    refine ⟨fun f hf hroom => ?_, fun f hf hfull => ?_, fun hf => ?_⟩
    · obtain ⟨hqueue, hcnt, hq⟩ := canFrame_queued (s := x) n.isLt hfd hrem hf hroom
      exact ⟨_, hrun, hqueue, hcnt, (hx _).trans hq⟩
    · obtain ⟨hqueue, hovf, hq⟩ := canFrame_full (s := x) n.isLt hfd hrem hf hfull
      exact ⟨_, hrun, hqueue, hovf, (hx _).trans hq⟩
    · obtain ⟨hcan, hq⟩ := canFrame_unmatched (s := x) n.isLt hfd hrem hf
      exact ⟨_, hrun, hcan, (hx _).trans hq⟩
  · have hcond : (x.canOn n.val && !(x.canAt n.val).waiting) = true := by
      rw [show x.canOn n.val = true from hon, show (x.canAt n.val).waiting = false from hwait]
      rfl
    obtain ⟨hw, hcnt, hrec, hq⟩ := canError_spec (s := x) n.isLt kind
    exact ⟨_, congrArg Host.Outcome.next (if_pos hcond), hw, hcnt, hrec, (hx _).trans hq⟩
  · have hcond : ((x.canAt n.val).allowed && x.on (CN_CTRL n.val) CN_CTRL_EN && x.islUp (islCan n.val)) = true := by
      rw [show (x.canAt n.val).allowed = true from hallow, show x.on (CN_CTRL n.val) CN_CTRL_EN = true from hen,
        show x.islUp (islCan n.val) = true from hup]
      rfl
    have hrun : exec (.canBusJoin now n) s = .next (x.canJoin n.val) := congrArg Host.Outcome.next (if_pos hcond)
    obtain ⟨hbus, hw, hqueue, hq⟩ := canJoin_spec (s := x) (n := n.val)
    exact ⟨_, hrun, hbus, hw, hqueue, (hx _).trans hq⟩
  · have hcond : (x.islUp islGate && x.islUp (islCan n.val)) = true := by
      rw [show x.islUp islGate = true from hgate, show x.islUp (islCan n.val) = true from hup]
      rfl
    have hrun : exec (.signalGroupFrame now n) s = .next (x.mapNext n.val) := congrArg Host.Outcome.next (if_pos hcond)
    have hnext := mapNext_eq (s := x) (n := n.val) hq
    have hgo : x.groupOf n.val d.frame = s.groupOf n.val d.frame := rfl
    rw [hgo] at hnext
    have htaken := frameTaken_queue (s := x) (n := n.val) (rest := rest)
    have htq : s.quiet (x.frameTaken n.val rest) [] := (hx _).trans (quiet_of_same rfl rfl rfl rfl rfl rfl)
    refine ⟨fun hnone => ?_, fun g grp hsome hshort => ?_, fun g grp hsome hlen hcrc halive => ?_⟩
    · rw [hnone] at hnext
      exact hrun.trans (congrArg Host.Outcome.next hnext)
    · rw [hsome] at hnext
      have hnext := hnext.trans (mapFrame_short hshort)
      obtain ⟨hlenCnt, hinvalid, hcan, hbq⟩ := badFrame_spec (s := x.frameTaken n.val rest) (g := g) SM_GERR_LEN_CNT (by decide)
      refine ⟨_, hrun.trans (congrArg Host.Outcome.next hnext), ?_, hlenCnt.trans ?_, hinvalid, (htq.mono (by simp)).trans hbq⟩
      · rw [canAt_congr hcan, htaken]
      · change min (s.get (SM_GERR g) SM_GERR_LEN_CNT + 1) 255 % 256 = _
        omega
    · rw [hsome] at hnext
      have hnext := hnext.trans (mapFrame_plain hlen hcrc halive)
      obtain ⟨hlast, hcan, _⟩ := arrive_spec (s := x.frameTaken n.val rest) (g := g) d.stamp ((x.frameTaken n.val rest).groupSignals g) fun y =>
        if y.motorola then motorolaField d.frame.data y.start 0 y.len else intelField d.frame.data y.start y.len
      exact ⟨_, hrun.trans (congrArg Host.Outcome.next hnext), by rw [canAt_congr hcan, htaken], hlast⟩
  · have halias : x.aliasAddr SM_SV_SIG = SM_SV_SIG := by simp [State.aliasAddr, SM_SV_SIG]
    unfold State.admits at hadm
    rw [halias] at hadm
    simp only [exec, execSmSvSig]
    split at hadm
    next v w' r hdec =>
      cases hadm
      rw [show s.tick now = x from rfl, hdec]
    · cases hadm
  · intro i
    have hrun := svLands_run (now := now) hpost hup
    obtain ⟨hnone, hq, hlocket, htime⟩ := svCleared_spec (s := x)
    rw [hrun]
    generalize x.svCleared = v at hnone hq hlocket htime
    have hgrp : v.svGroup i = s.svGroup i := svGroup_congr (hlocket.trans rfl) i
    refine ⟨fun hno => ?_, fun g hsome => ?_⟩
    · have hsv : v.svSig w = v.put SM_SV_STAT SM_SV_STAT_REJECT 1 := by
        unfold State.svSig
        dsimp only
        rw [hgrp, hno]
      rw [hsv]
      refine ⟨_, rfl, get_put_same _ _ _ _ (by decide), ?_, ((hx _).trans hq).put _ _ (by simp)⟩
      unfold State.postedAt
      rw [put_posted]
      exact hnone
    · have hsv : v.svSig w = (v.put SM_SV_SIG SM_SV_SIG_SIGNAL i).arrive g v.dtime [i] fun y => v.rdN SM_SV_DATA % 2 ^ y.len := by
        unfold State.svSig
        dsimp only
        rw [hgrp, hsome]
      have hsig : (v.put SM_SV_SIG SM_SV_SIG_SIGNAL i).get SM_SV_SIG SM_SV_SIG_SIGNAL = i :=
        (get_put_same v SM_SV_SIG SM_SV_SIG_SIGNAL i (by decide)).trans (Nat.mod_eq_of_lt (getField_lt w SM_SV_SIG_SIGNAL))
      obtain ⟨hlast, _, hposted⟩ := arrive_spec (s := v.put SM_SV_SIG SM_SV_SIG_SIGNAL i) (g := g) v.dtime [i] fun y => v.rdN SM_SV_DATA % 2 ^ y.len
      refine ⟨_, congrArg Host.Outcome.next hsv, hlast.trans htime, ?_, ?_⟩
      · rw [arrive_svSig (getField_lt w SM_SV_SIG_SIGNAL), hsig]
      · unfold State.postedAt
        rw [hposted, put_posted]
        exact hnone
  · obtain ⟨hstale, hm, hst⟩ := sigTimeout_spec (s := x) sig.isLt hs hf
    exact ⟨_, congrArg Host.Outcome.next (if_pos (show x.islUp islGate = true from hup)), hstale, fun a => (hm a).trans rfl, hst⟩

end Sys2Proof.Machine

end

section

namespace Sys2Proof.Machine

/-! ## The causes of FAULT_N (R338 to R340) -/

section

variable {s t : State}

theorem linkDown_put (k : Nat) (hk : k < 16) (g : Fld) (v : Nat) : (s.put WT_FAULT g v).linkDown k = s.linkDown k := by
  have hout : (s.put WT_FAULT g v).rd (TL_OUT k) = s.rd (TL_OUT k) := rd_put_ne _ _ _ (by simp only [ne_eq, TL_OUT, WT_FAULT]; omega)
  have hup : ∀ l, (s.put WT_FAULT g v).linkIsUp l = s.linkIsUp l := fun l =>
    congrArg (· != 0) (get_put_ne _ _ _ _ (by simp only [ne_eq, OL_LSTAT, WT_FAULT]; omega))
  unfold State.linkDown State.linksOf linksBy
  rw [hout]
  simp only [hup]

/-- Whether a cause's condition is present does not depend on WT_FAULT. -/
theorem causePresent_put (f g : Fld) (v : Nat) : (s.put WT_FAULT g v).causePresent f = s.causePresent f := by
  have hlost : (s.put WT_FAULT g v).on SV_HB_STAT SV_HB_STAT_LOST = s.on SV_HB_STAT SV_HB_STAT_LOST :=
    congrArg (· != 0) (get_put_ne _ _ _ _ (by decide))
  have hsafe : ∀ k, (s.put WT_FAULT g v).safeRegions k = s.safeRegions k := fun _ => rfl
  have hscan : ∀ k, (s.put WT_FAULT g v).scanAt k = s.scanAt k := fun _ => rfl
  have hwatch : ∀ k, (s.put WT_FAULT g v).watchAt k = s.watchAt k := fun _ => rfl
  have hsink : ∀ k, (s.put WT_FAULT g v).sinkAt k = s.sinkAt k := fun _ => rfl
  have hmode : ∀ k, (s.put WT_FAULT g v).get (WT_SINK_CTRL k) WT_SINK_CTRL_MODE = s.get (WT_SINK_CTRL k) WT_SINK_CTRL_MODE := fun k =>
    get_put_ne _ _ _ _ (by simp only [ne_eq, WT_SINK_CTRL, WT_FAULT]; omega)
  unfold State.causePresent
  rw [hlost]
  refine if_congr Iff.rfl rfl ?_
  rw [Bool.eq_iff_iff, List.any_eq_true, List.any_eq_true]
  refine exists_congr fun k => and_congr_right fun hk => ?_
  rw [hscan, hsafe, linkDown_put k (List.mem_range.1 hk), hsink, hmode]
  simp only [hwatch]

/-- The W1C of one cause. -/
def State.clearCause (s : State) (v : Nat) (f : Fld) : State := if bit v f.lo && !s.causePresent f then s.put WT_FAULT f 0 else s

theorem clearCause_quiet (v : Nat) (f : Fld) : s.quiet (s.clearCause v f) [WT_FAULT] := quiet_ite (quiet_put ..) (quiet_refl ..)

theorem clearCause_present (v : Nat) (f g : Fld) : (s.clearCause v f).causePresent g = s.causePresent g :=
  ite_same (π := (·.causePresent g)) (causePresent_put ..) rfl

theorem clearCause_apart (v : Nat) {f g : Fld} (hf : f.lo + f.w ≤ 32) (h : g.lo + g.w ≤ f.lo ∨ f.lo + f.w ≤ g.lo) :
    (s.clearCause v f).get WT_FAULT g = s.get WT_FAULT g := ite_same (π := (·.get WT_FAULT g)) (get_put_apart _ _ _ _ _ hf h) rfl

theorem clearCause_same (v : Nat) {f : Fld} (hf : f.lo + f.w ≤ 32) :
    (s.clearCause v f).get WT_FAULT f = if bit v f.lo && !s.causePresent f then 0 else s.get WT_FAULT f := by
  unfold State.clearCause
  split
  · rw [get_put_same _ _ _ _ hf, Nat.zero_mod]
  · rfl

/-- Each of some causes that lie apart is cleared by its own bit alone. -/
theorem clearCauses_get (v : Nat) {l : List Fld} (hfit : ∀ f ∈ l, f.lo + f.w ≤ 32)
    (hpair : l.Pairwise fun f g => f.lo + f.w ≤ g.lo ∨ g.lo + g.w ≤ f.lo) : ∀ s : State, ∀ f ∈ l,
    (l.foldl (fun s f => s.clearCause v f) s).get WT_FAULT f = if bit v f.lo && !s.causePresent f then 0 else s.get WT_FAULT f := by
  induction l with
  | nil => exact fun _ _ hf => absurd hf List.not_mem_nil
  | cons g l ih =>
    intro s f hf
    obtain ⟨hg, hpair⟩ := List.pairwise_cons.1 hpair
    have hfit' : ∀ f ∈ l, f.lo + f.w ≤ 32 := fun f hf => hfit f (List.mem_cons_of_mem _ hf)
    rw [List.foldl_cons]
    rcases List.mem_cons.1 hf with rfl | hf
    · rw [← clearCause_same v (hfit f List.mem_cons_self)]
      exact foldl_keeps (P := fun t => t.get WT_FAULT f = (s.clearCause v f).get WT_FAULT f)
        (fun t h hh ht => (clearCause_apart v (hfit' h hh) (hg h hh)).trans ht) rfl
    · rw [ih hfit' hpair (s.clearCause v g) f hf, clearCause_present, clearCause_apart v (hfit g List.mem_cons_self) ((hg f hf).symm)]

theorem dropCleared_quiet (but : List Nat) : s.quiet s.dropCleared but := quiet_of_same rfl rfl rfl rfl rfl rfl

theorem dropCleared_get (a : Nat) (f : Fld) : s.dropCleared.get a f = s.get a f := rfl

theorem faultClear_eq (v : Nat) : s.faultClear v = (faultCauses.foldl (fun s f => s.clearCause v f) s).syncFault := rfl

/-- The words that FAULT_N follows and counts in. -/
def pinWords : List Nat := [WT_FAULT, WT_FCNT]

/-- A write of WT_FAULT clears each written cause whose condition is absent, and no other. -/
theorem faultWrite_causes (w : Word) : (∀ f ∈ faultCauses, (s.faultWrite WT_FAULT w).get WT_FAULT f =
      if bit w.toNat f.lo && !s.causePresent f then 0 else s.get WT_FAULT f) ∧ s.quiet (s.faultWrite WT_FAULT w) pinWords := by
  unfold State.faultWrite
  rw [if_pos rfl, faultClear_eq]
  have hget := clearCauses_get w.toNat (l := faultCauses) (by decide) (by decide) s
  have hq : s.quiet (faultCauses.foldl (fun s f => s.clearCause w.toNat f) s) pinWords :=
    quiet_foldl (fun s f _ => (clearCause_quiet w.toNat f).mono (by simp [pinWords])) s
  generalize faultCauses.foldl (fun s f => s.clearCause w.toNat f) s = v at hget hq
  have hlo : ∀ f ∈ faultCauses, 1 ≤ f.lo := by decide
  refine ⟨fun f hf => ?_, ((hq.trans (syncFault_quiet v)).trans (dropCleared_quiet _)).trans (syncFault_quiet _)⟩
  rw [syncFault_get_cause _ (hlo f hf), dropCleared_get, syncFault_get_cause _ (hlo f hf), hget f hf]

/-- WT_FTL takes a word under its access codes. -/
theorem faultWrite_timelines (w : Word) : (s.faultWrite WT_FTL w).get WT_FTL WT_FTL_TL =
      s.get WT_FTL WT_FTL_TL - (s.get WT_FTL WT_FTL_TL &&& getField w WT_FTL_TL) ∧ s.quiet (s.faultWrite WT_FTL w) [WT_FTL, WT_FAULT, WT_FCNT] := by
  obtain ⟨r, hrow, hfields⟩ : ∃ r, rowAt WT_FTL = some r ∧ r.fields = [⟨"TL", 0, 16, .w1c, 0, false, .b⟩] := ⟨_, by rfl, rfl⟩
  have hland : getField (landWord (s.rd WT_FTL) w r) WT_FTL_TL =
      s.get WT_FTL WT_FTL_TL - (s.get WT_FTL WT_FTL_TL &&& getField w WT_FTL_TL) := by
    have hin : ∀ f ∈ r.fields, f.lo + f.w ≤ 32 := by rw [hfields]; decide
    exact getField_landWord hin (s.rd WT_FTL) w (by rw [hfields]; exact List.pairwise_singleton ..)
      (f := ⟨"TL", 0, 16, .w1c, 0, false, .b⟩) (by rw [hfields]; exact List.mem_singleton.2 rfl)
  unfold State.faultWrite
  rw [if_neg (by decide), hrow]
  dsimp only
  have hget : (s.wr WT_FTL (landWord (s.rd WT_FTL) w r)).get WT_FTL WT_FTL_TL = getField (landWord (s.rd WT_FTL) w r) WT_FTL_TL :=
    congrArg (getField · WT_FTL_TL) (rd_wr_same ..)
  have hq : s.quiet (s.wr WT_FTL (landWord (s.rd WT_FTL) w r)) [WT_FTL, WT_FAULT, WT_FCNT] := (quiet_wr ..).mono (by simp)
  generalize s.wr WT_FTL (landWord (s.rd WT_FTL) w r) = v at hget hq
  have hsync := syncFault_quiet v.dropCleared
  refine ⟨?_, (hq.trans (dropCleared_quiet _)).trans (hsync.mono (by simp))⟩
  rw [hsync.get (by decide) (by decide), dropCleared_get, hget, hland]

/-! ### The heartbeat (R481) -/

theorem hbEdge_spec : s.hbEdge.get SV_HB_STAT SV_HB_STAT_HBCNT = (s.get SV_HB_STAT SV_HB_STAT_HBCNT + 1) % 256 ∧
    s.hbEdge.get SV_HB_STAT SV_HB_STAT_LOST = 0 ∧ s.hbEdge.sv.hbFrom = s.dtime ∧ s.hbEdge.sv.hb = s.sv.hb ∧ s.quiet s.hbEdge [SV_HB_STAT] := by
  unfold State.hbEdge
  dsimp only
  generalize hlost : s.on SV_HB_STAT SV_HB_STAT_LOST = lost
  have hcnt : ((s.bumpMod SV_HB_STAT SV_HB_STAT_HBCNT 1).put SV_HB_STAT SV_HB_STAT_LOST 0).get SV_HB_STAT SV_HB_STAT_HBCNT =
      (s.get SV_HB_STAT SV_HB_STAT_HBCNT + 1) % 256 := by
    rw [get_put_apart _ _ _ _ _ (by decide) (by decide), get_bumpMod_same _ _ _ _ (by decide)]
    rfl
  have hclear : ((s.bumpMod SV_HB_STAT SV_HB_STAT_HBCNT 1).put SV_HB_STAT SV_HB_STAT_LOST 0).get SV_HB_STAT SV_HB_STAT_LOST = 0 :=
    get_put_same _ _ _ _ (by decide)
  have hq : s.quiet ((s.bumpMod SV_HB_STAT SV_HB_STAT_HBCNT 1).put SV_HB_STAT SV_HB_STAT_LOST 0) [SV_HB_STAT] :=
    ((quiet_refl s _).bumpMod _ _ (by simp)).put _ _ (by simp)
  have hdt : ((s.bumpMod SV_HB_STAT SV_HB_STAT_HBCNT 1).put SV_HB_STAT SV_HB_STAT_LOST 0).dtime = s.dtime := rfl
  have hsv : ((s.bumpMod SV_HB_STAT SV_HB_STAT_HBCNT 1).put SV_HB_STAT SV_HB_STAT_LOST 0).sv = s.sv := rfl
  generalize (s.bumpMod SV_HB_STAT SV_HB_STAT_HBCNT 1).put SV_HB_STAT SV_HB_STAT_LOST 0 = v at hcnt hclear hq hdt hsv
  exact ⟨hcnt, hclear, hdt, congrArg SvPort.hb hsv, hq.trans (quiet_of_same rfl rfl rfl rfl rfl rfl)⟩

theorem raiseFault_none_quiet (f : Fld) : s.quiet (s.raiseFault f none) pinWords := by
  unfold State.raiseFault
  dsimp only
  have hq : s.quiet (s.put WT_FAULT f 1) pinWords := (quiet_put ..).mono (by simp [pinWords])
  generalize s.put WT_FAULT f 1 = v at hq
  exact (hq.trans (quiet_of_same rfl rfl rfl rfl rfl rfl)).trans (syncFault_quiet _)

end

/-! ## The supervisor's frames (R476 to R480) -/

section

variable {s : State} {frame : List Byte} {bits : Nat}

/-- The hub with the frame's response shifted out. -/
def State.misoShown (s : State) : State := { s with sv := { s.sv with miso := s.misoFrame } }

/-- The answer to a frame that repeats the last one. -/
def State.repeated (s : State) (frame : List Byte) : State :=
  ({ s.misoShown with gate := { s.gate with session := { s.gate.session with lastAt := s.dtime } } }).respond 6 (fieldAt frame 1 1) s.sv.ldata

theorem repeated_quiet {s : State} (frame : List Byte) (but : List Nat) : s.quiet (s.repeated frame) but := quiet_of_same rfl rfl rfl rfl rfl rfl

variable (hup : s.svUp = true) (hgate : s.islUp islGate = true)

include hup hgate

theorem svFrame_bad {r : Nat} (h : svFail frame bits = some r) (cmd : Nat) (eff : State → State × Nat × Nat) :
    s.svFrame cmd frame bits eff = (s.misoShown.svBad r).respond r (fieldAt frame 1 1) 0 := by
  unfold State.svFrame
  rw [hup, hgate, if_neg (by decide), h]
  rfl

theorem svFrame_repeat (h : svFail frame bits = none) (hlast : s.sv.last = some (frame.take 11)) {cmd : Nat} (hcmd : fieldAt frame 0 1 = cmd)
    (eff : State → State × Nat × Nat) : s.svFrame cmd frame bits eff = s.repeated frame := by
  unfold State.svFrame
  rw [hup, hgate, if_neg (by decide), h]
  dsimp only
  rw [if_neg (not_not.2 hcmd), if_pos hlast]
  rfl

theorem svFrame_runs (h : svFail frame bits = none) (hlast : s.sv.last ≠ some (frame.take 11)) {cmd : Nat} (hcmd : fieldAt frame 0 1 = cmd)
    {eff : State → State × Nat × Nat} {t : State} {rstat data : Nat} (heff : eff (s.misoShown.svRun frame) = (t, rstat, data)) :
    s.svFrame cmd frame bits eff = (t.svResult data).respond rstat (fieldAt frame 1 1) data := by
  unfold State.svFrame
  rw [hup, hgate, if_neg (by decide), h]
  dsimp only
  rw [if_neg (not_not.2 hcmd), if_neg hlast]
  change (let (a, r, d) := eff (s.misoShown.svRun frame); (a.svResult d).respond r (fieldAt frame 1 1) d) = _
  rw [heff]

end

section

variable {s : State}

theorem misoShown_quiet (but : List Nat) : s.quiet s.misoShown but := quiet_of_same rfl rfl rfl rfl rfl rfl

theorem respond_quiet (rstat seq data : Nat) (but : List Nat) : s.quiet (s.respond rstat seq data) but := quiet_of_same rfl rfl rfl rfl rfl rfl

theorem svBad_quiet (r : Nat) : s.quiet (s.svBad r) [SV_ERR_CNT] := quiet_ite (quiet_bump ..) (quiet_ite (quiet_bump ..) (quiet_refl ..))

theorem svRun_spec (frame : List Byte) : s.quiet (s.svRun frame) [SV_FRAME_CNT] ∧
    (s.get SV_FRAME_CNT SV_FRAME_CNT_COUNT + 1 < 2 ^ 32 → (s.svRun frame).get SV_FRAME_CNT SV_FRAME_CNT_COUNT = s.get SV_FRAME_CNT SV_FRAME_CNT_COUNT + 1) := by
  unfold State.svRun
  dsimp only
  generalize hv : ({ s with sv := _, gate := _ } : State) = v
  have hq : s.quiet v [SV_FRAME_CNT] := by rw [← hv]; exact quiet_of_same rfl rfl rfl rfl rfl rfl
  have hget : v.get SV_FRAME_CNT SV_FRAME_CNT_COUNT = s.get SV_FRAME_CNT SV_FRAME_CNT_COUNT := by rw [← hv]; rfl
  clear hv
  refine ⟨hq.bump _ _ (by simp), fun h => ?_⟩
  rw [← hget] at h ⊢
  exact get_bump_same _ _ SV_FRAME_CNT_COUNT 1 (by decide) h

end

/-- What a READ does and answers. -/
def svReadEff (frame : List Byte) (ready : Bool) (s : State) : State × Nat × Nat :=
  let x := s.regRead .sup (fieldAt frame 2 4)
  (x.2.answer .sup x.1, if ready then 0 else 5, if ready then x.1.toNat else 0)

/-- What a WRITE does and answers. -/
def svWriteEff (frame : List Byte) (s : State) : State × Nat × Nat :=
  let x := s.regWrite .sup (fieldAt frame 2 4) (fieldAt frame 6 4)
  (x.1, x.2.code, 0)

theorem exec_svNop (s : State) (now : Nat) (frame : List Byte) (bits : Nat) :
    exec (.svNop now frame bits) s = .next ((s.tick now).svFrame 0 frame bits fun s => (s, 0, 0)) := rfl

theorem exec_svRead (s : State) (now : Nat) (frame : List Byte) (bits : Nat) (ready : Bool) :
    exec (.svRead now frame bits ready) s = .next ((s.tick now).svFrame 1 frame bits (svReadEff frame ready)) := rfl

theorem exec_svWrite (s : State) (now : Nat) (frame : List Byte) (bits : Nat) :
    exec (.svWrite now frame bits) s = .next ((s.tick now).svFrame 2 frame bits (svWriteEff frame)) := rfl

section

variable {s : State} {frame : List Byte} {bits : Nat} (now : Nat) (hup : (s.tick now).svUp = true) (hgate : (s.tick now).islUp islGate = true)

include hup hgate

theorem svFrame_new (hok : svFail frame bits = none) (hnew : (s.tick now).sv.last ≠ some (frame.take 11)) :
    let z := (s.tick now).misoShown.svRun frame
    let seq := fieldAt frame 1 1
    let read := z.regRead .sup (fieldAt frame 2 4)
    let write := z.regWrite .sup (fieldAt frame 2 4) (fieldAt frame 6 4)
    (fieldAt frame 0 1 = 0 → exec (.svNop now frame bits) s = .next ((z.svResult 0).respond 0 seq 0)) ∧
    (fieldAt frame 0 1 = 1 →
      exec (.svRead now frame bits true) s = .next (((read.2.answer .sup read.1).svResult read.1.toNat).respond 0 seq read.1.toNat) ∧
      exec (.svRead now frame bits false) s = .next (((read.2.answer .sup read.1).svResult 0).respond 5 seq 0)) ∧
    (fieldAt frame 0 1 = 2 → exec (.svWrite now frame bits) s = .next ((write.1.svResult 0).respond write.2.code seq 0)) := by
  intro z seq read write
  refine ⟨fun h0 => ?_, fun h1 => ⟨?_, ?_⟩, fun h2 => ?_⟩
  · rw [exec_svNop, svFrame_runs hup hgate hok hnew h0 rfl]
  · rw [exec_svRead, svFrame_runs hup hgate hok hnew h1 (t := read.2.answer .sup read.1) (rstat := 0) (data := read.1.toNat) rfl]
  · rw [exec_svRead, svFrame_runs hup hgate hok hnew h1 (t := read.2.answer .sup read.1) (rstat := 5) (data := 0) rfl]
  · rw [exec_svWrite, svFrame_runs hup hgate hok hnew h2 (t := write.1) (rstat := write.2.code) (data := 0) rfl]

theorem svFrame_again (hok : svFail frame bits = none) (hlast : (s.tick now).sv.last = some (frame.take 11)) :
    (fieldAt frame 0 1 = 0 → exec (.svNop now frame bits) s = .next ((s.tick now).repeated frame)) ∧
    (fieldAt frame 0 1 = 1 → ∀ ready, exec (.svRead now frame bits ready) s = .next ((s.tick now).repeated frame)) ∧
    (fieldAt frame 0 1 = 2 → exec (.svWrite now frame bits) s = .next ((s.tick now).repeated frame)) := by
  refine ⟨fun h0 => ?_, fun h1 ready => ?_, fun h2 => ?_⟩
  · rw [exec_svNop, svFrame_repeat hup hgate hok hlast h0]
  · rw [exec_svRead, svFrame_repeat hup hgate hok hlast h1]
  · rw [exec_svWrite, svFrame_repeat hup hgate hok hlast h2]

theorem svFrame_refused {r : Nat} (hbad : svFail frame bits = some r) :
    let t := ((s.tick now).misoShown.svBad r).respond r (fieldAt frame 1 1) 0
    exec (.svNop now frame bits) s = .next t ∧ exec (.svWrite now frame bits) s = .next t ∧ ∀ ready, exec (.svRead now frame bits ready) s = .next t := by
  refine ⟨?_, ?_, fun ready => ?_⟩
  · rw [exec_svNop, svFrame_bad hup hgate hbad]
  · rw [exec_svWrite, svFrame_bad hup hgate hbad]
  · rw [exec_svRead, svFrame_bad hup hgate hbad]

end

/-! ## The obligation -/

/-- Settles O26: the causes of FAULT_N are cleared one by one, and a frame is refused, answered again or run by the checks of `svFrame`. -/
theorem supervisorCompletes : Obligations.SupervisorCompletes := by
  unfold Obligations.SupervisorCompletes
  intro s now x
  have hx : ∀ but, s.quiet x but := fun but => (quiet_tick s now).mono (by simp)
  refine ⟨fun hen happ => ?_, fun hoff => ?_, fun hover => ?_, fun src value u w hadm => ?_, fun src value u w hadm => ?_, fun frame bits hup hgate => ?_⟩
  · have hcond : (x.on SV_HB_CFG SV_HB_CFG_EN && x.boot.applied) = true := Bool.and_eq_true_iff.2 ⟨hen, happ⟩
    obtain ⟨hcnt, hlost, hfrom, hhb, hq⟩ := hbEdge_spec (s := { x with sv := { x.sv with hb := !x.sv.hb } })
    exact ⟨_, congrArg Host.Outcome.next (if_pos hcond), hcnt, hlost, hfrom, hhb, ((hx _).trans (quiet_of_same rfl rfl rfl rfl rfl rfl)).trans hq⟩
  · exact congrArg Host.Outcome.next (if_neg (by rw [show (x.on SV_HB_CFG SV_HB_CFG_EN && x.boot.applied) = false from hoff]; exact Bool.false_ne_true))
  · have hon := raiseFault_on (s := x.put SV_HB_STAT SV_HB_STAT_LOST 1) (f := WT_FAULT_HB) (by decide) rfl (by decide) none
    have hq := raiseFault_none_quiet (s := x.put SV_HB_STAT SV_HB_STAT_LOST 1) WT_FAULT_HB
    have hlost : ((x.put SV_HB_STAT SV_HB_STAT_LOST 1).raiseFault WT_FAULT_HB none).get SV_HB_STAT SV_HB_STAT_LOST = 1 :=
      (hq.get (by decide) (by decide) _).trans (get_put_same _ _ _ _ (by decide))
    have hget : ((x.put SV_HB_STAT SV_HB_STAT_LOST 1).raiseFault WT_FAULT_HB none).get WT_FAULT WT_FAULT_HB ≠ 0 := bne_iff_ne.1 hon
    have hlt := getField_lt (((x.put SV_HB_STAT SV_HB_STAT_LOST 1).raiseFault WT_FAULT_HB none).rd WT_FAULT) WT_FAULT_HB
    refine ⟨_, congrArg Host.Outcome.next (if_pos hover), hlost, ?_, ?_, (((hx _).put _ _ (by simp)).trans (hq.mono (by simp [pinWords])))⟩
    · exact Nat.le_antisymm (Nat.le_of_lt_succ hlt) (Nat.one_le_iff_ne_zero.2 hget)
    · exact (faultLow_iff _).2 (.inr (.inr (.inr ⟨WT_FAULT_HB, by simp, hget⟩)))
  · obtain ⟨htl, hq⟩ := faultWrite_timelines (s := u) w
    exact ⟨_, congrArg Host.Outcome.next (guarded_fst_of_admits hadm fun s w => s.faultWrite WT_FTL w), htl, hq⟩
  · obtain ⟨hcauses, hq⟩ := faultWrite_causes (s := u) w
    refine ⟨_, congrArg Host.Outcome.next (guarded_fst_of_admits hadm fun s w => s.faultWrite WT_FAULT w), fun f hf hkeep => ?_, fun f hf hbit hgone => ?_, hq⟩
    · rw [hcauses f hf, if_neg]
      rcases hkeep with h | h <;> simp [h]
    · rw [hcauses f hf, hbit, hgone]
      rfl
  · intro m z seq
    have hm : s.quiet x.misoShown [SV_FRAME_CNT] := (hx _).trans (misoShown_quiet _)
    have hcount := svRun_spec (s := x.misoShown) frame
    refine ⟨fun hok hnew => ?_, fun hok hlast => ?_, fun r hbad => ?_⟩
    · obtain ⟨hnop, hread, hwrite⟩ := svFrame_new now hup hgate hok hnew
      exact ⟨hnop, fun h1 => ⟨(hread h1).1, _, (hread h1).2, rfl, rfl, rfl⟩, hwrite, hcount.2, hm.trans hcount.1⟩
    · obtain ⟨hnop, hread, hwrite⟩ := svFrame_again now hup hgate hok hlast
      exact ⟨x.repeated frame, rfl, rfl, rfl, rfl, (hx _).trans (repeated_quiet ..), hnop, hread, hwrite⟩
    · obtain ⟨hnop, hwrite, hread⟩ := svFrame_refused now hup hgate hbad
      exact ⟨_, hnop, hwrite, hread, rfl, rfl, rfl, (((hx _).trans (misoShown_quiet _)).trans (svBad_quiet r)).trans (respond_quiet ..)⟩

end Sys2Proof.Machine

end

section

namespace Sys2Proof.Machine

/-! ## The work of the engines: what it may change -/

section

variable {s t u : State} {a n : Nat} {but more : List Nat}

/-- `t` is `s` but for what the engines' work changes: their channels, the traffic, and memory from `a` on for `n` bytes. -/
structure State.works (s t : State) (a n : Nat) (but : List Nat) : Prop where
  same : t = { s with ev := t.ev, seqs := t.seqs, regs := t.regs, shq := t.shq, reqs := t.reqs, flying := t.flying, dma := t.dma,
                      dmaLast := t.dmaLast, blit := t.blit, trigs := t.trigs, mem := t.mem, poison := t.poison, free := t.free, used := t.used }
  mem : ∀ b, b < a ∨ a + n ≤ b → t.rdByte b = s.rdByte b
  poison : ∀ b ∈ t.poison, b ∈ s.poison
  regs : s.regsSame t but

theorem State.engines.works (h : s.engines t but) : s.works t a n but where
  same := by
    have e := h.same
    rw [e]
  mem b _ := h.quiet.1 b
  poison b hb := by rw [h.same] at hb; exact hb
  regs := h.regs

theorem State.moves.works (h : s.moves t a n but) : s.works t a n but where
  same := by
    have e := h.same
    rw [e]
  mem := h.mem
  poison := h.poison
  regs := h.regs

theorem State.traffic.works (h : s.traffic t but) : s.works t a n but := h.engines.works

theorem State.works.trans (h : s.works t a n but) (k : t.works u a n but) : s.works u a n but where
  same := by
    have e := k.same
    rw [h.same] at e
    exact e
  mem b hb := (k.mem b hb).trans (h.mem b hb)
  poison b hb := h.poison b (k.poison b hb)
  regs r hl hr := (k.regs r hl hr).trans (h.regs r hl hr)

theorem State.works.mono (h : s.works t a n but) (hm : ∀ r ∈ but, r ∈ more) : s.works t a n more where
  same := h.same
  mem := h.mem
  poison := h.poison
  regs r hl hr := h.regs r hl fun hc => hr (hm r hc)

theorem State.works.widen (h : s.works t a n but) {a' n' : Nat} (hl : a' ≤ a) (hr : a + n ≤ a' + n') : s.works t a' n' but where
  same := h.same
  mem b hb := h.mem b (by omega)
  poison := h.poison
  regs := h.regs

theorem State.works.store (h : s.works t a n but) : s.storeSame t := ⟨by rw [h.same], by rw [h.same], by rw [h.same]⟩

theorem State.works.quiet (h : s.works t a 0 but) : s.quiet t but := ⟨fun b => h.mem b (by omega), h.store, h.regs⟩

theorem State.works.get (h : s.works t a n but) {r : Nat} (hl : lostCounter r = false) (hr : r ∉ but) (f : Fld) : t.get r f = s.get r f :=
  congrArg (getField · f) (h.regs r hl hr)

theorem State.works.subsUp (h : s.works t a n but) : t.subsUp = s.subsUp := by
  unfold State.subsUp State.islUp
  rw [h.same]

theorem State.works.unpoisoned (h : s.works t a n but) {b m : Nat} (hp : s.poisoned b m = false) : t.poisoned b m = false :=
  poisoned_false.2 fun c hc => poisoned_false.1 hp c (h.poison c hc)

theorem State.works.takesStatus (h : s.works t a n but) {b : Nat} (hs : s.takesStatus b) : t.takesStatus b := by
  obtain ⟨hw, hup, hp⟩ := hs
  exact ⟨hw, h.subsUp.trans hup, h.unpoisoned hp⟩

theorem State.moves.dmaAt (h : s.moves t a n but) (c : Nat) : t.dmaAt c = s.dmaAt c := by
  unfold State.dmaAt
  rw [h.same]

theorem State.moves.blitAt (h : s.moves t a n but) (c : Nat) : t.blitAt c = s.blitAt c := by
  unfold State.blitAt
  rw [h.same]

theorem State.engines.locket (h : s.engines t but) : t.locket = s.locket := by rw [h.same]

theorem State.engines.park (h : s.engines t but) : t.park = s.park := by rw [h.same]

theorem State.engines.engUp (h : s.engines t but) : t.engUp = s.engUp := by
  unfold State.engUp State.islUp
  rw [h.same]

end

/-! ## Reach, reservations and owners -/

section

variable {s t : State} {but : List Nat}

theorem reaches_congr (hsize : ∀ p, t.rd (HP_HW_SIZE p) = s.rd (HP_HW_SIZE p))
    (hmir : ∀ i < 8, t.rd (DR_MIR_BASE i) = s.rd (DR_MIR_BASE i) ∧ t.rd (DR_MIR_SIZE i) = s.rd (DR_MIR_SIZE i)) (hl : t.locket = s.locket)
    (hu : t.inUse = s.inUse) (owner : Nat) (k : Reach) (a n : Nat) : t.reaches owner k a n = s.reaches owner k a n := by
  have hwin : t.windows = s.windows := by
    unfold State.windows State.get
    refine congrArg _ (List.map_congr_left fun i hi => ?_)
    obtain ⟨hbase, hsz⟩ := hmir (i + 1) (by have := List.mem_range.1 hi; omega)
    rw [hbase, hsz]
  have hcap : t.dramCap = s.dramCap := by
    unfold State.dramCap State.mirTot
    rw [hl, hwin]
  have hw : ∀ p, t.hwSize p = s.hwSize p := fun p => by
    unfold State.hwSize State.get
    rw [hsize]
  have hspace : t.space = s.space := by
    unfold State.space
    rw [hcap, hw, hw, hw, hw]
  have hrange : t.bar2Range owner = s.bar2Range owner := by
    unfold State.bar2Range State.getUse State.rdUse
    rw [hu]
  have hasset : t.assetCopy = s.assetCopy := by
    unfold State.assetCopy
    rw [hl]
  unfold State.reaches
  rw [hspace, hrange, hasset]

/-- Registers below the controllers' decide no reach. -/
theorem State.engines.reaches (h : s.engines t but) (hb : ∀ a ∈ but, a < 0x900000) (owner : Nat) (k : Reach) (a n : Nat) :
    t.reaches owner k a n = s.reaches owner k a n := by
  have hrd : ∀ r, 0x900000 ≤ r → lostCounter r = false → t.rd r = s.rd r := fun r hr hl => h.regs r hl fun hc => absurd (hb r hc) (by omega)
  refine reaches_congr (fun p => hrd _ ?_ (lostCounter_eq_false fun q hq => ?_)) (fun i hi => ⟨hrd _ ?_ (lostCounter_low ?_), hrd _ ?_ (lostCounter_low ?_)⟩)
    h.locket (by rw [h.same]) owner k a n
  all_goals simp only [HP_HW_SIZE, HP_EV_STAT, DR_MIR_BASE, DR_MIR_SIZE]
  all_goals omega

theorem canReserve_congr (hev : t.ev = s.ev) (hl : t.locket = s.locket) (cls inst : Nat) : t.canReserve cls inst = s.canReserve cls inst := by
  unfold State.canReserve State.readersOf State.grantedR State.evFree State.evAt
  rw [hev, hl]

theorem ownerOf_congr (hl : t.locket = s.locket) (cls inst : Nat) : t.ownerOf cls inst = s.ownerOf cls inst := by
  unfold State.ownerOf
  rw [hl]

theorem reserve_only {y : State} {ps : List Nat} (h : s.reserve ps = some y) : s.onlyEvents y := by
  induction ps generalizing s with
  | nil => cases h; exact onlyEvents_refl _
  | cons p ps ih =>
    unfold State.reserve at h
    split at h
    · exact onlyEvents_trans (onlyEvents_setEvAt ..) (ih h)
    · cases h

theorem release_only (ps : List Nat) : s.onlyEvents (s.release ps) :=
  onlyEvents_trans (unreserve_only ..) (onlyEvents_foldl _ postLost_only ..)

theorem settleEvent_traffic (cls inst type : Nat) (use : Bool) (payload : List Byte) : s.traffic (s.settleEvent cls inst type use payload) but := by
  unfold State.settleEvent
  exact traffic_ite (traffic_events (postReserved_only ..)) (traffic_events (release_only ..))

theorem post_traffic (cls inst type flags : Nat) (payload : List Byte) : s.traffic (s.post cls inst type flags payload) but :=
  traffic_events (post_only ..)

end

/-! ## DMA channels: what each operation does -/

section

variable {s t : State} {c : Nat}

/-- DMA channel registers lie below the queues' and are no loss counters. -/
theorem dmWords_low (hc : c < 32) : DM_STAT c < 0x601000 ∧ DM_CTRL c < 0x601000 ∧ DM_LAST_LO c < 0x601000 ∧ DM_LAST_HI c < 0x601000 ∧
    DM_CUR_LO c < 0x601000 ∧ DM_CUR_HI c < 0x601000 ∧ DM_DONE_CNT c < 0x601000 ∧ DM_ERR_CNT c < 0x601000 ∧ DM_CFG c < 0x601000 := by
  simp only [DM_STAT, DM_CTRL, DM_LAST_LO, DM_LAST_HI, DM_CUR_LO, DM_CUR_HI, DM_DONE_CNT, DM_ERR_CNT, DM_CFG]
  omega

theorem dmaStop_traffic (st cause : Nat) : s.traffic (s.dmaStop c st cause) [DM_STAT c] :=
  ((traffic_put (by simp) _ _).trans (traffic_put (by simp) _ _)).trans (post_traffic ..)

theorem dmaStop_get (hc : c < 32) (st cause : Nat) (f : Fld) : (s.dmaStop c st cause).get (DM_STAT c) f =
    ((s.setDmState c st).put (DM_STAT c) DM_STAT_CAUSE cause).get (DM_STAT c) f :=
  onlyEvents_get (post_only ..) f (lostCounter_low (Nat.lt_trans (dmWords_low hc).1 (by decide)))

theorem dmaStop_state (hc : c < 32) {st : Nat} (hst : st < 8) (cause : Nat) : (s.dmaStop c st cause).dmState c = st := by
  refine (dmaStop_get hc st cause _).trans ?_
  rw [get_put_apart _ _ _ _ _ (by decide) (by decide)]
  exact (get_put_same _ _ _ _ (by decide)).trans (Nat.mod_eq_of_lt hst)

theorem dmaStop_cause (hc : c < 32) (st : Nat) {cause : Nat} (h : cause < 16) : (s.dmaStop c st cause).get (DM_STAT c) DM_STAT_CAUSE = cause :=
  (dmaStop_get hc st cause _).trans ((get_put_same _ _ _ _ (by decide)).trans (Nat.mod_eq_of_lt h))

theorem dmaStop_err (hc : c < 32) (st cause : Nat) : (s.dmaStop c st cause).get (DM_STAT c) DM_STAT_ERR = s.get (DM_STAT c) DM_STAT_ERR := by
  refine (dmaStop_get hc st cause _).trans ?_
  rw [get_put_apart _ _ _ _ _ (by decide) (by decide)]
  exact get_put_apart _ _ _ _ _ (by decide) (by decide)

/-- A control read is wanted, and issued. -/
def DmaCh.asks (ch : DmaCh) (w : Want) (now : Nat) : DmaCh := { ch with want := w, wantAt := now, stalled := false }

theorem dmaAsk_eq (w : Want) (a n : Nat) : s.dmaAsk c w a n = (s.setDmaAt c ((s.dmaAt c).asks w s.dtime)).unitIssue a n (s.dmClass c) := rfl

theorem dmaAsk_traffic (w : Want) (a n : Nat) : (s.setDmaAt c ((s.dmaAt c).asks w s.dtime)).traffic (s.dmaAsk c w a n) controlWords := by
  rw [dmaAsk_eq]
  exact unitIssue_traffic ..

theorem dmaAsk_dmaAt (w : Want) (a n : Nat) : (s.dmaAsk c w a n).dmaAt c = (s.dmaAt c).asks w s.dtime := by
  rw [(dmaAsk_traffic w a n).dmaAt, dmaAt_setDmaAt, if_pos rfl]

theorem setDmaAt_dmaAt (v : DmaCh) : (s.setDmaAt c v).dmaAt c = v := by rw [dmaAt_setDmaAt, if_pos rfl]

/-- A channel that waits for an entry of the backlog. -/
def DmaCh.stalls (ch : DmaCh) : DmaCh := { ch with want := .none, stalled := true }

theorem readDesc_eq {owner : Nat} (ho : s.dmaOwner c = some owner) : s.readDesc c =
    if !s.reaches owner .control (s.dmaCur c) 64 then (s.setWant c .none).dmaStop c 4 2
    else if s.canReserve 3 c then s.dmaAsk c .entry (s.dmaCur c) 64 else s.setDmaAt c (s.dmaAt c).stalls := by
  unfold State.readDesc
  rw [ho]
  rfl

theorem readDesc_none (ho : s.dmaOwner c = none) : s.readDesc c = s := by
  unfold State.readDesc
  rw [ho]

/-- What holds of the channel after each way to look for a descriptor holds after `readDesc`. -/
theorem readDesc_ind {P : State → Prop} (hs : P s) (hout : P ((s.setWant c .none).dmaStop c 4 2)) (hask : P (s.dmaAsk c .entry (s.dmaCur c) 64))
    (hstall : P (s.setDmaAt c (s.dmaAt c).stalls)) : P (s.readDesc c) := by
  cases ho : s.dmaOwner c with
  | none =>
    rw [readDesc_none ho]
    exact hs
  | some owner =>
    rw [readDesc_eq ho]
    split
    · exact hout
    · split
      · exact hask
      · exact hstall

theorem setWant_engines {but : List Nat} (w : Want) : s.engines (s.setWant c w) but := engines_setDmaAt _

theorem readDesc_engines : s.engines (s.readDesc c) (DM_STAT c :: controlWords) :=
  readDesc_ind (P := fun t => s.engines t (DM_STAT c :: controlWords)) (engines_refl ..)
    ((setWant_engines _).trans ((dmaStop_traffic ..).engines.mono (by simp)))
    ((engines_setDmaAt _).trans ((dmaAsk_traffic ..).engines.mono fun _ ha => List.mem_cons_of_mem _ ha)) (engines_setDmaAt _)

/-- What stays of a channel while it looks for its next descriptor: the descriptor that runs and the error flag. -/
structure State.looks (s t : State) (c : Nat) : Prop where
  run : (t.dmaAt c).run = (s.dmaAt c).run
  err : t.get (DM_STAT c) DM_STAT_ERR = s.get (DM_STAT c) DM_STAT_ERR

theorem setDmaAt_looks {v : DmaCh} (h : v.run = (s.dmaAt c).run) : s.looks (s.setDmaAt c v) c :=
  ⟨(congrArg DmaCh.run (setDmaAt_dmaAt v)).trans h, rfl⟩

theorem dmaAsk_looks (hc : c < 32) (w : Want) (a n : Nat) : s.looks (s.dmaAsk c w a n) c where
  run := by rw [dmaAsk_dmaAt]; rfl
  err := (dmaAsk_traffic w a n).quiet.get (lostCounter_low (Nat.lt_trans (dmWords_low hc).1 (by decide)))
    (fun hm => not_traffic_low (Nat.lt_trans (dmWords_low hc).1 (by decide)) (controlWords_traffic _ hm)) _

theorem dmaStop_looks (hc : c < 32) (st cause : Nat) : s.looks (s.dmaStop c st cause) c :=
  ⟨congrArg DmaCh.run ((dmaStop_traffic st cause).dmaAt c), dmaStop_err hc st cause⟩

theorem State.looks.trans {u : State} (h : s.looks t c) (k : t.looks u c) : s.looks u c := ⟨k.run.trans h.run, k.err.trans h.err⟩

theorem setWant_looks (w : Want) : s.looks (s.setWant c w) c := setDmaAt_looks rfl

theorem readDesc_looks (hc : c < 32) : s.looks (s.readDesc c) c :=
  readDesc_ind (P := fun t => s.looks t c) ⟨rfl, rfl⟩ ((setWant_looks _).trans (dmaStop_looks hc 4 2)) (dmaAsk_looks hc ..) (setDmaAt_looks rfl)

theorem readNext_engines : s.engines (s.readNext c) (DM_STAT c :: controlWords) := by
  unfold State.readNext
  split
  · exact (engines_setDmaAt _).trans ((dmaAsk_traffic ..).engines.mono fun _ ha => List.mem_cons_of_mem _ ha)
  · exact readDesc_engines

theorem readNext_looks (hc : c < 32) : s.looks (s.readNext c) c := by
  unfold State.readNext
  split
  · exact dmaAsk_looks hc ..
  · exact readDesc_looks hc

end

end Sys2Proof.Machine

end

section

namespace Sys2Proof.Machine

/-! ## Triggers and channels at rest -/

section

variable {s t : State} {c d : Nat}

/-- The register of one channel stays where another one's starts. -/
theorem dmStat_other (hc : c < 32) (hne : c ≠ d) : DM_STAT c ∉ DM_STAT d :: DM_STAGE :: trafficWords := by
  intro hm
  rcases List.mem_cons.1 hm with h | hm
  · simp only [DM_STAT] at h
    omega
  · rcases List.mem_cons.1 hm with h | hm
    · simp only [DM_STAT, DM_STAGE] at h
      omega
    · exact not_traffic_low (Nat.lt_trans (dmWords_low hc).1 (by decide)) hm

theorem lostCounter_dmStat (hc : c < 32) : lostCounter (DM_STAT c) = false := lostCounter_low (Nat.lt_trans (dmWords_low hc).1 (by decide))

theorem dmaBegin_advances (h : c ≠ d) : (s.dmaAt c).advances ((s.dmaBegin d).dmaAt c) := by
  cases hr : (s.dmaAt d).run with
  | none =>
    rw [dmaBegin_idle hr]
    exact advances_refl _
  | some r =>
    rw [dmaBegin_eq hr]
    have hat : ((s.setDmaAt d ((s.dmaAt d).started r)).put (DM_STAT d) DM_STAT_STATE 1).dmaAt c = s.dmaAt c := by
      rw [(traffic_put (but := [DM_STAT d]) (by simp) _ _).dmaAt, dmaAt_setDmaAt, if_neg h]
    have hk := issueReads_advances (s := (s.setDmaAt d ((s.dmaAt d).started r)).put (DM_STAT d) DM_STAT_STATE 1) 129 c
    rw [hat] at hk
    exact hk

theorem dmaHears_advances (kind unit arg : Nat) (h : c ≠ d) : (s.dmaAt c).advances ((s.dmaHears kind unit arg d).dmaAt c) := by
  unfold State.dmaHears
  split
  · split
    · exact dmaBegin_advances h
    · exact advances_refl _
  · exact advances_refl _

theorem dmaHears_idle (kind unit arg : Nat) (h : (s.dmaAt c).run = none) : s.dmaHears kind unit arg c = s := by
  unfold State.dmaHears
  rw [h]

/-- A channel without a descriptor, and its state, as before. -/
structure State.restsAs (s t : State) (c : Nat) : Prop where
  run : (t.dmaAt c).run = none
  stat : t.rd (DM_STAT c) = s.rd (DM_STAT c)

/-- No trigger moves a channel without a descriptor. -/
theorem trigger_rests (hc : c < 32) (hr : (s.dmaAt c).run = none) (kind unit arg : Nat) : s.restsAs (s.trigger kind unit arg) c := by
  have hn : s.restsAs (s.trigNoted kind unit arg) c := ⟨hr, rfl⟩
  rw [trigger_eq]
  split
  · refine foldl_keeps (P := fun t => s.restsAs t c) (fun t d hd ht => ⟨?_, ?_⟩)
      (foldl_keeps (P := fun t => s.restsAs t c) (fun t d hd ht => ?_) hn)
    · rw [blitHears_dmaAt]
      exact ht.run
    · refine ((blitHears_engines ..).regs _ (lostCounter_dmStat hc) fun hm => ?_).trans ht.stat
      rcases List.mem_cons.1 hm with h | hm
      · have := List.mem_range.1 hd
        simp only [DM_STAT, BL_STAT] at h
        omega
      · exact not_traffic_low (Nat.lt_trans (dmWords_low hc).1 (by decide)) hm
    · by_cases hcd : c = d
      · subst hcd
        rw [dmaHears_idle _ _ _ ht.run]
        exact ht
      · exact ⟨(dmaHears_advances _ _ _ hcd).idle ht.run, ((dmaHears_engines ..).regs _ (lostCounter_dmStat hc) (dmStat_other hc hcd)).trans ht.stat⟩
  · exact hn

end

/-! ## The end of a descriptor (R361 to R365) -/

section

variable {s t : State} {c : Nat} {r : DmaRun}

/-- The channel gives its descriptor up: its queued reads leave the queue, and other channels go on. -/
def State.dmaFreed (s : State) (c : Nat) (r : DmaRun) (code : Nat) : State :=
  ((s.setDmaAt c { s.dmaAt c with
      run := none, chain := if descFlag r.desc 2 && decide (code ≤ 1) then some r.crc else none, want := .none, stalled := false }).qWithdraw
    (s.dmQueue c) c).issueReads 129

def State.dmaErrNoted (s : State) (c code : Nat) : State :=
  if code = 0 then s else (s.put (DM_STAT c) DM_STAT_ERR 1).bump (DM_ERR_CNT c) DM_ERR_CNT_COUNT 1

/-- Whether a descriptor that ends counts as done. -/
def State.dmaCounts (s : State) (c code : Nat) (ok : Bool) : Bool :=
  ok && (decide (code = 0) || (s.on (DM_CFG c) DM_CFG_ONERR && decide (code ≠ 4)))

/-- The count, LAST, the event and the trigger of a descriptor's end. -/
def State.dmaTold (s : State) (c : Nat) (r : DmaRun) (code detail residue : Nat) (counted : Bool) : State :=
  let s := (if counted then s.bumpMod (DM_DONE_CNT c) DM_DONE_CNT_COUNT 1 else s).setLast c r.addr
  let s := s.settleEvent 3 c 0x30 (descFlag r.desc 0 || decide (code ≠ 0)) (s.dmaPayload c r.addr code detail residue)
  if counted then s.trigger 4 c 0 else s

/-- The channel stops, halts or goes on. -/
def State.dmaGoesOn (s : State) (c code : Nat) (cont ok : Bool) (stop : Option Nat) : State :=
  match stop with
  | some cause => if ok then s.dmaStop c 0 cause else s.dmaStop c 4 2
  | none => if !ok then s.dmaStop c 4 2 else if decide (code ≠ 0) && !cont then s.dmaStop c 4 1 else s.readNext c

theorem dmaEnd_eq (hr : (s.dmaAt c).run = some r) (code detail errOff residue crcOut : Nat) (statusBad : Bool) (stop : Option Nat) :
    s.dmaEnd c code detail errOff residue crcOut statusBad stop =
      let z := (s.dmaFreed c r code).dmaErrNoted c code
      let p := z.dmaStatus r.addr (descStatus r.desc code detail errOff residue crcOut)
      (p.1.dmaTold c r code detail residue (z.dmaCounts c code (p.2 && !statusBad))).dmaGoesOn c code (z.on (DM_CFG c) DM_CFG_ONERR)
        (p.2 && !statusBad) stop := by
  unfold State.dmaEnd
  dsimp only
  rw [hr]
  rfl

theorem dmaFreed_engines (code : Nat) : s.engines (s.dmaFreed c r code) (DM_STAGE :: trafficWords) :=
  ((engines_setDmaAt _).trans ((qWithdraw_traffic _).mono fun a ha =>
    List.mem_cons_of_mem _ (oneQueueWords_traffic (dmQueue_lt ..) a ha)).engines).trans (issueReads_engines _)

theorem dmaFreed_run (code : Nat) : ((s.dmaFreed c r code).dmaAt c).run = none := by
  refine (issueReads_advances _ c).idle ?_
  rw [(qWithdraw_traffic _).dmaAt, setDmaAt_dmaAt]

theorem dmaErrNoted_traffic (code : Nat) : s.traffic (s.dmaErrNoted c code) [DM_STAT c, DM_ERR_CNT c] :=
  traffic_ite (traffic_refl ..) ((traffic_put (by simp) _ _).trans (traffic_bump (by simp) _ _))

theorem dmaErrNoted_err {code : Nat} (hc : code ≠ 0) : (s.dmaErrNoted c code).get (DM_STAT c) DM_STAT_ERR = 1 ∧
    (s.rdN (DM_ERR_CNT c) + 1 < 2 ^ 32 → (s.dmaErrNoted c code).rdN (DM_ERR_CNT c) = s.rdN (DM_ERR_CNT c) + 1) := by
  have hne : DM_STAT c ≠ DM_ERR_CNT c := by
    simp only [DM_STAT, DM_ERR_CNT]
    omega
  unfold State.dmaErrNoted
  rw [if_neg hc]
  refine ⟨?_, fun h => ?_⟩
  · rw [get_bump_ne _ _ _ _ hne]
    exact get_put_same _ _ _ _ (by decide)
  · have hget : (s.put (DM_STAT c) DM_STAT_ERR 1).get (DM_ERR_CNT c) DM_ERR_CNT_COUNT = s.get (DM_ERR_CNT c) DM_ERR_CNT_COUNT :=
      get_put_ne _ _ _ _ hne.symm
    rw [rdN_eq_get, rdN_eq_get] at *
    exact (get_bump_same _ _ DM_ERR_CNT_COUNT 1 (by decide) (by rw [hget]; exact h)).trans (by rw [hget]; rfl)

theorem dmaStatus_eq (a : Nat) (d : List Byte) : s.dmaStatus a d =
    let x := s.unitWrite (a + 36) (bytesAt d 36 4)
    let y := x.1.unitWrite (a + 52) (bytesAt d 52 8)
    let z := y.1.unitWrite (a + 60) (bytesAt d 60 4)
    (z.1, x.2 && y.2 && z.2) := rfl

theorem bytesAt_length (d : List Byte) (i n : Nat) : (bytesAt d i n).length = n := by simp [bytesAt]

theorem dmaStatus_moves (a : Nat) (d : List Byte) : s.moves (s.dmaStatus a d).1 a 64 controlWords := by
  have hw : ∀ (v : State) (i n : Nat), i + n ≤ 64 → v.moves (v.unitWrite (a + i) (bytesAt d i n)).1 a 64 controlWords := fun v i n hi =>
    (unitWrite_moves ..).widen (by omega) (by rw [bytesAt_length]; omega)
  rw [dmaStatus_eq]
  exact ((hw _ 36 4 (by omega)).trans (hw _ 52 8 (by omega))).trans (hw _ 60 4 (by omega))

theorem State.takesStatus.write {a i n : Nat} (h : s.takesStatus a) (d : List Byte) (hi : i + n ≤ 64) (hn : 0 < n) :
    (s.unitWrite (a + i) (bytesAt d i n)).2 = true ∧ (s.unitWrite (a + i) (bytesAt d i n)).1.takesStatus a := by
  obtain ⟨hw, hup, hp⟩ := h
  refine ⟨unitWrite_good (hw _ (by omega) (by omega)) hup (poisoned_sub hp (by omega) (by rw [bytesAt_length]; omega)), ?_⟩
  exact (unitWrite_moves ..).works.takesStatus ⟨hw, hup, hp⟩

theorem dmaStatus_good {a : Nat} (h : s.takesStatus a) (d : List Byte) : (s.dmaStatus a d).2 = true := by
  rw [dmaStatus_eq]
  have h1 := h.write d (i := 36) (n := 4) (by omega) (by omega)
  have h2 := h1.2.write d (i := 52) (n := 8) (by omega) (by omega)
  have h3 := h2.2.write d (i := 60) (n := 4) (by omega) (by omega)
  dsimp only
  rw [h1.1, h2.1, h3.1]
  rfl

/-- What the end of a descriptor may change of the registers. -/
def dmaEndWords (c : Nat) : List Nat := [DM_ERR_CNT c, DM_DONE_CNT c, DM_LAST_LO c, DM_LAST_HI c] ++ engineWords

theorem engineWords_dmStat (hc : c < 32) : DM_STAT c ∈ engineWords :=
  List.mem_append_left _ (List.mem_append_left _ (List.mem_map_of_mem (List.mem_range.2 hc)))

theorem trafficWords_engine : ∀ a ∈ trafficWords, a ∈ engineWords := fun _ ha => List.mem_append_right _ (List.mem_cons_of_mem _ ha)

theorem setLast_traffic (a : Nat) : s.traffic (s.setLast c a) [DM_LAST_LO c, DM_LAST_HI c] :=
  ((traffic_put (by simp) _ _).trans (traffic_put (by simp) _ _)).trans (traffic_put (by simp) _ _)

/-- The end told, before the trigger. -/
def State.dmaNoted (s : State) (c : Nat) (r : DmaRun) (code detail residue : Nat) (counted : Bool) : State :=
  let s := (if counted then s.bumpMod (DM_DONE_CNT c) DM_DONE_CNT_COUNT 1 else s).setLast c r.addr
  s.settleEvent 3 c 0x30 (descFlag r.desc 0 || decide (code ≠ 0)) (s.dmaPayload c r.addr code detail residue)

theorem dmaTold_eq (code detail residue : Nat) (counted : Bool) : s.dmaTold c r code detail residue counted =
    if counted then (s.dmaNoted c r code detail residue counted).trigger 4 c 0 else s.dmaNoted c r code detail residue counted := rfl

theorem dmaNoted_traffic (code detail residue : Nat) (counted : Bool) :
    s.traffic (s.dmaNoted c r code detail residue counted) [DM_DONE_CNT c, DM_LAST_LO c, DM_LAST_HI c] := by
  unfold State.dmaNoted
  exact ((traffic_ite ((traffic_wr ..).mono (by simp)) (traffic_refl ..)).trans ((setLast_traffic _).mono (by simp))).trans (settleEvent_traffic ..)

theorem dmaTold_engines (code detail residue : Nat) (counted : Bool) : s.engines (s.dmaTold c r code detail residue counted) (dmaEndWords c) := by
  have hn := (dmaNoted_traffic (s := s) (c := c) (r := r) code detail residue counted).engines.mono (more := dmaEndWords c) (by simp [dmaEndWords])
  rw [dmaTold_eq]
  split
  · exact hn.trans ((trigger_engines ..).mono fun _ ha => List.mem_append_right _ ha)
  · exact hn

theorem dmaTold_rests (hc : c < 32) (hr : (s.dmaAt c).run = none) (code detail residue : Nat) (counted : Bool) :
    s.restsAs (s.dmaTold c r code detail residue counted) c := by
  have ht := dmaNoted_traffic (s := s) (c := c) (r := r) code detail residue counted
  have hn : s.restsAs (s.dmaNoted c r code detail residue counted) c := by
    refine ⟨(congrArg DmaCh.run (ht.dmaAt c)).trans hr, ht.regs _ (lostCounter_dmStat hc) ?_⟩
    simp only [DM_STAT, DM_DONE_CNT, DM_LAST_LO, DM_LAST_HI, List.mem_cons, List.not_mem_nil, or_false]
    omega
  rw [dmaTold_eq]
  split
  · obtain ⟨hrun, hstat⟩ := trigger_rests hc hn.run 4 c 0
    exact ⟨hrun, hstat.trans hn.stat⟩
  · exact hn

theorem dmaGoesOn_engines (hc : c < 32) (code : Nat) (cont ok : Bool) (stop : Option Nat) : s.engines (s.dmaGoesOn c code cont ok stop) engineWords := by
  have hstop : ∀ st cause, s.engines (s.dmaStop c st cause) engineWords := fun st cause =>
    (dmaStop_traffic st cause).engines.mono fun a ha => by
      rw [List.mem_singleton.1 ha]
      exact engineWords_dmStat hc
  unfold State.dmaGoesOn
  split
  · split
    · exact hstop ..
    · exact hstop ..
  · split
    · exact hstop ..
    · split
      · exact hstop ..
      · refine readNext_engines.mono fun a ha => ?_
        rcases List.mem_cons.1 ha with rfl | ha
        · exact engineWords_dmStat hc
        · exact trafficWords_engine _ (controlWords_traffic _ ha)

theorem dmaGoesOn_looks (hc : c < 32) (code : Nat) (cont ok : Bool) (stop : Option Nat) : s.looks (s.dmaGoesOn c code cont ok stop) c := by
  unfold State.dmaGoesOn
  split
  · split
    · exact dmaStop_looks hc ..
    · exact dmaStop_looks hc ..
  · split
    · exact dmaStop_looks hc ..
    · split
      · exact dmaStop_looks hc ..
      · exact readNext_looks hc

theorem engines_subset_dmaEnd : ∀ a ∈ engineWords, a ∈ dmaEndWords c := fun _ ha => List.mem_append_right _ ha

/-- What the end of a descriptor does, whatever its code. -/
structure State.dmaEnds (s t : State) (c : Nat) (r : DmaRun) (code : Nat) : Prop where
  works : s.works t r.addr 64 (dmaEndWords c)
  run : (t.dmaAt c).run = none
  err : code ≠ 0 → t.get (DM_STAT c) DM_STAT_ERR = 1

theorem dmaEnd_ends (hc : c < 32) (hr : (s.dmaAt c).run = some r) (code detail errOff residue crcOut : Nat) (statusBad : Bool) (stop : Option Nat) :
    s.dmaEnds (s.dmaEnd c code detail errOff residue crcOut statusBad stop) c r code := by
  rw [dmaEnd_eq hr]
  dsimp only
  have hz : s.works ((s.dmaFreed c r code).dmaErrNoted c code) r.addr 64 (dmaEndWords c) := by
    refine (dmaFreed_engines code).works.mono (fun a ha => List.mem_append_right _ (List.mem_append_right _ ha)) |>.trans
      ((dmaErrNoted_traffic code).works.mono fun a ha => ?_)
    rcases List.mem_cons.1 ha with rfl | ha
    · exact engines_subset_dmaEnd _ (engineWords_dmStat hc)
    · exact List.mem_append_left _ (by rw [List.mem_singleton.1 ha]; simp)
  have hrun : (((s.dmaFreed c r code).dmaErrNoted c code).dmaAt c).run = none :=
    (congrArg DmaCh.run ((dmaErrNoted_traffic code).dmaAt c)).trans (dmaFreed_run code)
  have herr : code ≠ 0 → ((s.dmaFreed c r code).dmaErrNoted c code).get (DM_STAT c) DM_STAT_ERR = 1 := fun h => (dmaErrNoted_err h).1
  generalize (s.dmaFreed c r code).dmaErrNoted c code = z at hz hrun herr
  have hp := dmaStatus_moves (s := z) r.addr (descStatus r.desc code detail errOff residue crcOut)
  generalize z.dmaStatus r.addr (descStatus r.desc code detail errOff residue crcOut) = p at hp
  generalize z.dmaCounts c code (p.2 && !statusBad) = counted
  have ht := dmaTold_engines (s := p.1) (c := c) (r := r) code detail residue counted
  obtain ⟨htrun, htstat⟩ := dmaTold_rests (r := r) hc ((congrArg DmaCh.run (hp.dmaAt c)).trans hrun) code detail residue counted
  generalize p.1.dmaTold c r code detail residue counted = v at ht htrun htstat
  obtain ⟨hlrun, hlerr⟩ := dmaGoesOn_looks (s := v) hc code (z.on (DM_CFG c) DM_CFG_ONERR) (p.2 && !statusBad) stop
  have hg := (dmaGoesOn_engines (s := v) hc code (z.on (DM_CFG c) DM_CFG_ONERR) (p.2 && !statusBad) stop).mono (more := dmaEndWords c) engines_subset_dmaEnd
  refine ⟨(hz.trans (hp.works.mono fun a ha => engines_subset_dmaEnd _ (trafficWords_engine _ (controlWords_traffic _ ha)))).trans
    (ht.trans hg).works, hlrun.trans htrun, fun h => ?_⟩
  refine hlerr.trans ((congrArg (getField · DM_STAT_ERR) htstat).trans ?_)
  exact (hp.works.get (lostCounter_dmStat hc) (fun hm => not_traffic_low (Nat.lt_trans (dmWords_low hc).1 (by decide)) (controlWords_traffic _ hm)) _).trans (herr h)

end

end Sys2Proof.Machine

end

section

namespace Sys2Proof.Machine

/-! ## The outcome of a descriptor's end (R361, R364) -/

section

variable {s t : State} {c : Nat} {r : DmaRun} {code : Nat}

theorem dmStat_control (hc : c < 32) : DM_STAT c ∉ controlWords := fun hm =>
  not_traffic_low (Nat.lt_trans (dmWords_low hc).1 (by decide)) (controlWords_traffic _ hm)

/-- Where the status can be written, only a reported failure stands against the end. -/
theorem dmaEnd_eq_of_takes (hr : (s.dmaAt c).run = some r) (h : s.takesStatus r.addr) (detail errOff residue crcOut : Nat) (statusBad : Bool)
    (stop : Option Nat) : s.dmaEnd c code detail errOff residue crcOut statusBad stop =
      let z := (s.dmaFreed c r code).dmaErrNoted c code
      ((z.dmaStatus r.addr (descStatus r.desc code detail errOff residue crcOut)).1.dmaTold c r code detail residue
        (z.dmaCounts c code !statusBad)).dmaGoesOn c code (z.on (DM_CFG c) DM_CFG_ONERR) (!statusBad) stop := by
  have hz : ((s.dmaFreed c r code).dmaErrNoted c code).takesStatus r.addr :=
    ((dmaErrNoted_traffic code).works (a := 0) (n := 0)).takesStatus (((dmaFreed_engines code).works (a := 0) (n := 0)).takesStatus h)
  rw [dmaEnd_eq hr]
  dsimp only
  rw [dmaStatus_good hz, Bool.true_and]

theorem dmaEnd_stops (hc : c < 32) (hr : (s.dmaAt c).run = some r) (h : s.takesStatus r.addr) (detail errOff residue crcOut : Nat) (statusBad : Bool)
    {cause : Nat} (hcause : cause < 16) :
    (s.dmaEnd c code detail errOff residue crcOut statusBad (some cause)).dmState c = (if statusBad then 4 else 0) ∧
    (s.dmaEnd c code detail errOff residue crcOut statusBad (some cause)).get (DM_STAT c) DM_STAT_CAUSE = (if statusBad then 2 else cause) := by
  rw [dmaEnd_eq_of_takes hr h]
  dsimp only
  generalize State.dmaTold _ c r code detail residue _ = v
  cases statusBad with
  | false => exact ⟨dmaStop_state hc (by decide) _, dmaStop_cause hc _ hcause⟩
  | true => exact ⟨dmaStop_state hc (by decide) _, dmaStop_cause hc _ (by decide)⟩

/-! ### Aborts (R365) -/

/-- The channel's reads are forgotten, and ABORT reads 0. -/
def State.dmaKilled (s : State) (c : Nat) : State := (s.dmaForget c).put (DM_CTRL c) DM_CTRL_ABORT 0

theorem dmaForget_traffic {but : List Nat} : s.traffic (s.dmaForget c) but := by
  unfold State.dmaForget
  split
  · exact traffic_flying _
  · exact traffic_refl ..

theorem dmaKilled_traffic : s.traffic (s.dmaKilled c) [DM_CTRL c] := dmaForget_traffic.trans (traffic_put (by simp) _ _)

/-- A channel that looks for nothing. -/
def DmaCh.quits (ch : DmaCh) : DmaCh := { ch with want := .none, stalled := false }

theorem dmaKill_none (hr : (s.dmaAt c).run = none) (detail cause : Nat) (statBad : Bool) :
    s.dmaKill c detail cause statBad = ((s.dmaKilled c).setDmaAt c ((s.dmaKilled c).dmaAt c).quits).dmaStop c 0 cause := by
  have hk : ((s.dmaKilled c).dmaAt c).run = none := (congrArg DmaCh.run (dmaKilled_traffic.dmaAt c)).trans hr
  unfold State.dmaKill
  change (match ((s.dmaKilled c).dmaAt c).run with | none => _ | some r => _) = _
  rw [hk]
  rfl

/-- How much of a descriptor is left, and where its errors begin, when it is killed. -/
def DmaRun.killResidue (r : DmaRun) : Nat := descTotal r.desc - (r.written - markedLen r.marked)
def DmaRun.killErr (r : DmaRun) : Nat := if r.marked.isEmpty then 0 else markedLeast r.marked

theorem dmaKill_some (hr : (s.dmaAt c).run = some r) (detail cause : Nat) (statBad : Bool) :
    s.dmaKill c detail cause statBad = (s.dmaKilled c).dmaEnd c 4 detail r.killErr r.killResidue 0 statBad (some cause) := by
  have hk : ((s.dmaKilled c).dmaAt c).run = some r := (congrArg DmaCh.run (dmaKilled_traffic.dmaAt c)).trans hr
  unfold State.dmaKill
  change (match ((s.dmaKilled c).dmaAt c).run with | none => _ | some r => _) = _
  rw [hk]
  rfl

theorem dmCtrl_apart (hc : c < 32) : DM_CTRL c ∉ dmaEndWords c := by
  have hlow := dmWords_low hc
  intro hm
  rcases List.mem_append.1 hm with h | h
  · simp only [DM_CTRL, DM_ERR_CNT, DM_DONE_CNT, DM_LAST_LO, DM_LAST_HI, List.mem_cons, List.not_mem_nil, or_false] at h
    omega
  · rcases List.mem_append.1 h with h | h
    · rcases List.mem_append.1 h with h | h
      · obtain ⟨d, _, h⟩ := List.mem_map.1 h
        simp only [DM_CTRL, DM_STAT] at h
        omega
      · obtain ⟨d, _, h⟩ := List.mem_map.1 h
        simp only [DM_CTRL, BL_STAT] at h
        omega
    · rcases List.mem_cons.1 h with h | h
      · simp only [DM_CTRL, DM_STAGE] at h
        omega
      · exact not_traffic_low (Nat.lt_trans hlow.2.1 (by decide)) h

theorem lostCounter_dmCtrl (hc : c < 32) : lostCounter (DM_CTRL c) = false := lostCounter_low (Nat.lt_trans (dmWords_low hc).2.1 (by decide))

/-- A descriptor that is killed ends, and the channel stops. -/
structure State.dmaKills (s t : State) (c : Nat) (r : DmaRun) (statBad : Bool) (cause : Nat) : Prop where
  works : s.works t r.addr 64 (DM_CTRL c :: dmaEndWords c)
  run : (t.dmaAt c).run = none
  abort : t.get (DM_CTRL c) DM_CTRL_ABORT = 0
  state : s.takesStatus r.addr → t.dmState c = (if statBad then 4 else 0) ∧ t.get (DM_STAT c) DM_STAT_CAUSE = (if statBad then 2 else cause)

theorem dmaKill_kills (hc : c < 32) (hr : (s.dmaAt c).run = some r) (detail : Nat) {cause : Nat} (hcause : cause < 16) (statBad : Bool) :
    s.dmaKills (s.dmaKill c detail cause statBad) c r statBad cause := by
  have hk : ((s.dmaKilled c).dmaAt c).run = some r := (congrArg DmaCh.run (dmaKilled_traffic.dmaAt c)).trans hr
  have ha : (s.dmaKilled c).get (DM_CTRL c) DM_CTRL_ABORT = 0 := get_put_same _ _ _ _ (by decide)
  have ht := (dmaKilled_traffic (s := s) (c := c)).works (a := r.addr) (n := 64)
  rw [dmaKill_some hr]
  generalize s.dmaKilled c = z at hk ha ht
  obtain ⟨hw, hrun, _⟩ := dmaEnd_ends hc hk 4 detail r.killErr r.killResidue 0 statBad (some cause)
  refine ⟨(ht.mono (by simp)).trans (hw.mono fun _ hm => List.mem_cons_of_mem _ hm), hrun, ?_, fun hs => ?_⟩
  · exact (hw.get (lostCounter_dmCtrl hc) (dmCtrl_apart hc) _).trans ha
  · exact dmaEnd_stops hc hk (ht.takesStatus hs) detail _ _ _ statBad hcause

/-! ### A control read taken back (R366) -/

theorem busRetract_traffic {but : List Nat} (a n : Nat) : s.traffic (s.busRetract a n) but := by
  unfold State.busRetract
  split
  · exact traffic_ite ((traffic_setEvAt ..).trans (traffic_flying _)) (traffic_refl ..)
  · exact traffic_refl ..

theorem busRetract_shq (a n : Nat) : (s.busRetract a n).shq = s.shq := by
  unfold State.busRetract
  split
  · exact ite_same (π := State.shq) rfl rfl
  · rfl

/-- A channel that wants a control read, or none. -/
def DmaCh.wants (ch : DmaCh) (w : Want) : DmaCh := { ch with want := w }

theorem setWant_dmaAt (w : Want) : (s.setWant c w).dmaAt c = (s.dmaAt c).wants w := setDmaAt_dmaAt _

theorem setWant_shq (w : Want) : (s.setWant c w).shq = s.shq := rfl

/-- What a channel is after a control read of this instant was taken back. -/
def DmaCh.takenBack (ch : DmaCh) (now : Nat) : DmaCh := if ch.wantAt = now then ch.wants .none else ch

theorem dmaTakeBack_spec : (s.dmaTakeBack c).dmaAt c = (s.dmaAt c).takenBack s.dtime ∧ (s.dmaTakeBack c).shq = s.shq ∧ s.engines (s.dmaTakeBack c) [] := by
  unfold State.dmaTakeBack DmaCh.takenBack
  dsimp only
  split
  · split
    · refine ⟨?_, (setWant_shq _).trans (busRetract_shq ..), (busRetract_traffic ..).engines.trans (setWant_engines _)⟩
      rw [setWant_dmaAt, (busRetract_traffic (but := []) ..).dmaAt]
    · refine ⟨?_, (setWant_shq _).trans (busRetract_shq ..), (busRetract_traffic ..).engines.trans (setWant_engines _)⟩
      rw [setWant_dmaAt, (busRetract_traffic (but := []) ..).dmaAt]
    next hw =>
      refine ⟨?_, rfl, engines_refl ..⟩
      unfold DmaCh.wants
      rw [← hw]
  · exact ⟨rfl, rfl, engines_refl ..⟩

end

end Sys2Proof.Machine

end

section

namespace Sys2Proof.Machine

/-! ## START (R355) -/

section

variable {s t u : State} {c : Nat}

/-- A field of DM_STAT apart from STATE and CAUSE. -/
def dmStatOther (f : Fld) : Prop := (f.lo + f.w ≤ 0 ∨ 3 ≤ f.lo) ∧ (f.lo + f.w ≤ 4 ∨ 8 ≤ f.lo)

theorem dmaStop_other (hc : c < 32) (st cause : Nat) {f : Fld} (hf : dmStatOther f) : (s.dmaStop c st cause).get (DM_STAT c) f = s.get (DM_STAT c) f := by
  refine (dmaStop_get hc st cause f).trans ?_
  rw [get_put_apart _ _ _ _ _ (by decide) hf.2]
  exact get_put_apart _ _ _ _ _ (by decide) hf.1

theorem dmaAsk_stat (hc : c < 32) (w : Want) (a n : Nat) (f : Fld) : (s.dmaAsk c w a n).get (DM_STAT c) f = s.get (DM_STAT c) f :=
  (dmaAsk_traffic w a n).quiet.get (lostCounter_dmStat hc) (dmStat_control hc) f

theorem readDesc_other (hc : c < 32) {f : Fld} (hf : dmStatOther f) : (s.readDesc c).get (DM_STAT c) f = s.get (DM_STAT c) f :=
  readDesc_ind (P := fun t => t.get (DM_STAT c) f = s.get (DM_STAT c) f) rfl (dmaStop_other hc 4 2 hf) (dmaAsk_stat hc ..) rfl

/-- What the reading of a descriptor answers: halted out of reach, else reading it, or waiting for its event's entry. -/
structure State.seeks (s t : State) (c : Nat) (reach entry : Bool) : Prop where
  out : reach = false → t.dmState c = 4 ∧ t.get (DM_STAT c) DM_STAT_CAUSE = 2 ∧ (t.dmaAt c).want = .none
  state : reach = true → t.dmState c = s.dmState c
  asks : reach = true → entry = true → (t.dmaAt c).want = .entry
  waits : reach = true → entry = false → (t.dmaAt c).want = .none ∧ (t.dmaAt c).stalled = true

theorem readDesc_seeks (hc : c < 32) {owner : Nat} (ho : s.dmaOwner c = some owner) :
    s.seeks (s.readDesc c) c (s.reaches owner .control (s.dmaCur c) 64) (s.canReserve 3 c) := by
  rw [readDesc_eq ho]
  generalize s.reaches owner .control (s.dmaCur c) 64 = reach
  generalize s.canReserve 3 c = entry
  cases reach with
  | false =>
    rw [if_pos (show (!false) = true from rfl)]
    refine ⟨fun _ => ⟨dmaStop_state hc (by decide) 2, dmaStop_cause hc 4 (by decide), ?_⟩, nofun, nofun, nofun⟩
    exact congrArg DmaCh.want (((dmaStop_traffic 4 2).dmaAt c).trans (setWant_dmaAt _))
  | true =>
    rw [if_neg (by decide)]
    cases entry with
    | true =>
      rw [if_pos rfl]
      exact ⟨nofun, fun _ => dmaAsk_stat hc .., fun _ _ => congrArg DmaCh.want (dmaAsk_dmaAt ..), nofun⟩
    | false =>
      rw [if_neg (by decide)]
      have hd : (s.setDmaAt c (s.dmaAt c).stalls).dmaAt c = (s.dmaAt c).stalls := setDmaAt_dmaAt _
      exact ⟨nofun, fun _ => rfl, nofun, fun _ _ => ⟨congrArg DmaCh.want hd, congrArg DmaCh.stalled hd⟩⟩

/-- What START notes before the first descriptor is read. -/
def State.dmaBase0 (s : State) (c : Nat) : State :=
  ((s.bumpMod (DM_STAT c) DM_STAT_CHAIN_EPOCH 1).put (DM_STAT c) DM_STAT_PEND 0).put (DM_LAST_LO c) DM_LAST_LO_LAST_VALID 0

/-- A channel without a running CRC. -/
def DmaCh.unchained (ch : DmaCh) : DmaCh := { ch with chain := none }

def State.dmaSet0 (s : State) (c : Nat) : State :=
  ((s.dmaBase0 c).setCur c ((s.dmaBase0 c).dmaBase c)).setDmaAt c (((s.dmaBase0 c).setCur c ((s.dmaBase0 c).dmaBase c)).dmaAt c).unchained

theorem dmaStart_eq (hidle : s.dmState c = 0 ∨ s.dmState c = 4) (hseek : (s.dmaAt c).seeking = false) {owner : Nat}
    (ho : s.dmaOwner c = some owner) (hup : s.engUp = true) : s.dmaStart c = (s.dmaSet0 c).readDesc c := by
  unfold State.dmaStart
  dsimp only
  rw [if_pos]
  · rfl
  · rw [hseek, ho, hup]
    rcases hidle with h | h <;> rw [h] <;> rfl

theorem setCur_traffic (a : Nat) : s.traffic (s.setCur c a) [DM_CUR_LO c, DM_CUR_HI c] := (traffic_put (by simp) _ _).trans (traffic_put (by simp) _ _)

/-- An address of a descriptor stands in CUR as it was written. -/
theorem setCur_dmaCur {a : Nat} (h : a % 64 = 0) (hlt : a < 2 ^ 42) : (s.setCur c a).dmaCur c = a := by
  have hne : DM_CUR_LO c ≠ DM_CUR_HI c := by
    simp only [DM_CUR_LO, DM_CUR_HI]
    omega
  unfold State.dmaCur State.setCur
  rw [get_put_ne _ _ _ _ hne, get_put_same _ _ _ _ (by decide), get_put_same _ _ _ _ (by decide)]
  show a / 64 % 2 ^ 26 * 64 + a / 2 ^ 32 % 2 ^ 10 * 2 ^ 32 = a
  omega

theorem dmaBase_range (s : State) (c : Nat) : s.dmaBase c % 64 = 0 ∧ s.dmaBase c < 2 ^ 42 := by
  have hlo : s.get (DM_BASE_LO c) DM_BASE_LO_BASE < 2 ^ 26 := getField_lt ..
  have hhi : s.get (DM_BASE_HI c) DM_BASE_HI_BASE < 2 ^ 10 := getField_lt ..
  unfold State.dmaBase
  generalize s.get (DM_BASE_LO c) DM_BASE_LO_BASE = lo at hlo
  generalize s.get (DM_BASE_HI c) DM_BASE_HI_BASE = hi at hhi
  omega

theorem dmaBase0_traffic : s.traffic (s.dmaBase0 c) [DM_STAT c, DM_LAST_LO c] :=
  (((traffic_wr s (DM_STAT c) _).mono (by simp)).trans (traffic_put (by simp) _ _)).trans (traffic_put (by simp) _ _)

/-- The words of START. -/
def dmaStartWords (c : Nat) : List Nat := [DM_STAT c, DM_LAST_LO c, DM_CUR_LO c, DM_CUR_HI c]

theorem dmaBase0_base : (s.dmaBase0 c).dmaBase c = s.dmaBase c := by
  have hq := (dmaBase0_traffic (s := s) (c := c)).quiet
  have hne : ∀ a, a = DM_BASE_LO c ∨ a = DM_BASE_HI c → lostCounter a = false ∨ 32 ≤ c := fun a ha => by
    by_cases hc : c < 32
    · refine .inl (lostCounter_low ?_)
      rcases ha with rfl | rfl <;> simp only [DM_BASE_LO, DM_BASE_HI] <;> omega
    · exact .inr (by omega)
  unfold State.dmaBase State.dmaBase0
  rw [get_put_ne, get_put_ne, get_bumpMod_ne, get_put_ne, get_put_ne, get_bumpMod_ne]
  all_goals simp only [DM_BASE_LO, DM_BASE_HI, DM_STAT, DM_LAST_LO]; omega

theorem dmaBase0_stat (f : Fld) : (s.dmaBase0 c).get (DM_STAT c) f =
    ((s.bumpMod (DM_STAT c) DM_STAT_CHAIN_EPOCH 1).put (DM_STAT c) DM_STAT_PEND 0).get (DM_STAT c) f := by
  unfold State.dmaBase0
  exact get_put_ne _ _ _ _ (by simp only [DM_STAT, DM_LAST_LO]; omega)

theorem dmaBase0_state : (s.dmaBase0 c).dmState c = s.dmState c := by
  refine (dmaBase0_stat _).trans ?_
  rw [get_put_apart _ _ _ _ _ (by decide) (by decide)]
  exact get_put_apart _ _ _ _ _ (by decide) (by decide)

theorem dmaBase0_pend : (s.dmaBase0 c).get (DM_STAT c) DM_STAT_PEND = 0 := (dmaBase0_stat _).trans (get_put_same _ _ _ _ (by decide))

theorem dmaBase0_epoch : (s.dmaBase0 c).get (DM_STAT c) DM_STAT_CHAIN_EPOCH = (s.get (DM_STAT c) DM_STAT_CHAIN_EPOCH + 1) % 65536 := by
  refine (dmaBase0_stat _).trans ?_
  rw [get_put_apart _ _ _ _ _ (by decide) (by decide)]
  exact get_bumpMod_same _ _ _ _ (by decide)

theorem dmaBase0_last : (s.dmaBase0 c).get (DM_LAST_LO c) DM_LAST_LO_LAST_VALID = 0 := by
  unfold State.dmaBase0
  exact get_put_same _ _ _ _ (by decide)

theorem dmaBase0_ev : (s.dmaBase0 c).ev = s.ev := by
  unfold State.dmaBase0
  rw [put_ev, put_ev, bumpMod_ev]

theorem setCur_ev (a : Nat) : (s.setCur c a).ev = s.ev := (put_ev ..).trans (put_ev ..)

theorem setCur_get (hc : c < 32) (a : Nat) {r : Nat} (hr : r = DM_STAT c ∨ r = DM_LAST_LO c) (f : Fld) : (s.setCur c a).get r f = s.get r f := by
  refine (setCur_traffic a).quiet.get (lostCounter_low ?_) ?_ f
  · rcases hr with rfl | rfl <;> simp only [DM_STAT, DM_LAST_LO] <;> omega
  · rcases hr with rfl | rfl <;> simp only [DM_STAT, DM_LAST_LO, DM_CUR_LO, DM_CUR_HI, List.mem_cons, List.not_mem_nil, or_false] <;> omega

/-- A channel's own part changes no register. -/
theorem setDmaAt_get (v : DmaCh) (a : Nat) (f : Fld) : (s.setDmaAt c v).get a f = s.get a f := rfl

theorem setDmaAt_ev (v : DmaCh) : (s.setDmaAt c v).ev = s.ev := rfl

theorem setDmaAt_dmaCur (v : DmaCh) : (s.setDmaAt c v).dmaCur c = s.dmaCur c := rfl

/-- What START leaves before the first descriptor is read. -/
structure State.dmaStarts (s t : State) (c : Nat) : Prop where
  engines : s.engines t (dmaStartWords c)
  ev : t.ev = s.ev
  cur : t.dmaCur c = s.dmaBase c
  last : t.lastValid c = false
  state : t.dmState c = s.dmState c
  pend : t.get (DM_STAT c) DM_STAT_PEND = 0
  epoch : t.get (DM_STAT c) DM_STAT_CHAIN_EPOCH = (s.get (DM_STAT c) DM_STAT_CHAIN_EPOCH + 1) % 65536

theorem dmaSet0_starts (hc : c < 32) : s.dmaStarts (s.dmaSet0 c) c := by
  obtain ⟨hmod, hlt⟩ := dmaBase_range s c
  have hb := dmaBase0_base (s := s) (c := c)
  unfold State.dmaSet0
  rw [hb]
  refine ⟨?_, ?_, ?_, ?_, ?_, ?_, ?_⟩
  · exact ((dmaBase0_traffic.mono (by simp [dmaStartWords])).trans ((setCur_traffic _).mono (by simp [dmaStartWords]))).engines.trans (engines_setDmaAt _)
  · rw [setDmaAt_ev, setCur_ev, dmaBase0_ev]
  · rw [setDmaAt_dmaCur, setCur_dmaCur hmod hlt]
  · unfold State.lastValid State.on
    rw [setDmaAt_get, setCur_get hc _ (.inr rfl), dmaBase0_last]
    rfl
  · unfold State.dmState
    rw [setDmaAt_get, setCur_get hc _ (.inl rfl)]
    exact dmaBase0_state
  · rw [setDmaAt_get, setCur_get hc _ (.inl rfl), dmaBase0_pend]
  · rw [setDmaAt_get, setCur_get hc _ (.inl rfl), dmaBase0_epoch]

end

end Sys2Proof.Machine

end

section

namespace Sys2Proof.Machine

/-! ## DMA control: the writes of DM_CTRL and DM_DB (R355, R356, R365) -/

section

variable {s t u : State} {c : Nat}

theorem State.engines.ownerOf (h : s.engines t but) (cls inst : Nat) : t.ownerOf cls inst = s.ownerOf cls inst := ownerOf_congr h.locket cls inst

theorem dmaStartWords_low (hc : c < 32) : ∀ a ∈ dmaStartWords c, a < 0x900000 := by
  intro a ha
  simp only [dmaStartWords, DM_STAT, DM_LAST_LO, DM_CUR_LO, DM_CUR_HI, List.mem_cons, List.not_mem_nil, or_false] at ha
  omega

theorem readDesc_get (hc : c < 32) {a : Nat} (ha : a = DM_LAST_LO c ∨ a = DM_CUR_LO c ∨ a = DM_CUR_HI c) (f : Fld) :
    (s.readDesc c).get a f = s.get a f := by
  have hlow : a < 0x601000 := by
    have := dmWords_low hc
    rcases ha with rfl | rfl | rfl <;> omega
  refine readDesc_engines.quiet.get (lostCounter_low (by omega)) (fun hm => ?_) f
  rcases List.mem_cons.1 hm with h | h
  · rcases ha with rfl | rfl | rfl <;> simp only [DM_STAT, DM_LAST_LO, DM_CUR_LO, DM_CUR_HI] at h <;> omega
  · exact not_traffic_low (by omega) (controlWords_traffic _ h)

theorem readDesc_dmaCur (hc : c < 32) : (s.readDesc c).dmaCur c = s.dmaCur c := by
  unfold State.dmaCur
  rw [readDesc_get hc (.inr (.inl rfl)), readDesc_get hc (.inr (.inr rfl))]

/-- What START does to a channel at rest. -/
theorem dmaStart_spec (hc : c < 32) (hidle : u.dmState c = 0 ∨ u.dmState c = 4) (hseek : (u.dmaAt c).seeking = false) {owner : Nat}
    (ho : u.dmaOwner c = some owner) (hup : u.engUp = true) :
    (u.dmaStart c).dmaCur c = u.dmaBase c ∧ (u.dmaStart c).lastValid c = false ∧
    (u.dmaStart c).get (DM_STAT c) DM_STAT_CHAIN_EPOCH = (u.get (DM_STAT c) DM_STAT_CHAIN_EPOCH + 1) % 65536 ∧
    (u.dmaStart c).get (DM_STAT c) DM_STAT_PEND = 0 ∧
    u.engines (u.dmaStart c) (DM_STAT c :: DM_LAST_LO c :: ([DM_CUR_LO c, DM_CUR_HI c] ++ controlWords)) ∧
    u.seeks (u.dmaStart c) c (u.reaches owner .control (u.dmaBase c) 64) (u.canReserve 3 c) := by
  have hs := dmaSet0_starts (s := u) hc
  rw [dmaStart_eq hidle hseek ho hup]
  generalize u.dmaSet0 c = z at hs
  obtain ⟨heng, hev, hcur, hlast, hstate, hpend, hepoch⟩ := hs
  have hseeks := readDesc_seeks (s := z) hc ((heng.ownerOf 3 c).trans ho)
  rw [hcur, heng.reaches (dmaStartWords_low hc), canReserve_congr hev heng.locket] at hseeks
  refine ⟨(readDesc_dmaCur hc).trans hcur, ?_, (readDesc_other hc (by unfold dmStatOther; decide)).trans hepoch,
    (readDesc_other hc (by unfold dmStatOther; decide)).trans hpend, ?_, ⟨hseeks.out, fun h => (hseeks.state h).trans hstate, hseeks.asks, hseeks.waits⟩⟩
  · unfold State.lastValid State.on
    rw [readDesc_get hc (.inl rfl)]
    exact hlast
  · refine (heng.mono fun a ha => ?_).trans (readDesc_engines.mono fun a ha => ?_)
    · simp only [dmaStartWords, List.mem_cons, List.not_mem_nil, or_false] at ha
      rcases ha with rfl | rfl | rfl | rfl <;> simp
    · rcases List.mem_cons.1 ha with rfl | ha
      · simp
      · simp [ha]

theorem dmCtrl_start {w : Word} (ha : getField w DM_CTRL_ABORT = 0) (hst : getField w DM_CTRL_START = 1) (statBad : Bool) :
    u.dmCtrl c w statBad = u.dmaStart c := by
  unfold State.dmCtrl
  rw [if_neg (by omega), if_pos hst]

theorem dmCtrl_abort {w : Word} (ha : getField w DM_CTRL_ABORT = 1) (statBad : Bool) : u.dmCtrl c w statBad = u.dmaAbort c 1 3 statBad := if_pos ha

theorem dmaAbort_rests (hidle : u.dmState c = 0 ∨ u.dmState c = 4) (hseek : (u.dmaAt c).seeking = false) (detail cause : Nat) (statBad : Bool) :
    u.dmaAbort c detail cause statBad = u := if_pos ⟨hidle, hseek⟩

/-- Where a wanted control read goes. -/
def State.wantHpa (s : State) (c : Nat) : Nat := if (s.dmaAt c).want = .link then s.dmaLastAt c + 40 else s.dmaCur c

/-- A descriptor whose abort was asked for. -/
def DmaRun.aborted (r : DmaRun) (holds : Nat → Bool) (detail : Nat) : DmaRun :=
  { r with out := r.out.filter fun k => !holds k, got := [], aborting := some detail }

def State.dmaAborts (s : State) (c : Nat) (r : DmaRun) (detail : Nat) : State :=
  (s.qWithdraw (s.dmQueue c) c).setDmaAt c { s.dmaAt c with run := some (r.aborted (s.qHolds (s.dmQueue c) c) detail) }

theorem dmaAbort_busy (hbusy : ¬ (u.dmState c = 0 ∨ u.dmState c = 4) ∨ (u.dmaAt c).seeking = true) (detail cause : Nat) (statBad : Bool) :
    u.dmaAbort c detail cause statBad =
      match ((u.dmaTakeBack c).dmaAt c).run with
      | some r =>
        let q := r.aborted ((u.dmaTakeBack c).qHolds ((u.dmaTakeBack c).dmQueue c) c) detail
        if q.waiting || q.out.isEmpty && !q.abortHeld then ((u.dmaTakeBack c).dmaAborts c r detail).dmaKill c detail cause statBad
        else (((u.dmaTakeBack c).dmaAborts c r detail).put (DM_CTRL c) DM_CTRL_ABORT 1).issueReads 129
      | none =>
        if ((u.dmaTakeBack c).dmaAt c).want ≠ .none ∧ (windowOf ((u.dmaTakeBack c).wantHpa c)).isSome = true then
          (u.dmaTakeBack c).put (DM_CTRL c) DM_CTRL_ABORT 1
        else (u.dmaTakeBack c).dmaKill c detail cause statBad := by
  unfold State.dmaAbort
  rw [if_neg]
  · rfl
  · rintro ⟨hidle, hseek⟩
    rcases hbusy with h | h
    · exact h hidle
    · exact absurd (h.symm.trans hseek) (by decide)

theorem takenBack_run (ch : DmaCh) (now : Nat) : (ch.takenBack now).run = ch.run := by
  unfold DmaCh.takenBack
  split <;> rfl

theorem dmaTakeBack_run : ((u.dmaTakeBack c).dmaAt c).run = (u.dmaAt c).run := by rw [dmaTakeBack_spec.1, takenBack_run]

theorem dmaTakeBack_quiet : u.quiet (u.dmaTakeBack c) [] := dmaTakeBack_spec.2.2.quiet

theorem dmaTakeBack_get {a : Nat} (ha : lostCounter a = false) (f : Fld) : (u.dmaTakeBack c).get a f = u.get a f := dmaTakeBack_quiet.get ha (by simp) f

theorem dmaTakeBack_hpa (hc : c < 32) (hw : (u.dmaAt c).wantAt ≠ u.dtime) : (u.dmaTakeBack c).wantHpa c = u.wantHpa c := by
  obtain ⟨_, _, hl, hh, hcl, hch, _⟩ := dmWords_low hc
  have hget : ∀ a, a < 0x601000 → ∀ f, (u.dmaTakeBack c).get a f = u.get a f := fun a ha f => dmaTakeBack_get (lostCounter_low (by omega)) f
  have hlast : (u.dmaTakeBack c).dmaLastAt c = u.dmaLastAt c := by
    unfold State.dmaLastAt
    rw [hget _ hl, hget _ hh]
  have hcur : (u.dmaTakeBack c).dmaCur c = u.dmaCur c := by
    unfold State.dmaCur
    rw [hget _ hcl, hget _ hch]
  have hwant : (u.dmaTakeBack c).dmaAt c = u.dmaAt c := by
    rw [dmaTakeBack_spec.1]
    exact if_neg hw
  unfold State.wantHpa
  rw [hwant, hlast, hcur]

theorem dmCtrl_ne_dmStat : DM_CTRL c ≠ DM_STAT c := by
  simp only [DM_CTRL, DM_STAT]
  omega

/-- A channel with nothing accepted that is killed stops. -/
theorem dmaKill_none_spec (hc : c < 32) (hr : (s.dmaAt c).run = none) (detail : Nat) {cause : Nat} (hcause : cause < 16) (statBad : Bool) :
    (s.dmaKill c detail cause statBad).dmState c = 0 ∧ (s.dmaKill c detail cause statBad).get (DM_STAT c) DM_STAT_CAUSE = cause ∧
    (s.dmaKill c detail cause statBad).get (DM_CTRL c) DM_CTRL_ABORT = 0 ∧ ((s.dmaKill c detail cause statBad).dmaAt c).seeking = false ∧
    s.quiet (s.dmaKill c detail cause statBad) [DM_STAT c, DM_CTRL c] := by
  have ht := dmaKilled_traffic (s := s) (c := c)
  have ha : (s.dmaKilled c).get (DM_CTRL c) DM_CTRL_ABORT = 0 := get_put_same _ _ _ _ (by decide)
  rw [dmaKill_none hr]
  generalize s.dmaKilled c = z at ht ha
  have hd : (z.setDmaAt c (z.dmaAt c).quits).dmaAt c = (z.dmaAt c).quits := setDmaAt_dmaAt _
  have hg : (z.setDmaAt c (z.dmaAt c).quits).get (DM_CTRL c) DM_CTRL_ABORT = z.get (DM_CTRL c) DM_CTRL_ABORT := setDmaAt_get ..
  have hq := ht.engines.trans (engines_setDmaAt (c := c) (z.dmaAt c).quits)
  generalize z.setDmaAt c (z.dmaAt c).quits = y at hd hg hq
  have hstop := dmaStop_traffic (s := y) (c := c) 0 cause
  refine ⟨dmaStop_state hc (by decide) _, dmaStop_cause hc 0 hcause, ?_, ?_, (hq.quiet.mono (by simp)).trans (hstop.quiet.mono (by simp))⟩
  · exact (hstop.quiet.get (lostCounter_dmCtrl hc) (by simp [dmCtrl_ne_dmStat]) _).trans (hg.trans ha)
  · rw [hstop.dmaAt, hd]
    rfl

/-- An abort of a channel with nothing accepted that wants no read through a window stops it. -/
theorem dmaAbort_seeking (hc : c < 32) (hbusy : ¬ (u.dmState c = 0 ∨ u.dmState c = 4) ∨ (u.dmaAt c).seeking = true) (hr : (u.dmaAt c).run = none)
    (hw : (u.dmaAt c).want = .none ∨ (u.dmaAt c).wantAt = u.dtime ∨ windowOf (u.wantHpa c) = none) (detail cause : Nat) (statBad : Bool) :
    u.dmaAbort c detail cause statBad = (u.dmaTakeBack c).dmaKill c detail cause statBad := by
  rw [dmaAbort_busy hbusy, dmaTakeBack_run, hr]
  refine if_neg ?_
  rintro ⟨hwant, hwin⟩
  by_cases hat : (u.dmaAt c).wantAt = u.dtime
  · refine hwant ?_
    rw [dmaTakeBack_spec.1]
    unfold DmaCh.takenBack
    rw [if_pos hat]
    rfl
  · rw [dmaTakeBack_hpa hc hat] at hwin
    rw [dmaTakeBack_spec.1, DmaCh.takenBack, if_neg hat] at hwant
    rcases hw with h | h | h
    · exact hwant h
    · exact hat h
    · rw [h] at hwin
      exact absurd hwin (by decide)

/-- An abort while a control read is out through a window waits for it. -/
theorem dmaAbort_windowed (hc : c < 32) (hbusy : ¬ (u.dmState c = 0 ∨ u.dmState c = 4) ∨ (u.dmaAt c).seeking = true) (hr : (u.dmaAt c).run = none)
    (hwant : (u.dmaAt c).want ≠ .none) (hat : (u.dmaAt c).wantAt ≠ u.dtime) (hwin : windowOf (u.wantHpa c) ≠ none) (detail cause : Nat) (statBad : Bool) :
    u.dmaAbort c detail cause statBad = (u.dmaTakeBack c).put (DM_CTRL c) DM_CTRL_ABORT 1 := by
  rw [dmaAbort_busy hbusy, dmaTakeBack_run, hr]
  refine if_pos ⟨?_, ?_⟩
  · rw [dmaTakeBack_spec.1, DmaCh.takenBack, if_neg hat]
    exact hwant
  · rw [dmaTakeBack_hpa hc hat]
    exact Option.isSome_iff_ne_none.2 hwin

/-- The accepted descriptor of a channel whose abort was asked for. -/
def State.abortRun (u : State) (c : Nat) (r : DmaRun) (detail : Nat) : DmaRun := r.aborted (u.qHolds (u.dmQueue c) c) detail

theorem dmaTakeBack_abortRun (hc : c < 32) (r : DmaRun) (detail : Nat) : (u.dmaTakeBack c).abortRun c r detail = u.abortRun c r detail := by
  have hq : (u.dmaTakeBack c).dmQueue c = u.dmQueue c :=
    dmaTakeBack_get (lostCounter_low (Nat.lt_trans (dmWords_low hc).2.2.2.2.2.2.2.2 (by decide))) _
  unfold State.abortRun State.qHolds State.shqAt
  rw [hq, dmaTakeBack_spec.2.1]

theorem dmaAborts_engines (r : DmaRun) (detail : Nat) : u.engines (u.dmaAborts c r detail) trafficWords :=
  ((qWithdraw_traffic _).mono (oneQueueWords_traffic (dmQueue_lt ..))).engines.trans (engines_setDmaAt _)

theorem dmaAborts_run (r : DmaRun) (detail : Nat) : ((u.dmaAborts c r detail).dmaAt c).run = some (u.abortRun c r detail) := by
  unfold State.dmaAborts
  rw [setDmaAt_dmaAt]
  rfl

/-- An abort of an accepted descriptor: it ends at once, or its reads are waited for. -/
theorem dmaAbort_running (hc : c < 32) (hbusy : ¬ (u.dmState c = 0 ∨ u.dmState c = 4) ∨ (u.dmaAt c).seeking = true) {r : DmaRun}
    (hr : (u.dmaAt c).run = some r) (detail cause : Nat) (statBad : Bool) : u.dmaAbort c detail cause statBad =
      if r.waiting || (u.abortRun c r detail).out.isEmpty && !(u.abortRun c r detail).abortHeld then
        ((u.dmaTakeBack c).dmaAborts c r detail).dmaKill c detail cause statBad
      else (((u.dmaTakeBack c).dmaAborts c r detail).put (DM_CTRL c) DM_CTRL_ABORT 1).issueReads 129 := by
  rw [dmaAbort_busy hbusy, dmaTakeBack_run, hr, ← dmaTakeBack_abortRun hc]
  rfl

end

end Sys2Proof.Machine

end

section

namespace Sys2Proof.Machine

section

variable {s t u : State} {c : Nat}

/-- An abort that waits leaves the channel's reads out, and ABORT set. -/
theorem abortWaits_spec (hc : c < 32) (r : DmaRun) (detail : Nat) :
    ((((u.dmaTakeBack c).dmaAborts c r detail).put (DM_CTRL c) DM_CTRL_ABORT 1).issueReads 129).get (DM_CTRL c) DM_CTRL_ABORT = 1 ∧
    (((((u.dmaTakeBack c).dmaAborts c r detail).put (DM_CTRL c) DM_CTRL_ABORT 1).issueReads 129).dmaAt c).run = some (u.abortRun c r detail) ∧
    u.quiet ((((u.dmaTakeBack c).dmaAborts c r detail).put (DM_CTRL c) DM_CTRL_ABORT 1).issueReads 129) (DM_CTRL c :: DM_STAGE :: trafficWords) := by
  have hrun := dmaAborts_run (u := u.dmaTakeBack c) (c := c) r detail
  have hq := (dmaTakeBack_quiet (u := u) (c := c)).mono (by simp) |>.trans (dmaAborts_engines (u := u.dmaTakeBack c) (c := c) r detail).quiet
  rw [dmaTakeBack_abortRun hc] at hrun
  generalize (u.dmaTakeBack c).dmaAborts c r detail = y at hrun hq
  have hset : (y.put (DM_CTRL c) DM_CTRL_ABORT 1).get (DM_CTRL c) DM_CTRL_ABORT = 1 := get_put_same _ _ _ _ (by decide)
  have hrun' : ((y.put (DM_CTRL c) DM_CTRL_ABORT 1).dmaAt c).run = some (u.abortRun c r detail) :=
    (congrArg DmaCh.run ((traffic_put (but := [DM_CTRL c]) (by simp) _ _).dmaAt c)).trans hrun
  have hq' := (hq.mono (but' := DM_CTRL c :: DM_STAGE :: trafficWords) fun _ ha => List.mem_cons_of_mem _ (List.mem_cons_of_mem _ ha)).put (a := DM_CTRL c) DM_CTRL_ABORT 1 (by simp)
  generalize y.put (DM_CTRL c) DM_CTRL_ABORT 1 = v at hset hrun' hq'
  have hi := issueReads_engines (s := v) 129
  refine ⟨(hi.quiet.get (lostCounter_dmCtrl hc) (fun hm => ?_) _).trans hset, ?_, hq'.trans (hi.quiet.mono fun _ ha => List.mem_cons_of_mem _ ha)⟩
  · rcases List.mem_cons.1 hm with h | h
    · simp only [DM_CTRL, DM_STAGE] at h
      omega
    · exact not_traffic_low (Nat.lt_trans (dmWords_low hc).2.1 (by decide)) h
  · rw [issueReads_still 129 c fun q hq => ?_]
    · exact hrun'
    · cases hrun'.symm.trans hq
      unfold DmaRun.ready
      exact Bool.and_eq_false_iff.2 (.inl (Bool.and_eq_false_iff.2 (.inr rfl)))

/-- An abort at once ends the accepted descriptor as a kill does. -/
theorem abortNow_kills (hc : c < 32) (r : DmaRun) (detail : Nat) {cause : Nat} (hcause : cause < 16) (statBad : Bool) :
    u.dmaKills (((u.dmaTakeBack c).dmaAborts c r detail).dmaKill c detail cause statBad) c r statBad cause := by
  have hrun := dmaAborts_run (u := u.dmaTakeBack c) (c := c) r detail
  have hw := (dmaTakeBack_spec (s := u) (c := c)).2.2.works (a := r.addr) (n := 64) |>.mono (more := DM_CTRL c :: dmaEndWords c) (by simp) |>.trans
    ((dmaAborts_engines (u := u.dmaTakeBack c) (c := c) r detail).works.mono fun a ha =>
      List.mem_cons_of_mem _ (engines_subset_dmaEnd _ (trafficWords_engine _ ha)))
  generalize (u.dmaTakeBack c).dmaAborts c r detail = y at hrun hw
  obtain ⟨hworks, hnone, habort, hstate⟩ := dmaKill_kills hc hrun detail hcause statBad
  exact ⟨hw.trans hworks, hnone, habort, fun h => hstate (hw.takesStatus h)⟩

/-! ### Doorbells (R356) -/

theorem bell_waits {src : Src} {addr value : Nat} (h : s.bellWaits src addr = true) (eff : State → State) :
    s.bell src addr value eff = { s with bells := s.bells ++ [⟨src, addr, value⟩] } := if_pos h

theorem bell_acts {src : Src} {addr value : Nat} (h : s.bellWaits src addr = false) (eff : State → State) : s.bell src addr value eff = eff s :=
  if_neg (by rw [h]; decide)

/-- Whether a doorbell makes a channel read again. -/
def State.dmaParked (s : State) (c : Nat) : Prop := s.dmState c = 3 ∧ (s.dmaAt c).seeking = false ∧ s.park.step = 0 ∧ s.engUp = true

/-- The doorbell noted. -/
def State.dmaPend (s : State) (c v : Nat) : State := s.put (DM_STAT c) DM_STAT_PEND v

theorem dmaPend_state (v : Nat) : (s.dmaPend c v).dmState c = s.dmState c := get_put_apart _ _ _ _ _ (by decide) (by decide)

theorem dmaPend_traffic (v : Nat) : s.traffic (s.dmaPend c v) [DM_STAT c] := traffic_put (by simp) _ _

theorem dmaPend_get {v : Nat} (hv : v < 2) : (s.dmaPend c v).get (DM_STAT c) DM_STAT_PEND = v := (get_put_same _ _ _ _ (by decide)).trans (Nat.mod_eq_of_lt hv)

theorem dmaPend_ev (v : Nat) : (s.dmaPend c v).ev = s.ev := put_ev ..

theorem dmRing_pends (h : ¬ s.dmaParked c) : s.dmRing c = s.dmaPend c 1 := by
  have ht := dmaPend_traffic (s := s) (c := c) 1
  refine if_neg fun hp => h ?_
  obtain ⟨hst, hseek, hpark, hup⟩ := hp
  exact ⟨(dmaPend_state 1).symm.trans hst, (congrArg DmaCh.seeking (ht.dmaAt c)).symm.trans hseek,
    (congrArg Park.step ht.engines.park).symm.trans hpark, ht.engines.engUp.symm.trans hup⟩

theorem dmRing_rereads (h : s.dmaParked c) : s.dmRing c = ((s.dmaPend c 1).dmaPend c 0).readNext c := by
  have ht := dmaPend_traffic (s := s) (c := c) 1
  obtain ⟨hst, hseek, hpark, hup⟩ := h
  exact if_pos ⟨(dmaPend_state 1).trans hst, (congrArg DmaCh.seeking (ht.dmaAt c)).trans hseek,
    (congrArg Park.step ht.engines.park).trans hpark, ht.engines.engUp.trans hup⟩

theorem readNext_link (h : s.lastValid c = true) : s.readNext c = s.dmaAsk c .link (s.dmaLastAt c + 40) 8 := if_pos h

theorem readNext_desc (h : s.lastValid c = false) : s.readNext c = s.readDesc c := if_neg (by rw [h]; decide)

/-- A channel that may read its link word or its descriptor asks for it. -/
theorem readNext_asks {owner : Nat} (ho : s.dmaOwner c = some owner)
    (hr : s.lastValid c = true ∨ (s.reaches owner .control (s.dmaCur c) 64 = true ∧ s.canReserve 3 c = true)) :
    ∃ a n, s.readNext c = s.dmaAsk c (if s.lastValid c = true then .link else .entry) a n := by
  cases hl : s.lastValid c with
  | true => exact ⟨_, _, readNext_link hl⟩
  | false =>
    obtain ⟨hreach, hres⟩ := hr.resolve_left (by rw [hl]; decide)
    refine ⟨s.dmaCur c, 64, ?_⟩
    rw [readNext_desc hl, readDesc_eq ho, if_neg (by rw [hreach]; decide), if_pos hres, if_neg (by decide)]

/-- What a doorbell does to a parked channel. -/
theorem dmRing_parked (hc : c < 32) (h : s.dmaParked c) {owner : Nat} (ho : s.dmaOwner c = some owner)
    (hr : s.lastValid c = true ∨ (s.reaches owner .control (s.dmaCur c) 64 = true ∧ s.canReserve 3 c = true)) :
    (s.dmRing c).get (DM_STAT c) DM_STAT_PEND = 0 ∧ (s.dmRing c).dmState c = 3 ∧
    ((s.dmRing c).dmaAt c).want = (if s.lastValid c = true then .link else .entry) ∧ s.quiet (s.dmRing c) (DM_STAT c :: controlWords) := by
  rw [dmRing_rereads h]
  have ht : s.traffic ((s.dmaPend c 1).dmaPend c 0) [DM_STAT c] := (dmaPend_traffic 1).trans (dmaPend_traffic 0)
  have hst : ((s.dmaPend c 1).dmaPend c 0).dmState c = 3 := (dmaPend_state 0).trans ((dmaPend_state 1).trans h.1)
  have hp : ((s.dmaPend c 1).dmaPend c 0).get (DM_STAT c) DM_STAT_PEND = 0 := dmaPend_get (by decide)
  have hev : ((s.dmaPend c 1).dmaPend c 0).ev = s.ev := (dmaPend_ev 0).trans (dmaPend_ev 1)
  generalize (s.dmaPend c 1).dmaPend c 0 = z at ht hst hp hev
  have hget : ∀ a, a < 0x601000 → a ≠ DM_STAT c → ∀ f, z.get a f = s.get a f := fun a ha hne f =>
    ht.quiet.get (lostCounter_low (by omega)) (by simpa using hne) f
  have hlv : z.lastValid c = s.lastValid c := by
    unfold State.lastValid State.on
    rw [hget _ (dmWords_low hc).2.2.1 (by simp only [DM_LAST_LO, DM_STAT]; omega)]
  have hcur : z.dmaCur c = s.dmaCur c := by
    unfold State.dmaCur
    rw [hget _ (dmWords_low hc).2.2.2.2.1 (by simp only [DM_CUR_LO, DM_STAT]; omega),
      hget _ (dmWords_low hc).2.2.2.2.2.1 (by simp only [DM_CUR_HI, DM_STAT]; omega)]
  obtain ⟨a, n, hn⟩ : ∃ a n, z.readNext c = z.dmaAsk c (if z.lastValid c = true then .link else .entry) a n := by
    refine readNext_asks ((ht.engines.ownerOf 3 c).trans ho) ?_
    rw [hlv, hcur, ht.engines.reaches (by simp [Nat.lt_trans (dmWords_low hc).1]), canReserve_congr hev ht.engines.locket]
    exact hr
  have hq := (ht.quiet.mono (but' := DM_STAT c :: controlWords) (by simp)).trans (readNext_engines (s := z)).quiet
  rw [hn, hlv] at hq ⊢
  exact ⟨(dmaAsk_stat hc ..).trans hp, (dmaAsk_stat hc ..).trans hst, congrArg DmaCh.want (dmaAsk_dmaAt ..), hq⟩

end

end Sys2Proof.Machine

end

section

namespace Sys2Proof.Machine

/-! ## A trigger starts what waits for it (R359) -/

section

variable {s t : State} {c d : Nat}

/-- A fold that visits `c`: what the other steps keep until then, the visit turns into what every step keeps. -/
theorem foldl_visits {α : Type} {P Q : State → Prop} {f : State → α → State} {c : α} (hkeep : ∀ s d, d ≠ c → P s → P (f s d))
    (hturn : ∀ s, P s → Q (f s c)) (hstay : ∀ s d, Q s → Q (f s d)) {l : List α} (hc : c ∈ l) {s : State} (hs : P s) : Q (l.foldl f s) := by
  classical
  induction l generalizing s with
  | nil => exact absurd hc List.not_mem_nil
  | cons a l ih =>
    rw [List.foldl_cons]
    by_cases hac : a = c
    · subst hac
      exact foldl_keeps (P := Q) (fun s d _ => hstay s d) (hturn s hs)
    · exact ih ((List.mem_cons.1 hc).resolve_left (Ne.symm hac)) (hkeep s a hac hs)

/-- A descriptor that waits for a trigger, as channel `c` has it. -/
structure State.waitsFor (s : State) (c : Nat) (r : DmaRun) (kind unit arg : Nat) : Prop where
  run : ∃ q, (s.dmaAt c).run = some q ∧ q.named kind unit arg = true ∧ q.desc = r.desc

/-- A descriptor that runs on channel `c`. -/
structure State.runsAs (s : State) (c : Nat) (r : DmaRun) : Prop where
  run : ∃ q, (s.dmaAt c).run = some q ∧ q.waiting = false ∧ q.desc = r.desc
  state : s.dmState c = 1

variable {r : DmaRun}

theorem advances_run {ch ch' : DmaCh} (h : ch.advances ch') {q : DmaRun} (hq : ch.run = some q) :
    ∃ q', ch'.run = some q' ∧ q'.waiting = q.waiting ∧ q'.desc = q.desc := by
  obtain ⟨q', hq', e⟩ := h.run q hq
  exact ⟨q', hq', by rw [e], by rw [e]⟩

theorem dmaHears_waits (kind unit arg : Nat) (hne : d ≠ c) (h : s.waitsFor c r kind unit arg) : (s.dmaHears kind unit arg d).waitsFor c r kind unit arg := by
  obtain ⟨q, hq, hn, hd⟩ := h.run
  obtain ⟨q', hq', hw', hd'⟩ := advances_run (dmaHears_advances kind unit arg (Ne.symm hne)) hq
  refine ⟨q', hq', ?_, hd'.trans hd⟩
  unfold DmaRun.named at hn ⊢
  rw [hw', hd']
  exact hn

theorem dmaHears_turns (hc : c < 32) (kind unit arg : Nat) (h : s.waitsFor c r kind unit arg) : (s.dmaHears kind unit arg c).runsAs c r := by
  obtain ⟨q, hq, hn, hd⟩ := h.run
  have he : s.dmaHears kind unit arg c = s.dmaBegin c := by
    unfold State.dmaHears
    rw [hq]
    exact if_pos hn
  obtain ⟨⟨q', hq', e⟩, hst⟩ := dmaBegin_run hc hq
  rw [he]
  exact ⟨⟨q', hq', by rw [e], by rw [e]; exact hd⟩, hst⟩

theorem dmaHears_runs (hc : c < 32) (kind unit arg : Nat) (h : s.runsAs c r) : (s.dmaHears kind unit arg d).runsAs c r := by
  obtain ⟨⟨q, hq, hw, hd⟩, hst⟩ := h
  by_cases hne : c = d
  · subst hne
    have he : s.dmaHears kind unit arg c = s := by
      unfold State.dmaHears
      rw [hq]
      exact if_neg (by unfold DmaRun.named; rw [hw]; exact Bool.false_ne_true)
    rw [he]
    exact ⟨⟨q, hq, hw, hd⟩, hst⟩
  · obtain ⟨q', hq', hw', hd'⟩ := advances_run (dmaHears_advances kind unit arg hne) hq
    exact ⟨⟨q', hq', hw'.trans hw, hd'.trans hd⟩,
      ((dmaHears_engines ..).quiet.get (lostCounter_dmStat hc) (dmStat_other hc hne) _).trans hst⟩

theorem blitHears_runs (hc : c < 32) (hd : d < 8) (kind unit arg : Nat) (h : s.runsAs c r) : (s.blitHears kind unit arg d).runsAs c r := by
  obtain ⟨⟨q, hq, hw⟩, hst⟩ := h
  refine ⟨⟨q, by rw [blitHears_dmaAt]; exact hq, hw⟩, ((blitHears_engines ..).quiet.get (lostCounter_dmStat hc) (fun hm => ?_) _).trans hst⟩
  rcases List.mem_cons.1 hm with h | h
  · simp only [DM_STAT, BL_STAT] at h
    omega
  · exact not_traffic_low (Nat.lt_trans (dmWords_low hc).1 (by decide)) h

/-- A trigger starts the descriptor that waits for it. -/
theorem trigger_runs (hc : c < 32) (hup : s.engUp = true) {kind unit arg : Nat} (h : s.waitsFor c r kind unit arg) :
    (s.trigger kind unit arg).runsAs c r := by
  have hn : (s.trigNoted kind unit arg).waitsFor c r kind unit arg := ⟨h.run⟩
  rw [trigger_eq, if_pos hup]
  refine foldl_keeps (P := fun t => t.runsAs c r) (fun t d hd ht => blitHears_runs hc (List.mem_range.1 hd) _ _ _ ht) ?_
  exact foldl_visits (P := fun t => t.waitsFor c r kind unit arg) (Q := fun t => t.runsAs c r) (fun t d hne ht => dmaHears_waits _ _ _ hne ht)
    (fun t ht => dmaHears_turns hc _ _ _ ht) (fun t d ht => dmaHears_runs hc _ _ _ ht) (List.mem_range.2 hc) hn

end

/-! ## The obligation -/

/-- Settles O27: START reads the descriptor, an abort ends what has nothing out and waits for the rest, and a doorbell or tick starts what
waits for it. -/
theorem dmaControlCompletes : Obligations.DmaControlCompletes := by
  unfold Obligations.DmaControlCompletes
  intro s now c x stat curs
  have hx : ∀ but, s.quiet x but := fun but => (quiet_tick s now).mono (by simp)
  have hc := c.isLt
  refine ⟨?_, fun statBad r hdue hr => ?_, ?_, fun n r htick hup hr hwait hk hu ha => ?_⟩
  · intro src value u w hadm ch idle
    refine ⟨fun owner hab hst hidle hseek ho hup => ?_, fun statBad hab => ⟨fun hidle hseek => ?_, fun hbusy => ?_⟩⟩
    · obtain ⟨hcur, hlast, hepoch, hpend, heng, hseeks⟩ := dmaStart_spec hc hidle hseek ho hup
      have hrun : exec (.dmaStart now src c value) s = .next (u.dmaStart c.val) :=
        congrArg Host.Outcome.next ((guarded_fst_of_admits hadm _).trans (dmCtrl_start hab hst false))
      exact ⟨_, hrun, hcur, hlast, hepoch, hpend, heng.quiet, hseeks.out, fun h => ⟨hseeks.state h, hseeks.asks h, fun he => (hseeks.waits h he).2⟩⟩
    · have hrun : exec (.dmaAbort now src c ⟨value, statBad⟩) s = .next u :=
        congrArg Host.Outcome.next ((guarded_fst_of_admits hadm _).trans ((dmCtrl_abort hab statBad).trans (dmaAbort_rests hidle hseek ..)))
      exact ⟨u, hrun, rfl, quiet_refl ..⟩
    · have hrun : exec (.dmaAbort now src c ⟨value, statBad⟩) s = .next (u.dmaAbort c.val 1 3 statBad) :=
        congrArg Host.Outcome.next ((guarded_fst_of_admits hadm _).trans (dmCtrl_abort hab statBad))
      refine ⟨fun hnone hw => ?_, fun hnone hwant hat hwin => ?_, fun r hr => ⟨fun hnow => ?_, fun hlater => ?_⟩⟩
      · obtain ⟨hst, hcause, habort, hseek, hq⟩ := dmaKill_none_spec hc (dmaTakeBack_run.trans hnone) 1 (cause := 3) (by decide) statBad
        exact ⟨_, hrun.trans (congrArg Host.Outcome.next (dmaAbort_seeking hc hbusy hnone hw ..)), hst, hcause, habort, hseek,
          (dmaTakeBack_quiet.mono (by simp)).trans hq⟩
      · refine ⟨_, hrun.trans (congrArg Host.Outcome.next (dmaAbort_windowed hc hbusy hnone hwant hat hwin ..)), get_put_same _ _ _ _ (by decide), ?_,
          (dmaTakeBack_quiet.mono (by simp)).put _ _ (by simp)⟩
        rw [(traffic_put (but := [DM_CTRL c.val]) (by simp) _ _).dmaAt, dmaTakeBack_spec.1]
        exact if_neg hat
      · obtain ⟨hworks, hnone, _, hstate⟩ := abortNow_kills (u := u) hc r 1 (cause := 3) (by decide) statBad
        exact ⟨_, hrun.trans (congrArg Host.Outcome.next ((dmaAbort_running hc hbusy hr ..).trans (if_pos hnow))), hnone, hworks.store,
          fun h => ⟨(hstate h).1, (hstate h).2, hworks.mem⟩⟩
      · obtain ⟨habort, hq, hquiet⟩ := abortWaits_spec (u := u) hc r 1
        exact ⟨_, hrun.trans (congrArg Host.Outcome.next ((dmaAbort_running hc hbusy hr ..).trans (if_neg fun h => Bool.false_ne_true (hlater.symm.trans h)))),
          habort, hq, hquiet⟩
  · have hr' : (x.dmaAt c.val).run = some r := hr
    have hfin : x.abortFinish c.val statBad = x.dmaKill c.val (r.aborting.getD 1) (if r.aborting.getD 1 = 2 then 4 else 3) statBad := by
      unfold State.abortFinish
      rw [hr']
    have hk := dmaKill_kills hc hr' (r.aborting.getD 1) (cause := if r.aborting.getD 1 = 2 then 4 else 3) (by split <;> decide) statBad
    have hrun : exec (.dmaAbortComplete now ⟨c, statBad⟩) s = .next (x.abortFinish c.val statBad) := congrArg Host.Outcome.next (if_pos hdue)
    rw [hfin] at hrun
    exact ⟨_, hrun, hk.run, hk.abort, hk.works.store, fun h => (hk.state h).1⟩
  · intro src value u w hadm hring
    have hrun : exec (.dmaDoorbell now src c value) s = .next (u.dmDb src c.val w) :=
      congrArg Host.Outcome.next (guarded_fst_of_admits hadm fun s w => s.dmDb src c.val w)
    refine ⟨fun hwait => ?_, fun hact => ⟨fun hnot => ?_, fun owner hp ho hr => ?_⟩⟩
    · exact ⟨_, hrun.trans (congrArg Host.Outcome.next ((if_pos hring).trans (bell_waits hwait _))), rfl, quiet_of_same rfl rfl rfl rfl rfl rfl⟩
    · have ht := dmaPend_traffic (s := u) (c := c.val) 1
      exact ⟨_, hrun.trans (congrArg Host.Outcome.next ((if_pos hring).trans ((bell_acts hact _).trans (dmRing_pends hnot)))), dmaPend_get (by decide),
        ht.dmaAt _, ht.quiet⟩
    · obtain ⟨hpend, hst, hwant, hq⟩ := dmRing_parked hc hp ho hr
      exact ⟨_, hrun.trans (congrArg Host.Outcome.next ((if_pos hring).trans (bell_acts hact _))), hpend, hst, hwant, hq⟩
  · have hrun : exec (.htTick now n) s = .next (x.trigger 1 n.val 0) := congrArg Host.Outcome.next (if_pos htick)
    have hw : x.waitsFor c.val r 1 n.val 0 := ⟨r, hr, by unfold DmaRun.named; rw [hwait, hk, hu, ha]; simp, rfl⟩
    obtain ⟨⟨q, hq, hqw, hqd⟩, hst⟩ := trigger_runs hc (s := x) hup hw
    have hquiet := (hx engineWords).trans (trigger_engines (s := x) 1 n.val 0).quiet
    exact ⟨_, q, hrun, hq, hqw, hqd, hst, hquiet.1, hquiet.2.1⟩

end Sys2Proof.Machine

end

section

namespace Sys2Proof.Machine

/-! ## The counts of a descriptor's end (R361) -/

section

variable {s t : State} {c : Nat} {r : DmaRun} {code : Nat}

theorem engineWords_low {a : Nat} (h : a ∈ engineWords) (hlow : a < 0x601000) : ∃ d, d < 32 ∧ a = DM_STAT d := by
  rcases List.mem_append.1 h with h | h
  · rcases List.mem_append.1 h with h | h
    · obtain ⟨d, hd, rfl⟩ := List.mem_map.1 h
      exact ⟨d, List.mem_range.1 hd, rfl⟩
    · obtain ⟨d, _, rfl⟩ := List.mem_map.1 h
      simp only [BL_STAT] at hlow
      omega
  · rcases List.mem_cons.1 h with rfl | h
    · exact absurd hlow (by decide)
    · exact absurd h (not_traffic_low (by omega))

theorem dmErrCnt_apart (hc : c < 32) : DM_ERR_CNT c ∉ engineWords := fun h => by
  obtain ⟨d, _, h⟩ := engineWords_low h (dmWords_low hc).2.2.2.2.2.2.2.1
  simp only [DM_ERR_CNT, DM_STAT] at h
  omega

theorem dmDoneCnt_apart (hc : c < 32) : DM_DONE_CNT c ∉ engineWords := fun h => by
  obtain ⟨d, _, h⟩ := engineWords_low h (dmWords_low hc).2.2.2.2.2.2.1
  simp only [DM_DONE_CNT, DM_STAT] at h
  omega

theorem dmCfg_apart (hc : c < 32) : DM_CFG c ∉ engineWords := fun h => by
  obtain ⟨d, _, h⟩ := engineWords_low h (dmWords_low hc).2.2.2.2.2.2.2.2
  simp only [DM_CFG, DM_STAT] at h
  omega

theorem lostCounter_dm {a : Nat} (h : a < 0x601000) : lostCounter a = false := lostCounter_low (by omega)

/-- The words in which the end is told, before its trigger. -/
theorem dmaTold_rd (hc : c < 32) {a : Nat} (ha : a < 0x601000) (he : a ∉ engineWords) (detail residue : Nat) (counted : Bool) :
    (s.dmaTold c r code detail residue counted).rd a = (s.dmaNoted c r code detail residue counted).rd a := by
  rw [dmaTold_eq]
  split
  · exact (trigger_engines ..).regs _ (lostCounter_dm ha) he
  · rfl

theorem dmaTold_errCnt (hc : c < 32) (detail residue : Nat) (counted : Bool) :
    (s.dmaTold c r code detail residue counted).rd (DM_ERR_CNT c) = s.rd (DM_ERR_CNT c) := by
  have hlow := (dmWords_low hc).2.2.2.2.2.2.2.1
  refine (dmaTold_rd hc hlow (dmErrCnt_apart hc) ..).trans ((dmaNoted_traffic ..).regs _ (lostCounter_dm hlow) ?_)
  simp only [DM_ERR_CNT, DM_DONE_CNT, DM_LAST_LO, DM_LAST_HI, List.mem_cons, List.not_mem_nil, or_false]
  omega

theorem dmaTold_doneCnt (hc : c < 32) (detail residue : Nat) : (s.dmaTold c r code detail residue true).rdN (DM_DONE_CNT c) =
    (s.rdN (DM_DONE_CNT c) + 1) % 2 ^ 32 := by
  have hlow := (dmWords_low hc).2.2.2.2.2.2.1
  have hset : ((s.bumpMod (DM_DONE_CNT c) DM_DONE_CNT_COUNT 1).setLast c r.addr).get (DM_DONE_CNT c) DM_DONE_CNT_COUNT =
      (s.get (DM_DONE_CNT c) DM_DONE_CNT_COUNT + 1) % 2 ^ 32 := by
    rw [(setLast_traffic r.addr).quiet.get (lostCounter_dm hlow) (by
      simp only [DM_DONE_CNT, DM_LAST_LO, DM_LAST_HI, List.mem_cons, List.not_mem_nil, or_false]; omega)]
    exact get_bumpMod_same _ _ _ _ (by decide)
  have hn : (s.dmaNoted c r code detail residue true).get (DM_DONE_CNT c) DM_DONE_CNT_COUNT = (s.get (DM_DONE_CNT c) DM_DONE_CNT_COUNT + 1) % 2 ^ 32 := by
    unfold State.dmaNoted
    exact ((settleEvent_traffic (but := []) ..).quiet.get (lostCounter_dm hlow) (by simp) _).trans hset
  rw [rdN_eq_get, rdN_eq_get]
  exact (congrArg (getField · DM_DONE_CNT_COUNT) (dmaTold_rd hc hlow (dmDoneCnt_apart hc) ..)).trans hn

/-- A register that neither the freed channel nor the error's note changes. -/
theorem dmaErrNoted_rd (hc : c < 32) {a : Nat} (ha : a < 0x601000) (he : a ∉ engineWords) (hne : a ≠ DM_ERR_CNT c) :
    ((s.dmaFreed c r code).dmaErrNoted c code).rd a = s.rd a := by
  refine ((dmaErrNoted_traffic code).regs _ (lostCounter_dm ha) fun hm => ?_).trans ((dmaFreed_engines code).regs _ (lostCounter_dm ha) fun hm => ?_)
  · rcases List.mem_cons.1 hm with rfl | hm
    · exact he (engineWords_dmStat hc)
    · exact hne (List.mem_singleton.1 hm)
  · exact he (List.mem_append_right _ hm)

theorem dmaFreed_errCnt (hc : c < 32) : (s.dmaFreed c r code).rd (DM_ERR_CNT c) = s.rd (DM_ERR_CNT c) :=
  (dmaFreed_engines code).regs _ (lostCounter_dm (dmWords_low hc).2.2.2.2.2.2.2.1) fun hm => dmErrCnt_apart hc (List.mem_append_right _ hm)

theorem not_control_low {a : Nat} (ha : a < 0x601000) : a ∉ controlWords := fun h => not_traffic_low (by omega) (controlWords_traffic _ h)

/-- A descriptor that ends without its channel being stopped, its status written. -/
theorem dmaEnd_none (hc : c < 32) (hr : (s.dmaAt c).run = some r) (h : s.takesStatus r.addr) (detail errOff residue crcOut : Nat) :
    let t := s.dmaEnd c code detail errOff residue crcOut false none
    (code = 0 → t.rdN (DM_DONE_CNT c) = (s.rdN (DM_DONE_CNT c) + 1) % 2 ^ 32 ∧ t.rdN (DM_ERR_CNT c) = s.rdN (DM_ERR_CNT c)) ∧
    (code ≠ 0 → s.rdN (DM_ERR_CNT c) + 1 < 2 ^ 32 → t.rdN (DM_ERR_CNT c) = s.rdN (DM_ERR_CNT c) + 1) ∧
    (code ≠ 0 → s.on (DM_CFG c) DM_CFG_ONERR = false → t.dmState c = 4 ∧ t.get (DM_STAT c) DM_STAT_CAUSE = 1) := by
  intro t
  have ht : t = _ := dmaEnd_eq_of_takes hr h detail errOff residue crcOut false none
  clear_value t
  rw [Bool.not_false] at ht
  dsimp only at ht
  obtain ⟨_, _, _, _, _, _, hdl, hel, hcl⟩ := dmWords_low hc
  have herr : ((s.dmaFreed c r code).dmaErrNoted c code).rd (DM_ERR_CNT c) = s.rd (DM_ERR_CNT c) ∨ code ≠ 0 := by
    by_cases h0 : code = 0
    · refine .inl ?_
      unfold State.dmaErrNoted
      rw [if_pos h0, dmaFreed_errCnt hc]
    · exact .inr h0
  have herrN := fun h0 => (dmaErrNoted_err (s := s.dmaFreed c r code) (c := c) (code := code) h0).2
  have hdone := dmaErrNoted_rd (s := s) (c := c) (r := r) (code := code) hc hdl (dmDoneCnt_apart hc) (by simp only [DM_DONE_CNT, DM_ERR_CNT]; omega)
  have hcfg := dmaErrNoted_rd (s := s) (c := c) (r := r) (code := code) hc hcl (dmCfg_apart hc) (by simp only [DM_CFG, DM_ERR_CNT]; omega)
  generalize (s.dmaFreed c r code).dmaErrNoted c code = z at ht herr herrN hdone hcfg
  have hp := dmaStatus_moves (s := z) r.addr (descStatus r.desc code detail errOff residue crcOut)
  generalize (z.dmaStatus r.addr (descStatus r.desc code detail errOff residue crcOut)).1 = p at ht hp
  have hge := fun cont => dmaGoesOn_engines (s := p.dmaTold c r code detail residue (z.dmaCounts c code true)) hc code cont true none
  have hrd : ∀ a, a < 0x601000 → a ∉ engineWords → t.rd a = (p.dmaTold c r code detail residue (z.dmaCounts c code true)).rd a := fun a ha he => by
    rw [ht]
    exact (hge _).regs _ (lostCounter_dm ha) he
  have herrT : t.rd (DM_ERR_CNT c) = z.rd (DM_ERR_CNT c) :=
    (hrd _ hel (dmErrCnt_apart hc)).trans ((dmaTold_errCnt hc ..).trans (hp.regs _ (lostCounter_dm hel) (not_control_low hel)))
  refine ⟨fun h0 => ⟨?_, ?_⟩, fun h0 hlt => ?_, fun h0 hoff => ?_⟩
  · have hcount : z.dmaCounts c code true = true := by
      unfold State.dmaCounts
      rw [h0]
      rfl
    have hd := hrd _ hdl (dmDoneCnt_apart hc)
    rw [hcount] at hd
    have hpd : p.rdN (DM_DONE_CNT c) = s.rdN (DM_DONE_CNT c) :=
      congrArg BitVec.toNat ((hp.regs _ (lostCounter_dm hdl) (not_control_low hdl)).trans hdone)
    rw [← hpd]
    exact (congrArg BitVec.toNat hd).trans (dmaTold_doneCnt hc detail residue)
  · exact congrArg BitVec.toNat (herrT.trans (herr.resolve_right (absurd h0 ·)))
  · have hfr : (s.dmaFreed c r code).rdN (DM_ERR_CNT c) = s.rdN (DM_ERR_CNT c) := congrArg BitVec.toNat (dmaFreed_errCnt hc)
    rw [hfr] at herrN
    exact (congrArg BitVec.toNat herrT).trans (herrN h0 hlt)
  · have hcont : z.on (DM_CFG c) DM_CFG_ONERR = false := by
      unfold State.on State.get at hoff ⊢
      rw [hcfg]
      exact hoff
    rw [ht, hcont]
    generalize p.dmaTold c r code detail residue (z.dmaCounts c code true) = v
    have hg : v.dmaGoesOn c code false true none = v.dmaStop c 4 1 := by
      unfold State.dmaGoesOn
      dsimp only
      rw [if_neg (by decide), if_pos (by simpa using h0)]
    rw [hg]
    exact ⟨dmaStop_state hc (by decide) _, dmaStop_cause hc _ (by decide)⟩

end

end Sys2Proof.Machine

end

section

namespace Sys2Proof.Machine

/-! ## Descriptors and link words read (R352, R355, R364) -/

section

variable {s t : State} {c : Nat}

/-- A good read of local memory gives the bytes that stand there. -/
theorem busRead_good {a n : Nat} (hw : windowOf a = none) (hg : s.memGood a n = true) (host : List Byte) :
    s.busRead a n .ok host = (s, some (s.rdBytes a n)) := by
  unfold State.busRead
  rw [hw, hg]
  rfl

theorem dmaPark_quiet (hp : s.on (DM_STAT c) DM_STAT_PEND = false) : s.dmaPark c = (s.setWant c .none).setDmState c 3 := by
  refine if_neg fun h => ?_
  obtain ⟨hon, _⟩ := Bool.and_eq_true_iff.1 h
  have hset : ((s.setWant c .none).setDmState c 3).get (DM_STAT c) DM_STAT_PEND = (s.setWant c .none).get (DM_STAT c) DM_STAT_PEND :=
    get_put_apart _ _ _ _ _ (by decide) (by decide)
  have hsame : ((s.setWant c .none).setDmState c 3).on (DM_STAT c) DM_STAT_PEND = s.on (DM_STAT c) DM_STAT_PEND := congrArg (· != 0) hset
  exact absurd (hon.symm.trans (hsame.trans hp)) (by decide)

/-- A channel that parks reads nothing. -/
theorem dmaPark_spec (hp : s.on (DM_STAT c) DM_STAT_PEND = false) :
    (s.dmaPark c).dmState c = 3 ∧ ((s.dmaPark c).dmaAt c).want = .none ∧ s.quiet (s.dmaPark c) [DM_STAT c] := by
  rw [dmaPark_quiet hp]
  have hd := setWant_dmaAt (s := s) (c := c) .none
  have hq := (setWant_engines (s := s) (c := c) (but := [DM_STAT c]) .none).quiet
  generalize s.setWant c .none = z at hd hq
  have ht : z.traffic (z.setDmState c 3) [DM_STAT c] := traffic_put (by simp) _ _
  refine ⟨get_put_same _ _ _ _ (by decide), ?_, hq.trans ht.quiet⟩
  rw [ht.dmaAt, hd]
  rfl

variable {owner : Nat} {d : List Byte} {statBad : Bool}

theorem dmaDesc_eq (ho : s.dmaOwner c = some owner) (hw : windowOf (s.dmaCur c) = none) (hg : s.memGood (s.dmaCur c) 64 = true) (host : List Byte) :
    s.dmaDesc c .ok host statBad =
      if bit (fieldAt (s.rdBytes (s.dmaCur c) 64) 60 4) 31 then
        if s.park.step ≠ 0 then s.setWant c .none
        else match s.reserve (s.readersOf 3 c) with
          | some y => y.dmaAccept c owner (s.rdBytes (s.dmaCur c) 64) statBad
          | none => s.setDmaAt c (s.dmaAt c).stalls
      else s.dmaPark c := by
  unfold State.dmaDesc
  rw [ho, busRead_good hw hg]
  rfl

/-- A descriptor as it is accepted, before its CRC is known. -/
def State.dmaRunOf (s : State) (c : Nat) (d : List Byte) : DmaRun :=
  { addr := s.dmaCur c, desc := d, next := 0, out := [], got := [], written := 0, marked := [], firstErr := none, crc := 0xFFFFFFFF,
    waiting := decide (descKind d ≠ 0), aborting := none, acked := false, flush := none }

/-- A channel that has accepted a descriptor. -/
def DmaCh.takes (ch : DmaCh) (r : DmaRun) : DmaCh := { ch with want := .none, run := some r }

theorem dmaAccept_refused {detail : Nat} (h : s.descRefusal c owner d = some detail) : s.dmaAccept c owner d statBad =
    (s.setDmaAt c ((s.dmaAt c).takes (s.dmaRunOf c d))).dmaEnd c 5 detail 0 (if detail = 1 then 0 else descTotal d) 0 statBad none := by
  unfold State.dmaAccept
  dsimp only
  rw [h]
  rfl

/-- The channel with the accepted descriptor, its CRC begun. -/
def State.dmaTaken (s : State) (c : Nat) (d : List Byte) : State :=
  (s.dmaCrcStart c d).1.setDmaAt c (((s.dmaCrcStart c d).1.dmaAt c).takes { s.dmaRunOf c d with crc := (s.dmaCrcStart c d).2 })

theorem dmaAccept_taken (h : s.descRefusal c owner d = none) : s.dmaAccept c owner d statBad =
    if descKind d = 0 || (s.dmaTaken c d).trigNow (descKind d) (descUnit d) (descArg d) then (s.dmaTaken c d).dmaBegin c
    else (s.dmaTaken c d).setDmState c 2 := by
  unfold State.dmaAccept
  dsimp only
  rw [h]
  rfl

theorem dmaCrcStart_traffic : s.traffic (s.dmaCrcStart c d).1 [DM_STAT c] := by
  unfold State.dmaCrcStart
  split
  · split
    · exact traffic_refl ..
    · exact traffic_put (by simp) _ _
  · exact traffic_refl ..

theorem dmaTaken_engines : s.engines (s.dmaTaken c d) [DM_STAT c] := dmaCrcStart_traffic.engines.trans (engines_setDmaAt _)

theorem dmaTaken_run : ∃ r, ((s.dmaTaken c d).dmaAt c).run = some r ∧ r.desc = d ∧ r.addr = s.dmaCur c ∧ r.waiting = decide (descKind d ≠ 0) := by
  unfold State.dmaTaken
  rw [setDmaAt_dmaAt]
  exact ⟨_, rfl, rfl, rfl, rfl⟩

theorem State.traffic.trigNow (h : s.traffic t but) (kind unit arg : Nat) : t.trigNow kind unit arg = s.trigNow kind unit arg := by
  unfold State.trigNow
  rw [h.same]

theorem setDmaAt_trigNow (v : DmaCh) (kind unit arg : Nat) : (s.setDmaAt c v).trigNow kind unit arg = s.trigNow kind unit arg := rfl

theorem dmaTaken_trigNow (kind unit arg : Nat) : (s.dmaTaken c d).trigNow kind unit arg = s.trigNow kind unit arg := by
  unfold State.dmaTaken
  rw [setDmaAt_trigNow, dmaCrcStart_traffic.trigNow]

/-- A descriptor that passes its checks runs at once, or waits for its trigger. -/
theorem dmaAccept_spec (hc : c < 32) (h : s.descRefusal c owner d = none) :
    ∃ r, ((s.dmaAccept c owner d statBad).dmaAt c).run = some r ∧ r.desc = d ∧ r.addr = s.dmaCur c ∧
      (descKind d = 0 ∨ s.trigNow (descKind d) (descUnit d) (descArg d) = true → r.waiting = false ∧ (s.dmaAccept c owner d statBad).dmState c = 1) ∧
      (¬ (descKind d = 0 ∨ s.trigNow (descKind d) (descUnit d) (descArg d) = true) →
        r.waiting = decide (descKind d ≠ 0) ∧ (s.dmaAccept c owner d statBad).dmState c = 2) ∧
      s.quiet (s.dmaAccept c owner d statBad) (DM_STAT c :: DM_STAGE :: trafficWords) := by
  obtain ⟨r, hr, hd, ha, hw⟩ := dmaTaken_run (s := s) (c := c) (d := d)
  have he := (dmaTaken_engines (s := s) (c := c) (d := d)).quiet.mono (but' := DM_STAT c :: DM_STAGE :: trafficWords) (by simp)
  rw [dmaAccept_taken h, dmaTaken_trigNow]
  generalize s.dmaTaken c d = z at hr he
  by_cases hnow : descKind d = 0 ∨ s.trigNow (descKind d) (descUnit d) (descArg d) = true
  · rw [if_pos (by simpa using hnow)]
    obtain ⟨⟨q, hq, e⟩, hst⟩ := dmaBegin_run hc hr
    exact ⟨q, hq, by rw [e]; exact hd, by rw [e]; exact ha, fun _ => ⟨by rw [e], hst⟩, fun hn => absurd hnow hn, he.trans dmaBegin_engines.quiet⟩
  · rw [if_neg (by simpa using hnow)]
    have ht : z.traffic (z.setDmState c 2) [DM_STAT c] := traffic_put (by simp) _ _
    exact ⟨r, (congrArg DmaCh.run (ht.dmaAt c)).trans hr, hd, ha, fun hn => absurd hn hnow, fun _ => ⟨hw, get_put_same _ _ _ _ (by decide)⟩,
      he.trans (ht.quiet.mono (by simp))⟩

theorem dmaRunOf_addr : (s.dmaRunOf c d).addr = s.dmaCur c := rfl

/-- A descriptor that a check refuses ends with an error. -/
theorem dmaAccept_refused_spec (hc : c < 32) (h : s.descRefusal c owner d ≠ none) (hs : s.takesStatus (s.dmaCur c)) :
    ((s.dmaAccept c owner d false).dmaAt c).run = none ∧ (s.dmaAccept c owner d false).on (DM_STAT c) DM_STAT_ERR = true ∧
    (s.rdN (DM_ERR_CNT c) + 1 < 2 ^ 32 → (s.dmaAccept c owner d false).rdN (DM_ERR_CNT c) = s.rdN (DM_ERR_CNT c) + 1) ∧
    (s.on (DM_CFG c) DM_CFG_ONERR = false →
      (s.dmaAccept c owner d false).dmState c = 4 ∧ (s.dmaAccept c owner d false).get (DM_STAT c) DM_STAT_CAUSE = 1) ∧
    s.works (s.dmaAccept c owner d false) (s.dmaCur c) 64 (dmaEndWords c) := by
  obtain ⟨detail, hd⟩ := Option.ne_none_iff_exists'.1 h
  rw [dmaAccept_refused hd]
  have hr : ((s.setDmaAt c ((s.dmaAt c).takes (s.dmaRunOf c d))).dmaAt c).run = some (s.dmaRunOf c d) := congrArg DmaCh.run (setDmaAt_dmaAt _)
  have he : s.engines (s.setDmaAt c ((s.dmaAt c).takes (s.dmaRunOf c d))) (dmaEndWords c) := engines_setDmaAt _
  have hrd : ∀ a, (s.setDmaAt c ((s.dmaAt c).takes (s.dmaRunOf c d))).rd a = s.rd a := setDmaAt_rd s c _
  have haddr : (s.dmaRunOf c d).addr = s.dmaCur c := dmaRunOf_addr
  generalize s.setDmaAt c ((s.dmaAt c).takes (s.dmaRunOf c d)) = z at hr he hrd
  generalize s.dmaRunOf c d = r at hr haddr
  have hz : z.takesStatus r.addr := by
    rw [haddr]
    exact (he.works (a := 0) (n := 0)).takesStatus hs
  obtain ⟨hworks, hrun, herr⟩ := dmaEnd_ends hc hr 5 detail 0 (if detail = 1 then 0 else descTotal d) 0 false none
  obtain ⟨_, hcnt, hst⟩ := dmaEnd_none (code := 5) hc hr hz detail 0 (if detail = 1 then 0 else descTotal d) 0
  rw [haddr] at hworks
  refine ⟨hrun, bne_iff_ne.2 ?_, fun hlt => ?_, fun hoff => hst (by decide) ?_, he.works.trans hworks⟩
  · rw [herr (by decide)]
    decide
  · have hn : z.rdN (DM_ERR_CNT c) = s.rdN (DM_ERR_CNT c) := congrArg BitVec.toNat (hrd _)
    rw [hn] at hcnt
    exact hcnt (by decide) hlt
  · unfold State.on State.get at hoff ⊢
    rw [hrd]
    exact hoff

/-! ### Link words -/

theorem dmaLink_eq (hw : windowOf (s.dmaLastAt c + 40) = none) (hg : s.memGood (s.dmaLastAt c + 40) 8 = true) (host : List Byte) :
    s.dmaLink c .ok host =
      if bit (leNat (s.rdBytes (s.dmaLastAt c + 40) 8)) 0 then s.dmaPark c
      else (s.setCur c (leNat (s.rdBytes (s.dmaLastAt c + 40) 8) % 2 ^ 42 / 64 * 64)).readDesc c := by
  have h := busRead_good hw hg host
  generalize s.rdBytes (s.dmaLastAt c + 40) 8 = bs at h
  generalize e : @State.dmaLink = f
  delta State.dmaLink at e
  subst e
  beta_reduce
  generalize s.busRead (s.dmaLastAt c + 40) 8 .ok host = p at h ⊢
  subst h
  rfl

/-- A link to another descriptor: it is read where it can be reached. -/
theorem setCur_readDesc (hc : c < 32) (ho : s.dmaOwner c = some owner) {a : Nat} (hmod : a % 64 = 0) (hlt : a < 2 ^ 42) :
    ((s.setCur c a).readDesc c).dmaCur c = a ∧ s.quiet ((s.setCur c a).readDesc c) (DM_STAT c :: DM_CUR_LO c :: DM_CUR_HI c :: controlWords) ∧
    s.seeks ((s.setCur c a).readDesc c) c (s.reaches owner .control a 64) (s.canReserve 3 c) := by
  have hcur := setCur_dmaCur (s := s) (c := c) hmod hlt
  have ht := setCur_traffic (s := s) (c := c) a
  have hev := setCur_ev (s := s) (c := c) a
  have hst : (s.setCur c a).dmState c = s.dmState c := setCur_get hc a (.inl rfl) _
  generalize s.setCur c a = z at hcur ht hev hst
  have hk := readDesc_seeks (s := z) hc ((ht.engines.ownerOf 3 c).trans ho)
  have hlow : ∀ r ∈ [DM_CUR_LO c, DM_CUR_HI c], r < 0x900000 := by
    simp only [DM_CUR_LO, DM_CUR_HI, List.mem_cons, List.not_mem_nil, or_false]
    omega
  rw [hcur, ht.engines.reaches hlow, canReserve_congr hev ht.engines.locket] at hk
  refine ⟨(readDesc_dmaCur hc).trans hcur, (ht.quiet.mono (by simp)).trans (readDesc_engines.quiet.mono fun r hr => ?_),
    ⟨hk.out, fun h => (hk.state h).trans hst, hk.asks, hk.waits⟩⟩
  rcases List.mem_cons.1 hr with rfl | hr
  · simp
  · simp [hr]

end

end Sys2Proof.Machine

end

section

namespace Sys2Proof.Machine

/-! ## Data returned and written (R361, R363) -/

section

variable {s t : State} {c : Nat} {r : DmaRun}

theorem dmaDrain_dry (hr : (s.dmaAt c).run = some r) (hg : r.got = []) (n : Nat) : s.dmaDrain c n = s := by
  cases n with
  | zero => rfl
  | succ n =>
    unfold State.dmaDrain
    dsimp only
    rw [hr]
    dsimp only
    rw [hg]
    rfl

/-- A descriptor whose piece at the front was taken. -/
def DmaRun.pieceTaken (r : DmaRun) (off : Nat) (bs : List Byte) : DmaRun :=
  { r with got := [], written := off + descReadLen r.desc off, crc := if descFlag r.desc 2 then crc32cRun r.crc bs else r.crc }

/-- A channel with a descriptor as it now stands. -/
def DmaCh.runs (ch : DmaCh) (r : DmaRun) : DmaCh := { ch with run := some r }

variable {off : Nat} {bs : List Byte}

/-- With NOWR a piece is only counted. -/
theorem dmaDrain_nowr (hr : (s.dmaAt c).run = some r) (hg : r.got = [(off, some bs)]) (hw : r.written = off) (h5 : descFlag r.desc 5 = true) (n : Nat) :
    s.dmaDrain c (n + 1) = s.setDmaAt c ((s.dmaAt c).runs (r.pieceTaken off bs)) := by
  have hd : s.dmaDrain c (n + 1) = (s.setDmaAt c ((s.dmaAt c).runs (r.pieceTaken off bs))).dmaDrain c n := by
    conv_lhs => unfold State.dmaDrain
    dsimp only
    rw [hr]
    dsimp only
    rw [hg, hw, List.find?_cons_of_pos (by simp)]
    dsimp only
    rw [if_pos h5, List.filter_cons_of_neg (by simp), List.filter_nil]
    rfl
  rw [hd]
  exact dmaDrain_dry (congrArg DmaCh.run (setDmaAt_dmaAt _)) rfl n

/-- A piece that is next goes to its destination. -/
theorem dmaDrain_writes (hr : (s.dmaAt c).run = some r) (hg : r.got = [(off, some bs)]) (hw : r.written = off) (h5 : descFlag r.desc 5 = false)
    (hok : (s.busWrite (descDstAt r.desc off) bs (s.dmClass c) 0 .plain).2 = true) (n : Nat) :
    s.dmaDrain c (n + 1) =
      (s.busWrite (descDstAt r.desc off) bs (s.dmClass c) 0 .plain).1.setDmaAt c ((s.dmaAt c).runs (r.pieceTaken off bs)) := by
  have hd : s.dmaDrain c (n + 1) =
      ((s.busWrite (descDstAt r.desc off) bs (s.dmClass c) 0 .plain).1.setDmaAt c ((s.dmaAt c).runs (r.pieceTaken off bs))).dmaDrain c n := by
    conv_lhs => unfold State.dmaDrain
    dsimp only
    rw [hr]
    dsimp only
    rw [hg, hw, List.find?_cons_of_pos (by simp)]
    dsimp only
    rw [if_neg (by rw [h5]; decide), List.filter_cons_of_neg (by simp), List.filter_nil]
    generalize s.busWrite (descDstAt r.desc off) bs (s.dmClass c) 0 .plain = x at hok ⊢
    rw [if_pos hok]
    rfl
  rw [hd]
  exact dmaDrain_dry (congrArg DmaCh.run (setDmaAt_dmaAt _)) rfl n

/-- What later issues leave of a descriptor. -/
structure DmaRun.keepsWork (r q : DmaRun) : Prop where
  desc : q.desc = r.desc
  written : q.written = r.written
  marked : q.marked = r.marked
  firstErr : q.firstErr = r.firstErr

theorem dmaFlushRead_spec (hr : (s.dmaAt c).run = some r) :
    s.engines (s.dmaFlushRead c) controlWords ∧ ∃ q, ((s.dmaFlushRead c).dmaAt c).run = some q ∧ r.keepsWork q := by
  unfold State.dmaFlushRead
  dsimp only
  rw [hr]
  dsimp only
  split
  · exact ⟨(unitIssue_traffic ..).engines.trans (engines_setDmaAt _), _, congrArg DmaCh.run (setDmaAt_dmaAt _), rfl, rfl, rfl, rfl⟩
  · exact ⟨engines_refl .., r, hr, rfl, rfl, rfl, rfl⟩

/-- A descriptor whose read came back. -/
def DmaRun.gets (r : DmaRun) (off : Nat) (bs : List Byte) : DmaRun :=
  { r with out := r.out.filter (fun x => x != off), got := [(off, some bs)] }

theorem dmaReturn_eq (hr : (s.dmaAt c).run = some r) (hout : off ∈ r.out) (hq : s.qHolds (s.dmQueue c) c off = false) (hab : r.aborting = none)
    (hgot : r.got = []) (hw : windowOf (descSrcAt r.desc off) = none) (hg : s.memGood (descSrcAt r.desc off) (descReadLen r.desc off) = true)
    (host : List Byte) : s.dmaReturn c off .ok host =
      (((s.setDmaAt c ((s.dmaAt c).runs (r.gets off (s.rdBytes (descSrcAt r.desc off) (descReadLen r.desc off))))).dmaDrain c 129).dmaFlushRead
        c).issueReads 129 := by
  have hb := busRead_good hw hg host
  generalize s.rdBytes (descSrcAt r.desc off) (descReadLen r.desc off) = bs at hb
  have hno : ¬ ((!r.out.contains off || s.qHolds (s.dmQueue c) c off) = true) := by
    rw [hq, List.contains_iff_mem.2 hout]
    decide
  unfold State.dmaReturn
  dsimp only
  rw [hr]
  dsimp only
  rw [if_neg hno]
  generalize s.busRead (descSrcAt r.desc off) (descReadLen r.desc off) .ok host = p at hb
  subst hb
  dsimp only
  rw [if_neg (by rw [hab]; decide), hgot]
  rfl

/-- After the drain the reads go on, and what was written stays. -/
theorem drained_spec {q : DmaRun} (hq : (s.dmaAt c).run = some q) : ∃ w, (((s.dmaFlushRead c).issueReads 129).dmaAt c).run = some w ∧
    q.keepsWork w ∧ s.engines ((s.dmaFlushRead c).issueReads 129) (DM_STAGE :: trafficWords) := by
  obtain ⟨he, v, hv, hk⟩ := dmaFlushRead_spec hq
  obtain ⟨w, hw, ew⟩ := (issueReads_advances (s := s.dmaFlushRead c) 129 c).run v hv
  refine ⟨w, hw, ?_, (he.mono fun a ha => List.mem_cons_of_mem _ (controlWords_traffic a ha)).trans (issueReads_engines _)⟩
  obtain ⟨hd, hwr, hm, hf⟩ := hk
  rw [ew]
  exact ⟨hd, hwr, hm, hf⟩

/-! ## DONE (R361) -/

theorem dmaDone_eq (hr : (s.dmaAt c).run = some r) (hm : r.marked = []) (hf : descFlag r.desc 1 = false ∨ toWindow r.desc = false)
    (h4 : descFlag r.desc 4 = false) (wrFirst flushOk : Bool) : ∃ v crcOut, s.traffic v [] ∧
      s.dmaDone c [] wrFirst flushOk = v.dmaEnd c 0 0 0 0 crcOut false none := by
  refine ⟨if r.flush = some true then { s with flying := s.flying.erase ((descDstAt r.desc (descTotal r.desc - 1)) / 4 * 4, 4) } else s,
    if descFlag r.desc 2 then r.crc ^^^ 0xFFFFFFFF else 0, traffic_ite (traffic_flying _) (traffic_refl ..), ?_⟩
  have hfl : ∀ b, (descFlag r.desc 1 && toWindow r.desc && b) = false := by
    intro b
    rcases hf with h | h <;> rw [h] <;> simp
  unfold State.dmaDone
  rw [hr]
  dsimp only
  rw [hfl, hm, h4]
  rfl

end

end Sys2Proof.Machine

end

section

namespace Sys2Proof.Machine

/-! ## The obligation -/

section

variable {s : State} {c : Nat} {r : DmaRun} {off : Nat}

/-- A read of a descriptor's piece, returned and put in its place. -/
theorem dmaReturn_writes (hr : (s.dmaAt c).run = some r) (hout : off ∈ r.out) (hq : s.qHolds (s.dmQueue c) c off = false) (hab : r.aborting = none)
    (hgot : r.got = []) (hwr : r.written = off) (hw : windowOf (descSrcAt r.desc off) = none)
    (hg : s.memGood (descSrcAt r.desc off) (descReadLen r.desc off) = true) (h5 : descFlag r.desc 5 = false)
    (hdw : windowOf (descDstAt r.desc off) = none) (hup : s.subsUp = true) (hp : s.poisoned (descDstAt r.desc off) (descReadLen r.desc off) = false) :
    ∃ q, ((s.dmaReturn c off .ok []).dmaAt c).run = some q ∧
      (s.dmaReturn c off .ok []).rdBytes (descDstAt r.desc off) (descReadLen r.desc off) = s.rdBytes (descSrcAt r.desc off) (descReadLen r.desc off) ∧
      q.desc = r.desc ∧ q.written = off + descReadLen r.desc off ∧ q.marked = r.marked ∧ q.firstErr = r.firstErr ∧
      s.works (s.dmaReturn c off .ok []) (descDstAt r.desc off) (descReadLen r.desc off) (DM_STAGE :: trafficWords) := by
  have hlen : (s.rdBytes (descSrcAt r.desc off) (descReadLen r.desc off)).length = descReadLen r.desc off := by simp [State.rdBytes]
  rw [dmaReturn_eq hr hout hq hab hgot hw hg []]
  generalize s.rdBytes (descSrcAt r.desc off) (descReadLen r.desc off) = bs at hlen
  have hd := setDmaAt_dmaAt (s := s) (c := c) ((s.dmaAt c).runs (r.gets off bs))
  have he : s.engines (s.setDmaAt c ((s.dmaAt c).runs (r.gets off bs))) [] := engines_setDmaAt _
  generalize s.setDmaAt c ((s.dmaAt c).runs (r.gets off bs)) = y at hd he
  have hz := he.works (a := descDstAt r.desc off) (n := descReadLen r.desc off)
  have hrun : (y.dmaAt c).run = some (r.gets off bs) := by
    rw [hd]
    rfl
  have hup' := hz.subsUp.trans hup
  have hok : (y.busWrite (descDstAt r.desc off) bs (y.dmClass c) 0 .plain).2 = true :=
    busWrite_good hdw hup' (by rw [hlen]; exact hz.unpoisoned hp)
  have hm := busWrite_moves (s := y) (descDstAt r.desc off) bs (y.dmClass c) 0 .plain
  have hh : (y.busWrite (descDstAt r.desc off) bs (y.dmClass c) 0 .plain).1.holds (descDstAt r.desc off) bs := busWrite_holds hdw hup'
  rw [hlen] at hm
  rw [dmaDrain_writes (s := y) hrun rfl hwr h5 hok 128]
  change (y.busWrite (descDstAt (r.gets off bs).desc off) bs (y.dmClass c) 0 .plain).1.holds _ _ at hh
  change y.moves (y.busWrite (descDstAt (r.gets off bs).desc off) bs (y.dmClass c) 0 .plain).1 _ _ _ at hm
  generalize (y.busWrite (descDstAt (r.gets off bs).desc off) bs (y.dmClass c) 0 .plain).1 = z at hm hh
  have hd' := setDmaAt_dmaAt (s := z) (c := c) ((y.dmaAt c).runs ((r.gets off bs).pieceTaken off bs))
  have he' : z.engines (z.setDmaAt c ((y.dmaAt c).runs ((r.gets off bs).pieceTaken off bs))) [] := engines_setDmaAt _
  generalize z.setDmaAt c ((y.dmaAt c).runs ((r.gets off bs).pieceTaken off bs)) = v at hd' he'
  obtain ⟨w, hwrun, hk, hwe⟩ := drained_spec (s := v) (c := c) (q := (r.gets off bs).pieceTaken off bs) (by rw [hd']; rfl)
  refine ⟨w, hwrun, ?_, hk.desc, hk.written, hk.marked, hk.firstErr, ?_⟩
  · rw [rdBytes_memSame hwe.quiet.1, rdBytes_memSame he'.quiet.1, ← hlen]
    exact hh.rdBytes
  · exact ((hz.mono (by simp)).trans (hm.works.mono fun a ha => List.mem_cons_of_mem _ (windowWords_traffic a ha))).trans
      ((he'.works.mono (by simp)).trans hwe.works)

/-- With NOWR a read that returns only counts. -/
theorem dmaReturn_nowr (hr : (s.dmaAt c).run = some r) (hout : off ∈ r.out) (hq : s.qHolds (s.dmQueue c) c off = false) (hab : r.aborting = none)
    (hgot : r.got = []) (hwr : r.written = off) (hw : windowOf (descSrcAt r.desc off) = none)
    (hg : s.memGood (descSrcAt r.desc off) (descReadLen r.desc off) = true) (h5 : descFlag r.desc 5 = true) :
    ∃ q, ((s.dmaReturn c off .ok []).dmaAt c).run = some q ∧ q.desc = r.desc ∧ q.written = off + descReadLen r.desc off ∧ q.marked = r.marked ∧
      s.quiet (s.dmaReturn c off .ok []) (DM_STAGE :: trafficWords) := by
  rw [dmaReturn_eq hr hout hq hab hgot hw hg []]
  generalize s.rdBytes (descSrcAt r.desc off) (descReadLen r.desc off) = bs
  have hd := setDmaAt_dmaAt (s := s) (c := c) ((s.dmaAt c).runs (r.gets off bs))
  have he : s.engines (s.setDmaAt c ((s.dmaAt c).runs (r.gets off bs))) (DM_STAGE :: trafficWords) := engines_setDmaAt _
  generalize s.setDmaAt c ((s.dmaAt c).runs (r.gets off bs)) = y at hd he
  have hrun : (y.dmaAt c).run = some (r.gets off bs) := by
    rw [hd]
    rfl
  rw [dmaDrain_nowr (s := y) hrun rfl hwr h5 128]
  have hd' := setDmaAt_dmaAt (s := y) (c := c) ((y.dmaAt c).runs ((r.gets off bs).pieceTaken off bs))
  have he' : y.engines (y.setDmaAt c ((y.dmaAt c).runs ((r.gets off bs).pieceTaken off bs))) (DM_STAGE :: trafficWords) := engines_setDmaAt _
  generalize y.setDmaAt c ((y.dmaAt c).runs ((r.gets off bs).pieceTaken off bs)) = v at hd' he'
  obtain ⟨w, hwrun, hk, hwe⟩ := drained_spec (s := v) (c := c) (q := (r.gets off bs).pieceTaken off bs) (by rw [hd']; rfl)
  exact ⟨w, hwrun, hk.desc, hk.written, hk.marked, ((he.trans he').trans hwe).quiet⟩

end

section

variable {s y : State} {c owner : Nat} {d : List Byte} (now : Nat)

/-- A descriptor read that comes back good, seen from the state before. -/
theorem exec_descriptorRead {c : Fin 32} (hwant : (s.dmaAt c.val).want = .entry) (hup : s.engUp = true) (hab : s.abortWaits c.val = false)
    (ho : s.dmaOwner c.val = some owner) (hw : windowOf (s.dmaCur c.val) = none) (hg : s.memGood (s.dmaCur c.val) 64 = true) (statBad : Bool) :
    exec (.dmaDescriptorRead now c ⟨.ok, statBad⟩ []) s = .next
      (if bit (fieldAt (s.rdBytes (s.dmaCur c.val) 64) 60 4) 31 then
        if s.park.step ≠ 0 then (s.tick now).setWant c.val .none
        else match (s.tick now).reserve (s.readersOf 3 c.val) with
          | some y => y.dmaAccept c.val owner (s.rdBytes (s.dmaCur c.val) 64) statBad
          | none => (s.tick now).setDmaAt c.val (s.dmaAt c.val).stalls
      else (s.tick now).dmaPark c.val) := by
  have hcond : (decide (((s.tick now).dmaAt c.val).want = .entry) && (s.tick now).engUp) = true := by
    rw [Bool.and_eq_true]
    exact ⟨decide_eq_true hwant, hup⟩
  have hno : ¬ ((s.tick now).abortWaits c.val = true) := by
    rw [show (s.tick now).abortWaits c.val = false from hab]
    decide
  have heq : (s.tick now).dmaDesc c.val .ok [] statBad = _ := dmaDesc_eq (s := s.tick now) ho hw hg []
  exact congrArg Host.Outcome.next ((if_pos hcond).trans ((if_neg hno).trans heq))

theorem onlyEvents_dmaCur (hc : c < 32) (h : s.onlyEvents y) : y.dmaCur c = s.dmaCur c := by
  unfold State.dmaCur
  rw [onlyEvents_get h _ (lostCounter_dm (dmWords_low hc).2.2.2.2.1), onlyEvents_get h _ (lostCounter_dm (dmWords_low hc).2.2.2.2.2.1)]

end

/-- Settles O28: descriptors and links are read and accepted, refused or left, and data goes to its destination in transfer order. -/
theorem dmaDataCompletes : Obligations.DmaDataCompletes := by
  unfold Obligations.DmaDataCompletes
  intro s now c hup x stat
  have hx : ∀ but, s.quiet x but := fun but => (quiet_tick s now).mono (by simp)
  have hc := c.isLt
  refine ⟨fun owner hwant hab ho hw hg => ?_, fun hwant hab hw hg => ?_, fun r off hr hout hq hab hgot hwr hw hg => ?_,
    fun r wrFirst flushOk hdue hr hm hf h4 hs => ?_⟩
  · have hrun := fun statBad => exec_descriptorRead now hwant hup hab ho hw hg statBad
    refine ⟨fun hbit hpend statBad => ?_, fun hbit hpark statBad => ?_, fun y hbit hpark hres => ?_⟩
    · obtain ⟨hst, hwn, hq⟩ := dmaPark_spec (s := x) (c := c.val) hpend
      exact ⟨_, (hrun statBad).trans (congrArg Host.Outcome.next (if_neg (by rw [hbit]; decide))), hst, hwn, (hx _).trans hq⟩
    · have hd := setWant_dmaAt (s := x) (c := c.val) .none
      exact ⟨_, (hrun statBad).trans (congrArg Host.Outcome.next ((if_pos hbit).trans (if_pos hpark))), congrArg DmaCh.want hd,
        (congrArg DmaCh.run hd).trans rfl, (hx _).trans (setWant_engines _).quiet⟩
    · have hy : x.onlyEvents y := reserve_only hres
      have hcur : y.dmaCur c.val = x.dmaCur c.val := onlyEvents_dmaCur hc hy
      have htrig : ∀ k u a, y.trigNow k u a = x.trigNow k u a := (traffic_events (but := []) hy).trigNow
      have hgo : ∀ statBad, exec (.dmaDescriptorRead now c ⟨.ok, statBad⟩ []) s =
          .next (y.dmaAccept c.val owner (s.rdBytes (s.dmaCur c.val) 64) statBad) := fun statBad => by
        rw [hrun, hbit, hpark, hres]
        rfl
      generalize s.rdBytes (s.dmaCur c.val) 64 = d at hgo
      refine ⟨fun hok statBad => ?_, fun hbad hs => ?_⟩
      · obtain ⟨r, hr, hd, ha, hnow, hlater, hq⟩ := dmaAccept_spec (s := y) (statBad := statBad) hc hok
        rw [htrig] at hnow hlater
        exact ⟨_, r, hgo statBad, hr, hd, ha.trans hcur, hnow, hlater, ((hx _).trans ((onlyEvents_quiet hy).mono (by simp))).trans hq⟩
      · have hxs : x.takesStatus (s.dmaCur c.val) := hs
        have hys : y.takesStatus (y.dmaCur c.val) := by
          rw [hcur]
          exact ((traffic_events (but := []) hy).works (a := 0) (n := 0)).takesStatus hxs
        obtain ⟨hnone, herr, hcnt, hst, hwk⟩ := dmaAccept_refused_spec (s := y) hc hbad hys
        rw [hcur] at hwk
        have hcntY : y.rdN (DM_ERR_CNT c.val) = s.rdN (DM_ERR_CNT c.val) :=
          congrArg BitVec.toNat (hy.2 _ (lostCounter_dm (dmWords_low hc).2.2.2.2.2.2.2.1))
        have hcfgY : y.on (DM_CFG c.val) DM_CFG_ONERR = s.on (DM_CFG c.val) DM_CFG_ONERR :=
          congrArg (· != 0) (onlyEvents_get hy _ (lostCounter_dm (dmWords_low hc).2.2.2.2.2.2.2.2))
        rw [hcntY] at hcnt
        rw [hcfgY] at hst
        have hmem := (hx []).1
        have hstore := (hx []).2.1
        have hyw := ((traffic_events (but := dmaEndWords c.val) hy).works (a := s.dmaCur c.val) (n := 64)).trans hwk
        exact ⟨_, hgo false, hnone, herr, hcnt, hst, hyw.mem, hyw.store⟩
  · have hcond : (decide ((x.dmaAt c.val).want = .link) && x.engUp) = true := by
      rw [Bool.and_eq_true]
      exact ⟨decide_eq_true hwant, hup⟩
    have hno : ¬ (x.abortWaits c.val = true) := by
      rw [show x.abortWaits c.val = false from hab]
      decide
    have heq : x.dmaLink c.val .ok [] = _ := dmaLink_eq (s := x) hw hg []
    have hrun : exec (.dmaLinkRead now c .ok []) s = _ := congrArg Host.Outcome.next ((if_pos hcond).trans ((if_neg hno).trans heq))
    refine ⟨fun hbit hpend => ?_, fun owner hbit ho => ?_⟩
    · obtain ⟨hst, hwn, hq⟩ := dmaPark_spec (s := x) (c := c.val) hpend
      exact ⟨_, hrun.trans (congrArg Host.Outcome.next (if_pos hbit)), hst, hwn, (hx _).trans hq⟩
    · obtain ⟨hcur, hq, hk⟩ := setCur_readDesc (s := x) (c := c.val) hc ho
        (a := leNat (s.rdBytes (s.dmaLastAt c.val + 40) 8) % 2 ^ 42 / 64 * 64) (Nat.mul_mod_left ..) (by
          have := Nat.mod_lt (leNat (s.rdBytes (s.dmaLastAt c.val + 40) 8)) (show 0 < 2 ^ 42 by decide)
          omega)
      exact ⟨_, hrun.trans (congrArg Host.Outcome.next (if_neg fun h => Bool.false_ne_true (hbit.symm.trans h))), hcur, (hx _).trans hq,
        fun h => ⟨hk.state h, hk.asks h, hk.waits h⟩, fun h => ⟨(hk.out h).1, (hk.out h).2.1⟩⟩
  · have hrun : exec (.dmaReadReturn now c off .ok []) s = .next (x.dmaReturn c.val off .ok []) := congrArg Host.Outcome.next (if_pos hup)
    refine ⟨fun h5 hdw hsubs hp => ?_, fun h5 => ?_⟩
    · obtain ⟨q, hqr, hbytes, hd, hwn, hm, hf, hwk⟩ := dmaReturn_writes (s := x) hr hout hq hab hgot hwr hw hg h5 hdw hsubs hp
      exact ⟨_, q, hrun, hbytes, hwk.mem, hqr, hd, hwn, hm, hf, hwk.store, hwk.regs⟩
    · obtain ⟨q, hqr, hd, hwn, hm, hquiet⟩ := dmaReturn_nowr (s := x) hr hout hq hab hgot hwr hw hg h5
      exact ⟨_, q, hrun, hqr, hd, hwn, hm, (hx _).trans hquiet⟩
  · have hrun : exec (.dmaDone now c ⟨[], wrFirst⟩ flushOk) s = .next (x.dmaDone c.val [] wrFirst flushOk) := congrArg Host.Outcome.next (if_pos hdue)
    obtain ⟨v, crcOut, hv, he⟩ := dmaDone_eq (s := x) hr hm hf h4 wrFirst flushOk
    have hvr : (v.dmaAt c.val).run = some r := (congrArg DmaCh.run (hv.dmaAt c.val)).trans hr
    have hvw := hv.works (a := r.addr) (n := 64)
    obtain ⟨hworks, hnone, _⟩ := dmaEnd_ends hc hvr 0 0 0 0 crcOut false none
    obtain ⟨hdone, herr⟩ := (dmaEnd_none (code := 0) hc hvr (hvw.takesStatus (show x.takesStatus r.addr from hs)) 0 0 0 crcOut).1 rfl
    have hrd : ∀ a, a < 0x601000 → v.rdN a = s.rdN a := fun a ha => congrArg BitVec.toNat (hv.regs a (lostCounter_dm ha) (by simp))
    rw [hrd _ (dmWords_low hc).2.2.2.2.2.2.1] at hdone
    rw [hrd _ (dmWords_low hc).2.2.2.2.2.2.2.1] at herr
    rw [← he] at hnone hdone herr hworks
    have hall := (hvw.mono (more := dmaEndWords c.val) (by simp)).trans hworks
    exact ⟨_, hrun, hnone, hdone, herr, hall.mem, hall.store⟩

end Sys2Proof.Machine

end

section

namespace Sys2Proof.Machine

/-! ## Blit channels: what each operation does -/

section

variable {s t : State} {c d : Nat}

theorem blWords_low (hc : c < 8) : BL_STAT c < 0x701000 ∧ BL_CTRL c < 0x701000 ∧ BL_DB c < 0x701000 ∧ BL_CFG c < 0x701000 ∧ BL_CONS c < 0x701000 ∧
    BL_DONE_CNT c < 0x701000 ∧ BL_ERR_CNT c < 0x701000 ∧ BL_WMARK c < 0x701000 ∧ BL_SLIP_CNT c < 0x701000 := by
  simp only [BL_STAT, BL_CTRL, BL_DB, BL_CFG, BL_CONS, BL_DONE_CNT, BL_ERR_CNT, BL_WMARK, BL_SLIP_CNT]
  omega

theorem lostCounter_bl {a : Nat} (h : a < 0x701000) : lostCounter a = false := lostCounter_low (by omega)

theorem not_traffic_bl {a : Nat} (h : a < 0x701000) : a ∉ trafficWords := not_traffic_low (by omega)

theorem not_control_bl {a : Nat} (h : a < 0x701000) : a ∉ controlWords := fun hm => not_traffic_bl h (controlWords_traffic _ hm)

theorem setBlitAt_blitAt (v : BlitCh) : (s.setBlitAt c v).blitAt c = v := by rw [blitAt_setBlitAt, if_pos rfl]

theorem setBlitAt_get (v : BlitCh) (a : Nat) (f : Fld) : (s.setBlitAt c v).get a f = s.get a f := rfl

theorem setBlitAt_ev (v : BlitCh) : (s.setBlitAt c v).ev = s.ev := rfl

/-! ### HALTED (R388) -/

/-- A channel without a read and without an overrun. -/
def BlitCh.halts (ch : BlitCh) : BlitCh := { ch with reading := false, overrun := false }

/-- The channel as it halts, before its state is shown. -/
def State.blitQuiet (s : State) (c : Nat) : State :=
  { s.setBlitAt c (s.blitAt c).halts with flying := s.flying.erase (s.jobAddr c, 64) }

theorem blitQuiet_blitAt : (s.blitQuiet c).blitAt c = (s.blitAt c).halts :=
  (State.traffic.blitAt (traffic_flying (but := []) _) c).trans (setBlitAt_blitAt _)

theorem blitQuiet_engines {but : List Nat} : s.engines (s.blitQuiet c) but := (engines_setBlitAt _).trans (traffic_flying _).engines

/-- The channel halted, before BLIT_STATE is posted. -/
def State.blitHalted (s : State) (c cause : Nat) : State := ((s.blitQuiet c).setBlState c 4).put (BL_STAT c) BL_STAT_CAUSE cause

theorem blitHalted_traffic (cause : Nat) : (s.blitQuiet c).traffic (s.blitHalted c cause) [BL_STAT c] :=
  (traffic_put (by simp) _ _).trans (traffic_put (by simp) _ _)

theorem blitHalt_traffic (cause : Nat) (job : Option (Nat × Nat × Nat)) : (s.blitHalted c cause).traffic (s.blitHalt c cause job) [] := post_traffic ..

theorem blitHalt_engines (cause : Nat) (job : Option (Nat × Nat × Nat)) : s.engines (s.blitHalt c cause job) [BL_STAT c] :=
  blitQuiet_engines.trans ((blitHalted_traffic cause).trans ((blitHalt_traffic cause job).mono (by simp))).engines

theorem blitHalt_blitAt (cause : Nat) (job : Option (Nat × Nat × Nat)) : (s.blitHalt c cause job).blitAt c = (s.blitAt c).halts := by
  rw [(blitHalt_traffic cause job).blitAt, (blitHalted_traffic cause).blitAt, blitQuiet_blitAt]

theorem blitHalt_run (cause : Nat) (job : Option (Nat × Nat × Nat)) : ((s.blitHalt c cause job).blitAt c).run = (s.blitAt c).run := by
  rw [blitHalt_blitAt]
  rfl

theorem blitHalt_prod (cause : Nat) (job : Option (Nat × Nat × Nat)) : ((s.blitHalt c cause job).blitAt c).prod = (s.blitAt c).prod := by
  rw [blitHalt_blitAt]
  rfl

theorem blitHalt_get (hc : c < 8) (cause : Nat) (job : Option (Nat × Nat × Nat)) (f : Fld) :
    (s.blitHalt c cause job).get (BL_STAT c) f = (s.blitHalted c cause).get (BL_STAT c) f :=
  (blitHalt_traffic cause job).quiet.get (lostCounter_bl (blWords_low hc).1) (by simp) f

theorem blitHalt_state (hc : c < 8) (cause : Nat) (job : Option (Nat × Nat × Nat)) : (s.blitHalt c cause job).blState c = 4 := by
  refine (blitHalt_get hc cause job _).trans ?_
  unfold State.blitHalted
  rw [get_put_apart _ _ _ _ _ (by decide) (by decide)]
  exact get_put_same _ _ _ _ (by decide)

theorem blitHalt_cause (hc : c < 8) {cause : Nat} (h : cause < 16) (job : Option (Nat × Nat × Nat)) :
    (s.blitHalt c cause job).get (BL_STAT c) BL_STAT_CAUSE = cause := by
  refine (blitHalt_get hc cause job _).trans ?_
  unfold State.blitHalted
  exact (get_put_same _ _ _ _ (by decide)).trans (Nat.mod_eq_of_lt h)

/-- A field of BL_STAT apart from STATE and CAUSE. -/
def blStatOther (f : Fld) : Prop := (f.lo + f.w ≤ 0 ∨ 3 ≤ f.lo) ∧ (f.lo + f.w ≤ 4 ∨ 8 ≤ f.lo)

theorem setBlState_other (st : Nat) {f : Fld} (hf : blStatOther f) : (s.setBlState c st).get (BL_STAT c) f = s.get (BL_STAT c) f :=
  get_put_apart _ _ _ _ _ (by decide) hf.1

theorem blitHalt_other (hc : c < 8) (cause : Nat) (job : Option (Nat × Nat × Nat)) {f : Fld} (hf : blStatOther f) :
    (s.blitHalt c cause job).get (BL_STAT c) f = s.get (BL_STAT c) f := by
  refine (blitHalt_get hc cause job f).trans ?_
  unfold State.blitHalted
  rw [get_put_apart _ _ _ _ _ (by decide) hf.2, setBlState_other _ hf]
  exact (blitQuiet_engines (but := [])).quiet.get (lostCounter_bl (blWords_low hc).1) (by simp) f

/-! ### The next job (R377) -/

/-- A channel that reads its job. -/
def BlitCh.asks (ch : BlitCh) : BlitCh := { ch with reading := true }

/-- The channel's job read, issued. -/
def State.blitRead (s : State) (c : Nat) : State := (s.setBlitAt c (s.blitAt c).asks).unitIssue (s.jobAddr c) 64 .besteffort

theorem blitRead_traffic : (s.setBlitAt c (s.blitAt c).asks).traffic (s.blitRead c) controlWords := unitIssue_traffic ..

theorem blitRead_blitAt : (s.blitRead c).blitAt c = (s.blitAt c).asks := by rw [blitRead_traffic.blitAt, setBlitAt_blitAt]

theorem blitRead_engines : s.engines (s.blitRead c) controlWords := (engines_setBlitAt _).trans blitRead_traffic.engines

theorem blitRead_stat (hc : c < 8) (f : Fld) : (s.blitRead c).get (BL_STAT c) f = s.get (BL_STAT c) f :=
  (blitRead_traffic.quiet.get (lostCounter_bl (blWords_low hc).1) (not_control_bl (blWords_low hc).1) f).trans (setBlitAt_get ..)

/-- Whether an idle channel has a job to read. -/
def State.blitReady (s : State) (c : Nat) : Bool :=
  s.blState c == 1 && !(s.blitAt c).reading && s.park.step == 0 && (s.blitAt c).prod != s.blCons c

theorem blitNext_eq {owner : Nat} (ho : s.blitOwner c = some owner) : s.blitNext c =
    if s.blitReady c then
      if s.blitOverrun c (s.blitAt c).prod then s.blitHalt c 5 none
      else if !s.blitRingOk c owner then s.blitHalt c 2 none
      else if s.canReserve 4 c then s.blitRead c else s
    else s := by
  unfold State.blitNext
  dsimp only
  rw [ho]
  rfl

theorem blitNext_none (ho : s.blitOwner c = none) : s.blitNext c = s := by
  unfold State.blitNext
  dsimp only
  rw [ho]

theorem blitNext_rests (h : s.blitReady c = false) : s.blitNext c = s := by
  cases ho : s.blitOwner c with
  | none => exact blitNext_none ho
  | some owner =>
    rw [blitNext_eq ho, h]
    exact if_neg Bool.false_ne_true

/-- What holds of each way on to the next job holds of `blitNext`. -/
theorem blitNext_ind {P : State → Prop} (hs : P s) (hhalt : ∀ cause, P (s.blitHalt c cause none)) (hread : P (s.blitRead c)) : P (s.blitNext c) := by
  cases ho : s.blitOwner c with
  | none =>
    rw [blitNext_none ho]
    exact hs
  | some owner =>
    rw [blitNext_eq ho]
    split
    · split
      · exact hhalt 5
      · split
        · exact hhalt 2
        · split
          · exact hread
          · exact hs
    · exact hs

theorem blitNext_engines : s.engines (s.blitNext c) (BL_STAT c :: controlWords) :=
  blitNext_ind (P := fun t => s.engines t (BL_STAT c :: controlWords)) (engines_refl ..) (fun cause => (blitHalt_engines cause none).mono (by simp))
    (blitRead_engines.mono fun _ ha => List.mem_cons_of_mem _ ha)

theorem blitNext_other (hc : c < 8) {f : Fld} (hf : blStatOther f) : (s.blitNext c).get (BL_STAT c) f = s.get (BL_STAT c) f :=
  blitNext_ind (P := fun t => t.get (BL_STAT c) f = s.get (BL_STAT c) f) rfl (fun cause => blitHalt_other hc cause none hf) (blitRead_stat hc f)

theorem blitNext_run : ((s.blitNext c).blitAt c).run = (s.blitAt c).run :=
  blitNext_ind (P := fun t => (t.blitAt c).run = (s.blitAt c).run) rfl (fun cause => blitHalt_run cause none)
    (by rw [blitRead_blitAt]; rfl)

theorem blitNext_prod : ((s.blitNext c).blitAt c).prod = (s.blitAt c).prod :=
  blitNext_ind (P := fun t => (t.blitAt c).prod = (s.blitAt c).prod) rfl (fun cause => blitHalt_prod cause none)
    (by rw [blitRead_blitAt]; rfl)

/-! ### Triggers and channels without a job -/

theorem issueRead_blitAt (e : Nat) : (s.issueRead e).blitAt c = s.blitAt c := by
  cases hr : (s.dmaAt e).run with
  | none => rw [issueRead_idle hr]
  | some r => exact ((issueRead_traffic hr).blitAt c).trans rfl

theorem issueReads_blitAt (n : Nat) : (s.issueReads n).blitAt c = s.blitAt c :=
  issueReads_keeps (P := fun t => t.blitAt c = s.blitAt c) (fun _ e _ h => (issueRead_blitAt e).trans h) (fun _ h => (showStage_traffic.blitAt c).trans h) n rfl

theorem dmaBegin_blitAt : (s.dmaBegin d).blitAt c = s.blitAt c := by
  cases hr : (s.dmaAt d).run with
  | none => rw [dmaBegin_idle hr]
  | some r =>
    rw [dmaBegin_eq hr, issueReads_blitAt, (traffic_put (but := [DM_STAT d]) (by simp) _ _).blitAt]
    rfl

theorem dmaHears_blitAt (kind unit arg : Nat) : (s.dmaHears kind unit arg d).blitAt c = s.blitAt c := by
  unfold State.dmaHears
  split
  · split
    · exact dmaBegin_blitAt
    · rfl
  · rfl

theorem setBlitAt_other (h : c ≠ d) (v : BlitCh) : (s.setBlitAt d v).blitAt c = s.blitAt c := by rw [blitAt_setBlitAt, if_neg h]

theorem blitBegin_other (h : c ≠ d) : (s.blitBegin d).blitAt c = s.blitAt c := by
  cases hr : (s.blitAt d).run with
  | none => rw [blitBegin_idle hr]
  | some r => rw [(blitBegin_traffic hr).blitAt, setBlitAt_other h]

theorem blitTrigger_other (h : c ≠ d) : (s.blitTrigger d).blitAt c = s.blitAt c := by
  unfold State.blitTrigger
  dsimp only
  split
  · split
    · exact (blitBegin_other h).trans (setBlitAt_other h _)
    · exact setBlitAt_other h _
  · rfl

theorem blitHears_other (kind unit arg : Nat) (h : c ≠ d) : (s.blitHears kind unit arg d).blitAt c = s.blitAt c := by
  unfold State.blitHears
  split
  · split
    · exact blitTrigger_other h
    · rfl
  · rfl

theorem blitHears_idle (kind unit arg : Nat) (h : (s.blitAt c).run = none) : s.blitHears kind unit arg c = s := by
  unfold State.blitHears
  rw [h]

theorem blStat_other (hc : c < 8) (hne : c ≠ d) : BL_STAT c ∉ BL_STAT d :: trafficWords := by
  intro hm
  rcases List.mem_cons.1 hm with h | hm
  · simp only [BL_STAT] at h
    omega
  · exact not_traffic_bl (blWords_low hc).1 hm

theorem blStat_dmHears (hc : c < 8) (hd : d < 32) : BL_STAT c ∉ DM_STAT d :: DM_STAGE :: trafficWords := by
  intro hm
  rcases List.mem_cons.1 hm with h | hm
  · simp only [BL_STAT, DM_STAT] at h
    omega
  · rcases List.mem_cons.1 hm with h | hm
    · simp only [BL_STAT, DM_STAGE] at h
      omega
    · exact not_traffic_bl (blWords_low hc).1 hm

/-- A blit channel as before, and its state. -/
structure State.blitSame (s t : State) (c : Nat) : Prop where
  at_ : t.blitAt c = s.blitAt c
  stat : t.rd (BL_STAT c) = s.rd (BL_STAT c)

/-- No trigger moves a channel without a job. -/
theorem trigger_blitSame (hc : c < 8) (hr : (s.blitAt c).run = none) (kind unit arg : Nat) : s.blitSame (s.trigger kind unit arg) c := by
  have hn : s.blitSame (s.trigNoted kind unit arg) c := ⟨rfl, rfl⟩
  rw [trigger_eq]
  split
  · refine foldl_keeps (P := fun t => s.blitSame t c) (fun t d _ ht => ?_) (foldl_keeps (P := fun t => s.blitSame t c) (fun t d hd ht => ⟨?_, ?_⟩) hn)
    · by_cases hcd : c = d
      · subst hcd
        rw [blitHears_idle _ _ _ ((congrArg BlitCh.run ht.at_).trans hr)]
        exact ht
      · exact ⟨(blitHears_other _ _ _ hcd).trans ht.at_, ((blitHears_engines ..).regs _ (lostCounter_bl (blWords_low hc).1) (blStat_other hc hcd)).trans ht.stat⟩
    · exact (dmaHears_blitAt ..).trans ht.at_
    · exact ((dmaHears_engines ..).regs _ (lostCounter_bl (blWords_low hc).1) (blStat_dmHears hc (List.mem_range.1 hd))).trans ht.stat
  · exact hn

end

end Sys2Proof.Machine

end

section

namespace Sys2Proof.Machine

/-! ## The end of a job (R384, R387) -/

section

variable {s t : State} {c : Nat} {r : BlitRun} {code : Nat}

/-- A channel whose job has ended. -/
def BlitCh.ends (ch : BlitCh) (now : Nat) : BlitCh := { ch with run := none, lastEnd := some now, reading := false }

def State.blitFreed (s : State) (c : Nat) : State := (s.setBlitAt c ((s.blitAt c).ends s.dtime)).qWithdraw (s.blQueue c) (32 + c)

/-- Whether a job that ends counts as done. -/
def State.blitCounts (s : State) (c code : Nat) : Bool := decide (code = 0) || (s.on (BL_CFG c) BL_CFG_ONERR && decide (code ≠ 4))

/-- The counts of a job's end. -/
def State.blitNoted (s : State) (c code : Nat) (counted : Bool) : State :=
  let s := if code = 0 then s else (s.put (BL_STAT c) BL_STAT_ERR 1).bump (BL_ERR_CNT c) BL_ERR_CNT_COUNT 1
  if counted then s.bumpMod (BL_DONE_CNT c) BL_DONE_CNT_COUNT 1 else s

/-- BL_CONS advances, the event is settled and the trigger occurs. -/
def State.blitTold (s : State) (c : Nat) (r : BlitRun) (code detail unwritten : Nat) (counted : Bool) : State :=
  let s := s.bumpMod (BL_CONS c) BL_CONS_CONS 1
  let s := s.settleEvent 4 c 0x38 (jobFlag r.job 0 || decide (code ≠ 0)) (s.blitPayload c r.count code detail (jobTag r.job) unwritten)
  if counted then s.trigger 5 c 0 else s

/-- The channel halts, or goes on. -/
def State.blitGoesOn (s : State) (c code : Nat) (cont ok overrun : Bool) (stop : Option Nat) (job : Option (Nat × Nat × Nat)) : State :=
  if !ok then s.blitHalt c 2 job
  else match stop with
    | some cause => s.blitHalt c cause job
    | none => if decide (code ≠ 0) && !cont then s.blitHalt c 1 job else if overrun then s.blitHalt c 5 none else (s.blitRest c).blitNext c

theorem blitEnd_eq (hr : (s.blitAt c).run = some r) (code detail rows errRow unwritten : Nat) (statusOk : Bool) (stop : Option Nat) :
    s.blitEnd c code detail rows errRow unwritten statusOk stop =
      let y := s.blitFreed c
      let z := y.blitNoted c code (y.blitCounts c code)
      let p := z.blitStatus r.addr (jobStatus r.job code detail rows errRow unwritten)
      (p.1.blitTold c r code detail unwritten (y.blitCounts c code)).blitGoesOn c code (y.on (BL_CFG c) BL_CFG_ONERR) (p.2 && statusOk)
        (s.blitAt c).overrun stop (some (r.count, jobTag r.job, unwritten)) := by
  unfold State.blitEnd
  dsimp only
  rw [hr]
  rfl

theorem blitFreed_spec : ((s.blitFreed c).blitAt c).run = none ∧ s.engines (s.blitFreed c) trafficWords := by
  have ht := qWithdraw_traffic (s := s.setBlitAt c ((s.blitAt c).ends s.dtime)) (q := s.blQueue c) (32 + c)
  refine ⟨?_, (engines_setBlitAt _).trans (ht.mono (oneQueueWords_traffic (blQueue_lt ..))).engines⟩
  exact (congrArg BlitCh.run (ht.blitAt c)).trans ((congrArg BlitCh.run (setBlitAt_blitAt _)).trans rfl)

theorem blitNoted_traffic (counted : Bool) : s.traffic (s.blitNoted c code counted) [BL_STAT c, BL_ERR_CNT c, BL_DONE_CNT c] := by
  unfold State.blitNoted
  have h1 : s.traffic (if code = 0 then s else (s.put (BL_STAT c) BL_STAT_ERR 1).bump (BL_ERR_CNT c) BL_ERR_CNT_COUNT 1) [BL_STAT c, BL_ERR_CNT c, BL_DONE_CNT c] :=
    traffic_ite (traffic_refl ..) ((traffic_put (by simp) _ _).trans (traffic_bump (by simp) _ _))
  exact traffic_ite (h1.trans ((traffic_wr ..).mono (by simp))) h1

theorem blWords_ne : BL_STAT c ≠ BL_ERR_CNT c ∧ BL_STAT c ≠ BL_DONE_CNT c ∧ BL_ERR_CNT c ≠ BL_DONE_CNT c ∧ BL_STAT c ≠ BL_CONS c ∧
    BL_CONS c ≠ BL_ERR_CNT c ∧ BL_CONS c ≠ BL_DONE_CNT c ∧ BL_CFG c ≠ BL_STAT c ∧ BL_CFG c ≠ BL_ERR_CNT c ∧ BL_CFG c ≠ BL_DONE_CNT c := by
  simp only [BL_STAT, BL_ERR_CNT, BL_DONE_CNT, BL_CONS, BL_CFG]
  omega

theorem blitNoted_err (hc : code ≠ 0) (counted : Bool) : (s.blitNoted c code counted).get (BL_STAT c) BL_STAT_ERR = 1 := by
  have h1 : ((s.put (BL_STAT c) BL_STAT_ERR 1).bump (BL_ERR_CNT c) BL_ERR_CNT_COUNT 1).get (BL_STAT c) BL_STAT_ERR = 1 := by
    rw [get_bump_ne _ _ _ _ blWords_ne.1]
    exact get_put_same _ _ _ _ (by decide)
  unfold State.blitNoted
  dsimp only
  rw [if_neg hc]
  split
  · rw [get_bumpMod_ne _ _ _ _ blWords_ne.2.1]
    exact h1
  · exact h1

/-- The counts of a job that ends well. -/
theorem blitNoted_zero : (s.blitNoted c 0 true).rdN (BL_DONE_CNT c) = (s.rdN (BL_DONE_CNT c) + 1) % 2 ^ 32 ∧
    (s.blitNoted c 0 true).rdN (BL_ERR_CNT c) = s.rdN (BL_ERR_CNT c) := by
  have he : s.blitNoted c 0 true = s.bumpMod (BL_DONE_CNT c) BL_DONE_CNT_COUNT 1 := rfl
  rw [he]
  refine ⟨?_, congrArg BitVec.toNat (rd_wr_ne s _ blWords_ne.2.2.1)⟩
  rw [rdN_eq_get, rdN_eq_get]
  exact get_bumpMod_same _ _ BL_DONE_CNT_COUNT 1 (by decide)

theorem blitStatus_eq (a : Nat) (j : List Byte) : s.blitStatus a j =
    let x := s.unitWrite (a + 48) (bytesAt j 48 12)
    let y := x.1.unitWrite (a + 60) (bytesAt j 60 4)
    (y.1, x.2 && y.2) := rfl

theorem blitStatus_moves (a : Nat) (j : List Byte) : s.moves (s.blitStatus a j).1 (a + 48) 16 controlWords := by
  have hw : ∀ (v : State) (i n : Nat), 48 ≤ i → i + n ≤ 64 → v.moves (v.unitWrite (a + i) (bytesAt j i n)).1 (a + 48) 16 controlWords := fun v i n hl hi =>
    (unitWrite_moves ..).widen (by omega) (by rw [bytesAt_length]; omega)
  rw [blitStatus_eq]
  exact (hw _ 48 12 (by omega) (by omega)).trans (hw _ 60 4 (by omega) (by omega))

theorem blitStatus_good {a : Nat} (h : s.takesStatus a) (j : List Byte) : (s.blitStatus a j).2 = true := by
  rw [blitStatus_eq]
  have h1 := h.write j (i := 48) (n := 12) (by omega) (by omega)
  have h2 := h1.2.write j (i := 60) (n := 4) (by omega) (by omega)
  dsimp only
  rw [h1.1, h2.1]
  rfl

/-- The end settled, before the trigger. -/
def State.blitSettled (s : State) (c : Nat) (r : BlitRun) (code detail unwritten : Nat) : State :=
  (s.bumpMod (BL_CONS c) BL_CONS_CONS 1).settleEvent 4 c 0x38 (jobFlag r.job 0 || decide (code ≠ 0))
    ((s.bumpMod (BL_CONS c) BL_CONS_CONS 1).blitPayload c r.count code detail (jobTag r.job) unwritten)

theorem blitTold_eq (detail unwritten : Nat) (counted : Bool) : s.blitTold c r code detail unwritten counted =
    if counted then (s.blitSettled c r code detail unwritten).trigger 5 c 0 else s.blitSettled c r code detail unwritten := rfl

theorem blitSettled_traffic (detail unwritten : Nat) : s.traffic (s.blitSettled c r code detail unwritten) [BL_CONS c] :=
  (traffic_wr ..).trans (settleEvent_traffic ..)

theorem blitSettled_cons (hc : c < 8) (detail unwritten : Nat) : (s.blitSettled c r code detail unwritten).blCons c = (s.blCons c + 1) % 65536 :=
  ((settleEvent_traffic (but := []) ..).quiet.get (lostCounter_bl (blWords_low hc).2.2.2.2.1) (by simp) _).trans (get_bumpMod_same _ _ _ _ (by decide))

/-- What the end of a job may change of the registers. -/
def blEndWords (c : Nat) : List Nat := [BL_ERR_CNT c, BL_DONE_CNT c, BL_CONS c] ++ engineWords

theorem engineWords_blStat (hc : c < 8) : BL_STAT c ∈ engineWords :=
  List.mem_append_left _ (List.mem_append_right _ (List.mem_map_of_mem (List.mem_range.2 hc)))

/-- A register of a blit channel that only its own operations change. -/
theorem blWord_apart {a : Nat} (hlo : 0x700000 ≤ a) (ha : a < 0x701000) (hne : ∀ d, a ≠ BL_STAT d) : a ∉ engineWords := by
  intro h
  rcases List.mem_append.1 h with h | h
  · rcases List.mem_append.1 h with h | h
    · obtain ⟨d, hd, rfl⟩ := List.mem_map.1 h
      have := List.mem_range.1 hd
      simp only [DM_STAT] at hlo
      omega
    · obtain ⟨d, _, rfl⟩ := List.mem_map.1 h
      exact hne d rfl
  · rcases List.mem_cons.1 h with rfl | h
    · exact absurd hlo (by decide)
    · exact not_traffic_bl ha h

theorem blitTold_spec (hc : c < 8) (hr : (s.blitAt c).run = none) (detail unwritten : Nat) (counted : Bool) :
    s.blitSame (s.blitTold c r code detail unwritten counted) c ∧ (s.blitTold c r code detail unwritten counted).blCons c = (s.blCons c + 1) % 65536 ∧
    s.engines (s.blitTold c r code detail unwritten counted) (BL_CONS c :: engineWords) := by
  have ht := blitSettled_traffic (s := s) (c := c) (r := r) (code := code) detail unwritten
  have hcons := blitSettled_cons (s := s) (r := r) (code := code) hc detail unwritten
  have hs : s.blitSame (s.blitSettled c r code detail unwritten) c :=
    ⟨ht.blitAt c, ht.regs _ (lostCounter_bl (blWords_low hc).1) (by simp [blWords_ne.2.2.2.1])⟩
  have he := ht.engines.mono (more := BL_CONS c :: engineWords) (by simp)
  rw [blitTold_eq]
  generalize s.blitSettled c r code detail unwritten = z at hcons hs he
  split
  · obtain ⟨hat, hstat⟩ := trigger_blitSame (s := z) hc ((congrArg BlitCh.run hs.at_).trans hr) 5 c 0
    have hte := trigger_engines (s := z) 5 c 0
    refine ⟨⟨hat.trans hs.at_, hstat.trans hs.stat⟩, ?_, he.trans (hte.mono fun _ ha => List.mem_cons_of_mem _ ha)⟩
    refine (hte.quiet.get (lostCounter_bl (blWords_low hc).2.2.2.2.1) (blWord_apart ?_ (blWords_low hc).2.2.2.2.1 fun d => ?_) _).trans hcons
    · simp only [BL_CONS]
      omega
    · simp only [BL_CONS, BL_STAT]
      omega
  · exact ⟨hs, hcons, he⟩

theorem blitRest_traffic : s.traffic (s.blitRest c) [BL_STAT c] := traffic_put (by simp) _ _

theorem blitGoesOn_ind {P : State → Prop} (hhalt : ∀ cause job, P (s.blitHalt c cause job)) (hnext : P ((s.blitRest c).blitNext c)) (cont ok overrun : Bool)
    (stop : Option Nat) (job : Option (Nat × Nat × Nat)) : P (s.blitGoesOn c code cont ok overrun stop job) := by
  unfold State.blitGoesOn
  split
  · exact hhalt ..
  · split
    · exact hhalt ..
    · split
      · exact hhalt ..
      · split
        · exact hhalt ..
        · exact hnext

theorem blitGoesOn_engines (cont ok overrun : Bool) (stop : Option Nat) (job : Option (Nat × Nat × Nat)) :
    s.engines (s.blitGoesOn c code cont ok overrun stop job) (BL_STAT c :: controlWords) :=
  blitGoesOn_ind (P := fun t => s.engines t (BL_STAT c :: controlWords)) (fun cause job => (blitHalt_engines cause job).mono (by simp))
    ((blitRest_traffic.engines.mono (by simp)).trans blitNext_engines) ..

theorem blitGoesOn_run (cont ok overrun : Bool) (stop : Option Nat) (job : Option (Nat × Nat × Nat)) :
    ((s.blitGoesOn c code cont ok overrun stop job).blitAt c).run = (s.blitAt c).run :=
  blitGoesOn_ind (P := fun t => (t.blitAt c).run = (s.blitAt c).run) (fun cause job => blitHalt_run cause job)
    (blitNext_run.trans (congrArg BlitCh.run (blitRest_traffic.blitAt c))) ..

theorem blitGoesOn_err (hc : c < 8) (cont ok overrun : Bool) (stop : Option Nat) (job : Option (Nat × Nat × Nat)) :
    (s.blitGoesOn c code cont ok overrun stop job).get (BL_STAT c) BL_STAT_ERR = s.get (BL_STAT c) BL_STAT_ERR := by
  have hf : blStatOther BL_STAT_ERR := by
    unfold blStatOther
    decide
  exact blitGoesOn_ind (P := fun t => t.get (BL_STAT c) BL_STAT_ERR = s.get (BL_STAT c) BL_STAT_ERR) (fun cause job => blitHalt_other hc cause job hf)
    ((blitNext_other hc hf).trans (setBlState_other _ hf)) ..

/-- What the end of a job does, whatever its code. -/
structure State.blitEnds (s t : State) (c : Nat) (r : BlitRun) (code : Nat) : Prop where
  works : s.works t (r.addr + 48) 16 (blEndWords c)
  run : (t.blitAt c).run = none
  cons : t.blCons c = (s.blCons c + 1) % 65536
  err : code ≠ 0 → t.get (BL_STAT c) BL_STAT_ERR = 1
  counts : code = 0 → t.rdN (BL_DONE_CNT c) = (s.rdN (BL_DONE_CNT c) + 1) % 2 ^ 32 ∧ t.rdN (BL_ERR_CNT c) = s.rdN (BL_ERR_CNT c)

theorem blWords_engine (hc : c < 8) : BL_CONS c ∉ engineWords ∧ BL_DONE_CNT c ∉ engineWords ∧ BL_ERR_CNT c ∉ engineWords ∧ BL_CFG c ∉ engineWords := by
  obtain ⟨_, _, _, hcfg, hcons, hdone, herr, _⟩ := blWords_low hc
  refine ⟨blWord_apart ?_ hcons fun d => ?_, blWord_apart ?_ hdone fun d => ?_, blWord_apart ?_ herr fun d => ?_, blWord_apart ?_ hcfg fun d => ?_⟩
  all_goals simp only [BL_CONS, BL_DONE_CNT, BL_ERR_CNT, BL_CFG, BL_STAT]
  all_goals omega

theorem blitEnd_ends (hc : c < 8) (hr : (s.blitAt c).run = some r) (code detail rows errRow unwritten : Nat) (statusOk : Bool) (stop : Option Nat) :
    s.blitEnds (s.blitEnd c code detail rows errRow unwritten statusOk stop) c r code := by
  obtain ⟨hstatl, _, _, _, hconsl, hdonel, herrl, _⟩ := blWords_low hc
  obtain ⟨hcons', hdone', herr', _⟩ := blWords_engine hc
  obtain ⟨hyrun, hye⟩ := blitFreed_spec (s := s) (c := c)
  rw [blitEnd_eq hr]
  dsimp only
  generalize s.blitFreed c = y at hyrun hye
  have hyr : ∀ a, a < 0x701000 → y.rd a = s.rd a := fun a ha => hye.regs _ (lostCounter_bl ha) (not_traffic_bl ha)
  have hzt := blitNoted_traffic (s := y) (c := c) (code := code) (y.blitCounts c code)
  have hzerr := fun h => blitNoted_err (s := y) (c := c) (code := code) h (y.blitCounts c code)
  have hz0 : code = 0 → (y.blitNoted c code (y.blitCounts c code)).rdN (BL_DONE_CNT c) = (y.rdN (BL_DONE_CNT c) + 1) % 2 ^ 32 ∧
      (y.blitNoted c code (y.blitCounts c code)).rdN (BL_ERR_CNT c) = y.rdN (BL_ERR_CNT c) := fun h => by
    subst h
    exact blitNoted_zero
  generalize y.blitNoted c code (y.blitCounts c code) = z at hzt hzerr hz0
  have hp := blitStatus_moves (s := z) r.addr (jobStatus r.job code detail rows errRow unwritten)
  generalize z.blitStatus r.addr (jobStatus r.job code detail rows errRow unwritten) = p at hp
  have hprun : (p.1.blitAt c).run = none := (congrArg BlitCh.run ((hp.blitAt c).trans (hzt.blitAt c))).trans hyrun
  have hpr : ∀ a, a < 0x701000 → p.1.rd a = z.rd a := fun a ha => hp.regs _ (lostCounter_bl ha) (not_control_bl ha)
  obtain ⟨hvs, hvc, hve⟩ := blitTold_spec (r := r) (code := code) hc hprun detail unwritten (y.blitCounts c code)
  generalize p.1.blitTold c r code detail unwritten (y.blitCounts c code) = v at hvs hvc hve
  have hg := blitGoesOn_engines (s := v) (c := c) (code := code) (y.on (BL_CFG c) BL_CFG_ONERR) (p.2 && statusOk) (s.blitAt c).overrun stop
    (some (r.count, jobTag r.job, unwritten))
  have hgr := blitGoesOn_run (s := v) (c := c) (code := code) (y.on (BL_CFG c) BL_CFG_ONERR) (p.2 && statusOk) (s.blitAt c).overrun stop
    (some (r.count, jobTag r.job, unwritten))
  have hge := blitGoesOn_err (s := v) (code := code) hc (y.on (BL_CFG c) BL_CFG_ONERR) (p.2 && statusOk) (s.blitAt c).overrun stop
    (some (r.count, jobTag r.job, unwritten))
  generalize v.blitGoesOn c code (y.on (BL_CFG c) BL_CFG_ONERR) (p.2 && statusOk) (s.blitAt c).overrun stop (some (r.count, jobTag r.job, unwritten)) = t
    at hg hgr hge
  have hge' := hg.mono (more := engineWords) fun a ha => by
    rcases List.mem_cons.1 ha with rfl | ha
    · exact engineWords_blStat hc
    · exact trafficWords_engine _ (controlWords_traffic _ ha)
  have htr : ∀ a, a < 0x701000 → a ∉ engineWords → a ≠ BL_CONS c → t.rd a = z.rd a := fun a ha he hne =>
    (hge'.regs _ (lostCounter_bl ha) he).trans ((hve.regs _ (lostCounter_bl ha) fun hm => (List.mem_cons.1 hm).elim hne he).trans (hpr a ha))
  refine ⟨?_, hgr.trans ((congrArg BlitCh.run hvs.at_).trans hprun), ?_, fun h => ?_, fun h => ⟨?_, ?_⟩⟩
  · refine ((hye.works.mono fun a ha => List.mem_append_right _ (trafficWords_engine _ ha)).trans (hzt.works.mono fun a ha => ?_)).trans
      ((hp.works.mono fun a ha => List.mem_append_right _ (trafficWords_engine _ (controlWords_traffic _ ha))).trans
        ((hve.works.mono fun a ha => ?_).trans (hge'.works.mono fun a ha => List.mem_append_right _ ha)))
    · rcases List.mem_cons.1 ha with rfl | ha
      · exact List.mem_append_right _ (engineWords_blStat hc)
      · refine List.mem_append_left _ ?_
        simp only [List.mem_cons, List.not_mem_nil, or_false] at ha ⊢
        rcases ha with rfl | rfl <;> simp
    · rcases List.mem_cons.1 ha with rfl | ha
      · exact List.mem_append_left _ (by simp)
      · exact List.mem_append_right _ ha
  · have hpc : p.1.blCons c = s.blCons c := by
      refine congrArg (getField · BL_CONS_CONS) ((hpr _ hconsl).trans ((hzt.regs _ (lostCounter_bl hconsl) ?_).trans (hyr _ hconsl)))
      simp [blWords_ne.2.2.2.1.symm, blWords_ne.2.2.2.2.1, blWords_ne.2.2.2.2.2.1]
    rw [← hpc, ← hvc]
    exact congrArg (getField · BL_CONS_CONS) (hge'.regs _ (lostCounter_bl hconsl) hcons')
  · refine hge.trans ((congrArg (getField · BL_STAT_ERR) (hvs.stat.trans (hpr _ hstatl))).trans (hzerr h))
  · have h1 := congrArg BitVec.toNat (htr _ hdonel hdone' blWords_ne.2.2.2.2.2.1.symm)
    have h2 := congrArg BitVec.toNat (hyr _ hdonel)
    exact h1.trans ((hz0 h).1.trans (by rw [show y.rdN (BL_DONE_CNT c) = s.rdN (BL_DONE_CNT c) from h2]))
  · exact (congrArg BitVec.toNat (htr _ herrl herr' blWords_ne.2.2.2.2.1.symm)).trans ((hz0 h).2.trans (congrArg BitVec.toNat (hyr _ herrl)))

/-- How a job's end leaves its channel where the status can be written. -/
theorem blitEnd_halts (hc : c < 8) (hr : (s.blitAt c).run = some r) (hs : s.takesStatus r.addr) (detail rows errRow unwritten : Nat) (statusOk : Bool)
    (stop : Option Nat) : (∀ cause, cause < 16 → stop = some cause →
      (s.blitEnd c code detail rows errRow unwritten statusOk stop).get (BL_STAT c) BL_STAT_CAUSE = if statusOk then cause else 2) ∧
    (code ≠ 0 → statusOk = true → stop = none → s.on (BL_CFG c) BL_CFG_ONERR = false →
      (s.blitEnd c code detail rows errRow unwritten statusOk stop).blState c = 4 ∧
      (s.blitEnd c code detail rows errRow unwritten statusOk stop).get (BL_STAT c) BL_STAT_CAUSE = 1) := by
  obtain ⟨_, hye⟩ := blitFreed_spec (s := s) (c := c)
  have hcfg : (s.blitFreed c).on (BL_CFG c) BL_CFG_ONERR = s.on (BL_CFG c) BL_CFG_ONERR :=
    congrArg (· != 0) (hye.quiet.get (lostCounter_bl (blWords_low hc).2.2.2.1) (not_traffic_bl (blWords_low hc).2.2.2.1) _)
  have hzs : ((s.blitFreed c).blitNoted c code ((s.blitFreed c).blitCounts c code)).takesStatus r.addr :=
    ((blitNoted_traffic _).works (a := 0) (n := 0)).takesStatus ((hye.works (a := 0) (n := 0)).takesStatus hs)
  rw [blitEnd_eq hr]
  dsimp only
  rw [blitStatus_good hzs, hcfg, Bool.true_and]
  generalize State.blitTold _ c r code detail unwritten _ = v
  refine ⟨fun cause hcause hstop => ?_, fun hcode hok hstop hoff => ?_⟩
  · subst hstop
    cases statusOk with
    | true => exact blitHalt_cause hc hcause _
    | false => exact blitHalt_cause hc (by decide) _
  · subst hstop hok
    have hg : v.blitGoesOn c code (s.on (BL_CFG c) BL_CFG_ONERR) true (s.blitAt c).overrun none (some (r.count, jobTag r.job, unwritten)) =
        v.blitHalt c 1 (some (r.count, jobTag r.job, unwritten)) := by
      unfold State.blitGoesOn
      rw [if_neg (by decide)]
      dsimp only
      rw [if_pos (by rw [hoff]; simpa using hcode)]
    rw [hg]
    exact ⟨blitHalt_state hc _ _, blitHalt_cause hc (by decide) _⟩

end

end Sys2Proof.Machine

end

section

namespace Sys2Proof.Machine

/-! ## Blit control: EN, ABORT and doorbells (R371 to R373, R388, R389) -/

section

variable {s u : State} {c : Nat} {r : BlitRun}

/-- EN written. -/
def State.blitEnSet (s : State) (c : Nat) (en : Bool) : State := s.put (BL_CTRL c) BL_CTRL_EN (b2n en)

theorem blitEnSet_traffic (en : Bool) : s.traffic (s.blitEnSet c en) [BL_CTRL c] := traffic_put (by simp) _ _

theorem blitEnSet_on (en : Bool) : (s.blitEnSet c en).on (BL_CTRL c) BL_CTRL_EN = en := by
  have h : (s.blitEnSet c en).get (BL_CTRL c) BL_CTRL_EN = b2n en % 2 ^ BL_CTRL_EN.w := get_put_same _ _ _ _ (by decide)
  unfold State.on
  rw [h]
  cases en <;> rfl

theorem blCtrl_ne_stat : BL_CTRL c ≠ BL_STAT c := by
  simp only [BL_CTRL, BL_STAT]
  omega

theorem blitEnSet_state (hc : c < 8) (en : Bool) : (s.blitEnSet c en).blState c = s.blState c :=
  (blitEnSet_traffic en).quiet.get (lostCounter_bl (blWords_low hc).1) (by simp [blCtrl_ne_stat.symm]) _

theorem setBlState_state {st : Nat} (h : st < 8) : (s.setBlState c st).blState c = st := (get_put_same _ _ _ _ (by decide)).trans (Nat.mod_eq_of_lt h)

theorem setBlState_traffic (st : Nat) : s.traffic (s.setBlState c st) [BL_STAT c] := traffic_put (by simp) _ _

theorem blitEnable_on (hoff : s.on (BL_CTRL c) BL_CTRL_EN = false) (hst : s.blState c = 0) (ho : (s.blitOwner c).isSome = true) :
    s.blitEnable c true = ((s.blitEnSet c true).setBlState c 1).blitNext c := by
  have ho' : ((s.blitEnSet c true).blitOwner c).isSome = true := (congrArg Option.isSome ((blitEnSet_traffic true).engines.locket |> fun h => ownerOf_congr h 4 c)).trans ho
  unfold State.blitEnable
  dsimp only
  rw [hoff, hst]
  exact if_pos (by rw [show ((s.put (BL_CTRL c) BL_CTRL_EN (b2n true)).blitOwner c).isSome = true from ho']; rfl)

/-- A channel without a read. -/
def BlitCh.unread (ch : BlitCh) : BlitCh := { ch with reading := false }

theorem blitEnable_off (hst : s.blState c = 1 ∨ s.blState c = 4) :
    s.blitEnable c false = ((s.blitEnSet c false).setBlitAt c ((s.blitEnSet c false).blitAt c).unread).setBlState c 0 := by
  unfold State.blitEnable
  dsimp only
  rw [if_neg (by simp)]
  refine if_pos ?_
  rcases hst with h | h <;> rw [h] <;> rfl

theorem blitEnable_enSet {en : Bool} (h : (en = true ∧ s.blState c ≠ 0) ∨ (en = false ∧ s.blState c ≠ 1 ∧ s.blState c ≠ 4)) :
    s.blitEnable c en = s.blitEnSet c en := by
  unfold State.blitEnable
  dsimp only
  rcases h with ⟨rfl, hst⟩ | ⟨rfl, h1, h4⟩
  · rw [if_neg (by simp [hst]), if_neg (by simp)]
    rfl
  · rw [if_neg (by simp), if_neg (by simp [h1, h4])]
    rfl

/-! ### ABORT (R389) -/

/-- What leaves everything of a channel's work but memory as it was. -/
structure State.blurs (s t : State) : Prop where
  same : t = { s with mem := t.mem, free := t.free }

theorem wrFree_blurs (s : State) (a n : Nat) : s.blurs (s.wrFree a n) := ⟨wrFree_eq s a n⟩

theorem State.blurs.trans {t u : State} (h : s.blurs t) (k : t.blurs u) : s.blurs u := by
  have e := k.same
  rw [h.same] at e
  exact ⟨e⟩

theorem foldl_blurs {α : Type} {f : State → α → State} (h : ∀ (s : State) (a : α), s.blurs (f s a)) (l : List α) (s : State) : s.blurs (l.foldl f s) :=
  foldl_keeps (P := fun t => s.blurs t) (fun t a _ ht => ht.trans (h t a)) ⟨rfl⟩

theorem blurRows_blurs (r : BlitRun) (down : Bool) (rows : Nat) : s.blurs (s.blurRows r down rows) := by
  unfold State.blurRows
  split
  · exact ⟨rfl⟩
  · exact foldl_blurs (fun s p => foldl_blurs (fun s v => wrFree_blurs ..) _ s) _ s

theorem State.blurs.regs {t : State} (h : s.blurs t) : t.regs = s.regs := by rw [h.same]
theorem State.blurs.store {t : State} (h : s.blurs t) : s.storeSame t := ⟨by rw [h.same], by rw [h.same], by rw [h.same]⟩
theorem State.blurs.blitAt {t : State} (h : s.blurs t) (c : Nat) : t.blitAt c = s.blitAt c := by
  unfold State.blitAt
  rw [h.same]
theorem State.blurs.takesStatus {t : State} (h : s.blurs t) {a : Nat} (hs : s.takesStatus a) : t.takesStatus a := by
  unfold State.takesStatus State.subsUp State.islUp State.poisoned at *
  rw [h.same]
  exact hs

theorem blitKill_none (hr : (s.blitAt c).run = none) (detail cause : Nat) (statBad : Bool) : s.blitKill c detail cause statBad = s.blitHalt c cause none := by
  unfold State.blitKill
  rw [hr]

theorem blitKill_some (hr : (s.blitAt c).run = some r) (detail cause : Nat) (statBad : Bool) : ∃ rows errRow unwritten z, s.blurs z ∧
    s.blitKill c detail cause statBad = z.blitEnd c 4 detail rows errRow unwritten (!statBad) (some cause) := by
  unfold State.blitKill
  rw [hr]
  exact ⟨_, _, _, _, blurRows_blurs .., rfl⟩

theorem blitAbort_eq (h0 : s.blState c ≠ 0) (h4 : s.blState c ≠ 4) (statBad : Bool) : s.blitAbort c statBad = s.blitKill c 1 3 statBad :=
  if_neg (by rintro (h | h) <;> contradiction)

/-- The end of a job's work leaves its channel halted. -/
theorem blitEnd_halted (hc : c < 8) (hr : (s.blitAt c).run = some r) (code detail rows errRow unwritten : Nat) (statusOk : Bool) (cause : Nat) :
    (s.blitEnd c code detail rows errRow unwritten statusOk (some cause)).blState c = 4 := by
  rw [blitEnd_eq hr]
  dsimp only
  generalize State.blitTold _ c r code detail unwritten _ = v
  generalize (_ && statusOk) = ok
  cases ok with
  | true => exact blitHalt_state hc _ _
  | false => exact blitHalt_state hc _ _

theorem blitAbort_spec (hc : c < 8) (h0 : s.blState c ≠ 0) (h4 : s.blState c ≠ 4) (statBad : Bool) :
    (s.blitAbort c statBad).blState c = 4 ∧ ((s.blitAbort c statBad).blitAt c).run = none ∧ s.storeSame (s.blitAbort c statBad) ∧
    ((s.blitAt c).run = none → (s.blitAbort c statBad).get (BL_STAT c) BL_STAT_CAUSE = 3 ∧ s.quiet (s.blitAbort c statBad) [BL_STAT c]) ∧
    (∀ r, (s.blitAt c).run = some r → s.takesStatus r.addr →
      (s.blitAbort c statBad).get (BL_STAT c) BL_STAT_CAUSE = if statBad then 2 else 3) := by
  rw [blitAbort_eq h0 h4]
  cases hr : (s.blitAt c).run with
  | none =>
    rw [blitKill_none hr]
    have hq := (blitHalt_engines (s := s) (c := c) 3 none).quiet
    exact ⟨blitHalt_state hc _ _, (blitHalt_run ..).trans hr, hq.2.1, fun _ => ⟨blitHalt_cause hc (by decide) _, hq⟩, nofun⟩
  | some r =>
    obtain ⟨rows, errRow, unwritten, z, hz, he⟩ := blitKill_some hr 1 3 statBad
    have hzr : (z.blitAt c).run = some r := (congrArg BlitCh.run (hz.blitAt c)).trans hr
    obtain ⟨hworks, hrun, _⟩ := blitEnd_ends hc hzr 4 1 rows errRow unwritten (!statBad) (some 3)
    rw [he]
    refine ⟨blitEnd_halted hc hzr .., hrun, ?_, nofun, fun r' hr' hs => ?_⟩
    · obtain ⟨h0, h1, ho⟩ := hz.store
      obtain ⟨k0, k1, ko⟩ := hworks.store
      exact ⟨k0.trans h0, k1.trans h1, ko.trans ho⟩
    · cases hr'
      refine ((blitEnd_halts (code := 4) hc hzr (hz.takesStatus hs) 1 rows errRow unwritten (!statBad) (some 3)).1 3 (by decide) rfl).trans ?_
      cases statBad <;> rfl

/-! ### Doorbells -/

/-- Whether a doorbell is of another epoch. -/
def State.blStale (s : State) (owner : Nat) (w : Word) : Prop := owner < 4 ∧ getField w BL_DB_EPOCH ≠ s.get (HP_EPOCH owner) HP_EPOCH_EPOCH

/-- Whether a doorbell goes beyond the ring. -/
def State.blBeyond (s : State) (c prod : Nat) : Prop :=
  s.park.step = 0 ∧ s.blitOverrun c prod = true ∧ (s.blState c = 1 ∨ s.blState c = 2 ∨ s.blState c = 3)

/-- A channel with another producer count. -/
def BlitCh.produces (ch : BlitCh) (prod : Nat) : BlitCh := { ch with prod := prod }

/-- A channel whose ring was overrun. -/
def BlitCh.overruns (ch : BlitCh) : BlitCh := { ch with overrun := true }

theorem blBeyond_iff (prod : Nat) : (s.park.step == 0 && s.blitOverrun c prod && (s.blState c == 1 || s.blState c == 2 || s.blState c == 3)) = true ↔
    s.blBeyond c prod := by
  unfold State.blBeyond
  simp only [Bool.and_eq_true, Bool.or_eq_true, beq_iff_eq, or_assoc, and_assoc]

theorem blitRing_eq {owner : Nat} (ho : s.blitOwner c = some owner) (w : Word) : s.blitRing c w =
    if owner < 4 ∧ getField w BL_DB_EPOCH ≠ s.get (HP_EPOCH owner) HP_EPOCH_EPOCH then
      (s.put (BL_STAT c) BL_STAT_STALE 1).bump (BL_STAT c) BL_STAT_DROP_CNT 1
    else if sdiff 16 (getField w BL_DB_PROD) (s.blitAt c).prod < 0 then s
    else if s.park.step == 0 && s.blitOverrun c (getField w BL_DB_PROD) && (s.blState c == 1 || s.blState c == 2 || s.blState c == 3) then
      if (s.blitAt c).run.isSome then s.setBlitAt c (s.blitAt c).overruns else s.blitHalt c 5 none
    else (s.setBlitAt c ((s.blitAt c).produces (getField w BL_DB_PROD))).blitNext c := by
  unfold State.blitRing
  dsimp only
  rw [ho]
  rfl

end

end Sys2Proof.Machine

end

section

namespace Sys2Proof.Machine

/-! ## Watermarks and band slots (R385, R386) -/

section

variable {s t : State} {c : Nat} {r : BlitRun}

theorem wmAdvance_traffic (down : Bool) (n : Nat) : s.traffic (s.wmAdvance c r down n) [BL_WMARK c] := by
  induction n generalizing s with
  | zero => exact traffic_refl ..
  | succ n ih =>
    unfold State.wmAdvance
    dsimp only
    refine State.traffic.trans ?_ ih
    have h : ∀ a b, s.traffic ((s.put (BL_WMARK c) BL_WMARK_ROWS a).put (BL_WMARK c) BL_WMARK_EDGE_Y b) [BL_WMARK c] := fun a b =>
      (traffic_put (by simp) _ _).trans (traffic_put (by simp) _ _)
    exact traffic_ite ((h _ _).trans (post_traffic ..)) (h _ _)

theorem wmShow_traffic : s.traffic (s.wmShow c r) [BL_WMARK c] := wmAdvance_traffic ..

/-- A channel with its job as it now stands. -/
def BlitCh.runs (ch : BlitCh) (r : BlitRun) : BlitCh := { ch with run := some r }

/-- A job whose next band is issued at a slot end. -/
def State.bandNext (s : State) (c : Nat) (r : BlitRun) : BlitRun :=
  { r with band := r.band + 1, slotEnd := r.slotEnd + if r.steps < r.total then s.slotNs c r.job else 0 }

theorem bandSlot_next (hr : (s.blitAt c).run = some r) (h : r.band < r.steps) : s.bandSlot c =
    ((s.setBlitAt c ((s.blitAt c).runs (s.bandNext c r))).wmShow c (s.bandNext c r)).blitAsk c (r.band + 1) := by
  unfold State.bandSlot
  dsimp only
  rw [hr]
  exact if_pos h

/-- A job whose band has slipped. -/
def BlitRun.slips (r : BlitRun) : BlitRun := { r with slipped := true }

theorem bandSlip_eq : s.bandSlip c r =
    ((s.setBlitAt c ((s.blitAt c).runs r.slips)).put (BL_STAT c) BL_STAT_SLIP 1).bump (BL_SLIP_CNT c) BL_SLIP_CNT_COUNT 1 := rfl

theorem blStat_ne_slip : BL_STAT c ≠ BL_SLIP_CNT c := by
  simp only [BL_STAT, BL_SLIP_CNT]
  omega

theorem bandSlip_spec : (s.bandSlip c r).blitAt c = (s.blitAt c).runs r.slips ∧ (s.bandSlip c r).get (BL_STAT c) BL_STAT_SLIP = 1 ∧
    (s.rdN (BL_SLIP_CNT c) + 1 < 2 ^ 32 → (s.bandSlip c r).rdN (BL_SLIP_CNT c) = s.rdN (BL_SLIP_CNT c) + 1) ∧
    s.engines (s.bandSlip c r) [BL_STAT c, BL_SLIP_CNT c] := by
  rw [bandSlip_eq]
  have hd := setBlitAt_blitAt (s := s) (c := c) ((s.blitAt c).runs r.slips)
  have he : s.engines (s.setBlitAt c ((s.blitAt c).runs r.slips)) [BL_STAT c, BL_SLIP_CNT c] := engines_setBlitAt _
  have hg : ∀ a f, (s.setBlitAt c ((s.blitAt c).runs r.slips)).get a f = s.get a f := setBlitAt_get _
  generalize s.setBlitAt c ((s.blitAt c).runs r.slips) = z at hd he hg
  have ht : z.traffic ((z.put (BL_STAT c) BL_STAT_SLIP 1).bump (BL_SLIP_CNT c) BL_SLIP_CNT_COUNT 1) [BL_STAT c, BL_SLIP_CNT c] :=
    (traffic_put (by simp) _ _).trans (traffic_bump (by simp) _ _)
  refine ⟨(ht.blitAt c).trans hd, ?_, fun h => ?_, he.trans ht.engines⟩
  · rw [get_bump_ne _ _ _ _ blStat_ne_slip]
    exact get_put_same _ _ _ _ (by decide)
  · have hz : (z.put (BL_STAT c) BL_STAT_SLIP 1).get (BL_SLIP_CNT c) BL_SLIP_CNT_COUNT = s.get (BL_SLIP_CNT c) BL_SLIP_CNT_COUNT :=
      (get_put_ne _ _ _ _ blStat_ne_slip.symm).trans (hg _ _)
    rw [rdN_eq_get, rdN_eq_get] at *
    exact (get_bump_same _ _ BL_SLIP_CNT_COUNT 1 (by decide) (by rw [hz]; exact h)).trans (by rw [hz]; rfl)

/-- A slot end with the running band complete. -/
theorem bandSlot_spec (hr : (s.blitAt c).run = some r) (h : r.band < r.steps) : ∃ q, ((s.bandSlot c).blitAt c).run = some q ∧ q.band = r.band + 1 ∧
    q.steps = r.steps ∧ s.quiet (s.bandSlot c) (BL_WMARK c :: trafficWords) := by
  rw [bandSlot_next hr h]
  have hd := setBlitAt_blitAt (s := s) (c := c) ((s.blitAt c).runs (s.bandNext c r))
  have he : s.engines (s.setBlitAt c ((s.blitAt c).runs (s.bandNext c r))) (BL_WMARK c :: trafficWords) := engines_setBlitAt _
  generalize s.setBlitAt c ((s.blitAt c).runs (s.bandNext c r)) = z at hd he
  have ht : z.traffic ((z.wmShow c (s.bandNext c r)).blitAsk c (r.band + 1)) (BL_WMARK c :: trafficWords) :=
    (wmShow_traffic.mono (by simp)).trans ((blitAsk_traffic _).mono fun _ ha => List.mem_cons_of_mem _ ha)
  refine ⟨s.bandNext c r, ?_, rfl, rfl, (he.trans ht.engines).quiet⟩
  rw [ht.blitAt, hd]
  rfl

/-- A triggered job starts. -/
theorem blitBegin_spec (hr : (s.blitAt c).run = some r) : (s.blitBegin c).blitAt c = (s.blitAt c).runs (s.jobStarted c r) ∧
    s.quiet (s.blitBegin c) (BL_STAT c :: trafficWords) := by
  have ht := blitBegin_traffic hr
  exact ⟨(ht.blitAt c).trans (setBlitAt_blitAt _), blitBegin_engines.quiet⟩

theorem blitBegin_state (hc : c < 8) (hr : (s.blitAt c).run = some r) : (s.blitBegin c).blState c = 3 := by
  have he : s.blitBegin c = ((s.setBlitAt c ((s.blitAt c).runs (s.jobStarted c r))).put (BL_STAT c) BL_STAT_STATE 3).blitAsk c 0 := by
    unfold State.blitBegin
    dsimp only
    rw [hr]
    rfl
  rw [he]
  exact ((blitAsk_traffic 0).quiet.get (lostCounter_bl (blWords_low hc).1) (not_traffic_bl (blWords_low hc).1) _).trans (get_put_same _ _ _ _ (by decide))

end

/-! ## Doorbells that set the producer count (R373) -/

section

variable {s : State} {c owner : Nat}

theorem setBlitAt_owner (v : BlitCh) : (s.setBlitAt c v).blitOwner c = s.blitOwner c := rfl
theorem setBlitAt_overrun (v : BlitCh) (prod : Nat) : (s.setBlitAt c v).blitOverrun c prod = s.blitOverrun c prod := rfl
theorem setBlitAt_state (v : BlitCh) : (s.setBlitAt c v).blState c = s.blState c := rfl
theorem setBlitAt_cons (v : BlitCh) : (s.setBlitAt c v).blCons c = s.blCons c := rfl
theorem setBlitAt_jobAddr (v : BlitCh) : (s.setBlitAt c v).jobAddr c = s.jobAddr c := rfl
theorem setBlitAt_log2 (v : BlitCh) : (s.setBlitAt c v).blLog2 c = s.blLog2 c := rfl
theorem setBlitAt_base (v : BlitCh) : (s.setBlitAt c v).blBase c = s.blBase c := rfl

theorem setBlitAt_ringOk (v : BlitCh) : (s.setBlitAt c v).blitRingOk c owner = s.blitRingOk c owner := by
  unfold State.blitRingOk
  rw [setBlitAt_jobAddr, setBlitAt_log2, setBlitAt_base, (engines_setBlitAt (but := []) v).reaches (by simp)]

theorem setBlitAt_canReserve (v : BlitCh) : (s.setBlitAt c v).canReserve 4 c = s.canReserve 4 c :=
  canReserve_congr (setBlitAt_ev v) (engines_setBlitAt (but := []) v).locket 4 c

/-- What a doorbell that sets the producer count does. -/
structure State.blProduces (s t : State) (c owner prod : Nat) : Prop where
  prodSet : (t.blitAt c).prod = prod
  run : (t.blitAt c).run = (s.blitAt c).run
  reads : s.blState c = 1 → (s.blitAt c).reading = false → s.park.step = 0 → prod ≠ s.blCons c →
    s.blitRingOk c owner = true → s.canReserve 4 c = true → (t.blitAt c).reading = true
  halts : s.blState c = 1 → (s.blitAt c).reading = false → s.park.step = 0 → prod ≠ s.blCons c →
    s.blitRingOk c owner = false → t.blState c = 4 ∧ t.get (BL_STAT c) BL_STAT_CAUSE = 2
  quiet : s.quiet t (if s.blState c = 1 then BL_STAT c :: controlWords else [])

theorem blitProd_spec (hc : c < 8) (ho : s.blitOwner c = some owner) {prod : Nat} (hb : ¬ s.blBeyond c prod) :
    s.blProduces ((s.setBlitAt c ((s.blitAt c).produces prod)).blitNext c) c owner prod := by
  have hd := setBlitAt_blitAt (s := s) (c := c) ((s.blitAt c).produces prod)
  have ho' := (setBlitAt_owner (s := s) (c := c) ((s.blitAt c).produces prod)).trans ho
  have hov := setBlitAt_overrun (s := s) (c := c) ((s.blitAt c).produces prod) prod
  have hst := setBlitAt_state (s := s) (c := c) ((s.blitAt c).produces prod)
  have hcons := setBlitAt_cons (s := s) (c := c) ((s.blitAt c).produces prod)
  have hpark := setBlitAt_park s c ((s.blitAt c).produces prod)
  have hok := setBlitAt_ringOk (s := s) (c := c) (owner := owner) ((s.blitAt c).produces prod)
  have hres := setBlitAt_canReserve (s := s) (c := c) ((s.blitAt c).produces prod)
  have he : ∀ but, s.engines (s.setBlitAt c ((s.blitAt c).produces prod)) but := fun but => engines_setBlitAt _
  generalize s.setBlitAt c ((s.blitAt c).produces prod) = z at hd ho' hov hst hcons hpark hok hres he
  have hprod : (z.blitAt c).prod = prod := by rw [hd]; rfl
  have hrun : (z.blitAt c).run = (s.blitAt c).run := by rw [hd]; rfl
  have hread : (z.blitAt c).reading = (s.blitAt c).reading := by rw [hd]; rfl
  have hready : s.blState c = 1 → (s.blitAt c).reading = false → s.park.step = 0 → prod ≠ s.blCons c → z.blitReady c = true := fun h1 h2 h3 h4 => by
    unfold State.blitReady
    rw [hst, hread, hpark, hprod, hcons, h1, h2, h3]
    simpa using h4
  have hnext : s.blState c = 1 → s.park.step = 0 → z.blitReady c = true → z.blitNext c =
      if !s.blitRingOk c owner then z.blitHalt c 2 none else if s.canReserve 4 c then z.blitRead c else z := fun h1 h3 h => by
    have hno : s.blitOverrun c prod = false := Bool.eq_false_iff.2 fun hov => hb ⟨h3, hov, .inl h1⟩
    rw [blitNext_eq ho', if_pos h, hprod, hov, hno, hok, hres]
    exact if_neg Bool.false_ne_true
  refine ⟨blitNext_prod.trans hprod, blitNext_run.trans hrun, fun h1 h2 h3 h4 hring hcan => ?_, fun h1 h2 h3 h4 hring => ?_, ?_⟩
  · rw [hnext h1 h3 (hready h1 h2 h3 h4), if_neg (by rw [hring]; decide), if_pos hcan, blitRead_blitAt]
    rfl
  · rw [hnext h1 h3 (hready h1 h2 h3 h4), if_pos (by rw [hring]; decide)]
    exact ⟨blitHalt_state hc _ _, blitHalt_cause hc (by decide) _⟩
  · split
    · exact ((he _).trans blitNext_engines).quiet
    next h1 =>
      rw [blitNext_rests]
      · exact (he _).quiet
      · unfold State.blitReady
        rw [hst, beq_false_of_ne h1]
        rfl

end

/-! ## Writes of BL_CTRL -/

section

variable {s u : State} {c : Nat} {w : Word}

theorem blCtrl_on (hen : getField w BL_CTRL_EN = 1) (hab : getField w BL_CTRL_ABORT = 0) (statBad : Bool) :
    u.blCtrl c w statBad = u.blitEnable c true := by
  unfold State.blCtrl
  rw [hen, if_neg (by omega)]
  rfl

theorem blCtrl_off (hen : getField w BL_CTRL_EN = 0) (hab : getField w BL_CTRL_ABORT = 0) (statBad : Bool) :
    u.blCtrl c w statBad = u.blitEnable c false := by
  unfold State.blCtrl
  rw [hen, if_neg (by omega)]
  rfl

/-- EN set on a channel at rest without a job to read. -/
theorem blitEnable_idles (hc : c < 8) (hoff : u.on (BL_CTRL c) BL_CTRL_EN = false) (hst : u.blState c = 0) (ho : (u.blitOwner c).isSome = true)
    (hprod : (u.blitAt c).prod = u.blCons c) : (u.blitEnable c true).blState c = 1 ∧ (u.blitEnable c true).on (BL_CTRL c) BL_CTRL_EN = true ∧
      u.quiet (u.blitEnable c true) [BL_CTRL c, BL_STAT c] := by
  rw [blitEnable_on hoff hst ho]
  have he := blitEnSet_traffic (s := u) (c := c) true
  have hon := blitEnSet_on (s := u) (c := c) true
  generalize u.blitEnSet c true = y at he hon
  have ht := setBlState_traffic (s := y) (c := c) 1
  have hz := setBlState_state (s := y) (c := c) (st := 1) (by decide)
  generalize y.setBlState c 1 = z at ht hz
  have hcons : z.blCons c = u.blCons c := by
    have hlow := (blWords_low hc).2.2.2.2.1
    refine (ht.quiet.get (lostCounter_bl hlow) ?_ _).trans (he.quiet.get (lostCounter_bl hlow) ?_ _)
    · simp [blWords_ne.2.2.2.1.symm]
    · simp only [BL_CONS, BL_CTRL, List.mem_singleton]
      omega
  have hno : z.blitReady c = false := by
    unfold State.blitReady
    rw [ht.blitAt, he.blitAt, hprod, hcons]
    simp
  rw [blitNext_rests hno]
  refine ⟨hz, ?_, (he.quiet.mono (by simp)).trans (ht.quiet.mono (by simp))⟩
  exact (congrArg (· != 0) (ht.quiet.get (lostCounter_bl (blWords_low hc).2.1) (by simp [blCtrl_ne_stat]) BL_CTRL_EN)).trans hon

/-- EN cleared. -/
theorem blitEnable_stops (hc : c < 8) : (s.blitEnable c false).on (BL_CTRL c) BL_CTRL_EN = false ∧
    ((s.blitEnable c false).blitAt c).run = (s.blitAt c).run ∧ s.quiet (s.blitEnable c false) [BL_CTRL c, BL_STAT c] ∧
    (s.blState c = 1 ∨ s.blState c = 4 → (s.blitEnable c false).blState c = 0 ∧ ((s.blitEnable c false).blitAt c).reading = false) ∧
    (s.blState c = 2 ∨ s.blState c = 3 → (s.blitEnable c false).blState c = s.blState c) := by
  have he := blitEnSet_traffic (s := s) (c := c) false
  have hon := blitEnSet_on (s := s) (c := c) false
  have hst := blitEnSet_state (s := s) hc false
  by_cases h : s.blState c = 1 ∨ s.blState c = 4
  · rw [blitEnable_off h]
    generalize s.blitEnSet c false = y at he hon
    have hd := setBlitAt_blitAt (s := y) (c := c) (y.blitAt c).unread
    have hz : y.engines (y.setBlitAt c (y.blitAt c).unread) [] := engines_setBlitAt _
    have hg := setBlitAt_get (s := y) (c := c) (y.blitAt c).unread (BL_CTRL c) BL_CTRL_EN
    generalize y.setBlitAt c (y.blitAt c).unread = z at hd hz hg
    have ht := setBlState_traffic (s := z) (c := c) 0
    have h0 := setBlState_state (s := z) (c := c) (st := 0) (by decide)
    refine ⟨?_, ?_, ((he.quiet.mono (by simp)).trans (hz.quiet.mono (by simp))).trans (ht.quiet.mono (by simp)), fun _ => ⟨h0, ?_⟩, fun h' => ?_⟩
    · exact (congrArg (· != 0) ((ht.quiet.get (lostCounter_bl (blWords_low hc).2.1) (by simp [blCtrl_ne_stat]) BL_CTRL_EN).trans hg)).trans hon
    · rw [ht.blitAt, hd, ← he.blitAt]
      rfl
    · rw [ht.blitAt, hd]
      rfl
    · omega
  · rw [blitEnable_enSet (.inr ⟨rfl, fun h1 => h (.inl h1), fun h4 => h (.inr h4)⟩)]
    exact ⟨hon, congrArg BlitCh.run (he.blitAt c), he.quiet.mono (by simp), fun h' => absurd h' h, fun _ => hst⟩

/-- ABORT on a channel that is neither OFF nor HALTED. -/
theorem blCtrl_aborts (hc : c < 8) (hab : getField w BL_CTRL_ABORT = 1) (h0 : u.blState c ≠ 0) (h4 : u.blState c ≠ 4)
    (hen : getField w BL_CTRL_EN = 1 ∨ u.blState c ≠ 1) (statBad : Bool) :
    (u.blCtrl c w statBad).blState c = 4 ∧ ((u.blCtrl c w statBad).blitAt c).run = none ∧ u.storeSame (u.blCtrl c w statBad) ∧
    ((u.blitAt c).run = none → (u.blCtrl c w statBad).get (BL_STAT c) BL_STAT_CAUSE = 3 ∧ u.quiet (u.blCtrl c w statBad) [BL_CTRL c, BL_STAT c]) ∧
    (∀ r, (u.blitAt c).run = some r → u.takesStatus r.addr → (u.blCtrl c w statBad).get (BL_STAT c) BL_STAT_CAUSE = if statBad then 2 else 3) := by
  have hw : u.blCtrl c w statBad = (u.blitEnSet c (getField w BL_CTRL_EN == 1)).blitAbort c statBad := by
    unfold State.blCtrl
    rw [if_pos hab, blitEnable_enSet]
    rcases hen with h | h
    · exact .inl ⟨by rw [h]; rfl, h0⟩
    · by_cases he : getField w BL_CTRL_EN = 1
      · exact .inl ⟨by rw [he]; rfl, h0⟩
      · exact .inr ⟨beq_false_of_ne he, h, h4⟩
  rw [hw]
  have he := blitEnSet_traffic (s := u) (c := c) (getField w BL_CTRL_EN == 1)
  have hst := blitEnSet_state (s := u) hc (getField w BL_CTRL_EN == 1)
  generalize u.blitEnSet c (getField w BL_CTRL_EN == 1) = z at he hst
  obtain ⟨k4, krun, kstore, knone, ksome⟩ := blitAbort_spec (s := z) hc (by rw [hst]; exact h0) (by rw [hst]; exact h4) statBad
  obtain ⟨e0, e1, eo⟩ := he.quiet.2.1
  obtain ⟨f0, f1, fo⟩ := kstore
  rw [he.blitAt] at knone ksome
  exact ⟨k4, krun, ⟨f0.trans e0, f1.trans e1, fo.trans eo⟩, fun h => ⟨(knone h).1, (he.quiet.mono (by simp)).trans ((knone h).2.mono (by simp))⟩,
    fun r hr hs => ksome r hr ((he.works (a := 0) (n := 0)).takesStatus hs)⟩

end

/-! ## Writes of BL_DB -/

section

variable {s u : State} {c owner : Nat} {w : Word} {src : Src}

/-- The doorbell register as it was written. -/
def State.blRung (u : State) (c : Nat) (w : Word) : State := u.wr (BL_DB c) w

theorem blRung_traffic : u.traffic (u.blRung c w) [BL_DB c] := traffic_wr ..

theorem blRung_ev : (u.blRung c w).ev = u.ev := wr_ev ..

theorem blRung_waits : (u.blRung c w).bellWaits src (BL_DB c) = u.bellWaits src (BL_DB c) := rfl

theorem blDb_waits (h : u.bellWaits src (BL_DB c) = true) : u.blDb src c w = { u.blRung c w with bells := u.bells ++ [⟨src, BL_DB c, w.toNat⟩] } :=
  bell_waits (blRung_waits.trans h) _

theorem blDb_acts (h : u.bellWaits src (BL_DB c) = false) : u.blDb src c w = (u.blRung c w).blitRing c w := bell_acts (blRung_waits.trans h) _

theorem blRung_get {a : Nat} (hl : lostCounter a = false) (hne : a ≠ BL_DB c) (f : Fld) : (u.blRung c w).get a f = u.get a f :=
  blRung_traffic.quiet.get hl (by simpa using hne) f

theorem blRung_bl (hc : c < 8) {a : Nat} (ha : a ∈ [BL_STAT c, BL_CONS c, BL_CFG c, BL_RING_LO c, BL_RING_HI c]) (f : Fld) :
    (u.blRung c w).get a f = u.get a f := by
  simp only [List.mem_cons, List.not_mem_nil, or_false, BL_STAT, BL_CONS, BL_CFG, BL_RING_LO, BL_RING_HI] at ha
  refine blRung_get (lostCounter_low ?_) ?_ f
  · omega
  · simp only [BL_DB]
    omega

/-- The doorbell register decides nothing of what a doorbell does. -/
structure State.blRings (u y : State) (c owner : Nat) : Prop where
  at_ : y.blitAt c = u.blitAt c
  state : y.blState c = u.blState c
  cons : y.blCons c = u.blCons c
  overrun : ∀ prod, y.blitOverrun c prod = u.blitOverrun c prod
  park : y.park = u.park
  owns : y.blitOwner c = u.blitOwner c
  epoch : owner < 4 → y.get (HP_EPOCH owner) HP_EPOCH_EPOCH = u.get (HP_EPOCH owner) HP_EPOCH_EPOCH
  ring : y.blitRingOk c owner = u.blitRingOk c owner
  entry : y.canReserve 4 c = u.canReserve 4 c

theorem blRung_rings (hc : c < 8) : u.blRings (u.blRung c w) c owner := by
  have he := (blRung_traffic (u := u) (c := c) (w := w)).engines
  have hcons : (u.blRung c w).blCons c = u.blCons c := blRung_bl hc (by simp) _
  have hlog : (u.blRung c w).blLog2 c = u.blLog2 c := blRung_bl hc (by simp) _
  have hbase : (u.blRung c w).blBase c = u.blBase c := by
    unfold State.blBase
    rw [blRung_bl hc (by simp), blRung_bl hc (by simp)]
  refine ⟨blRung_traffic.blitAt c, blRung_bl hc (by simp) _, hcons, fun prod => ?_, he.park, ownerOf_congr he.locket 4 c, fun ho => blRung_get ?_ ?_ _, ?_,
    canReserve_congr blRung_ev he.locket 4 c⟩
  · unfold State.blitOverrun
    rw [hlog, hcons]
  · refine lostCounter_eq_false fun p hp => ?_
    simp only [HP_EPOCH, HP_EV_STAT]
    omega
  · simp only [HP_EPOCH, BL_DB]
    omega
  · unfold State.blitRingOk State.jobAddr
    rw [hlog, hcons, hbase, he.reaches fun a ha => ?_]
    rw [List.mem_singleton.1 ha]
    have := (blWords_low hc).2.2.1
    omega

theorem blitRing_stale (ho : s.blitOwner c = some owner) (h : s.blStale owner w) :
    s.blitRing c w = (s.put (BL_STAT c) BL_STAT_STALE 1).bump (BL_STAT c) BL_STAT_DROP_CNT 1 := (blitRing_eq ho w).trans (if_pos h)

theorem blitRing_fresh (ho : s.blitOwner c = some owner) (h : ¬ s.blStale owner w) (hd : 0 ≤ sdiff 16 (getField w BL_DB_PROD) (s.blitAt c).prod) :
    (s.blBeyond c (getField w BL_DB_PROD) → (s.blitAt c).run = none → s.blitRing c w = s.blitHalt c 5 none) ∧
    (s.blBeyond c (getField w BL_DB_PROD) → (s.blitAt c).run ≠ none → s.blitRing c w = s.setBlitAt c (s.blitAt c).overruns) ∧
    (¬ s.blBeyond c (getField w BL_DB_PROD) → s.blitRing c w = (s.setBlitAt c ((s.blitAt c).produces (getField w BL_DB_PROD))).blitNext c) := by
  have h' : ¬ (owner < 4 ∧ getField w BL_DB_EPOCH ≠ s.get (HP_EPOCH owner) HP_EPOCH_EPOCH) := h
  rw [blitRing_eq ho w, if_neg h', if_neg (by omega)]
  refine ⟨fun hb hr => ?_, fun hb hr => ?_, fun hb => if_neg fun h => hb ((blBeyond_iff _).1 h)⟩
  · rw [if_pos ((blBeyond_iff _).2 hb), hr]
    rfl
  · rw [if_pos ((blBeyond_iff _).2 hb), if_pos (Option.isSome_iff_ne_none.2 hr)]

theorem blitRing_back (ho : s.blitOwner c = some owner) (h : ¬ s.blStale owner w) (hd : sdiff 16 (getField w BL_DB_PROD) (s.blitAt c).prod < 0) :
    s.blitRing c w = s := by
  have h' : ¬ (owner < 4 ∧ getField w BL_DB_EPOCH ≠ s.get (HP_EPOCH owner) HP_EPOCH_EPOCH) := h
  rw [blitRing_eq ho w, if_neg h', if_pos hd]

theorem State.blRings.stale {y : State} (h : u.blRings y c owner) : y.blStale owner w ↔ u.blStale owner w :=
  ⟨fun ⟨ho, hne⟩ => ⟨ho, by rw [← h.epoch ho]; exact hne⟩, fun ⟨ho, hne⟩ => ⟨ho, by rw [h.epoch ho]; exact hne⟩⟩

theorem State.blRings.beyond {y : State} (h : u.blRings y c owner) (prod : Nat) : y.blBeyond c prod ↔ u.blBeyond c prod := by
  unfold State.blBeyond
  rw [h.park, h.overrun, h.state]

end

/-! ## The obligation -/

/-- Settles O29: EN, ABORT and doorbells move a blit channel between its states, and slot ends issue its bands. -/
theorem blitControlCompletes : Obligations.BlitControlCompletes := by
  unfold Obligations.BlitControlCompletes
  intro s now c x stat
  have hx : ∀ but, s.quiet x but := fun but => (quiet_tick s now).mono (by simp)
  have hc := c.isLt
  refine ⟨?_, ?_, fun r hdue hr => ?_, fun r hdue hr => ⟨fun hband => ?_, fun hband => ?_⟩⟩
  · intro src value u w hadm ch
    have hrun : exec (.blitEnable now src c value) s = .next (u.blCtrl c.val w false) :=
      congrArg Host.Outcome.next (guarded_fst_of_admits hadm fun s w => s.blCtrl c.val w false)
    refine ⟨fun hen hab hoff hst ho hprod => ?_, fun hen hab => ?_, fun statBad hab h0 h4 hen => ?_⟩
    · obtain ⟨h1, hon, hq⟩ := blitEnable_idles hc hoff hst ho hprod
      exact ⟨_, hrun.trans (congrArg Host.Outcome.next (blCtrl_on hen hab false)), h1, hon, hq⟩
    · obtain ⟨hon, hr, hq, hoff, hkeep⟩ := blitEnable_stops (s := u) hc
      exact ⟨_, hrun.trans (congrArg Host.Outcome.next (blCtrl_off hen hab false)), hon, hr, hoff, hkeep, hq⟩
    · have hrunA : exec (.blitAbort now src c ⟨value, statBad⟩) s = .next (u.blCtrl c.val w statBad) :=
        congrArg Host.Outcome.next (guarded_fst_of_admits hadm fun s w => s.blCtrl c.val w statBad)
      obtain ⟨hst, hr, hstore, hnone, hsome⟩ := blCtrl_aborts hc hab h0 h4 hen statBad
      exact ⟨_, hrunA, hst, hr, hstore, hnone, hsome⟩
  · intro src value u w hadm
    have hrun : exec (.blitDoorbell now src c value) s = .next (u.blDb src c.val w) :=
      congrArg Host.Outcome.next (guarded_fst_of_admits hadm fun s w => s.blDb src c.val w)
    have hq := (blRung_traffic (u := u) (c := c.val) (w := w)).quiet
    refine ⟨fun hwait => ?_, fun owner hact ho => ?_⟩
    · exact ⟨_, hrun.trans (congrArg Host.Outcome.next (blDb_waits hwait)), rfl, hq.trans (quiet_of_same rfl rfl rfl rfl rfl rfl)⟩
    · have hk := blRung_rings (u := u) (w := w) (owner := owner) hc
      rw [blDb_acts hact] at hrun
      generalize u.blRung c.val w = y at hq hk hrun
      have hoy := hk.owns.trans ho
      refine ⟨fun hst => ?_, fun hst hd => ?_, fun hst hd hb hr => ?_, fun hst hd hb hr => ?_, fun hst hd hb => ?_⟩
      · have ht : y.traffic ((y.put (BL_STAT c.val) BL_STAT_STALE 1).bump (BL_STAT c.val) BL_STAT_DROP_CNT 1) [BL_STAT c.val] :=
          (traffic_put (by simp) _ _).trans (traffic_bump (by simp) _ _)
        refine ⟨_, hrun.trans (congrArg Host.Outcome.next (blitRing_stale hoy (hk.stale.2 hst))), ?_, (ht.blitAt _).trans hk.at_,
          (hq.mono (by simp)).trans (ht.quiet.mono (by simp [stat]))⟩
        rw [get_bump_apart _ (by decide) (by decide)]
        exact get_put_same _ _ _ _ (by decide)
      · exact ⟨_, hrun.trans (congrArg Host.Outcome.next (blitRing_back hoy (fun h => hst (hk.stale.1 h)) (by rw [hk.at_]; exact hd))), hk.at_, hq⟩
      all_goals have hfresh := blitRing_fresh hoy (fun h => hst (hk.stale.1 h)) (by rw [hk.at_]; exact hd)
      · exact ⟨_, hrun.trans (congrArg Host.Outcome.next (hfresh.1 ((hk.beyond _).2 hb) (by rw [hk.at_]; exact hr))), blitHalt_state hc _ _,
          blitHalt_cause hc (by decide) _, (hq.mono (by simp)).trans ((blitHalt_engines ..).quiet.mono (by simp [stat]))⟩
      · refine ⟨_, hrun.trans (congrArg Host.Outcome.next (hfresh.2.1 ((hk.beyond _).2 hb) (by rw [hk.at_]; exact hr))), ?_,
          hq.trans (engines_setBlitAt _).quiet⟩
        rw [setBlitAt_blitAt, hk.at_]
        rfl
      · obtain ⟨hprod, hr, hreads, hhalts, hquiet⟩ := blitProd_spec hc hoy (fun h => hb ((hk.beyond _).1 h))
        have hprem : ∀ {P : Prop}, (y.blState c.val = 1 → (y.blitAt c.val).reading = false → y.park.step = 0 → getField w BL_DB_PROD ≠ y.blCons c.val → P) →
            u.blState c.val = 1 → (u.blitAt c.val).reading = false → u.park.step = 0 → getField w BL_DB_PROD ≠ u.blCons c.val → P := fun k h1 h2 h3 h4 =>
          k (hk.state.trans h1) ((congrArg BlitCh.reading hk.at_).trans h2) ((congrArg Park.step hk.park).trans h3) (by rw [hk.cons]; exact h4)
        rw [hk.state] at hquiet
        refine ⟨_, hrun.trans (congrArg Host.Outcome.next (hfresh.2.2 fun h => hb ((hk.beyond _).1 h))), hprod, hr.trans (congrArg BlitCh.run hk.at_),
          fun h1 h2 h3 h4 => ⟨fun ho he => hprem hreads h1 h2 h3 h4 (hk.ring.trans ho) (hk.entry.trans he),
            fun ho => hprem hhalts h1 h2 h3 h4 (hk.ring.trans ho)⟩, ?_⟩
        split
        next h1 =>
          rw [if_pos h1] at hquiet
          exact (hq.mono (by simp)).trans (hquiet.mono fun a ha => List.mem_cons_of_mem _ ha)
        next h1 =>
          rw [if_neg h1] at hquiet
          exact hq.trans (hquiet.mono (by simp))
  · have hrun : exec (.blitDeadTimeEnd now c) s = .next (x.blitBegin c.val) := congrArg Host.Outcome.next (if_pos hdue)
    obtain ⟨hat, hq⟩ := blitBegin_spec (s := x) (c := c.val) hr
    exact ⟨_, x.jobStarted c.val r, hrun, congrArg BlitCh.run hat, rfl, rfl, rfl, blitBegin_state hc hr, (hx _).trans hq⟩
  · have hrun : exec (.blitBandSlot now c) s = .next (x.bandSlot c.val) := congrArg Host.Outcome.next (if_pos hdue)
    obtain ⟨q, hq, hb, hs, hquiet⟩ := bandSlot_spec (s := x) (c := c.val) hr hband
    exact ⟨_, q, hrun, hq, hb, hs, (hx _).trans hquiet⟩
  · have hslip : x.bandSlot c.val = x.bandSlip c.val r := by
      unfold State.bandSlot
      dsimp only
      rw [show (x.blitAt c.val).run = some r from hr]
      exact if_neg (by omega)
    have hrun : exec (.blitBandSlot now c) s = .next (x.bandSlot c.val) := congrArg Host.Outcome.next (if_pos hdue)
    rw [hslip] at hrun
    obtain ⟨hat, hst, hcnt, he⟩ := bandSlip_spec (s := x) (c := c.val) (r := r)
    exact ⟨_, hrun, congrArg BlitCh.run hat, hst, hcnt, (hx _).trans he.quiet⟩

end Sys2Proof.Machine

end

section

namespace Sys2Proof.Machine

/-! ## Jobs read and accepted (R377, R378, R381) -/

section

variable {s t u : State} {c : Nat} {but : List Nat}

/-- `t` is `s` but for registers, blit channels, the marks of use and the source of undefined bytes. -/
structure State.blMarks (s t : State) (but : List Nat) : Prop where
  same : t = { s with regs := t.regs, blit := t.blit, used := t.used, free := t.free }
  regs : s.regsSame t but

theorem State.blMarks.trans (h : s.blMarks t but) (k : t.blMarks u but) : s.blMarks u but where
  same := by
    have e := k.same
    rw [h.same] at e
    exact e
  regs a hl ha := (k.regs a hl ha).trans (h.regs a hl ha)

theorem State.blMarks.works (h : s.blMarks t but) {a n : Nat} : s.works t a n but where
  same := by
    have e := h.same
    rw [e]
  mem b _ := by
    unfold State.rdByte
    rw [h.same]
  poison b hb := by rw [h.same] at hb; exact hb
  regs := h.regs

theorem State.blMarks.trigNow (h : s.blMarks t but) (kind unit arg : Nat) : t.trigNow kind unit arg = s.trigNow kind unit arg := by
  unfold State.trigNow
  rw [h.same]

theorem State.blMarks.dtime (h : s.blMarks t but) : t.dtime = s.dtime := by rw [h.same]

theorem blMarks_put {a : Nat} (ha : a ∈ but) (f : Fld) (v : Nat) : s.blMarks (s.put a f v) but := ⟨rfl, (traffic_put ha f v).regs⟩

theorem blMarks_setBlitAt (v : BlitCh) : s.blMarks (s.setBlitAt c v) but := ⟨rfl, fun _ _ _ => rfl⟩

theorem blMarks_markUse (i : Nat) : s.blMarks (s.markUse i) but := by
  unfold State.markUse
  split
  · exact ⟨rfl, fun _ _ _ => rfl⟩
  · exact ⟨rfl, fun _ _ _ => rfl⟩

theorem markUse_blitAt (i : Nat) : (s.markUse i).blitAt c = s.blitAt c := by
  unfold State.markUse
  split <;> rfl

theorem blMarks_drawHalf : s.blMarks s.drawHalf.2 but := ⟨rfl, fun _ _ _ => rfl⟩

theorem drawHalf_blitAt : s.drawHalf.2.blitAt c = s.blitAt c := rfl

variable {owner : Nat} {j : List Byte} {statBad : Bool}

/-- The surfaces of a job. -/
def State.jobTo (s : State) (j : List Byte) : SurfEntry := s.entryAt (handleIndex (jobDst j))
def State.jobFrom (s : State) (j : List Byte) : SurfEntry := if jobFill j then s.jobTo j else s.entryAt (handleIndex (jobSrc j))

/-- A job as it is accepted. -/
def State.blitRunOf (s : State) (c : Nat) (j : List Byte) : BlitRun :=
  { addr := s.jobAddr c, job := j, count := s.blCons c, src := s.jobFrom j, dst := s.jobTo j,
    srcIdx := if jobFill j then none else some (handleIndex (jobSrc j)), dstIdx := handleIndex (jobDst j),
    waiting := true, trigd := jobKind j == 0, started := none, steps := 0, unwr := [], firstErr := none, band := 0, slotEnd := 0, slipped := false }

/-- A channel that has taken a job. -/
def BlitCh.takes (ch : BlitCh) (r : BlitRun) : BlitCh := { ch with reading := false, run := some r }

/-- The job taken, its watermark begun. -/
def State.blitTaken (s : State) (c : Nat) (j : List Byte) : State :=
  let z := (s.setBlitAt c ((s.blitAt c).takes (s.blitRunOf c j))).drawHalf
  (z.2.put (BL_WMARK c) BL_WMARK_ROWS 0).put (BL_WMARK c) BL_WMARK_EDGE_Y z.1

/-- The job's surfaces marked as used, and the channel waiting. -/
def State.blitWaits (s : State) (c : Nat) (r : BlitRun) : State :=
  ((match r.srcIdx with
    | some i => s.markUse i
    | none => s).markUse r.dstIdx).setBlState c 2

theorem blitAccept_eq : s.blitAccept c owner j statBad =
    match s.jobRefusal c owner j with
    | some detail => (s.blitTaken c j).blitEnd c 5 detail 0 0xFFFFFFFF (jobDw j * jobDh j) (!statBad) none
    | none =>
      let z := (s.blitTaken c j).blitWaits c (s.blitRunOf c j)
      if jobKind j = 0 || z.trigNow (jobKind j) (jobUnit j) (jobArg j) then z.blitTrigger c else z := rfl

theorem blitTaken_marks : s.blMarks (s.blitTaken c j) [BL_WMARK c] := by
  unfold State.blitTaken
  exact (((blMarks_setBlitAt _).trans blMarks_drawHalf).trans (blMarks_put (by simp) _ _)).trans (blMarks_put (by simp) _ _)

theorem blitTaken_rows : (s.blitTaken c j).get (BL_WMARK c) BL_WMARK_ROWS = 0 := by
  unfold State.blitTaken
  dsimp only
  rw [get_put_apart _ _ _ _ _ (by decide) (by decide)]
  exact get_put_same _ _ _ _ (by decide)

theorem put_blitAt (a : Nat) (f : Fld) (v : Nat) : (s.put a f v).blitAt c = s.blitAt c := (traffic_put (but := [a]) (by simp) f v).blitAt c

theorem blitTaken_blitAt : (s.blitTaken c j).blitAt c = (s.blitAt c).takes (s.blitRunOf c j) := by
  unfold State.blitTaken
  dsimp only
  rw [put_blitAt, put_blitAt, drawHalf_blitAt, setBlitAt_blitAt]

variable {r : BlitRun}

theorem blitWaits_spec (hc : c < 8) : s.blMarks (s.blitWaits c r) [BL_STAT c] ∧ (s.blitWaits c r).blitAt c = s.blitAt c ∧ (s.blitWaits c r).blState c = 2 := by
  have hm : s.blMarks (match r.srcIdx with
    | some i => s.markUse i
    | none => s) [BL_STAT c] := by
    split
    · exact blMarks_markUse _
    · exact ⟨rfl, fun _ _ _ => rfl⟩
  have ha : (match r.srcIdx with
    | some i => s.markUse i
    | none => s).blitAt c = s.blitAt c := by
    split
    · exact markUse_blitAt _
    · rfl
  unfold State.blitWaits
  generalize (match r.srcIdx with
    | some i => s.markUse i
    | none => s) = z at hm ha
  refine ⟨(hm.trans (blMarks_markUse _)).trans (blMarks_put (by simp) _ _), ?_, setBlState_state (by decide)⟩
  exact (put_blitAt ..).trans ((markUse_blitAt _).trans ha)

/-- A job whose trigger has occurred. -/
def BlitRun.triggered (r : BlitRun) : BlitRun := { r with trigd := true }

theorem deadOver_congr (hat : (t.blitAt c).lastEnd = (s.blitAt c).lastEnd) (hp : t.get (BL_PACE c) BL_PACE_DEAD_NS = s.get (BL_PACE c) BL_PACE_DEAD_NS)
    (hd : t.dtime = s.dtime) : t.deadOver c = s.deadOver c := by
  unfold State.deadOver
  rw [hat, hp, hd]

theorem blitTrigger_eq (hr : (s.blitAt c).run = some r) : s.blitTrigger c =
    if s.deadOver c then (s.setBlitAt c ((s.blitAt c).runs r.triggered)).blitBegin c else s.setBlitAt c ((s.blitAt c).runs r.triggered) := by
  have hd : (s.setBlitAt c ((s.blitAt c).runs r.triggered)).deadOver c = s.deadOver c :=
    deadOver_congr (by rw [setBlitAt_blitAt]; rfl) (setBlitAt_get ..) rfl
  rw [← hd]
  unfold State.blitTrigger
  dsimp only
  rw [hr]
  rfl

theorem blitTrigger_spec (hc : c < 8) (hr : (s.blitAt c).run = some r) : ∃ q, (s.blitTrigger c).blitAt c = (s.blitAt c).runs q ∧
    q.job = r.job ∧ q.addr = r.addr ∧ q.count = r.count ∧ s.engines (s.blitTrigger c) (BL_STAT c :: trafficWords) ∧
    (s.deadOver c = true → q.waiting = false ∧ (s.blitTrigger c).blState c = 3) ∧
    (s.deadOver c = false → q.waiting = r.waiting ∧ q.trigd = true ∧ (s.blitTrigger c).blState c = s.blState c) := by
  have hd := setBlitAt_blitAt (s := s) (c := c) ((s.blitAt c).runs r.triggered)
  have he : s.engines (s.setBlitAt c ((s.blitAt c).runs r.triggered)) (BL_STAT c :: trafficWords) := engines_setBlitAt _
  have hst := setBlitAt_state (s := s) (c := c) ((s.blitAt c).runs r.triggered)
  rw [blitTrigger_eq hr]
  generalize s.setBlitAt c ((s.blitAt c).runs r.triggered) = z at hd he hst
  cases s.deadOver c with
  | true =>
    have hz : (z.blitAt c).run = some r.triggered := by rw [hd]; rfl
    rw [if_pos rfl]
    refine ⟨z.jobStarted c r.triggered, ?_, rfl, rfl, rfl, he.trans blitBegin_engines, fun _ => ⟨rfl, blitBegin_state hc hz⟩, nofun⟩
    rw [(blitBegin_spec hz).1, hd]
    rfl
  | false =>
    rw [if_neg Bool.false_ne_true]
    exact ⟨r.triggered, hd, rfl, rfl, rfl, he, nofun, fun _ => ⟨rfl, rfl, hst⟩⟩

theorem blPace_apart (hc : c < 8) : BL_PACE c < 0x701000 ∧ BL_PACE c ≠ BL_WMARK c ∧ BL_PACE c ≠ BL_STAT c ∧ BL_WMARK c ≠ BL_STAT c := by
  simp only [BL_PACE, BL_WMARK, BL_STAT]
  omega

/-- What the acceptance of a job leaves. -/
structure State.blitAccepts (s t : State) (c : Nat) (j : List Byte) : Prop where
  run : ∃ r, (t.blitAt c).run = some r ∧ r.job = j ∧ r.addr = s.jobAddr c ∧ r.count = s.blCons c ∧
    (jobKind j = 0 ∨ s.trigNow (jobKind j) (jobUnit j) (jobArg j) = true → s.deadOver c = true → r.waiting = false ∧ t.blState c = 3) ∧
    (jobKind j = 0 ∨ s.trigNow (jobKind j) (jobUnit j) (jobArg j) = true → s.deadOver c = false → r.waiting = true ∧ r.trigd = true ∧ t.blState c = 2) ∧
    (¬ (jobKind j = 0 ∨ s.trigNow (jobKind j) (jobUnit j) (jobArg j) = true) → r.waiting = true ∧ r.trigd = false ∧ t.blState c = 2)
  reading : (t.blitAt c).reading = false
  rows : t.get (BL_WMARK c) BL_WMARK_ROWS = 0
  quiet : s.quiet t (BL_STAT c :: BL_WMARK c :: trafficWords)

theorem blitAccept_taken (h : s.jobRefusal c owner j = none) : s.blitAccept c owner j statBad =
    if jobKind j = 0 || ((s.blitTaken c j).blitWaits c (s.blitRunOf c j)).trigNow (jobKind j) (jobUnit j) (jobArg j) then
      ((s.blitTaken c j).blitWaits c (s.blitRunOf c j)).blitTrigger c
    else (s.blitTaken c j).blitWaits c (s.blitRunOf c j) := by
  rw [blitAccept_eq, h]

theorem blitAccept_accepts (hc : c < 8) (h : s.jobRefusal c owner j = none) : s.blitAccepts (s.blitAccept c owner j statBad) c j := by
  rw [blitAccept_taken h]
  have hm := blitTaken_marks (s := s) (c := c) (j := j)
  have hrows := blitTaken_rows (s := s) (c := c) (j := j)
  have hat := blitTaken_blitAt (s := s) (c := c) (j := j)
  generalize s.blitTaken c j = y at hm hrows hat
  obtain ⟨hm', hat', hst⟩ := blitWaits_spec (s := y) (r := s.blitRunOf c j) hc
  generalize y.blitWaits c (s.blitRunOf c j) = z at hm' hat' hst
  obtain ⟨hpl, hp1, hp2, hp3⟩ := blPace_apart hc
  rw [hm'.trigNow, hm.trigNow]
  have hrowz : z.get (BL_WMARK c) BL_WMARK_ROWS = 0 := by
    refine Eq.trans ?_ hrows
    exact hm'.works (a := 0) (n := 0) |>.get (lostCounter_bl (blWords_low hc).2.2.2.2.2.2.2.1) (by simpa using hp3) _
  have hatz : z.blitAt c = (s.blitAt c).takes (s.blitRunOf c j) := hat'.trans hat
  have hrun : (z.blitAt c).run = some (s.blitRunOf c j) := by rw [hatz]; rfl
  have hdead : z.deadOver c = s.deadOver c := by
    refine deadOver_congr (by rw [hatz]; rfl) ?_ (hm'.dtime.trans hm.dtime)
    exact (hm'.works (a := 0) (n := 0) |>.get (lostCounter_bl hpl) (by simpa using hp2) _).trans
      (hm.works (a := 0) (n := 0) |>.get (lostCounter_bl hpl) (by simpa using hp1) _)
  have hq : s.quiet z (BL_STAT c :: BL_WMARK c :: trafficWords) :=
    ((hm.works (a := 0)).quiet.mono (by simp)).trans ((hm'.works (a := 0)).quiet.mono (by simp))
  by_cases hnow : jobKind j = 0 ∨ s.trigNow (jobKind j) (jobUnit j) (jobArg j) = true
  · rw [if_pos (by simpa using hnow)]
    obtain ⟨q, hqa, hqj, hqd, hqc, he, hgo, hwait⟩ := blitTrigger_spec hc hrun
    rw [hdead] at hgo hwait
    refine ⟨⟨q, by rw [hqa]; rfl, hqj, hqd, hqc, fun _ => hgo, fun _ hd => ?_, fun hn => absurd hnow hn⟩, ?_, ?_, ?_⟩
    · obtain ⟨h1, h2, h3⟩ := hwait hd
      exact ⟨h1, h2, h3.trans hst⟩
    · rw [hqa, hatz]
      rfl
    · refine (he.quiet.get (lostCounter_bl (blWords_low hc).2.2.2.2.2.2.2.1) (fun hm => ?_) _).trans hrowz
      rcases List.mem_cons.1 hm with h | h
      · exact hp3 h
      · exact not_traffic_bl (blWords_low hc).2.2.2.2.2.2.2.1 h
    · exact hq.trans (he.quiet.mono fun a ha => by
        rcases List.mem_cons.1 ha with rfl | ha
        · simp
        · simp [ha])
  · rw [if_neg (by simpa using hnow)]
    refine ⟨⟨s.blitRunOf c j, hrun, rfl, rfl, rfl, fun hn => absurd hn hnow, fun hn => absurd hn hnow, fun _ => ⟨rfl, ?_, hst⟩⟩, ?_, hrowz, hq⟩
    · exact beq_false_of_ne fun h0 => hnow (.inl h0)
    · rw [hatz]
      rfl

/-- A job that a check refuses ends at once with an error. -/
theorem blitAccept_refused (hc : c < 8) (h : s.jobRefusal c owner j ≠ none) (hs : s.takesStatus (s.jobAddr c)) :
    ((s.blitAccept c owner j false).blitAt c).run = none ∧ (s.blitAccept c owner j false).on (BL_STAT c) BL_STAT_ERR = true ∧
    (s.blitAccept c owner j false).blCons c = (s.blCons c + 1) % 65536 ∧
    (s.on (BL_CFG c) BL_CFG_ONERR = false →
      (s.blitAccept c owner j false).blState c = 4 ∧ (s.blitAccept c owner j false).get (BL_STAT c) BL_STAT_CAUSE = 1) ∧
    s.works (s.blitAccept c owner j false) (s.jobAddr c + 48) 16 (BL_WMARK c :: blEndWords c) := by
  obtain ⟨detail, hd⟩ := Option.ne_none_iff_exists'.1 h
  rw [blitAccept_eq, hd]
  dsimp only
  have hm := blitTaken_marks (s := s) (c := c) (j := j)
  have hat := blitTaken_blitAt (s := s) (c := c) (j := j)
  have haddr : (s.blitRunOf c j).addr = s.jobAddr c := rfl
  generalize s.blitTaken c j = z at hm hat
  have hr : (z.blitAt c).run = some (s.blitRunOf c j) := by rw [hat]; rfl
  generalize s.blitRunOf c j = r at hr haddr
  have hz := hm.works (a := r.addr + 48) (n := 16)
  obtain ⟨hworks, hrun, hcons, herr, _⟩ := blitEnd_ends hc hr 5 detail 0 0xFFFFFFFF (jobDw j * jobDh j) (!false) none
  have hzs : z.takesStatus r.addr := hz.takesStatus (by rw [haddr]; exact hs)
  have hst := (blitEnd_halts (code := 5) hc hr hzs detail 0 0xFFFFFFFF (jobDw j * jobDh j) (!false) none).2 (by decide) rfl rfl
  have hget : ∀ a, a < 0x701000 → a ≠ BL_WMARK c → ∀ f, z.get a f = s.get a f := fun a ha hne f => hz.get (lostCounter_bl ha) (by simpa using hne) f
  rw [haddr] at hworks hz
  refine ⟨hrun, bne_iff_ne.2 (by rw [herr (by decide)]; decide), ?_, fun hoff => hst ?_, (hz.mono (by simp)).trans (hworks.mono fun _ ha => List.mem_cons_of_mem _ ha)⟩
  · rw [hcons, show z.blCons c = s.blCons c from hget _ (blWords_low hc).2.2.2.2.1 (by simp only [BL_CONS, BL_WMARK]; omega) _]
  · exact (congrArg (· != 0) (hget _ (blWords_low hc).2.2.2.1 (by simp only [BL_CFG, BL_WMARK]; omega) _)).trans hoff

end

end Sys2Proof.Machine

end

section

namespace Sys2Proof.Machine

/-! ## Pixels (R375, R383, R387) -/

section

variable {s t : State} {r : BlitRun}

theorem memGood_clean (hup : s.subsUp = true) (hp : s.poison = []) (a n : Nat) : s.memGood a n = true := by
  unfold State.memGood State.serves State.poisoned
  rw [hup, hp]
  rfl

theorem serves_up (hup : s.subsUp = true) (a n : Nat) : s.serves a n = true := by
  unfold State.serves
  rw [hup]
  rfl

/-- `t` is `s` but for the bytes of a plane's destination rows. -/
structure State.rowsOf (s t : State) (p : Plane) (x : Nat) : Prop where
  same : t = { s with mem := t.mem }
  mem : ∀ a, (∀ b ∈ p.dstRows x, a < b.1 ∨ b.1 + b.2 ≤ a) → t.rdByte a = s.rdByte a

theorem rowsOf_refl (s : State) (p : Plane) (x : Nat) : s.rowsOf s p x := ⟨rfl, fun _ _ => rfl⟩

theorem State.rowsOf.trans {u : State} {p : Plane} {x : Nat} (h : s.rowsOf t p x) (k : t.rowsOf u p x) : s.rowsOf u p x where
  same := by
    have e := k.same
    rw [h.same] at e
    exact e
  mem a ha := (k.mem a ha).trans (h.mem a ha)

/-- A plane whose units are of the size that the format moves. -/
def Plane.fits (p : Plane) (f : Nat) : Prop := fmtYuvPacked f = true → p.u = 4

theorem moveBytes_length {p : Plane} {f : Nat} (hf : p.fits f) (x : Nat) {bs : List Byte} (h : bs.length = p.u) : (moveBytes f x bs).length = p.u := by
  unfold moveBytes
  split
  next hc =>
    rw [hf (Bool.and_eq_true_iff.1 hc).1]
    unfold swapPair
    split <;> rfl
  · exact h

theorem jobPlanes_fits (j : List Byte) (src dst : SurfEntry) : ∀ p ∈ jobPlanes j src dst, p.fits dst.format := by
  intro p hp hf
  unfold jobPlanes at hp
  dsimp only at hp
  rw [if_pos hf] at hp
  rw [List.mem_singleton.1 hp]

theorem stepPlane_mem {j : List Byte} {ps : List Plane} {k n : Nat} {x : Nat × Plane × Nat} (h : stepPlane j ps k n = some x) : x.2.1 ∈ ps := by
  induction ps generalizing k n with
  | nil => cases h
  | cons p ps ih =>
    unfold stepPlane at h
    split at h
    · cases h
      exact List.mem_cons_self
    · exact List.mem_cons_of_mem _ (ih h)

/-- A clean hub: every controller runs and no block is poisoned. -/
structure State.clean (s : State) : Prop where
  up : s.subsUp = true
  good : s.poison = []

theorem State.rowsOf.clean {p : Plane} {x : Nat} (h : s.rowsOf t p x) (hc : s.clean) : t.clean where
  up := by
    have hup := hc.up
    unfold State.subsUp State.islUp at *
    rw [h.same]
    exact hup
  good := by
    rw [h.same]
    exact hc.good

variable {p : Plane} {k : Nat}

theorem moveUnit_clean (hc : s.clean) (hf : p.fits r.dst.format) {u v : Nat} (hu : u < p.dw (jobXform r.job)) (hv : v < p.dh (jobXform r.job)) :
    (s.moveUnit [] [] k p v r u).2 = r ∧ s.rowsOf (s.moveUnit [] [] k p v r u).1 p (jobXform r.job) := by
  obtain ⟨o, ho⟩ : ∃ o, o = p.origin (jobXform r.job) u v := ⟨_, rfl⟩
  unfold State.moveUnit
  dsimp only
  rw [← ho, memGood_clean hc.up hc.good, serves_up hc.up, if_neg (by simp [blocksHit]), if_neg (by simp [blocksHit]), if_neg (by simp)]
  have hlen : (if jobFill r.job = true then bytesAt r.job 24 p.u else moveBytes r.dst.format (jobXform r.job) (s.rdBytes (p.srcAt o.1 o.2) p.u)).length = p.u := by
    split
    · exact bytesAt_length ..
    · exact moveBytes_length hf _ (by simp [State.rdBytes])
  generalize (if jobFill r.job = true then bytesAt r.job 24 p.u else moveBytes r.dst.format (jobXform r.job) (s.rdBytes (p.srcAt o.1 o.2) p.u)) = bs at hlen
  refine ⟨rfl, wrBytes_eq s _ bs, fun a ha => (touches_wrBytes s _ bs).mem a ?_⟩
  have hrow := ha (p.dstAt 0 v, p.dw (jobXform r.job) * p.u) (List.mem_map.2 ⟨v, List.mem_range.2 hv, rfl⟩)
  have hat : p.dstAt u v = p.dstAt 0 v + u * p.u := by
    unfold Plane.dstAt
    rw [Nat.add_zero, Nat.add_mul p.dx]
    omega
  have hle : (u + 1) * p.u ≤ p.dw (jobXform r.job) * p.u := Nat.mul_le_mul_right _ hu
  rw [Nat.add_mul, Nat.one_mul] at hle
  rw [hat, hlen]
  dsimp only at hrow
  omega

/-- What a fold of moves keeps, of the state and of the job. -/
theorem moves_foldl {α : Type} {f : State × BlitRun → α → State × BlitRun} {l : List α} {x : Nat}
    (h : ∀ s, s.clean → ∀ a ∈ l, (f (s, r) a).2 = r ∧ s.rowsOf (f (s, r) a).1 p x) (hc : s.clean) :
    (l.foldl f (s, r)).2 = r ∧ s.rowsOf (l.foldl f (s, r)).1 p x := by
  induction l generalizing s with
  | nil => exact ⟨rfl, rowsOf_refl ..⟩
  | cons a l ih =>
    obtain ⟨hr, hrow⟩ := h s hc a List.mem_cons_self
    have hpair : f (s, r) a = ((f (s, r) a).1, r) := Prod.ext rfl hr
    obtain ⟨hr', hrow'⟩ := ih (s := (f (s, r) a).1) (fun s hs b hb => h s hs b (List.mem_cons_of_mem _ hb)) (hrow.clean hc)
    rw [List.foldl_cons, hpair]
    exact ⟨hr', hrow.trans hrow'⟩

theorem moveRow_clean (hc : s.clean) (hf : p.fits r.dst.format) (right : Bool) {v : Nat} (hv : v < p.dh (jobXform r.job)) :
    (s.moveRow [] [] k p right r v).2 = r ∧ s.rowsOf (s.moveRow [] [] k p right r v).1 p (jobXform r.job) := by
  have hmem : ∀ u ∈ (if right then (List.range (p.dw (jobXform r.job))).reverse else List.range (p.dw (jobXform r.job))), u < p.dw (jobXform r.job) := by
    intro u hu
    split at hu
    · exact List.mem_range.1 (List.mem_reverse.1 hu)
    · exact List.mem_range.1 hu
  have hfold := moves_foldl (s := s) (r := r) (p := p) (x := jobXform r.job) (f := fun x u => x.1.moveUnit [] [] k p v x.2 u)
    (l := if right then (List.range (p.dw (jobXform r.job))).reverse else List.range (p.dw (jobXform r.job)))
    (fun z hz u hu => moveUnit_clean hz hf (hmem u hu) hv) hc
  unfold State.moveRow
  dsimp only
  generalize List.foldl _ (s, r) _ = y at hfold
  rw [if_pos]
  · exact hfold
  · rw [(hfold.2.clean hc).good]
    rfl

theorem moveBand_clean (hc : s.clean) (hf : p.fits r.dst.format) (down right : Bool) (n : Nat) :
    (s.moveBand [] [] k p down right r n).2 = r ∧ s.rowsOf (s.moveBand [] [] k p down right r n).1 p (jobXform r.job) := by
  unfold State.moveBand
  refine moves_foldl (f := fun x v => x.1.moveRow [] [] k p right x.2 v) (fun z hz v hv => moveRow_clean hz hf right ?_) hc
  obtain ⟨w, hw, rfl⟩ := List.mem_map.1 hv
  have hlt := of_decide_eq_true (List.mem_filter.1 hw).2
  split <;> omega

end

/-! ## A step completes (R386) -/

section

variable {s t : State} {c : Nat} {r : BlitRun}

theorem State.rowsOf.works {p : Plane} {x : Nat} (h : s.rowsOf t p x) : s.storeSame t ∧ (∀ but, s.regsSame t but) ∧ ∀ c, t.blitAt c = s.blitAt c := by
  refine ⟨⟨by rw [h.same], by rw [h.same], by rw [h.same]⟩, fun but a _ _ => ?_, fun c => ?_⟩
  · unfold State.rd
    rw [h.same]
  · unfold State.blitAt
    rw [h.same]

/-- A job of which one more step is done. -/
def BlitRun.stepped (r : BlitRun) : BlitRun := { r with steps := r.steps + 1 }

/-- A job whose slipped band has completed: the next one is issued. -/
def State.bandCaught (s : State) (c : Nat) (r : BlitRun) : BlitRun :=
  { r.stepped with slipped := false, band := r.band + 1, slotEnd := s.dtime + if decide (r.steps + 1 < r.total) then s.slotNs c r.job else 0 }

/-- The channel after the pixels of a step have moved. -/
def State.blitStepped (s : State) (c : Nat) (ch : BlitCh) (r : BlitRun) : State :=
  if c < 6 then ((s.setBlitAt c (ch.runs r.stepped)).wmShow c r.stepped).blitAsk c (r.steps + 1)
  else if r.slipped then ((s.setBlitAt c (ch.runs (s.bandCaught c r))).wmShow c (s.bandCaught c r)).blitAsk c (r.band + 1)
  else s.setBlitAt c (ch.runs r.stepped)

theorem blitStep_eq {y : State} (hy : s.bandLate c = y) (hr : (y.blitAt c).run = some r) {k n : Nat} {p : Plane}
    (hp : stepPlane r.job r.planes 0 r.steps = some (k, p, n))
    (hm : (y.moveBand [] [] k p (r.topDown c) (r.rightFirst c) r n).2 = r) :
    s.blitStep c [] [] = (y.moveBand [] [] k p (r.topDown c) (r.rightFirst c) r n).1.blitStepped c (y.blitAt c) r := by
  unfold State.blitStep
  dsimp only
  rw [hy, hr]
  dsimp only
  rw [hp]
  dsimp only
  generalize y.moveBand [] [] k p (r.topDown c) (r.rightFirst c) r n = z at hm
  obtain ⟨z, r'⟩ := z
  subst hm
  rfl

/-- The steps a channel's job keeps through its completion. -/
structure BlitRun.stepsOn (r q : BlitRun) : Prop where
  steps : q.steps = r.steps + 1
  job : q.job = r.job
  unwr : q.unwr = r.unwr
  firstErr : q.firstErr = r.firstErr

theorem blitStepped_spec (ch : BlitCh) : ∃ q, ((s.blitStepped c ch r).blitAt c).run = some q ∧ r.stepsOn q ∧
    s.engines (s.blitStepped c ch r) (BL_WMARK c :: trafficWords) := by
  have hgo : ∀ (q : BlitRun) (n : Nat), (((s.setBlitAt c (ch.runs q)).wmShow c q).blitAsk c n).blitAt c = ch.runs q ∧
      s.engines (((s.setBlitAt c (ch.runs q)).wmShow c q).blitAsk c n) (BL_WMARK c :: trafficWords) := fun q n => by
    have hd := setBlitAt_blitAt (s := s) (c := c) (ch.runs q)
    have he : s.engines (s.setBlitAt c (ch.runs q)) (BL_WMARK c :: trafficWords) := engines_setBlitAt _
    generalize s.setBlitAt c (ch.runs q) = z at hd he
    have ht : z.traffic ((z.wmShow c q).blitAsk c n) (BL_WMARK c :: trafficWords) :=
      (wmShow_traffic.mono (by simp)).trans ((blitAsk_traffic _).mono fun _ ha => List.mem_cons_of_mem _ ha)
    exact ⟨(ht.blitAt c).trans hd, he.trans ht.engines⟩
  unfold State.blitStepped
  split
  · exact ⟨_, (congrArg BlitCh.run (hgo ..).1).trans rfl, ⟨rfl, rfl, rfl, rfl⟩, (hgo ..).2⟩
  · split
    · exact ⟨_, (congrArg BlitCh.run (hgo ..).1).trans rfl, ⟨rfl, rfl, rfl, rfl⟩, (hgo ..).2⟩
    · exact ⟨r.stepped, congrArg BlitCh.run (setBlitAt_blitAt _), ⟨rfl, rfl, rfl, rfl⟩, engines_setBlitAt _⟩

/-- A late band slips before its step completes. -/
theorem bandLate_spec (hr : (s.blitAt c).run = some r) : ∃ q, ((s.bandLate c).blitAt c).run = some q ∧ (q = r ∨ q = r.slips) ∧
    s.engines (s.bandLate c) (if c < 6 then [] else [BL_STAT c, BL_SLIP_CNT c]) := by
  unfold State.bandLate
  rw [hr]
  dsimp only
  split
  next h =>
    obtain ⟨hat, _, _, he⟩ := bandSlip_spec (s := s) (c := c) (r := r)
    have hc : ¬ c < 6 := by
      simp only [Bool.and_eq_true, decide_eq_true_eq] at h
      omega
    rw [if_neg hc]
    exact ⟨r.slips, (congrArg BlitCh.run hat).trans rfl, .inr rfl, he⟩
  · exact ⟨r, hr, .inl rfl, engines_refl ..⟩

/-- A step that is due moves its pixels inside the rows of its plane. -/
theorem blitStep_spec (hc : s.clean) (hr : (s.blitAt c).run = some r) {k n : Nat} {p : Plane} (hp : stepPlane r.job r.planes 0 r.steps = some (k, p, n)) :
    ∃ q, ((s.blitStep c [] []).blitAt c).run = some q ∧ r.stepsOn q ∧
      (∀ a, (∀ b ∈ p.dstRows (jobXform r.job), a < b.1 ∨ b.1 + b.2 ≤ a) → (s.blitStep c [] []).rdByte a = s.rdByte a) ∧
      s.storeSame (s.blitStep c [] []) ∧
      s.regsSame (s.blitStep c [] []) ((if c < 6 then [] else [BL_STAT c, BL_SLIP_CNT c]) ++ BL_WMARK c :: trafficWords) := by
  obtain ⟨q, hq, hqr, he⟩ := bandLate_spec hr
  obtain ⟨y, hy⟩ : ∃ y, s.bandLate c = y := ⟨_, rfl⟩
  rw [hy] at hq he
  have hyc : y.clean := by
    refine ⟨((he.works (a := 0) (n := 0)).subsUp).trans hc.up, ?_⟩
    rw [he.same]
    exact hc.good
  have hfits : p.fits r.dst.format := jobPlanes_fits _ _ _ p (stepPlane_mem hp)
  have hqp : stepPlane q.job q.planes 0 q.steps = some (k, p, n) ∧ q.dst = r.dst ∧ q.job = r.job ∧ q.steps = r.steps ∧ q.unwr = r.unwr ∧
      q.firstErr = r.firstErr := by
    rcases hqr with rfl | rfl <;> exact ⟨hp, rfl, rfl, rfl, rfl, rfl⟩
  obtain ⟨hqp, hdst, hjob, hsteps, hunwr, hfirst⟩ := hqp
  obtain ⟨hm, hrows⟩ := moveBand_clean (k := k) (p := p) (r := q) hyc (by rw [hdst]; exact hfits) (q.topDown c) (q.rightFirst c) n
  have heq := blitStep_eq hy hq hqp hm
  generalize (y.moveBand [] [] k p (q.topDown c) (q.rightFirst c) q n).1 = z at hrows heq
  obtain ⟨w, hw, hs, hze⟩ := blitStepped_spec (s := z) (c := c) (r := q) (y.blitAt c)
  obtain ⟨hstore, hregs, _⟩ := hrows.works
  rw [heq]
  refine ⟨w, hw, ⟨hs.steps.trans (by rw [hsteps]), hs.job.trans hjob, hs.unwr.trans hunwr, hs.firstErr.trans hfirst⟩, fun a ha => ?_, ?_, ?_⟩
  · exact (hze.quiet.1 a).trans ((hrows.mem a (by rw [hjob]; exact ha)).trans (he.quiet.1 a))
  · obtain ⟨a0, a1, ao⟩ := he.quiet.2.1
    obtain ⟨b0, b1, bo⟩ := hstore
    obtain ⟨c0, c1, co⟩ := hze.quiet.2.1
    exact ⟨c0.trans (b0.trans a0), c1.trans (b1.trans a1), co.trans (bo.trans ao)⟩
  · exact fun a hl ha => (hze.regs a hl fun h => ha (List.mem_append_right _ h)).trans
      ((hregs [] a hl (by simp)).trans (he.regs a hl fun h => ha (List.mem_append_left _ h)))

/-! ### DONE (R384) -/

theorem blitDone_eq (hr : (s.blitAt c).run = some r) (hf : r.firstErr = none) : ∃ z rows, s.traffic z [BL_WMARK c] ∧
    s.blitDone c true = z.blitEnd c 0 0 rows r.errRow r.unwr.length true none := by
  refine ⟨s.wmShow c r, (s.wmShow c r).get (BL_WMARK c) BL_WMARK_ROWS, wmShow_traffic, ?_⟩
  unfold State.blitDone
  rw [hr]
  dsimp only
  rw [hf]
  rfl

theorem blitJob_eq {owner : Nat} {y : State} (ho : s.blitOwner c = some owner) (hw : windowOf (s.jobAddr c) = none)
    (hg : s.memGood (s.jobAddr c) 64 = true) (hres : s.reserve (s.readersOf 4 c) = some y) (statBad : Bool) :
    s.blitJob c .ok [] statBad = y.blitAccept c owner (s.rdBytes (s.jobAddr c) 64) statBad := by
  unfold State.blitJob
  rw [ho, busRead_good hw hg]
  dsimp only
  rw [hres]

theorem onlyEvents_bl (h : s.onlyEvents t) {a : Nat} (ha : a < 0x701000) (f : Fld) : t.get a f = s.get a f := onlyEvents_get h f (lostCounter_bl ha)

theorem onlyEvents_jobAddr (hc : c < 8) (h : s.onlyEvents t) : t.jobAddr c = s.jobAddr c := by
  have hget : ∀ a ∈ [BL_RING_LO c, BL_RING_HI c, BL_CONS c, BL_CFG c], ∀ f, t.get a f = s.get a f := fun a ha f => by
    refine onlyEvents_bl h ?_ f
    simp only [List.mem_cons, List.not_mem_nil, or_false, BL_RING_LO, BL_RING_HI, BL_CONS, BL_CFG] at ha
    omega
  unfold State.jobAddr State.blBase State.blCons State.blLog2
  rw [hget _ (by simp), hget _ (by simp), hget _ (by simp), hget _ (by simp)]

theorem onlyEvents_deadOver (hc : c < 8) (h : s.onlyEvents t) : t.deadOver c = s.deadOver c :=
  deadOver_congr (congrArg BlitCh.lastEnd ((traffic_events (but := []) h).blitAt c)) (onlyEvents_bl h (blPace_apart hc).1 _) (onlyEvents_dtime h)

end

/-! ## The obligation -/

/-- Settles O30: a job is accepted or refused as read, its steps move pixels inside their destination rows, and its end counts it. -/
theorem blitDataCompletes : Obligations.BlitDataCompletes := by
  unfold Obligations.BlitDataCompletes
  intro s now c hup x
  have hx : ∀ but, s.quiet x but := fun but => (quiet_tick s now).mono (by simp)
  have hc := c.isLt
  refine ⟨fun owner y hread hpark ho hw hg hres => ?_, fun r k n p hdue hsubs hpois hr hstep => ?_, fun r hdue hr hf hs => ?_⟩
  · have hy : x.onlyEvents y := reserve_only hres
    have hcond : ((x.blitAt c.val).reading && x.park.step == 0 && x.engUp) = true := by
      rw [Bool.and_eq_true, Bool.and_eq_true]
      exact ⟨⟨hread, beq_iff_eq.2 hpark⟩, hup⟩
    have hrun : ∀ statBad, exec (.blitJobRead now c ⟨.ok, statBad⟩ []) s = .next (y.blitAccept c.val owner (s.rdBytes (s.jobAddr c.val) 64) statBad) :=
      fun statBad => congrArg Host.Outcome.next ((if_pos hcond).trans (blitJob_eq (s := x) ho hw hg hres statBad))
    have haddr : y.jobAddr c.val = x.jobAddr c.val := onlyEvents_jobAddr hc hy
    have hcons : y.blCons c.val = x.blCons c.val := onlyEvents_bl hy (blWords_low hc).2.2.2.2.1 _
    have htrig : ∀ k u a, y.trigNow k u a = x.trigNow k u a := (traffic_events (but := []) hy).trigNow
    have hdead : y.deadOver c.val = x.deadOver c.val := onlyEvents_deadOver hc hy
    generalize s.rdBytes (s.jobAddr c.val) 64 = j at hrun
    refine ⟨fun hok statBad => ?_, fun hbad hs => ?_⟩
    · obtain ⟨⟨r, hr, hj, ha, hcnt, hgo, hwait, hlater⟩, hreading, hrows, hq⟩ := blitAccept_accepts (s := y) (statBad := statBad) hc hok
      rw [htrig, hdead] at hgo hwait
      rw [htrig] at hlater
      exact ⟨_, r, hrun statBad, hr, hj, ha.trans haddr, hcnt.trans hcons, hreading, hrows, hgo, hwait, hlater,
        ((hx _).trans ((onlyEvents_quiet hy).mono (by simp))).trans hq⟩
    · have hys : y.takesStatus (y.jobAddr c.val) := by
        rw [haddr]
        exact ((traffic_events (but := []) hy).works (a := 0) (n := 0)).takesStatus (show x.takesStatus (s.jobAddr c.val) from hs)
      obtain ⟨hnone, herr, hcons', hst, hwk⟩ := blitAccept_refused (s := y) hc hbad hys
      rw [haddr] at hwk
      rw [hcons] at hcons'
      have hcfg : y.on (BL_CFG c.val) BL_CFG_ONERR = s.on (BL_CFG c.val) BL_CFG_ONERR :=
        congrArg (· != 0) (onlyEvents_bl hy (blWords_low hc).2.2.2.1 _)
      rw [hcfg] at hst
      have hall := ((traffic_events (but := BL_WMARK c.val :: blEndWords c.val) hy).works (a := s.jobAddr c.val + 48) (n := 16)).trans hwk
      exact ⟨_, hrun false, hnone, herr, hcons', hst, fun b hb => hall.mem b (by omega), hall.store⟩
  · have hrun : exec (.blitRowComplete now c [] []) s = .next (x.blitStep c.val [] []) := congrArg Host.Outcome.next (if_pos hdue)
    obtain ⟨q, hq, hs, hmem, hstore, hregs⟩ := blitStep_spec (s := x) (c := c.val) (r := r) ⟨hsubs, hpois⟩ hr hstep
    exact ⟨_, q, hrun, hq, hs.steps, hs.job, hs.unwr, hs.firstErr, hmem, hstore, hregs⟩
  · have hrun : exec (.blitDone now c true) s = .next (x.blitDone c.val true) := congrArg Host.Outcome.next (if_pos hdue)
    obtain ⟨z, rows, hz, he⟩ := blitDone_eq (s := x) (c := c.val) hr hf
    have hzr : (z.blitAt c.val).run = some r := (congrArg BlitCh.run (hz.blitAt c.val)).trans hr
    have hk := blitEnd_ends hc hzr 0 0 rows r.errRow r.unwr.length true none
    rw [← he] at hk
    obtain ⟨hworks, hnone, hcons, _, hcounts⟩ := hk
    obtain ⟨hdone, herr⟩ := hcounts rfl
    have hrd : ∀ a, a < 0x701000 → a ≠ BL_WMARK c.val → z.rd a = s.rd a := fun a ha hne => hz.regs a (lostCounter_bl ha) (by simpa using hne)
    have hall := ((hz.works (a := r.addr + 48) (n := 16)).mono (more := BL_WMARK c.val :: blEndWords c.val) (by simp)).trans
      (hworks.mono fun _ ha => List.mem_cons_of_mem _ ha)
    refine ⟨_, hrun, hnone, hdone.trans ?_, hcons.trans ?_, herr.trans ?_, fun a ha => hall.mem a (by omega), hall.store⟩
    · rw [show z.rdN (BL_DONE_CNT c.val) = s.rdN (BL_DONE_CNT c.val) from
        congrArg BitVec.toNat (hrd _ (blWords_low hc).2.2.2.2.2.1 (by simp only [BL_DONE_CNT, BL_WMARK]; omega))]
    · rw [show z.blCons c.val = s.blCons c.val from
        congrArg (getField · BL_CONS_CONS) (hrd _ (blWords_low hc).2.2.2.2.1 (by simp only [BL_CONS, BL_WMARK]; omega))]
    · exact congrArg BitVec.toNat (hrd _ (blWords_low hc).2.2.2.2.2.2.1 (by simp only [BL_ERR_CNT, BL_WMARK]; omega))

end Sys2Proof.Machine

end

section

namespace Sys2Proof.Machine

/-! ## What stands in reset (R13, R15, R16)

Which islands are in reset, have failed or are moving changes only where an island fails, is reset or comes back. -/

section

variable {s t : State} {but : List Nat}

theorem faultBlind_isl : FaultBlind State.isl := ⟨fun _ _ _ => rfl, fun h => by rw [h.1], fun _ _ => rfl, fun _ _ => rfl⟩

theorem State.traffic.isl (h : s.traffic t but) : t.isl = s.isl := by rw [h.same]

theorem State.engines.isl (h : s.engines t but) : t.isl = s.isl := by rw [h.same]

theorem State.works.isl {a n : Nat} (h : s.works t a n but) : t.isl = s.isl := by rw [h.same]

theorem foldl_isl {α : Type} {f : State → α → State} (h : ∀ s a, (f s a).isl = s.isl) (l : List α) (s : State) : (l.foldl f s).isl = s.isl :=
  foldl_same State.isl h l s

theorem postIsland_isl (i st cause partner us exposed : Nat) : (s.postIsland i st cause partner us exposed).isl = s.isl :=
  onlyEvents_isl (postAll_only ..)

theorem watchOutcome_isl (k r own : Nat) : (s.watchOutcome k r own).isl = s.isl := by
  have hb := faultBlind_isl
  unfold State.watchOutcome
  extract_lets safe down kind w crc key u good a b c x y
  have hgood : good.isl = s.isl := ite_same (π := State.isl) (hb.postBz ..) rfl
  have hc : c.isl = s.isl := (setWatchAt_isl ..).trans (ite_same (π := State.isl) (hb.postBz ..) rfl)
  have hx : x.isl = s.isl := ite_same (π := State.isl) hc ((hb.raiseFault ..).trans hc)
  have hy : y.isl = s.isl := ite_same (π := State.isl) ((hb.raiseFault ..).trans hx) hx
  exact ite_same (π := State.isl) ((setWatchAt_isl ..).trans hgood) (ite_same (π := State.isl) ((hb.degrWatch ..).trans hy) hc)

theorem watchFailed_isl (k : Nat) : (s.watchFailed k).isl = s.isl :=
  ite_same (π := State.isl) (foldl_isl (fun s r => ite_same (π := State.isl) rfl (watchOutcome_isl ..)) _ s) rfl

theorem islandFail_isl (i cause partner : Nat) :
    (s.islandFail i cause partner).isl = { s.isl with down := s.isl.down.filter (fun d => d.isl != i), failed := i :: s.isl.failed } := by
  unfold State.islandFail
  extract_lets since u
  have hu : u.isl = s.isl := ite_same (π := State.isl) (watchFailed_isl ..) rfl
  rw [postIsland_isl]
  unfold State.islMod
  dsimp only
  rw [hu]

theorem islandDone_isl : s.syncDegraded.syncFault.isl = s.isl := (faultBlind_isl.syncFault _).trans (faultBlind_isl.syncDegraded _)

theorem islUp_congr (h : t.isl = s.isl) (i : Nat) : t.islUp i = s.islUp i := by
  unfold State.islUp
  rw [h]

theorem downOf_congr (h : t.isl = s.isl) (i : Nat) : t.downOf i = s.downOf i := by
  unfold State.downOf
  rw [h]

/-! ### Failure -/

/-- An island that has failed is not up, nor to be released. -/
theorem islandFail_down (i cause partner : Nat) : (s.islandFail i cause partner).islUp i = false ∧ i ∈ (s.islandFail i cause partner).isl.failed ∧
    (s.islandFail i cause partner).downOf i = none := by
  have e := islandFail_isl (s := s) i cause partner
  generalize s.islandFail i cause partner = t at e ⊢
  unfold State.islUp State.downOf
  rw [e]
  simp [List.find?_eq_none]

/-! ### A fault -/

/-- The state with a fault of island `i` noted. -/
def State.faultNoted (s : State) (i cause : Nat) : State := s.islMod fun x => { x with
  down := ⟨i, s.dtime, cause⟩ :: x.down
  history := (i, s.dtime) :: x.history.filter fun h => decide (s.dtime < h.2 + 1000000000)
  replays := x.replays.filter (fun y => y.1 % 108 != i), expect := x.expect.filter fun y => y.1 % 108 != i }

/-- What is left to do once a fault is noted: a migration begins, or the island fails, or its reset is posted. -/
def State.faultGoes (s : State) (stand : Option Nat) (n i cause : Nat) : State :=
  match stand with
  | some q => (s.islMod fun x => { x with moving := (i - 76, q) :: x.moving }).postIsland i 0 cause noPartner 0 0
  | none => if resetLimit i ≤ n then s.islandFail i 5 noPartner else s.postIsland i 0 cause noPartner 0 (exposedFrom i s.dtime)

/-- The state whose island `i` is reset for a fault, a migration onto it given up. -/
def State.faultReset (s : State) (i : Nat) (fifos sr : Bool) : State :=
  (if 76 ≤ i ∧ i < 84 then s.abandonMove (i - 76) else s).resetIsland i fifos sr

theorem islandFault_eq (i cause : Nat) (sr : Bool) : s.islandFault i cause sr =
    (((s.faultReset i (if 76 ≤ i ∧ i < 84 then s.standbyOf (i - 76) else none).isSome sr).faultNoted i cause).faultGoes
      (if 76 ≤ i ∧ i < 84 then s.standbyOf (i - 76) else none) (s.recentResets i + 1) i cause).syncDegraded.syncFault := rfl

theorem faultReset_dtime (i : Nat) (fifos sr : Bool) : (s.faultReset i fifos sr).dtime = s.dtime := by
  unfold State.faultReset
  refine (congrArg Kept.dtime (resetIsland_kept (s := _) i fifos sr)).trans ?_
  exact ite_same (π := State.dtime) (congrArg Kept.dtime (abandonMove_kept (s := s) (i - 76))) rfl

theorem faultGoes_spec (stand : Option Nat) (n : Nat) {i cause : Nat} (h : (s.isl.down.any fun d => d.isl == i) = true) :
    (s.faultGoes stand n i cause).islUp i = false ∧ (s.faultGoes stand n i cause).isl.history = s.isl.history := by
  unfold State.faultGoes
  split
  · next q =>
    have hi := postIsland_isl (s := s.islMod fun x => { x with moving := (i - 76, q) :: x.moving }) i 0 cause noPartner 0 0
    refine ⟨?_, (congrArg Islands.history hi).trans rfl⟩
    rw [islUp_congr hi]
    unfold State.islUp State.islMod
    rw [h]
    rfl
  · split
    · exact ⟨(islandFail_down ..).1, by rw [islandFail_isl]⟩
    · have hi := postIsland_isl (s := s) i 0 cause noPartner 0 (exposedFrom i s.dtime)
      refine ⟨?_, congrArg Islands.history hi⟩
      rw [islUp_congr hi]
      unfold State.islUp
      rw [h]
      rfl

/-- A fault takes the island out of service and is remembered. -/
theorem islandFault_spec (i cause : Nat) (sr : Bool) : (s.islandFault i cause sr).islUp i = false ∧
    (i, s.dtime) ∈ (s.islandFault i cause sr).isl.history := by
  rw [islandFault_eq]
  generalize (if 76 ≤ i ∧ i < 84 then s.standbyOf (i - 76) else none) = stand
  have hd := faultReset_dtime (s := s) i stand.isSome sr
  generalize s.faultReset i stand.isSome sr = u at hd ⊢
  obtain ⟨hup, hh⟩ := faultGoes_spec (s := u.faultNoted i cause) stand (s.recentResets i + 1) (i := i) (cause := cause)
    (by unfold State.faultNoted State.islMod; simp)
  generalize (u.faultNoted i cause).faultGoes stand (s.recentResets i + 1) i cause = v at hup hh ⊢
  rw [islUp_congr islandDone_isl, islandDone_isl, hup, hh, ← hd]
  exact ⟨rfl, List.mem_cons_self⟩

/-- The loss of an ingest lane, a pixel clock, an output quad or a Pavilion loses nothing stored. -/
theorem resetIsland_stores {i : Nat} (h : i < 84) (fifos sr : Bool) {fp : Footprint} : s.carries fp (s.resetIsland i fifos sr) := by
  unfold State.resetIsland
  split_ifs
  · simp
  · simp
  · simp
  · simp
  · simp

theorem islandFault_stores {i : Nat} (h : i < 84) (cause : Nat) (sr : Bool) : s.memSame (s.islandFault i cause sr) ∧ s.storeSame (s.islandFault i cause sr) := by
  have hc : s.carries ⟨false, false⟩ (s.islandFault i cause sr) := by
    rw [islandFault_eq]
    generalize (if 76 ≤ i ∧ i < 84 then s.standbyOf (i - 76) else none) = stand
    have hr : s.carries ⟨false, false⟩ (s.faultReset i stand.isSome sr) := by
      have ha : s.carries ⟨false, false⟩ (if 76 ≤ i ∧ i < 84 then s.abandonMove (i - 76) else s) := by simp
      exact ha.trans (resetIsland_stores h ..)
    generalize s.faultReset i stand.isSome sr = u at hr ⊢
    have hg : u.carries ⟨false, false⟩ ((u.faultNoted i cause).faultGoes stand (s.recentResets i + 1) i cause) := by
      unfold State.faultNoted State.faultGoes
      split <;> simp
    refine hr.trans (hg.trans ?_)
    simp
  exact ⟨hc.memSame, hc.storeSame⟩

/-! ### Flits on a link -/

theorem islMod_quiet (f : Islands → Islands) : s.quiet (s.islMod f) [] := quiet_of_same rfl rfl rfl rfl rfl rfl

/-- A flit that is rejected counts a replay on its link alone. -/
theorem flit_bad {i k : Nat} {bad : Bool} {seq : Nat} (h : bad = true ∨ seq ≠ tget (fun _ => 0) s.isl.expect (flitKey i k)) :
    s.flit i k bad seq = s.islMod fun x => { x with
      replays := tset (fun _ => 0) x.replays (flitKey i k) (tget (fun _ => 0) x.replays (flitKey i k) + 1) } := if_pos h

theorem flit_good {i k : Nat} {bad : Bool} {seq : Nat} (hb : bad = false) (h : seq = tget (fun _ => 0) s.isl.expect (flitKey i k)) :
    s.flit i k bad seq = s.islMod fun x => { x with
      expect := tset (fun _ => 0) x.expect (flitKey i k) ((seq + 1) % 256), replays := tset (fun _ => 0) x.replays (flitKey i k) 0 } := by
  refine if_neg ?_
  rw [hb]
  simpa using h

theorem flit_rejects {i k : Nat} {bad : Bool} {seq : Nat} (h : bad = true ∨ seq ≠ tget (fun _ => 0) s.isl.expect (flitKey i k)) :
    tget (fun _ => 0) (s.flit i k bad seq).isl.replays (flitKey i k) = tget (fun _ => 0) s.isl.replays (flitKey i k) + 1 ∧
    (s.flit i k bad seq).isl.expect = s.isl.expect := by
  rw [flit_bad h]
  simp [State.islMod]

theorem flit_accepts {i k : Nat} {bad : Bool} {seq : Nat} (hb : bad = false) (h : seq = tget (fun _ => 0) s.isl.expect (flitKey i k)) :
    tget (fun _ => 0) (s.flit i k bad seq).isl.replays (flitKey i k) = 0 ∧
    tget (fun _ => 0) (s.flit i k bad seq).isl.expect (flitKey i k) = (seq + 1) % 256 := by
  rw [flit_good hb h]
  simp [State.islMod]

theorem flit_others {i k : Nat} (bad : Bool) (seq : Nat) {l : Nat} (hl : l ≠ flitKey i k) :
    tget (fun _ => 0) (s.flit i k bad seq).isl.replays l = tget (fun _ => 0) s.isl.replays l ∧
    tget (fun _ => 0) (s.flit i k bad seq).isl.expect l = tget (fun _ => 0) s.isl.expect l := by
  unfold State.flit State.islMod
  extract_lets key
  split <;> simp [key, hl]

end

end Sys2Proof.Machine
end

section

namespace Sys2Proof.Machine

/-! ## What comes back with an island (R542 to R545) -/

section

variable {s t : State}

theorem dmaFlush_isl : s.dmaFlush.isl = s.isl := by
  refine foldl_isl (fun s c => ?_) _ s
  dsimp only
  split
  · rfl
  · next p _ =>
    have hst := (dmaStatus_moves (s := s) p.addr p.bytes).works.isl
    split
    · next s' he =>
      rw [he] at hst
      exact (settleEvent_traffic (but := [])  ..).isl.trans hst
    · rfl

theorem blitFlush_isl : s.blitFlush.isl = s.isl := by
  refine foldl_isl (fun s c => ?_) _ s
  dsimp only
  split
  · rfl
  · next p _ =>
    have hst := (blitStatus_moves (s := s) p.addr p.bytes).works.isl
    split
    · next s' he =>
      rw [he] at hst
      exact (settleEvent_traffic (but := []) ..).isl.trans hst
    · rfl

theorem dmaAgain_isl : s.dmaAgain.isl = s.isl := by
  unfold State.dmaAgain
  refine foldl_isl (fun s c => ?_) (List.range 32) { s with flying := _ }
  split
  · exact readDesc_engines.isl
  · exact readNext_engines.isl
  · rfl

theorem ite_isl {c : Prop} [Decidable c] (u : State) : (if c then t else u).isl = if c then t.isl else u.isl := apply_ite State.isl c t u

theorem blitNext_isl (c : Nat) : (s.blitNext c).isl = s.isl := blitNext_engines.isl

theorem blitAgain_isl : s.blitAgain.isl = s.isl := by
  unfold State.blitAgain
  refine foldl_isl (fun s c => ?_) _ s
  rw [ite_isl, blitNext_isl]
  exact ite_self _

/-! ### Doorbells that waited -/

theorem bell_isl {src : Src} {addr value : Nat} {eff : State → State} (h : (eff s).isl = s.isl) : (s.bell src addr value eff).isl = s.isl := by
  unfold State.bell
  rw [ite_isl, h]
  exact ite_self _

theorem enqueue_isl (p : Nat) (e : Event) : (s.enqueue p e).isl = s.isl := setEvAt_isl ..

theorem nextSeq_isl (source : Nat) : (s.nextSeq source).isl = s.isl := setSeqAt_isl ..

theorem postLost_isl (p : Nat) : (s.postLost p).isl = s.isl := by
  unfold State.postLost
  simp -implicitDefEqProofs only [ite_isl, nextSeq_isl, enqueue_isl, setEvAt_isl, ite_self]

theorem offer_isl (e : Event) (p : Nat) : (s.offer e p).isl = s.isl := by
  unfold State.offer
  simp -implicitDefEqProofs only [ite_isl, enqueue_isl, bump_isl, setEvAt_isl, ite_self]

theorem postOwn_isl (p cls inst type : Nat) (payload : List Byte) : (s.postOwn p cls inst type payload).isl = s.isl :=
  (nextSeq_isl _).trans ((offer_isl ..).trans (postLost_isl p))

theorem ringHalt_isl (p r cause : Nat) : (s.ringHalt p r cause).isl = s.isl := by
  simp -implicitDefEqProofs only [State.ringHalt, postOwn_isl, put_isl]

theorem ringMod_isl (p r : Nat) (f : Ring → Ring) : (s.ringMod p r f).isl = s.isl := setRingAt_isl ..

theorem ringProd_isl (p r prod : Nat) : (s.ringProd p r prod).isl = s.isl := by
  unfold State.ringProd
  simp -implicitDefEqProofs only [ite_isl, ringHalt_isl, ringMod_isl, ite_self]

theorem ringBell_isl (p r : Nat) (w : Word) : (s.ringBell p r w).isl = s.isl := by
  unfold State.ringBell
  simp -implicitDefEqProofs only [ite_isl, ringProd_isl, ringMod_isl, wr_isl, put_isl, bump_isl, ite_self]

theorem readNext_isl (c : Nat) : (s.readNext c).isl = s.isl := readNext_engines.isl

theorem dmRing_isl (c : Nat) : (s.dmRing c).isl = s.isl := by
  unfold State.dmRing State.dmaReread
  simp -implicitDefEqProofs only [ite_isl, readNext_isl, put_isl, ite_self]

theorem blitHalt_isl (c cause : Nat) (x : Option (Nat × Nat × Nat)) : (s.blitHalt c cause x).isl = s.isl := (blitHalt_engines ..).isl

theorem blitRing_isl (c : Nat) (w : Word) : (s.blitRing c w).isl = s.isl := by
  unfold State.blitRing
  split
  · rfl
  · simp -implicitDefEqProofs only [ite_isl, blitHalt_isl, blitNext_isl, setBlitAt_isl, put_isl, bump_isl, ite_self]

theorem crDb_isl (src : Src) (p r : Nat) (w : Word) : (s.crDb src p r w).isl = s.isl := bell_isl (ringBell_isl ..)

theorem dmDb_isl (src : Src) (c : Nat) (w : Word) : (s.dmDb src c w).isl = s.isl := by
  unfold State.dmDb
  rw [ite_isl, bell_isl (eff := fun s => s.dmRing c) (dmRing_isl c)]
  exact ite_self _

theorem blDb_isl (src : Src) (c : Nat) (w : Word) : (s.blDb src c w).isl = s.isl := (bell_isl (blitRing_isl c w)).trans (wr_isl ..)

theorem bellAct_isl (b : Posted) : (s.bellAct b).isl = s.isl := by
  unfold State.bellAct
  extract_lets w p
  clear_value w p
  rw [ite_isl, ite_isl, crDb_isl, dmDb_isl, blDb_isl, ite_self, ite_self]

theorem bellsRun_isl : s.bellsRun.isl = s.isl := foldl_isl (fun _ b => bellAct_isl b) s.bells { s with bells := [] }

/-! ### The Carousel/admission island -/

theorem polTokens_isl (k : Nat) : (s.polTokens k).isl = s.isl := (wrN_isl ..).trans (wrN_isl ..)

theorem carouselStart_isl : s.carouselStart.isl = s.isl := by
  unfold State.carouselStart
  extract_lets u
  have hu : u.isl = s.isl := foldl_isl (fun s k => (polTokens_isl ..).trans (setPolAt_isl ..)) _ s
  exact (foldl_isl (fun s i => (wrN_isl ..).trans (setShqAt_isl ..)) _ u).trans hu

theorem showTotals_isl (a : AdmTotals) : (s.showTotals a).isl = s.isl := by
  simp -implicitDefEqProofs only [State.showTotals, wrN_isl]

theorem showPend_isl (k : Nat) : (s.showPend k).isl = s.isl := (put_isl ..).trans (put_isl ..)

theorem storeCase_isl (r : AdmResult) : (s.storeCase r none).isl = s.isl := by
  simp -implicitDefEqProofs only [State.storeCase, showPend_isl, showTotals_isl, wrN_isl]

theorem setMode_isl (g : Nat → Word) (k : Nat) (spec : Bool) : (s.setMode g k spec).isl = s.isl := by
  simp -implicitDefEqProofs only [State.setMode, put_isl]

theorem ogSync_isl : s.ogSync.isl = s.isl := by
  simp -implicitDefEqProofs only [State.ogSync, put_isl, wrN_isl]

theorem rebuildAdmission_isl : s.rebuildAdmission.isl = s.isl := by
  have hpend (ts : List Nat) :
      (ts.foldl (fun s t => s.setAdmAt t { pend := ((s.tlcAt t).live.map fun c => (c.order, c.mode)) ++ (s.admAt t).pend }) s).isl = s.isl :=
    foldl_isl (fun _ _ => setAdmAt_isl ..) ts s
  simp -implicitDefEqProofs only [State.rebuildAdmission, ogSync_isl, foldl_isl, setMode_isl, showTotals_isl, storeCase_isl, hpend, implies_true]

theorem qServe_isl (q time : Nat) (ws : List QWait) : (s.qServe q time ws).isl = s.isl := (qServe_traffic ..).isl

theorem carouselBack_isl : s.carouselBack.isl = s.isl := by
  unfold State.carouselBack
  extract_lets u
  have hu : u.isl = s.isl := rebuildAdmission_isl.trans carouselStart_isl
  clear_value u
  rw [bellsRun_isl, foldl_isl fun _ _ => qServe_isl .., hu]

/-! ### The others -/

theorem putWords_isl (base : Nat) (bs : List Byte) : (s.putWords base bs).isl = s.isl := foldl_isl (fun _ _ => wrN_isl ..) _ s

theorem fusedShown_isl : s.fusedShown.isl = s.isl := by
  simp -implicitDefEqProofs only [State.fusedShown, wrN_isl, put_isl, putWords_isl]

theorem gateBack_isl : s.gateBack.isl = s.isl := by
  unfold State.gateBack
  extract_lets u v w
  have hu : u.isl = s.isl := (put_isl ..).trans fusedShown_isl
  have hv : v.isl = u.isl := put_isl ..
  have hw : w.isl = v.isl := foldl_isl (fun _ _ => put_isl ..) _ v
  exact (foldl_isl (fun _ _ => put_isl ..) _ w).trans (hw.trans (hv.trans hu))

theorem useLanded_isl (k : Nat) : (s.useLanded k).isl = s.isl := foldl_isl (fun _ _ => wrUse_isl ..) _ s

theorem composeAgain_isl (k : Nat) : (s.composeAgain k).isl = s.isl := setScanAt_isl ..

theorem subServe_isl (k : Nat) : (s.subServe k).isl = s.isl := by
  simp -implicitDefEqProofs only [State.subServe, put_isl, setDramAt_isl]

/-- What a release brings back leaves the other islands as they are. -/
theorem islandBack_isl (i : Nat) : (s.islandBack i).isl = s.isl := by
  have hpixel (k : Nat) : (((s.showUp k).useLanded k).showLut k).isl = s.isl := (put_isl ..).trans ((useLanded_isl ..).trans (put_isl ..))
  have hpav (ts : List Nat) : (ts.foldl State.composeAgain s).isl = s.isl := foldl_isl (fun _ _ => composeAgain_isl _) ts s
  have hdma : s.dmaFlush.blitFlush.dmaAgain.blitAgain.isl = s.isl :=
    blitAgain_isl.trans (dmaAgain_isl.trans (blitFlush_isl.trans dmaFlush_isl))
  unfold State.islandBack
  simp -implicitDefEqProofs only [ite_isl, hpixel, hpav, hdma, subServe_isl, carouselBack_isl, gateBack_isl, put_isl, ite_self]

/-! ### Release -/

/-- The state with island `i` out of reset. -/
def State.released (s : State) (i : Nat) : State := s.islMod fun x => { x with down := x.down.filter fun y => y.isl != i }

theorem islandRelease_ok (d : IslandDown) : s.islandRelease d true =
    (((s.released d.isl).islandBack d.isl).postIsland d.isl 1 d.cause noPartner
      ((((s.released d.isl).islandBack d.isl).dtime - d.since) / 1000) (exposedFrom d.isl d.since)).syncDegraded.syncFault := rfl

theorem islandRelease_bad (d : IslandDown) : s.islandRelease d false = (s.islandFail d.isl 4 noPartner).syncDegraded.syncFault := rfl

theorem released_up {i : Nat} (h : s.isl.failed.contains i = false) : (s.released i).islUp i = true := by
  unfold State.released State.islMod State.islUp
  dsimp only
  rw [h]
  simp

theorem islandRelease_up {d : IslandDown} (h : s.isl.failed.contains d.isl = false) : (s.islandRelease d true).islUp d.isl = true := by
  rw [islandRelease_ok, islUp_congr islandDone_isl, islUp_congr (postIsland_isl ..), islUp_congr (islandBack_isl _)]
  exact released_up h

theorem islandRelease_fails (d : IslandDown) : (s.islandRelease d false).islUp d.isl = false ∧ d.isl ∈ (s.islandRelease d false).isl.failed ∧
    (s.islandRelease d false).downOf d.isl = none := by
  rw [islandRelease_bad, islUp_congr islandDone_isl, islandDone_isl, downOf_congr islandDone_isl]
  exact islandFail_down ..

/-! ### Migration -/

/-- The state whose standby `q` answers to the number of Pavilion `p`. -/
def State.standsFor (s : State) (p q : Nat) : State :=
  (s.copyBanks p q).islMod fun x => { x with moving := x.moving.filter (fun m => m != (p, q)), standFor := (p, q) :: x.standFor }

theorem standsFor_left {p q : Nat} {m : Nat × Nat} (hm : m ∈ (s.standsFor p q).isl.moving) : m ≠ (p, q) := by
  simp only [State.standsFor, State.islMod, List.mem_filter, bne_iff_ne] at hm
  exact hm.2

/-- The state with the sealed banks among `ts` marked sealed. -/
def State.sealAll (s : State) (ts : List Nat) : State := ts.foldl (fun s t => s.setSealed t true) s

theorem sealAll_isl (ts : List Nat) : (s.sealAll ts).isl = s.isl := foldl_isl (fun _ _ => put_isl ..) ts s

/-- Why Pavilion `p` went down. -/
def State.downCause (s : State) (p : Nat) : Nat :=
  match s.downOf (islPav p) with
  | some d => d.cause
  | none => 1

theorem migrate_eq (p q : Nat) : s.migrate p q =
    ([2 * p, 2 * p + 1].foldl State.composeAgain
      (((s.standsFor p q).sealAll ([2 * p, 2 * p + 1].filter s.sealed)).islandFail (islPav p) (s.downCause p) q)).syncDegraded := rfl

theorem migrate_spec (p q : Nat) : (s.migrate p q).pvName p = q ∧ islPav p ∈ (s.migrate p q).isl.failed ∧ (∀ m ∈ (s.migrate p q).isl.moving, m ≠ (p, q)) := by
  have e : (s.migrate p q).isl = { (s.standsFor p q).isl with
      down := (s.standsFor p q).isl.down.filter (fun d => d.isl != islPav p), failed := islPav p :: (s.standsFor p q).isl.failed } := by
    rw [migrate_eq, faultBlind_isl.syncDegraded, foldl_isl (fun _ _ => composeAgain_isl _), islandFail_isl, sealAll_isl]
  generalize s.migrate p q = t at e
  have hstand : t.isl.standFor = (p, q) :: (s.copyBanks p q).isl.standFor := congrArg Islands.standFor e
  have hmoving : t.isl.moving = (s.standsFor p q).isl.moving := by rw [e]
  have hfailed : t.isl.failed = islPav p :: (s.standsFor p q).isl.failed := congrArg Islands.failed e
  refine ⟨?_, by rw [hfailed]; exact List.mem_cons_self, fun m hm => ?_⟩
  · unfold State.pvName
    rw [hstand]
    simp
  · rw [hmoving] at hm
    exact standsFor_left hm

theorem migrate_stores (p q : Nat) : s.memSame (s.migrate p q) ∧ s.storeSame (s.migrate p q) := by
  have hc : s.carries ⟨false, false⟩ (s.migrate p q) := by simp
  exact ⟨hc.memSame, hc.storeSame⟩

end

/-- Settles O35: `islandFault_spec` and `islandFault_stores` for a fault, `flit_bad` and `flit_good` for a flit, `islandRelease_up` and
`islandRelease_fails` for a release, `migrate_spec` for a migration. -/
theorem islandsComplete : Obligations.IslandsComplete := by
  unfold Obligations.IslandsComplete
  intro s now
  refine ⟨fun i cause sr hdue => ?_, fun i link bad seq hrun hup => ?_, fun i d hd hrun hcause htime hmove => ?_, fun pv q hfind hrun hup => ?_⟩
  · refine ⟨(s.tick now).islandFault i.val cause sr, congrArg Host.Outcome.next (if_pos hdue), (islandFault_spec ..).1, (islandFault_spec ..).2,
      fun hi => ?_⟩
    obtain ⟨hm, hst⟩ := islandFault_stores (s := s.tick now) hi cause sr
    exact ⟨hm, hst⟩
  · have hwhen : (s.islandsRun && s.islUp i.val) = true := by rw [hrun, hup]; rfl
    refine ⟨(s.tick now).flit i.val link bad seq, congrArg Host.Outcome.next (if_pos hwhen), fun hbad => ?_, fun hb hseq => ?_, fun l hl => ?_, ?_⟩
    · exact flit_rejects (s := s.tick now) hbad
    · exact flit_accepts (s := s.tick now) hb hseq
    · exact flit_others (s := s.tick now) bad seq hl
    · refine (quiet_tick s now).trans ?_
      unfold State.flit
      exact quiet_ite (islMod_quiet _) (islMod_quiet _)
  · have hisl : d.isl = i.val := by simpa using List.find?_some hd
    have hwhen : (s.islandsRun && d.cause != 0 && decide (d.since + islandUs i.val * 1000 ≤ (s.tick now).dtime) &&
        !s.isl.moving.any fun m => islPav m.1 == i.val) = true := by
      rw [hrun, hmove, decide_eq_true htime, bne_iff_ne.2 hcause]
      rfl
    have hgo : ∀ ok, exec (.islandRelease now i ok) s = .next ((s.tick now).islandRelease d ok) := fun ok => by
      have hd' : (s.tick now).downOf i.val = some d := hd
      show execIslandRelease now i ok s = _
      unfold execIslandRelease
      dsimp only
      rw [hd']
      exact congrArg Host.Outcome.next (if_pos hwhen)
    refine ⟨fun hfail => ⟨_, hgo true, ?_⟩, _, hgo false, ?_⟩
    · rw [← hisl] at hfail ⊢
      exact islandRelease_up (s := s.tick now) hfail
    · rw [← hisl]
      exact islandRelease_fails d
  · have hgo : exec (.migrationComplete now pv) s = .next ((s.tick now).migrate pv.val q) := by
      have hf : (s.tick now).isl.moving.find? (fun m => m.1 == pv.val) = some (pv.val, q) := hfind
      have hwhen : (s.islandsRun && s.islUp (islPav q)) = true := by rw [hrun, hup]; rfl
      show execMigrationComplete now pv s = _
      unfold execMigrationComplete
      dsimp only
      rw [hf]
      exact congrArg Host.Outcome.next (if_pos hwhen)
    obtain ⟨hmem, hstore⟩ := migrate_stores (s := s.tick now) pv.val q
    obtain ⟨hname, hfail, hmoving⟩ := migrate_spec (s := s.tick now) pv.val q
    exact ⟨_, hgo, hname, hfail, hmoving, hmem, hstore⟩

end Sys2Proof.Machine
end

section

namespace Sys2Proof.Machine

/-! ## The policers (R393 to R397)

What a policer does to itself, and what a packet that passes does to the rest of the state. -/

section

variable {s t u v : State} {but more : List Nat}

/-- `t` is `s` but for policers and the named registers. -/
structure State.pols (s t : State) (but : List Nat) : Prop where
  same : t = { s with regs := t.regs, pol := t.pol }
  regs : ∀ a, a ∉ but → t.rd a = s.rd a

theorem State.pols.trans (h : s.pols t but) (k : t.pols u but) : s.pols u but where
  same := by
    have e := k.same
    rw [h.same] at e
    exact e
  regs a ha := (k.regs a ha).trans (h.regs a ha)

theorem State.pols.mono (h : s.pols t but) (hm : ∀ a ∈ but, a ∈ more) : s.pols t more := ⟨h.same, fun a ha => h.regs a fun hc => ha (hm a hc)⟩

theorem pols_setPolAt (k : Nat) (v : Policer) : s.pols (s.setPolAt k v) but := ⟨rfl, fun _ _ => rfl⟩

theorem pols_wr (s : State) {a : Nat} (w : Word) (ha : a ∈ but) : s.pols (s.wr a w) but :=
  ⟨rfl, fun _ hb => rd_wr_ne _ _ fun e => hb (e ▸ ha)⟩

theorem pols_put (s : State) {a : Nat} (f : Fld) (n : Nat) (ha : a ∈ but) : s.pols (s.put a f n) but := pols_wr s _ ha

theorem pols_bump (s : State) {a : Nat} (f : Fld) (n : Nat) (ha : a ∈ but) : s.pols (s.bump a f n) but := pols_wr s _ ha

theorem pols_wrN (s : State) {a : Nat} (n : Nat) (ha : a ∈ but) : s.pols (s.wrN a n) but := pols_wr s _ ha

theorem State.pols.quiet (h : s.pols t but) : s.quiet t but := by
  have e := h.same
  refine ⟨fun a => ?_, ⟨?_, ?_, ?_⟩, fun a _ ha => h.regs a ha⟩
  · unfold State.rdByte
    rw [e]
  all_goals rw [e]

theorem State.pols.get (h : s.pols t but) {a : Nat} (ha : a ∉ but) (f : Fld) : t.get a f = s.get a f := by
  unfold State.get
  rw [h.regs a ha]

theorem State.pols.on (h : s.pols t but) {a : Nat} (ha : a ∉ but) (f : Fld) : t.on a f = s.on a f := congrArg (· != 0) (h.get ha f)

theorem State.pols.reqs (h : s.pols t but) : t.reqs = s.reqs := by rw [h.same]

theorem State.pols.evAt (h : s.pols t but) (p : Nat) : t.evAt p = s.evAt p := by
  unfold State.evAt
  rw [h.same]

theorem State.pols.subsUp (h : s.pols t but) : t.subsUp = s.subsUp := by
  unfold State.subsUp State.islUp
  rw [h.same]

theorem State.pols.waiting (h : s.pols t but) : t.bells = s.bells ∧ t.hostReads = s.hostReads := by
  constructor
  all_goals rw [h.same]

theorem rdBytes_congr (h : s.memSame t) (a n : Nat) : t.rdBytes a n = s.rdBytes a n := by
  unfold State.rdBytes
  exact List.map_congr_left fun i _ => h _

/-! ### Whether a read is good -/

/-- `t` serves what `s` serves: the same islands, image, poison and controller registers. -/
structure State.sameDram (s t : State) : Prop where
  isl : t.isl = s.isl
  locket : t.locket = s.locket
  poison : t.poison = s.poison
  regs : ∀ a, 0x900000 ≤ a → t.rd a = s.rd a

theorem State.pols.sameDram (h : s.pols t but) (hb : ∀ a ∈ but, a < 0x900000) : s.sameDram t where
  isl := by rw [h.same]
  locket := by rw [h.same]
  poison := by rw [h.same]
  regs a ha := h.regs a fun hc => absurd (hb a hc) (by omega)

variable (h : s.sameDram t)

include h

theorem State.sameDram.get {a : Nat} (ha : 0x900000 ≤ a) (f : Fld) : t.get a f = s.get a f := by
  unfold State.get
  rw [h.regs a ha]

theorem State.sameDram.windows : t.windows = s.windows := by
  unfold State.windows
  refine congrArg _ (List.map_congr_left fun i _ => ?_)
  rw [h.get (by unfold DR_MIR_BASE; omega), h.get (by unfold DR_MIR_SIZE; omega)]

theorem State.sameDram.dramLoc (c : DramConf) (a : Nat) : t.dramLoc c a = s.dramLoc c a := by
  have hhash : (fun i => t.rdN (DR_HASH i)) = fun i => s.rdN (DR_HASH i) :=
    funext fun i => congrArg BitVec.toNat (h.regs _ (by unfold DR_HASH; omega))
  have hhash' : ∀ i, t.rdN (DR_HASH i) = s.rdN (DR_HASH i) := congrFun hhash
  unfold State.dramLoc
  simp only [hhash']

theorem State.sameDram.servingSub (c : DramConf) (a : Nat) : t.servingSub c a = s.servingSub c a := by
  have hfail : ∀ k r, t.rankFailed k r = s.rankFailed k r := fun k r => by
    unfold State.rankFailed
    rw [h.get (by unfold DR_SC_STAT; omega)]
  unfold State.servingSub State.copy1Loc State.mirTot State.mirrored
  simp only [h.dramLoc, h.windows, hfail]

theorem State.sameDram.memGood (a n : Nat) : t.memGood a n = s.memGood a n := by
  have hup : ∀ i, t.islUp i = s.islUp i := islUp_congr h.isl
  have hserves : ∀ b, t.ddrServes b = s.ddrServes b := fun b => by
    unfold State.ddrServes
    rw [h.locket]
    split
    · rw [h.servingSub, hup]
    · rfl
  unfold State.memGood State.serves State.subsUp State.poisoned
  simp only [hup, hserves, h.poison]

end

/-! ### A packet that passes -/

section

variable {s t u : State} {but : List Nat} {k : Nat} {pkt : Packet} {green : Bool}

/-- `t` is `s` with a packet passed by policer `k` in its colour, and the named registers changed. -/
structure State.lets (s t : State) (k : Nat) (pkt : Packet) (green : Bool) (but : List Nat) : Prop where
  reqs : windowOf pkt.addr = none → t.reqs = ⟨k % 2 == 0, pkt.addr, if k % 2 = 0 then pkt.data.length else pkt.rd,
    (colourClass (s.on (CA_P_CTRL k) CA_P_CTRL_GUAR) green).1, 0, (colourClass (s.on (CA_P_CTRL k) CA_P_CTRL_GUAR) green).2⟩ :: s.reqs
  write : k % 2 = 0 → (s.subsUp = true → t.rdBytes pkt.addr pkt.data.length = pkt.data) ∧
    ∀ a, a < pkt.addr ∨ pkt.addr + pkt.data.length ≤ a → t.rdByte a = s.rdByte a
  read : k % 2 = 1 → s.memSame t ∧
    (t.evAt (k / 2)).outbox = .completion (s.rdBytes pkt.addr pkt.rd) (!s.memGood pkt.addr pkt.rd) :: (s.evAt (k / 2)).outbox
  store : s.storeSame t
  regs : s.regsSame t but
  waiting : t.bells = s.bells ∧ t.hostReads = s.hostReads

theorem State.lets.before (h : s.pols u but) (hlow : ∀ a ∈ but, a < 0x900000) (hctrl : CA_P_CTRL k ∉ but) (l : u.lets t k pkt green but) :
    s.lets t k pkt green but where
  reqs hw := by rw [l.reqs hw, h.on hctrl, h.reqs]
  write hk := by
    obtain ⟨hin, hout⟩ := l.write hk
    exact ⟨fun hs => hin (h.subsUp.trans hs), fun a ha => (hout a ha).trans (h.quiet.1 a)⟩
  read hk := by
    obtain ⟨hmem, hbox⟩ := l.read hk
    refine ⟨fun a => (hmem a).trans (h.quiet.1 a), ?_⟩
    rw [hbox, rdBytes_congr h.quiet.1, (h.sameDram hlow).memGood, h.evAt]
  store := ⟨l.store.1.trans h.quiet.2.1.1, l.store.2.1.trans h.quiet.2.1.2.1, l.store.2.2.trans h.quiet.2.1.2.2⟩
  regs a hl ha := (l.regs a hl ha).trans (h.regs a ha)
  waiting := ⟨l.waiting.1.trans h.waiting.1, l.waiting.2.trans h.waiting.2⟩

theorem State.lets.after (l : s.lets t k pkt green but) (h : t.pols u but) : s.lets u k pkt green but where
  reqs hw := by rw [h.reqs, l.reqs hw]
  write hk := by
    obtain ⟨hin, hout⟩ := l.write hk
    exact ⟨fun hs => (rdBytes_congr h.quiet.1 ..).trans (hin hs), fun a ha => (h.quiet.1 a).trans (hout a ha)⟩
  read hk := by
    obtain ⟨hmem, hbox⟩ := l.read hk
    exact ⟨fun a => (h.quiet.1 a).trans (hmem a), by rw [h.evAt, hbox]⟩
  store := ⟨h.quiet.2.1.1.trans l.store.1, h.quiet.2.1.2.1.trans l.store.2.1, h.quiet.2.1.2.2.trans l.store.2.2⟩
  regs a hl ha := (h.regs a ha).trans (l.regs a hl ha)
  waiting := ⟨h.waiting.1.trans l.waiting.1, h.waiting.2.trans l.waiting.2⟩

/-- The counter of a colour. -/
def colourCount (k : Nat) (green : Bool) : Nat := if green then CA_P_GCNT k else CA_P_YCNT k

theorem colourCount_low (k : Nat) (hk : k < 8) (green : Bool) : colourCount k green < 0x900000 := by
  cases green <;> simp only [colourCount, CA_P_GCNT, CA_P_YCNT, if_true, Bool.false_eq_true, if_false] <;> omega

theorem polCount_pols (k : Nat) (green : Bool) (l : Nat) : s.pols (s.polCount k green l) [colourCount k green] := by
  unfold State.polCount
  cases green
  · exact (pols_setPolAt ..).trans (pols_bump _ _ _ (by simp [colourCount]))
  · exact (pols_setPolAt ..).trans (pols_bump _ _ _ (by simp [colourCount]))

/-- Counting keeps the buckets and the packets held. -/
theorem polCount_polAt (k : Nat) (green : Bool) (l : Nat) : ∃ g y, (s.polCount k green l).polAt k = { s.polAt k with gRem := g, yRem := y } := by
  unfold State.polCount
  cases green
  · exact ⟨_, _, (polAt_setPolAt s k k _).trans (if_pos rfl)⟩
  · exact ⟨_, _, (polAt_setPolAt s k k _).trans (if_pos rfl)⟩

theorem request_reqs {write : Bool} {a n : Nat} {cls : MemClass} {deadline : Nat} {kind : ReadKind} (hw : windowOf a = none) :
    (s.request write a n cls deadline kind).reqs = ⟨write, a, n, cls, deadline, kind⟩ :: s.reqs := by
  unfold State.request
  unfold windowOf at hw
  split
  · next p hp => rw [hp] at hw; cases hw
  · rfl

theorem request_state (write : Bool) (a n : Nat) (cls : MemClass) (deadline : Nat) (kind : ReadKind) :
    ∃ rs, s.request write a n cls deadline kind = { s with reqs := rs } := by
  unfold State.request
  split
  · exact ⟨s.reqs, rfl⟩
  all_goals exact ⟨_, rfl⟩

theorem wrBytes_state (a : Nat) (bs : List Byte) : ∃ m, s.wrBytes a bs = { s with mem := m } := ⟨_, wrBytes_eq ..⟩

/-- A unit's write changes memory and what is poisoned, nothing else. -/
theorem memWrite_state (a : Nat) (bs : List Byte) : ∃ m p, (s.memWrite a bs).1 = { s with mem := m, poison := p } := by
  have hput : ∀ (s : State) a bs, ∃ m p, (s.putBlock a bs).1 = { s with mem := m, poison := p } := fun s a bs => by
    unfold State.putBlock
    split
    · exact ⟨s.mem, s.poison, rfl⟩
    · obtain ⟨m, hm⟩ := wrBytes_state (s := s) a bs
      rw [hm]
      exact ⟨_, _, rfl⟩
  have hblocks : ∀ (n : Nat) (s : State) a bs, ∃ m p, (s.putBlocks n a bs).1 = { s with mem := m, poison := p } := fun n => by
    induction n with
    | zero => exact fun s _ _ => ⟨s.mem, s.poison, rfl⟩
    | succ n ih =>
      intro s a bs
      unfold State.putBlocks
      split
      · exact ⟨s.mem, s.poison, rfl⟩
      · obtain ⟨m, p, h⟩ := hput s a (bs.take (64 - a % 64))
        obtain ⟨m', p', h'⟩ := ih (s.putBlock a (bs.take (64 - a % 64))).1 (a + (64 - a % 64)) (bs.drop (64 - a % 64))
        refine ⟨m', p', h'.trans ?_⟩
        rw [h]
  unfold State.memWrite
  split
  · obtain ⟨m, hm⟩ := wrBytes_state (s := s) a bs
    exact ⟨m, s.poison, hm⟩
  · exact hblocks ..

/-- A packet passes: it is counted in its colour, and its request goes on to memory. -/
theorem polRelease_lets (hk : k < 8) : s.lets (s.polRelease k pkt green) k pkt green [colourCount k green] := by
  have hcount := polCount_pols (s := s) k green (s.packetL k pkt)
  have hlow : ∀ a ∈ [colourCount k green], a < 0x900000 := by simpa using colourCount_low k hk green
  have hctrl : CA_P_CTRL k ∉ [colourCount k green] := by
    cases green <;> simp [colourCount, CA_P_CTRL, CA_P_GCNT, CA_P_YCNT]
  have hguar := hcount.on hctrl CA_P_CTRL_GUAR
  unfold State.polRelease
  extract_lets v c
  change s.pols v _ at hcount
  change v.on _ _ = _ at hguar
  have hc : c = colourClass (v.on (CA_P_CTRL k) CA_P_CTRL_GUAR) green := rfl
  clear_value v c
  subst hc
  refine State.lets.before hcount hlow hctrl ?_
  have hparity : k % 2 = 0 ∨ k % 2 = 1 := by omega
  rcases hparity with hk | hk
  · rw [if_pos hk]
    obtain ⟨rs, hr⟩ := request_state (s := v) true pkt.addr pkt.data.length (colourClass (v.on (CA_P_CTRL k) CA_P_CTRL_GUAR) green).1 0
      (colourClass (v.on (CA_P_CTRL k) CA_P_CTRL_GUAR) green).2
    have hreqs := request_reqs (s := v) (write := true) (a := pkt.addr) (n := pkt.data.length)
      (cls := (colourClass (v.on (CA_P_CTRL k) CA_P_CTRL_GUAR) green).1) (deadline := 0)
      (kind := (colourClass (v.on (CA_P_CTRL k) CA_P_CTRL_GUAR) green).2)
    generalize v.request true pkt.addr pkt.data.length _ 0 _ = r at hr hreqs ⊢
    obtain ⟨m, p, hm⟩ := memWrite_state (s := r) pkt.addr pkt.data
    have hmoves := memWrite_moves (s := r) pkt.addr pkt.data
    have hholds := memWrite_holds (s := r) pkt.addr pkt.data
    have hmem : v.memSame r := fun a => by rw [hr]; rfl
    have hups : r.subsUp = v.subsUp := by rw [hr]; rfl
    refine ⟨fun hw => ?_, fun _ => ⟨fun hs => (hholds (hups.trans hs)).rdBytes, fun a ha => (hmoves.mem a ha).trans (hmem a)⟩,
      fun h => absurd hk (by omega), ?_, fun a _ _ => ?_, ?_⟩
    · rw [hm, hreqs hw, if_pos hk, hk]
      rfl
    · rw [hm, hr]
      exact ⟨rfl, rfl, rfl⟩
    · rw [hm, hr]
      rfl
    · rw [hm, hr]
      exact ⟨rfl, rfl⟩
  · rw [if_neg (by omega)]
    obtain ⟨rs, hr⟩ := request_state (s := v) false pkt.addr pkt.rd (colourClass (v.on (CA_P_CTRL k) CA_P_CTRL_GUAR) green).1 0
      (colourClass (v.on (CA_P_CTRL k) CA_P_CTRL_GUAR) green).2
    have hreqs := request_reqs (s := v) (write := false) (a := pkt.addr) (n := pkt.rd)
      (cls := (colourClass (v.on (CA_P_CTRL k) CA_P_CTRL_GUAR) green).1) (deadline := 0)
      (kind := (colourClass (v.on (CA_P_CTRL k) CA_P_CTRL_GUAR) green).2)
    generalize v.request false pkt.addr pkt.rd _ 0 _ = r at hr hreqs ⊢
    have hmem : v.memSame r := fun a => by rw [hr]; rfl
    have hdram : v.sameDram r := by
      refine ⟨?_, ?_, ?_, fun a _ => ?_⟩
      all_goals rw [hr]
      rfl
    have hev : r.evAt (k / 2) = v.evAt (k / 2) := by rw [hr]; rfl
    obtain ⟨w, hw, hbox⟩ : ∃ w : State, r.bar2Answer (k / 2) pkt.addr pkt.rd = { r with ev := w.ev, ports := w.ports } ∧
        (w.evAt (k / 2)).outbox = .completion (r.rdBytes pkt.addr pkt.rd) (!r.memGood pkt.addr pkt.rd) :: (r.evAt (k / 2)).outbox := by
      refine ⟨r.bar2Answer (k / 2) pkt.addr pkt.rd, ?_, ?_⟩
      · unfold State.bar2Answer
        cases r.memGood pkt.addr pkt.rd <;> rfl
      · have hset : ((r.toHost (k / 2) (.completion (r.rdBytes pkt.addr pkt.rd) (!r.memGood pkt.addr pkt.rd))).evAt (k / 2)).outbox =
            .completion (r.rdBytes pkt.addr pkt.rd) (!r.memGood pkt.addr pkt.rd) :: (r.evAt (k / 2)).outbox := by
          unfold State.toHost
          rw [evAt_setEvAt, if_pos rfl]
        unfold State.bar2Answer
        dsimp only
        split
        · exact hset
        · exact hset
    rw [hw]
    refine ⟨fun hwin => ?_, fun h => absurd hk (by omega), fun _ => ⟨fun a => hmem a, ?_⟩, ?_, fun a _ _ => ?_, ?_⟩
    · have hreqs := hreqs hwin
      rw [if_neg (by omega), hk]
      exact hreqs
    · refine hbox.trans ?_
      rw [rdBytes_congr hmem, hdram.memGood, hev]
    · rw [hr]
      exact ⟨rfl, rfl, rfl⟩
    · rw [hr]
      rfl
    · rw [hr]
      exact ⟨rfl, rfl⟩

/-- Passing a packet keeps the policer's buckets and the packets it holds. -/
theorem polRelease_polAt (k : Nat) (pkt : Packet) (green : Bool) :
    ∃ g y, (s.polRelease k pkt green).polAt k = { s.polAt k with gRem := g, yRem := y } := by
  obtain ⟨g, y, h⟩ := polCount_polAt (s := s) k green (s.packetL k pkt)
  refine ⟨g, y, ?_⟩
  have hpol : (s.polRelease k pkt green).pol = (s.polCount k green (s.packetL k pkt)).pol := by
    unfold State.polRelease
    extract_lets v c
    change _ = v.pol
    clear_value v c
    split
    · obtain ⟨m, p, hm⟩ := memWrite_state (s := v.request true pkt.addr pkt.data.length c.1 0 c.2) pkt.addr pkt.data
      obtain ⟨rs, hr⟩ := request_state (s := v) true pkt.addr pkt.data.length c.1 0 c.2
      exact (congrArg State.pol hm).trans (congrArg State.pol hr :)
    · have hans : ∀ r : State, (r.bar2Answer (k / 2) pkt.addr pkt.rd).pol = r.pol := fun r => by
        unfold State.bar2Answer
        cases r.memGood pkt.addr pkt.rd <;> rfl
      obtain ⟨rs, hr⟩ := request_state (s := v) false pkt.addr pkt.rd c.1 0 c.2
      exact (hans _).trans (congrArg State.pol hr :)
  rw [← h]
  unfold State.polAt
  rw [hpol]

end

end Sys2Proof.Machine
end

section

namespace Sys2Proof.Machine

/-! ## Packets at a policer (R395 to R397) -/

section

variable {s t u : State} {but : List Nat} {k : Nat} {pkt : Packet} {green : Bool}

theorem polTokens_pols (k : Nat) : s.pols (s.polTokens k) [CA_P_TC k, CA_P_TP k] :=
  (pols_wrN s _ (by simp)).trans (pols_wrN _ _ (by simp))

/-- The state whose policer `k` holds the packets of a list. -/
def State.polKeeps (s : State) (k : Nat) (held : List Packet) : State := s.setPolAt k { s.polAt k with held := held }

theorem polKeeps_pols (held : List Packet) : s.pols (s.polKeeps k held) but := pols_setPolAt ..

theorem polKeeps_polAt (held : List Packet) : (s.polKeeps k held).polAt k = { s.polAt k with held := held } :=
  (polAt_setPolAt ..).trans (if_pos rfl)

theorem setPolAt_same (v : Policer) : (s.setPolAt k v).polAt k = v := (polAt_setPolAt ..).trans (if_pos rfl)

/-- The state whose policer `k` has the buckets `tc` and `tp` at `time`, as its registers show. -/
def State.polBuckets (s : State) (k tc tp time : Nat) : State := (s.setPolAt k { s.polAt k with tc := tc, tp := tp, t := time }).polTokens k

theorem polBuckets_pols (tc tp time : Nat) : s.pols (s.polBuckets k tc tp time) [CA_P_TC k, CA_P_TP k] := (pols_setPolAt ..).trans (polTokens_pols k)

theorem polBuckets_polAt (tc tp time : Nat) : (s.polBuckets k tc tp time).polAt k = { s.polAt k with tc := tc, tp := tp, t := time } :=
  setPolAt_same _

/-! ### The colours -/

theorem polColour_off (h : s.on (CA_P_CTRL k) CA_P_CTRL_EN = false) (time : Nat) (pkt : Packet) :
    s.polColour k time pkt = (s.polRelease k pkt false, true) := if_pos (by rw [h]; rfl)

theorem polColour_green (h : s.on (CA_P_CTRL k) CA_P_CTRL_EN = true) {time : Nat} (hpre : s.preColour k pkt.tc = 0)
    (hc : s.packetL k pkt * micro ≤ (s.polRefill k time).1) (hp : s.packetL k pkt * micro ≤ (s.polRefill k time).2) :
    s.polColour k time pkt = ((s.polBuckets k ((s.polRefill k time).1 - s.packetL k pkt * micro)
      ((s.polRefill k time).2 - s.packetL k pkt * micro) time).polRelease k pkt true, true) := by
  unfold State.polColour
  generalize s.polRefill k time = full at hc hp ⊢
  rw [if_neg (by rw [h]; decide)]
  dsimp only
  rw [if_neg (by omega), if_neg (by omega)]
  rfl

/-- What holding a packet writes. -/
theorem polColour_red (hk : k / 2 ∈ allPorts) (h : s.on (CA_P_CTRL k) CA_P_CTRL_EN = true) {time : Nat}
    (hp : (s.polRefill k time).2 < s.packetL k pkt * micro) :
    ∃ u, s.polColour k time pkt = (u, false) ∧ u.get (CA_P_STAT k) CA_P_STAT_HOLDING = 1 ∧ u.get (CA_P_STAT k) CA_P_STAT_HELD = 1 ∧
      (s.rdN (CA_P_RCNT k) + 1 < 2 ^ 32 → u.rdN (CA_P_RCNT k) = s.rdN (CA_P_RCNT k) + 1) ∧
      s.quiet u [CA_P_STAT k, CA_P_RCNT k, CA_P_TC k, CA_P_TP k] := by
  unfold State.polColour
  generalize s.polRefill k time = full at hp ⊢
  obtain ⟨tc, tp⟩ := full
  rw [if_neg (by rw [h]; decide)]
  extract_lets lu
  dsimp -zeta only
  extract_lets a b c
  rw [if_pos (.inr hp)]
  have ha : s.pols a [CA_P_STAT k, CA_P_RCNT k, CA_P_TC k, CA_P_TP k] := pols_setPolAt ..
  have hab : a.pols b [CA_P_STAT k, CA_P_RCNT k, CA_P_TC k, CA_P_TP k] := (pols_put a _ _ (by simp)).trans (pols_put _ _ _ (by simp))
  have hbc : b.pols c [CA_P_STAT k, CA_P_RCNT k, CA_P_TC k, CA_P_TP k] :=
    (pols_bump b _ _ (by simp)).trans ((polTokens_pols k).mono (by simp))
  have hholding : b.get (CA_P_STAT k) CA_P_STAT_HOLDING = 1 :=
    (get_put_apart _ _ _ _ _ (by decide) (by decide)).trans (get_put_same _ _ _ _ (by decide))
  have hheld : b.get (CA_P_STAT k) CA_P_STAT_HELD = 1 := get_put_same _ _ _ _ (by decide)
  have hstat : ∀ f, c.get (CA_P_STAT k) f = b.get (CA_P_STAT k) f := fun f =>
    ((polTokens_pols k).get (by simp [CA_P_STAT, CA_P_TC, CA_P_TP]) f).trans (get_bump_ne _ _ _ _ (by unfold CA_P_STAT CA_P_RCNT; omega))
  have hcount : s.rdN (CA_P_RCNT k) + 1 < 2 ^ 32 → c.rdN (CA_P_RCNT k) = s.rdN (CA_P_RCNT k) + 1 := fun hlt => by
    have hbs : b.get (CA_P_RCNT k) CA_P_RCNT_COUNT = s.rdN (CA_P_RCNT k) := by
      rw [rdN_eq_get]
      exact ((get_put_ne _ _ _ _ (by unfold CA_P_STAT CA_P_RCNT; omega)).trans
        (get_put_ne _ _ _ _ (by unfold CA_P_STAT CA_P_RCNT; omega))).trans ((pols_setPolAt (but := []) ..).get List.not_mem_nil _)
    rw [rdN_eq_get (s := c), ← hbs]
    exact ((polTokens_pols k).get (by simp [CA_P_RCNT, CA_P_TC, CA_P_TP]) _).trans (get_bump_same _ _ _ _ (by decide) (by rw [hbs]; exact hlt))
  have hsc : s.pols c [CA_P_STAT k, CA_P_RCNT k, CA_P_TC k, CA_P_TP k] := (ha.trans hab).trans hbc
  clear_value b c
  have hevent : ∀ x : Bool, c.onlyEvents (if x = true then c.holdEvent k 1 (c.packetL k pkt) else c) := fun x => by
    unfold State.holdEvent
    split
    · split
      · exact postOwn_only _ _ hk ..
      · exact onlyEvents_refl _
    · exact onlyEvents_refl _
  refine ⟨_, rfl, ?_⟩
  replace hevent := hevent (!s.on (CA_P_STAT k) CA_P_STAT_HOLDING)
  generalize (if (!s.on (CA_P_STAT k) CA_P_STAT_HOLDING) = true then c.holdEvent k 1 (c.packetL k pkt) else c) = d at hevent ⊢
  have hlost : lostCounter (CA_P_STAT k) = false ∧ lostCounter (CA_P_RCNT k) = false := by
    have : k < 8 := by simp only [allPorts, List.mem_cons, List.not_mem_nil, or_false] at hk; omega
    exact ⟨lostCounter_low (by unfold CA_P_STAT; omega), lostCounter_low (by unfold CA_P_RCNT; omega)⟩
  refine ⟨?_, ?_, fun hlt => ?_, hsc.quiet.events hevent⟩
  · rw [onlyEvents_get hevent _ hlost.1, hstat, hholding]
  · rw [onlyEvents_get hevent _ hlost.1, hstat, hheld]
  · rw [rdN_eq_get, onlyEvents_get hevent _ hlost.2, ← rdN_eq_get, hcount hlt]

/-! ### Arrival -/

theorem polDue_idle (h : (s.polAt k).held = []) : s.polDue k = s := by
  unfold State.polDue
  cases s.islUp islCarousel
  · rfl
  · show s.polDueN k (s.polAt k).held.length = s
    rw [h]
    rfl

theorem polArrive_first (h : (s.polAt k).held = []) (pkt : Packet) : s.polArrive k pkt = s.polDrain k s.dtime [pkt] := by
  unfold State.polArrive
  rw [polDue_idle h]
  dsimp only
  rw [h]
  rfl

theorem polDrain_nil (time : Nat) : s.polDrain k time [] = s.polKeeps k [] := rfl

theorem polDrain_passes {time : Nat} (h : s.polColour k time pkt = (u, true)) : s.polDrain k time [pkt] = u.polKeeps k [] := by
  rw [State.polDrain, h]
  rfl

theorem polDrain_holds {time : Nat} (h : s.polColour k time pkt = (u, false)) : s.polDrain k time [pkt] = u.polKeeps k [pkt] := by
  rw [State.polDrain, h]
  rfl

theorem polFreed_first (h : (s.polAt k).held = []) (n : Nat) (x : State) : s.polFreed k n x = x := if_neg fun hc => hc.1 h

/-- A held packet that is not due lets nothing go before it. -/
theorem polArrive_behind (h : (s.polAt k).held ≠ []) (hdue : ∀ tr, s.polReleaseAt k = some tr → s.dtime < tr) (pkt : Packet) :
    s.polArrive k pkt = s.polKeeps k ((s.polAt k).held ++ [pkt]) := by
  have hsame : s.polDue k = s := by
    have hn : ∀ n, s.polDueN k n = s := fun n => by
      cases n with
      | zero => rfl
      | succ n =>
        rw [State.polDueN]
        split
        · next tr htr => exact if_neg (by have := hdue tr htr; omega)
        · rfl
    unfold State.polDue
    cases s.islUp islCarousel
    · rfl
    · exact hn _
  unfold State.polArrive
  rw [hsame]
  exact if_neg (by simpa using h)

/-! ### Release of a held packet -/

/-- The policer without the packet that it lets go at `tr`. -/
def State.polFrees (s : State) (k : Nat) (pkt : Packet) (tr : Nat) : Policer :=
  if s.on (CA_P_CTRL k) CA_P_CTRL_EN then
    { s.polAt k with
      tp := min ((s.polAt k).tp + (tr - (s.polAt k).t) * s.rdN (CA_P_PIR k) - s.packetL k pkt * micro) (s.rdN (CA_P_PBS k) * micro)
      t := tr, held := [] }
  else { s.polAt k with held := [] }

/-- A lone held packet passes, and nothing is held any more. -/
theorem polUnhold_lone (hk : k < 8) (h : (s.polAt k).held = [pkt]) (tr : Nat) :
    ((s.polUnhold k tr).polAt k).held = [] ∧ (s.polUnhold k tr).get (CA_P_STAT k) CA_P_STAT_HOLDING = 0 ∧
    ∃ u, s.lets u k pkt false [CA_P_STAT k, CA_P_YCNT k, CA_P_TC k, CA_P_TP k] ∧ u.onlyEvents (s.polUnhold k tr) := by
  have hport : k / 2 ∈ allPorts := by simp only [allPorts, List.mem_cons, List.not_mem_nil, or_false]; omega
  let bts := [CA_P_STAT k, CA_P_YCNT k, CA_P_TC k, CA_P_TP k]
  let v := (((s.setPolAt k (s.polFrees k pkt tr)).polRelease k pkt false).polTokens k).polKeeps k []
  have hv : s.lets v k pkt false bts := by
    refine State.lets.before (u := s.setPolAt k (s.polFrees k pkt tr)) (pols_setPolAt ..) ?_ ?_ ?_
    · simp only [bts, List.forall_mem_cons, List.not_mem_nil, false_imp_iff, implies_true, and_true]
      unfold CA_P_STAT CA_P_YCNT CA_P_TC CA_P_TP
      omega
    · simp [bts, CA_P_CTRL, CA_P_STAT, CA_P_YCNT, CA_P_TC, CA_P_TP]
    · have hl := polRelease_lets (s := s.setPolAt k (s.polFrees k pkt tr)) (pkt := pkt) (green := false) hk
      have hl' : (s.setPolAt k (s.polFrees k pkt tr)).lets ((s.setPolAt k (s.polFrees k pkt tr)).polRelease k pkt false) k pkt false bts :=
        { hl with regs := fun a hb ha => hl.regs a hb fun hc => ha (by rw [List.mem_singleton.1 hc]; simp [bts, colourCount]) }
      exact (hl'.after ((polTokens_pols k).mono (by simp [bts]))).after (polKeeps_pols [])
  have hheld : (v.polAt k).held = [] := congrArg Policer.held (polKeeps_polAt [])
  have hput : v.pols (v.put (CA_P_STAT k) CA_P_STAT_HOLDING 0) bts := pols_put v _ _ (by simp [bts])
  have hputget : (v.put (CA_P_STAT k) CA_P_STAT_HOLDING 0).get (CA_P_STAT k) CA_P_STAT_HOLDING = 0 := get_put_same _ _ _ _ (by decide)
  have hputpol : (v.put (CA_P_STAT k) CA_P_STAT_HOLDING 0).polAt k = v.polAt k := rfl
  have he : s.polUnhold k tr = (v.put (CA_P_STAT k) CA_P_STAT_HOLDING 0).holdEvent k 0 (tr - (s.polAt k).since) := by
    unfold State.polUnhold
    dsimp only
    rw [h]
    dsimp only
    rw [polDrain_nil]
    refine (if_pos ?_).trans rfl
    exact congrArg List.isEmpty (congrArg Policer.held (polKeeps_polAt (k := k) []))
  rw [he]
  clear_value v
  generalize v.put (CA_P_STAT k) CA_P_STAT_HOLDING 0 = w at hput hputget hputpol ⊢
  have hev : w.onlyEvents (w.holdEvent k 0 (tr - (s.polAt k).since)) := by
    unfold State.holdEvent
    split
    · exact postOwn_only _ _ hport ..
    · exact onlyEvents_refl _
  generalize w.holdEvent k 0 (tr - (s.polAt k).since) = z at hev ⊢
  refine ⟨?_, ?_, w, hv.after hput, hev⟩
  · have hz : z.polAt k = w.polAt k := by
      unfold State.polAt
      rw [hev.1]
    rw [hz, hputpol, hheld]
  · rw [onlyEvents_get hev _ (lostCounter_low (by unfold CA_P_STAT; omega)), hputget]

/-- At its release time a lone held packet is released. -/
theorem polDue_lone (hup : s.islUp islCarousel = true) (h : (s.polAt k).held = [pkt]) {tr : Nat} (htr : s.polReleaseAt k = some tr)
    (hdue : tr ≤ s.dtime) : s.polDue k = s.polUnhold k tr := by
  unfold State.polDue
  rw [hup]
  show s.polDueN k (s.polAt k).held.length = _
  rw [h]
  show s.polDueN k 1 = _
  rw [State.polDueN, htr]
  exact if_pos hdue

end

end Sys2Proof.Machine
end

section

namespace Sys2Proof.Machine

/-! ## Requests at the shaper queues (R405 to R407, R409) -/

section

variable {s t u : State} {but : List Nat} {q : Nat}

theorem qPark_shqAt (e : Option Nat) : (s.qPark q e).shqAt q = { s.shqAt q with elig := e } :=
  (shqAt_setShqAt s q q _).trans (if_pos rfl)

theorem setShqAt_same (v : ShapeQ) : (s.setShqAt q v).shqAt q = v := (shqAt_setShqAt ..).trans (if_pos rfl)

theorem setShqAt_other {i : Nat} (h : q ≠ i) (v : ShapeQ) : (s.setShqAt i v).shqAt q = s.shqAt q := (shqAt_setShqAt ..).trans (if_neg h)

theorem qPark_other {i : Nat} (h : q ≠ i) (e : Option Nat) : (s.qPark i e).shqAt q = s.shqAt q := setShqAt_other h _

theorem setShqAt_reqs (i : Nat) (v : ShapeQ) : (s.setShqAt i v).reqs = s.reqs := rfl

/-- `t` leaves the settings of queue `q` as `s` has them. -/
structure State.sameQueue (s t : State) (q : Nat) : Prop where
  on : ∀ f, t.on (CA_Q_CTRL q) f = s.on (CA_Q_CTRL q) f
  rate : t.qRate q = s.qRate q
  lim : t.qBurst q = s.qBurst q

theorem sameQueue_of (h : s.regsSame t but) (hb : ∀ a ∈ [CA_Q_CTRL q, CA_Q_RATE q, CA_Q_LIM q], lostCounter a = false ∧ a ∉ but) :
    s.sameQueue t q where
  on f := by
    have e := h _ (hb _ (by simp)).1 (hb (CA_Q_CTRL q) (by simp)).2
    unfold State.on State.get
    rw [e]
  rate := by
    have e := h _ (hb _ (by simp)).1 (hb (CA_Q_RATE q) (by simp)).2
    unfold State.qRate State.rdN
    rw [e]
  lim := by
    have e := h _ (hb _ (by simp)).1 (hb (CA_Q_LIM q) (by simp)).2
    unfold State.qBurst State.get
    rw [e]

theorem oneQueueWords_cases {a i : Nat} (h : a ∈ oneQueueWords i) : a = CA_Q_STAT i ∨ a = CA_Q_CNT i ∨ 0xA00000 ≤ a := by
  rcases List.mem_cons.1 h with h | h
  · exact .inl h
  rcases List.mem_cons.1 h with h | h
  · exact .inr (.inl h)
  · obtain ⟨p, _, rfl⟩ := List.mem_map.1 h
    exact .inr (.inr (by unfold HP_HW_STAT; omega))

theorem oneQueueWords_settings (hq : q < 256) {i : Nat} :
    ∀ a ∈ [CA_Q_CTRL q, CA_Q_RATE q, CA_Q_LIM q], lostCounter a = false ∧ a ∉ oneQueueWords i := by
  have hform : ∀ a ∈ [CA_Q_CTRL q, CA_Q_RATE q, CA_Q_LIM q], a < 0xA00000 ∧ a % 0x20 < 0x10 := by
    simp only [List.forall_mem_cons, List.not_mem_nil, false_imp_iff, implies_true, and_true]
    unfold CA_Q_CTRL CA_Q_RATE CA_Q_LIM
    omega
  intro a ha
  obtain ⟨hlow, hmod⟩ := hform a ha
  refine ⟨lostCounter_low hlow, fun hc => ?_⟩
  have hcase := oneQueueWords_cases hc
  unfold CA_Q_STAT CA_Q_CNT at hcase
  omega

/-! ### Service -/

theorem qServe_green {w : QWait} {rest : List QWait} {time : Nat} (hen : s.on (CA_Q_CTRL q) CA_Q_CTRL_EN = true) (hr : s.qRate q ≠ 0)
    (hd : s.qDebt q time ≤ s.qBurst q) : s.qServe q time (w :: rest) = (s.qRelease q time true w rest).qServe q time rest := by
  rw [State.qServe, hen, beq_false_of_ne hr, if_neg (by decide), if_pos hd]

theorem qServe_debt {w : QWait} {rest : List QWait} {time : Nat} (hen : s.on (CA_Q_CTRL q) CA_Q_CTRL_EN = true) (hr : s.qRate q ≠ 0)
    (hd : s.qBurst q < s.qDebt q time) (hx : s.on (CA_Q_CTRL q) CA_Q_CTRL_EXCESS = false) :
    s.qServe q time (w :: rest) = s.qPark q (some (s.qElig q time)) := by
  rw [State.qServe, hen, beq_false_of_ne hr, if_neg (by decide), if_neg (by omega), hx]
  rfl

/-- The record of a queue whose lone request has gone green. -/
theorem qServe_lone {w : QWait} {time : Nat} (hen : s.on (CA_Q_CTRL q) CA_Q_CTRL_EN = true) (hr : s.qRate q ≠ 0)
    (hd : s.qDebt q time ≤ s.qBurst q) : (s.qServe q time [w]).shqAt q = { s.shqAt q with
      d := s.qDebt q time + w.req.bytes * micro, t0 := time, reqs := [], elig := none, out := (w.req.bytes, true) :: (s.shqAt q).out,
      rem := ((s.shqAt q).rem + w.req.bytes) % 64 } := by
  rw [qServe_green hen hr hd, State.qServe, qPark_shqAt, qRelease_shqAt]

theorem qRelease_plain {w : QWait} (hw : w.read = none) (time : Nat) (green : Bool) (rest : List QWait) :
    s.quiet (s.qRelease q time green w rest) [CA_Q_STAT q, CA_Q_CNT q] := by
  unfold State.qRelease
  extract_lets h n d a b c
  rw [hw]
  exact (((traffic_setShqAt ..).trans (traffic_put (by simp) _ _)).trans (traffic_bump (by simp) _ _)).quiet

theorem qPark_quiet (e : Option Nat) : s.quiet (s.qPark q e) [CA_Q_STAT q] := ((traffic_setShqAt ..).trans (traffic_put (by simp) _ _)).quiet

theorem qServe_lone_quiet {w : QWait} (hw : w.read = none) {time : Nat} (hen : s.on (CA_Q_CTRL q) CA_Q_CTRL_EN = true) (hr : s.qRate q ≠ 0)
    (hd : s.qDebt q time ≤ s.qBurst q) : s.quiet (s.qServe q time [w]) [CA_Q_STAT q, CA_Q_CNT q] := by
  rw [qServe_green hen hr hd]
  exact (qRelease_plain hw ..).trans ((qPark_quiet none).mono (by simp))

/-! ### What a queue's service leaves of the others and of the requests sent -/

theorem busIssue_reqs_mem {x : MemReq} (a n : Nat) (cls : MemClass) (deadline : Nat) (kind : ReadKind) (h : x ∈ s.reqs) :
    x ∈ (s.busIssue a n cls deadline kind).reqs := by
  unfold State.busIssue State.request
  split
  · split
    · exact h
    · exact h
  · split
    · exact h
    all_goals exact List.mem_cons_of_mem _ h

/-- A release is a charge, and what its read sends. -/
theorem qRelease_charge (i time : Nat) (green : Bool) (w : QWait) (rest : List QWait) :
    ∃ v : State, v.reqs = s.reqs ∧ (s.qRelease i time green w rest = v ∨
      ∃ a n cls kind, s.qRelease i time green w rest = v.busIssue a n cls 0 kind) := by
  unfold State.qRelease
  extract_lets h n d a b c
  have ha : a.reqs = s.reqs := setShqAt_reqs ..
  have hb : b.reqs = a.reqs := (bump_reqs ..).trans (put_reqs ..)
  replace hb : b.reqs = s.reqs := hb.trans ha
  clear_value b
  refine ⟨b, hb, ?_⟩
  split
  · exact .inr ⟨_, _, _, _, rfl⟩
  · exact .inl rfl

theorem qRelease_reqs_mem {x : MemReq} {i time : Nat} {green : Bool} {w : QWait} {rest : List QWait} (h : x ∈ s.reqs) :
    x ∈ (s.qRelease i time green w rest).reqs := by
  obtain ⟨v, hv, e | ⟨a, n, cls, kind, e⟩⟩ := qRelease_charge (s := s) i time green w rest
  · rw [e, hv]
    exact h
  · rw [e]
    exact busIssue_reqs_mem _ _ _ _ _ (by rw [hv]; exact h)

theorem qServe_reqs_mem {x : MemReq} {i time : Nat} {ws : List QWait} (h : x ∈ s.reqs) : x ∈ (s.qServe i time ws).reqs := by
  induction ws generalizing s with
  | nil => exact h
  | cons w rest ih =>
    unfold State.qServe
    split
    · exact h
    split
    · exact ih (qRelease_reqs_mem h)
    split
    · exact ih (qRelease_reqs_mem h)
    · dsimp only
      split
      · exact h
      · exact h

theorem qRelease_other {i time : Nat} {green : Bool} {w : QWait} {rest : List QWait} (h : q ≠ i) :
    (s.qRelease i time green w rest).shqAt q = s.shqAt q := by
  unfold State.qRelease
  extract_lets hh n d a b c
  have hb : b.shq = a.shq := (bump_shq ..).trans (put_shq ..)
  replace hb : b.shqAt q = s.shqAt q := by
    rw [← setShqAt_other h (s := s)]
    exact congrArg (fun m => tget (fun _ => ShapeQ.reset) m q) hb
  clear_value b
  split
  · unfold State.shqAt at hb ⊢
    rw [busIssue_shq, hb]
  · exact hb

theorem qServe_other {i time : Nat} {ws : List QWait} (h : q ≠ i) : (s.qServe i time ws).shqAt q = s.shqAt q := by
  induction ws generalizing s with
  | nil => exact qPark_other h _
  | cons w rest ih =>
    unfold State.qServe
    split
    · exact qPark_other h _
    split
    · exact ih.trans (qRelease_other h)
    split
    · exact ih.trans (qRelease_other h)
    · dsimp only
      split
      · exact qPark_other h _
      · exact qPark_other h _

theorem qDue_traffic (i : Nat) : s.traffic (s.qDue i) (oneQueueWords i) := by
  unfold State.qDue
  split
  · split
    · exact (qPark_traffic none).trans (qServe_traffic ..)
    · exact traffic_refl ..
  · exact traffic_refl ..

theorem qDue_other {i : Nat} (h : q ≠ i) : (s.qDue i).shqAt q = s.shqAt q := by
  unfold State.qDue
  split
  · split
    · exact (qServe_other h).trans (qPark_other h _)
    · rfl
  · rfl

theorem qDue_reqs_mem {x : MemReq} (i : Nat) (h : x ∈ s.reqs) : x ∈ (s.qDue i).reqs := by
  unfold State.qDue
  split
  · split
    · exact qServe_reqs_mem h
    · exact h
  · exact h

/-- A queue that is not on the wheel has nothing due. -/
theorem qDue_off (h : (s.shqAt q).elig = none) : s.qDue q = s := by
  unfold State.qDue
  rw [h]

theorem qDue_on {e : Nat} (h : (s.shqAt q).elig = some e) (he : e ≤ s.dtime) : s.qDue q = (s.qPark q none).qServe q e (s.shqAt q).reqs := by
  unfold State.qDue
  rw [h]
  exact if_pos he

/-! ### A request that comes -/

theorem qEnter_behind {w : QWait} (h : (s.shqAt q).reqs ≠ []) : s.qEnter q w = s.setShqAt q { s.shqAt q with reqs := (s.shqAt q).reqs ++ [w] } := by
  refine if_neg ?_
  rw [List.isEmpty_eq_false_iff.2 h, Bool.false_and]
  exact Bool.false_ne_true

/-- The state whose queue holds one request alone. -/
def State.qAlone (s : State) (q : Nat) (w : QWait) : State := s.setShqAt q { s.shqAt q with reqs := [w] }

theorem qEnter_alone {w : QWait} (h : (s.shqAt q).reqs = []) (hup : s.islUp islCarousel = true) :
    s.qEnter q w = (s.qAlone q w).qServe q s.dtime [w] := by
  have hadd : s.setShqAt q { s.shqAt q with reqs := (s.shqAt q).reqs ++ [w] } = s.qAlone q w := by
    rw [h]
    rfl
  unfold State.qEnter
  dsimp only
  rw [hadd]
  refine if_pos ?_
  have hup' : (s.qAlone q w).islUp islCarousel = true := hup
  rw [hup', h]
  rfl

theorem qAlone_shqAt (w : QWait) : (s.qAlone q w).shqAt q = { s.shqAt q with reqs := [w] } := setShqAt_same _

theorem qAlone_debt (w : QWait) (time : Nat) : (s.qAlone q w).qDebt q time = s.qDebt q time := by
  unfold State.qDebt
  rw [qAlone_shqAt]
  rfl

/-- A request that the debt lets go goes at once. -/
theorem qEnter_green {req : QReq} (h : (s.shqAt q).reqs = []) (hup : s.islUp islCarousel = true)
    (hen : s.on (CA_Q_CTRL q) CA_Q_CTRL_EN = true) (hr : s.qRate q ≠ 0) (hd : s.qDebt q s.dtime ≤ s.qBurst q) :
    (s.qEnter q ⟨req, none⟩).shqAt q = { s.shqAt q with
      d := s.qDebt q s.dtime + req.bytes * micro, t0 := s.dtime, reqs := [], elig := none, out := (req.bytes, true) :: (s.shqAt q).out,
      rem := ((s.shqAt q).rem + req.bytes) % 64 } ∧ s.quiet (s.qEnter q ⟨req, none⟩) [CA_Q_STAT q, CA_Q_CNT q] := by
  have hdebt := qAlone_debt (s := s) (q := q) ⟨req, none⟩ s.dtime
  have hd' : (s.qAlone q ⟨req, none⟩).qDebt q s.dtime ≤ (s.qAlone q ⟨req, none⟩).qBurst q := by rw [hdebt]; exact hd
  rw [qEnter_alone h hup]
  refine ⟨?_, (quiet_of_same rfl rfl rfl rfl rfl rfl : s.quiet (s.qAlone q ⟨req, none⟩) _).trans (qServe_lone_quiet rfl hen hr hd')⟩
  rw [qServe_lone (s := s.qAlone q ⟨req, none⟩) hen hr hd', hdebt, qAlone_shqAt]

/-- A request in debt waits on the wheel. -/
theorem qEnter_debt {req : QReq} (h : (s.shqAt q).reqs = []) (hup : s.islUp islCarousel = true)
    (hen : s.on (CA_Q_CTRL q) CA_Q_CTRL_EN = true) (hr : s.qRate q ≠ 0) (hd : s.qBurst q < s.qDebt q s.dtime)
    (hx : s.on (CA_Q_CTRL q) CA_Q_CTRL_EXCESS = false) :
    (s.qEnter q ⟨req, none⟩).shqAt q = { s.shqAt q with reqs := [⟨req, none⟩], elig := some (s.qElig q s.dtime) } ∧
    s.quiet (s.qEnter q ⟨req, none⟩) [CA_Q_STAT q] := by
  have hdebt := qAlone_debt (s := s) (q := q) ⟨req, none⟩ s.dtime
  have helig : (s.qAlone q ⟨req, none⟩).qElig q s.dtime = s.qElig q s.dtime := by
    unfold State.qElig
    rw [hdebt]
    rfl
  have hd' : (s.qAlone q ⟨req, none⟩).qBurst q < (s.qAlone q ⟨req, none⟩).qDebt q s.dtime := by rw [hdebt]; exact hd
  rw [qEnter_alone h hup, qServe_debt (s := s.qAlone q ⟨req, none⟩) hen hr hd' hx, helig]
  refine ⟨?_, (quiet_of_same rfl rfl rfl rfl rfl rfl : s.quiet (s.qAlone q ⟨req, none⟩) _).trans (qPark_quiet _)⟩
  rw [qPark_shqAt, qAlone_shqAt]

end

end Sys2Proof.Machine
end

section

namespace Sys2Proof.Machine

/-! ## The wheel, and a new rate (R407 to R409) -/

section

variable {s t u : State} {but : List Nat} {q : Nat}

/-- Queue `q` waits on the wheel for `e` with one request that its debt then lets go. -/
structure State.awaits (x s : State) (q e : Nat) (w : QWait) : Prop where
  shq : s.shqAt q = x.shqAt q
  same : x.sameQueue s q
  dtime : s.dtime = x.dtime

/-- The lone request of queue `q` has gone at `e`. -/
structure State.served (x s : State) (q e : Nat) (w : QWait) : Prop where
  shq : s.shqAt q = { x.shqAt q with
    d := x.qDebt q e + w.req.bytes * micro, t0 := e, reqs := [], elig := none, out := (w.req.bytes, true) :: (x.shqAt q).out,
    rem := ((x.shqAt q).rem + w.req.bytes) % 64 }
  sent : ∀ c off a, w.read = some (c, off, a) → windowOf a = none →
    ⟨false, a, w.req.bytes, (colourClass (x.on (CA_Q_CTRL q) CA_Q_CTRL_GUAR) true).1, 0, .plain⟩ ∈ s.reqs

theorem awaits_qDue {x : State} {e i : Nat} {w : QWait} (hq : q < 256) (hi : i ≠ q) (h : x.awaits s q e w) : x.awaits (s.qDue i) q e w where
  shq := (qDue_other (Ne.symm hi)).trans h.shq
  same := by
    have k := sameQueue_of (qDue_traffic (s := s) i).regs (oneQueueWords_settings hq)
    exact ⟨fun f => (k.on f).trans (h.same.on f), k.rate.trans h.same.rate, k.lim.trans h.same.lim⟩
  dtime := (by rw [(qDue_traffic (s := s) i).same] : (s.qDue i).dtime = s.dtime).trans h.dtime

theorem served_qDue {x : State} {e : Nat} {w : QWait} (i : Nat) (h : x.served s q e w) : x.served (s.qDue i) q e w := by
  by_cases hi : q = i
  · subst hi
    rw [qDue_off (by rw [h.shq])]
    exact h
  · exact ⟨(qDue_other hi).trans h.shq, fun c off a hr hw => qDue_reqs_mem i (h.sent c off a hr hw)⟩

/-- The request of a queue that its debt lets go at its time. -/
theorem qDue_serves {x : State} {e : Nat} {w : QWait} (hq : q < 256) (helig : (x.shqAt q).elig = some e) (he : e ≤ x.dtime)
    (hreqs : (x.shqAt q).reqs = [w]) (hen : x.on (CA_Q_CTRL q) CA_Q_CTRL_EN = true) (hr : x.qRate q ≠ 0) (hd : x.qDebt q e ≤ x.qBurst q)
    (h : x.awaits s q e w) : x.served (s.qDue q) q e w := by
  have hdue : s.qDue q = (s.qPark q none).qServe q e [w] := by
    rw [qDue_on (by rw [h.shq]; exact helig) (by rw [h.dtime]; exact he), h.shq, hreqs]
  have hpark : (s.qPark q none).shqAt q = { x.shqAt q with elig := none } := by rw [qPark_shqAt, h.shq]
  have hkeep := sameQueue_of (qPark_traffic (s := s) (q := q) none).regs (oneQueueWords_settings hq)
  have hon : ∀ f, (s.qPark q none).on (CA_Q_CTRL q) f = x.on (CA_Q_CTRL q) f := fun f => (hkeep.on f).trans (h.same.on f)
  have hrate : (s.qPark q none).qRate q = x.qRate q := hkeep.rate.trans h.same.rate
  have hlim : (s.qPark q none).qBurst q = x.qBurst q := hkeep.lim.trans h.same.lim
  have hdebt : (s.qPark q none).qDebt q e = x.qDebt q e := by
    unfold State.qDebt
    rw [hpark, hrate]
  generalize s.qPark q none = p at hdue hpark hkeep hon hrate hlim hdebt
  have hen' : p.on (CA_Q_CTRL q) CA_Q_CTRL_EN = true := (hon _).trans hen
  have hr' : p.qRate q ≠ 0 := by rw [hrate]; exact hr
  have hd' : p.qDebt q e ≤ p.qBurst q := by rw [hdebt, hlim]; exact hd
  rw [hdue]
  refine ⟨?_, fun c off a hread hw => ?_⟩
  · rw [qServe_lone hen' hr' hd', hdebt, hpark]
  · rw [qServe_green hen' hr' hd']
    refine qServe_reqs_mem (ws := []) ?_
    unfold State.qRelease
    extract_lets hh n d a' b c'
    have hgot : b.on (CA_Q_CTRL q) CA_Q_CTRL_GUAR = x.on (CA_Q_CTRL q) CA_Q_CTRL_GUAR := by
      have ht : p.traffic b (oneQueueWords q) :=
        ((traffic_setShqAt ..).trans (traffic_put (by simp [oneQueueWords]) _ _)).trans (traffic_bump (by simp [oneQueueWords]) _ _)
      exact ((sameQueue_of ht.regs (oneQueueWords_settings hq)).on _).trans (hon _)
    have hc : c' = colourClass (x.on (CA_Q_CTRL q) CA_Q_CTRL_GUAR) true := by rw [← hgot]
    have hplain : (colourClass (x.on (CA_Q_CTRL q) CA_Q_CTRL_GUAR) true).2 = .plain := by
      cases x.on (CA_Q_CTRL q) CA_Q_CTRL_GUAR <;> rfl
    clear_value b c'
    rw [hread]
    dsimp only
    unfold State.busIssue
    rw [hw]
    dsimp only
    rw [request_reqs hw, hc, hplain]
    exact List.mem_cons_self

theorem mem_sortInsert {α : Type} {le : α → α → Bool} {a x : α} {l : List α} (h : x = a ∨ x ∈ l) : x ∈ sortInsert le a l := by
  induction l with
  | nil => simpa [sortInsert] using h
  | cons b l ih =>
    unfold sortInsert
    split
    · simpa using h
    · rcases h with h | h
      · exact List.mem_cons_of_mem _ (ih (.inl h))
      · rcases List.mem_cons.1 h with h | h
        · exact h ▸ List.mem_cons_self
        · exact List.mem_cons_of_mem _ (ih (.inr h))

theorem mem_sortBy_of_mem {α : Type} {le : α → α → Bool} {x : α} {l : List α} (h : x ∈ l) : x ∈ sortBy le l := by
  induction l with
  | nil => exact h
  | cons a l ih => exact mem_sortInsert ((List.mem_cons.1 h).imp_right ih)

theorem wheelOrder_self {e : Nat} (hq : q < 256) (h : (s.shqAt q).elig = some e) : q ∈ s.wheelOrder q e := by
  unfold State.wheelOrder
  refine List.mem_map.2 ⟨(e, q), ?_, rfl⟩
  refine mem_sortBy_of_mem (List.mem_filterMap.2 ⟨q, List.mem_range.2 hq, ?_⟩)
  rw [h]
  simp

/-- When its time has come, a queue on the wheel serves its request after the queues before it. -/
theorem wheel_serves {e : Nat} {w : QWait} (hq : q < 256) (helig : (s.shqAt q).elig = some e) (he : e ≤ s.dtime)
    (hreqs : (s.shqAt q).reqs = [w]) (hen : s.on (CA_Q_CTRL q) CA_Q_CTRL_EN = true) (hr : s.qRate q ≠ 0) (hd : s.qDebt q e ≤ s.qBurst q) :
    s.served ((s.wheelOrder q e).foldl State.qDue s) q e w :=
  foldl_visits (P := fun y => s.awaits y q e w) (Q := fun y => s.served y q e w) (fun _ _ hi hy => awaits_qDue hq hi hy)
    (fun _ hy => qDue_serves hq helig he hreqs hen hr hd hy) (fun _ i hy => served_qDue i hy) (wheelOrder_self hq helig)
    ⟨rfl, ⟨fun _ => rfl, rfl, rfl⟩, rfl⟩

/-! ### A new rate -/

/-- A queue without requests: at most it leaves the wheel. -/
theorem qDue_empty (h : (s.shqAt q).reqs = []) : s.quiet (s.qDue q) [CA_Q_STAT q] ∧ (s.qDue q).dtime = s.dtime ∧
    (∃ e, (s.qDue q).shqAt q = { s.shqAt q with elig := e }) := by
  unfold State.qDue
  split
  · split
    · rw [h]
      refine ⟨(qPark_quiet none).trans (qPark_quiet none), rfl, none, ?_⟩
      rw [State.qServe, qPark_shqAt, qPark_shqAt]
    · exact ⟨quiet_refl .., rfl, _, rfl⟩
  · exact ⟨quiet_refl .., rfl, _, rfl⟩

theorem qSetRate_empty (hq : q < 256) (h : (s.shqAt q).reqs = []) {rate : Nat} (hrate : rate < 2 ^ 32) :
    (s.qSetRate q rate).rdN (CA_Q_RATE q) = rate ∧ ((s.qSetRate q rate).shqAt q).d = s.qDebt q s.dtime ∧
    ((s.qSetRate q rate).get (CA_Q_STAT q) CA_Q_STAT_PAUSED = 1 ↔ rate = 0) ∧ s.quiet (s.qSetRate q rate) [CA_Q_RATE q, CA_Q_STAT q] := by
  obtain ⟨hquiet, hdtime, e, hshq⟩ := qDue_empty h
  have hlost : lostCounter (CA_Q_RATE q) = false ∧ lostCounter (CA_Q_STAT q) = false :=
    ⟨lostCounter_low (by unfold CA_Q_RATE; omega), lostCounter_low (by unfold CA_Q_STAT; omega)⟩
  have hdebt : (s.qDue q).qDebt q (s.qDue q).dtime = s.qDebt q s.dtime := by
    have hr : (s.qDue q).qRate q = s.qRate q := by
      unfold State.qRate State.rdN
      rw [hquiet.2.2 _ hlost.1 (by simp [CA_Q_RATE, CA_Q_STAT])]
    unfold State.qDebt
    rw [hr, hshq, hdtime]
  unfold State.qSetRate
  generalize s.qDue q = v at hquiet hdtime hshq hdebt ⊢
  extract_lets y d src a b c
  have ha : a.shqAt q = { v.shqAt q with d := d, t0 := v.dtime, elig := none } := setShqAt_same _
  have hb : b.shqAt q = a.shqAt q := congrArg (fun m => tget (fun _ => ShapeQ.reset) m q) ((put_shq ..).trans (wrN_shq ..) : b.shq = a.shq)
  have hbrate : b.rdN (CA_Q_RATE q) = rate := by
    refine Eq.trans ?_ ((rdN_wrN_same a (CA_Q_RATE q) rate).trans (Nat.mod_eq_of_lt hrate))
    exact congrArg BitVec.toNat (rd_put_ne _ _ _ (by unfold CA_Q_RATE CA_Q_STAT; omega))
  have hbstat : b.get (CA_Q_STAT q) CA_Q_STAT_PAUSED = b2n (rate == 0) := by
    refine (get_put_same _ _ _ _ (by decide)).trans ?_
    cases rate == 0 <;> rfl
  have hsb : s.quiet b [CA_Q_RATE q, CA_Q_STAT q] :=
    ((hquiet.mono (by simp)).trans ((quiet_of_same rfl rfl rfl rfl rfl rfl : v.quiet a _).wrN rate (by simp))).put _ _ (by simp)
  have hbc : b.onlyEvents c := postTo_only _ _ (fun _ hp => (List.mem_filter.1 hp).1) ..
  clear_value b c
  have hc : c.shqAt q = b.shqAt q := by
    unfold State.shqAt
    rw [hbc.1]
  have hempty : (c.shqAt q).reqs = [] := by
    rw [hc, hb, ha, hshq]
    exact h
  rw [hempty, State.qServe]
  refine ⟨?_, ?_, ?_, (hsb.events hbc).trans ((qPark_quiet none).mono (by simp))⟩
  · rw [← hbrate, rdN_eq_get, rdN_eq_get]
    exact ((qPark_quiet (s := c) none).get hlost.1 (by simp [CA_Q_RATE, CA_Q_STAT]) _).trans (onlyEvents_get hbc _ hlost.1)
  · rw [qPark_shqAt]
    show (c.shqAt q).d = _
    rw [hc, hb, ha, ← hdebt]
  · have hp : (c.qPark q none).get (CA_Q_STAT q) CA_Q_STAT_PAUSED = b2n (rate == 0) := by
      rw [← hbstat, ← onlyEvents_get hbc _ hlost.2]
      exact get_put_apart _ _ _ _ _ (by decide) (by decide)
    rw [hp]
    cases hz : rate == 0
    · have hne : rate ≠ 0 := by simpa using hz
      simp [b2n, hne]
    · have he : rate = 0 := by simpa using hz
      simp [b2n, he]

/-- A rate written is stored up to the contract. -/
theorem qRateWrite_empty (hq : q < 256) (h : (s.shqAt q).reqs = []) (w : Word) :
    (s.qRateWrite q w).rdN (CA_Q_RATE q) = min w.toNat (s.rdN (CA_Q_CONTRACT q)) ∧ ((s.qRateWrite q w).shqAt q).d = s.qDebt q s.dtime ∧
    ((s.qRateWrite q w).get (CA_Q_STAT q) CA_Q_STAT_PAUSED = 1 ↔ (s.qRateWrite q w).rdN (CA_Q_RATE q) = 0) ∧
    s.quiet (s.qRateWrite q w) [CA_Q_RATE q, CA_Q_STAT q] := by
  unfold State.qRateWrite
  extract_lets c u
  have hu : s.traffic u [CA_Q_STAT q] := traffic_ite (traffic_put (by simp) _ _) (traffic_refl ..)
  have hshq : u.shqAt q = s.shqAt q := by
    unfold u
    split
    · rfl
    · rfl
  have hdtime : u.dtime = s.dtime := by rw [hu.same]
  have hdebt : u.qDebt q u.dtime = s.qDebt q s.dtime := by
    have hr : u.qRate q = s.qRate q := by
      unfold State.qRate State.rdN
      rw [hu.regs _ (lostCounter_low (by unfold CA_Q_RATE; omega)) (by simp [CA_Q_RATE, CA_Q_STAT])]
    unfold State.qDebt
    rw [hr, hshq, hdtime]
  clear_value u
  have hlt : min w.toNat c < 2 ^ 32 := lt_of_le_of_lt (Nat.min_le_left ..) w.isLt
  obtain ⟨hrate, hd, hpaused, hquiet⟩ := qSetRate_empty (s := u) hq (by rw [hshq]; exact h) hlt
  exact ⟨hrate, hd.trans hdebt, by rw [hrate]; exact hpaused, (hu.quiet.mono (by simp)).trans hquiet⟩

end

end Sys2Proof.Machine
end

section

namespace Sys2Proof.Machine

/-! ## Packets through BAR2 (R394, R396) -/

section

variable {s t u : State} {but : List Nat} {hpa : Nat}

/-- The policer of a port's writes or reads. -/
theorem polNumber (p : Fin 4) (read : Bool) : 2 * p.val + b2n read < 8 ∧ (2 * p.val + b2n read) / 2 = p.val ∧
    (2 * p.val + b2n read) % 2 = b2n read := by
  cases read <;> simp only [b2n, if_true, Bool.false_eq_true, if_false] <;> omega

/-- The packet of a request through BAR2. -/
def bar2Packet (read : Bool) (len tc : Nat) (data : List Byte) (hpa : Nat) : Packet :=
  { len := if read then len else data.length, tc := tc, addr := hpa, data := if read then [] else data, rd := if read then len else 0 }

theorem policerPacket_runs {p : Fin 4} {read : Bool} {offset len tc now : Nat} {data : List Byte} (hb : s.bar2Hpa p.val offset = some hpa)
    (hl : s.linkUp p.val = true) (hm : (s.portAt p.val).mse = true) (hd : s.on (HP_LINK p.val) HP_LINK_D3 = false)
    (hi : s.islUp islCarousel = true) : exec (.policerPacket now p read offset len tc data) s =
      .next ((s.tick now).polFreed (2 * p.val + b2n read) 1
        ((s.tick now).polArrive (2 * p.val + b2n read) (bar2Packet read len tc data hpa))) := by
  have hb' : (s.tick now).bar2Hpa p.val offset = some hpa := hb
  show execPolicerPacket now p read offset len tc data s = _
  unfold execPolicerPacket
  dsimp only
  rw [hb']
  refine congrArg Host.Outcome.next (if_pos ?_)
  have hl' : (s.tick now).linkUp p.val = true := hl
  have hm' : ((s.tick now).portAt p.val).mse = true := hm
  have hd' : (s.tick now).on (HP_LINK p.val) HP_LINK_D3 = false := hd
  have hi' : (s.tick now).islUp islCarousel = true := hi
  rw [hl', hm', hd', hi']
  rfl

/-- What a packet that passes does, told of its request. -/
theorem State.lets.told {p : Fin 4} {read green : Bool} {len tc : Nat} {data : List Byte}
    (l : s.lets t (2 * p.val + b2n read) (bar2Packet read len tc data hpa) green but) :
    (windowOf hpa = none → t.reqs = ⟨!read, hpa, if read then len else data.length,
      (colourClass (s.on (CA_P_CTRL (2 * p.val + b2n read)) CA_P_CTRL_GUAR) green).1, 0,
      (colourClass (s.on (CA_P_CTRL (2 * p.val + b2n read)) CA_P_CTRL_GUAR) green).2⟩ :: s.reqs) ∧
    (read = false → (s.subsUp = true → t.rdBytes hpa data.length = data) ∧ ∀ a, a < hpa ∨ hpa + data.length ≤ a → t.rdByte a = s.rdByte a) ∧
    (read = true → s.memSame t ∧ (t.evAt p.val).outbox = .completion (s.rdBytes hpa len) (!s.memGood hpa len) :: (s.evAt p.val).outbox) := by
  obtain ⟨_, hdiv, hmod⟩ := polNumber p read
  cases read with
  | false =>
    have hz : (2 * p.val + b2n false) % 2 = 0 := hmod
    refine ⟨fun hw => ?_, fun _ => l.write hz, fun h => nomatch h⟩
    have hreq := l.reqs hw
    rw [hz] at hreq
    exact hreq
  | true =>
    have hz : (2 * p.val + b2n true) % 2 = 1 := hmod
    refine ⟨fun hw => ?_, (fun h => nomatch h), fun _ => ?_⟩
    · have hreq := l.reqs hw
      rw [hz] at hreq
      exact hreq
    · have hread := l.read hz
      rw [hdiv] at hread
      exact hread

/-- The registers that a policer writes for a packet that passes. -/
def polWords (k : Nat) : List Nat := [CA_P_GCNT k, CA_P_YCNT k, CA_P_TC k, CA_P_TP k]

theorem polWords_low {k : Nat} (hk : k < 8) : (∀ a ∈ polWords k, a < 0x900000) ∧ CA_P_CTRL k ∉ polWords k := by
  constructor
  · simp only [polWords, List.forall_mem_cons, List.not_mem_nil, false_imp_iff, implies_true, and_true]
    unfold CA_P_GCNT CA_P_YCNT CA_P_TC CA_P_TP
    omega
  · simp [polWords, CA_P_CTRL, CA_P_GCNT, CA_P_YCNT, CA_P_TC, CA_P_TP]

theorem polRelease_words {k : Nat} (hk : k < 8) (pkt : Packet) (green : Bool) : s.lets (s.polRelease k pkt green) k pkt green (polWords k) :=
  { polRelease_lets hk with
    regs := fun a hl ha => (polRelease_lets hk).regs a hl fun hc => ha (by
      rw [List.mem_singleton.1 hc]
      cases green <;> simp [colourCount, polWords]) }

/-- A packet that passes leaves the policer empty. -/
theorem polKeeps_lets {k : Nat} {pkt : Packet} {green : Bool} (l : s.lets t k pkt green but) :
    s.lets (t.polKeeps k []) k pkt green but ∧ ((t.polKeeps k []).polAt k).held = [] :=
  ⟨l.after (polKeeps_pols []), congrArg Policer.held (polKeeps_polAt [])⟩

/-- A disabled policer lets a packet pass. -/
theorem polArrive_off {k : Nat} (hk : k < 8) (h : (s.polAt k).held = []) (hen : s.on (CA_P_CTRL k) CA_P_CTRL_EN = false) (pkt : Packet) :
    s.lets (s.polArrive k pkt) k pkt false (polWords k) ∧ ((s.polArrive k pkt).polAt k).held = [] := by
  rw [polArrive_first h, polDrain_passes (polColour_off hen ..)]
  exact polKeeps_lets (polRelease_words hk pkt false)

/-- A policer with tokens lets a packet pass green and takes them. -/
theorem polArrive_green {k : Nat} (hk : k < 8) (h : (s.polAt k).held = []) (hen : s.on (CA_P_CTRL k) CA_P_CTRL_EN = true) {pkt : Packet}
    (hpre : s.preColour k pkt.tc = 0) (hc : s.packetL k pkt * micro ≤ (s.polRefill k s.dtime).1)
    (hp : s.packetL k pkt * micro ≤ (s.polRefill k s.dtime).2) :
    s.lets (s.polArrive k pkt) k pkt true (polWords k) ∧ ((s.polArrive k pkt).polAt k).held = [] ∧
    ((s.polArrive k pkt).polAt k).tc = (s.polRefill k s.dtime).1 - s.packetL k pkt * micro ∧
    ((s.polArrive k pkt).polAt k).tp = (s.polRefill k s.dtime).2 - s.packetL k pkt * micro ∧ ((s.polArrive k pkt).polAt k).t = s.dtime := by
  rw [polArrive_first h, polDrain_passes (polColour_green hen hpre hc hp)]
  generalize (s.polRefill k s.dtime).1 - s.packetL k pkt * micro = tc
  generalize (s.polRefill k s.dtime).2 - s.packetL k pkt * micro = tp
  have hb := polBuckets_pols (s := s) (k := k) tc tp s.dtime
  have hpol := polBuckets_polAt (s := s) (k := k) tc tp s.dtime
  generalize s.polBuckets k tc tp s.dtime = v at hb hpol ⊢
  obtain ⟨g, y, hrel⟩ := polRelease_polAt (s := v) k pkt true
  have hlets : s.lets (v.polRelease k pkt true) k pkt true (polWords k) :=
    (polRelease_words hk pkt true).before (hb.mono (by simp [polWords])) (polWords_low hk).1 (polWords_low hk).2
  obtain ⟨hl, hheld⟩ := polKeeps_lets hlets
  refine ⟨hl, hheld, ?_⟩
  rw [polKeeps_polAt, hrel, hpol]
  exact ⟨rfl, rfl, rfl⟩

/-- A policer without tokens holds the packet. -/
theorem polArrive_red {k : Nat} (hk : k < 8) (h : (s.polAt k).held = []) (hen : s.on (CA_P_CTRL k) CA_P_CTRL_EN = true) {pkt : Packet}
    (hp : (s.polRefill k s.dtime).2 < s.packetL k pkt * micro) :
    ((s.polArrive k pkt).polAt k).held = [pkt] ∧ (s.polArrive k pkt).get (CA_P_STAT k) CA_P_STAT_HOLDING = 1 ∧
    (s.polArrive k pkt).get (CA_P_STAT k) CA_P_STAT_HELD = 1 ∧
    (s.rdN (CA_P_RCNT k) + 1 < 2 ^ 32 → (s.polArrive k pkt).rdN (CA_P_RCNT k) = s.rdN (CA_P_RCNT k) + 1) ∧
    s.quiet (s.polArrive k pkt) [CA_P_STAT k, CA_P_RCNT k, CA_P_TC k, CA_P_TP k] := by
  have hport : k / 2 ∈ allPorts := by simp only [allPorts, List.mem_cons, List.not_mem_nil, or_false]; omega
  obtain ⟨u, he, h1, h2, h3, hq⟩ := polColour_red hport hen hp
  rw [polArrive_first h, polDrain_holds he]
  have hk : u.pols (u.polKeeps k [pkt]) [] := polKeeps_pols _
  refine ⟨congrArg Policer.held (polKeeps_polAt _), (hk.get List.not_mem_nil _).trans h1, (hk.get List.not_mem_nil _).trans h2, fun hlt => ?_,
    hq.next hk.quiet (by simp)⟩
  rw [← h3 hlt, rdN_eq_get, rdN_eq_get]
  exact hk.get List.not_mem_nil _

/-- The release time as time passes: that of a policer that is off is the present. -/
theorem polReleaseAt_tick (k now : Nat) : (s.tick now).polReleaseAt k = s.polReleaseAt k ∨
    (s.polReleaseAt k = some s.dtime ∧ (s.tick now).polReleaseAt k = some (s.tick now).dtime) := by
  have hpol : (s.tick now).polAt k = s.polAt k := rfl
  have hon : (s.tick now).on (CA_P_CTRL k) CA_P_CTRL_EN = s.on (CA_P_CTRL k) CA_P_CTRL_EN := rfl
  unfold State.polReleaseAt
  dsimp only
  rw [hpol, hon]
  split
  · exact .inl rfl
  · cases s.on (CA_P_CTRL k) CA_P_CTRL_EN
    · exact .inr ⟨rfl, rfl⟩
    · exact .inl rfl

theorem dtime_tick (s : State) (now : Nat) : s.dtime ≤ (s.tick now).dtime := Nat.le_max_left ..

theorem queueRequest_runs {q : Fin 256} {req : QReq} {now : Nat} (hq : 8 ≤ q.val) (hi : s.islUp islCarousel = true) :
    exec (.queueRequest now q req) s = .next ((s.tick now).qEnter q.val ⟨req, none⟩) := by
  have hi' : (s.tick now).islUp islCarousel = true := hi
  refine congrArg Host.Outcome.next (if_pos ?_)
  rw [hi', decide_eq_true hq]
  rfl

theorem wheel_stores (l : List Nat) : s.carries ⟨false, false⟩ (l.foldl State.qDue s) := by simp

/-- A lone request without a read goes without touching anything but its queue. -/
theorem qDue_lone {q e : Nat} {w : QWait} (hq : q < 256) (helig : (s.shqAt q).elig = some e) (he : e ≤ s.dtime) (hreqs : (s.shqAt q).reqs = [w])
    (hw : w.read = none) (hen : s.on (CA_Q_CTRL q) CA_Q_CTRL_EN = true) (hr : s.qRate q ≠ 0) (hd : s.qDebt q e ≤ s.qBurst q) :
    s.quiet (s.qDue q) [CA_Q_STAT q, CA_Q_CNT q] := by
  have hkeep := sameQueue_of (qPark_traffic (s := s) (q := q) none).regs (oneQueueWords_settings hq)
  have hdebt : (s.qPark q none).qDebt q e = s.qDebt q e := by
    unfold State.qDebt
    rw [qPark_shqAt, hkeep.rate]
  rw [qDue_on helig he, hreqs]
  refine ((qPark_quiet none).mono (by simp)).trans (qServe_lone_quiet hw ((hkeep.on _).trans hen) (by rw [hkeep.rate]; exact hr) ?_)
  rw [hdebt, hkeep.lim]
  exact hd

/-- After a release nothing waits that could go on. -/
theorem quiet_after_release (hb : s.bells = []) (hr : s.hostReads = []) : s.bellsRun.readsRun = s := by
  have hbells : s.bellsRun = s := by
    unfold State.bellsRun
    rw [hb]
    show { s with bells := [] } = s
    rw [← hb]
  rw [hbells]
  unfold State.readsRun
  extract_lets waits due
  have hdue : due = [] := by unfold due; rw [hr]; rfl
  rw [hdue, hr]
  show { s with hostReads := [] } = s
  rw [← hr]

end

/-- Settles O21: `polArrive_off`, `polArrive_green`, `polArrive_red` and `polArrive_behind` for a packet, `polUnhold_lone` for a release,
`qEnter_green` and `qEnter_debt` for a request, `wheel_serves` for the wheel, and `qRateWrite_empty` for a rate. -/
theorem carouselCompletes : Obligations.CarouselCompletes := by
  unfold Obligations.CarouselCompletes
  intro s now
  refine ⟨fun p read offset len tc data hpa hb hl hm hd hi => ?_, fun k pkt tr hheld htr hdue hbells hreads hi => ?_,
    fun q req hq hi => ⟨fun h => ?_, fun h hen hr hdebt => ?_, fun h hen hr hdebt hx => ?_⟩,
    fun q e w helig he hreqs hen hr hdebt => ?_, fun q src value u w hadm hreqs => ?_⟩
  · have hrun := policerPacket_runs (now := now) (read := read) (len := len) (tc := tc) (data := data) hb hl hm hd hi
    obtain ⟨hk, _, _⟩ := polNumber p read
    refine ⟨fun h hen => ?_, fun h hen hpre hc hp => ?_, fun h hen hp => ?_, fun h hdue => ?_⟩
    · obtain ⟨l, hempty⟩ := polArrive_off (s := s.tick now) hk h hen (bar2Packet read len tc data hpa)
      rw [polFreed_first (s := s.tick now) h] at hrun
      obtain ⟨hreq, hwrite, hread⟩ := l.told
      exact ⟨_, hrun, hempty, hreq, hwrite, hread, l.store, l.regs⟩
    · obtain ⟨l, hempty, htc, htp, ht⟩ := polArrive_green (s := s.tick now) hk h hen (pkt := bar2Packet read len tc data hpa) hpre hc hp
      rw [polFreed_first (s := s.tick now) h] at hrun
      obtain ⟨hreq, hwrite, hread⟩ := l.told
      exact ⟨_, hrun, ⟨hempty, hreq, hwrite, hread, l.store, l.regs⟩, htc, htp, ht⟩
    · obtain ⟨hheld, hholding, hstat, hcount, hquiet⟩ := polArrive_red (s := s.tick now) hk h hen (pkt := bar2Packet read len tc data hpa) hp
      rw [polFreed_first (s := s.tick now) h] at hrun
      exact ⟨_, hrun, hheld, hholding, hstat, hcount, hquiet⟩
    · have hdue' : ∀ tr, (s.tick now).polReleaseAt (2 * p.val + b2n read) = some tr → (s.tick now).dtime < tr := fun tr htr => by
        rcases polReleaseAt_tick (s := s) (2 * p.val + b2n read) now with hsame | ⟨hoff, _⟩
        · exact hdue tr (hsame ▸ htr)
        · exact absurd (hdue _ hoff) (by have := dtime_tick s now; omega)
      have he := polArrive_behind (s := s.tick now) h hdue' (bar2Packet read len tc data hpa)
      rw [hrun, he]
      refine congrArg Host.Outcome.next (if_neg fun hc => ?_)
      rw [polKeeps_polAt] at hc
      have hlen : (((s.tick now).polAt (2 * p.val + b2n read)).held ++ [bar2Packet read len tc data hpa]).length =
        ((s.tick now).polAt (2 * p.val + b2n read)).held.length + 1 := by simp
      exact absurd hc.2 (by rw [hlen]; omega)
  · have hport : k.val / 2 ∈ allPorts := by simp only [allPorts, List.mem_cons, List.not_mem_nil, or_false]; omega
    obtain ⟨tr', htr', hdue'⟩ : ∃ tr', (s.tick now).polReleaseAt k.val = some tr' ∧ tr' ≤ (s.tick now).dtime := by
      rcases polReleaseAt_tick (s := s) k.val now with hsame | ⟨_, hoff⟩
      · exact ⟨tr, hsame.trans htr, hdue⟩
      · exact ⟨_, hoff, Nat.le_refl _⟩
    obtain ⟨hempty, hholding, u, l, hev⟩ := polUnhold_lone (s := s.tick now) k.isLt hheld tr'
    have hgo : exec (.redPacketRelease now k) s = .next ((s.tick now).polUnhold k.val tr') := by
      have hb : ((s.tick now).polUnhold k.val tr').bells = [] := by rw [hev.1]; exact l.waiting.1.trans hbells
      have hr : ((s.tick now).polUnhold k.val tr').hostReads = [] := by rw [hev.1]; exact l.waiting.2.trans hreads
      show execRedPacketRelease now k s = _
      unfold execRedPacketRelease
      rw [polDue_lone (s := s.tick now) hi hheld htr' hdue', quiet_after_release hb hr]
    generalize (s.tick now).polUnhold k.val tr' = t at hempty hholding hev hgo
    have hq := (quiet_refl u []).events hev
    refine ⟨t, hgo, hempty, hholding, fun he => ?_, fun ho => ?_, ?_, fun a hl ha => (hq.2.2 a hl List.not_mem_nil).trans (l.regs a hl ha)⟩
    · obtain ⟨hin, hout⟩ := l.write he
      exact ⟨fun hs => (rdBytes_congr hq.1 ..).trans (hin hs), fun a ha => (hq.1 a).trans (hout a ha)⟩
    · exact fun a => (hq.1 a).trans ((l.read ho).1 a)
    · exact ⟨hq.2.1.1.trans l.store.1, hq.2.1.2.1.trans l.store.2.1, hq.2.1.2.2.trans l.store.2.2⟩
  · rw [queueRequest_runs hq hi, qEnter_behind (s := s.tick now) h]
    rfl
  · obtain ⟨hshq, hquiet⟩ := qEnter_green (s := s.tick now) (req := req) h hi hen hr hdebt
    refine ⟨_, queueRequest_runs hq hi, ?_⟩
    rw [hshq]
    exact ⟨rfl, rfl, rfl, rfl, hquiet⟩
  · obtain ⟨hshq, hquiet⟩ := qEnter_debt (s := s.tick now) (req := req) h hi hen hr hdebt hx
    refine ⟨_, queueRequest_runs hq hi, ?_⟩
    rw [hshq]
    exact ⟨rfl, rfl, rfl, hquiet⟩
  · have hgo : exec (.queueEligible now q) s = .next (((s.tick now).wheelOrder q.val e).foldl State.qDue (s.tick now)) := by
      have helig' : ((s.tick now).shqAt q.val).elig = some e := helig
      show execQueueEligible now q s = _
      unfold execQueueEligible
      dsimp only
      rw [helig']
      exact congrArg Host.Outcome.next (if_pos he)
    have hserved := wheel_serves (s := s.tick now) q.isLt helig he hreqs hen hr hdebt
    have hc := wheel_stores (s := s.tick now) ((s.tick now).wheelOrder q.val e)
    refine ⟨_, hgo, ?_⟩
    rw [hserved.shq]
    refine ⟨rfl, rfl, rfl, rfl, rfl, hc.memSame, hc.storeSame, hserved.sent, fun hw hone => ?_⟩
    rw [hone]
    exact (qDue_lone (s := s.tick now) q.isLt helig he hreqs hw hen hr hdebt)
  · exact ⟨_, congrArg Host.Outcome.next (guarded_fst_of_admits hadm fun s w => s.qRateWrite q.val w), qRateWrite_empty q.isLt hreqs w⟩

end Sys2Proof.Machine
end

section

namespace Sys2Proof.Machine

/-! ## A port reset (R304, R458) -/

section

variable {s t u : State} {p : Nat}

theorem lostCounter_port {a o : Nat} (ha : a = 0xA00000 + p * 0x10000 + o) (ho : o < 0x10000) (hne : o ≠ 0x61C) : lostCounter a = false := by
  refine lostCounter_eq_false fun q _ => ?_
  unfold HP_EV_STAT
  omega

/-! ### Its parts -/

/-- What a port reset counts. -/
def State.portCounted (s : State) (p cause : Nat) : State :=
  (((s.bumpMod (HP_EPOCH p) HP_EPOCH_EPOCH 1).put (HP_RST_STAT p) (rstBit cause) 1).bump (HP_RST_CNT p) HP_RST_CNT_COUNT 1)

/-- A link-down takes the data link down. -/
def State.portDown (s : State) (p cause : Nat) : State :=
  if cause ≠ 1 then s else ((s.put (HP_LINK p) HP_LINK_UP 0).put (HP_LINK p) HP_LINK_SPEED 0).put (HP_LINK p) HP_LINK_WIDTH 0

/-- The rings of a port are disabled. -/
def State.ringsDrop (s : State) (p : Nat) : State := (List.range 8).foldl (fun s r => s.ringDrop p r) s

/-- The reset noted in the port's record. -/
def State.portNoted (s : State) (p : Nat) : State := s.setPortAt p { s.portAt p with rstAt := some s.dtime }

theorem postHostLink_only (hp : p ∈ allPorts) (state cause speed width : Nat) : s.onlyEvents (s.postHostLink p state cause speed width) :=
  postOwn_only _ _ hp ..

/-- The control words of a port's rings. -/
def ringCtrls (p : Nat) : List Nat := (List.range 8).map (HP_CR_CTRL p)

theorem ringsDrop_quiet : s.quiet (s.ringsDrop p) (ringCtrls p) :=
  quiet_foldl (fun s r hr => (quiet_refl s _).put _ _ (List.mem_map.2 ⟨r, hr, rfl⟩)) s

theorem ringsDrop_off {r : Nat} (hr : r < 8) : (s.ringsDrop p).get (HP_CR_CTRL p r) HP_CR_CTRL_EN = 0 := by
  refine foldl_visits (P := fun _ => True) (Q := fun y : State => y.get (HP_CR_CTRL p r) HP_CR_CTRL_EN = 0) (c := r) (fun _ _ _ _ => trivial)
    (fun y _ => get_put_same _ _ _ _ (by decide)) (fun y d hy => ?_) (List.mem_range.2 hr) trivial
  by_cases hd : r = d
  · exact hd ▸ get_put_same _ _ _ _ (by decide)
  · exact (get_put_ne _ _ _ _ (by unfold HP_CR_CTRL; omega)).trans hy

theorem bar2Latch_quiet : s.quiet (s.bar2Latch p) [] := by
  have hword (u : State) (a : Nat) : u.quiet (u.wrUse a (u.rd a)) [] := quiet_of_same rfl rfl rfl rfl rfl rfl
  exact quiet_foldl (fun u a _ => hword u a) s

theorem cfgDefaults_quiet : s.quiet (s.cfgDefaults p) [HP_LINK p, HP_BAR2_SIZE p] := by
  unfold State.cfgDefaults
  extract_lets q a b c
  have ha : s.quiet a [HP_LINK p, HP_BAR2_SIZE p] := quiet_of_same rfl rfl rfl rfl rfl rfl
  exact (((ha.put _ _ (by simp)).put _ _ (by simp)).put _ _ (by simp)).put _ _ (by simp)

/-- Configuration space at its defaults: no Bus Master Enable and no memory space, with the link as it was. -/
theorem cfgDefaults_spec : (s.cfgDefaults p).get (HP_LINK p) HP_LINK_BME = 0 ∧
    (s.cfgDefaults p).get (HP_LINK p) HP_LINK_UP = s.get (HP_LINK p) HP_LINK_UP ∧ ((s.cfgDefaults p).portAt p).mse = false := by
  have hsize : HP_LINK p ≠ HP_BAR2_SIZE p := by unfold HP_LINK HP_BAR2_SIZE; omega
  unfold State.cfgDefaults
  extract_lets q a b c
  have hlink : ∀ f, (c.put (HP_BAR2_SIZE p) HP_BAR2_SIZE_HOSTLOG2 (c.getUse (HP_BAR2_SIZE p) HP_BAR2_SIZE_LOG2)).get (HP_LINK p) f =
      c.get (HP_LINK p) f := fun f => get_put_ne _ _ _ _ hsize
  have hc : ∀ f : Fld, f.lo + f.w ≤ HP_LINK_D3.lo → c.get (HP_LINK p) f = b.get (HP_LINK p) f := fun f hf => get_put_apart _ _ _ _ _ (by decide) (.inl hf)
  refine ⟨?_, ?_, ?_⟩
  · rw [hlink, hc _ (by decide)]
    exact (get_put_apart _ _ _ _ _ (by decide) (by decide)).trans (get_put_same _ _ _ _ (by decide))
  · rw [hlink, hc _ (by decide)]
    exact (get_put_apart _ _ _ _ _ (by decide) (by decide)).trans (get_put_apart _ _ _ _ _ (by decide) (by decide))
  · have hports : (c.put (HP_BAR2_SIZE p) HP_BAR2_SIZE_HOSTLOG2 (c.getUse (HP_BAR2_SIZE p) HP_BAR2_SIZE_LOG2)).ports = a.ports :=
      (put_ports ..).trans ((put_ports ..).trans ((put_ports ..).trans (put_ports ..)))
    unfold State.portAt
    rw [hports]
    exact congrArg Port.mse ((portAt_setPortAt s p p _).trans (if_pos rfl))

/-- The words of a port's MSI-X table and pending bits. -/
def msixWords (p : Nat) : List Nat :=
  ((List.range 64).flatMap fun v => [MSIX_ADDR_LO p v, MSIX_ADDR_HI p v, MSIX_DATA p v, MSIX_CTRL p v]) ++ [MSIX_PBA p 0, MSIX_PBA p 1]

theorem msixWords_high {a : Nat} (h : a ∈ msixWords p) : 0xF00000 ≤ a := by
  rcases List.mem_append.1 h with h | h
  · obtain ⟨v, _, hv⟩ := List.mem_flatMap.1 h
    simp only [List.mem_cons, List.not_mem_nil, or_false, MSIX_ADDR_LO, MSIX_ADDR_HI, MSIX_DATA, MSIX_CTRL] at hv
    omega
  · simp only [List.mem_cons, List.not_mem_nil, or_false, MSIX_PBA] at h
    omega

theorem msixDefaults_quiet : s.quiet (s.msixDefaults p) (msixWords p) := by
  have hv : ∀ v ∈ List.range 64, ∀ a ∈ [MSIX_ADDR_LO p v, MSIX_ADDR_HI p v, MSIX_DATA p v, MSIX_CTRL p v], a ∈ msixWords p := fun v hv a ha =>
    List.mem_append_left _ (List.mem_flatMap.2 ⟨v, hv, ha⟩)
  have hpba : ∀ a ∈ [MSIX_PBA p 0, MSIX_PBA p 1], a ∈ msixWords p := fun a ha => List.mem_append_right _ ha
  unfold State.msixDefaults
  extract_lets u
  have hu : s.quiet u (msixWords p) := quiet_foldl (fun s v hr =>
    ((((quiet_refl s _).wrN _ (hv v hr _ (by simp))).wrN _ (hv v hr _ (by simp))).wrN _ (hv v hr _ (by simp))).put _ _ (hv v hr _ (by simp))) s
  clear_value u
  exact (hu.wrN _ (hpba _ (by simp))).wrN _ (hpba _ (by simp))

theorem msixDefaults_ports : (s.msixDefaults p).ports = s.ports := by
  unfold State.msixDefaults
  extract_lets u
  have hu : u.ports = s.ports := foldl_same State.ports (fun s v => (put_ports ..).trans ((wrN_ports ..).trans ((wrN_ports ..).trans (wrN_ports ..)))) _ s
  clear_value u
  exact (wrN_ports ..).trans ((wrN_ports ..).trans hu)

/-! ### The whole -/

/-- The last part of a port reset: the MSI-X table, the reads under way, the time, and the policer of reads. -/
def State.portClear (s : State) (p : Nat) : State := (((s.msixDefaults p).portDrop p).portNoted p).polPortReset p

theorem polPortReset_quiet : s.quiet (s.polPortReset p) [CA_P_STAT (2 * p + 1)] := by
  unfold State.polPortReset
  extract_lets k
  have hpol (v : Policer) : s.quiet (s.setPolAt k v) [CA_P_STAT k] := quiet_of_same rfl rfl rfl rfl rfl rfl
  exact (hpol _).put _ _ List.mem_cons_self

theorem setPolAt_ports (k : Nat) (v : Policer) : (s.setPolAt k v).ports = s.ports := rfl

theorem portDrop_quiet : s.quiet (s.portDrop p) [] := by
  unfold State.portDrop State.dropFlying
  exact quiet_of_same rfl rfl rfl rfl rfl rfl

theorem portNoted_quiet : s.quiet (s.portNoted p) [] := by
  unfold State.portNoted
  exact quiet_of_same rfl rfl rfl rfl rfl rfl

theorem portClear_quiet : s.quiet (s.portClear p) (CA_P_STAT (2 * p + 1) :: msixWords p) := by
  unfold State.portClear
  have hmsix := msixDefaults_quiet (s := s) (p := p)
  generalize s.msixDefaults p = f at hmsix ⊢
  have hdropped : f.quiet ((f.portDrop p).portNoted p) [] := portDrop_quiet.trans portNoted_quiet
  generalize (f.portDrop p).portNoted p = g at hdropped ⊢
  exact ((hmsix.mono fun a ha => List.mem_cons_of_mem _ ha).next hdropped (by simp)).next polPortReset_quiet (by simp)

theorem portAt_congr (h : t.ports = s.ports) (q : Nat) : t.portAt q = s.portAt q := by
  unfold State.portAt
  rw [h]

theorem portDrop_ports : (s.portDrop p).ports = s.ports := by
  unfold State.portDrop State.dropFlying
  rfl

theorem portNoted_mse : ((s.portNoted p).portAt p).mse = (s.portAt p).mse := by
  unfold State.portNoted
  rw [portAt_setPortAt, if_pos rfl]

theorem polPortReset_ports : (s.polPortReset p).ports = s.ports := by
  unfold State.polPortReset
  extract_lets k
  rw [put_ports, setPolAt_ports]

theorem portClear_mse : ((s.portClear p).portAt p).mse = (s.portAt p).mse := by
  unfold State.portClear
  rw [portAt_congr polPortReset_ports, portNoted_mse, portAt_congr portDrop_ports, portAt_congr msixDefaults_ports]

/-- A register of the port's block stands while the rest is cleared. -/
theorem portClear_get {a : Nat} (h : 0xA00000 ≤ a ∧ a < 0xF00000) (hp : p < 4) (hl : lostCounter a = false) (f : Fld) :
    (s.portClear p).get a f = s.get a f := by
  refine portClear_quiet.get hl (fun hc => ?_) f
  rcases List.mem_cons.1 hc with hc | hc
  · unfold CA_P_STAT at hc
    omega
  · exact absurd (msixWords_high hc) (by omega)

/-- The words that a port reset writes after its counts. -/
def resetTail (p : Nat) : List Nat := ringCtrls p ++ HP_EV_CTRL p :: HP_LINK p :: HP_BAR2_SIZE p :: CA_P_STAT (2 * p + 1) :: msixWords p

/-- The rings and the event ring of a port are disabled. -/
def State.portRings (s : State) (p cause : Nat) : State :=
  ((((s.postHostLink p 0 cause 0 0).ringsDrop p).put (HP_EV_CTRL p) HP_EV_CTRL_EN 0).bar2Latch p)

/-- What follows once the link is as the reset leaves it. -/
def State.portTail (s : State) (p cause : Nat) : State := ((s.portRings p cause).cfgDefaults p).portClear p

theorem portReset_tail (cause : Nat) : s.portReset p cause = ((s.portCounted p cause).portDown p cause).portTail p cause := rfl

theorem lostCounter_hpLink : lostCounter (HP_LINK p) = false := lostCounter_port (o := 0) rfl (by decide) (by decide)

theorem lostCounter_evCtrl : lostCounter (HP_EV_CTRL p) = false :=
  lostCounter_port (p := p) (o := 0x600) (by unfold HP_EV_CTRL; omega) (by decide) (by decide)

theorem lostCounter_ringCtrl {r : Nat} (hr : r < 8) : lostCounter (HP_CR_CTRL p r) = false :=
  lostCounter_port (p := p) (o := 0x500 + r * 0x20) (by unfold HP_CR_CTRL; omega) (by omega) (by omega)

theorem portRings_spec (hp : p ∈ allPorts) (cause : Nat) : s.quiet (s.portRings p cause) (HP_EV_CTRL p :: ringCtrls p) ∧
    (s.portRings p cause).get (HP_EV_CTRL p) HP_EV_CTRL_EN = 0 ∧
    (∀ r, r < 8 → (s.portRings p cause).get (HP_CR_CTRL p r) HP_CR_CTRL_EN = 0) := by
  unfold State.portRings
  have hpost := postHostLink_only (s := s) hp 0 cause 0 0
  generalize s.postHostLink p 0 cause 0 0 = a at hpost ⊢
  have hdrop := ringsDrop_quiet (s := a) (p := p)
  have hoff : ∀ r, r < 8 → (a.ringsDrop p).get (HP_CR_CTRL p r) HP_CR_CTRL_EN = 0 := fun r hr => ringsDrop_off hr
  generalize a.ringsDrop p = b at hdrop hoff ⊢
  have hev := quiet_put b (HP_EV_CTRL p) HP_EV_CTRL_EN 0
  have hevoff : (b.put (HP_EV_CTRL p) HP_EV_CTRL_EN 0).get (HP_EV_CTRL p) HP_EV_CTRL_EN = 0 := get_put_same _ _ _ _ (by decide)
  generalize b.put (HP_EV_CTRL p) HP_EV_CTRL_EN 0 = c at hev hevoff ⊢
  have hlatch := bar2Latch_quiet (s := c) (p := p)
  generalize c.bar2Latch p = d at hlatch ⊢
  refine ⟨?_, ?_, fun r hr => ?_⟩
  · exact ((((quiet_refl s _).events hpost).next hdrop fun a ha => List.mem_cons_of_mem _ ha).next hev (by simp)).next hlatch (by simp)
  · rw [hlatch.get lostCounter_evCtrl List.not_mem_nil, hevoff]
  · have hne : HP_CR_CTRL p r ≠ HP_EV_CTRL p := by unfold HP_CR_CTRL HP_EV_CTRL; omega
    rw [hlatch.get (lostCounter_ringCtrl hr) List.not_mem_nil, hev.get (lostCounter_ringCtrl hr) (by simpa using hne), hoff r hr]

theorem link_not_ring : HP_LINK p ∉ HP_EV_CTRL p :: ringCtrls p := by
  intro hc
  rcases List.mem_cons.1 hc with hc | hc
  · unfold HP_LINK HP_EV_CTRL at hc
    omega
  · obtain ⟨r, _, hr⟩ := List.mem_map.1 hc
    unfold HP_LINK HP_CR_CTRL at hr
    omega

theorem ring_not_cfg {r : Nat} (hr : r < 8) : HP_CR_CTRL p r ∉ [HP_LINK p, HP_BAR2_SIZE p] ∧ HP_EV_CTRL p ∉ [HP_LINK p, HP_BAR2_SIZE p] := by
  simp only [List.mem_cons, List.not_mem_nil, or_false, HP_CR_CTRL, HP_EV_CTRL, HP_LINK, HP_BAR2_SIZE]
  omega

theorem portTail_spec (hp : p ∈ allPorts) (cause : Nat) : s.quiet (s.portTail p cause) (resetTail p) ∧
    (s.portTail p cause).get (HP_LINK p) HP_LINK_UP = s.get (HP_LINK p) HP_LINK_UP ∧ (s.portTail p cause).get (HP_LINK p) HP_LINK_BME = 0 ∧
    (s.portTail p cause).get (HP_EV_CTRL p) HP_EV_CTRL_EN = 0 ∧ (∀ r, r < 8 → (s.portTail p cause).get (HP_CR_CTRL p r) HP_CR_CTRL_EN = 0) ∧
    ((s.portTail p cause).portAt p).mse = false := by
  have hp4 : p < 4 := by simp only [allPorts, List.mem_cons, List.not_mem_nil, or_false] at hp; omega
  have hrange : ∀ o, o < 0x10000 → 0xA00000 ≤ 0xA00000 + p * 0x10000 + o ∧ 0xA00000 + p * 0x10000 + o < 0xF00000 := fun o ho => by omega
  unfold State.portTail
  obtain ⟨hrings, hevoff, hoff⟩ := portRings_spec (s := s) hp cause
  generalize s.portRings p cause = a at hrings hevoff hoff ⊢
  have hcfg := cfgDefaults_quiet (s := a) (p := p)
  obtain ⟨hbme, hup, hmse⟩ := cfgDefaults_spec (s := a) (p := p)
  generalize a.cfgDefaults p = b at hcfg hbme hup hmse ⊢
  have hclear := portClear_quiet (s := b) (p := p)
  have hlink : ∀ f, (b.portClear p).get (HP_LINK p) f = b.get (HP_LINK p) f := portClear_get (by unfold HP_LINK; omega) hp4 lostCounter_hpLink
  have hev := portClear_get (s := b) (p := p) (a := HP_EV_CTRL p) (by unfold HP_EV_CTRL; omega) hp4 lostCounter_evCtrl HP_EV_CTRL_EN
  have hring : ∀ r, r < 8 → (b.portClear p).get (HP_CR_CTRL p r) HP_CR_CTRL_EN = b.get (HP_CR_CTRL p r) HP_CR_CTRL_EN := fun r hr =>
    portClear_get (by unfold HP_CR_CTRL; omega) hp4 (lostCounter_ringCtrl hr) _
  have hport := portClear_mse (s := b) (p := p)
  generalize b.portClear p = c at hclear hlink hev hring hport ⊢
  refine ⟨?_, ?_, ?_, ?_, fun r hr => ?_, hport.trans hmse⟩
  · have h1 : s.quiet a (resetTail p) := hrings.mono fun x hx => by
      rcases List.mem_cons.1 hx with hx | hx
      · exact List.mem_append_right _ (hx ▸ List.mem_cons_self)
      · exact List.mem_append_left _ hx
    have h2 : a.quiet b (resetTail p) := hcfg.mono fun x hx => List.mem_append_right _ (List.mem_cons_of_mem _ (by
      rcases List.mem_cons.1 hx with hx | hx
      · exact hx ▸ List.mem_cons_self
      · exact List.mem_cons_of_mem _ (List.mem_singleton.1 hx ▸ List.mem_cons_self)))
    have h3 : b.quiet c (resetTail p) := hclear.mono fun x hx =>
      List.mem_append_right _ (List.mem_cons_of_mem _ (List.mem_cons_of_mem _ (List.mem_cons_of_mem _ hx)))
    exact (h1.trans h2).trans h3
  · rw [hlink, hup, hrings.get lostCounter_hpLink link_not_ring]
  · rw [hlink, hbme]
  · rw [hev, hcfg.get lostCounter_evCtrl (ring_not_cfg (r := 0) (by decide)).2, hevoff]
  · rw [hring r hr, hcfg.get (lostCounter_ringCtrl hr) (ring_not_cfg hr).1, hoff r hr]

end

end Sys2Proof.Machine
end

section

namespace Sys2Proof.Machine

/-! ## Port resets, link-up and PERSTn_N (R304, R452, R458, R561) -/

section

variable {s t u : State} {p : Nat}

/-! ### What a reset counts -/

theorem rstBit_spec (cause : Nat) : (rstBit cause).lo + (rstBit cause).w ≤ 32 ∧ (rstBit cause).w = 1 := by
  unfold rstBit
  split_ifs <;> decide

theorem portCounted_spec (cause : Nat) : s.quiet (s.portCounted p cause) [HP_EPOCH p, HP_RST_STAT p, HP_RST_CNT p] ∧
    (s.portCounted p cause).get (HP_EPOCH p) HP_EPOCH_EPOCH = (s.get (HP_EPOCH p) HP_EPOCH_EPOCH + 1) % 65536 ∧
    (s.portCounted p cause).get (HP_RST_STAT p) (rstBit cause) = 1 ∧
    (s.rdN (HP_RST_CNT p) + 1 < 2 ^ 32 → (s.portCounted p cause).rdN (HP_RST_CNT p) = s.rdN (HP_RST_CNT p) + 1) := by
  have h1 : HP_EPOCH p ≠ HP_RST_CNT p := by unfold HP_EPOCH HP_RST_CNT; omega
  have h2 : HP_EPOCH p ≠ HP_RST_STAT p := by unfold HP_EPOCH HP_RST_STAT; omega
  have h3 : HP_RST_STAT p ≠ HP_RST_CNT p := by unfold HP_RST_STAT HP_RST_CNT; omega
  obtain ⟨hlo, hw⟩ := rstBit_spec cause
  unfold State.portCounted
  refine ⟨(((quiet_refl s _).bumpMod _ _ (by simp)).put _ _ (by simp)).bump _ _ (by simp), ?_, ?_, fun hlt => ?_⟩
  · exact (get_bump_ne _ _ _ _ h1).trans ((get_put_ne _ _ _ _ h2).trans (get_bumpMod_same _ _ _ _ (by decide)))
  · exact (get_bump_ne _ _ _ _ h3).trans ((get_put_same _ _ _ _ hlo).trans (by rw [hw]; rfl))
  · have hbase : ((s.bumpMod (HP_EPOCH p) HP_EPOCH_EPOCH 1).put (HP_RST_STAT p) (rstBit cause) 1).get (HP_RST_CNT p) HP_RST_CNT_COUNT =
        s.rdN (HP_RST_CNT p) := by
      rw [rdN_eq_get]
      exact (get_put_ne _ _ _ _ h3.symm).trans (get_bumpMod_ne _ _ _ _ h1.symm)
    rw [rdN_eq_get, ← hbase]
    exact get_bump_same _ _ _ _ (by decide) (by rw [hbase]; exact hlt)

theorem portDown_quiet (cause : Nat) : s.quiet (s.portDown p cause) [HP_LINK p] :=
  quiet_ite (quiet_refl ..) ((((quiet_refl s _).put _ _ (by simp)).put _ _ (by simp)).put _ _ (by simp))

theorem portDown_up : (s.portDown p 1).get (HP_LINK p) HP_LINK_UP = 0 := by
  unfold State.portDown
  rw [if_neg (by decide)]
  exact (get_put_apart _ _ _ _ _ (by decide) (by decide)).trans
    ((get_put_apart _ _ _ _ _ (by decide) (by decide)).trans (get_put_same _ _ _ _ (by decide)))

theorem portDown_keeps {cause : Nat} (h : cause ≠ 1) : s.portDown p cause = s := if_pos h

/-- The registers of a port's counts stand while the rest of a reset runs. -/
theorem resetTail_counts (hp : p < 4) {a : Nat} (h : a ∈ [HP_EPOCH p, HP_RST_STAT p, HP_RST_CNT p]) :
    lostCounter a = false ∧ a ∉ resetTail p ∧ a ≠ HP_LINK p := by
  have ha : a = HP_EPOCH p ∨ a = HP_RST_STAT p ∨ a = HP_RST_CNT p := by simpa using h
  unfold HP_EPOCH HP_RST_STAT HP_RST_CNT at ha
  refine ⟨lostCounter_port (p := p) (o := a - (0xA00000 + p * 0x10000)) (by omega) (by omega) (by omega), fun hc => ?_, by unfold HP_LINK; omega⟩
  rcases List.mem_append.1 hc with hc | hc
  · obtain ⟨r, hr, he⟩ := List.mem_map.1 hc
    have := List.mem_range.1 hr
    unfold HP_CR_CTRL at he
    omega
  rcases List.mem_cons.1 hc with hc | hc
  · unfold HP_EV_CTRL at hc
    omega
  rcases List.mem_cons.1 hc with hc | hc
  · unfold HP_LINK at hc
    omega
  rcases List.mem_cons.1 hc with hc | hc
  · unfold HP_BAR2_SIZE at hc
    omega
  rcases List.mem_cons.1 hc with hc | hc
  · unfold CA_P_STAT at hc
    omega
  · exact absurd (msixWords_high hc) (by omega)

/-- What every port reset leaves. -/
structure State.portWas (s t : State) (p cause : Nat) : Prop where
  bit : t.get (HP_RST_STAT p) (rstBit cause) = 1
  epoch : t.get (HP_EPOCH p) HP_EPOCH_EPOCH = (s.get (HP_EPOCH p) HP_EPOCH_EPOCH + 1) % 65536
  count : s.rdN (HP_RST_CNT p) + 1 < 2 ^ 32 → t.rdN (HP_RST_CNT p) = s.rdN (HP_RST_CNT p) + 1
  rings : ∀ r : Fin 8, t.ringOn p r.val = false
  events : t.on (HP_EV_CTRL p) HP_EV_CTRL_EN = false
  master : t.on (HP_LINK p) HP_LINK_BME = false
  mse : (t.portAt p).mse = false
  mem : s.memSame t
  store : s.storeSame t

theorem on_of_get {a : Nat} {f : Fld} {n : Nat} (h : s.get a f = n) : s.on a f = (n != 0) := congrArg (· != 0) h

theorem portReset_stores (cause : Nat) : s.memSame (s.portReset p cause) ∧ s.storeSame (s.portReset p cause) := by
  have hc : s.carries ⟨false, false⟩ (s.portReset p cause) := by simp
  exact ⟨hc.memSame, hc.storeSame⟩

theorem portReset_was (hp : p ∈ allPorts) (cause : Nat) : s.portWas (s.portReset p cause) p cause ∧
    (s.portReset p cause).linkUp p = (if cause = 1 then false else s.linkUp p) := by
  have hp4 : p < 4 := by simp only [allPorts, List.mem_cons, List.not_mem_nil, or_false] at hp; omega
  obtain ⟨hmem, hstore⟩ := portReset_stores (s := s) (p := p) cause
  obtain ⟨hquiet, hepoch, hbit, hcount⟩ := portCounted_spec (s := s) (p := p) cause
  rw [portReset_tail] at hmem hstore ⊢
  generalize s.portCounted p cause = a at hmem hstore hquiet hepoch hbit hcount ⊢
  have hdown := portDown_quiet (s := a) (p := p) cause
  have hup : (a.portDown p cause).get (HP_LINK p) HP_LINK_UP = if cause = 1 then 0 else a.get (HP_LINK p) HP_LINK_UP := by
    by_cases h : cause = 1
    · rw [if_pos h, h, portDown_up]
    · rw [if_neg h, portDown_keeps h]
  generalize a.portDown p cause = b at hmem hstore hdown hup ⊢
  obtain ⟨htail, hlink, hbme, hev, hring, hmse⟩ := portTail_spec (s := b) hp cause
  generalize b.portTail p cause = c at hmem hstore htail hlink hbme hev hring hmse ⊢
  have hkeep : ∀ r ∈ [HP_EPOCH p, HP_RST_STAT p, HP_RST_CNT p], ∀ f, c.get r f = a.get r f := fun r hr f => by
    obtain ⟨hl, hnt, hne⟩ := resetTail_counts hp4 hr
    rw [htail.get hl hnt, hdown.get hl (by simpa using hne)]
  have hlinka : a.get (HP_LINK p) HP_LINK_UP = s.get (HP_LINK p) HP_LINK_UP :=
    hquiet.get lostCounter_hpLink (by simp [HP_LINK, HP_EPOCH, HP_RST_STAT, HP_RST_CNT]) _
  refine ⟨⟨?_, ?_, fun hlt => ?_, fun r => ?_, on_of_get hev, on_of_get hbme, hmse, hmem, hstore⟩, ?_⟩
  · rw [hkeep _ (by simp), hbit]
  · rw [hkeep _ (by simp), hepoch]
  · rw [← hcount hlt, rdN_eq_get, rdN_eq_get, hkeep _ (by simp)]
  · unfold State.ringOn
    rw [on_of_get (hring r.val r.isLt)]
    rfl
  · have hon : c.linkUp p = ((if cause = 1 then 0 else a.get (HP_LINK p) HP_LINK_UP) != 0) := on_of_get (hlink.trans hup)
    rw [hon, hlinka]
    split <;> rfl

/-! ### The power pins -/

theorem ringsDrop_power : (s.ringsDrop p).power = s.power := foldl_same State.power (fun _ _ => put_power ..) _ s

theorem bar2Latch_power : (s.bar2Latch p).power = s.power := foldl_same State.power (fun _ _ => wrUse_power ..) _ s

theorem cfgDefaults_power : (s.cfgDefaults p).power = s.power := by
  unfold State.cfgDefaults
  simp -implicitDefEqProofs only [put_power, setPortAt_power]

theorem msixDefaults_power : (s.msixDefaults p).power = s.power := by
  unfold State.msixDefaults
  extract_lets u
  have hu : u.power = s.power := foldl_same State.power (fun s v => (put_power ..).trans ((wrN_power ..).trans ((wrN_power ..).trans (wrN_power ..)))) _ s
  clear_value u
  exact (wrN_power ..).trans ((wrN_power ..).trans hu)

theorem portDrop_power : (s.portDrop p).power = s.power := by
  unfold State.portDrop State.dropFlying
  rfl

theorem portClear_power : (s.portClear p).power = s.power := by
  unfold State.portClear State.polPortReset State.portNoted
  extract_lets k
  rw [put_power, setPolAt_power, setPortAt_power, portDrop_power, msixDefaults_power]

theorem portReset_power (hp : p ∈ allPorts) (cause : Nat) : (s.portReset p cause).power = s.power := by
  rw [portReset_tail]
  have ha : (s.portCounted p cause).power = s.power := (bump_power ..).trans ((put_power ..).trans (bumpMod_power ..))
  generalize s.portCounted p cause = a at ha ⊢
  have hb : (a.portDown p cause).power = a.power :=
    ite_same (π := State.power) rfl ((put_power ..).trans ((put_power ..).trans (put_power ..)))
  generalize a.portDown p cause = b at hb ⊢
  unfold State.portTail State.portRings
  rw [portClear_power, cfgDefaults_power, bar2Latch_power, put_power, ringsDrop_power, onlyEvents_power (postHostLink_only hp 0 cause 0 0), hb, ha]

theorem setBusy_power (g : Nat) (v : Bool) : (s.setBusy g v).power = s.power := by
  unfold State.setBusy
  split
  · exact put_power ..
  · rfl

theorem dropIssued_power (i : Nat) : (s.dropIssued i).power = s.power :=
  foldl_same State.power (fun _ _ => (setBusy_power ..).trans (setPostedAt_power ..)) _ s

theorem clearIsland_power (i : Nat) : (s.clearIsland i).power = s.power := by
  unfold State.clearIsland
  exact dropIssued_power i

/-- What a reset of a port's island keeps before its port reset. -/
def State.hostCut (s : State) (p : Nat) : State :=
  let s := s.clearIsland (islHost p)
  let s := (s.setPolAt (2 * p) { s.polAt (2 * p) with held := [] }).put (CA_P_STAT (2 * p)) CA_P_STAT_HOLDING 0
  { s with bells := s.bells.filter (fun b => srcCode b.src != p), vec := s.vec.filter fun x => x.1 / 64 != p }

theorem hostReset_eq : s.hostReset p = (s.hostCut p).portReset p 1 := rfl

theorem hostCut_power : (s.hostCut p).power = s.power := by
  unfold State.hostCut
  dsimp only
  rw [put_power, setPolAt_power]
  exact clearIsland_power _

theorem hostReset_spec (hp : p ∈ allPorts) : (s.hostReset p).power = s.power ∧ (s.hostReset p).linkUp p = false ∧
    (s.hostReset p).on (HP_LINK p) HP_LINK_BME = false := by
  rw [hostReset_eq]
  obtain ⟨hwas, hlink⟩ := portReset_was (s := s.hostCut p) hp 1
  exact ⟨(portReset_power hp 1).trans hostCut_power, hlink, hwas.master⟩

theorem hostReset_stores : s.memSame (s.hostReset p) ∧ s.storeSame (s.hostReset p) := by
  have hc : s.carries ⟨false, false⟩ (s.hostReset p) := by simp
  exact ⟨hc.memSame, hc.storeSame⟩

/-- The state with PERSTn_N of a port low. -/
def State.perstLow (s : State) (p : Nat) : State := { s with power := { s.power with perst := p :: s.power.perst } }

/-! ### Link-up -/

theorem hostLinkUp_spec (hp : p ∈ allPorts) {speed width : Nat} (hs : speed ≤ 5) (hw : width ∈ [1, 2, 4, 8]) :
    (s.hostLinkUp p speed width).linkUp p = true ∧
    (s.hostLinkUp p speed width).get (HP_LINK p) HP_LINK_SPEED = min speed (s.get (HP_CFG p) HP_CFG_MAXSPEED) ∧
    (s.hostLinkUp p speed width).get (HP_LINK p) HP_LINK_WIDTH = width ∧ s.quiet (s.hostLinkUp p speed width) [HP_LINK p, HP_RST_STAT p] := by
  have hne : HP_LINK p ≠ HP_RST_STAT p := by unfold HP_LINK HP_RST_STAT; omega
  unfold State.hostLinkUp
  extract_lets top sp low a b
  have ha : s.quiet a [HP_LINK p, HP_RST_STAT p] := (((quiet_refl s _).put _ _ (by simp)).put _ _ (by simp)).put _ _ (by simp)
  have hwidth : a.get (HP_LINK p) HP_LINK_WIDTH = width := by
    refine (get_put_same _ _ _ _ (by decide)).trans (Nat.mod_eq_of_lt ?_)
    simp only [List.mem_cons, List.not_mem_nil, or_false] at hw
    show width < 16
    omega
  have hspeed : a.get (HP_LINK p) HP_LINK_SPEED = sp := by
    refine (get_put_apart _ _ _ _ _ (by decide) (by decide)).trans ((get_put_same _ _ _ _ (by decide)).trans (Nat.mod_eq_of_lt ?_))
    show min speed top < 8
    omega
  have hup : a.get (HP_LINK p) HP_LINK_UP = 1 :=
    (get_put_apart _ _ _ _ _ (by decide) (by decide)).trans
      ((get_put_apart _ _ _ _ _ (by decide) (by decide)).trans (get_put_same _ _ _ _ (by decide)))
  have hab : a.quiet b [HP_LINK p, HP_RST_STAT p] := quiet_ite ((quiet_refl a _).put _ _ (by simp)) (quiet_refl ..)
  have hblink : ∀ f, b.get (HP_LINK p) f = a.get (HP_LINK p) f := fun f => by
    unfold b
    split
    · exact get_put_ne _ _ _ _ hne
    · rfl
  clear_value a b
  have hpost := postHostLink_only (s := b) hp 1 (if low = true then 4 else 0) sp width
  generalize b.postHostLink p 1 (if low = true then 4 else 0) sp width = c at hpost ⊢
  have hlink : ∀ f, c.get (HP_LINK p) f = a.get (HP_LINK p) f := fun f => (onlyEvents_get hpost f lostCounter_hpLink).trans (hblink f)
  refine ⟨on_of_get ((hlink _).trans hup), (hlink _).trans hspeed, (hlink _).trans hwidth, (ha.trans hab).events hpost⟩

end

/-- Settles O20: `portReset_was` for the port resets, `hostLinkUp_spec` for link-up, `hostReset_spec` for PERSTn_N. -/
theorem hostPortsComplete : Obligations.HostPortsComplete := by
  unfold Obligations.HostPortsComplete
  intro s now p
  have hp : p.val ∈ allPorts := by simp only [allPorts, List.mem_cons, List.not_mem_nil, or_false]; omega
  have hrun : s.portUp p.val = true → s.linkUp p.val = true → (s.portUp p.val && s.linkUp p.val) = true := fun h k => by rw [h, k]; rfl
  refine ⟨fun hport hlink => ?_, fun speed width hport hlink h1 h5 hw => ?_, fun enter hport hlink => ?_, fun hper hisl => ?_,
    fun hper hisl hup => ?_, fun hper => ?_, fun hport hlink hready req => ?_, fun hport hlink hready => ?_⟩
  · have hgo := hrun hport hlink
    obtain ⟨h1, l1⟩ := portReset_was (s := s.tick now) hp 1
    obtain ⟨h2, l2⟩ := portReset_was (s := s.tick now) hp 2
    obtain ⟨h3, l3⟩ := portReset_was (s := s.tick now) hp 3
    refine ⟨(s.tick now).portReset p.val 1, (s.tick now).portReset p.val 2, (s.tick now).portReset p.val 3,
      congrArg Host.Outcome.next (if_pos hgo), congrArg Host.Outcome.next (if_pos hgo), congrArg Host.Outcome.next (if_pos hgo),
      h1.bit, h2.bit, h3.bit, l1, l2.trans hlink, l3.trans hlink, fun t ht => ?_⟩
    have hwas : ∃ cause, (s.tick now).portWas t p.val cause := by
      rcases ht with rfl | rfl | rfl
      · exact ⟨1, h1⟩
      · exact ⟨2, h2⟩
      · exact ⟨3, h3⟩
    obtain ⟨_, hwas⟩ := hwas
    exact ⟨hwas.epoch, hwas.count, hwas.rings, hwas.events, hwas.master, hwas.mse, hwas.mem, hwas.store⟩
  · have hgo : (s.portUp p.val && !s.linkUp p.val && decide (1 ≤ speed) && decide (speed ≤ 5) && [1, 2, 4, 8].contains width) = true := by
      rw [hport, hlink, decide_eq_true h1, decide_eq_true h5, List.contains_iff_mem.2 hw]
      rfl
    exact ⟨_, congrArg Host.Outcome.next (if_pos hgo), hostLinkUp_spec (s := s.tick now) hp h5 hw⟩
  · exact congrArg Host.Outcome.next (if_pos (hrun hport hlink))
  · have hnot : (!s.power.perst.contains p.val) = true := by rw [hper]; rfl
    refine congrArg Host.Outcome.next ((if_pos hnot).trans (if_neg ?_))
    have hisl' : ((s.tick now).perstLow p.val).islandsRun = false := hisl
    show ¬ (((s.tick now).perstLow p.val).islandsRun && _) = true
    rw [hisl']
    exact Bool.false_ne_true
  · have hnot : (!s.power.perst.contains p.val) = true := by rw [hper]; rfl
    have hboth : (s.islandsRun && s.islUp (islHost p.val)) = true := by rw [hisl, hup]; rfl
    obtain ⟨hpow, hlink, hbme⟩ := hostReset_spec (s := (s.tick now).perstLow p.val) hp
    obtain ⟨hmem, hstore⟩ := hostReset_stores (s := (s.tick now).perstLow p.val) (p := p.val)
    have hgo : exec (.perstAssert now p) s = .next (((s.tick now).perstLow p.val).hostReset p.val) :=
      congrArg Host.Outcome.next ((if_pos hnot).trans (if_pos hboth))
    generalize ((s.tick now).perstLow p.val).hostReset p.val = t at hpow hlink hbme hmem hstore hgo
    exact ⟨t, hgo, congrArg Power.perst hpow, hlink, hbme, hmem, hstore⟩
  · exact congrArg Host.Outcome.next (if_pos hper)
  · exact congrArg Host.Outcome.next ((if_pos (hrun hport hlink)).trans (if_neg (by
      have : (s.tick now).on SY_BOOT_STAT SY_BOOT_STAT_READY = false := hready
      rw [this]
      exact Bool.false_ne_true)))
  · have hgo : ∀ req, exec (.configurationRequest now p req) s = .next ((s.tick now).cfgReq p.val req) := fun req =>
      congrArg Host.Outcome.next ((if_pos (hrun hport hlink)).trans (if_pos hready))
    refine ⟨hgo _, fun on => hgo _, fun a => hgo _, fun l hlow hhigh => ⟨_, hgo _, ?_⟩, _, hgo _, ?_⟩
    · have hset : (s.tick now).cfgReq p.val (.barSize l) =
          ((s.tick now).setPortAt p.val { (s.tick now).portAt p.val with barLog2 := some l }).put (HP_BAR2_SIZE p.val) HP_BAR2_SIZE_HOSTLOG2 l :=
        if_pos ⟨hlow, hhigh⟩
      rw [hset]
      refine ⟨?_, ?_⟩
      · rw [portAt_congr (put_ports ..), portAt_setPortAt, if_pos rfl]
      · have hport : s.quiet ((s.tick now).setPortAt p.val { (s.tick now).portAt p.val with barLog2 := some l }) [HP_BAR2_SIZE p.val] :=
          quiet_of_same rfl rfl rfl rfl rfl rfl
        exact hport.put _ _ (by simp)
    · have hset : (s.tick now).cfgReq p.val (.busMaster false) = (s.tick now).put (HP_LINK p.val) HP_LINK_BME 0 := rfl
      rw [hset]
      exact ⟨on_of_get (get_put_same _ _ _ _ (by decide)), quiet_put (s.tick now) ..⟩

end Sys2Proof.Machine
end

section

namespace Sys2Proof.Machine

/-! ## The surface table and the surface commands (R144 to R159) -/

section

variable {s t u : State} {i p : Nat} {but : List Nat}

/-- What the hub's own queue counts. -/
def hubWords : List Nat := [CA_Q_STAT 8, CA_Q_CNT 8]

theorem traffic_qPark {q : Nat} (e : Option Nat) : s.traffic (s.qPark q e) [CA_Q_STAT q, CA_Q_CNT q] :=
  (traffic_setShqAt ..).trans (traffic_put (by simp) _ _)

theorem qRelease_plain_traffic {q time : Nat} {green : Bool} {w : QWait} {rest : List QWait} (hw : w.read = none) :
    s.traffic (s.qRelease q time green w rest) [CA_Q_STAT q, CA_Q_CNT q] := by
  unfold State.qRelease
  extract_lets h n d a b c
  rw [hw]
  exact ((traffic_setShqAt ..).trans (traffic_put (by simp) _ _)).trans (traffic_bump (by simp) _ _)

/-- A request of the hub's own touches nothing but its queue. -/
theorem qEnter_plain {q : Nat} {w : QWait} (hw : w.read = none) : s.traffic (s.qEnter q w) [CA_Q_STAT q, CA_Q_CNT q] := by
  have hserve (v : State) : v.traffic (v.qServe q v.dtime [w]) [CA_Q_STAT q, CA_Q_CNT q] := by
    unfold State.qServe
    refine traffic_ite (traffic_qPark _) (traffic_ite ((qRelease_plain_traffic hw).trans (traffic_qPark _))
      (traffic_ite ((qRelease_plain_traffic hw).trans (traffic_qPark _)) ?_))
    exact (traffic_ite (traffic_put (by simp) _ _) (traffic_refl ..)).trans (traffic_qPark _)
  unfold State.qEnter
  exact traffic_ite ((traffic_setShqAt ..).trans (hserve _)) (traffic_setShqAt ..)

theorem hubCharge_words (n : Nat) : s.traffic (s.hubCharge 8 n) hubWords := traffic_ite (qEnter_plain rfl) (traffic_refl ..)

theorem hubWrite_words (a : Nat) (bs : List Byte) : s.moves (s.hubWrite a bs) a bs.length hubWords := by
  unfold State.hubWrite
  split
  · exact (traffic_refl ..).moves
  · exact ((request_traffic ..).moves.trans ((memWrite_moves ..).mono (by simp))).trans (hubCharge_words _).moves

theorem tableReads_words (is : List Nat) : s.traffic (s.tableReads is) hubWords := by
  unfold State.tableReads
  induction is generalizing s with
  | nil => exact traffic_refl ..
  | cons i is ih => exact ((request_traffic ..).trans (hubCharge_words 64)).trans ih

/-! ### Entries -/

theorem bytes_length (e : SurfEntry) : e.bytes.length = 64 := by
  unfold SurfEntry.bytes SurfEntry.bytes44
  simp [zeros, length_leBytes]

theorem surfAt_congr (h : t.surf = s.surf) (j : Nat) : t.surfAt j = s.surfAt j := by
  unfold State.surfAt
  rw [h]

theorem State.moves.surf {a n : Nat} (h : s.moves t a n but) : t.surf = s.surf := by rw [h.same]

theorem State.traffic.surf (h : s.traffic t but) : t.surf = s.surf := by rw [h.same]

theorem entryAt_congr (hs : t.surf = s.surf) (hp : t.poison = s.poison) (j : Nat) : t.entryAt j = s.entryAt j := by
  unfold State.entryAt State.poisoned
  rw [surfAt_congr hs, hp]

theorem State.traffic.entryAt (h : s.traffic t but) (j : Nat) : t.entryAt j = s.entryAt j := entryAt_congr h.surf (by rw [h.same]) j

/-- Writing an entry changes it alone, and the 64 bytes that it takes. -/
theorem storeSurf_spec (i : Nat) (e : SurfEntry) : s.touches (s.storeSurf i e) (64 * i) 64 hubWords ∧ (s.storeSurf i e).surfAt i = e ∧
    (∀ j, j ≠ i → (s.storeSurf i e).surfAt j = s.surfAt j) := by
  have hset : s.quiet (s.setSurfAt i e) [] := quiet_of_same rfl rfl rfl rfl rfl rfl
  have hm := hubWrite_words (s := s.setSurfAt i e) (64 * i) e.bytes
  rw [bytes_length] at hm
  have hsurf : ∀ j, (s.storeSurf i e).surfAt j = if j = i then e else s.surfAt j := fun j =>
    (surfAt_congr hm.surf j).trans (surfAt_setSurfAt ..)
  exact ⟨(hset.mono (by simp)).touches.trans hm.touches, (hsurf i).trans (if_pos rfl), fun j hj => (hsurf j).trans (if_neg hj)⟩

/-! ### The end of a command -/

/-- The words that a surface command writes. -/
def sfWords (p : Nat) : List Nat := [HP_SF_CMD p, HP_SF_STAT p, HP_SF_RESULT p, CA_Q_STAT 8, CA_Q_CNT 8]

theorem hubWords_sf : ∀ a ∈ hubWords, a ∈ sfWords p := by
  intro a ha
  unfold hubWords at ha
  unfold sfWords
  simp only [List.mem_cons, List.not_mem_nil, or_false] at ha ⊢
  tauto

theorem sfEnd_spec (result : Nat) : s.quiet (s.sfEnd p .done result) (sfWords p) ∧ (s.sfEnd p .done result).surf = s.surf ∧
    (s.sfEnd p .done result).get (HP_SF_STAT p) HP_SF_STAT_CODE = 0 ∧ (s.sfEnd p .done result).rdN (HP_SF_RESULT p) = result % 2 ^ 32 := by
  have hne : HP_SF_STAT p ≠ HP_SF_RESULT p := by unfold HP_SF_STAT HP_SF_RESULT; omega
  unfold State.sfEnd
  refine ⟨((quiet_refl s _).put _ _ (by simp [sfWords])).wrN _ (by simp [sfWords]), (wrN_surf ..).trans (put_surf ..), ?_, rdN_wrN_same ..⟩
  exact (get_wrN_ne _ _ _ hne).trans (get_put_same _ _ _ _ (by decide))

/-- What every surface command that is done leaves. -/
structure State.sfDone (s t : State) (p a n result : Nat) : Prop where
  code : t.get (HP_SF_STAT p) HP_SF_STAT_CODE = 0
  result : t.rdN (HP_SF_RESULT p) = result % 2 ^ 32
  mem : ∀ b, b < a ∨ a + n ≤ b → t.rdByte b = s.rdByte b
  store : s.storeSame t
  regs : s.regsSame t (sfWords p)

theorem sfEnd_done {a n : Nat} (h : s.touches u a n (sfWords p)) (result : Nat) : s.sfDone (u.sfEnd p .done result) p a n result := by
  obtain ⟨hq, _, hcode, hresult⟩ := sfEnd_spec (s := u) (p := p) result
  have ht := h.trans hq.touches
  exact ⟨hcode, hresult, ht.mem, ht.store, ht.regs⟩

/-! ### The commands -/

theorem sfMake_eq {i : Nat} (hc : createCheck s.space p (s.bar2Range p) (s.sfArgs p) = .done)
    (hq : (s.heldBy p).length < s.get (HP_SF_QUOTA p) HP_SF_QUOTA_MAX) (hi : s.lowestFree = some i) :
    s.sfMake p = (s.storeSurf i { SurfEntry.ofBytes (s.sfArgs p) with
      owner := p, generation := (s.surfAt i).generation, releasing := false, pub := false }).sfEnd p .done
        (mkHandle i { SurfEntry.ofBytes (s.sfArgs p) with
          owner := p, generation := (s.surfAt i).generation, releasing := false, pub := false }) := by
  unfold State.sfMake
  dsimp only
  rw [if_neg (by rw [hc]; exact fun h => h rfl), if_neg (by omega), hi]

/-- CREATE enters the surface. -/
theorem sfMake_done {i : Nat} (hc : createCheck s.space p (s.bar2Range p) (s.sfArgs p) = .done)
    (hq : (s.heldBy p).length < s.get (HP_SF_QUOTA p) HP_SF_QUOTA_MAX) (hi : s.lowestFree = some i) :
    (s.sfMake p).surfAt i = { SurfEntry.ofBytes (s.sfArgs p) with
      owner := p, generation := (s.surfAt i).generation, releasing := false, pub := false } ∧
    (∀ j, j ≠ i → (s.sfMake p).surfAt j = s.surfAt j) ∧ s.sfDone (s.sfMake p) p (64 * i) 64 (mkHandle i ((s.sfMake p).surfAt i)) := by
  rw [sfMake_eq hc hq hi]
  generalize ({ SurfEntry.ofBytes (s.sfArgs p) with
    owner := p, generation := (s.surfAt i).generation, releasing := false, pub := false } : SurfEntry) = e
  obtain ⟨htouch, hat, hother⟩ := storeSurf_spec (s := s) i e
  have hsurf := (sfEnd_spec (s := s.storeSurf i e) (p := p) (mkHandle i e)).2.1
  have hi : ((s.storeSurf i e).sfEnd p .done (mkHandle i e)).surfAt i = e := (surfAt_congr hsurf i).trans hat
  refine ⟨hi, fun j hj => (surfAt_congr hsurf j).trans (hother j hj), ?_⟩
  rw [hi]
  exact sfEnd_done (htouch.mono hubWords_sf) _

/-- DESTROY marks the surface as releasing. -/
theorem sfDrop_done (hlive : handleLive (s.rdN (HP_SF_ARG p 0)) (s.entryAt (handleIndex (s.rdN (HP_SF_ARG p 0)))) = true)
    (howner : (s.entryAt (handleIndex (s.rdN (HP_SF_ARG p 0)))).owner = p) :
    (s.sfDrop p).surfAt (handleIndex (s.rdN (HP_SF_ARG p 0))) = { s.entryAt (handleIndex (s.rdN (HP_SF_ARG p 0))) with releasing := true } ∧
    (∀ j, j ≠ handleIndex (s.rdN (HP_SF_ARG p 0)) → (s.sfDrop p).surfAt j = s.surfAt j) ∧
    s.sfDone (s.sfDrop p) p (64 * handleIndex (s.rdN (HP_SF_ARG p 0))) 64 (s.rdN (HP_SF_ARG p 0)) := by
  have hread := tableReads_words (s := s) [handleIndex (s.rdN (HP_SF_ARG p 0))]
  have hentry := hread.entryAt (handleIndex (s.rdN (HP_SF_ARG p 0)))
  have he : s.sfDrop p = ((s.tableReads [handleIndex (s.rdN (HP_SF_ARG p 0))]).storeSurf (handleIndex (s.rdN (HP_SF_ARG p 0)))
      { s.entryAt (handleIndex (s.rdN (HP_SF_ARG p 0))) with releasing := true }).sfEnd p .done (s.rdN (HP_SF_ARG p 0)) := by
    unfold State.sfDrop
    dsimp only
    rw [hentry, hlive, if_neg (by decide), if_neg (by rw [howner]; exact fun h => h rfl)]
  rw [he]
  generalize s.rdN (HP_SF_ARG p 0) = h at hread ⊢
  generalize ({ s.entryAt (handleIndex h) with releasing := true } : SurfEntry) = e
  generalize s.tableReads [handleIndex h] = v at hread ⊢
  obtain ⟨htouch, hat, hother⟩ := storeSurf_spec (s := v) (handleIndex h) e
  have hsurf := (sfEnd_spec (s := v.storeSurf (handleIndex h) e) (p := p) h).2.1
  refine ⟨(surfAt_congr hsurf _).trans hat, fun j hj => (surfAt_congr hsurf j).trans ((hother j hj).trans (surfAt_congr hread.surf j)), ?_⟩
  exact sfEnd_done ((hread.quiet.touches.trans htouch).mono hubWords_sf) _

/-- One argument register of READ. -/
def State.fillArg (s : State) (p : Nat) (bs : List Byte) (k : Nat) : State := s.wrN (HP_SF_ARG p k) (fieldAt bs (4 * k) 4)

/-- The argument registers as READ leaves them. -/
def State.sfFill (s : State) (p : Nat) (bs : List Byte) : State := (List.range 11).foldl (fun s k => s.fillArg p bs k) s

theorem word_lt (bs : List Byte) (o : Nat) : fieldAt bs o 4 < 2 ^ 32 :=
  calc fieldAt bs o 4 < 256 ^ (bytesAt bs o 4).length := leNat_lt _
    _ = 2 ^ 32 := by rw [bytesAt_length]; decide

theorem fillArg_same (bs : List Byte) (k : Nat) : (s.fillArg p bs k).rdN (HP_SF_ARG p k) = fieldAt bs (4 * k) 4 :=
  (rdN_wrN_same ..).trans (Nat.mod_eq_of_lt (word_lt ..))

theorem fillArg_ne (bs : List Byte) {k d : Nat} (h : k ≠ d) : (s.fillArg p bs d).rdN (HP_SF_ARG p k) = s.rdN (HP_SF_ARG p k) := by
  have hne : HP_SF_ARG p k ≠ HP_SF_ARG p d := by unfold HP_SF_ARG; omega
  unfold State.fillArg
  rw [rdN_eq_get, rdN_eq_get]
  exact get_wrN_ne _ _ _ hne

theorem sfFill_args (bs : List Byte) {k : Nat} (hk : k < 11) : (s.sfFill p bs).rdN (HP_SF_ARG p k) = fieldAt bs (4 * k) 4 := by
  refine foldl_visits (f := fun s k => State.fillArg s p bs k) (P := fun _ => True) (Q := fun y : State => y.rdN (HP_SF_ARG p k) = fieldAt bs (4 * k) 4)
    (c := k) (fun _ _ _ _ => trivial) (fun y _ => fillArg_same bs k) (fun y d hy => ?_) (List.mem_range.2 hk) trivial
  by_cases hd : k = d
  · exact hd ▸ fillArg_same bs k
  · exact (fillArg_ne bs hd).trans hy

theorem sfFill_spec (bs : List Byte) : s.quiet (s.sfFill p bs) ((List.range 11).map (HP_SF_ARG p)) ∧ (s.sfFill p bs).surf = s.surf :=
  ⟨quiet_foldl (fun s k hk => (quiet_refl s _).wrN _ (List.mem_map.2 ⟨k, hk, rfl⟩)) s,
    foldl_same State.surf (f := fun s k => State.fillArg s p bs k) (fun _ _ => wrN_surf ..) _ s⟩

/-- READ shows the surface. -/
theorem sfShow_done (hlive : handleLive (s.rdN (HP_SF_ARG p 0)) (s.entryAt (handleIndex (s.rdN (HP_SF_ARG p 0)))) = true)
    (howner : (s.entryAt (handleIndex (s.rdN (HP_SF_ARG p 0)))).owner = p ∨ (s.entryAt (handleIndex (s.rdN (HP_SF_ARG p 0)))).pub = true) :
    (∀ k, k < 11 → (s.sfShow p).rdN (HP_SF_ARG p k) = fieldAt (s.entryAt (handleIndex (s.rdN (HP_SF_ARG p 0)))).bytes44 (4 * k) 4) ∧
    (s.sfShow p).get (HP_SF_STAT p) HP_SF_STAT_CODE = 0 ∧ (s.sfShow p).rdN (HP_SF_RESULT p) = s.rdN (HP_SF_ARG p 0) % 2 ^ 32 ∧
    (s.sfShow p).surf = s.surf ∧ s.quiet (s.sfShow p) (sfWords p ++ (List.range 11).map (HP_SF_ARG p)) := by
  have hread := tableReads_words (s := s) [handleIndex (s.rdN (HP_SF_ARG p 0))]
  have hentry := hread.entryAt (handleIndex (s.rdN (HP_SF_ARG p 0)))
  have he : s.sfShow p = ((s.tableReads [handleIndex (s.rdN (HP_SF_ARG p 0))]).sfFill p
      (s.entryAt (handleIndex (s.rdN (HP_SF_ARG p 0)))).bytes44).sfEnd p .done (s.rdN (HP_SF_ARG p 0)) := by
    have hnot : ¬ ((s.entryAt (handleIndex (s.rdN (HP_SF_ARG p 0)))).owner ≠ p ∧ (!(s.entryAt (handleIndex (s.rdN (HP_SF_ARG p 0)))).pub) = true) := by
      rintro ⟨hne, hpub⟩
      rcases howner with h | h
      · exact hne h
      · rw [h] at hpub
        exact absurd hpub (by decide)
    unfold State.sfShow
    dsimp only
    rw [hentry, hlive, if_neg (by decide), if_neg hnot]
    rfl
  rw [he]
  generalize (s.entryAt (handleIndex (s.rdN (HP_SF_ARG p 0)))).bytes44 = bs
  generalize s.rdN (HP_SF_ARG p 0) = h at hread ⊢
  generalize s.tableReads [handleIndex h] = v at hread ⊢
  obtain ⟨hfill, hsurf⟩ := sfFill_spec (s := v) (p := p) bs
  have hargs : ∀ k, k < 11 → (v.sfFill p bs).rdN (HP_SF_ARG p k) = fieldAt bs (4 * k) 4 := fun k hk => sfFill_args bs hk
  generalize v.sfFill p bs = w at hfill hsurf hargs ⊢
  obtain ⟨hq, hsurf', hcode, hresult⟩ := sfEnd_spec (s := w) (p := p) h
  refine ⟨fun k hk => ?_, hcode, hresult, hsurf'.trans (hsurf.trans hread.surf), ?_⟩
  · have hone : ∀ a, a ≠ HP_SF_STAT p → a ≠ HP_SF_RESULT p → (w.sfEnd p .done h).rdN a = w.rdN a := fun a h1 h2 => by
      rw [rdN_eq_get, rdN_eq_get]
      exact (get_wrN_ne _ _ _ h2).trans (get_put_ne _ _ _ _ h1)
    rw [hone _ (by unfold HP_SF_ARG HP_SF_STAT; omega) (by unfold HP_SF_ARG HP_SF_RESULT; omega), hargs k hk]
  · refine ((hread.quiet.mono fun a ha => ?_).trans (hfill.mono fun a ha => ?_)).trans (hq.mono fun a ha => ?_)
    · exact List.mem_append_left _ (hubWords_sf a ha)
    · exact List.mem_append_right _ ha
    · exact List.mem_append_left _ ha

/-- One surface is marked as releasing. -/
def State.releaseOne (s : State) (i : Nat) : State := s.storeSurf i { s.surfAt i with releasing := true }

/-- Every surface of a list is marked as releasing. -/
def State.releaseAll (s : State) (is : List Nat) : State := is.foldl (fun s i => s.releaseOne i) s

theorem releaseOne_spec (i : Nat) : s.touches (s.releaseOne i) (64 * i) 64 hubWords ∧
    (s.releaseOne i).surfAt i = { s.surfAt i with releasing := true } ∧ ∀ j, j ≠ i → (s.releaseOne i).surfAt j = s.surfAt j :=
  storeSurf_spec i _

theorem releaseAll_cons (is : List Nat) : s.releaseAll (i :: is) = (s.releaseOne i).releaseAll is := List.foldl_cons ..

theorem releaseAll_spec (is : List Nat) : s.storeSame (s.releaseAll is) ∧ s.regsSame (s.releaseAll is) hubWords ∧
    ∀ j, (s.releaseAll is).surfAt j = if j ∈ is then { s.surfAt j with releasing := true } else s.surfAt j := by
  induction is generalizing s with
  | nil => exact ⟨⟨rfl, rfl, rfl⟩, fun _ _ _ => rfl, fun j => (if_neg List.not_mem_nil).symm⟩
  | cons i is ih =>
    obtain ⟨htouch, hat, hother⟩ := releaseOne_spec (s := s) i
    rw [releaseAll_cons]
    obtain ⟨hstore, hregs, hsurf⟩ := ih (s := s.releaseOne i)
    generalize s.releaseOne i = v at htouch hat hother hstore hregs hsurf ⊢
    have ht := htouch.store
    refine ⟨⟨hstore.1.trans ht.1, hstore.2.1.trans ht.2.1, hstore.2.2.trans ht.2.2⟩,
      fun a hl ha => (hregs a hl ha).trans (htouch.regs a hl ha), fun j => ?_⟩
    rw [hsurf j]
    by_cases hj : j = i
    · subst hj
      rw [hat, if_pos List.mem_cons_self]
      split <;> rfl
    · rw [hother j hj]
      simp only [List.mem_cons, hj, false_or]

/-- The surfaces of a port that DESTROY_ALL marks. -/
def State.sfMine (s : State) (p : Nat) : List Nat := (s.heldBy p).filter fun i => (s.entryAt i).valid && !(s.surfAt i).releasing

theorem sfDropAll_done : (∀ i ∈ s.heldBy p, (s.entryAt i).valid = true → (s.sfDropAll p).surfAt i = { s.surfAt i with releasing := true }) ∧
    (∀ i, i ∉ s.heldBy p ∨ (s.entryAt i).valid = false → (s.sfDropAll p).surfAt i = s.surfAt i) ∧
    (s.sfDropAll p).get (HP_SF_STAT p) HP_SF_STAT_CODE = 0 ∧ (s.sfDropAll p).rdN (HP_SF_RESULT p) = (s.sfMine p).length % 2 ^ 32 ∧
    s.storeSame (s.sfDropAll p) ∧ s.regsSame (s.sfDropAll p) (sfWords p) := by
  have he : s.sfDropAll p = (s.releaseAll (s.sfMine p)).sfEnd p .done (s.sfMine p).length := rfl
  rw [he]
  obtain ⟨hstore, hregs, hsurf⟩ := releaseAll_spec (s := s) (s.sfMine p)
  generalize s.releaseAll (s.sfMine p) = v at hstore hregs hsurf
  obtain ⟨hq, hsurf', hcode, hresult⟩ := sfEnd_spec (s := v) (p := p) (s.sfMine p).length
  have hmem : ∀ i, i ∈ s.sfMine p ↔ i ∈ s.heldBy p ∧ (s.entryAt i).valid = true ∧ (s.surfAt i).releasing = false := fun i => by
    unfold State.sfMine
    rw [List.mem_filter, Bool.and_eq_true, Bool.not_eq_true']
  refine ⟨fun i hi hv => ?_, fun i hi => ?_, hcode, hresult,
    ⟨hq.2.1.1.trans hstore.1, hq.2.1.2.1.trans hstore.2.1, hq.2.1.2.2.trans hstore.2.2⟩,
    fun a hl ha => (hq.2.2 a hl ha).trans (hregs a hl fun hc => ha (hubWords_sf a hc))⟩
  · rw [surfAt_congr hsurf', hsurf i]
    split
    · rfl
    · next hn =>
      have hr : (s.surfAt i).releasing = true := by
        by_contra hc
        exact hn ((hmem i).2 ⟨hi, hv, by simpa using hc⟩)
      rw [← hr]
  · rw [surfAt_congr hsurf', hsurf i, if_neg]
    rintro hm
    obtain ⟨h1, h2, _⟩ := (hmem i).1 hm
    rcases hi with hi | hi
    · exact hi h1
    · rw [hi] at h2
      exact absurd h2 (by decide)

/-! ### Retirement -/

theorem retire_spec (hr : (s.surfAt i).releasing = true) :
    (s.retire i).surfAt i = { SurfEntry.unused with generation := ((s.surfAt i).generation + 1) % 256 } ∧
    (∀ j, j ≠ i → (s.retire i).surfAt j = s.surfAt j) ∧ s.touches (s.retire i) (64 * i) 64 hubWords := by
  unfold State.retire
  extract_lets e last a src ev b
  have hb : s.quiet b [] ∧ b.surf = s.surf := by
    have ha : s.quiet a [] := quiet_of_same rfl rfl rfl rfl rfl rfl
    have hpost : a.onlyEvents ((a.enqueue e.owner ev).nextSeq src) := onlyEvents_trans (onlyEvents_setEvAt ..) (onlyEvents_setSeqAt ..)
    unfold b
    split
    · exact ⟨ha.events hpost, by rw [hpost.1]⟩
    · exact ⟨ha, rfl⟩
  clear_value b
  have hre : e.releasing = true := hr
  rw [if_pos hre]
  obtain ⟨htouch, hat, hother⟩ := storeSurf_spec (s := b) i { SurfEntry.unused with generation := (e.generation + 1) % 256 }
  exact ⟨hat, fun j hj => (hother j hj).trans (surfAt_congr hb.2 j), (hb.1.mono (by simp)).touches.trans htouch⟩

theorem retireNow_eq (hdue : s.retireDue i = true) (hlost : 4 ≤ (s.surfAt i).owner ∨ (s.evAt (s.surfAt i).owner).lost = 0) :
    s.retireNow i = s.retire i := by
  have hsame : (if (s.surfAt i).owner < 4 then s.postLost (s.surfAt i).owner else s) = s := by
    split
    · next ho =>
      unfold State.postLost
      rw [hlost.resolve_left (by omega)]
      rfl
    · rfl
  unfold State.retireNow
  dsimp only
  rw [hsame, if_pos hdue]

end

end Sys2Proof.Machine
end

section

namespace Sys2Proof.Machine

/-! ## Surface commands complete (O16) -/

section

variable {s t u v : State} {p a n result : Nat} {w : Word}

/-- The command word of a port, landed. -/
theorem sfLanded (w : Word) : u.quiet (u.wr (HP_SF_CMD p) w) (sfWords p) ∧ (u.wr (HP_SF_CMD p) w).surf = u.surf ∧
    ∀ j, (u.wr (HP_SF_CMD p) w).entryAt j = u.entryAt j :=
  ⟨(quiet_refl u _).wr _ (by simp [sfWords]), wr_surf .., entryAt_congr (wr_surf ..) (wr_poison ..)⟩

/-- What a command leaves, seen from before its word landed. -/
theorem sfDone_before (hq : u.quiet v (sfWords p)) (h : v.sfDone t p a n result) : u.sfDone t p a n result :=
  have hs : t.flash0 = v.flash0 ∧ t.flash1 = v.flash1 ∧ t.otp = v.otp := h.store
  have hu : v.flash0 = u.flash0 ∧ v.flash1 = u.flash1 ∧ v.otp = u.otp := hq.2.1
  ⟨h.code, h.result, fun b hb => (h.mem b hb).trans (hq.1 b), ⟨hs.1.trans hu.1, hs.2.1.trans hu.2.1, hs.2.2.trans hu.2.2⟩,
    fun b hl hb => (h.regs b hl hb).trans (hq.2.2 b hl hb)⟩

theorem sfCmd_eq (w : Word) : u.sfCmd p w = if getField w HP_SF_CMD_OP = 1 then (u.wr (HP_SF_CMD p) w).sfMake p
    else if getField w HP_SF_CMD_OP = 2 then (u.wr (HP_SF_CMD p) w).sfDrop p
    else if getField w HP_SF_CMD_OP = 3 then (u.wr (HP_SF_CMD p) w).sfShow p
    else if getField w HP_SF_CMD_OP = 4 then (u.wr (HP_SF_CMD p) w).sfDropAll p else (u.wr (HP_SF_CMD p) w).sfEnd p .badOp 0 := rfl

theorem sfCmd_create (h : getField w HP_SF_CMD_OP = 1) : u.sfCmd p w = (u.wr (HP_SF_CMD p) w).sfMake p := by
  rw [sfCmd_eq, if_pos h]

theorem sfCmd_destroy (h : getField w HP_SF_CMD_OP = 2) : u.sfCmd p w = (u.wr (HP_SF_CMD p) w).sfDrop p := by
  rw [sfCmd_eq, if_neg (by omega), if_pos h]

theorem sfCmd_read (h : getField w HP_SF_CMD_OP = 3) : u.sfCmd p w = (u.wr (HP_SF_CMD p) w).sfShow p := by
  rw [sfCmd_eq, if_neg (by omega), if_neg (by omega), if_pos h]

theorem sfCmd_destroyAll (h : getField w HP_SF_CMD_OP = 4) : u.sfCmd p w = (u.wr (HP_SF_CMD p) w).sfDropAll p := by
  rw [sfCmd_eq, if_neg (by omega), if_neg (by omega), if_neg (by omega), if_pos h]

/-- An admitted command runs. -/
theorem sfWrite_admitted {p : Fin 4} {op value : Nat} (hop : getField (BitVec.ofNat 32 value) HP_SF_CMD_OP = op)
    (hadm : s.admits (.host p) (HP_SF_CMD p.val) value = some (u, w)) : s.sfWrite p op value = u.sfCmd p.val w := by
  unfold State.sfWrite State.when
  rw [if_pos (beq_iff_eq.2 hop)]
  exact guarded_fst_of_admits hadm fun s w => s.sfCmd p.val w

theorem heldBy_congr (h : t.surf = s.surf) : t.heldBy p = s.heldBy p := by
  unfold State.heldBy
  rw [h]

theorem sfMine_congr (h : t.surf = s.surf) (he : ∀ j, t.entryAt j = s.entryAt j) : t.sfMine p = s.sfMine p := by
  unfold State.sfMine
  rw [heldBy_congr h]
  exact List.filter_congr fun i _ => by rw [he i, surfAt_congr h i]

end

/-- Settles O16: the word of an admitted command lands, and its OP's command runs on the table. -/
theorem surfaceCommandsComplete : Obligations.SurfaceCommandsComplete := by
  unfold Obligations.SurfaceCommandsComplete
  refine ⟨fun s now p value u w hadm => ?_, fun s now i hdue hrel hlost => ?_⟩
  · obtain ⟨hq, hsurf, hentry⟩ := sfLanded (u := u) (p := p.val) w
    have hat := surfAt_congr hsurf
    refine ⟨fun i hv hw hcheck hquota hfree => ?_, fun hv hw hlive howner => ?_, fun hv hw hlive howner => ?_, fun hv hw => ?_⟩
    · obtain ⟨hnew, hothers, hdone⟩ := sfMake_done hcheck hquota hfree
      have hd := sfDone_before hq hdone
      refine ⟨_, congrArg Host.Outcome.next ((sfWrite_admitted hv hadm).trans (sfCmd_create hw)), ?_, hd.code, hd.result,
        fun j hj => (hothers j hj).trans (hat j), hd.mem, hd.store, hd.regs⟩
      rw [hnew, hat i]
    · obtain ⟨hnew, hothers, hdone⟩ := sfDrop_done hlive howner
      have hd := sfDone_before hq hdone
      exact ⟨_, congrArg Host.Outcome.next ((sfWrite_admitted hv hadm).trans (sfCmd_destroy hw)), hnew, hd.code,
        hd.result.trans (Nat.mod_eq_of_lt (BitVec.isLt _)), fun j hj => (hothers j hj).trans (hat j), hd.mem, hd.store, hd.regs⟩
    · obtain ⟨hargs, hcode, hresult, hsame, hquiet⟩ := sfShow_done hlive howner
      exact ⟨_, congrArg Host.Outcome.next ((sfWrite_admitted hv hadm).trans (sfCmd_read hw)), hargs, hcode,
        hresult.trans (Nat.mod_eq_of_lt (BitVec.isLt _)), fun j => surfAt_congr (hsame.trans hsurf) j,
        (hq.mono fun a ha => List.mem_append_left _ ha).trans hquiet⟩
    · obtain ⟨hmarked, hothers, hcode, hresult, hstore, hregs⟩ := sfDropAll_done (s := u.wr (HP_SF_CMD p.val) w) (p := p.val)
      have hheld := heldBy_congr (p := p.val) hsurf
      have hd : u.storeSame _ ∧ u.regsSame _ (sfWords p.val) :=
        ⟨⟨hstore.1.trans hq.2.1.1, hstore.2.1.trans hq.2.1.2.1, hstore.2.2.trans hq.2.1.2.2⟩, fun b hl hb => (hregs b hl hb).trans (hq.2.2 b hl hb)⟩
      refine ⟨_, congrArg Host.Outcome.next ((sfWrite_admitted hv hadm).trans (sfCmd_destroyAll hw)), fun i hi hvalid => ?_, fun i hi => ?_,
        hcode, hresult.trans ?_, hd.1, hd.2⟩
      · rw [hmarked i (hheld ▸ hi) ((hentry i).symm ▸ hvalid), hat i]
      · exact (hothers i (by rwa [hheld, hentry i])).trans (hat i)
      · rw [sfMine_congr hsurf hentry]
        rfl
  · obtain ⟨hnew, hothers, htouch⟩ := retire_spec (s := s.tick now) (i := i.val) hrel
    have ht := ((quiet_tick s now).mono (by simp)).touches.trans htouch
    refine ⟨(s.tick now).retire i.val, congrArg Host.Outcome.next ((if_pos hdue).trans (retireNow_eq hdue hlost)), hnew, hothers, ht.mem, ht.store, ht.regs⟩

end Sys2Proof.Machine
end

section

namespace Sys2Proof.Machine

/-! ## Banks, commits and their journal: what each operation leaves (R279, R288, R290) -/

section

variable {s t u : State} {k n : Nat} {but more : List Nat}

/-- Flash and OTP stay, and every register but some. -/
structure State.spares (s t : State) (but : List Nat) : Prop where
  store : s.storeSame t
  regs : s.regsSame t but

theorem State.quiet.spares (h : s.quiet t but) : s.spares t but := ⟨h.2.1, h.2.2⟩

theorem State.moves.spares {a : Nat} (h : s.moves t a n but) : s.spares t but := ⟨h.touches.store, h.regs⟩

theorem State.spares.trans (h : s.spares t but) (k : t.spares u but) : s.spares u but :=
  ⟨⟨k.store.1.trans h.store.1, k.store.2.1.trans h.store.2.1, k.store.2.2.trans h.store.2.2⟩,
    fun a hl ha => (k.regs a hl ha).trans (h.regs a hl ha)⟩

theorem State.spares.mono (h : s.spares t but) (hm : ∀ a ∈ but, a ∈ more) : s.spares t more :=
  ⟨h.store, fun a hl ha => h.regs a hl fun hc => ha (hm a hc)⟩

theorem setTlcAt_quiet (q : TlCommits) : s.quiet (s.setTlcAt k q) but := quiet_of_same rfl rfl rfl rfl rfl rfl

theorem tlcAt_congr (h : t.tlc = s.tlc) (k : Nat) : t.tlcAt k = s.tlcAt k := by
  unfold State.tlcAt
  rw [h]

theorem pvName_congr (h : t.isl = s.isl) (p : Nat) : t.pvName p = s.pvName p := by
  unfold State.pvName
  rw [h]

/-! ### The journal -/

/-- A journal record changes memory, and what the hub's own queue counts. -/
theorem journalWrite_moves (c : Commit) (st frame : Nat) : ∃ n, s.moves (s.journalWrite k c st frame) 0 n hubWords := by
  unfold State.journalWrite
  extract_lets bs m
  generalize bs.take m = xs
  generalize bs.drop m = ys
  exact ⟨(journalBase k + c.unit * 256 + xs.length) + (journalBase k + ys.length),
    ((hubWrite_words _ xs).widen (Nat.zero_le _) (by omega)).trans ((hubWrite_words _ ys).widen (Nat.zero_le _) (by omega))⟩

theorem journalWrite_spec (c : Commit) (st frame : Nat) : s.spares (s.journalWrite k c st frame) hubWords ∧
    (s.journalWrite k c st frame).tlc = s.tlc ∧ (s.journalWrite k c st frame).isl = s.isl ∧ (s.journalWrite k c st frame).dtime = s.dtime := by
  obtain ⟨n, h⟩ := journalWrite_moves (s := s) (k := k) c st frame
  generalize s.journalWrite k c st frame = t at h
  exact ⟨h.spares, by rw [h.same], by rw [h.same], by rw [h.same]⟩

theorem not_hubWords_of_low {a : Nat} (h : a % 0x1000 ≠ 0x118 ∧ a % 0x1000 ≠ 0x11C) : a ∉ hubWords := by
  unfold hubWords CA_Q_STAT CA_Q_CNT
  simp only [List.mem_cons, List.not_mem_nil, or_false]
  omega

/-! ### Modes -/

theorem showPend_tlc : (s.showPend k).tlc = s.tlc := (put_tlc ..).trans (put_tlc ..)

theorem modeGone_tlc (order : Nat) : (s.modeGone k order).tlc = s.tlc := by
  unfold State.modeGone
  extract_lets a rest v
  refine ite_same (π := State.tlc) rfl (showPend_tlc.trans (ite_same (π := State.tlc) (wrN_tlc ..) rfl))

theorem postCommit_only (ring type flags : Nat) (d : Desc) (status step slot value : Nat) :
    s.onlyEvents (s.postCommit ring type flags d status step slot value) := postReserved_only ..

theorem onlyEvents_tlc (h : s.onlyEvents t) : t.tlc = s.tlc := by rw [h.1]

/-- A commit that ends unapplied leaves the accepted ones. -/
theorem commitEnd_spec (c : Commit) (value slot : Nat) :
    ((s.commitEnd k c value slot).tlcAt k).live = (s.tlcAt k).live.filter (fun x => x.order != c.order) ∧
    s.spares (s.commitEnd k c value slot) [AD_TL_MODE k, AD_TL_RES k, CA_Q_STAT 8, CA_Q_CNT 8] := by
  obtain ⟨hj, htlc, -, -⟩ := journalWrite_spec (s := s) (k := k) c 4 0
  unfold State.commitEnd
  extract_lets v q x
  have hq : q = s.tlcAt k := tlcAt_congr htlc k
  have hx : x.tlcAt k = { q with live := q.live.filter fun x => x.order != c.order } := (tlcAt_setTlcAt ..).trans (if_pos rfl)
  have hvx : v.spares x [AD_TL_MODE k, AD_TL_RES k, CA_Q_STAT 8, CA_Q_CNT 8] := (setTlcAt_quiet _).spares
  clear_value x
  have hgone := still_modeGone (s := x) (t := k) (but := [AD_TL_MODE k, AD_TL_RES k, CA_Q_STAT 8, CA_Q_CNT 8]) (by simp) (by simp) c.order
  have hpost := postCommit_only (s := x.modeGone k c.order) c.ring 0x23 0 c.desc 0x17 0 slot value
  refine ⟨?_, ((hj.mono fun a ha => ?_).trans hvx).trans (hgone.quiet.events hpost).spares⟩
  · rw [tlcAt_congr ((onlyEvents_tlc hpost).trans (modeGone_tlc _)), hx, hq]
  · exact List.mem_cons_of_mem _ (List.mem_cons_of_mem _ ha)

/-! ### Writing a bank -/

theorem writeWords_state (st : Nat) (active : Bool) (j : Nat) (ws : List Nat) : ∃ r, s.writeWords st active j ws = { s with regs := r } := by
  induction ws generalizing s j with
  | nil => exact ⟨_, rfl⟩
  | cons w ws ih =>
    obtain ⟨r, hr⟩ := ih (s := s.wrN (bankAddr st j active) w) (j + 1)
    exact ⟨r, hr⟩

theorem writeWords_rd {a : Nat} (st j : Nat) (ws : List Nat) (ha : 0x200 ≤ a % 0x400) (hj : j + ws.length ≤ 64) :
    (s.writeWords st false j ws).rd a = s.rd a := by
  induction ws generalizing s j with
  | nil => rfl
  | cons w ws ih =>
    rw [List.length_cons] at hj
    have hne : a ≠ bankAddr st j false := by
      unfold bankAddr
      rw [if_neg Bool.false_ne_true]
      omega
    exact (ih (j + 1) (by omega)).trans (rd_wrN_ne _ _ hne)

/-- One slot of a bank, written. -/
def State.writeSlot (s : State) (active : Bool) (x : SlotImg) : State :=
  ((s.writeWords (s.slotName x.slot) active 0 x.words).setEntAt (bankKey (s.slotName x.slot) active) x.entry).setBudAt
    (bankKey (s.slotName x.slot) active) x.buds

theorem writeSlot_state (active : Bool) (x : SlotImg) : ∃ r e b, s.writeSlot active x = { s with regs := r, ents := e, buds := b } := by
  obtain ⟨r, hr⟩ := writeWords_state (s := s) (s.slotName x.slot) active 0 x.words
  unfold State.writeSlot
  rw [hr]
  exact ⟨_, _, _, rfl⟩

/-- The pending background words of a bank. -/
def State.writeBg (s : State) (k : Nat) (active : Bool) (img : BankImage) : State :=
  (s.wrN (s.bgAddrs k active).1 img.rg).wrN (s.bgAddrs k active).2 img.b

theorem writeBank_eq (active : Bool) (img : BankImage) :
    s.writeBank k active img = img.slots.foldl (fun s x => s.writeSlot active x) (s.writeBg k active img) := rfl

/-- A bank takes registers, entry copies and row budgets alone. -/
theorem writeBank_state (active : Bool) (img : BankImage) : ∃ r e b, s.writeBank k active img = { s with regs := r, ents := e, buds := b } := by
  rw [writeBank_eq]
  refine foldl_keeps (P := fun v => ∃ r e b, v = { s with regs := r, ents := e, buds := b }) (fun v x _ hv => ?_) ⟨_, _, _, rfl⟩
  obtain ⟨r, e, b, rfl⟩ := hv
  exact writeSlot_state active x

/-- A pending bank lies below 0x200 of its page, where its slots have no more than 64 words. -/
theorem writeBank_rd {a : Nat} {img : BankImage} (ha : 0x200 ≤ a % 0x400) (hw : ∀ x ∈ img.slots, x.words.length ≤ 64) :
    (s.writeBank k false img).rd a = s.rd a := by
  have hbg : (s.writeBg k false img).rd a = s.rd a := by
    have h1 : a ≠ (s.bgAddrs k false).1 := by
      change a ≠ PV_BG_RG (s.pvName (k / 2)) (k % 2)
      unfold PV_BG_RG
      omega
    have h2 : a ≠ (s.bgAddrs k false).2 := by
      change a ≠ PV_BG_B (s.pvName (k / 2)) (k % 2)
      unfold PV_BG_B
      omega
    exact (rd_wrN_ne _ _ h2).trans (rd_wrN_ne _ _ h1)
  rw [writeBank_eq]
  refine foldl_keeps (P := fun v : State => v.rd a = s.rd a) (fun v x hx hv => ?_) hbg
  exact (writeWords_rd (s := v) _ 0 x.words ha (by have := hw x hx; omega)).trans hv

/-! ### Sealing -/

/-- Which register holds whether a timeline's bank is sealed, and which field. -/
theorem sealed_eq : s.sealed k = (s.get (PV_GSTAT (s.pvName (k / 2))) ⟨8 * (k % 2) + 3, 1⟩ != 0) := rfl

theorem sealed_congr (hi : t.isl = s.isl) (h : t.rd (PV_GSTAT (s.pvName (k / 2))) = s.rd (PV_GSTAT (s.pvName (k / 2)))) : t.sealed k = s.sealed k := by
  rw [sealed_eq, sealed_eq, pvName_congr hi]
  unfold State.get
  rw [h]

theorem gstat_ne_seal (p q j : Nat) (hj : j < 2) : PV_GSTAT p ≠ PV_SEAL q j := by
  unfold PV_GSTAT PV_SEAL
  omega

theorem lostCounter_page {a : Nat} (h : a % 0x1000 ≠ 0x61C) : lostCounter a = false :=
  lostCounter_eq_false fun p _ hc => h (by rw [hc]; unfold HP_EV_STAT; omega)

/-- The registers of a seal. -/
def sealWords (s : State) (k : Nat) : List Nat := [PV_SEAL (s.pvName (k / 2)) (k % 2), PV_GSTAT (s.pvName (k / 2))]

/-- The pending bank shows as sealed, one generation higher. -/
def State.showSealed (s : State) (k : Nat) : State := (s.setSealed k true).genUp k

theorem showSealed_spec : s.quiet (s.showSealed k) (sealWords s k) ∧ (s.showSealed k).sealed k = true ∧ (s.showSealed k).isl = s.isl ∧
    (s.showSealed k).tlc = s.tlc ∧ (s.showSealed k).dtime = s.dtime ∧
    (s.showSealed k).get (PV_SEAL (s.pvName (k / 2)) (k % 2)) PV_SEAL_CODE = s.get (PV_SEAL (s.pvName (k / 2)) (k % 2)) PV_SEAL_CODE := by
  have hname : (s.setSealed k true).pvName (k / 2) = s.pvName (k / 2) := pvName_congr (put_isl ..) _
  have he : s.showSealed k = (s.setSealed k true).bumpMod (PV_SEAL (s.pvName (k / 2)) (k % 2)) PV_SEAL_GEN 1 := by
    unfold State.showSealed State.genUp
    rw [hname]
  have hne := gstat_ne_seal (s.pvName (k / 2)) (s.pvName (k / 2)) (k % 2) (Nat.mod_lt _ (by decide))
  have hq : s.quiet (s.setSealed k true) (sealWords s k) := (quiet_refl s _).put _ _ (by simp [sealWords])
  have hisl : (s.showSealed k).isl = s.isl := by rw [he]; exact (bumpMod_isl ..).trans (put_isl ..)
  refine ⟨?_, ?_, hisl, ?_, ?_, ?_⟩
  · rw [he]
    exact hq.bumpMod _ _ (by simp [sealWords])
  · rw [sealed_eq, pvName_congr hisl, he, get_bumpMod_ne _ _ _ _ hne]
    unfold State.setSealed
    rw [get_put_same _ _ _ _ (by dsimp only; omega)]
    rfl
  · rw [he]
    exact (bumpMod_tlc ..).trans (put_tlc ..)
  · rw [he]
    exact (bumpMod_dtime ..).trans (put_dtime ..)
  · rw [he]
    exact (get_put_apart _ _ _ _ _ (by decide) (by decide)).trans (get_put_ne _ _ _ _ hne.symm)

theorem sealBank_eq (order : Option Nat) (img : BankImage) : s.sealBank k order img =
    ((s.writeBank k false img).showSealed k).setTlcAt k { ((s.writeBank k false img).showSealed k).tlcAt k with
      sealAt := ((s.writeBank k false img).showSealed k).dtime, undo := some ⟨s.sealed k, s.readBank k false, order, img⟩ } := rfl

/-- The pending bank takes the image, and is sealed. -/
theorem sealBank_spec (order : Option Nat) (img : BankImage) : (s.writeBank k false img).quiet (s.sealBank k order img) (sealWords s k) ∧
    (s.sealBank k order img).sealed k = true ∧ (s.sealBank k order img).isl = s.isl ∧
    (s.sealBank k order img).tlcAt k = { s.tlcAt k with sealAt := s.dtime, undo := some ⟨s.sealed k, s.readBank k false, order, img⟩ } ∧
    (s.sealBank k order img).get (PV_SEAL (s.pvName (k / 2)) (k % 2)) PV_SEAL_CODE =
      (s.writeBank k false img).get (PV_SEAL (s.pvName (k / 2)) (k % 2)) PV_SEAL_CODE := by
  obtain ⟨r, e, b, hb⟩ := writeBank_state (s := s) (k := k) false img
  have hisl : (s.writeBank k false img).isl = s.isl := by rw [hb]
  have htlc : (s.writeBank k false img).tlc = s.tlc := by rw [hb]
  have hdt : (s.writeBank k false img).dtime = s.dtime := by rw [hb]
  rw [sealBank_eq]
  generalize (⟨s.sealed k, s.readBank k false, order, img⟩ : SealUndo) = un
  generalize s.writeBank k false img = v at hisl htlc hdt ⊢
  have hword : sealWords v k = sealWords s k := by unfold sealWords; rw [pvName_congr hisl]
  obtain ⟨hq, hs, hi, ht, hd, hcode⟩ := showSealed_spec (s := v) (k := k)
  rw [pvName_congr hisl] at hcode
  rw [hword] at hq
  generalize v.showSealed k = w at hq hs hi ht hd hcode ⊢
  refine ⟨hq.trans (setTlcAt_quiet _), ?_, hi.trans hisl, ?_, hcode⟩
  · exact (sealed_congr (s := w) rfl rfl).trans hs
  · rw [tlcAt_setTlcAt, if_pos rfl, tlcAt_congr (ht.trans htlc), hd.trans hdt]

end

end Sys2Proof.Machine
end

section

namespace Sys2Proof.Machine

/-! ## Accepted commits move on (O18) -/

section

variable {s t u : State} {k n : Nat}

theorem setState_orders (q : TlCommits) (st : CState) : (q.setState n st).live.map (·.order) = q.live.map (·.order) := by
  unfold TlCommits.setState
  rw [List.map_map]
  exact List.map_congr_left fun c _ => by simp only [Function.comp]; split <;> rfl

theorem setState_state {q : TlCommits} {st : CState} {d : Commit} (hd : d ∈ (q.setState n st).live) (ho : d.order = n) : d.state = st := by
  obtain ⟨c, _, rfl⟩ := List.mem_map.1 hd
  by_cases h : c.order = n
  · rw [if_pos h]
  · rw [if_neg h] at ho
    exact absurd ho h

/-! ### Leaving WAITING -/

theorem leave_next {c : Commit} (hn : s.nextWaiting k = some c) (hm : s.mayLeave k c = true) :
    s.leave k = s.setTlcAt k { (s.tlcAt k).setState c.order .assembled with
      image := some (c.order, (s.readBank k (!s.sealed k)).applyCommit c) } := by
  unfold State.leave
  rw [hn]
  exact if_pos hm

/-- What leaving WAITING may do to the accepted commits. -/
structure leaves (s t : State) (k : Nat) : Prop where
  orders : (t.tlcAt k).live.map (·.order) = (s.tlcAt k).live.map (·.order)
  targets : ∀ d ∈ (t.tlcAt k).live, ∃ c ∈ (s.tlcAt k).live, d.desc = c.desc ∧ d.targetOk = c.targetOk
  quiet : s.quiet t []

theorem leave_leaves : leaves s (s.leave k) k := by
  have hsame : leaves s s k := ⟨rfl, fun d hd => ⟨d, hd, rfl, rfl⟩, quiet_refl s []⟩
  unfold State.leave
  split
  next c _ =>
    split
    · refine ⟨?_, fun d hd => ?_, setTlcAt_quiet _⟩
      · rw [tlcAt_setTlcAt, if_pos rfl]
        exact setState_orders ..
      · rw [tlcAt_setTlcAt, if_pos rfl] at hd
        obtain ⟨e, he, rfl⟩ := List.mem_map.1 hd
        exact ⟨e, he, by split <;> exact ⟨rfl, rfl⟩⟩
    · exact hsame
  · exact hsame

theorem targetsReached_spec : (s.targetsReached k).tlcAt k = { s.tlcAt k with live := (s.tlcAt k).live.map fun c =>
    if c.desc.tkind = 2 ∧ c.desc.target ≤ s.dtime then { c with targetOk := true } else c } ∧ s.quiet (s.targetsReached k) [] :=
  ⟨(tlcAt_setTlcAt ..).trans (if_pos rfl), setTlcAt_quiet _⟩

theorem targetsReached_orders : ((s.targetsReached k).tlcAt k).live.map (·.order) = (s.tlcAt k).live.map (·.order) := by
  rw [targetsReached_spec.1, List.map_map]
  exact List.map_congr_left fun c _ => by simp only [Function.comp]; split <;> rfl

theorem targetsReached_ok {c : Commit} (hc : c ∈ ((s.targetsReached k).tlcAt k).live) (hk : c.desc.tkind = 2) (ht : c.desc.target ≤ s.dtime) :
    c.targetOk = true := by
  rw [targetsReached_spec.1] at hc
  obtain ⟨d, _, rfl⟩ := List.mem_map.1 hc
  by_cases h : d.desc.tkind = 2 ∧ d.desc.target ≤ s.dtime
  · rw [if_pos h]
  · rw [if_neg h] at hk ht
    exact absurd ⟨hk, ht⟩ h

/-! ### The seal -/

theorem sealImage_eq {img : BankImage} {c : Commit} (hc : (s.tlcAt k).live.find? (fun c => c.order == n) = some c) :
    s.sealImage k n img = ((s.sealBank k (some n) img).journalWrite k c 2 0).setTlcAt k
      { ((s.sealBank k (some n) img).tlcAt k).setState n .sealed with image := none, noMerge := c.desc.noMerge } := by
  have hlive : ((s.sealBank k (some n) img).tlcAt k).live = (s.tlcAt k).live := by rw [(sealBank_spec (s := s) (k := k) (some n) img).2.2.2.1]
  unfold State.sealImage
  dsimp only
  rw [hlive, hc]

/-- What the seal of an image leaves. -/
theorem sealImage_spec {img : BankImage} {c : Commit} (hc : (s.tlcAt k).live.find? (fun c => c.order == n) = some c) :
    (s.sealImage k n img).sealed k = true ∧ ((s.sealImage k n img).tlcAt k).image = none ∧ ((s.sealImage k n img).tlcAt k).sealAt = s.dtime ∧
    ((s.sealImage k n img).tlcAt k).noMerge = c.desc.noMerge ∧
    (∀ d ∈ ((s.sealImage k n img).tlcAt k).live, d.order = n → d.state = .sealed) ∧
    (s.writeBank k false img).spares (s.sealImage k n img) (sealWords s k ++ hubWords) := by
  obtain ⟨hq, hs, hi, ht, -⟩ := sealBank_spec (s := s) (k := k) (some n) img
  rw [sealImage_eq hc]
  generalize s.sealBank k (some n) img = v at hq hs hi ht ⊢
  obtain ⟨hj, htlc, hji, -⟩ := journalWrite_spec (s := v) (k := k) c 2 0
  generalize v.journalWrite k c 2 0 = w at hj htlc hji ⊢
  have hseal : w.sealed k = true := by
    refine (sealed_congr hji (hj.regs _ (lostCounter_page ?_) (not_hubWords_of_low ?_))).trans hs
    · unfold PV_GSTAT; omega
    · unfold PV_GSTAT; omega
  refine ⟨(sealed_congr (s := w) rfl rfl).trans hseal, ?_, ?_, ?_, fun d hd ho => ?_, ?_⟩
  · rw [tlcAt_setTlcAt, if_pos rfl]
  · rw [tlcAt_setTlcAt, if_pos rfl, ht]
    rfl
  · rw [tlcAt_setTlcAt, if_pos rfl]
  · rw [tlcAt_setTlcAt, if_pos rfl] at hd
    exact setState_state hd ho
  · exact ((hq.spares.mono fun a ha => List.mem_append_left _ ha).trans (hj.mono fun a ha => List.mem_append_right _ ha)).trans
      (setTlcAt_quiet _).spares

theorem writeBank_stores (img : BankImage) : s.memSame (s.writeBank k false img) ∧ s.storeSame (s.writeBank k false img) := by
  obtain ⟨r, e, b, hb⟩ := writeBank_state (s := s) (k := k) false img
  rw [hb]
  exact ⟨fun _ => rfl, rfl, rfl, rfl⟩

/-! ### Direct seals -/

/-- The register of a timeline's seal. -/
def State.sealReg (s : State) (k : Nat) : Nat := PV_SEAL (s.pvName (k / 2)) (k % 2)

theorem sealCode_eq (code : Nat) : s.sealCode k code = (s.put (s.sealReg k) PV_SEAL_CODE code).put (s.sealReg k) PV_SEAL_SEAL 0 := rfl

theorem sealCode_spec (code : Nat) : s.quiet (s.sealCode k code) [s.sealReg k] ∧ (s.sealCode k code).get (s.sealReg k) PV_SEAL_CODE = code % 256 ∧
    (s.sealCode k code).get (s.sealReg k) PV_SEAL_SEAL = 0 ∧ (s.sealCode k code).tlc = s.tlc ∧ (s.sealCode k code).isl = s.isl ∧
    (s.sealCode k code).dtime = s.dtime := by
  rw [sealCode_eq]
  refine ⟨((quiet_refl s _).put _ _ (by simp)).put _ _ (by simp), ?_, ?_, (put_tlc ..).trans (put_tlc ..), (put_isl ..).trans (put_isl ..),
    (put_dtime ..).trans (put_dtime ..)⟩
  · rw [get_put_apart _ _ _ _ _ (by decide) (by decide)]
    exact get_put_same _ _ _ _ (by decide)
  · exact get_put_same _ _ _ _ (by decide)

/-- What a case writes when it is refused. -/
def refusedWords : List Nat := [AD_LAST, AD_SHORT, AD_REF_CNT]

theorem caseDone_refused (short : Nat) : s.quiet (s.caseDone k 0x14 short) refusedWords := by
  unfold State.caseDone
  extract_lets v
  have hv : s.quiet v refusedWords := (((quiet_refl s _).put _ _ (by simp [refusedWords])).put _ _ (by simp [refusedWords])).put _ _ (by simp [refusedWords])
  rw [if_pos rfl]
  exact (hv.wrN _ (by simp [refusedWords])).bump _ _ (by simp [refusedWords])

theorem caseDone_same (code short : Nat) : (s.caseDone k code short).tlc = s.tlc ∧ (s.caseDone k code short).isl = s.isl := by
  unfold State.caseDone
  extract_lets v
  have hv : v.tlc = s.tlc ∧ v.isl = s.isl :=
    ⟨(put_tlc ..).trans ((put_tlc ..).trans (put_tlc ..)), (put_isl ..).trans ((put_isl ..).trans (put_isl ..))⟩
  clear_value v
  split
  · exact ⟨(bump_tlc ..).trans ((wrN_tlc ..).trans hv.1), (bump_isl ..).trans ((wrN_isl ..).trans hv.2)⟩
  · exact ⟨(bump_tlc ..).trans hv.1, (bump_isl ..).trans hv.2⟩

theorem sealReg_page (s : State) (k : Nat) : s.sealReg k % 0x1000 = 0x204 ∨ s.sealReg k % 0x1000 = 0x208 := by
  unfold State.sealReg PV_SEAL
  omega

/-- The bank and the accept code of a direct seal, with its admission stored. -/
def State.directStored (s : State) (k code : Nat) (a : AdmResult) : State :=
  ((s.dropDirect k).storeCase a (some directOrder)).caseDone k code 0

theorem showTotals_tlc (a : AdmTotals) : (s.showTotals a).tlc = s.tlc :=
  (wrN_tlc ..).trans ((wrN_tlc ..).trans ((wrN_tlc ..).trans (wrN_tlc ..)))

theorem storeCase_tlc (a : AdmResult) (order : Option Nat) : (s.storeCase a order).tlc = s.tlc := by
  unfold State.storeCase
  extract_lets q v w
  have hv : v.tlc = s.tlc := by
    unfold v
    split <;> rfl
  exact showPend_tlc.trans ((showTotals_tlc _).trans ((wrN_tlc ..).trans ((wrN_tlc ..).trans hv)))

theorem directStored_spec (code : Nat) (a : AdmResult) : (s.directStored k code a).tlc = s.tlc ∧ (s.directStored k code a).isl = s.isl ∧
    (s.directStored k code a).dtime = s.dtime ∧ s.memSame (s.directStored k code a) ∧ s.storeSame (s.directStored k code a) := by
  have hc : s.carries ⟨false, false⟩ (s.directStored k code a) := by simp [State.directStored, State.dropDirect]
  have hk : (s.directStored k code a).kept = s.kept := by simp [State.directStored, State.dropDirect]
  refine ⟨?_, ?_, congrArg Kept.dtime hk, hc.memSame, hc.storeSame⟩
  · exact (caseDone_same ..).1.trans (storeCase_tlc ..)
  · exact (caseDone_same ..).2.trans (storeCase_isl ..)

/-- The words of every slot that a direct check gives are the 22 banked words. -/
theorem directCheck_words {owner : Option Nat} {img : BankImage} {code : Nat} {a : AdmResult} (h : s.directCheck k owner = .inr (img, code, a)) :
    ∀ x ∈ img.slots, x.words.length = 22 := by
  have hcand : ∀ x ∈ (s.directCand k).slots, x.words.length = 22 := by
    intro x hx
    obtain ⟨y, hy, rfl⟩ := List.mem_map.1 hx
    obtain ⟨sl, _, rfl⟩ := List.mem_map.1 hy
    split <;> simp [State.bankWords]
  have hchecked (c : Checked) : ∀ x ∈ ((s.directCand k).withChecked c).slots, x.words.length = 22 := by
    intro x hx
    obtain ⟨y, hy, rfl⟩ := List.mem_map.1 hx
    have hlen := hcand y hy
    dsimp only
    have hbuds : ∀ z : SlotImg, z.words.length = 22 → (match c.taps.find? fun y : Nat × Nat => y.1 == z.slot with
        | some y => if z.layer.en then { z with words := stepWords z.words y.2 } else z
        | none => z).words.length = 22 := by
      intro z hz
      split
      · split
        · simp [stepWords, hz]
        · exact hz
      · exact hz
    refine hbuds _ ?_
    split <;> exact hlen
  unfold State.directCheck at h
  extract_lets cand look at h
  split at h
  · exact absurd h Sum.inl_ne_inr
  · split at h
    · exact absurd h Sum.inl_ne_inr
    · next c _ =>
      extract_lets img' at h
      split at h
      · exact absurd h Sum.inl_ne_inr
      · obtain ⟨rfl, -⟩ := Prod.mk.inj (Sum.inr.inj h)
        exact hchecked c

theorem directSeal_live {src : Src} (hl : (s.tlcAt k).live ≠ []) : s.directSeal src k = s.sealCode k 0x18 := by
  unfold State.directSeal
  extract_lets q
  exact if_pos (by rw [Bool.not_eq_true', List.isEmpty_eq_false_iff]; exact hl)

theorem directSeal_refused {src : Src} {e : Refuse} (hl : (s.tlcAt k).live = []) (he : s.directCheck k (sealOwner src) = .inl e) :
    s.directSeal src k = (if e.step = 6 then s.caseDone k 0x14 e.value else s).sealCode k e.code := by
  unfold State.directSeal
  extract_lets q
  have hq : q.live = [] := hl
  rw [if_neg (by rw [hq]; decide), he]

theorem directSeal_passed {src : Src} {img : BankImage} {code : Nat} {a : AdmResult} (hl : (s.tlcAt k).live = [])
    (hh : (s.tlcAt k).handover = none) (he : s.directCheck k (sealOwner src) = .inr (img, code, a)) :
    s.directSeal src k = ((s.directStored k code a).sealCode k code).sealBank k none img := by
  unfold State.directSeal
  extract_lets q
  have hq : q.live = [] := hl
  have hq' : q.handover = none := hh
  rw [if_neg (by rw [hq]; decide), he, hq']
  rfl

end

end Sys2Proof.Machine
end

section

namespace Sys2Proof.Machine

section

variable {s u : State} {k now : Nat} {w : Word}

/-- A write with SEAL 1 seals directly. -/
theorem directSeal_runs {src : Src} {pv : Fin 8} {b : Fin 2} {value : Nat}
    (hadm : (s.tick now).admits src (PV_SEAL pv.val b.val) value = some (u, w)) (hw : getField w PV_SEAL_SEAL = 1) :
    exec (.directSeal now src pv b value) s = .next (u.directSeal src (2 * pv.val + b.val)) :=
  congrArg Host.Outcome.next ((guarded_fst_of_admits hadm fun s w => s.sealWrite src (2 * pv.val + b.val) w).trans (if_pos hw))

theorem directSeal_idle {src : Src} {pv : Fin 8} {b : Fin 2} {value : Nat}
    (hadm : (s.tick now).admits src (PV_SEAL pv.val b.val) value = some (u, w)) (hw : getField w PV_SEAL_SEAL = 0) :
    exec (.directSeal now src pv b value) s = .next u :=
  congrArg Host.Outcome.next ((guarded_fst_of_admits hadm fun s w => s.sealWrite src (2 * pv.val + b.val) w).trans
    (if_neg (by rw [hw]; decide)))

theorem sealReg_unit (u : State) (pv : Fin 8) (b : Fin 2) : u.sealReg (2 * pv.val + b.val) = PV_SEAL (u.pvName pv.val) b.val := by
  have h1 : (2 * pv.val + b.val) / 2 = pv.val := by omega
  have h2 : (2 * pv.val + b.val) % 2 = b.val := by omega
  unfold State.sealReg
  rw [h1, h2]

theorem sealReg_congr {t : State} (h : t.isl = u.isl) (k : Nat) : t.sealReg k = u.sealReg k := by
  unfold State.sealReg
  rw [pvName_congr h]

/-- A passed direct seal. -/
theorem directSeal_seals {src : Src} {img : BankImage} {code : Nat} {a : AdmResult} (hl : (u.tlcAt k).live = [])
    (hh : (u.tlcAt k).handover = none) (he : u.directCheck k (sealOwner src) = .inr (img, code, a)) :
    (u.directSeal src k).sealed k = true ∧ ((u.directSeal src k).tlcAt k).sealAt = u.dtime ∧
    (u.directSeal src k).get (u.sealReg k) PV_SEAL_CODE = code % 256 ∧ u.memSame (u.directSeal src k) ∧ u.storeSame (u.directSeal src k) := by
  have hwords := directCheck_words he
  rw [directSeal_passed hl hh he]
  obtain ⟨-, hi, hd, hmem, hstore⟩ := directStored_spec (s := u) (k := k) code a
  generalize u.directStored k code a = v at hi hd hmem hstore ⊢
  obtain ⟨hq, hcode, -, -, hi', hd'⟩ := sealCode_spec (s := v) (k := k) code
  rw [sealReg_congr hi] at hcode
  have hreg : (v.sealCode k code).sealReg k = u.sealReg k := sealReg_congr (hi'.trans hi) k
  generalize v.sealCode k code = x at hq hcode hi' hd' hreg ⊢
  obtain ⟨hbq, hsealed, -, htlc, hbcode⟩ := sealBank_spec (s := x) (k := k) none img
  have hw := writeBank_stores (s := x) (k := k) img
  have hpage := sealReg_page u k
  have hrd : (x.writeBank k false img).rd (u.sealReg k) = x.rd (u.sealReg k) :=
    writeBank_rd (by omega) fun y hy => by rw [hwords y hy]; decide
  refine ⟨hsealed, ?_, ?_, fun b => ?_, ?_⟩
  · rw [htlc]
    exact hd'.trans hd
  · have hb : (x.sealBank k none img).get (x.sealReg k) PV_SEAL_CODE = (x.writeBank k false img).get (x.sealReg k) PV_SEAL_CODE := hbcode
    rw [hreg] at hb
    exact hb.trans ((congrArg (fun y => getField y PV_SEAL_CODE) hrd).trans hcode)
  · exact (hbq.1 b).trans ((hw.1 b).trans ((hq.1 b).trans (hmem b)))
  · obtain ⟨h1, h2, h3⟩ := hstore
    obtain ⟨-, ⟨j1, j2, j3⟩, -⟩ := hq
    obtain ⟨-, k1, k2, k3⟩ := hw
    obtain ⟨-, ⟨l1, l2, l3⟩, -⟩ := hbq
    exact ⟨l1.trans (k1.trans (j1.trans h1)), l2.trans (k2.trans (j2.trans h2)), l3.trans (k3.trans (j3.trans h3))⟩

/-- A refused direct seal. -/
theorem directSeal_refuses {src : Src} {e : Refuse} (hl : (u.tlcAt k).live = []) (he : u.directCheck k (sealOwner src) = .inl e) :
    (u.directSeal src k).sealed k = u.sealed k ∧ (u.directSeal src k).tlcAt k = u.tlcAt k ∧
    (u.directSeal src k).get (u.sealReg k) PV_SEAL_CODE = e.code % 256 ∧ (u.directSeal src k).get (u.sealReg k) PV_SEAL_SEAL = 0 ∧
    u.quiet (u.directSeal src k) (u.sealReg k :: if e.step = 6 then refusedWords else []) := by
  have hcase : (if e.step = 6 then u.caseDone k 0x14 e.value else u).tlc = u.tlc ∧
      (if e.step = 6 then u.caseDone k 0x14 e.value else u).isl = u.isl ∧
      u.quiet (if e.step = 6 then u.caseDone k 0x14 e.value else u) (if e.step = 6 then refusedWords else []) := by
    split
    · exact ⟨(caseDone_same ..).1, (caseDone_same ..).2, caseDone_refused _⟩
    · exact ⟨rfl, rfl, quiet_refl u _⟩
  have hbut : ∀ a ∈ (if e.step = 6 then refusedWords else []), a % 0x1000 ≠ 0x200 := by
    split
    · unfold refusedWords; decide
    · exact fun a ha => absurd ha List.not_mem_nil
  rw [directSeal_refused hl he]
  obtain ⟨htlc, hisl, hquiet⟩ := hcase
  generalize (if e.step = 6 then u.caseDone k 0x14 e.value else u) = v at htlc hisl hquiet ⊢
  obtain ⟨hq, hcode, hseal, htlc', hisl', -⟩ := sealCode_spec (s := v) (k := k) e.code
  rw [sealReg_congr hisl] at hq hcode hseal
  have hall := (hquiet.mono fun a ha => List.mem_cons_of_mem (u.sealReg k) ha).trans (hq.mono (by simp))
  have hpage := sealReg_page u k
  have hg : PV_GSTAT (u.pvName (k / 2)) % 0x1000 = 0x200 := by unfold PV_GSTAT; omega
  refine ⟨sealed_congr (hisl'.trans hisl) (hall.2.2 _ (lostCounter_page (by omega)) fun hc => ?_), tlcAt_congr (htlc'.trans htlc) k, hcode, hseal, hall⟩
  rcases List.mem_cons.1 hc with h | h
  · omega
  · exact hbut _ h hg

/-- An admitted write leaves device time. -/
theorem admits_dtime {v : State} {src : Src} {a value : Nat} (hadm : v.admits src a value = some (u, w)) : u.dtime = v.dtime := by
  have hk := decideWrite_kept (adm := noAdm) (fun _ _ _ => rfl) v src (v.aliasAddr a) value
  unfold State.admits at hadm
  split at hadm
  · next t w' r heq =>
    obtain ⟨rfl, -⟩ := Prod.mk.inj (Option.some.inj hadm)
    rw [heq] at hk
    exact congrArg Kept.dtime hk
  · exact absurd hadm nofun

theorem commitSeal_seals {n : Nat} {img : BankImage} (hi : (u.tlcAt k).image = some (n, img)) (hh : (u.tlcAt k).handover = none) :
    u.commitSeal k = u.sealImage k n img := by
  unfold State.commitSeal
  dsimp only
  rw [hi, hh]

theorem commitSeal_noted {n : Nat} {img : BankImage} {h : Handover} (hi : (u.tlcAt k).image = some (n, img))
    (hh : (u.tlcAt k).handover = some h) :
    u.commitSeal k = u.setTlcAt k { u.tlcAt k with handover := some { h with commit := true } } := by
  unfold State.commitSeal
  dsimp only
  rw [hi, hh]

theorem fenceTimeout_ends {c : Commit} (hi : u.islUp islCarousel = true) (hc : (u.tlcAt k).live.find? u.fenceOver = some c) :
    u.fenceTimeout k = u.commitEnd k c 0 ((u.unmet c).getD 0xFF) := by
  unfold State.fenceTimeout
  rw [if_pos hi, hc]

/-! ### Writing a bank after time has passed -/

theorem writeWords_tick (st : Nat) (active : Bool) (j : Nat) (ws : List Nat) :
    (s.tick now).writeWords st active j ws = (s.writeWords st active j ws).tick now := by
  induction ws generalizing s j with
  | nil => rfl
  | cons x ws ih => exact ih (s := s.wrN (bankAddr st j active) x) (j + 1)

theorem writeSlot_tick (active : Bool) (x : SlotImg) : (s.tick now).writeSlot active x = (s.writeSlot active x).tick now := by
  unfold State.writeSlot
  have hn : (s.tick now).slotName x.slot = s.slotName x.slot := rfl
  rw [hn, writeWords_tick]
  rfl

theorem writeBank_tick (active : Bool) (img : BankImage) : (s.tick now).writeBank k active img = (s.writeBank k active img).tick now := by
  have hbg : (s.tick now).writeBg k active img = (s.writeBg k active img).tick now := rfl
  rw [writeBank_eq, writeBank_eq, hbg]
  exact List.foldl_hom (State.tick · now) (g₁ := fun v x => State.writeSlot v active x) (g₂ := fun v x => State.writeSlot v active x)
    fun v x => writeSlot_tick active x

end

/-- Settles O18: leaving WAITING, targets, seals, a fence's time-out and direct seals one by one, from what each leaves. -/
theorem commitLifeCompletes : Obligations.CommitLifeCompletes := by
  unfold Obligations.CommitLifeCompletes
  intro s now tl
  refine ⟨fun c hn hm => ?_, ?_, fun n img himg hpav hcar => ⟨fun c hh hc => ?_, fun h hh => ?_⟩, fun c hcar hc => ?_,
    fun pv b src value u w hadm => ⟨fun hw => directSeal_idle hadm hw, fun hw hl => ?_, fun img code a hw hl hh he => ?_, fun e hw hl he => ?_⟩⟩
  · have hl := leave_leaves (s := s.tick now) (k := tl.val)
    have hat : ((s.tick now).leave tl.val).tlcAt tl.val = { (s.tlcAt tl.val).setState c.order .assembled with
        image := some (c.order, (s.readBank tl.val (!s.sealed tl.val)).applyCommit c) } := by
      rw [leave_next (s := s.tick now) hn hm, tlcAt_setTlcAt, if_pos rfl]
      rfl
    refine ⟨_, rfl, by rw [hat], fun d hd ho => ?_, hl.orders, (quiet_tick s now).trans hl.quiet⟩
    rw [hat] at hd
    exact setState_state hd ho
  · have hr := targetsReached_spec (s := s.tick now) (k := tl.val)
    have hl := leave_leaves (s := (s.tick now).targetsReached tl.val) (k := tl.val)
    refine ⟨_, rfl, fun d hd hk ht => ?_, hl.orders.trans targetsReached_orders, (quiet_tick s now).trans (hr.2.trans hl.quiet)⟩
    obtain ⟨c, hc, hdesc, hok⟩ := hl.targets d hd
    rw [hdesc] at hk ht
    exact hok.trans (targetsReached_ok hc hk ht)
  · have hrun : exec (.commitSeal now tl) s = .next ((s.tick now).sealImage tl.val n img) :=
      congrArg Host.Outcome.next ((if_pos (Bool.and_eq_true_iff.2 ⟨hpav, hcar⟩)).trans (commitSeal_seals himg hh))
    obtain ⟨hsealed, hnone, hat, hmerge, hstates, hsp⟩ := sealImage_spec (s := s.tick now) (k := tl.val) (img := img) hc
    have hw := writeBank_stores (s := s.tick now) (k := tl.val) img
    refine ⟨_, hrun, hsealed, hnone, hat, hmerge, hstates, ?_, fun a hl ha => ?_⟩
    · exact ⟨hsp.store.1.trans hw.2.1, hsp.store.2.1.trans hw.2.2.1, hsp.store.2.2.trans hw.2.2.2⟩
    · refine (hsp.regs a hl fun hc => ha ?_).trans ?_
      · have hw : sealWords (s.tick now) tl.val = [PV_SEAL (s.pvName (tl.val / 2)) (tl.val % 2), PV_GSTAT (s.pvName (tl.val / 2))] := rfl
        rw [hw] at hc
        exact hc
      · rw [writeBank_tick]
        rfl
  · exact congrArg Host.Outcome.next ((if_pos (Bool.and_eq_true_iff.2 ⟨hpav, hcar⟩)).trans (commitSeal_noted himg hh))
  · have hrun : exec (.fenceTimeout now tl) s = .next ((s.tick now).commitEnd tl.val c 0 (((s.tick now).unmet c).getD 0xFF)) :=
      congrArg Host.Outcome.next (fenceTimeout_ends hcar hc)
    obtain ⟨hlive, hsp⟩ := commitEnd_spec (s := s.tick now) (k := tl.val) c 0 (((s.tick now).unmet c).getD 0xFF)
    exact ⟨_, hrun, hlive, hsp.store, hsp.regs⟩
  · obtain ⟨hq, hcode, hseal, htlc, -, -⟩ := sealCode_spec (s := u) (k := 2 * pv.val + b.val) 0x18
    rw [sealReg_unit] at hq hcode hseal
    exact ⟨_, (directSeal_runs hadm hw).trans (congrArg Host.Outcome.next (directSeal_live hl)), hcode, hseal, tlcAt_congr htlc _, hq⟩
  · obtain ⟨hsealed, hat, hcode, hmem, hstore⟩ := directSeal_seals hl hh he
    rw [sealReg_unit] at hcode
    exact ⟨_, directSeal_runs hadm hw, hsealed, hat.trans (admits_dtime hadm), hcode, hmem, hstore⟩
  · obtain ⟨hsealed, htlc, hcode, hseal, hq⟩ := directSeal_refuses hl he
    rw [sealReg_unit] at hcode hseal hq
    exact ⟨_, directSeal_runs hadm hw, hsealed, htlc, hcode, hseal, hq⟩

end Sys2Proof.Machine
end

section

namespace Sys2Proof.Machine

/-! ## Commit rings: starting, reading an entry and what the reads leave (R267, R268, R277, R301) -/

section

variable {s t u : State} {p r : Nat} {q n : Nat} {but more : List Nat}

/-! ### Reads keep reservations -/

/-- Registers and the records of queues alone change. -/
structure State.counts (s t : State) : Prop where
  same : ∃ rg sh, t = { s with regs := rg, shq := sh }

theorem counts_refl (s : State) : s.counts s := ⟨_, _, rfl⟩

theorem State.counts.trans (h : s.counts t) (k : t.counts u) : s.counts u := by
  obtain ⟨⟨_, _, rfl⟩⟩ := h
  obtain ⟨⟨_, _, rfl⟩⟩ := k
  exact ⟨_, _, rfl⟩

theorem counts_ite {c : Prop} [Decidable c] (h : s.counts t) (k : s.counts u) : s.counts (if c then t else u) := by
  split
  · exact h
  · exact k

theorem counts_put (a : Nat) (f : Fld) (v : Nat) : s.counts (s.put a f v) := ⟨_, _, rfl⟩

theorem counts_setShqAt (v : ShapeQ) : s.counts (s.setShqAt q v) := ⟨_, _, rfl⟩

theorem counts_qPark (e : Option Nat) : s.counts (s.qPark q e) := (counts_setShqAt _).trans (counts_put ..)

theorem counts_qRelease {time : Nat} {green : Bool} {w : QWait} {rest : List QWait} (hw : w.read = none) : s.counts (s.qRelease q time green w rest) := by
  unfold State.qRelease
  extract_lets h n d a b c
  rw [hw]
  exact ((counts_setShqAt _).trans (counts_put ..)).trans (counts_put ..)

/-- A request that reads nothing only counts. -/
theorem counts_qEnter {w : QWait} (hw : w.read = none) : s.counts (s.qEnter q w) := by
  have hserve (v : State) : v.counts (v.qServe q v.dtime [w]) := by
    unfold State.qServe
    refine counts_ite (counts_qPark _) (counts_ite ((counts_qRelease hw).trans (counts_qPark _))
      (counts_ite ((counts_qRelease hw).trans (counts_qPark _)) ?_))
    exact (counts_ite (counts_put ..) (counts_refl _)).trans (counts_qPark _)
  unfold State.qEnter
  exact counts_ite ((counts_setShqAt _).trans (hserve _)) (counts_setShqAt _)

theorem hubCharge_counts (m : Nat) : s.counts (s.hubCharge q m) := counts_ite (counts_qEnter rfl) (counts_refl _)

theorem State.counts.evAt (h : s.counts t) (p : Nat) : t.evAt p = s.evAt p := by
  obtain ⟨⟨_, _, rfl⟩⟩ := h
  rfl

theorem State.counts.flying (h : s.counts t) : t.flying = s.flying := by
  obtain ⟨⟨_, _, rfl⟩⟩ := h
  rfl

theorem hubCharge_precise (m : Nat) : s.traffic (s.hubCharge q m) [CA_Q_STAT q, CA_Q_CNT q] := traffic_ite (qEnter_plain rfl) (traffic_refl ..)

/-- Traffic that keeps every port's reservations. -/
structure State.asks (s t : State) (but : List Nat) : Prop where
  traffic : s.traffic t but
  reserved : ∀ p, (t.evAt p).reserved = (s.evAt p).reserved

theorem asks_refl (s : State) (but : List Nat) : s.asks s but := ⟨traffic_refl .., fun _ => rfl⟩

theorem State.asks.trans (h : s.asks t but) (k : t.asks u but) : s.asks u but :=
  ⟨h.traffic.trans k.traffic, fun p => (k.reserved p).trans (h.reserved p)⟩

theorem State.asks.mono (h : s.asks t but) (hm : ∀ a ∈ but, a ∈ more) : s.asks t more := ⟨h.traffic.mono hm, h.reserved⟩

theorem request_asks (write : Bool) (a m : Nat) (cls : MemClass) (deadline : Nat) (kind : ReadKind) :
    s.asks (s.request write a m cls deadline kind) but := by
  refine ⟨request_traffic .., fun p => ?_⟩
  unfold State.request
  split <;> rfl

theorem hubCharge_asks (m : Nat) : s.asks (s.hubCharge q m) [CA_Q_STAT q, CA_Q_CNT q] :=
  ⟨hubCharge_precise m, fun p => by rw [(hubCharge_counts (s := s) (q := q) m).evAt p]⟩

theorem toHost_reserved (m : HostMsg) (k : Nat) : ((s.toHost p m).evAt k).reserved = (s.evAt k).reserved := by
  unfold State.toHost
  rw [evAt_setEvAt]
  split
  · next h => rw [h]
  · rfl

theorem busIssue_asks (a m : Nat) (cls : MemClass) (deadline : Nat) (kind : ReadKind) :
    s.asks (s.busIssue a m cls deadline kind) windowWords := by
  refine ⟨busIssue_traffic .., fun k => ?_⟩
  unfold State.busIssue
  split
  · split
    · exact toHost_reserved ..
    · rfl
  · exact (request_asks (but := []) ..).reserved k

theorem busRead_asks (a m : Nat) (res : ReadRes) (host : List Byte) : s.asks (s.busRead a m res host).1 but := by
  refine ⟨busRead_traffic .., fun k => ?_⟩
  unfold State.busRead
  split
  · split <;> rfl
  · rfl

theorem hostCharge_asks (a m : Nat) : s.asks (s.hostCharge a m) controlWords := by
  refine ⟨hostCharge_traffic .., fun k => ?_⟩
  unfold State.hostCharge
  split
  · split
    · exact (hubCharge_asks _).reserved k
    · rfl
  · rfl

theorem unitIssue_asks (a m : Nat) (cls : MemClass) : s.asks (s.unitIssue a m cls) controlWords :=
  ((busIssue_asks ..).mono windowWords_control).trans (hostCharge_asks ..)

theorem tableReads_asks (is : List Nat) : s.asks (s.tableReads is) hubWords := by
  unfold State.tableReads
  induction is generalizing s with
  | nil => exact asks_refl ..
  | cons i is ih => exact ((request_asks ..).trans (hubCharge_asks 64)).trans ih

theorem busReads_asks (l : List (Nat × Nat)) :
    s.asks (l.foldl (fun s x => ((s.busIssue x.1 x.2 .guaranteed 0 .plain).busRead x.1 x.2 .ok []).1) s) controlWords := by
  induction l generalizing s with
  | nil => exact asks_refl ..
  | cons x l ih => exact (((busIssue_asks ..).mono windowWords_control).trans (busRead_asks ..)).trans ih

theorem State.asks.ringAt (h : s.asks t but) (k : Nat) : t.ringAt k = s.ringAt k := by
  unfold State.ringAt
  rw [h.traffic.same]

/-! ### A read through a window that can be sent -/

/-- The words that a read through port `p`'s window charges. -/
def windowCharge (p : Nat) : List Nat := [CA_Q_STAT (10 + p), CA_Q_CNT (10 + p)]

/-- A read is sent to the port's host. -/
def State.sent (s : State) (p o a m : Nat) : State := { s.toHost p (.read (s.hwHost p o) m) with flying := (a, m) :: s.flying }

theorem sent_asks (o a m : Nat) : s.asks (s.sent p o a m) but := ⟨(toHost_traffic ..).trans (traffic_flying _), fun _ => toHost_reserved ..⟩

/-- A read that is sent is answered. -/
theorem windowRead_answered {a o : Nat} {m : Nat} {cls : MemClass} (hw : windowOf a = some (p, o)) (hok : s.hwOk p o m = true) (host : List Byte) :
    s.asks ((s.unitIssue a m cls).busRead a m .ok host).1 (windowCharge p) ∧ ((s.unitIssue a m cls).busRead a m .ok host).2 = some (bytesAt host 0 m) := by
  have hissue : s.busIssue a m cls 0 .plain = s.sent p o a m := by
    unfold State.busIssue
    rw [hw]
    exact if_pos hok
  have hok' : (s.sent p o a m).hwOk p o m = true := hok
  have hcharge : s.unitIssue a m cls = (s.sent p o a m).hubCharge (10 + p) m := by
    unfold State.unitIssue State.hostCharge
    rw [hissue, hw]
    exact if_pos hok'
  have hfly : (s.unitIssue a m cls).flying.contains (a, m) = true := by
    rw [hcharge, (hubCharge_counts m).flying]
    exact List.contains_iff_mem.2 List.mem_cons_self
  have hasks : s.asks (s.unitIssue a m cls) (windowCharge p) := by
    rw [hcharge]
    exact (sent_asks ..).trans (hubCharge_asks m)
  refine ⟨hasks.trans (busRead_asks ..), ?_⟩
  unfold State.busRead
  rw [hw]
  dsimp only
  rw [hfly]
  rfl

theorem windowCharge_hub (hp : p < 4) : ∀ a ∈ windowCharge p, a ∈ hubQueueWords := by
  have hall : ∀ p : Fin 4, ∀ a ∈ windowCharge p.val, a ∈ hubQueueWords := by decide
  exact hall ⟨p, hp⟩

/-! ### Starting and stopping a ring -/

theorem State.ringStart_eq (hk : (s.ringAt (8 * p + r)).kept = none) : s.ringStart p r =
    ((s.put (HP_CR_CTRL p r) HP_CR_CTRL_EN 1).put (HP_CR_STAT p r) HP_CR_STAT_HALT 0).put (HP_CR_STAT p r) HP_CR_STAT_CAUSE 0 := by
  unfold State.ringStart
  extract_lets v
  have hv : (v.ringAt (8 * p + r)).kept = none := by
    have he : v.ringAt (8 * p + r) = s.ringAt (8 * p + r) := by
      unfold v State.ringAt
      rw [put_rings, put_rings, put_rings]
    rw [he]
    exact hk
  rw [hv]

theorem ctrl_ne_stat : HP_CR_CTRL p r ≠ HP_CR_STAT p r := by
  unfold HP_CR_CTRL HP_CR_STAT
  omega

theorem crCtrl_starts {src : Src} {w : Word} (hen : getField w HP_CR_CTRL_EN = 1) (hg : s.grantedW p 2 (8 * p + r) = true)
    (hoff : s.on (HP_CR_CTRL p r) HP_CR_CTRL_EN = false) (hlo : 4 ≤ getField w HP_CR_CTRL_LOG2) (hhi : getField w HP_CR_CTRL_LOG2 ≤ 12) :
    s.crCtrl src p r w = (s.put (HP_CR_CTRL p r) HP_CR_CTRL_LOG2 (getField w HP_CR_CTRL_LOG2)).ringStart p r := by
  have hl : (s.put (HP_CR_CTRL p r) HP_CR_CTRL_LOG2 (getField w HP_CR_CTRL_LOG2)).get (HP_CR_CTRL p r) HP_CR_CTRL_LOG2 = getField w HP_CR_CTRL_LOG2 :=
    (get_put_same _ _ _ _ (by decide)).trans (Nat.mod_eq_of_lt (Nat.lt_of_le_of_lt hhi (by decide)))
  unfold State.crCtrl
  dsimp only
  rw [hoff, hg, hen, if_neg (by decide), if_neg Bool.false_ne_true, if_neg (by decide), if_neg Bool.false_ne_true, hl, if_neg (by omega)]

theorem crCtrl_stops {src : Src} {w : Word} (hen : getField w HP_CR_CTRL_EN = 0) : s.crCtrl src p r w =
    (if s.on (HP_CR_CTRL p r) HP_CR_CTRL_EN then s else s.put (HP_CR_CTRL p r) HP_CR_CTRL_LOG2 (getField w HP_CR_CTRL_LOG2)).put
      (HP_CR_CTRL p r) HP_CR_CTRL_EN 0 := by
  unfold State.crCtrl
  dsimp only
  rw [hen, if_neg (by rintro h; exact absurd (Bool.and_eq_true_iff.1 h).1 (by decide)), if_pos (by decide)]

theorem ringStart_spec (hk : (s.ringAt (8 * p + r)).kept = none) : (s.ringStart p r).get (HP_CR_CTRL p r) HP_CR_CTRL_EN = 1 ∧
    (s.ringStart p r).get (HP_CR_CTRL p r) HP_CR_CTRL_LOG2 = s.get (HP_CR_CTRL p r) HP_CR_CTRL_LOG2 ∧ (s.ringStart p r).ringOn p r = true ∧
    (s.ringStart p r).rings = s.rings ∧ s.quiet (s.ringStart p r) [HP_CR_CTRL p r, HP_CR_STAT p r] := by
  have hen : (s.ringStart p r).get (HP_CR_CTRL p r) HP_CR_CTRL_EN = 1 := by
    rw [State.ringStart_eq hk, get_put_ne _ _ _ _ ctrl_ne_stat, get_put_ne _ _ _ _ ctrl_ne_stat, get_put_same _ _ _ _ (by decide)]
    rfl
  have hhalt : (s.ringStart p r).get (HP_CR_STAT p r) HP_CR_STAT_HALT = 0 := by
    rw [State.ringStart_eq hk, get_put_apart _ _ _ _ _ (by decide) (by decide), get_put_same _ _ _ _ (by decide)]
    rfl
  refine ⟨hen, ?_, ?_, ?_, ?_⟩
  · rw [State.ringStart_eq hk, get_put_ne _ _ _ _ ctrl_ne_stat, get_put_ne _ _ _ _ ctrl_ne_stat, get_put_apart _ _ _ _ _ (by decide) (by decide)]
  · unfold State.ringOn
    rw [on_of_get hen, on_of_get hhalt]
    rfl
  · rw [State.ringStart_eq hk, put_rings, put_rings, put_rings]
  · rw [State.ringStart_eq hk]
    exact (((quiet_refl s _).put _ _ (by simp)).put _ _ (by simp)).put _ _ (by simp)

/-! ### The end of an entry -/

theorem ringAdvance_cons : (s.ringAdvance p r).ringCons p r = (s.ringCons p r + 1) % 65536 := get_bumpMod_same _ _ _ _ (by decide)

/-- What is written when an entry was validated. -/
theorem ringDone_spec : (s.ringDone p r).ringCons p r = (s.ringCons p r + 1) % 65536 ∧
    (s.ringDone p r).rdN (HP_CR_NEXT_SEQ p r) = (s.rdN (HP_CR_NEXT_SEQ p r) + 1) % 2 ^ 32 ∧
    (s.ringDone p r).ringAt (8 * p + r) = { s.ringAt (8 * p + r) with cand := none } ∧
    s.quiet (s.ringDone p r) [HP_CR_CONS p r, HP_CR_NEXT_SEQ p r] ∧ (s.ringDone p r).tlc = s.tlc ∧ (s.ringDone p r).ev = s.ev := by
  have hne : HP_CR_CONS p r ≠ HP_CR_NEXT_SEQ p r := by unfold HP_CR_CONS HP_CR_NEXT_SEQ; omega
  unfold State.ringDone
  generalize hv : (s.ringAdvance p r).bumpMod (HP_CR_NEXT_SEQ p r) HP_CR_NEXT_SEQ_SEQ 1 = v
  have hcons : v.ringCons p r = (s.ringCons p r + 1) % 65536 := by
    rw [← hv]
    exact (get_bumpMod_ne _ _ _ _ hne).trans ringAdvance_cons
  have hseq : v.rdN (HP_CR_NEXT_SEQ p r) = (s.rdN (HP_CR_NEXT_SEQ p r) + 1) % 2 ^ 32 := by
    rw [← hv, rdN_eq_get, rdN_eq_get]
    refine (get_bumpMod_same _ _ _ _ (by decide)).trans ?_
    rw [show (s.ringAdvance p r).get (HP_CR_NEXT_SEQ p r) HP_CR_NEXT_SEQ_SEQ = s.get (HP_CR_NEXT_SEQ p r) ⟨0, 32⟩ from get_bumpMod_ne _ _ _ _ hne.symm]
    rfl
  have hrings : v.ringAt (8 * p + r) = s.ringAt (8 * p + r) := by
    rw [← hv]
    unfold State.ringAt State.ringAdvance
    rw [bumpMod_rings, bumpMod_rings]
  have htlc : v.tlc = s.tlc := by
    rw [← hv]
    exact (bumpMod_tlc ..).trans (bumpMod_tlc ..)
  have hev : v.ev = s.ev := by
    rw [← hv]
    exact (bumpMod_ev ..).trans (bumpMod_ev ..)
  have hq : s.quiet v [HP_CR_CONS p r, HP_CR_NEXT_SEQ p r] := by
    rw [← hv]
    exact ((quiet_refl s _).bumpMod _ _ (by simp)).bumpMod _ _ (by simp)
  obtain ⟨hat, hmod⟩ := ringMod_spec v p r fun q => { q with cand := none }
  refine ⟨hcons, hseq, ?_, hq.trans (hmod.mono (by simp)), htlc, hev⟩
  rw [hat, hrings]

/-- An entry that is refused: its event is posted in the port's reserved entry, and both counts advance. -/
theorem refuseEntry_spec (hr : r < 8) (d : Desc) (e : Refuse) : (s.refuseEntry p r d e).ringCons p r = (s.ringCons p r + 1) % 65536 ∧
    (s.refuseEntry p r d e).rdN (HP_CR_NEXT_SEQ p r) = (s.rdN (HP_CR_NEXT_SEQ p r) + 1) % 2 ^ 32 ∧
    (s.refuseEntry p r d e).ringAt (8 * p + r) = { s.ringAt (8 * p + r) with cand := none } ∧
    ((s.refuseEntry p r d e).evAt p).reserved = (s.evAt p).reserved - 1 ∧ (s.refuseEntry p r d e).tlc = s.tlc ∧
    s.quiet (s.refuseEntry p r d e) [HP_CR_CONS p r, HP_CR_NEXT_SEQ p r] := by
  have hport : (8 * p + r) / 8 = p := by omega
  have honly := postCommit_only (s := s) (8 * p + r) 0x21 0 d e.code e.step e.slot e.value
  have hregs : (s.postCommit (8 * p + r) 0x21 0 d e.code e.step e.slot e.value).regs = s.regs := postReserved_regs ..
  have hres : ((s.postCommit (8 * p + r) 0x21 0 d e.code e.step e.slot e.value).evAt p).reserved = (s.evAt p).reserved - 1 := by
    unfold State.postCommit
    rw [hport, postReserved_one]
  unfold State.refuseEntry
  generalize s.postCommit (8 * p + r) 0x21 0 d e.code e.step e.slot e.value = v at honly hregs hres ⊢
  obtain ⟨hcons, hseq, hat, hq, htlc, hev⟩ := ringDone_spec (s := v) (p := p) (r := r)
  have hget (a : Nat) (f : Fld) : v.get a f = s.get a f := by
    unfold State.get
    rw [rd_congr hregs]
  refine ⟨?_, ?_, ?_, ?_, htlc.trans (onlyEvents_tlc honly), ((quiet_refl s []).events honly |>.mono (by simp)).trans hq⟩
  · rw [hcons]
    unfold State.ringCons
    rw [hget]
  · rw [hseq, rdN_eq_get, rdN_eq_get, hget]
  · rw [hat]
    unfold State.ringAt
    rw [onlyEvents_rings honly]
  · refine Eq.trans ?_ hres
    unfold State.evAt
    rw [hev]

end

end Sys2Proof.Machine
end

section

namespace Sys2Proof.Machine

/-! ## Reading an entry and accepting a commit -/

section

variable {s t u x y : State} {p r o : Nat} {but : List Nat}

/-! ### Which words reads leave -/

/-- Of a host port's registers the traffic of reads writes HP_HW_STAT alone. -/
theorem port_not_control {a : Nat} (ha : a = 0xA00000 + p * 0x10000 + o) (ho : o < 0x10000) (hne : o ≠ 0x31C) : a ∉ controlWords := by
  intro hm
  rcases List.mem_append.1 hm with h | h
  · have hlow : ∀ b ∈ hubQueueWords, b < 0xA00000 := by decide
    have := hlow a h
    omega
  · obtain ⟨q, _, hq⟩ := List.mem_map.1 h
    unfold HP_HW_STAT at hq
    omega

theorem hubQueueWords_control : ∀ a ∈ hubQueueWords, a ∈ controlWords := fun _ ha => List.mem_append_left _ ha

theorem hubWords_queue : ∀ a ∈ hubWords, a ∈ hubQueueWords := by decide

theorem port_lost {a : Nat} (hp : p < 4) (ha : a = 0xA00000 + p * 0x10000 + o) (ho : o < 0x600) : lostCounter a = false :=
  lostCounter_eq_false fun q _ hc => by unfold HP_EV_STAT at hc; omega

theorem quiet_portGet (h : s.quiet t controlWords) (hp : p < 4) {a : Nat} (ha : a = 0xA00000 + p * 0x10000 + o) (ho : o < 0x600) (hne : o ≠ 0x31C)
    (f : Fld) : t.get a f = s.get a f := h.get (port_lost hp ha ho) (port_not_control ha (by omega) hne) f

theorem quiet_epoch (h : s.quiet t controlWords) : t.get (HP_EPOCH p) HP_EPOCH_EPOCH = s.get (HP_EPOCH p) HP_EPOCH_EPOCH :=
  h.get (lostCounter_page (by unfold HP_EPOCH; omega)) (port_not_control (p := p) (o := 0x620) (by unfold HP_EPOCH; omega) (by omega) (by omega)) _

theorem quiet_nextSeq (h : s.quiet t controlWords) (hp : p < 4) (hr : r < 8) : t.rdN (HP_CR_NEXT_SEQ p r) = s.rdN (HP_CR_NEXT_SEQ p r) := by
  rw [rdN_eq_get, rdN_eq_get]
  exact quiet_portGet (p := p) (o := 0x514 + r * 0x20) h hp (by unfold HP_CR_NEXT_SEQ; omega) (by omega) (by omega) _

theorem quiet_ringCons (h : s.quiet t controlWords) (hp : p < 4) (hr : r < 8) : t.ringCons p r = s.ringCons p r :=
  quiet_portGet (p := p) (o := 0x510 + r * 0x20) h hp (by unfold HP_CR_CONS; omega) (by omega) (by omega) _

theorem quiet_hwSize (h : s.quiet t controlWords) (hp : p < 4) : t.hwSize p = s.hwSize p := by
  unfold State.hwSize
  rw [quiet_portGet (p := p) (o := 0x318) h hp (by unfold HP_HW_SIZE; omega) (by omega) (by omega)]

/-! ### The descriptor -/

/-- Where the entry lies that a ring reads next, from the start of its port's window. -/
def State.entryAt0 (s : State) (p r : Nat) : Nat :=
  s.get (HP_CR_BASE_LO p r) HP_CR_BASE_LO_BASE * 4096 + s.get (HP_CR_BASE_HI p r) HP_CR_BASE_HI_BASE * 2 ^ 32 +
    64 * (s.ringCons p r % 2 ^ s.get (HP_CR_CTRL p r) HP_CR_CTRL_LOG2)

/-- An entry in the backlog of a port is reserved. -/
theorem reserve_some (h : x.reserve [p] = some y) : y = x.setEvAt p { x.evAt p with reserved := (x.evAt p).reserved + 1 } := by
  rw [reserve_one] at h
  split at h
  · exact (Option.some.inj h).symm
  · exact absurd h nofun

/-- What the reads of an entry leave: the port holds one entry of its backlog more in reserve. -/
structure State.entryReads (x v : State) (p : Nat) (but : List Nat) : Prop where
  quiet : x.quiet v but
  rings : v.rings = x.rings
  poison : v.poison = x.poison
  reserved : (v.evAt p).reserved = (x.evAt p).reserved + 1

theorem State.entryReads.asks (h : x.entryReads y p but) (k : y.asks t but) : x.entryReads t p but :=
  ⟨h.quiet.trans k.traffic.quiet, (congrArg State.rings k.traffic.same).trans h.rings, (congrArg State.poison k.traffic.same).trans h.poison,
    (k.reserved p).trans h.reserved⟩

theorem State.entryReads.mono {more : List Nat} (h : x.entryReads y p but) (hm : ∀ a ∈ but, a ∈ more) : x.entryReads y p more :=
  ⟨h.quiet.mono hm, h.rings, h.poison, h.reserved⟩

theorem State.entryReads.ringAt (h : x.entryReads y p but) (k : Nat) : y.ringAt k = x.ringAt k := by
  unfold State.ringAt
  rw [h.rings]

theorem turnTaken_evAt (k : Nat) : (s.turnTaken p r).evAt k = s.evAt k := rfl

theorem turnTaken_regs : (s.turnTaken p r).regs = s.regs := rfl

theorem turnTaken_rings : (s.turnTaken p r).rings = s.rings := rfl

theorem turnTaken_poison : (s.turnTaken p r).poison = s.poison := rfl

theorem turnTaken_quiet : s.quiet (s.turnTaken p r) [] := quiet_of_same turnTaken_regs rfl rfl rfl rfl rfl

/-- The turn is taken, with an entry of the port's backlog in reserve. -/
theorem turnTaken_reads (hy : x.reserve [p] = some y) : x.entryReads (y.turnTaken p r) p [] ∧ (y.turnTaken p r).regs = x.regs := by
  have hq : x.quiet y [] := (quiet_refl x []).events (reserve_only hy)
  have he := reserve_some hy
  have hev : (y.evAt p).reserved = (x.evAt p).reserved + 1 := by
    rw [he, evAt_setEvAt, if_pos rfl]
  have hregs : y.regs = x.regs := by rw [he, setEvAt_regs]
  have hrings : y.rings = x.rings := onlyEvents_rings (reserve_only hy)
  have hpoison : y.poison = x.poison := by rw [(reserve_only hy).1]
  refine ⟨⟨hq.trans turnTaken_quiet, turnTaken_rings.trans hrings, turnTaken_poison.trans hpoison, ?_⟩, turnTaken_regs.trans hregs⟩
  rw [turnTaken_evAt]
  exact hev

theorem hwOk_congr (h : t.regs = s.regs) (q a n : Nat) : t.hwOk q a n = s.hwOk q a n := by
  unfold State.hwOk State.hwSize State.linkUp State.on State.get
  rw [rd_congr h, rd_congr h]

/-- What a descriptor's read leaves, and what it answers. -/
theorem descRead_spec (hy : x.reserve [p] = some y) (hw : windowOf (hwBase p + o) = some (p, o)) (hok : x.hwOk p o 64 = true) {host : List Byte}
    {v : State} {got : Option (List Byte)}
    (hv : ((y.turnTaken p r).unitIssue (hwBase p + o) 64 .besteffort).busRead (hwBase p + o) 64 .ok host = (v, got)) :
    x.entryReads v p (windowCharge p) ∧ got = some (bytesAt host 0 64) := by
  obtain ⟨hturn, hregs⟩ := turnTaken_reads (r := r) hy
  obtain ⟨hasks, hans⟩ := windowRead_answered (cls := .besteffort) hw ((hwOk_congr hregs p o 64).trans hok) host
  rw [hv] at hasks hans
  exact ⟨(hturn.mono (by simp)).asks hasks, hans⟩

theorem entryAddr_reserved (hy : x.reserve [p] = some y) :
    hwBase p + (y.get (HP_CR_BASE_LO p r) HP_CR_BASE_LO_BASE * 4096 + y.get (HP_CR_BASE_HI p r) HP_CR_BASE_HI_BASE * 2 ^ 32) +
      64 * (y.ringCons p r % 2 ^ y.get (HP_CR_CTRL p r) HP_CR_CTRL_LOG2) = hwBase p + x.entryAt0 p r := by
  have hregs : y.regs = x.regs := turnTaken_regs.symm.trans (turnTaken_reads (r := r) hy).2
  have hget (a : Nat) (f : Fld) : y.get a f = x.get a f := by
    unfold State.get
    rw [rd_congr hregs]
  unfold State.entryAt0 State.ringCons
  rw [hget, hget, hget, hget, Nat.add_assoc]

/-- Reading an entry once its descriptor was answered. -/
theorem entryRead_answered (hy : x.reserve [p] = some y) {host raw : List Byte} {v : State}
    (hv : ((y.turnTaken p r).unitIssue (hwBase p + x.entryAt0 p r) 64 .besteffort).busRead (hwBase p + x.entryAt0 p r) 64 .ok host = (v, some raw))
    (bad : List Nat) : x.entryRead p r .ok host bad =
    (if (Desc.ofBytes raw).epoch ≠ v.get (HP_EPOCH p) HP_EPOCH_EPOCH then v.entryDrop p r HP_CR_STAT_STALE
     else if sdiff 32 (Desc.ofBytes raw).seq (v.rdN (HP_CR_NEXT_SEQ p r)) < 0 then v.entryDrop p r HP_CR_STAT_DUP
     else if (Desc.ofBytes raw).seq ≠ v.rdN (HP_CR_NEXT_SEQ p r) then (v.release [p]).ringHalt p r 2
     else v.recordsRead p r .ok host bad raw) := by
  have haddr := entryAddr_reserved (r := r) hy
  unfold State.entryRead
  obtain ⟨read, hread⟩ : ∃ f, f = State.busRead := ⟨_, rfl⟩
  rw [← hread] at hv ⊢
  rw [hy]
  dsimp only
  rw [haddr, hv]

/-- An entry dropped. -/
theorem entryDrop_spec {f : Fld} (hp : p < 4) (hr : r < 8) (hf : f = HP_CR_STAT_STALE ∨ f = HP_CR_STAT_DUP) : (s.entryDrop p r f).ringCons p r = (s.ringCons p r + 1) % 65536 ∧
    (s.entryDrop p r f).get (HP_CR_STAT p r) f = 1 ∧ (s.entryDrop p r f).rings = s.rings ∧
    (s.entryDrop p r f).rdN (HP_CR_NEXT_SEQ p r) = s.rdN (HP_CR_NEXT_SEQ p r) ∧ s.quiet (s.entryDrop p r f) [HP_CR_CONS p r, HP_CR_STAT p r] := by
  have hfld : f.lo + f.w ≤ 32 ∧ 1 % 2 ^ f.w = 1 := by rcases hf with rfl | rfl <;> decide
  have hne : HP_CR_CONS p r ≠ HP_CR_STAT p r ∧ HP_CR_NEXT_SEQ p r ≠ HP_CR_STAT p r ∧ HP_CR_NEXT_SEQ p r ≠ HP_CR_CONS p r := by
    unfold HP_CR_CONS HP_CR_STAT HP_CR_NEXT_SEQ
    omega
  have honly := release_only (s := s) [p]
  have hget {a : Nat} (hl : lostCounter a = false) (g : Fld) : (s.release [p]).get a g = s.get a g := by
    unfold State.get
    rw [honly.2 a hl]
  have hrings := onlyEvents_rings honly
  unfold State.entryDrop
  generalize s.release [p] = v at honly hget hrings ⊢
  refine ⟨?_, ?_, ?_, ?_, ?_⟩
  · refine (get_put_ne _ _ _ _ hne.1).trans ((get_bump_ne _ _ _ _ hne.1).trans (ringAdvance_cons.trans ?_))
    unfold State.ringCons
    rw [hget (port_lost (p := p) (o := 0x510 + r * 0x20) hp (by unfold HP_CR_CONS; omega) (by omega))]
  · exact (get_put_same _ _ _ _ hfld.1).trans hfld.2
  · exact (put_rings ..).trans ((bump_rings ..).trans ((bumpMod_rings ..).trans hrings))
  · rw [rdN_eq_get, rdN_eq_get]
    refine (get_put_ne _ _ _ _ hne.2.1).trans ((get_bump_ne _ _ _ _ hne.2.1).trans ((get_bumpMod_ne _ _ _ _ hne.2.2).trans ?_))
    exact hget (port_lost (p := p) (o := 0x514 + r * 0x20) hp (by unfold HP_CR_NEXT_SEQ; omega) (by omega)) _
  · exact ((((quiet_refl s _).events honly).bumpMod _ _ (by simp)).bump _ _ (by simp)).put _ _ (by simp)

/-! ### The records -/

theorem tableErrors_none {rs : List CRec} (h : ∀ i ∈ namedIndices rs, s.poisoned (64 * i) 64 = false) : s.tableErrors [] rs = s := by
  unfold State.tableErrors
  split
  · rfl
  · have hnil : ((namedIndices rs).filter fun i => ([] : List Nat).contains i || s.poisoned (64 * i) 64) = [] :=
      List.filter_eq_nil_iff.2 fun i hi => by rw [h i hi]; exact Bool.false_ne_true
    rw [hnil]
    rfl

/-- How many bytes of records a descriptor gives. -/
def recordBytes (d : Desc) : Nat := if 1 ≤ d.nrec ∧ d.nrec ≤ 13 then 96 * d.nrec else 0

theorem recordsRead_answered {host raw recs : List Byte} {bad : List Nat} {g : State × Option (List Byte)}
    (hsize : (Desc.ofBytes raw).records * 128 + recordBytes (Desc.ofBytes raw) ≤ s.hwSize p)
    (hg : (s.unitIssue (hwBase p + (Desc.ofBytes raw).records * 128) (recordBytes (Desc.ofBytes raw)) .besteffort).busRead
      (hwBase p + (Desc.ofBytes raw).records * 128) (recordBytes (Desc.ofBytes raw)) .ok (host.drop 64) = g) (hrecs : g.2 = some recs) :
    s.recordsRead p r .ok host bad raw = g.1.entryValidate p r bad raw recs (host.drop (64 + recordBytes (Desc.ofBytes raw))) := by
  have hg' : g = (g.1, some recs) := Prod.ext rfl hrecs
  rw [hg'] at hg
  unfold State.recordsRead
  extract_lets d n a
  have hn : n = recordBytes (Desc.ofBytes raw) := rfl
  have ha : a = hwBase p + (Desc.ofBytes raw).records * 128 := rfl
  have hd : d = Desc.ofBytes raw := rfl
  clear_value a n d
  rw [hd, hn, ha, if_neg (by omega), hg]

/-- The reads of validation: the table entries and the row indices. -/
def State.validateReads (s : State) (p : Nat) (raw recs : List Byte) : State :=
  ((s.tableReads (namedIndices ((Desc.ofBytes raw).recs recs))).indexReads p [] raw recs).foldl
    (fun s x => ((s.busIssue x.1 x.2 .guaranteed 0 .plain).busRead x.1 x.2 .ok []).1) (s.tableReads (namedIndices ((Desc.ofBytes raw).recs recs)))

theorem validateReads_asks (raw recs : List Byte) : s.asks (s.validateReads p raw recs) controlWords :=
  ((tableReads_asks _).mono fun a ha => hubQueueWords_control a (hubWords_queue a ha)).trans (busReads_asks _)

theorem entryValidate_eq {raw recs idx : List Byte} (hgood : ∀ i ∈ namedIndices ((Desc.ofBytes raw).recs recs), s.poisoned (64 * i) 64 = false) :
    s.entryValidate p r [] raw recs idx =
      match (s.validateReads p raw recs).validate p r [] raw recs idx with
      | .inl e => (if e.step = 6 then (s.validateReads p raw recs).caseDone (Desc.ofBytes raw).tl 0x14 e.value else s.validateReads p raw recs).refuseEntry p r
          (Desc.ofBytes raw) e
      | .inr c => (s.validateReads p raw recs).ringMod p r fun q => { q with cand := some c } := by
  have hpoison : (s.tableReads (namedIndices ((Desc.ofBytes raw).recs recs))).poison = s.poison := by
    rw [(tableReads_words (s := s) (namedIndices ((Desc.ofBytes raw).recs recs))).same]
  have hnone : (s.tableReads (namedIndices ((Desc.ofBytes raw).recs recs))).tableErrors [] ((Desc.ofBytes raw).recs recs) =
      s.tableReads (namedIndices ((Desc.ofBytes raw).recs recs)) :=
    tableErrors_none fun i hi => by
      unfold State.poisoned
      rw [hpoison]
      exact hgood i hi
  unfold State.entryValidate
  dsimp only
  rw [hnone]
  rfl

end

end Sys2Proof.Machine
end

section

namespace Sys2Proof.Machine

/-! ## Accepting a commit (R280, R283) -/

section

variable {s t u : State} {p r k : Nat}

theorem showPend_state : ∃ rg, s.showPend k = { s with regs := rg } := ⟨_, rfl⟩

theorem showTotals_state (a : AdmTotals) : ∃ rg, s.showTotals a = { s with regs := rg } := ⟨_, rfl⟩

/-- A case that is stored takes registers and the record of modes. -/
theorem storeCase_state (a : AdmResult) (order : Option Nat) : ∃ ad rg, s.storeCase a order = { s with adm := ad, regs := rg } := by
  unfold State.storeCase
  extract_lets q v w
  have hv : ∃ ad, v = { s with adm := ad } := by
    unfold v
    split
    · exact ⟨_, rfl⟩
    · exact ⟨_, rfl⟩
  have hw : ∃ rg, w = { v with regs := rg } := by
    obtain ⟨rg, h⟩ := showTotals_state (s := (v.wrN (AD_TL_RATE a.tl) (sat32 a.rate)).wrN (AD_TL_RES a.tl) (sat32 a.res)) a.tot
    exact ⟨rg, h⟩
  obtain ⟨ad, hv⟩ := hv
  obtain ⟨rg, hw⟩ := hw
  obtain ⟨rg', hp⟩ := showPend_state (s := w) (k := a.tl)
  rw [hp, hw, hv]
  exact ⟨_, _, rfl⟩

theorem caseDone_state (code short : Nat) : ∃ rg, s.caseDone k code short = { s with regs := rg } := by
  unfold State.caseDone
  extract_lets v
  have hv : ∃ rg, v = { s with regs := rg } := ⟨_, rfl⟩
  obtain ⟨rg, hv⟩ := hv
  rw [hv]
  split
  · exact ⟨_, rfl⟩
  · exact ⟨_, rfl⟩

theorem caseDone_code (code short : Nat) : (s.caseDone k code short).get AD_LAST AD_LAST_CODE = code % 256 := by
  unfold State.caseDone
  extract_lets v
  have hv : v.get AD_LAST AD_LAST_CODE = code % 256 := by
    unfold v
    rw [get_put_apart _ _ _ _ _ (by decide) (by decide), get_put_apart _ _ _ _ _ (by decide) (by decide)]
    exact get_put_same _ _ _ _ (by decide)
  clear_value v
  split
  · exact (get_bump_ne _ _ _ _ (by decide)).trans ((get_wrN_ne _ _ _ (by decide)).trans hv)
  · exact (get_bump_ne _ _ _ _ (by decide)).trans hv

/-- The mode that admission decides is that of the timeline asked for. -/
theorem stepAdmit_tl {cand : BankImage} {a : AdmResult} (h : s.stepAdmit k cand = .inl a) : a.tl = k := by
  unfold State.stepAdmit State.decideMode at h
  extract_lets try_ off on at h
  split at h
  · exact absurd h Sum.inr_ne_inl
  · split at h
    · split at h
      · rw [← Sum.inl.inj h]
      · rw [← Sum.inl.inj h]
    · rw [← Sum.inl.inj h]

theorem markUses_state (hs : List Nat) : ∃ us, hs.foldl (fun s h => s.markUse (handleIndex h)) s = { s with used := us } := by
  refine foldl_keeps (P := fun v => ∃ us, v = { s with used := us }) (fun v h _ hv => ?_) ⟨_, rfl⟩
  obtain ⟨us, rfl⟩ := hv
  unfold State.markUse
  split <;> exact ⟨_, rfl⟩

/-- The commit that a candidate becomes. -/
def acceptedCommit (s : State) (p r : Nat) (c : Candidate) (adm : AdmResult) : Commit :=
  let past := targetPast c.desc (s.tlcAt c.desc.tl).opened
  { order := (s.tlcAt c.desc.tl).order, ring := 8 * p + r, desc := c.desc, recs := c.recs, state := .waiting, status := c.status, at_ := s.dtime,
    unit := (s.tlcAt c.desc.tl).tail, units := journalUnits c, missed := past, targetOk := past || c.desc.tkind == 0, ents := c.ents, buds := c.buds,
    taps := c.taps, mode := adm.mode }

/-- The timeline's record with the commit behind the accepted ones. -/
def acceptedRecord (s : State) (c : Candidate) (m : Commit) : TlCommits :=
  { s.tlcAt c.desc.tl with
    live := (s.tlcAt c.desc.tl).live ++ [m], order := ((s.tlcAt c.desc.tl).order + 1) % 2 ^ 32, tail := ((s.tlcAt c.desc.tl).tail + m.units) % 8192 }

/-- The commit is entered, and written to the journal. -/
def State.entered (s : State) (c : Candidate) (m : Commit) : State :=
  (s.setTlcAt c.desc.tl (acceptedRecord s c m)).journalWrite c.desc.tl m 1 0

/-- Its case is stored and its surfaces are in use. -/
def State.admitted (s : State) (c : Candidate) (m : Commit) (adm : AdmResult) : State :=
  (m.handles.filter fun h => h != noHandle).foldl (fun s h => s.markUse (handleIndex h))
    (((s.entered c m).storeCase adm (some m.order)).caseDone c.desc.tl c.status 0)

/-- Its event is posted, and the ring goes on. -/
def State.accepted (s : State) (p r : Nat) (c : Candidate) (m : Commit) : State :=
  (s.postCommit (8 * p + r) 0x20 0 c.desc c.status 0 0xFF m.order).ringDone p r

theorem commitAccept_eq (c : Candidate) (adm : AdmResult) : s.commitAccept p r c adm =
    ((((s.admitted c (acceptedCommit s p r c adm) adm).accepted p r c (acceptedCommit s p r c adm)).reserve [p]).getD
      ((s.admitted c (acceptedCommit s p r c adm) adm).accepted p r c (acceptedCommit s p r c adm))) := rfl

theorem entered_spec (c : Candidate) (m : Commit) : (s.entered c m).tlcAt c.desc.tl = acceptedRecord s c m ∧ (s.entered c m).rings = s.rings ∧
    s.spares (s.entered c m) hubWords := by
  obtain ⟨n, h⟩ := journalWrite_moves (s := s.setTlcAt c.desc.tl (acceptedRecord s c m)) (k := c.desc.tl) m 1 0
  unfold State.entered
  generalize (s.setTlcAt c.desc.tl (acceptedRecord s c m)).journalWrite c.desc.tl m 1 0 = v at h ⊢
  refine ⟨?_, ?_, (setTlcAt_quiet _).spares.trans h.spares⟩
  · rw [tlcAt_congr (show v.tlc = (s.setTlcAt c.desc.tl (acceptedRecord s c m)).tlc by rw [h.same]), tlcAt_setTlcAt, if_pos rfl]
  · rw [show v.rings = (s.setTlcAt c.desc.tl (acceptedRecord s c m)).rings by rw [h.same]]
    rfl

theorem caseWords_low {a : Nat} (hk : k < 16) (h : a ∈ caseWords k) : a < 0x501000 := by
  simp only [caseWords, AD_TL_RATE, AD_TL_RES, AD_TL_MODE, AD_SVC, AD_RESV, AD_DEM, AD_ODEM, AD_LAST, AD_SHORT, AD_REF_CNT, AD_ACC_CNT,
    List.mem_cons, List.not_mem_nil, or_false] at h
  omega

theorem admitted_spec (c : Candidate) (m : Commit) (adm : AdmResult) (htl : c.desc.tl < 16) (ha : adm.tl = c.desc.tl) :
    (s.admitted c m adm).tlcAt c.desc.tl = acceptedRecord s c m ∧ (s.admitted c m adm).rings = s.rings ∧
    (s.admitted c m adm).get AD_LAST AD_LAST_CODE = c.status % 256 ∧
    (∀ a, 0xA00000 ≤ a → lostCounter a = false → (s.admitted c m adm).rd a = s.rd a) := by
  obtain ⟨htlc, hrings, hent⟩ := entered_spec (s := s) c m
  unfold State.admitted
  generalize s.entered c m = v at htlc hrings hent ⊢
  obtain ⟨ad, rg, hstore⟩ := storeCase_state (s := v) adm (some m.order)
  have hstill := still_storeCase (s := v) adm (some m.order)
  generalize v.storeCase adm (some m.order) = w at hstore hstill ⊢
  obtain ⟨rg', hcase⟩ := caseDone_state (s := w) (k := c.desc.tl) c.status 0
  have hstill' := still_caseDone (s := w) c.desc.tl c.status 0
  have hcode := caseDone_code (s := w) (k := c.desc.tl) c.status 0
  generalize w.caseDone c.desc.tl c.status 0 = x at hcase hstill' hcode ⊢
  obtain ⟨us, hmark⟩ := markUses_state (s := x) (m.handles.filter fun h => h != noHandle)
  rw [hmark]
  have hxtlc : x.tlc = v.tlc := by rw [hcase, hstore]
  have hxrings : x.rings = v.rings := by rw [hcase, hstore]
  have hrd : ∀ a, 0xA00000 ≤ a → lostCounter a = false → x.rd a = s.rd a := by
    intro a hlo hl
    have h1 : a ∉ caseWords c.desc.tl := fun hc => by have := caseWords_low htl hc; omega
    have h2 : a ∉ caseWords adm.tl := ha ▸ h1
    have h3 : a ∉ hubWords := fun hc => by
      have hall : ∀ b ∈ hubWords, b < 0xA00000 := by decide
      have := hall a hc
      omega
    exact (hstill'.quiet.2.2 a hl h1).trans ((hstill.quiet.2.2 a hl h2).trans (hent.regs a hl h3))
  refine ⟨(tlcAt_congr hxtlc _).trans htlc, hxrings.trans hrings, hcode, hrd⟩

theorem commitAccept_spec (c : Candidate) (adm : AdmResult) (hp : p < 4) (hr : r < 8) (htl : c.desc.tl < 16) (ha : adm.tl = c.desc.tl) :
    (s.commitAccept p r c adm).tlcAt c.desc.tl = acceptedRecord s c (acceptedCommit s p r c adm) ∧
    (s.commitAccept p r c adm).ringCons p r = (s.ringCons p r + 1) % 65536 ∧
    (s.commitAccept p r c adm).rdN (HP_CR_NEXT_SEQ p r) = (s.rdN (HP_CR_NEXT_SEQ p r) + 1) % 2 ^ 32 ∧
    (s.commitAccept p r c adm).get AD_LAST AD_LAST_CODE = c.status % 256 ∧
    (s.commitAccept p r c adm).ringAt (8 * p + r) = { s.ringAt (8 * p + r) with cand := none } := by
  rw [commitAccept_eq]
  generalize acceptedCommit s p r c adm = m
  obtain ⟨htlc, hrings, hcode, hrd⟩ := admitted_spec (s := s) c m adm htl ha
  generalize s.admitted c m adm = v at htlc hrings hcode hrd ⊢
  have hpost := postCommit_only (s := v) (8 * p + r) 0x20 0 c.desc c.status 0 0xFF m.order
  have hpregs : (v.postCommit (8 * p + r) 0x20 0 c.desc c.status 0 0xFF m.order).regs = v.regs := postReserved_regs ..
  unfold State.accepted
  generalize v.postCommit (8 * p + r) 0x20 0 c.desc c.status 0 0xFF m.order = w at hpost hpregs ⊢
  obtain ⟨hcons, hseq, hat, hq, hdtlc, -⟩ := ringDone_spec (s := w) (p := p) (r := r)
  generalize w.ringDone p r = x at hcons hseq hat hq hdtlc ⊢
  have hlast : x.get AD_LAST AD_LAST_CODE = w.get AD_LAST AD_LAST_CODE :=
    hq.get (lostCounter_low (by decide)) (by unfold AD_LAST HP_CR_CONS HP_CR_NEXT_SEQ; simp only [List.mem_cons, List.not_mem_nil, or_false]; omega) _
  have hwget (a : Nat) (f : Fld) : w.get a f = v.get a f := by unfold State.get; rw [rd_congr hpregs]
  have hx : x.tlcAt c.desc.tl = acceptedRecord s c m ∧ x.ringCons p r = (s.ringCons p r + 1) % 65536 ∧
      x.rdN (HP_CR_NEXT_SEQ p r) = (s.rdN (HP_CR_NEXT_SEQ p r) + 1) % 2 ^ 32 ∧ x.get AD_LAST AD_LAST_CODE = c.status % 256 ∧
      x.ringAt (8 * p + r) = { s.ringAt (8 * p + r) with cand := none } := by
    have hvget {a : Nat} (h : 0xA00000 ≤ a) (hl : lostCounter a = false) (f : Fld) : v.get a f = s.get a f := by
      unfold State.get
      rw [hrd a h hl]
    have hc : HP_CR_CONS p r = 0xA00000 + p * 0x10000 + (0x510 + r * 0x20) := by unfold HP_CR_CONS; omega
    have hn : HP_CR_NEXT_SEQ p r = 0xA00000 + p * 0x10000 + (0x514 + r * 0x20) := by unfold HP_CR_NEXT_SEQ; omega
    refine ⟨?_, ?_, ?_, ?_, ?_⟩
    · exact (tlcAt_congr (hdtlc.trans (onlyEvents_tlc hpost)) _).trans htlc
    · rw [hcons]
      unfold State.ringCons
      rw [hwget, hvget (by omega) (port_lost hp hc (by omega))]
    · rw [hseq, rdN_eq_get, rdN_eq_get, hwget, hvget (by omega) (port_lost hp hn (by omega))]
    · exact hlast.trans ((hwget ..).trans hcode)
    · rw [hat]
      unfold State.ringAt
      rw [onlyEvents_rings hpost, hrings]
  clear hcons hseq hat hq hdtlc hlast
  cases hres : x.reserve [p] with
  | none => exact hx
  | some y =>
    have honly := reserve_only hres
    have hregs : y.regs = x.regs := by rw [reserve_some hres, setEvAt_regs]
    have hget (a : Nat) (f : Fld) : y.get a f = x.get a f := by unfold State.get; rw [rd_congr hregs]
    obtain ⟨h1, h2, h3, h4, h5⟩ := hx
    refine ⟨(tlcAt_congr (onlyEvents_tlc honly) _).trans h1, (hget _ _).trans h2, ?_, (hget _ _).trans h4, ?_⟩
    · rw [rdN_eq_get, Option.getD_some, hget, ← rdN_eq_get]
      exact h3
    · rw [Option.getD_some]
      unfold State.ringAt at h5 ⊢
      rw [onlyEvents_rings honly]
      exact h5

end

end Sys2Proof.Machine
end

section

namespace Sys2Proof.Machine

/-! ## Commit rings complete (O17) -/

section

variable {s u x y : State} {p : Fin 4} {r : Fin 8} {w : Word} {now : Nat}

/-- A doorbell that is let through waits or acts. -/
theorem commitDoorbell_runs {src : Src} {value : Nat} (hadm : (s.tick now).admits src (HP_CR_DB p.val r.val) value = some (u, w)) :
    exec (.commitDoorbell now src p r value) s =
      .next (if u.bellWaits src (HP_CR_DB p.val r.val) then { u with bells := u.bells ++ [⟨src, HP_CR_DB p.val r.val, w.toNat⟩] } else u.ringBell p.val r.val w) :=
  congrArg Host.Outcome.next (guarded_fst_of_admits hadm fun s w => s.crDb src p.val r.val w)

theorem commitDoorbell_acts {src : Src} {value : Nat} (hadm : (s.tick now).admits src (HP_CR_DB p.val r.val) value = some (u, w))
    (hw : u.bellWaits src (HP_CR_DB p.val r.val) = false) : exec (.commitDoorbell now src p r value) s = .next (u.ringBell p.val r.val w) := by
  rw [commitDoorbell_runs hadm, if_neg (by rw [hw]; exact Bool.false_ne_true)]

theorem crEnable_runs {src : Src} {value : Nat} (hadm : (s.tick now).admits src (HP_CR_CTRL p.val r.val) value = some (u, w)) :
    exec (.crEnable now src p r value) s = .next (u.crCtrl src p.val r.val w) :=
  congrArg Host.Outcome.next (guarded_fst_of_admits hadm fun s w => s.crCtrl src p.val r.val w)

theorem belled_ring (k : Nat) : (u.belled p r w).ringAt k = u.ringAt k := ringAt_wr ..

/-- EN 0 stops the ring. -/
theorem crCtrl_stopped {src : Src} (hen : getField w HP_CR_CTRL_EN = 0) : (u.crCtrl src p.val r.val w).ringOn p.val r.val = false ∧
    (u.crCtrl src p.val r.val w).rings = u.rings ∧ u.quiet (u.crCtrl src p.val r.val w) [HP_CR_CTRL p.val r.val] := by
  rw [crCtrl_stops hen]
  have hkeep : (if u.on (HP_CR_CTRL p.val r.val) HP_CR_CTRL_EN then u
        else u.put (HP_CR_CTRL p.val r.val) HP_CR_CTRL_LOG2 (getField w HP_CR_CTRL_LOG2)).rings = u.rings ∧
      u.quiet (if u.on (HP_CR_CTRL p.val r.val) HP_CR_CTRL_EN then u
        else u.put (HP_CR_CTRL p.val r.val) HP_CR_CTRL_LOG2 (getField w HP_CR_CTRL_LOG2)) [HP_CR_CTRL p.val r.val] := by
    split
    · exact ⟨rfl, quiet_refl u _⟩
    · exact ⟨put_rings .., (quiet_refl u _).put _ _ (by simp)⟩
  generalize (if u.on (HP_CR_CTRL p.val r.val) HP_CR_CTRL_EN then u
    else u.put (HP_CR_CTRL p.val r.val) HP_CR_CTRL_LOG2 (getField w HP_CR_CTRL_LOG2)) = v at hkeep ⊢
  obtain ⟨hrings, hq⟩ := hkeep
  have hoff : (v.put (HP_CR_CTRL p.val r.val) HP_CR_CTRL_EN 0).get (HP_CR_CTRL p.val r.val) HP_CR_CTRL_EN = 0 :=
    get_put_same _ _ _ _ (by decide)
  refine ⟨?_, (put_rings ..).trans hrings, hq.put _ _ (by simp)⟩
  unfold State.ringOn
  rw [on_of_get hoff]
  rfl

/-! ### Reading an entry -/

/-- The validator's turn on a ring reads its entry. -/
theorem commitEntryRead_runs {host : List Byte} (hfree : (s.tick now).validatorFree = true)
    (hturn : (s.tick now).validatorTurn = some (p.val, r.val)) :
    exec (.commitEntryRead now p r .ok host []) s = .next ((s.tick now).entryRead p.val r.val .ok host []) := by
  exact congrArg Host.Outcome.next (if_pos (Bool.and_eq_true_iff.2 ⟨hfree, beq_iff_eq.2 hturn⟩))

/-- An entry of another epoch or already taken is dropped. -/
theorem entryRead_drops {host : List Byte} {v : State} {f : Fld} (hy : x.reserve [p.val] = some y)
    (hreads : x.entryReads v p.val (windowCharge p.val))
    (hv : ((y.turnTaken p.val r.val).unitIssue (hwBase p.val + x.entryAt0 p.val r.val) 64 .besteffort).busRead
      (hwBase p.val + x.entryAt0 p.val r.val) 64 .ok host = (v, some (bytesAt host 0 64)))
    (hf : ((Desc.ofBytes (bytesAt host 0 64)).epoch ≠ x.get (HP_EPOCH p.val) HP_EPOCH_EPOCH ∧ f = HP_CR_STAT_STALE) ∨
      ((Desc.ofBytes (bytesAt host 0 64)).epoch = x.get (HP_EPOCH p.val) HP_EPOCH_EPOCH ∧
        sdiff 32 (Desc.ofBytes (bytesAt host 0 64)).seq (x.rdN (HP_CR_NEXT_SEQ p.val r.val)) < 0 ∧ f = HP_CR_STAT_DUP)) :
    x.entryRead p.val r.val .ok host [] = v.entryDrop p.val r.val f := by
  have hq := hreads.quiet.mono fun a ha => hubQueueWords_control a (windowCharge_hub p.isLt a ha)
  rw [entryRead_answered hy hv, quiet_epoch hq, quiet_nextSeq hq p.isLt r.isLt]
  rcases hf with ⟨he, rfl⟩ | ⟨he, hs, rfl⟩
  · rw [if_pos he]
  · rw [if_neg (not_not_intro he), if_pos hs]

theorem sdiff_self (n : Nat) : sdiff 32 n n = 0 := by
  unfold sdiff
  rw [Nat.add_sub_cancel_left]
  rfl

/-- An entry of this epoch whose turn it is goes on to its records. -/
theorem entryRead_goesOn {host : List Byte} {v : State} (hy : x.reserve [p.val] = some y) (hreads : x.entryReads v p.val (windowCharge p.val))
    (hv : ((y.turnTaken p.val r.val).unitIssue (hwBase p.val + x.entryAt0 p.val r.val) 64 .besteffort).busRead
      (hwBase p.val + x.entryAt0 p.val r.val) 64 .ok host = (v, some (bytesAt host 0 64)))
    (he : (Desc.ofBytes (bytesAt host 0 64)).epoch = x.get (HP_EPOCH p.val) HP_EPOCH_EPOCH)
    (hs : (Desc.ofBytes (bytesAt host 0 64)).seq = x.rdN (HP_CR_NEXT_SEQ p.val r.val)) :
    x.entryRead p.val r.val .ok host [] = v.recordsRead p.val r.val .ok host [] (bytesAt host 0 64) := by
  have hq := hreads.quiet.mono fun a ha => hubQueueWords_control a (windowCharge_hub p.isLt a ha)
  have hzero : ¬ sdiff 32 (Desc.ofBytes (bytesAt host 0 64)).seq (x.rdN (HP_CR_NEXT_SEQ p.val r.val)) < 0 := by
    rw [hs]
    rw [sdiff_self]
    decide
  rw [entryRead_answered hy hv, quiet_epoch hq, quiet_nextSeq hq p.isLt r.isLt, if_neg (not_not_intro he), if_neg hzero, if_neg (not_not_intro hs)]

/-- What the words of a window error and of the hub's own queues are called in the statement. -/
theorem controlWords_perm : ∀ a ∈ controlWords, a ∈ allPorts.map HP_HW_STAT ++ hubQueueWords := fun _ ha =>
  List.mem_append.2 ((List.mem_append.1 ha).symm)

/-- Validation that passes makes the entry the ring's candidate. -/
theorem validated_candidate {v : State} (c : Candidate) (h : x.entryReads v p.val controlWords) :
    (v.ringMod p.val r.val fun q => { q with cand := some c }).ringAt (8 * p.val + r.val) = { x.ringAt (8 * p.val + r.val) with cand := some c } ∧
    x.quiet (v.ringMod p.val r.val fun q => { q with cand := some c }) (allPorts.map HP_HW_STAT ++ hubQueueWords) := by
  obtain ⟨hat, hq⟩ := ringMod_spec v p.val r.val fun q => { q with cand := some c }
  refine ⟨?_, (h.quiet.mono controlWords_perm).trans (hq.mono (by simp))⟩
  rw [hat, h.ringAt]

/-- An entry that validation refuses. -/
theorem validated_refused {v : State} (d : Desc) (e : Refuse) (h : x.entryReads v p.val controlWords) :
    let t := (if e.step = 6 then v.caseDone d.tl 0x14 e.value else v).refuseEntry p.val r.val d e
    t.ringCons p.val r.val = (x.ringCons p.val r.val + 1) % 65536 ∧
    t.rdN (HP_CR_NEXT_SEQ p.val r.val) = (x.rdN (HP_CR_NEXT_SEQ p.val r.val) + 1) % 2 ^ 32 ∧
    (t.evAt p.val).reserved = (x.evAt p.val).reserved ∧ (e.step = 6 → t.get AD_LAST AD_LAST_CODE = 0x14) ∧
    x.quiet t ([HP_CR_CONS p.val r.val, HP_CR_NEXT_SEQ p.val r.val] ++ (if e.step = 6 then [AD_LAST, AD_SHORT, AD_REF_CNT] else []) ++
      (allPorts.map HP_HW_STAT ++ hubQueueWords)) := by
  intro t
  have hcase : (if e.step = 6 then v.caseDone d.tl 0x14 e.value else v).ev = v.ev ∧
      v.quiet (if e.step = 6 then v.caseDone d.tl 0x14 e.value else v) (if e.step = 6 then refusedWords else []) ∧
      (e.step = 6 → (if e.step = 6 then v.caseDone d.tl 0x14 e.value else v).get AD_LAST AD_LAST_CODE = 0x14) := by
    by_cases h6 : e.step = 6
    · rw [if_pos h6, if_pos h6]
      refine ⟨?_, caseDone_refused _, fun _ => caseDone_code ..⟩
      obtain ⟨rg, hc⟩ := caseDone_state (s := v) (k := d.tl) 0x14 e.value
      rw [hc]
    · rw [if_neg h6, if_neg h6]
      exact ⟨rfl, quiet_refl v _, fun h => absurd h h6⟩
  have hlow : ∀ a ∈ (if e.step = 6 then refusedWords else []), a < 0xA00000 := by
    split
    · unfold refusedWords; decide
    · exact fun a ha => absurd ha List.not_mem_nil
  have ht : t = (if e.step = 6 then v.caseDone d.tl 0x14 e.value else v).refuseEntry p.val r.val d e := rfl
  clear_value t
  generalize (if e.step = 6 then v.caseDone d.tl 0x14 e.value else v) = w at hcase ht
  obtain ⟨hev, hq, hcode⟩ := hcase
  obtain ⟨hcons, hseq, -, hres, -, hrq⟩ := refuseEntry_spec (s := w) (p := p.val) (r := r.val) r.isLt d e
  rw [← ht] at hcons hseq hres hrq
  have hc : HP_CR_CONS p.val r.val = 0xA00000 + p.val * 0x10000 + (0x510 + r.val * 0x20) := by unfold HP_CR_CONS; omega
  have hn : HP_CR_NEXT_SEQ p.val r.val = 0xA00000 + p.val * 0x10000 + (0x514 + r.val * 0x20) := by unfold HP_CR_NEXT_SEQ; omega
  have hr := r.isLt
  have hget {a o : Nat} (ha : a = 0xA00000 + p.val * 0x10000 + o) (ho : o < 0x600) (f : Fld) : w.get a f = v.get a f :=
    hq.get (port_lost p.isLt ha ho) (fun hm => by have := hlow a hm; omega) f
  refine ⟨?_, ?_, ?_, fun h6 => ?_, ?_⟩
  · rw [hcons, ← quiet_ringCons h.quiet p.isLt r.isLt]
    unfold State.ringCons
    rw [hget hc (by omega)]
  · rw [hseq, ← quiet_nextSeq h.quiet p.isLt r.isLt, rdN_eq_get, rdN_eq_get, hget hn (by omega)]
  · have hw : w.evAt p.val = v.evAt p.val := by unfold State.evAt; rw [hev]
    rw [hres, hw, h.reserved]
    omega
  · refine (hrq.get (lostCounter_low (by decide)) ?_ _).trans (hcode h6)
    unfold AD_LAST
    simp only [List.mem_cons, List.not_mem_nil, or_false]
    omega
  · refine ((h.quiet.mono fun a ha => ?_).trans (hq.mono fun a ha => ?_)).trans (hrq.mono fun a ha => ?_)
    · exact List.mem_append_right _ (controlWords_perm a ha)
    · exact List.mem_append_left _ (List.mem_append_right _ ha)
    · exact List.mem_append_left _ (List.mem_append_left _ ha)

theorem tick_ringCons : (s.tick now).ringCons p.val r.val = s.ringCons p.val r.val := rfl

theorem tick_rdN (a : Nat) : (s.tick now).rdN a = s.rdN a := rfl

theorem tick_ringAt (k : Nat) : (s.tick now).ringAt k = s.ringAt k := rfl

theorem tick_reserved : ((s.tick now).evAt p.val).reserved = (s.evAt p.val).reserved := rfl

/-- Reading an entry, whatever state its descriptor's read and its records' read leave. -/
theorem entryRead_completes {host : List Byte} {v : State} {got : Option (List Byte)} {g : State × Option (List Byte)}
    (hfree : (s.tick now).validatorFree = true) (hturn : (s.tick now).validatorTurn = some (p.val, r.val))
    (hy : (s.tick now).reserve [p.val] = some y)
    (hw : windowOf (hwBase p.val + (s.tick now).entryAt0 p.val r.val) = some (p.val, (s.tick now).entryAt0 p.val r.val))
    (hok : (s.tick now).hwOk p.val ((s.tick now).entryAt0 p.val r.val) 64 = true)
    (hv : ((y.turnTaken p.val r.val).unitIssue (hwBase p.val + (s.tick now).entryAt0 p.val r.val) 64 .besteffort).busRead
      (hwBase p.val + (s.tick now).entryAt0 p.val r.val) 64 .ok host = (v, got))
    (hg : (v.unitIssue (hwBase p.val + (Desc.ofBytes (bytesAt host 0 64)).records * 128) (recordBytes (Desc.ofBytes (bytesAt host 0 64))) .besteffort).busRead
      (hwBase p.val + (Desc.ofBytes (bytesAt host 0 64)).records * 128) (recordBytes (Desc.ofBytes (bytesAt host 0 64))) .ok (host.drop 64) = g) :
    (∀ f, ((Desc.ofBytes (bytesAt host 0 64)).epoch ≠ (s.tick now).get (HP_EPOCH p.val) HP_EPOCH_EPOCH ∧ f = HP_CR_STAT_STALE) ∨
        ((Desc.ofBytes (bytesAt host 0 64)).epoch = (s.tick now).get (HP_EPOCH p.val) HP_EPOCH_EPOCH ∧
          sdiff 32 (Desc.ofBytes (bytesAt host 0 64)).seq ((s.tick now).rdN (HP_CR_NEXT_SEQ p.val r.val)) < 0 ∧ f = HP_CR_STAT_DUP) →
      ∃ t, exec (.commitEntryRead now p r .ok host []) s = .next t ∧ t.ringCons p.val r.val = (s.ringCons p.val r.val + 1) % 65536 ∧
        t.get (HP_CR_STAT p.val r.val) f = 1 ∧ t.rdN (HP_CR_NEXT_SEQ p.val r.val) = s.rdN (HP_CR_NEXT_SEQ p.val r.val) ∧
        t.ringAt (8 * p.val + r.val) = s.ringAt (8 * p.val + r.val) ∧
        s.quiet t (HP_CR_CONS p.val r.val :: HP_CR_STAT p.val r.val :: hubQueueWords)) ∧
    ((Desc.ofBytes (bytesAt host 0 64)).epoch = (s.tick now).get (HP_EPOCH p.val) HP_EPOCH_EPOCH →
      (Desc.ofBytes (bytesAt host 0 64)).seq = (s.tick now).rdN (HP_CR_NEXT_SEQ p.val r.val) →
      (Desc.ofBytes (bytesAt host 0 64)).records * 128 + recordBytes (Desc.ofBytes (bytesAt host 0 64)) ≤ (s.tick now).hwSize p.val →
      ∀ recs, g.2 = some recs →
      (∀ i ∈ namedIndices ((Desc.ofBytes (bytesAt host 0 64)).recs recs), s.poisoned (64 * i) 64 = false) →
      (∀ c, (g.1.validateReads p.val (bytesAt host 0 64) recs).validate p.val r.val [] (bytesAt host 0 64) recs
          (host.drop (64 + recordBytes (Desc.ofBytes (bytesAt host 0 64)))) = .inr c →
        ∃ t, exec (.commitEntryRead now p r .ok host []) s = .next t ∧
          t.ringAt (8 * p.val + r.val) = { s.ringAt (8 * p.val + r.val) with cand := some c } ∧
          s.quiet t (allPorts.map HP_HW_STAT ++ hubQueueWords)) ∧
      (∀ e, (g.1.validateReads p.val (bytesAt host 0 64) recs).validate p.val r.val [] (bytesAt host 0 64) recs
          (host.drop (64 + recordBytes (Desc.ofBytes (bytesAt host 0 64)))) = .inl e →
        ∃ t, exec (.commitEntryRead now p r .ok host []) s = .next t ∧ t.ringCons p.val r.val = (s.ringCons p.val r.val + 1) % 65536 ∧
          t.rdN (HP_CR_NEXT_SEQ p.val r.val) = (s.rdN (HP_CR_NEXT_SEQ p.val r.val) + 1) % 2 ^ 32 ∧
          (t.evAt p.val).reserved = (s.evAt p.val).reserved ∧ (e.step = 6 → t.get AD_LAST AD_LAST_CODE = 0x14) ∧
          s.quiet t ([HP_CR_CONS p.val r.val, HP_CR_NEXT_SEQ p.val r.val] ++ (if e.step = 6 then [AD_LAST, AD_SHORT, AD_REF_CNT] else []) ++
            (allPorts.map HP_HW_STAT ++ hubQueueWords)))) := by
  obtain ⟨hreads, rfl⟩ := descRead_spec hy hw hok hv
  have htick : s.quiet (s.tick now) [] := quiet_tick s now
  refine ⟨fun f hf => ?_, fun he hs hsize recs hrecs hgood => ?_⟩
  · have hfld : f = HP_CR_STAT_STALE ∨ f = HP_CR_STAT_DUP := hf.imp (fun h => h.2) (fun h => h.2.2)
    have hq := hreads.quiet.mono fun a ha => hubQueueWords_control a (windowCharge_hub p.isLt a ha)
    obtain ⟨hcons, hset, hrings, hseq, hdrop⟩ := entryDrop_spec (s := v) p.isLt r.isLt hfld
    refine ⟨_, (commitEntryRead_runs hfree hturn).trans (congrArg Host.Outcome.next (entryRead_drops hy hreads hv hf)), ?_, hset, ?_, ?_, ?_⟩
    · rw [hcons, quiet_ringCons hq p.isLt r.isLt, tick_ringCons]
    · rw [hseq, quiet_nextSeq hq p.isLt r.isLt, tick_rdN]
    · have hr : (v.entryDrop p.val r.val f).ringAt (8 * p.val + r.val) = v.ringAt (8 * p.val + r.val) := by
        unfold State.ringAt
        rw [hrings]
      exact hr.trans ((hreads.ringAt _).trans (tick_ringAt _))
    · refine ((htick.mono (by simp)).trans (hreads.quiet.mono fun a ha => ?_)).trans (hdrop.mono fun a ha => ?_)
      · exact List.mem_cons_of_mem _ (List.mem_cons_of_mem _ (windowCharge_hub p.isLt a ha))
      · rcases List.mem_cons.1 ha with h | h
        · exact h ▸ List.mem_cons_self
        · exact List.mem_singleton.1 h ▸ List.mem_cons_of_mem _ List.mem_cons_self
  · have hq := hreads.quiet.mono fun a ha => hubQueueWords_control a (windowCharge_hub p.isLt a ha)
    have hgreads : (s.tick now).entryReads g.1 p.val controlWords := by
      rw [← hg]
      exact (hreads.mono fun a ha => hubQueueWords_control a (windowCharge_hub p.isLt a ha)).asks ((unitIssue_asks ..).trans (busRead_asks ..))
    have hpoison : ∀ i ∈ namedIndices ((Desc.ofBytes (bytesAt host 0 64)).recs recs), g.1.poisoned (64 * i) 64 = false := fun i hi => by
      have hsame : g.1.poison = s.poison := hgreads.poison.trans (tick_poison ..)
      unfold State.poisoned
      rw [hsame]
      exact hgood i hi
    have hrun := (commitEntryRead_runs hfree hturn).trans (congrArg Host.Outcome.next ((entryRead_goesOn hy hreads hv he hs).trans
      ((recordsRead_answered (by rw [quiet_hwSize hq p.isLt]; exact hsize) hg hrecs).trans (entryValidate_eq hpoison))))
    have hval : (s.tick now).entryReads (g.1.validateReads p.val (bytesAt host 0 64) recs) p.val controlWords := hgreads.asks (validateReads_asks ..)
    generalize g.1.validateReads p.val (bytesAt host 0 64) recs = z at hrun hval ⊢
    refine ⟨fun c hc => ?_, fun e hc => ?_⟩
    · rw [hc] at hrun
      obtain ⟨hat, hquiet⟩ := validated_candidate (r := r) c hval
      rw [tick_ringAt] at hat
      exact ⟨_, hrun, hat, (htick.mono (by simp)).trans hquiet⟩
    · rw [hc] at hrun
      obtain ⟨hcons, hseq, hres, hcode, hquiet⟩ := validated_refused (r := r) (Desc.ofBytes (bytesAt host 0 64)) e hval
      rw [tick_ringCons] at hcons
      rw [tick_rdN] at hseq
      rw [tick_reserved] at hres
      exact ⟨_, hrun, hcons, hseq, hres, hcode, (htick.mono (by simp)).trans hquiet⟩

/-! ### Acceptance -/

theorem commitAccept_runs {c : Candidate} {fs : List Nat} (hc : (s.ringAt (8 * p.val + r.val)).cand = some c) (hup : s.islUp islCarousel = true)
    (hfree : s.evFree p.val = true) (hpark : s.park.step = 0) :
    exec (.commitAccept now p r fs) s = .next ((s.tick now).stepSeven p.val r.val c !fs.isEmpty) := by
  have hcond : ((s.tick now).islUp islCarousel && (s.tick now).evFree p.val && (s.tick now).park.step == 0) = true := by
    rw [Bool.and_eq_true, Bool.and_eq_true]
    exact ⟨⟨hup, hfree⟩, beq_iff_eq.2 hpark⟩
  have hc' : ((s.tick now).ringAt (8 * p.val + r.val)).cand = some c := hc
  refine congrArg Host.Outcome.next ?_
  rw [hc']
  exact if_pos hcond

theorem stepSeven_accepts {c : Candidate} {a : AdmResult} (hroom : s.journalUsed c.desc.tl + journalUnits c ≤ 8192)
    (ha : s.stepAdmit c.desc.tl (s.candImage c) = .inl a) : s.stepSeven p.val r.val c false = s.commitAccept p.val r.val c a := by
  unfold State.stepSeven
  rw [if_neg (by rintro (h | h); exacts [absurd h Bool.false_ne_true, by omega]), ha]

theorem stepSeven_refuses {c : Candidate} {fails : Bool} (h : fails = true ∨ 8192 < s.journalUsed c.desc.tl + journalUnits c) :
    s.stepSeven p.val r.val c fails = s.refuseEntry p.val r.val c.desc ⟨0x18, 7, 0xFF, 0⟩ := if_pos h

theorem commitAccept_stores (c : Candidate) (a : AdmResult) : s.storeSame (s.commitAccept p.val r.val c a) := by
  have hc : s.carries ⟨true, false⟩ (s.commitAccept p.val r.val c a) := by simp
  exact hc.storeSame

end

/-- Settles O17: doorbells by the equation of `ringBell` for each case, entries by what their reads leave and validation answers, acceptance
by what each of its steps leaves. -/
theorem commitRingsComplete : Obligations.CommitRingsComplete := by
  unfold Obligations.CommitRingsComplete
  intro s now p r k
  refine ⟨fun src value u w hadm => ⟨fun hw => ?waits, fun hw => ⟨fun he => ?foreign, fun he hon hb => ?behind, fun he hon hb hfar => ?tooFar,
    fun he hon hb hnear => ?taken, fun he hoff => ?kept⟩⟩, fun src value u w hadm => ⟨fun hen hg hoff hlo hhi hk => ?starts, fun hen => ?stops⟩,
    ?entry, fun c hc hup hfree hpark htl => ⟨fun a hroom ha => ?accepts, fun fs hfs => ?refuses⟩⟩
  case waits =>
    rw [commitDoorbell_runs hadm, if_pos hw]
  case foreign =>
    refine ⟨_, commitDoorbell_acts hadm hw, ?_⟩
    rw [ringBell_foreign he]
    refine ⟨get_put_same _ _ _ _ (by decide), fun hd => ?_, ?_, ((quiet_refl u _).bump _ _ (by simp)).put _ _ (by simp)⟩
    · rw [get_put_apart _ _ _ _ _ (by decide) (by decide), get_bump_same _ _ _ _ (by decide) hd]
    · unfold State.ringAt
      rw [put_rings, bump_rings]
  case behind =>
    rw [commitDoorbell_acts hadm hw, ringBell_behind he hon hb]
  case tooFar =>
    refine ⟨_, commitDoorbell_acts hadm hw, ?_⟩
    rw [(ringBell_runs he hon (not_lt.2 hb)).trans (if_pos hfar)]
    obtain ⟨hhalt, hcause, hrings, hq⟩ := ringHalt_spec (u.belled p r w) p r 1 (by decide)
    refine ⟨hhalt, hcause, ?_, ((belled_quiet u p r w).mono (by simp)).next hq (by simp)⟩
    unfold State.ringAt
    rw [hrings]
    exact belled_ring k
  case taken =>
    refine ⟨_, commitDoorbell_acts hadm hw, ?_⟩
    rw [(ringBell_runs he hon (not_lt.2 hb)).trans (if_neg (not_lt.2 hnear))]
    obtain ⟨hat, hq⟩ := ringMod_spec (u.belled p r w) p r fun q => { q with prod := getField w HP_CR_DB_PROD }
    exact ⟨by rw [hat, belled_ring], (belled_quiet u p r w).next hq (by simp)⟩
  case kept =>
    refine ⟨_, commitDoorbell_acts hadm hw, ?_⟩
    rw [ringBell_keeps he hoff]
    obtain ⟨hat, hq⟩ := ringMod_spec (u.belled p r w) p r fun q => { q with kept := some (getField w HP_CR_DB_PROD) }
    exact ⟨by rw [hat, belled_ring], (belled_quiet u p r w).next hq (by simp)⟩
  case starts =>
    refine ⟨_, crEnable_runs hadm, ?_⟩
    rw [crCtrl_starts hen hg hoff hlo hhi]
    have hrings : (u.put (HP_CR_CTRL p.val r.val) HP_CR_CTRL_LOG2 (getField w HP_CR_CTRL_LOG2)).rings = u.rings := put_rings ..
    have hk' : ((u.put (HP_CR_CTRL p.val r.val) HP_CR_CTRL_LOG2 (getField w HP_CR_CTRL_LOG2)).ringAt (8 * p.val + r.val)).kept = none := by
      unfold State.ringAt
      rw [hrings]
      exact hk
    obtain ⟨hen', hlog, hon, hsame, hq⟩ := ringStart_spec hk'
    refine ⟨hen', hlog.trans ((get_put_same _ _ _ _ (by decide)).trans (Nat.mod_eq_of_lt (Nat.lt_of_le_of_lt hhi (by decide)))), hon, ?_,
      ((quiet_refl u _).put _ _ (by simp)).trans hq⟩
    unfold State.ringAt
    rw [hsame, hrings]
  case stops =>
    obtain ⟨hoff, hrings, hq⟩ := crCtrl_stopped (u := u) (p := p) (r := r) (src := src) hen
    refine ⟨_, crEnable_runs hadm, hoff, ?_, hq⟩
    unfold State.ringAt
    rw [hrings]
  case entry =>
    intro host y x hfree hturn hy o hw hok raw d n a v got
    obtain ⟨hdrop, hgo⟩ := entryRead_completes (p := p) (r := r) (host := host) (g := got) hfree hturn hy hw hok Prod.mk.eta.symm rfl
    refine ⟨hdrop, fun he hs hsize recs hrecs hgood => ?_⟩
    exact hgo he hs hsize recs hrecs hgood
  case accepts =>
    have hstep := stepAdmit_tl ha
    obtain ⟨htlc, hcons, hseq, hcode, hring⟩ := commitAccept_spec (s := s.tick now) (r := r.val) c a p.isLt r.isLt htl hstep
    have hstore := commitAccept_stores (s := s.tick now) (p := p) (r := r) c a
    refine ⟨_, acceptedCommit (s.tick now) p.val r.val c a, (commitAccept_runs hc hup hfree hpark).trans
      (congrArg Host.Outcome.next (stepSeven_accepts hroom ha)), ?_, rfl, rfl, rfl, rfl, ?_, hcons, hseq, hcode, ?_, ?_, hstore⟩
    · rw [htlc]
      rfl
    · rw [htlc]
      rfl
    · rw [hring]
    · rw [hring]
      rfl
  case refuses =>
    have hbad : (!fs.isEmpty) = true ∨ 8192 < (s.tick now).journalUsed c.desc.tl + journalUnits c := by
      refine hfs.imp (fun h => ?_) id
      rw [Bool.not_eq_true', List.isEmpty_eq_false_iff]
      exact h
    obtain ⟨hcons, -, hat, -, htlc, hq⟩ := refuseEntry_spec (s := s.tick now) (p := p.val) (r := r.val) r.isLt c.desc ⟨0x18, 7, 0xFF, 0⟩
    refine ⟨_, (commitAccept_runs hc hup hfree hpark).trans (congrArg Host.Outcome.next (stepSeven_refuses hbad)), ?_, ?_, hcons,
      ((quiet_tick s now).mono (by simp)).trans hq⟩
    · exact tlcAt_congr htlc _
    · rw [hat]

end Sys2Proof.Machine
end

section

namespace Sys2Proof.Machine

/-! ## What hub readiness shows, and what leaves it as it is (R43, R552) -/

section

variable {s t u : State} {but : List Nat} {k : Nat}

/-- Whether a recovery is under way, the host ports, and SY_BOOT_STAT.READY. -/
def State.front (s : State) : Bool × Tbl Port × Nat := (s.boot.recover, s.ports, s.get SY_BOOT_STAT SY_BOOT_STAT_READY)

theorem front_of (hb : t.boot = s.boot) (hp : t.ports = s.ports) (hr : t.rd SY_BOOT_STAT = s.rd SY_BOOT_STAT) : t.front = s.front := by
  unfold State.front State.get
  rw [hb, hp, hr]

theorem wr_front {a : Nat} (w : Word) (h : SY_BOOT_STAT ≠ a) : (s.wr a w).front = s.front := front_of rfl rfl (rd_wr_ne _ _ h)

theorem put_front {a : Nat} (f : Fld) (v : Nat) (h : SY_BOOT_STAT ≠ a) : (s.put a f v).front = s.front := wr_front _ h

theorem bump_front {a : Nat} (f : Fld) (n : Nat) (h : SY_BOOT_STAT ≠ a) : (s.bump a f n).front = s.front := wr_front _ h

theorem wrN_front {a : Nat} (v : Nat) (h : SY_BOOT_STAT ≠ a) : (s.wrN a v).front = s.front := wr_front _ h

theorem State.engines.front (h : s.engines t but) (hb : SY_BOOT_STAT ∉ but) : t.front = s.front :=
  front_of (by rw [h.same]) (by rw [h.same]) (h.regs _ (by decide) hb)

theorem State.traffic.front (h : s.traffic t but) (hb : SY_BOOT_STAT ∉ but) : t.front = s.front := h.engines.front hb

theorem State.moves.front {a n : Nat} (h : s.moves t a n but) (hb : SY_BOOT_STAT ∉ but) : t.front = s.front :=
  front_of (by rw [h.same]) (by rw [h.same]) (h.regs _ (by decide) hb)

theorem events_front (h : s.onlyEvents t) : t.front = s.front := (traffic_events (but := []) h).front List.not_mem_nil

theorem foldl_front {α : Type} {f : State → α → State} (h : ∀ s a, (f s a).front = s.front) (l : List α) (s : State) : (l.foldl f s).front = s.front :=
  foldl_same State.front h l s

theorem ite_front {c : Prop} [Decidable c] (ht : t.front = s.front) (hu : u.front = s.front) : (if c then t else u).front = s.front :=
  ite_same (π := State.front) ht hu

theorem bootStat_not_control : SY_BOOT_STAT ∉ controlWords := not_control_low (by decide)

/-! ### Doorbells that waited -/

theorem ringHalt_front (p r cause : Nat) : (s.ringHalt p r cause).front = s.front := by
  have hne : SY_BOOT_STAT ≠ HP_CR_STAT p r := by unfold SY_BOOT_STAT HP_CR_STAT; omega
  have hp (v : State) (cls inst type : Nat) (payload : List Byte) : (v.postOwn p cls inst type payload).front = v.front := by
    have hlost : (v.postLost p).front = v.front := by
      unfold State.postLost
      exact ite_front rfl rfl
    have hoffer (x : State) (e : Event) : (x.offer e p).front = x.front := by
      unfold State.offer
      refine ite_front rfl (ite_front rfl ?_)
      have hev : SY_BOOT_STAT ≠ HP_EV_STAT p := by unfold SY_BOOT_STAT HP_EV_STAT; omega
      exact bump_front _ _ hev
    have hseq (x : State) (n : Nat) : (x.nextSeq n).front = x.front := rfl
    exact (hseq _ _).trans ((hoffer _ _).trans hlost)
  exact (hp ..).trans ((put_front _ _ hne).trans (put_front _ _ hne))

theorem ringProd_front (p r prod : Nat) : (s.ringProd p r prod).front = s.front := by
  unfold State.ringProd
  exact ite_front rfl (ite_front (ringHalt_front ..) rfl)

theorem ringBell_front (p r : Nat) (w : Word) : (s.ringBell p r w).front = s.front := by
  have hs : SY_BOOT_STAT ≠ HP_CR_STAT p r := by unfold SY_BOOT_STAT HP_CR_STAT; omega
  have hd : SY_BOOT_STAT ≠ HP_CR_DB p r := by unfold SY_BOOT_STAT HP_CR_DB; omega
  have hw : (s.wr (HP_CR_DB p r) w).front = s.front := wr_front _ hd
  have hm (v : State) (f : Ring → Ring) : (v.ringMod p r f).front = v.front := rfl
  unfold State.ringBell
  exact ite_front ((put_front _ _ hs).trans (bump_front _ _ hs)) (ite_front rfl (ite_front ((ringProd_front ..).trans hw) ((hm ..).trans hw)))

theorem bell_front {src : Src} {addr value : Nat} {eff : State → State} (h : (eff s).front = s.front) : (s.bell src addr value eff).front = s.front :=
  ite_front rfl h

theorem bootStat_ne_dm (c : Nat) : SY_BOOT_STAT ≠ DM_STAT c := by unfold SY_BOOT_STAT DM_STAT; omega

theorem bootStat_ne_bl (c : Nat) : SY_BOOT_STAT ≠ BL_STAT c := by unfold SY_BOOT_STAT BL_STAT; omega

theorem readNext_front (c : Nat) : (s.readNext c).front = s.front :=
  readNext_engines.front (by simp only [List.mem_cons, not_or]; exact ⟨bootStat_ne_dm c, bootStat_not_control⟩)

theorem dmRing_front (c : Nat) : (s.dmRing c).front = s.front := by
  unfold State.dmRing State.dmaReread
  have hp : (s.put (DM_STAT c) DM_STAT_PEND 1).front = s.front := put_front _ _ (bootStat_ne_dm c)
  exact ite_front ((readNext_front _).trans ((put_front _ _ (bootStat_ne_dm c)).trans hp)) hp

theorem blitNext_front (c : Nat) : (s.blitNext c).front = s.front :=
  blitNext_engines.front (by simp only [List.mem_cons, not_or]; exact ⟨bootStat_ne_bl c, bootStat_not_control⟩)

theorem blitHalt_front (c cause : Nat) (job : Option (Nat × Nat × Nat)) : (s.blitHalt c cause job).front = s.front :=
  (blitHalt_engines cause job).front (by simp only [List.mem_singleton]; exact bootStat_ne_bl c)

theorem blitRing_front (c : Nat) (w : Word) : (s.blitRing c w).front = s.front := by
  have hset (v : BlitCh) : (s.setBlitAt c v).front = s.front := rfl
  unfold State.blitRing
  split
  · rfl
  · exact ite_front ((bump_front _ _ (bootStat_ne_bl c)).trans (put_front _ _ (bootStat_ne_bl c)))
      (ite_front rfl (ite_front (ite_front (hset _) (blitHalt_front ..)) ((blitNext_front _).trans (hset _))))

theorem bellAct_front (b : Posted) : (s.bellAct b).front = s.front := by
  have hbl (c : Nat) (w : Word) : (s.wr (BL_DB c) w).front = s.front := wr_front _ (by unfold SY_BOOT_STAT BL_DB; omega)
  unfold State.bellAct State.crDb State.dmDb State.blDb
  extract_lets w p
  exact ite_front (bell_front (ringBell_front ..)) (ite_front (ite_front (bell_front (dmRing_front _)) rfl)
    ((bell_front (blitRing_front ..)).trans (hbl ..)))

theorem bellsRun_front : s.bellsRun.front = s.front := foldl_front (fun _ b => bellAct_front b) s.bells { s with bells := [] }

/-! ### The Carousel, and the write-backs of the engines -/

theorem carouselStart_front : s.carouselStart.front = s.front := by
  unfold State.carouselStart
  extract_lets u
  have hpol (v : State) (k : Nat) (x : Policer) : ((v.setPolAt k x).polTokens k).front = v.front := by
    have h1 : SY_BOOT_STAT ≠ CA_P_TC k := by unfold SY_BOOT_STAT CA_P_TC; omega
    have h2 : SY_BOOT_STAT ≠ CA_P_TP k := by unfold SY_BOOT_STAT CA_P_TP; omega
    exact (wrN_front _ h2).trans (wrN_front _ h1)
  have hu : u.front = s.front := foldl_front (fun s k => hpol s k _) _ s
  have hq (v : State) (k n : Nat) (x : ShapeQ) : ((v.setShqAt k x).wrN (CA_Q_RATE k) n).front = v.front :=
    wrN_front _ (by unfold SY_BOOT_STAT CA_Q_RATE; omega)
  exact (foldl_front (fun s i => hq s ..) _ u).trans hu

theorem showTotals_front (a : AdmTotals) : (s.showTotals a).front = s.front :=
  (wrN_front _ (by decide)).trans ((wrN_front _ (by decide)).trans ((wrN_front _ (by decide)).trans (wrN_front _ (by decide))))

theorem bootStat_ne_mode (k : Nat) : SY_BOOT_STAT ≠ AD_TL_MODE k := by unfold SY_BOOT_STAT AD_TL_MODE; omega

theorem showPend_front : (s.showPend k).front = s.front :=
  (put_front _ _ (bootStat_ne_mode k)).trans (put_front _ _ (bootStat_ne_mode k))

theorem storeCase_front (a : AdmResult) : (s.storeCase a none).front = s.front := by
  have h1 : SY_BOOT_STAT ≠ AD_TL_RATE a.tl := by unfold SY_BOOT_STAT AD_TL_RATE; omega
  have h2 : SY_BOOT_STAT ≠ AD_TL_RES a.tl := by unfold SY_BOOT_STAT AD_TL_RES; omega
  exact showPend_front.trans ((showTotals_front _).trans ((wrN_front _ h2).trans (wrN_front _ h1)))

theorem setMode_front (g : Nat → Word) (spec : Bool) : (s.setMode g k spec).front = s.front := by
  have h1 : SY_BOOT_STAT ≠ TL_LATCH k := by unfold SY_BOOT_STAT TL_LATCH; omega
  exact (put_front _ _ (bootStat_ne_mode k)).trans ((put_front _ _ (bootStat_ne_mode k)).trans ((put_front _ _ h1).trans (put_front _ _ h1)))

theorem ogSync_front : s.ogSync.front = s.front :=
  (wrN_front _ (by decide)).trans ((put_front _ _ (by decide)).trans (put_front _ _ (by decide)))

theorem rebuildAdmission_front : s.rebuildAdmission.front = s.front := by
  unfold State.rebuildAdmission
  extract_lets ts u figs tot v
  have hadm (x : State) (k : Nat) (a : AdmTl) : (x.setAdmAt k a).front = x.front := rfl
  have hu : u.front = s.front := foldl_front (fun s t => hadm s t _) ts s
  have hv : v.front = u.front := foldl_front (fun s x => storeCase_front _) figs u
  clear_value figs tot
  exact ogSync_front.trans ((foldl_front (fun s t => setMode_front _ _) ts _).trans ((showTotals_front _).trans (hv.trans hu)))

theorem carouselBack_front : s.carouselBack.front = s.front := by
  have hq (v : State) (q time : Nat) (ws : List QWait) : (v.qServe q time ws).front = v.front := by
    refine (qServe_traffic ..).front fun hm => ?_
    unfold oneQueueWords windowWords SY_BOOT_STAT CA_Q_STAT CA_Q_CNT HP_HW_STAT at hm
    simp only [List.mem_cons, List.mem_map] at hm
    omega
  unfold State.carouselBack
  extract_lets u
  have hu : u.front = s.front := rebuildAdmission_front.trans carouselStart_front
  exact bellsRun_front.trans ((foldl_front (fun _ _ => hq ..) _ u).trans hu)

theorem dmaFlush_front : s.dmaFlush.front = s.front := by
  refine foldl_front (fun s c => ?_) _ s
  dsimp only
  split
  · rfl
  · next p _ =>
    have hst := (dmaStatus_moves (s := s) p.addr p.bytes).front bootStat_not_control
    split
    · next s' he =>
      rw [he] at hst
      exact ((settleEvent_traffic (but := []) ..).front List.not_mem_nil).trans hst
    · rfl

theorem blitFlush_front : s.blitFlush.front = s.front := by
  refine foldl_front (fun s c => ?_) _ s
  dsimp only
  split
  · rfl
  · next p _ =>
    have hst := (blitStatus_moves (s := s) p.addr p.bytes).front bootStat_not_control
    split
    · next s' he =>
      rw [he] at hst
      exact ((settleEvent_traffic (but := []) ..).front List.not_mem_nil).trans hst
    · rfl

/-! ### The end of bring-up -/

theorem ledgerBlind_front : LedgerBlind State.front where
  wr s a w h := wr_front w fun hc => by rw [← hc] at h; revert h; decide
  flash s dev a b := by
    unfold State.wrFlash
    split <;> rfl
  gate _ _ := rfl

theorem litBlind_front : LitBlind State.front where
  wr s a w h := wr_front w fun hc => by rw [← hc] at h; revert h; decide
  flash := ledgerBlind_front.flash
  gate _ _ := rfl
  otp _ _ := rfl
  power _ _ := rfl
  park _ _ := rfl
  sv _ _ := rfl
  undo _ _ := rfl
  events := events_front

theorem syncFault_front : s.syncFault.front = s.front := by
  by_cases h : s.faultLow = s.power.faultWas
  · rw [syncFault_same s h]
  · obtain ⟨payload, he⟩ := syncFault_change s h
    rw [he]
    refine (events_front (post_only ..)).trans ?_
    unfold State.faultShown
    exact ite_front ((bump_front _ _ (by decide)).trans (put_front _ _ (by decide))) (put_front _ _ (by decide))

theorem checkStartup_front : s.checkStartup.front = s.front := by
  have hpower (v : State) (x : Power) : ({ v with power := x } : State).front = v.front := rfl
  have hp : (s.put WT_FAULT WT_FAULT_STARTUP 0).front = s.front := put_front _ _ (by decide)
  unfold State.checkStartup
  generalize s.put WT_FAULT WT_FAULT_STARTUP 0 = v at hp ⊢
  exact ite_front (syncFault_front.trans ((hpower ..).trans hp)) rfl

theorem panelUp_front : (s.panelUp k).front = s.front := rfl

theorem composeAgain_front : (s.composeAgain k).front = s.front := rfl

theorem noteImage_front : s.noteImage.front = s.front := by
  unfold State.noteImage
  exact ite_front rfl (ledgerBlind_front.ledgerDone ..)

theorem postAsset_only (v : State) (result : Nat) : v.onlyEvents (v.postAsset result) := postAll_only ..

theorem assetBegin_front : s.assetBegin.front = s.front := by
  have hput : (s.put SY_BOOT_STAT SY_BOOT_STAT_ASSETS 1).front = s.front := by
    unfold State.front
    rw [get_put_apart _ _ _ _ _ (by decide) (by decide), put_boot, put_ports]
  unfold State.assetBegin
  split
  · rfl
  · exact ite_front ((events_front (postAsset_only _ _)).trans hput) rfl

theorem storeSurf_front (i : Nat) (e : SurfEntry) : (s.storeSurf i e).front = s.front :=
  ((hubWrite_moves ..).front bootStat_not_control).trans rfl

theorem buildTable_front : s.buildTable.front = s.front := by
  unfold State.buildTable
  extract_lets u l v
  have hu : u.front = s.front := foldl_front (fun _ _ => storeSurf_front ..) _ s
  have hv : v.front = u.front := rfl
  clear_value v
  have huse (x : State) (k : Nat) : (x.latchUse k).front = x.front := by
    unfold State.latchUse
    refine foldl_front (fun s h => ?_) _ x
    unfold State.markUse
    exact ite_front rfl rfl
  exact (foldl_front (fun _ _ => huse ..) _ v).trans (hv.trans hu)

end

end Sys2Proof.Machine
end

section

namespace Sys2Proof.Machine

/-! ## Bring-up completes (O7) -/

section

variable {s t : State}

/-! ### DDR5 in service -/

theorem mark_same (n : Nat) {a : Nat} (h : a ≠ SY_BOOT_MARK n) : (s.mark n).rd a = s.rd a ∧ (s.mark n).power = s.power := by
  unfold State.mark
  split
  · exact ⟨rd_wrN_ne _ _ h, wrN_power ..⟩
  · exact ⟨rfl, rfl⟩

/-- The state with DDR5 out of self-refresh. -/
def State.refreshEnds (s : State) : State := { s with power := { s.power with sr := false } }

/-- The end of every bring-up of DDR5. -/
def State.inService (s : State) : State := (s.refreshEnds.put DR_STAT DR_STAT_READY 1).mark 3

theorem inService_spec : s.inService.get DR_STAT DR_STAT_READY = 1 ∧ s.inService.power.sr = false := by
  obtain ⟨hrd, hpower⟩ := mark_same (s := s.refreshEnds.put DR_STAT DR_STAT_READY 1) 3 (a := DR_STAT) (by decide)
  unfold State.inService
  refine ⟨?_, ?_⟩
  · unfold State.get
    rw [hrd]
    exact get_put_same _ _ _ _ (by decide)
  · rw [hpower, put_power]
    rfl

theorem ddrServe_ends (c : DramConf) (eyeBad failed : List Nat) : ∃ v, s.ddrServe c eyeBad failed = State.inService v := ⟨_, rfl⟩

/-! ### Hub readiness -/

theorem portsReady_ready {p : Nat} (hp : p ∈ allPorts) : (s.portsReady.portAt p).ready = true := by
  simp only [allPorts, List.mem_cons, List.not_mem_nil, or_false] at hp
  unfold State.portsReady allPorts
  simp only [List.foldl_cons, List.foldl_nil, portAt_setPortAt]
  obtain rfl | rfl | rfl | rfl := hp <;> rfl

/-- Readiness is shown: the ports answer. -/
def State.readyShown (s : State) : State := s.portsReady.put SY_BOOT_STAT SY_BOOT_STAT_READY 1

/-- The hub is ready, and no recovery is under way. -/
structure State.isReady (t : State) : Prop where
  ready : t.get SY_BOOT_STAT SY_BOOT_STAT_READY = 1
  recover : t.boot.recover = false
  ports : ∀ p ∈ allPorts, (t.portAt p).ready = true

theorem isReady_congr (h : t.front = s.front) (hs : s.isReady) : t.isReady := by
  unfold State.front at h
  obtain ⟨h1, h2⟩ := Prod.mk.inj h
  obtain ⟨h3, h4⟩ := Prod.mk.inj h2
  refine ⟨h4.trans hs.ready, h1.trans hs.recover, fun p hp => ?_⟩
  rw [portAt_congr h3]
  exact hs.ports p hp

theorem readyShown_ready : s.readyShown.get SY_BOOT_STAT SY_BOOT_STAT_READY = 1 := get_put_same _ _ _ _ (by decide)

theorem portsReady_boot : s.portsReady.boot = s.boot := by
  unfold State.portsReady
  generalize allPorts = ps
  induction ps generalizing s with
  | nil => rfl
  | cons p ps ih => exact ih.trans (setPortAt_boot ..)

theorem readyShown_boot : s.readyShown.boot = s.boot := by
  unfold State.readyShown
  rw [put_boot, portsReady_boot]

theorem readyShown_ports {p : Nat} (hp : p ∈ allPorts) : (s.readyShown.portAt p).ready = true :=
  (congrArg Port.ready (portAt_congr (put_ports ..) p)).trans (portsReady_ready hp)

theorem panelsUp_front (ts : List Nat) : (ts.foldl State.panelUp s).front = s.front := foldl_front (fun _ _ => panelUp_front) ts s

theorem mark_front (n : Nat) : (s.mark n).front = s.front := by
  unfold State.mark
  exact ite_front (wrN_front _ (by unfold SY_BOOT_STAT SY_BOOT_MARK; omega)) rfl

theorem hubReady_front : s.hubReady.front = s.buildTable.readyShown.front := by
  unfold State.hubReady State.readyShown
  extract_lets a b c d
  have ha : a.front = (s.buildTable.portsReady.put SY_BOOT_STAT SY_BOOT_STAT_READY 1).front := mark_front 4
  have hb : b.front = a.front := panelsUp_front _
  have hc : c.front = b.front := noteImage_front
  have hd : d.front = c.front := wrN_front _ (by decide)
  exact checkStartup_front.trans ((litBlind_front.checkLit _).trans (assetBegin_front.trans (hd.trans (hc.trans (hb.trans ha)))))

theorem hubReady_ready (h : s.boot.recover = false) : s.hubReady.isReady := by
  have hb : s.buildTable.boot.recover = s.boot.recover := congrArg Prod.fst (buildTable_front (s := s))
  refine isReady_congr hubReady_front ⟨readyShown_ready, ?_, fun p hp => readyShown_ports hp⟩
  rw [readyShown_boot]
  exact hb.trans h

/-- The recovery is over. -/
def State.recovered (s : State) : State := { s with boot := { s.boot with recover := false, assetTry := min s.boot.assetTry 1 } }

/-- What follows in the recovery of a hub that is ready. -/
def State.recoveryGoes (s : State) : State :=
  let s := s.islMod fun x => { x with down := x.down.filter fun d => d.cause != 0 }
  let s := s.carouselBack.dmaFlush.blitFlush
  let s := (List.range 16).foldl State.composeAgain s
  let s := s.enabledTls.foldl State.panelUp s
  (s.wrN GH_CFG_REF s.cfgCrc).checkLit.checkStartup

theorem recoverReady_eq : s.recoverReady = s.readyShown.recovered.recoveryGoes := rfl

theorem recoveryGoes_front : s.recoveryGoes.front = s.front := by
  unfold State.recoveryGoes
  extract_lets a b c d
  have ha : a.front = s.front := rfl
  have hb : b.front = a.front := blitFlush_front.trans (dmaFlush_front.trans carouselBack_front)
  have hc : c.front = b.front := foldl_front (fun _ _ => composeAgain_front) _ b
  have hd : d.front = c.front := panelsUp_front _
  exact checkStartup_front.trans ((litBlind_front.checkLit _).trans ((wrN_front _ (by decide)).trans (hd.trans (hc.trans (hb.trans ha)))))

theorem recovered_isReady (hready : s.get SY_BOOT_STAT SY_BOOT_STAT_READY = 1) (hports : ∀ p ∈ allPorts, (s.portAt p).ready = true) :
    s.recovered.isReady := ⟨hready, rfl, hports⟩

theorem recoverReady_ready : s.recoverReady.isReady :=
  recoverReady_eq ▸ isReady_congr recoveryGoes_front (recovered_isReady readyShown_ready fun _ hp => readyShown_ports hp)

/-! ### The ASSET copy -/

theorem slotBytes_length (k a n : Nat) : (s.slotBytes k a n).length = n := by simp [State.slotBytes, State.rdFlashN]

/-- The copy as it is written. -/
def State.assetWritten (s : State) (a : Asset) : State :=
  ((s.request true a.base a.len .besteffort 0 .plain).memWrite a.base (s.slotBytes s.locket.slot a.off a.len)).1.hubCharge 9 a.len

theorem assetWritten_moves (a : Asset) : s.moves (s.assetWritten a) a.base a.len hubQueueWords := by
  have hw := memWrite_moves (s := s.request true a.base a.len .besteffort 0 .plain) a.base (s.slotBytes s.locket.slot a.off a.len)
  rw [slotBytes_length] at hw
  unfold State.assetWritten
  exact ((request_traffic ..).moves.trans (hw.mono (by simp))).trans ((hubCharge_precise a.len).mono (by decide)).moves

theorem assetWritten_boot (a : Asset) : (s.assetWritten a).boot = s.boot := by rw [(assetWritten_moves a).same]

theorem assetWritten_holds {a : Asset} (h : s.subsUp = true) {i : Nat} (hi : i < a.len) :
    (s.assetWritten a).rdByte (a.base + i) = (s.slotBytes s.locket.slot a.off a.len).getD i 0 := by
  have hh := memWrite_holds (s := s.request true a.base a.len .besteffort 0 .plain) a.base (s.slotBytes s.locket.slot a.off a.len)
    ((request_subsUp ..).trans h) i (by rw [slotBytes_length]; exact hi)
  exact ((hubCharge_precise (s := (State.memWrite (s.request true a.base a.len .besteffort 0 .plain) a.base
    (s.slotBytes s.locket.slot a.off a.len)).1) (q := 9) a.len).quiet.1 _).trans hh

/-- The copy is good. -/
def State.assetGood (s : State) : State := { s with boot := { s.boot with assetTry := 0 } }.put SY_BOOT_STAT SY_BOOT_STAT_ASSETS 1

theorem assetDone_good {a : Asset} (hc : crc32c (s.slotBytes s.locket.slot a.off a.len) = a.crc) (hd : sha256 (s.slotBytes s.locket.slot a.off a.len) = a.digest) :
    s.assetDone a = (s.assetWritten a).assetGood.postAsset 0 := if_pos ⟨hc, hd⟩

theorem assetDone_bad {a : Asset} (hc : crc32c (s.slotBytes s.locket.slot a.off a.len) ≠ a.crc) : s.assetDone a = (s.assetWritten a).assetFailed :=
  if_neg fun h => hc h.1

theorem assetGood_spec : s.assetGood.get SY_BOOT_STAT SY_BOOT_STAT_ASSETS = 1 ∧ s.assetGood.boot.assetTry = 0 ∧ s.quiet s.assetGood [SY_BOOT_STAT] := by
  refine ⟨get_put_same _ _ _ _ (by decide), rfl, ?_⟩
  have hq : s.quiet { s with boot := { s.boot with assetTry := 0 } } [SY_BOOT_STAT] := quiet_of_same rfl rfl rfl rfl rfl rfl
  exact hq.put _ _ (by simp)

theorem assetFailed_first (h : s.boot.assetTry = 1) : s.assetFailed = { s with boot := { s.boot with assetTry := 2 } } := if_pos h

theorem ddr5InService_runs {c : DramConf} {now : Nat} {eyeBad failed : List Nat} (hc : s.locket.dram = some c) (happ : s.boot.applied = true)
    (hwarm : s.power.warm = false) (hready : s.dramReady = false) :
    exec (.ddr5InService now eyeBad failed) s = .next ((s.tick now).ddrServe c eyeBad failed) := by
  have hc' : (s.tick now).locket.dram = some c := hc
  have hcond : ((s.tick now).boot.applied && !(s.tick now).power.warm && !(s.tick now).dramReady) = true := by
    rw [Bool.and_eq_true, Bool.and_eq_true, Bool.not_eq_true', Bool.not_eq_true']
    exact ⟨⟨happ, hwarm⟩, hready⟩
  refine congrArg Host.Outcome.next ?_
  rw [hc']
  exact if_pos hcond

theorem hubReadiness_runs {now : Nat} (hmay : s.readyMay = true) :
    exec (.hubReadiness now) s = .next (if (s.tick now).boot.recover then (s.tick now).recoverReady else (s.tick now).hubReady) :=
  congrArg Host.Outcome.next (if_pos hmay)

theorem readiness_isReady : (if s.boot.recover then s.recoverReady else s.hubReady).isReady := by
  by_cases hrec : s.boot.recover = true
  · rw [if_pos hrec]
    exact recoverReady_ready
  · rw [if_neg hrec]
    exact hubReady_ready (Bool.eq_false_iff.mpr hrec)

theorem assetCopyDone_runs {a : Asset} {now : Nat} (ha : s.locket.asset = some a) (ht : s.boot.assetTry ≠ 0) (hr : s.dramReady = true)
    (hready : s.ready = true) : exec (.assetCopyDone now) s = .next ((s.tick now).assetDone a) := by
  have ha' : (s.tick now).locket.asset = some a := ha
  have hcond : (decide ((s.tick now).boot.assetTry ≠ 0) && (s.tick now).dramReady && (s.tick now).ready) = true := by
    rw [Bool.and_eq_true, Bool.and_eq_true]
    exact ⟨⟨decide_eq_true ht, hr⟩, hready⟩
  refine congrArg Host.Outcome.next ?_
  rw [ha']
  exact if_pos hcond

theorem assetCopyDone_good {a : Asset} {now : Nat} (ha : s.locket.asset = some a) (ht : s.boot.assetTry ≠ 0) (hr : s.dramReady = true)
    (hready : s.ready = true) (hup : s.subsUp = true) (hcrc : crc32c (s.slotBytes s.locket.slot a.off a.len) = a.crc)
    (hdig : sha256 (s.slotBytes s.locket.slot a.off a.len) = a.digest) :
    ∃ t, exec (.assetCopyDone now) s = .next t ∧ t.get SY_BOOT_STAT SY_BOOT_STAT_ASSETS = 1 ∧ t.boot.assetTry = 0 ∧
      (∀ i, i < a.len → t.rdByte (a.base + i) = (s.slotBytes s.locket.slot a.off a.len).getD i 0) ∧
      s.touches t a.base a.len (SY_BOOT_STAT :: hubQueueWords) := by
  have hw := assetWritten_moves (s := s.tick now) a
  have hheld := fun i (hi : i < a.len) => assetWritten_holds (s := s.tick now) (a := a) hup hi
  have hrun := assetCopyDone_runs (now := now) ha ht hr hready
  rw [assetDone_good (s := s.tick now) hcrc hdig] at hrun
  generalize (s.tick now).assetWritten a = v at hw hheld hrun
  obtain ⟨hassets, htry, hq⟩ := assetGood_spec (s := v)
  have hpost := postAsset_only v.assetGood 0
  have htouch : s.touches (v.assetGood.postAsset 0) a.base a.len (SY_BOOT_STAT :: hubQueueWords) := by
    refine ((((quiet_tick s now).mono (by simp)).touches.trans (hw.touches.mono fun b hb => List.mem_cons_of_mem _ hb)).trans
      ((hq.events hpost).mono (by simp)).touches)
  refine ⟨_, hrun, ?_, ?_, fun i hi => ?_, htouch⟩
  · exact (onlyEvents_get hpost _ (by decide)).trans hassets
  · rw [onlyEvents_boot hpost]
    exact htry
  · exact ((hq.events hpost).1 _).trans (hheld i hi)

theorem assetCopyDone_bad {a : Asset} {now : Nat} (ha : s.locket.asset = some a) (ht : s.boot.assetTry = 1) (hr : s.dramReady = true)
    (hready : s.ready = true) (hcrc : crc32c (s.slotBytes s.locket.slot a.off a.len) ≠ a.crc) :
    ∃ t, exec (.assetCopyDone now) s = .next t ∧ t.boot.assetTry = 2 ∧ t.get SY_BOOT_STAT SY_BOOT_STAT_ASSETS = s.get SY_BOOT_STAT SY_BOOT_STAT_ASSETS := by
  have hw := assetWritten_moves (s := s.tick now) a
  have hboot := assetWritten_boot (s := s.tick now) a
  have hrun := assetCopyDone_runs (now := now) ha (by rw [ht]; decide) hr hready
  rw [assetDone_bad (s := s.tick now) hcrc] at hrun
  generalize (s.tick now).assetWritten a = v at hw hboot hrun
  rw [assetFailed_first (by rw [hboot]; exact ht)] at hrun
  refine ⟨_, hrun, rfl, ?_⟩
  exact congrArg (fun w => getField w SY_BOOT_STAT_ASSETS) (hw.regs SY_BOOT_STAT (by decide) (by decide))

end

/-- Settles O7: the end of DDR5's bring-up, readiness in a start and in a recovery, and an ASSET copy that is good or not. -/
theorem bringUpCompletes : Obligations.BringUpCompletes := by
  unfold Obligations.BringUpCompletes
  intro s now
  refine ⟨fun c eyeBad failed hc happ hwarm hready => ?_, fun hmay => ?_, fun a ha ht hr hready hup hcrc hdig => ?_, fun a ha ht hr hready hcrc => ?_⟩
  · have hrun := ddr5InService_runs (now := now) (eyeBad := eyeBad) (failed := failed) hc happ hwarm hready
    obtain ⟨v, hv⟩ := ddrServe_ends (s := s.tick now) c eyeBad failed
    rw [hv] at hrun
    exact ⟨_, hrun, inService_spec⟩
  · have hspec := readiness_isReady (s := s.tick now)
    exact ⟨_, hubReadiness_runs hmay, hspec.ready, hspec.recover, hspec.ports⟩
  · obtain ⟨t, hrun, hassets, htry, hheld, htouch⟩ := assetCopyDone_good (now := now) ha ht hr hready hup hcrc hdig
    exact ⟨t, hrun, hassets, htry, hheld, htouch.mem, htouch.store, htouch.regs⟩
  · exact assetCopyDone_bad ha ht hr hready hcrc

end Sys2Proof.Machine
end

section

namespace Sys2Proof.Machine

/-! ## Flattening (O15) -/

section

variable {s : State} {t : Nat}

/-! ### The start -/

/-- The words that the engine's queue counts in. -/
def engineQueue : List Nat := [CA_Q_STAT 9, CA_Q_CNT 9]

theorem flatReads_traffic (l : LayerCfg) : s.traffic (s.flatReads t l) engineQueue := by
  have hgroups (gs : List (Nat × Group)) : ∀ v : State, v.traffic (gs.foldl (fun s x =>
      (s.request false (l.groupSpan x.2).1 (l.groupSpan x.2).2 .besteffort 0 .plain).hubCharge 9 (l.groupSpan x.2).2) v) engineQueue := by
    induction gs with
    | nil => exact fun v => traffic_refl v _
    | cons g gs ih => exact fun v => ((request_traffic ..).trans (hubCharge_precise _)).trans (ih _)
  exact hgroups _ s

theorem flatStart_spec : (s.flatStart t |>.scanAt t).flatJob = some ⟨(s.flatRunOf t).map (·.slot), true⟩ ∧ s.quiet (s.flatStart t) engineQueue := by
  have hlayers (ls : List LayerCfg) : ∀ v : State, v.traffic (ls.foldl (State.flatReads · t ·) v) engineQueue := by
    induction ls with
    | nil => exact fun v => traffic_refl v _
    | cons l ls ih => exact fun v => (flatReads_traffic l).trans (ih _)
  have hreads := hlayers (s.flatRunOf t) s
  unfold State.flatStart
  extract_lets slots v
  refine ⟨?_, hreads.quiet.trans (still_scanMod ..).quiet⟩
  rw [scanAt_scanMod_same]

/-! ### A surface placed in the pool -/

/-- One of the parts of a packed surface is written. -/
def State.poolWrite (s : State) (w : Nat × List Byte) : State :=
  ((s.request true w.1 w.2.length .besteffort 0 .plain).wrBytes w.1 w.2).hubCharge 9 w.2.length

theorem poolWrite_moves (w : Nat × List Byte) : s.moves (s.poolWrite w) w.1 w.2.length engineQueue :=
  ((request_traffic ..).moves.trans ((wrBytes_moves ..).mono (by simp))).trans (hubCharge_precise _).moves

theorem poolWrites_moves {a n : Nat} (ws : List (Nat × List Byte)) (h : ∀ w ∈ ws, a ≤ w.1 ∧ w.1 + w.2.length ≤ a + n) (s : State) :
    s.moves (ws.foldl State.poolWrite s) a n engineQueue := by
  induction ws generalizing s with
  | nil => exact (traffic_refl ..).moves
  | cons w ws ih =>
    obtain ⟨hl, hr⟩ := h w (by simp)
    exact ((poolWrite_moves w).widen hl hr).trans (ih (fun x hx => h x (List.mem_cons_of_mem _ hx)) _)

theorem le_alignUp (n a : Nat) (h : 0 < n) : a ≤ alignUp n a := by
  unfold alignUp cdiv
  have := Nat.div_add_mod (a + n - 1) n
  have := Nat.mod_lt (a + n - 1) h
  rw [Nat.mul_comm]
  omega

theorem length_wordBytes (l : List Nat) : (l.flatMap (leBytes 4)).length = 4 * l.length := by
  induction l with
  | nil => rfl
  | cons x l ih => simp [leBytes]; omega

/-- The parts of a packed surface that starts at a. -/
def Packed.parts (p : Packed) (a : Nat) : List (Nat × List Byte) :=
  [(a, p.body), (a + p.auxAt, p.hdrs), (a + p.indexAt, p.rows.flatMap (leBytes 4))]

theorem parts_within (p : Packed) (a : Nat) : ∀ w ∈ p.parts a, a ≤ w.1 ∧ w.1 + w.2.length ≤ a + p.size := by
  have haux : p.body.length ≤ p.auxAt := le_alignUp 256 _ (by decide)
  have hidx : p.auxAt + p.hdrs.length ≤ p.indexAt := le_alignUp 256 _ (by decide)
  have hrows := length_wordBytes p.rows
  simp only [Packed.parts, List.mem_cons, List.not_mem_nil, or_false, Packed.size]
  rintro w (rfl | rfl | rfl) <;> refine ⟨by omega, ?_⟩ <;> dsimp only <;> omega

/-- The words that placing a surface changes. -/
def placeWords : List Nat := [OG_USED, OG_FLAT, OG_SAVED, CA_Q_STAT 9, CA_Q_CNT 9]

theorem flatPlace_spec (o saving : Nat) (slots : List Nat) (p : Packed) :
    (∃ r, ((s.flatPlace t o saving slots p).scanAt t).flatJob = none ∧ ((s.flatPlace t o saving slots p).scanAt t).flat = some r ∧
      r.slots = slots ∧ r.off = o ∧ r.bytes = p.size ∧ r.inUse = false) ∧
    s.touches (s.flatPlace t o saving slots p) (orangeryBase + o) p.size placeWords := by
  have hparts := poolWrites_moves _ (parts_within p (orangeryBase + o)) s
  unfold State.flatPlace
  extract_lets base aux0 aux1 unused e r v
  have hv : s.moves v (orangeryBase + o) p.size engineQueue := hparts
  clear_value v
  refine ⟨⟨r, ?_⟩, ?_⟩
  · unfold State.scanAt
    rw [ogSync_scan]
    have hscan := scanAt_scanMod_same (s := v) (t := t) fun x => { x with flat := some r, flatJob := none }
    unfold State.scanAt at hscan
    rw [hscan]
    exact ⟨rfl, rfl, rfl, rfl, rfl, rfl⟩
  · have hlast : v.still (v.scanMod t fun x => { x with flat := some r, flatJob := none }).ogSync placeWords :=
      (still_scanMod ..).trans (still_ogSync (by simp [placeWords]))
    exact (hv.touches.mono (by simp [engineQueue, placeWords])).trans hlast.quiet.touches

/-! ### The end of an attempt -/

theorem flatAbandon_spec : ((s.flatAbandon t).scanAt t).flatJob = none ∧ ((s.flatAbandon t).scanAt t).flat = (s.scanAt t).flat ∧
    (s.get OG_ABANDON_CNT OG_ABANDON_CNT_COUNT + 1 < 2 ^ OG_ABANDON_CNT_COUNT.w →
      (s.flatAbandon t).get OG_ABANDON_CNT OG_ABANDON_CNT_COUNT = s.get OG_ABANDON_CNT OG_ABANDON_CNT_COUNT + 1) ∧
    s.quiet (s.flatAbandon t) [OG_ABANDON_CNT] := by
  have hscan := scanAt_scanMod_same (s := s) (t := t) fun x => { x with flatJob := none }
  have hsame : (s.flatAbandon t).scanAt t = { s.scanAt t with flatJob := none } := hscan
  refine ⟨by rw [hsame], by rw [hsame], fun hn => ?_, ((still_scanMod ..).bump _ _ (by simp)).quiet⟩
  exact get_bump_same (s.scanMod t fun x => { x with flatJob := none }) _ _ _ (by decide) hn

theorem flattenComplete_runs {now : Nat} {tl : Fin 16} {lost : Bool} {j : FlatJob} (hj : (s.scanAt tl.val).flatJob = some j)
    (hpav : s.pavUp tl.val = true) (hcar : s.islUp islCarousel = true) :
    exec (.flattenComplete now tl lost) s =
      .next (if lost then (s.tick now).flatAbandon tl.val else (s.tick now).flatFinish tl.val j.slots) := by
  have hj' : ((s.tick now).scanAt tl.val).flatJob = some j := hj
  have hcond : ((s.tick now).pavUp tl.val && (s.tick now).islUp islCarousel) = true := by
    rw [Bool.and_eq_true]
    exact ⟨hpav, hcar⟩
  refine congrArg Host.Outcome.next ?_
  rw [hj']
  exact if_pos hcond

/-- The state after the words that the spec leaves open are drawn. -/
def State.drawn (s : State) : State := { s with free := s.free + 1 }

theorem flatFinish_fits {slots : List Nat} {p : Packed} (hp : s.flatPacked t slots = some p) (hb : p.bandsOk (s.hactive t) = true) :
    s.flatFinish t slots = s.drawn.flatFit t (s.drawn.flatSaving t slots) slots p := by
  unfold State.flatFinish
  rw [hp]
  exact if_pos hb

theorem flatFit_room {saving o : Nat} {slots : List Nat} {p : Packed} (ho : s.poolFind (s.flatRuns.map (·.2)) p.size = some o) :
    s.flatFit t saving slots p = s.flatPlace t o saving slots p := by
  unfold State.flatFit
  dsimp only
  rw [ho]

theorem flatFit_waits {saving : Nat} {slots : List Nat} {p : Packed} {v : Nat × FlatRun} {vs : List (Nat × FlatRun)}
    (ho : s.poolFind (s.flatRuns.map (·.2)) p.size = none)
    (hplan : s.evictPlan (s.flatRuns.filter fun x => x.2.ending != some 2) p.size []
      (sortBy evictLe (s.flatRuns.filter fun x => x.2.ending != some 2)) = some (v :: vs))
    (hcost : saving ≤ ((v :: vs).map fun x => x.2.saving).foldl (· + ·) 0) : s.flatFit t saving slots p = s := by
  unfold State.flatFit
  dsimp only
  rw [ho]
  dsimp only
  rw [hplan]
  dsimp only
  rw [if_neg (by simp), if_neg (Nat.not_lt.mpr hcost)]

/-- The pool's room depends on OG_POOL alone. -/
theorem poolFind_congr {u : State} (h : u.rd OG_POOL = s.rd OG_POOL) (rs : List FlatRun) (n : Nat) : u.poolFind rs n = s.poolFind rs n := by
  unfold State.poolFind State.poolBase State.poolSize State.get
  rw [h]

theorem evictPlan_congr {u : State} (h : u.rd OG_POOL = s.rd OG_POOL) (stay : List (Nat × FlatRun)) (n : Nat) (vs : List (Nat × FlatRun)) :
    ∀ done, u.evictPlan stay n done vs = s.evictPlan stay n done vs := by
  induction vs with
  | nil =>
    intro done
    simp only [State.evictPlan, poolFind_congr h]
  | cons v vs ih =>
    intro done
    simp only [State.evictPlan, poolFind_congr h, ih]

end

/-- Settles O15: the start on an eligible run, and the three ends of an attempt: placed, waiting for room, and abandoned. -/
theorem flatteningCompletes : Obligations.FlatteningCompletes := by
  unfold Obligations.FlatteningCompletes
  intro s now tl
  refine ⟨fun hel => ?_, fun j hj hpav hcar => ⟨fun p o hp hb ho => ?_, fun p v vs hp hb ho hplan hcost => ?_, ?_⟩⟩
  · obtain ⟨hjob, hq⟩ := flatStart_spec (s := s.tick now) (t := tl.val)
    exact ⟨_, congrArg Host.Outcome.next (if_pos hel), hjob, ((quiet_tick s now).mono (by simp)).trans hq⟩
  · have hrun := flattenComplete_runs (now := now) (lost := false) hj hpav hcar
    rw [if_neg Bool.false_ne_true, flatFinish_fits hp hb, flatFit_room (s := (s.tick now).drawn) (ho : (s.tick now).drawn.poolFind _ _ = _)] at hrun
    obtain ⟨⟨r, hjob, hflat, hr⟩, htouch⟩ := flatPlace_spec (s := (s.tick now).drawn) (t := tl.val) o
      ((s.tick now).drawn.flatSaving tl.val j.slots) j.slots p
    have hfirst : s.quiet (s.tick now).drawn placeWords := quiet_of_same rfl rfl rfl rfl rfl rfl
    have hall := hfirst.touches.trans htouch
    obtain ⟨hslots, hoff, hbytes, huse⟩ := hr
    exact ⟨_, r, hrun, hjob, hflat, hslots, hoff, hbytes, huse, hall.mem, hall.store, hall.regs⟩
  · have hrun := flattenComplete_runs (now := now) (lost := false) hj hpav hcar
    have hpool : (s.tick now).drawn.rd OG_POOL = s.rd OG_POOL := rfl
    have hruns : (s.tick now).drawn.flatRuns = s.flatRuns := rfl
    have hcost' : (s.tick now).drawn.flatSaving tl.val j.slots ≤ ((v :: vs).map fun x => x.2.saving).foldl (· + ·) 0 := hcost
    rw [if_neg Bool.false_ne_true, flatFinish_fits hp hb, flatFit_waits (s := (s.tick now).drawn) (v := v) (vs := vs) (by rw [poolFind_congr hpool, hruns]; exact ho)
      (by rw [evictPlan_congr hpool, hruns]; exact hplan) hcost'] at hrun
    exact hrun
  · obtain ⟨hjob, hflat, hcnt, hq⟩ := flatAbandon_spec (s := s.tick now) (t := tl.val)
    exact ⟨_, flattenComplete_runs (now := now) (lost := true) hj hpav hcar, hjob, hflat, hcnt, ((quiet_tick s now).mono (by simp)).trans hq⟩

end Sys2Proof.Machine
end

section

namespace Sys2Proof.Machine

/-! ## The fetch side of a slot -/

section

variable {s t u : State} {sl : Nat}

theorem fetchAt_congr (h : t.fetch = s.fetch) (k : Nat) : t.fetchAt k = s.fetchAt k := congrArg (fun x => tget (fun _ => SlotFetch.reset) x k) h

theorem fetchAt_set (v : SlotFetch) : (s.setFetchAt sl v).fetchAt sl = v := by
  rw [fetchAt_setFetchAt, if_pos rfl]

theorem fetchAt_put (a : Nat) (f : Fld) (n k : Nat) : (s.put a f n).fetchAt k = s.fetchAt k := fetchAt_congr (put_fetch ..) k

theorem fetchAt_bump (a : Nat) (f : Fld) (n k : Nat) : (s.bump a f n).fetchAt k = s.fetchAt k := fetchAt_congr (bump_fetch ..) k

theorem State.traffic.fetchAt {but : List Nat} (h : s.traffic t but) (k : Nat) : t.fetchAt k = s.fetchAt k := fetchAt_congr (by rw [h.same]) k

theorem onlyEvents_fetchAt (h : s.onlyEvents t) (k : Nat) : t.fetchAt k = s.fetchAt k := fetchAt_congr (by rw [h.1]) k

theorem slotName_congr (h : t.isl = s.isl) (k : Nat) : t.slotName k = s.slotName k := by
  unfold State.slotName State.pvName
  rw [h]

/-! ### Losses -/

/-- What a slot's fetch side holds of the groups, apart from its figures. -/
structure SlotFetch.sameGroups (f g : SlotFetch) : Prop where
  issued : g.issued = f.issued
  got : g.got = f.got
  lost : g.lost = f.lost

theorem modFigs_same (f : SlotFetch) (next : Bool) (k : SlotFigs → SlotFigs) : f.sameGroups (f.modFigs next k) := by
  cases next <;> exact ⟨rfl, rfl, rfl⟩

/-- The bit that a cause of a loss sets. -/
def lossBit (cause : Nat) : Fld := if cause = 1 then LY_LATE_STAT_LATE else if cause = 6 then LY_LATE_STAT_RACE else LY_LATE_STAT_BADDATA

/-- The figures with the first cause of a loss. -/
def State.firstCause (s : State) (sl : Nat) (next : Bool) (cause : Nat) : State :=
  s.setFetchAt sl ((s.fetchAt sl).modFigs next fun g => { g with lateCause := if g.lateCause = 0 then cause else g.lateCause })

/-- A loss is shown. -/
def State.lossSeen (s : State) (sl cause : Nat) : State :=
  (s.put (LY_LATE_STAT (s.slotName sl)) (lossBit cause) 1).put (LY_LATE_STAT (s.slotName sl)) LY_LATE_STAT_CAUSE cause

theorem noteLoss_eq (next : Bool) (spec : Option Nat) (cause : Nat) :
    s.noteLoss sl next spec cause = if spec.isSome then s else (s.firstCause sl next cause).lossSeen sl cause := rfl

/-- What a noted loss leaves. -/
structure State.losing (s t : State) (sl : Nat) : Prop where
  isl : t.isl = s.isl
  quiet : s.quiet t [LY_LATE_STAT (s.slotName sl)]

theorem State.losing.trans (h : s.losing t sl) (k : t.losing u sl) : s.losing u sl := by
  have hq := k.quiet
  rw [slotName_congr h.isl] at hq
  exact ⟨k.isl.trans h.isl, h.quiet.trans hq⟩

theorem losing_refl (s : State) (sl : Nat) : s.losing s sl := ⟨rfl, quiet_of_same rfl rfl rfl rfl rfl rfl⟩

theorem setFetchAt_losing (v : SlotFetch) : s.losing (s.setFetchAt sl v) sl := ⟨rfl, (still_setFetchAt ..).quiet⟩

theorem lossSeen_losing (cause : Nat) : s.losing (s.lossSeen sl cause) sl :=
  ⟨rfl, ((losing_refl s sl).quiet.put _ _ (by simp)).put _ _ (by simp)⟩

theorem lossSeen_late (h : s.slotName sl = k) : (s.lossSeen sl 1).get (LY_LATE_STAT k) LY_LATE_STAT_LATE = 1 ∧
    (s.lossSeen sl 1).get (LY_LATE_STAT k) LY_LATE_STAT_CAUSE = 1 := by
  unfold State.lossSeen
  rw [h]
  refine ⟨?_, get_put_same _ _ _ _ (by decide)⟩
  rw [get_put_apart _ _ _ _ _ (by decide) (by decide)]
  exact get_put_same _ _ _ _ (by decide)

theorem noteLoss_spec (next : Bool) (spec : Option Nat) (cause : Nat) :
    s.losing (s.noteLoss sl next spec cause) sl ∧ (s.fetchAt sl).sameGroups ((s.noteLoss sl next spec cause).fetchAt sl) := by
  rw [noteLoss_eq]
  split
  · exact ⟨losing_refl .., rfl, rfl, rfl⟩
  · have hf : ((s.firstCause sl next cause).lossSeen sl cause).fetchAt sl = (s.firstCause sl next cause).fetchAt sl :=
      (fetchAt_put ..).trans (fetchAt_put ..)
    refine ⟨(setFetchAt_losing _).trans (lossSeen_losing _), ?_⟩
    rw [hf]
    unfold State.firstCause
    rw [fetchAt_set]
    exact modFigs_same ..

/-- What the loss of a group leaves. -/
structure State.loses (s t : State) (sl : Nat) (next : Bool) (x : LostGroup) : Prop where
  losing : s.losing t sl
  issued : (t.fetchAt sl).issued = (s.fetchAt sl).issued.filter fun i => !(i.next == next && i.group == x.group)
  got : (t.fetchAt sl).got = (s.fetchAt sl).got
  lost : (t.fetchAt sl).lost = (s.fetchAt sl).lost ++ [x]

theorem loseGroup_spec (next : Bool) (need : Nat) (g : Group) (spec : Option Nat) (cause : Nat) :
    s.loses (s.loseGroup sl next need g spec cause) sl next ⟨g, next, need, spec, cause⟩ := by
  unfold State.loseGroup
  extract_lets f mine v
  obtain ⟨hlose, hissued, hgot, hlost⟩ := noteLoss_spec (s := v) (sl := sl) next spec cause
  have hv : v.fetchAt sl = { f with
      issued := f.issued.filter fun i => !mine i, gone := f.gone ++ f.issued.filter mine, lost := f.lost ++ [⟨g, next, need, spec, cause⟩] } :=
    fetchAt_set _
  rw [hv] at hissued hgot hlost
  exact ⟨(setFetchAt_losing _).trans hlose, hissued, hgot, hlost⟩

/-- A late group of a confirmed frame is shown. -/
theorem loseGroup_late (next : Bool) (need : Nat) (g : Group) :
    (s.loseGroup sl next need g none 1).get (LY_LATE_STAT (s.slotName sl)) LY_LATE_STAT_LATE = 1 ∧
      (s.loseGroup sl next need g none 1).get (LY_LATE_STAT (s.slotName sl)) LY_LATE_STAT_CAUSE = 1 := by
  unfold State.loseGroup
  extract_lets f mine v
  rw [noteLoss_eq]
  exact lossSeen_late rfl

/-! ### Deadlines -/

/-- What a pass over missing groups leaves. -/
structure State.passes (s t : State) (sl : Nat) (next : Bool) (ms : List (Nat × Group)) : Prop where
  losing : s.losing t sl
  got : (t.fetchAt sl).got = (s.fetchAt sl).got
  kept : ∀ z ∈ (s.fetchAt sl).lost, z ∈ (t.fetchAt sl).lost
  lost : ∀ m ∈ ms, ∃ z ∈ (t.fetchAt sl).lost, z.group = m.2 ∧ z.next = next ∧ z.need = m.1

theorem losses_pass (next : Bool) (ms : List (Nat × Group)) (s : State) :
    s.passes (ms.foldl (fun s x => s.loseGroup sl next x.1 x.2 none (s.missCause sl next x.2)) s) sl next ms := by
  induction ms generalizing s with
  | nil => exact ⟨losing_refl .., rfl, fun _ hz => hz, fun _ hm => nomatch hm⟩
  | cons m ms ih =>
    have hone := loseGroup_spec (s := s) (sl := sl) next m.1 m.2 none (s.missCause sl next m.2)
    have hrest := ih (s.loseGroup sl next m.1 m.2 none (s.missCause sl next m.2))
    rw [List.foldl_cons]
    refine ⟨hone.losing.trans hrest.losing, hrest.got.trans hone.got, fun z hz => hrest.kept z ?_, fun x hx => ?_⟩
    · rw [hone.lost]
      exact List.mem_append_left _ hz
    · obtain rfl | hx := List.mem_cons.1 hx
      · refine ⟨_, hrest.kept ⟨x.2, next, x.1, none, s.missCause sl next x.2⟩ ?_, rfl, rfl, rfl⟩
        rw [hone.lost]
        simp
      · exact hrest.lost x hx

theorem deadlinePass_passes (next : Bool) : s.passes (s.deadlinePass sl next) sl next (s.missed sl next) := losses_pass ..

theorem deadlinePass_none (next : Bool) (h : s.missed sl next = []) : s.deadlinePass sl next = s := by
  unfold State.deadlinePass
  rw [h]
  rfl

/-- Only one of the two frames can miss groups: the present one until the next is latched, then the next one. -/
theorem missed_other (h : s.missed sl false ≠ []) : s.missed sl true = [] := by
  unfold State.missed at h ⊢
  dsimp only at h ⊢
  cases hl : (s.scanAt (s.slotTl sl)).latched with
  | true =>
    rw [hl] at h
    simp at h
  | false => simp

theorem deadlines_spec : ∃ t, (s.deadlinePass sl false).deadlinePass sl true = t ∧ s.losing t sl ∧ (t.fetchAt sl).got = (s.fetchAt sl).got ∧
    ∀ next, ∀ m ∈ s.missed sl next, ∃ z ∈ (t.fetchAt sl).lost, z.group = m.2 ∧ z.next = next ∧ z.need = m.1 := by
  by_cases h : s.missed sl false = []
  · have hp := deadlinePass_passes (s := s) (sl := sl) true
    refine ⟨_, rfl, ?_⟩
    rw [deadlinePass_none false h]
    refine ⟨hp.losing, hp.got, fun next m hm => ?_⟩
    cases next with
    | false => rw [h] at hm; exact nomatch hm
    | true => exact hp.lost m hm
  · have hp := deadlinePass_passes (s := s) (sl := sl) false
    have hq := deadlinePass_passes (s := s.deadlinePass sl false) (sl := sl) true
    refine ⟨_, rfl, hp.losing.trans hq.losing, hq.got.trans hp.got, fun next m hm => ?_⟩
    cases next with
    | false =>
      obtain ⟨z, hz, hm⟩ := hp.lost m hm
      exact ⟨z, hq.kept z hz, hm⟩
    | true => rw [missed_other h] at hm; exact nomatch hm

end

end Sys2Proof.Machine
end

section

namespace Sys2Proof.Machine

/-! ## The issue of a group -/

section

variable {s t u : State} {sl : Nat}

/-- The layer of a slot for a frame. -/
def State.layerFor (s : State) (sl : Nat) (next : Bool) : LayerCfg := s.layer (s.bankFor (s.slotTl sl) next) sl

/-- The span of a group of a slot's layer with entry `e`. -/
def State.spanFor (s : State) (sl : Nat) (next : Bool) (g : Group) (e : SurfEntry) : Nat × Nat :=
  ({ s.layerFor sl next with entry := e } : LayerCfg).groupSpan g

/-- The record of a group that is issued. -/
def State.issueRecord (s : State) (sl : Nat) (next : Bool) (y : Nat) (g : Group) (e : SurfEntry) (idx : Option Nat) : Issued where
  group := g
  next := next
  need := y
  deadline := s.blendEntry (s.slotTl sl) next y - s.latNs
  spec := s.specTag (s.slotTl sl) next
  entry := e
  index := idx

/-- The group stands behind the issued ones, and its speculative bytes are counted. -/
def State.recorded (s : State) (sl t n : Nat) (i : Issued) : State :=
  let v := s.setFetchAt sl { s.fetchAt sl with issued := (s.fetchAt sl).issued ++ [i] }
  if i.spec.isSome then v.bump (AD_SPEC_BYTES t) AD_SPEC_BYTES_COUNT (cdiv n 64) else v

theorem recorded_fetchAt (k n : Nat) (i : Issued) :
    (s.recorded sl k n i).fetchAt sl = { s.fetchAt sl with issued := (s.fetchAt sl).issued ++ [i] } := by
  unfold State.recorded
  extract_lets f v
  split
  · exact (fetchAt_bump ..).trans (fetchAt_set _)
  · exact fetchAt_set _

theorem recorded_isl (k n : Nat) (i : Issued) : (s.recorded sl k n i).isl = s.isl := by
  unfold State.recorded
  extract_lets f v
  split <;> rfl

theorem recorded_quiet (k n : Nat) (i : Issued) : s.quiet (s.recorded sl k n i) [AD_SPEC_BYTES k] := by
  unfold State.recorded
  extract_lets f v
  have hv : s.quiet v [AD_SPEC_BYTES k] := (still_setFetchAt ..).quiet
  split
  · exact hv.bump _ _ (by simp)
  · exact hv

theorem recorded_get (k n : Nat) (i : Issued) {a : Nat} (ha : a ≠ AD_SPEC_BYTES k) (f : Fld) : (s.recorded sl k n i).get a f = s.get a f := by
  unfold State.recorded
  extract_lets f v
  split
  · exact get_bump_ne _ _ _ _ ha
  · rfl

theorem recorded_hwOk (k n : Nat) (i : Issued) (p o m : Nat) : (s.recorded sl k n i).hwOk p o m = s.hwOk p o m := by
  have hlink : HP_LINK p ≠ AD_SPEC_BYTES k := by unfold HP_LINK AD_SPEC_BYTES; omega
  have hsize : HP_HW_SIZE p ≠ AD_SPEC_BYTES k := by unfold HP_HW_SIZE AD_SPEC_BYTES; omega
  unfold State.hwOk State.hwSize State.linkUp State.on
  rw [recorded_get k n i hlink, recorded_get k n i hlink, recorded_get k n i hlink, recorded_get k n i hsize]

/-- How a group goes to the memory or through its window (R134, R224, R252). -/
def State.issueGoes (s : State) (f : SlotFetch) (sl : Nat) (next : Bool) (y : Nat) (g : Group) (i : Issued) (kind : ReadKind) (sp : Nat × Nat) : State :=
  let sent := match windowOf sp.1 with
    | some (p, o) => s.hwOk p o sp.2
    | none => true
  let s := s.busIssue sp.1 sp.2 (fetchClass i.entry) i.deadline kind
  if !sent then (s.setFetchAt sl f).loseGroup sl next y g i.spec 4
  else if fetchClass i.entry = .besteffort then s.hostCharge sp.1 sp.2
  else s

theorem groupIssue_goes (next : Bool) (y : Nat) (g : Group) (e : SurfEntry) (idx : Option Nat) :
    ∃ kind, s.groupIssue sl next y g e idx =
      (s.recorded sl (s.slotTl sl) (s.spanFor sl next g e).2 (s.issueRecord sl next y g e idx)).issueGoes (s.fetchAt sl) sl next y g
        (s.issueRecord sl next y g e idx) kind (s.spanFor sl next g e) := ⟨_, rfl⟩

theorem issueGoes_local {f : SlotFetch} {next : Bool} {y : Nat} {g : Group} {i : Issued} {kind : ReadKind} {sp : Nat × Nat}
    (hsp : windowOf sp.1 = none) (he : windowOf i.entry.base = none) : s.traffic (s.issueGoes f sl next y g i kind sp) [] := by
  have hclass : fetchClass i.entry ≠ .besteffort := by
    unfold fetchClass
    rw [he]
    decide
  unfold State.issueGoes State.busIssue
  rw [hsp]
  dsimp only
  rw [if_neg (by decide), if_neg hclass]
  exact request_traffic ..

theorem issueGoes_window {f : SlotFetch} {next : Bool} {y : Nat} {g : Group} {i : Issued} {kind : ReadKind} {sp : Nat × Nat} {p o : Nat}
    (hsp : windowOf sp.1 = some (p, o)) (hok : s.hwOk p o sp.2 = true) : s.traffic (s.issueGoes f sl next y g i kind sp) (windowCharge p) := by
  have hissue : s.busIssue sp.1 sp.2 (fetchClass i.entry) i.deadline kind = s.sent p o sp.1 sp.2 := by
    unfold State.busIssue
    rw [hsp]
    exact if_pos hok
  have hcharge : (s.sent p o sp.1 sp.2).traffic ((s.sent p o sp.1 sp.2).hostCharge sp.1 sp.2) (windowCharge p) := by
    unfold State.hostCharge
    rw [hsp]
    exact traffic_ite (hubCharge_precise _) (traffic_refl ..)
  unfold State.issueGoes
  rw [hissue, hsp]
  dsimp only
  rw [hok, if_neg (by decide)]
  exact traffic_ite ((sent_asks ..).traffic.trans hcharge) (sent_asks ..).traffic

theorem hwError_get (p : Nat) : (s.hwError p).get (HP_HW_STAT p) HP_HW_STAT_ERR = 1 := by
  unfold State.hwError State.bump
  rw [get_put_apart _ _ _ _ _ (by decide) (by decide)]
  exact get_put_same _ _ _ _ (by decide)

theorem issueGoes_unsent {f : SlotFetch} {next : Bool} {y : Nat} {g : Group} {i : Issued} {kind : ReadKind} {sp : Nat × Nat} {p o : Nat}
    (hsp : windowOf sp.1 = some (p, o)) (hok : s.hwOk p o sp.2 = false) :
    s.issueGoes f sl next y g i kind sp = ((s.hwError p).setFetchAt sl f).loseGroup sl next y g i.spec 4 := by
  have hissue : s.busIssue sp.1 sp.2 (fetchClass i.entry) i.deadline kind = s.hwError p := by
    unfold State.busIssue
    rw [hsp]
    exact if_neg (Bool.eq_false_iff.1 hok)
  unfold State.issueGoes
  rw [hissue, hsp]
  dsimp only
  rw [hok]
  exact if_pos rfl

theorem issueNext_plain {next : Bool} {y : Nat} {g : Group} (h : s.groupToIssue sl = some (next, y, g)) (hr : (s.layerFor sl next).race = false) :
    s.issueNext sl = s.groupIssue sl next y g (s.layerSurface (s.layerFor sl next)).1 (s.layerSurface (s.layerFor sl next)).2 := by
  unfold State.issueNext
  rw [h]
  exact if_neg (Bool.eq_false_iff.1 hr)

theorem raceStart_made {next : Bool} {l : LayerCfg} {g : Group} {use : RaceUse} (h : (s.fetchAt sl).raceFor next = some use) :
    s.raceStart sl next l g = (s, use) := by
  unfold State.raceStart
  dsimp only
  rw [h]

theorem issueNext_held {next : Bool} {y : Nat} {g : Group} {use : RaceUse} (h : s.groupToIssue sl = some (next, y, g))
    (hr : (s.layerFor sl next).race = true) (hu : (s.fetchAt sl).raceFor next = some use) (hh : s.raceHeld (s.layerFor sl next) use g = true) :
    s.issueNext sl = s := by
  have hrace : s.raceStart sl next (s.layerFor sl next) g = (s, use) := raceStart_made hu
  unfold State.issueNext
  rw [h]
  dsimp only
  rw [show s.layer (s.bankFor (s.slotTl sl) next) sl = s.layerFor sl next from rfl, if_pos hr, hrace]
  exact if_pos hh

theorem layerSurface_entry (l : LayerCfg) : (s.layerSurface l).1 = l.entry := by
  unfold State.layerSurface
  split <;> rfl

/-- The group to be issued is one that the slot does not know. -/
theorem groupToIssue_unknown {next : Bool} {y : Nat} {g : Group} (h : s.groupToIssue sl = some (next, y, g)) :
    (s.fetchAt sl).knows next g = false := by
  have hnext {b : Bool} {x : Nat × Group} (hx : s.nextGroup sl b = some x) : (s.fetchAt sl).knows b x.2 = false := by
    unfold State.nextGroup at hx
    dsimp only at hx
    split at hx
    · simpa using List.find?_some hx
    · cases hx
  unfold State.groupToIssue at h
  dsimp only at h
  split at h
  next x hx =>
    split at h
    · cases h
      exact hnext hx
    · cases h
  next =>
    split at h
    · split at h
      next x hx =>
        split at h
        · cases h
          exact hnext hx
        · cases h
      next => cases h
    · cases h

/-- No issued group of the frame is the one that the slot does not know. -/
theorem unknown_issued {f : SlotFetch} {next : Bool} {g : Group} (h : f.knows next g = false) :
    f.issued.filter (fun i => !(i.next == next && i.group == g)) = f.issued := by
  unfold SlotFetch.knows at h
  rw [Bool.or_eq_false_iff, Bool.or_eq_false_iff, Bool.or_eq_false_iff] at h
  obtain ⟨⟨⟨hissued, _⟩, _⟩, _⟩ := h
  rw [List.filter_eq_self]
  intro i hi
  rw [Bool.not_eq_true']
  exact Bool.eq_false_iff.2 (List.any_eq_false.1 hissued i hi)

end

end Sys2Proof.Machine
end

section

namespace Sys2Proof.Machine

/-! ## Fetching (O14) -/

section

variable {s t u : State} {sl : Nat}

/-! ### A group is issued -/

/-- A group stands behind the issued ones, with its frame, need line and deadline. -/
def State.made (s t : State) (sl : Nat) (next : Bool) (y : Nat) (g : Group) : Prop :=
  ∃ i, (t.fetchAt sl).issued = (s.fetchAt sl).issued ++ [i] ∧ i.group = g ∧ i.next = next ∧ i.need = y ∧
    i.deadline = s.blendEntry (s.slotTl sl) next y - s.latNs ∧ i.spec = s.specTag (s.slotTl sl) next

section

variable {next : Bool} {y : Nat} {g : Group} (hg : s.groupToIssue sl = some (next, y, g)) (hr : (s.layerFor sl next).race = false)

include hg hr

/-- What is issued goes out with its record in the slot. -/
theorem issueNext_goes : ∃ i kind, i.entry = (s.layerFor sl next).entry ∧ i.spec = s.specTag (s.slotTl sl) next ∧
    (∀ n, s.made (s.recorded sl (s.slotTl sl) n i) sl next y g) ∧
    s.issueNext sl = (s.recorded sl (s.slotTl sl) (s.spanFor sl next g (s.layerSurface (s.layerFor sl next)).1).2 i).issueGoes (s.fetchAt sl) sl
      next y g i kind (s.spanFor sl next g (s.layerSurface (s.layerFor sl next)).1) := by
  obtain ⟨kind, hkind⟩ := groupIssue_goes (s := s) (sl := sl) next y g (s.layerSurface (s.layerFor sl next)).1
    (s.layerSurface (s.layerFor sl next)).2
  refine ⟨_, kind, layerSurface_entry _, rfl, fun n => ?_, (issueNext_plain hg hr).trans hkind⟩
  exact ⟨_, congrArg SlotFetch.issued (recorded_fetchAt _ n _), rfl, rfl, rfl, rfl, rfl⟩

theorem issueNext_local (hsp : windowOf (s.spanFor sl next g (s.layerSurface (s.layerFor sl next)).1).1 = none)
    (hbase : windowOf (s.layerFor sl next).entry.base = none) :
    s.made (s.issueNext sl) sl next y g ∧ s.quiet (s.issueNext sl) [AD_SPEC_BYTES (s.slotTl sl)] := by
  obtain ⟨i, kind, hentry, -, hmade, heq⟩ := issueNext_goes hg hr
  obtain ⟨j, hissued, hj⟩ := hmade (s.spanFor sl next g (s.layerSurface (s.layerFor sl next)).1).2
  rw [heq]
  have htraffic := issueGoes_local (s := s.recorded sl (s.slotTl sl) (s.spanFor sl next g (s.layerSurface (s.layerFor sl next)).1).2 i) (sl := sl)
    (f := s.fetchAt sl) (next := next) (y := y) (g := g) (i := i) (kind := kind) hsp (by rw [hentry]; exact hbase)
  exact ⟨⟨j, (congrArg SlotFetch.issued (htraffic.fetchAt sl)).trans hissued, hj⟩, (recorded_quiet ..).trans (htraffic.quiet.mono (by simp))⟩

variable {p o : Nat} (hsp : windowOf (s.spanFor sl next g (s.layerSurface (s.layerFor sl next)).1).1 = some (p, o))

include hsp

theorem issueNext_window (hok : s.hwOk p o (s.spanFor sl next g (s.layerSurface (s.layerFor sl next)).1).2 = true) :
    s.made (s.issueNext sl) sl next y g ∧ s.quiet (s.issueNext sl) (AD_SPEC_BYTES (s.slotTl sl) :: hubQueueWords) := by
  obtain ⟨i, kind, -, -, hmade, heq⟩ := issueNext_goes hg hr
  obtain ⟨j, hissued, hj⟩ := hmade (s.spanFor sl next g (s.layerSurface (s.layerFor sl next)).1).2
  rw [heq]
  have htraffic := issueGoes_window (s := s.recorded sl (s.slotTl sl) (s.spanFor sl next g (s.layerSurface (s.layerFor sl next)).1).2 i) (sl := sl)
    (f := s.fetchAt sl) (next := next) (y := y) (g := g) (i := i) (kind := kind) hsp (by rw [recorded_hwOk]; exact hok)
  have hport : p < 4 := by
    have hmem := windowOf_port hsp
    simp only [allPorts, List.mem_cons, List.not_mem_nil, or_false] at hmem
    omega
  exact ⟨⟨j, (congrArg SlotFetch.issued (htraffic.fetchAt sl)).trans hissued, hj⟩, ((recorded_quiet ..).mono (by simp)).trans
    (htraffic.quiet.mono fun a ha => List.mem_cons_of_mem _ (windowCharge_hub hport a ha))⟩

theorem issueNext_unsent (hok : s.hwOk p o (s.spanFor sl next g (s.layerSurface (s.layerFor sl next)).1).2 = false) :
    ((s.issueNext sl).fetchAt sl).issued = (s.fetchAt sl).issued ∧
      ((s.issueNext sl).fetchAt sl).lost = (s.fetchAt sl).lost ++ [⟨g, next, y, s.specTag (s.slotTl sl) next, 4⟩] ∧
      (s.issueNext sl).get (HP_HW_STAT p) HP_HW_STAT_ERR = 1 ∧
      s.quiet (s.issueNext sl) [AD_SPEC_BYTES (s.slotTl sl), HP_HW_STAT p, LY_LATE_STAT (s.slotName sl)] := by
  obtain ⟨i, kind, -, hspec, -, heq⟩ := issueNext_goes hg hr
  rw [heq]
  have hrec := recorded_quiet (s := s) (sl := sl) (s.slotTl sl) (s.spanFor sl next g (s.layerSurface (s.layerFor sl next)).1).2 i
  have hisl := recorded_isl (s := s) (sl := sl) (s.slotTl sl) (s.spanFor sl next g (s.layerSurface (s.layerFor sl next)).1).2 i
  rw [issueGoes_unsent hsp (by rw [recorded_hwOk]; exact hok), hspec]
  generalize s.recorded sl (s.slotTl sl) (s.spanFor sl next g (s.layerSurface (s.layerFor sl next)).1).2 i = v at hrec hisl ⊢
  have hlose := loseGroup_spec (s := (v.hwError p).setFetchAt sl (s.fetchAt sl)) (sl := sl) next y g (s.specTag (s.slotTl sl) next) 4
  have hf : ((v.hwError p).setFetchAt sl (s.fetchAt sl)).fetchAt sl = s.fetchAt sl := fetchAt_set _
  have hname : ((v.hwError p).setFetchAt sl (s.fetchAt sl)).slotName sl = s.slotName sl := slotName_congr hisl sl
  have herr : ((v.hwError p).setFetchAt sl (s.fetchAt sl)).get (HP_HW_STAT p) HP_HW_STAT_ERR = 1 := hwError_get p
  have hq := hlose.losing.quiet
  rw [hname] at hq
  have hissued := hlose.issued
  rw [hf, unknown_issued (groupToIssue_unknown hg)] at hissued
  have hlost := hlose.lost
  rw [hf] at hlost
  have hv : v.quiet ((v.hwError p).setFetchAt sl (s.fetchAt sl)) [HP_HW_STAT p] :=
    ((((quiet_of_same rfl rfl rfl rfl rfl rfl : v.quiet v [HP_HW_STAT p]).put _ _ (by simp)).bump _ _ (by simp)).trans (still_setFetchAt ..).quiet)
  refine ⟨hissued, hlost, ?_, ((hrec.mono (by simp)).trans (hv.mono (by simp))).trans (hq.mono (by simp))⟩
  rw [hq.get (lostCounter_page (by unfold HP_HW_STAT; omega)) (by simp only [List.mem_singleton]; unfold HP_HW_STAT LY_LATE_STAT; omega)]
  exact herr

end

/-! ### Data arrives -/

/-- A group's data no longer flies, and its surface is noted as read. -/
def State.groupRead (s : State) (sp : Nat × Nat) (used : List (Nat × Nat)) : State := { s with flying := s.flying.erase sp, used := used }

theorem fetchDone_groupRead (i : Issued) (sp : Nat × Nat) : ∃ used, ({ s with flying := s.flying.erase sp } : State).fetchDone i = s.groupRead sp used := by
  unfold State.fetchDone
  split
  · exact ⟨_, rfl⟩
  · exact ⟨_, rfl⟩

/-- The slot with its group `k` no longer issued. -/
def State.freed (s : State) (sl k : Nat) (sp : Nat × Nat) (used : List (Nat × Nat)) : State :=
  (s.groupRead sp used).setFetchAt sl { s.fetchAt sl with issued := (s.fetchAt sl).issued.eraseIdx k }

section

variable {k : Nat} {i : Issued} {bad : List (Nat × ReadRes)} (hi : (s.fetchAt sl).issued[k]? = some i) (host : List Byte)

include hi

theorem dataArrives_reset (hb : (bad.any fun b => b.2 == .islandReset) = true) :
    s.dataArrives sl k bad host = ({ s with flying := s.flying.erase (s.spanFor sl i.next i.group i.entry) } : State).setFetchAt sl
      { s.fetchAt sl with issued := (s.fetchAt sl).issued.set k { i with index := none } } := by
  unfold State.dataArrives
  dsimp only
  rw [hi]
  dsimp only
  rw [hb]
  exact if_pos rfl

theorem dataArrives_late (hb : (bad.any fun b => b.2 == .islandReset) = false)
    (hserves : s.serves (s.spanFor sl i.next i.group i.entry).1 (s.spanFor sl i.next i.group i.entry).2 = true)
    (hlate : s.blendEntry (s.slotTl sl) i.next i.need < s.dtime) :
    ∃ used, s.dataArrives sl k bad host =
      (s.freed sl k (s.spanFor sl i.next i.group i.entry) used).loseGroup sl i.next i.need i.group i.spec 1 := by
  obtain ⟨used, hused⟩ := fetchDone_groupRead (s := s) i (s.spanFor sl i.next i.group i.entry)
  refine ⟨used, ?_⟩
  unfold State.dataArrives
  extract_lets f
  rw [show f.issued[k]? = some i from hi]
  dsimp -zeta only
  extract_lets layer sp fails v x freed
  have hx : x = s.groupRead sp used := hused
  have hcond : ((bad.any fun b => b.2 == .islandReset) || !v.serves sp.1 sp.2) = false := by
    rw [hb, show v.serves sp.1 sp.2 = true from hserves]
    rfl
  rw [if_neg (Bool.eq_false_iff.1 hcond)]
  have hentry : x.blendEntry (x.slotTl sl) i.next i.need < x.dtime := by
    rw [hx]
    exact hlate
  rw [if_pos hentry]
  refine congrArg (fun z : State => (z.setFetchAt sl { f with issued := f.issued.eraseIdx k }).loseGroup sl i.next i.need i.group i.spec 1) hx

/-- A group that is not a band arrives with good data before its blend entry. -/
theorem dataArrives_row (hband : ∀ ty, i.group ≠ .band ty)
    (hserves : s.serves (s.spanFor sl i.next i.group i.entry).1 (s.spanFor sl i.next i.group i.entry).2 = true)
    (htime : s.dtime ≤ s.blendEntry (s.slotTl sl) i.next i.need)
    (hfly : windowOf i.entry.base = none ∨ s.flying.contains (s.spanFor sl i.next i.group i.entry) = true) :
    ∃ used, s.dataArrives sl k [] host = (s.freed sl k (s.spanFor sl i.next i.group i.entry) used).rowArrives sl i [] host := by
  obtain ⟨used, hused⟩ := fetchDone_groupRead (s := s) i (s.spanFor sl i.next i.group i.entry)
  refine ⟨used, ?_⟩
  have hfails : s.windowFailed i (s.spanFor sl i.next i.group i.entry) [] = false := by
    unfold State.windowFailed
    obtain hw | hf := hfly
    · rw [hw]
      rfl
    · rw [hf]
      exact Bool.and_false _
  unfold State.dataArrives
  extract_lets f
  rw [show f.issued[k]? = some i from hi]
  dsimp -zeta only
  extract_lets layer sp fails v x freed
  have hx : x = s.groupRead sp used := hused
  have hcond : ((([] : List (Nat × ReadRes)).any fun b => b.2 == .islandReset) || !v.serves sp.1 sp.2) = false := by
    rw [show v.serves sp.1 sp.2 = true from hserves]
    rfl
  have hentry : ¬ x.blendEntry (x.slotTl sl) i.next i.need < x.dtime := by
    rw [hx]
    exact Nat.not_lt.mpr htime
  have hsent : fails = false := hfails
  rw [if_neg (Bool.eq_false_iff.1 hcond), if_neg hentry, if_neg (Bool.eq_false_iff.1 hsent)]
  have hfreed : freed = s.freed sl k sp used := congrArg (fun z : State => z.setFetchAt sl { f with issued := f.issued.eraseIdx k }) hx
  rw [hfreed]
  split
  next ty hgroup => exact absurd hgroup (hband ty)
  next => rfl

end

theorem rowArrives_good {i : Issued} {host : List Byte} (hp : s.poison = []) :
    ∃ a : Arrived, s.rowArrives sl i [] host = s.setFetchAt sl { s.fetchAt sl with got := (s.fetchAt sl).got ++ [a] } ∧
      a.group = i.group ∧ a.next = i.next ∧ a.need = i.need ∧ a.bad = [] ∧
      a.data = s.fetched (s.spanFor sl i.next i.group i.entry).1 (s.spanFor sl i.next i.group i.entry).2 host := by
  have hblocks (a n : Nat) : s.badBlocks [] a n = [] := by
    unfold State.badBlocks
    rw [hp]
    rfl
  unfold State.rowArrives
  extract_lets t x l sp bb f first a v
  have hbb : bb = [] := hblocks ..
  have hbad : a.bad = [] := congrArg (List.map _) hbb
  rw [hbb, if_neg (by simp)]
  exact ⟨a, rfl, rfl, rfl, rfl, hbad, rfl⟩

theorem freed_quiet (k : Nat) (sp : Nat × Nat) (used : List (Nat × Nat)) (but : List Nat) : s.quiet (s.freed sl k sp used) but :=
  quiet_of_same rfl rfl rfl rfl rfl rfl

theorem freed_fetchAt (k : Nat) (sp : Nat × Nat) (used : List (Nat × Nat)) :
    (s.freed sl k sp used).fetchAt sl = { s.fetchAt sl with issued := (s.fetchAt sl).issued.eraseIdx k } := fetchAt_set _

theorem freed_got (k : Nat) (sp : Nat × Nat) (used : List (Nat × Nat)) : ((s.freed sl k sp used).fetchAt sl).got = (s.fetchAt sl).got := by
  rw [freed_fetchAt]

theorem freed_lost (k : Nat) (sp : Nat × Nat) (used : List (Nat × Nat)) : ((s.freed sl k sp used).fetchAt sl).lost = (s.fetchAt sl).lost := by
  rw [freed_fetchAt]

theorem freed_issued (k : Nat) (sp : Nat × Nat) (used : List (Nat × Nat)) :
    ((s.freed sl k sp used).fetchAt sl).issued = (s.fetchAt sl).issued.eraseIdx k := by
  rw [freed_fetchAt]

theorem freed_span (k : Nat) (sp : Nat × Nat) (used : List (Nat × Nat)) (next : Bool) (g : Group) (e : SurfEntry) :
    (s.freed sl k sp used).spanFor sl next g e = s.spanFor sl next g e := rfl

theorem freed_fetched (k : Nat) (sp : Nat × Nat) (used : List (Nat × Nat)) (a n : Nat) (host : List Byte) :
    (s.freed sl k sp used).fetched a n host = s.fetched a n host := rfl

/-! ### The tide deadline -/

theorem raceFor_setRace (f : SlotFetch) (next : Bool) (use : RaceUse) : (f.setRace next use).raceFor next = some use := by cases next <;> rfl

theorem specTag_put (t : Nat) (next : Bool) (a : Nat) (f : Fld) (v : Nat) :
    ((s.put a f v).specTag t next).isSome = (s.specTag t next).isSome := by
  unfold State.specTag
  rw [scanAt_put]
  split <;> rfl

section

variable {next : Bool} {y : Nat} {g : Group} {use : RaceUse} (hg : s.groupToIssue sl = some (next, y, g))
  (hu : (s.fetchAt sl).raceFor next = some use) (hr : (s.layerFor sl next).race = true) (hh : s.raceHeld (s.layerFor sl next) use g = true)
  (hd : s.blendEntry (s.slotTl sl) next y ≤ s.dtime + s.latNs + s.urgentNs)

include hg hu hr hh hd

theorem tide_whole (ht : (s.layerFor sl next).tide = false) :
    s.tide sl = s.setFetchAt sl ((s.fetchAt sl).setRace next { use with gaveUp := g :: use.gaveUp }) := by
  have hcond : (s.raceHeld (s.layerFor sl next) use g && decide (s.blendEntry (s.slotTl sl) next y ≤ s.dtime + s.latNs + s.urgentNs)) = true := by
    rw [hh, decide_eq_true hd]
    rfl
  unfold State.tide
  rw [hg]
  dsimp only
  rw [show s.layer (s.bankFor (s.slotTl sl) next) sl = s.layerFor sl next from rfl, hr, hu]
  dsimp only
  rw [if_pos hcond]
  exact if_neg (Bool.eq_false_iff.1 ht)

/-- The layer goes over to the completed buffer. -/
def State.switched (s : State) (sl : Nat) (next : Bool) (use : RaceUse) (b : Nat) : State :=
  let v := s.setFetchAt sl ((s.fetchAt sl).setRace next use)
  if (v.specTag (s.slotTl sl) next).isSome then v else v.put (LY_RACE_STAT (v.slotName sl)) LY_RACE_STAT_BUF b

theorem tide_split (ht : (s.layerFor sl next).tide = true) :
    s.tide sl = ((s.switched sl next { use with split := some (s.get (IG_STAT (s.layerFor sl next).raceSrc) IG_STAT_LAST) }
      (s.get (IG_STAT (s.layerFor sl next).raceSrc) IG_STAT_LAST)).reportTide (s.slotTl sl) sl next
        { use with split := some (s.get (IG_STAT (s.layerFor sl next).raceSrc) IG_STAT_LAST) } 1 g.cameraRow).1 := by
  have hcond : (s.raceHeld (s.layerFor sl next) use g && decide (s.blendEntry (s.slotTl sl) next y ≤ s.dtime + s.latNs + s.urgentNs)) = true := by
    rw [hh, decide_eq_true hd]
    rfl
  unfold State.tide
  rw [hg]
  dsimp only
  rw [show s.layer (s.bankFor (s.slotTl sl) next) sl = s.layerFor sl next from rfl, hr, hu]
  dsimp only
  rw [if_pos hcond]
  exact if_pos ht

end

theorem switched_spec (next : Bool) (use : RaceUse) (b : Nat) :
    ((s.switched sl next use b).fetchAt sl).raceFor next = some use ∧ (s.switched sl next use b).isl = s.isl ∧
      ((s.switched sl next use b).specTag (s.slotTl sl) next).isSome = (s.specTag (s.slotTl sl) next).isSome ∧
      s.quiet (s.switched sl next use b) [LY_RACE_STAT (s.slotName sl)] ∧
      (s.specTag (s.slotTl sl) next = none →
        (s.switched sl next use b).get (LY_RACE_STAT (s.slotName sl)) LY_RACE_STAT_BUF = b % 2 ^ LY_RACE_STAT_BUF.w) := by
  unfold State.switched
  extract_lets v
  have hv : (v.fetchAt sl).raceFor next = some use := by rw [fetchAt_set, raceFor_setRace]
  have hq : s.quiet v [LY_RACE_STAT (s.slotName sl)] := (still_setFetchAt ..).quiet
  have htag : v.specTag (s.slotTl sl) next = s.specTag (s.slotTl sl) next := rfl
  have hname : v.slotName sl = s.slotName sl := rfl
  rw [hname]
  split
  next h => exact ⟨hv, rfl, rfl, hq, fun hn => by rw [htag, hn] at h; cases h⟩
  next => exact ⟨by rw [fetchAt_put]; exact hv, rfl, specTag_put .., hq.put _ _ (by simp), fun _ => get_put_same _ _ _ _ (by decide)⟩

theorem reportTide_spec (tl row : Nat) (next : Bool) (use : RaceUse) (hu : (s.fetchAt sl).raceFor next = some use) :
    (∃ v, (((s.reportTide tl sl next use 1 row).1.fetchAt sl).raceFor next = some v ∧ v.buf = use.buf ∧ v.split = use.split)) ∧
      s.quiet (s.reportTide tl sl next use 1 row).1 [LY_LATE_STAT (s.slotName sl)] ∧
      ((s.specTag tl next).isSome = false → (s.reportTide tl sl next use 1 row).1.get (LY_LATE_STAT (s.slotName sl)) LY_LATE_STAT_TEAR = 1) := by
  have hlost : lostCounter (LY_LATE_STAT (s.slotName sl)) = false := lostCounter_page (by unfold LY_LATE_STAT; omega)
  unfold State.reportTide
  split
  next h =>
    refine ⟨⟨{ use with owed := use.owed ++ [(1, row)] }, ?_, rfl, rfl⟩, (still_setFetchAt ..).quiet, fun hn => absurd h (Bool.eq_false_iff.1 hn)⟩
    dsimp only
    rw [fetchAt_set, raceFor_setRace]
  next h =>
    unfold State.postTide
    rw [if_pos rfl]
    have hpost := postTl_only (s.put (LY_LATE_STAT (s.slotName sl)) LY_LATE_STAT_TEAR 1) tl 0x46 sl 1 row
    refine ⟨⟨use, ?_, rfl, rfl⟩, ?_, fun _ => ?_⟩
    · dsimp only
      rw [onlyEvents_fetchAt hpost, fetchAt_put]
      exact hu
    · exact ((quiet_of_same rfl rfl rfl rfl rfl rfl : s.quiet s [LY_LATE_STAT (s.slotName sl)]).put _ _ (by simp)).events hpost
    · exact (onlyEvents_get hpost _ hlost).trans (get_put_same _ _ _ _ (by decide))

end

/-- Settles O14: a group is issued, its data arrives, a deadline loses what is missing, and a racing slot goes over to the completed buffer. -/
theorem fetchCompletes : Obligations.FetchCompletes := by
  unfold Obligations.FetchCompletes
  intro s now sl x st hup
  have htick : s.quiet x [] := quiet_tick s now
  have hissue : exec (.fetchGroupIssue now sl) s = .next (x.issueNext sl.val) := congrArg Host.Outcome.next (if_pos hup)
  have hline : exec (.fetchDeadline now sl) s = .next ((x.deadlinePass sl.val false).deadlinePass sl.val true) :=
    congrArg Host.Outcome.next (if_pos hup)
  have htide : exec (.raceTideDeadline now sl) s = .next (x.tide sl.val) := congrArg Host.Outcome.next (if_pos hup)
  refine ⟨fun next y g hg => ?_, fun k i host hi => ?_, fun hf ht => ?_, ?_, fun next y g u hg hu hr hh hd => ⟨fun ht => ?_, fun ht => ?_⟩⟩
  · intro tl l sp made
    refine ⟨fun hr hsp hbase => ?_, fun p o hr hsp hok => ?_, fun p o hr hsp hok => ?_, fun u hr hu hh => ?_⟩
    · obtain ⟨hmade, hq⟩ := issueNext_local hg hr hsp hbase
      exact ⟨_, hissue, hmade, (htick.mono (by simp)).trans hq⟩
    · obtain ⟨hmade, hq⟩ := issueNext_window hg hr hsp hok
      exact ⟨_, hissue, hmade, (htick.mono (by simp)).trans hq⟩
    · obtain ⟨hissued, hlost, herr, hq⟩ := issueNext_unsent hg hr hsp hok
      exact ⟨_, hissue, hissued, hlost, herr, (htick.mono (by simp)).trans hq⟩
    · rw [hissue, issueNext_held hg hr hu hh]
  · intro sp
    have harrive (bad : List (Nat × ReadRes)) : exec (.fetchDataArrival now sl k bad host) s = .next (x.dataArrives sl.val k bad host) :=
      congrArg Host.Outcome.next (if_pos hup)
    refine ⟨fun hband htime hpoison hfly hserves => ?_, fun bad hb hserves hlate => ?_, fun bad hb => ?_⟩
    · obtain ⟨used, heq⟩ := dataArrives_row (s := x) hi host hband hserves htime hfly
      obtain ⟨a, hrow, hgroup, hnext, hneed, hbad, hdata⟩ := rowArrives_good (s := x.freed sl.val k (x.spanFor sl.val i.next i.group i.entry) used) (sl := sl.val) (i := i) (host := host) hpoison
      have hrun := harrive []
      rw [heq, hrow] at hrun
      rw [freed_span, freed_fetched] at hdata
      refine ⟨_, a, hrun, ?_, ?_, hgroup, hnext, hneed, hbad, hdata, (htick.trans (freed_quiet ..)).trans (still_setFetchAt ..).quiet⟩
      · rw [fetchAt_set]
        exact freed_issued ..
      · rw [fetchAt_set]
        exact congrArg (· ++ [a]) (freed_got ..)
    · obtain ⟨used, heq⟩ := dataArrives_late (s := x) hi host hb hserves hlate
      have hlose := loseGroup_spec (s := x.freed sl.val k (x.spanFor sl.val i.next i.group i.entry) used) (sl := sl.val) i.next i.need i.group i.spec 1
      have hrun := harrive bad
      rw [heq] at hrun
      refine ⟨_, hrun, hlose.lost.trans ?_, hlose.got.trans ?_, fun hs => ?_, (htick.mono (by simp)).trans ((freed_quiet ..).trans hlose.losing.quiet)⟩
      · exact congrArg (· ++ [⟨i.group, i.next, i.need, i.spec, 1⟩]) (freed_lost ..)
      · exact freed_got ..
      · rw [hs]
        exact loseGroup_late (s := x.freed sl.val k (x.spanFor sl.val i.next i.group i.entry) used) i.next i.need i.group
    · have hrun := harrive bad
      rw [dataArrives_reset (s := x) hi host hb] at hrun
      refine ⟨_, hrun, ?_, ?_, htick.trans ((quiet_of_same rfl rfl rfl rfl rfl rfl).trans (still_setFetchAt ..).quiet)⟩
      · rw [fetchAt_set]
        rfl
      · rw [fetchAt_set]
        rfl
  · rw [hline, deadlinePass_none false hf, deadlinePass_none true ht]
  · obtain ⟨t, ht, hlose, hgot, hlost⟩ := deadlines_spec (s := x) (sl := sl.val)
    rw [ht] at hline
    exact ⟨t, hline, hgot, hlost, (htick.mono (by simp)).trans hlose.quiet⟩
  · rw [tide_split hg hu hr hh hd ht] at htide
    obtain ⟨hrace, hisl, htag, hq, hbuf⟩ := switched_spec (s := x) (sl := sl.val) next
      { u with split := some (x.get (IG_STAT (x.layerFor sl.val next).raceSrc) IG_STAT_LAST) } (x.get (IG_STAT (x.layerFor sl.val next).raceSrc) IG_STAT_LAST)
    obtain ⟨⟨v, hv, hvbuf, hvsplit⟩, hq', htear⟩ := reportTide_spec (x.slotTl sl.val) g.cameraRow next _ hrace
    rw [slotName_congr hisl] at hq' htear
    refine ⟨_, v, htide, hv, hvbuf, hvsplit, fun hn => ⟨htear (by rw [htag]; exact congrArg Option.isSome hn), ?_⟩,
      ((htick.mono (by simp)).trans (hq.mono (by simp [st]; exact Or.inr rfl))).trans (hq'.mono (by simp; exact Or.inl rfl))⟩
    rw [hq'.get (lostCounter_page (by unfold LY_RACE_STAT; omega)) (by simp only [List.mem_singleton]; unfold LY_RACE_STAT LY_LATE_STAT; omega)]
    exact hbuf hn
  · rw [tide_whole hg hu hr hh hd ht] at htide
    exact ⟨_, htide, by rw [fetchAt_set, raceFor_setRace], htick.trans (still_setFetchAt ..).quiet⟩

end Sys2Proof.Machine
end
